-- ==== Sys2Proof/Word.lean ====
section
/-! DEFINITION. The word types of the device and their plainest arithmetic (R7, R8). -/

namespace Sys2Proof

/-- One byte, the smallest addressable unit (R8). -/
abbrev Byte := BitVec 8
/-- One 32-bit register (the width of every register whose name does not end in _64). -/
abbrev Word := BitVec 32
/-- One 64-bit register or Norsor general register. -/
abbrev Dword := BitVec 64

/-- A string of bytes, the first at the lowest address. -/
abbrev Bytes := List (BitVec 8)

/-- ⌈a / b⌉. -/
def ceilDiv (a b : Nat) : Nat := (a + b - 1) / b

/-- Bits [hi:lo] of a natural number (R7). -/
def natBits (x hi lo : Nat) : Nat := (x >>> lo) % (2 ^ (hi + 1 - lo))

/-- Bit k of a natural number (R7). -/
def natBit (x k : Nat) : Bool := x.testBit k

/-- 1 for true and 0 for false, at bit position k. -/
def flagAt (b : Bool) (k : Nat) : Nat := if b then 2 ^ k else 0

end Sys2Proof
end

