-- ==== Sys2Proof/Syntax.lean ====
section
/-! DEFINITION. The commands the block takes, one constructor per row of the opcode table, and the
data that a command carries. What stands in host memory, on a wire or on a pin is outside the block,
so a command that brings such data in carries it as an operand. -/

namespace Sys2Proof

/-- Who makes a register access (R16): a PCIe port, a core in marshal mode or the SMBus port. -/
inductive Requester where
  | port (p : Nat)
  | core (c : Nat)
  | smbus
  deriving DecidableEq, Repr

/-- The register space of an access (R44): BAR0 or BAR2. -/
inductive Space where
  | bar0
  | bar2
  deriving DecidableEq, Repr

/-- What a device read of host memory brought: the bytes, or the image offset of the first byte
that could not be read. -/
inductive Fetch where
  | ok (data : List (BitVec 8))
  | failAt (offset : Nat)
  deriving DecidableEq, Repr, Inhabited

/-- A command's identity: slice, submission queue and command identifier. -/
structure CmdId where
  slice : Nat
  sqid : Nat
  cid : Nat
  deriving DecidableEq, Repr

/-- The form of a data pointer as the device reads it (R235, R236). -/
inductive PtrForm where
  | ok
  | badSegment
  | badType
  | badOffset
  deriving DecidableEq, Repr, Inhabited

/-- A data pointer with its lists resolved: its form, the host or BAR4 ranges (address, length) it names, and where its
PRP lists and SGL segments themselves lie (R215, R235, R236). -/
structure DataPtr where
  sgl : Bool
  form : PtrForm
  ranges : List (Nat × Nat)
  lists : List (Nat × Nat) := []
  deriving DecidableEq, Repr, Inhabited

/-- A submission queue entry: the fields of a 64-byte NVMe command that the device reads; `rsvd` is bits 13 to 10 of
its first doubleword. -/
structure SqEntry where
  opc : Nat
  cid : Nat
  fuse : Nat
  psdt : Nat
  rsvd : Nat
  nsid : Nat
  cdw2 : BitVec 32
  cdw3 : BitVec 32
  mptr : Nat
  dptr : DataPtr
  cdw10 : BitVec 32
  cdw11 : BitVec 32
  cdw12 : BitVec 32
  cdw13 : BitVec 32
  cdw14 : BitVec 32
  cdw15 : BitVec 32
  deriving DecidableEq, Repr, Inhabited

/-- One logical block as it crosses the host link: its data and its interleaved metadata. -/
structure BlockData where
  data : List (BitVec 8)
  md : List (BitVec 8)
  deriving DecidableEq, Repr

/-- A run of logical blocks: first LBA and number of blocks (1-based). -/
structure LbaRange where
  slba : Nat
  count : Nat
  deriving DecidableEq, Repr

/-- The data structure of Namespace Management create: size in blocks, LBA format and protection
information type. -/
structure NsCreate where
  nsze : Nat
  lbaf : Nat
  dps : Nat
  deriving DecidableEq, Repr

/-- The keys a reservation command carries: the current and the new reservation key. -/
structure ResvKeys where
  crkey : BitVec 64
  nrkey : BitVec 64
  deriving DecidableEq, Repr

/-- The result of a polled external operation (R32): what the flash channel found. `level` is the
ladder level at which a read stopped (R413) and `corrected` its corrected bits; `tagOk` is the
comparison of R405. -/
inductive PollResult where
  | readOk (level corrected : Nat) (tagOk : Bool)
  | readFail
  | programOk
  | eraseOk
  deriving DecidableEq, Repr

/-- What starts a checkpoint (R359), apart from FTL_CMD CHECKPOINT. -/
inductive CkptCause where
  | interval
  | bandHalfFull
  | p3Entry
  | recoveryEnd
  deriving DecidableEq, Repr

/-- What identification finds of one die (R328, R394 to R396): its native geometry and profile. -/
structure DieReport where
  die : Nat
  qualified : Bool
  spareBytes : Nat
  pageBytes : Nat
  planes : Nat
  blocksPerPlane : Nat
  pagesPerBlock : Nat
  bitsPerCell : Nat
  peRated : Nat
  goodBlocks : Nat
  /-- Blocks that the die marks bad and those of the system area, as PLANE × 2^15 + BLOCK (R346). -/
  held : List Nat
  deriving DecidableEq, Repr

/-- The encoded word of a memory instruction: a 32-bit MM form or a 48-bit MD form (R466). -/
inductive MemForm where
  | mm (i : BitVec 32)
  | md (i : BitVec 48)
  deriving DecidableEq, Repr

/-- The encoded word of a repeated instruction (R479). -/
inductive RepWord where
  | w16 (i : BitVec 16)
  | w32 (i : BitVec 32)
  | w48 (i : BitVec 48)
  deriving DecidableEq, Repr

/-- The passing windows a DRAM byte lane's sweep found (R887): first and last passing step of the
read strobe and of the write data. -/
structure LaneSweep where
  rdFirst : Nat
  rdLast : Nat
  wrFirst : Nat
  wrLast : Nat
  deriving DecidableEq, Repr

/-- What identification and training find on one flash channel (R397). `pass` is, for the rates
3,600, 3,200, 2,400 and 1,600 MT/s in that order, whether every present die passes. -/
structure ChannelReport where
  ch : Nat
  dies : List DieReport
  pass : List Bool
  deriving DecidableEq, Repr

/-- What the starter and the restart find outside the device: the outcome of each step of R964 that
its own rules do not decide. -/
structure StartEnv where
  clockOk : Bool
  selfTestOk : Bool
  anchorsOk : Bool
  channels : List ChannelReport
  dramLanes : List (List LaneSweep)
  recordsOk : Bool
  sliceTableOk : Bool
  newestCkptOk : Bool
  p4RecordOk : Bool
  deriving DecidableEq, Repr

/-- What a power exit finds outside the device (R927). -/
structure ExitEnv where
  start : StartEnv
  deriving DecidableEq, Repr

/-- A register set of a recorder (R960): the BAR0 set, a window's own set, a window's mirror set and
the SMBus set. -/
inductive EvrSet where
  | bar0
  | own (slice : Nat)
  | mirror (slice : Nat)
  | smbus
  deriving DecidableEq, Repr

/-- Why a relay frame is discarded (R804, R806, R807, R808, R822). -/
inductive FrameDrop where
  | address
  | etherType
  | type
  | tag
  | nonce
  | hops
  deriving DecidableEq, Repr

/-- HELLO (R815). -/
structure HelloMsg where
  vMin : Nat
  vMax : Nat
  floor : Nat
  addr : Nat
  port : Nat
  deviceId : BitVec 64
  rosterSeq : Nat
  keyId : Nat
  chal : List (BitVec 8)
  deriving DecidableEq, Repr

/-- LINK_OFFER or LINK_ANSWER (R816): the encapsulation key or ciphertext, the certificate and the
attestation signature. -/
structure LinkMsg where
  body : List (BitVec 8)
  cert : List (BitVec 8)
  sig : List (BitVec 8)
  deriving DecidableEq, Repr

/-- PACE (R834), with the field times at which the receiver's port took the frame in. -/
structure PaceMsg where
  seq : Nat
  txPrev : Int
  rxSeq : Nat
  rxLast : Int
  rxAt : Int
  keyId : Nat
  deriving DecidableEq, Repr

/-- SUMMARY (R821): the field record of its source, its sequence and its neighbour entries. -/
structure SummaryMsg where
  src : Nat
  sumSeq : Nat
  vMax : Nat
  floor : Nat
  flags : Nat
  timeState : Nat
  events : List Nat
  nbrs : List (Nat × Nat)
  heard : Nat
  hops : Nat
  msgId : Nat
  keyId : Nat
  nonce : Nat × Nat
  deriving DecidableEq, Repr

/-- POST_REQ or RESYNC (R841). -/
structure PostMsg where
  pairSeq : Nat
  stampStride : Nat
  stampSeq : Nat
  primary : Nat
  partner : Nat
  nsid : Nat
  ranges : List LbaRange
  data : List BlockData
  deriving DecidableEq, Repr

/-- The identity that every migration message carries (R810). -/
structure MigIds where
  srcSlice : Nat
  dstSlice : Nat
  serial : Nat
  deriving DecidableEq, Repr

/-- A namespace as a migration baton describes it. -/
structure MigNs where
  nsid : Nat
  nsze : Nat
  lbaf : Nat
  dps : Nat
  deriving DecidableEq, Repr

/-- A key as a migration baton carries it (R149, R726, R745). -/
structure MigKey where
  slot : Nat
  k512 : Bool
  use : Nat
  child : Nat
  counter : Nat
  limit : Nat
  value : List (BitVec 8)
  deriving DecidableEq, Repr

/-- The contents of a migration baton after it is opened (R145, R149). `tagOk` is the GCM tag's
verdict under the migration wrapping key (R849); `pair` names the slice's delivery key pair (R755); `cores`,
`banks` and `dram` are its memories as bytes by offset (R145), and the rest is its slice log (R788). -/
structure MigImage where
  tagOk : Bool
  namespaces : List MigNs
  keys : List MigKey
  deliverySeq : Nat
  pair : Nat
  cores : List (List (Nat × BitVec 8))
  banks : List (List (Nat × BitVec 8))
  dram : List (Nat × BitVec 8)
  meas : List (BitVec 8)
  logEnts : List (List (BitVec 8))
  logCount : Nat
  deriving DecidableEq, Repr

/-- A MIG_DATA run (R850). -/
structure MigRun where
  nsid : Nat
  lost : Bool
  slba : Nat
  blocks : List BlockData
  count : Nat
  deriving DecidableEq, Repr

/-- What a read that begins at a register covers (R15, R16): its offset, and 4 bytes for the low half, 8 for the whole
register, 1 or 2 for bytes of it. -/
structure ReadSpan where
  off : Nat
  size : Nat
  deriving DecidableEq, Repr

/-- The commands of the block: one constructor per row of the table of operations and events,
in the table's order. -/
inductive Instr where
  /-- TICK (R33). -/
  | tick
  /-- POLL_COMPLETE (R32). -/
  | pollComplete (id : Nat) (r : PollResult)
  /-- LAP_BOUNDARY (R34). -/
  | lapBoundary
  /-- HEAT_LAP_LIMIT (R580). -/
  | heatLapLimit (c : CmdId)
  /-- REG_WRITE (R12). -/
  | regWrite (req : Requester) (sp : Space) (off size : Nat) (v : BitVec 64)
  /-- REG64_LOW_READ (R15, R16). -/
  | reg64LowRead (req : Requester) (sp : Space) (span : ReadSpan)
  /-- REG64_HIGH_READ (R16). -/
  | reg64HighRead (req : Requester) (sp : Space) (off : Nat)
  /-- REG64_LOW_WRITE (R16). -/
  | reg64LowWrite (req : Requester) (sp : Space) (off : Nat) (v : BitVec 32)
  /-- REG64_HIGH_WRITE (R16). -/
  | reg64HighWrite (req : Requester) (sp : Space) (off : Nat) (v : BitVec 32)
  /-- CMB_ACCESS (R54). -/
  | cmbAccess (port : Nat) (pasid : Option Nat) (off len : Nat) (wr : Option (List (BitVec 8)))
  /-- DOORBELL_WRITE (R210). -/
  | doorbellWrite (port slice : Nat) (cq : Bool) (qid value : Nat) (ents : List SqEntry)
  /-- LOAD (R90). -/
  | load (req : Requester)
  /-- APPLY (R90). -/
  | apply (req : Requester)
  /-- PERSIST (R93). -/
  | persist (req : Requester)
  /-- DISCARD (R90). -/
  | discard (req : Requester)
  /-- COURSE_VALIDATION_END (R85). -/
  | courseValidationEnd (img : Fetch)
  /-- PERSIST_END (R94). -/
  | persistEnd (ok : Bool)
  /-- REQUEST (R100). -/
  | request (req : Requester)
  /-- CANCEL_COMMIT (R112). -/
  | cancelCommit (req : Requester)
  /-- CREATE (R121). -/
  | create (req : Requester) (slice : Nat)
  /-- RESET_DRAIN (R139). -/
  | resetDrain (req : Requester) (slice : Nat)
  /-- RESET_SQUASH (R140). -/
  | resetSquash (req : Requester) (slice : Nat)
  /-- FREEZE (R118). -/
  | freeze (req : Requester) (slice : Nat)
  /-- THAW (R162). -/
  | thaw (req : Requester) (slice : Nat) (force : Bool)
  /-- SAVE (R145). -/
  | save (req : Requester) (slice : Nat)
  /-- RESTORE (R151). -/
  | restore (req : Requester) (slice : Nat)
  /-- DESTROY (R164). -/
  | destroy (req : Requester) (slice : Nat)
  /-- MIGRATE (R159). -/
  | migrate (req : Requester) (slice : Nat)
  /-- ACCEPT (R118). -/
  | accept (req : Requester) (slice : Nat)
  /-- MOVE_PORT (R156). -/
  | movePort (req : Requester) (slice : Nat)
  /-- CANCEL (R118). -/
  | cancel (req : Requester) (slice : Nat)
  /-- SLC_FETCH_END (R1056). -/
  | slcFetchEnd (slice : Nat) (d : Fetch)
  /-- SLICE_FROZEN (R118). -/
  | sliceFrozen (slice : Nat)
  /-- RESET_COMPLETE (R142). -/
  | resetComplete (slice : Nat)
  /-- SAVE_END (R118). -/
  | saveEnd (slice : Nat) (ok : Bool)
  /-- RESTORE_END (R118). -/
  | restoreEnd (slice : Nat) (ok : Bool)
  /-- DESTROY_END (R164). -/
  | destroyEnd (slice : Nat)
  /-- FLR (R183). -/
  | flr (port : Nat)
  /-- HOT_RESET (R183). -/
  | hotReset (port : Nat)
  /-- PERST_ASSERTED (R1035). -/
  | perstAsserted (port : Nat)
  /-- PERST_RELEASED (R1034). -/
  | perstReleased (port : Nat)
  /-- LINK_UP (R246). -/
  | linkUp (port speed width : Nat) (flit : Bool) (bar4 : Nat)
  /-- BUS_MASTER_ENABLE (R185). -/
  | busMasterEnable (port : Nat) (on : Bool)
  /-- CC_ENABLE (R189). -/
  | ccEnable (port slice : Nat) (v : BitVec 32)
  /-- CC_DISABLE (R190). -/
  | ccDisable (port slice : Nat) (v : BitVec 32)
  /-- CC_SHUTDOWN (R191). -/
  | ccShutdown (port slice : Nat) (v : BitVec 32)
  /-- SHUTDOWN_COMPLETE (R191). -/
  | shutdownComplete (slice : Nat)
  /-- HOST_BUS_ERROR (R193). -/
  | hostBusError (slice : Nat)
  /-- DATA_TRANSFER_ERROR (R1054). -/
  | dataTransferError (c : CmdId)
  /-- DELETE_IO_SUBMISSION_QUEUE (R209). -/
  | deleteIoSubmissionQueue (c : CmdId)
  /-- CREATE_IO_SUBMISSION_QUEUE (R207). -/
  | createIoSubmissionQueue (c : CmdId)
  /-- GET_LOG_PAGE (R428). -/
  | getLogPage (c : CmdId)
  /-- DELETE_IO_COMPLETION_QUEUE (R198). -/
  | deleteIoCompletionQueue (c : CmdId)
  /-- CREATE_IO_COMPLETION_QUEUE (R205). -/
  | createIoCompletionQueue (c : CmdId)
  /-- IDENTIFY (R197). -/
  | identify (c : CmdId)
  /-- ABORT (R226). -/
  | abort (c : CmdId)
  /-- SET_FEATURES (R199). -/
  | setFeatures (c : CmdId)
  /-- GET_FEATURES (R199). -/
  | getFeatures (c : CmdId)
  /-- ASYNCHRONOUS_EVENT_REQUEST (R212). -/
  | asynchronousEventRequest (c : CmdId)
  /-- NAMESPACE_MANAGEMENT (R325). -/
  | namespaceManagement (c : CmdId) (d : NsCreate)
  /-- NAMESPACE_ATTACHMENT (R198). -/
  | namespaceAttachment (c : CmdId) (ctrls : List Nat)
  /-- FORMAT_NVM (R268). -/
  | formatNvm (c : CmdId)
  /-- SANITIZE (R411). -/
  | sanitize (c : CmdId)
  /-- KEY_DELIVERY (R760). -/
  | keyDelivery (c : CmdId) (d : Fetch)
  /-- ATTESTATION_REPORT (R792). -/
  | attestationReport (c : CmdId)
  /-- HEAT_PROGRAM_LOAD (R554). -/
  | heatProgramLoad (c : CmdId) (d : Fetch)
  /-- PATTERN_TABLE_LOAD (R682). -/
  | patternTableLoad (c : CmdId) (d : Fetch)
  /-- FLUSH (R198). -/
  | flush (c : CmdId)
  /-- WRITE (R259). -/
  | write (c : CmdId) (d : List BlockData)
  /-- READ (R266). -/
  | read (c : CmdId)
  /-- COMPARE (R266). -/
  | compare (c : CmdId) (d : List BlockData)
  /-- WRITE_ZEROES (R267). -/
  | writeZeroes (c : CmdId)
  /-- DATASET_MANAGEMENT (R234). -/
  | datasetManagement (c : CmdId) (rs : List LbaRange)
  /-- VERIFY (R381). -/
  | verify (c : CmdId)
  /-- RESERVATION_REGISTER (R198). -/
  | reservationRegister (c : CmdId) (d : ResvKeys)
  /-- RESERVATION_REPORT (R198). -/
  | reservationReport (c : CmdId)
  /-- RESERVATION_ACQUIRE (R198). -/
  | reservationAcquire (c : CmdId) (d : ResvKeys)
  /-- RESERVATION_RELEASE (R198). -/
  | reservationRelease (c : CmdId) (d : ResvKeys)
  /-- LEDGER_POST (R281). -/
  | ledgerPost (c : CmdId)
  /-- LEDGER_POST_LIST_ARRIVAL (R282). -/
  | ledgerPostListArrival (c : CmdId) (list : Fetch) (d : List BlockData)
  /-- HEAT_RUN (R560). -/
  | heatRun (c : CmdId)
  /-- HEAT_DESCRIPTOR_ARRIVAL (R561). -/
  | heatDescriptorArrival (c : CmdId) (d : Fetch)
  /-- HURDLE_RUN (R596). -/
  | hurdleRun (c : CmdId)
  /-- HURDLE_DESCRIPTOR_ARRIVAL (R597). -/
  | hurdleDescriptorArrival (c : CmdId) (d : Fetch)
  /-- PATTERN_SEARCH (R672). -/
  | patternSearch (c : CmdId)
  /-- PATTERN_STEP (R677). -/
  | patternStep (c : CmdId)
  /-- PATTERN_SEARCH_BEGIN (R669). -/
  | patternSearchBegin (c : CmdId) (hdr : Fetch) (input : Fetch)
  /-- CIPHER_TRANSFORM (R711). -/
  | cipherTransform (c : CmdId)
  /-- CIPHER_TRAILER_ARRIVAL (R711). -/
  | cipherTrailerArrival (c : CmdId) (src : Fetch)
  /-- DIGEST (R771). -/
  | digest (c : CmdId)
  /-- DIGEST_BATON_ARRIVAL (R774). -/
  | digestBatonArrival (c : CmdId) (src : Fetch)
  /-- ENTRY_VISIBLE (R259). -/
  | entryVisible (slice id : Nat)
  /-- FLUSH_START (R273). -/
  | flushStart (slice id : Nat)
  /-- JOURNAL_RECORD_DURABLE (R352). -/
  | journalRecordDurable
  /-- HOLDUP_ARMED (R305). -/
  | holdupArmed
  /-- HOLDUP_DISARMED (R306). -/
  | holdupDisarmed
  /-- POWER_FAIL_LATCH (R309). -/
  | powerFailLatch
  /-- PWR_OK_LOW (R1020). -/
  | pwrOkLow
  /-- EMERGENCY_FLUSH_END (R312), after so many laps (R321). -/
  | emergencyFlushEnd (laps : Nat)
  /-- THERMAL_TRIP (R1048). -/
  | thermalTrip
  /-- CHECKPOINT (R359). -/
  | checkpoint (req : Requester)
  /-- DUMP_LOSS (R384). -/
  | dumpLoss (req : Requester) (ok : Bool)
  /-- ADD_UNPOWERED (R367). -/
  | addUnpowered (req : Requester)
  /-- CLEAR_LOSS (R386). -/
  | clearLoss (req : Requester)
  /-- CHECKPOINT_START (R359). -/
  | checkpointStart (cause : CkptCause)
  /-- CHECKPOINT_COMPLETE (R358). -/
  | checkpointComplete
  /-- GC_VICTIM_START (R362). -/
  | gcVictimStart (die : Nat)
  /-- GC_ERASE (R363). -/
  | gcErase (blk : Nat)
  /-- REFRESH_START (R368). -/
  | refreshStart (blk : Nat)
  /-- DEMOTE_BACKGROUND (R343). -/
  | demoteBackground
  /-- PROGRAM_FAIL (R365). -/
  | programFail (id : Nat)
  /-- ERASE_FAIL (R374). -/
  | eraseFail (id : Nat)
  /-- DIE_LOST (R380). -/
  | dieLost (die : Nat)
  /-- DIE_TEMP_READ (R421). -/
  | dieTempRead (die : Nat) (temp : Int)
  /-- DUMP (R424). -/
  | dump (req : Requester) (ch : Nat) (ok : Bool)
  /-- CHANNEL_TRAINING (R397). -/
  | channelTraining (ch : Nat) (dies : List DieReport) (pass : List Bool)
  /-- NOP (R475). -/
  | nop (core : Nat) (i : BitVec 16)
  /-- FENCE (R459). -/
  | fence (core : Nat) (i : BitVec 16)
  /-- IFENCE (R462). -/
  | ifence (core : Nat) (i : BitVec 16)
  /-- ERET (R491). -/
  | eret (core : Nat) (i : BitVec 16)
  /-- WAIT (R475). -/
  | wait (core : Nat) (i : BitVec 16)
  /-- HALT (R475). -/
  | halt (core : Nat) (i : BitVec 16)
  /-- MOV (R475). -/
  | mov (core : Nat) (i : BitVec 16)
  /-- ALU_RR (R475). -/
  | aluRr (core : Nat) (i : BitVec 16)
  /-- SHIFT_RR (R475). -/
  | shiftRr (core : Nat) (i : BitVec 16)
  /-- MUL_RR (R475). -/
  | mulRr (core : Nat) (i : BitVec 16)
  /-- UNARY (R475). -/
  | unary (core : Nat) (i : BitVec 16)
  /-- ADDI5 (R475). -/
  | addi5 (core : Nat) (i : BitVec 16)
  /-- MOVI5 (R475). -/
  | movi5 (core : Nat) (i : BitVec 16)
  /-- LD_RR (R475). -/
  | ldRr (core : Nat) (i : BitVec 16)
  /-- ST_RR (R475). -/
  | stRr (core : Nat) (i : BitVec 16)
  /-- JR (R475). -/
  | jr (core : Nat) (i : BitVec 16)
  /-- JALR (R475). -/
  | jalr (core : Nat) (i : BitVec 16)
  /-- ADD_B_SUB_B (R480). -/
  | addBSubB (core : Nat) (i : BitVec 16)
  /-- DAA_B (R528). -/
  | daaB (core : Nat) (i : BitVec 16)
  /-- DAS_B (R528). -/
  | dasB (core : Nat) (i : BitVec 16)
  /-- ALU_TR (R476). -/
  | aluTr (core : Nat) (i : BitVec 32)
  /-- SHIFT_TR (R476). -/
  | shiftTr (core : Nat) (i : BitVec 32)
  /-- MUL_TR (R476). -/
  | mulTr (core : Nat) (i : BitVec 32)
  /-- CMP (R476). -/
  | cmp (core : Nat) (i : BitVec 32)
  /-- DIVU_DIVS_REMU_REMS (R481). -/
  | divuDivsRemuRems (core : Nat) (i : BitVec 32)
  /-- ADDI (R476). -/
  | addi (core : Nat) (i : BitVec 32)
  /-- ANDI_ORI_XORI (R476). -/
  | andiOriXori (core : Nat) (i : BitVec 32)
  /-- SHLI_SHRI_SARI (R476). -/
  | shliShriSari (core : Nat) (i : BitVec 32)
  /-- CMPI (R476). -/
  | cmpi (core : Nat) (i : BitVec 32)
  /-- MOVI (R476). -/
  | movi (core : Nat) (i : BitVec 32)
  /-- RDSR (R443). -/
  | rdsr (core : Nat) (i : BitVec 32)
  /-- WRSR (R447). -/
  | wrsr (core : Nat) (i : BitVec 32)
  /-- RDFEAT (R486). -/
  | rdfeat (core : Nat) (i : BitVec 32)
  /-- LOAD_INSTRUCTION (R457). -/
  | loadInstruction (core : Nat) (w : MemForm)
  /-- STORE_INSTRUCTION (R473). -/
  | storeInstruction (core : Nat) (w : MemForm)
  /-- LEA (R476). -/
  | lea (core : Nat) (w : MemForm)
  /-- SWAP (R460). -/
  | swap (core : Nat) (i : BitVec 32)
  /-- CAS (R460). -/
  | cas (core : Nat) (i : BitVec 32)
  /-- FADD (R460). -/
  | fadd (core : Nat) (i : BitVec 32)
  /-- B (R478). -/
  | b (core : Nat) (i : BitVec 32)
  /-- JAL (R476). -/
  | jal (core : Nat) (i : BitVec 32)
  /-- REP_I (R533). -/
  | repI (core : Nat) (i : BitVec 32) (r : RepWord)
  /-- REP_U (R541). -/
  | repU (core : Nat) (i : BitVec 32) (r : RepWord)
  /-- SVC (R575). -/
  | svc (core : Nat) (i : BitVec 32)
  /-- SVC_EXIT (R573). -/
  | svcExit (core : Nat)
  /-- SVC_BARRIER (R574). -/
  | svcBarrier (core : Nat)
  /-- SVC_YIELD (R573). -/
  | svcYield (core : Nat)
  /-- ADDPR_SUBPR_MULPR (R527). -/
  | addprSubprMulpr (core : Nat) (i : BitVec 32)
  /-- CMPPR (R527). -/
  | cmppr (core : Nat) (i : BitVec 32)
  /-- MOVI32 (R477). -/
  | movi32 (core : Nat) (i : BitVec 48)
  /-- MOVHI32 (R477). -/
  | movhi32 (core : Nat) (i : BitVec 48)
  /-- ADDI32 (R477). -/
  | addi32 (core : Nat) (i : BitVec 48)
  /-- CMPI32 (R477). -/
  | cmpi32 (core : Nat) (i : BitVec 48)
  /-- ADDP (R512). -/
  | addp (core : Nat) (i : BitVec 48)
  /-- SUBP (R512). -/
  | subp (core : Nat) (i : BitVec 48)
  /-- MULP (R512). -/
  | mulp (core : Nat) (i : BitVec 48)
  /-- DIVP (R513). -/
  | divp (core : Nat) (i : BitVec 48)
  /-- CMPP (R515). -/
  | cmpp (core : Nat) (i : BitVec 48)
  /-- MOVP (R512). -/
  | movp (core : Nat) (i : BitVec 48)
  /-- PACK (R512). -/
  | pack (core : Nat) (i : BitVec 48)
  /-- UNPK (R517). -/
  | unpk (core : Nat) (i : BitVec 48)
  /-- EDIT (R520). -/
  | edit (core : Nat) (i : BitVec 48)
  /-- SHFP (R514). -/
  | shfp (core : Nat) (i : BitVec 48)
  /-- CVBP (R512). -/
  | cvbp (core : Nat) (i : BitVec 48)
  /-- CVPB (R516). -/
  | cvpb (core : Nat) (i : BitVec 48)
  /-- BUDGET_EXHAUSTED (R493). -/
  | budgetExhausted (core : Nat)
  /-- STOP (R492). -/
  | stop (core : Nat)
  /-- SUSPEND (R492). -/
  | suspend (core : Nat)
  /-- HEAT_STAGED (R562). -/
  | heatStaged (c : CmdId)
  /-- HEAT_LOADING_START (R564). -/
  | heatLoadingStart (c : CmdId)
  /-- HEAT_RUNNING_START (R566). -/
  | heatRunningStart (c : CmdId)
  /-- HEAT_DELIVERED (R581). -/
  | heatDelivered (c : CmdId) (ok : Bool)
  /-- HEAT_STOP (R586). -/
  | heatStop (port slice : Nat) (v : BitVec 32)
  /-- HDL_STOP (R631). -/
  | hdlStop (port slice : Nat) (v : BitVec 32)
  /-- PATTERN_WRITE_PHASE (R683). -/
  | patternWritePhase (c : CmdId)
  /-- PATTERN_APPLY_PHASE (R683). -/
  | patternApplyPhase (c : CmdId)
  /-- SECURITY_ALARM (R777). -/
  | securityAlarm (src : Nat)
  /-- KEY_CHANGE_EFFECT (R751). -/
  | keyChangeEffect (id : Nat)
  /-- PK_JOB_COMPLETE (R781). -/
  | pkJobComplete
  /-- GO (R784). -/
  | go (req : Requester) (d : Fetch)
  /-- READ_RAW (R878). -/
  | readRaw (req : Requester)
  /-- WRITE_RAW (R878). -/
  | writeRaw (req : Requester)
  /-- READ_PAGE (R878). -/
  | readPage (req : Requester) (index : Nat)
  /-- WRITE_PAGE (R878). -/
  | writePage (req : Requester) (index : Nat)
  /-- DRAM_TEMP_CHANGE (R883). -/
  | dramTempChange (sub : Nat) (hot : Bool)
  /-- DRAM_TRAINING (R887). -/
  | dramTraining (ch : Nat) (lanes : List LaneSweep)
  /-- WAKE (R918). -/
  | wake (req : Requester)
  /-- PWR_TIMER_EXPIRY (R918). -/
  | pwrTimerExpiry
  /-- REFRESH_WAKE (R919). -/
  | refreshWake
  /-- POWER_ENTRY_BEGIN (R910). -/
  | powerEntryBegin
  /-- POWER_STATE_REACHED (R912). -/
  | powerStateReached
  /-- POWER_EXIT_COMPLETE (R927). -/
  | powerExitComplete (env : ExitEnv)
  /-- CLUSTER_PLL_LOCK (R930). -/
  | clusterPllLock (cluster : Nat)
  /-- EVR_CHECK_READ (R948). -/
  | evrCheckRead (set : EvrSet)
  /-- FREEZE_RING (R951). -/
  | freezeRing (set : EvrSet)
  /-- RELEASE (R952). -/
  | release (set : EvrSet)
  /-- FREEZE_EXPIRY (R952). -/
  | freezeExpiry (inst : Option Nat)
  /-- EVR_CLEAR (R954). -/
  | evrClear (req : Requester) (v : BitVec 32)
  /-- COLD_START (R21). -/
  | coldStart
  /-- STARTER_BEGIN (R1018). -/
  | starterBegin (env : StartEnv)
  /-- FW_LOAD (R987). -/
  | fwLoad (req : Requester) (d : Fetch)
  /-- FW_ACTIVATE (R988). -/
  | fwActivate (req : Requester)
  /-- FW_CONFIRM (R989). -/
  | fwConfirm (req : Requester)
  /-- RESTART (R990). -/
  | restart (req : Requester)
  /-- DEVICE_FAULT (R978). -/
  | deviceFault (src : Nat)
  /-- WATCHDOG_EXPIRY (R977). -/
  | watchdogExpiry
  /-- FAULT_FLUSH_END (R981). -/
  | faultFlushEnd
  /-- PHY_UP (R814). -/
  | phyUp (p : Nat) (chal : List (BitVec 8))
  /-- PHY_DOWN (R814). -/
  | phyDown (p : Nat)
  /-- LINK_SILENT (R814). -/
  | linkSilent (p : Nat)
  /-- HELLO_REPEAT (R814). -/
  | helloRepeat (p : Nat)
  /-- SUMMARY_SEND (R821). -/
  | summarySend
  /-- PAIR_CONFIRM_SEND (R845). -/
  | pairConfirmSend (slice : Nat)
  /-- RETRANSMIT_TIMEOUT (R809). -/
  | retransmitTimeout (msg : Nat)
  /-- PEER_DECLARED_LOST (R824). -/
  | peerDeclaredLost (addr : Nat) (cause : BitVec 8)
  /-- RELAY_FRAME_DISCARD (R804). -/
  | relayFrameDiscard (p : Nat) (why : FrameDrop)
  /-- HELLO (R815). -/
  | hello (p : Nat) (h : HelloMsg)
  /-- LINK_OFFER (R816). -/
  | linkOffer (p : Nat) (m : LinkMsg)
  /-- LINK_ANSWER (R817). -/
  | linkAnswer (p : Nat) (m : LinkMsg)
  /-- FIELD_KEY (R820). -/
  | fieldKey (p : Nat) (head epoch : Nat) (key : List (BitVec 8))
  /-- PACE (R834). -/
  | pace (p : Nat) (m : PaceMsg)
  /-- SUMMARY (R821). -/
  | summary (p : Nat) (m : SummaryMsg)
  /-- ROSTER (R812). -/
  | roster (p : Nat) (img : List (BitVec 8))
  /-- POST_REQ (R843). -/
  | postReq (src msg : Nat) (m : PostMsg)
  /-- POST_ACK (R296). -/
  | postAck (src : Nat) (slice pairSeq : Nat) (cause : BitVec 8)
  /-- RESYNC (R841). -/
  | resync (src msg : Nat) (m : PostMsg)
  /-- PAIR_CONFIRM (R840). -/
  | pairConfirm (src msg nextSeq primary partner : Nat)
  /-- MIG_OFFER (R848). -/
  | migOffer (src msg : Nat) (m : MigIds) (batonLen blocks : Nat)
  /-- MIG_REPLY (R848). -/
  | migReply (src slice : Nat) (cause : BitVec 8) (serial : Nat)
  /-- MIG_BATON (R850). -/
  | migBaton (src msg : Nat) (m : MigIds) (b : MigImage)
  /-- MIG_DATA (R851). -/
  | migData (src msg : Nat) (m : MigIds) (r : MigRun)
  /-- MIG_COMMIT (R851). -/
  | migCommit (src msg : Nat) (m : MigIds) (count : Nat) (digest : List (BitVec 8))
  /-- MIG_COMMITTED (R852). -/
  | migCommitted (src : Nat) (m : MigIds)
  /-- MIG_ERASED (R161). -/
  | migErased (src msg : Nat) (m : MigIds)
  /-- MIG_ERASED_ACK (R852). -/
  | migErasedAck (src : Nat) (m : MigIds)
  /-- MIG_ABORT (R852). -/
  | migAbort (src msg : Nat) (m : MigIds) (cause : BitVec 8)
  /-- ACK (R810). -/
  | ack (src msg : Nat) (result : BitVec 8)
  /-- LOAD_ROSTER (R812). -/
  | loadRoster (req : Requester) (d : Fetch)
  /-- REKEY (R819). -/
  | rekey (req : Requester)
  /-- DUMP_FIELD (R823). -/
  | dumpField (req : Requester) (ok : Bool)
  /-- SET_TIME (R838). -/
  | setTime (req : Requester)
  /-- PPS_EDGE (R1026). -/
  | ppsEdge (ft : Int) (refCycles : Nat)
  /-- SMBUS_BASIC_MANAGEMENT (R1037). -/
  | smbusBasicManagement (code : Nat)
  /-- SMBUS_SELECT_WRITE (R1038). -/
  | smbusSelectWrite (v : Nat) (pecOk : Bool)
  /-- SMBUS_BLOCK_READ (R1038). -/
  | smbusBlockRead
  /-- SMBUS_BLOCK_WRITE (R1038). -/
  | smbusBlockWrite (count : Nat) (v : BitVec 32) (pecOk : Bool)
  /-- EXTEST (R1044). -/
  | extest
  /-- IDCODE (R1043). -/
  | idcode
  /-- SAMPLE_PRELOAD (R1042). -/
  | samplePreload
  /-- HIGHZ (R1042). -/
  | highz
  /-- CLAMP (R1044). -/
  | clamp
  /-- BYPASS (R1042). -/
  | bypass
  /-- DEBUG_INSTRUCTION (R1044). -/
  | debugInstruction (code : Nat)
  /-- TAP_RESET (R1042). -/
  | tapReset
  /-- PCIE_L1_EXIT (R918). -/
  | pcieL1Exit (port : Nat)
  /-- PFAIL_N_RETURNS_HIGH (R313). -/
  | pfailNReturnsHigh (env : StartEnv)
  deriving DecidableEq, Repr

end Sys2Proof
end

