-- ==== Sys2Proof/Decode.lean ====
section
/-! DEFINITION. The commands that a word spells. The block has no instruction words of its own: its command table
gives no row any bits, so no word spells a command. (The Norsor core's words are operands of its rows, and their
fields are read in Machine/Operands.lean.) -/

namespace Sys2Proof

/-- The command that `w`, of `nbits` bits, spells by the bits of the command table: none. -/
def decodeTableWord (_nbits _w : Nat) : Option Instr := none

end Sys2Proof
end

