-- ==== Sys2Proof/Config.lean ====
section
/-! DEFINITION. What the spec leaves to a published standard or leaves open: constants with no body,
so that no proof can see a value of theirs. -/

namespace Sys2Proof.Config

/-! ### Published algorithms (R83, R84, R158, R407, and the digest and cipher chapters) -/

/-- SHA3-256 of a message. -/
opaque sha3_256 : Bytes → Bytes
/-- SHA3-512 of a message. -/
opaque sha3_512 : Bytes → Bytes
/-- SHAKE128 or SHAKE256 (true): message, output length. -/
opaque shake : Bool → Bytes → Nat → Bytes
/-- The SHA-2 function of 256, 384 or 512 bits. -/
opaque sha2 : Nat → Bytes → Bytes
/-- SLH-DSA-SHAKE-256s verification: public key, message, signature. -/
opaque slhVerify : Bytes → Bytes → Bytes → Bool
/-- SLH-DSA signature by the device's attestation key: message. -/
opaque slhSign : Bytes → Bytes
/-- SLH-DSA-SHAKE-256f verification of an attestation signature: public key, message, signature. -/
opaque attestVerify : Bytes → Bytes → Bytes → Bool
/-- The digests of Weldopo's public keys: firmware keys 0 to 3 (R783), and 4 the certificate key (R787). -/
opaque weldopoDigest : Nat → Bytes
/-- The algorithm state of a digest as its baton carries it: algorithm, key, message absorbed. -/
opaque digestState : Nat → Bytes → Bytes → Bytes
/-- The state of SHA-2 (256, 384 or 512 bits) after a first whole block, and the digest from such a state over the rest
of the message. -/
opaque sha2Block : Nat → Bytes → Bytes
opaque sha2From : Nat → Bytes → Bytes → Bytes
/-- The state of KMAC256 after its key and customisation padding: key, S; and its output from such a state: state,
message, output length in bytes. -/
opaque kmacKeyed : Bytes → String → Bytes
opaque kmacFrom : Bytes → Bytes → Nat → Bytes
/-- KMAC256: key, message, output length in bytes, customisation S. -/
def kmac (key msg : Bytes) (len : Nat) (cust : String) : Bytes := kmacFrom (kmacKeyed key cust) msg len
/-- The AES-256 cipher and its inverse on one 16-byte block: key, block. -/
opaque aesBlock : Bytes → Bytes → Bytes
opaque aesInverse : Bytes → Bytes → Bytes
/-- RFC 5649 unwrap: wrapping key, wrapped key; none when the integrity check fails. -/
opaque unwrap : Bytes → Bytes → Option Bytes
/-- RFC 5649 wrap: wrapping key, key. -/
opaque wrap : Bytes → Bytes → Bytes
/-- ML-KEM-1024 decapsulation with the device's key number: ciphertext. -/
opaque kemDecap : Nat → Bytes → Bytes
/-- ML-KEM-1024 encapsulation: public key, randomness; ciphertext and shared secret. -/
opaque kemEncap : Bytes → Bytes → Bytes × Bytes
/-- The device's own public value number k (attestation key, encapsulation key, certificate). -/
opaque publicKey : Nat → Bytes
/-- Decompression of one unit at the start of the input (1 Deflate, 2 Zstandard): its output, or the
reason code of R626. -/
opaque inflate : Nat → Bytes → Except Nat Bytes
/-- Compression (1 Deflate, 2 Zstandard): input. -/
opaque deflate : Nat → Bytes → Bytes
/-- The LDPC and memory-code parity of the test mode where the spec names no matrix. -/
opaque parity : Nat → Bytes → Bytes
/-- The starter's boot ROM contents. -/
opaque starterRom : Bytes

/-! ### Values the spec leaves open -/

/-- A free 64-bit value: the n-th value that the spec leaves open in a run. -/
opaque freeValue : Nat → BitVec 64
/-- A free choice among the alternatives the spec allows. -/
opaque freeBool : Nat → Bool
/-- What a device read of host memory brings where the command that asks for it carries no such data: the
n-th of a run. -/
opaque hostFetch : Nat → Fetch
/-- A submission queue entry in host memory that no command carries: the n-th of a run. -/
opaque hostEntry : Nat → SqEntry
/-- Which of a slice's PASIDs the n-th output carries (R127). -/
opaque pasidPick : Nat → Nat
/-- Whether a log page holds more detail of the command that the n-th output completes (R239, M). -/
opaque moreDetail : Nat → Bool
/-- A free string of random bytes: the n-th draw of the given length from the random bit generator. -/
opaque drbg : Nat → Nat → Bytes

/-- The root key, derived from the fused device secret (R743, slot 0). -/
opaque rootKey : Bytes
/-- How a baton's body writes what the spec gives no layout for: the n-th of a run. -/
opaque batonFields : Nat → Bytes

/-- The bytes that the spec's baton layout leaves uncounted (descriptor totals, tables, heats, recorder
and keys), of one save. -/
opaque batonOverhead : Nat → Nat

/-- The pattern table entry in which a byte of SRAM array 0x52 lies, and the one whose golden copy holds a byte of
the private area: search slot in [3:0], table in [5:4], local index above. The spec gives neither layout. -/
opaque patEntry : Nat → Nat
opaque goldenEntry : Nat → Nat

/-- The key slot, by slice number and slice-local number, whose word a byte of SRAM array 0x51 belongs to. The spec does
not lay that array out. -/
opaque keyWord : Nat → Nat × Nat

/-- The staging buffer, by number, that a byte of device-private DRAM belongs to, 24 and above for none (R727, R730). The
spec does not lay that area out. -/
opaque stagingByte : Nat → Nat

/-- The byte of the controller memory buffer that a byte of DRAM below the slice regions holds, at or above its size for
none (R62, R881). The spec does not lay that area out. -/
opaque cmbByte : Nat → Nat

/-- Does a byte of DRAM below the slice regions hold data of a write-buffer entry: of slice, entry number and block? The
spec does not lay that area out. -/
opaque bufferByte : Nat → Nat → Nat → Nat → Bool

/-- The data bytes of the system area, which the spec does not give (R324). -/
opaque systemAreaBytes : Nat
/-- The size in bytes of an SRAM array whose size the spec does not state: array number (R895). -/
opaque arrayBytes : Nat → Nat
/-- The bytes of an Identify structure that the spec gives no value: structure number, slice. -/
opaque partialFill : Nat → Bytes
opaque identifyFill : Nat → Nat → Bytes
/-- The bytes of a log page whose content the spec leaves to NVMe: log identifier, read number. -/
opaque logFill : Nat → Nat → Bytes

/-- Where a port's HELLO goes before the peer's own has come: port number (R804). -/
opaque firstHelloTo : Nat → Bytes

/-- What a copy of a lost block carries to a partner: slice, LBA. -/
opaque lostFill : Nat → Nat → Bytes

/-- The matches (rule index, rule identifier, end offset) of a search whose table a load overwrote (R685). -/
opaque freeMatches : Nat → List (Nat × Nat × Nat)

end Sys2Proof.Config
end

