-- ==== Sys2Proof/Machine/Blocks.lean ====
section
/-! DEFINITION. The state of the blocks that every command meets: sparse tables, register storage,
the course engine, the event recorder, the host interface, the write buffer, flash translation and
the flash channels. Plain data only. -/

namespace Sys2Proof.Machine

/-- A sparse table: index and value, the indices strictly rising. -/
abbrev Tab (α : Type) := List (Nat × α)

/-- An error status register (R17): `lastOffset` in the units that `space` gives. -/
structure ErrStat where
  regWr : Bool := false
  overrun : Bool := false
  space : Nat := 0
  lastOffset : Nat := 0
  deriving DecidableEq, Repr

/-- One requester's latch of a 64-bit register's high half and its held low half (R16). -/
structure Latch where
  req : Requester
  key : Nat
  high : Option (BitVec 32) := none
  low : Option (BitVec 32) := none
  deriving DecidableEq, Repr

/-! ### Statuses and what leaves the device -/

/-- Completion statuses. Standard statuses stand under their names (R242); their code numbers are
NVMe's, not the spec's. -/
inductive Status where
  | success | invalidOpcode | invalidField | cidConflict | dataTransferError | abortRequested
  | abortLimit | invalidNamespace | sequenceError | sglSegment | sglCount | sglLength | sglType
  | prpOffset | invalidCmb | lbaRange | reservationConflict | invalidQueueSize | invalidQueueId
  | invalidVector | cqInvalid | invalidQueueDeletion | notSaveable | nsCapacity | writeProtected
  | unrecoveredRead | guardError | appTagError | refTagError | compareFailure | nsAttached
  | nsNotAttached | invalidFormat | nsIdUnavailable | invalidController | asyncLimit
  | invalidLogPage
  | vendor (sc : Nat)
  deriving DecidableEq, Repr

/-- A completion entry (R239): where the device writes it and under which PASID (R127), its fields with the bit M, and the
16 bytes that it is. CRD is always 0. -/
structure Cqe where
  slice : Nat
  cqid : Nat
  addr : Nat
  pasid : Option Nat
  sqid : Nat
  sqhd : Nat
  cid : Nat
  status : Status
  dnr : Bool
  more : Bool
  phase : Bool
  dw0 : BitVec 32
  dw1 : BitVec 32
  bytes : List (BitVec 8)
  deriving DecidableEq, Repr

/-- What the relay header of a message's frames holds besides its type, destination, numbers and lengths (R805):
VERSION, the flags CLEAR and BCAST, HOPS, SRC, KEY_ID and, under a key, the first frame's nonce: the sender's instance value
and COUNTER (R722). -/
structure RelayHead where
  version : Nat
  clear : Bool
  bcast : Bool
  hops : Nat
  src : Nat
  keyId : Nat
  nonce : Option (Nat × Nat)
  deriving DecidableEq, Repr

/-- A relay message as it comes in (R806), with the port or the source address that it comes from, the MSG_ID and the fields
of its command. -/
inductive RelayIn where
  | hello (p : Nat) (h : HelloMsg)
  | linkOffer (p : Nat) (m : LinkMsg)
  | linkAnswer (p : Nat) (m : LinkMsg)
  | fieldKey (p head epoch : Nat) (key : List (BitVec 8))
  | pace (p : Nat) (m : PaceMsg)
  | summary (p : Nat) (m : SummaryMsg)
  | roster (p : Nat) (img : List (BitVec 8))
  | postReq (src msg : Nat) (m : PostMsg)
  | postAck (src n pairSeq : Nat) (cause : BitVec 8)
  | resync (src msg : Nat) (m : PostMsg)
  | pairConfirm (src msg nextSeq primary partner : Nat)
  | migOffer (src msg : Nat) (m : MigIds) (batonLen blocks : Nat)
  | migReply (src n : Nat) (cause : BitVec 8) (serial : Nat)
  | migBaton (src msg : Nat) (m : MigIds) (b : MigImage)
  | migData (src msg : Nat) (m : MigIds) (r : MigRun)
  | migCommit (src msg : Nat) (m : MigIds) (count : Nat) (digest : List (BitVec 8))
  | migCommitted (src : Nat) (m : MigIds)
  | migErased (src msg : Nat) (m : MigIds)
  | migErasedAck (src : Nat) (m : MigIds)
  | migAbort (src msg : Nat) (m : MigIds) (cause : BitVec 8)
  | ack (src msg : Nat) (result : BitVec 8)
  deriving DecidableEq, Repr

/-- A message of the relay protocol that this device sends (R810): type, route, body words, and the Ethernet frames that it
is on the wire (R805). -/
structure RelayOut where
  port : Nat
  dest : Nat
  type : Nat
  words : List Nat
  body : List (BitVec 8)
  head : RelayHead
  frames : List (List (BitVec 8))
  deriving DecidableEq, Repr

/-- What leaves the device, in order: the model's own record of its outputs. -/
inductive Out where
  | cqe (c : Cqe)
  | msix (port vector : Nat)
  | hostWrite (pasid : Option Nat) (addr : Nat) (data : List (BitVec 8))
  /-- A write to `len` bytes of host memory that failed on the bus: any of them may hold bytes of it (R1054). -/
  | hostPartial (pasid : Option Nat) (addr len : Nat)
  | relay (m : RelayOut)
  | smbus (data : List (BitVec 8))
  | pin (pin : Nat) (level : Bool)
  | linkDown (port : Nat)
  deriving DecidableEq, Repr

/-! ### The course engine -/

/-- An allotment record (R63). -/
structure Allot where
  owner : Nat
  resource : Nat
  first : Nat
  count : Nat
  deriving DecidableEq, Repr

/-- A course that passed validation: the fields of its header and sections (R57 to R78) and the
image they were read from. -/
structure Course where
  image : List (BitVec 8)
  format : Nat
  epoch : Nat
  sequence : Nat
  debugAuth : Bool
  revokeMask : Nat
  ownerSlot : Nat
  portMode : Nat
  cmbLog2 : Nat
  patHole : Nat
  relayEnable : Nat
  wbfMib : Nat
  etherType : Nat
  fieldAddr : Nat
  dramMts : Nat
  dramGib : Nat
  privGib : Nat
  allots : List Allot
  period : Nat
  tables : Tab (List Nat)
  coreBanks : Nat
  clusterBanks : Nat
  keystoreRet : Bool
  grant : Nat
  deriving DecidableEq, Repr

/-- The states of R90. -/
inductive CrsState where
  | empty | loading | staged | applyPending | applied | persistingStaged | persistingApplied
  deriving DecidableEq, Repr

/-- The course engine (R90, R109 to R113). `image` is the staging buffer's course. -/
structure Crs where
  state : CrsState := .empty
  result : Nat := 0
  errOffset : Nat := 0
  cmdRefused : Bool := false
  image : Option Course := none
  inForce : Option Course := none
  previous : Bool := false
  commitPending : Bool := false
  commitResult : Nat := 0
  commitPair : Nat := 0
  commitCount : Nat := 0
  deriving DecidableEq, Repr

/-- One owner key fuse slot (R83). -/
structure OwnerFuse where
  digest : List (BitVec 8)
  revoked : Bool
  deriving DecidableEq, Repr

/-- A system-area record in its two copies (R350): its bytes, and the dies that hold copy 1 and copy 2. -/
structure SysCopies where
  bytes : List (BitVec 8)
  one : Nat
  two : Nat
  deriving DecidableEq, Repr

/-! ### The event recorder -/

/-- An event before it is written (R943, R945): `at'` is the stride it arose in, none while the
fabric clock is stopped (R947), and `only` marks one made in the slice's recorder alone. -/
structure Ev where
  code : Nat
  src : Nat
  detail : List (BitVec 8)
  at' : Option Nat
  only : Bool := false
  deriving DecidableEq, Repr

/-- A record (R938). -/
structure EvRec where
  seq : Nat
  code : Nat
  src : Nat
  first : Nat
  gap : Bool
  held : Bool
  saturated : Bool
  lastDelta : Nat
  count : Nat
  detail : List (BitVec 8)
  deriving DecidableEq, Repr

/-- A ring (R935): its records by slot, its next slot, whether it has wrapped, the slot written
last and whether an event was dropped since the last new record (R945). -/
structure Ring where
  recs : Tab EvRec := []
  nxt : Nat := 0
  wrapped : Bool := false
  last : Option Nat := none
  gap : Bool := false
  deriving DecidableEq, Repr

/-- A recorder (R933): podium, rings, write sequence, the freeze and its holding queue. -/
structure Recorder where
  podium : List EvRec := []
  opn : Ring := {}
  grd : Ring := {}
  wseq : Nat := 0
  frozenAt : Option Nat := none
  thawedAt : Option Nat := none
  held : List EvRec := []
  heldLost : Nat := 0
  freezeReq : List Nat := []
  releaseReq : Bool := false
  lost : Nat := 0
  events : Nat := 0
  deriving DecidableEq, Repr

/-- A register set's own part of a recorder's registers (R960). -/
structure EvrPort where
  area : Nat := 0
  index : Nat := 0
  refused : Bool := false
  gapSeen : Bool := false
  deriving DecidableEq, Repr

/-- A clear waiting for the tick (R954): the slice, or none for the device recorder. -/
structure EvrClearReq where
  slice : Option Nat
  guarded : Bool
  opn : Bool
  set : Nat
  deriving DecidableEq, Repr

structure Evr where
  dev : Recorder := {}
  slices : Tab Recorder := []
  ports : Tab EvrPort := []
  clears : List EvrClearReq := []
  queue : List Ev := []
  reloaded : Bool := false
  deriving DecidableEq, Repr

/-! ### Host interface -/

/-- What the configuration space of a port's one function reports (R176 to R179): its identity, the attributes of its
BARs, and the options the device supports. -/
structure PciIdent where
  vendor : Nat := 0x1F3C
  device : Nat := 0x6400
  revision : Nat := 0xA0
  subVendor : Nat := 0x1F3C
  subsystem : Nat := 0x6400
  classCode : Nat := 0x010802
  function : Nat := 0
  /-- BAR number, 64-bit, prefetchable (R178). -/
  bars : List (Nat × Bool × Bool) := [(0, true, false), (2, true, false), (4, true, true)]
  maxRate : Nat := 6
  maxPayload : Nat := 512
  maxReadRequest : Nat := 4096
  tagBits : Nat := 10
  tagBitsFlit : Nat := 14
  pasidBits : Nat := 20
  msixVectors : Nat := 2048
  aer : Bool := true
  ecrc : Bool := true
  aspmL1 : Bool := true
  flr : Bool := true
  deriving DecidableEq, Repr

/-- A host port (R176 to R179, R183, R245). -/
structure Port where
  ident : PciIdent := {}
  linkUp : Bool := false
  flit : Bool := false
  speed : Nat := 0
  width : Nat := 0
  downSeen : Bool := false
  busMaster : Bool := false
  perst : Bool := true
  bar4 : Nat := 0
  deriving DecidableEq, Repr

/-- A submission queue (R203, R209 to R212, R218). `ents` are the entries that doorbells have
exposed and that are not yet admitted, `fetched` how many of them a host-memory queue has in device memory
(R218), `skip` the slots admitted out of order (R228); `recTail` is a recorded tail not yet sampled. -/
structure Sq where
  base : Nat
  size : Nat
  cqid : Nat
  prio : Nat
  inCmb : Bool
  head : Nat := 0
  tail : Nat := 0
  recTail : Option Nat := none
  recEnts : List SqEntry := []
  ents : List SqEntry := []
  fetched : Nat := 0
  skip : List Nat := []
  deriving DecidableEq, Repr

/-- A completion queue (R202, R205, R213). `resv` counts the entries reserved and not yet posted. -/
structure Cq where
  base : Nat
  size : Nat
  iv : Nat
  ien : Bool
  head : Nat := 0
  tail : Nat := 0
  phase : Bool := true
  resv : Nat := 0
  recHead : Option Nat := none
  pendInt : Nat := 0
  pendAt : Nat := 0
  deriving DecidableEq, Repr

/-- An admission stamp (R221). -/
structure Stamp where
  stride : Nat
  seq : Nat
  deriving DecidableEq, Repr

/-- A range of a namespace: of the unpaired log (R302), or of what an engine's command reads. -/
structure LogRange where
  nsid : Nat
  range : LbaRange
  deriving DecidableEq, Repr

/-- What a command has still to deliver before it completes: where to, the bytes, and the completion that follows. -/
structure Reply where
  ranges : List (Nat × Nat)
  data : List (BitVec 8)
  status : Status := .success
  dw0 : BitVec 32 := 0
  dw1 : BitVec 32 := 0
  deriving DecidableEq, Repr

/-- The host links and channels in the stride under way (R29, R36, R37, R219, R290): who has each port's slot, the chunks
each port has moved (port × 2, plus 1 outwards), those each slice has moved into the buffer from the CMB, and who has the
output-compression slot. -/
structure LinkStride where
  holders : List (Option Nat) := []
  moved : Tab Nat := []
  inner : Tab Nat := []
  comp : Option Nat := none
  deriving DecidableEq, Repr

/-- An admitted command without a completion (R221, R224). `stage` says that it is at its
completion stage, `waits` counts the flash reads it waits for, `bufs` is what it will deliver; `movedHost` and
`movedCmb` are the chunks of the transfer under way that have moved (R31), `reply` what is being delivered, `ranges` the
ranges of a post whose list has been checked (R269), `reads` what a heat or scan reads once its descriptor is in (R270),
`drain` a write that the period of R306 covers, and `jwait` the SEQ of the record whose durability ends the command
(R268). -/
structure Adm where
  id : CmdId
  ent : SqEntry
  admin : Bool
  stamp : Stamp
  cqid : Nat
  sqhd : Nat
  stage : Bool
  charge : Nat
  wt : Bool
  rep : Bool
  waits : Nat := 0
  bufs : List BlockData := []
  bad : Option Status := none
  started : Bool := false
  movedHost : Nat := 0
  movedCmb : Nat := 0
  reply : Option Reply := none
  ranges : Option (List LbaRange) := none
  reads : Option (List LogRange) := none
  drain : Bool := false
  jwait : Option Nat := none
  deriving DecidableEq, Repr

/-- A finished command whose entry is ready or will be (R219). -/
structure Ready where
  id : CmdId
  cqid : Nat
  sqhd : Nat
  status : Status
  dw0 : BitVec 32
  dw1 : BitVec 32
  at' : Nat
  deriving DecidableEq, Repr

/-- An Abort that is yet to act (R225): its own command and the SQID and CID of its target. -/
structure AbortReq where
  id : CmdId
  sqid : Nat
  cid : Nat
  deriving DecidableEq, Repr

/-! ### Namespaces and the write buffer -/

/-- A reservation registrant and the holder's state of one namespace ("As NVMe 2.0", R198). -/
structure Resv where
  key : Option (BitVec 64) := none
  rtype : Nat := 0
  held : Bool := false
  gen : Nat := 0
  ptpl : Bool := false
  deriving DecidableEq, Repr

/-- A namespace (R196, R322). -/
structure Ns where
  nsze : Nat
  lbaf : Nat
  dps : Nat
  firstUnit : Nat
  attached : Bool := false
  resv : Resv := {}
  deriving DecidableEq, Repr

/-- What an entry says of one block: data, or a zero or deallocation marking (R259), or that its data is lost (R869). -/
inductive Content where
  | data (b : BlockData)
  | zero
  | dealloc
  | lost
  deriving DecidableEq, Repr

/-- A buffer entry (R259). `ready` is the stride at which its data and checks were complete; `due` says that it has become
eligible for flushing (R273), `flushing` that its flush has been started, `flushed` the units of it that another entry's
full flush has journalled (R336) and `journalled` that its map updates are durable. `dsm` marks a range of a Dataset
Management command and `sent` a paired post that has reached its completion stage and been sent or logged (R296).
`ack` is the primary's address and slice and the PAIR_SEQ that a mirrored entry answers (R844), and `ranges` are a
post's ranges in list order (R299). -/
structure Entry where
  id : Nat
  nsid : Nat
  stamp : Stamp
  blocks : Tab Content
  charge : Nat
  wt : Bool
  post : Bool
  paired : Bool := false
  cmd : Option CmdId
  ack : Option (Nat × Nat × Nat) := none
  ready : Option Nat := none
  visible : Option Nat := none
  due : Bool := false
  flushing : Bool := false
  flushed : List Nat := []
  journalled : Bool := false
  dsm : Bool := false
  sent : Bool := false
  drain : Bool := false
  ranges : List LbaRange := []
  deriving DecidableEq, Repr

/-- A mirror request or resynchronisation copy that awaits its acknowledgement (R296, R297); `old` marks one of a pairing
that a commit has changed since (R300). -/
structure PairWait where
  pairSeq : Nat
  cmd : Option CmdId
  addr : Nat
  partner : Nat
  ranges : List LogRange
  resync : Bool
  old : Bool := false
  deriving DecidableEq, Repr

inductive PairState where
  | off | paired | unpaired | resyncing
  deriving DecidableEq, Repr

/-- A slice's pairing. The primary's side (R303, R845): the log, the requests that await an answer, the
ranges a resynchronisation has still to send, the lap of its latest PAIR_CONFIRM. The partner's side (R842):
the last PAIR_SEQ applied, the requests held above it, and the latest answers. `fresh` marks a pairing that has not been
confirmed since it was made: nothing from before it is copied (R303). -/
structure Pairing where
  state : PairState := .off
  log : List LogRange := []
  logFull : Bool := false
  seq : Nat := 0
  lastIn : Nat := 0
  waits : List PairWait := []
  cause : Nat := 0
  confirmed : Bool := false
  fresh : Bool := false
  todo : List LogRange := []
  confirmLap : Option Nat := none
  inbox : List (Nat × PostMsg) := []
  answers : List (Nat × Nat × Stamp) := []
  deriving DecidableEq, Repr

/-- The device-wide part of the write buffer (R305 to R313, R317). `pfBound` is the flush bound of R312 as it stood when the
failure was latched; `pfCounted` says that the failure has counted as an unsafe shutdown (R428, R1058). -/
structure Wbf where
  armed : Bool := false
  disarmSeen : Bool := false
  holdupOk : Bool := false
  holdupPin : Bool := false
  highTicks : Nat := 0
  reserveOk : Bool := false
  pfail : Bool := false
  pfTaken : Bool := false
  pfFlushing : Bool := false
  pfDone : Bool := false
  pfCounted : Bool := false
  pfStart : Nat := 0
  pfBound : Nat := 0
  drainPeriod : Bool := false
  deriving DecidableEq, Repr

/-! ### Flash translation and the channels -/

/-- What one programmed 4 KiB slot holds (R399, R400): its tag, and its encrypted part as the plain content beside the
media key it is under. `FlashSlot.cipher` gives the 4,160 bytes that stand on flash (R408, R409). -/
structure FlashSlot where
  unit : Nat
  slot : Nat
  slice : Nat
  stamp : Stamp
  key : Nat
  blocks : Tab BlockData
  deriving DecidableEq, Repr

/-- The states of an erase block. -/
inductive BlkState where
  | free | hostOpen | gcOpen | closed | reserve | system | retired
  deriving DecidableEq, Repr

/-- An erase block: wear, state, fill point and the media age at which it closed (R346, R367). -/
structure Blk where
  state : BlkState := .free
  pe : Nat := 0
  nextSlot : Nat := 0
  closedAge : Nat := 0
  closeOrder : Nat := 0
  erasing : Bool := false
  slots : Tab FlashSlot := []
  deriving DecidableEq, Repr

/-- A die's health record (R425), its own counters. -/
structure Health where
  pagesRead : Nat := 0
  pagesProgrammed : Nat := 0
  corrected : List Nat := [0, 0, 0, 0, 0, 0, 0, 0]
  retry : List Nat := [0, 0, 0, 0, 0, 0, 0, 0, 0, 0, 0]
  uncorrectable : Nat := 0
  programFail : Nat := 0
  eraseFail : Nat := 0
  retiredCount : Nat := 0
  tempNow : Int := 0
  tempPeak : Int := 0
  peakAge : Nat := 0
  tempRead : Bool := false
  hist : List Nat := List.replicate 23 0
  deriving DecidableEq, Repr

/-- A die (R328, R379, R394 to R398). -/
structure Die where
  present : Bool := false
  qualified : Bool := false
  lost : Bool := false
  planes : Nat := 0
  blocksPerPlane : Nat := 0
  pagesPerBlock : Nat := 0
  bitsPerCell : Nat := 0
  peRated : Nat := 0
  goodBlocks : Nat := 0
  /-- Blocks, as PLANE × 2^15 + BLOCK, that no allocation takes: factory-bad ones and those of the system area (R346, R349). -/
  held : List Nat := []
  /-- The last reclaim begun on the die was a refresh (R369). -/
  lastRefresh : Bool := false
  spareOut : Bool := false
  hotLap : Option Nat := none
  retireLaps : List Nat := []
  gcOn : Bool := false
  health : Health := {}
  deriving DecidableEq, Repr

/-- A channel (R397, R398, R424, R431 to R433). -/
structure Chan where
  rate : Nat := 0
  trained : Bool := false
  trainFail : Bool := false
  dumpBusy : Bool := false
  dumpOk : Bool := true
  dumpRefused : Bool := false
  dumpResult : Nat := 0
  decoded : Nat := 0
  retried : Nat := 0
  uncorr : Nat := 0
  nextDie : Nat := 0
  deriving DecidableEq, Repr

/-- An entry of a journal record (R355). -/
structure JEnt where
  loc : Nat
  slot : Nat
  new : Nat
  old : Nat
  deriving DecidableEq, Repr

/-- A journal record (R353, R354) and what its durability releases: the buffer entries it carries
(slice, entry id, and the one unit it carries of an entry it carries in part) and whether it is the FINAL record of
`victim`. `copies` are the dies that hold copy 1 and copy 2 once it is durable (R350). -/
structure JRec where
  seq : Nat
  type : Nat
  final : Bool
  stamp : Option Stamp
  victim : Nat
  ents : List JEnt
  covers : List (Nat × Nat × Option Nat)
  copies : Option (Nat × Nat) := none
  deriving DecidableEq, Repr

/-- A fine group (R331). -/
structure Fine where
  unit : Nat
  ents : List Nat
  lastPartial : Nat
  deriving DecidableEq, Repr

/-- A candidate table entry (R339). -/
structure Cand where
  unit : Nat
  count : Nat
  deriving DecidableEq, Repr

/-- A lost extent (R384). -/
structure Lost where
  slice : Nat
  die : Nat
  nsid : Nat
  slba : Nat
  blocks : Nat
  deriving DecidableEq, Repr

/-- A checkpoint's content (R358). -/
structure Ckpt where
  startSeq : Nat
  area : Nat
  coarse : Tab Nat
  fine : Tab Fine
  blocks : Tab Blk
  deriving DecidableEq, Repr

/-- Why a block's slots are copied away: collection, refresh, or the evacuation of a failing block that is then retired
with an event (R361, R368, R374). -/
inductive ReclaimFor where
  | gc | refresh | evac (code : Nat)
  deriving DecidableEq, Repr

/-- A block on its way through R363: the source reads and copies (programs and verifies) still
outstanding, the slots that could not be read, those read misdirected (R405), the map changes of its copies, the blocks
whose copies are verified
(R366) and, once journalled, the SEQ of its FINAL record (0 where it had nothing to copy). -/
structure Reclaim where
  blk : Nat
  why : ReclaimFor
  reads : Nat := 0
  bad : List Nat := []
  skip : List Nat := []
  progs : Nat := 0
  ents : List JEnt := []
  verified : List Nat := []
  finalSeq : Option Nat := none
  deriving DecidableEq, Repr

/-- A fine unit that is being demoted by copies (R343, R344): the die whose GC block takes it, the group's entries when the
copy began, the source reads outstanding, and where the copy stands. -/
structure Demote where
  unit : Nat
  die : Nat
  ents : List Nat
  reads : Nat
  dst : Option Nat := none
  deriving DecidableEq, Repr

/-- A polled external operation (R32): what the channel was asked, and for whom. -/
inductive PollKind where
  | hostRead (c : CmdId) (addr : Nat)
  | program (slice entry addr : Nat)
  | erase (blk : Nat)
  | copyRead (blk addr : Nat)
  | copyProgram (blk dst : Nat)
  | copyVerify (blk dst : Nat)
  | mergeRead (slice entry unit slot addr : Nat)
  | demoteRead (unit addr : Nat)
  | demoteProgram (unit addr : Nat)
  | demoteVerify (unit addr : Nat)
  deriving DecidableEq, Repr

/-- A polled operation: the stride in which it became ready (R1055), the command issues and data bursts it has still to
make on its channel (R29), and the stride of the latest of them. -/
structure PollOp where
  id : Nat
  kind : PollKind
  ready : Nat
  cmds : Nat
  bursts : Nat
  last : Option Nat := none
  deriving DecidableEq, Repr

/-- What a flush has still to place of one unit (R336 to R338): the slots it writes, whether as a whole coarse unit, whether
from every visible entry that covers the unit, the reads of current slots outstanding, the slots that could not be
read, and with those read misdirected (R405) all whose reads gave nothing. -/
structure FlushPart where
  unit : Nat
  slots : List Nat
  whole : Bool
  full : Bool
  reads : Nat
  bad : List Nat := []
  unread : List Nat := []
  gone : List Nat := []
  deriving DecidableEq, Repr

/-- A flush under way (R336 to R341): the record it will journal, the other entries that its full units cover, what is
still to be placed and the programs it waits for. -/
structure FlushJob where
  slice : Nat
  entry : Nat
  type : Nat
  stamp : Stamp
  ents : List JEnt
  others : List (Nat × Nat) := []
  parts : List FlushPart := []
  left : Nat
  deriving DecidableEq, Repr

/-- The flash translation layer. -/
structure Ftl where
  jobs : List FlushJob := []
  capacity : Nat := 0
  coarse : Tab Nat := []
  fine : Tab Fine := []
  fineTotal : Nat := 0
  cand : Tab Cand := []
  blks : Tab Blk := []
  jseq : Nat := 0
  jnext : Nat := 1
  journal : List JRec := []
  bandRecs : List JRec := []
  ckptSeq : Nat := 0
  ckptArea : Nat := 0
  ckptRunning : Option Ckpt := none
  ckptA : Option Ckpt := none
  ckptB : Option Ckpt := none
  ckptBegan : Nat := 0
  reclaims : List Reclaim := []
  demotes : List Demote := []
  refreshHead : List Nat := []
  mediaAge : Nat := 0
  closeCount : Nat := 0
  loss : List Lost := []
  lossOverflow : Bool := false
  result : Nat := 0
  cmdRefused : Bool := false
  busy : Bool := false
  ckptCmd : Bool := false
  prevCkpt : Bool := false
  readOnly : Bool := false
  recovered : Bool := false
  cntPromote : Nat := 0
  cntDemote : Nat := 0
  cntGc : Nat := 0
  cntRefresh : Nat := 0
  cntRetired : Nat := 0
  spareBase : Nat := 0
  firstFormat : Bool := false
  wear : Nat := 0
  spareUsed : Nat := 0
  availSpare : Nat := 0
  pctUsed : Nat := 0
  spareLow : Bool := false
  dies : Tab Die := []
  chans : Tab Chan := []
  polls : List PollOp := []
  nextPoll : Nat := 0
  deriving DecidableEq, Repr

end Sys2Proof.Machine
end

