-- ==== Sys2Proof/Machine/Engines.lean ====
section
/-! DEFINITION. The state of the key store, the public-key unit, the digest and cipher engines, the pattern
engine and the hurdle stages. -/

namespace Sys2Proof.Machine

/-! ### Key store (R741 to R763, R777 to R790) -/

/-- A key in a slice key slot (R745). `recEnd` is the counter value that the system area records (R724), and `recHeld` says
that a record of it has failed to be written, so that the key issues no nonce (R735); `hmacs` and
`kmacs` are its cached keyed states (R748): the inner and outer state of HMAC for SHA-256, SHA-384 and SHA-512, and the
state of KMAC256 for S empty and S = "KDF". `copies` are the dies of its record's two copies (R350, R751). -/
structure Key where
  k512 : Bool
  use : Nat
  child : Nat
  install : Nat
  counter : Nat
  limit : Nat
  recEnd : Nat
  recHeld : Bool := false
  spentSeen : Bool := false
  value : List (BitVec 8)
  hmacs : List (List (BitVec 8) × List (BitVec 8)) := []
  kmacs : List (List (BitVec 8)) := []
  copies : Option (Nat × Nat) := none
  deriving DecidableEq, Repr

/-- A measurement log (R788 to R790): MEAS, the stored entries and the number appended. -/
structure LogBook where
  meas : List (BitVec 8) := List.replicate 32 0
  ents : List (List (BitVec 8)) := []
  count : Nat := 0
  deriving DecidableEq, Repr

/-- What the key store keeps for one slice number: its keys by slice-local slot, the identity of its
delivery key pair, DELIVERY_SEQ, INCARNATION and the slice log. -/
structure SliceKeys where
  keys : Tab Key := []
  pair : Nat := 0
  seq : Nat := 0
  incarnation : Nat := 0
  log : LogBook := {}
  deriving DecidableEq, Repr

/-- A key that a change installs, before it has an INSTALL_ID. -/
structure NewKey where
  k512 : Bool
  use : Nat
  child : Nat
  value : List (BitVec 8)
  deriving DecidableEq, Repr

/-- A change of key slots whose records are being written (R749, R751): from a Key Delivery (with its
header) or from a derivation. -/
structure KeyChange where
  id : Nat
  slice : Nat
  stamp : Stamp
  ents : List (Nat × Option NewKey)
  cmd : CmdId
  delivery : Option (List (BitVec 8))
  deriving DecidableEq, Repr

/-- A job of the public-key unit (R780): the verification of a course, an enrolment, the generation of the key pair of a
slice that is being created, with its descriptor (R755), the decapsulation of a delivery, the signature of a report, or that of a relay link's message. -/
inductive PkKind where
  | course
  | enrol (rec : List (BitVec 8))
  | keygen (slice : Nat) (desc : List (BitVec 8))
  | decap (c : CmdId) (payload : List (BitVec 8))
  | sign (c : CmdId) (snap : Option (List (BitVec 8)))
  | link (port type : Nat) (body : List (BitVec 8))
  deriving DecidableEq, Repr

/-- KST_STAT.STATE (R797). -/
inductive KstState where
  | starting | ready | suspended
  deriving DecidableEq, Repr

/-- The key store's device-wide part (R797). `slot2` is the digest baton wrapping key (R743). -/
structure Kst where
  state : KstState := .starting
  alarms : List Nat := []
  lastAlarm : Nat := 0
  alarm : Bool := false
  starts : Nat := 0
  installs : Nat := 0
  enrolBusy : Bool := false
  enrolResult : Nat := 0
  enrolRefused : Bool := false
  weldopoRevoked : Nat := 0
  log : LogBook := {}
  jobs : List PkKind := []
  changes : List KeyChange := []
  nextChange : Nat := 0
  nextPair : Nat := 0
  slot2 : List (BitVec 8) := []
  deriving DecidableEq, Repr

/-! ### Digest engine (R764 to R776) -/

/-- A digest baton this device sealed since its last start-up (R773): its bytes and the computation it
carries, the message absorbed so far standing for the algorithm state. -/
structure DigestBaton where
  bytes : List (BitVec 8)
  slice : Nat
  alg : Nat
  key : Nat
  msg : List (BitVec 8)
  install : Nat
  print : List (BitVec 8)
  deriving DecidableEq, Repr

/-- A Digest in progress: `msg` is the whole message with what an imported baton had absorbed, once it is
in device memory; `unit` the digest unit it holds; `left` its strides still to run. -/
structure DigestRun where
  id : CmdId
  stamp : Stamp
  msg : Option (List (BitVec 8)) := none
  unit : Option Nat := none
  key : Option Key := none
  left : Nat := 0
  deriving DecidableEq, Repr

structure Dgs where
  runs : List DigestRun := []
  batons : List DigestBaton := []
  batches : Nat := 0
  deriving DecidableEq, Repr

/-! ### Cipher engine (R698 to R740) -/

/-- Where a staging buffer comes from (R730): an assigned core, the slice's quota, or the shared rest. A buffer has the
number of its AES core. -/
inductive Staging where
  | assigned | quota | shared
  deriving DecidableEq, Repr

/-- A Cipher Transform in progress: its source once it is in device memory, the nonce it took, its
staging buffer, and its batches run of all. -/
structure CipherRun where
  id : CmdId
  stamp : Stamp
  src : Option (List (BitVec 8)) := none
  begun : Bool := false
  nonce : Option Nat := none
  key : List (BitVec 8) := []
  staging : Option (Staging × Nat) := none
  done : Nat := 0
  total : Nat := 0
  deriving DecidableEq, Repr

/-- The cipher engine: the runs, the batches each slice was served in this lap (pool, all) and in the
previous one, the cores that ran a batch in the last stride, and the staging buffers withdrawn until the next start-up
(R735). -/
structure Cph where
  runs : List CipherRun := []
  poolLap : Tab Nat := []
  allLap : Tab Nat := []
  prevLap : Tab Nat := []
  busy : List Nat := []
  withdrawn : List Nat := []
  batches : Nat := 0
  alarm : Bool := false
  lastAlarm : Nat := 0
  deriving DecidableEq, Repr

/-! ### Pattern engine (R642 to R697) -/

inductive PatState where
  | empty | ready | lost
  deriving DecidableEq, Repr

/-- A slice's pattern table (R643 to R657), by local indices: entries not listed are zero. -/
structure PatTable where
  state : PatState := .empty
  root : Nat := 0
  gen : Nat := 0
  states : Tab (BitVec 64) := []
  trans : Tab (BitVec 32) := []
  rules : Tab (BitVec 64) := []
  rank : Tab (BitVec 16) := []
  scrubFirst : Nat := 0
  scrubLast : Nat := 0
  scrubCount : Nat := 0
  scrubNew : Bool := false
  deriving DecidableEq, Repr

/-- A Pattern Search or Step (R666 to R677): `slot` once it has begun, its input and cursor, the units it
has still to run and the epochs of its first and of its latest. -/
structure PatRun where
  id : CmdId
  stamp : Stamp
  slot : Option Nat := none
  input : List (BitVec 8) := []
  cursor : Option (Nat × Nat) := none
  left : Nat := 0
  epoch : Nat := 0
  last : Nat := 0
  tainted : Bool := false
  susp : Bool := false
  deriving DecidableEq, Repr

/-- A Pattern Table Load past its checks (R683): its image, and the phases behind it. During its write phase it has a
search slot, the search or scan that it suspended there, and the units it has written (R686); `applyLeft` counts the
strides that its apply phase still takes. -/
structure PatLoad where
  id : CmdId
  stamp : Stamp
  image : List (BitVec 8)
  slot : Option Nat := none
  victim : Option CmdId := none
  units : Nat := 0
  written : Bool := false
  applied : Bool := false
  applyLeft : Nat := 0
  deriving DecidableEq, Repr

structure Pat where
  tables : Tab PatTable := []
  runs : List PatRun := []
  loads : List PatLoad := []
  corrected : Nat := 0
  goldenFail : Nat := 0
  scrubNew : Bool := false
  lastSlot : Nat := 0
  bytes : Nat := 0
  deriving DecidableEq, Repr

/-! ### Heat program slots (R544 to R556) -/

/-- A program image in a slot (R550): header fields and body. -/
structure Program where
  code : List (BitVec 8)
  entry : Nat
  minCores : Nat
  maxCores : Nat
  deriving DecidableEq, Repr

/-- What a Heat Program Load left in a slot, at its stamp (R555). -/
structure ProgramLoad where
  stamp : Stamp
  image : Option Program
  deriving DecidableEq, Repr

/-- A slice's heat registers and program slots (R544, R589). -/
structure HeatRegs where
  programs : Tab (List ProgramLoad) := []
  stopMiss : Bool := false
  stops : List (Nat × Nat) := []
  deriving DecidableEq, Repr

/-! ### Hurdle stages (R594 to R641) -/

/-- A Hurdle Run: its descriptor once it passed its checks, the search slot of its hand-offs once it has one, whether it
waits for one, the hand-off units still to run and the epochs of the first and of the latest (R671), the data of its blocks
once they are read, whether a write phase has suspended it (R686), and the output bytes that have had
their strides of the output-compression slot (R629). -/
structure Scan where
  id : CmdId
  stamp : Stamp
  desc : Option (List (BitVec 8)) := none
  slot : Option Nat := none
  stream : Option (List (BitVec 8)) := none
  ask : Bool := false
  left : Nat := 0
  epoch : Nat := 0
  last : Nat := 0
  tainted : Bool := false
  stop : Bool := false
  susp : Bool := false
  packed : Nat := 0
  deriving DecidableEq, Repr

structure Hdl where
  scans : List Scan := []
  stops : List (Nat × Nat × Nat) := []
  miss : List Nat := []
  records : Nat := 0
  bytesIn : Nat := 0
  bytesOut : Nat := 0
  deriving DecidableEq, Repr

end Sys2Proof.Machine
end

