-- ==== Sys2Proof/Machine/Slices.lean ====
section
/-! DEFINITION. The state of one slice and of the slice manager. -/

namespace Sys2Proof.Machine

/-- The slice states, in the order of their codes 0x0 to 0xB (R116). -/
inductive SlState where
  | absent | creating | active | freezing | frozen | resetting | saving | parked | restoring
  | migrating | receiving | destroying
  deriving DecidableEq, Repr

/-- The operations of SLC_CMD, in the order of their codes 0x1 to 0xC (R167). -/
inductive SlcOp where
  | create | resetDrain | resetSquash | freeze | thaw | save | restore | destroy | migrate
  | accept | movePort | cancel
  deriving DecidableEq, Repr

/-- What a creation descriptor or a baton asks of the pools (R121), port and PASIDs included. -/
structure Draw where
  port : Nat := 0
  pasids : List Nat := []
  nsMax : Nat := 1
  cores : Nat := 0
  banks : Nat := 0
  bgroups : Nat := 0
  keySlots : Nat := 0
  aes : Nat := 0
  search : Nat := 0
  wbf : Nat := 0
  cmb : Nat := 0
  dram : Nat := 0
  qp : Nat := 0
  flash : Nat := 0
  host : Nat := 0
  deriving DecidableEq, Repr

/-- An asynchronous event that waits for a request (R212, R380). -/
inductive AsyncEv where
  | invalidDoorbell
  | invalidDoorbellValue
  | health
  | temperature
  | spare
  | vendor (k : Nat)
  deriving DecidableEq, Repr

/-- The features of R199 in force. -/
structure Features where
  ab : Nat := 0
  lpw : Nat := 0
  mpw : Nat := 0
  hpw : Nat := 0
  powerState : Nat := 0
  tempOver : Nat := 0x157
  tempUnder : Nat := 0
  sqAlloc : Option Nat := none
  cqAlloc : Option Nat := none
  coalThr : Nat := 0
  coalTime : Nat := 0
  vecCd : List Nat := []
  asyncCfg : BitVec 32 := 0
  ltol : BitVec 32 := 0
  stampRep : Bool := false
  deriving DecidableEq, Repr

/-- The slice's own counts of its SMART log (R428). -/
structure Smart where
  unitsRead : Nat := 0
  unitsWritten : Nat := 0
  reads : Nat := 0
  writes : Nat := 0
  busyLaps : Nat := 0
  mediaErrors : Nat := 0
  /-- The Critical Warning bits at the last tick, whose rises make events (R199, R212). -/
  warned : Nat := 0
  deriving DecidableEq, Repr

/-- The controller registers of R187 and what goes with them. `resetting` says that a controller
reset is in progress, `squash` which kind, `enableDue` that an enable awaits the lap boundary. -/
structure Ctrl where
  cc : BitVec 32 := 0
  rdy : Bool := false
  cfs : Bool := false
  shst : Nat := 0
  aqa : BitVec 32 := 0
  asq : BitVec 64 := 0
  acq : BitVec 64 := 0
  cmbmsc : BitVec 64 := 0
  resetting : Bool := false
  enableDue : Bool := false
  cfsDue : Bool := false
  deriving DecidableEq, Repr

/-- A slice. `release` says that its resources go back at the next lap boundary, and `bound` that a RESTORING slice's
have been bound at one (R119). -/
structure Slice where
  st : SlState := .absent
  lastResult : Nat := 0
  port : Nat := 0
  pasids : List Nat := []
  nsMax : Nat := 0
  draw : Draw := {}
  cores : List Nat := []
  banks : List Nat := []
  bgroups : List Nat := []
  aes : List Nat := []
  search : List Nat := []
  keySlots : Nat := 0
  dramMib : Nat := 0
  dramBase : Nat := 0
  cmbMib : Nat := 0
  cmbOff : Option Nat := none
  ctrl : Ctrl := {}
  drain : Bool := false
  prev : SlState := .absent
  moveDue : Option Draw := none
  feats : Features := {}
  sqs : Tab Sq := []
  cqs : Tab Cq := []
  strays : List (Bool × Nat) := []
  aers : List (CmdId × Nat) := []
  asyncs : List AsyncEv := []
  adms : List Adm := []
  ready : List Ready := []
  aborts : List AbortReq := []
  rr : Nat := 0
  wrr : List Nat := [0, 0, 0, 0]
  nss : Tab Ns := []
  nextEntry : Nat := 0
  entries : List Entry := []
  water : Bool := false
  pairing : Pairing := {}
  smart : Smart := {}
  health : Bool := false
  mediaKey : Option Nat := none
  serialSeen : Nat := 0
  peerAddr : Nat := 0
  peerSlice : Nat := 0
  sourceLive : Bool := false
  release : Bool := false
  trimSeq : Option Nat := none
  bound : Bool := false
  deriving DecidableEq, Repr

/-- An SLC_CMD operation under check (R120, R1056). -/
structure SlcPending where
  op : SlcOp
  slice : Nat
  force : Bool
  judged : Bool := false
  at' : Nat := 0
  deriving DecidableEq, Repr

/-- A slice's part in the deal of POOL slots (R123). -/
structure Deal where
  slice : Nat
  port : Nat
  host : Nat
  flash : Nat
  deriving DecidableEq, Repr

/-- The slice manager's own registers (R166 to R170), and the deal of POOL slots in force. -/
structure Slc where
  op : Option SlcPending := none
  result : Nat := 0
  slice : Nat := 0
  cmdRefused : Bool := false
  errField : Nat := 0
  batonNeed : Nat := 0
  commitPair : Nat := 0
  commitSlice : Nat := 0
  deal : List Deal := []
  deriving DecidableEq, Repr

/-- A slice number's durable SERIAL record (R151). -/
structure Serial where
  serial : Nat := 0
  live : Bool := false
  deriving DecidableEq, Repr

/-- A slice-table record (R972). -/
structure SliceTable where
  slices : Tab Slice
  shares : Tab (BitVec 64)
  deriving DecidableEq, Repr

end Sys2Proof.Machine
end

