-- ==== Sys2Proof/Machine/Control.lean ====
section
/-! DEFINITION. The state of start-up, device faults, firmware images, the power manager, the fault
injector, and what the system area and the fuses keep. -/

namespace Sys2Proof.Machine

/-- The phases of DEV_BOOT_STAT (R998), codes 0x0 to 0x9 in order. -/
inductive Phase where
  | step13 | step4 | step5 | step67 | step8 | ready | noCourse | mapShort | safe | flushing
  deriving DecidableEq, Repr

/-- How the device stands to its power and reset inputs: no supply, held in reset before the
starter (R1018), or started. -/
inductive RunState where
  | off
  | waiting
  | started
  deriving DecidableEq, Repr

/-- The DEV block (R998) and device faults (R977 to R982). `env` is what the start-up
under way found outside the device, for the steps it has still to run (R968). -/
structure Dev where
  run : RunState := .off
  phase : Phase := .step13
  step3Done : Bool := false
  cause : Nat := 0
  sliceTableLost : Bool := false
  startKind : Nat := 1
  image : Nat := 0
  trial : Bool := false
  lastSource : Nat := 0
  faultStrides : List Nat := []
  faultTotal : Nat := 0
  faultStride : Nat := 0
  faultDue : Option Nat := none
  faultFlush : Bool := false
  afterFlush : Nat := 0
  restartDue : Bool := false
  watchdog : Nat := 0
  cmdResult : Nat := 0
  cmdRefused : Bool := false
  cmdBusy : Bool := false
  env : Option StartEnv := none
  deriving DecidableEq, Repr

/-- A firmware image in the system area (R984, R998). STATE is 0 empty, 1 valid, 2 invalid. -/
structure FwImage where
  state : Nat := 0
  major : Nat := 0
  minor : Nat := 0
  patch : Nat := 0
  epoch : Nat := 0
  relayMin : Nat := 0
  relayMax : Nat := 0
  bytes : List (BitVec 8) := []
  deriving DecidableEq, Repr

/-- The power manager's phase of PWR_STAT (R931). -/
inductive PwrPhase where
  | steady | preparing | entering | exiting
  deriving DecidableEq, Repr

/-- The power manager (R898 to R931). `idle` counts, for P1 to P4, the lap boundaries at which the
entry conditions have held without a break; `prepAt` is the stride at which preparation began, and
`tolPrev` the tolerance in force at the latest tick (R918 source 0x8). -/
structure Pwr where
  state : Nat := 0
  target : Nat := 0
  phase : PwrPhase := .steady
  prepReady : Bool := false
  falseStart : Bool := false
  latched : Option (Nat × Nat) := none
  wakeSource : Nat := 0
  wakeFrom : Nat := 0
  wakeDetail : Nat := 0
  wakeStride : Nat := 0
  mgmtPll : Bool := true
  clusterPll : Nat := 0
  pllWanted : Nat := 0
  idle : List Nat := [0, 0, 0, 0]
  residency : List Nat := [0, 0, 0, 0, 0]
  refreshWake : Option Nat := none
  wakeEventDue : Bool := false
  prepAt : Nat := 0
  tolPrev : Nat := 0
  deriving DecidableEq, Repr

/-- The fault injector's counts (R994, R995, R999), and the frame of each port that it holds back (R993). -/
structure Fij where
  done : List Nat := [0, 0, 0, 0, 0, 0, 0, 0]
  count : List Nat := [0, 0, 0, 0, 0, 0, 0, 0]
  lapDone : List Nat := [0, 0, 0, 0, 0, 0, 0, 0]
  lfsr : BitVec 32 := 1
  late : Tab RelayIn := []
  deriving DecidableEq, Repr

/-- What the pins, the SMBus port and the TAP hold (R1033, R1036 to R1045, R1048): the levels of the output
pins by the model's numbers, SELECT, the values latched for P3 and P4, and the TAP's instruction. -/
structure Pins where
  levels : Tab Bool := []
  select : Nat := 0
  basic : List (BitVec 8) := []
  ident : List (BitVec 8) := []
  instr : Nat := 1
  lockedAccess : Nat := 0
  tapActive : Bool := false
  pwrLow : Bool := false
  pfHigh : Bool := false
  deriving DecidableEq, Repr

/-- The P4 record (R916). -/
structure P4Record where
  course : Option Course
  inForce : Tab (BitVec 64)
  slices : Tab Slice
  devLog : LogBook
  sliceLogs : Tab LogBook
  rwPower : Tab (BitVec 64)
  firmware : List (BitVec 8)
  deriving DecidableEq, Repr

end Sys2Proof.Machine
end

