-- ==== Sys2Proof/Machine/Cores.lean ====
section
/-! DEFINITION. The state of the memories and their codes, the DRAM channels, the Norsor cores and the
heats. -/

namespace Sys2Proof.Machine

/-! ### Memories (R859 to R897) -/

/-- What the array physically holds of a byte whose stored word is not the one written: data and check
bits (R859, R860, R878). `gone` marks a byte that was uncorrectable when its page code was computed
again: it never becomes good data (R869). -/
structure RawWord where
  data : BitVec 8
  check : Nat
  gone : Bool := false
  deriving DecidableEq, Repr

/-- A memory: an SRAM array (R895) or all of DRAM. `cells` is what was written; `raws` are the bytes that
physically differ; `dirty` are the pages whose page code is stale, each with the bytes it had when the
code was last right; `late` are those made dirty in the current lap, `queue` the catch-up list (R871),
and `par` the parity bytes that differ from the page's own code (R878). -/
structure MemArr where
  cells : List Host.Cell := []
  raws : Tab RawWord := []
  dirty : Tab (List Host.Cell) := []
  late : List Nat := []
  queue : List Nat := []
  par : Tab (BitVec 8) := []
  deriving DecidableEq, Repr

/-- Memory protection (R894): counters, the words reported this lap and the test operation. -/
structure Mpr where
  ceDram : Nat := 0
  ueDram : Nat := 0
  ceSram : Nat := 0
  ueSram : Nat := 0
  lastUe : Nat := 0
  exceeded : Bool := false
  passes : Nat := 0
  patrolLaps : Nat := 0
  seenUe : List (Nat × Nat) := []
  testResult : Nat := 0
  deriving DecidableEq, Repr

/-- A subchannel's refresh counts (R883 to R886, R896). -/
structure Refresh where
  pending : Nat := 0
  maxPending : Nat := 0
  forced : Nat := 0
  postponed : Nat := 0
  hot : Bool := false
  deriving DecidableEq, Repr

/-- A byte lane's trained window (R887, R896). -/
structure Lane where
  rdCentre : Nat := 0
  rdWidth : Nat := 0
  wrCentre : Nat := 0
  wrWidth : Nat := 0
  deriving DecidableEq, Repr

/-- A DRAM channel (R896). -/
structure Drc where
  rate : Nat := 0
  trained : Bool := false
  trainFail : Bool := false
  populated : Bool := false
  lanes : List Lane := []
  refresh : List Refresh := [{}, {}]
  deriving DecidableEq, Repr

/-! ### Norsor cores (R436 to R498) -/

/-- What a core is held for: the heat runtime's waits (R573, R574, R578), and a REP.U of `count` iterations of `w`
that waits for the tick (R30). -/
inductive CoreHold where
  | none | exited | barrier | yield | budget | suspended
  | repu (count : Nat) (w : RepWord)
  deriving DecidableEq, Repr

/-- A Norsor core. -/
structure Core where
  g : List (BitVec 64) := List.replicate 32 0
  pc : BitVec 64 := 0x80000000
  flg : BitVec 64 := 0
  dcx : BitVec 64 := 0x100
  cyc : BitVec 64 := 0
  marshal : Bool := true
  pmode : Bool := true
  exl : Bool := false
  epc : BitVec 64 := 0
  ecause : BitVec 64 := 0
  eaddr : BitVec 64 := 0
  mvec : BitVec 64 := 0
  hbase : BitVec 64 := 0
  hsize : BitVec 64 := 0
  hbanks : BitVec 64 := 0
  scratch : List (BitVec 64) := [0, 0, 0, 0]
  halted : Bool := false
  dfault : Bool := false
  waiting : Bool := false
  stopReq : Bool := false
  suspReq : Bool := false
  svc : Option Nat := none
  hold : CoreHold := .none
  loading : Bool := false
  /-- The cycles that the core's instructions have taken since the tick (R1, R30). -/
  used : Nat := 0
  deriving DecidableEq, Repr

/-! ### Heats (R544 to R593) -/

inductive HeatState where
  | checking | staging | waitCores | loading | running | suspended | delivering
  deriving DecidableEq, Repr

/-- An extent of a heat's input (R559). -/
structure HeatExtent where
  nsid : Nat
  slba : Nat
  nlb : Nat
  dest : Nat
  deriving DecidableEq, Repr

/-- A heat (R558, R562). `cores` are its core numbers in ascending order, and `fault` is the exception that ends it at the
next tick: the index of its core in the heat, and DW0 and DW1 of the completion (R585). -/
structure Heat where
  id : CmdId
  stamp : Stamp
  st : HeatState := .checking
  image : Option Program := none
  cores : List Nat := []
  dcx : Nat := 0
  maxLaps : Nat := 0
  laps : Nat := 0
  inputBytes : Nat := 0
  resultOffset : Nat := 0
  resultBytes : Nat := 0
  param : List (BitVec 64) := []
  extents : List HeatExtent := []
  staged : Bool := false
  exitN : Nat := 0
  exitCode : Nat := 0
  stopWanted : Bool := false
  fault : Option (Nat × BitVec 32 × BitVec 32) := none
  deriving DecidableEq, Repr

/-! ### Batons (R145, R149) -/

/-- A baton that this device sealed (R145, R149): what its body holds, under the serial it carries. -/
structure Baton where
  slice : Nat
  serial : Nat
  state : Slice
  totals : Draw
  recorder : Recorder
  heats : List Heat
  cores : Tab Core
  coreSram : Tab (List Host.Cell)
  bankSram : Tab (List Host.Cell)
  dram : List Host.Cell
  keys : SliceKeys
  programs : HeatRegs
  bytes : List (BitVec 8)
  deriving DecidableEq, Repr

end Sys2Proof.Machine
end

