-- ==== Sys2Proof/Machine/RelaySt.lean ====
section
/-! DEFINITION. The state of the relay ports, the field, field time and migrations. -/

namespace Sys2Proof.Machine

/-- The states of a relay port, in the order of their codes (R854). -/
inductive LinkState where
  | disabled | down | hello | keying | up
  deriving DecidableEq, Repr

/-- An exchange of R835: t1 to t4. -/
structure PaceExchange where
  t1 : Int
  t2 : Int
  t3 : Int
  t4 : Int
  deriving DecidableEq, Repr

/-- A relay port (R814, R854). `sent` are the latest PACEs sent with their field times, `got` the latest
PACE taken and the field time at which it was; `repHead` is the head of the field key that the peer last reported. -/
structure RlyPort where
  st : LinkState := .disabled
  cause : Nat := 0
  version : Nat := 0
  phyUp : Bool := false
  downSeen : Bool := false
  ownHello : Option HelloMsg := none
  peer : Option HelloMsg := none
  offerPair : Nat := 0
  linkKey : List (BitVec 8) := []
  linkNonce : Nat := 0
  pendKey : List (BitVec 8) := []
  helloAt : Nat := 0
  lastRx : Nat := 0
  keyAcked : Bool := false
  repHead : Option Nat := none
  tagLap : Option Nat := none
  paceSeq : Nat := 0
  sent : List (Nat × Int) := []
  got : Option (Nat × Int) := none
  exch : Option PaceExchange := none
  delayPs : Int := 0
  thetaPs : Int := 0
  tx : Nat := 0
  rx : Nat := 0
  drops : Nat := 0
  tagFails : Nat := 0
  retx : Nat := 0
  deriving DecidableEq, Repr

/-- The roster in force (R811): entries by field address. -/
structure Roster where
  seq : Nat
  ents : Tab Nat
  image : List (BitVec 8)
  deriving DecidableEq, Repr

/-- What a member's latest SUMMARY said (R821), and when it arrived. -/
structure Member where
  sumSeq : Nat
  vMax : Nat
  flags : Nat
  timeState : Nat
  events : List Nat
  nbrs : List (Nat × Nat)
  heard : Nat
  deriving DecidableEq, Repr

/-- A route (R822): the neighbour it goes by, its port and its hops. -/
structure Route where
  via : Nat
  port : Nat
  hops : Nat
  deriving DecidableEq, Repr

/-- A routed message that awaits its reply (R809). -/
structure Awaited where
  id : Nat
  dest : Nat
  type : Nat
  words : List Nat
  body : List (BitVec 8)
  first : Nat
  last : Nat
  deriving DecidableEq, Repr

/-- RLY_STAT.STATE (R855). -/
inductive JoinState where
  | noRoster | joined | mismatch
  deriving DecidableEq, Repr

/-- A field key (R819): head, epoch and value. -/
structure FieldKey where
  head : Nat
  epoch : Nat
  value : List (BitVec 8)
  deriving DecidableEq, Repr

/-- The states of field time, in the order of their codes (R836). -/
inductive TimeState where
  | free | acquiring | locked | holdover | head
  deriving DecidableEq, Repr

/-- Field time (R831 to R839): FT at the latest lap boundary in ps, the slew over the lap, the servo, and
the qualification of 1PPS_IN (R1026). -/
structure FieldTime where
  st : TimeState := .free
  lapPs : Int := 0
  lapStride : Nat := 0
  slewPs : Int := 0
  integPs : Int := 0
  lockRun : Nat := 0
  head : Nat := 0
  parent : Option Nat := none
  depth : Nat := 0
  ppsRun : Nat := 0
  refRun : Nat := 0
  ppsOk : Bool := false
  refOk : Bool := false
  ppsBad : Bool := false
  ppsAt : Option Int := none
  ppsPs : Int := 0
  setTo : Option Nat := none
  outHigh : Option Nat := none
  deriving DecidableEq, Repr

/-- The source of a migration (R157 to R161, R848 to R852). `resend` says that a start-up has its MIG_COMMIT
sent again (R973). -/
structure MigOut where
  slice : Nat
  peer : Nat
  peerSlice : Nat
  serial : Nat
  count : Nat
  accepted : Bool := false
  sent : Bool := false
  committed : Bool := false
  resend : Bool := false
  deriving DecidableEq, Repr

/-- The destination of a migration: what it has received, the MIG_DATA runs in the order of their MSG_IDs `ids` (R850). -/
structure MigIn where
  slice : Nat
  peer : Nat
  peerSlice : Nat
  serial : Nat
  baton : Option MigImage := none
  ids : List Nat := []
  runs : List MigRun := []
  commit : Bool := false
  committed : Bool := false
  deriving DecidableEq, Repr

/-- The field part of the relay (R855). -/
structure Rly where
  ports : Tab RlyPort := []
  join : JoinState := .noRoster
  result : Nat := 0
  refused : Bool := false
  members : Tab Member := []
  routes : Tab Route := []
  noRoute : Tab Nat := []
  floor : Nat := 1
  key : Option FieldKey := none
  prevKey : Option FieldKey := none
  keyAt : Nat := 0
  keyHead : Option Nat := none
  nonce : Nat := 0
  sumSeq : Nat := 0
  sumAt : Nat := 0
  msgs : List Awaited := []
  nextMsg : Nat := 0
  seen : List (Nat × Nat) := []
  time : FieldTime := {}
  migOut : List MigOut := []
  migIn : List MigIn := []
  deriving DecidableEq, Repr

end Sys2Proof.Machine
end

