-- ==== Sys2Proof/Machine/State.lean ====
section
/-! DEFINITION. The machine's state as plain data, the reasons a command can stop, and the state
after reset. -/

namespace Sys2Proof.Machine

/-- Why a command stops. Every one is the model's own stop on a command that names something the
spec says does not exist; the device has no such command, so a stop claims nothing of it (safe). -/
inductive Fault where
  /-- The command names a slice number above 511 (R116). Raised by the slice and host commands. Safe. -/
  | noSuchSlice (n : Nat)
  /-- The command names a PCIe port other than 0 and 1 (R175). Raised by the port commands. Safe. -/
  | noSuchPort (n : Nat)
  /-- The command names a core above 71 (R436). Raised by the core's instructions. Safe. -/
  | noSuchCore (n : Nat)
  /-- The command names a flash channel, die or block outside R327. Safe. -/
  | noSuchMedia (n : Nat)
  /-- The command names a relay port above 3 (R803). Safe. -/
  | noSuchRelayPort (n : Nat)
  /-- The command names a DRAM channel, subchannel or cluster that does not exist. Safe. -/
  | noSuchUnit (n : Nat)
  deriving DecidableEq, Repr

/-- Why a command has no meaning. -/
inductive Refusal where
  /-- The command of this mnemonic is not modelled yet. Raised by `exec` alone. Safe. -/
  | notModelled (mnemonic : String)
  deriving DecidableEq, Repr

/-- What the system area, the fuses and the one-time store keep without power (R93, R94, R151, R349,
R350, R750 to R754, R916, R972, R984). -/
structure Durable where
  formatted : Bool := false
  courseCur : Option SysCopies := none
  coursePrev : Option SysCopies := none
  fusedEpoch : Nat := 0
  ownerFuses : Tab OwnerFuse := []
  ownerRevoked : Nat := 0
  fwFusedEpoch : Nat := 0
  fwA : FwImage := {}
  fwB : FwImage := {}
  fwTries : Nat := 0
  fwTrial : Bool := false
  fwConfirmed : Nat := 0
  serials : Tab Serial := []
  batons : List Baton := []
  sliceTable : Option SliceTable := none
  recDev : Recorder := {}
  recSlices : Tab Recorder := []
  reserve : Tab (List Entry) := []
  p4 : Option P4Record := none
  /-- By KEY_ID, the recorded end of a field key's COUNTER block (R724, R810). -/
  nonceEnds : Tab Nat := []
  roster : Option Roster := none
  coldStarts : Nat := 0
  unsafeOffs : Nat := 0
  poweredLaps : Nat := 0
  warnLaps : Nat := 0
  critLaps : Nat := 0
  health : Tab Health := []
  deriving DecidableEq, Repr

/-- The state of the machine. -/
structure State where
  /-- The commands that wait, first in, first out. -/
  pending : List Instr
  /-- What the device has sent, oldest first. The model's own record. -/
  out : List Out
  /-- How many values that the spec leaves open the run has drawn. The model's own field. -/
  free : Nat
  /-- STR_COUNT_64 (R21, R26). -/
  stride : Nat
  /-- The next admission sequence of this stride (R221). -/
  admSeq : Nat
  /-- The value the last register read returned. -/
  lastRead : BitVec 64
  /-- Fused: 1 MB6400-A0, 2 MB6400-B0, 3 MB6400-C0 (R5). -/
  variant : Nat
  /-- Fused: the unique device identifier (R80). -/
  deviceId : BitVec 64
  /-- RW register fields, by register key. -/
  rw : Tab (BitVec 64)
  /-- Staged values of RWS registers that differ from those in force (R98). -/
  staged : Tab (BitVec 64)
  /-- RWS registers in force, by register key, where they differ from reset. -/
  inForce : Tab (BitVec 64)
  /-- Error status registers, by register key (R17). -/
  errs : Tab ErrStat
  /-- Latches and held halves of 64-bit registers (R16). -/
  latches : List Latch
  dev : Dev
  crs : Crs
  evr : Evr
  ports : Tab Port
  /-- The stride under way at the host links and flash channels (R31, R36, R219). -/
  link : LinkStride
  /-- MSI-X pending bits: port × 2,048 + entry (R243). -/
  msixPend : List Nat
  slc : Slc
  slices : Tab Slice
  wbf : Wbf
  ftl : Ftl
  pwr : Pwr
  fij : Fij
  /-- The controller memory buffer, by offset in BAR4. -/
  cmb : List Host.Cell
  /-- The SRAM arrays by their numbers (R895), and DRAM under `dramArr`. -/
  mem : Tab MemArr
  mpr : Mpr
  drcs : Tab Drc
  cores : Tab Core
  heats : List Heat
  heatRegs : Tab HeatRegs
  kst : Kst
  /-- What the key store keeps for each slice number. -/
  sliceKeys : Tab SliceKeys
  dgs : Dgs
  cph : Cph
  /-- CPH_INSTANCE, fused (R718). -/
  instanceId : Nat
  pat : Pat
  hdl : Hdl
  rly : Rly
  pins : Pins
  dur : Durable
  deriving DecidableEq, Repr

/-- The machine right after reset: no supply, nothing placed, every register at its reset value. The fused
values are those of an MB6400-A0 whose identifiers are 0 (DESIGN CHOICE, assumption 3). -/
def State.reset : State :=
  { pending := [], out := [], free := 0, stride := 0, admSeq := 0, lastRead := 0, variant := 1, deviceId := 0,
    rw := [], staged := [], inForce := [], errs := [], latches := [], dev := {}, crs := {}, evr := {},
    ports := [], link := {}, msixPend := [], slc := {}, slices := [], wbf := {}, ftl := {}, pwr := {}, fij := {}, cmb := [],
    mem := [], mpr := {}, drcs := [], cores := [], heats := [], heatRegs := [], kst := {}, sliceKeys := [],
    dgs := {}, cph := {}, instanceId := 0, pat := {}, hdl := {}, rly := {}, pins := {}, dur := {} }

end Sys2Proof.Machine
end

