-- ==== Sys2Proof/Machine/Ops.lean ====
section
/-! DEFINITION. The named operations over tables, memory, bytes and the state that every meaning is
written with. -/

namespace Sys2Proof.Machine

/-! ### Sparse tables -/

/-- The value at an index, if the table has one. -/
def tget {α : Type} : Tab α → Nat → Option α
  | [], _ => none
  | (k, v) :: t, i => if k = i then some v else tget t i

/-- The value at an index, or the default. -/
def tgetD {α : Type} (t : Tab α) (i : Nat) (d : α) : α := (tget t i).getD d

/-- Set the value at an index, keeping the indices in rising order. -/
def tset {α : Type} : Tab α → Nat → α → Tab α
  | [], i, v => [(i, v)]
  | (k, w) :: t, i, v =>
    if i < k then (i, v) :: (k, w) :: t
    else if i = k then (i, v) :: t
    else (k, w) :: tset t i v

/-- Remove an index. -/
def tdel {α : Type} : Tab α → Nat → Tab α
  | [], _ => []
  | (k, w) :: t, i => if k = i then t else (k, w) :: tdel t i

/-- Change the value at an index, if there is one. -/
def tmod {α : Type} (t : Tab α) (i : Nat) (f : α → α) : Tab α :=
  t.map (fun p => if p.1 = i then (p.1, f p.2) else p)

/-- Change every value. -/
def tmap {α : Type} (t : Tab α) (f : Nat → α → α) : Tab α := t.map (fun p => (p.1, f p.1 p.2))

/-- Replace element `i` of a list. -/
def lset {α : Type} : List α → Nat → α → List α
  | [], _, _ => []
  | _ :: t, 0, v => v :: t
  | h :: t, i + 1, v => h :: lset t i v

/-- Add `k` to element `i` of a list of counts, saturating at `top`. -/
def laddSat (l : List Nat) (i k top : Nat) : List Nat := lset l i (min top (l.getD i 0 + k))

/-- The sum of a list of counts. -/
def lsum : List Nat → Nat
  | [] => 0
  | h :: t => h + lsum t

/-- Saturating addition. -/
def satAdd (a b top : Nat) : Nat := min top (a + b)

/-- Are the elements pairwise distinct? -/
def distinct : List Nat → Bool
  | [] => true
  | h :: t => !t.contains h && distinct t

/-- Sort a list of indices in ascending order. -/
def sortNat : List Nat → List Nat
  | [] => []
  | x :: t =>
    let rec ins (x : Nat) : List Nat → List Nat
      | [] => [x]
      | y :: t => if x ≤ y then x :: y :: t else y :: ins x t
    ins x (sortNat t)

/-! ### Memory: cells in rising address order, no cell holding zero (what an unlisted address reads as) -/

/-- The byte at an address. -/
def mget : List Host.Cell → Nat → BitVec 8
  | [], _ => 0
  | (b, w) :: t, a => if b = a then w else mget t a

/-- Store one byte, keeping the canonical form. -/
def mset : List Host.Cell → Nat → BitVec 8 → List Host.Cell
  | [], a, v => if v = 0 then [] else [(a, v)]
  | (b, w) :: t, a, v =>
    if a < b then (if v = 0 then (b, w) :: t else (a, v) :: (b, w) :: t)
    else if a = b then (if v = 0 then t else (a, v) :: t)
    else (b, w) :: mset t a v

/-- The canonical form of a memory: addresses strictly rising from `lo`, no zero byte listed. -/
def Memory.wfFrom : Nat → List Host.Cell → Bool
  | _, [] => true
  | lo, (b, w) :: t => decide (lo ≤ b) && decide (w ≠ 0) && Memory.wfFrom (b + 1) t

/-- The canonical form of a memory. -/
def Memory.wf (m : List Host.Cell) : Bool := Memory.wfFrom 0 m

/-- Read `n` bytes from an address. -/
def mread (m : List Host.Cell) (a : Nat) : Nat → Bytes
  | 0 => []
  | n + 1 => mget m a :: mread m (a + 1) n

/-- Store bytes from an address on. -/
def mwrite (m : List Host.Cell) (a : Nat) : Bytes → List Host.Cell
  | [] => m
  | b :: t => mwrite (mset m a b) (a + 1) t

/-- Clear the bytes of `[lo, hi)`: they read as zero again. -/
def mclear (m : List Host.Cell) (lo hi : Nat) : List Host.Cell :=
  m.filter (fun c => decide (c.1 < lo) || decide (hi ≤ c.1))

/-! ### Bytes (R8) -/

/-- The little-endian value of a string of bytes. -/
def leNat : Bytes → Nat
  | [] => 0
  | b :: t => b.toNat + 256 * leNat t

/-- `w` little-endian bytes of a number. -/
def leBytes : Nat → Nat → Bytes
  | 0, _ => []
  | w + 1, n => BitVec.ofNat 8 n :: leBytes w (n / 256)

/-- The big-endian value of a string of bytes. -/
def beNat (bs : Bytes) : Nat := bs.foldl (fun a b => 256 * a + b.toNat) 0

/-- `w` big-endian bytes of a number. -/
def beBytes (w n : Nat) : Bytes := (leBytes w n).reverse

/-- `n` bytes from an offset. -/
def bytesAt (bs : Bytes) (off n : Nat) : Bytes := (bs.drop off).take n

/-- A little-endian field of `n` bytes at an offset. -/
def leAt (bs : Bytes) (off n : Nat) : Nat := leNat (bytesAt bs off n)

/-- Are these bytes all zero? -/
def allZero (bs : Bytes) : Bool := bs.all (fun b => b = 0)

/-- The offset of the first non-zero byte, from `off` on. -/
def firstNonZero : Bytes → Nat → Option Nat
  | [], _ => none
  | b :: t, off => if b = 0 then firstNonZero t (off + 1) else some off

/-- Bring a string of bytes to exactly `n`, cutting it or filling it with zeros. -/
def padTo (n : Nat) (bs : Bytes) : Bytes := (bs ++ List.replicate n 0).take n

/-! ### Outcomes -/

/-- The outcome of a command. -/
abbrev Res := Host.Outcome State Fault Refusal

/-- Run a command that names slice `n` (R116). -/
def onSlice (n : Nat) (s : State) : Res := if n < 512 then .next s else .fault (.noSuchSlice n)

/-! ### Slices, ports and the course -/

/-- Sort a list by "comes before". -/
def sortBy {α : Type} (before : α → α → Bool) : List α → List α
  | [] => []
  | x :: t =>
    let rec ins (x : α) : List α → List α
      | [] => [x]
      | y :: t => if before y x then y :: ins x t else x :: y :: t
    ins x (sortBy before t)

namespace State

/-- Slice number `n`; one that was never created is ABSENT. -/
def slice (s : State) (n : Nat) : Slice := tgetD s.slices n {}

def setSlice (s : State) (n : Nat) (x : Slice) : State := { s with slices := tset s.slices n x }

/-- Change slice number `n`. -/
def modSlice (s : State) (n : Nat) (f : Slice → Slice) : State := s.setSlice n (f (s.slice n))

/-- Port `p`. -/
def port (s : State) (p : Nat) : Port := tgetD s.ports p {}

def modPort (s : State) (p : Nat) (f : Port → Port) : State :=
  { s with ports := tset s.ports p (f (s.port p)) }

/-- Record an output. -/
def emit (s : State) (o : Out) : State := { s with out := s.out ++ [o] }

/-- Draw a free value: the value and the state that will not draw it again. -/
def drawFree (s : State) : BitVec 64 × State := (Config.freeValue s.free, { s with free := s.free + 1 })

/-- Draw `n` random bytes. -/
def drawBytes (s : State) (n : Nat) : Bytes × State :=
  (Config.drbg s.free n, { s with free := s.free + 1 })

/-- The stride an event arises in; none while the fabric clock is stopped (R947). -/
def evAt (s : State) : Option Nat := if 3 ≤ s.pwr.state then none else some s.stride

/-- An event arises (R943, R945): it waits for the tick at which it is written. -/
def ev (s : State) (code src : Nat) (detail : Bytes := []) : State :=
  { s with evr := { s.evr with
      queue := s.evr.queue ++ [{ code := code, src := src, detail := detail, at' := s.evAt }] } }

/-- An event that its chapter makes in the slice's recorder only (R943). -/
def evOnly (s : State) (code src : Nat) (detail : Bytes := []) : State :=
  { s with evr := { s.evr with
      queue := s.evr.queue ++ [{ code := code, src := src, detail := detail, at' := s.evAt, only := true }] } }

/-- The current lap (R25, R26). -/
def lap (s : State) : Nat := s.stride / 4000

/-- Host ports that PORT_MODE creates (R175). With no course in force there is one x16 port. -/
def portCount (s : State) : Nat :=
  match s.crs.inForce with
  | some c => if c.portMode = 0 then 1 else 2
  | none => 1

/-- WBF_TOTAL_MIB of the course in force. -/
def wbfTotalMib (s : State) : Nat :=
  match s.crs.inForce with
  | some c => c.wbfMib
  | none => 0

/-- The first MiB of DRAM that holds slice regions: the private area, the buffer and the CMB come before
(R62). -/
def regionBase (s : State) : Nat :=
  match s.crs.inForce with
  | some c => c.privGib * 1024 + c.wbfMib + 2 ^ c.cmbLog2 / 2 ^ 20
  | none => 0

/-- The CMB size in bytes (R44, R96). -/
def cmbSize (s : State) : Nat :=
  match s.crs.inForce with
  | some c => 2 ^ c.cmbLog2
  | none => 2 ^ 26

/-- Tenant cores, flash channels and relay ports that the variant has (R6). -/
def coresPresent (s : State) : Nat := if s.variant = 1 then 64 else if s.variant = 2 then 32 else 16

def channelsPresent (s : State) : Nat := if s.variant = 3 then 16 else 32

def relayPorts (s : State) : Nat := if s.variant = 1 then 4 else if s.variant = 2 then 2 else 0

/-- Field features are present (R6). -/
def hasField (s : State) : Bool := decide (s.variant ≠ 3)

/-- The debug and fault injection grants in force (R78, R113). -/
def debugUnlock (s : State) : Bool :=
  match s.crs.inForce with
  | some c => natBit c.grant 0
  | none => false

def faultInject (s : State) : Bool :=
  match s.crs.inForce with
  | some c => natBit c.grant 1
  | none => false

/-- An RW register. -/
def rwGet (s : State) (k : Nat) (reset : BitVec 64 := 0) : BitVec 64 := tgetD s.rw k reset

def rwNat (s : State) (k : Nat) (reset : BitVec 64 := 0) : Nat := (s.rwGet k reset).toNat

def rwSet (s : State) (k : Nat) (v : BitVec 64) : State := { s with rw := tset s.rw k v }

/-- An RWS register's value in force (R9). -/
def forceNat (s : State) (k : Nat) (reset : Nat := 0) : Nat :=
  (tgetD s.inForce k (BitVec.ofNat 64 reset)).toNat

/-- An RWS register's staged value: what was last written, or the value in force (R98, R102). -/
def stagedNat (s : State) (k : Nat) (reset : Nat := 0) : Nat :=
  match tget s.staged k with
  | some v => v.toNat
  | none => s.forceNat k reset

def forceSet (s : State) (k : Nat) (v : Nat) : State :=
  { s with inForce := tset s.inForce k (BitVec.ofNat 64 v), staged := tdel s.staged k }

def stage (s : State) (k : Nat) (v : BitVec 64) : State := { s with staged := tset s.staged k v }

/-- Drive an output pin: 1 1PPS_OUT, 2 FLUSH_DONE, 3 THERMTRIP_N, 4 SMB_ALERT_N, 5 EN_MAIN, 6 EN_NAND,
7 EN_DDR. A change of its level is recorded as an output. -/
def setPin (s : State) (k : Nat) (level : Bool) : State :=
  if tgetD s.pins.levels k (k = 3 || k = 4) = level then s
  else ({ s with pins := { s.pins with levels := tset s.pins.levels k level } }).emit (.pin k level)

/-- A course is in force. -/
def hasCourse (s : State) : Bool := s.crs.inForce.isSome

end State

/-! ### Event details (R940, R1052) -/

/-- An item of `w` bytes: the low bytes of a value. -/
def item (w n : Nat) : Bytes := leBytes w n

/-- A count of `w` bytes, saturating. -/
def itemSat (w n : Nat) : Bytes := leBytes w (min n (2 ^ (8 * w) - 1))

/-- SOURCE of an event that concerns no one slice (R938). -/
def noSlice : Nat := 0xFFFF

/-! ### Register keys: a BAR0 offset, or a BAR2 offset with `bar2Base` added -/

def bar2Base : Nat := 0x40000000

/-- The key of an offset in a slice's window. -/
def winKey (slice off : Nat) : Nat := bar2Base + slice * 0x100000 + off

def keyOf (sp : Space) (off : Nat) : Nat :=
  match sp with
  | .bar0 => off
  | .bar2 => bar2Base + off

/-- Report a discarded write in an error status register (R13, R17): LAST_OFFSET keeps the first
error, OVERRUN marks a later one. -/
def ErrStat.note (e : ErrStat) (space off : Nat) : ErrStat :=
  if e.regWr then { e with overrun := true }
  else { e with regWr := true, space := space, lastOffset := off }

/-- Discard a register write: the report in error register `ek` and event 0x1001 (R13). -/
def State.discard (s : State) (ek space off : Nat) (src : Nat := noSlice) : State :=
  ({ s with errs := tset s.errs ek ((tgetD s.errs ek {}).note space off) }).ev 0x1001 src

/-- Error registers of the blocks that other blocks' rules report in (R4, R51, R53, R181). -/
def devErr : Nat := 0x0FFC
def slcErr : Nat := 0x40FFC
def hifErr : Nat := 0x100FFC

end Sys2Proof.Machine
end

