-- ==== Sys2Proof/Machine/Measure.lean ====
section
/-! DEFINITION. The measurement logs of the device and of the slices (R788 to R790), and the raising of a
device fault (R977). -/

namespace Sys2Proof.Machine

/-- A 64-byte log entry (R789). -/
def logEntry (index type slice stride : Nat) (aux body : Bytes) : Bytes :=
  leBytes 4 index ++ leBytes 2 type ++ leBytes 2 slice ++ leBytes 8 stride ++ padTo 16 aux ++
    padTo 32 (Config.sha3_256 body)

/-- Append an entry; those beyond `room` change MEAS and the count alone (R790). -/
def LogBook.append (l : LogBook) (room : Nat) (e : Bytes) : LogBook :=
  { meas := padTo 32 (Config.sha3_256 (l.meas ++ e)),
    ents := if l.ents.length < room then l.ents ++ [e] else l.ents, count := l.count + 1 }

/-- OVERFLOW of a log. -/
def LogBook.exceeded (l : LogBook) : Bool := decide (l.ents.length < l.count)

namespace State

def setKst (s : State) (k : Kst) : State := { s with kst := k }

/-- What the key store keeps for slice number `n`. -/
def keysOf (s : State) (n : Nat) : SliceKeys := tgetD s.sliceKeys n {}
def modKeys (s : State) (n : Nat) (f : SliceKeys → SliceKeys) : State :=
  { s with sliceKeys := tset s.sliceKeys n (f (s.keysOf n)) }

/-- Append to the device log. -/
def devLog (s : State) (type : Nat) (aux body : Bytes) : State :=
  let l := s.kst.log.append 1024 (logEntry s.kst.log.count type 0xFFFF s.stride aux body)
  s.setKst { s.kst with log := l }

/-- Append to a slice's log. -/
def sliceLog (s : State) (n type : Nat) (aux body : Bytes) : State :=
  s.modKeys n (fun k =>
    let l := k.log.append 256 (logEntry k.log.count type n s.stride aux body)
    { k with log := l })

/-- A device fault is raised (R977): it is met at the next tick (R978). -/
def raiseFault (s : State) (src : Nat) : State := { s with dev := { s.dev with faultDue := some src } }

end State

end Sys2Proof.Machine
end

