-- ==== Sys2Proof/Machine/Crypto.lean ====
section
/-! DEFINITION. The modes of operation and keyed digests that the cipher and digest engines run, over the
block cipher and the hash functions (R714 to R716, R748, R767, R769). -/

namespace Sys2Proof.Machine

def xorBytes (a b : Bytes) : Bytes := (a.zip b).map (fun p => p.1 ^^^ p.2)

/-- The keystream of CTR for a nonce, from block `j` on (R716). -/
def ctrStream (key nonce : Bytes) (j : Nat) : Nat → Bytes
  | 0 => []
  | n + 1 => Config.aesBlock key (nonce ++ beBytes 4 j) ++ ctrStream key nonce (j + 1) n

/-- CTR from block `j` on: encryption and decryption are the same. -/
def ctrFrom (key nonce : Bytes) (j : Nat) (data : Bytes) : Bytes :=
  xorBytes data (ctrStream key nonce j (ceilDiv data.length 16))

/-- Multiplication by x of an XTS tweak. -/
def xtsDouble (t : Nat) : Nat := if t < 2 ^ 127 then 2 * t else (2 * t - 2 ^ 128) ^^^ 0x87

/-- The blocks of one XTS data unit under a tweak. -/
def xtsBlocks (f : Bytes → Bytes) : Nat → Nat → Bytes → Bytes
  | 0, _, _ => []
  | n + 1, t, data =>
    xorBytes (f (xorBytes (data.take 16) (leBytes 16 t))) (leBytes 16 t) ++ xtsBlocks f n (xtsDouble t) (data.drop 16)

/-- XTS of consecutive data units, the first numbered `unit` (R714). -/
def xtsUnits (key : Bytes) (enc : Bool) (size : Nat) : Nat → Nat → Bytes → Bytes
  | 0, _, _ => []
  | n + 1, unit, data =>
    let t := leNat (Config.aesBlock (key.drop 32) (leBytes 16 unit))
    let f := if enc then Config.aesBlock (key.take 32) else Config.aesInverse (key.take 32)
    xtsBlocks f (size / 16) t (data.take size) ++ xtsUnits key enc size n (unit + 1) (data.drop size)

/-- Multiplication in the field of GHASH, the first bit of a block being its highest power's place. -/
def gmulStep (x : Nat) : Nat → Nat → Nat → Nat
  | 0, z, _ => z
  | n + 1, z, v =>
    let z := if x.testBit n then z ^^^ v else z
    gmulStep x n z (if v % 2 = 1 then (v / 2) ^^^ (0xE1 * 2 ^ 120) else v / 2)
def gmul (x y : Nat) : Nat := gmulStep x 128 0 y

/-- Zero-fill to whole blocks. -/
def padBlocks (bs : Bytes) : Bytes := padTo (ceilDiv bs.length 16 * 16) bs

/-- GHASH of whole blocks. -/
def ghash (h : Nat) (acc : Nat) : Nat → Bytes → Nat
  | 0, _ => acc
  | n + 1, bs => ghash h (gmul (acc ^^^ beNat (bs.take 16)) h) n (bs.drop 16)

/-- The GCM tag over additional data and ciphertext (R715). -/
def gcmTag (key nonce aad ct : Bytes) : Bytes :=
  let h := beNat (Config.aesBlock key (List.replicate 16 0))
  let bs := padBlocks aad ++ padBlocks ct ++ beBytes 8 (8 * aad.length) ++ beBytes 8 (8 * ct.length)
  xorBytes (beBytes 16 (ghash h 0 (bs.length / 16) bs)) (Config.aesBlock key (nonce ++ beBytes 4 1))

/-- GCM encryption or decryption of the data: CTR from counter value 2. -/
def gcmData (key nonce data : Bytes) : Bytes := ctrFrom key nonce 2 data

/-- The inner and the outer keyed state of HMAC with the SHA-2 function of `bits` bits (R748). -/
def hmacKeyed (bits : Nat) (key : Bytes) : Bytes × Bytes :=
  let block := if bits = 256 then 64 else 128
  let k := padTo block (if block < key.length then Config.sha2 bits key else key)
  let pad (b : BitVec 8) : Bytes := Config.sha2Block bits (k.map (fun x => x ^^^ b))
  (pad 0x36, pad 0x5C)

/-- HMAC of a message from its keyed states. -/
def hmacFrom (bits : Nat) (st : Bytes × Bytes) (msg : Bytes) : Bytes :=
  Config.sha2From bits st.2 (Config.sha2From bits st.1 msg)

/-- HMAC with the SHA-2 function of `bits` bits. -/
def hmac (bits : Nat) (key msg : Bytes) : Bytes := hmacFrom bits (hmacKeyed bits key) msg

/-- HKDF's Expand: blocks T(i), T(i+1), …. -/
def hkdfBlocks (bits : Nat) (prk info : Bytes) : Nat → Nat → Bytes → Bytes
  | 0, _, _ => []
  | n + 1, i, prev =>
    let t := hmac bits prk (prev ++ info ++ leBytes 1 i)
    t ++ hkdfBlocks bits prk info n (i + 1) t

/-- HKDF: input keying material, salt, info, output length of at most 64 bytes (R769). -/
def hkdf (bits : Nat) (ikm salt info : Bytes) (len : Nat) : Bytes :=
  (hkdfBlocks bits (hmac bits salt ikm) info 2 1 []).take len

end Sys2Proof.Machine
end

