-- ==== Sys2Proof/Machine/Flags.lean ====
section
/-! DEFINITION. The Norsor flags: FLG's bits and what each kind of operation makes of them (R448, R478,
R480). -/

namespace Sys2Proof.Machine

/-- Bit numbers of FLG (R448). -/
def flC : Nat := 0
def flV : Nat := 1
def flZ : Nat := 2
def flN : Nat := 3
def flH : Nat := 4
def flDov : Nat := 5

/-- A bit of FLG. -/
def flagOf (f : Dword) (k : Nat) : Bool := f.getLsbD k

/-- FLG with one bit set to a value. -/
def putFlag (f : Dword) (k : Nat) (b : Bool) : Dword :=
  if b then f ||| (1#64 <<< k) else f &&& ~~~(1#64 <<< k)

/-- N and Z from a 64-bit result. -/
def flagsNZ (f r : Dword) : Dword := putFlag (putFlag f flN r.msb) flZ (r == 0)

/-- Addition with carry in: the sum and FLG (R480, first row). -/
def addFlags (f a b : Dword) (cin : Nat) : Dword × Dword :=
  let exact := a.toNat + b.toNat + cin
  let r := BitVec.ofNat 64 exact
  let si := a.toInt + b.toInt + (cin : Int)
  let f := flagsNZ f r
  let f := putFlag f flC (decide (2 ^ 64 ≤ exact))
  (r, putFlag f flV (decide (r.toInt ≠ si)))

/-- Subtraction with borrow in: the difference and FLG (R480, second row); C is 1 without borrow. -/
def subFlags (f a b : Dword) (bin : Nat) : Dword × Dword :=
  let r := a - b - BitVec.ofNat 64 bin
  let si := a.toInt - b.toInt - (bin : Int)
  let f := flagsNZ f r
  let f := putFlag f flC (decide (b.toNat + bin ≤ a.toNat))
  (r, putFlag f flV (decide (r.toInt ≠ si)))

/-- N and Z from an 8-bit result. -/
def flagsNZ8 (f : Dword) (r : BitVec 8) : Dword := putFlag (putFlag f flN r.msb) flZ (r == 0)

/-- ADD.B (R480, third row). -/
def addByte (f : Dword) (a b : BitVec 8) : BitVec 8 × Dword :=
  let r := a + b
  let f := flagsNZ8 f r
  let f := putFlag f flC (decide (256 ≤ a.toNat + b.toNat))
  let f := putFlag f flV (decide (r.toInt ≠ a.toInt + b.toInt))
  (r, putFlag f flH (decide (16 ≤ a.toNat % 16 + b.toNat % 16)))

/-- SUB.B (R480, third row): C and H are 1 without borrow. -/
def subByte (f : Dword) (a b : BitVec 8) : BitVec 8 × Dword :=
  let r := a - b
  let f := flagsNZ8 f r
  let f := putFlag f flC (decide (b.toNat ≤ a.toNat))
  let f := putFlag f flV (decide (r.toInt ≠ a.toInt - b.toInt))
  (r, putFlag f flH (decide (b.toNat % 16 ≤ a.toNat % 16)))

/-- Does a branch condition hold (R478)? COND 15 is refused before. -/
def condHolds (f : Dword) (cond : Nat) : Bool :=
  let c := flagOf f flC
  let v := flagOf f flV
  let z := flagOf f flZ
  let n := flagOf f flN
  match cond with
  | 0 => z
  | 1 => !z
  | 2 => c
  | 3 => !c
  | 4 => n
  | 5 => !n
  | 6 => v
  | 7 => !v
  | 8 => c && !z
  | 9 => !c || z
  | 10 => n == v
  | 11 => n != v
  | 12 => !z && n == v
  | 13 => z || n != v
  | _ => true

end Sys2Proof.Machine
end

