-- ==== Sys2Proof/Machine/Operands.lean ====
section
/-! DEFINITION. The fields of Norsor instructions and their operand forms: registers, immediates and the
addressing modes (R466 to R474). Instructions are read as the number I of R465. -/

namespace Sys2Proof.Machine

/-- A general register (R442). -/
def Core.reg (k : Core) (i : Nat) : Dword := k.g.getD i 0

def setReg : List Dword → Nat → Dword → List Dword
  | [], _, _ => []
  | _ :: t, 0, v => v :: t
  | h :: t, i + 1, v => h :: setReg t i v

/-- Write a general register. -/
def Core.put (k : Core) (i : Nat) (v : Dword) : Core := { k with g := setReg k.g i v }

/-- Sign-extend the low `w` bits of a number to 64 bits. -/
def sext (w x : Nat) : Dword := (BitVec.ofNat w x).signExtend 64
/-- Zero-extend. -/
def zext (w x : Nat) : Dword := BitVec.ofNat 64 (x % 2 ^ w)

/-! ### Fields of the formats (R466) -/

def op16 (i : Nat) : Nat := natBits i 14 10
def d16 (i : Nat) : Nat := natBits i 9 5
def s16 (i : Nat) : Nat := natBits i 4 0

def op32 (i : Nat) : Nat := natBits i 29 24
def d32 (i : Nat) : Nat := natBits i 23 19
def a32 (i : Nat) : Nat := natBits i 18 14
def b32 (i : Nat) : Nat := natBits i 13 9
def imm14 (i : Nat) : Nat := natBits i 13 0
def mode32 (i : Nat) : Nat := natBits i 13 11
def ext32 (i : Nat) : Nat := natBits i 10 0

def op48 (i : Nat) : Nat := natBits i 45 40
def d48 (i : Nat) : Nat := natBits i 39 35
def b48 (i : Nat) : Nat := natBits i 34 30
def mode48 (i : Nat) : Nat := natBits i 29 27
def imm32 (i : Nat) : Nat := natBits i 31 0

/-- The decimal operands' lengths, bases and displacements (R466). -/
def len1 (i : Nat) : Nat := natBits i 39 35 + 1
def len2 (i : Nat) : Nat := natBits i 34 30 + 1

/-- The digit shift of DH, −63 to +63. -/
def shiftDh (i : Nat) : Int := (BitVec.ofNat 7 (natBits i 34 28)).toInt

/-! ### Addressing modes (R468 to R474) -/

/-- A memory operand: its effective address and the base update that goes with it. -/
structure Ea where
  addr : Dword
  update : Option (Nat × Dword) := none
  deriving DecidableEq, Repr

/-- The scale of a SCALE code; codes above 0b100 are refused before. -/
def scaleOf (code : Nat) : Nat := 2 ^ code

/-- The MM modes (R468), for an access of `size` bytes. -/
def eaMM (k : Core) (i size : Nat) : Ea :=
  let gb := a32 i
  let b := k.reg gb
  match mode32 i with
  | 1 => { addr := b, update := some (gb, b + BitVec.ofNat 64 size) }
  | 2 => { addr := b - BitVec.ofNat 64 size, update := some (gb, b - BitVec.ofNat 64 size) }
  | 3 => { addr := b + k.reg (natBits i 10 6) * BitVec.ofNat 64 (scaleOf (natBits i 5 3)) }
  | _ => { addr := b }

/-- The MD modes (R468). -/
def eaMD (k : Core) (i : Nat) : Ea :=
  let b := k.reg (b48 i)
  match mode48 i with
  | 5 => { addr := b + k.reg (natBits i 26 22) * BitVec.ofNat 64 (scaleOf (natBits i 21 19)) +
                   sext 8 (natBits i 7 0) }
  | _ => { addr := b + sext 16 (natBits i 15 0) }

/-- What is wrong with an MM operand, as subcodes of Illegal Instruction (R467, R468, R471). -/
def illMM (i : Nat) : List Nat :=
  match mode32 i with
  | 0 | 1 | 2 => if ext32 i ≠ 0 then [2] else []
  | 3 => (if natBits i 2 0 ≠ 0 then [2] else []) ++ (if 4 < natBits i 5 3 then [3] else [])
  | _ => [3]

/-- What is wrong with an MD operand. -/
def illMD (i : Nat) : List Nat :=
  match mode48 i with
  | 4 => if natBits i 26 16 ≠ 0 then [2] else []
  | 5 => (if natBits i 18 8 ≠ 0 then [2] else []) ++ (if 4 < natBits i 21 19 then [3] else [])
  | _ => [3]

/-- Addresses of the decimal operands: DS, and operand 1 of DH and DR. -/
def eaDs1 (k : Core) (i : Nat) : Dword := k.reg (natBits i 29 25) + zext 10 (natBits i 24 15)
def eaDs2 (k : Core) (i : Nat) : Dword := k.reg (natBits i 14 10) + zext 10 (natBits i 9 0)
def eaDh (k : Core) (i : Nat) : Dword := k.reg (natBits i 27 23) + zext 10 (natBits i 22 13)
def eaDr (k : Core) (i : Nat) : Dword := k.reg (natBits i 29 25) + zext 10 (natBits i 24 15)

/-- Access size and sign extension of the loads 0 to 7 (LD.B to LD.W, LD.D, LDS.B to LDS.W, LD.Q). -/
def loadSize (j : Nat) : Nat := match j with
  | 0 => 1
  | 1 => 2
  | 2 => 4
  | 3 => 8
  | 4 => 1
  | 5 => 2
  | 6 => 4
  | _ => 16

def loadSigned (j : Nat) : Bool := j = 4 || j = 5 || j = 6

/-- Access size of the stores 0 to 4. -/
def storeSize (j : Nat) : Nat := match j with
  | 0 => 1
  | 1 => 2
  | 2 => 4
  | 3 => 8
  | _ => 16

end Sys2Proof.Machine
end

