-- ==== Sys2Proof/Machine/Decimal.lean ====
section
/-! DEFINITION. Decimal arithmetic on byte strings and registers: what each decimal instruction computes,
apart from its memory accesses (R499 to R530). -/

namespace Sys2Proof.Machine

/-! ### Packed and zoned operands (R499 to R505) -/

/-- The nibbles of a packed operand, high first; the last one is the sign. -/
def nibbles (bs : Bytes) : List Nat := bs.flatMap (fun b => [b.toNat / 16, b.toNat % 16])

def packedDigits (bs : Bytes) : List Nat := (nibbles bs).dropLast
def packedSign (bs : Bytes) : Nat := (nibbles bs).getLastD 0

/-- The value of a string of decimal digits, high digit first. -/
def decNat (ds : List Nat) : Nat := ds.foldl (fun a d => 10 * a + d) 0

def signNegative (s : Nat) : Bool := s = 0xB || s = 0xD

/-- The value of a packed operand (R501). -/
def packedVal (bs : Bytes) : Int :=
  let m : Int := decNat (packedDigits bs)
  if signNegative (packedSign bs) then -m else m

/-- Subcodes of what is wrong with packed source operand `n`, 1 or 2 (R502, R522). -/
def packedBad (n : Nat) (bs : Bytes) : List Nat :=
  (if (packedDigits bs).any (9 < ·) then [2 * n - 1] else []) ++
  (if packedSign bs ≤ 9 then [2 * n] else [])

/-- Subcodes of what is wrong with a zoned operand 2 (R505, R522). -/
def zonedBad (bs : Bytes) : List Nat :=
  let last := (bs.getLastD 0).toNat / 16
  (if bs.any (fun b => decide (9 < b.toNat % 16)) then [3] else []) ++
  (if last = 3 || decide (10 ≤ last) then [] else [4]) ++
  (if (bs.dropLast).any (fun b => decide (b.toNat / 16 ≠ 3) && decide (b.toNat / 16 ≠ 15)) then [5] else [])

def zonedVal (bs : Bytes) : Int :=
  let m : Int := decNat (bs.map (fun b => b.toNat % 16))
  if signNegative ((bs.getLastD 0).toNat / 16) then -m else m

/-- Does a zoned operand carry no sign? -/
def zonedUnsigned (bs : Bytes) : Bool :=
  (bs.getLastD 0).toNat / 16 = 3 || (bs.getLastD 0).toNat / 16 = 15

/-- `n` decimal digits of a number, high digit first; higher digits are dropped. -/
def decDigits : Nat → Nat → List Nat
  | 0, _ => []
  | n + 1, m => decDigits n (m / 10) ++ [m % 10]

/-- Pack nibbles into bytes. -/
def packNibbles : List Nat → Bytes
  | a :: b :: t => BitVec.ofNat 8 (16 * a + b) :: packNibbles t
  | _ => []

/-! ### Results (R506 to R511) -/

/-- A result that a decimal instruction stores: bytes, FLG, and whether it overflowed. -/
structure DecResult where
  bytes : Bytes
  flg : Dword
  overflow : Bool
  deriving DecidableEq, Repr

/-- FLG after a decimal result (R508, R510). -/
def decFlags (f : Dword) (v : Int) (ov : Bool) : Dword :=
  let f := putFlag f flN (decide (v < 0))
  let f := putFlag f flZ (v == 0)
  let f := putFlag f flV ov
  if ov then putFlag f flDov true else f

/-- The stored value: the low digits that fit, with the sign of the result (R508). -/
def storedVal (digits : Nat) (v : Int) : Int :=
  let m : Int := (v.natAbs % 10 ^ digits : Nat)
  if v < 0 then -m else m

/-- The sign nibble of a stored value (R509). -/
def signOf (unsignedSource : Bool) (v : Int) : Nat :=
  if unsignedSource then 0xF else if v < 0 then 0xD else 0xC

/-- A packed result of `l` bytes (R506 to R510). -/
def packResult (f : Dword) (l : Nat) (unsignedSource : Bool) (v : Int) : DecResult :=
  let n := 2 * l - 1
  let ov := decide (10 ^ n ≤ v.natAbs)
  let sv := storedVal n v
  { bytes := packNibbles (decDigits n sv.natAbs ++ [signOf unsignedSource sv]),
    flg := decFlags f sv ov, overflow := ov }

/-- A zoned result of `l` bytes (R517). -/
def zoneResult (f : Dword) (l : Nat) (unsignedSource : Bool) (v : Int) : DecResult :=
  let ov := decide (10 ^ l ≤ v.natAbs)
  let sv := storedVal l v
  let ds := decDigits l sv.natAbs
  let bs := ds.map (fun d => BitVec.ofNat 8 (0xF0 + d))
  { bytes := bs.dropLast ++ [BitVec.ofNat 8 (16 * signOf unsignedSource sv + ds.getLastD 0)],
    flg := decFlags f sv ov, overflow := ov }

/-- Divide a magnitude and round it (R511): `num` over `den`, of the given sign. -/
def roundDiv (rm num den : Nat) (neg : Bool) : Nat :=
  let q := num / den
  let r := num % den
  let up : Bool :=
    if rm = 0 then decide (den ≤ 2 * r)
    else if rm = 1 then decide (den < 2 * r) || (2 * r = den && q % 2 = 1)
    else if rm = 3 then decide (0 < r) && !neg
    else if rm = 4 then decide (0 < r) && neg
    else false
  if up then q + 1 else q

/-- The signed quotient of DIVP, rounded (R511 to R513). -/
def divRound (rm : Nat) (a b : Int) : Int :=
  let neg := decide (a < 0) != decide (b < 0)
  let m : Int := roundDiv rm a.natAbs b.natAbs neg
  if neg then -m else m

/-- The value of SHFP (R514). -/
def shiftVal (rm : Nat) (v : Int) (sh : Int) : Int :=
  if 0 ≤ sh then v * (10 ^ sh.toNat : Nat)
  else
    let m : Int := roundDiv rm v.natAbs (10 ^ (-sh).toNat) (decide (v < 0))
    if v < 0 then -m else m

/-- FLG after CMPP (R515). -/
def cmpFlags (f : Dword) (a b : Int) : Dword :=
  let f := putFlag f flZ (a == b)
  let f := putFlag f flN (decide (a < b))
  let f := putFlag f flC (decide (b ≤ a))
  putFlag f flV false

/-! ### EDIT (R518 to R521) -/

/-- The mask cannot be used: its count of FIXED and FLOAT bytes, or a reserved control byte (R519). -/
def editBad (mask src : Bytes) : Bool :=
  decide ((mask.filter (fun b => b = 0x80 || b = 0x81)).length ≠ 2 * src.length - 1) ||
  mask.any (fun b => decide (0x86 ≤ b.toNat) && decide (b.toNat ≤ 0x8F))

/-- The result bytes (R520): `sig` is significance and `ds` the source digits still to take. -/
def editOut (pad : BitVec 8) (neg : Bool) : Bool → List Nat → Bytes → Bytes
  | _, _, [] => []
  | sig, ds, b :: t =>
    if b = 0x80 || b = 0x81 then
      let d := ds.headD 0
      let sig' := sig || b = 0x80 || decide (d ≠ 0)
      (if sig' then BitVec.ofNat 8 (0x30 + d) else pad) :: editOut pad neg sig' ds.tail t
    else
      let o : BitVec 8 :=
        if b = 0x84 then (if neg then 0x2D else pad)
        else if b = 0x85 then (if neg then 0x2D else 0x2B)
        else if (decide (b.toNat < 0x80) || decide (0x8F < b.toNat)) && sig then b
        else pad
      o :: editOut pad neg sig ds t

/-- EDIT's text, and FLG. -/
def editResult (f : Dword) (mask src : Bytes) : DecResult :=
  let v := packedVal src
  let pad : BitVec 8 := if mask.contains 0x83 then 0x2A else 0x20
  { bytes := editOut pad (decide (v < 0)) false (packedDigits src) mask,
    flg := putFlag (putFlag f flN (decide (v < 0))) flZ (v == 0), overflow := false }

/-! ### Register forms and byte adjusts (R525 to R530) -/

/-- The digits of a register decimal operand, high first. -/
def regDigits (w : Dword) : List Nat := (List.range 16).map (fun i => w.toNat / 16 ^ (15 - i) % 16)

def regBad (w : Dword) : Bool := (regDigits w).any (9 < ·)

def regVal (w : Dword) : Nat := decNat (regDigits w)

/-- 16 digits as a register. -/
def regOf (n : Nat) : Dword :=
  BitVec.ofNat 64 ((decDigits 16 n).foldl (fun a d => 16 * a + d) 0)

/-- The result and FLG of ADDPR, SUBPR and MULPR, codes 0 to 2 (R527). -/
def regForm (code : Nat) (f a b : Dword) : Dword × Dword :=
  let x := regVal a
  let y := regVal b
  let top := 10 ^ 16
  let v := if code = 0 then x + y else if code = 1 then x + top - y else x * y
  let c := if code = 1 then decide (y ≤ x) else decide (top ≤ v)
  let r := v % top
  let f := putFlag f flC c
  let f := putFlag f flZ (r == 0)
  (regOf r, putFlag (putFlag f flN false) flV false)

/-- FLG of CMPPR (R527). -/
def regCmp (f a b : Dword) : Dword :=
  let c := decide (regVal b ≤ regVal a)
  let f := putFlag f flZ (regVal a == regVal b)
  let f := putFlag f flC c
  putFlag (putFlag f flN (!c)) flV false

/-- DAA.B (R528, R529): the byte and FLG. -/
def daaByte (f : Dword) (a : BitVec 8) : BitVec 8 × Dword :=
  let lo0 := a.toNat % 16
  let lo1 := if flagOf f flH || decide (9 < lo0) then lo0 + 6 else lo0
  let hi0 := a.toNat / 16 + lo1 / 16
  let up := flagOf f flC || decide (9 < hi0)
  let hi := if up then hi0 + 6 else hi0
  let r := BitVec.ofNat 8 (hi % 16 * 16 + lo1 % 16)
  (r, putFlag (putFlag (flagsNZ8 f r) flC up) flH false)

/-- DAS.B (R528, R529): C is 1 without borrow. -/
def dasByte (f : Dword) (a : BitVec 8) : BitVec 8 × Dword :=
  let lo0 := a.toNat % 16
  let lo := if !flagOf f flH || decide (9 < lo0) then (lo0 + 10) % 16 else lo0
  let hi0 := a.toNat / 16
  let fix := !flagOf f flC || decide (9 < hi0)
  let hi := if fix then (hi0 + 10) % 16 else hi0
  let r := BitVec.ofNat 8 (hi * 16 + lo)
  (r, putFlag (putFlag (flagsNZ8 f r) flC (!fix)) flH false)

end Sys2Proof.Machine
end

