-- ==== Sys2Proof/Machine/Regs.lean ====
section
/-! DEFINITION. The register maps of BAR0 and of the slice windows: every register, its place, its
masks by access code and its reset value (R9, R44 to R49 and the register tables of every chapter). -/

namespace Sys2Proof.Machine

/-- The registers, under the spec's names. -/
inductive Reg where
  /-- DEV_IDENT (R5). -/
  | devIdent
  /-- DEV_FEATURE (R6). -/
  | devFeature
  /-- STR_COUNT_64 (R26). -/
  | strCount
  /-- CRS_CMD (R108). -/
  | crsCmd
  /-- CRS_STAT (R109). -/
  | crsStat
  /-- CRS_ERR_OFFSET (R110). -/
  | crsErrOffset
  /-- CRS_SRC_ADDR_64 (R111). -/
  | crsSrcAddr
  /-- CRS_SRC_LEN (R111). -/
  | crsSrcLen
  /-- CRS_COMMIT (R112). -/
  | crsCommit
  /-- CRS_COMMIT_STAT (R112). -/
  | crsCommitStat
  /-- CRS_ACTIVE_SEQ_64 (R113). -/
  | crsActiveSeq
  /-- CRS_ACTIVE_INFO (R113). -/
  | crsActiveInfo
  /-- CRS_VIEW_SEL (R114). -/
  | crsViewSel
  /-- CRS_VIEW_DATA (R114). -/
  | crsViewData
  /-- SLC_CMD (R167). -/
  | slcCmd
  /-- SLC_STAT (R168). -/
  | slcStat
  /-- SLC_ERR_FIELD (R170). -/
  | slcErrField
  /-- SLC_CREATE_ADDR_64 (R171). -/
  | slcCreateAddr
  /-- SLC_BATON_ADDR_64 (R171). -/
  | slcBatonAddr
  /-- SLC_BATON_LEN_64 (R171). -/
  | slcBatonLen
  /-- SLC_BATON_NEED_64 (R171). -/
  | slcBatonNeed
  /-- SLC_PEER (R170). -/
  | slcPeer
  /-- SLC_COMMIT_INFO (R170). -/
  | slcCommitInfo
  /-- SLC_STATE_n (R169). -/
  | slcState
  /-- SLC_SH_WBF_n (R172). -/
  | slcShWbf
  /-- SLC_SH_QP_n (R172). -/
  | slcShQp
  /-- SLC_SH_AES_n (R172). -/
  | slcShAes
  /-- SLC_SH_SLOTS_n (R172). -/
  | slcShSlots
  /-- HIF_PORT_CFG (R244). -/
  | hifPortCfg
  /-- HIF_MGR_PORT (R244). -/
  | hifMgrPort
  /-- HIF_PORT_STAT_p (R245). -/
  | hifPortStat
  /-- HIF_QP_FREE (R245). -/
  | hifQpFree
  /-- HIF_MSIX_TABLE (R243). -/
  | hifMsixTable
  /-- HIF_MSIX_PEND_0 (R243). -/
  | hifMsixPend0
  /-- HIF_MSIX_PEND_1 (R243). -/
  | hifMsixPend1
  /-- WBF_HOLD_STAT (R317). -/
  | wbfHoldStat
  /-- WBF_FLUSH_HI (R318). -/
  | wbfFlushHi
  /-- WBF_FLUSH_LO (R318). -/
  | wbfFlushLo
  /-- WBF_AGE (R318). -/
  | wbfAge
  /-- WBF_OCC_n (R320). -/
  | wbfOcc
  /-- WBF_PAIR_n (R320). -/
  | wbfPair
  /-- WBF_PAIRSTAT_n (R320). -/
  | wbfPairstat
  /-- FTL_CMD (R388). -/
  | ftlCmd
  /-- FTL_STAT (R388). -/
  | ftlStat
  /-- FTL_ARG (R388). -/
  | ftlArg
  /-- FTL_DUMP_ADDR_64 (R390). -/
  | ftlDumpAddr
  /-- FTL_DUMP_LEN_64 (R390). -/
  | ftlDumpLen
  /-- FTL_PROMOTE (R389). -/
  | ftlPromote
  /-- FTL_DEMOTE (R389). -/
  | ftlDemote
  /-- FTL_GC_CFG (R389). -/
  | ftlGcCfg
  /-- FTL_REFRESH (R389). -/
  | ftlRefresh
  /-- FTL_CKPT (R389). -/
  | ftlCkpt
  /-- FTL_CAPACITY_64 (R390). -/
  | ftlCapacity
  /-- FTL_MEDIA_AGE_64 (R390). -/
  | ftlMediaAge
  /-- FTL_JOURNAL_SEQ_64 (R390). -/
  | ftlJournalSeq
  /-- FTL_CKPT_SEQ_64 (R390). -/
  | ftlCkptSeq
  /-- FTL_FINE_TOTAL (R390). -/
  | ftlFineTotal
  /-- FTL_FINE_USED (R390). -/
  | ftlFineUsed
  /-- FTL_SPARE (R390). -/
  | ftlSpare
  /-- FTL_LOSS_COUNT (R390). -/
  | ftlLossCount
  /-- FTL_DIE_LOST_n (R390). -/
  | ftlDieLost
  /-- FTL_CNT (R390). -/
  | ftlCnt
  /-- FCH_STAT (R432). -/
  | fchStat
  /-- FCH_DIE_PRESENT (R432). -/
  | fchDiePresent
  /-- FCH_HLOG_ADDR_64 (R433). -/
  | fchHlogAddr
  /-- FCH_HLOG_CMD (R433). -/
  | fchHlogCmd
  /-- FCH_HLOG_STAT (R433). -/
  | fchHlogStat
  /-- FCH_DECODED_64 (R433). -/
  | fchDecoded
  /-- FCH_RETRIED_64 (R433). -/
  | fchRetried
  /-- FCH_UNCORR_64 (R433). -/
  | fchUncorr
  /-- FCH_LIFE (R434). -/
  | fchLife
  /-- FCH_SPARE_BASE (R434). -/
  | fchSpareBase
  /-- DRC_STAT (R896). -/
  | drcStat
  /-- DRC_REF_s (R896). -/
  | drcRef
  /-- DRC_LANE_l (R896). -/
  | drcLane
  /-- MPR_CE_DRAM_64 (R894). -/
  | mprCeDram
  /-- MPR_UE_DRAM (R894). -/
  | mprUeDram
  /-- MPR_CE_SRAM_64 (R894). -/
  | mprCeSram
  /-- MPR_UE_SRAM (R894). -/
  | mprUeSram
  /-- MPR_LAST_UE_64 (R894). -/
  | mprLastUe
  /-- MPR_DIRTY (R894). -/
  | mprDirty
  /-- MPR_SCRUB (R894). -/
  | mprScrub
  /-- MPR_SCRUB_STAT (R894). -/
  | mprScrubStat
  /-- MPR_TEST_CMD (R894). -/
  | mprTestCmd
  /-- MPR_TEST_ADDR_64 (R894). -/
  | mprTestAddr
  /-- MPR_TEST_DATA (R894). -/
  | mprTestData
  /-- MPR_TEST_CHECK (R894). -/
  | mprTestCheck
  /-- MPR_TEST_STAT (R894). -/
  | mprTestStat
  /-- NCL_CORE_k (R591). -/
  | nclCore
  /-- PAT_SLOT_n (R694). -/
  | patSlot
  /-- PAT_EPOCH (R694). -/
  | patEpoch
  /-- PAT_HOLE (R694). -/
  | patHole
  /-- PAT_SCRUB_STAT (R694). -/
  | patScrubStat
  /-- PAT_BYTES_64 (R694). -/
  | patBytes
  /-- HDL_RECORDS_64 (R641). -/
  | hdlRecords
  /-- HDL_BYTES_IN_64 (R641). -/
  | hdlBytesIn
  /-- HDL_BYTES_OUT_64 (R641). -/
  | hdlBytesOut
  /-- CPH_CORE_n (R737). -/
  | cphCore
  /-- CPH_POOL (R737). -/
  | cphPool
  /-- CPH_INSTANCE (R737). -/
  | cphInstance
  /-- CPH_ALARM_STAT (R737). -/
  | cphAlarmStat
  /-- CPH_BATCHES_64 (R737). -/
  | cphBatches
  /-- DGS_UNIT_n (R798). -/
  | dgsUnit
  /-- DGS_PK_STAT (R798). -/
  | dgsPkStat
  /-- DGS_BATCHES_64 (R798). -/
  | dgsBatches
  /-- KST_DEVICE_ID_64 (R797). -/
  | kstDeviceId
  /-- KST_STAT (R797). -/
  | kstStat
  /-- KST_ALARM_STAT (R797). -/
  | kstAlarmStat
  /-- KST_FUSE_STAT (R797). -/
  | kstFuseStat
  /-- KST_INSTALL_COUNT (R797). -/
  | kstInstallCount
  /-- KST_SLOTS_FREE (R797). -/
  | kstSlotsFree
  /-- KST_ENROL_ADDR_64 (R797). -/
  | kstEnrolAddr
  /-- KST_ENROL_CMD (R797). -/
  | kstEnrolCmd
  /-- KST_ENROL_STAT (R797). -/
  | kstEnrolStat
  /-- KST_MEAS_k (R797). -/
  | kstMeas
  /-- KST_LOG_COUNT (R797). -/
  | kstLogCount
  /-- KST_ATTEST_PK_k (R797). -/
  | kstAttestPk
  /-- RLY_PORT_STAT (R854). -/
  | rlyPortStat
  /-- RLY_PEER (R854). -/
  | rlyPeer
  /-- RLY_ASYM (R854). -/
  | rlyAsym
  /-- RLY_DELAY (R854). -/
  | rlyDelay
  /-- RLY_OFFSET (R854). -/
  | rlyOffset
  /-- RLY_TX_FRAMES_64 (R854). -/
  | rlyTxFrames
  /-- RLY_RX_FRAMES_64 (R854). -/
  | rlyRxFrames
  /-- RLY_RX_DROP_64 (R854). -/
  | rlyRxDrop
  /-- RLY_TAG_FAIL_64 (R854). -/
  | rlyTagFail
  /-- RLY_RETX_64 (R854). -/
  | rlyRetx
  /-- RLY_CMD (R855). -/
  | rlyCmd
  /-- RLY_STAT (R855). -/
  | rlyStat
  /-- RLY_ADDR_64 (R855). -/
  | rlyAddr
  /-- RLY_LEN (R855). -/
  | rlyLen
  /-- RLY_ROSTER_SEQ_64 (R855). -/
  | rlyRosterSeq
  /-- RLY_VERSION (R855). -/
  | rlyVersion
  /-- RLY_HEAD (R855). -/
  | rlyHead
  /-- RLY_KEY_EPOCH (R855). -/
  | rlyKeyEpoch
  /-- RLY_LOSS (R855). -/
  | rlyLoss
  /-- RLY_TIME_STAT (R855). -/
  | rlyTimeStat
  /-- RLY_LAP_FT_64 (R855). -/
  | rlyLapFt
  /-- RLY_LAP_STRIDE_64 (R855). -/
  | rlyLapStride
  /-- RLY_TIME_RATE (R855). -/
  | rlyTimeRate
  /-- RLY_PPS_OFFSET (R855). -/
  | rlyPpsOffset
  /-- RLY_TIME_SET_64 (R855). -/
  | rlyTimeSet
  /-- EVR_CURSOR (R959). -/
  | evrCursor
  /-- EVR_HEAD (R959). -/
  | evrHead
  /-- EVR_PODIUM (R959). -/
  | evrPodium
  /-- EVR_STAT (R959). -/
  | evrStat
  /-- EVR_DATA_k (R959). -/
  | evrData
  /-- EVR_CHECK (R959). -/
  | evrCheck
  /-- EVR_FREEZE (R959). -/
  | evrFreeze
  /-- EVR_CLEAR (R959). -/
  | evrClear
  /-- EVR_WSEQ (R959). -/
  | evrWseq
  /-- EVR_EVENTS_64 (R959). -/
  | evrEvents
  /-- PWR_STAT (R931). -/
  | pwrStat
  /-- PWR_CTL (R931). -/
  | pwrCtl
  /-- PWR_MGR_LTOL (R931). -/
  | pwrMgrLtol
  /-- PWR_LTOL_MIN (R931). -/
  | pwrLtolMin
  /-- PWR_IDLE (R931). -/
  | pwrIdle
  /-- PWR_CMD (R931). -/
  | pwrCmd
  /-- PWR_WAKE_LAST (R931). -/
  | pwrWakeLast
  /-- PWR_WAKE_STRIDE_64 (R931). -/
  | pwrWakeStride
  /-- PWR_TIMER_64 (R931). -/
  | pwrTimer
  /-- PWR_CLK_STAT (R931). -/
  | pwrClkStat
  /-- PWR_RESIDENCY_k_64 (R931). -/
  | pwrResidency
  /-- DEV_BOOT_STAT (R998). -/
  | devBootStat
  /-- DEV_FAULT_STAT (R998). -/
  | devFaultStat
  /-- DEV_FAULT_STRIDE_64 (R998). -/
  | devFaultStride
  /-- DEV_CMD (R998). -/
  | devCmd
  /-- DEV_CMD_STAT (R998). -/
  | devCmdStat
  /-- DEV_FW_ADDR_64 (R998). -/
  | devFwAddr
  /-- DEV_FW_LEN (R998). -/
  | devFwLen
  /-- DEV_FW_A (R998). -/
  | devFwA
  /-- DEV_FW_B (R998). -/
  | devFwB
  /-- DEV_FW_SEL (R998). -/
  | devFwSel
  /-- FIJ_TGT_k (R999). -/
  | fijTgt
  /-- FIJ_RATE_k (R999). -/
  | fijRate
  /-- FIJ_LIMIT_k (R999). -/
  | fijLimit
  /-- FIJ_DONE_k (R999). -/
  | fijDone
  /-- FIJ_SEED (R999). -/
  | fijSeed
  /-- FIJ_STAT (R999). -/
  | fijStat
  /-- TST_IDCODE (R1045). -/
  | tstIdcode
  /-- TST_STAT (R1045). -/
  | tstStat
  /-- CAP (R188). -/
  | cap
  /-- VS (R187). -/
  | vs
  /-- INTMS (R187). -/
  | intms
  /-- INTMC (R187). -/
  | intmc
  /-- CC (R187). -/
  | cc
  /-- CSTS (R187). -/
  | csts
  /-- NSSR (R187). -/
  | nssr
  /-- AQA (R187). -/
  | aqa
  /-- ASQ (R187). -/
  | asq
  /-- ACQ (R187). -/
  | acq
  /-- CMBLOC (R187). -/
  | cmbloc
  /-- CMBSZ (R187). -/
  | cmbsz
  /-- CMBMSC (R187). -/
  | cmbmsc
  /-- CMBSTS (R187). -/
  | cmbsts
  /-- HEAT_BUDGET (R589). -/
  | heatBudget
  /-- HEAT_STOP (R589). -/
  | heatStop
  /-- HEAT_STAT (R589). -/
  | heatStat
  /-- HEAT_BUSY_64 (R590). -/
  | heatBusy
  /-- HDL_STOP (R640). -/
  | hdlStop
  /-- HDL_STAT (R640). -/
  | hdlStat
  /-- PAT_TABLE_STAT (R695). -/
  | patTableStat
  /-- PAT_GEN_64 (R695). -/
  | patGen
  /-- PAT_SCRUB_EPOCH_64 (R695). -/
  | patScrubEpoch
  /-- PAT_SCRUB_INFO (R695). -/
  | patScrubInfo
  /-- CPH_SLICE_SHARE (R738). -/
  | cphSliceShare
  /-- CPH_GUARANTEE (R738). -/
  | cphGuarantee
  /-- CPH_LAP_BATCHES (R738). -/
  | cphLapBatches
  /-- CPH_STAGE (R738). -/
  | cphStage
  /-- RLY_SLICE_LAP_FT_64 (R856). -/
  | rlySliceLapFt
  /-- RLY_SLICE_LAP_STRIDE_64 (R856). -/
  | rlySliceLapStride
  /-- RLY_SLICE_RATE (R856). -/
  | rlySliceRate
  /-- RLY_SLICE_TIME_STAT (R856). -/
  | rlySliceTimeStat
  /-- RLY_PAIR_CAUSE (R856). -/
  | rlyPairCause
  /-- KEY_SEL (R799). -/
  | keySel
  /-- KEY_INFO (R799). -/
  | keyInfo
  /-- KEY_INSTALL (R799). -/
  | keyInstall
  /-- KEY_TOTAL (R799). -/
  | keyTotal
  /-- DELIVERY_SEQ_64 (R799). -/
  | deliverySeq
  /-- DGS_SLICE (R799). -/
  | dgsSlice
  /-- SLICE_MEAS_k (R799). -/
  | sliceMeas
  /-- SLICE_LOG_COUNT (R799). -/
  | sliceLogCount
  deriving DecidableEq, Repr

/-- One row of a register map: where the register or its array stands, and which of its bits are
reserved, RW, RWS, W1C and WO; every other bit is RO. -/
structure RegRow where
  reg : Reg
  base : Nat
  n : Nat := 1
  stride : Nat := 4
  outer : Nat := 1
  outerStride : Nat := 0
  wide : Bool := false
  res : Nat := 0
  rw : Nat := 0
  rws : Nat := 0
  w1c : Nat := 0
  wo : Nat := 0
  reset : Nat := 0

/-- The registers of the DEV block, by offset from its base. -/
def devRows : List RegRow :=
  [ { reg := .devIdent, base := 0x0, res := 0xf },
    { reg := .devFeature, base := 0x4, res := 0xff000007 },
    { reg := .devBootStat, base := 0x10, res := 0xfe00fc },
    { reg := .devFaultStat, base := 0x14, res := 0xff0000 },
    { reg := .devFaultStride, base := 0x18, wide := true },
    { reg := .devCmd, base := 0x20, res := 0xfffffff0, wo := 0xf },
    { reg := .devCmdStat, base := 0x24, res := 0xfffffc, w1c := 0x2 },
    { reg := .devFwAddr, base := 0x28, wide := true, res := 0x7, rw := 0xfffffffffffffff8 },
    { reg := .devFwLen, base := 0x30, rw := 0xffffffff },
    { reg := .devFwA, base := 0x40 },
    { reg := .devFwB, base := 0x44 },
    { reg := .devFwSel, base := 0x48, res := 0xfffffff0 } ]

/-- The registers of the CRS block, by offset from its base. -/
def crsRows : List RegRow :=
  [ { reg := .crsCmd, base := 0x0, res := 0xfffffff0, wo := 0xf },
    { reg := .crsStat, base := 0x4, res := 0xffffc, w1c := 0x2 },
    { reg := .crsErrOffset, base := 0x8, res := 0xffe00000 },
    { reg := .crsSrcAddr, base := 0x10, wide := true, res := 0x7, rw := 0xfffffffffffffff8 },
    { reg := .crsSrcLen, base := 0x18, res := 0xffe00000, rw := 0x1fffff },
    { reg := .crsCommit, base := 0x20, res := 0xfffffffc, wo := 0x3 },
    { reg := .crsCommitStat, base := 0x24, res := 0xfe },
    { reg := .crsActiveSeq, base := 0x28, wide := true },
    { reg := .crsActiveInfo, base := 0x30 },
    { reg := .crsViewSel, base := 0x40, res := 0x60000000, rw := 0x9fffffff },
    { reg := .crsViewData, base := 0x44 } ]

/-- The registers of the STR block, by offset from its base. -/
def strRows : List RegRow :=
  [ { reg := .strCount, base := 0x0, wide := true } ]

/-- The registers of the SLC block, by offset from its base. -/
def slcRows : List RegRow :=
  [ { reg := .slcCmd, base := 0x0, res := 0x7e00fff0, wo := 0x81ff000f },
    { reg := .slcStat, base := 0x4, res := 0x7ffc, w1c := 0x2 },
    { reg := .slcErrField, base := 0x8, res := 0xffff0000 },
    { reg := .slcCreateAddr, base := 0x10, wide := true, res := 0x7, rw := 0xfffffffffffffff8 },
    { reg := .slcBatonAddr, base := 0x18, wide := true, res := 0x7, rw := 0xfffffffffffffff8 },
    { reg := .slcBatonLen, base := 0x20, wide := true, rw := 0xffffffffffffffff },
    { reg := .slcBatonNeed, base := 0x28, wide := true },
    { reg := .slcPeer, base := 0x30, res := 0xc000fe00, rw := 0x3fff01ff },
    { reg := .slcCommitInfo, base := 0x34, res := 0xffe00 },
    { reg := .slcState, base := 0x1000, n := 512, stride := 0x4, res := 0x60000 },
    { reg := .slcShWbf, base := 0x8000, n := 512, stride := 0x20, res := 0xffffe000, rws := 0x1fff },
    { reg := .slcShQp, base := 0x8004, n := 512, stride := 0x20, res := 0xfffe0000, rws := 0x1ffff },
    { reg := .slcShAes, base := 0x8008, n := 512, stride := 0x20, res := 0xfffffe00, rws := 0x1ff },
    { reg := .slcShSlots, base := 0x800c, n := 512, stride := 0x20, res := 0xf000f000, rws := 0xfff0fff } ]

/-- The registers of the HIF block, by offset from its base. -/
def hifRows : List RegRow :=
  [ { reg := .hifPortCfg, base := 0x0, res := 0xfffffffe },
    { reg := .hifMgrPort, base := 0x4, res := 0xfffffffe, rw := 0x1 },
    { reg := .hifPortStat, base := 0x10, n := 2, stride := 0x4, res := 0xfffe30e0, w1c := 0x10000 },
    { reg := .hifQpFree, base := 0x20, res := 0xfff80000 },
    { reg := .hifMsixTable, base := 0x40000, n := 8192, stride := 0x4, outer := 2, outerStride := 0x10000, rw := 0xffffffff },
    { reg := .hifMsixPend0, base := 0x60000, n := 64, stride := 0x4 },
    { reg := .hifMsixPend1, base := 0x61000, n := 64, stride := 0x4 } ]

/-- The registers of the WBF block, by offset from its base. -/
def wbfRows : List RegRow :=
  [ { reg := .wbfHoldStat, base := 0x0, res := 0xffffff00, w1c := 0x10 },
    { reg := .wbfFlushHi, base := 0x4, res := 0xffffff80, rws := 0x7f, reset := 0x4b },
    { reg := .wbfFlushLo, base := 0x8, res := 0xffffff80, rws := 0x7f, reset := 0x32 },
    { reg := .wbfAge, base := 0xc, res := 0xffffff00, rws := 0xff, reset := 0x8 },
    { reg := .wbfOcc, base := 0x1000, n := 512, stride := 0x4, res := 0x7fe00000 },
    { reg := .wbfPair, base := 0x2000, n := 512, stride := 0x4, res := 0x3f800000, rws := 0xc07fffff },
    { reg := .wbfPairstat, base := 0x3000, n := 512, stride := 0x4, res := 0x7ffe000 } ]

/-- The registers of the FTL block, by offset from its base. -/
def ftlRows : List RegRow :=
  [ { reg := .ftlCmd, base := 0x0, res := 0xfffffff0, wo := 0xf },
    { reg := .ftlStat, base := 0x4, res := 0xffff00, w1c := 0x2 },
    { reg := .ftlArg, base := 0x8, res := 0xfffff000, rw := 0xfff },
    { reg := .ftlDumpAddr, base := 0x10, wide := true, res := 0x7, rw := 0xfffffffffffffff8 },
    { reg := .ftlDumpLen, base := 0x18, wide := true, rw := 0xffffffffffffffff },
    { reg := .ftlPromote, base := 0x20, res := 0xff000000, rws := 0xffffff, reset := 0x3e804 },
    { reg := .ftlDemote, base := 0x24, rws := 0xffffffff, reset := 0xea60 },
    { reg := .ftlGcCfg, base := 0x28, res := 0xff000000, rws := 0xffffff, reset := 0x103060 },
    { reg := .ftlRefresh, base := 0x2c, res := 0xfffffe00, rws := 0x1ff, reset := 0x5a },
    { reg := .ftlCkpt, base := 0x30, rws := 0xffffffff, reset := 0xea60 },
    { reg := .ftlCapacity, base := 0x40, wide := true },
    { reg := .ftlMediaAge, base := 0x48, wide := true },
    { reg := .ftlJournalSeq, base := 0x50, wide := true },
    { reg := .ftlCkptSeq, base := 0x58, wide := true },
    { reg := .ftlFineTotal, base := 0x60, res := 0xfe000000 },
    { reg := .ftlFineUsed, base := 0x64, res := 0xfe000000 },
    { reg := .ftlSpare, base := 0x68 },
    { reg := .ftlLossCount, base := 0x6c, res := 0xfe000000 },
    { reg := .ftlDieLost, base := 0x80, n := 16, stride := 0x4 },
    { reg := .ftlCnt, base := 0x100, n := 5, stride := 0x4 } ]

/-- The registers of the FCH block, by offset from its base. -/
def fchRows : List RegRow :=
  [ { reg := .fchStat, base := 0x0, n := 32, stride := 0x1000, res := 0xff00e0f8 },
    { reg := .fchDiePresent, base := 0x4, n := 32, stride := 0x1000 },
    { reg := .fchHlogAddr, base := 0x10, n := 32, stride := 0x1000, wide := true, res := 0x7, rw := 0xfffffffffffffff8 },
    { reg := .fchHlogCmd, base := 0x18, n := 32, stride := 0x1000, res := 0xfffffffe, wo := 0x1 },
    { reg := .fchHlogStat, base := 0x1c, n := 32, stride := 0x1000, res := 0xfffffc, w1c := 0x2 },
    { reg := .fchDecoded, base := 0x20, n := 32, stride := 0x1000, wide := true },
    { reg := .fchRetried, base := 0x28, n := 32, stride := 0x1000, wide := true },
    { reg := .fchUncorr, base := 0x30, n := 32, stride := 0x1000, wide := true },
    { reg := .fchLife, base := 0x100 },
    { reg := .fchSpareBase, base := 0x104 } ]

/-- The registers of the DRC block, by offset from its base. -/
def drcRows : List RegRow :=
  [ { reg := .drcStat, base := 0x0, outer := 4, outerStride := 0x4000, res := 0xfffff0 },
    { reg := .drcRef, base := 0x10, n := 2, stride := 0x4, outer := 4, outerStride := 0x4000 },
    { reg := .drcLane, base := 0x100, n := 10, stride := 0x4, outer := 4, outerStride := 0x4000 } ]

/-- The registers of the MPR block, by offset from its base. -/
def mprRows : List RegRow :=
  [ { reg := .mprCeDram, base := 0x10, wide := true },
    { reg := .mprUeDram, base := 0x18 },
    { reg := .mprCeSram, base := 0x20, wide := true },
    { reg := .mprUeSram, base := 0x28 },
    { reg := .mprLastUe, base := 0x30, wide := true },
    { reg := .mprDirty, base := 0x38, w1c := 0x80000000 },
    { reg := .mprScrub, base := 0x40, rws := 0xffffffff, reset := 0x10000 },
    { reg := .mprScrubStat, base := 0x44 },
    { reg := .mprTestCmd, base := 0x100, res := 0xffffc0f0, wo := 0x3f0f },
    { reg := .mprTestAddr, base := 0x108, wide := true, rw := 0xffffffffffffffff },
    { reg := .mprTestData, base := 0x110, rw := 0xffffffff },
    { reg := .mprTestCheck, base := 0x114, res := 0xfff00000, rw := 0xfffff },
    { reg := .mprTestStat, base := 0x118, res := 0xfffffe } ]

/-- The registers of the NCL block, by offset from its base. -/
def nclRows : List RegRow :=
  [ { reg := .nclCore, base := 0x0, n := 8, stride := 0x4, outer := 8, outerStride := 0x10000, res := 0xe00ffff } ]

/-- The registers of the PAT block, by offset from its base. -/
def patRows : List RegRow :=
  [ { reg := .patSlot, base := 0x0, n := 16, stride := 0x4, res := 0xe00ffff },
    { reg := .patEpoch, base := 0x40 },
    { reg := .patHole, base := 0x44, res := 0xffffff80 },
    { reg := .patScrubStat, base := 0x48, res := 0xe0, w1c := 0x10 },
    { reg := .patBytes, base := 0x50, wide := true } ]

/-- The registers of the HDL block, by offset from its base. -/
def hdlRows : List RegRow :=
  [ { reg := .hdlRecords, base := 0x0, wide := true },
    { reg := .hdlBytesIn, base := 0x8, wide := true },
    { reg := .hdlBytesOut, base := 0x10, wide := true } ]

/-- The registers of the CPH block, by offset from its base. -/
def cphRows : List RegRow :=
  [ { reg := .cphCore, base := 0x0, n := 24, stride := 0x4, res := 0xe00fffe },
    { reg := .cphPool, base := 0x80, res := 0xffe0fe00 },
    { reg := .cphInstance, base := 0x84 },
    { reg := .cphAlarmStat, base := 0x88, res := 0xffffff0e, w1c := 0x1 },
    { reg := .cphBatches, base := 0x90, wide := true } ]

/-- The registers of the DGS block, by offset from its base. -/
def dgsRows : List RegRow :=
  [ { reg := .dgsUnit, base := 0x0, n := 8, stride := 0x4, res := 0xe00ffff },
    { reg := .dgsPkStat, base := 0x40, res := 0xfff0000 },
    { reg := .dgsBatches, base := 0x48, wide := true } ]

/-- The registers of the KST block, by offset from its base. -/
def kstRows : List RegRow :=
  [ { reg := .kstDeviceId, base := 0x0, wide := true },
    { reg := .kstStat, base := 0x8, res := 0xf000000 },
    { reg := .kstAlarmStat, base := 0xc, res := 0xffffff0e, w1c := 0x1 },
    { reg := .kstFuseStat, base := 0x10, res := 0xffc00f00 },
    { reg := .kstInstallCount, base := 0x14, res := 0xff000000 },
    { reg := .kstSlotsFree, base := 0x18, res := 0xfffff000 },
    { reg := .kstEnrolAddr, base := 0x20, wide := true, res := 0x7, rw := 0xfffffffffffffff8 },
    { reg := .kstEnrolCmd, base := 0x28, res := 0xfffffffe, wo := 0x1 },
    { reg := .kstEnrolStat, base := 0x2c, res := 0xfffffc, w1c := 0x2 },
    { reg := .kstMeas, base := 0x40, n := 8, stride := 0x4 },
    { reg := .kstLogCount, base := 0x60 },
    { reg := .kstAttestPk, base := 0x100, n := 16, stride := 0x4 } ]

/-- The registers of the RLY block, by offset from its base. -/
def rlyRows : List RegRow :=
  [ { reg := .rlyPortStat, base := 0x0, n := 4, stride := 0x10000, res := 0xe00fc, w1c := 0x1 },
    { reg := .rlyPeer, base := 0x4, n := 4, stride := 0x10000, res := 0xc000fffc },
    { reg := .rlyAsym, base := 0x8, n := 4, stride := 0x10000, rw := 0xffffffff },
    { reg := .rlyDelay, base := 0xc, n := 4, stride := 0x10000 },
    { reg := .rlyOffset, base := 0x10, n := 4, stride := 0x10000 },
    { reg := .rlyTxFrames, base := 0x20, n := 4, stride := 0x10000, wide := true },
    { reg := .rlyRxFrames, base := 0x28, n := 4, stride := 0x10000, wide := true },
    { reg := .rlyRxDrop, base := 0x30, n := 4, stride := 0x10000, wide := true },
    { reg := .rlyTagFail, base := 0x38, n := 4, stride := 0x10000, wide := true },
    { reg := .rlyRetx, base := 0x40, n := 4, stride := 0x10000, wide := true },
    { reg := .rlyCmd, base := 0x800, res := 0xfffffff0, wo := 0xf },
    { reg := .rlyStat, base := 0x804, res := 0xffffc, w1c := 0x2 },
    { reg := .rlyAddr, base := 0x808, wide := true, res := 0x7, rw := 0xfffffffffffffff8 },
    { reg := .rlyLen, base := 0x810, rw := 0xffffffff },
    { reg := .rlyRosterSeq, base := 0x818, wide := true },
    { reg := .rlyVersion, base := 0x820, res := 0xff },
    { reg := .rlyHead, base := 0x824, res := 0xc000c000 },
    { reg := .rlyKeyEpoch, base := 0x828, res := 0xffff0000 },
    { reg := .rlyLoss, base := 0x82c, rws := 0xffffffff, reset := 0xa0028 },
    { reg := .rlyTimeStat, base := 0x830, res := 0xfffffc },
    { reg := .rlyLapFt, base := 0x838, wide := true },
    { reg := .rlyLapStride, base := 0x840, wide := true },
    { reg := .rlyTimeRate, base := 0x848 },
    { reg := .rlyPpsOffset, base := 0x84c },
    { reg := .rlyTimeSet, base := 0x850, wide := true, res := 0xfffffffc00000000, rw := 0x3ffffffff } ]

/-- The registers of the EVR block, by offset from its base. -/
def evrRows : List RegRow :=
  [ { reg := .evrCursor, base := 0x0, res := 0xfffce000, rw := 0x31fff },
    { reg := .evrHead, base := 0x4, res := 0x60006000 },
    { reg := .evrPodium, base := 0x8, res := 0xfffff800 },
    { reg := .evrStat, base := 0xc, res := 0x78, w1c := 0x6 },
    { reg := .evrData, base := 0x10, n := 8, stride := 0x4 },
    { reg := .evrCheck, base := 0x30 },
    { reg := .evrFreeze, base := 0x34, res := 0xfffffffc, wo := 0x3 },
    { reg := .evrClear, base := 0x38, res := 0xfc00fffc, wo := 0x3ff0003 },
    { reg := .evrWseq, base := 0x3c, res := 0xff000000 },
    { reg := .evrEvents, base := 0x40, wide := true } ]

/-- The registers of the PWR block, by offset from its base. -/
def pwrRows : List RegRow :=
  [ { reg := .pwrStat, base := 0x0, res := 0xf00fe, w1c := 0x1 },
    { reg := .pwrCtl, base := 0x4, res := 0xfffffff8, rw := 0x7, reset := 0x3 },
    { reg := .pwrMgrLtol, base := 0x8, rw := 0xffffffff },
    { reg := .pwrLtolMin, base := 0xc },
    { reg := .pwrIdle, base := 0x10, rw := 0xffffffff, reset := 0x640a0a01 },
    { reg := .pwrCmd, base := 0x14, res := 0xfffffffe, wo := 0x1 },
    { reg := .pwrWakeLast, base := 0x18, res := 0xff0000 },
    { reg := .pwrWakeStride, base := 0x20, wide := true },
    { reg := .pwrTimer, base := 0x28, wide := true, rw := 0xffffffffffffffff },
    { reg := .pwrClkStat, base := 0x30, res := 0xfffffe00 },
    { reg := .pwrResidency, base := 0x80, n := 5, stride := 0x8, wide := true } ]

/-- The registers of the FIJ block, by offset from its base. -/
def fijRows : List RegRow :=
  [ { reg := .fijTgt, base := 0x0, n := 8, stride := 0x10, res := 0x3fff00f0, rws := 0xc000ff0f },
    { reg := .fijRate, base := 0x4, n := 8, stride := 0x10, res := 0x7ff00000, rws := 0x800fffff, reset := 0x1 },
    { reg := .fijLimit, base := 0x8, n := 8, stride := 0x10, rws := 0xffffffff },
    { reg := .fijDone, base := 0xc, n := 8, stride := 0x10 },
    { reg := .fijSeed, base := 0x100, rws := 0xffffffff, reset := 0x1 },
    { reg := .fijStat, base := 0x104, res := 0xfffffe00 } ]

/-- The registers of the TST block, by offset from its base. -/
def tstRows : List RegRow :=
  [ { reg := .tstIdcode, base := 0x0 },
    { reg := .tstStat, base := 0x4, res := 0xffff00fc } ]

/-- The registers of a slice window from 0x4000 on, by offset from its base. -/
def winRows : List RegRow :=
  [ { reg := .heatBudget, base := 0x4000, res := 0xffe00000, rw := 0x1fffff, reset := 0x1e8480 },
    { reg := .heatStop, base := 0x4004, wo := 0xffffffff },
    { reg := .heatStat, base := 0x4008, res := 0xff0000fe, w1c := 0x1 },
    { reg := .heatBusy, base := 0x4010, wide := true },
    { reg := .hdlStop, base := 0x4100, wo := 0xffffffff },
    { reg := .hdlStat, base := 0x4104, res := 0xffff00fe, w1c := 0x1 },
    { reg := .patTableStat, base := 0x4200, res := 0xfe00000 },
    { reg := .patGen, base := 0x4208, wide := true },
    { reg := .patScrubEpoch, base := 0x4210, wide := true },
    { reg := .patScrubInfo, base := 0x4218, res := 0xfffe, w1c := 0x1 },
    { reg := .cphSliceShare, base := 0x4300, res := 0xe0fffe00 },
    { reg := .cphGuarantee, base := 0x4304 },
    { reg := .cphLapBatches, base := 0x4308 },
    { reg := .cphStage, base := 0x430c, res := 0xffff0000 },
    { reg := .rlySliceLapFt, base := 0x4500, wide := true },
    { reg := .rlySliceLapStride, base := 0x4508, wide := true },
    { reg := .rlySliceRate, base := 0x4510 },
    { reg := .rlySliceTimeStat, base := 0x4514, res := 0xffffff },
    { reg := .rlyPairCause, base := 0x4518, res := 0xffffff00 },
    { reg := .keySel, base := 0x4400, res := 0xfffff000, rw := 0xfff },
    { reg := .keyInfo, base := 0x4404, res := 0x3f000000 },
    { reg := .keyInstall, base := 0x4408, res := 0xff000000 },
    { reg := .keyTotal, base := 0x440c, res := 0xffffe000 },
    { reg := .deliverySeq, base := 0x4410, wide := true },
    { reg := .dgsSlice, base := 0x4418, res := 0xfffff0f0 },
    { reg := .sliceMeas, base := 0x4420, n := 8, stride := 0x4 },
    { reg := .sliceLogCount, base := 0x4440 } ]

/-- The controller registers of a slice window (R187, R188), with the layouts of NVMe 2.0. -/
def ctrlRows : List RegRow :=
  [ { reg := .cap, base := 0x0, wide := true, res := 0xe000000000f80000 },
    { reg := .vs, base := 0x8 },
    { reg := .intms, base := 0xc, wo := 0xffffffff },
    { reg := .intmc, base := 0x10, wo := 0xffffffff },
    { reg := .cc, base := 0x14, rw := 0xffffffff },
    { reg := .csts, base := 0x1c, res := 0xffffffc0 },
    { reg := .nssr, base := 0x20, wo := 0xffffffff },
    { reg := .aqa, base := 0x24, res := 0xf000f000, rw := 0xfff0fff },
    { reg := .asq, base := 0x28, wide := true, res := 0xfff, rw := 0xfffffffffffff000 },
    { reg := .acq, base := 0x30, wide := true, res := 0xfff, rw := 0xfffffffffffff000 },
    { reg := .cmbloc, base := 0x38, res := 0xff8 },
    { reg := .cmbsz, base := 0x3c, res := 0xe0 },
    { reg := .cmbmsc, base := 0x50, wide := true, res := 0xffc, rw := 0xfffffffffffff003 },
    { reg := .cmbsts, base := 0x58, res := 0xfffffffe } ]

/-- A block of BAR0 (R45): its base, its instances, their size and its registers, by offset from the
block's base. -/
structure BlockRow where
  base : Nat
  count : Nat
  size : Nat
  rows : List RegRow

/-- The blocks of R45. -/
def blockRows : List BlockRow :=
  [ { base := 0x0, count := 1, size := 0x10000, rows := devRows },
    { base := 0x10000, count := 1, size := 0x10000, rows := crsRows },
    { base := 0x20000, count := 1, size := 0x10000, rows := strRows },
    { base := 0x40000, count := 1, size := 0xc0000, rows := slcRows },
    { base := 0x100000, count := 1, size := 0x100000, rows := hifRows },
    { base := 0x200000, count := 1, size := 0x100000, rows := wbfRows },
    { base := 0x300000, count := 1, size := 0x100000, rows := ftlRows },
    { base := 0x400000, count := 32, size := 0x1000, rows := fchRows },
    { base := 0x600000, count := 4, size := 0x4000, rows := drcRows },
    { base := 0x700000, count := 1, size := 0x100000, rows := mprRows },
    { base := 0x800000, count := 8, size := 0x10000, rows := nclRows },
    { base := 0x1000000, count := 1, size := 0x100000, rows := patRows },
    { base := 0x1100000, count := 1, size := 0x100000, rows := hdlRows },
    { base := 0x1200000, count := 1, size := 0x100000, rows := cphRows },
    { base := 0x1300000, count := 1, size := 0x80000, rows := dgsRows },
    { base := 0x1380000, count := 1, size := 0x80000, rows := kstRows },
    { base := 0x1400000, count := 4, size := 0x10000, rows := rlyRows },
    { base := 0x1800000, count := 1, size := 0x100000, rows := evrRows },
    { base := 0x1900000, count := 1, size := 0x100000, rows := pwrRows },
    { base := 0x1a00000, count := 1, size := 0x100000, rows := fijRows },
    { base := 0x1b00000, count := 1, size := 0x100000, rows := tstRows } ]

/-- A register found at an offset: its row, its index, the key of its first byte and whether the
offset is its high half. -/
structure Loc where
  row : RegRow
  idx : Nat
  key : Nat
  high : Bool

/-- Does a row hold offset `off`? -/
def RegRow.at? (r : RegRow) (off : Nat) : Option (Nat × Nat × Bool) :=
  if off < r.base then none
  else
    let d := off - r.base
    let oi := if r.outer = 1 then 0 else d / r.outerStride
    let d1 := if r.outer = 1 then d else d % r.outerStride
    let i := if r.n = 1 then 0 else d1 / r.stride
    let d2 := if r.n = 1 then d1 else d1 % r.stride
    if oi < r.outer && i < r.n && (d2 = 0 || (r.wide && d2 = 4)) then
      some (oi * r.n + i, off - d2, decide (d2 = 4))
    else none

/-- The register at an offset of a map whose own base is `keyBase`. -/
def findReg : List RegRow → Nat → Nat → Option Loc
  | [], _, _ => none
  | r :: t, keyBase, off =>
    match r.at? off with
    | some (i, o, h) => some { row := r, idx := i, key := keyBase + o, high := h }
    | none => findReg t keyBase off

/-- The block that holds a BAR0 offset. -/
def findBlock : List BlockRow → Nat → Option BlockRow
  | [], _ => none
  | b :: t, off => if b.base ≤ off && off < b.base + b.count * b.size then some b else findBlock t off

end Sys2Proof.Machine
end

