-- ==== Sys2Proof/Machine/SysArea.lean ====
section
/-! DEFINITION. The dies in use, and the two copies of a system-area record (R350, R398). -/

namespace Sys2Proof.Machine

namespace State

def die (s : State) (d : Nat) : Die := tgetD s.ftl.dies d {}
def chan (s : State) (c : Nat) : Chan := tgetD s.ftl.chans c {}

/-- A die is in use (R398). -/
def dieInUse (s : State) (d : Nat) : Bool :=
  let x := s.die d
  x.present && x.qualified && !x.lost && (s.chan (d / 16)).trained

/-- The dies in use, in ascending number, and P of R312 and R378. -/
def diesInUse (s : State) : List Nat := (s.ftl.dies.map Prod.fst).filter (fun d => s.dieInUse d)

/-- The dies that can hold a record's two copies: of two different channels (R350). -/
def sysPairs (s : State) : List (Nat × Nat) :=
  s.diesInUse.flatMap (fun a => (s.diesInUse.filter (fun b => decide (a / 16 ≠ b / 16))).map (fun b => (a, b)))

/-- Both copies of a system-area record can be written (R350). -/
def systemAreaWritable (s : State) : Bool := decide (s.sysPairs ≠ [])

/-- Choose the dies of a record's copies: copy 1 is programmed first, copy 2 after it (R350). Which two dies the spec
leaves open: a free choice among those it allows. -/
def sysChoose (s : State) : Option (Nat × Nat) × State :=
  match s.sysPairs with
  | [] => (none, s)
  | p :: t => ((p :: t)[s.drawFree.1.toNat % (t.length + 1)]?, s.drawFree.2)

/-- Write a record twice (R350): its copies, and the state after the choice of their dies. -/
def sysWrite (s : State) (bs : Bytes) : Option SysCopies × State :=
  match s.sysChoose with
  | (none, t) => (none, t)
  | (some d, t) => (some { bytes := bs, one := d.1, two := d.2 }, t)

/-- Read a record from either of its copies: neither can be read once both their dies are lost or out of use
(R350). -/
def sysRead (s : State) (r : SysCopies) : Option Bytes :=
  if s.dieInUse r.one || s.dieInUse r.two then some r.bytes else none

end State

end Sys2Proof.Machine
end

