-- ==== Sys2Proof/Machine/Course.lean ====
section
/-! DEFINITION. The course image: its validation in the order of R85, and the course engine's
commands (R90 to R97, R100, R112). -/

namespace Sys2Proof.Machine

/-- A validation failure: the code of R88 and the image offset of the failing field (R86). -/
abbrev Bad := Nat × Nat

abbrev Check := Except Bad

/-- Fail with a code and an offset unless the condition holds. -/
def need (c : Bool) (code off : Nat) : Check Unit := if c then .ok () else .error (code, off)

/-- Check every element of a list in order. -/
def checkAll {α : Type} (f : α → Check Unit) : List α → Check Unit
  | [] => .ok ()
  | a :: t => do f a; checkAll f t

/-- A reserved run of `n` bytes must be zero; the failing field starts at `off` (R56, R86). -/
def needZero (img : Bytes) (off n : Nat) : Check Unit := need (allZero (bytesAt img off n)) 0x05 off

/-- What the validation is made against: the variant, the fuses, the device identifier and the
number of bytes fetched. -/
structure CourseCtx where
  variant : Nat
  fusedEpoch : Nat
  owners : Tab OwnerFuse
  deviceId : Nat
  srcLen : Nat
  cores : Nat
  channels : Nat
  relayPorts : Nat

/-- The bytes of a signature block (R55). -/
def sigBlock : Nat := 29864

/-- A section table entry with its own offset (R58). -/
structure Section where
  at' : Nat
  type : Nat
  off : Nat
  len : Nat

def Section.end' (x : Section) : Nat := x.off + x.len

/-- The section table (R58). -/
def sectionTable (img : Bytes) : List Section :=
  (List.range (leAt img 6 2)).map (fun i =>
    let a := 0x40 + 16 * i
    { at' := a, type := leAt img a 2, off := leAt img (a + 4) 4, len := leAt img (a + 8) 4 })

/-- Round up to a multiple of 8. -/
def pad8 (n : Nat) : Nat := (n + 7) / 8 * 8

/-- The LENGTH that a section type requires (R59, R70, R78). -/
def lengthOk (img : Bytes) (x : Section) : Bool :=
  if x.type = 1 then x.len = 32
  else if x.type = 2 then decide (16 ≤ x.len) && x.len % 16 = 0
  else if x.type = 3 then
    decide (8 ≤ x.len) && x.len = 8 + leAt img (x.off + 2) 2 * pad8 (4 + 2 * leAt img x.off 2)
  else if x.type = 4 then x.len = 48
  else decide (8 ≤ x.len) && x.len = 8 + 8 * leAt img (x.off + 2) 2

/-- One entry of the section table (R58, R59): `seen` holds the types of the entries before it, none of which
it may repeat (R1057). -/
def checkEntry (img : Bytes) (format count sig : Nat) (seen : List Nat) (x : Section) : Check Unit := do
  need (decide (1 ≤ x.type) && decide (x.type ≤ 5) && !(format = 2 && x.type = 4)) 0x04 x.at'
  need (!seen.contains x.type) 0x04 x.at'
  needZero img (x.at' + 2) 2
  need (x.off % 8 = 0 && decide (0x40 + 16 * count ≤ x.off) && decide (x.off < sig)) 0x04 (x.at' + 4)
  need (lengthOk img x && decide (x.end' ≤ sig)) 0x04 (x.at' + 8)
  needZero img (x.at' + 0xC) 4

/-- The entries of the section table, in order. -/
def checkEntries (img : Bytes) (format count sig : Nat) : List Section → List Nat → Check Unit
  | [], _ => .ok ()
  | x :: t, seen => do
    checkEntry img format count sig seen x
    checkEntries img format count sig t (x.type :: seen)

/-- No two sections overlap; the later-starting one is named (R59, R1057). -/
def checkOverlaps : List Section → Check Unit
  | [] => .ok ()
  | x :: t => do
    checkAll (fun y => need (decide (x.end' ≤ y.off) || decide (y.end' ≤ x.off)) 0x04
      (if x.off ≤ y.off then y.at' + 4 else x.at' + 4)) t
    checkOverlaps t

/-- The DEVICE section (R61). -/
def checkDevice (img : Bytes) (ctx : CourseCtx) (o : Nat) : Check Unit := do
  need (decide (leAt img o 1 ≤ 1)) 0x06 o
  need (decide (26 ≤ leAt img (o + 1) 1) && decide (leAt img (o + 1) 1 ≤ 31)) 0x06 (o + 1)
  need (decide (leAt img (o + 2) 1 ≤ 64) && decide (leAt img (o + 2) 1 ≠ 1)) 0x06 (o + 2)
  need (natBits (leAt img (o + 3) 1) 7 4 = 0) 0x05 (o + 3)
  need (leAt img (o + 3) 1 / 2 ^ ctx.relayPorts = 0) 0x07 (o + 3)
  let w := leAt img (o + 4) 2
  need (w = 0 || (decide (256 ≤ w) && decide (w ≤ 4096) && w % 256 = 0)) 0x06 (o + 4)
  let e := leAt img (o + 6) 2
  need ((decide (0x600 ≤ e) && decide (e ≠ 0x8100) && decide (e ≠ 0x88A8)) ||
        (e = 0 && ctx.relayPorts = 0)) 0x06 (o + 6)
  let a := leAt img (o + 8) 2
  need (natBits a 15 14 = 0) 0x05 (o + 8)
  need (a = 0 || decide (ctx.relayPorts ≠ 0)) 0x06 (o + 8)
  need ([4800, 5600, 6400].contains (leAt img (o + 0xA) 2)) 0x06 (o + 0xA)
  let d := leAt img (o + 0xC) 1
  need ([16, 32, 64, 128].contains d) 0x06 (o + 0xC)
  let p := leAt img (o + 0xD) 1
  need (decide (1 ≤ p) && decide (p ≤ d)) 0x06 (o + 0xD)
  needZero img (o + 0xE) 18

/-- An allotment record with its image offset (R63). -/
structure AllotAt where
  at' : Nat
  owner : Nat
  resource : Nat
  first : Nat
  count : Nat

def allotsAt (img : Bytes) (x : Section) : List AllotAt :=
  (List.range (x.len / 16)).map (fun i =>
    let a := x.off + 16 * i
    { at' := a, owner := leAt img a 2, resource := leAt img (a + 2) 2, first := leAt img (a + 4) 4,
      count := leAt img (a + 8) 4 })

/-- The numbering of an indexed resource (R64); none for an amount resource. -/
def indexLimit (r : Nat) : Option Nat :=
  if r = 1 || r = 2 || r = 3 then some 64
  else if r = 8 then some 24
  else if r = 0xB then some 16
  else none

/-- The indices of an indexed resource that the variant has (R3, R64). -/
def indexPresent (ctx : CourseCtx) (r : Nat) : Nat :=
  if r = 1 || r = 2 then ctx.cores else (indexLimit r).getD 0

/-- One allotment record (R63, R64). -/
def checkAllot (img : Bytes) (ctx : CourseCtx) (x : AllotAt) : Check Unit := do
  need (decide (x.owner < 0x200) || x.owner = 0x201) 0x05 x.at'
  need (decide (1 ≤ x.resource) && decide (x.resource ≤ 0xB)) 0x05 (x.at' + 2)
  match indexLimit x.resource with
  | none => do
    need (x.first = 0) 0x06 (x.at' + 4)
    need (decide (x.count ≠ 0)) 0x09 (x.at' + 8)
  | some lim => do
    need (decide (x.first < lim)) 0x06 (x.at' + 4)
    need (decide (x.first < indexPresent ctx x.resource)) 0x07 (x.at' + 4)
    need (decide (x.count ≠ 0)) 0x09 (x.at' + 8)
    need (decide (x.first + x.count ≤ lim)) 0x06 (x.at' + 8)
    need (decide (x.first + x.count ≤ indexPresent ctx x.resource)) 0x07 (x.at' + 8)
  needZero img (x.at' + 0xC) 4

/-- The schedule tables that the course needs (R72). -/
def tablesNeeded (channels portMode : Nat) : List Nat :=
  (List.range channels).map (0x100 + ·) ++ (List.range (portMode + 1)).map (0x200 + ·) ++ [0x300]

/-- Is an owner code legal in a table (R73)? -/
def ownerLegal (table owner : Nat) : Bool :=
  decide (owner < 0x200) || owner = 0x201 || owner = 0x202 || (owner = 0x200 && table / 0x100 = 1)

/-- One schedule table at its offset (R70 to R74). DESIGN CHOICE (102): a table with too few FTL slots is named by its
RESOURCE field, since the rules give that failure no offset. -/
def checkTable (img : Bytes) (ctx : CourseCtx) (portMode period a : Nat) : Check Unit := do
  let r := leAt img a 2
  need (r / 0x100 = 1 || r / 0x100 = 2 || r = 0x300) 0x05 a
  need ((tablesNeeded ctx.channels portMode).contains r) 0x07 a
  needZero img (a + 2) 2
  checkAll (fun i => do
      let o := leAt img (a + 4 + 2 * i) 2
      need (decide (o ≤ 0x202)) 0x05 (a + 4 + 2 * i)
      need (ownerLegal r o) 0x0A (a + 4 + 2 * i)) (List.range period)
  needZero img (a + 4 + 2 * period) (pad8 (4 + 2 * period) - (4 + 2 * period))
  let ftl := ((List.range period).filter (fun i => leAt img (a + 4 + 2 * i) 2 = 0x200)).length
  need (decide (r / 0x100 ≠ 1) || decide (ceilDiv period 16 ≤ ftl)) 0x0A a

/-- The schedule tables, one after the other, none repeated (R72, R1057). -/
def checkTables (img : Bytes) (ctx : CourseCtx) (portMode period : Nat) : List Nat → List Nat → Check Unit
  | [], _ => .ok ()
  | a :: t, seen => do
    need (!seen.contains (leAt img a 2)) 0x0A a
    checkTable img ctx portMode period a
    checkTables img ctx portMode period t (leAt img a 2 :: seen)

/-- The offsets of the schedule tables of a section (R70). -/
def tableOffsets (img : Bytes) (o : Nat) : List Nat :=
  (List.range (leAt img (o + 2) 2)).map (fun i => o + 8 + i * pad8 (4 + 2 * leAt img o 2))

/-- The SCHEDULE section (R70 to R74, R1057). -/
def checkSchedule (img : Bytes) (ctx : CourseCtx) (portMode o : Nat) : Check Unit := do
  let period := leAt img o 2
  need (decide (period ≠ 0) && 4000 % period = 0) 0x0A o
  needZero img (o + 4) 4
  let offs := tableOffsets img o
  checkTables img ctx portMode period offs []
  need ((tablesNeeded ctx.channels portMode).all (fun t => (offs.map (fun a => leAt img a 2)).contains t))
    0x0A (o + 2)

/-- The RETENTION section (R77). -/
def checkRetention (img : Bytes) (ctx : CourseCtx) (o : Nat) : Check Unit := do
  checkAll (fun i => need (decide (2 * i + 1 < ctx.cores) || leAt img (o + i) 1 = 0 ||
    (decide (2 * i < ctx.cores) && decide (leAt img (o + i) 1 < 16))) 0x07 (o + i)) (List.range 32)
  checkAll (fun i => need (decide (i < ctx.cores / 8) || leAt img (o + 0x20 + i) 1 = 0) 0x07
    (o + 0x20 + i)) (List.range 8)
  need (natBits (leAt img (o + 0x28) 1) 7 1 = 0) 0x05 (o + 0x28)
  needZero img (o + 0x29) 7

/-- The DEBUG_GRANT section (R78, R80). DESIGN CHOICE (102): a list that does not hold this device's DEVICE_ID is named
by its first DEVICE_ID. -/
def checkGrant (img : Bytes) (ctx : CourseCtx) (o : Nat) : Check Unit := do
  need (natBits (leAt img o 2) 15 2 = 0) 0x05 o
  need (decide (leAt img o 2 ≠ 0)) 0x09 o
  let n := leAt img (o + 2) 2
  need (decide (1 ≤ n) && decide (n ≤ 64)) 0x06 (o + 2)
  needZero img (o + 4) 4
  need ((List.range n).any (fun i => leAt img (o + 8 + 8 * i) 8 = ctx.deviceId)) 0x0F (o + 8)

/-- Sections in ascending offset order (R85 step 9). -/
def sortSections : List Section → List Section
  | [] => []
  | x :: t =>
    let rec ins (x : Section) : List Section → List Section
      | [] => [x]
      | y :: t => if x.off ≤ y.off then x :: y :: t else y :: ins x t
    ins x (sortSections t)

def checkSection (img : Bytes) (ctx : CourseCtx) (portMode : Nat) (x : Section) : Check Unit :=
  if x.type = 1 then checkDevice img ctx x.off
  else if x.type = 2 then checkAll (checkAllot img ctx) (allotsAt img x)
  else if x.type = 3 then checkSchedule img ctx portMode x.off
  else if x.type = 4 then checkRetention img ctx x.off
  else checkGrant img ctx x.off

/-- The offset of the term whose addition first exceeds a limit, in the order given (R87). -/
def firstOver (limit : Nat) : List (Nat × Nat) → Nat → Option Nat
  | [], _ => none
  | (off, v) :: t, acc => if limit < acc + v then some off else firstOver limit t (acc + v)

/-- The terms of one amount resource, with the offset of their COUNT. -/
def terms (as : List AllotAt) (r : Nat) (sliceOnly : Option Nat := none) : List (Nat × Nat) :=
  (as.filter (fun a => a.resource = r && (sliceOnly = none || sliceOnly = some a.owner))).map
    (fun a => (a.at' + 8, a.count))

/-- The lowest offset of several failures. -/
def lowest (l : List (Option Nat)) : Option Nat :=
  l.foldl (fun m x => match m, x with
    | none, x => x
    | m, none => m
    | some a, some b => some (min a b)) none

/-- The sums of R62 and R64, with R87's offset. -/
def sumFailure (img : Bytes) (dev : Nat) (allotOff : Nat) (as : List AllotAt) : Option Nat :=
  let cmb := 2 ^ leAt img (dev + 1) 1 / 2 ^ 20
  let wbf := leAt img (dev + 4) 2
  let devTerms := [(dev + 1, cmb), (dev + 4, wbf), (dev + 0xD, leAt img (dev + 0xD) 1 * 1024)]
  let region := terms as 4
  let all := if allotOff < dev then region ++ devTerms else devTerms ++ region
  lowest ([firstOver (leAt img (dev + 0xC) 1 * 1024) all 0,
           firstOver wbf (terms as 5) 0, firstOver cmb (terms as 6) 0, firstOver 262144 (terms as 7) 0,
           firstOver 256 (terms as 9) 0, firstOver 4032 (terms as 0xA) 0] ++
    (as.filter (fun a => a.resource = 7 && decide (a.owner < 0x200))).map
      (fun a => firstOver 65536 (terms as 7 (some a.owner)) 0))

/-- R68 for a record against those before it. -/
def checkOwned : List AllotAt → List AllotAt → Check Unit
  | [], _ => .ok ()
  | x :: t, before => do
    match indexLimit x.resource with
    | some _ => need (before.all (fun y => decide (y.resource ≠ x.resource) ||
        decide (y.first + y.count ≤ x.first) || decide (x.first + x.count ≤ y.first))) 0x08 (x.at' + 4)
    | none => need (before.all (fun y => decide (y.resource ≠ x.resource) ||
        decide (y.owner ≠ x.owner))) 0x08 (x.at' + 2)
    checkOwned t (before ++ [x])

/-- R69 for one record: does it need a record its owner lacks, or have one it must not have? DESIGN CHOICE (102): of an
AES_POOL_SHARE and an AES_CORE record of one owner, the first in image order is named. -/
def consistent (as : List AllotAt) (x : AllotAt) : Bool :=
  let has (r : Nat) := as.any (fun y => y.owner = x.owner && y.resource = r)
  !((x.resource = 4 && !has 3) || (x.resource = 3 && !has 4) ||
    ((x.resource = 9 || x.resource = 8) && decide (x.owner < 0x200) && has 8 && has 9))

/-- Cross-section limits (R85 step 10). -/
def checkCross (img : Bytes) (dev allotOff : Nat) (as : List AllotAt) : Check Unit := do
  match sumFailure img dev allotOff as with
  | some o => .error (0x08, o)
  | none => .ok ()
  checkOwned as []
  checkAll (fun x => need (consistent as x) 0x11 (x.at' + 2)) as

/-- The section of a type. -/
def findSection (xs : List Section) (t : Nat) : Option Section := xs.find? (fun x => x.type = t)

/-- The course that a valid image states. -/
def parseCourse (img : Bytes) (xs : List Section) : Course :=
  let o (t : Nat) : Nat := match findSection xs t with
    | some x => x.off
    | none => 0
  let d := o 1
  let sc := o 3
  let period := leAt img sc 2
  let as := match findSection xs 2 with
    | some x => allotsAt img x
    | none => []
  let ret := (findSection xs 4).isSome
  { image := img, format := leAt img 4 2, epoch := leAt img 0xF 1, sequence := leAt img 0x10 8,
    debugAuth := natBit (leAt img 0xC 2) 0, revokeMask := leAt img 0x18 1,
    ownerSlot := leAt img (leAt img 8 4 - sigBlock) 1,
    portMode := leAt img d 1, cmbLog2 := leAt img (d + 1) 1, patHole := leAt img (d + 2) 1,
    relayEnable := leAt img (d + 3) 1, wbfMib := leAt img (d + 4) 2, etherType := leAt img (d + 6) 2,
    fieldAddr := leAt img (d + 8) 2, dramMts := leAt img (d + 0xA) 2, dramGib := leAt img (d + 0xC) 1,
    privGib := leAt img (d + 0xD) 1,
    allots := as.map (fun a => { owner := a.owner, resource := a.resource, first := a.first, count := a.count }),
    period := period,
    tables := (tableOffsets img sc).map (fun a =>
      (leAt img a 2, (List.range period).map (fun i => leAt img (a + 4 + 2 * i) 2))),
    coreBanks := if ret then leAt img (o 4) 32 else 0,
    clusterBanks := if ret then leAt img (o 4 + 0x20) 8 else 0,
    keystoreRet := ret && natBit (leAt img (o 4 + 0x28) 1) 0,
    grant := match findSection xs 5 with
      | some x => leAt img x.off 2
      | none => 0 }

/-- Validation of a fetched image, in the order of R85. DESIGN CHOICE (102), where the rules give no code, order or
offset: a slot that is unprogrammed or revoked fails after the reserved bytes, at OWNER_SLOT; VARIANT_MASK's
exclusion is tested before its reserved bits; a broken presence rule of R79 is named by header FLAGS; bytes between
sections and before the signature block may hold anything, since no code of R88 names them. -/
def validate (ctx : CourseCtx) (img : Bytes) : Check Course := do
  need (leAt img 0 4 = 0x4D424331) 0x01 0
  let format := leAt img 4 2
  need (format = 3 || format = 2) 0x02 4
  let size := leAt img 8 4
  let count := leAt img 6 2
  need (size % 8 = 0 && decide (size ≤ 0x100000) && size = ctx.srcLen &&
    decide (0x40 + 16 * count + sigBlock ≤ size)) 0x03 8
  let sig := size - sigBlock
  let slot := leAt img sig 1
  need (decide (slot ≤ 3)) 0x06 sig
  match firstNonZero (bytesAt img (sig + 1) 7) (sig + 1) with
  | some o => .error (0x05, o)
  | none => .ok ()
  let pk := bytesAt img (sig + 8) 64
  match tget ctx.owners slot with
  | none => .error (0x0C, sig)
  | some f => do
    need (!f.revoked) 0x0C sig
    need (Config.sha3_256 pk = f.digest) 0x0C (sig + 8)
  need (Config.slhVerify pk (img.take sig) (bytesAt img (sig + 0x48) 29792)) 0x0D (sig + 0x48)
  let epoch := leAt img 0xF 1
  need (decide (ctx.fusedEpoch ≤ epoch)) 0x0E 0xF
  let vm := leAt img 0xE 1
  need (natBit vm (ctx.variant - 1)) 0x0B 0xE
  need (natBits vm 7 3 = 0) 0x05 0xE
  let flags := leAt img 0xC 2
  need (natBits flags 15 1 = 0) 0x05 0xC
  need (if format = 3 then count = 4 || count = 5 else count = 3 || count = 4) 0x06 6
  need (decide (epoch ≤ 63)) 0x06 0xF
  let rm := leAt img 0x18 1
  need (natBits rm 7 4 = 0 && !natBit rm slot) 0x05 0x18
  needZero img 0x19 7
  needZero img 0x30 16
  let xs := sectionTable img
  checkEntries img format count sig xs []
  checkOverlaps xs
  need ([1, 2, 3].all (fun t => (findSection xs t).isSome) &&
    (format = 2 || (findSection xs 4).isSome)) 0x04 0x40
  need ((findSection xs 5).isSome = natBit flags 0) 0x0F 0xC
  let dev := ((findSection xs 1).map Section.off).getD 0
  checkAll (checkSection img ctx (leAt img dev 1)) (sortSections xs)
  match findSection xs 2 with
  | some a => checkCross img dev a.off (allotsAt img a)
  | none => .ok ()
  return parseCourse img xs

/-! ### The course engine -/

namespace State

def crsSrcLen : Nat := 0x10018

/-- What the course engine validates against now. -/
def courseCtx (s : State) (len : Nat) : CourseCtx :=
  { variant := s.variant, fusedEpoch := s.dur.fusedEpoch, owners := s.dur.ownerFuses,
    deviceId := s.deviceId.toNat, srcLen := len, cores := s.coresPresent,
    channels := s.channelsPresent, relayPorts := s.relayPorts }

def setCrs (s : State) (c : Crs) : State := { s with crs := c }

/-- A command that no row of R90 admits in the engine's state. -/
def crsRefuse (s : State) : State := s.setCrs { s.crs with cmdRefused := true }

/-- Validation fails (R90, R86): the staging buffer is cleared. -/
def crsFail (s : State) (code off : Nat) : State :=
  (s.setCrs { s.crs with state := .empty, result := code, errOffset := off, image := none }).ev
    0x2100 noSlice

/-- CRS_CMD LOAD (R84, R90, R780): the verification of its signature is a job of the public-key unit. A CRS_SRC_LEN of
zero ends it with SIZE and no fetch (R1057). -/
def crsLoad (s : State) : State :=
  match s.crs.state with
  | .empty | .staged | .applied =>
    if s.rwNat crsSrcLen = 0 then s.crsFail 0x03 0
    else
      let s := s.setCrs { s.crs with state := .loading, image := none }
      { s with kst := { s.kst with jobs := s.kst.jobs ++ [.course] } }
  | _ => s.crsRefuse

/-- The checks that validation makes before it asks for the signature's verification (R85 steps 1 and 2) fail. -/
def failsEarly (ctx : CourseCtx) (img : Bytes) : Bool :=
  match validate ctx img with
  | .ok _ => false
  | .error e => decide (e.1 ≤ 3) || e.1 = 0xC || ((e.1 = 5 || e.1 = 6) && decide (leAt img 8 4 - sigBlock ≤ e.2))

/-- May the course's job run now (R778, R780)? Jobs of its class run in order of request, and none while the key store
is SUSPENDED. -/
def courseJobRuns (s : State) : Bool :=
  s.kst.state ≠ .suspended &&
  (s.kst.jobs.filter (fun j => match j with
    | .course | .enrol _ => true
    | _ => false)).head? = some .course

/-- The course's job of the public-key unit ends. -/
def courseJobEnds (s : State) : State :=
  { s with kst := { s.kst with jobs := s.kst.jobs.filter (fun j => decide (j ≠ .course)) } }

/-- The end of a LOAD's fetch and validation (R84 to R88, R90). An image that comes to step 3 is verified by the
public-key unit, whose job waits its turn, and waits while the key store is SUSPENDED. DESIGN CHOICE (102): CRS_SRC_LEN
is the one that stands at the end of the fetch. -/
def crsLoadEnd (s : State) (img : Fetch) : State :=
  match s.crs.state with
  | .loading =>
    match img with
    | .failAt off => s.courseJobEnds.crsFail 0x10 off
    | .ok data =>
      let len := s.rwNat crsSrcLen
      let bs := padTo len data
      if !failsEarly (s.courseCtx len) bs && !s.courseJobRuns then s
      else
        let s := s.courseJobEnds
        match validate (s.courseCtx len) bs with
        | .ok c => s.setCrs { s.crs with state := .staged, result := 0, image := some c }
        | .error e => s.crsFail e.1 e.2
  | _ => s

/-- Do the restart-class fields of two courses agree (R61)? -/
def restartEqual (a b : Course) : Bool :=
  a.portMode = b.portMode && a.cmbLog2 = b.cmbLog2 && a.wbfMib = b.wbfMib &&
  a.etherType = b.etherType && a.fieldAddr = b.fieldAddr && a.dramMts = b.dramMts &&
  a.dramGib = b.dramGib && a.privGib = b.privGib

/-- CRS_CMD APPLY (R90, R97). -/
def crsApply (s : State) : State :=
  match s.crs.state with
  | .empty | .applied => s.setCrs { s.crs with result := 0x22 }
  | .staged =>
    match s.crs.image, s.crs.inForce with
    | some n, some f =>
      if restartEqual n f then s.setCrs { s.crs with state := .applyPending }
      else s.setCrs { s.crs with result := 0x20 }
    | _, _ => s.setCrs { s.crs with state := .applyPending }
  | _ => s.crsRefuse

/-- CRS_CMD PERSIST (R90, R93). -/
def crsPersist (s : State) : State :=
  match s.crs.state with
  | .empty => s.setCrs { s.crs with result := 0x22 }
  | .staged => s.setCrs { s.crs with state := .persistingStaged }
  | .applied => s.setCrs { s.crs with state := .persistingApplied }
  | _ => s.crsRefuse

/-- CRS_CMD DISCARD (R90). -/
def crsDiscard (s : State) : State :=
  match s.crs.state with
  | .empty => s
  | .staged | .applyPending | .applied => s.setCrs { s.crs with state := .empty, image := none }
  | _ => s.crsRefuse

/-- The programmed slots once the revoke fuses of a mask are blown (R94). -/
def revokeOwners (t : Tab OwnerFuse) (mask : Nat) : Tab OwnerFuse :=
  tmap t (fun k f => if natBit mask k then { f with revoked := true } else f)

/-- A successful PERSIST: the image becomes current, in two copies, the old current previous, the fuses follow R94,
those of a slot not yet programmed too (R782), and each new revocation is measured (R789). -/
def persisted (s : State) (c : Course) : State :=
  let epoch := max s.dur.fusedEpoch c.epoch
  let old := s.dur.ownerRevoked
  let fuses := revokeOwners s.dur.ownerFuses c.revokeMask
  let new := (List.range 4).filter (fun k => natBit c.revokeMask k && !natBit old k)
  let changed := decide (epoch ≠ s.dur.fusedEpoch) || decide (new ≠ [])
  let r := (s.sysWrite c.image)
  let s := { r.2 with dur := { r.2.dur with courseCur := r.1, coursePrev := s.dur.courseCur,
                                            fusedEpoch := epoch, ownerFuses := fuses, ownerRevoked := old ||| c.revokeMask } }
  let s := new.foldl (fun s k => s.devLog 0x0005 (leBytes 2 k) c.image) s
  if changed then s.ev 0x2102 noSlice else s

/-- The end of PERSIST's write (R90, R93, R94): without dies on two channels for its two copies it fails. -/
def crsPersistEnd (s : State) (ok : Bool) : State :=
  let fin (s : State) (st : CrsState) : State :=
    if ok && s.sysPairs ≠ [] then
      let s := match s.crs.image with
        | some c => s.persisted c
        | none => s
      s.setCrs { s.crs with state := st, result := 0 }
    else s.setCrs { s.crs with state := st, result := 0x23 }
  match s.crs.state with
  | .persistingStaged => fin s .staged
  | .persistingApplied => fin s .applied
  | _ => s

/-- CRS_COMMIT REQUEST (R100). -/
def commitRequest (s : State) : State := s.setCrs { s.crs with commitPending := true }

/-- CRS_COMMIT CANCEL (R112). -/
def commitCancel (s : State) : State :=
  if s.crs.commitPending then
    s.setCrs { s.crs with commitPending := false, commitResult := 4, commitPair := 0, commitCount := 0 }
  else s

end State

end Sys2Proof.Machine
end

