-- ==== Sys2Proof/Machine/Access.lean ====
section
/-! DEFINITION. Which accesses reach the device: the rules of start-up, SAFE, the power states and
the manager port lock that stand before every register write, and wake events. -/

namespace Sys2Proof.Machine

/-- The power states, as bits, that a wake source wakes (R918). -/
def wakesMask (src : Nat) : Nat :=
  if src = 1 || src = 2 then 0b01100
  else if src = 3 || src = 7 then 0b11000
  else if src = 4 || src = 8 then 0b11110
  else if src = 5 then 0b00100
  else if src = 6 then 0b11100
  else if src = 9 then 0b01110
  else if src = 0xA then 0b00010
  else 0

namespace State

/-- Preparation is abandoned (R908, R909, R926): the idle periods start again. -/
def abandonPrep (s : State) (cause : Nat) : State :=
  ({ s with pwr := { s.pwr with phase := .steady, target := s.pwr.state, prepReady := false,
                                idle := [0, 0, 0, 0] } }).ev
    0x3D03 noSlice (item 1 s.pwr.target ++ item 1 cause)

/-- A wake event from a source of R918. It begins an exit, abandons a preparation, or is latched as a
false start during entry (R908, R911, R918). -/
def wakeEvent (s : State) (src detail : Nat) : State :=
  match s.pwr.phase with
  | .steady =>
    if natBit (wakesMask src) s.pwr.state then
      { s with pwr := { s.pwr with phase := .exiting, wakeSource := src, wakeFrom := s.pwr.state,
                                   wakeDetail := detail, wakeStride := s.stride, wakeEventDue := true } }
    else s
  | .preparing => if natBit (wakesMask src) s.pwr.target then s.abandonPrep src else s
  | .entering =>
    if natBit (wakesMask src) s.pwr.target then
      let first := s.pwr.latched.isNone
      let p := { s.pwr with falseStart := true }
      let p := if first then
          { p with latched := some (src, detail), wakeSource := src, wakeFrom := s.pwr.target,
                   wakeDetail := detail, wakeStride := s.stride }
        else p
      ({ s with pwr := p }).ev 0x3D02 noSlice (item 1 src)
    else s
  | .exiting => s

/-- The port whose BAR0 writes are honoured (R181, R244). -/
def mgrPort (s : State) : Nat := s.rwNat 0x100004

/-- Does a port's own MSI-X table or pending array hold this offset (R181, R243)? -/
def ownMsix (p off : Nat) : Bool :=
  if p = 0 then (decide (0x140000 ≤ off) && decide (off < 0x148000)) ||
                (decide (0x160000 ≤ off) && decide (off < 0x160100))
  else (decide (0x150000 ≤ off) && decide (off < 0x158000)) ||
       (decide (0x161000 ≤ off) && decide (off < 0x161100))

/-- The LAST_OFFSET and SPACE of a discarded write (R17). -/
def errPlace (sp : Space) (off : Nat) : Nat × Nat :=
  match sp with
  | .bar0 => (0, off)
  | .bar2 => (1, off / 32)

/-- Discard a write to BAR0 or BAR2 and report it in DEV_ERR_STAT (R967, R983, R924, R47). -/
def discardDev (s : State) (sp : Space) (off : Nat) : State :=
  s.discard devErr (errPlace sp off).1 (errPlace sp off).2

/-- The blocks that respond in SAFE: DEV, STR, KST, EVR and TST (R983). -/
def safeBlock (off : Nat) : Bool :=
  decide (off < 0x10000) || (decide (0x20000 ≤ off) && decide (off < 0x30000)) ||
  (decide (0x1380000 ≤ off) && decide (off < 0x1400000)) ||
  (decide (0x1800000 ≤ off) && decide (off < 0x1900000)) ||
  (decide (0x1B00000 ≤ off) && decide (off < 0x1C00000))

/-- The writes that R967 honours before READY. -/
def earlyWrite (ph : Phase) (off : Nat) : Bool :=
  off = 0x20 || (decide (0x10000 ≤ off) && decide (off < 0x20000)) ||
  (off = 0x40000 && (ph = .noCourse || ph = .mapShort))

/-- A BAR0 write is one of the accesses that wake the device (R918, R924): only a PCIe port's is a
host write. -/
def wakeOnWrite (s : State) (req : Requester) : State :=
  match req with
  | .port _ => s.wakeEvent 2 0
  | .smbus => s
  | .core _ => s

/-- What a BAR0 write meets before its register: `some` is the state in which it has been
discarded, none when it reaches the register. -/
def bar0Blocked (s : State) (req : Requester) (off : Nat) : Option State :=
  if s.dev.run ≠ .started then some s
  else
    let locked := match req with
      | .port p => decide (p ≠ s.mgrPort) && !ownMsix p off
      | _ => false
    if locked then some ((s.discard hifErr 0 off).ev 0x2201 noSlice)
    else if s.pwr.state = 4 then some s
    else if s.pwr.state = 3 then some (s.discardDev .bar0 off)
    else match s.dev.phase with
      | .ready => none
      | .safe => if safeBlock off then none else some (s.discardDev .bar0 off)
      | ph => if earlyWrite ph off then none else some (s.discardDev .bar0 off)

/-- A BAR0 write of a command register: the operation runs when the write reaches it. -/
def bar0Write (s : State) (req : Requester) (off : Nat) (op : State → State) : State :=
  let s := s.wakeOnWrite req
  match s.bar0Blocked req off with
  | some t => t
  | none => op s

/-- Is a slice's window live from a port (R116, R182)? -/
def windowLive (s : State) (p n : Nat) : Bool :=
  match (s.slice n).st with
  | .active | .freezing | .frozen | .resetting | .saving | .migrating => (s.slice n).port = p
  | _ => false

/-- Discard a write in a live window and report it in SLC_WIN_ERR_STAT (R49). -/
def discardWin (s : State) (n off : Nat) : State := s.discard (winKey n 0xFFC) 0 off n

/-- What a BAR2 write meets before the window's register. Doorbell writes in P3 are handled by the
doorbell's own rule (R924). -/
def bar2Blocked (s : State) (p n off : Nat) : Option State :=
  let abs := n * 0x100000 + off
  if s.dev.run ≠ .started || s.pwr.state = 4 then some s
  else if s.pwr.state = 3 then some (s.discardDev .bar2 abs)
  else match s.dev.phase with
    | .ready =>
      if s.windowLive p n then none
      else some (s.discard slcErr 1 (abs / 32))
    | _ => some (s.discardDev .bar2 abs)

/-- A write in slice `n`'s window: the operation runs when the write reaches a live window. -/
def winWrite (s : State) (p n off : Nat) (op : State → State) : State :=
  let s := s.wakeEvent 2 0
  match s.bar2Blocked p n off with
  | some t => t
  | none => op s

end State

end Sys2Proof.Machine
end

