-- ==== Sys2Proof/Machine/Memory.lean ====
section
/-! DEFINITION. Word codes, page codes, reading, writing, catch-up and patrol of the memories, the
check-bit test mode, DRAM refresh and training (R859 to R888, R894 to R897). -/

namespace Sys2Proof.Machine

/-- The number under which the state keeps DRAM. -/
def dramArr : Nat := 0x80

def mprErr : Nat := 0x700FFC

/-! ### Word codes -/

/-- Bit k of a byte. -/
def bbit (b : BitVec 8) (k : Nat) : Bool := b.toNat.testBit k

/-- Exclusive or of bits. -/
def xorAll : List Bool → Bool
  | [] => false
  | b :: t => b != xorAll t

/-- The SRAM check bits of a byte: c0 to c3 in bits 0 to 3, c4 in bit 4 (R859). -/
def sramCheck (b : BitVec 8) : Nat :=
  let d (k : Nat) : Bool := bbit b k
  let c0 := xorAll [d 0, d 1, d 3, d 4, d 6]
  let c1 := xorAll [d 0, d 2, d 3, d 5, d 6]
  let c2 := xorAll [d 1, d 2, d 3, d 7]
  let c3 := xorAll [d 4, d 5, d 6, d 7]
  let c4 := xorAll ((List.range 8).map d ++ [c0, c1, c2, c3])
  flagAt c0 0 + flagAt c1 1 + flagAt c2 2 + flagAt c3 3 + flagAt c4 4

/-- The DRAM check bits of a byte: P0 in bit 0, P1 in bit 1 (R860). -/
def dramCheck (b : BitVec 8) : Nat :=
  flagAt (xorAll [bbit b 0, bbit b 2, bbit b 4, bbit b 6]) 0 +
  flagAt (xorAll [bbit b 1, bbit b 3, bbit b 5, bbit b 7]) 1

/-- What the SRAM word code finds. -/
inductive WordFind where
  | good
  | fixed (b : BitVec 8)
  | double
  deriving DecidableEq, Repr

/-- The data bit that stands at a Hamming position. -/
def hammingBit (pos : Nat) : Option Nat :=
  if pos = 3 then some 0 else if pos = 5 then some 1 else if pos = 6 then some 2
  else if pos = 7 then some 3 else if pos = 9 then some 4 else if pos = 10 then some 5
  else if pos = 11 then some 6 else if pos = 12 then some 7 else none

/-- Decode a stored SRAM word (R859). -/
def sramDecode (w : RawWord) : WordFind :=
  let syn := (sramCheck w.data % 16) ^^^ (w.check % 16)
  let odd := xorAll ((List.range 8).map (bbit w.data) ++ (List.range 5).map (fun k => natBit w.check k))
  if syn = 0 then (if odd then .fixed w.data else .good)
  else if !odd then .double
  else match hammingBit syn with
    | some k => .fixed (w.data ^^^ BitVec.ofNat 8 (2 ^ k))
    | none => if syn = 1 || syn = 2 || syn = 4 || syn = 8 then .fixed w.data else .double

/-- Does the word code of a byte fail in a way that it cannot correct? -/
def wordFails (arr : Nat) (w : RawWord) : Bool :=
  if arr = dramArr then decide (dramCheck w.data ≠ w.check % 4) else sramDecode w = .double

/-- The check bits of a byte in a memory. -/
def checkOf (arr : Nat) (b : BitVec 8) : Nat := if arr = dramArr then dramCheck b else sramCheck b

/-- Page size and interleaves of a memory (R863). -/
def pageSize (arr : Nat) : Nat := if arr = dramArr then 2048 else 4096
def interleaves (arr : Nat) : Nat := if arr = dramArr then 16 else 32

/-! ### The page code (R863) -/

/-- Multiplication in GF(2^8) with x^8 + x^4 + x^3 + x^2 + 1. -/
def gfMul (a b : Nat) : Nat :=
  (List.range 8).foldl (fun acc k =>
    let sh := (List.range k).foldl (fun x _ => if natBit x 7 then (2 * x) ^^^ 0x11D else 2 * x) a
    if natBit b k then acc ^^^ sh else acc) 0

/-- α to the k. -/
def gfPow : Nat → Nat
  | 0 => 1
  | k + 1 => gfMul 2 (gfPow k)

/-- Multiply a polynomial, highest order first, by (x − r). -/
def polyStep (p : List Nat) (r : Nat) : List Nat :=
  List.zipWith (· ^^^ ·) (p ++ [0]) (0 :: p.map (gfMul r))

/-- The generator polynomial without its leading 1. -/
def genPoly : List Nat := ((List.range 8).foldl (fun p i => polyStep p (gfPow i)) [1]).tail

/-- The 8 parity symbols of an interleave's data symbols, highest order first. -/
def rsParity (data : List Nat) : List Nat :=
  data.foldl (fun reg d =>
    let f := (reg.headD 0) ^^^ d
    List.zipWith (· ^^^ ·) (reg.tail ++ [0]) (genPoly.map (gfMul f))) (List.replicate 8 0)

/-- Parity byte `i` of a page that holds these cells. -/
def pageParity (arr : Nat) (cells : List Host.Cell) (page i : Nat) : Nat :=
  let n := interleaves arr
  let base := page * pageSize arr
  let data := (List.range 128).map (fun k => (mget cells (base + k * n + i / 8)).toNat)
  (rsParity data).getD (i % 8) 0

/-! ### Arrays -/

/-- The bytes of the SRAM arrays (R895). Those of 0x51 to 0x55 hold structures that this model keeps in
their own form. -/
def arrSize (dramGib arr : Nat) : Nat :=
  if arr = dramArr then dramGib * 2 ^ 30
  else if arr ≤ 0x47 then 0x40000
  else if arr ≤ 0x50 then 0x800000
  else if arr ≤ 0x55 then Config.arrayBytes arr
  else 0

namespace State

def arr (s : State) (a : Nat) : MemArr := tgetD s.mem a {}

def setArr (s : State) (a : Nat) (m : MemArr) : State := { s with mem := tset s.mem a m }

def modArr (s : State) (a : Nat) (f : MemArr → MemArr) : State := s.setArr a (f (s.arr a))

def dramGib (s : State) : Nat := match s.crs.inForce with
  | some c => c.dramGib
  | none => 0

/-- The raw words of a page. -/
def pageRaws (m : MemArr) (a page : Nat) : Tab RawWord :=
  m.raws.filter (fun r => decide (r.1 / pageSize a = page))

/-- Does every interleave of a page decode (R868)? Bytes whose word code fails are erasures; bytes that
pass and differ, and parity symbols that differ, are errors. -/
def pageDecodes (m : MemArr) (a page : Nat) : Bool :=
  let n := interleaves a
  let rs := pageRaws m a page
  !rs.any (fun r => r.2.gone) &&
  (List.range n).all (fun i =>
    let here := rs.filter (fun r => decide (r.1 % pageSize a % n = i))
    let e := (here.filter (fun r => wordFails a r.2)).length
    let t := (here.filter (fun r => !wordFails a r.2 && decide (r.2.data ≠ mget m.cells r.1))).length
    let p := (m.par.filter (fun q => decide (q.1 / (8 * n) = page) && decide (q.1 % (8 * n) / 8 = i) &&
      decide (q.2.toNat ≠ pageParity a m.cells page (q.1 % (8 * n))))).length
    decide (e + 2 * (t + p) ≤ 8))

def top64Count : Nat := 2 ^ 64 - 1

/-- Note an uncorrectable word (R869, R894): its event is made once per word per lap. -/
def noteUe (s : State) (a off : Nat) (dirty : Bool) : State :=
  if s.mpr.seenUe.contains (a, off) then s
  else
    let p := { s.mpr with seenUe := (a, off) :: s.mpr.seenUe }
    if a = dramArr then
      ({ s with mpr := { p with ueDram := satAdd p.ueDram 1 (2 ^ 32 - 1), lastUe := off } }).ev 0x1C00 noSlice
        (item 5 off ++ item 1 (flagAt dirty 0))
    else
      ({ s with mpr := { p with ueSram := satAdd p.ueSram 1 (2 ^ 32 - 1),
                                lastUe := 2 ^ 63 + a * 2 ^ 56 + off } }).ev 0x1C01 noSlice
        (item 1 a ++ item 3 off ++ item 1 (flagAt dirty 0))

/-- Count a correction. -/
def noteCe (s : State) (a : Nat) : State :=
  if a = dramArr then { s with mpr := { s.mpr with ceDram := satAdd s.mpr.ceDram 1 top64Count } }
  else { s with mpr := { s.mpr with ceSram := satAdd s.mpr.ceSram 1 top64Count } }

/-- A byte as read (R866 to R868, R873): the byte, and whether it is uncorrectable. -/
def memByte (s : State) (a off : Nat) : State × BitVec 8 × Bool :=
  let m := s.arr a
  match tget m.raws off with
  | none => (s, mget m.cells off, false)
  | some w =>
    let page := off / pageSize a
    let viaPage : State × BitVec 8 × Bool :=
      let dirty := (tget m.dirty page).isSome
      if !dirty && pageDecodes m a page then
        ((s.setArr a { m with raws := m.raws.filter (fun r => decide (r.1 / pageSize a ≠ page)),
                              par := m.par.filter (fun q => decide (q.1 / (8 * interleaves a) ≠ page)) }).noteCe a,
         mget m.cells off, false)
      else (s.noteUe a off dirty, w.data, true)
    if a = dramArr then (if wordFails a w then viaPage else (s, w.data, false))
    else match sramDecode w with
      | .good => (s, w.data, false)
      | .double => viaPage
      | .fixed b =>
        let raws := if b = mget m.cells off then tdel m.raws off
                    else tset m.raws off { data := b, check := sramCheck b }
        ((s.setArr a { m with raws := raws }).noteCe a, b, false)

/-- Bytes as read, and whether one of them is uncorrectable. -/
def memRead (s : State) (a off : Nat) : Nat → State × Bytes × Bool
  | 0 => (s, [], false)
  | n + 1 =>
    let r := s.memByte a off
    let t := r.1.memRead a (off + 1) n
    (t.1, r.2.1 :: t.2.1, r.2.2 || t.2.2)

/-! ### Words of DRAM below the slice regions: the CMB and the write buffer (R62, R869) -/

/-- The raw words there for which `p` holds. -/
def privWords (s : State) (p : Nat → Bool) : List Nat :=
  ((s.arr dramArr).raws.filter (fun r => decide (r.1 < s.regionBase * 2 ^ 20) && p r.1)).map Prod.fst

/-- Is one of them uncorrectable as it reads (R868, R873)? -/
def wordsBad (s : State) (p : Nat → Bool) : Bool := (s.privWords p).any (fun o => (s.memByte dramArr o).2.2)

/-- They are read: each is corrected or makes its event (R867, R869). -/
def readWords (s : State) (p : Nat → Bool) : State := (s.privWords p).foldl (fun s o => (s.memByte dramArr o).1) s

/-- New data is written there, with check bits of its own (R861). -/
def freshWords (s : State) (p : Nat → Bool) : State :=
  if s.privWords p = [] then s
  else s.modArr dramArr (fun m =>
    { m with raws := m.raws.filter (fun r => !(decide (r.1 < s.regionBase * 2 ^ 20) && p r.1)) })

/-- The DRAM bytes of `len` bytes of the CMB at `off`. -/
def cmbHas (off len o : Nat) : Bool := decide (off ≤ Config.cmbByte o) && decide (Config.cmbByte o < off + len)

/-- Write bytes of the CMB. -/
def cmbPut (s : State) (off : Nat) (d : Bytes) : State :=
  { s.freshWords (cmbHas off d.length) with cmb := mwrite s.cmb off d }

/-- Make a page dirty, or clean where a write covers all of it (R870, R872). -/
def touchPage (m : MemArr) (old : List Host.Cell) (a lo hi page : Nat) : MemArr :=
  let b := page * pageSize a
  if lo ≤ b && b + pageSize a ≤ hi then
    { m with dirty := tdel m.dirty page, late := m.late.filter (· ≠ page),
             queue := m.queue.filter (· ≠ page),
             par := m.par.filter (fun q => decide (q.1 / (8 * interleaves a) ≠ page)) }
  else if (tget m.dirty page).isSome then m
  else { m with dirty := tset m.dirty page
                  (old.filter (fun c => decide (b ≤ c.1) && decide (c.1 < b + pageSize a))),
                late := m.late ++ [page] }

/-- Write bytes with their check bits (R861). -/
def memWrite (s : State) (a off : Nat) (bs : Bytes) : State :=
  if bs = [] then s
  else
    let m := s.arr a
    let hi := off + bs.length
    let m' := { m with cells := mwrite m.cells off bs,
                       raws := m.raws.filter (fun r => decide (r.1 < off) || decide (hi ≤ r.1)) }
    let p0 := off / pageSize a
    let p1 := (hi - 1) / pageSize a
    s.setArr a ((List.range (p1 - p0 + 1)).foldl (fun m' i => touchPage m' m.cells a off hi (p0 + i)) m')

/-- Clear `[lo, hi)` of a memory: its bytes read zero, with valid codes (R882). -/
def memClear (s : State) (a lo hi : Nat) : State :=
  s.modArr a (fun m =>
    let out (x : Nat) : Bool := decide (x < lo) || decide (hi ≤ x)
    let outP (p : Nat) : Bool := decide ((p + 1) * pageSize a ≤ lo) || decide (hi ≤ p * pageSize a)
    { cells := mclear m.cells lo hi, raws := m.raws.filter (fun r => out r.1),
      dirty := m.dirty.filter (fun d => outP d.1), late := m.late.filter outP,
      queue := m.queue.filter outP,
      par := m.par.filter (fun q => outP (q.1 / (8 * interleaves a))) })

/-! ### Catch-up and patrol (R871 to R876) -/

/-- Recompute the page code of one page: what its words read as is what its code now covers. -/
def recompute (s : State) (a page : Nat) : State :=
  let s := (pageRaws (s.arr a) a page).foldl (fun s r =>
    let q := s.memByte a r.1
    if q.2.2 then
      q.1.modArr a (fun m => { m with raws := tmod m.raws r.1 (fun w => { w with gone := true }) })
    else q.1.modArr a (fun m => { m with cells := mset m.cells r.1 q.2.1, raws := tdel m.raws r.1 })) s
  s.modArr a (fun m => { m with dirty := tdel m.dirty page, queue := m.queue.filter (· ≠ page),
                                par := m.par.filter (fun q => decide (q.1 / (8 * interleaves a) ≠ page)) })

/-- The subchannels of the populated channels. -/
def subchannels (s : State) : Nat := if s.dramGib = 16 then 4 else 8

/-- The subchannel of a DRAM segment: a slice region rotates through its bank groups (R881). Elsewhere
the spec gives no rule. -/
def segSub (s : State) (seg : Nat) : Nat :=
  let mib := seg * 2048 / 2 ^ 20 - s.regionBase
  match s.slices.find? (fun p => decide (p.2.dramMib ≠ 0) && decide (p.2.dramBase ≤ mib) &&
      decide (mib < p.2.dramBase + p.2.dramMib)) with
  | some (_, x) => (x.bgroups.getD ((seg - (s.regionBase + x.dramBase) * 512) % max 1 x.bgroups.length) 0) / 8
  | none => seg % s.subchannels

/-- The pages that a memory's catch-up units recompute in one stride. -/
def catchNow (s : State) (a : Nat) (q : List Nat) : List Nat :=
  if a = dramArr then
    (List.range s.subchannels).filterMap (fun u => q.find? (fun seg => s.segSub seg = u))
  else q.take 1

/-- One stride of catch-up. -/
def catchUpTick (s : State) : State :=
  s.mem.foldl (fun s p => (s.catchNow p.1 p.2.queue).foldl (fun s g => s.recompute p.1 g) s) s

/-- The lap boundary of catch-up (R871, R874). -/
def catchUpLap (s : State) : State :=
  let back := s.mem.any (fun p => decide (p.2.queue ≠ []))
  let s := if back then ({ s with mpr := { s.mpr with exceeded := true } }).ev 0x1C05 noSlice else s
  { s with mem := tmap s.mem (fun _ m =>
      { m with queue := m.queue ++ sortNat m.late, late := [] }),
           mpr := { s.mpr with seenUe := [] } }

/-- Read and repair every raw word of a memory whose page a pass covers (R875, R876). -/
def patrol (s : State) (a : Nat) : State :=
  (s.arr a).raws.foldl (fun s r => (s.memByte a r.1).1) s

/-- A DRAM patrol checks every interleave of a clean segment by syndrome, even where every word code
passes (R875). -/
def patrolDram (s : State) : State :=
  let s := s.patrol dramArr
  let pages := ((s.arr dramArr).raws.map (fun r => r.1 / 2048)).eraseDups
  pages.foldl (fun s p =>
    let m := s.arr dramArr
    if (tget m.dirty p).isNone && pageDecodes m dramArr p then
      (s.setArr dramArr { m with raws := m.raws.filter (fun r => decide (r.1 / 2048 ≠ p)) }).noteCe dramArr
    else s) s

/-- The passes that end at a lap boundary. -/
def patrolLap (s : State) : State :=
  let s := if s.lap % 64 = 0 then
      (s.mem.filter (fun p => decide (p.1 ≠ dramArr))).foldl (fun s p => s.patrol p.1) s
    else s
  let n := s.mpr.patrolLaps + 1
  if s.forceNat 0x700040 0x10000 ≤ n then
    let s := s.patrolDram
    { s with mpr := { s.mpr with patrolLaps := 0, passes := (s.mpr.passes + 1) % 2 ^ 32 } }
  else { s with mpr := { s.mpr with patrolLaps := n } }

/-! ### Check-bit test mode (R877, R878) -/

/-- SPACE, ARRAY and OFFSET of MPR_TEST_ADDR_64: the memory and the byte offset. -/
def testAddr (s : State) : Nat × Nat :=
  let v := s.rwNat 0x700108
  (if natBit v 63 then natBits v 62 56 else dramArr, natBits v 55 0)

/-- A test operation on an offset within the memory. -/
def testOp (s : State) (op : Nat → Nat → State) : State :=
  let p := s.testAddr
  if p.2 + 4 ≤ arrSize s.dramGib p.1 then
    let t := op p.1 p.2
    { t with mpr := { t.mpr with testResult := 0 } }
  else { s with mpr := { s.mpr with testResult := 1 } }

/-- The physical word of a byte. -/
def rawAt (s : State) (a off : Nat) : RawWord :=
  (tget (s.arr a).raws off).getD { data := mget (s.arr a).cells off, check := checkOf a (mget (s.arr a).cells off) }

/-- The bits of each byte's check field in MPR_TEST_CHECK (R894). -/
def checkWidth (a : Nat) : Nat := if a = dramArr then 2 else 5

/-- READ_RAW. -/
def testReadRaw (s : State) (a off : Nat) : State :=
  let ws := (List.range 4).map (fun k => s.rawAt a (off + k))
  let d := leNat (ws.map RawWord.data)
  let c := (numbered4 ws).foldl (fun acc p => acc + p.2.check % 2 ^ checkWidth a * 2 ^ (checkWidth a * p.1)) 0
  (s.rwSet 0x700110 (BitVec.ofNat 64 d)).rwSet 0x700114 (BitVec.ofNat 64 c)
where
  numbered4 (ws : List RawWord) : List (Nat × RawWord) := (List.range 4).zip ws

/-- WRITE_RAW: the dirty state and page code stay as they are. -/
def testWriteRaw (s : State) (a off : Nat) : State :=
  let d := s.rwNat 0x700110
  let c := s.rwNat 0x700114
  (List.range 4).foldl (fun s k =>
    let w : RawWord := { data := BitVec.ofNat 8 (d / 256 ^ k), check := natBits c (checkWidth a * (k + 1) - 1) (checkWidth a * k) }
    s.modArr a (fun m =>
      let g := mget m.cells (off + k)
      { m with raws := if w.data = g && w.check = checkOf a g then tdel m.raws (off + k)
                       else tset m.raws (off + k) w })) s

/-- Parity byte `i` of a page as the array holds it: a stale code is the code of the older bytes. -/
def parityAt (s : State) (a page i : Nat) : BitVec 8 :=
  let m := s.arr a
  match tget m.par (page * (8 * interleaves a) + i) with
  | some b => b
  | none =>
    let cells := (tget m.dirty page).getD m.cells
    BitVec.ofNat 8 (pageParity a cells page i)

/-- READ_PAGE. -/
def testReadPage (s : State) (index a off : Nat) : State :=
  let bs := (List.range 4).map (fun k => s.parityAt a (off / pageSize a) (4 * index + k))
  s.rwSet 0x700110 (BitVec.ofNat 64 (leNat bs))

/-- WRITE_PAGE. -/
def testWritePage (s : State) (index a off : Nat) : State :=
  let page := off / pageSize a
  let d := s.rwNat 0x700110
  (List.range 4).foldl (fun s k => s.modArr a (fun m =>
    { m with par := tset m.par (page * (8 * interleaves a) + 4 * index + k) (BitVec.ofNat 8 (d / 256 ^ k)) })) s

/-- A write of MPR_TEST_CMD (R877, R894): an INDEX beyond the memory's parity groups is a reserved value. -/
def testCommand (s : State) (req : Requester) (index : Nat) (op : Nat → Nat → State → State) : State :=
  s.bar0Write req 0x700100 (fun s => match req with
    | .core _ =>
      if s.testAddr.1 = dramArr && decide (31 < index) then s.discard mprErr 0 0x700100
      else s.testOp (fun a off => op a off s)
    | _ => (s.discard mprErr 0 0x700100).ev 0x2C00 noSlice)

/-- The READ_RAW, WRITE_RAW, READ_PAGE and WRITE_PAGE commands. -/
def cmdReadRaw (s : State) (req : Requester) : State := s.testCommand req 0 (fun a o s => s.testReadRaw a o)
def cmdWriteRaw (s : State) (req : Requester) : State := s.testCommand req 0 (fun a o s => s.testWriteRaw a o)
def cmdReadPage (s : State) (req : Requester) (index : Nat) : State :=
  s.testCommand req index (fun a o s => s.testReadPage index a o)
def cmdWritePage (s : State) (req : Requester) (index : Nat) : State :=
  s.testCommand req index (fun a o s => s.testWritePage index a o)

/-! ### The DRAM controller (R883 to R888) -/

def drc (s : State) (c : Nat) : Drc := tgetD s.drcs c {}

def modDrc (s : State) (c : Nat) (f : Drc → Drc) : State := { s with drcs := tset s.drcs c (f (s.drc c)) }

/-- One tick of a subchannel's refresh (R883 to R886): `busy` is whether a unit that begins at this tick
uses the subchannel. -/
def refreshOne (stride sub : Nat) (busy : Bool) (r : Refresh) : Refresh :=
  let due := (stride + sub) % (if r.hot then 3 else 7) = 0
  if due then
    if 8 ≤ r.pending then { r with forced := satAdd r.forced 1 255 }
    else if busy then
      { r with pending := r.pending + 1, maxPending := max r.maxPending (r.pending + 1),
               postponed := satAdd r.postponed 1 0xFFFF }
    else r
  else if !busy && decide (0 < r.pending) then { r with pending := r.pending - 1 }
  else r

/-- Whether subchannel `sub` is used by a unit of a stride. The spec gives no traffic model, so this is
a free choice. -/
def subBusy (s : State) (sub : Nat) : Bool := Config.freeBool (s.free * 8 + sub)

/-- The refresh of a tick on every trained subchannel. -/
def refreshTick (s : State) : State :=
  let forced := (List.range 8).filter (fun u =>
    let d := s.drc (u / 2)
    let r := d.refresh.getD (u % 2) {}
    d.trained && decide (8 ≤ r.pending) && decide ((s.stride + u) % (if r.hot then 3 else 7) = 0))
  let s' := { s with
    drcs := tmap s.drcs (fun c d =>
      if d.trained then
        { d with refresh := [refreshOne s.stride (2 * c) (s.subBusy (2 * c)) (d.refresh.getD 0 {}),
                             refreshOne s.stride (2 * c + 1) (s.subBusy (2 * c + 1)) (d.refresh.getD 1 {})] }
      else d),
    free := s.free + 1 }
  forced.foldl (fun s u => s.ev 0x0C03 noSlice (item 1 u)) s'

/-- DRAM_TEMP_CHANGE (R883). -/
def dramTemp (s : State) (sub : Nat) (hot : Bool) : State :=
  let c := sub / 2
  let r := (s.drc c).refresh.getD (sub % 2) {}
  if r.hot = hot then s
  else (s.modDrc c (fun d => { d with refresh := lset d.refresh (sub % 2) { r with hot := hot } })).ev
    0x3C00 noSlice

/-- The steps of a passing window. -/
def windowWidth (first last : Nat) : Nat := if last < first then 0 else last - first + 1

def laneOf (w : LaneSweep) : Lane :=
  { rdCentre := (w.rdFirst + w.rdLast) / 2, rdWidth := min 255 (windowWidth w.rdFirst w.rdLast),
    wrCentre := (w.wrFirst + w.wrLast) / 2, wrWidth := min 255 (windowWidth w.wrFirst w.wrLast) }

def laneFails (w : LaneSweep) : Bool :=
  decide (windowWidth w.rdFirst w.rdLast < 16) || decide (windowWidth w.wrFirst w.wrLast < 16)

/-- Is a DRAM channel populated (R879)? -/
def drcPopulated (s : State) (c : Nat) : Bool :=
  s.hasCourse && decide (c < 4) && (decide (c < 2) || decide (s.dramGib ≠ 16))

/-- DRAM_TRAINING of a channel (R887, R888). -/
def trainDram (s : State) (c : Nat) (ws : List LaneSweep) : State :=
  if !s.drcPopulated c then s
  else
    let bad := ((List.range 10).zip ws).filter (fun p => laneFails p.2)
    let rate := (match s.crs.inForce with
      | some k => k.dramMts
      | none => 0) / 100
    if bad = [] && ws.length = 10 then
      (s.modDrc c (fun d => { d with rate := rate, trained := true, trainFail := false, populated := true,
                                     lanes := ws.map laneOf })).ev 0x0C00 noSlice (item 1 c ++ item 1 rate)
    else
      bad.foldl (fun s p => s.ev 0x1C02 noSlice (item 1 c ++ item 1 p.1))
        (s.modDrc c (fun d => { d with rate := 0, trained := false, trainFail := true, populated := true,
                                       lanes := ws.map laneOf }))

end State

end Sys2Proof.Machine
end

