-- ==== Sys2Proof/Machine/Norsor.lean ====
section
/-! DEFINITION. The Norsor core: address maps, accesses, special registers, exception entry, and what
each group of instructions checks and does (R436 to R498, R512 to R543). -/

namespace Sys2Proof.Machine

/-- An exception that an instruction raises (R487): cause, subcode and the address for EADDR. -/
structure Exc where
  cause : Nat
  sub : Nat
  eaddr : Dword := 0
  deriving DecidableEq, Repr

/-- What an instruction ends in: the next state, with the target of a jump; or an exception, in the
state that keeps what its accesses found. -/
abbrev Exe := Except (Exc × State) (State × Option Dword)

/-- What a core reaches outside this file: BAR0 reads and writes, and what an exception or a double
fault means for the heat or the device. -/
structure Bus where
  read : State → Nat → Nat → State × BitVec 32
  write : State → Nat → Nat → BitVec 32 → State
  fault : State → Nat → Nat → Nat → Dword → State
  double : State → Nat → Nat → Nat → Dword → State

namespace State

def core (s : State) (c : Nat) : Core := tgetD s.cores c {}

def setCore (s : State) (c : Nat) (k : Core) : State := { s with cores := tset s.cores c k }

def modCore (s : State) (c : Nat) (f : Core → Core) : State := s.setCore c (f (s.core c))

/-- The core is present on the variant (R436). -/
def corePresent (s : State) (c : Nat) : Bool := decide (c < s.coresPresent) || (decide (64 ≤ c) && decide (c < 72))

/-- Tenant cores are 0 to 63 (R436). -/
def isTenant (c : Nat) : Bool := decide (c < 64)

/-- The slice that holds a core. -/
def coreOwner (s : State) (c : Nat) : Option Nat :=
  (s.slices.find? (fun p => p.2.cores.contains c)).map Prod.fst

/-- SOURCE of a core's events. -/
def coreSrc (s : State) (c : Nat) : Nat := (s.coreOwner c).getD noSlice

/-- The core runs from its internal oscillator (R437): its cluster has not switched to its PLL. -/
def onOscillator (s : State) (c : Nat) : Bool :=
  if isTenant c then !natBit s.pwr.clusterPll (c / 8) else !s.pwr.mgmtPll

/-! ### Address maps (R451 to R456) -/

/-- Where an access goes. -/
inductive Place where
  | mem (arr off : Nat)
  | bar0 (off : Nat)
  | rom (off : Nat)
  deriving DecidableEq, Repr

/-- Every byte of `[a, a + n)` lies in a bank of HBANKS. -/
def banksVisible (mask a n : Nat) : Bool :=
  (List.range ((a + n - 1) / 0x100000 - a / 0x100000 + 1)).all (fun i =>
    natBit mask ((a / 0x100000 + i) - 0x10))

/-- The place of an access of `n` bytes at `a`, if every byte of it is in a range permitted for its kind:
`store` for stores, `rmw` for atomics and decimal destinations. -/
def place (s : State) (c : Nat) (k : Core) (a n : Nat) (store : Bool) : Option Place :=
  let shared := if isTenant c then 0x48 + c / 8 else 0x50
  if 0x01000000 ≤ a && a + n ≤ 0x01800000 && (k.marshal || banksVisible k.hbanks.toNat a n) then
    some (.mem shared (a - 0x01000000))
  else if k.marshal then
    if a + n ≤ 0x40000 then some (.mem c a)
    else if 0x40000000 ≤ a && a + n ≤ 0x44000000 then some (.bar0 (a - 0x40000000))
    else if !store && decide (0x80000000 ≤ a) && decide (a + n ≤ 0x80040000) then some (.rom (a - 0x80000000))
    else if 0x1000000000 ≤ a && a + n ≤ 0x1000000000 + s.dramGib * 2 ^ 30 then
      some (.mem dramArr (a - 0x1000000000))
    else none
  else if a + n ≤ 0x3F000 then some (.mem c a)
  else if 0x100000000 ≤ a && a + n ≤ 0x100000000 + k.hsize.toNat then
    some (.mem dramArr (k.hbase.toNat + (a - 0x100000000)))
  else none

/-- Fetching is permitted from a halfword (R456). -/
def fetchable (k : Core) (a : Nat) : Bool :=
  if k.marshal then decide (a + 2 ≤ 0x40000) || (decide (0x80000000 ≤ a) && decide (a + 2 ≤ 0x80040000))
  else decide (a + 2 ≤ 0x3F000)

/-- The first halfword of an instruction that cannot be fetched (R483). -/
def fetchStop (k : Core) (len : Nat) : Option Dword :=
  ((List.range (len / 2)).map (fun i => k.pc + BitVec.ofNat 64 (2 * i))).find? (fun a => !fetchable k a.toNat)

/-- Event 0x1700 of an uncorrectable word (R463, R498). -/
def coreUe (s : State) (c : Nat) (k : Core) (a : Dword) : State :=
  s.ev 0x1700 (s.coreSrc c) (item 1 c ++ item 4 k.pc.toNat ++ item 5 a.toNat)

/-- Read `n` bytes for a core. `sub` is the subcode of an access that is not permitted, and `align` says
whether the access must be aligned to its size. -/
def coreRead (bus : Bus) (s : State) (c : Nat) (k : Core) (a : Dword) (n sub : Nat) (align : Bool) :
    Except (Exc × State) (State × Bytes) :=
  let fail (x : Nat) : Except (Exc × State) (State × Bytes) := .error ({ cause := 2, sub := x, eaddr := a }, s)
  match s.place c k a.toNat n false with
  | none => fail sub
  | some p =>
    if align && decide (a.toNat % n ≠ 0) then fail 4
    else match p with
      | .mem arr off =>
        let r := s.memRead arr off n
        if r.2.2 then .error ({ cause := 2, sub := 5, eaddr := a }, r.1.coreUe c k a) else .ok (r.1, r.2.1)
      | .bar0 off =>
        if n = 4 && align then
          let r := bus.read s c off
          .ok (r.1, leBytes 4 r.2.toNat)
        else fail 6
      | .rom off => .ok (s, padTo n (bytesAt Config.starterRom off n))

/-- May a core store `n` bytes (R455, R457)? -/
def coreMayStore (s : State) (c : Nat) (k : Core) (a : Dword) (n sub : Nat) (align word : Bool) : Option Exc :=
  match s.place c k a.toNat n true with
  | none => some { cause := 2, sub := sub, eaddr := a }
  | some p =>
    if align && decide (a.toNat % n ≠ 0) then some { cause := 2, sub := 4, eaddr := a }
    else match p with
      | .bar0 _ => if n = 4 && word then none else some { cause := 2, sub := 6, eaddr := a }
      | _ => none

/-- Store bytes where `coreMayStore` has allowed it. -/
def coreStore (bus : Bus) (s : State) (c : Nat) (k : Core) (a : Dword) (bs : Bytes) : State :=
  match s.place c k a.toNat bs.length true with
  | some (.mem arr off) => s.memWrite arr off bs
  | some (.bar0 off) => bus.write s c off (BitVec.ofNat 32 (leNat bs))
  | _ => s

/-! ### Special registers (R443 to R450) -/

/-- FEATn (R486). -/
def feat (s : State) (c n : Nat) : Dword :=
  match n with
  | 0 => 0x0100
  | 1 => 0x033F2001
  | 2 => 0x01004003
  | 3 => 0x0000000400080100
  | 4 => if s.onOscillator c then 0x00C80320 else 0x01F407D0
  | _ => 0

def srListed (n : Nat) : Bool := decide (n ≤ 4) || (decide (8 ≤ n) && decide (n ≤ 19))
def srMarshal (n : Nat) : Bool := decide (8 ≤ n)

/-- Is a special register read-only in the current mode (R443)? -/
def srReadOnly (k : Core) (n : Nat) : Bool := n = 3 || n = 4 || (n = 2 && !k.marshal)

/-- A special register's value (R443). -/
def srRead (s : State) (c : Nat) (k : Core) (n : Nat) : Dword :=
  match n with
  | 0 => k.flg
  | 1 => k.dcx
  | 2 => k.cyc
  | 3 => BitVec.ofNat 64 s.stride
  | 4 => BitVec.ofNat 64 c
  | 8 => BitVec.ofNat 64 (flagAt k.exl 2 + flagAt k.pmode 1 + 1)
  | 9 => k.epc
  | 10 => k.ecause
  | 11 => k.eaddr
  | 12 => k.mvec
  | 13 => k.hbase
  | 14 => k.hsize
  | 15 => k.hbanks
  | _ => k.scratch.getD (n - 16) 0

/-- Does a value set a reserved bit of a special register, or place a reserved value (R447)? -/
def srValueBad (n v : Nat) : Bool :=
  match n with
  | 0 => decide (64 ≤ v)
  | 1 => decide (512 ≤ v) || decide (natBits v 7 3 ≠ 0) || decide (4 < natBits v 2 0)
  | 8 => decide (8 ≤ v)
  | 9 => v % 2 = 1
  | 10 => decide (65536 ≤ v)
  | 12 => decide (v % 512 ≠ 0)
  | 13 => decide (2 ^ 37 ≤ v) || decide (v % 2 ^ 20 ≠ 0)
  | 14 => decide (2 ^ 38 ≤ v) || decide (v % 2 ^ 20 ≠ 0) || decide (131072 < v / 2 ^ 20)
  | 15 => decide (256 ≤ v)
  | _ => false

/-- Write a special register. -/
def srWrite (k : Core) (n : Nat) (v : Dword) : Core :=
  match n with
  | 0 => { k with flg := v }
  | 1 => { k with dcx := v }
  | 2 => { k with cyc := v }
  | 8 => { k with exl := v.getLsbD 2, pmode := v.getLsbD 1 }
  | 9 => { k with epc := v }
  | 10 => { k with ecause := v }
  | 11 => { k with eaddr := v }
  | 12 => { k with mvec := v }
  | 13 => { k with hbase := v }
  | 14 => { k with hsize := v }
  | 15 => { k with hbanks := v }
  | 16 | 17 | 18 | 19 => { k with scratch := setReg k.scratch (n - 16) v }
  | _ => k

/-! ### Entry to marshal mode (R490, R494 to R497) -/

/-- The address of the vector of a cause. -/
def vector (k : Core) (cause : Nat) : Dword := k.mvec + BitVec.ofNat 64 (0x40 * cause)

/-- Take an entry (R490). -/
def enter (k : Core) (cause sub : Nat) (epc eaddr : Dword) : Core :=
  { k with epc := epc, ecause := BitVec.ofNat 64 (sub * 256 + cause), eaddr := eaddr,
           pmode := k.marshal, exl := true, marshal := true, pc := vector k cause, waiting := false }

/-- ERET's return (R491). -/
def eretCore (k : Core) : Core := { k with pc := k.epc, marshal := k.pmode, exl := false }

/-- Raise an exception, or take an SVC, on a core: an entry, or a double fault while EXL is 1 (R490,
R496). `epc` is what EPC receives. -/
def raise (bus : Bus) (s : State) (c cause sub : Nat) (epc eaddr : Dword) : State :=
  let k := s.core c
  let s := if cause = 1 && sub = 4 && !k.marshal then
      s.ev 0x2700 (s.coreSrc c) (item 1 c ++ item 4 epc.toNat)
    else s
  if k.exl then
    let s := (s.setCore c { k with halted := true, dfault := true }).ev 0x1701 (s.coreSrc c)
      (item 1 c ++ item 4 epc.toNat ++ item 2 (sub * 256 + cause))
    bus.double s c cause sub epc
  else
    let s' := s.setCore c (enter k cause sub epc eaddr)
    if !k.marshal && decide (cause ≠ 7) && decide (cause ≠ 5) then bus.fault s' c cause sub epc else s'

/-- CYC is zero or less (R493). -/
def spent (k : Core) : Bool := !k.marshal && decide (k.cyc.toInt ≤ 0)

/-- The entry that is due at an instruction boundary, in the order of R494: its cause and subcode. -/
def entryDue (k : Core) : Option (Nat × Nat) :=
  if k.exl then none
  else if k.stopReq then some (7, 1)
  else if k.suspReq then some (7, 2)
  else if spent k then some (5, 0)
  else none

/-- An entry takes the place of a REP.U that is held and so has not begun (R30, R492). -/
def unheld (k : Core) : Core := match k.hold with
  | .repu _ _ => { k with hold := .none }
  | _ => k

/-- Take the entry that is due at a boundary, if one is. EPC is the instruction not yet begun. The
runtime holds a tenant core whose budget is spent (R578). -/
def takeEntry (s : State) (c : Nat) : Option State :=
  let k := s.core c
  match entryDue k with
  | none => none
  | some (cause, sub) =>
    let k' := enter k cause sub k.pc 0
    let k' := if cause = 7 && sub = 1 then { k' with stopReq := false }
              else if cause = 7 then { k' with suspReq := false }
              else if isTenant c then { k' with hold := .budget } else k'
    some (s.setCore c (unheld k'))

/-! ### What makes an instruction illegal (R444 to R447, R467, R471 to R479, R531, R532) -/

def when' (b : Bool) (sub : Nat) : List Nat := if b then [sub] else []

/-- Subcodes that apply to a 16-bit instruction. -/
def ill16 (c : Nat) (k : Core) (i : Nat) : List Nat :=
  let op := op16 i
  let d := d16 i
  let g := s16 i
  if op = 0 then
    when' (d = 0 || decide (7 ≤ d)) 1 ++ when' (decide (g ≠ 0)) 2 ++
    when' ((d = 4 || d = 5 || d = 6) && !k.marshal) 4 ++ when' (d = 4 && k.marshal && !isTenant c && !k.pmode) 4
  else if op = 0x0C then when' (decide (11 ≤ g)) 1
  else if op = 0x11 then when' (decide (d ≠ 0)) 2
  else if op = 0x15 || op = 0x16 then when' (decide (g ≠ 0)) 2
  else when' (decide (0x17 ≤ op)) 1

/-- Subcodes that apply to an access to a special register. -/
def illSr (k : Core) (n : Nat) : List Nat :=
  when' (!srListed n) 3 ++ when' (srListed n && srMarshal n && !k.marshal) 4

/-- Subcodes of an MM load or store: a base update that meets its data register, an odd LD.Q or ST.Q. -/
def illBase (load : Bool) (size gd gb mode : Nat) : List Nat :=
  when' (load && (mode = 1 || mode = 2) && (gb = gd || (size = 16 && gb = gd + 1))) 3 ++
  when' (size = 16 && gd % 2 = 1) 8

/-- Subcodes that apply to a 32-bit instruction that is no repeat word. -/
def ill32 (k : Core) (i : Nat) : List Nat :=
  let op := op32 i
  let low9 := decide (natBits i 8 0 ≠ 0)
  if op ≤ 0x0E then when' low9 2
  else if op = 0x0F then when' (low9 || decide (d32 i ≠ 0)) 2
  else if op ≤ 0x13 then when' low9 2
  else if op ≤ 0x17 then []
  else if op ≤ 0x1A then when' (decide (natBits i 13 6 ≠ 0)) 2
  else if op = 0x1B then when' (decide (d32 i ≠ 0)) 2
  else if op = 0x1C then []
  else if op = 0x1D then when' (decide (imm14 i ≠ 0)) 2 ++ illSr k (a32 i)
  else if op = 0x1E then
    when' (decide (imm14 i ≠ 0)) 2 ++ illSr k (d32 i) ++
    when' (srListed (d32 i) && srValueBad (d32 i) (k.reg (a32 i)).toNat) 3 ++
    when' (srListed (d32 i) && (k.marshal || !srMarshal (d32 i)) && srReadOnly k (d32 i)) 5
  else if op = 0x1F then when' (decide (imm14 i ≠ 0) || decide (8 ≤ a32 i)) 2
  else if op ≤ 0x27 then illMM i ++ illBase true (loadSize (op - 0x20)) (d32 i) (a32 i) (mode32 i)
  else if op ≤ 0x2C then illMM i ++ illBase false (storeSize (op - 0x28)) (d32 i) (a32 i) (mode32 i)
  else if op = 0x2D then illMM i ++ when' (mode32 i = 1 || mode32 i = 2) 3
  else if op = 0x2E || op = 0x30 then when' (decide (ext32 i ≠ 0)) 2 ++ when' (decide (mode32 i ≠ 0)) 3
  else if op = 0x2F then when' (decide (natBits i 5 0 ≠ 0)) 2 ++ when' (decide (mode32 i ≠ 0)) 3
  else if op = 0x31 then when' (natBits i 23 20 = 15) 3
  else if op = 0x32 then []
  else if op = 0x33 then when' (decide (a32 i ≠ 0) || decide (imm14 i ≠ 0)) 2
  else if op = 0x34 then when' (decide (natBits i 23 6 ≠ 0)) 2
  else if op = 0x35 then when' (decide (natBits i 23 14 ≠ 0)) 2
  else if 0x38 ≤ op && op ≤ 0x3A then when' low9 2
  else if op = 0x3B then when' (low9 || decide (d32 i ≠ 0)) 2
  else [1]

/-- Subcodes that apply to a 48-bit instruction. -/
def ill48 (i : Nat) : List Nat :=
  let op := op48 i
  if op ≤ 3 then when' (decide (natBits i 34 32 ≠ 0)) 2
  else if 0x08 ≤ op && op ≤ 0x0F then illMD i ++ when' (op = 0x0F && d48 i % 2 = 1) 8
  else if 0x10 ≤ op && op ≤ 0x14 then illMD i ++ when' (op = 0x14 && d48 i % 2 = 1) 8
  else if op = 0x15 then illMD i
  else if 0x20 ≤ op && op ≤ 0x28 then []
  else if op = 0x29 then when' (decide (natBits i 12 0 ≠ 0)) 2 ++ when' (natBits i 34 28 = 64) 3
  else if op = 0x2A || op = 0x2B then when' (decide (natBits i 14 0 ≠ 0)) 2
  else [1]

/-- Subcodes that apply to an instruction of any length. -/
def illWord (c : Nat) (k : Core) : RepWord → List Nat
  | .w16 i => ill16 c k i.toNat
  | .w32 i => ill32 k i.toNat
  | .w48 i => ill48 i.toNat

/-- The registers that an instruction names in its register fields (R532). -/
def namesReg (w : RepWord) : List Nat :=
  match w with
  | .w16 i =>
    let n := i.toNat
    let op := op16 n
    if op = 0x00 then []
    else if op = 0x0C || op = 0x0D || op = 0x0E || op = 0x15 || op = 0x16 then [d16 n]
    else if op = 0x11 then [s16 n]
    else [d16 n, s16 n]
  | .w32 i =>
    let n := i.toNat
    let op := op32 n
    let q := if op = 0x27 || op = 0x2C then [d32 n + 1] else []
    let gi := if mode32 n = 3 then [natBits n 10 6] else []
    if op ≤ 0x0E || (decide (0x10 ≤ op) && decide (op ≤ 0x13)) || (decide (0x38 ≤ op) && decide (op ≤ 0x3A)) then
      [d32 n, a32 n, b32 n]
    else if op = 0x0F || op = 0x3B then [a32 n, b32 n]
    else if op ≤ 0x1A then [d32 n, a32 n]
    else if op = 0x1B || op = 0x1E then [a32 n]
    else if op = 0x1C || op = 0x1D || op = 0x1F then [d32 n]
    else if op ≤ 0x2D then [d32 n, a32 n] ++ q ++ gi
    else if op = 0x2F then [d32 n, a32 n, natBits n 10 6]
    else if op = 0x2E || op = 0x30 then [d32 n, a32 n]
    else []
  | .w48 i =>
    let n := i.toNat
    let op := op48 n
    let q := if op = 0x0F || op = 0x14 then [d48 n + 1] else []
    let gi := if mode48 n = 5 then [natBits n 26 22] else []
    if op ≤ 3 then [d48 n]
    else if op ≤ 0x15 then [d48 n, b48 n] ++ q ++ gi
    else if op ≤ 0x28 then [natBits n 29 25, natBits n 14 10]
    else if op = 0x29 then [natBits n 27 23]
    else [natBits n 34 30, natBits n 29 25]

/-- A word that may not be repeated: a repeat word, B, JAL, JR, JALR, SVC or SYS16 (R479). -/
def noRepeat (w : RepWord) : Bool :=
  match w with
  | .w16 i => op16 i.toNat = 0 || op16 i.toNat = 0x11 || op16 i.toNat = 0x12
  | .w32 i => decide (0x31 ≤ op32 i.toNat) && decide (op32 i.toNat ≤ 0x35)
  | .w48 _ => false

/-- SWAP, CAS and FADD. -/
def isAtomic (w : RepWord) : Bool :=
  match w with
  | .w32 i => op32 i.toNat = 0x2E || op32 i.toNat = 0x2F || op32 i.toNat = 0x30
  | _ => false

/-- Bytes of an instruction (R464). -/
def wordLen (w : RepWord) : Nat := match w with
  | .w16 _ => 2
  | .w32 _ => 4
  | .w48 _ => 6

/-! ### Cycle bounds (R484, R485) -/

/-- The cycles that an operand's location adds: to a load or store as such, and to a decimal operand.
None is "not bounded"; an address in no permitted range adds nothing (R540). -/
def placeCycles (s : State) (c : Nat) (k : Core) (a : Dword) (n : Nat) (store : Bool) : Option (Nat × Nat) :=
  match s.place c k a.toNat n store with
  | none => some (0, 0)
  | some (.mem arr _) => if arr = c then some (2, 0) else if arr = dramArr then none else some (12, 12)
  | some _ => none

/-- The bound of an instruction that is no repeat word (R484, R485), none when it is not bounded. `taken` is
whether a branch is taken. -/
def bound (s : State) (c : Nat) (k : Core) (w : RepWord) : Option Nat :=
  let acc (a : Dword) (n : Nat) (st : Bool) : Option Nat := (s.placeCycles c k a n st).map Prod.fst
  let dec (base : Nat) (xs : List (Dword × Nat × Bool)) : Option Nat :=
    xs.foldl (fun b x => match b, s.placeCycles c k x.1 x.2.1 x.2.2 with
      | some b, some p => some (b + p.2)
      | _, _ => none) (some base)
  match w with
  | .w16 i =>
    let n := i.toNat
    let op := op16 n
    if op = 0 then (if d16 n = 2 || d16 n = 5 then none else if d16 n = 3 then some 8 else some 1)
    else if op = 0x0B then some 3
    else if op = 0x0F then acc (k.reg (s16 n)) 8 false
    else if op = 0x10 then acc (k.reg (s16 n)) 8 true
    else if op = 0x11 || op = 0x12 then some 2
    else some 1
  | .w32 i =>
    let n := i.toNat
    let op := op32 n
    if 0x0C ≤ op && op ≤ 0x0E then some 3
    else if 0x10 ≤ op && op ≤ 0x13 then some 68
    else if 0x20 ≤ op && op ≤ 0x27 then acc (eaMM k n (loadSize (op - 0x20))).addr (loadSize (op - 0x20)) false
    else if 0x28 ≤ op && op ≤ 0x2C then acc (eaMM k n (storeSize (op - 0x28))).addr (storeSize (op - 0x28)) true
    else if 0x2E ≤ op && op ≤ 0x30 then acc (k.reg (a32 n)) 8 true
    else if op = 0x31 then some (if condHolds k.flg (natBits n 23 20) then 2 else 1)
    else if op = 0x32 then some 2
    else if op = 0x38 || op = 0x39 || op = 0x3B then some 2
    else if op = 0x3A then some 12
    else some 1
  | .w48 i =>
    let n := i.toNat
    let op := op48 n
    if 0x08 ≤ op && op ≤ 0x0F then acc (eaMD k n).addr (loadSize (op - 8)) false
    else if 0x10 ≤ op && op ≤ 0x14 then acc (eaMD k n).addr (storeSize (op - 0x10)) true
    else if 0x20 ≤ op && op ≤ 0x28 then
      let base := if op = 0x22 then 40 else if op = 0x23 then 160 else if op = 0x28 then 66 else 4
      dec base [(eaDs1 k n, len1 n, decide (op ≠ 0x24)), (eaDs2 k n, len2 n, false)]
    else if op = 0x29 then dec 4 [(eaDh k n, len1 n, true)]
    else if op = 0x2A then dec 24 [(eaDr k n, len1 n, true)]
    else if op = 0x2B then dec 24 [(eaDr k n, len1 n, false)]
    else some 1

/-- The cycles that an instruction takes: at most its bound, at least one; which, the spec leaves open. -/
def cyclesOf (s : State) (b : Option Nat) : Nat :=
  match b with
  | some n => if n ≤ 1 then 1 else 1 + (Config.freeValue s.free).toNat % n
  | none => 1 + (Config.freeValue s.free).toNat

/-- The core after `n` cycles more: its place in the stride (R30) and, in heat mode, CYC (R493). -/
def spend (k : Core) (heat : Bool) (n : Nat) : Core :=
  { k with used := k.used + n, cyc := if heat then k.cyc - BitVec.ofNat 64 n else k.cyc }

/-- Charge a core for the cycles of an instruction it ran (R30, R493). -/
def charge (s : State) (c : Nat) (heat : Bool) (b : Option Nat) : State :=
  { s.setCore c (spend (s.core c) heat (s.cyclesOf b)) with free := s.free + 1 }

/-! ### Instruction groups. Each acts on a core whose instruction is legal. -/

def done (s : State) (c : Nat) (k : Core) : Exe := .ok (s.setCore c k, none)

/-- Jump to a target: an odd one is an exception at the jump (R482). -/
def jump (s : State) (c : Nat) (k : Core) (t : Dword) : Exe :=
  if t.getLsbD 0 then .error ({ cause := 2, sub := 4, eaddr := t }, s) else .ok (s.setCore c k, some t)

/-- The value and FLG of an ALU operation: 0 ADD, 1 SUB, 2 ADC, 3 SBC, 4 AND, 5 OR, 6 XOR, 7 ANDN. -/
def aluOp (j : Nat) (f a b : Dword) : Dword × Dword :=
  let c := if flagOf f flC then 1 else 0
  match j with
  | 0 => addFlags f a b 0
  | 1 => subFlags f a b 0
  | 2 => addFlags f a b c
  | 3 => subFlags f a b (1 - c)
  | 4 => (a &&& b, flagsNZ f (a &&& b))
  | 5 => (a ||| b, flagsNZ f (a ||| b))
  | 6 => (a ^^^ b, flagsNZ f (a ^^^ b))
  | _ => (a &&& ~~~b, flagsNZ f (a &&& ~~~b))

/-- Shifts and rotate by six bits of a register: 0 SHL, 1 SHR, 2 SAR, 3 ROR. -/
def shiftOp (j : Nat) (f a : Dword) (n : Nat) : Dword × Dword :=
  let r := match j with
    | 0 => a <<< n
    | 1 => a >>> n
    | 2 => a.sshiftRight n
    | _ => a.rotateRight n
  (r, flagsNZ f r)

/-- MUL, MULHU, MULHS. -/
def mulOp (j : Nat) (a b : Dword) : Dword :=
  match j with
  | 0 => a * b
  | 1 => BitVec.ofNat 64 (a.toNat * b.toNat / 2 ^ 64)
  | _ => BitVec.ofInt 64 (a.toInt * b.toInt / 2 ^ 64)

/-- Leading zeros and set bits of a register. -/
def clz (a : Dword) : Nat := ((List.range 64).find? (fun i => a.getLsbD (63 - i))).getD 64
def popc (a : Dword) : Nat := ((List.range 64).filter (fun i => a.getLsbD i)).length
def bswap (a : Dword) : Dword := BitVec.ofNat 64 (beNat (leBytes 8 a.toNat))

/-- UNARY (R475): the result, and FLG for NEG and NOT. -/
def unaryOp (j : Nat) (f a : Dword) : Dword × Dword :=
  match j with
  | 0 => subFlags f 0 a 0
  | 1 => (~~~a, flagsNZ f (~~~a))
  | 2 => (sext 8 (a.toNat % 2 ^ 8), f)
  | 3 => (sext 16 (a.toNat % 2 ^ 16), f)
  | 4 => (sext 32 (a.toNat % 2 ^ 32), f)
  | 5 => (zext 8 a.toNat, f)
  | 6 => (zext 16 a.toNat, f)
  | 7 => (zext 32 a.toNat, f)
  | 8 => (BitVec.ofNat 64 (clz a), f)
  | 9 => (BitVec.ofNat 64 (popc a), f)
  | _ => (bswap a, f)

/-- DIVU, DIVS, REMU, REMS of a non-zero divisor (R481). -/
def divOp (j : Nat) (a b : Dword) : Dword :=
  match j with
  | 0 => a / b
  | 1 => BitVec.ofInt 64 (Int.tdiv a.toInt b.toInt)
  | 2 => a % b
  | _ => BitVec.ofInt 64 (Int.tmod a.toInt b.toInt)

/-- Load into registers (R457, R476): LD.Q fills Gd and Gd + 1. -/
def doLoad (bus : Bus) (s : State) (c : Nat) (k : Core) (j gd : Nat) (ea : Ea) : Exe :=
  let n := loadSize j
  match s.coreRead bus c k ea.addr n 2 true with
  | .error e => .error e
  | .ok (s, bs) =>
    let v := leNat bs
    let k := match ea.update with
      | some (g, b) => k.put g b
      | none => k
    if n = 16 then done s c ((k.put gd (BitVec.ofNat 64 v)).put (gd + 1) (BitVec.ofNat 64 (v / 2 ^ 64)))
    else done s c (k.put gd (if loadSigned j then sext (8 * n) v else BitVec.ofNat 64 v))

/-- Store a register, or Gd and Gd + 1 (R473, R476). -/
def doStore (bus : Bus) (s : State) (c : Nat) (k : Core) (j gd : Nat) (ea : Ea) : Exe :=
  let n := storeSize j
  match s.coreMayStore c k ea.addr n 3 true true with
  | some e => .error (e, s)
  | none =>
    let v := (k.reg gd).toNat + (if n = 16 then (k.reg (gd + 1)).toNat * 2 ^ 64 else 0)
    let s := s.coreStore bus c k ea.addr (leBytes n v)
    let k := s.core c
    done s c (match ea.update with
      | some (g, b) => k.put g b
      | none => k)

/-- SWAP, CAS and FADD (R460, R476), codes 0 to 2. -/
def doAtomic (bus : Bus) (s : State) (c : Nat) (k : Core) (j gd gb ga : Nat) : Exe :=
  let a := k.reg gb
  match s.coreMayStore c k a 8 2 true false with
  | some e => .error (e, s)
  | none =>
    match s.coreRead bus c k a 8 2 true with
    | .error e => .error e
    | .ok (s, bs) =>
      let old := BitVec.ofNat 64 (leNat bs)
      let eq := old == k.reg gd
      let new := if j = 0 then k.reg gd else if j = 1 then (if eq then k.reg ga else old) else old + k.reg gd
      let s := if j = 1 && !eq then s else s.coreStore bus c k a (leBytes 8 new.toNat)
      let k := if j = 1 then { k with flg := putFlag k.flg flZ eq } else k
      done s c (k.put gd old)

/-- The outcome of a decimal computation: a data exception where a subcode applies, a trapped overflow,
or the stored result (R502, R507, R523). -/
def decDone (bus : Bus) (s : State) (c : Nat) (k : Core) (a : Dword) (bad : List Nat) (r : DecResult) : Exe :=
  match bad.min? with
  | some sub => .error ({ cause := 3, sub := sub }, s)
  | none =>
    if r.overflow && flagOf k.dcx 8 then .error ({ cause := 3, sub := 7 }, s)
    else
      let s := s.coreStore bus c k a r.bytes
      done s c { s.core c with flg := r.flg }

def rmOf (k : Core) : Nat := natBits k.dcx.toNat 2 0

/-- The DS instructions, codes 0 ADDP to 8 EDIT (R512 to R521). -/
def doDs (bus : Bus) (s : State) (c : Nat) (k : Core) (i : Nat) : Exe :=
  let j := op48 i - 0x20
  let a1 := eaDs1 k i
  let a2 := eaDs2 k i
  let l1 := len1 i
  let reads1 := decide (j ≤ 4) || j = 8
  let one : Except (Exc × State) (State × Bytes) :=
    if reads1 then s.coreRead bus c k a1 l1 2 false else .ok (s, [])
  match one with
  | .error e => .error e
  | .ok (s, o1) =>
    let w : Option Exc := if j = 4 then none else s.coreMayStore c k a1 l1 3 false false
    match w with
    | some e => .error (e, s)
    | none =>
      match s.coreRead bus c k a2 (len2 i) 2 false with
      | .error e => .error e
      | .ok (s, o2) =>
        let bad := (if reads1 && decide (j ≠ 8) then packedBad 1 o1 else []) ++
                   (if j = 6 then zonedBad o2 else packedBad 2 o2) ++
                   (if j = 8 && editBad o1 o2 then [6] else [])
        let v1 := packedVal o1
        let v2 := packedVal o2
        let fin (r : DecResult) : Exe := decDone bus s c k a1 bad r
        let uns := packedSign o2 = 0xF
        if j = 0 then fin (packResult k.flg l1 false (v1 + v2))
        else if j = 1 then fin (packResult k.flg l1 false (v1 - v2))
        else if j = 2 then fin (packResult k.flg l1 false (v1 * v2))
        else if j = 3 then
          if bad = [] && v2 = 0 then .error ({ cause := 4, sub := 2 }, s)
          else fin (packResult k.flg l1 false (divRound (rmOf k) v1 v2))
        else if j = 4 then
          match bad.min? with
          | some sub => .error ({ cause := 3, sub := sub }, s)
          | none => done s c { k with flg := cmpFlags k.flg v1 v2 }
        else if j = 5 then fin (packResult k.flg l1 uns v2)
        else if j = 6 then fin (packResult k.flg l1 (zonedUnsigned o2) (zonedVal o2))
        else if j = 7 then fin (zoneResult k.flg l1 uns v2)
        else fin (editResult k.flg o1 o2)

/-- SHFP (R514). -/
def doShfp (bus : Bus) (s : State) (c : Nat) (k : Core) (i : Nat) : Exe :=
  let a := eaDh k i
  let l := len1 i
  match s.coreRead bus c k a l 2 false with
  | .error e => .error e
  | .ok (s, o) =>
    match s.coreMayStore c k a l 3 false false with
    | some e => .error (e, s)
    | none => decDone bus s c k a (packedBad 1 o)
        (packResult k.flg l (packedSign o = 0xF) (shiftVal (rmOf k) (packedVal o) (shiftDh i)))

/-- CVBP. -/
def doCvbp (bus : Bus) (s : State) (c : Nat) (k : Core) (i : Nat) : Exe :=
  let a := eaDr k i
  match s.coreMayStore c k a (len1 i) 3 false false with
  | some e => .error (e, s)
  | none => decDone bus s c k a [] (packResult k.flg (len1 i) false (k.reg (natBits i 34 30)).toInt)

/-- CVPB (R516). -/
def doCvpb (bus : Bus) (s : State) (c : Nat) (k : Core) (i : Nat) : Exe :=
  match s.coreRead bus c k (eaDr k i) (len1 i) 2 false with
  | .error e => .error e
  | .ok (s, o) =>
    match (packedBad 1 o).min? with
    | some sub => .error ({ cause := 3, sub := sub }, s)
    | none =>
      let v := packedVal o
      if v < -(2 ^ 63) || 2 ^ 63 ≤ v then .error ({ cause := 3, sub := 8 }, s)
      else
        let r := BitVec.ofInt 64 v
        let f := putFlag (flagsNZ k.flg r) flV false
        done s c ({ k with flg := f }.put (natBits i 34 30) r)

/-- The register decimal forms, codes 0 to 2, and CMPPR, code 3 (R526, R527). -/
def doRegDec (s : State) (c : Nat) (k : Core) (j i : Nat) : Exe :=
  let a := k.reg (a32 i)
  let b := k.reg (b32 i)
  if regBad a then .error ({ cause := 3, sub := 1 }, s)
  else if regBad b then .error ({ cause := 3, sub := 3 }, s)
  else if j = 3 then done s c { k with flg := regCmp k.flg a b }
  else
    let r := regForm j k.flg a b
    done s c ({ k with flg := r.2 }.put (d32 i) r.1)

/-- A 16-bit instruction (R475). -/
def sem16 (bus : Bus) (s : State) (c : Nat) (k : Core) (i : Nat) : Exe :=
  let op := op16 i
  let d := d16 i
  let a := k.reg d
  let b := k.reg (s16 i)
  let low8 (x : Dword) : BitVec 8 := BitVec.ofNat 8 x.toNat
  let keep (r : BitVec 8) : Dword := BitVec.ofNat 64 (a.toNat / 256 * 256 + r.toNat)
  if op = 0 then
    if d = 4 then .ok (s.setCore c { k with marshal := k.pmode, exl := false }, some k.epc)
    else if d = 5 then done s c { k with waiting := true }
    else if d = 6 then done s c { k with halted := true }
    else done s c k
  else if op = 1 then done s c (k.put d b)
  else if op = 7 then done s c { k with flg := (subFlags k.flg a b 0).2 }
  else if op ≤ 6 then
    let r := aluOp (if op ≤ 3 then op - 2 else op) k.flg a b
    done s c ({ k with flg := r.2 }.put d r.1)
  else if op ≤ 0x0A then
    let r := shiftOp (op - 8) k.flg a (b.toNat % 64)
    done s c ({ k with flg := r.2 }.put d r.1)
  else if op = 0x0B then done s c (k.put d (a * b))
  else if op = 0x0C then
    let r := unaryOp (s16 i) k.flg a
    done s c ({ k with flg := r.2 }.put d r.1)
  else if op = 0x0D then
    let r := addFlags k.flg a (sext 5 (s16 i)) 0
    done s c ({ k with flg := r.2 }.put d r.1)
  else if op = 0x0E then done s c (k.put d (sext 5 (s16 i)))
  else if op = 0x0F then doLoad bus s c k 3 d { addr := b }
  else if op = 0x10 then doStore bus s c k 3 d { addr := b }
  else if op = 0x11 then jump s c k b
  else if op = 0x12 then jump s c (k.put d (k.pc + 2)) b
  else if op = 0x13 || op = 0x14 then
    let r := if op = 0x13 then addByte k.flg (low8 a) (low8 b) else subByte k.flg (low8 a) (low8 b)
    done s c ({ k with flg := r.2 }.put d (keep r.1))
  else
    let r := if op = 0x15 then daaByte k.flg (low8 a) else dasByte k.flg (low8 a)
    done s c ({ k with flg := r.2 }.put d (keep r.1))

/-- A 32-bit instruction that is no repeat word and no SVC (R476). -/
def sem32 (bus : Bus) (s : State) (c : Nat) (k : Core) (i : Nat) : Exe :=
  let op := op32 i
  let d := d32 i
  let a := k.reg (a32 i)
  let b := k.reg (b32 i)
  let set (r : Dword × Dword) : Exe := done s c ({ k with flg := r.2 }.put d r.1)
  if op ≤ 7 then set (aluOp op k.flg a b)
  else if op ≤ 0x0B then set (shiftOp (op - 8) k.flg a (b.toNat % 64))
  else if op ≤ 0x0E then done s c (k.put d (mulOp (op - 0x0C) a b))
  else if op = 0x0F then done s c { k with flg := (subFlags k.flg a b 0).2 }
  else if op ≤ 0x13 then
    if b = 0 then .error ({ cause := 4, sub := 1 }, s) else done s c (k.put d (divOp (op - 0x10) a b))
  else if op = 0x14 then set (addFlags k.flg a (sext 14 (imm14 i)) 0)
  else if op ≤ 0x17 then set (aluOp (op - 0x11) k.flg a (zext 14 (imm14 i)))
  else if op ≤ 0x1A then set (shiftOp (op - 0x18) k.flg a (natBits i 5 0))
  else if op = 0x1B then done s c { k with flg := (subFlags k.flg a (sext 14 (imm14 i)) 0).2 }
  else if op = 0x1C then done s c (k.put d (sext 19 (natBits i 18 0)))
  else if op = 0x1D then done s c (k.put d (s.srRead c k (a32 i)))
  else if op = 0x1E then done s c (srWrite k d a)
  else if op = 0x1F then done s c (k.put d (s.feat c (a32 i)))
  else if op ≤ 0x27 then doLoad bus s c k (op - 0x20) d (eaMM k i (loadSize (op - 0x20)))
  else if op ≤ 0x2C then doStore bus s c k (op - 0x28) d (eaMM k i (storeSize (op - 0x28)))
  else if op = 0x2D then done s c (k.put d (eaMM k i 0).addr)
  else if op ≤ 0x30 then doAtomic bus s c k (op - 0x2E) d (a32 i) (natBits i 10 6)
  else if op = 0x31 then
    if condHolds k.flg (natBits i 23 20) then jump s c k (k.pc + sext 20 (natBits i 19 0) * 2) else done s c k
  else if op = 0x32 then jump s c (k.put 30 (k.pc + 4)) (k.pc + sext 24 (natBits i 23 0) * 2)
  else doRegDec s c k (op - 0x38) i

/-- A 48-bit instruction (R477). -/
def sem48 (bus : Bus) (s : State) (c : Nat) (k : Core) (i : Nat) : Exe :=
  let op := op48 i
  let d := d48 i
  let v := sext 32 (imm32 i)
  if op = 0 then done s c (k.put d v)
  else if op = 1 then done s c (k.put d (BitVec.ofNat 64 (imm32 i * 2 ^ 32 + (k.reg d).toNat % 2 ^ 32)))
  else if op = 2 then
    let r := addFlags k.flg (k.reg d) v 0
    done s c ({ k with flg := r.2 }.put d r.1)
  else if op = 3 then done s c { k with flg := (subFlags k.flg (k.reg d) v 0).2 }
  else if op ≤ 0x0F then doLoad bus s c k (op - 8) d (eaMD k i)
  else if op ≤ 0x14 then doStore bus s c k (op - 0x10) d (eaMD k i)
  else if op = 0x15 then done s c (k.put d (eaMD k i).addr)
  else if op ≤ 0x28 then doDs bus s c k i
  else if op = 0x29 then doShfp bus s c k i
  else if op = 0x2A then doCvbp bus s c k i
  else doCvpb bus s c k i

/-- An instruction of any length. -/
def semWord (bus : Bus) (s : State) (c : Nat) (k : Core) : RepWord → Exe
  | .w16 i => sem16 bus s c k i.toNat
  | .w32 i => sem32 bus s c k i.toNat
  | .w48 i => sem48 bus s c k i.toNat

/-! ### Running instructions -/

/-- Is a core powered and clocked in the power state (R898, R910, R927)? A tenant cluster is gated from P1 on; the management
cores stop in P2 until an exit. -/
def coreClocked (s : State) (c : Nat) : Bool :=
  if isTenant c then decide (s.pwr.state = 0)
  else decide (s.pwr.state < 2) || (decide (s.pwr.state = 2) && decide (s.pwr.phase = .exiting))

/-- Can a core run an instruction now? -/
def coreRuns (s : State) (c : Nat) : Bool :=
  let k := s.core c
  s.dev.run = .started && s.coreClocked c && s.corePresent c && !k.halted && !k.waiting &&
  decide (k.hold = .none) && !k.loading

/-- Run `body` at an instruction boundary of a core, for an instruction of `len` bytes: an entry that is
due comes first, and then a fetch that is not permitted or meets an uncorrectable word. -/
def atBoundary (bus : Bus) (s : State) (c len : Nat) (body : State → Core → State) : State :=
  if !s.coreRuns c then s
  else match s.takeEntry c with
    | some t => t
    | none =>
      let k := s.core c
      match fetchStop k len with
      | some a => s.raise bus c 2 1 k.pc a
      | none =>
        if k.pc.toNat < 0x40000 then
          let r := s.memRead c k.pc.toNat len
          if r.2.2 then (r.1.coreUe c k k.pc).raise bus c 2 5 k.pc k.pc else body r.1 k
        else body s k

/-- One instruction that is no repeat word: illegal, an exception, or done (R488, R489). -/
def runWord (bus : Bus) (s : State) (c : Nat) (w : RepWord) : State :=
  s.atBoundary bus c (wordLen w) (fun s k =>
    match (illWord c k w).min? with
    | some sub => s.raise bus c 1 sub k.pc 0
    | none =>
      match s.semWord bus c k w with
      | .error (e, t) => t.raise bus c e.cause e.sub k.pc e.eaddr
      | .ok (t, target) =>
        let t := t.modCore c (fun k' => { k' with pc := target.getD (k.pc + BitVec.ofNat 64 (wordLen w)) })
        t.charge c (!k.marshal) (s.bound c k w))

/-- SVC (R490): the entry of a service call, whose EPC is the next instruction. The heat runtime finds
the service number. -/
def runSvc (bus : Bus) (s : State) (c : Nat) (i : BitVec 32) : State :=
  s.atBoundary bus c 4 (fun s k =>
    match (ill32 k i.toNat).min? with
    | some sub => s.raise bus c 1 sub k.pc 0
    | none =>
      let s := (s.modCore c (fun k => { k with svc := some (imm14 i.toNat) })).charge c (!k.marshal) (some 1)
      s.raise bus c 6 0 (k.pc + 4) 0)

/-- The iterations of REP.I (R533 to R536): entries between iterations, and an exception that leaves the
count of the iterations still to run. -/
def repeatI (bus : Bus) (c gc : Nat) (w : RepWord) (len : Nat) : Nat → State → State
  | 0, s => s.modCore c (fun k => { k with pc := k.pc + BitVec.ofNat 64 len })
  | n + 1, s =>
    match s.takeEntry c with
    | some t => t
    | none =>
      let k := s.core c
      match s.semWord bus c k w with
      | .error (e, t) => t.raise bus c e.cause e.sub k.pc e.eaddr
      | .ok (t, _) =>
        let t := t.modCore c (fun k' => k'.put gc (BitVec.ofNat 64 n))
        repeatI bus c gc w len n (t.charge c (!k.marshal) (s.bound c k w))

/-- Subcodes that apply to a repeat as a whole (R467, R479, R531, R532). -/
def illRep (c : Nat) (k : Core) (i : Nat) (w : RepWord) : List Nat :=
  ill32 k i ++ when' (noRepeat w) 6 ++ (if noRepeat w then [] else illWord c k w)

/-- REP.I and its repeated instruction. -/
def runRepI (bus : Bus) (s : State) (c : Nat) (i : BitVec 32) (w : RepWord) : State :=
  let gc := d32 i.toNat
  s.atBoundary bus c (4 + wordLen w) (fun s k =>
    match (illRep c k i.toNat w ++ when' ((namesReg w).contains gc) 6).min? with
    | some sub => s.raise bus c 1 sub k.pc 0
    | none =>
      repeatI bus c gc w (4 + wordLen w) (k.reg gc).toNat (s.charge c (!k.marshal) (some 1)))

/-- The iterations of REP.U: all of them, or the exception of one (R539, R541, R542). -/
def repeatU (bus : Bus) (c : Nat) (w : RepWord) : Nat → State → Except (Exc × State) State
  | 0, s => .ok s
  | n + 1, s =>
    let k := s.core c
    match s.semWord bus c k w with
    | .error e => .error e
    | .ok (t, _) => repeatU bus c w n (t.charge c (!k.marshal) (s.bound c k w))

/-- A REP.U that has passed its checks: all of its iterations, or the exception of one (R541, R542). -/
def beginRepU (bus : Bus) (s : State) (c count : Nat) (w : RepWord) : State :=
  let k := s.core c
  match repeatU bus c w count s with
  | .error (e, t) => { s with evr := t.evr, mpr := t.mpr }.raise bus c e.cause e.sub k.pc e.eaddr
  | .ok t => t.modCore c (fun k' => { k' with pc := k.pc + BitVec.ofNat 64 (4 + wordLen w) })

/-- Fewer than 256 of the 500 cycles of a stride remain (R1, R30). -/
def lateInStride (k : Core) : Bool := decide (500 < k.used + 256)

/-- R30: the core holds a REP.U until the tick; in heat mode the cycles held count (R493). -/
def holdRepU (s : State) (c count : Nat) (w : RepWord) : State :=
  s.modCore c (fun k => { spend k (!k.marshal) (500 - k.used) with hold := .repu count w })

/-- A tick: the stride of each core begins anew, and a held REP.U begins, unless an entry is due before it (R30,
R492). -/
def repuTick (bus : Bus) (s : State) : State :=
  s.cores.foldl (fun s p =>
    match p.2.hold with
    | .repu count w =>
      let s := s.modCore p.1 (fun k => { k with hold := .none })
      if !s.coreRuns p.1 then s
      else (s.takeEntry p.1).getD (s.beginRepU bus p.1 count w)
    | _ => s) s

/-- REP.U and its repeated instruction (R30, R438, R531, R539 to R543). -/
def runRepU (bus : Bus) (s : State) (c : Nat) (i : BitVec 32) (w : RepWord) : State :=
  let count := natBits i.toNat 5 0 + 1
  s.atBoundary bus c (4 + wordLen w) (fun s k =>
    let exceeded : Bool := match s.bound c k w with
      | none => true
      | some b => decide (256 < count * b)
    let ills := illRep c k i.toNat w ++ when' (isAtomic w) 6 ++ when' (s.onOscillator c || exceeded) 7
    match ills.min? with
    | some sub => s.raise bus c 1 sub k.pc 0
    | none => if lateInStride k then s.holdRepU c count w else s.beginRepU bus c count w)

/-- BUDGET_EXHAUSTED at a boundary at which it is the entry due (R493, R494). -/
def budgetEntry (s : State) (c : Nat) : State :=
  let k := s.core c
  if s.coreRuns c && entryDue k = some (5, 0) then
    (s.takeEntry c).getD s
  else s

/-- A STOP or SUSPEND request (R492, R495): taken at the boundary the core stands at, or pending until
ERET. It also ends a WAIT (R475). -/
def request (s : State) (c : Nat) (stop : Bool) : State :=
  if !s.corePresent c || (s.core c).halted then s
  else
    let s := s.modCore c (fun k =>
      if stop then { k with stopReq := true, waiting := false }
      else { k with suspReq := true, waiting := false })
    (s.takeEntry c).getD s

end State

end Sys2Proof.Machine
end

