-- ==== Sys2Proof/Machine/Slots.lean ====
section
/-! DEFINITION. Pools, reservations and shares of the slices, and the stride slots of the schedule
(R63 to R76, R121 to R124, R133, R136). -/

namespace Sys2Proof.Machine

/-- Resource codes of R64. -/
def resCore : Nat := 1
def resBank : Nat := 2
def resGroup : Nat := 3
def resDram : Nat := 4
def resWbf : Nat := 5
def resCmb : Nat := 6
def resQp : Nat := 7
def resAes : Nat := 8
def resAesShare : Nat := 9
def resKeys : Nat := 0xA
def resSearch : Nat := 0xB

/-- The owner code of the pool (R63, R73). -/
def ownerPool : Nat := 0x201
def ownerFtl : Nat := 0x200

/-- The indices a course gives an owner of an indexed resource, in ascending order of records. -/
def Course.indices (c : Course) (r owner : Nat) : List Nat :=
  (c.allots.filter (fun a => a.resource = r && a.owner = owner)).flatMap
    (fun a => (List.range a.count).map (a.first + ·))

/-- The amount a course gives an owner of an amount resource. -/
def Course.amount (c : Course) (r owner : Nat) : Nat :=
  lsum ((c.allots.filter (fun a => a.resource = r && a.owner = owner)).map Allot.count)

/-- A schedule table's entries (R70). -/
def Course.table (c : Course) (code : Nat) : List Nat := tgetD c.tables code []

/-- Does the slice's state hold resources? -/
def SlState.holds (st : SlState) : Bool :=
  match st with
  | .absent | .parked => false
  | _ => true

/-- Is the slice counted by R124: may it hold a stride slot? -/
def SlState.slotted (st : SlState) : Bool :=
  match st with
  | .active | .freezing | .frozen | .resetting | .saving | .migrating => true
  | _ => false

/-- Register keys of the share registers of slice n (R166) and of its pairing (R316). -/
def shWbf (n : Nat) : Nat := 0x48000 + 0x20 * n
def shQp (n : Nat) : Nat := 0x48004 + 0x20 * n
def shAes (n : Nat) : Nat := 0x48008 + 0x20 * n
def shSlots (n : Nat) : Nat := 0x4800C + 0x20 * n
def pairKey (n : Nat) : Nat := 0x202000 + 4 * n

namespace State

/-- Slice `n`'s reservation of an amount resource (R65). -/
def reserved (s : State) (r n : Nat) : Nat :=
  match s.crs.inForce with
  | some c => c.amount r n
  | none => 0

def reservedIdx (s : State) (r n : Nat) : List Nat :=
  match s.crs.inForce with
  | some c => c.indices r n
  | none => []

def poolIdx (s : State) (r : Nat) : List Nat := s.reservedIdx r ownerPool
def poolAmount (s : State) (r : Nat) : Nat := s.reserved r ownerPool

/-- The indices of an indexed resource that a slice holds. -/
def heldIdx (x : Slice) (r : Nat) : List Nat :=
  if r = resCore then x.cores else if r = resBank then x.banks else if r = resGroup then x.bgroups
  else if r = resAes then x.aes else if r = resSearch then x.search else []

/-- The pool's indices that no slice but `n` holds, ascending (R122). -/
def poolFree (s : State) (r n : Nat) : List Nat :=
  let held := s.slices.flatMap (fun p => if p.1 = n then [] else heldIdx p.2 r)
  sortNat ((s.poolIdx r).filter (fun i => !held.contains i))

/-- The sum over the slices other than `n` that hold resources. -/
def sumOthers (s : State) (n : Nat) (f : Nat → Slice → Nat) : Nat :=
  lsum (s.slices.map (fun p => if p.1 = n || !(p.2.st.holds || p.2.release) then 0 else f p.1 p.2))

/-- Slice totals: reservation plus draw (R65, R133). -/
def wbfTotal (s : State) (n : Nat) : Nat := s.reserved resWbf n + s.forceNat (shWbf n)
def qpTotal (s : State) (n : Nat) : Nat := s.reserved resQp n + s.forceNat (shQp n)
def aesTotal (s : State) (n : Nat) : Nat := s.reserved resAesShare n + s.forceNat (shAes n)

/-- The entries of a schedule table in force; none when there is no course or no table. -/
def slotTable (s : State) (code : Nat) : List Nat :=
  match s.crs.inForce with
  | some c => c.table code
  | none => []

/-- The slots of a table that name a slice in the course itself. -/
def ownSlots (s : State) (code n : Nat) : Nat := ((s.slotTable code).filter (· = n)).length
def poolSlots (s : State) (code : Nat) : Nat := ((s.slotTable code).filter (· = ownerPool)).length

/-- The channel tables of R72. -/
def channelTables (s : State) : List Nat := (List.range s.channelsPresent).map (0x100 + ·)

/-- The fewest POOL slots of any channel table (R136 pair 0x104). -/
def minPoolFlash (s : State) : Nat :=
  (s.channelTables.map (fun c => s.poolSlots c)).foldl min 4000

/-- The FLASH_SLOTS and HOST_SLOTS fields of a share register's value (R172). -/
def flashField (v : Nat) : Nat := natBits v 11 0
def hostField (v : Nat) : Nat := natBits v 27 16

/-- The deal of POOL slots that the slices and shares in force call for (R123). -/
def newDeal (s : State) : List Deal :=
  (s.slices.filter (fun p => p.2.st.slotted)).map (fun p =>
    let v := s.forceNat (shSlots p.1)
    { slice := p.1, port := p.2.port, host := hostField v, flash := flashField v })

/-- Who holds the j-th POOL slot when slices take `(slice, count)` slots in turn. -/
def dealTo : List (Nat × Nat) → Nat → Option Nat
  | [], _ => none
  | (n, k) :: t, j => if j < k then some n else dealTo t (j - k)

/-- The POOL takes of a table under the deal in force (R123): none for output compression. -/
def takes (s : State) (code : Nat) : List (Nat × Nat) :=
  if code / 0x100 = 1 then s.slc.deal.map (fun d => (d.slice, d.flash))
  else if code / 0x100 = 2 then
    (s.slc.deal.filter (fun d => d.port = code % 0x100)).map (fun d => (d.slice, d.host))
  else []

/-- The slice that holds a table's slot in a stride, by reservation or deal (R71, R123, R124). -/
def slotHolder (s : State) (code stride : Nat) : Option Nat :=
  let t := s.slotTable code
  let i := stride % t.length
  match t[i]? with
  | none => none
  | some o =>
    if o < 0x200 then (if (s.slice o).st.slotted then some o else none)
    else if o = ownerPool then dealTo (s.takes code) ((t.take i).filter (· = ownerPool)).length
    else none

/-- Is the slot in force the FTL's (R73)? -/
def ftlSlot (s : State) (ch : Nat) : Bool :=
  let t := s.slotTable (0x100 + ch)
  t[s.stride % t.length]? = some ownerFtl

/-- A slice is steady on its port (R217): the course itself names it in the port's table. -/
def steady (s : State) (n : Nat) : Bool := decide (0 < s.ownSlots (0x200 + (s.slice n).port) n)

/-- A slice's totals of host slots on a port and of flash slots in a table (R125). -/
def hostSlotsOn (s : State) (n p draw : Nat) : Nat := s.ownSlots (0x200 + p) n + draw

/-- Does a run of `len` units fit at `at'` beside the runs in use? -/
def fitsAt (used : List (Nat × Nat)) (limit at' len : Nat) : Bool :=
  decide (at' + len ≤ limit) &&
  used.all (fun u => decide (at' + len ≤ u.1) || decide (u.1 + u.2 ≤ at'))

/-- The lowest place for a run of `len` units: 0 or the end of a run in use (R214, R325). -/
def lowestFit (used : List (Nat × Nat)) (limit len : Nat) : Option Nat :=
  let cands := sortNat (0 :: used.map (fun u => u.1 + u.2))
  cands.find? (fun c => fitsAt used limit c len)

/-- The CMB portions of the slices other than `n`, in MiB. -/
def cmbUsed (s : State) (n : Nat) : List (Nat × Nat) :=
  s.slices.filterMap (fun p =>
    match p.2.cmbOff with
    | some o => if p.1 = n then none else some (o, p.2.cmbMib)
    | none => none)

/-- The DRAM regions of the slices other than `n`, in MiB from the first region byte. -/
def dramUsed (s : State) (n : Nat) : List (Nat × Nat) :=
  s.slices.filterMap (fun p =>
    if p.1 = n || p.2.dramMib = 0 then none else some (p.2.dramBase, p.2.dramMib))

/-- The MiB of DRAM that hold slice regions (R62). -/
def regionLimit (s : State) : Nat :=
  match s.crs.inForce with
  | some c => c.dramGib * 1024 - s.regionBase
  | none => 0

end State

end Sys2Proof.Machine
end

