-- ==== Sys2Proof/Machine/Queue.lean ====
section
/-! DEFINITION. Admitted commands from their admission to their completion entry: finishing,
discarding, posting, interrupts, asynchronous events, controller resets (R140 to R142, R190,
R209 to R213, R219, R232, R239, R240). -/

namespace Sys2Proof.Machine

/-- The vendor statuses whose DNR is 0 (the status tables of R241, R592 and the engine chapters). -/
def vendorRetry : List Nat := [0x01, 0x03, 0x05, 0x46, 0x47, 0x66, 0x86, 0x8A]

/-- DNR of a completion (R239, R1051). -/
def Status.dnr : Status → Bool
  | .success | .cidConflict | .dataTransferError | .abortRequested | .abortLimit
  | .reservationConflict | .invalidQueueDeletion | .nsCapacity => false
  | .vendor sc => !vendorRetry.contains sc
  | _ => true

/-- SCT and SC of a status: 7 and its number for a vendor status, and NVMe 2.0's numbers for the standard ones, which the
spec only names (PRESUMED, R239, R242). -/
def Status.code : Status → Nat × Nat
  | .success => (0, 0x00)
  | .invalidOpcode => (0, 0x01)
  | .invalidField => (0, 0x02)
  | .cidConflict => (0, 0x03)
  | .dataTransferError => (0, 0x04)
  | .abortRequested => (0, 0x07)
  | .invalidNamespace => (0, 0x0B)
  | .sequenceError => (0, 0x0C)
  | .sglSegment => (0, 0x0D)
  | .sglCount => (0, 0x0E)
  | .sglLength => (0, 0x0F)
  | .sglType => (0, 0x11)
  | .invalidCmb => (0, 0x12)
  | .prpOffset => (0, 0x13)
  | .writeProtected => (0, 0x20)
  | .lbaRange => (0, 0x80)
  | .reservationConflict => (0, 0x83)
  | .cqInvalid => (1, 0x00)
  | .invalidQueueId => (1, 0x01)
  | .invalidQueueSize => (1, 0x02)
  | .abortLimit => (1, 0x03)
  | .asyncLimit => (1, 0x05)
  | .invalidVector => (1, 0x08)
  | .invalidLogPage => (1, 0x09)
  | .invalidFormat => (1, 0x0A)
  | .invalidQueueDeletion => (1, 0x0C)
  | .notSaveable => (1, 0x0D)
  | .nsCapacity => (1, 0x15)
  | .nsIdUnavailable => (1, 0x16)
  | .nsAttached => (1, 0x18)
  | .nsNotAttached => (1, 0x1A)
  | .invalidController => (1, 0x1C)
  | .unrecoveredRead => (2, 0x81)
  | .guardError => (2, 0x82)
  | .appTagError => (2, 0x83)
  | .refTagError => (2, 0x84)
  | .compareFailure => (2, 0x85)
  | .vendor sc => (7, sc)

/-- The 16 bytes of a completion entry (R239). -/
def cqeBytes (dw0 dw1 : BitVec 32) (sqid sqhd cid : Nat) (st : Status) (more phase : Bool) : Bytes :=
  leBytes 4 dw0.toNat ++ leBytes 4 dw1.toNat ++ leBytes 2 sqhd ++ leBytes 2 sqid ++
  leBytes 4 (cid % 2 ^ 16 + flagAt phase 16 + st.code.2 % 2 ^ 8 * 2 ^ 17 + st.code.1 % 2 ^ 3 * 2 ^ 25 +
    flagAt more 30 + flagAt st.dnr 31)

/-- The numbers that compose a stamp as DW0 and DW1 show it (R223). -/
def Stamp.dw0 (t : Stamp) : BitVec 32 := BitVec.ofNat 32 t.stride
def Stamp.dw1 (t : Stamp) : BitVec 32 :=
  BitVec.ofNat 32 (natBits t.stride 47 32 * 65536 + t.seq % 65536)

/-- Stamp A is earlier than stamp B (R221). -/
def Stamp.before (a b : Stamp) : Bool :=
  decide (a.stride < b.stride) || (a.stride = b.stride && decide (a.seq < b.seq))

/-- The kinds of I/O commands that R428 counts as reads and as writes, by opcode. -/
def countsAsRead (opc : Nat) : Bool := opc = 0x02 || opc = 0x05 || opc = 0x0C || opc = 0x8A
def countsAsWrite (opc : Nat) : Bool := opc = 0x01 || opc = 0x81

namespace State

/-- The admitted command of an identity, if it has no completion yet. -/
def adm? (s : State) (c : CmdId) : Option Adm := (s.slice c.slice).adms.find? (fun a => a.id = c)

def modAdm (s : State) (c : CmdId) (f : Adm → Adm) : State :=
  s.modSlice c.slice (fun x => { x with adms := x.adms.map (fun a => if a.id = c then f a else a) })

/-- A slice's occupancy: the sum of its reserved charges (R251, R252). -/
def occupancy (s : State) (n : Nat) : Nat :=
  lsum ((s.slice n).adms.map Adm.charge) + lsum ((s.slice n).entries.map Entry.charge)

/-- SMART counts of a finished command (R428). -/
def countDone (x : Slice) (a : Adm) (st : Status) : Slice :=
  if a.admin then x
  else
    let m := x.smart
    let m := if countsAsRead a.ent.opc then { m with reads := m.reads + 1 } else m
    let m := if countsAsWrite a.ent.opc then { m with writes := m.writes + 1 } else m
    let m := if st = .unrecoveredRead then { m with mediaErrors := m.mediaErrors + 1 } else m
    { x with smart := m }

/-- A command finishes, and its entry becomes ready at the tick that begins stride `at'` (R219): it
is no longer an admitted command. While Stamp Reporting held at its admission the entry of the
commands of R223 carries the stamp. -/
def finishAt (s : State) (c : CmdId) (st : Status) (dw0 dw1 : BitVec 32) (at' : Nat) : State :=
  match s.adm? c with
  | none => s
  | some a =>
    let w0 := if a.rep then a.stamp.dw0 else dw0
    let w1 := if a.rep then a.stamp.dw1 else dw1
    s.modSlice c.slice (fun x =>
      let x := countDone x a st
      { x with adms := x.adms.filter (fun b => decide (b.id ≠ c)),
               ready := x.ready ++ [{ id := c, cqid := a.cqid, sqhd := a.sqhd, status := st,
                                      dw0 := w0, dw1 := w1, at' := at' }] })

/-- A command finishes during a stride: its entry becomes ready at the next tick. -/
def finish (s : State) (c : CmdId) (st : Status) (dw0 : BitVec 32 := 0) (dw1 : BitVec 32 := 0) :
    State := s.finishAt c st dw0 dw1 (s.stride + 1)

/-- A command finishes at the tick under way: its entry becomes ready at this tick. -/
def finishNow (s : State) (c : CmdId) (st : Status) (dw0 : BitVec 32 := 0) (dw1 : BitVec 32 := 0) :
    State := s.finishAt c st dw0 dw1 s.stride

/-- Give back a completion queue reservation without posting (R213). -/
def unreserve (x : Slice) (cqid : Nat) : Slice :=
  { x with cqs := tmod x.cqs cqid (fun q => { q with resv := q.resv - 1 }) }

/-- Discard an admitted command without completion: its entry that is not visible and its charge go
with it, and every block keeps what it held (R141, R226, R263). -/
def discardCmd (s : State) (c : CmdId) : State :=
  match s.adm? c with
  | none => s
  | some a =>
    s.modSlice c.slice (fun x =>
      let x := unreserve x a.cqid
      { x with adms := x.adms.filter (fun b => decide (b.id ≠ c)),
               entries := x.entries.filter (fun e => decide (e.cmd ≠ some c) || e.visible.isSome) })

/-- Remove what a command that ends without effect has put into the buffer (R238, R284). -/
def dropEntry (s : State) (c : CmdId) : State :=
  s.modSlice c.slice (fun x =>
    { x with entries := x.entries.filter (fun e => decide (e.cmd ≠ some c) || e.visible.isSome),
             adms := x.adms.map (fun a => if a.id = c then { a with charge := 0 } else a) })

/-- A command fails: it completes with the status and has no other effect. -/
def failCmd (s : State) (c : CmdId) (st : Status) : State := (s.dropEntry c).finish c st

/-! ### Interrupts (R240, R243) -/

/-- The masked bit of an MSI-X entry: bit 0 of its last doubleword. -/
def msixMasked (s : State) (p v : Nat) : Bool :=
  natBit (s.rwNat (0x140000 + p * 0x10000 + 16 * v + 12)) 0

/-- Send an interrupt message, or set the pending bit of a masked entry. -/
def sendMsix (s : State) (p v : Nat) : State :=
  if s.msixMasked p v then
    if s.msixPend.contains (p * 2048 + v) then s else { s with msixPend := (p * 2048 + v) :: s.msixPend }
  else s.emit (.msix p v)

/-- The interrupt of an entry posted to a completion queue, subject to coalescing (R199, R240). -/
def interrupt (s : State) (n qid : Nat) (q : Cq) : State :=
  let x := s.slice n
  let v := 4 * n + q.iv
  if !q.ien then s
  else if qid = 0 || x.feats.coalThr = 0 || x.feats.coalTime = 0 || x.feats.vecCd.contains q.iv then
    s.sendMsix x.port v
  else if x.feats.coalThr < q.pendInt + 1 then
    (s.modSlice n (fun x => { x with cqs := tmod x.cqs qid (fun q => { q with pendInt := 0 }) })).sendMsix
      x.port v
  else
    s.modSlice n (fun x => { x with cqs := tmod x.cqs qid (fun q =>
      { q with pendInt := q.pendInt + 1, pendAt := if q.pendInt = 0 then s.stride else q.pendAt }) })

/-- The coalescing time of a queue has passed (R199): its interrupt is sent. -/
def coalesceTick (s : State) : State :=
  s.slices.foldl (fun s p =>
    p.2.cqs.foldl (fun s q =>
      if 0 < q.2.pendInt && q.2.pendAt + p.2.feats.coalTime * 400 ≤ s.stride then
        (s.modSlice p.1 (fun x => { x with cqs := tmod x.cqs q.1 (fun q => { q with pendInt := 0 }) })).sendMsix
          p.2.port (4 * p.1 + q.2.iv)
      else s) s) s

/-- The PASID of a slice's DMA: one of those bound to it (R127); which one is free. -/
def pasidOf (s : State) (n : Nat) : Option Nat :=
  let ps := (s.slice n).pasids
  ps[Config.pasidPick s.out.length % ps.length]?

/-- Post one ready entry (R239, R240). -/
def postOne (s : State) (n : Nat) (r : Ready) : State :=
  match tget (s.slice n).cqs r.cqid with
  | none => s
  | some q =>
    let more := decide (r.status ≠ .success) && Config.moreDetail s.out.length
    let e : Cqe := { slice := n, cqid := r.cqid, addr := q.base + 16 * q.tail, pasid := s.pasidOf n,
                     sqid := r.id.sqid, sqhd := r.sqhd, cid := r.id.cid, status := r.status, dnr := r.status.dnr,
                     more := more, phase := q.phase, dw0 := r.dw0, dw1 := r.dw1,
                     bytes := cqeBytes r.dw0 r.dw1 r.id.sqid r.sqhd r.id.cid r.status more q.phase }
    let wrap := decide (q.tail + 1 = q.size)
    let q' := { q with tail := if wrap then 0 else q.tail + 1,
                       phase := if wrap then !q.phase else q.phase, resv := q.resv - 1 }
    let s := (s.modSlice n (fun x => { x with cqs := tset x.cqs r.cqid q' })).emit (.cqe e)
    s.interrupt n r.cqid q'

/-- The port takes part in transfers: its link is up and Bus Master Enable is 1 (R185). -/
def portMoves (s : State) (p : Nat) : Bool := (s.port p).busMaster

/-- Post a slice's ready entries, oldest first, up to a count (R219). -/
def postReady (s : State) (n limit : Nat) : State :=
  let x := s.slice n
  if x.ctrl.cfs || !s.portMoves x.port then s
  else
    let due := (x.ready.filter (fun r => decide (r.at' ≤ s.stride))).take limit
    let s := s.modSlice n (fun x => { x with ready := x.ready.filter (fun r => !due.contains r) })
    due.foldl (fun s r => s.postOne n r) s

/-! ### Asynchronous events (R212, R380) -/

/-- The DW0 of an Asynchronous Event Request's completion: type in [2:0], information in [15:8], log
page in [23:16]. -/
def AsyncEv.dw0 : AsyncEv → BitVec 32
  | .invalidDoorbell => 0x00010000
  | .invalidDoorbellValue => 0x00010100
  | .health => 0x00020001
  | .temperature => 0x00020101
  | .spare => 0x00020201
  | .vendor k => BitVec.ofNat 32 (k * 0x100 + 7)

/-- Deliver waiting asynchronous events to waiting requests, oldest first. -/
def deliverAsync (s : State) (n : Nat) : State :=
  let x := s.slice n
  match x.aers, x.asyncs with
  | c :: cs, e :: es =>
    let r : Ready := { id := c.1, cqid := 0, sqhd := c.2, status := .success, dw0 := AsyncEv.dw0 e,
                       dw1 := 0, at' := s.stride + 1 }
    s.setSlice n { x with aers := cs, asyncs := es, ready := x.ready ++ [r] }
  | _, _ => s

/-- An asynchronous event arises for a slice's controller. -/
def asyncEvent (s : State) (n : Nat) (e : AsyncEv) : State :=
  (s.modSlice n (fun x => { x with asyncs := x.asyncs ++ [e] })).deliverAsync n

/-- A SMART/Health event of one Critical Warning bit arises where the controller is enabled and feature 0x0B asks for it, as
NVMe 2.0 has it (R199, R380). -/
def healthEvent (s : State) (n bit : Nat) (e : AsyncEv) : State :=
  if (s.slice n).ctrl.rdy && natBit (s.slice n).feats.asyncCfg.toNat bit then s.asyncEvent n e else s

/-! ### Controller resets (R140 to R142, R183, R190) -/

/-- Stop a heat's core: a STOP entry from heat mode, and the runtime lets go of it (R490). -/
def stopCore (s : State) (core : Nat) : State :=
  s.modCore core (fun k =>
    let k := if k.marshal then k else enter k 7 1 k.pc 0
    { k with hold := .none, loading := false, svc := none, stopReq := false, suspReq := false })

/-- The cores of a heat are free. -/
def freeCores (s : State) (h : Heat) : State :=
  match h.st with
  | .loading | .running | .suspended | .delivering => h.cores.foldl (fun s k => s.stopCore k) s
  | _ => s

def dropHeat (s : State) (c : CmdId) : State := { s with heats := s.heats.filter (fun h => decide (h.id ≠ c)) }

/-- Every heat of a slice, in whichever state, is stopped and discarded without completion (R140, R156, R562). -/
def dropHeats (s : State) (n : Nat) : State :=
  (s.heats.filter (fun h => h.id.slice = n)).foldl (fun s h => ((s.freeCores h).dropHeat h.id).discardCmd h.id) s

/-- The heats are stopped and discarded; of the other commands those at their completion stage end normally, and every
other one is discarded (R140). -/
def squash (s : State) (n : Nat) : State :=
  (((s.dropHeats n).slice n).adms.filter (fun a => !a.stage || (!a.admin && a.ent.opc = 0x86))).foldl
    (fun s a => s.discardCmd a.id) (s.dropHeats n)

/-- The controller registers at their reset values, no queues, CSTS.RDY 0 (R142). The features go
back to their reset values with them, LTOL_US among them (R901). -/
def resetController (x : Slice) : Slice :=
  { x with ctrl := {}, feats := {}, sqs := [], cqs := [], strays := [], aers := [], asyncs := [], adms := [],
           ready := [], aborts := [], rr := 0, wrr := [0, 0, 0, 0] }

/-- No admitted command is left and every completion has been posted (R142). Once CSTS.CFS is 1 no further completion
is posted (R193), and none is waited for. -/
def quiet (x : Slice) : Bool := x.adms.isEmpty && (x.ready.isEmpty || x.ctrl.cfs)

/-- Begin a controller reset as under RESET_SQUASH (R183, R190). -/
def beginCtrlReset (s : State) (n : Nat) : State :=
  (s.squash n).modSlice n (fun x =>
    { x with ctrl := { x.ctrl with resetting := true, enableDue := false } })

/-- End a controller reset once nothing of it is left. -/
def endCtrlReset (s : State) (n : Nat) : State :=
  let x := s.slice n
  if x.ctrl.resetting && quiet x then s.setSlice n (resetController x) else s

/-- The MSI-X table of a port as register keys (R243). -/
def isMsixKey (p k : Nat) : Bool := decide (0x140000 + 0x10000 * p ≤ k) && decide (k < 0x148000 + 0x10000 * p)

/-- An event of R183 on a port: its controllers are reset as RESET_SQUASH, its configuration space and MSI-X
go back to reset, and its link is kept (`keep`) or goes down. -/
def portReset (s : State) (p : Nat) (keep : Bool) : State :=
  let s := (s.slices.filter (fun q => q.2.port = p && q.2.st.holds)).foldl (fun s q => s.beginCtrlReset q.1) s
  let down := !keep && (s.port p).linkUp
  let s := s.modPort p (fun x =>
    if keep then { x with busMaster := false, bar4 := 0, downSeen := true }
    else { ident := x.ident, perst := x.perst, downSeen := true })
  let s := { s with rw := s.rw.filter (fun q => !isMsixKey p q.1),
                    msixPend := s.msixPend.filter (fun v => decide (v / 2048 ≠ p)) }
  (if down then s.emit (.linkDown p) else s).ev 0x1200 noSlice

/-- Is the slice's controller admitting commands (R118, R189 to R193)? -/
def admitting (s : State) (n : Nat) : Bool :=
  let x := s.slice n
  x.st = .active && x.ctrl.rdy && !x.ctrl.cfs && !x.ctrl.cfsDue && x.ctrl.shst = 0 && !x.ctrl.resetting &&
  !s.dev.restartDue && !s.wbf.pfTaken && s.dev.phase = .ready

/-- Normal or abrupt shutdown ends once every admitted command has completed (R191). -/
def endShutdown (s : State) (n : Nat) : State :=
  let x := s.slice n
  if x.ctrl.shst = 1 && quiet x then
    s.setSlice n { x with ctrl := { x.ctrl with shst := 2 } }
  else s

/-- CSTS.CFS at the first tick after a bus failure (R193). -/
def takeCfs (s : State) (n : Nat) : State :=
  let x := s.slice n
  if x.ctrl.cfsDue then
    ((s.setSlice n { x with ctrl := { x.ctrl with cfs := true, cfsDue := false } }).squash n).ev 0x1201 n
  else s

/-! ### Data pointers and the CMB (R215) -/

/-- Does a host range touch the port's BAR4? -/
def touchesBar4 (s : State) (p a len : Nat) : Bool :=
  let b := (s.port p).bar4
  decide (b ≠ 0) && decide (a < b + s.cmbSize) && decide (b < a + max len 1)

/-- Does a host range lie wholly in the slice's own portion? -/
def inPortion (s : State) (n a len : Nat) : Bool :=
  let x := s.slice n
  match x.cmbOff with
  | none => false
  | some o =>
    let b := (s.port x.port).bar4 + o * 2 ^ 20
    decide (b ≤ a) && decide (a + len ≤ b + x.cmbMib * 2 ^ 20)

/-- A range in BAR4 must lie wholly in the slice's own portion (R215). -/
def cmbUseOk (s : State) (n : Nat) (r : Nat × Nat) : Bool :=
  !s.touchesBar4 (s.slice n).port r.1 r.2 || s.inPortion n r.1 r.2

/-- The lists, segments and data ranges of a data pointer are all placed as R215 asks. -/
def pointerPlaced (s : State) (n : Nat) (d : DataPtr) : Bool := (d.ranges ++ d.lists).all (fun r => s.cmbUseOk n r)

/-- The total length of a data pointer. -/
def ptrLen (d : DataPtr) : Nat := lsum (d.ranges.map Prod.snd)

/-- Deliver bytes to the ranges of a data pointer, in order: into the CMB portion or to the host. -/
def deliver (s : State) (n : Nat) : List (Nat × Nat) → Bytes → State
  | [], _ => s
  | (a, len) :: t, bs =>
    let d := bs.take len
    let p := (s.slice n).port
    let s := if d.isEmpty then s
             else if s.touchesBar4 p a d.length then
               s.cmbPut (a - (s.port p).bar4) d
             else s.emit (.hostWrite (s.pasidOf n) a d)
    deliver s n t (bs.drop len)

/-- The CMB bytes of a range. -/
def rangeHas (s : State) (n : Nat) (r : Nat × Nat) (o : Nat) : Bool :=
  s.touchesBar4 (s.slice n).port r.1 r.2 && cmbHas (r.1 - (s.port (s.slice n).port).bar4) r.2 o

/-- Does command data in the CMB have an uncorrectable word (R869)? -/
def cmbBad (s : State) (n : Nat) (rs : List (Nat × Nat)) : Bool := rs.any (fun r => s.wordsBad (s.rangeHas n r))

/-- The words of ranges in the CMB are read. -/
def readCmb (s : State) (n : Nat) (rs : List (Nat × Nat)) : State := s.readWords (fun o => rs.any (fun r => s.rangeHas n r o))

/-! ### DMA chunks (R29, R31, R36, R185, R216, R219, R290) -/

/-- The first `len` bytes of a run of ranges. -/
def cutRanges : List (Nat × Nat) → Nat → List (Nat × Nat)
  | [], _ => []
  | (a, l) :: t, len => if len = 0 then [] else (a, min l len) :: cutRanges t (len - l)

/-- A part of a data pointer's ranges: from byte `off` on. -/
def rangesFrom : List (Nat × Nat) → Nat → List (Nat × Nat)
  | [], _ => []
  | (a, len) :: t, off => if len ≤ off then rangesFrom t (off - len) else (a + off, len - off) :: t

/-- The bytes of ranges in host memory, and in the CMB. -/
def hostBytes (s : State) (n : Nat) (rs : List (Nat × Nat)) : Nat :=
  lsum ((rs.filter (fun r => !s.touchesBar4 (s.slice n).port r.1 r.2)).map Prod.snd)
def cmbBytes (s : State) (n : Nat) (rs : List (Nat × Nat)) : Nat :=
  lsum ((rs.filter (fun r => s.touchesBar4 (s.slice n).port r.1 r.2)).map Prod.snd)

/-- The chunks that one direction of a port may move in a stride: 8 on an x16 port, 4 on an x8 port (R219). -/
def linkChunks (s : State) : Nat := if s.portCount = 1 then 8 else 4

/-- The key of a port's direction in `LinkStride.moved`. -/
def linkKey (s : State) (n : Nat) (out : Bool) : Nat := 2 * (s.slice n).port + (if out then 1 else 0)

/-- The host chunks that a slice may still move in the stride: none unless it holds or borrows its port's slot and the
port takes part in transfers (R185, R219). -/
def hostRoom (s : State) (n : Nat) (out : Bool) : Nat :=
  if s.portMoves (s.slice n).port && s.link.holders.getD (s.slice n).port none = some n then
    s.linkChunks - tgetD s.link.moved (s.linkKey n out) 0
  else 0

/-- The internal chunks that a slice may still move into the buffer in the stride (R290). -/
def innerRoom (s : State) (n : Nat) : Nat := 4 - tgetD s.link.inner n 0

/-- A command's data moves in chunks of at most 4 KiB, as many as the stride still takes; what has moved is kept, and the
rest goes on in a later stride (R29, R31). The answer says whether all of it has moved; what the CMB can not give does
not (R869). -/
def moveData (s : State) (c : CmdId) (out : Bool) (rs : List (Nat × Nat)) : State × Bool :=
  match s.adm? c with
  | none => (s, false)
  | some a =>
    let n := c.slice
    let h := ceilDiv (s.hostBytes n rs) 4096 - a.movedHost
    let i := ceilDiv (s.cmbBytes n rs) 4096 - a.movedCmb
    let h' := min h (s.hostRoom n out)
    let i' := if out then i else min i (s.innerRoom n)
    let done := decide (h' = h) && decide (i' = i) && (out || !s.cmbBad n rs)
    let l := s.link
    let l := if h' = 0 then l
             else { l with moved := tset l.moved (s.linkKey n out) (tgetD l.moved (s.linkKey n out) 0 + h') }
    let l := if out || i' = 0 then l else { l with inner := tset l.inner n (tgetD l.inner n 0 + i') }
    ({ s.modAdm c (fun a => if done then { a with movedHost := 0, movedCmb := 0 }
                            else { a with movedHost := a.movedHost + h', movedCmb := a.movedCmb + i' }) with link := l },
     done)

/-- Deliver a command's result and complete it: at once where the stride takes all its chunks, and otherwise by the
ticks that follow. -/
def respond (s : State) (c : CmdId) (r : Reply) : State :=
  let m := s.moveData c true (cutRanges r.ranges r.data.length)
  if m.2 then (m.1.deliver c.slice r.ranges r.data).finish c r.status r.dw0 r.dw1
  else m.1.modAdm c (fun a => { a with started := true, reply := some r })

/-- The deliveries that a tick takes up again, oldest stamp first within a slice. -/
def replyTick (s : State) : State :=
  s.slices.foldl (fun s p =>
    (p.2.adms.filter (fun a => a.reply.isSome)).foldl (fun s a => match a.reply with
      | some r => s.respond a.id r
      | none => s) s) s

end State

end Sys2Proof.Machine
end

