-- ==== Sys2Proof/Machine/Ftl.lean ====
section
/-! DEFINITION. Flash translation: addresses and map entries, allocation, the journal, checkpoints,
flushes, copies, retirement and die loss (R322 to R390). -/

namespace Sys2Proof.Machine

/-! ### Physical addresses and map entries (R327 to R332) -/

/-- Compose a physical address. -/
def paddr (ch die plane blk page slot : Nat) : Nat :=
  ch * 2 ^ 35 + die * 2 ^ 31 + plane * 2 ^ 29 + blk * 2 ^ 14 + page * 4 + slot

/-- Bits [39:14]: the block of a physical address. -/
def blkOf (a : Nat) : Nat := a / 2 ^ 14
/-- Bits [13:0]: page and slot within the block. -/
def idxOf (a : Nat) : Nat := a % 2 ^ 14
/-- Channel × 16 + die of a block number and of an address. -/
def dieOfBlk (b : Nat) : Nat := b / 2 ^ 17
def dieOf (a : Nat) : Nat := a / 2 ^ 31

/-- UNMAPPED and LOST (R330). -/
def unmapped : Nat := 0xFFFFFFFFFF
def lostEntry : Nat := 0xFFFFFFFFFE

/-- An entry whose BLOCK is 32,767 is special (R330). -/
def isSpecial (e : Nat) : Bool := e / 2 ^ 14 % 2 ^ 15 = 32767
/-- V of a special entry (R330). -/
def entryV (e : Nat) : Nat := e / 2 ^ 29 * 2 ^ 14 + e % 2 ^ 14
/-- The FINE coarse entry that names group V (R330). -/
def fineEntry (v : Nat) : Nat := v / 2 ^ 14 * 2 ^ 29 + 32767 * 2 ^ 14 + v % 2 ^ 14

/-- What a slot of the logical space maps to. `bad` marks a reserved entry value (R332). -/
inductive MapTo where
  | phys (a : Nat)
  | unmapped
  | lost
  | bad
  deriving DecidableEq, Repr

/-- The data bytes of a logical block, by LBA format (R196), and its metadata bytes. -/
def lbaData (f : Nat) : Nat := if f = 0 || f = 2 then 512 else 4096
def lbaMeta (f : Nat) : Nat := if f = 2 || f = 3 then 8 else if f = 4 then 16 else 0

/-- Does an entry of a namespace hold a block? -/
def Entry.holds (e : Entry) (nsid lba : Nat) : Bool := e.nsid = nsid && (tget e.blocks lba).isSome

/-- The address that an operation works on. -/
def PollKind.addr : PollKind → Nat
  | .hostRead _ a => a
  | .copyRead _ a => a
  | .program _ _ a => a
  | .mergeRead _ _ _ _ a => a
  | .demoteRead _ a => a
  | .demoteProgram _ a => a
  | .demoteVerify _ a => a
  | .erase b => b * 2 ^ 14
  | .copyProgram _ b => b * 2 ^ 14
  | .copyVerify _ b => b * 2 ^ 14

/-- Whose channel slots an operation uses: a slice's for its reads and its flushes, otherwise the FTL's (R272, R414). -/
def PollKind.owner : PollKind → Option Nat
  | .hostRead c _ => some c.slice
  | .program sl _ _ => some sl
  | .mergeRead sl _ _ _ _ => some sl
  | _ => none

def PollKind.isRead : PollKind → Bool
  | .hostRead .. => true
  | .copyRead .. => true
  | .copyVerify .. => true
  | .mergeRead .. => true
  | .demoteRead .. => true
  | .demoteVerify .. => true
  | _ => false

/-- Has an operation made all its units in earlier strides, so that it can be found ended (R32)? -/
def PollOp.polled (p : PollOp) (stride : Nat) : Bool :=
  p.cmds = 0 && p.bursts = 0 && match p.last with
  | some t => decide (t < stride)
  | none => false

/-- A data burst can move: a program's data goes before its commands, a read's comes after its own. -/
def PollOp.bursting (p : PollOp) : Bool := decide (0 < p.bursts) && (!p.kind.isRead || p.cmds = 0)

/-- A command can be issued. -/
def PollOp.commanding (p : PollOp) : Bool := decide (0 < p.cmds) && (p.kind.isRead || p.bursts = 0)

/-- The type of the records that a copy's changes go into (R354). -/
def ReclaimFor.type : ReclaimFor → Nat
  | .gc => 6
  | .refresh => 7
  | .evac _ => 8

namespace State

/-- What an entry of a fine group, or a coarse entry that is not FINE, means for slot i. -/
def entryTo (e i : Nat) (coarse : Bool) : MapTo :=
  if isSpecial e then
    if entryV e = 0x1FFFFFF then .unmapped
    else if entryV e = 0x1FFFFFE then .lost
    else .bad
  else .phys (if coarse then e + i else e)

def coarseOf (s : State) (u : Nat) : Nat := tgetD s.ftl.coarse u unmapped

/-- The fine group of a unit, if its coarse entry is FINE. -/
def groupOf (s : State) (u : Nat) : Option Nat :=
  let e := s.coarseOf u
  if isSpecial e && decide (entryV e < s.ftl.fineTotal) then some (entryV e) else none

/-- The mapping of slot i of unit u (R329 to R332). -/
def mapOf (s : State) (u i : Nat) : MapTo :=
  match s.groupOf u with
  | some g =>
    match tget s.ftl.fine g with
    | some f => entryTo (f.ents.getD i unmapped) i false
    | none => .bad
  | none => entryTo (s.coarseOf u) i true

def setFtl (s : State) (f : Ftl) : State := { s with ftl := f }

/-! ### Dies, blocks and allocation (R346 to R348, R376, R398) -/

def blk (s : State) (b : Nat) : Blk := tgetD s.ftl.blks b {}

def modDie (s : State) (d : Nat) (f : Die → Die) : State :=
  s.setFtl { s.ftl with dies := tset s.ftl.dies d (f (s.die d)) }
def modChan (s : State) (c : Nat) (f : Chan → Chan) : State :=
  s.setFtl { s.ftl with chans := tset s.ftl.chans c (f (s.chan c)) }
def modBlk (s : State) (b : Nat) (f : Blk → Blk) : State :=
  s.setFtl { s.ftl with blks := tset s.ftl.blks b (f (s.blk b)) }

/-- The blocks of a die that data may use, by plane and then by block: neither bad ones nor the system area's (R346). -/
def blocksOf (s : State) (d : Nat) : List Nat :=
  let x := s.die d
  ((List.range x.planes).flatMap (fun p => (List.range x.blocksPerPlane).map (fun b =>
    p * 2 ^ 15 + b))).filter (fun b => !x.held.contains b) |>.map (d * 2 ^ 17 + ·)

def freeBlocks (s : State) (d : Nat) : List Nat :=
  (s.blocksOf d).filter (fun b => (s.blk b).state = .free)

/-- The block with the lowest program/erase count; the earlier of equals. -/
def leastWorn (s : State) : List Nat → Option Nat
  | [] => none
  | b :: t =>
    match leastWorn s t with
    | none => some b
    | some c => if (s.blk b).pe ≤ (s.blk c).pe then some b else some c

/-- The 4 KiB slots of a die's block in native mode. -/
def slotsPerBlock (s : State) (d : Nat) : Nat := (s.die d).pagesPerBlock * 4

/-- B of R376: native data bytes of one block. -/
def blockBytes (s : State) (d : Nat) : Nat := (s.die d).pagesPerBlock * 16384

/-- Good data blocks of a die (R376). -/
def goodBlocks (s : State) (d : Nat) : Nat := (s.die d).goodBlocks - (s.die d).health.retiredCount

/-- P of R376: dies present, not lost and not excluded. -/
def spareDies (s : State) : List Nat :=
  (s.ftl.dies.filter (fun p => p.2.present && p.2.qualified && !p.2.lost)).map Prod.fst

/-- The spare S_d of a die (R376). -/
def spareOf (s : State) (d : Nat) : Int :=
  (s.goodBlocks d : Int) - (ceilDiv s.ftl.capacity ((s.spareDies).length * s.blockBytes d) : Int) - 16

def intSum : List Int → Int
  | [] => 0
  | h :: t => h + intSum t

/-- FTL_SPARE (R390): the sum of the spares, or 0 when it is negative. -/
def spareSum (s : State) : Int := intSum (s.spareDies.map s.spareOf)
def spareNow (s : State) : Nat := s.spareSum.toNat

/-- The tuning fields in force (R389). -/
def gcUrgent (s : State) : Nat := natBits (s.forceNat 0x300028 0x103060) 23 16
def gcStart (s : State) : Nat := natBits (s.forceNat 0x300028 0x103060) 15 8
def gcStop (s : State) : Nat := natBits (s.forceNat 0x300028 0x103060) 7 0
def promoteThreshold (s : State) : Nat := natBits (s.forceNat 0x300020 0x3E804) 7 0
def decayLaps (s : State) : Nat := natBits (s.forceNat 0x300020 0x3E804) 23 8
def idleLaps (s : State) : Nat := s.forceNat 0x300024 0xEA60
def refreshDays (s : State) : Nat := natBits (s.forceNat 0x30002C 0x5A) 8 0
def ckptLaps (s : State) : Nat := s.forceNat 0x300030 0xEA60

/-- May a slice's flush go to this die (R348)? -/
def dieTakes (s : State) (d : Nat) : Bool :=
  s.dieInUse d && decide (0 < s.spareOf d) && decide (s.gcUrgent < (s.freeBlocks d).length)

/-- The dies of a channel in rotation order, from a die on. -/
def rotation (start : Nat) : List Nat := (List.range 16).map (fun i => (start + i) % 16)

/-- The open block of a kind on a die. -/
def openBlock (s : State) (d : Nat) (k : BlkState) : Option Nat :=
  ((s.ftl.blks.filter (fun p => dieOfBlk p.1 = d && p.2.state = k)).map Prod.fst).head?

/-- Close a block (R367). -/
def closeBlk (s : State) (b : Nat) : State :=
  let s := s.modBlk b (fun x => { x with state := .closed, closedAge := s.ftl.mediaAge,
                                         closeOrder := s.ftl.closeCount })
  s.setFtl { s.ftl with closeCount := s.ftl.closeCount + 1 }

/-- Take `n` slots in a row on a die's open block of a kind, aligned to a page quad for a whole unit;
a full block is closed and the least-worn free block follows it (R329, R346, R347). -/
def takeSlots (s : State) (d : Nat) (k : BlkState) (n : Nat) : Option (Nat × State) :=
  let alloc (s : State) : Option (Nat × State) :=
    match s.leastWorn (s.freeBlocks d) with
    | none => none
    | some b => some (b * 2 ^ 14, s.modBlk b (fun x => { x with state := k, nextSlot := n, slots := [] }))
  match s.openBlock d k with
  | none => alloc s
  | some b =>
    let i := if n = 16 then (s.blk b).nextSlot.add 15 / 16 * 16 else (s.blk b).nextSlot
    if i + n ≤ s.slotsPerBlock d then
      some (b * 2 ^ 14 + i, s.modBlk b (fun x => { x with nextSlot := i + n }))
    else alloc (s.closeBlk b)

/-- Put contents into the slots from an address on. -/
def putSlots (s : State) : Nat → List FlashSlot → State
  | _, [] => s
  | a, f :: t =>
    putSlots (s.modBlk (blkOf a) (fun x => { x with slots := tset x.slots (idxOf a) f })) (a + 1) t

/-- What a mapped slot holds. -/
def slotAt (s : State) (a : Nat) : Option FlashSlot := tget (s.blk (blkOf a)).slots (idxOf a)

/-! ### Namespaces in the logical space (R322, R325) -/

/-- A namespace's footprint in logical units (R325). -/
def nsUnits (n : Ns) : Nat := ceilDiv (n.nsze * lbaData n.lbaf) 65536

/-- Every namespace of the device: slice, NSID and namespace. -/
def allNs (s : State) : List (Nat × Nat × Ns) :=
  s.slices.flatMap (fun p => p.2.nss.map (fun q => (p.1, q.1, q.2)))

/-- The unit and slot that hold a logical block. -/
def unitOf (n : Ns) (lba : Nat) : Nat := n.firstUnit + lba * lbaData n.lbaf / 65536
def slotOf (n : Ns) (lba : Nat) : Nat := lba * lbaData n.lbaf % 65536 / 4096

/-- The logical blocks of one slot of a unit. -/
def slotLbas (n : Ns) (u i : Nat) : List Nat :=
  let per := 4096 / lbaData n.lbaf
  let base := ((u - n.firstUnit) * 16 + i) * per
  ((List.range per).map (base + ·)).filter (fun l => decide (l < n.nsze))

/-- The block of zeros of a format (R267). -/
def zeroBlock (f : Nat) : BlockData :=
  { data := List.replicate (lbaData f) 0, md := List.replicate (lbaMeta f) 0 }

/-- The 4,160 plain bytes of a slot: the data of its blocks, and their metadata filled up with zeros (R399). -/
def slotPlain (f : FlashSlot) : Bytes :=
  padTo 4096 (f.blocks.flatMap (fun b => b.2.data)) ++ padTo 64 (f.blocks.flatMap (fun b => b.2.md))

/-- The media tweak, UNIT × 16 + SLOT (R409). -/
def slotTweak (f : FlashSlot) : Nat := f.unit * 16 + f.slot

/-- The encrypted part of a slot as it stands on flash: one XTS data unit of 4,160 bytes (R406, R408). -/
def slotCipher (f : FlashSlot) : Bytes := xtsUnits (leBytes 64 f.key) true 4160 1 (slotTweak f) (slotPlain f)

/-- What decryption of a slot under a media key gives: the plain bytes under the key that wrote it, and under any other
what XTS gives from those bytes (R402, R406, R408). -/
def slotOpen (key : Nat) (f : FlashSlot) : Bytes :=
  if f.key = key then slotPlain f else xtsUnits (leBytes 64 key) false 4160 1 (slotTweak f) (slotCipher f)

/-- A block's content on flash: its data, zeros where nothing is mapped, none where it is lost
(R381). Another key than the slice's own opens nothing (R406). -/
def mediaBlock (s : State) (sl : Nat) (n : Ns) (lba : Nat) : Option BlockData :=
  match s.mapOf (unitOf n lba) (slotOf n lba) with
  | .unmapped => some (zeroBlock n.lbaf)
  | .lost | .bad => none
  | .phys a =>
    match s.slotAt a with
    | none => some (zeroBlock n.lbaf)
    | some f =>
      if some f.key = (s.slice sl).mediaKey then some (tgetD f.blocks lba (zeroBlock n.lbaf))
      else
        let i := lba % (4096 / lbaData n.lbaf)
        let bs := slotOpen ((s.slice sl).mediaKey.getD 0) f
        some { data := bytesAt bs (i * lbaData n.lbaf) (lbaData n.lbaf),
               md := bytesAt bs (4096 + i * lbaMeta n.lbaf) (lbaMeta n.lbaf) }

/-- The flash addresses that a set of blocks is read from. -/
def mediaAddrs (s : State) (n : Ns) (lbas : List Nat) : List Nat :=
  (lbas.filterMap (fun l => match s.mapOf (unitOf n l) (slotOf n l) with
    | .phys a => some a
    | _ => none)).eraseDups

/-! ### The journal (R351 to R360) -/

/-- Append a record to the journal; it waits to become durable. -/
def journal (s : State) (type : Nat) (ents : List JEnt) (stamp : Option Stamp := none)
    (victim : Nat := 0) (final : Bool := false) (covers : List (Nat × Nat × Option Nat) := []) : State :=
  let r : JRec := { seq := s.ftl.jnext, type := type, final := final, stamp := stamp,
                    victim := victim, ents := ents, covers := covers }
  s.setFtl { s.ftl with journal := s.ftl.journal ++ [r], jnext := s.ftl.jnext + 1 }

/-- Map changes as records of at most 64 entries (R353): `final` marks the last as FINAL, and it carries the entries that
the changes cover. A POST record takes them all (R357). -/
def journalAll (s : State) (type : Nat) (stamp : Option Stamp) (victim : Nat) (final : Bool)
    (covers : List (Nat × Nat × Option Nat)) : Nat → List JEnt → State
  | 0, _ => s
  | k + 1, es =>
    if type = 2 || decide (es.length ≤ 64) then s.journal type es stamp victim final covers
    else journalAll (s.journal type (es.take 64) stamp victim) type stamp victim final covers k (es.drop 64)

/-- A copy record's entry applies only where the map still holds OLD (R356). -/
def entryHolds (s : State) (e : JEnt) : Bool :=
  if e.slot = 0xFF then s.coarseOf e.loc = e.old
  else match s.groupOf e.loc with
    | some g => match tget s.ftl.fine g with
      | some f => f.ents.getD e.slot unmapped = e.old
      | none => false
    | none => false

def isCopyType (t : Nat) : Bool := t = 6 || t = 7 || t = 8

/-- Apply one journalled entry to the map (R352, R355). -/
def applyEnt (s : State) (type : Nat) (e : JEnt) : State :=
  if isCopyType type && !s.entryHolds e then s
  else if e.slot = 0xFF then
    let old := s.coarseOf e.loc
    let f := s.ftl
    let oldGroup := s.groupOf e.loc
    let f := { f with coarse := if e.new = unmapped then tdel f.coarse e.loc else tset f.coarse e.loc e.new }
    let f := match oldGroup with
      | some g => if e.new = old then f else { f with fine := tdel f.fine g }
      | none => f
    let g : Fine := { unit := e.loc, lastPartial := s.lap,
                      ents := (List.range 16).map (fun i => if isSpecial old then old else old + i) }
    let f := if isSpecial e.new && decide (entryV e.new < f.fineTotal) then
        { f with fine := tset f.fine (entryV e.new) g }
      else f
    s.setFtl f
  else match s.groupOf e.loc with
    | some g => s.setFtl { s.ftl with fine := tmod s.ftl.fine g (fun x =>
        { x with ents := lset x.ents e.slot e.new,
                 lastPartial := if type = 1 || type = 2 then s.lap else x.lastPartial }) }
    | none => s

/-- Apply a record's map changes (R352, R354). -/
def applyRec (s : State) (r : JRec) : State :=
  if r.type ≤ 8 then r.ents.foldl (fun s e => s.applyEnt r.type e) s else s

/-! ### Checkpoints (R358 to R360) -/

/-- Begin a checkpoint in the area not used last. -/
def startCkpt (s : State) : State :=
  let area := 1 - s.ftl.ckptArea
  let c : Ckpt := { startSeq := s.ftl.jseq, area := area, coarse := s.ftl.coarse, fine := s.ftl.fine,
                    blocks := s.ftl.blks }
  s.setFtl { s.ftl with ckptBegan := s.lap, ckptRunning := some c }

/-- A durable CHECKPOINT record completes the checkpoint: the band frees what it covers, and the
health records and recorders are saved with it (R358, R360, R419, R957). -/
def completeCkpt (s : State) : State :=
  match s.ftl.ckptRunning with
  | none => s
  | some c =>
    let f := { s.ftl with ckptRunning := none, ckptArea := c.area, ckptSeq := c.startSeq,
                          busy := s.ftl.busy && !s.ftl.ckptCmd, ckptCmd := false,
                          result := if s.ftl.ckptCmd then 0 else s.ftl.result,
                          bandRecs := s.ftl.bandRecs.filter (fun r => decide (c.startSeq < r.seq)) }
    let f := if c.area = 0 then { f with ckptA := some c } else { f with ckptB := some c }
    let hs := s.ftl.dies.map (fun p => (p.1, p.2.health))
    ({ s with ftl := f, dur := { s.dur with recDev := s.evr.dev, recSlices := s.evr.slices, health := hs } }).ev
      0x0500 noSlice (item 1 c.area)

/-! ### Charge release (R269, R270, R275, R277) -/

/-- The first block and the number of blocks of an NVM command (R233). -/
def slbaOf (e : SqEntry) : Nat := e.cdw11.toNat * 2 ^ 32 + e.cdw10.toNat
def nlbOf (e : SqEntry) : Nat := natBits e.cdw12.toNat 15 0 + 1

/-- SOURCE, SLBA and NLB of a search (R666). -/
def pSource (e : SqEntry) : Bool := natBit e.cdw10.toNat 29
def pSlba (e : SqEntry) : Nat := e.cdw15.toNat * 2 ^ 32 + e.cdw14.toNat
def pNlb (e : SqEntry) : Nat := natBits e.cdw11.toNat 15 0 + 1

/-- Does a range hold a block? -/
def holdsLba (slba count lba : Nat) : Bool := decide (slba ≤ lba) && decide (lba < slba + count)

/-- Does an admitted command that writes, and has no entry in the buffer yet, address the block? A Ledger Post whose list
has not been checked addresses every block, and so does a deallocation whose ranges have not arrived (R269). -/
def writesBlock (a : Adm) (nsid lba : Nat) : Bool :=
  !a.admin && a.ent.nsid = nsid && !a.started &&
  ((a.ent.opc = 0x81 && match a.ranges with
     | none => true
     | some rs => rs.any (fun r => holdsLba r.slba r.count lba)) ||
   (a.ent.opc = 0x09 && natBit a.ent.cdw11.toNat 2) ||
   ((a.ent.opc = 0x01 || a.ent.opc = 0x08) && holdsLba (slbaOf a.ent) (nlbOf a.ent) lba))

/-- Has an admitted command still to read the block? What a heat or scan reads is known once its descriptor is in. -/
def mayRead (a : Adm) (nsid lba : Nat) : Bool :=
  !a.admin && !a.started &&
  (if a.ent.opc = 0x02 || a.ent.opc = 0x05 || a.ent.opc = 0x0C then
     a.ent.nsid = nsid && holdsLba (slbaOf a.ent) (nlbOf a.ent) lba
   else if a.ent.opc = 0x8D || a.ent.opc = 0x91 then
     pSource a.ent && a.ent.nsid = nsid && holdsLba (pSlba a.ent) (pNlb a.ent) lba
   else if a.ent.opc = 0x86 || a.ent.opc = 0x8A then
     match a.reads with
     | none => true
     | some rs => rs.any (fun r => r.nsid = nsid && holdsLba r.range.slba r.range.count lba)
   else false)

/-- Does an admitted read still need a superseded block of entry `e` (R270)? Such a read is stamped later than `e` and
earlier than the write that supersedes the block. -/
def readNeeds (x : Slice) (e : Entry) : Bool :=
  x.adms.any (fun a => e.stamp.before a.stamp && e.blocks.any (fun b => mayRead a e.nsid b.1 &&
    x.entries.any (fun f => f.holds e.nsid b.1 && a.stamp.before f.stamp)))

/-- A block of an entry is superseded by a later-stamped visible entry (R275). -/
def superseded (x : Slice) (e : Entry) (lba : Nat) : Bool :=
  x.entries.any (fun f => f.holds e.nsid lba && f.visible.isSome && e.stamp.before f.stamp)

/-- The unit of an entry's block has been journalled with another entry's full flush (R336). -/
def flushedBlock (x : Slice) (e : Entry) (lba : Nat) : Bool :=
  match tget x.nss e.nsid with
  | some n => e.flushed.contains (unitOf n lba)
  | none => false

/-- Is every block of the entry that has to be written to flash journalled (R275, R277)? -/
def settled (x : Slice) (e : Entry) : Bool :=
  e.journalled || (!e.flushing && decide (e.blocks ≠ []) &&
    e.blocks.all (fun b => superseded x e b.1 || flushedBlock x e b.1))

/-- R277: the entry's charge can be released. -/
def releasable (x : Slice) (e : Entry) : Bool := e.visible.isSome && settled x e && !(readNeeds x e)

/-- An older-stamped write to one of the entry's blocks is still in the buffer or on its way there: the entry stays beside
it, so that the older data replaces the newer neither for a read nor on flash (R262, R266, R276). -/
def outlived (x : Slice) (e : Entry) : Bool :=
  x.entries.any (fun f => f.stamp.before e.stamp && e.blocks.any (fun b => f.holds e.nsid b.1)) ||
  x.adms.any (fun a => a.stamp.before e.stamp && e.blocks.any (fun b => writesBlock a e.nsid b.1))

/-- R277 at a tick: the charges of releasable entries are released, and those that nothing holds back leave the
buffer. -/
def releaseEntries (x : Slice) : Slice :=
  { x with entries := (x.entries.filter (fun e =>
      !(releasable x e && !outlived x e && (!e.paired || e.sent)))).map (fun e =>
      if releasable x e then { e with charge := 0 } else e) }

/-- Is the entry still in its slice's buffer? -/
def entryLives (s : State) (sl eid : Nat) : Bool := (s.slice sl).entries.any (fun e => e.id = eid)

/-- A record of writes that have all been discarded since changes nothing: their blocks keep what they held
(R141, R263). -/
def liveRec (s : State) (r : JRec) : JRec :=
  if r.covers ≠ [] && !r.covers.any (fun c => s.entryLives c.1 c.2.1) then { r with ents := [] } else r

/-- The units that an entry touches. -/
def entryUnits (n : Ns) (e : Entry) : List Nat := (e.blocks.map (fun b => unitOf n b.1)).eraseDups

/-- The map updates of an entry, or of one unit of it, are durable: a write-through entry becomes visible (R257, R288). -/
def coverEntry (s : State) (c : Nat × Nat × Option Nat) : State :=
  s.modSlice c.1 (fun x => { x with entries := x.entries.map (fun e =>
    if e.id = c.2.1 then
      match c.2.2 with
      | none => { e with journalled := true, visible := some (e.visible.getD (s.stride + 1)) }
      | some u => { e with flushed := u :: e.flushed }
    else e) })

/-- The front record of the journal becomes durable: both its copies are programmed, copy 2 after copy 1, on dies of two
channels (R350 to R352). While no two channels can take them, it stays as it is. -/
def recordDurable (s : State) : State :=
  match s.ftl.journal with
  | [] => s
  | r0 :: t =>
    match s.sysChoose with
    | (none, _) => s
    | (some d, s) =>
      let r := { s.liveRec r0 with copies := some d }
      let s := s.setFtl { s.ftl with journal := t, jseq := r.seq, bandRecs := s.ftl.bandRecs ++ [r] }
      let s := r.covers.foldl coverEntry (s.applyRec r)
      if r.type = 0x0A then s.completeCkpt else s

/-! ### Polled operations: their units on the channels (R29, R32, R1055, R399, R414) -/

/-- An operation on `slots` slots as it becomes ready: a command for each page, and bursts of 896 bytes for slots of 4,608
(R29, R399). An erase moves no data. -/
def pollOf (s : State) (k : PollKind) (slots : Nat) : PollOp :=
  { id := s.ftl.nextPoll, kind := k, ready := s.stride, cmds := max 1 (ceilDiv slots 4),
    bursts := ceilDiv (4608 * slots) 896 }

/-- A polled operation becomes ready (R1055). -/
def addPoll (s : State) (k : PollKind) (slots : Nat) : State :=
  s.setFtl { s.ftl with polls := s.ftl.polls ++ [s.pollOf k slots], nextPoll := s.ftl.nextPoll + 1 }

/-- The operation of an identity, where it can be found ended. -/
def poll? (s : State) (id : Nat) : Option PollOp :=
  (s.ftl.polls.find? (fun p => p.id = id)).filter (fun p => p.polled s.stride)

/-! ### Flushing (R272 to R276, R336 to R345) -/

/-- The newest of a list of entries by stamp. -/
def newest : List Entry → Option Entry
  | [] => none
  | e :: t =>
    match newest t with
    | none => some e
    | some f => if f.stamp.before e.stamp then some e else some f

/-- The logical blocks of a unit. -/
def unitLbas (n : Ns) (u : Nat) : List Nat := (List.range 16).flatMap (fun i => slotLbas n u i)

/-- Is every block of the unit covered by visible entries of the namespace (R273)? -/
def unitCovered (x : Slice) (nsid : Nat) (n : Ns) (u : Nat) : Bool :=
  (unitLbas n u).all (fun l => x.entries.any (fun e => e.holds nsid l && e.visible.isSome))

/-- WBF_FLUSH_HI and WBF_FLUSH_LO in force (R318). -/
def flushHi (s : State) : Nat := natBits (s.forceNat 0x200004 0x4B) 6 0
def flushLo (s : State) : Nat := natBits (s.forceNat 0x200008 0x32) 6 0

/-- The projected occupancy (R274): without the charges of the entries whose flushes have been started. -/
def projected (s : State) (sl : Nat) : Nat :=
  s.occupancy sl - lsum (((s.slice sl).entries.filter (fun e => e.flushing)).map Entry.charge)

/-- Are flushes started under the third condition of R273? From the high-water mark on, until the projected
occupancy falls below the low-water mark (R274). -/
def waterOpen (s : State) (sl : Nat) : Bool :=
  let total := s.wbfTotal sl * 256
  ((s.slice sl).water || decide (s.flushHi * total ≤ 100 * s.occupancy sl)) &&
  decide (s.flushLo * total ≤ 100 * s.projected sl)

/-- Has a visible entry become eligible by coverage of a unit or by age (R273)? -/
def flushDue (s : State) (x : Slice) (e : Entry) : Bool :=
  match e.visible with
  | none => false
  | some t =>
    e.due || decide (t + natBits (s.forceNat 0x20000C 8) 7 0 * 4000 ≤ s.stride) ||
    match tget x.nss e.nsid with
    | some n => (entryUnits n e).any (fun u => unitCovered x e.nsid n u)
    | none => true

/-- What a tick notes for flushing: the entries that have become eligible, and the slices between their water
marks. -/
def waterTick (s : State) : State :=
  s.slices.foldl (fun s p => s.modSlice p.1 (fun x =>
    { x with water := s.waterOpen p.1, entries := x.entries.map (fun e => { e with due := s.flushDue x e }) })) s

/-- Is an entry the oldest-stamped visible one whose flush has not been started (R274)? -/
def oldestVisible (x : Slice) (e : Entry) : Bool :=
  x.entries.all (fun f => f.flushing || settled x f || f.visible.isNone || !f.stamp.before e.stamp)

/-- Is an entry eligible for flushing (R147, R257, R273, R274, R306)? -/
def flushEligible (s : State) (sl : Nat) (e : Entry) : Bool :=
  let x := s.slice sl
  !e.flushing && !settled x e &&
  match e.visible with
  | none => e.wt && e.ready.isSome
  | some _ =>
    s.wbf.drainPeriod || x.st = .saving || x.st = .migrating || s.flushDue x e ||
    (s.waterOpen sl && oldestVisible x e)

/-- The channels in whose slots a slice's programs may run in this stride (R272, R306). -/
def flushChannels (s : State) (sl : Nat) : List Nat :=
  (List.range s.channelsPresent).filter (fun c =>
    s.slotHolder (0x100 + c) s.stride = some sl || (s.wbf.drainPeriod && s.ftlSlot c))

/-- The die that a channel's rotation gives next (R348). -/
def nextDie (s : State) (ch : Nat) : Option Nat :=
  (rotation (s.chan ch).nextDie).find? (fun d => s.dieTakes (ch * 16 + d))

/-- A block of an entry that is to be written to flash (R275). -/
def liveBlock (x : Slice) (e : Entry) (l : Nat) : Bool :=
  (tget e.blocks l).isSome && !superseded x e l && !flushedBlock x e l

/-- The entries that a full flush of a unit may take blocks from: the one that is flushed, and visible ones that are no
posts, whose changes stand in records of their own (R357). -/
def coverSet (x : Slice) (e : Entry) : List Entry :=
  x.entries.filter (fun f => f.nsid = e.nsid && (f.id = e.id || (f.visible.isSome && !f.post)))

/-- Does a flush of the entry cover all 16 slots of a unit (R336)? -/
def fullUnit (x : Slice) (n : Ns) (e : Entry) (u : Nat) : Bool :=
  (unitLbas n u).all (fun l => (coverSet x e).any (fun f => (tget f.blocks l).isSome))

/-- Is an entry's block lost: marked so, or with an uncorrectable word (R869)? -/
def blockGone (s : State) (sl : Nat) (e : Entry) (l : Nat) : Bool :=
  match tget e.blocks l with
  | some .lost => true
  | some (.data _) => s.wordsBad (fun o => Config.bufferByte o sl e.id l)
  | _ => false

/-- The entry that a full flush takes a block from. -/
def coverOf (x : Slice) (e : Entry) (l : Nat) : Option Entry :=
  newest ((coverSet x e).filter (fun f => (tget f.blocks l).isSome))

/-- The content of a block that is lost. -/
def lostBlock (sl : Nat) (n : Ns) (l : Nat) : BlockData :=
  { data := padTo (lbaData n.lbaf) (Config.lostFill sl l), md := List.replicate (lbaMeta n.lbaf) 0 }

/-- What a flush of an entry writes for a block: the new data, or what the block holds on flash (R336 to R338). What is
lost of a slot that is written only in part is an open value: the spec gives none. -/
def flushBlock (s : State) (sl : Nat) (n : Ns) (e : Entry) (full unread : Bool) (l : Nat) : BlockData :=
  let x := s.slice sl
  let src := if full then coverOf x e l else if liveBlock x e l then some e else none
  match src.bind (fun f => tget f.blocks l) with
  | some (.data b) => b
  | some .lost => lostBlock sl n l
  | some _ => zeroBlock n.lbaf
  | none => if unread then lostBlock sl n l else (s.mediaBlock sl n l).getD (lostBlock sl n l)

/-- The content of a slot of a unit that a flush writes; `unread` says that the slot's merge read gave nothing. -/
def flushSlot (s : State) (sl : Nat) (n : Ns) (e : Entry) (full unread : Bool) (u i : Nat) : FlashSlot :=
  { unit := u, slot := i, slice := sl, stamp := e.stamp, key := (s.slice sl).mediaKey.getD 0,
    blocks := (slotLbas n u i).map (fun l => (l, s.flushBlock sl n e full unread l)) }

/-- The candidate table after a partial flush of a unit, and the unit's count (R339). -/
def countPartial (s : State) (u : Nat) : State × Nat :=
  let k := u % 262144
  let c := tgetD s.ftl.cand k { unit := 0, count := 0 }
  let set (c : Cand) : State := s.setFtl { s.ftl with cand := tset s.ftl.cand k c }
  if c.unit = u && decide (0 < c.count) then
    let m := min 255 (c.count + 1)
    (set { c with count := m }, m)
  else if c.count ≤ 1 then (set { unit := u, count := 1 }, 1)
  else (s, 0)

/-- The lowest free fine group. -/
def freeGroup (s : State) : Option Nat :=
  (List.range (s.ftl.fine.length + s.ftl.journal.length + 1)).find? (fun g =>
    decide (g < s.ftl.fineTotal) && (tget s.ftl.fine g).isNone &&
    !s.ftl.journal.any (fun r => r.ents.any (fun e => e.slot = 0xFF && e.new = fineEntry g)))

/-- Promote a unit (R340, R341): a PROMOTE record goes into the journal before the flush's. -/
def promote (s : State) (u g : Nat) : State :=
  let k := u % 262144
  let s := s.journal 4 [{ loc := u, slot := 0xFF, new := fineEntry g, old := s.coarseOf u }]
  ({ s with ftl := { s.ftl with cand := tset s.ftl.cand k { unit := u, count := 0 },
                                cntPromote := satAdd s.ftl.cntPromote 1 0xFFFFFFFF } }).ev 0x0501 noSlice

/-- Is a PROMOTE of the unit on its way to becoming durable? -/
def promoting (s : State) (u : Nat) : Bool :=
  s.ftl.journal.any (fun r => r.type = 4 && r.ents.any (fun e => e.loc = u))

/-- Is a unit fine, or about to be? -/
def fineNow (s : State) (u : Nat) : Bool := (s.groupOf u).isSome || s.promoting u

/-- Is a slot of a unit LOST, or a reserved value that counts as LOST (R332)? -/
def slotLost (s : State) (u i : Nat) : Bool :=
  match s.mapOf u i with
  | .lost | .bad => true
  | _ => false

def slotReserved (s : State) (u i : Nat) : Bool :=
  match s.mapOf u i with
  | .bad => true
  | _ => false

/-- Has a unit a slot marked LOST (R344)? -/
def hasLost (s : State) (u : Nat) : Bool := (List.range 16).any (fun i => s.slotLost u i)

/-- Meeting a reserved value of a map entry makes event 0x1502 (R332). -/
def noteReserved (s : State) (u : Nat) (is : List Nat) : State :=
  if is.any (fun i => s.slotReserved u i) then s.ev 0x1502 noSlice else s

/-- The slots of a unit that an entry has blocks to write in. -/
def hitSlots (x : Slice) (n : Ns) (e : Entry) (u : Nat) : List Nat :=
  (List.range 16).filter (fun i => (slotLbas n u i).any (fun l => liveBlock x e l))

/-- The address of a slot that a merge reads; none where nothing is to be read. -/
def mergeAddr (s : State) (u i : Nat) : Option Nat :=
  match s.mapOf u i with
  | .phys a => some a
  | _ => none

/-- A die's data cannot be read: it is lost, or its channel has not trained (R380, R398). -/
def dieDead (s : State) (d : Nat) : Bool := (s.die d).lost || !(s.chan (d / 16)).trained

/-- The namespace that owns a unit. -/
def nsOfUnit (s : State) (u : Nat) : Option (Nat × Nat × Ns) :=
  s.allNs.find? (fun q => decide (q.2.2.firstUnit ≤ u) && decide (u < q.2.2.firstUnit + nsUnits q.2.2))

/-- Add a run of lost blocks to the loss list, merging a contiguous one (R380, R386). -/
def addLost (s : State) (l : Lost) : State :=
  let s := s.modSlice l.slice (fun x => { x with health := true })
  match s.ftl.loss.getLast? with
  | some p =>
    if p.slice = l.slice && p.nsid = l.nsid && p.die = l.die && p.slba + p.blocks = l.slba then
      s.setFtl { s.ftl with loss := s.ftl.loss.dropLast ++ [{ p with blocks := p.blocks + l.blocks }] }
    else if s.ftl.loss.length < 16777216 then s.setFtl { s.ftl with loss := s.ftl.loss ++ [l] }
    else (s.setFtl { s.ftl with lossOverflow := true }).ev 0x4507 noSlice
  | none => s.setFtl { s.ftl with loss := [l] }

/-- Slot i of unit u is lost with die `d`: its extent joins the loss list. -/
def loseSlot (s : State) (d u i : Nat) : State :=
  match s.nsOfUnit u with
  | none => s
  | some (sl, nsid, n) =>
    match slotLbas n u i with
    | [] => s
    | l :: t => s.addLost { slice := sl, die := d, nsid := nsid, slba := l, blocks := t.length + 1 }

/-- Slots of a unit whose new blocks are lost in the buffer: their words are read, and their extents join the loss list
(R384, R869). -/
def loseHits (s : State) (sl : Nat) (e : Entry) (n : Ns) (u : Nat) (gone : List Nat) : State :=
  gone.foldl (fun s i =>
    ((slotLbas n u i).foldl (fun s l => s.readWords (fun o => Config.bufferByte o sl e.id l)) s).loseSlot
      (((s.mergeAddr u i).map dieOf).getD 0) u i) s

/-- Plan the flush of one unit of an entry (R336 to R341): it is counted and promoted where R339 and R340 say so, and the
slots that a merge needs are read. What cannot be read is noted. A slot of which a new block is lost in the buffer is not
written: it is to become LOST, and joins the loss list (R869). -/
def planUnit (s : State) (sl : Nat) (n : Ns) (e : Entry) (u : Nat) : State × List FlushPart :=
  let x := s.slice sl
  let hits := hitSlots x n e u
  if hits = [] then (s, [])
  else
    let full := fullUnit x n e u && !(unitLbas n u).any (fun l => (coverOf x e l).any (fun f => s.blockGone sl f l))
    let gone := if full then [] else hits.filter (fun i =>
      (slotLbas n u i).any (fun l => liveBlock x e l && s.blockGone sl e l))
    let slots := hits.filter (fun i => !gone.contains i)
    let s := s.loseHits sl e n u gone
    let c := if full || s.fineNow u then (s, 0) else s.countPartial u
    let g := if !full && !s.fineNow u && decide (s.promoteThreshold ≠ 0) && c.2 = s.promoteThreshold then
        s.freeGroup else none
    let t := match g with
      | some g => c.1.promote u g
      | none => c.1
    let fine := !full && (s.fineNow u || g.isSome)
    let need := if full then [] else if fine || decide (gone ≠ []) then slots.filter (fun i => !(slotLbas n u i).all (fun l => liveBlock x e l))
                else List.range 16
    let t := t.noteReserved u need
    let dead := need.filter (fun i => s.slotLost u i || (s.mergeAddr u i).any (fun a => s.dieDead (dieOf a)))
    let reads := (need.filter (fun i => !dead.contains i)).filterMap (fun i => (s.mergeAddr u i).map (fun a => (i, a)))
    (reads.foldl (fun t q => t.addPoll (.mergeRead sl e.id u q.1 q.2) 1) t,
     [{ unit := u, slots := slots, whole := !fine, full := full, reads := reads.length, bad := dead, unread := dead,
        gone := gone }])

/-- Is block `l` of an entry only marked, as zero or deallocated, and still to be written? -/
def marked (x : Slice) (e : Entry) (l : Nat) : Bool :=
  match tget e.blocks l with
  | some .zero | some .dealloc => liveBlock x e l
  | _ => false

/-- The entry that maps slot i of a unit: of its fine group, or by its coarse entry. -/
def slotEntry (s : State) (u i : Nat) : Nat :=
  match s.groupOf u with
  | some g =>
    match tget s.ftl.fine g with
    | some f => f.ents.getD i unmapped
    | none => unmapped
  | none => if isSpecial (s.coarseOf u) then s.coarseOf u else s.coarseOf u + i

/-- The map changes of an entry's zero and deallocation markings in a unit (R267, R354 TRIM): the unit
becomes UNMAPPED where all of it is marked, and else each wholly marked slot of a fine group. -/
def trimUnit (s : State) (sl : Nat) (n : Ns) (e : Entry) (u : Nat) : List JEnt :=
  let x := s.slice sl
  let cov (i : Nat) : Bool := decide (slotLbas n u i ≠ []) && (slotLbas n u i).all (fun l => marked x e l)
  if (List.range 16).all (fun i => cov i || slotLbas n u i = []) then
    [{ loc := u, slot := 0xFF, new := unmapped, old := s.coarseOf u }]
  else if (s.groupOf u).isSome then
    ((List.range 16).filter cov).map (fun i => { loc := u, slot := i, new := unmapped, old := s.slotEntry u i })
  else []

/-- What of an entry is left to program once its trimmed parts are taken out. -/
def untrimmed (n : Ns) (e : Entry) (ts : List JEnt) : Entry :=
  { e with blocks := e.blocks.filter (fun b => !ts.any (fun t =>
      t.loc = unitOf n b.1 && (t.slot = 0xFF || t.slot = slotOf n b.1))) }

/-- A flush has nothing more to place or program (R341, R357): its record goes into the journal. An entry with nothing to
journal is done at once, and a write discarded since gets no record. -/
def finishJob (s : State) (j : FlushJob) : State :=
  let s := s.setFtl { s.ftl with jobs := s.ftl.jobs.filter (fun k => decide (k ≠ j)) }
  if !s.entryLives j.slice j.entry then s
  else if j.ents = [] then s.coverEntry (j.slice, j.entry, none)
  else s.journalAll j.type (some j.stamp) 0 false
    ((j.slice, j.entry, none) :: j.others.map (fun o => (j.slice, o.1, some o.2))) (j.ents.length + 1) j.ents

/-- Begin the flush of an entry (R273, R336 to R341). -/
def flushEntry (s : State) (sl : Nat) (e : Entry) : State :=
  match tget (s.slice sl).nss e.nsid with
  | none => s
  | some n =>
    let s := s.modSlice sl (fun x =>
      { x with entries := x.entries.map (fun f => if f.id = e.id then { f with flushing := true } else f) })
    let trims := (entryUnits n e).flatMap (fun u => s.trimUnit sl n e u)
    let e' := untrimmed n e trims
    let r := (entryUnits n e').foldl (fun (acc : State × List FlushPart) u =>
      let q := acc.1.planUnit sl n e' u
      (q.1, acc.2 ++ q.2)) (s, [])
    let type := if e.post then 2 else if r.2 = [] && decide (trims ≠ []) then 3 else 1
    let job : FlushJob := { slice := sl, entry := e.id, type := type, stamp := e.stamp, ents := trims,
                            parts := r.2, left := 0 }
    let t := r.1.setFtl { r.1.ftl with jobs := r.1.ftl.jobs ++ [job] }
    if r.2 = [] then t.finishJob job else t

/-- Does an earlier-stamped read of a block of the entry still have to read what the block held before
the entry (R266)? Its flush waits for it. -/
def olderReadWaits (x : Slice) (e : Entry) : Bool :=
  x.adms.any (fun a => a.stamp.before e.stamp && e.blocks.any (fun b => mayRead a e.nsid b.1))

/-- Does a flush under way or a record that is not yet durable change a unit's mapping? A further flush
or demotion of the unit waits for it, so that no merge reads data that is about to be replaced (R276). -/
def unitBusy (s : State) (u : Nat) : Bool :=
  s.ftl.jobs.any (fun j => j.ents.any (fun e => e.loc = u) || j.parts.any (fun p => p.unit = u)) ||
  s.ftl.journal.any (fun r => decide (r.type ≤ 8) && r.ents.any (fun e => e.loc = u))

/-- Is some unit of an entry busy? -/
def entryBusy (s : State) (sl : Nat) (e : Entry) : Bool :=
  match tget (s.slice sl).nss e.nsid with
  | some n => (entryUnits n e).any (fun u => s.unitBusy u)
  | none => false

/-- Does an admitted Format NVM, Sanitize or namespace operation address a namespace (R268)? -/
def clearsNs (a : Adm) (nsid : Nat) : Bool :=
  a.admin && (a.ent.opc = 0x84 ||
    ((a.ent.opc = 0x80 || a.ent.opc = 0x0D) && (a.ent.nsid = nsid || a.ent.nsid = 0xFFFFFFFF)))

/-- The trim of a namespace is on its way to becoming durable: what the buffer holds of it goes with it (R268). -/
def trimPending (x : Slice) (nsid : Nat) : Bool := x.adms.any (fun a => a.jwait.isSome && clearsNs a nsid)

/-- FLUSH_START: the flush of an eligible entry of a slice that has channel slots begins. -/
def flushStart (s : State) (sl eid : Nat) : State :=
  match (s.slice sl).entries.find? (fun e => e.id = eid) with
  | none => s
  | some e =>
    if s.flushEligible sl e && !s.wbf.pfTaken && !olderReadWaits (s.slice sl) e && !s.entryBusy sl e &&
       !trimPending (s.slice sl) e.nsid then s.flushEntry sl e else s

/-- Replace a flush job. -/
def putJob (s : State) (j k : FlushJob) : State :=
  s.setFtl { s.ftl with jobs := s.ftl.jobs.map (fun x => if x = j then k else x) }

/-- A part that has met lost slots in a coarse unit goes on as a flush of a fine unit: the unit is promoted, and what is
lost and not written becomes or stays LOST (DESIGN CHOICE, 103: as R417 for copies). What was read misdirected and is not
written keeps its entry (R405). Without a free group it waits. -/
def healPart (s : State) (j : FlushJob) (p : FlushPart) : Option (State × FlushJob × FlushPart) :=
  if p.bad = [] && p.gone = [] && (!p.whole || p.unread = []) then some (s, j, p)
  else
    let gone := ((p.bad ++ p.gone).eraseDups.filter (fun i => !p.slots.contains i)).map (fun i =>
      ({ loc := p.unit, slot := i, new := lostEntry, old := s.slotEntry p.unit i } : JEnt))
    let q := { p with whole := false, bad := [], gone := [] }
    let k := { j with ents := j.ents ++ gone, parts := j.parts.map (fun r => if r = p then q else r) }
    if !p.whole || s.fineNow p.unit then some (s.putJob j k, k, q)
    else match s.freeGroup with
      | none => none
      | some g => some ((s.promote p.unit g).putJob j k, k, q)

/-- Place one coarse unit, or one slot of a fine one, of the flush of entry `e` on die `d` of a channel (R336 to R338,
R348). -/
def placeSlots (s : State) (ch d : Nat) (n : Ns) (e : Entry) (j : FlushJob) (p : FlushPart) : Option State :=
  let u := p.unit
  let slots := if p.whole then List.range 16 else p.slots.take 1
  match s.takeSlots (ch * 16 + d) .hostOpen slots.length with
  | none => none
  | some (a, t) =>
    let t := (t.putSlots a (slots.map (fun i => s.flushSlot j.slice n e p.full (p.unread.contains i) u i))).modChan ch (fun c =>
      { c with nextDie := (d + 1) % 16 })
    let op := t.pollOf (.program j.slice j.entry a) slots.length
    let t := t.setFtl { t.ftl with polls := t.ftl.polls ++ [{ op with ready := op.ready - 1 }],
                                   nextPoll := t.ftl.nextPoll + 1 }
    let t := if p.whole && (s.groupOf u).isSome then
        ({ t with ftl := { t.ftl with cntDemote := satAdd t.ftl.cntDemote 1 0xFFFFFFFF } }).ev 0x0502 noSlice
      else t
    let ent : JEnt := if p.whole then { loc := u, slot := 0xFF, new := a, old := s.coarseOf u }
      else { loc := u, slot := slots.headD 0, new := a, old := s.slotEntry u (slots.headD 0) }
    let x := s.slice j.slice
    let others := if p.full then
        ((coverSet x e).filter (fun f => decide (f.id ≠ e.id) && (entryUnits n f).contains u)).map (fun f => (f.id, u))
      else []
    let rest := if p.whole then [] else p.slots.drop 1
    some (t.putJob j { j with
      ents := j.ents ++ [ent], others := j.others ++ others, left := j.left + 1,
      parts := if rest = [] then j.parts.filter (fun r => decide (r ≠ p))
               else j.parts.map (fun r => if r = p then { p with slots := rest } else r) })

/-- Place the next of a part of a flush on a channel. It has nowhere to go where the channel has no die that takes it; a part
that only sets slots LOST places nothing. -/
def placePart (s : State) (ch : Nat) (j : FlushJob) (p : FlushPart) : Option State :=
  match (s.slice j.slice).entries.find? (fun e => e.id = j.entry), s.nextDie ch with
  | some e, some d =>
    match tget (s.slice j.slice).nss e.nsid, s.healPart j p with
    | some n, some (s, j, p) =>
      if !p.whole && decide (p.slots = []) then
        some (s.putJob j { j with parts := j.parts.filter (fun r => decide (r ≠ p)) })
      else s.placeSlots ch d n e j p
    | _, _ => none
  | _, _ => none

/-- What a flush has still to place: nothing of a write discarded since, and no slot whose new blocks are all superseded
(R275). -/
def trimJob (s : State) (j : FlushJob) : FlushJob :=
  let x := s.slice j.slice
  match x.entries.find? (fun e => e.id = j.entry) with
  | none => { j with parts := [] }
  | some e =>
    match tget x.nss e.nsid with
    | none => { j with parts := [] }
    | some n => { j with parts := (j.parts.map (fun p => { p with
        slots := p.slots.filter (fun i => p.full || (hitSlots x n e p.unit).contains i)
        gone := p.gone.filter (fun i => (hitSlots x n e p.unit).contains i) })).filter (fun p =>
        decide (p.slots ≠ []) || decide (p.gone ≠ [])) }

/-- The flushes of a slice as they stand at a tick; one with nothing left ends. -/
def cleanJobs (s : State) (sl : Nat) : State :=
  (s.ftl.jobs.filter (fun j => j.slice = sl)).foldl (fun s j =>
    let k := s.trimJob j
    let s := s.putJob j k
    if k.parts = [] && k.left = 0 then s.finishJob k else s) s

/-- Place the next unit or slot of a slice's flushes on a channel: the first, of those whose reads have ended, that can be
placed. -/
def placeNext (s : State) (sl ch : Nat) : State :=
  ((s.ftl.jobs.filter (fun j => j.slice = sl)).flatMap (fun j => (j.parts.filter (fun p => p.reads = 0)).map
    (fun p => (j, p)))).findSome? (fun q => s.placePart ch q.1 q.2) |>.getD s

/-- The placement of a tick: one unit or slot for each channel whose slot the slice has in the stride (R272, R306,
R348). -/
def flushTick (s : State) : State :=
  if s.wbf.pfTaken then s
  else s.slices.foldl (fun s p => (s.flushChannels p.1).foldl (fun s ch => s.placeNext p.1 ch) (s.cleanJobs p.1)) s

/-- The job of an entry. -/
def jobOf (s : State) (sl eid : Nat) : Option FlushJob := s.ftl.jobs.find? (fun j => j.slice = sl && j.entry = eid)

/-- A program of a flush ends well: when the last has, the record goes into the journal. -/
def programDone (s : State) (sl eid : Nat) : State :=
  match s.jobOf sl eid with
  | none => s
  | some j => if j.left ≤ 1 && j.parts = [] then s.finishJob j else s.putJob j { j with left := j.left - 1 }

/-! ### Loss, retirement and die loss (R374 to R386) -/

/-- Every slot whose mapping names the die. -/
def slotsOnDie (s : State) (d : Nat) : List (Nat × Nat) :=
  s.ftl.coarse.flatMap (fun p => (List.range 16).filterMap (fun i =>
    match s.mapOf p.1 i with
    | .phys a => if dieOf a = d then some (p.1, i) else none
    | _ => none))

/-- Set the map's entries for the die's slots to LOST (R380 step 2). -/
def markLost (s : State) (d : Nat) : State :=
  let f := s.ftl
  s.setFtl { f with
    coarse := f.coarse.map (fun p => if !isSpecial p.2 && dieOf p.2 = d then (p.1, lostEntry) else p),
    fine := f.fine.map (fun p => (p.1, { p.2 with ents := p.2.ents.map (fun e =>
      if !isSpecial e && dieOf e = d then lostEntry else e) })) }

/-- Declare a die lost (R380). -/
def loseDie (s : State) (d : Nat) : State :=
  if (s.die d).lost then s
  else
    let s := s.journal 9 [{ loc := d, slot := 0xFF, new := 0, old := 0 }]
    let gone := s.slotsOnDie d
    let s := gone.foldl (fun s q => s.loseSlot d q.1 q.2) s
    let s := s.markLost d
    let s := s.modDie d (fun x => { x with lost := true })
    let s := s.setFtl { s.ftl with
      blks := s.ftl.blks.filter (fun p => decide (dieOfBlk p.1 ≠ d)),
      reclaims := s.ftl.reclaims.filter (fun r => decide (dieOfBlk r.blk ≠ d)),
      demotes := s.ftl.demotes.filter (fun m => decide (m.die ≠ d) && !m.ents.any (fun e => !isSpecial e && dieOf e = d)) }
    let hit := (gone.filterMap (fun q => (s.nsOfUnit q.1).map Prod.fst)).eraseDups
    hit.foldl (fun s n => s.healthEvent n 2 .health) (s.ev 0x4504 noSlice (item 2 d))

/-- Retire a block (R374): a RETIRE record, the event of the cause, and the die lost when 32 of its
blocks retire within 1,000 laps (R379). -/
def retire (s : State) (b code : Nat) : State :=
  let d := dieOfBlk b
  let s := s.journal 0xB [{ loc := b, slot := 0xFF, new := 0, old := 0 }]
  let s := s.modBlk b (fun x => { x with state := .retired })
  let s := s.modDie d (fun x =>
    { x with retireLaps := (s.lap :: x.retireLaps).filter (fun l => decide (s.lap < l + 1000)),
             health := { x.health with retiredCount := satAdd x.health.retiredCount 1 0xFFFFFFFF } })
  let s := (s.setFtl { s.ftl with cntRetired := satAdd s.ftl.cntRetired 1 0xFFFFFFFF }).ev code noSlice
  let s := if s.spareOf d ≤ 0 && !(s.die d).spareOut then
      (s.modDie d (fun x => { x with spareOut := true })).ev 0x4506 noSlice
    else s
  let s := if s.spareSum ≤ 0 && !s.ftl.readOnly then
      (s.setFtl { s.ftl with readOnly := true }).ev 0x4505 noSlice
    else s
  if 32 ≤ (s.die d).retireLaps.length then s.loseDie d else s

/-! ### Copies: collection, refresh, demotion, evacuation (R361 to R369, R343, R344) -/

/-- The slots of a block that the map names (its valid slots). -/
def validSlots (s : State) (b : Nat) : List (Nat × FlashSlot) :=
  (s.blk b).slots.filter (fun p => s.mapOf p.2.unit p.2.slot = .phys (b * 2 ^ 14 + p.1))

/-- Copy groups: a coarse unit's 16 slots stay together (R329, R363). -/
def copyUnits (s : State) (b : Nat) : List (Nat × List (Nat × FlashSlot)) :=
  let vs := s.validSlots b
  ((vs.map (fun p => p.2.unit)).eraseDups).map (fun u => (u, vs.filter (fun p => p.2.unit = u)))

/-- Copy one group of a block: a coarse unit whole, a fine unit slot by slot (R329, R363). A slot that
could not be read becomes LOST; a coarse unit with such a slot is promoted first, and is LOST as a
whole where no group is free (R417). -/
def copyGroup (s : State) (b d : Nat) (bad : List Nat) (u : Nat) (vs : List (Nat × FlashSlot)) :
    State × List JEnt :=
  let one (acc : State × List JEnt) (p : Nat × FlashSlot) : State × List JEnt :=
    let old := b * 2 ^ 14 + p.1
    if bad.contains p.1 then (acc.1, acc.2 ++ [{ loc := u, slot := p.2.slot, new := lostEntry, old := old }])
    else match acc.1.takeSlots d .gcOpen 1 with
      | none => acc
      | some (a, s') => (s'.putSlots a [p.2], acc.2 ++ [{ loc := u, slot := p.2.slot, new := a, old := old }])
  let hurt := vs.any (fun p => bad.contains p.1)
  match s.groupOf u with
  | some _ => vs.foldl one (s, [])
  | none =>
    if hurt then
      match s.freeGroup with
      | some g => vs.foldl one
          (s.journal 4 [{ loc := u, slot := 0xFF, new := fineEntry g, old := s.coarseOf u }], [])
      | none => (s, [{ loc := u, slot := 0xFF, new := lostEntry, old := s.coarseOf u }])
    else match s.takeSlots d .gcOpen 16 with
      | none => (s, [])
      | some (a, s') => (s'.putSlots a (vs.map Prod.snd),
          [{ loc := u, slot := 0xFF, new := a, old := s.coarseOf u }])

/-- Is a fine unit being demoted? -/
def demoting (s : State) (u : Nat) : Bool := s.ftl.demotes.any (fun d => d.unit = u)

/-- Of the slots of a unit in a block, those that a copy takes: a slot that was read misdirected stays where it is, and with
it the whole of a coarse unit (R405). -/
def copyable (s : State) (skip : List Nat) (q : Nat × List (Nat × FlashSlot)) : Nat × List (Nat × FlashSlot) :=
  if !q.2.any (fun p => skip.contains p.1) then q
  else if (s.groupOf q.1).isSome then (q.1, q.2.filter (fun p => !skip.contains p.1))
  else (q.1, [])

/-- Copy the valid slots of a block, but for the units that are being demoted and the slots that `skip` names, to a die's GC
block and give the map changes (R363 steps 1, 2). -/
def copyBlock (s : State) (b d : Nat) (bad skip : List Nat) : State × List JEnt :=
  (((s.copyUnits b).map (s.copyable skip)).filter (fun q => decide (q.2 ≠ []) && !s.demoting q.1)).foldl
    (fun (acc : State × List JEnt) q =>
      let r := acc.1.copyGroup b d bad q.1 q.2
      (r.1, acc.2 ++ r.2)) (s, [])

/-- Is a unit fine and idle long enough to be demoted when a copy meets it (R343)? -/
def idleFine (s : State) (u : Nat) : Bool :=
  match s.groupOf u with
  | some g => match tget s.ftl.fine g with
    | some f => decide (f.lastPartial + s.idleLaps ≤ s.lap) && !s.hasLost u && !s.unitBusy u && !s.demoting u
    | none => false
  | none => false

/-- The 16 entries of a fine unit. -/
def unitEnts (s : State) (u : Nat) : List Nat := (List.range 16).map (fun i => s.slotEntry u i)

def dropDemote (s : State) (u : Nat) : State :=
  s.setFtl { s.ftl with demotes := s.ftl.demotes.filter (fun d => decide (d.unit ≠ u)) }
def modDemote (s : State) (u : Nat) (f : Demote → Demote) : State :=
  s.setFtl { s.ftl with demotes := s.ftl.demotes.map (fun d => if d.unit = u then f d else d) }

/-- The source slots of a demotion have been read: they go to four consecutive pages of a die's GC block, an UNMAPPED slot
as zeros (R344). -/
def demoteWrite (s : State) (m : Demote) : State :=
  let u := m.unit
  match s.nsOfUnit u, s.takeSlots m.die .gcOpen 16 with
  | some (sl, _, _), some (a, t) =>
    let one (i : Nat) : FlashSlot := ((s.mergeAddr u i).bind s.slotAt).getD
      { unit := u, slot := i, slice := sl, stamp := { stride := 0, seq := 0 }, key := (s.slice sl).mediaKey.getD 0,
        blocks := [] }
    ((t.putSlots a ((List.range 16).map one)).modDemote u (fun d => { d with dst := some a })).addPoll
      (.demoteProgram u a) 16
  | _, _ => s.dropDemote u

/-- Begin to demote a fine unit by a copy to a die's GC block (R343, R344): its mapped slots are read. -/
def demoteBegin (s : State) (d u : Nat) : State :=
  let addrs := (List.range 16).filterMap (fun i => s.mergeAddr u i)
  let m : Demote := { unit := u, die := d, ents := s.unitEnts u, reads := addrs.length }
  let s := s.noteReserved u (List.range 16)
  let s := s.setFtl { s.ftl with demotes := s.ftl.demotes ++ [m] }
  if addrs = [] then s.demoteWrite m else addrs.foldl (fun s a => s.addPoll (.demoteRead u a) 1) s

/-- The copy of a demotion is verified: the change goes into a DEMOTE record, unless the unit has changed since (R344). -/
def demoteEnd (s : State) (m : Demote) (a : Nat) : State :=
  let u := m.unit
  let t := s.dropDemote u
  if (s.groupOf u).isNone || s.unitEnts u ≠ m.ents || s.unitBusy u then t
  else
    let t := t.journal 5 [{ loc := u, slot := 0xFF, new := a, old := s.coarseOf u }]
    ({ t with ftl := { t.ftl with cntDemote := satAdd t.ftl.cntDemote 1 0xFFFFFFFF } }).ev 0x0502 noSlice

/-- Change the reclaim of a block. -/
def modReclaim (s : State) (b : Nat) (f : Reclaim → Reclaim) : State :=
  s.setFtl { s.ftl with reclaims := s.ftl.reclaims.map (fun r => if r.blk = b then f r else r) }

def dropReclaim (s : State) (b : Nat) : State :=
  s.setFtl { s.ftl with reclaims := s.ftl.reclaims.filter (fun r => decide (r.blk ≠ b)) }

def reclaimOf (s : State) (b : Nat) : Option Reclaim := s.ftl.reclaims.find? (fun r => r.blk = b)

/-- The idle fine units of a block that a copy of it demotes (R343). -/
def idleUnits (s : State) (b : Nat) : List Nat := ((s.copyUnits b).map Prod.fst).filter (fun u => s.idleFine u)

/-- Begin to copy a block's valid slots away: they are read (R363 step 1), those of idle fine units for a demotion (R343).
A block without a valid slot needs no copy (R362). -/
def reclaimBegin (s : State) (b : Nat) (why : ReclaimFor) : State :=
  let s : State := match why with
    | .evac _ => s
    | _ => (s.idleUnits b).foldl (fun s u => s.demoteBegin (dieOfBlk b) u) s
  let vs := (s.validSlots b).filter (fun p => !s.demoting p.2.unit)
  let r : Reclaim := { blk := b, why := why, reads := vs.length, finalSeq := if vs = [] then some 0 else none }
  vs.foldl (fun s p => s.addPoll (.copyRead b (b * 2 ^ 14 + p.1)) 1)
    (s.setFtl { s.ftl with reclaims := s.ftl.reclaims ++ [r] })

/-- The copies of a block are verified: their changes are journalled (R363 step 3). -/
def reclaimJournal (s : State) (r : Reclaim) : State :=
  if r.ents = [] then s.modReclaim r.blk (fun x => { x with finalSeq := some 0 })
  else
    let s := s.journalAll r.why.type none r.blk true [] (r.ents.length + 1) r.ents
    s.modReclaim r.blk (fun x => { x with finalSeq := some (s.ftl.jnext - 1) })

/-- The slots of a set of map changes that lie in a block. -/
def slotsIn (es : List JEnt) (b : Nat) : Nat :=
  lsum (es.map (fun e => if blkOf e.new = b && decide (e.new ≠ lostEntry) then (if e.slot = 0xFF then 16 else 1) else 0))

/-- The reads of a block have ended: its slots are copied to the die's GC block (R363 step 1). -/
def reclaimCopy (s : State) (r : Reclaim) : State :=
  let b := r.blk
  let p := s.copyBlock b (dieOfBlk b) r.bad r.skip
  let dsts := ((p.2.filter (fun e => decide (e.new ≠ lostEntry))).map (fun e => blkOf e.new)).eraseDups
  let s := p.1.modReclaim b (fun x => { x with ents := p.2, progs := dsts.length })
  if dsts = [] then s.reclaimJournal { r with ents := p.2 }
  else dsts.foldl (fun s d => s.addPoll (.copyProgram b d) (slotsIn p.2 d)) s

/-- The closed data blocks of a die that may be a victim (R362). -/
def victims (s : State) (d : Nat) : List Nat :=
  (s.ftl.blks.filter (fun p => dieOfBlk p.1 = d && p.2.state = .closed && !p.2.erasing &&
    (s.reclaimOf p.1).isNone)).map Prod.fst

/-- The order of R362: fewest valid slots, then oldest close time, then lowest plane and block. -/
def bestVictim (s : State) : List Nat → Option Nat
  | [] => none
  | b :: t =>
    match bestVictim s t with
    | none => some b
    | some c =>
      let vb := (s.validSlots b).length
      let vc := (s.validSlots c).length
      if vb < vc || (vb = vc && decide ((s.blk b).closeOrder ≤ (s.blk c).closeOrder)) then some b
      else some c

/-- Does the map name a slot of a block? -/
def mapNames (s : State) (b : Nat) : Bool := decide (s.validSlots b ≠ [])

/-- Is a unit with a slot in the block being demoted, or its DEMOTE record not yet durable? -/
def demotesOf (s : State) (b : Nat) : Bool :=
  (s.validSlots b).any (fun p => s.demoting p.2.unit ||
    s.ftl.journal.any (fun r => r.type = 5 && r.ents.any (fun e => e.loc = p.2.unit)))

/-- Does a read that looked up a slot of the block still run (R363 step 4)? -/
def readsOf (s : State) (b : Nat) : Bool :=
  s.ftl.polls.any (fun p => p.kind.isRead && blkOf p.kind.addr = b)

end State

end Sys2Proof.Machine
end

