-- ==== Sys2Proof/Machine/Pi.lean ====
section
/-! DEFINITION. End-to-end protection information: guards, tags and their checks (R889 to R892). The
layout of the tags is NVMe's; the spec gives the polynomials and the widths. -/

namespace Sys2Proof.Machine

/-- One bit of a CRC of `w` bits, high bit first. -/
def crcBit (w poly c : Nat) : Nat :=
  if natBit c (w - 1) then (2 * c % 2 ^ w) ^^^ poly else 2 * c % 2 ^ w

/-- One byte of CRC-16 0x8BB7, high bit first. -/
def crc16Byte (c : Nat) (b : BitVec 8) : Nat :=
  (List.range 8).foldl (fun c _ => crcBit 16 0x8BB7 c) (c ^^^ (b.toNat * 256))

/-- The 16-bit guard (R889), from zero. -/
def crc16 (bs : Bytes) : Nat := bs.foldl crc16Byte 0

/-- The bits of a number below `w`, reversed. -/
def revBits (w x : Nat) : Nat :=
  (List.range w).foldl (fun a i => if natBit x i then a + 2 ^ (w - 1 - i) else a) 0

/-- One byte of CRC-64 0xAD93D23594C93659, low bit first. -/
def crc64Byte (c : Nat) (b : BitVec 8) : Nat :=
  (List.range 8).foldl (fun c _ => crcBit 64 0xAD93D23594C93659 c)
    (c ^^^ (revBits 8 b.toNat * 2 ^ 56))

/-- The 64-bit guard (R889): low bit first, from and to all ones. -/
def crc64 (bs : Bytes) : Nat :=
  revBits 64 (bs.foldl crc64Byte (2 ^ 64 - 1)) ^^^ (2 ^ 64 - 1)

/-- CRC-32C of a string of bytes (R353, R358, R400): low bit first, from and to all ones. -/
def crc32c (bs : Bytes) : Nat :=
  let byte (c : Nat) (b : BitVec 8) : Nat :=
    (List.range 8).foldl (fun c _ => crcBit 32 0x1EDC6F41 c) (c ^^^ (revBits 8 b.toNat * 2 ^ 24))
  revBits 32 (bs.foldl byte (2 ^ 32 - 1)) ^^^ (2 ^ 32 - 1)

/-- A format with protection information: formats 2 to 4 of a namespace created with a type. -/
def hasPi (n : Ns) : Bool := decide (n.dps ≠ 0) && decide (2 ≤ n.lbaf)

/-- The fields of a block's protection information: guard, application tag, reference tag. -/
def piGuard (n : Ns) (b : BlockData) : Nat := beNat (b.md.take (if n.lbaf = 4 then 8 else 2))
def piApp (n : Ns) (b : BlockData) : Nat := beNat (bytesAt b.md (if n.lbaf = 4 then 8 else 2) 2)
def piRef (n : Ns) (b : BlockData) : Nat :=
  if n.lbaf = 4 then beNat (bytesAt b.md 10 6) else beNat (bytesAt b.md 4 4)

/-- The guard of a block's data. -/
def guardOf (n : Ns) (b : BlockData) : Nat := if n.lbaf = 4 then crc64 b.data else crc16 b.data

/-- The width of the reference tag (R889). -/
def refWidth (n : Ns) : Nat := if n.lbaf = 4 then 48 else 32

/-- What a command asks of protection information: PRACT, PRCHK, tags and the first reference tag. -/
structure PiAsk where
  pract : Bool
  prchk : Nat
  app : Nat
  mask : Nat
  ref : Nat

/-- Read PRINFO and the tags of a command (R278, "As in Write"). -/
def piAsk (e : SqEntry) (ref : Nat) : PiAsk :=
  { pract := natBit e.cdw12.toNat 29, prchk := natBits e.cdw12.toNat 28 26,
    app := natBits e.cdw15.toNat 15 0, mask := natBits e.cdw15.toNat 31 16, ref := ref }

/-- The first reference tag that a Read or Write names. -/
def entryRef (n : Ns) (e : SqEntry) : Nat :=
  if n.lbaf = 4 then natBits e.cdw3.toNat 15 0 * 2 ^ 32 + e.cdw14.toNat else e.cdw14.toNat

/-- Checking is off for a block whose tags say so: type 1 by the application tag, type 3 by both. -/
def piOff (n : Ns) (b : BlockData) : Bool :=
  piApp n b = 0xFFFF && (n.dps % 8 = 1 || piRef n b = 2 ^ refWidth n - 1)

/-- Check the tags of block `i` of a command, as PRCHK asks; the guard check is separate. -/
def piTags (n : Ns) (a : PiAsk) (i : Nat) (b : BlockData) : Option Status :=
  if piOff n b then none
  else if natBit a.prchk 1 && decide (piApp n b &&& a.mask ≠ a.app &&& a.mask) then some .appTagError
  else if natBit a.prchk 0 && n.dps % 8 = 1 && decide (piRef n b ≠ (a.ref + i) % 2 ^ refWidth n) then
    some .refTagError
  else none

/-- The ingress check of one block (R890). -/
def piIngressOne (n : Ns) (a : PiAsk) (i : Nat) (b : BlockData) : Option Status :=
  if natBit a.prchk 2 && !piOff n b && decide (piGuard n b ≠ guardOf n b) then some .guardError
  else piTags n a i b

/-- The protection information the device generates for a block (R890). -/
def piMake (n : Ns) (a : PiAsk) (i : Nat) (b : BlockData) : BlockData :=
  let ref := if n.dps % 8 = 1 then (a.ref + i) % 2 ^ refWidth n else a.ref % 2 ^ refWidth n
  { b with md := if n.lbaf = 4 then beBytes 8 (guardOf n b) ++ beBytes 2 a.app ++ beBytes 6 ref
                 else beBytes 2 (guardOf n b) ++ beBytes 2 a.app ++ beBytes 4 ref }

/-- The first failure over a list of blocks. -/
def firstPi (f : Nat → BlockData → Option Status) : Nat → List BlockData → Option Status
  | _, [] => none
  | i, b :: t =>
    match f i b with
    | some st => some st
    | none => firstPi f (i + 1) t

/-- Number the elements of a list. -/
def numbered {α : Type} : Nat → List α → List (Nat × α)
  | _, [] => []
  | i, a :: t => (i, a) :: numbered (i + 1) t

/-- Ingress of blocks (R890): the blocks as they enter the buffer, or the failing check's status. -/
def piIngress (n : Ns) (a : PiAsk) (bs : List BlockData) : Except Status (List BlockData) :=
  if !hasPi n then .ok bs
  else if a.pract then .ok ((numbered 0 bs).map (fun p => piMake n a p.1 p.2))
  else match firstPi (piIngressOne n a) 0 bs with
    | some st => .error st
    | none => .ok bs

/-- The egress check of one block (R891). -/
def piEgressOne (n : Ns) (a : PiAsk) (i : Nat) (b : BlockData) : Option Status :=
  if decide (piGuard n b ≠ guardOf n b) && !piOff n b then
    some (if natBit a.prchk 2 then .guardError else .unrecoveredRead)
  else piTags n a i b

/-- Egress of blocks (R891): the blocks as they leave, or the failing check's status. -/
def piEgress (n : Ns) (a : PiAsk) (bs : List BlockData) : Except Status (List BlockData) :=
  if !hasPi n then .ok bs
  else match firstPi (piEgressOne n a) 0 bs with
    | some st => .error st
    | none => .ok (if a.pract then bs.map (fun b => { b with md := [] }) else bs)

end Sys2Proof.Machine
end

