-- ==== Sys2Proof/Machine/Frame.lean ====
section
/-! DEFINITION. The frames that a relay message is on the wire: addresses, header, fragments, encryption and payload layouts
(R804 to R807, R809, R810, R829, R834, R841, R844). -/

namespace Sys2Proof.Machine

/-- The frame types sent CLEAR (R806). -/
def clearType (type : Nat) : Bool := [1, 2, 3, 7].contains type

/-- The relay MAC address of a device's port (R804). -/
def macOf (deviceId port : Nat) : Bytes := [0x02] ++ beBytes 4 deviceId ++ leBytes 1 port

/-- The frame check sequence of IEEE 802.3 (R805). -/
def fcs (bs : Bytes) : Bytes :=
  let byte (c : Nat) (b : BitVec 8) : Nat :=
    (List.range 8).foldl (fun c _ => crcBit 32 0x04C11DB7 c) (c ^^^ (revBits 8 b.toNat * 2 ^ 24))
  leBytes 4 (revBits 32 (bs.foldl byte (2 ^ 32 - 1)) ^^^ (2 ^ 32 - 1))

/-- A stamp in a message: laid out as DW0 and DW1 of R223. -/
def stampField (stride seq : Nat) : Bytes := leBytes 4 stride ++ leBytes 2 seq ++ leBytes 2 (stride / 2 ^ 32)

/-- A range list (R279, R280) from first blocks and block counts in turn. -/
def rangeField : List Nat → Bytes
  | a :: n :: t => leBytes 8 a ++ leBytes 4 (n - 1) ++ leBytes 4 0 ++ rangeField t
  | _ => []

/-- The payload of a message from its numbers and its body (R810, R834, R841, R844); where the body is all of it, that. -/
def payload (type : Nat) (ws : List Nat) (body : Bytes) : Bytes :=
  let w (i : Nat) : Nat := ws.getD i 0
  let ids := leBytes 2 (w 0) ++ leBytes 2 (w 1) ++ leBytes 4 0 ++ leBytes 8 (w 2)
  match type with
  | 0x04 => leBytes 4 (w 0) ++ leBytes 4 0 ++ padTo 32 body
  | 0x05 => leBytes 4 (w 0) ++ leBytes 4 0 ++ leBytes 8 (w 1) ++ leBytes 4 (w 2) ++ leBytes 4 0 ++ leBytes 8 (w 3)
  | 0x10 | 0x12 =>
    leBytes 8 (w 0) ++ stampField (w 1) (w 2) ++ leBytes 2 (w 3) ++ leBytes 2 (w 4) ++ leBytes 1 ((ws.length - 6) / 2) ++
      leBytes 1 (if type = 0x12 then 1 else 0) ++ leBytes 2 0 ++ leBytes 4 (w 5) ++ leBytes 4 0 ++
      rangeField (ws.drop 6) ++ body
  | 0x11 => leBytes 8 (w 1) ++ leBytes 8 (w 2 % 256) ++ stampField (w 3) (w 4)
  | 0x13 => leBytes 8 (w 0) ++ leBytes 2 (w 1) ++ leBytes 2 (w 2) ++ leBytes 4 0
  | 0x20 => ids ++ leBytes 8 (w 3) ++ leBytes 8 (w 4)
  | 0x21 => leBytes 8 (w 1 % 256) ++ leBytes 8 (w 2)
  | 0x24 => leBytes 8 (w 3) ++ leBytes 8 (w 2) ++ padTo 32 body
  | 0x25 | 0x26 | 0x27 => ids
  | 0x28 => ids ++ leBytes 8 (w 3 % 256)
  | 0x30 => leBytes 4 (w 0) ++ leBytes 1 (w 1) ++ leBytes 1 (w 2) ++ leBytes 2 0
  | _ => body

/-- The frames of a message (R809): fragments of at most 8,192 bytes of its payload. -/
def frameCount (type : Nat) (ws : List Nat) (body : Bytes) : Nat :=
  max 1 (ceilDiv (payload type ws body).length 8192)

/-- The relay header of one frame (R805). -/
def frameHeader (h : RelayHead) (hops type dest id off len : Nat) (last : Bool) (nonce : Bytes) : Bytes :=
  leBytes 1 h.version ++ leBytes 1 type ++ leBytes 1 (flagAt h.clear 0 + flagAt last 1 + flagAt h.bcast 2) ++
    leBytes 1 hops ++ leBytes 2 dest ++ leBytes 2 h.src ++ leBytes 2 len ++ leBytes 2 0 ++ leBytes 4 h.keyId ++
    leBytes 4 id ++ leBytes 4 off ++ padTo 12 nonce ++ leBytes 4 0

/-- The `i`-th of the `n` frames of a message, from its addresses to its FCS (R805, R807, R809): under a key each takes the
next nonce, and the header with HOPS zero is the additional data. -/
def frameAt (addrs key : Bytes) (h : RelayHead) (type dest id n i : Nat) (pl : Bytes) : Bytes :=
  let part := bytesAt pl (8192 * i) 8192
  let nonce : Bytes := match h.nonce with
    | none => []
    | some c => beBytes 4 c.1 ++ beBytes 8 (c.2 + i)
  let head (hops : Nat) := frameHeader h hops type dest id (8192 * i) part.length (decide (i + 1 = n)) nonce
  let sealed := gcmData key nonce part
  let bs := addrs ++ head h.hops ++ (if h.clear then part else sealed ++ gcmTag key nonce (head 0) sealed)
  bs ++ fcs bs

/-- KEY_ID (R805): key head address and epoch. -/
def FieldKey.id (k : FieldKey) : Nat := k.head * 65536 + k.epoch

namespace State

def setRly (s : State) (r : Rly) : State := { s with rly := r }
def rlyPort (s : State) (p : Nat) : RlyPort := tgetD s.rly.ports p {}
def modRly (s : State) (p : Nat) (f : RlyPort → RlyPort) : State :=
  s.setRly { s.rly with ports := tset s.rly.ports p (f (s.rlyPort p)) }

/-- The destination, the source and the EtherType of a port's frames (R804, R805). Before the peer's HELLO its address is
not known, and the spec does not say where HELLO goes: a free value (127). -/
def frameAddrs (s : State) (p : Nat) : Bytes :=
  let peer := match (s.rlyPort p).peer with
    | some h => macOf h.deviceId.toNat h.port
    | none => padTo 6 (Config.firstHelloTo p)
  let ety := match s.crs.inForce with
    | some c => c.etherType
    | none => 0
  peer ++ macOf s.deviceId.toNat p ++ beBytes 2 ety

/-- The key of a frame's type (R806): FIELD_KEY goes under the link key, the rest under the field key of its KEY_ID. -/
def frameKey (s : State) (p type keyId : Nat) : Bytes :=
  if type = 4 then (s.rlyPort p).linkKey
  else match s.rly.key, s.rly.prevKey with
    | some k, some q => if k.id = keyId then k.value else if q.id = keyId then q.value else []
    | some k, none => if k.id = keyId then k.value else []
    | none, _ => []

/-- The frames of a message that leaves on a port (R805, R809). -/
def framesOn (s : State) (p : Nat) (h : RelayHead) (type dest id : Nat) (pl : Bytes) : List Bytes :=
  let n := max 1 (ceilDiv pl.length 8192)
  (List.range n).map (fun i => frameAt (s.frameAddrs p) (s.frameKey p type h.keyId) h type dest id n i pl)

end State

end Sys2Proof.Machine
end

