-- ==== Sys2Proof/Machine/Link.lean ====
section
/-! DEFINITION. The relay links: ports, messages sent, the key agreement of a link and the roster's lists
(R802 to R818). -/

namespace Sys2Proof.Machine

/-- HELLO as it is sent (R815). -/
def helloBytes (h : HelloMsg) : Bytes :=
  leBytes 1 h.vMin ++ leBytes 1 h.vMax ++ leBytes 1 h.floor ++ leBytes 1 0 ++ leBytes 2 h.addr ++
    leBytes 1 h.port ++ leBytes 1 0 ++ leBytes 8 h.deviceId.toNat ++ leBytes 8 h.rosterSeq ++ leBytes 4 h.keyId ++
    leBytes 4 0 ++ padTo 16 h.chal

/-- The device's attestation public key (R786) and its certificate (R787). -/
def attestPk : Bytes := padTo 64 (Config.publicKey 0)
def certificate : Bytes := padTo 29936 (Config.publicKey 1)
/-- The encapsulation key of an ML-KEM pair (R755, R816). -/
def encapKey (pair : Nat) : Bytes := padTo 1568 (Config.publicKey (pair + 2))

/-- A certificate verifies under the Weldopo key whose digest the starter ROM holds (R787, R817). -/
def certOk (cert : Bytes) : Bool :=
  let wpk := bytesAt cert 80 64
  leAt cert 0 4 = 0x4D425A31 && leAt cert 4 2 = 1 && Config.sha3_256 wpk = Config.weldopoDigest 4 &&
    Config.slhVerify wpk (cert.take 80) (bytesAt cert 144 29792)

/-- The frame types that have a reply (R809, R810). -/
def hasReply (type : Nat) : Bool :=
  type = 0x10 || type = 0x12 || type = 0x13 || type = 0x20 || type = 0x22 || type = 0x23 || type = 0x24 ||
  type = 0x25 || type = 0x26 || type = 0x28

namespace State

/-- The running firmware image, and the relay versions that it speaks (R825, R984). -/
def runImage (s : State) : FwImage := if s.dev.image = 0 then s.dur.fwA else s.dur.fwB
def relayMin (s : State) : Nat := s.runImage.relayMin
def relayMax (s : State) : Nat := s.runImage.relayMax

/-- This device's field address (R61). -/
def fieldAddr (s : State) : Nat :=
  match s.crs.inForce with
  | some c => c.fieldAddr
  | none => 0

/-- The roster's entries and SEQUENCE; none of either with no roster. -/
def rosterEnts (s : State) : Tab Nat :=
  match s.dur.roster with
  | some r => r.ents
  | none => []
def rosterSeq (s : State) : Nat :=
  match s.dur.roster with
  | some r => r.seq
  | none => 0

/-- A device is listed at an address (R813, R817). -/
def listed (s : State) (addr deviceId : Nat) : Bool := tget s.rosterEnts addr = some deviceId

/-- The relay port exists and RELAY_PORT_ENABLE has its bit (R803). -/
def portEnabled (s : State) (p : Nat) : Bool :=
  decide (p < s.relayPorts) &&
  match s.crs.inForce with
  | some c => natBit c.relayEnable p
  | none => false

/-- The relay runs: READY, not in P3 or P4. -/
def relayRuns (s : State) : Bool := s.hasField && s.dev.phase = .ready && decide (s.pwr.state < 3)

/-- The ports whose links are UP. -/
def upPorts (s : State) : List Nat := (List.range 4).filter (fun p => (s.rlyPort p).st = .up)

/-- The address of the peer of a port. -/
def peerAddr (s : State) (p : Nat) : Nat :=
  match (s.rlyPort p).peer with
  | some h => h.addr
  | none => 0

/-- The header of a message's frames on a port (R805, R806, R829): link-scope frames carry the link's version, routed
and flooded ones the field version floor. -/
def frameHead (s : State) (p type : Nat) : RelayHead :=
  let fieldKeyed := !clearType type && decide (type ≠ 4)
  { version := if type ≤ 7 && decide (type ≠ 6) then (s.rlyPort p).version else s.rly.floor,
    clear := clearType type, bcast := decide (type = 6), hops := 32, src := s.fieldAddr,
    keyId := if fieldKeyed then (s.rly.key.map FieldKey.id).getD 0 else 0,
    nonce := if clearType type then none
      else some (s.instanceId, if type = 4 then (s.rlyPort p).linkNonce else s.rly.nonce) }

/-- Frames leave on a port: each takes a nonce of its key (R722, R818), whose end is kept durable (R724, R810). -/
def countFrames (s : State) (p type n : Nat) : State :=
  let s := s.modRly p (fun x =>
    { x with tx := min (2 ^ 64 - 1) (x.tx + n), linkNonce := if type = 4 then x.linkNonce + n else x.linkNonce })
  match s.rly.key with
  | some k =>
    if clearType type || type = 4 then s
    else
      let c := s.rly.nonce + n
      let last := tgetD s.dur.nonceEnds k.id 0
      { s with rly := { s.rly with nonce := c }
               dur := { s.dur with
                 nonceEnds := if last < c + 2 ^ 19 then tset s.dur.nonceEnds k.id (last + 2 ^ 20) else s.dur.nonceEnds } }
  | none => s

/-- Send a link-scope or flooded message on a port under the next MSG_ID; DEST is zero in a flooded one (R805). -/
def sendLink (s : State) (p type : Nat) (words : List Nat) (body : Bytes) : State :=
  let dest := if type = 6 then 0 else s.peerAddr p
  let h := s.frameHead p type
  ((s.setRly { s.rly with nextMsg := s.rly.nextMsg + 1 }).countFrames p type (frameCount type words body)).emit
    (.relay { port := p, dest := dest, type := type, words := words, body := body, head := h,
              frames := s.framesOn p h type dest s.rly.nextMsg (payload type words body) })

/-- Put a routed message on the route to its destination (R822); with no route nothing leaves. -/
def sendOnRoute (s : State) (m : Awaited) : State :=
  match tget s.rly.routes m.dest with
  | some r =>
    let h := s.frameHead r.port m.type
    (s.countFrames r.port m.type (frameCount m.type m.words m.body)).emit
      (.relay { port := r.port, dest := m.dest, type := m.type, words := m.id :: m.words, body := m.body, head := h,
                frames := s.framesOn r.port h m.type m.dest m.id (payload m.type m.words m.body) })
  | none => s

/-- Send a routed message (R809, R810): it takes the next MSG_ID and, where its type has a reply, awaits it. -/
def sendRouted (s : State) (dest type : Nat) (words : List Nat) (body : Bytes := []) : State :=
  let m : Awaited := { id := s.rly.nextMsg, dest := dest, type := type, words := words, body := body,
                       first := s.stride, last := s.stride }
  let s := s.setRly { s.rly with nextMsg := s.rly.nextMsg + 1,
                                 msgs := if hasReply type then s.rly.msgs ++ [m] else s.rly.msgs }
  s.sendOnRoute m

/-- Send a reply or another routed message that awaits none. -/
def sendReply (s : State) (dest type : Nat) (words : List Nat) : State := s.sendRouted dest type words

/-- The replies that these messages await have come, or no longer matter. -/
def settle (s : State) (p : Awaited → Bool) : State :=
  s.setRly { s.rly with msgs := s.rly.msgs.filter (fun m => !p m) }

/-- This device's HELLO on a port (R815). -/
def helloOf (s : State) (p : Nat) (chal : Bytes) : HelloMsg :=
  { vMin := s.relayMin, vMax := s.relayMax, floor := s.rly.floor, addr := s.fieldAddr, port := p,
    deviceId := s.deviceId, rosterSeq := s.rosterSeq,
    keyId := match s.rly.key with
      | some k => k.id
      | none => 0,
    chal := chal }

/-- Send HELLO on a port with a challenge. -/
def sendHello (s : State) (p : Nat) (chal : Bytes) : State :=
  let h := s.helloOf p chal
  (s.modRly p (fun x => { x with ownHello := some h, helloAt := s.stride })).sendLink p 1 [] (helloBytes h)

/-- Both HELLOs of a link, the offerer's first: the lower-addressed side offers (R814, R816). -/
def hellos (s : State) (p : Nat) : Bytes :=
  match (s.rlyPort p).ownHello, (s.rlyPort p).peer with
  | some a, some b => if a.addr < b.addr then helloBytes a ++ helloBytes b else helloBytes b ++ helloBytes a
  | _, _ => []

/-- Does this side offer? -/
def offers (s : State) (p : Nat) : Bool := decide (s.fieldAddr < s.peerAddr p)

/-- Send FIELD_KEY on a port (R810, R819). -/
def sendFieldKey (s : State) (p : Nat) : State :=
  match s.rly.key with
  | some k => s.sendLink p 4 [k.id] k.value
  | none => s

/-- A link comes UP (R814): its key is installed and FIELD_KEY is exchanged. -/
def linkUpNow (s : State) (p : Nat) (key : Bytes) : State :=
  let s := s.modRly p (fun x => { x with st := .up, linkKey := key, linkNonce := 0, pendKey := [], lastRx := s.stride,
                                         keyAcked := false })
  (s.ev 0x0B00 noSlice (item 1 p ++ item 1 (s.rlyPort p).version)).sendFieldKey p

/-- The job that signs a link's message has ended (R780, R816): the message is sent. The answerer's
link is UP with it. -/
def linkSigned (s : State) (p type : Nat) (body : Bytes) : State :=
  if (s.rlyPort p).st ≠ .keying then s
  else
    let s := s.sendLink p type [] (body.drop 96 ++ certificate ++ padTo 49856 (Config.slhSign body))
    if type = 3 then s.linkUpNow p (s.rlyPort p).pendKey else s

/-- Ask the public-key unit to sign a link's message (R816). -/
def linkJob (s : State) (p type : Nat) (body : Bytes) : State :=
  s.setKst { s.kst with jobs := s.kst.jobs ++ [.link p type (s.hellos p ++ body)] }

/-- The lower-addressed side starts its LINK_OFFER, with a fresh ML-KEM pair (R814, R816). -/
def startOffer (s : State) (p : Nat) : State :=
  let pair := s.kst.nextPair
  let s := s.setKst { s.kst with nextPair := pair + 1 }
  (s.modRly p (fun x => { x with offerPair := pair })).linkJob p 2 (encapKey pair)

/-- A message of the key agreement comes from the peer it names (R817). -/
def linkAuth (s : State) (p : Nat) (m : LinkMsg) : Bool :=
  match (s.rlyPort p).peer with
  | none => false
  | some h => certOk m.cert && leAt m.cert 8 8 = h.deviceId.toNat && s.listed h.addr h.deviceId.toNat &&
      Config.attestVerify (bytesAt m.cert 16 64) (s.hellos p ++ m.body) m.sig

/-- The peer's authentication failed (R814). -/
def authFailed (s : State) (p : Nat) : State :=
  (s.modRly p (fun x => { x with st := .hello, cause := 0xC9, helloAt := s.stride })).ev 0x2B01 noSlice (item 1 p)

/-- The key that a link's shared secret gives (R817). -/
def linkKeyOf (s : State) (p : Nat) (ss : Bytes) : Bytes := Config.kmac ss (s.hellos p) 32 "MB6400 relay link"

/-- A frame of the link was taken. -/
def tookFrame (s : State) (p : Nat) : State :=
  s.modRly p (fun x => { x with rx := min (2 ^ 64 - 1) (x.rx + 1), lastRx := s.stride })

/-- LINK_OFFER (R816): the answerer verifies it, encapsulates and signs its answer. -/
def linkOffer (s : State) (p : Nat) (m : LinkMsg) : State :=
  if (s.rlyPort p).st ≠ .keying || s.offers p then s
  else
    let s := s.tookFrame p
    if !s.linkAuth p m then s.authFailed p
    else
      let d := s.drawBytes 32
      let e := Config.kemEncap (padTo 1568 m.body) d.1
      let s := d.2.modRly p (fun x => { x with pendKey := d.2.linkKeyOf p e.2 })
      s.linkJob p 3 (padTo 1568 e.1)

/-- LINK_ANSWER (R814, R817): once it is verified the link is UP. -/
def linkAnswer (s : State) (p : Nat) (m : LinkMsg) : State :=
  if (s.rlyPort p).st ≠ .keying || !s.offers p then s
  else
    let s := s.tookFrame p
    if !s.linkAuth p m then s.authFailed p
    else s.linkUpNow p (s.linkKeyOf p (Config.kemDecap (s.rlyPort p).offerPair (padTo 1568 m.body)))

/-- A link goes DOWN (R814): its key is erased and its signing job dropped. -/
def linkDown (s : State) (p cause : Nat) : State :=
  let x := s.rlyPort p
  match x.st with
  | .disabled | .down => s
  | st =>
    let s := s.modRly p (fun x =>
      { x with st := .down, cause := cause, linkKey := [], pendKey := [], peer := none, ownHello := none,
               version := 0, keyAcked := false, repHead := none, exch := none, got := none, sent := [],
               downSeen := x.downSeen || st = .up })
    let s := s.setKst { s.kst with jobs := s.kst.jobs.filter (fun j => match j with
      | .link q _ _ => decide (q ≠ p)
      | _ => true) }
    if st = .up then s.ev 0x1B00 noSlice (item 1 p ++ item 1 cause) else s

/-- PHY_UP: the PHY of a port in DOWN trains, and HELLO is sent with a fresh challenge (R814). -/
def phyUp (s : State) (p : Nat) (chal : Bytes) : State :=
  if !s.relayRuns || !s.portEnabled p then s
  else
    let s := s.modRly p (fun x => { x with phyUp := true })
    match (s.rlyPort p).st with
    | .down => (s.modRly p (fun x => { x with st := .hello })).sendHello p (padTo 16 chal)
    | _ => s

/-- PHY_DOWN (R814). -/
def phyDown (s : State) (p : Nat) : State :=
  if (s.rlyPort p).phyUp then (s.modRly p (fun x => { x with phyUp := false })).linkDown p 0xD0 else s

/-- LINK_SILENT: no valid frame on an UP link for 4 laps (R814). -/
def linkSilent (s : State) (p : Nat) : State :=
  if (s.rlyPort p).st = .up && decide ((s.rlyPort p).lastRx + 16000 ≤ s.stride) then s.linkDown p 0xCF else s

/-- HELLO_REPEAT: HELLO is sent again every 100 laps (R814). -/
def helloRepeat (s : State) (p : Nat) : State :=
  let x := s.rlyPort p
  if x.st = .hello && decide (x.helloAt + 400000 ≤ s.stride) then
    s.sendHello p (match x.ownHello with
      | some h => h.chal
      | none => List.replicate 16 0)
  else s

/-- RELAY_FRAME_DISCARD (R804, R806 to R808, R822). -/
def frameDiscard (s : State) (p : Nat) (why : FrameDrop) : State :=
  if !s.relayRuns || !s.portEnabled p then s
  else match why with
    | .tag =>
      let said := (s.rlyPort p).tagLap = some s.lap
      let s := s.modRly p (fun x => { x with tagFails := min (2 ^ 64 - 1) (x.tagFails + 1), tagLap := some s.lap })
      if said then s else s.ev 0x2B00 noSlice (item 1 p)
    | .nonce => (s.modRly p (fun x => { x with drops := min (2 ^ 64 - 1) (x.drops + 1) })).ev 0x2B03 noSlice (item 1 p)
    | _ => s.modRly p (fun x => { x with drops := min (2 ^ 64 - 1) (x.drops + 1) })

end State

end Sys2Proof.Machine
end

