-- ==== Sys2Proof/Machine/Wbf.lean ====
section
/-! DEFINITION. The write buffer: entries and what a read returns, visibility, the hold-up guarantee,
power failure and the emergency flush, and the primary's side of pairings (R247 to R313). -/

namespace Sys2Proof.Machine

namespace State

/-! ### What a read returns (R266 to R269) -/

/-- The entries of a namespace that hold a block and are stamped earlier than S. -/
def earlier (x : Slice) (nsid : Nat) (t : Stamp) (lba : Nat) : List Entry :=
  x.entries.filter (fun e => e.nsid = nsid && e.stamp.before t && (tget e.blocks lba).isSome)

/-- What a block holds for a read stamped `t` (R266, R267); none where it is lost (R381, R869). -/
def readBlock (s : State) (sl nsid : Nat) (n : Ns) (t : Stamp) (lba : Nat) : Option BlockData :=
  match newest (earlier (s.slice sl) nsid t lba) with
  | some e =>
    if s.blockGone sl e lba then none
    else
    match tget e.blocks lba with
    | some (.data b) => some b
    | _ => some (zeroBlock n.lbaf)
  | none => s.mediaBlock sl n lba

/-- The words of blocks that entries of the buffer hold for a read stamped `t` are read (R869). -/
def readEntries (s : State) (sl nsid : Nat) (t : Stamp) (lbas : List Nat) : State :=
  lbas.foldl (fun s l => match newest (earlier (s.slice sl) nsid t l) with
    | some e => s.readWords (fun o => Config.bufferByte o sl e.id l)
    | none => s) s

/-- Is a block served from the buffer? -/
def inBuffer (x : Slice) (nsid : Nat) (t : Stamp) (lba : Nat) : Bool :=
  decide (earlier x nsid t lba ≠ [])

/-- An earlier-stamped Format NVM, Sanitize or namespace operation that addresses a namespace is still to act (R268). -/
def formatPending (x : Slice) (nsid : Nat) (t : Stamp) : Bool :=
  x.adms.any (fun a => a.stamp.before t && clearsNs a nsid)

/-- Every earlier-stamped write to the block is visible, discarded or failed (R268, R269). -/
def readReady (x : Slice) (nsid : Nat) (t : Stamp) (lba : Nat) : Bool :=
  (earlier x nsid t lba).all (fun e => e.visible.isSome) && !formatPending x nsid t &&
  x.adms.all (fun a => !(a.stamp.before t && writesBlock a nsid lba))

/-! ### Entries -/

/-- Is a write of the slice write-through by R256, its first three conditions? -/
def writeThrough (s : State) (n : Nat) : Bool :=
  s.wbfTotalMib = 0 || s.wbfTotal n = 0 || !s.wbf.armed

/-- Add an entry to a slice's buffer; its charge passes from the command to the entry. Its data is written with check
bits of its own. -/
def addEntry (s : State) (sl : Nat) (e : Entry) : State :=
  (s.freshWords (fun o => e.blocks.any (fun b => Config.bufferByte o sl (s.slice sl).nextEntry b.1))).modSlice sl (fun x =>
    { x with nextEntry := x.nextEntry + 1, entries := x.entries ++ [{ e with id := x.nextEntry }],
             adms := match e.cmd with
               | some c => x.adms.map (fun a => if a.id = c then { a with charge := 0, started := true } else a)
               | none => x.adms })

/-! ### Pairing, the primary's side (R292 to R303) -/

/-- ROLE, PARTNER_ADDRESS and PARTNER_SLICE in force (R320). -/
def pairRole (s : State) (n : Nat) : Nat := natBits (s.forceNat (pairKey n)) 31 30
def pairAddr (s : State) (n : Nat) : Nat := natBits (s.forceNat (pairKey n)) 22 9
def pairSlice (s : State) (n : Nat) : Nat := natBits (s.forceNat (pairKey n)) 8 0

/-- Enter ranges in the unpaired log; it is full with its 4,096th entry (R299, R302). -/
def logRanges (s : State) (n : Nat) (rs : List LogRange) : State :=
  let p := (s.slice n).pairing
  let room := 4096 - p.log.length
  let full := decide (rs ≠ []) && decide (room ≤ rs.length)
  let s' := s.modSlice n (fun x =>
    { x with pairing := { x.pairing with log := x.pairing.log ++ rs.take room,
                                         logFull := x.pairing.logFull || full } })
  if full && !p.logFull then s'.ev 0x1402 n else s'

/-- The data of blocks as a message carries it. -/
def blocksBytes (bs : List BlockData) : Bytes := bs.flatMap (fun b => b.data ++ b.md)

/-- Send one mirror request or resynchronisation copy (R296, R841): it takes the next PAIR_SEQ. -/
def sendPair (s : State) (n type : Nat) (stamp : Stamp) (rs : List LogRange) (data : Bytes)
    (cmd : Option CmdId) : State :=
  let seq := (s.slice n).pairing.seq
  let s := s.modSlice n (fun x => { x with pairing :=
    { x.pairing with seq := seq + 1, waits := x.pairing.waits ++
      [{ pairSeq := seq, cmd := cmd, addr := s.pairAddr n, partner := s.pairSlice n, ranges := rs,
         resync := cmd.isNone }] } })
  s.sendRouted (s.pairAddr n) type
    ([seq, stamp.stride, stamp.seq, n, s.pairSlice n, ((rs.head?).map LogRange.nsid).getD 0] ++
      rs.flatMap (fun r => [r.range.slba, r.range.count])) data

/-- The runs of consecutive blocks of an entry. -/
def runsOf (nsid : Nat) : List Nat → List LogRange
  | [] => []
  | l :: t =>
    match runsOf nsid t with
    | r :: rs => if l + 1 = r.range.slba then { nsid := nsid, range := { slba := l, count := r.range.count + 1 } } :: rs
                 else { nsid := nsid, range := { slba := l, count := 1 } } :: r :: rs
    | [] => [{ nsid := nsid, range := { slba := l, count := 1 } }]

/-- The bytes of an entry's data, in block order. -/
def entryBytes (e : Entry) : Bytes :=
  blocksBytes (e.blocks.filterMap (fun p => match p.2 with
    | .data b => some b
    | _ => none))

/-- A paired post at its completion stage (R296 step 2, R301): it is sent to the partner, or logged range by range (R299)
and completed POST_UNPAIRED when the pairing is not up. -/
def pairedVisible (s : State) (n : Nat) (e : Entry) (c : CmdId) : State :=
  let rs : List LogRange := e.ranges.map (fun r => { nsid := e.nsid, range := r })
  match (s.slice n).pairing.state with
  | .paired | .resyncing => s.sendPair n 0x10 e.stamp rs (entryBytes e) (some c)
  | _ =>
    let s := s.logRanges n rs
    let s := s.ev 0x1401 n (item 1 (s.slice n).pairing.cause)
    s.finish c (.vendor 0x22) e.stamp.dw0 e.stamp.dw1

/-- A paired post of an earlier stamp is still on its way to being visible. -/
def pairedPending (x : Slice) (t : Stamp) : Bool :=
  x.entries.any (fun f => f.paired && !f.sent && f.stamp.before t) ||
  x.adms.any (fun a => !a.admin && a.ent.opc = 0x81 && natBit a.ent.cdw10.toNat 8 && !a.started && a.stamp.before t)

/-- Send or log a visible paired post, once. While the pairing is up it waits for those of earlier stamps, so that the
partner applies them in the order of the stamps (R297). -/
def mirrorEntry (s : State) (n : Nat) (e : Entry) : State :=
  let x := s.slice n
  let up := x.pairing.state = .paired || x.pairing.state = .resyncing
  match e.cmd with
  | none => s
  | some c =>
    if !e.paired || e.sent || e.visible.isNone || (up && pairedPending x e.stamp) then s
    else (s.modSlice n (fun x => { x with entries := x.entries.map (fun (f : Entry) =>
      if f.id = e.id then { f with sent := true } else f) })).pairedVisible n e c

/-- The paired posts of a slice that are to be sent or logged now, in stamp order. -/
def mirrorSlice (s : State) (n : Nat) : State :=
  (sortBy (fun (a b : Entry) => a.stamp.before b.stamp) (s.slice n).entries).foldl (fun s e => s.mirrorEntry n e) s

/-! ### Visibility (R257 to R260, R296) -/

/-- The acknowledgement of a mirrored entry that is visible (R844); its answer is kept (R842). -/
def ackEntry (s : State) (n : Nat) (e : Entry) : State :=
  match e.ack with
  | none => s
  | some (src, slice, seq) =>
    let s := s.modSlice n (fun x => { x with
      entries := x.entries.map (fun (f : Entry) => if f.id = e.id then { f with ack := none } else f),
      pairing := { x.pairing with answers := ((seq, 0, e.stamp) :: x.pairing.answers).take 4096 } })
    s.sendReply src 0x11 [slice, seq, 0, e.stamp.stride, e.stamp.seq]

/-- An entry's command reaches its completion stage, and but for a paired post completes, at the tick at which the entry
has become visible (R224, R296). A Dataset Management command completes with the last of its ranges (R258). -/
def visibleDone (s : State) (n : Nat) (e : Entry) : State :=
  match e.cmd with
  | none => s.ackEntry n e
  | some c =>
    match s.adm? c with
    | none => s
    | some a =>
      if e.dsm then
        if (s.slice n).entries.all (fun f => decide (f.cmd ≠ some c) || f.visible.isSome) then s.finishNow c .success
        else s
      else if a.stage then s
      else
        let s := s.modAdm c (fun a => { a with stage := true })
        if e.paired then s
        else if e.post then s.finishNow c .success e.stamp.dw0 e.stamp.dw1
        else s.finishNow c .success

/-- Is a buffered entry due to become visible at this tick (R259)? -/
def visibleDue (s : State) (e : Entry) : Bool :=
  e.visible.isNone && !e.wt && s.wbf.armed &&
  match e.ready with
  | some r => decide (r < s.stride)
  | none => false

/-- Make entry `id` of slice `n` visible. -/
def makeVisible (s : State) (n id : Nat) : State :=
  s.modSlice n (fun x => { x with entries := x.entries.map (fun (e : Entry) =>
    if e.id = id then { e with visible := some s.stride } else e) })

/-- ENTRY_VISIBLE for one entry, at the tick under way. -/
def entryVisible (s : State) (n : Nat) (e : Entry) : State :=
  if s.visibleDue e then (s.makeVisible n e.id).visibleDone n e
  else if e.wt && e.journalled then s.visibleDone n e
  else s

/-- Every entry that a tick makes visible, in stamp order within its slice, and the mirror requests that follow. -/
def visibleTick (s : State) : State :=
  s.slices.foldl (fun s p =>
    ((sortBy (fun (a b : Entry) => a.stamp.before b.stamp) p.2.entries).foldl (fun s e => s.entryVisible p.1 e)
      s).mirrorSlice p.1) s

/-- The releases of a tick (R277). -/
def releaseTick (s : State) : State :=
  { s with slices := tmap s.slices (fun _ x => releaseEntries x) }

/-! ### The emergency reserve and the hold-up guarantee (R305, R306, R378) -/

/-- The bytes of each die's reserve share (R378). -/
def reserveShare (s : State) : Nat := ceilDiv ((s.wbfTotalMib + 64) * 1048576) s.diesInUse.length

/-- The SLC-mode bytes of a die's block. -/
def slcBytes (s : State) (d : Nat) : Nat := s.blockBytes d / max 1 (s.die d).bitsPerCell

/-- The reserve blocks of a die. -/
def reserveBlocks (s : State) (d : Nat) : List Nat :=
  (s.ftl.blks.filter (fun p => dieOfBlk p.1 = d && p.2.state = .reserve)).map Prod.fst

/-- RESERVE_OK (R378, R971, R1058). -/
def reserveHeld (s : State) : Bool :=
  s.ftl.recovered && decide (s.diesInUse ≠ []) && s.dur.reserve.all (fun p => p.2.isEmpty) &&
  s.diesInUse.all (fun d => decide (s.reserveShare ≤ (s.reserveBlocks d).length * s.slcBytes d))

/-- Set erased blocks of a die aside until it holds its share (R378). -/
def fillReserve (s : State) (d : Nat) : Nat → State
  | 0 => s
  | k + 1 =>
    if s.reserveShare ≤ (s.reserveBlocks d).length * s.slcBytes d then s
    else match s.leastWorn (s.freeBlocks d) with
      | none => s
      | some b => fillReserve (s.modBlk b (fun x => { x with state := .reserve })) d k

/-- Every die in use takes its reserve share. -/
def fillReserves (s : State) : State :=
  s.diesInUse.foldl (fun s d => s.fillReserve d (s.blocksOf d).length) s

/-- The guarantee is armed (R305). -/
def armHoldup (s : State) : State :=
  ({ s with wbf := { s.wbf with armed := true } }).ev 0x0400 noSlice

/-- The guarantee is disarmed (R306): what is not visible continues as write-through, writes and posts whose data is still
to come among them. -/
def disarmHoldup (s : State) : State :=
  let s := { s with wbf := { s.wbf with armed := false, disarmSeen := true, drainPeriod := true } }
  let late (a : Adm) : Bool := !a.admin && (a.ent.opc = 0x01 || a.ent.opc = 0x81) && !a.started
  let s := { s with slices := tmap s.slices (fun _ (x : Slice) => { x with
    entries := x.entries.map (fun (e : Entry) =>
      if e.visible.isSome then { e with drain := true } else { e with wt := true, drain := true })
    adms := x.adms.map (fun (a : Adm) => if late a then { a with wt := true, drain := true } else a) }) }
  s.ev 0x1400 noSlice

/-- The sampling of HOLDUP_OK at a tick, and what it arms or disarms (R305). -/
def holdupTick (s : State) : State :=
  let pin := s.wbf.holdupPin
  let ok := s.reserveHeld
  let high := if pin then min 4 (s.wbf.highTicks + 1) else 0
  let s := { s with wbf := { s.wbf with holdupOk := pin, highTicks := high, reserveOk := ok } }
  if s.wbf.armed then (if pin && ok then s else s.disarmHoldup)
  else if high = 4 && ok && s.dev.phase = .ready then s.armHoldup
  else s

/-- The period of R306 ends once everything it covers is journalled. -/
def drainTick (s : State) : State :=
  if s.wbf.drainPeriod && s.slices.all (fun p => p.2.entries.all (fun e => !e.drain || settled p.2 e) &&
       p.2.adms.all (fun a => !a.drain || a.started)) then
    { s with wbf := { s.wbf with drainPeriod := false } }
  else s

/-! ### Power failure (R308 to R313, R925, R970, R1058) -/

/-- The flush bound T of R312, in laps. -/
def flushBound (s : State) : Nat :=
  let p := s.diesInUse.length
  if p = 0 then 0
  else
    let perCh := (List.range 32).filterMap (fun c =>
      let d := (s.diesInUse.filter (fun d => d / 16 = c)).length
      let r := (s.chan c).rate
      if r = 0 then none else some (d, r))
    let term (q : Nat × Nat) : Nat := ceilDiv (1200 * s.wbfTotalMib * q.1) (q.2 * 100 * p)
    max (ceilDiv (60 * s.wbfTotalMib * 512) (4096 * p)) ((perCh.map term).foldl max 0)

/-- A power failure is latched (R308): the bound of its flush is the one of now (R312). It is never withdrawn. -/
def latchFail (s : State) : State :=
  let bound := if s.wbf.pfail || s.wbf.pfTaken then s.wbf.pfBound else s.flushBound
  { s with wbf := { s.wbf with pfail := true, pfBound := bound } }

/-- The laps that the flush under way has taken (R312, R321). -/
def pfLaps (s : State) : Nat := ceilDiv (s.stride - s.wbf.pfStart) 4000

/-- Has the flush under way not outrun its bound (R312)? -/
def pfInTime (s : State) : Bool := decide (s.pfLaps ≤ s.wbf.pfBound)

/-- Has the flush under way come to the end of its bound (R312)? -/
def pfLate (s : State) : Bool := decide (s.wbf.pfStart + s.wbf.pfBound * 4000 ≤ s.stride)

/-- The first tick after a power failure is latched (R309): admission, sampling and posting stop, what
is not at its completion stage is discarded, and the emergency flush starts; it issues no program
where R925, R970 or R1058 say so. -/
def powerFailTick (s : State) : State :=
  if s.wbf.pfail && !s.wbf.pfTaken then
    let s := s.slices.foldl (fun s p => s.squash p.1) s
    let s := { s with slices := tmap s.slices (fun _ x => { x with ready := [] }) }
    let idle := decide (2 ≤ s.pwr.state) || (s.pwr.phase = .entering && decide (2 ≤ s.pwr.target)) ||
      decide (s.dev.phase ≠ .ready) || s.diesInUse = []
    let s := { s with wbf := { s.wbf with pfTaken := true, pfFlushing := !idle, pfDone := idle,
                                          pfStart := s.stride,
                                          pfCounted := !s.wbf.armed || (s.diesInUse = []) } }
    let s := match s.pwr.phase with
      | .preparing => s.abandonPrep 0
      | .entering => { s with pwr := { s.pwr with phase := .steady, target := s.pwr.state } }
      | _ => s
    let s := if s.wbf.pfCounted then { s with dur := { s.dur with unsafeOffs := s.dur.unsafeOffs + 1 } } else s
    let s := s.ev 0x3400 noSlice
    if idle then (s.setPin 2 true).ev 0x3401 noSlice (itemSat 2 0) else s
  else s

/-- The slice-table record of now (R972). -/
def sliceTableNow (s : State) : SliceTable :=
  { slices := s.slices,
    shares := s.inForce.filter (fun p => decide (0x48000 ≤ p.1) && decide (p.1 < 0x4C000) ||
      (decide (0x202000 ≤ p.1) && decide (p.1 < 0x202800))) }

/-- Number records on from a SEQ (R366). -/
def renumber : Nat → List JRec → List JRec
  | _, [] => []
  | n, r :: t => { r with seq := n } :: renumber (n + 1) t

/-- Is an entry to be saved to the reserve (R261, R311, R366)? A visible one is, and a deallocation that is past its
completion stage. -/
def savedEntry (x : Slice) (e : Entry) : Bool := (e.visible.isSome || (e.dsm && !e.wt)) && !settled x e

/-- The entries of a slice that are saved, without what has been superseded or journalled (R275, R373). What can not be
read stays lost (R869). -/
def savedEntries (s : State) (n : Nat) (x : Slice) : List Entry :=
  (x.entries.filter (savedEntry x)).map (fun e =>
    { e with blocks := (e.blocks.filter (fun b => liveBlock x e b.1)).map (fun b =>
        if s.blockGone n e b.1 then (b.1, .lost) else b) })

/-- The records of verified copies that are not yet journalled (R366). -/
def verifiedRecs (s : State) : List JRec :=
  s.ftl.reclaims.filterMap (fun r =>
    let es := r.ents.filter (fun e => r.verified.contains (blkOf e.new))
    if r.finalSeq.isSome || es = [] then none
    else some { seq := 0, type := r.why.type, final := false, stamp := none, victim := r.blk, ents := es, covers := [] })

/-- What an emergency flush writes to the reserve (R311, R366, R419, R957, R979): the visible entries, the
unpaired logs and slice table, the recorders and the health records; and, after a power failure, the journal
records of types 0x04 to 0x0B that are not yet durable and those of verified copies. -/
def saveReserve (s : State) (records : Bool) : State :=
  let rs := if records then
      s.ftl.journal.filter (fun r => decide (4 ≤ r.type) && decide (r.type ≤ 0xB)) ++ s.verifiedRecs
    else []
  { s with
    ftl := { s.ftl with journal := [], jseq := s.ftl.jseq + rs.length,
                        bandRecs := s.ftl.bandRecs ++ renumber (s.ftl.jseq + 1) rs }
    dur := { s.dur with
      reserve := s.slices.map (fun p => (p.1, s.savedEntries p.1 p.2))
      sliceTable := some s.sliceTableNow
      recDev := s.evr.dev, recSlices := s.evr.slices
      health := s.ftl.dies.map (fun p => (p.1, p.2.health)) } }

/-- The emergency flush ends (R312, R313): FLUSH_DONE rises (R1033). -/
def flushEnd (s : State) : State :=
  if s.wbf.pfFlushing && s.pfInTime then
    let laps := s.pfLaps
    let s := s.saveReserve true
    (({ s with wbf := { s.wbf with pfFlushing := false, pfDone := true } }).setPin 2 true).ev 0x3401 noSlice
      (itemSat 2 laps)
  else s

end State

end Sys2Proof.Machine
end

