-- ==== Sys2Proof/Machine/Io.lean ====
section
/-! DEFINITION. The I/O commands of NVMe and Ledger Post, from their admission checks' end to their
completion (R198, R223, R224, R233, R234, R259, R266 to R269, R278 to R289, R381). -/

namespace Sys2Proof.Machine

/-- The metadata bytes that one block carries over the host link: none where the device makes the
protection information itself. -/
def linkMeta (n : Ns) (e : SqEntry) : Nat :=
  if hasPi n && natBit e.cdw12.toNat 29 then 0 else lbaMeta n.lbaf

/-- The bytes one block takes on the host link. -/
def linkBlock (n : Ns) (e : SqEntry) : Nat := lbaData n.lbaf + linkMeta n e

/-- Cut transferred bytes into blocks of `d` data and `m` metadata bytes. -/
def splitBlocks (d m : Nat) : Nat → Bytes → List BlockData
  | 0, _ => []
  | k + 1, bs => { data := bs.take d, md := bytesAt bs d m } :: splitBlocks d m k (bs.drop (d + m))

/-- The blocks of a range from a list of blocks. -/
def blockTab (lo : Nat) (bs : List BlockData) : Tab Content :=
  (numbered lo bs).map (fun p => (p.1, Content.data p.2))

/-- The namespace of an admitted command. -/
def Slice.ns (x : Slice) (a : Adm) : Option Ns := tget x.nss a.ent.nsid

namespace State

/-- Command data in the CMB that can not be read ends the command with Data Transfer Error (R869). -/
def cmbLost (s : State) (c : CmdId) (ranges : List (Nat × Nat)) : State :=
  (s.readCmb c.slice ranges).failCmd c .dataTransferError

/-- What a command brings from ranges reaches device memory: `f` goes on once the last of its chunks has moved. Where the
stride does not take them all, the progress is kept and the arrival is given again in a later one (R31). -/
def arrive (s : State) (c : CmdId) (ranges : List (Nat × Nat)) (f : State → State) : State :=
  let m := s.moveData c false ranges
  if m.2 then f m.1 else if s.cmbBad c.slice ranges then s.cmbLost c ranges else m.1

/-- Gather the bytes of a data pointer's ranges: those in the CMB from the CMB, the rest from the host
data that the command brings (R216). -/
def gather (s : State) (n : Nat) : List (Nat × Nat) → Bytes → Bytes
  | [], _ => []
  | (a, len) :: t, bs =>
    let p := (s.slice n).port
    let here := if s.touchesBar4 p a len then mread s.cmb (a - (s.port p).bar4) len
                else padTo len (bs.take len)
    here ++ gather s n t (bs.drop len)

/-- The blocks that a command's data pointer brings. -/
def blocksIn (s : State) (n : Nat) (ns : Ns) (e : SqEntry) (d : List BlockData) : List BlockData :=
  splitBlocks (lbaData ns.lbaf) (linkMeta ns e) (nlbOf e) (s.gather n e.dptr.ranges (blocksBytes d))

/-- An entry of the buffer made by an admitted command. -/
def newEntry (s : State) (c : CmdId) (a : Adm) (blocks : Tab Content) (post paired : Bool) : Entry :=
  { id := 0, nsid := a.ent.nsid, stamp := a.stamp, blocks := blocks, charge := a.charge,
    wt := s.writeThrough c.slice || a.wt, post := post, paired := paired, cmd := some c,
    ready := some s.stride, drain := a.drain }

/-- Count data units (R428), in 512-byte units. -/
def unitsWritten (s : State) (n bytes : Nat) : State :=
  s.modSlice n (fun x => { x with smart := { x.smart with unitsWritten := x.smart.unitsWritten + bytes / 512 } })
def unitsRead (s : State) (n bytes : Nat) : State :=
  s.modSlice n (fun x => { x with smart := { x.smart with unitsRead := x.smart.unitsRead + bytes / 512 } })

/-- The I/O commands that are at their completion stage at admission (R224). -/
def stagedAtAdmission : List Nat := [0x00, 0x09, 0x0D, 0x0E, 0x11, 0x15]

/-- Run `f` on the admitted I/O command of an identity, where it has this opcode, has not begun, has
its namespace and no earlier format of it is outstanding. -/
def onIo (s : State) (c : CmdId) (opc : Nat) (f : Adm → Ns → State) : State :=
  match s.adm? c with
  | none => s
  | some a =>
    match (s.slice c.slice).ns a with
    | some ns =>
      if !a.admin && a.ent.opc = opc && !a.started && (!a.stage || stagedAtAdmission.contains opc) &&
         !formatPending (s.slice c.slice) a.ent.nsid a.stamp then f a ns
      else s
    | none => s

/-- WRITE: its data is in the buffer and its protection information is checked (R259, R890). -/
def ioWrite (s : State) (c : CmdId) (d : List BlockData) : State :=
  s.onIo c 0x01 (fun a ns =>
    s.arrive c a.ent.dptr.ranges (fun s =>
      match piIngress ns (piAsk a.ent (entryRef ns a.ent)) (s.blocksIn c.slice ns a.ent d) with
      | .error st => s.failCmd c st
      | .ok bs =>
        (s.addEntry c.slice (s.newEntry c a (blockTab (slbaOf a.ent) bs) false false)).unitsWritten
          c.slice (nlbOf a.ent * lbaData ns.lbaf)))

/-- WRITE_ZEROES (R267): an entry of zero markings, or of deallocation markings. -/
def ioWriteZeroes (s : State) (c : CmdId) : State :=
  s.onIo c 0x08 (fun a _ =>
    let m := if natBit a.ent.cdw12.toNat 25 then Content.dealloc else Content.zero
    s.addEntry c.slice (s.newEntry c a
      ((List.range (nlbOf a.ent)).map (fun i => (slbaOf a.ent + i, m))) false false))

/-- The entries of the deallocated ranges of a Dataset Management command, one for each range (R259). -/
def deallocate (s : State) (c : CmdId) (a : Adm) : List LbaRange → State
  | [] => s
  | r :: t =>
    let s := if r.count = 0 then s else s.addEntry c.slice
      { s.newEntry c a ((List.range r.count).map (fun i => (r.slba + i, Content.dealloc))) false false with
        dsm := true, charge := 0 }
    deallocate s c a t

/-- DATASET_MANAGEMENT (R198, R234): NR is 0-based, only deallocation has an effect. It completes once its entries are
visible (R258, R259); with nothing to deallocate at once. -/
def ioDataset (s : State) (c : CmdId) (rs : List LbaRange) : State :=
  s.onIo c 0x09 (fun a ns =>
    if rs.length ≠ natBits a.ent.cdw10.toNat 7 0 + 1 then s
    else if rs.any (fun r => decide (r.count ≠ 0) && decide (ns.nsze < r.slba + r.count)) then s.finish c .lbaRange
    else if natBit a.ent.cdw11.toNat 2 && rs.any (fun r => decide (r.count ≠ 0)) then s.deallocate c a rs
    else s.finish c .success)

/-- FLUSH completes at once: completed writes are durable (R198). -/
def ioFlush (s : State) (c : CmdId) : State :=
  match s.adm? c with
  | none => s
  | some a => if !a.admin && a.ent.opc = 0x00 then s.finish c .success else s

/-! ### Reads (R266 to R269, R381, R398) -/

/-- How a block of a read is served. -/
inductive Fate where
  | ready (b : BlockData)
  | flash (addr : Nat) (b : BlockData)
  | lost
  | reserved

/-- How block `lba` is served: from the buffer, as zeros, from flash, or not at all. -/
def fate (s : State) (sl nsid : Nat) (ns : Ns) (t : Stamp) (lba : Nat) : Fate :=
  if inBuffer (s.slice sl) nsid t lba then
    match s.readBlock sl nsid ns t lba with
    | some b => .ready b
    | none => .lost
  else match s.mapOf (unitOf ns lba) (slotOf ns lba) with
    | .unmapped => .ready (zeroBlock ns.lbaf)
    | .lost => .lost
    | .bad => .reserved
    | .phys a =>
      let d := s.die (dieOf a)
      if d.lost || !(s.chan (dieOf a / 16)).trained then .lost
      else .flash a ((s.mediaBlock sl ns lba).getD (zeroBlock ns.lbaf))

def Fate.block : Fate → Option BlockData
  | .ready b => some b
  | .flash _ b => some b
  | _ => none

def Fate.addr : Fate → Option Nat
  | .flash a _ => some a
  | _ => none

def Fate.isReserved : Fate → Bool
  | .reserved => true
  | _ => false

/-- The flash reads of a command become ready (R32, R414, R1055). -/
def issueReads (s : State) (c : CmdId) : List Nat → State
  | [] => s
  | a :: t => issueReads (s.addPoll (.hostRead c a) 1) c t

/-- A read whose data is gathered ends: it delivers its blocks and completes. -/
def readEnd (s : State) (c : CmdId) (a : Adm) (ns : Ns) : State :=
  match a.bad with
  | some st => s.finish c st
  | none =>
    let s := s.unitsRead c.slice (nlbOf a.ent * lbaData ns.lbaf)
    if a.ent.opc = 0x02 then s.respond c { ranges := a.ent.dptr.ranges, data := blocksBytes a.bufs }
    else s.finish c .success

/-- Begin the first unit of a read: its result is what the blocks hold for its stamp. `check` gives the
outcome of the blocks read: an error or what is delivered. With a block that needs no flash read the unit begins now;
otherwise with the first flash read's issue (R224). -/
def readBegin (s : State) (c : CmdId) (a : Adm) (ns : Ns)
    (check : List BlockData → Except Status (List BlockData)) : State :=
  let fs := (List.range (nlbOf a.ent)).map (fun i =>
    s.fate c.slice a.ent.nsid ns a.stamp (slbaOf a.ent + i))
  let s := if fs.any Fate.isReserved then s.ev 0x1502 noSlice else s
  if fs.any (fun f => f.block.isNone) then
    (s.readEntries c.slice a.ent.nsid a.stamp ((List.range (nlbOf a.ent)).map (fun i => slbaOf a.ent + i))).failCmd c
      .unrecoveredRead
  else
    let r := check (fs.filterMap Fate.block)
    let stage := fs.any (fun f => f.addr.isNone)
    let a' : Adm := match r with
      | .error st => { a with stage := stage, started := true, bad := some st }
      | .ok bs => { a with stage := stage, started := true, bufs := bs }
    let addrs := (fs.filterMap Fate.addr).eraseDups
    let t := s.modAdm c (fun _ => { a' with waits := addrs.length })
    if !addrs.isEmpty then t.issueReads c addrs else t.readEnd c a' ns

/-- May the units of a read begin (R269)? -/
def readMay (s : State) (c : CmdId) (a : Adm) : Bool :=
  (List.range (nlbOf a.ent)).all (fun i =>
    readReady (s.slice c.slice) a.ent.nsid a.stamp (slbaOf a.ent + i))

/-- READ. -/
def ioRead (s : State) (c : CmdId) : State :=
  s.onIo c 0x02 (fun a ns =>
    if s.readMay c a then s.readBegin c a ns (piEgress ns (piAsk a.ent (entryRef ns a.ent))) else s)

/-- VERIFY: a read that delivers nothing. -/
def ioVerify (s : State) (c : CmdId) : State :=
  s.onIo c 0x0C (fun a ns =>
    if s.readMay c a then s.readBegin c a ns (piEgress ns (piAsk a.ent (entryRef ns a.ent)))
    else s)

/-- COMPARE: the blocks read are held against the host's (R266). Protection information is checked, not
compared, where the device makes it. -/
def ioCompare (s : State) (c : CmdId) (d : List BlockData) : State :=
  s.onIo c 0x05 (fun a ns =>
    if !s.readMay c a then s
    else s.arrive c a.ent.dptr.ranges (fun s =>
      let host := s.blocksIn c.slice ns a.ent d
      s.readBegin c a ns (fun bs =>
        match piEgress ns (piAsk a.ent (entryRef ns a.ent)) bs with
        | .error st => .error st
        | .ok out => if out = host then .ok [] else .error .compareFailure)))

/-- One flash read of a host command has ended: `bad` says that its data is not to be had. A read
completes with its last one; an engine's command goes on by its engine's rules, and with its first decoded data its first
unit begins on the hurdle stage or search slot (R224). -/
def hostReadDone (s : State) (c : CmdId) (bad : Bool) : State :=
  match s.adm? c with
  | none => s
  | some a =>
    let a' := { a with waits := a.waits - 1, stage := true,
                       bad := if bad then some .unrecoveredRead else a.bad }
    let s := s.modAdm c (fun _ => a')
    if a'.waits = 0 && (a.ent.opc = 0x02 || a.ent.opc = 0x05 || a.ent.opc = 0x0C) then
      match (s.slice c.slice).ns a with
      | some ns => s.readEnd c a' ns
      | none => s.finish c .invalidNamespace
    else s

/-! ### Reservations ("As NVMe 2.0", R198): one registrant, the slice's own host -/

def setResv (s : State) (c : CmdId) (nsid : Nat) (r : Resv) : State :=
  s.modSlice c.slice (fun x => { x with nss := tmod x.nss nsid (fun n => { n with resv := r }) })

def resvBump (r : Resv) : Resv := { r with gen := (r.gen + 1) % 2 ^ 32 }

/-- CPTPL: what a Register does to persistence through power loss. -/
def resvPtpl (e : SqEntry) (r : Resv) : Resv :=
  if natBits e.cdw10.toNat 31 30 = 2 then { r with ptpl := false }
  else if natBits e.cdw10.toNat 31 30 = 3 then { r with ptpl := true }
  else r

/-- RESERVATION_REGISTER: 0 register, 1 unregister, 2 replace. -/
def resvRegister (s : State) (c : CmdId) (d : ResvKeys) : State :=
  s.onIo c 0x0D (fun a ns =>
    let r := ns.resv
    let op := natBits a.ent.cdw10.toNat 2 0
    let ie := natBit a.ent.cdw10.toNat 3
    let put (r : Resv) : State := (s.setResv c a.ent.nsid (resvPtpl a.ent r)).finish c .success
    if op = 0 then
      match r.key with
      | some k => if k = d.nrkey then put r else s.finish c .reservationConflict
      | none => put (resvBump { r with key := some d.nrkey })
    else if op = 1 then
      match r.key with
      | some k => if ie || k = d.crkey then put (resvBump { r with key := none, held := false, rtype := 0 })
                  else s.finish c .reservationConflict
      | none => s.finish c .reservationConflict
    else if op = 2 then
      match r.key with
      | some k => if ie || k = d.crkey then put (resvBump { r with key := some d.nrkey })
                  else s.finish c .reservationConflict
      | none => if ie then put (resvBump { r with key := some d.nrkey })
                else s.finish c .reservationConflict
    else s.finish c .invalidField)

/-- Is the command's key the registrant's? -/
def resvKeyOk (r : Resv) (e : SqEntry) (d : ResvKeys) : Bool :=
  match r.key with
  | some k => natBit e.cdw10.toNat 3 || k = d.crkey
  | none => false

/-- RESERVATION_ACQUIRE: 0 acquire, 1 preempt, 2 preempt and abort. -/
def resvAcquire (s : State) (c : CmdId) (d : ResvKeys) : State :=
  s.onIo c 0x11 (fun a ns =>
    let r := ns.resv
    let op := natBits a.ent.cdw10.toNat 2 0
    let rt := natBits a.ent.cdw10.toNat 15 8
    if 3 ≤ op || rt = 0 || 6 < rt then s.finish c .invalidField
    else if !resvKeyOk r a.ent d then s.finish c .reservationConflict
    else if op = 0 then
      if r.held && decide (r.rtype ≠ rt) then s.finish c .reservationConflict
      else (s.setResv c a.ent.nsid { r with held := true, rtype := rt }).finish c .success
    else if r.key = some d.nrkey then
      (s.setResv c a.ent.nsid (resvBump { r with held := true, rtype := rt })).finish c .success
    else s.finish c .reservationConflict)

/-- RESERVATION_RELEASE: 0 release, 1 clear. -/
def resvRelease (s : State) (c : CmdId) (d : ResvKeys) : State :=
  s.onIo c 0x15 (fun a ns =>
    let r := ns.resv
    let op := natBits a.ent.cdw10.toNat 2 0
    let rt := natBits a.ent.cdw10.toNat 15 8
    if 2 ≤ op then s.finish c .invalidField
    else if !resvKeyOk r a.ent d then s.finish c .reservationConflict
    else if op = 1 then
      (s.setResv c a.ent.nsid (resvBump { r with key := none, held := false, rtype := 0 })).finish c .success
    else if r.held && decide (r.rtype ≠ rt) then s.finish c .invalidField
    else (s.setResv c a.ent.nsid { r with held := false, rtype := 0 }).finish c .success)

/-- The Reservation Status structure of NVMe 2.0, in its basic or extended form. -/
def resvReportBytes (n : Nat) (r : Resv) (ext : Bool) : Bytes :=
  let count := if r.key.isSome then 1 else 0
  let key := (r.key.getD 0).toNat
  let head := item 4 r.gen ++ item 1 r.rtype ++ item 2 count ++ item 2 0 ++ item 1 (flagAt r.ptpl 0) ++
    List.replicate 14 0
  let own := item 2 n ++ item 1 (flagAt r.held 0) ++ List.replicate 5 0
  if ext then
    head ++ List.replicate 40 0 ++
      (if count = 1 then own ++ item 8 key ++ List.replicate 48 0 else [])
  else head ++ (if count = 1 then own ++ List.replicate 8 0 ++ item 8 key else [])

/-- RESERVATION_REPORT: NUMD doublewords of the status. -/
def resvReport (s : State) (c : CmdId) : State :=
  s.onIo c 0x0E (fun a ns =>
    let bs := resvReportBytes c.slice ns.resv (natBit a.ent.cdw11.toNat 0)
    s.respond c { ranges := a.ent.dptr.ranges, data := bs.take (4 * (a.ent.cdw10.toNat + 1)) })

/-! ### Ledger Post (R278 to R289) -/

def postRanges (e : SqEntry) : Nat := natBits e.cdw10.toNat 7 0
def postPaired (e : SqEntry) : Bool := natBit e.cdw10.toNat 8
def postTotal (e : SqEntry) : Nat := natBits e.cdw11.toNat 15 0 + 1

/-- A range entry (R280): its range, and whether its reserved field is zero. -/
def rangeEntry (bs : Bytes) (i : Nat) : LbaRange × Bool :=
  ({ slba := leAt bs (16 * i) 8, count := leAt bs (16 * i + 8) 4 + 1 }, leAt bs (16 * i + 12) 4 = 0)

def overlap (a b : LbaRange) : Bool := decide (a.slba < b.slba + b.count) && decide (b.slba < a.slba + a.count)

/-- Two ranges of a list share a block. -/
def anyOverlap : List LbaRange → Bool
  | [] => false
  | r :: t => t.any (overlap r) || anyOverlap t

/-- Checks 7 to 11 of R281; check 12 never fails, since the slice's own host is the only registrant. -/
def postChecks (ns : Ns) (e : SqEntry) (rs : List (LbaRange × Bool)) : Option Status :=
  let ranges := rs.map Prod.fst
  if rs.any (fun r => !r.2) then some .invalidField
  else if lsum (ranges.map LbaRange.count) ≠ postTotal e then some (.vendor 0x02)
  else if 16 * 2 ^ 20 < postTotal e * lbaData ns.lbaf then some (.vendor 0x20)
  else if ranges.any (fun r => decide (ns.nsze < r.slba + r.count)) then some .lbaRange
  else if anyOverlap ranges then some (.vendor 0x21)
  else none

/-- Ingress of a post's data range by range: each range's first reference tag is its SLBA (R284). -/
def postIngress (ns : Ns) (e : SqEntry) : List LbaRange → List BlockData → Except Status (Tab Content)
  | [], _ => .ok []
  | r :: t, bs =>
    match piIngress ns (piAsk e r.slba) (bs.take r.count) with
    | .error st => .error st
    | .ok here =>
      match postIngress ns e t (bs.drop r.count) with
      | .error st => .error st
      | .ok rest => .ok ((blockTab r.slba here).foldl (fun t b => tset t b.1 b.2) rest)

/-- The data of a post whose list has passed its checks is in device memory (R269, R284, R285): its one entry. -/
def postArrive (s : State) (c : CmdId) (a : Adm) (ns : Ns) (rs : List LbaRange) (bs : Bytes) : State :=
  let blocks := splitBlocks (lbaData ns.lbaf) (linkMeta ns a.ent) (postTotal a.ent) bs
  match postIngress ns a.ent rs blocks with
  | .error st => s.failCmd c st
  | .ok t =>
    (s.addEntry c.slice { s.newEntry c a t true (postPaired a.ent) with ranges := rs }).unitsWritten c.slice
      (postTotal a.ent * lbaData ns.lbaf)

/-- The list of a post is in device memory: checks 7 to 12 (R281, R282), once. -/
def postList (s : State) (c : CmdId) (a : Adm) (ns : Ns) (list : Bytes) (f : State → List LbaRange → State) : State :=
  match a.ranges with
  | some rs => f s rs
  | none =>
    let rs := (List.range (postRanges a.ent)).map (rangeEntry list)
    match postChecks ns a.ent rs with
    | some st => s.failCmd c st
    | none => f (s.modAdm c (fun a => { a with ranges := some (rs.map Prod.fst) })) (rs.map Prod.fst)

/-- The data of a post lies behind its list (R279). -/
def postData (a : Adm) : List (Nat × Nat) := rangesFrom a.ent.dptr.ranges (16 * postRanges a.ent)

/-- LEDGER_POST (R282): a list in the CMB is checked, and data there enters the buffer, at once; the rest comes with
LEDGER_POST_LIST_ARRIVAL. -/
def ioPost (s : State) (c : CmdId) : State :=
  s.onIo c 0x81 (fun a ns =>
    let here (rs : List (Nat × Nat)) : Bool := rs.all (fun r => s.inPortion c.slice r.1 r.2)
    let list := cutRanges a.ent.dptr.ranges (16 * postRanges a.ent)
    if here list && s.cmbBad c.slice list then s.cmbLost c list
    else if here list then
      s.postList c a ns (s.gather c.slice a.ent.dptr.ranges []) (fun s rs =>
        if here (postData a) then
          s.arrive c (postData a) (fun s => s.postArrive c a ns rs (s.gather c.slice (postData a) []))
        else s)
    else s)

/-- The end of a post's list fetch (R282), with the data behind it. -/
def ioPostList (s : State) (c : CmdId) (list : Fetch) (d : List BlockData) : State :=
  s.onIo c 0x81 (fun a ns =>
    match list with
    | .failAt _ => (s.failCmd c .dataTransferError).ev 0x1203 c.slice
    | .ok l =>
      let list := cutRanges a.ent.dptr.ranges (16 * postRanges a.ent)
      if s.cmbBad c.slice list then s.cmbLost c list
      else
      let all := s.gather c.slice a.ent.dptr.ranges (padTo (16 * postRanges a.ent) l ++ blocksBytes d)
      s.postList c a ns all (fun s rs =>
        s.arrive c (postData a) (fun s => s.postArrive c a ns rs (all.drop (16 * postRanges a.ent)))))

/-- Where a command writes its result: its data pointer's ranges, or for the engines the destination in its dwords. -/
def resultRanges (a : Adm) : List (Nat × Nat) :=
  let opc := a.ent.opc
  if a.admin then (if opc = 0x02 || opc = 0x06 || opc = 0xC2 then a.ent.dptr.ranges else [])
  else if opc = 0x02 || opc = 0x0E || opc = 0x86 || opc = 0x8A then a.ent.dptr.ranges
  else (a.reply.map Reply.ranges).getD []

/-- A write to the host has failed: any bytes of the destination may have been written, and none outside it (R1054). Those
in the CMB become free values. -/
def partialWrite (s : State) (n : Nat) (rs : List (Nat × Nat)) : State :=
  rs.foldl (fun s r =>
    if s.touchesBar4 (s.slice n).port r.1 r.2 then
      { s.cmbPut (r.1 - (s.port (s.slice n).port).bar4) (padTo r.2 (Config.partialFill s.free)) with free := s.free + 1 }
    else s.emit (.hostPartial (s.pasidOf n) r.1 r.2)) s

/-- DATA_TRANSFER_ERROR (R242, R1054): a data DMA of the command fails on the bus. -/
def dataError (s : State) (c : CmdId) : State :=
  match s.adm? c with
  | none => s
  | some a => ((s.partialWrite c.slice (resultRanges a)).failCmd c .dataTransferError).ev 0x1203 c.slice

end State

end Sys2Proof.Machine
end

