-- ==== Sys2Proof/Machine/Host.lean ====
section
/-! DEFINITION. The admin commands of NVMe that need no engine: queues, features, Identify, logs,
Abort, asynchronous events, namespaces and Format NVM (R195 to R213, R225 to R230, R322 to R326, R428,
R429). Structures that the spec gives "as NVMe 2.0" take NVMe's layouts. -/

namespace Sys2Proof.Machine

/-- Bytes of `len` with the given fields laid over a filling: offset and bytes of each field. -/
def overlay (fill : Bytes) (fields : List (Nat × Bytes)) : Bytes :=
  fields.foldl (fun bs f => bs.take f.1 ++ f.2 ++ bs.drop (f.1 + f.2.length)) fill

namespace State

/-- Run `f` on an admitted admin command of this opcode that has not yet acted. -/
def onAdmin (s : State) (c : CmdId) (opc : Nat) (f : Adm → State) : State :=
  match s.adm? c with
  | none => s
  | some a => if a.admin && a.ent.opc = opc && !a.started then f a else s

/-- The host address of a command's first pointer range. -/
def ptrBase (e : SqEntry) : Nat := match e.dptr.ranges with
  | (a, _) :: _ => a
  | [] => 0

/-! ### Queues (R201 to R209) -/

/-- A QID at or above both the allocation and the total in force, 0, or in use (R207). -/
def qidBad (s : State) (n qid : Nat) (alloc : Option Nat) (used : Bool) : Bool :=
  qid = 0 || used || (decide (alloc.getD 0 ≤ qid) && decide (s.qpTotal n ≤ qid))

/-- Does a queue of `bytes` bytes at a host address lie wholly in host memory, or wholly in the slice's
portion (R203, R215)? -/
def queuePlaceOk (s : State) (n a bytes : Nat) : Bool := s.cmbUseOk n (a, bytes)

/-- CREATE_IO_SUBMISSION_QUEUE (R187, R203 to R207, R215). -/
def createSq (s : State) (c : CmdId) : State :=
  s.onAdmin c 0x01 (fun a =>
    let n := c.slice
    let x := s.slice n
    let qid := natBits a.ent.cdw10.toNat 15 0
    let size := natBits a.ent.cdw10.toNat 31 16 + 1
    let cqid := natBits a.ent.cdw11.toNat 31 16
    let base := ptrBase a.ent
    if natBits x.ctrl.cc.toNat 19 16 = 0 then s.finish c .invalidQueueSize
    else if s.qidBad n qid x.feats.sqAlloc (tget x.sqs qid).isSome then s.finish c .invalidQueueId
    else if size = 1 then s.finish c .invalidQueueSize
    else if !natBit a.ent.cdw11.toNat 0 then s.finish c .invalidField
    else if cqid = 0 || (tget x.cqs cqid).isNone then s.finish c .cqInvalid
    else if !s.queuePlaceOk n base (size * 64) then s.finish c .invalidCmb
    else
      let q : Sq := { base := base, size := size, cqid := cqid, prio := natBits a.ent.cdw11.toNat 2 1,
                      inCmb := s.touchesBar4 x.port base (size * 64) }
      (s.modSlice n (fun x => { x with sqs := tset x.sqs qid q })).finish c .success)

/-- CREATE_IO_COMPLETION_QUEUE (R187, R202, R204, R205, R207). -/
def createCq (s : State) (c : CmdId) : State :=
  s.onAdmin c 0x05 (fun a =>
    let n := c.slice
    let x := s.slice n
    let qid := natBits a.ent.cdw10.toNat 15 0
    let size := natBits a.ent.cdw10.toNat 31 16 + 1
    let iv := natBits a.ent.cdw11.toNat 31 16
    let base := ptrBase a.ent
    if natBits x.ctrl.cc.toNat 23 20 = 0 then s.finish c .invalidQueueSize
    else if s.qidBad n qid x.feats.cqAlloc (tget x.cqs qid).isSome then s.finish c .invalidQueueId
    else if size = 1 then s.finish c .invalidQueueSize
    else if !natBit a.ent.cdw11.toNat 0 then s.finish c .invalidField
    else if 3 < iv then s.finish c .invalidVector
    else if s.touchesBar4 x.port base (size * 16) then s.finish c .invalidCmb
    else
      let q : Cq := { base := base, size := size, iv := iv, ien := natBit a.ent.cdw11.toNat 1 }
      (s.modSlice n (fun x => { x with cqs := tset x.cqs qid q })).finish c .success)

/-- A submission queue is not empty (R209): its last sampled tail differs from its head, or one of its
commands has no completion posted. -/
def sqBusy (x : Slice) (qid : Nat) (q : Sq) (c : CmdId) : Bool :=
  decide (q.tail ≠ q.head) || x.adms.any (fun a => a.id.sqid = qid && decide (a.id ≠ c)) ||
  x.ready.any (fun r => r.id.sqid = qid)

/-- DELETE_IO_SUBMISSION_QUEUE (R209). -/
def deleteSq (s : State) (c : CmdId) : State :=
  s.onAdmin c 0x00 (fun a =>
    let qid := natBits a.ent.cdw10.toNat 15 0
    match tget (s.slice c.slice).sqs qid with
    | none => s.finish c .invalidQueueId
    | some q =>
      if qid = 0 then s.finish c .invalidQueueId
      else if sqBusy (s.slice c.slice) qid q c then s.finish c (.vendor 0x01)
      else (s.modSlice c.slice (fun x => { x with sqs := tdel x.sqs qid })).finish c .success)

/-- DELETE_IO_COMPLETION_QUEUE (R198). -/
def deleteCq (s : State) (c : CmdId) : State :=
  s.onAdmin c 0x04 (fun a =>
    let qid := natBits a.ent.cdw10.toNat 15 0
    let x := s.slice c.slice
    if qid = 0 || (tget x.cqs qid).isNone then s.finish c .invalidQueueId
    else if x.sqs.any (fun q => q.2.cqid = qid) then s.finish c .invalidQueueDeletion
    else (s.modSlice c.slice (fun x => { x with cqs := tdel x.cqs qid })).finish c .success)

/-- QP_CREATED (R208): the admin pair and each QID with a queue. -/
def qpCreated (x : Slice) : Nat :=
  ((x.sqs.map Prod.fst ++ x.cqs.map Prod.fst).eraseDups).length

/-! ### Features (R199, R206, R223, R901) -/

/-- Does CDW11 set a reserved bit of a feature, as NVMe 2.0 places them (PRESUMED, R18)? -/
def featureBits (fid v : Nat) : Bool :=
  if fid = 0x01 then natBits v 7 3 ≠ 0
  else if fid = 0x02 then natBits v 31 8 ≠ 0
  else if fid = 0x04 then natBits v 31 22 ≠ 0
  else if fid = 0x08 then natBits v 31 16 ≠ 0
  else if fid = 0x09 then natBits v 31 17 ≠ 0
  else if fid = 0x0B then natBits v 26 16 ≠ 0 || natBits v 30 28 ≠ 0
  else false

/-- SET_FEATURES: a new set of features and DW0, or the status that refuses it. -/
def setFeature (s : State) (n fid : Nat) (v : Nat) : Except Status (Features × Nat) :=
  let f := (s.slice n).feats
  if featureBits fid v then .error .invalidField
  else if fid = 0x01 then
    .ok ({ f with ab := natBits v 2 0, lpw := natBits v 15 8, mpw := natBits v 23 16, hpw := natBits v 31 24 }, 0)
  else if fid = 0x02 then
    if natBits v 4 0 ≠ 0 then .error .invalidField else .ok ({ f with powerState := 0 }, 0)
  else if fid = 0x04 then
    if natBits v 19 16 ≠ 0 then .error .invalidField
    else if natBits v 21 20 = 0 then .ok ({ f with tempOver := natBits v 15 0 }, 0)
    else if natBits v 21 20 = 1 then .ok ({ f with tempUnder := natBits v 15 0 }, 0)
    else .error .invalidField
  else if fid = 0x07 then
    if f.sqAlloc.isSome then .error .sequenceError
    else if natBits v 15 0 = 0xFFFF || natBits v 31 16 = 0xFFFF then .error .invalidField
    else
      let a := min (natBits v 15 0 + 1) (s.qpTotal n - 1)
      let b := min (natBits v 31 16 + 1) (s.qpTotal n - 1)
      .ok ({ f with sqAlloc := some a, cqAlloc := some b }, (b - 1) * 65536 + (a - 1))
  else if fid = 0x08 then .ok ({ f with coalThr := natBits v 7 0, coalTime := natBits v 15 8 }, 0)
  else if fid = 0x09 then
    let iv := natBits v 15 0
    if 3 < iv then .error .invalidField
    else .ok ({ f with vecCd := if natBit v 16 then iv :: f.vecCd.filter (· ≠ iv)
                                else f.vecCd.filter (· ≠ iv) }, 0)
  else if fid = 0x0B then .ok ({ f with asyncCfg := BitVec.ofNat 32 v }, 0)
  else if fid = 0xC0 then .ok ({ f with ltol := BitVec.ofNat 32 v }, 0)
  else if fid = 0xC1 then
    if natBits v 31 1 ≠ 0 then .error .invalidField else .ok ({ f with stampRep := natBit v 0 }, 0)
  else .error .invalidField

/-- GET_FEATURES: DW0 of a feature, or the status that refuses it. -/
def getFeature (s : State) (n fid : Nat) (v : Nat) : Except Status Nat :=
  let f := (s.slice n).feats
  if fid = 0x01 then .ok (f.hpw * 2 ^ 24 + f.mpw * 2 ^ 16 + f.lpw * 256 + f.ab)
  else if fid = 0x02 then .ok f.powerState
  else if fid = 0x04 then
    if natBits v 19 16 ≠ 0 || 2 ≤ natBits v 21 20 then .error .invalidField
    else .ok (if natBits v 21 20 = 1 then f.tempUnder else f.tempOver)
  else if fid = 0x07 then .ok ((f.cqAlloc.getD 1 - 1) * 65536 + (f.sqAlloc.getD 1 - 1))
  else if fid = 0x08 then .ok (f.coalTime * 256 + f.coalThr)
  else if fid = 0x09 then
    if 3 < natBits v 15 0 then .error .invalidField
    else .ok (natBits v 15 0 + flagAt (f.vecCd.contains (natBits v 15 0)) 16)
  else if fid = 0x0B then .ok f.asyncCfg.toNat
  else if fid = 0xC0 then .ok f.ltol.toNat
  else if fid = 0xC1 then .ok (flagAt f.stampRep 0)
  else .error .invalidField

/-- SET_FEATURES (R199). A latency tolerance that changes is one of the wake sources (R918). -/
def setFeatures (s : State) (c : CmdId) : State :=
  s.onAdmin c 0x09 (fun a =>
    let fid := natBits a.ent.cdw10.toNat 7 0
    match s.setFeature c.slice fid a.ent.cdw11.toNat with
    | .error st => s.finish c st
    | .ok (f, w) =>
      if natBit a.ent.cdw10.toNat 31 then s.finish c .notSaveable
      else
        let s' := (s.modSlice c.slice (fun x => { x with feats := f })).finish c .success (BitVec.ofNat 32 w)
        if fid = 0xC0 && decide (f.ltol ≠ (s.slice c.slice).feats.ltol) then s'.wakeEvent 0xA 0 else s')

/-- GET_FEATURES (R199). -/
def getFeatures (s : State) (c : CmdId) : State :=
  s.onAdmin c 0x0A (fun a =>
    match s.getFeature c.slice (natBits a.ent.cdw10.toNat 7 0) a.ent.cdw11.toNat with
    | .error st => s.finish c st
    | .ok w => s.finish c .success (BitVec.ofNat 32 w))

/-! ### Identify and logs (R197, R428, R429) -/

/-- The opcodes that the device lists (R198). -/
def adminOpcodes : List Nat :=
  [0x00, 0x01, 0x02, 0x04, 0x05, 0x06, 0x08, 0x09, 0x0A, 0x0C, 0x0D, 0x15, 0x80, 0x84, 0xC1, 0xC2, 0xC5, 0xC9]
def ioOpcodes : List Nat :=
  [0x00, 0x01, 0x02, 0x05, 0x08, 0x09, 0x0C, 0x0D, 0x0E, 0x11, 0x15, 0x81, 0x86, 0x8A, 0x8D, 0x91, 0x93, 0x95]

/-- Identify Controller: the fields R197 and R429 give, over open ones. -/
def identCtrl (x : Slice) (n : Nat) : Bytes :=
  overlay (padTo 4096 (Config.identifyFill 1 n))
    [(0, item 2 0x1F3C), (2, item 2 0x1F3C), (77, item 1 12), (78, item 2 n), (80, item 4 0x20000),
     (256, item 2 0x000A), (258, item 1 3), (259, item 1 7), (263, item 1 0), (266, item 2 0x157),
     (268, item 2 0x166), (328, item 4 3), (512, item 1 0x66), (513, item 1 0x44), (516, item 4 x.nsMax),
     (520, item 2 0x00AD), (536, item 4 1)]

/-- The LBA format descriptors of R196. -/
def lbaFormats : Bytes :=
  (List.range 5).flatMap (fun f => item 2 (lbaMeta f) ++ item 1 (if lbaData f = 512 then 9 else 12) ++ item 1 0)

/-- Identify Namespace of an attached namespace. -/
def identNs (nsid : Nat) (ns : Ns) : Bytes :=
  overlay (padTo 4096 (Config.identifyFill 0 nsid))
    [(0, item 8 ns.nsze), (8, item 8 ns.nsze), (25, item 1 4),
     (26, item 1 (ns.lbaf + flagAt (decide (lbaMeta ns.lbaf ≠ 0)) 4)), (27, item 1 1), (28, item 1 5),
     (29, item 1 ns.dps), (128, lbaFormats)]

/-- What Identify Namespace says of every namespace, for NSID 0xFFFFFFFF as NVMe 2.0 has it (R198). -/
def identCommon : Bytes :=
  overlay (padTo 4096 (Config.identifyFill 0 0xFFFFFFFF)) [(25, item 1 4), (27, item 1 1), (28, item 1 5), (128, lbaFormats)]

/-- The active namespace identifiers above a number, ascending. -/
def activeNs (x : Slice) (above : Nat) : Bytes :=
  padTo 4096 ((x.nss.filter (fun p => p.2.attached && decide (above < p.1))).flatMap (fun p => item 4 p.1))

/-- IDENTIFY (R198): CNS 0 to 3. -/
def identify (s : State) (c : CmdId) : State :=
  s.onAdmin c 0x06 (fun a =>
    let x := s.slice c.slice
    let cns := natBits a.ent.cdw10.toNat 7 0
    let nsid := a.ent.nsid
    let out (bs : Bytes) : State := s.respond c { ranges := a.ent.dptr.ranges, data := bs }
    if cns = 1 then out (identCtrl x c.slice)
    else if cns = 2 then out (activeNs x nsid)
    else if cns = 0 then
      match tget x.nss nsid with
      | some ns => out (if ns.attached then identNs nsid ns else List.replicate 4096 0)
      | none =>
        if nsid = 0xFFFFFFFF then out identCommon
        else if decide (0 < nsid) && decide (nsid ≤ x.nsMax) then out (List.replicate 4096 0)
        else s.finish c .invalidNamespace
    else if cns = 3 then
      match tget x.nss nsid with
      | some _ => out (padTo 4096 (Config.identifyFill 3 nsid))
      | none => s.finish c .invalidNamespace
    else s.finish c .invalidField)

/-- Composite Temperature in kelvin (R428). -/
def compositeTemp (s : State) : Nat :=
  match s.diesInUse.map (fun d => (s.die d).health.tempNow) with
  | [] => 0
  | t :: ts => (ts.foldl max t + 273).toNat

/-- Critical Warning (R428). -/
def criticalWarning (s : State) (x : Slice) : Nat :=
  flagAt (decide (s.ftl.availSpare < 10)) 0 +
  flagAt (decide (x.feats.tempOver ≤ s.compositeTemp) || decide (s.compositeTemp < x.feats.tempUnder)) 1 +
  flagAt x.health 2 + flagAt s.ftl.readOnly 3 +
  flagAt (decide (s.wbfTotalMib ≠ 0) && !s.wbf.armed) 4

/-- Laps as minutes, of one lap each millisecond. -/
def lapMinutes (l : Nat) : Nat := l / 60000

/-- The SMART log of a slice (R428): every field not listed reads zero. -/
def smartLog (s : State) (n : Nat) : Bytes :=
  let x := s.slice n
  overlay (List.replicate 512 0)
    [(0, item 1 (s.criticalWarning x)), (1, item 2 s.compositeTemp), (3, item 1 s.ftl.availSpare),
     (4, item 1 10), (5, item 1 s.ftl.pctUsed),
     (32, item 16 (ceilDiv x.smart.unitsRead 1000)), (48, item 16 (ceilDiv x.smart.unitsWritten 1000)),
     (64, item 16 x.smart.reads), (80, item 16 x.smart.writes), (96, item 16 (lapMinutes x.smart.busyLaps)),
     (112, item 16 s.dur.coldStarts), (128, item 16 (s.dur.poweredLaps / 3600000)),
     (144, item 16 s.dur.unsafeOffs), (160, item 16 x.smart.mediaErrors),
     (192, item 4 (lapMinutes s.dur.warnLaps)), (196, item 4 (lapMinutes s.dur.critLaps))]

/-- The Commands Supported and Effects log: CSUPP is 1 for exactly the commands of R198, in the layout of NVMe 2.0; the
effects beside it, which the spec does not give, are those of `fill`. -/
def effectsLog (fill : Bytes) : Bytes :=
  let word (ops : List Nat) (lo i : Nat) : Bytes :=
    if ops.contains i then item 4 (leAt fill (lo + 4 * i) 4 / 2 * 2 + 1) else item 4 0
  (List.range 256).flatMap (word adminOpcodes 0) ++ (List.range 256).flatMap (word ioOpcodes 1024) ++
    List.replicate 2048 0

/-- GET_LOG_PAGE (R198, R428). -/
def getLog (s : State) (c : CmdId) : State :=
  s.onAdmin c 0x02 (fun a =>
    let lid := natBits a.ent.cdw10.toNat 7 0
    let len := 4 * (natBits a.ent.cdw11.toNat 15 0 * 65536 + natBits a.ent.cdw10.toNat 31 16 + 1)
    let off := a.ent.cdw13.toNat * 2 ^ 32 + a.ent.cdw12.toNat
    if lid = 2 then
      s.respond c { ranges := a.ent.dptr.ranges, data := bytesAt (s.smartLog c.slice) off len }
    else if lid = 1 || lid = 3 || lid = 5 then
      let bs := if lid = 5 then effectsLog (Config.logFill lid s.free) else Config.logFill lid s.free
      let s := { s with free := s.free + 1 }
      s.respond c { ranges := a.ent.dptr.ranges, data := bytesAt bs off len }
    else s.finish c .invalidField)

/-! ### Abort and asynchronous events (R212, R225, R230) -/

/-- ABORT: it is taken up, to act at the first tick after its own admission, or refused as a fifth. -/
def takeAbort (s : State) (c : CmdId) : State :=
  s.onAdmin c 0x08 (fun a =>
    if 4 ≤ ((s.slice c.slice).adms.filter (fun b => b.admin && b.ent.opc = 0x08 && b.stamp.before a.stamp)).length then
      s.finish c .abortLimit
    else
      let r : AbortReq := { id := c, sqid := natBits a.ent.cdw10.toNat 15 0,
                            cid := natBits a.ent.cdw10.toNat 31 16 }
      (s.modAdm c (fun a => { a with started := true })).modSlice c.slice (fun x =>
        { x with aborts := x.aborts ++ [r] }))

/-- ASYNCHRONOUS_EVENT_REQUEST: up to 8 wait for events (R195, R212). -/
def takeAer (s : State) (c : CmdId) : State :=
  s.onAdmin c 0x0C (fun a =>
    if 8 ≤ (s.slice c.slice).aers.length then s.finish c .asyncLimit
    else
      (s.modSlice c.slice (fun x =>
        { x with adms := x.adms.filter (fun b => decide (b.id ≠ c)), aers := x.aers ++ [(c, a.sqhd)] })).deliverAsync
        c.slice)

/-! ### Namespaces (R198, R322 to R326) and Format NVM (R268) -/

/-- The map changes that make every unit of a namespace UNMAPPED (R354 TRIM). -/
def trimEnts (s : State) (ns : Ns) : List JEnt :=
  ((List.range (nsUnits ns)).map (ns.firstUnit + ·)).filterMap (fun u =>
    if s.coarseOf u = unmapped then none
    else some { loc := u, slot := 0xFF, new := unmapped, old := s.coarseOf u })

/-- Map changes go into TRIM records. -/
def trimJournal (s : State) (ents : List JEnt) : State :=
  if ents = [] then s else s.journalAll 3 none 0 false [] (ents.length + 1) ents

/-- The units of a namespace that is gone already become UNMAPPED: at once in the map, and in TRIM records. -/
def trimNs (s : State) (ns : Ns) : State :=
  (s.trimEnts ns).foldl (fun t e => t.applyEnt 3 e) (s.trimJournal (s.trimEnts ns))

/-- Drop what the buffer holds of a namespace, stamped before `t`. -/
def dropNsEntries (s : State) (n nsid : Nat) (t : Stamp) : State :=
  s.modSlice n (fun x => { x with entries := x.entries.filter (fun e =>
    decide (e.nsid ≠ nsid) || !e.stamp.before t) })

/-- The namespace of an entry of a slice's buffer. -/
def entryNs (s : State) (n id : Nat) : Option Nat := ((s.slice n).entries.find? (fun e => e.id = id)).map Entry.nsid

/-- Has an I/O command still to read or write a namespace? A heat may name any (R570). -/
def ioOn (ids : List Nat) (a : Adm) : Bool :=
  !a.admin && ((ids.contains a.ent.nsid && !(a.stage && a.started)) || (a.ent.opc = 0x86 && !a.started))

/-- Every earlier-stamped I/O command that addresses the namespaces has reached its completion stage, and no flush of them
is under way, so that a format or delete acts at its own stamp (R266, R268, R271). -/
def ioSettled (s : State) (n : Nat) (ids : List Nat) (t : Stamp) : Bool :=
  let of' (id : Nat) : Bool := (s.entryNs n id).any (fun i => ids.contains i)
  (s.slice n).adms.all (fun a => !(ioOn ids a && a.stamp.before t)) &&
  (s.slice n).entries.all (fun e => !ids.contains e.nsid || e.visible.isSome || !e.stamp.before t) &&
  s.ftl.jobs.all (fun j => decide (j.slice ≠ n) || !of' j.entry) &&
  s.ftl.journal.all (fun r => r.covers.all (fun c => decide (c.1 ≠ n) || !of' c.2.1))

/-- A command that clears namespaces begins: their TRIM records go into the journal, and `f` acts once the last of them is
durable (R268, R352), at once where nothing is mapped. Until then the command is one that has not acted. -/
def trimBegin (s : State) (c : CmdId) (ids : List Nat) (f : State → State) : State :=
  let ents := ids.flatMap (fun i => match tget (s.slice c.slice).nss i with
    | some ns => s.trimEnts ns
    | none => [])
  if ents = [] then f s
  else
    let t := s.trimJournal ents
    t.modAdm c (fun a => { a with started := true, jwait := some (t.ftl.jnext - 1) })

/-- The lowest free run of logical units for a footprint, within the exported capacity (R325). -/
def placeNs (s : State) (units : Nat) : Option Nat :=
  let used := s.allNs.map (fun q => (q.2.2.firstUnit, nsUnits q.2.2))
  let cap := s.ftl.capacity / 65536
  if cap < lsum (used.map Prod.snd) + units then none else lowestFit used cap units

/-- Namespace Management create (R195, R196, R325, R326). -/
def createNs (s : State) (c : CmdId) (d : NsCreate) : State :=
  let x := s.slice c.slice
  let type := d.dps % 8
  if d.nsze = 0 then s.finish c .invalidField
  else if 4 < d.lbaf then s.finish c .invalidFormat
  else if type = 2 || 3 < type || 15 < d.dps || (decide (type ≠ 0) && decide (d.lbaf < 2)) then
    s.finish c .invalidField
  else
    let ns : Ns := { nsze := d.nsze, lbaf := d.lbaf, dps := d.dps, firstUnit := 0 }
    match (List.range x.nsMax).find? (fun i => (tget x.nss (i + 1)).isNone), s.placeNs (nsUnits ns) with
    | none, _ => s.finish c .nsIdUnavailable
    | some _, none => s.finish c .nsCapacity
    | some i, some u =>
      ((s.modSlice c.slice (fun x => { x with nss := tset x.nss (i + 1) { ns with firstUnit := u } })).finish
        c .success (BitVec.ofNat 32 (i + 1)))

/-- Delete one namespace, whose units are UNMAPPED: its run is free at once (R325). -/
def deleteNs (s : State) (n : Nat) (t : Stamp) (nsid : Nat) : State :=
  (s.dropNsEntries n nsid t).modSlice n (fun x => { x with nss := tdel x.nss nsid })

/-- The namespaces that an NSID names: one, or all. -/
def nsNamed (x : Slice) (nsid : Nat) : List Nat :=
  if nsid = 0xFFFFFFFF then x.nss.map Prod.fst
  else if (tget x.nss nsid).isSome then [nsid] else []

/-- The end of a delete: the units are trimmed. -/
def deleteEnd (s : State) (c : CmdId) (a : Adm) : State :=
  ((nsNamed (s.slice c.slice) a.ent.nsid).foldl (fun s i => s.deleteNs c.slice a.stamp i) s).finish c .success

/-- NAMESPACE_MANAGEMENT (R198, R325). -/
def manageNs (s : State) (c : CmdId) (d : NsCreate) : State :=
  s.onAdmin c 0x0D (fun a =>
    let sel := natBits a.ent.cdw10.toNat 3 0
    if sel = 0 then s.createNs c d
    else if sel = 1 then
      let ids := nsNamed (s.slice c.slice) a.ent.nsid
      if ids = [] then s.finish c .invalidNamespace
      else if s.ioSettled c.slice ids a.stamp then s.trimBegin c ids (fun s => s.deleteEnd c a)
      else s
    else s.finish c .invalidField)

/-- NAMESPACE_ATTACHMENT: only to the slice's own controller (R198). -/
def attachNs (s : State) (c : CmdId) (ctrls : List Nat) : State :=
  s.onAdmin c 0x15 (fun a =>
    let sel := natBits a.ent.cdw10.toNat 3 0
    match tget (s.slice c.slice).nss a.ent.nsid with
    | none => s.finish c .invalidNamespace
    | some ns =>
      let put (b : Bool) : State := (s.modSlice c.slice (fun x =>
        { x with nss := tset x.nss a.ent.nsid { ns with attached := b } })).finish c .success
      if 2 ≤ sel then s.finish c .invalidField
      else if ctrls ≠ [c.slice] then s.finish c .invalidController
      else if sel = 0 then (if ns.attached then s.finish c .nsAttached else put true)
      else if ns.attached then put false else s.finish c .nsNotAttached)

/-- Format one namespace, whose units are UNMAPPED: a write to every block, and the new format (R268). The namespace keeps
its run of units. -/
def formatNs (s : State) (n : Nat) (t : Stamp) (lbaf dps nsid : Nat) : State :=
  match tget (s.slice n).nss nsid with
  | none => s
  | some ns =>
    let ns' : Ns := { ns with lbaf := lbaf, dps := dps, nsze := ns.nsze * lbaData ns.lbaf / lbaData lbaf }
    (s.dropNsEntries n nsid t).modSlice n (fun x => { x with nss := tset x.nss nsid ns' })

/-- The end of a Format NVM: the units are trimmed. -/
def formatEnd (s : State) (c : CmdId) (a : Adm) : State :=
  let w := a.ent.cdw10.toNat
  ((nsNamed (s.slice c.slice) a.ent.nsid).foldl (fun s i =>
    s.formatNs c.slice a.stamp (natBits w 3 0) (natBits w 7 5 + flagAt (natBit w 8) 3) i) s).finish c .success

/-- FORMAT_NVM (R196, R198, R268). -/
def format (s : State) (c : CmdId) : State :=
  s.onAdmin c 0x80 (fun a =>
    let w := a.ent.cdw10.toNat
    let lbaf := natBits w 3 0
    let pi := natBits w 7 5
    let ids := nsNamed (s.slice c.slice) a.ent.nsid
    if 4 < lbaf then s.finish c .invalidFormat
    else if pi = 2 || 3 < pi || (decide (pi ≠ 0) && decide (lbaf < 2)) || 2 ≤ natBits w 11 9 then
      s.finish c .invalidField
    else if decide (lbaMeta lbaf ≠ 0) && !natBit w 4 then s.finish c .invalidFormat
    else if ids = [] then s.finish c .invalidNamespace
    else if s.ioSettled c.slice ids a.stamp then s.trimBegin c ids (fun s => s.formatEnd c a)
    else s)

/-- HOST_BUS_ERROR (R193): a queue fetch or completion write failed on the bus. -/
def hostBus (s : State) (n : Nat) : State :=
  if (s.slice n).ctrl.rdy then s.modSlice n (fun x => { x with ctrl := { x.ctrl with cfsDue := true } })
  else s

end State

end Sys2Proof.Machine
end

