-- ==== Sys2Proof/Machine/FtlCmd.lean ====
section
/-! DEFINITION. The commands of the flash translation layer and the flash channels: manager operations,
checkpoints, collection, refresh, demotion, failures, training, polled operations and health (R359 to
R386, R394 to R434). -/

namespace Sys2Proof.Machine

/-- Bits-corrected bin of R425: the upper ends of the first seven bins. -/
def correctedBin (level bits : Nat) : Nat :=
  if 8 ≤ level then 7 else if bits = 0 then 0 else if bits ≤ 16 then 1 else if bits ≤ 64 then 2
  else if bits ≤ 128 then 3 else if bits ≤ 192 then 4 else if bits ≤ 256 then 5 else 6

/-- Array senses of a read that stops at a ladder level (R413). -/
def senses (level : Nat) : Nat :=
  if level ≤ 7 then level + 1 else if level = 8 then 11 else if level = 9 then 18 else 25

def top64 : Nat := 2 ^ 64 - 1
def top32 : Nat := 2 ^ 32 - 1

namespace State

/-! ### Manager operations of FTL_CMD (R388) -/

/-- A write to FTL_CMD: refused while BUSY. -/
def ftlCommand (s : State) (req : Requester) (op : State → State) : State :=
  s.bar0Write req 0x300000 (fun s =>
    if s.ftl.busy then s.setFtl { s.ftl with cmdRefused := true } else op s)

/-- A checkpoint begins (R358, R359); one that is being written is begun again. -/
def ckptBegin (s : State) : State :=
  (s.setFtl { s.ftl with journal := s.ftl.journal.filter (fun r => decide (r.type ≠ 0x0A)) }).startCkpt

/-- CHECKPOINT: FTL_CMD 0x1. -/
def cmdCheckpoint (s : State) (req : Requester) : State :=
  s.ftlCommand req (fun s =>
    (s.setFtl { s.ftl with busy := true, ckptCmd := true }).ckptBegin)

/-- A 24-byte record of the loss list (R384). -/
def lostBytes (l : Lost) : Bytes :=
  item 2 l.slice ++ item 2 l.die ++ item 4 l.nsid ++ item 8 l.slba ++ item 4 l.blocks ++ item 4 0

/-- DUMP_LOSS: FTL_CMD 0x2 (R384, R385). `ok` is whether the host took the write. -/
def cmdDumpLoss (s : State) (req : Requester) (ok : Bool) : State :=
  s.ftlCommand req (fun s =>
    let k := s.ftl.loss.length
    if k = 0 then s.setFtl { s.ftl with result := 0 }
    else if s.rwNat 0x300018 < 24 * k then s.setFtl { s.ftl with result := 1 }
    else if ok then
      (s.setFtl { s.ftl with result := 0 }).emit (.hostWrite none (s.rwNat 0x300010) (s.ftl.loss.flatMap lostBytes))
    else (s.setFtl { s.ftl with result := 2 }).emit (.hostPartial none (s.rwNat 0x300010) (24 * k)))

/-- ADD_UNPOWERED: FTL_CMD 0x3 (R367, R388), of FTL_ARG days of 86,400,000 laps. -/
def cmdAddUnpowered (s : State) (req : Requester) : State :=
  s.ftlCommand req (fun s => s.setFtl { s.ftl with
    mediaAge := satAdd s.ftl.mediaAge (natBits (s.rwNat 0x300008) 11 0 * 86400000) top64, result := 0 })

/-- CLEAR_LOSS: FTL_CMD 0x4 (R386). -/
def cmdClearLoss (s : State) (req : Requester) : State :=
  s.ftlCommand req (fun s =>
    { s with ftl := { s.ftl with loss := [], lossOverflow := false, result := 0 },
             slices := tmap s.slices (fun _ x => { x with health := false }) })

/-! ### Checkpoints (R358, R359) -/

/-- The FTL is up and no power failure has been taken: media work may begin. -/
def mediaRuns (s : State) : Bool := s.ftl.recovered && !s.wbf.pfTaken && decide (s.pwr.state < 3)

/-- CHECKPOINT_START by a cause of its own (R359). -/
def checkpointStart (s : State) (cause : CkptCause) : State :=
  let due := match cause with
    | .interval => decide (s.ftl.ckptBegan + s.ckptLaps ≤ s.lap)
    | .bandHalfFull => decide (s.ftl.bandRecs ≠ [])
    | .p3Entry => decide (s.pwr.phase ≠ .steady) && decide (3 ≤ s.pwr.target)
    | .recoveryEnd => s.ftl.ckptA.isNone && s.ftl.ckptB.isNone
  if s.mediaRuns && due && s.ftl.ckptRunning.isNone then s.startCkpt else s

/-- CHECKPOINT_COMPLETE: every segment is written, and a CHECKPOINT record names the area; it completes
the checkpoint once it is durable (R354, R358). -/
def checkpointComplete (s : State) : State :=
  match s.ftl.ckptRunning with
  | none => s
  | some c =>
    let s := if s.ftl.journal.any (fun r => r.type = 0x0A) then s
             else s.journal 0x0A [{ loc := c.area, slot := 0xFF, new := 0, old := 0 }]
    match s.ftl.journal with
    | r :: _ => if r.type = 0x0A then s.recordDurable else s
    | [] => s

/-! ### Collection, refresh, demotion (R343, R361 to R369) -/

/-- A die is at or below URGENT (R369). -/
def dieUrgent (s : State) (d : Nat) : Bool := decide ((s.freeBlocks d).length ≤ s.gcUrgent)

/-- Does collection run on a die (R361)? -/
def gcRuns (s : State) (d : Nat) : Bool :=
  let free := (s.freeBlocks d).length
  decide (free ≤ s.gcStart) || ((s.die d).gcOn && decide (free < s.gcStop))

/-- A reclaim of either kind is under way on a die: they go one block at a time (R369). -/
def reclaiming (s : State) (d : Nat) : Bool :=
  s.ftl.reclaims.any (fun r => dieOfBlk r.blk = d && (r.why = .gc || r.why = .refresh))

/-- Is a closed block due for refresh by its age (R368)? -/
def refreshDue (s : State) (b : Nat) : Bool :=
  (s.blk b).state = .closed && decide ((s.blk b).closedAge + s.refreshDays * 86400000 ≤ s.ftl.mediaAge)

/-- The blocks that wait for a refresh: those at the head of the order, and the due ones (R368, R415). -/
def refreshWaiting (s : State) : List Nat :=
  (s.ftl.refreshHead.filter (fun b => (s.blk b).state = .closed) ++
    (s.ftl.blks.map Prod.fst).filter (fun b => s.refreshDue b)).filter (fun b => (s.reclaimOf b).isNone)

/-- Is it collection's turn on a die (R369)? On an urgent die always; otherwise it alternates with refresh, where a block
of the die waits for one. -/
def gcTurn (s : State) (d : Nat) : Bool :=
  s.dieUrgent d || (s.die d).lastRefresh || !s.refreshWaiting.any (fun b => dieOfBlk b = d)

/-- Is it refresh's turn on a die (R369)? -/
def refreshTurn (s : State) (d : Nat) : Bool :=
  !s.dieUrgent d && !s.reclaiming d && (!(s.die d).lastRefresh || !(s.gcRuns d && (s.bestVictim (s.victims d)).isSome))

/-- GC_VICTIM_START on a die (R361, R362, R369). -/
def gcVictimStart (s : State) (d : Nat) : State :=
  if s.mediaRuns && s.dieInUse d && s.gcRuns d then
    let s := s.modDie d (fun x => { x with gcOn := true })
    if s.reclaiming d || !s.gcTurn d then s
    else match s.bestVictim (s.victims d) with
      | none => s
      | some b => (s.modDie d (fun x => { x with lastRefresh := false })).reclaimBegin b .gc
  else if (s.freeBlocks d).length < s.gcStop then s else s.modDie d (fun x => { x with gcOn := false })

/-- GC_ERASE: the erase of a reclaimed block becomes ready once its FINAL record is durable, the map names
none of its slots and no read of it still runs; a victim the map still names stays closed (R363 step
4, R364). -/
def gcErase (s : State) (b : Nat) : State :=
  match s.reclaimOf b with
  | none => s
  | some r =>
    match r.why, r.finalSeq with
    | .evac _, _ => s
    | _, none => s
    | _, some f =>
      if !s.mediaRuns || decide (s.ftl.jseq < f) || (s.blk b).erasing || s.demotesOf b then s
      else if s.mapNames b then s.dropReclaim b
      else if s.readsOf b then s
      else (s.modBlk b (fun x => { x with erasing := true })).addPoll (.erase b) 0

/-- The oldest of a list of closed blocks. -/
def oldestClosed (s : State) : List Nat → Option Nat
  | [] => none
  | b :: t =>
    match oldestClosed s t with
    | none => some b
    | some c => if (s.blk b).closedAge ≤ (s.blk c).closedAge then some b else some c

/-- The next refresh source among the dies whose turn it is: the head of the refresh order, then the oldest due block
(R368, R369, R415). -/
def nextRefresh (s : State) : Option Nat :=
  let may := s.refreshWaiting.filter (fun b => s.refreshTurn (dieOfBlk b))
  match may.filter (fun b => s.ftl.refreshHead.contains b) with
  | b :: _ => some b
  | [] => s.oldestClosed may

/-- REFRESH_START of a block (R368). -/
def refreshStart (s : State) (b : Nat) : State :=
  if s.mediaRuns && s.nextRefresh = some b then
    ((s.setFtl { s.ftl with refreshHead := s.ftl.refreshHead.filter (· ≠ b) }).modDie (dieOfBlk b) (fun x =>
      { x with lastRefresh := true })).reclaimBegin b .refresh
  else s

/-- The fine unit to demote next in the background: the oldest last partial flush among the idle (R343). -/
def oldestIdle (s : State) : Tab Fine → Option Fine
  | [] => none
  | (_, f) :: t =>
    let rest := oldestIdle s t
    if s.idleFine f.unit then
      match rest with
      | some g => if g.lastPartial < f.lastPartial then rest else some f
      | none => some f
    else rest

/-- DEMOTE_BACKGROUND (R343): more than 7/8 of the groups are in use. -/
def demoteBackground (s : State) : State :=
  if s.mediaRuns && decide (7 * s.ftl.fineTotal < 8 * s.ftl.fine.length) then
    match s.oldestIdle s.ftl.fine with
    | none => s
    | some f =>
      match s.diesInUse.find? (fun d => decide ((s.freeBlocks d) ≠ []) || (s.openBlock d .gcOpen).isSome) with
      | some d => s.demoteBegin d f.unit
      | none => s
  else s

/-! ### The channels at a tick (R29, R36, R38, R75, R272, R369, R1055) -/

/-- On an urgent die collection and evacuation have the FTL's slots to themselves (R369). -/
def yields (s : State) (k : PollKind) : Bool :=
  let own : Bool := match k with
    | .copyRead b _ | .copyProgram b _ | .copyVerify b _ => decide ((s.reclaimOf b).map Reclaim.why = some .refresh)
    | .demoteRead .. | .demoteProgram .. | .demoteVerify .. => true
    | _ => false
  own && s.dieUrgent (dieOf k.addr)

/-- May an operation make a unit on a channel in this stride? -/
def pollMay (s : State) (ch : Nat) (p : PollOp) : Bool :=
  dieOf p.kind.addr / 16 = ch && decide (p.ready < s.stride) &&
  match p.kind.owner with
  | some n =>
    s.slotHolder (0x100 + ch) s.stride = some n || (!p.kind.isRead && s.wbf.drainPeriod && s.ftlSlot ch)
  | none => s.ftlSlot ch && !s.yields p.kind

/-- The issue of a read's first command is its completion stage (R224). -/
def stageRead (s : State) (k : PollKind) : State :=
  match k with
  | .hostRead c _ => s.modAdm c (fun a =>
      if a.ent.opc = 0x02 || a.ent.opc = 0x05 || a.ent.opc = 0x0C then { a with stage := true } else a)
  | _ => s

/-- The units of one channel in a stride: at most one data burst and one command to one die (R29), of the operations that
have waited longest. -/
def channelUnits (s : State) (ch : Nat) : State :=
  let burst := s.ftl.polls.find? (fun p => p.bursting && s.pollMay ch p)
  let cmd := s.ftl.polls.find? (fun p => p.commanding && s.pollMay ch p)
  let step (p : PollOp) : PollOp :=
    if some p = burst then { p with bursts := p.bursts - 1, last := some s.stride }
    else if some p = cmd then { p with cmds := p.cmds - 1, last := some s.stride }
    else p
  let t := s.setFtl { s.ftl with polls := s.ftl.polls.map step }
  match cmd with
  | some p => t.stageRead p.kind
  | none => t

/-- Reads that no command waits for any more make no further units. -/
def dropDead (s : State) : State :=
  s.setFtl { s.ftl with polls := s.ftl.polls.filter (fun p => match p.kind with
    | .hostRead c _ => (s.adm? c).isSome || (p.cmds = 0 && p.bursts = 0)
    | _ => true) }

/-- The flash units of the stride that a tick begins; none begins once a power failure has been taken (R366). -/
def issueTick (s : State) : State :=
  if s.wbf.pfTaken then s
  else (List.range s.channelsPresent).foldl channelUnits s.dropDead

/-! ### Failures (R365, R374, R375, R379, R380) -/

/-- A die to program instead of a failed block's: the die itself, or the next die of its channel with a
free block (R365). -/
def otherDie (s : State) (d : Nat) : Nat :=
  if s.dieInUse d && decide (s.freeBlocks d ≠ []) then d
  else
    let ch := d / 16
    match (rotation (d % 16 + 1)).find? (fun e => s.dieInUse (ch * 16 + e) && decide (s.freeBlocks (ch * 16 + e) ≠ [])) with
    | some e => ch * 16 + e
    | none => d

/-- Replace an address in the map changes of a flush. -/
def reEnt (es : List JEnt) (a a' : Nat) : List JEnt := es.map (fun e => if e.new = a then { e with new := a' } else e)

/-- An operation begins anew as another one, of `slots` slots. -/
def renewPoll (s : State) (p : PollOp) (k : PollKind) (slots : Nat) : State :=
  s.setFtl { s.ftl with polls := s.ftl.polls.map (fun q => if q.id = p.id then { s.pollOf k slots with id := p.id } else q) }

/-- The slots that a flush program writes: a whole coarse unit, or one. -/
def programSlots (s : State) (sl eid a : Nat) : Nat :=
  if s.ftl.jobs.any (fun j => j.slice = sl && j.entry = eid && j.ents.any (fun e => e.new = a && e.slot = 0xFF))
  then 16 else 1

/-- The contents of the slots from an address on. -/
def slotsFrom (s : State) (a k : Nat) : List FlashSlot := (List.range k).filterMap (fun i => s.slotAt (a + i))

/-- Write the data of one flush program again, elsewhere (R375). -/
def retryProgram (s : State) (p : PollOp) (sl eid a : Nat) : State :=
  let k := s.programSlots sl eid a
  match s.takeSlots (s.otherDie (dieOf a)) .hostOpen k with
  | none => s
  | some (a', s') =>
    let s' := s'.putSlots a' (s.slotsFrom a k)
    (s'.setFtl { s'.ftl with
      jobs := s'.ftl.jobs.map (fun j =>
        if j.slice = sl && j.entry = eid then { j with ents := reEnt j.ents a a' } else j) }).renewPoll p
      (.program sl eid a') k

/-- Copy again what went to a block that failed, or did not verify there (R365): the copy is retargeted. -/
def retargetCopy (s : State) (p : PollOp) (b dst : Nat) : State :=
  match s.reclaimOf b with
  | none => s
  | some r =>
    let d := s.otherDie (dieOfBlk dst)
    let q := r.ents.foldl (fun (acc : State × List JEnt) e =>
      if blkOf e.new = dst && decide (e.new ≠ lostEntry) then
        let k := if e.slot = 0xFF then 16 else 1
        match acc.1.takeSlots d .gcOpen k with
        | none => (acc.1, acc.2 ++ [e])
        | some (a, s') => (s'.putSlots a (s.slotsFrom e.new k), acc.2 ++ [{ e with new := a }])
      else (acc.1, acc.2 ++ [e])) (s, [])
    let s := q.1.modReclaim b (fun x => { x with ents := q.2 })
    let dst' := match (q.2.map (fun e => blkOf e.new)).find? (fun x => decide (x ≠ dst) && dieOfBlk x = d) with
      | some x => x
      | none => dst
    (s.renewPoll p (.copyProgram b dst') (slotsIn q.2 dst')).ev 0x4503 noSlice

/-- The copy of a demotion goes elsewhere (R344, R365). -/
def retargetDemote (s : State) (p : PollOp) (u a : Nat) : State :=
  match s.takeSlots (s.otherDie (dieOf a)) .gcOpen 16 with
  | none => s
  | some (a', t) =>
    (((t.putSlots a' (s.slotsFrom a 16)).modDemote u (fun m => { m with dst := some a', die := dieOf a' })).renewPoll p
      (.demoteProgram u a') 16).ev 0x4503 noSlice

/-- An operation that writes to a block, or verifies what was written there, is begun again elsewhere. -/
def retryPoll (s : State) (b : Nat) (p : PollOp) : State :=
  match p.kind with
  | .program sl eid a => if blkOf a = b then s.retryProgram p sl eid a else s
  | .copyProgram src dst | .copyVerify src dst => if dst = b then s.retargetCopy p src dst else s
  | .demoteProgram u a | .demoteVerify u a => if blkOf a = b then s.retargetDemote p u a else s
  | _ => s

/-- Every program that is out on a block is issued again elsewhere. -/
def retryBlock (s : State) (b : Nat) : State := s.ftl.polls.foldl (fun s p => s.retryPoll b p) s

/-- A block that is being evacuated is retired once nothing of it is named any more (R365, R374). What a promotion has
pointed into it since is copied away as well. -/
def evacEnd (s : State) (r : Reclaim) : State :=
  match r.why, r.finalSeq with
  | .evac code, some f =>
    if s.ftl.jseq < f || s.demotesOf r.blk then s
    else if s.mapNames r.blk then (s.dropReclaim r.blk).reclaimBegin r.blk r.why
    else (s.dropReclaim r.blk).retire r.blk code
  | _, _ => s

/-- The evacuations that have ended. -/
def evacTick (s : State) : State := s.ftl.reclaims.foldl evacEnd s

/-- Close a failing block, issue its programs again elsewhere, and copy its durable slots away before it is retired (R365,
R374, R375). A block that is being collected or refreshed is retired instead of erased. -/
def failBlock (s : State) (b code : Nat) : State :=
  let s := (s.closeBlk b).retryBlock b
  match s.reclaimOf b with
  | some _ => s.modReclaim b (fun r => { r with why := .evac code })
  | none => if s.mapNames b then s.reclaimBegin b (.evac code) else s.retire b code

def dropPoll (s : State) (id : Nat) : State :=
  s.setFtl { s.ftl with polls := s.ftl.polls.filter (fun p => decide (p.id ≠ id)) }

/-- One read of a merge has ended; a slot that failed every level is lost with its extent (DESIGN CHOICE, 103: as R417 for
copies). -/
def mergeReadDone (s : State) (sl eid u i : Nat) (bad : Bool) : State :=
  match s.jobOf sl eid with
  | none => s
  | some j => s.putJob j { j with parts := j.parts.map (fun p =>
      if p.unit = u then { p with reads := p.reads - 1, bad := if bad then i :: p.bad else p.bad,
                                  unread := if bad then i :: p.unread else p.unread } else p) }

/-- What is out on a die that has been lost (R380 steps 2, 4): reads fail, programs are issued again
elsewhere, copies from the die are abandoned. -/
def settleLost (s : State) : State :=
  (s.ftl.polls).foldl (fun s p =>
    if !(s.die (dieOf p.kind.addr)).lost then s
    else match p.kind with
      | .hostRead c _ => (s.dropPoll p.id).hostReadDone c true
      | .mergeRead sl eid u i _ => (s.dropPoll p.id).mergeReadDone sl eid u i true
      | .program sl eid a => s.retryProgram p sl eid a
      | .copyProgram b dst | .copyVerify b dst => s.retargetCopy p b dst
      | _ => s.dropPoll p.id) s

/-- DIE_LOST (R379, R380). -/
def dieLostEvent (s : State) (d : Nat) : State :=
  if (s.die d).present then (s.loseDie d).settleLost else s

/-- A program, or the verification of a copied page, has failed in a block (R365, R374). -/
def blockFails (s : State) (b : Nat) : State :=
  (((s.modDie (dieOfBlk b) (fun x =>
    { x with health := { x.health with programFail := satAdd x.health.programFail 1 top32 } })).failBlock b 0x4500)).settleLost

/-- PROGRAM_FAIL of a polled program (R365, R374, R375). -/
def programFail (s : State) (id : Nat) : State :=
  match s.poll? id with
  | none => s
  | some p =>
    match p.kind with
    | .program _ _ a => s.blockFails (blkOf a)
    | .copyProgram _ dst => s.blockFails dst
    | .demoteProgram _ a => s.blockFails (blkOf a)
    | _ => s

/-- ERASE_FAIL of a polled erase (R374). -/
def eraseFail (s : State) (id : Nat) : State :=
  match s.poll? id with
  | none => s
  | some p =>
    match p.kind with
    | .erase b =>
      let s := (s.dropPoll id).modDie (dieOfBlk b) (fun x =>
        { x with health := { x.health with eraseFail := satAdd x.health.eraseFail 1 top32 } })
      let s := s.dropReclaim b
      ((s.modBlk b (fun x => { x with erasing := false, slots := [] })).retire b 0x4501).settleLost
    | _ => s

/-! ### Polled operations (R32, R402 to R417) -/

/-- The counts of one slot read that decoded (R425, R433). -/
def countRead (s : State) (d level bits : Nat) : State :=
  let s := s.modDie d (fun x => { x with health := { x.health with
    pagesRead := satAdd x.health.pagesRead (senses level) top64,
    corrected := laddSat x.health.corrected (correctedBin level bits) 1 top64,
    retry := laddSat x.health.retry level 1 top64 } })
  s.modChan (d / 16) (fun c => { c with decoded := satAdd c.decoded 1 top64,
                                        retried := if level = 0 then c.retried else satAdd c.retried 1 top64 })

/-- The counts of one slot read that failed level 10. -/
def countUncorr (s : State) (d : Nat) : State :=
  let s := s.modDie d (fun x => { x with health := { x.health with
    pagesRead := satAdd x.health.pagesRead (senses 10) top64,
    uncorrectable := satAdd x.health.uncorrectable 1 top64 } })
  s.modChan (d / 16) (fun c => { c with uncorr := satAdd c.uncorr 1 top64 })

/-- A weak read puts its block at the head of the refresh order, once (R415). -/
def weakRead (s : State) (b level bits : Nat) : State :=
  if (4 ≤ level || 257 ≤ bits) && !s.ftl.refreshHead.contains b then
    (s.setFtl { s.ftl with refreshHead := b :: s.ftl.refreshHead }).ev 0x4601 noSlice
  else s

/-- A slot that a copy could not read is lost with its extent, which joins the loss list, and its slice has a health
warning (R417). -/
def copyLost (s : State) (a : Nat) : State :=
  match s.slotAt a with
  | some f => (s.loseSlot (dieOf a) f.unit f.slot).ev 0x4602 noSlice
  | none => s

/-- One source read of a reclaim has ended; the last one starts the copy. A block with a slot that failed level 10 is
retired once it has been copied (R374, R417). -/
def copyReadDone (s : State) (b a : Nat) (bad : Bool) : State :=
  match s.reclaimOf b with
  | none => s
  | some r =>
    let why := match bad, r.why with
      | true, .gc | true, .refresh => .evac 0x4502
      | _, w => w
    let r' := { r with reads := r.reads - 1, bad := if bad then idxOf a :: r.bad else r.bad, why := why }
    let s := s.modReclaim b (fun _ => r')
    let s := if bad then s.copyLost a else s
    if r'.reads = 0 then s.reclaimCopy r' else s

/-- One source read of a demotion has ended; the last one starts the copy. With a slot that cannot be read the unit is not
demoted (R344): the slot becomes LOST and its block fails (R374, R417). -/
def demoteReadDone (s : State) (u a : Nat) (bad : Bool) : State :=
  match s.ftl.demotes.find? (fun m => m.unit = u) with
  | none => s
  | some m =>
    if bad then
      let i := (s.slotAt a).elim 0 FlashSlot.slot
      let s := ((s.dropDemote u).copyLost a).journal 8 [{ loc := u, slot := i, new := lostEntry, old := a }] none (blkOf a)
      (s.failBlock (blkOf a) 0x4502).settleLost
    else
      let m' := { m with reads := m.reads - 1 }
      let s := s.modDemote u (fun _ => m')
      if m'.reads = 0 then s.demoteWrite m' else s

/-- The copies in one block are verified (R363 step 2). -/
def copyVerified (s : State) (b dst : Nat) : State :=
  match s.reclaimOf b with
  | none => s
  | some r =>
    let r' := { r with progs := r.progs - 1, verified := dst :: r.verified }
    let s := s.modReclaim b (fun _ => r')
    if r'.progs = 0 then s.reclaimJournal r' else s

/-- An erase has ended: the block is free again (R363, R391). -/
def eraseDone (s : State) (b : Nat) : State :=
  let t := (s.modBlk b (fun x => { state := .free, pe := x.pe + 1 })).dropReclaim b
  match (s.reclaimOf b).map Reclaim.why with
  | some .refresh => ({ t with ftl := { t.ftl with cntRefresh := satAdd t.ftl.cntRefresh 1 top32 } }).ev 0x0504 noSlice
  | some .gc => ({ t with ftl := { t.ftl with cntGc := satAdd t.ftl.cntGc 1 top32 } }).ev 0x0503 noSlice
  | _ => t

def countPages (s : State) (d k : Nat) : State :=
  s.modDie d (fun x => { x with health := { x.health with
    pagesProgrammed := satAdd x.health.pagesProgrammed k top64 } })

/-- What the end of a slot read means for what asked for it. -/
def readDone (s : State) (k : PollKind) (bad : Bool) : State :=
  match k with
  | .hostRead c _ => s.hostReadDone c bad
  | .copyRead b a => s.copyReadDone b a bad
  | .mergeRead sl eid u i a => (if bad then s.copyLost a else s).mergeReadDone sl eid u i bad
  | .demoteRead u a => s.demoteReadDone u a bad
  | _ => s

/-- A copy's source read was misdirected: the slot is not copied and stays where it is, and no block fails (R405). -/
def copySkip (s : State) (b a : Nat) : State :=
  match s.reclaimOf b with
  | none => s
  | some r =>
    let r' := { r with reads := r.reads - 1, skip := idxOf a :: r.skip }
    let s := s.modReclaim b (fun _ => r')
    if r'.reads = 0 then s.reclaimCopy r' else s

/-- A merge's read was misdirected: the slot gives nothing to merge, and what is not written of it keeps its entry (R405). -/
def mergeSkip (s : State) (sl eid u i : Nat) : State :=
  match s.jobOf sl eid with
  | none => s
  | some j => s.putJob j { j with parts := j.parts.map (fun p =>
      if p.unit = u then { p with reads := p.reads - 1, unread := i :: p.unread } else p) }

/-- What a misdirected read means for what asked for it (R405): no block is retired and no map entry changes. -/
def readMisled (s : State) (k : PollKind) : State :=
  match k with
  | .copyRead b a => s.copySkip b a
  | .mergeRead sl eid u i _ => s.mergeSkip sl eid u i
  | .demoteRead u _ => s.dropDemote u
  | k => s.readDone k true

/-- A slot read has decoded (R402, R405, R415, R433). -/
def readPolled (s : State) (k : PollKind) (level bits : Nat) (tagOk : Bool) : State :=
  let s := s.countRead (dieOf k.addr) (min level 10) bits
  if tagOk then (s.weakRead (blkOf k.addr) level bits).readDone k false
  else (s.readMisled k).ev 0x1600 noSlice (item 5 k.addr)

/-- A slot read has failed every level (R374, R416, R417): a host's makes event 0x4603, and the block fails. -/
def readFailed (s : State) (k : PollKind) : State :=
  let s := (s.countUncorr (dieOf k.addr)).readDone k true
  match k with
  | .hostRead _ a => ((s.ev 0x4603 noSlice (item 5 a)).failBlock (blkOf a) 0x4502).settleLost
  | .mergeRead _ _ _ _ a => (s.failBlock (blkOf a) 0x4502).settleLost
  | _ => s

/-- The verification of copies in a block has ended: they are what was read, or the block fails (R363 step 2, R365). The
poll of a failed one stays until the copy has gone elsewhere. -/
def verifyDone (s : State) (p : PollOp) (good : Bool) : State :=
  if !good then s.blockFails (blkOf p.kind.addr)
  else
    let t := s.setFtl { s.ftl with polls := s.ftl.polls.filter (fun q => decide (q.id ≠ p.id)) }
    match p.kind with
    | .copyVerify b dst => t.copyVerified b dst
    | .demoteVerify u a =>
      match s.ftl.demotes.find? (fun m => m.unit = u) with
      | some m => t.demoteEnd m a
      | none => t
    | _ => s

/-- A polled program has ended well: a flush's counts towards its record, and a copy's is verified next (R363 step 2). -/
def programPolled (s : State) (k : PollKind) : State :=
  match k with
  | .program sl eid a => (s.countPages (dieOf a) (ceilDiv (s.programSlots sl eid a) 4)).programDone sl eid
  | .copyProgram b dst =>
    let n := ((s.reclaimOf b).map (fun r => slotsIn r.ents dst)).getD 0
    (s.countPages (dieOfBlk dst) (ceilDiv n 4)).addPoll (.copyVerify b dst) n
  | .demoteProgram u a => (s.countPages (dieOf a) 4).addPoll (.demoteVerify u a) 16
  | _ => s

/-- POLL_COMPLETE: a polled operation has been found ended (R32). One whose units on the channel have not all been made in
earlier strides cannot be, and a result of another kind of operation than the one polled leaves everything as it is. -/
def pollComplete (s : State) (id : Nat) (r : PollResult) : State :=
  match s.poll? id with
  | none => s
  | some p =>
    match p.kind, r with
    | .copyVerify .., .readOk _ _ tagOk => s.verifyDone p tagOk
    | .demoteVerify .., .readOk _ _ tagOk => s.verifyDone p tagOk
    | .copyVerify .., .readFail => s.verifyDone p false
    | .demoteVerify .., .readFail => s.verifyDone p false
    | .hostRead .., .readOk l b t => (s.dropPoll id).readPolled p.kind l b t
    | .copyRead .., .readOk l b t => (s.dropPoll id).readPolled p.kind l b t
    | .mergeRead .., .readOk l b t => (s.dropPoll id).readPolled p.kind l b t
    | .demoteRead .., .readOk l b t => (s.dropPoll id).readPolled p.kind l b t
    | .hostRead .., .readFail => (s.dropPoll id).readFailed p.kind
    | .copyRead .., .readFail => (s.dropPoll id).readFailed p.kind
    | .mergeRead .., .readFail => (s.dropPoll id).readFailed p.kind
    | .demoteRead .., .readFail => (s.dropPoll id).readFailed p.kind
    | .program .., .programOk => (s.dropPoll id).programPolled p.kind
    | .copyProgram .., .programOk => (s.dropPoll id).programPolled p.kind
    | .demoteProgram .., .programOk => (s.dropPoll id).programPolled p.kind
    | .erase b, .eraseOk => (s.dropPoll id).eraseDone b
    | _, _ => s

/-! ### Training and health (R394 to R398, R419 to R434) -/

/-- The trained rate in units of 100 MT/s: the first of the rates at which every present die passes. -/
def trainedRate : List Bool → Option Nat
  | [] => none
  | pass =>
    if pass.getD 0 false then some 36 else if pass.getD 1 false then some 32
    else if pass.getD 2 false then some 24 else if pass.getD 3 false then some 16 else none

/-- Geometry that the FTL can use (R328, R396). -/
def geometryOk (r : DieReport) : Bool :=
  r.pageBytes = 16384 && decide (2048 ≤ r.spareBytes) && decide (1 ≤ r.planes) && decide (r.planes ≤ 4) &&
  decide (1 ≤ r.blocksPerPlane) && decide (r.blocksPerPlane ≤ 32767) &&
  decide (1 ≤ r.pagesPerBlock) && decide (r.pagesPerBlock ≤ 4096) && r.pagesPerBlock % 4 = 0

/-- Identification of one die (R328, R394 to R396). -/
def identifyDie (s : State) (ch : Nat) (r : DieReport) : State :=
  let d := ch * 16 + r.die
  let ok := r.qualified && geometryOk r
  let s := s.modDie d (fun x =>
    { x with present := true, qualified := ok, planes := r.planes, blocksPerPlane := r.blocksPerPlane,
             pagesPerBlock := r.pagesPerBlock, bitsPerCell := r.bitsPerCell, peRated := r.peRated,
             goodBlocks := r.goodBlocks, held := r.held })
  let s := if !geometryOk r then s.ev 0x4508 noSlice (item 2 d) else s
  if !r.qualified then s.ev 0x4600 noSlice else s

/-- CHANNEL_TRAINING (R397, R398). -/
def trainChannel (s : State) (ch : Nat) (dies : List DieReport) (pass : List Bool) : State :=
  let s := (dies.filter (fun r => decide (r.die < 16))).foldl (fun s r => s.identifyDie ch r) s
  match trainedRate pass with
  | some k =>
    (s.modChan ch (fun c => { c with rate := k, trained := true, trainFail := false })).ev 0x0600 noSlice
      (item 1 ch ++ item 1 k)
  | none =>
    (s.modChan ch (fun c => { c with rate := 0, trained := false, trainFail := true })).ev 0x1601 noSlice

/-- The temperature bin of a reading (R422). -/
def tempBin (t : Int) : Nat :=
  if t < 10 then 0 else if 115 ≤ t then 22 else ((t - 5) / 5).toNat

/-- DIE_TEMP_READ (R421 to R423). -/
def dieTemp (s : State) (d : Nat) (t : Int) : State :=
  if !s.dieInUse d then s
  else
    let s := s.modDie d (fun x =>
      let h := { x.health with tempNow := t, hist := laddSat x.health.hist (tempBin t) 1 top32 }
      let h := if h.tempPeak < t || !h.tempRead then { h with tempPeak := t, peakAge := s.ftl.mediaAge } else h
      { x with health := { h with tempRead := true } })
    if 85 ≤ t && decide ((s.die d).hotLap ≠ some s.lap) then
      (s.modDie d (fun x => { x with hotLap := some s.lap })).ev 0x4604 noSlice
    else s

/-- Program/erase counts of a die's good blocks: lowest, sum and highest. -/
def peStats (s : State) (d : Nat) : Nat × Nat × Nat :=
  let pes := (s.ftl.blks.filter (fun p => dieOfBlk p.1 = d && decide (p.2.state ≠ .retired))).map (fun p => p.2.pe)
  let lo := if pes.length < s.goodBlocks d then 0 else match pes with
    | [] => 0
    | h :: t => t.foldl min h
  (lo, lsum pes, pes.foldl max 0)

def peAvg (s : State) (d : Nat) : Nat := (s.peStats d).2.1 / max 1 (s.goodBlocks d)

/-- The STATE byte of a health record (R425). -/
def dieState (s : State) (d : Nat) : Nat :=
  let x := s.die d
  if !x.present then 0 else if x.lost then 2 else if !x.qualified then 3
  else if !(s.chan (d / 16)).trained then 4 else 1

/-- A two's complement field of `w` bytes. -/
def itemInt (w : Nat) (v : Int) : Bytes := item w ((v % (2 ^ (8 * w) : Nat)).toNat)

/-- A die health record (R425). -/
def healthBytes (s : State) (d : Nat) : Bytes :=
  let x := s.die d
  let h := x.health
  let st := s.dieState d
  if st = 0 then padTo 384 (item 2 d)
  else
    let pe := s.peStats d
    padTo 384 (item 2 d ++ item 1 st ++ item 1 0 ++ itemInt 4 (s.spareOf d) ++ item 4 (s.goodBlocks d) ++
      item 4 h.retiredCount ++ item 4 pe.1 ++ item 4 (s.peAvg d) ++ item 4 pe.2.2 ++ item 4 x.peRated ++
      item 8 h.pagesRead ++ item 8 h.pagesProgrammed ++ h.corrected.flatMap (item 8) ++
      h.retry.flatMap (item 8) ++ item 8 h.uncorrectable ++ item 4 h.programFail ++ item 4 h.eraseFail ++
      itemInt 2 h.tempNow ++ itemInt 2 h.tempPeak ++ item 4 0 ++ item 8 h.peakAge ++ h.hist.flatMap (item 4))

/-- DUMP: FCH_HLOG_CMD of a channel (R424, R433). The dump itself is made at the next tick. -/
def cmdDump (s : State) (req : Requester) (ch : Nat) (ok : Bool) : State :=
  let off := 0x400018 + ch * 0x1000
  s.bar0Write req off (fun s =>
    if s.channelsPresent ≤ ch then s.discardDev .bar0 off
    else if (s.chan ch).dumpBusy then s.modChan ch (fun c => { c with dumpRefused := true })
    else s.modChan ch (fun c => { c with dumpBusy := true, dumpOk := ok }))

/-- The dumps of a tick (R424). -/
def dumpTick (s : State) : State :=
  s.ftl.chans.foldl (fun s p =>
    if p.2.dumpBusy then
      let s := s.modChan p.1 (fun c => { c with dumpBusy := false, dumpResult := if c.dumpOk then 0 else 1 })
      if p.2.dumpOk then
        s.emit (.hostWrite none (s.rwNat (0x400010 + p.1 * 0x1000))
          ((List.range 16).flatMap (fun d => s.healthBytes (p.1 * 16 + d))))
      else s.emit (.hostPartial none (s.rwNat (0x400010 + p.1 * 0x1000)) 6144)
    else s) s

/-- The life figures of a lap boundary (R426, R430). -/
def lifeLap (s : State) : State :=
  let ds := s.diesInUse
  let rated := lsum (ds.map (fun d => (s.die d).peRated))
  let wear := if rated = 0 then 0 else min 255 (100 * lsum (ds.map (fun d => s.peAvg d)) / rated)
  let s0 := s.ftl.spareBase
  let used := if s0 = 0 then 0 else 100 * (s0 - s.spareNow) / s0
  let avail := 100 - used
  let f := { s.ftl with wear := wear, spareUsed := used, availSpare := avail, pctUsed := max wear used }
  if !s.ftl.recovered then s
  else if avail < 10 && !s.ftl.spareLow then
    ({ s with ftl := { f with spareLow := true } }).ev 0x4605 noSlice
  else s.setFtl f

/-- Every count of the candidate table is halved (R342). -/
def decayLap (s : State) : State :=
  if s.decayLaps ≠ 0 && s.lap % s.decayLaps = 0 then
    s.setFtl { s.ftl with cand := tmap s.ftl.cand (fun _ c => { c with count := c.count / 2 }) }
  else s

end State

end Sys2Proof.Machine
end

