-- ==== Sys2Proof/Machine/Inject.lean ====
section
/-! DEFINITION. The fault injector: its fields, the units it counts and what it injects (R991 to R997). -/

namespace Sys2Proof.Machine

/-- Register keys of injector k (R999). -/
def fijTgtKey (k : Nat) : Nat := 0x1A00000 + 0x10 * k
def fijRateKey (k : Nat) : Nat := 0x1A00004 + 0x10 * k
def fijLimitKey (k : Nat) : Nat := 0x1A00008 + 0x10 * k
def fijSeedKey : Nat := 0x1A00100

/-- Is a register key one of the fault injector's? -/
def isFijKey (k : Nat) : Bool := decide (0x1A00000 ≤ k) && decide (k < 0x1B00000)

/-- One step of the 32-bit Galois LFSR of polynomial x^32 + x^22 + x^2 + x + 1 (R994). -/
def lfsrStep (v : BitVec 32) : BitVec 32 := if v.msb then (v <<< 1) ^^^ 0x00400007 else v <<< 1

/-- The legality of a target, an action and BITS (R993, R996). -/
def fijLegal (relayPorts channels kind index action bits : Nat) : Bool :=
  let present := if kind = 1 then decide (index < relayPorts) else if kind = 2 then decide (index < channels)
    else if kind = 3 then decide (index < 8) else true
  let act := action = 0 || (kind = 1 && decide (action ≤ 3)) || (kind = 2 && decide (action ≤ 2)) ||
    (kind = 3 && action = 2)
  present && act && (if action = 2 then decide (1 ≤ bits) else bits = 0)

namespace State

/-- Pair 0xE01 + k on two register values (R996). -/
def fijPairOk (s : State) (tgt rate : Nat) : Bool :=
  fijLegal s.relayPorts s.channelsPresent (natBits tgt 31 30) (natBits tgt 15 8) (natBits tgt 3 0) (natBits rate 19 16)

/-- Injector k in force: KIND, INDEX, ACTION and the rate register. -/
def fijTgt (s : State) (k : Nat) : Nat := s.forceNat (fijTgtKey k)
def fijRate (s : State) (k : Nat) : Nat := s.forceNat (fijRateKey k) 1

/-- FIJ_STAT.ACTIVE bit k: a legal action in force that has not reached LIMIT (R995, R999). -/
def fijActive (s : State) (k : Nat) : Bool :=
  let limit := s.forceNat (fijLimitKey k)
  s.faultInject && decide (natBits (s.fijTgt k) 31 30 ≠ 0) && decide (natBits (s.fijTgt k) 3 0 ≠ 0) &&
  s.fijPairOk (s.fijTgt k) (s.fijRate k) && (limit = 0 || decide (s.fij.done.getD k 0 < limit))

/-- Injector k counts a unit (R994, R995): is it injected? -/
def fijCount (s : State) (k : Nat) : State × Bool :=
  let n := s.fij.count.getD k 0
  let period := max 1 (natBits (s.fijRate k) 15 0)
  let hit := if natBit (s.fijRate k) 31 then s.fij.lfsr.toNat % period = 0 else n % period = period - 1
  let hit := hit && s.fijActive k
  let add (l : List Nat) : List Nat := if hit then laddSat l k 1 0xFFFFFFFF else l
  ({ s with fij := { s.fij with count := lset s.fij.count k (n + 1), lfsr := lfsrStep s.fij.lfsr,
                                done := add s.fij.done, lapDone := add s.fij.lapDone } }, hit)

/-- A unit of a target passes every injector aimed at it: the first action injected, 0 for none (R993). -/
def fijUnit (s : State) (kind index : Nat) : State × Nat :=
  if !s.faultInject then (s, 0)
  else (List.range 8).foldl (fun (p : State × Nat) k =>
    let t := p.1.fijTgt k
    if natBits t 31 30 = kind && natBits t 15 8 = index && decide (natBits t 3 0 ≠ 0) then
      let q := p.1.fijCount k
      (q.1, if q.2 && p.2 = 0 then natBits t 3 0 else p.2)
    else p) (s, 0)

/-- BITS of the injector that corrupts a target. -/
def fijBits (s : State) (kind index : Nat) : Nat :=
  match (List.range 8).find? (fun k => natBits (s.fijTgt k) 31 30 = kind && natBits (s.fijTgt k) 15 8 = index &&
      natBits (s.fijTgt k) 3 0 = 2) with
  | some k => natBits (s.fijRate k) 19 16
  | none => 0

/-- A frame of a port is set aside until the port's next frame, or none is (R993). -/
def setLate (s : State) (p : Nat) (c : Option RelayIn) : State :=
  { s with fij := { s.fij with late := match c with
    | some c => tset s.fij.late p c
    | none => tdel s.fij.late p } }

/-- A relay frame past its FCS check, with what a frame does (R993): lost, failing its tag,
set aside, or as it is. One that was set aside before it comes after it. -/
def onFrame (s : State) (p : Nat) (act : State → RelayIn → State) (c : RelayIn) : State :=
  if !s.faultInject then act s c
  else
    let late := tget s.fij.late p
    let t := match (s.setLate p none).fijUnit 1 p with
      | (s, 1) => s
      | (s, 2) => s.frameDiscard p .tag
      | (s, 3) => s.setLate p (some c)
      | (s, _) => act s c
    match late with
    | some d => act t d
    | none => t

/-- The port that a routed message of a source arrives by. -/
def portFrom (s : State) (src : Nat) : Nat := ((tget s.rly.routes src).map Route.port).getD 0

/-- A transfer on a fabric hop (R862, R993): corrupted twice running, it is a device fault. -/
def onHop (s : State) (h : Nat) : State :=
  match s.fijUnit 3 h with
  | (s, 2) => match s.fijUnit 3 h with
    | (s, 2) => (s.ev 0x1C04 noSlice).raiseFault 3
    | (s, _) => s
  | (s, _) => s

/-- What a codeword of a channel becomes at the decoder (R404, R413, R993). -/
def onCodeword (s : State) (ch : Nat) (r : PollResult) : State × PollResult :=
  match r with
  | .readOk level bits tagOk =>
    match s.fijUnit 2 ch with
    | (s, 1) => (s, if 10 ≤ level then .readFail else .readOk (level + 1) bits tagOk)
    | (s, 2) => (s, .readOk level (bits + s.fijBits 2 ch) tagOk)
    | (s, _) => (s, r)
  | _ => (s, r)

/-- POLL_COMPLETE with the injector in the flash channels' return. -/
def pollReturn (s : State) (id : Nat) (r : PollResult) : State :=
  match s.poll? id with
  | none => s
  | some p =>
    let q := s.onCodeword (dieOf p.kind.addr / 16) r
    let s := match p.kind with
      | .hostRead _ _ => q.1.onHop 2
      | _ => q.1
    s.pollComplete id q.2

/-- The injections of a lap are reported (R1000). -/
def fijLap (s : State) : State :=
  let s := (List.range 8).foldl (fun s k =>
    let n := s.fij.lapDone.getD k 0
    if n = 0 then s else s.ev 0x0F04 noSlice (item 1 k ++ itemSat 4 n)) s
  { s with fij := { s.fij with lapDone := List.replicate 8 0 } }

/-- Every FIJ field returns to its reset value (R992). -/
def fijReset (s : State) : State :=
  { s with fij := {}, staged := s.staged.filter (fun p => !isFijKey p.1),
           inForce := s.inForce.filter (fun p => !isFijKey p.1) }

/-- The fields of injector k have taken effect: its units count from here, and an armed one is reported
(R994, R1000). -/
def fijArm (s : State) (k : Nat) : State :=
  let f := { s.fij with done := lset s.fij.done k 0, count := lset s.fij.count k 0, lapDone := lset s.fij.lapDone k 0 }
  let s := { s with fij := f }
  let t := s.fijTgt k
  if natBits t 3 0 ≠ 0 && natBits t 31 30 ≠ 0 then
    s.ev 0x2F00 noSlice (item 1 k ++ item 1 (natBits t 31 30) ++ item 1 (natBits t 15 8) ++ item 1 (natBits t 3 0))
  else s

end State

end Sys2Proof.Machine
end

