-- ==== Sys2Proof/Machine/Evr.lean ====
section
/-! DEFINITION. The event recorder: making, merging and dropping records, freezes and clears, and
what its registers read. -/

namespace Sys2Proof.Machine

/-- The sizes of an instance's areas and of its holding queue (R933, R951). -/
structure RecSize where
  podium : Nat
  ring : Nat
  hold : Nat

def devRec : RecSize := { podium := 1024, ring := 8192, hold := 256 }
def sliceRec : RecSize := { podium := 64, ring := 256, hold := 32 }

/-- The class of a code (R961). -/
def evClass (code : Nat) : Nat := code / 0x1000
/-- The block nibble of a code (R961). -/
def evBlock (code : Nat) : Nat := code / 0x100 % 16
/-- Records of classes 1 and 2 go to the guarded ring (R933). -/
def evGuarded (code : Nat) : Bool := evClass code = 1 || evClass code = 2
/-- Records of classes 1, 2 and 4 are copied to the podium (R936). -/
def evPodium (code : Nat) : Bool := evGuarded code || evClass code = 4

/-- The 32 bytes of a complete record (R938). -/
def EvRec.bytes (r : EvRec) : Bytes :=
  leBytes 3 r.seq ++ [1] ++ leBytes 2 r.code ++ leBytes 2 r.src ++ leBytes 7 r.first ++
  [BitVec.ofNat 8 (flagAt r.gap 0 + flagAt r.held 1 + flagAt r.saturated 2)] ++
  leBytes 4 r.lastDelta ++ leBytes 2 r.count ++ padTo 10 r.detail

/-- A first record of an event (R944), its SEQ and GAP to be set when it is written. -/
def Ev.record (e : Ev) (now : Nat) : EvRec :=
  { seq := 0, code := e.code, src := e.src, first := e.at'.getD now, gap := false, held := false,
    saturated := false, lastDelta := 0, count := 1, detail := e.detail }

/-- Is this event a repeat of that record (R944)? -/
def EvRec.matches (r : EvRec) (e : Ev) (now : Nat) : Bool :=
  r.code = e.code && r.src = e.src && r.detail = e.detail &&
  decide (e.at'.getD now - r.first ≤ 0xFFFFFFFF)

/-- The record after one more occurrence (R944). -/
def EvRec.repeated (r : EvRec) (e : Ev) (now : Nat) : EvRec :=
  { r with count := min 0xFFFF (r.count + 1), saturated := decide (0xFFFF ≤ r.count + 1),
           lastDelta := e.at'.getD now - r.first }

/-- Put a record into the next slot of a ring of `size` slots (R935). -/
def Ring.add (g : Ring) (size : Nat) (r : EvRec) : Ring :=
  { recs := tset g.recs g.nxt r, nxt := (g.nxt + 1) % size, wrapped := g.wrapped || g.nxt + 1 = size,
    last := some g.nxt, gap := false }

/-- The record written last to a ring. -/
def Ring.latest (g : Ring) : Option EvRec :=
  match g.last with
  | some i => tget g.recs i
  | none => none

namespace Recorder

def ring (r : Recorder) (guarded : Bool) : Ring := if guarded then r.grd else r.opn

def setRing (r : Recorder) (guarded : Bool) (g : Ring) : Recorder :=
  if guarded then { r with grd := g } else { r with opn := g }

/-- Write a new record: its ring's next slot, the next write sequence, the ring's GAP, and the
podium copy while there is room (R935, R936, R939, R945). -/
def writeNew (r : Recorder) (sz : RecSize) (x : EvRec) : Recorder :=
  let gd := evGuarded x.code
  let y := { x with seq := r.wseq, gap := (r.ring gd).gap }
  let r := r.setRing gd ((r.ring gd).add sz.ring y)
  { r with wseq := (r.wseq + 1) % 2 ^ 24,
           podium := if evPodium y.code && decide (r.podium.length < sz.podium)
                     then r.podium ++ [y] else r.podium }

/-- Drop an event of a ring (R945). -/
def drop (r : Recorder) (guarded : Bool) : Recorder :=
  let r := r.setRing guarded { r.ring guarded with gap := true }
  { r with lost := min 0xFFFF (r.lost + 1) }

/-- Put an event of classes 1 and 2 into the holding queue of a frozen ring (R951). -/
def hold (r : Recorder) (sz : RecSize) (e : Ev) (now : Nat) : Recorder × Bool :=
  match r.held.getLast? with
  | some x =>
    if x.matches e now then ({ r with held := r.held.dropLast ++ [x.repeated e now] }, false)
    else if r.held.length < sz.hold then ({ r with held := r.held ++ [e.record now] }, false)
    else ({ (r.drop true) with heldLost := r.heldLost + 1 }, true)
  | none =>
    if r.held.length < sz.hold then ({ r with held := r.held ++ [e.record now] }, false)
    else ({ (r.drop true) with heldLost := r.heldLost + 1 }, true)

end Recorder

/-- The recorder's work of one tick: the recorder, the writes made, the slots that a repeat has
already written or updated at this tick, and the events dropped. -/
structure RecRun where
  rcd : Recorder
  writes : Nat := 0
  repeats : List (Bool × Nat) := []
  dropped : Nat := 0

/-- Write a new record at a tick: repeats of it at the same tick are no further write (R945). -/
def RecRun.putNew (w : RecRun) (r : Recorder) (sz : RecSize) (now : Nat) (limit : Bool) (e : Ev) : RecRun :=
  let gd := evGuarded e.code
  { w with rcd := r.writeNew sz (e.record now), writes := w.writes + (if limit then 1 else 0),
           repeats := (gd, (r.ring gd).nxt) :: w.repeats }

/-- Write one event at a tick (R944, R945). `limit` is off for the record of a clear (R955). -/
def RecRun.put (w : RecRun) (sz : RecSize) (now : Nat) (limit : Bool) (e : Ev) : RecRun :=
  let gd := evGuarded e.code
  let r := { w.rcd with events := satAdd w.rcd.events 1 (2 ^ 64 - 1) }
  if gd && r.frozenAt.isSome then
    let p := r.hold sz e now
    { w with rcd := p.1, dropped := w.dropped + (if p.2 then 1 else 0) }
  else
    let g := r.ring gd
    match g.latest, g.last with
    | some x, some i =>
      if x.matches e now then
        if w.repeats.contains (gd, i) then
          { w with rcd := r.setRing gd { g with recs := tset g.recs i (x.repeated e now) } }
        else if limit && decide (64 ≤ w.writes) then
          { w with rcd := r.drop gd, dropped := w.dropped + 1 }
        else
          let y := { x.repeated e now with seq := r.wseq }
          { rcd := { (r.setRing gd { g with recs := tset g.recs i y }) with
                      wseq := (r.wseq + 1) % 2 ^ 24 },
            writes := w.writes + (if limit then 1 else 0), repeats := (gd, i) :: w.repeats,
            dropped := w.dropped }
      else if limit && decide (64 ≤ w.writes) then
        { w with rcd := r.drop gd, dropped := w.dropped + 1 }
      else w.putNew r sz now limit e
    | _, _ =>
      if limit && decide (64 ≤ w.writes) then { w with rcd := r.drop gd, dropped := w.dropped + 1 }
      else w.putNew r sz now limit e

/-- Write events in their order. -/
def RecRun.putAll (w : RecRun) (sz : RecSize) (now : Nat) (limit : Bool) : List Ev → RecRun
  | [] => w
  | e :: t => (w.put sz now limit e).putAll sz now limit t

/-- The order of R946: ascending block nibble, each block's own order kept. -/
def evOrder (q : List Ev) : List Ev :=
  (List.range 16).flatMap (fun b => q.filter (fun e => evBlock e.code = b))

/-- The register sets of R960 by number: 0 the BAR0 set, 1 the SMBus set, 2 + 2n the own set and
3 + 2n the mirror set of slice n's window. -/
def evrSetId : EvrSet → Nat
  | .bar0 => 0
  | .smbus => 1
  | .own n => 2 + 2 * n
  | .mirror n => 3 + 2 * n

/-- The slice whose recorder a register set reads; none is the device recorder. -/
def evrSetSlice : EvrSet → Option Nat
  | .own n => some n
  | _ => none

namespace State

def evrPort (s : State) (id : Nat) : EvrPort := tgetD s.evr.ports id {}

def setEvrPort (s : State) (id : Nat) (p : EvrPort) : State :=
  { s with evr := { s.evr with ports := tset s.evr.ports id p } }

/-- A recorder: a slice's (R934) or the device's. -/
def recorder (s : State) : Option Nat → Recorder
  | none => s.evr.dev
  | some n => tgetD s.evr.slices n {}

def setRecorder (s : State) (i : Option Nat) (r : Recorder) : State :=
  match i with
  | none => { s with evr := { s.evr with dev := r } }
  | some n => { s with evr := { s.evr with slices := tset s.evr.slices n r } }

/-- A drop sets GAP_SEEN in every set that reads the recorder (R960). -/
def noteGap (s : State) (i : Option Nat) : State :=
  let mark (s : State) (id : Nat) := s.setEvrPort id { s.evrPort id with gapSeen := true }
  match i with
  | some n => mark s (2 + 2 * n)
  | none => (s.slices.map (fun p => 3 + 2 * p.1)).foldl mark (mark (mark s 0) 1)

def recSize : Option Nat → RecSize
  | none => devRec
  | some _ => sliceRec

def recSource : Option Nat → Nat
  | none => noSlice
  | some n => n

/-- Write events to one recorder at this tick and report what it dropped (R945, code 0x1E00). -/
def record (s : State) (i : Option Nat) (limit : Bool) (es : List Ev) : State :=
  let w := RecRun.putAll { rcd := s.recorder i } (recSize i) s.stride limit es
  let s := s.setRecorder i w.rcd
  if w.dropped = 0 then s
  else (s.noteGap i).ev 0x1E00 (recSource i) (itemSat 2 w.dropped)

/-- Empty a ring (R954). -/
def clearRing (_g : Ring) : Ring := {}

/-- One clear of R1053 step 1: refused whole when it names a frozen guarded ring (R956), else the
rings are zeroed and the record 0x2E00 is written at this tick (R955). -/
def evrClearOne (s : State) (c : EvrClearReq) : State :=
  let r := s.recorder c.slice
  if c.guarded && r.frozenAt.isSome then s.setEvrPort c.set { s.evrPort c.set with refused := true }
  else
    let r := if c.opn then { r with opn := clearRing r.opn } else r
    let r := if c.guarded then { r with grd := clearRing r.grd } else r
    let e : Ev := { code := 0x2E00, src := recSource c.slice, at' := some s.stride,
                    detail := item 1 (flagAt c.opn 0 + flagAt c.guarded 1) }
    let s := (s.setRecorder c.slice r).record none false [e]
    match c.slice with
    | none => s
    | some n => s.record (some n) false [e]

/-- End a freeze: the held records are written as new ones with HELD set (R952). -/
def evrThaw (s : State) (i : Option Nat) : State :=
  let r := s.recorder i
  let sz := recSize i
  let r' := r.held.foldl (fun r x => r.writeNew sz { x with held := true })
    { r with frozenAt := none, thawedAt := some s.stride, held := [], heldLost := 0,
             releaseReq := false }
  (s.setRecorder i r').ev 0x0E01 (recSource i) (itemSat 2 r.held.length ++ itemSat 2 r.heldLost)

/-- R1053 step 2 for one recorder: a freeze that a RELEASE or 4,000 strides end. -/
def evrThawIfDue (s : State) (i : Option Nat) : State :=
  let r := s.recorder i
  match r.frozenAt with
  | some t =>
    if r.releaseReq || decide (t + 4000 ≤ s.stride) then s.evrThaw i
    else s
  | none => s.setRecorder i { r with releaseReq := false }

/-- One FREEZE request at its tick (R951, R953). -/
def evrFreezeOne (s : State) (i : Option Nat) (set : Nat) : State :=
  let r := s.recorder i
  let early := match r.thawedAt with
    | some t => decide (s.stride - t < 4000)
    | none => false
  if r.frozenAt.isSome || early then s.setEvrPort set { s.evrPort set with refused := true }
  else
    (s.setRecorder i { r with frozenAt := some s.stride, held := [], heldLost := 0 }).ev
      0x0E00 (recSource i)

/-- R1053 step 3 for one recorder. -/
def evrFreezes (s : State) (i : Option Nat) : State :=
  let reqs := (s.recorder i).freezeReq
  let s := s.setRecorder i { s.recorder i with freezeReq := [] }
  reqs.foldl (fun s set => s.evrFreezeOne i set) s

/-- The recorders that exist: the device's and every slice's (R933, R934). -/
def recorders (s : State) : List (Option Nat) := none :: s.evr.slices.map (fun p => some p.1)

/-- The recorder's work at a tick (R1053). Nothing is written before the recorders are reloaded,
except in SAFE (R957, R983). -/
def evrTick (s : State) : State :=
  if s.evr.reloaded || decide (s.dev.phase = .safe) then
    let q := evOrder s.evr.queue
    let cl := s.evr.clears
    let s := { s with evr := { s.evr with queue := [], clears := [] } }
    let s := cl.foldl evrClearOne s
    let s := s.recorders.foldl evrThawIfDue s
    let s := s.recorders.foldl evrFreezes s
    let s := s.record none true (q.filter (fun e => !e.only))
    s.evr.slices.foldl (fun s p => s.record (some p.1) true (q.filter (fun e => e.src = p.1))) s
  else s

/-- The record at a set's cursor, as 32 bytes; zeros where no record stands (R948, R959). -/
def evrAtCursor (s : State) (set : EvrSet) : Bytes :=
  let p := s.evrPort (evrSetId set)
  let r := s.recorder (evrSetSlice set)
  let x := if p.area = 0 then r.podium[p.index]?
           else if p.area = 1 then tget r.opn.recs p.index
           else tget r.grd.recs p.index
  match x with
  | some y => y.bytes
  | none => List.replicate 32 0

/-- The size of an area of the recorder a set reads (R933). -/
def evrAreaSize (set : EvrSet) (area : Nat) : Nat :=
  let sz := recSize (evrSetSlice set)
  if area = 0 then sz.podium else sz.ring

/-- A 32-bit read of EVR_CHECK (R948). -/
def readEvrCheck (s : State) (set : EvrSet) : State :=
  let p := s.evrPort (evrSetId set)
  let d := leAt (s.evrAtCursor set) 0 4
  ({ s with lastRead := BitVec.ofNat 64 d }).setEvrPort (evrSetId set)
    { p with index := (p.index + 1) % evrAreaSize set p.area }

/-- A write of EVR_FREEZE.FREEZE through a set (R951): it acts at the next tick. -/
def requestFreeze (s : State) (set : EvrSet) : State :=
  let i := evrSetSlice set
  let r := s.recorder i
  s.setRecorder i { r with freezeReq := r.freezeReq ++ [evrSetId set] }

/-- A write of EVR_FREEZE.RELEASE through a set (R952, R953). -/
def requestRelease (s : State) (set : EvrSet) : State :=
  let i := evrSetSlice set
  let r := s.recorder i
  if r.frozenAt.isSome then s.setRecorder i { r with releaseReq := true } else s

end State

/-- May a slice's recorder be named by a clear (R956)? -/
def clearable (st : SlState) : Bool :=
  match st with
  | .active | .freezing | .frozen | .resetting | .saving | .migrating => true
  | _ => false

/-- A write to EVR_CLEAR of value `v` (R954, R959): false when it places a reserved value. -/
def evrClearOk (s : State) (v : Nat) : Bool :=
  natBits v 31 26 = 0 && natBits v 15 2 = 0 && natBits v 1 0 ≠ 0 &&
  (!natBit v 25 || clearable (s.slice (natBits v 24 16)).st)

def State.requestClear (s : State) (v set : Nat) : State :=
  { s with evr := { s.evr with clears := s.evr.clears ++
    [{ slice := if natBit v 25 then some (natBits v 24 16) else none,
       guarded := natBit v 1, opn := natBit v 0, set := set }] } }

end Sys2Proof.Machine
end

