-- ==== Sys2Proof/Machine/Heat.lean ====
section
/-! DEFINITION. Heats: program slots, the checks of Heat Run, staging, running, service calls, the cycle
budget and how a heat ends (R544 to R593). -/

namespace Sys2Proof.Machine

/-- Window offsets of the heat registers (R588). -/
def heatBudgetOff : Nat := 0x4000
def heatStopOff : Nat := 0x4004

namespace State

/-- Run `f` on an admitted I/O command of an engine's opcode that is not at its completion stage. -/
def onEngine (s : State) (c : CmdId) (opc : Nat) (f : Adm → State) : State :=
  match s.adm? c with
  | none => s
  | some a => if !a.admin && a.ent.opc = opc && !a.stage then f a else s

/-- A device read at a host or CMB address: what the CMB holds there, but for an uncorrectable word (R869), or what the
host gave. -/
def readIn (s : State) (n addr len : Nat) (d : Fetch) : Fetch :=
  let p := (s.slice n).port
  if s.touchesBar4 p addr len then
    if s.cmbBad n [(addr, len)] then .failAt 0 else .ok (mread s.cmb (addr - (s.port p).bar4) len)
  else match d with
    | .ok bs => .ok (padTo len bs)
    | .failAt o => .failAt o

/-- The event of such a read that has failed: of the word in the CMB, or of the host's DMA (R246, R869). -/
def readInFails (s : State) (n addr len : Nat) : State :=
  if s.touchesBar4 (s.slice n).port addr len then s.readCmb n [(addr, len)] else s.ev 0x1203 n

/-! ### Program slots (R544, R545, R550 to R556) -/

def heatRegsOf (s : State) (n : Nat) : HeatRegs := tgetD s.heatRegs n {}
def modHeatRegs (s : State) (n : Nat) (f : HeatRegs → HeatRegs) : State :=
  { s with heatRegs := tset s.heatRegs n (f (s.heatRegsOf n)) }

/-- The header offset of the first field of a program image that fails its check (R550, R554). -/
def imageBad (bs : Bytes) (len : Nat) : Option Nat :=
  let code := leAt bs 8 4
  let entry := leAt bs 0xC 4
  let zeroed := leAt bs 0x10 4
  let mn := leAt bs 0x15 1
  let mx := leAt bs 0x16 1
  if leAt bs 0 4 ≠ 0x4D424831 then some 0
  else if leAt bs 4 2 ≠ 1 then some 4
  else if leAt bs 6 2 ≠ 0 then some 6
  else if code < 2 || 258048 < code || code % 2 = 1 || code + 64 ≠ len then some 8
  else if entry % 2 = 1 || code ≤ entry then some 0xC
  else if 0x3F000 < code + zeroed then some 0x10
  else if leAt bs 0x14 1 ≠ 1 then some 0x14
  else if mn < 1 || 64 < mn then some 0x15
  else if mx < mn || 64 < mx then some 0x16
  else if !allZero (bytesAt bs 0x17 9) then some 0x17
  else if !allZero (bytesAt bs 0x30 16) then some 0x30
  else none

/-- Place an image in a slot, or empty it, at the command's stamp. -/
def placeProgram (s : State) (n slot : Nat) (t : Stamp) (p : Option Program) : State :=
  s.modHeatRegs n (fun h =>
    { h with programs := tset h.programs slot (tgetD h.programs slot [] ++ [{ stamp := t, image := p }]) })

/-- The image that a Heat Run stamped `t` uses (R555): of the loads stamped earlier, the latest. -/
def programFor (s : State) (n slot : Nat) (t : Stamp) : Option Program :=
  ((tgetD (s.heatRegsOf n).programs slot []).foldl (fun (best : Option ProgramLoad) l =>
    if !l.stamp.before t then best
    else match best with
      | none => some l
      | some b => if b.stamp.before l.stamp then some l else best) none).bind ProgramLoad.image

/-- HEAT_PROGRAM_LOAD (R551 to R554). -/
def heatProgramLoad (s : State) (c : CmdId) (d : Fetch) : State :=
  s.onAdmin c 0xC5 (fun a =>
    let len := a.ent.cdw11.toNat
    let slot := natBits a.ent.cdw10.toNat 3 0
    let loaded (s : State) (p : Option Program) : State :=
      ((s.placeProgram c.slice slot a.stamp p).ev 0x0700 c.slice (item 1 slot)).finish c .success
    if a.ent.nsid ≠ 0 || natBits a.ent.cdw10.toNat 31 4 ≠ 0 || a.ent.cdw12 ≠ 0 || a.ent.cdw13 ≠ 0 ||
       a.ent.cdw14 ≠ 0 || a.ent.cdw15 ≠ 0 || 258112 < len then s.finish c .invalidField
    else if len = 0 then
      if a.ent.dptr.ranges.any (fun r => decide (r.1 ≠ 0)) then s.finish c .invalidField else loaded s none
    else if len < 66 then s.finish c (.vendor 0x41) 8
    else match d with
      | .failAt _ => (s.finish c .dataTransferError).ev 0x1203 c.slice
      | .ok bs => s.arrive c a.ent.dptr.ranges (fun s =>
        let bs := padTo len (s.gather c.slice a.ent.dptr.ranges bs)
        match imageBad bs len with
        | some o => s.finish c (.vendor 0x41) (BitVec.ofNat 32 o)
        | none =>
          let img : Program := { code := bs.drop 64, entry := leAt bs 0xC 4, minCores := leAt bs 0x15 1,
                                 maxCores := leAt bs 0x16 1 }
          loaded (s.sliceLog c.slice 0x0012 (item 1 slot) bs) (some img)))

/-! ### Checks of Heat Run (R557 to R561) -/

/-- Bytes of a slice's heat region, and its physical DRAM base (R546). -/
def heatRegion (x : Slice) : Nat := (x.dramMib - 16) * 2 ^ 20
def heatBase (s : State) (x : Slice) : Nat := (s.regionBase + x.dramBase) * 2 ^ 20

def extentCount (e : SqEntry) : Nat := natBits e.cdw10.toNat 10 0

/-- DESC_ADDR. -/
def descAddr (e : SqEntry) : Nat := e.cdw13.toNat * 2 ^ 32 + e.cdw12.toNat / 8 * 8

/-- Checks 1 to 3 (R560), made at admission; the placing that R215 asks of the pointer and the descriptor is checked after
them (DESIGN CHOICE: R560 does not order it). -/
def heatChecks1 (s : State) (n : Nat) (e : SqEntry) : Option Status :=
  if natBits e.cdw10.toNat 31 11 ≠ 0 || e.cdw11 ≠ 0 || natBits e.cdw12.toNat 2 0 ≠ 0 || e.cdw15 ≠ 0 ||
     e.nsid ≠ 0 || 1024 < extentCount e || 16777216 < e.cdw14.toNat then some .invalidField
  else if (s.slice n).cores = [] then some (.vendor 0x04)
  else if (e.cdw14 = 0 && e.dptr.ranges.any (fun r => decide (r.1 ≠ 0))) ||
          (e.dptr.sgl && decide (ptrLen e.dptr ≠ e.cdw14.toNat)) then some (.vendor 0x02)
  else if !s.pointerPlaced n e.dptr || !s.cmbUseOk n (descAddr e, 64 + 32 * extentCount e) then some .invalidCmb
  else none

def extentAt (bs : Bytes) (i : Nat) : HeatExtent :=
  let o := 0x40 + 32 * i
  { nsid := leAt bs o 4, slba := leAt bs (o + 8) 8, nlb := leAt bs (o + 0x10) 4 + 1, dest := leAt bs (o + 0x18) 8 }

def extentReserved (bs : Bytes) (i : Nat) : Bool :=
  let o := 0x40 + 32 * i
  decide (leAt bs (o + 4) 4 ≠ 0) || decide (leAt bs (o + 0x14) 4 ≠ 0) || decide (leAt bs (o + 0x18) 8 % 8 ≠ 0)

/-- The data bytes of an extent. -/
def extentBytes (x : Slice) (e : HeatExtent) : Nat :=
  match tget x.nss e.nsid with
  | some ns => e.nlb * lbaData ns.lbaf
  | none => 0

/-- Do two byte ranges of the heat region meet? -/
def meets (a al b bl : Nat) : Bool := decide (a < b + bl) && decide (b < a + al)

def destOverlap (x : Slice) : List HeatExtent → Bool
  | [] => false
  | e :: t => t.any (fun f => meets e.dest (extentBytes x e) f.dest (extentBytes x f)) || destOverlap x t

/-- Checks 5 to 14 (R560): the heat that passes them, or the status of the first that fails. -/
def heatChecks2 (s : State) (c : CmdId) (a : Adm) (bs : Bytes) : Except Status Heat :=
  let x := s.slice c.slice
  let n := extentCount a.ent
  let dcx := leAt bs 3 1
  let first := leAt bs 1 1
  let count := leAt bs 2 1
  let off := leAt bs 0x10 8
  let exts := (List.range n).map (extentAt bs)
  if 15 < leAt bs 0 1 || count < 1 || 64 < count || 15 < dcx || 4 < dcx % 8 || off % 8 ≠ 0 ||
     !allZero (bytesAt bs 0x18 8) then .error .invalidField
  else match s.programFor c.slice (leAt bs 0 1) a.stamp with
    | none => .error (.vendor 0x44)
    | some img =>
      if x.cores.length < first + count || count < img.minCores || img.maxCores < count then .error (.vendor 0x45)
      else if (List.range n).any (extentReserved bs) then .error .invalidField
      else if exts.any (fun e => match tget x.nss e.nsid with
          | some ns => !ns.attached
          | none => true) then .error .invalidNamespace
      else if x.mediaKey.isNone then .error (.vendor 0x03)
      else if lsum (exts.map (extentBytes x)) ≠ leAt bs 8 8 then .error (.vendor 0x42)
      else if exts.any (fun e => match tget x.nss e.nsid with
          | some ns => decide (ns.nsze < e.slba + e.nlb)
          | none => true) then .error .lbaRange
      else if exts.any (fun e => decide (heatRegion x < e.dest + extentBytes x e)) ||
              heatRegion x < off + a.ent.cdw14.toNat || destOverlap x exts then .error (.vendor 0x43)
      else .ok { id := c, stamp := a.stamp, st := .staging, image := some img,
                 cores := ((sortNat x.cores).drop first).take count, dcx := (dcx / 8 % 2) * 256 + dcx % 8,
                 maxLaps := leAt bs 4 4, inputBytes := leAt bs 8 8, resultOffset := off,
                 resultBytes := a.ent.cdw14.toNat,
                 param := (List.range 4).map (fun i => BitVec.ofNat 64 (leAt bs (0x20 + 8 * i) 8)),
                 extents := exts }

def heat? (s : State) (c : CmdId) : Option Heat := s.heats.find? (fun h => h.id = c)

def modHeat (s : State) (c : CmdId) (f : Heat → Heat) : State :=
  { s with heats := s.heats.map (fun h => if h.id = c then f h else h) }

/-- A heat that is not there yet enters CHECKING. -/
def heatKnown (s : State) (c : CmdId) (a : Adm) : State :=
  match s.heat? c with
  | some _ => s
  | none => { s with heats := s.heats ++ [{ id := c, stamp := a.stamp, resultBytes := a.ent.cdw14.toNat }] }

/-- HEAT_RUN: checks 1 to 3, and the heat is in CHECKING. -/
def heatRun (s : State) (c : CmdId) : State :=
  s.onEngine c 0x86 (fun a =>
    match s.heatChecks1 c.slice a.ent with
    | some st => (s.dropHeat c).failCmd c st
    | none => s.heatKnown c a)

/-- An earlier-stamped Heat Program Load of the slice has not completed (R555). -/
def loadPending (s : State) (n : Nat) (t : Stamp) : Bool :=
  (s.slice n).adms.any (fun a => a.admin && a.ent.opc = 0xC5 && a.stamp.before t)

/-- HEAT_DESCRIPTOR_ARRIVAL (R560, R561): checks 4 to 14. The heat that passes is staged. A heat that
is staged is one of the wake sources (R918). -/
def heatDescriptor (s : State) (c : CmdId) (d : Fetch) : State :=
  s.onEngine c 0x86 (fun a =>
    let s := s.heatKnown c a
    match s.heat? c with
    | none => s
    | some h =>
      if h.st ≠ .checking || s.loadPending c.slice a.stamp then s
      else match s.readIn c.slice (descAddr a.ent) (64 + 32 * extentCount a.ent) d with
        | .failAt _ => ((s.dropHeat c).failCmd c .dataTransferError).readInFails c.slice (descAddr a.ent)
            (64 + 32 * extentCount a.ent)
        | .ok bs =>
          match s.heatChecks2 c a bs with
          | .error st => (s.dropHeat c).failCmd c st
          | .ok h' => ((s.modHeat c (fun _ => h')).modAdm c (fun a => { a with reads := some (h'.extents.map (fun e =>
              { nsid := e.nsid, range := { slba := e.slba, count := e.nlb } })) })).wakeEvent 5 0)

/-! ### Staging (R570 to R572) -/

/-- The blocks of a heat's extents, in order: namespace, LBA and destination. -/
def stagedBlocks (x : Slice) (h : Heat) : List (Nat × Ns × Nat × Nat) :=
  h.extents.flatMap (fun e => match tget x.nss e.nsid with
    | some ns => (List.range e.nlb).map (fun i => (e.nsid, ns, e.slba + i, e.dest + i * lbaData ns.lbaf))
    | none => [])

/-- The check of protection information at staging, scans and searches (R571, R892): guard, and the
reference tag of type 1. -/
def dropPi (ns : Ns) (lba : Nat) (b : BlockData) : Option Status :=
  if !hasPi ns then none
  else piEgressOne ns { pract := false, prchk := 5, app := 0, mask := 0, ref := lba } 0 b

/-- Read the blocks of an engine's command at its stamp, and issue their flash reads: the data of each
block, or the status that ends the command. -/
def engineRead (s : State) (c : CmdId) (t : Stamp) (bs : List (Nat × Ns × Nat)) :
    State × Except Status (List Bytes) :=
  let fs := bs.map (fun b => (b, s.fate c.slice b.1 b.2.1 t b.2.2))
  let s := if fs.any (fun f => f.2.isReserved) then s.ev 0x1502 noSlice else s
  if fs.any (fun f => f.2.block.isNone) then
    (bs.foldl (fun s b => s.readEntries c.slice b.1 t [b.2.2]) s, .error .unrecoveredRead)
  else
    let blocks := fs.filterMap (fun f => f.2.block.map (fun d => (f.1, d)))
    match (blocks.filterMap (fun p => dropPi p.1.2.1 p.1.2.2 p.2)).head? with
    | some st => (s, .error st)
    | none =>
      let addrs := (fs.filterMap (fun f => f.2.addr)).eraseDups
      let s := s.modAdm c (fun a => { a with started := true, waits := addrs.length })
      (s.issueReads c addrs, .ok (blocks.map (fun p => p.2.data)))

/-- Put staged blocks into the heat region. -/
def putStaged (s : State) (base : Nat) : List (Nat × Bytes) → State
  | [] => s
  | (dest, d) :: t => putStaged (s.memWrite dramArr (base + dest) d) base t

/-- A heat that ends with a status before it runs. -/
def heatFail (s : State) (c : CmdId) (st : Status) : State := (s.dropHeat c).failCmd c st

/-- Stage a heat's input once every block of it may be read (R269, R570). -/
def heatStage (s : State) (h : Heat) : State :=
  let x := s.slice h.id.slice
  let bs := stagedBlocks x h
  if h.st ≠ .staging || h.staged then s
  else if !bs.all (fun b => readReady x b.1 h.stamp b.2.2.1) then s
  else
    let r := s.engineRead h.id h.stamp (bs.map (fun b => (b.1, b.2.1, b.2.2.1)))
    match r.2 with
    | .error st => r.1.heatFail h.id st
    | .ok ds =>
      (r.1.putStaged (s.heatBase x) ((bs.map (fun b => b.2.2.2)).zip ds)).modHeat h.id (fun h => { h with staged := true })

/-- HEAT_STAGED: every extent is in the heat region (R562); a block that failed ends the heat. -/
def heatStaged (s : State) (c : CmdId) : State :=
  match s.heat? c, s.adm? c with
  | some h, some a =>
    if h.st ≠ .staging then s
    else
      let s := s.heatStage h
      match s.heat? c, s.adm? c with
      | some h', some a' =>
        if !h'.staged || decide (a'.waits ≠ 0) || decide (a.id ≠ c) then s
        else match a'.bad with
          | some st => s.heatFail c st
          | none => s.modHeat c (fun h => { h with st := .waitCores })
      | _, _ => s
  | _, _ => s

/-! ### Loading and running (R564 to R569) -/

/-- Do two core sets overlap? -/
def coresMeet (a b : List Nat) : Bool := a.any (fun c => b.contains c)

/-- May a heat enter LOADING (R564, R565)? -/
def mayLoad (s : State) (h : Heat) : Bool :=
  (s.slice h.id.slice).st = .active &&
  h.cores.all (fun c => !s.onOscillator c && !(s.core c).dfault) &&
  s.heats.all (fun g => g.id = h.id || !coresMeet g.cores h.cores ||
    (match g.st with
     | .loading | .running | .suspended | .delivering => false
     | .waitCores => h.stamp.before g.stamp
     | _ => true))

/-- HEAT_LOADING_START: the cores are reserved. -/
def heatLoading (s : State) (c : CmdId) : State :=
  match s.heat? c with
  | none => s
  | some h =>
    if h.st = .waitCores && s.mayLoad h then
      let s := s.modHeat c (fun h => { h with st := .loading })
      h.cores.foldl (fun s k => s.modCore k (fun k => { k with loading := true })) s
    else s

/-- HBANKS for a core (R548): the banks the slice holds in its cluster. -/
def heatBanks (x : Slice) (core : Nat) : Nat :=
  lsum ((List.range 8).map (fun b => flagAt (x.banks.contains (core / 8 * 8 + b)) b))

/-- The registers a core begins a heat with (R569). -/
def startRegs (h : Heat) (index : Nat) : List Dword :=
  [0, BitVec.ofNat 64 index, BitVec.ofNat 64 h.cores.length, BitVec.ofNat 64 h.inputBytes,
   h.param.getD 0 0, h.param.getD 1 0, h.param.getD 2 0, h.param.getD 3 0] ++
  List.replicate 23 0 ++ [0x3F000]

/-- LOADING of one core (R566). -/
def loadCore (s : State) (h : Heat) (img : Program) (core index : Nat) : State :=
  let x := s.slice h.id.slice
  let s := (s.memClear core 0 0x3F000).memWrite core 0 img.code
  s.modCore core (fun k =>
    { k with g := startRegs h index, pc := BitVec.ofNat 64 img.entry, flg := 0, dcx := BitVec.ofNat 64 h.dcx,
             hbase := BitVec.ofNat 64 (s.heatBase x), hsize := BitVec.ofNat 64 (heatRegion x),
             hbanks := BitVec.ofNat 64 (heatBanks x core), marshal := false, pmode := true, exl := false,
             stopReq := false, suspReq := false, waiting := false, svc := none, hold := .none,
             loading := false, halted := false })

/-- HEAT_RUNNING_START: R566 is done; the heat is at its completion stage. -/
def heatRunning (s : State) (c : CmdId) : State :=
  match s.heat? c with
  | none => s
  | some h =>
    match h.st, h.image with
    | .loading, some img =>
      let s := ((List.range h.cores.length).zip h.cores).foldl (fun s p => s.loadCore h img p.2 p.1) s
      (s.modHeat c (fun h => { h with st := .running })).modAdm c (fun a => { a with stage := true })
    | _, _ => s

/-! ### Ending a heat (R562, R580 to R586) -/

/-- End a heat with a completion. -/
def heatEnd (s : State) (h : Heat) (st : Status) (dw0 : BitVec 32 := 0) (dw1 : BitVec 32 := 0) : State :=
  ((s.freeCores h).dropHeat h.id).finish h.id st dw0 dw1

/-- The heat that runs on a core, and the core's index in it. -/
def heatOn (s : State) (core : Nat) : Option (Heat × Nat) :=
  (s.heats.find? (fun h => h.cores.contains core && (h.st = .running || h.st = .suspended))).map
    (fun h => (h, (h.cores.takeWhile (fun c => decide (c ≠ core))).length))

/-- An exception in heat mode, or a service call the runtime has no service for, ends the heat at the next tick (R575,
R585): of the exceptions of one stride that of the lowest core index decides, and of one core the first. -/
def heatFault (s : State) (core cause sub : Nat) (epc : Dword) : State :=
  match s.heatOn core with
  | none => s
  | some (h, i) =>
    let known := match (s.core core).svc with
      | some n => decide (n ≤ 2)
      | none => false
    if cause = 6 && known then s
    else if h.fault.any (fun f => decide (f.1 ≤ i)) then s
    else s.modHeat h.id (fun h => { h with
      fault := some (i, BitVec.ofNat 32 (i * 2 ^ 24 + cause * 256 + sub), BitVec.ofNat 32 epc.toNat) })

/-- The heats that an exception of the stride before has ended (R562, R585). -/
def heatFaultTick (s : State) : State :=
  s.heats.foldl (fun s h => match h.fault with
    | some f => s.heatEnd h (.vendor 0x40) f.2.1 f.2.2
    | none => s) s

/-- Every core of a heat has taken EXIT. -/
def allExited (s : State) (h : Heat) : Bool := h.cores.all (fun c => (s.core c).hold = .exited)

/-- SVC_EXIT on a core whose last service call is EXIT (R573). -/
def svcExit (s : State) (core : Nat) : State :=
  match s.heatOn core with
  | none => s
  | some (h, i) =>
    let k := s.core core
    if h.st = .running && k.svc = some 0 && k.hold = .none && k.marshal then
      let s := s.setCore core { k with hold := .exited, svc := none }
      let s := if i = 0 then
          s.modHeat h.id (fun h => { h with exitN := (k.reg 4).toNat, exitCode := (k.reg 5).toNat % 2 ^ 32 })
        else s
      if s.allExited h then s.modHeat h.id (fun h => { h with st := .delivering }) else s
    else s

/-- SVC_BARRIER and SVC_YIELD: the core waits (R573, R574). -/
def svcWait (s : State) (core num : Nat) (hold : CoreHold) : State :=
  match s.heatOn core with
  | none => s
  | some (h, _) =>
    let k := s.core core
    if h.st = .running && k.svc = some num && k.hold = .none && k.marshal then
      s.setCore core { k with hold := hold, svc := none }
    else s

/-- Return a held core to its heat. -/
def resume (s : State) (core : Nat) : State := s.modCore core (fun k => { eretCore k with hold := .none })

/-- The waits that a tick ends: yields, and barriers at which every core has arrived or exited. A WAIT
instruction ends as well (R475), and a stride of 500 cycles begins (R30). -/
def coreTick (s : State) : State :=
  let s := { s with cores := tmap s.cores (fun _ k => { k with waiting := false, used := 0 }) }
  s.heats.foldl (fun s h =>
    if h.st = .running then
      let holds := h.cores.map (fun c => (s.core c).hold)
      let s := h.cores.foldl (fun s c => if (s.core c).hold = .yield then s.resume c else s) s
      if holds.all (fun x => x = .barrier || x = .exited) then
        h.cores.foldl (fun s c => if (s.core c).hold = .barrier then s.resume c else s) s
      else s
    else s) s

/-- HEAT_LAP_LIMIT (R580). -/
def heatLapLimit (s : State) (c : CmdId) : State :=
  match s.heat? c with
  | none => s
  | some h =>
    if h.st = .running && decide (h.maxLaps ≠ 0) && decide (h.maxLaps ≤ h.laps) then
      (s.heatEnd h (.vendor 0x47)).ev 0x0701 c.slice
    else s

/-- HEAT_DELIVERED (R581, R582, R584): the result, read from the result area. `ok` is whether the host
took it. -/
def heatDelivered (s : State) (c : CmdId) (ok : Bool) : State :=
  match s.heat? c, s.adm? c with
  | some h, some a =>
    if h.st ≠ .delivering then s
    else if h.resultBytes < h.exitN then s.heatEnd h (.vendor 0x48)
    else if !ok then ((s.partialWrite c.slice a.ent.dptr.ranges).heatEnd h .dataTransferError).ev 0x1203 c.slice
    else
      let m := s.moveData c true (cutRanges a.ent.dptr.ranges h.exitN)
      if !m.2 then m.1
      else
      let s := m.1
      let r := s.memRead dramArr (s.heatBase (s.slice c.slice) + h.resultOffset) h.exitN
      if r.2.2 then (r.1.heatEnd h .dataTransferError)
      else (r.1.deliver c.slice a.ent.dptr.ranges r.2.1).heatEnd h .success (BitVec.ofNat 32 h.exitCode)
        (BitVec.ofNat 32 h.exitN)
  | _, _ => s

/-- HEAT_STOP acts (R586). -/
def heatStopAct (s : State) (n : Nat) (q : Nat × Nat) : State :=
  match s.heat? { slice := n, sqid := q.1, cid := q.2 } with
  | none => s.modHeatRegs n (fun r => { r with stopMiss := true })
  | some h =>
    if h.st = .running then s.heatEnd h (.vendor 0x46)
    else if h.st = .suspended then s.modHeat h.id (fun h => { h with stopWanted := true })
    else s.modHeatRegs n (fun r => { r with stopMiss := true })

/-- The stops of a tick. -/
def heatStopTick (s : State) : State :=
  s.heatRegs.foldl (fun s p =>
    p.2.stops.foldl (fun s q => s.heatStopAct p.1 q) (s.modHeatRegs p.1 (fun r => { r with stops := [] }))) s

/-- HEAT_STOP: the register is written; it acts at the next tick. -/
def cmdHeatStop (s : State) (p n v : Nat) : State :=
  s.winWrite p n heatStopOff (fun s =>
    s.modHeatRegs n (fun r => { r with stops := r.stops ++ [(natBits v 31 16, natBits v 15 0)] }))

/-- The contexts of heats whose command is gone end with it (R562, last row). -/
def heatSweep (s : State) : State :=
  s.heats.foldl (fun s h =>
    if (s.adm? h.id).isSome then s else (s.freeCores h).dropHeat h.id) s

/-- RESET_DRAIN of a slice: a heat up to LOADING, RUNNING or SUSPENDED completes with HEAT_STOPPED
(R562). -/
def heatDrain (s : State) (n : Nat) : State :=
  let s := (s.heats.filter (fun h => h.id.slice = n && decide (h.st ≠ .delivering))).foldl
    (fun s h => s.heatEnd h (.vendor 0x46)) s
  ((s.slice n).adms.filter (fun a => !a.admin && a.ent.opc = 0x86 && (s.heat? a.id).isNone)).foldl
    (fun s a => s.failCmd a.id (.vendor 0x46)) s

/-- FREEZE suspends the running heats of a slice at the next tick (R562). -/
def heatSuspend (s : State) (n : Nat) : State :=
  (s.heats.filter (fun h => h.id.slice = n && h.st = .running)).foldl (fun s h =>
    let s := s.modHeat h.id (fun h => { h with st := .suspended })
    h.cores.foldl (fun s c => s.modCore c (fun k =>
      if k.marshal then k else { enter k 7 2 k.pc 0 with hold := .suspended })) s) s

/-- THAW resumes them, a pending stop first. A core whose budget a lap boundary has refilled in the meantime goes on as well
(R578). -/
def heatThaw (s : State) (n : Nat) : State :=
  (s.heats.filter (fun h => h.id.slice = n && h.st = .suspended)).foldl (fun s h =>
    if h.stopWanted then s.heatEnd h (.vendor 0x46)
    else
      let s := s.modHeat h.id (fun h => { h with st := .running })
      h.cores.foldl (fun s c =>
        if (s.core c).hold = .suspended || ((s.core c).hold = .budget && decide (0 < (s.core c).cyc.toInt)) then s.resume c
        else s) s) s

/-- Does a heat keep its slice in FREEZING (R563)? -/
def heatBlocks (s : State) (n : Nat) : Bool :=
  s.heats.any (fun h => h.id.slice = n && (h.st = .checking || h.st = .loading || h.st = .delivering))

/-- May an admitted command stay admitted while its slice is FROZEN (R563)? -/
def heatStays (s : State) (c : CmdId) : Bool :=
  match s.heat? c with
  | some h => h.st = .suspended || h.st = .staging || h.st = .waitCores
  | none => false

/-- HEAT_BUDGET in force. -/
def heatBudget (s : State) (n : Nat) : Nat := s.rwNat (winKey n heatBudgetOff) 0x1E8480

/-- The budget refill of a lap boundary (R577, R578): every core the slices hold. -/
def budgetRefill (s : State) : State :=
  s.slices.foldl (fun s p =>
    let b : Int := s.heatBudget p.1
    p.2.cores.foldl (fun s c =>
      let k := s.core c
      let v := min b (k.cyc.toInt + b)
      let s := s.setCore c { k with cyc := BitVec.ofInt 64 v }
      if k.hold = .budget && decide (0 < v) then
        match s.heatOn c with
        | some (h, _) => if h.st = .running then s.resume c else s
        | none => s.resume c
      else s) s) s

/-- The lap count of running heats, and the limits it reaches (R579, R580). -/
def heatLap (s : State) : State :=
  s.heats.foldl (fun s h =>
    if h.st = .running then (s.modHeat h.id (fun h => { h with laps := h.laps + 1 })).heatLapLimit h.id
    else s) s

/-- Tenant cores that a double fault halted are reset (R496, R593). -/
def coreResets (s : State) : State :=
  s.cores.foldl (fun s p =>
    if p.2.dfault && isTenant p.1 && (s.heatOn p.1).isNone then
      (s.setCore p.1 { cyc := p.2.cyc }).ev 0x1702 (s.coreSrc p.1) (item 1 p.1)
    else s) s

/-- STATE of NCL_CORE_k (R591). -/
def nclState (s : State) (c : Nat) : Nat :=
  if !s.corePresent c then 0
  else if (s.coreOwner c).isNone then 1
  else
    let k := s.core c
    if k.dfault || k.halted then 7
    else if k.loading then 3
    else if k.hold = .budget then 5
    else match s.heatOn c with
      | some (h, _) => if h.st = .suspended then 6 else 4
      | none => 2

end State

end Sys2Proof.Machine
end

