-- ==== Sys2Proof/Machine/Keys.lean ====
section
/-! DEFINITION. The key store: slots and their changes, Key Delivery, the public-key unit, enrolment,
attestation, security alarms and Sanitize (R411, R741 to R763, R777 to R795). -/

namespace Sys2Proof.Machine

/-! ### Slots (R741 to R747) -/

/-- Which uses a key of a type may have (R745): bit by bit. -/
def useFits (k512 : Bool) (use : Nat) : Bool :=
  if k512 then natBits use 7 2 = 0 && natBits use 31 12 = 0 else natBits use 1 0 = 0 && natBits use 31 11 = 0

/-- USE and CHILD of a key for a slice-local slot (R745, R747): slot 0 holds only the media key. -/
def keyAttrOk (slot : Nat) (k512 : Bool) (use child : Nat) : Bool :=
  decide (use ≠ 0) && useFits k512 use && !natBit child 11 &&
  (if slot = 0 then use = 0x800 && child = 0 else !natBit use 11)

/-- The fingerprint of a key (R773). -/
def keyPrint (value : Bytes) : Bytes := Config.kmac value [] 16 "MB6400 key fingerprint"

/-- INSTALL_ID stops here (R721, R746). -/
def lastInstall : Nat := 0xFFFFFF

/-- The key with its keyed states computed (R748). -/
def Key.cached (k : Key) : Key :=
  { k with
    hmacs := if natBit k.use 8 then [256, 384, 512].map (fun b => hmacKeyed b k.value) else []
    kmacs := if natBit k.use 9 || natBit k.use 10 then ["", "KDF"].map (Config.kmacKeyed k.value) else [] }

/-- The key as installed while N is `n` (R720, R721, R745, R746, R748). -/
def NewKey.installed (k : NewKey) (n : Nat) : Key :=
  let full := decide (lastInstall ≤ n)
  let c := if k.k512 then 0 else if full then 2 ^ 64 - 1 else n * 2 ^ 40
  Key.cached
    { k512 := k.k512, use := k.use, child := k.child, install := min n lastInstall, counter := c,
      limit := if k.k512 then 0 else if full then 2 ^ 64 - 1 else (n + 1) * 2 ^ 40,
      recEnd := if k.k512 || full then c else c + 2 ^ 20, spentSeen := full, value := k.value }

/-- The key slots that an admitted command names (R749): a Cipher Transform's, and a Digest's key and
destination. -/
def namedSlots (a : Adm) : List Nat :=
  if a.admin then []
  else if a.ent.opc = 0x93 then [natBits a.ent.cdw10.toNat 31 16]
  else if a.ent.opc = 0x95 then
    let alg := natBits a.ent.cdw10.toNat 7 0
    (if 8 ≤ alg then [natBits a.ent.cdw10.toNat 31 16] else []) ++
    (if 0xC ≤ alg then [natBits a.ent.cdw12.toNat 31 16] else [])
  else []

namespace State

/-- The key of a slice-local slot. -/
def keyAt (s : State) (n slot : Nat) : Option Key := tget (s.keysOf n).keys slot

/-- The slice's key slot total T (R742). -/
def keyTotal (s : State) (n : Nat) : Nat := (s.slice n).keySlots

/-- Install a key, whose record has both its copies (R746, R751). Slot 0 is the media key (R407). -/
def installKey (s : State) (n slot : Nat) (k : NewKey) : State :=
  let d := s.sysChoose
  let key := { k.installed s.kst.installs with copies := d.1 }
  let s := d.2
  let s := s.modKeys n (fun x => { x with keys := tset x.keys slot key })
  let s := s.setKst { s.kst with installs := min lastInstall (s.kst.installs + 1) }
  let s := if key.spentSeen && !k.k512 then s.ev 0x2901 n (item 2 slot) else s
  if slot = 0 then s.modSlice n (fun x => { x with mediaKey := some (leNat k.value) }) else s

def eraseKey (s : State) (n slot : Nat) : State :=
  let s := s.modKeys n (fun x => { x with keys := tdel x.keys slot })
  if slot = 0 then s.modSlice n (fun x => { x with mediaKey := none }) else s

/-- Zero every slot of a slice and raise its INCARNATION (R752). -/
def dropKeys (s : State) (n : Nat) : State :=
  (s.modKeys n (fun x => { x with keys := [], incarnation := x.incarnation + 1 })).modSlice n
    (fun x => { x with mediaKey := none })

/-! ### Changes (R749, R751) -/

/-- Begin a change of slots: its records are being written. -/
def beginChange (s : State) (n : Nat) (t : Stamp) (ents : List (Nat × Option NewKey)) (c : CmdId)
    (delivery : Option Bytes) : State :=
  let k : KeyChange := { id := s.kst.nextChange, slice := n, stamp := t, ents := ents, cmd := c,
                         delivery := delivery }
  s.setKst { s.kst with changes := s.kst.changes ++ [k], nextChange := s.kst.nextChange + 1 }

/-- Does a change wait for an earlier-stamped command that names one of its slots? -/
def changeWaits (s : State) (k : KeyChange) : Bool :=
  (s.slice k.slice).adms.any (fun a => decide (a.id ≠ k.cmd) && a.stamp.before k.stamp &&
    (namedSlots a).any (fun i => k.ents.any (fun e => e.1 = i)))

/-- The bytes of SRAM array 0x51 that hold a slot's word and can not be corrected (R754). -/
def badWords (s : State) (n slot : Nat) : List Nat :=
  ((s.arr 0x51).raws.filter (fun r => decide (Config.keyWord r.1 = (n, slot)) && (s.memByte 0x51 r.1).2.2)).map Prod.fst

/-- Must a command stamped `t` that names a slot wait: for an earlier change (R749), or for the reload of a slot whose
word is uncorrectable (R754)? -/
def slotHeld (s : State) (n slot : Nat) (t : Stamp) : Bool :=
  s.kst.changes.any (fun k => k.slice = n && k.stamp.before t && k.ents.any (fun e => e.1 = slot)) ||
  decide (s.badWords n slot ≠ [])

def applyChange (s : State) (n : Nat) : List (Nat × Option NewKey) → State
  | [] => s
  | (slot, some k) :: t => applyChange (s.installKey n slot k) n t
  | (slot, none) :: t => applyChange (s.eraseKey n slot) n t

/-- KEY_CHANGE_EFFECT: both copies of the change's records are durable, and it takes effect unless an
earlier command still names a slot (R749, R751, R762, R763, R772). -/
def keyChangeEffect (s : State) (id : Nat) : State :=
  match s.kst.changes.find? (fun k => k.id = id) with
  | none => s
  | some k =>
    let drop (s : State) : State := s.setKst { s.kst with changes := s.kst.changes.filter (fun x => decide (x.id ≠ id)) }
    if (s.adm? k.cmd).isNone then drop s
    else if s.changeWaits k || !s.systemAreaWritable then s
    else
      let n := k.slice
      let first := s.kst.installs
      let s := drop (s.applyChange n k.ents)
      match k.delivery with
      | none => s.finish k.cmd .success (BitVec.ofNat 32 (min first lastInstall))
      | some hdr =>
        let seq := (s.keysOf n).seq
        let s := s.modKeys n (fun x => { x with seq := x.seq + 1 })
        (((s.sliceLog n 0x0011 (leBytes 8 seq) hdr).ev 0x0A00 n
          (item 5 seq ++ item 1 (leAt hdr 6 2))).finish k.cmd .success)

/-! ### Key Delivery (R757 to R763) -/

/-- Offset of the first header field that fails check 4 (R758, R760). -/
def deliveryBad (s : State) (n : Nat) (bs : Bytes) : Option Nat :=
  if leAt bs 0 4 ≠ 0x4D424B31 then some 0
  else if leAt bs 4 2 ≠ 1 then some 4
  else if leAt bs 6 2 < 1 || 16 < leAt bs 6 2 then some 6
  else if leAt bs 0x12 6 ≠ 0 then some 0x12
  else if !allZero (bytesAt bs 0x20 32) then some 0x20
  else if leAt bs 8 8 ≠ s.deviceId.toNat then some 8
  else if leAt bs 0x10 2 ≠ n then some 0x10
  else none

/-- KEY_DELIVERY: checks 1 to 5; the decapsulation is a job of the public-key unit. -/
def keyDelivery (s : State) (c : CmdId) (d : Fetch) : State :=
  s.onAdmin c 0xC1 (fun a =>
    let len := a.ent.cdw11.toNat
    if a.ent.nsid ≠ 0 || a.ent.cdw10 ≠ 0 || a.ent.cdw12 ≠ 0 || a.ent.cdw13 ≠ 0 || a.ent.cdw14 ≠ 0 ||
       a.ent.cdw15 ≠ 0 || len < 1744 || 2944 < len then s.finish c .invalidField
    else match d with
      | .failAt _ => (s.finish c .dataTransferError).ev 0x1203 c.slice
      | .ok bs => s.arrive c a.ent.dptr.ranges (fun s =>
        let bs := padTo len (s.gather c.slice a.ent.dptr.ranges bs)
        if len ≠ 1664 + 80 * leAt bs 6 2 then s.finish c (.vendor 0x02)
        else match s.deliveryBad c.slice bs with
          | some o => s.finish c (.vendor 0x8C) (BitVec.ofNat 32 o)
          | none =>
            let seq := (s.keysOf c.slice).seq
            if leAt bs 0x18 8 ≠ seq then
              s.finish c (.vendor 0x8D) (BitVec.ofNat 32 seq) (BitVec.ofNat 32 (seq / 2 ^ 32))
            else (s.modAdm c (fun a => { a with started := true })).setKst
              { s.kst with jobs := s.kst.jobs ++ [.decap c bs] }))

/-- One entry of a delivery (check 7): its slot and change, or the offset that fails. -/
def deliveryEntry (s : State) (n : Nat) (kek bs : Bytes) (used : List Nat) (o : Nat) :
    Except Nat (Nat × Option NewKey) :=
  let slot := leAt bs o 2
  let op := leAt bs (o + 2) 1
  let type := leAt bs (o + 3) 1
  let attr := leAt bs (o + 4) 4
  let w := bytesAt bs (o + 8) 72
  if s.keyTotal n ≤ slot || used.contains slot then .error o
  else if op = 2 then
    if type ≠ 0 then .error (o + 3)
    else if attr ≠ 0 then .error (o + 4)
    else if !allZero w then .error (o + 8)
    else .ok (slot, none)
  else if op ≠ 1 then .error (o + 2)
  else if type ≠ 1 && type ≠ 2 then .error (o + 3)
  else
    let k512 := decide (type = 2)
    let use := natBits attr 11 0
    let child := natBits attr 23 12
    if natBits attr 31 24 ≠ 0 || !keyAttrOk slot k512 use child then .error (o + 4)
    else if !k512 && !allZero (w.drop 40) then .error (o + 8)
    else match Config.unwrap kek (w.take (if k512 then 72 else 40)) with
      | none => .error (o + 8)
      | some v =>
        if v.length ≠ (if k512 then 64 else 32) then .error (o + 8)
        else if slot = 0 && v.take 32 = v.drop 32 then .error (o + 8)
        else .ok (slot, some { k512 := k512, use := use, child := child, value := v })

def deliveryEntries (s : State) (n : Nat) (kek bs : Bytes) (used : List Nat) :
    List Nat → Except Nat (List (Nat × Option NewKey))
  | [] => .ok []
  | o :: t =>
    match s.deliveryEntry n kek bs used o with
    | .error e => .error e
    | .ok x =>
      match deliveryEntries s n kek bs (x.1 :: used) t with
      | .error e => .error e
      | .ok xs => .ok (x :: xs)

/-- The end of a delivery's decapsulation: checks 6 to 8, and then its records are written. -/
def deliveryOpen (s : State) (c : CmdId) (bs : Bytes) : State :=
  match s.adm? c with
  | none => s
  | some a =>
    let n := c.slice
    let count := leAt bs 6 2
    let tagAt := 0x660 + 80 * count
    let kdf := padTo 64 (Config.kmac (Config.kemDecap (s.keysOf n).pair (bytesAt bs 0x40 1568)) (bs.take 64) 64
      "MB6400 key delivery")
    if Config.kmac (kdf.drop 32) (bs.take tagAt) 32 "MB6400 delivery tag" ≠ bytesAt bs tagAt 32 then
      (s.finish c (.vendor 0x8C) (BitVec.ofNat 32 tagAt)).ev 0x2A02 n
    else match s.deliveryEntries n (kdf.take 32) bs [] ((List.range count).map (fun i => 0x660 + 80 * i)) with
      | .error o => s.finish c (.vendor 0x8C) (BitVec.ofNat 32 o)
      | .ok ents =>
        if ents.any (fun e => e.1 = 0 && (e.2.isNone || (s.keyAt n 0).isSome)) then s.finish c (.vendor 0x8E)
        else s.beginChange n a.stamp ents c (some (bs.take 64))

/-! ### Attestation (R786 to R795) -/

/-- The size of a report (R792). -/
def reportSize (s : State) (n sel : Nat) : Nat :=
  1792 + (if natBit sel 0 then 64 * s.kst.log.ents.length else 0) +
    (if natBit sel 1 then 64 * (s.keysOf n).log.ents.length else 0) + (if natBit sel 2 then 29936 else 0) + 49856

/-- The report before its signature (R793). -/
def reportBody (s : State) (n : Nat) (e : SqEntry) : Bytes :=
  let sel := e.cdw10.toNat
  let k := s.keysOf n
  let dl := if natBit sel 0 then s.kst.log.ents else []
  let sl := if natBit sel 1 then k.log.ents else []
  let cert := if natBit sel 2 then certificate else []
  let flags := flagAt s.debugUnlock 0 + flagAt s.faultInject 1 + flagAt s.kst.log.exceeded 2 + flagAt k.log.exceeded 3 +
    flagAt (s.slice n).mediaKey.isSome 4 + 32 * (sel % 8)
  let epoch := match s.crs.inForce with
    | some c => c.epoch
    | none => 0
  let cseq := match s.crs.inForce with
    | some c => c.sequence
    | none => 0
  leBytes 4 0x4D424131 ++ leBytes 2 1 ++ leBytes 2 flags ++ leBytes 8 s.deviceId.toNat ++ leBytes 2 n ++
    leBytes 2 0 ++ leBytes 1 s.dur.fusedEpoch ++ leBytes 1 epoch ++ leBytes 1 s.dev.image ++
    leBytes 1 s.dur.fwFusedEpoch ++ leBytes 8 cseq ++ leBytes 8 s.stride ++
    leBytes 4 e.cdw12.toNat ++ leBytes 4 e.cdw13.toNat ++ leBytes 4 e.cdw14.toNat ++ leBytes 4 e.cdw15.toNat ++
    leBytes 8 k.seq ++ s.kst.log.meas ++ k.log.meas ++ leBytes 4 dl.length ++ leBytes 4 sl.length ++
    leBytes 4 cert.length ++ leBytes 4 0 ++ attestPk ++ encapKey k.pair ++ List.replicate 16 0 ++
    dl.flatten ++ sl.flatten ++ cert

/-- ATTESTATION_REPORT: its checks; the signature is a job of the public-key unit. -/
def attestationReport (s : State) (c : CmdId) : State :=
  s.onAdmin c 0xC2 (fun a =>
    let sel := a.ent.cdw10.toNat
    if a.ent.nsid ≠ 0 || natBits sel 31 3 ≠ 0 then s.finish c .invalidField
    else if a.ent.cdw11.toNat < s.reportSize c.slice sel then
      s.finish c (.vendor 0x8F) (BitVec.ofNat 32 (s.reportSize c.slice sel))
    else (s.modAdm c (fun a => { a with started := true })).setKst
      { s.kst with jobs := s.kst.jobs ++ [.sign c none] })

/-- The signature ends: the report is written (R795). -/
def reportSigned (s : State) (c : CmdId) (body : Bytes) : State :=
  match s.adm? c with
  | none => s
  | some a =>
    let bs := body ++ padTo 49856 (Config.slhSign body)
    (s.ev 0x0A02 c.slice).respond c { ranges := a.ent.dptr.ranges, data := bs, dw0 := BitVec.ofNat 32 bs.length }

/-! ### Enrolment (R784, R785) -/

/-- The RESULT of an enrolment record; the slot it programs where it is accepted. -/
def enrolCheck (s : State) (bs : Bytes) : Except Nat Nat :=
  let slot := leAt bs 6 1
  let sig := bytesAt bs 0x30 sigBlock
  let pk := bytesAt sig 8 64
  let first := s.dur.ownerFuses = [] && slot = 0 && allZero sig
  if leAt bs 0 4 ≠ 0x4D424531 || leAt bs 4 2 ≠ 1 || 3 < slot || leAt bs 7 1 ≠ 0 || !allZero (bytesAt sig 1 7) ||
     3 < leAt sig 0 1 then .error 0x02
  else if leAt bs 8 8 ≠ s.deviceId.toNat then .error 0x03
  else if (tget s.dur.ownerFuses slot).isSome then .error 0x04
  else if first then .ok slot
  else match tget s.dur.ownerFuses (leAt sig 0 1) with
    | none => .error 0x05
    | some f =>
      if f.revoked || decide (Config.sha3_256 pk ≠ f.digest) then .error 0x05
      else if Config.slhVerify pk (bs.take 0x30) (bytesAt sig 0x48 29792) then .ok slot
      else .error 0x06

/-- An enrolment ends: the fuses are blown, or it is refused (R785). -/
def enrolDone (s : State) (bs : Bytes) : State :=
  match s.enrolCheck bs with
  | .error r => (s.setKst { s.kst with enrolBusy := false, enrolResult := r }).ev 0x2A05 noSlice (item 1 r)
  | .ok slot =>
    let f : OwnerFuse := { digest := bytesAt bs 0x10 32, revoked := natBit s.dur.ownerRevoked slot }
    let s := { s with dur := { s.dur with ownerFuses := tset s.dur.ownerFuses slot f } }
    let s := s.setKst { s.kst with enrolBusy := false, enrolResult := 0 }
    (s.devLog 0x0005 (leBytes 2 slot) bs).ev 0x0A01 noSlice

/-- GO (R784): the write of KST_ENROL_CMD, with what the fetch of the record brings. -/
def enrolGo (s : State) (req : Requester) (d : Fetch) : State :=
  s.bar0Write req 0x1380028 (fun s =>
    if s.kst.enrolBusy then s.setKst { s.kst with enrolRefused := true }
    else match d with
      | .failAt _ => (s.setKst { s.kst with enrolResult := 1 }).ev 0x2A05 noSlice (item 1 1)
      | .ok bs => s.setKst { s.kst with enrolBusy := true, jobs := s.kst.jobs ++ [.enrol (padTo 29912 bs)] })

/-! ### The public-key unit (R780, R781) -/

/-- The class of a job. -/
def pkClass : PkKind → Nat
  | .course => 1
  | .enrol _ => 1
  | .keygen _ _ => 2
  | .decap _ _ => 2
  | .sign _ _ => 3
  | .link _ _ _ => 3

/-- The job that runs: the first of the lowest class. -/
def pkCurrent (s : State) : Option PkKind :=
  match s.kst.jobs.filter (fun j => pkClass j = 1), s.kst.jobs.filter (fun j => pkClass j = 2), s.kst.jobs with
  | j :: _, _, _ => some j
  | [], j :: _, _ => some j
  | [], [], j :: _ => some j
  | [], [], [] => none

/-- Jobs of commands that are gone end with them, and a report that begins to be signed at this tick
takes its snapshot (R794). -/
def pkTick (s : State) : State :=
  let live (j : PkKind) : Bool := match j with
    | .course => s.crs.state = .loading
    | .enrol _ => true
    | .keygen n _ => s.slc.op.any (fun p => p.op = .create && p.slice = n)
    | .decap c _ => (s.adm? c).isSome
    | .sign c _ => (s.adm? c).isSome
    | .link p _ _ => (s.rlyPort p).st = .keying
  let s := s.setKst { s.kst with jobs := s.kst.jobs.filter live }
  if s.kst.state ≠ .ready then s
  else match s.pkCurrent with
    | some (.sign c none) =>
      match s.adm? c with
      | some a =>
        let j := PkKind.sign c (some (s.reportBody c.slice a.ent))
        s.setKst { s.kst with jobs := s.kst.jobs.map (fun x => if x = .sign c none then j else x) }
      | none => s
    | _ => s

/-- PK_JOB_COMPLETE (R781): the running job ends. A signing job that has not begun does not, and a course's ends with
COURSE_VALIDATION_END. The end of a key generation is in `pkJobEnd`. -/
def pkComplete (s : State) : State :=
  if s.kst.state ≠ .ready then s
  else match s.pkCurrent with
    | none => s
    | some j =>
      let t := s.setKst { s.kst with jobs := s.kst.jobs.filter (fun x => decide (x ≠ j)) }
      match j with
      | .course => s
      | .keygen _ _ => s
      | .enrol bs => t.enrolDone bs
      | .decap c bs => t.deliveryOpen c bs
      | .sign c (some body) => t.reportSigned c body
      | .sign _ none => s
      | .link p ty body => t.linkSigned p ty body

/-! ### Security alarms (R777 to R779) -/

/-- The alarms of the last 1,000 laps (R797 WINDOW). -/
def alarmWindow (s : State) : Nat := (s.kst.alarms.filter (fun t => decide (s.stride < t + 4000000))).length

/-- The cipher engine's own part of an alarm (R735). -/
def cipherAlarm (s : State) (src : Nat) (slice : Nat := noSlice) : State :=
  ({ s with cph := { s.cph with alarm := true, lastAlarm := src } }).ev 0x2900 slice (item 1 src)

/-- Every digest and cipher command past its first unit completes with its alarm status; the units,
the key schedules and the staging buffers are cleared (R735, R736, R775, R778). -/
def alarmClear (s : State) : State :=
  let s := (s.dgs.runs.filter (fun r => r.unit.isSome)).foldl (fun s r => s.failCmd r.id (.vendor 0x8A)) s
  let s := (s.cph.runs.filter (fun r => r.begun)).foldl (fun s r => s.failCmd r.id (.vendor 0x86)) s
  { s with dgs := { s.dgs with runs := s.dgs.runs.filter (fun r => r.unit.isNone) },
           cph := { s.cph with runs := s.cph.runs.filter (fun r => !r.begun) } }

/-- The jobs of the public-key unit start afresh. -/
def pkRestart (s : State) : State :=
  s.setKst { s.kst with jobs := s.kst.jobs.map (fun j => match j with
    | .sign c _ => .sign c none
    | j => j) }

/-- SECURITY_ALARM (R777, R778); the sixteenth within 1,000 laps is a device fault (R779). -/
def securityAlarm (s : State) (src : Nat) : State :=
  let s := s.setKst { s.kst with alarms := s.stride :: s.kst.alarms, lastAlarm := src, alarm := true,
                                 state := .suspended }
  let s := (((s.ev 0x2A00 noSlice (item 1 src)).cipherAlarm 4).alarmClear).pkRestart
  if 16 ≤ s.alarmWindow then s.raiseFault 2 else s

/-- A lap boundary at which no source persists: the key store resumes (R778). -/
def kstLap (s : State) : State :=
  let s := s.setKst { s.kst with alarms := s.kst.alarms.filter (fun t => decide (s.stride < t + 4000000)) }
  if s.kst.state = .suspended then (s.setKst { s.kst with state := .ready }).ev 0x0A03 noSlice else s

/-! ### Sanitize (R268, R411, R752) -/

/-- The end of a Sanitize: the units are trimmed. A crypto erase destroys the media key and raises INCARNATION; the other
keys are kept under the new record key. -/
def sanitizeEnd (s : State) (c : CmdId) (a : Adm) : State :=
  let n := c.slice
  let s := (s.slice n).nss.foldl (fun s p => s.dropNsEntries n p.1 a.stamp) s
  let s := if natBits a.ent.cdw10.toNat 2 0 = 4 then
      (s.eraseKey n 0).modKeys n (fun x => { x with incarnation := x.incarnation + 1 })
    else s
  s.finish c .success

/-- SANITIZE of the slice's namespaces by block erase (2) or crypto erase (4), at its own stamp. -/
def sanitize (s : State) (c : CmdId) : State :=
  s.onAdmin c 0x84 (fun a =>
    let act := natBits a.ent.cdw10.toNat 2 0
    let n := c.slice
    if act = 1 then s.finish c .success
    else if act ≠ 2 && act ≠ 4 then s.finish c .invalidField
    else
      let ids := (s.slice n).nss.map Prod.fst
      if s.ioSettled n ids a.stamp then s.trimBegin c ids (fun s => s.sanitizeEnd c a) else s)

/-- A command whose TRIM records are durable acts and completes (R268). -/
def trimEnd (s : State) (a : Adm) : State :=
  if a.ent.opc = 0x80 then s.formatEnd a.id a
  else if a.ent.opc = 0x84 then s.sanitizeEnd a.id a
  else s.deleteEnd a.id a

/-- The commands of a slice whose TRIM records have become durable. -/
def trimTick (s : State) (n : Nat) : State :=
  ((s.slice n).adms.filter (fun a => a.jwait.any (fun q => decide (q ≤ s.ftl.jseq)))).foldl trimEnd s

/-! ### Reloads (R724, R753) -/

/-- A key reloaded from its record: COUNTER resumes at the recorded end. -/
def Key.reload (k : Key) : Key := Key.cached { k with counter := min k.limit k.recEnd }

/-- Key-store SRAM was lost and every slot is reloaded from its records; the field key's COUNTER resumes likewise
(R810). -/
def reloadKeys (s : State) : State :=
  { s with rly := { s.rly with nonce := match s.rly.key with
                                 | some k => tgetD s.dur.nonceEnds k.id s.rly.nonce
                                 | none => s.rly.nonce }
           sliceKeys := tmap s.sliceKeys (fun _ x => { x with keys := tmap x.keys (fun _ k => Key.reload k) }) }

/-- A copy of the key's record can be read (R350). -/
def keyReadable (s : State) (k : Key) : Bool := match k.copies with
  | some d => s.dieInUse d.1 || s.dieInUse d.2
  | none => false

/-- A slot with an uncorrectable word at a lap boundary (R754): reloaded from its record, or emptied. -/
def reloadSlot (s : State) (n slot : Nat) (k : Key) : State :=
  match s.badWords n slot with
  | [] => s
  | bad =>
    let s := s.modArr 0x51 (fun m => { m with raws := bad.foldl (fun r o => tdel r o) m.raws })
    if s.keyReadable k then s.modKeys n (fun x => { x with keys := tset x.keys slot (Key.reload k) })
    else (s.eraseKey n slot).ev 0x1A00 n (item 2 slot)

/-- The counter records that could not be written are tried again at a lap boundary (R735 source 0x2). -/
def recordRetry (s : State) : State :=
  s.sliceKeys.foldl (fun s p => p.2.keys.foldl (fun s q =>
    if q.2.recHeld && s.systemAreaWritable then
      let d := s.sysChoose
      d.2.modKeys p.1 (fun x => { x with keys := tmod x.keys q.1 (fun k =>
        { k with recEnd := min k.limit (k.recEnd + 2 ^ 20), recHeld := false, copies := d.1 }) })
    else s) s) s

/-- The key store at a lap boundary (R754). -/
def keyLap (s : State) : State :=
  if (s.arr 0x51).raws.isEmpty then s
  else s.sliceKeys.foldl (fun s p => p.2.keys.foldl (fun s q => s.reloadSlot p.1 q.1 q.2) s) s

end State

end Sys2Proof.Machine
end

