-- ==== Sys2Proof/Machine/Cipher.lean ====
section
/-! DEFINITION. The cipher engine: the checks of Cipher Transform, the dealing of AES cores, nonces, the
modes, decryption staging and completion (R698 to R736). -/

namespace Sys2Proof.Machine

/-- The command's fields (R708). -/
def cphMode (e : SqEntry) : Nat := natBits e.cdw10.toNat 3 0
def cphDec (e : SqEntry) : Bool := natBit e.cdw10.toNat 4
def cphKey (e : SqEntry) : Nat := natBits e.cdw10.toNat 31 16
def cphLen (e : SqEntry) : Nat := e.cdw11.toNat
def cphAad (e : SqEntry) : Nat := e.cdw12.toNat
def cphDu (e : SqEntry) : Nat := e.cdw13.toNat
def cphTweak (e : SqEntry) : Nat := e.cdw15.toNat * 2 ^ 32 + e.cdw14.toNat
/-- DEST_ADDR, OUT_ADDR and REC_ADDR of the engine commands: CDW2 and CDW3. -/
def destAddr (e : SqEntry) : Nat := e.cdw3.toNat * 2 ^ 32 + e.cdw2.toNat / 8 * 8

/-- Does the source end with a trailer (R709)? -/
def cphTrailer (e : SqEntry) : Bool := cphDec e && decide (cphMode e ≠ 1)
def cphSrcLen (e : SqEntry) : Nat := cphAad e + cphLen e + (if cphTrailer e then 32 else 0)
/-- The destination length (R709). -/
def cphDestLen (e : SqEntry) : Nat := cphLen e + (if !cphDec e && decide (cphMode e ≠ 1) then 32 else 0)

/-- The batches of a command: AAD and data, and one at least. -/
def cphBatches (e : SqEntry) : Nat := max 1 (ceilDiv (cphAad e + cphLen e) 1024)

/-- Do two host ranges meet? -/
def rangesMeet (a b : Nat × Nat) : Bool := meets' a b
where meets' (a b : Nat × Nat) : Bool := decide (a.1 < b.1 + b.2) && decide (b.1 < a.1 + a.2)

/-- The limits of R712. It gives none for the AAD of CTR, which no check refuses and no mode uses. -/
def cphLimits (e : SqEntry) : Bool :=
  let m := cphMode e
  let l := cphLen e
  if m = 1 then decide (512 ≤ cphDu e) && decide (cphDu e ≤ 65536) && cphDu e % 16 = 0 &&
    decide (cphDu e ≤ l) && decide (l ≤ 16777216) && l % cphDu e = 0
  else decide (l ≤ 16777216) && (if m = 4 then decide (1 ≤ l) else decide (cphAad e ≤ 1048576))

namespace State

/-- Pool AES cores that no slice has drawn (R701). -/
def aesPool (s : State) : List Nat := s.poolFree resAes 512
/-- G and Q of a slice (R702, R730). -/
def aesGuarantee (s : State) (n : Nat) : Nat := s.aesTotal n * s.aesPool.length * 4000 / 256
def aesQuota (s : State) (n : Nat) : Nat := s.aesTotal n * s.aesPool.length / 256

/-- Check 8: the key's size suits the mode and its USE permits mode and direction. -/
def keySuits (k : Key) (e : SqEntry) : Bool :=
  (k.k512 == decide (cphMode e = 1)) && natBit k.use (2 * (cphMode e - 1) + (if cphDec e then 1 else 0))

/-- Checks 1 to 8 (R711), made at admission. -/
def cipherChecks1 (s : State) (n : Nat) (e : SqEntry) : Option Status :=
  let m := cphMode e
  if natBits e.cdw10.toNat 15 5 ≠ 0 || natBits e.cdw2.toNat 2 0 ≠ 0 || e.nsid ≠ 0 || m < 1 || 4 < m ||
     (decide (m = 1) && decide (cphAad e ≠ 0)) || (decide (m = 3) && decide (cphLen e ≠ 0)) ||
     (decide (m ≠ 1) && (decide (cphDu e ≠ 0) || decide (cphTweak e ≠ 0))) ||
     (decide (destAddr e = 0) != decide (cphDestLen e = 0)) then some .invalidField
  else if (s.slice n).aes = [] && s.aesTotal n = 0 then some (.vendor 0x04)
  else if !cphLimits e then some (.vendor 0x80)
  else if e.dptr.sgl && decide (ptrLen e.dptr ≠ cphSrcLen e) then some (.vendor 0x02)
  else if !s.cmbUseOk n (destAddr e, cphDestLen e) || !s.pointerPlaced n e.dptr then some .invalidCmb
  else if s.keyTotal n ≤ cphKey e then some .invalidField
  else match s.keyAt n (cphKey e) with
    | none => some (.vendor 0x81)
    | some k => if keySuits k e then none else some (.vendor 0x82)

/-- Check 10: the trailer of a decryption or verification (R710). -/
def trailerOk (e : SqEntry) (t : Bytes) : Bool :=
  leAt t 0xC 1 = cphMode e && leAt t 0xD 3 = 0 && (decide (cphMode e ≠ 4) || allZero (t.drop 16))

def modCipher (s : State) (c : CmdId) (f : CipherRun → CipherRun) : State :=
  { s with cph := { s.cph with runs := s.cph.runs.map (fun r => if r.id = c then f r else r) } }
def dropCipher (s : State) (c : CmdId) : State :=
  { s with cph := { s.cph with runs := s.cph.runs.filter (fun r => decide (r.id ≠ c)) } }

/-- A command whose run is not known yet has one. -/
def cipherKnown (s : State) (c : CmdId) (a : Adm) : State :=
  if s.cph.runs.any (fun r => r.id = c) then s
  else { s with cph := { s.cph with runs := s.cph.runs ++ [{ id := c, stamp := a.stamp, total := cphBatches a.ent }] } }

/-- The source of a command is in device memory. -/
def cipherSource (s : State) (c : CmdId) (a : Adm) (bs : Bytes) : State :=
  (s.cipherKnown c a).modCipher c (fun r => if r.src.isSome then r else { r with src := some (padTo (cphSrcLen a.ent) bs) })

/-- CIPHER_TRANSFORM: checks 1 to 8. A source in the CMB, or of no bytes, is in device memory at once. -/
def cipherTransform (s : State) (c : CmdId) : State :=
  s.onEngine c 0x93 (fun a =>
    match s.cipherChecks1 c.slice a.ent with
    | some st => (s.dropCipher c).failCmd c st
    | none =>
      if a.ent.dptr.ranges.all (fun r => s.inPortion c.slice r.1 r.2) then
        s.arrive c a.ent.dptr.ranges (fun s => s.cipherSource c a (s.gather c.slice a.ent.dptr.ranges []))
      else s.cipherKnown c a)

/-- CIPHER_TRAILER_ARRIVAL: the source, its trailer included, is in device memory. -/
def cipherArrival (s : State) (c : CmdId) (d : Fetch) : State :=
  s.onEngine c 0x93 (fun a =>
    match d with
    | .failAt _ => ((s.dropCipher c).failCmd c .dataTransferError).ev 0x1203 c.slice
    | .ok bs => s.arrive c a.ent.dptr.ranges (fun s => s.cipherSource c a (s.gather c.slice a.ent.dptr.ranges bs)))

/-! ### Staging buffers (R727, R730) -/

/-- The buffers held, of a kind and of a slice. -/
def stagingHeld (s : State) (n : Option Nat) (k : Staging) : Nat :=
  (s.cph.runs.filter (fun r => r.staging.any (fun b => b.1 = k) && (n.isNone || n = some r.id.slice))).length

/-- Is buffer `i` neither held nor withdrawn? -/
def bufferFree (s : State) (i : Nat) : Bool :=
  !s.cph.withdrawn.contains i && !s.cph.runs.any (fun r => r.staging.any (fun b => b.2 = i))

/-- The pool buffers in use, those withdrawn apart: DESIGN CHOICE (120), a withdrawn one is missing from the shared rest
first. -/
def poolBuffers (s : State) : List Nat := s.aesPool.filter (fun i => !s.cph.withdrawn.contains i)

/-- The sum of every slice's quota. -/
def quotaSum (s : State) : Nat := lsum (s.slices.map (fun p => if p.2.st.holds then s.aesQuota p.1 else 0))

/-- The buffer of its own that a GCM decryption of slice `n` may take: of an assigned core, or of the quota. -/
def ownBuffer (s : State) (n : Nat) : Option (Staging × Nat) :=
  match (s.slice n).aes.find? s.bufferFree with
  | some i => some (.assigned, i)
  | none =>
    if s.stagingHeld (some n) .quota < s.aesQuota n then
      (s.poolBuffers.find? s.bufferFree).map (fun i => (.quota, i))
    else none

/-- Does the command decrypt under GCM? -/
def needsStaging (e : SqEntry) : Bool := cphDec e && cphMode e = 2

/-- A run that waits for a staging buffer and could take only a shared one. -/
def wantsShared (s : State) (r : CipherRun) : Bool :=
  !r.begun && r.src.isSome && (s.adm? r.id).any (fun a => needsStaging a.ent) && (s.ownBuffer r.id.slice).isNone

/-- The buffer that a GCM decryption may take: its slice's own, or a shared one in stamp order across the device. -/
def stagingFree (s : State) (r : CipherRun) : Option (Staging × Nat) :=
  match s.ownBuffer r.id.slice with
  | some b => some b
  | none =>
    if s.stagingHeld none .shared < s.poolBuffers.length - s.quotaSum &&
       !s.cph.runs.any (fun q => q.stamp.before r.stamp && s.wantsShared q) then
      (s.poolBuffers.find? s.bufferFree).map (fun i => (.shared, i))
    else none

/-! ### The first batch (R711 checks 9 to 11, R717, R723 to R725, R733) -/

/-- Does the command take a nonce (R723)? -/
def nonced (e : SqEntry) : Bool := !cphDec e && decide (cphMode e ≠ 1)

/-- May a run begin at this tick? A command that takes a nonce waits while its key may issue none (R735). -/
def cipherMay (s : State) (r : CipherRun) : Bool :=
  match s.adm? r.id with
  | none => false
  | some a => r.begun || (r.src.isSome && s.kst.state = .ready && !s.slotHeld r.id.slice (cphKey a.ent) r.stamp &&
      !(nonced a.ent && (s.keyAt r.id.slice (cphKey a.ent)).any Key.recHeld) &&
      (!needsStaging a.ent || (s.stagingFree r).isSome))

/-- Take a nonce value from a key (R723, R724). -/
def takeNonce (k : Key) : Key :=
  let c := k.counter + 1
  { k with counter := c, recEnd := if k.recEnd - c < 2 ^ 19 then min k.limit (k.recEnd + 2 ^ 20) else k.recEnd }

/-- A key whose counter has gone on: where that calls for a new counter record, it is written in two copies, or the key
issues no further nonce until it can be (R724, R735 source 0x2). -/
def nonceTaken (s : State) (n slot : Nat) (k : Key) : State :=
  let k' := takeNonce k
  if k'.recEnd = k.recEnd then s.modKeys n (fun x => { x with keys := tset x.keys slot k' })
  else if s.systemAreaWritable then
    let d := s.sysChoose
    d.2.modKeys n (fun x => { x with keys := tset x.keys slot { k' with copies := d.1 } })
  else
    (s.modKeys n (fun x => { x with keys := tset x.keys slot { k' with recEnd := k.recEnd, recHeld := true } })).cipherAlarm 2

/-- The first batch of a run: checks 9 to 11, the nonce, the staging buffer and the completion stage. -/
def cipherBegin (s : State) (r : CipherRun) : State :=
  match s.adm? r.id, r.src with
  | some a, some src =>
    let n := r.id.slice
    let e := a.ent
    let slot := cphKey e
    let fail (st : Status) : State := (s.dropCipher r.id).failCmd r.id st
    let nonced := nonced e
    match s.keyAt n slot with
    | none => fail (.vendor 0x81)
    | some k =>
      if !keySuits k e then fail (.vendor 0x82)
      else if decide (cphDestLen e ≠ 0) && e.dptr.ranges.any (rangesMeet (destAddr e, cphDestLen e)) then
        fail .invalidField
      else if cphTrailer e && !trailerOk e (bytesAt src (cphAad e + cphLen e) 32) then fail (.vendor 0x85)
      else if nonced && k.counter = k.limit then
        let t := fail (.vendor 0x84)
        if k.spentSeen then t
        else (t.modKeys n (fun x => { x with keys := tset x.keys slot { k with spentSeen := true } })).ev 0x2901 n
          (item 2 slot)
      else
        let st := if needsStaging e then s.stagingFree r else none
        let s := if nonced then s.nonceTaken n slot k else s
        (s.modCipher r.id (fun r => { r with begun := true, nonce := if nonced then some k.counter else none,
                                             key := k.value, staging := st })).modAdm r.id
          (fun a => { a with stage := true, started := true })
  | _, _ => s

/-! ### Dealing the cores (R699 to R707) -/

/-- The batches a run may run in a stride (R704). -/
def cipherWant (s : State) (r : CipherRun) : Nat := if s.cipherMay r then min 4 (r.total - r.done) else 0

/-- The slices with runs, ascending. -/
def cipherSlices (s : State) : List Nat := sortNat (s.cph.runs.map (fun r => r.id.slice)).eraseDups

def cipherDemand (s : State) (n : Nat) : Nat :=
  lsum ((s.cph.runs.filter (fun r => r.id.slice = n)).map s.cipherWant)

/-- A slice in the pool's deal: what it may still run, what it was served in this lap, its G and the cores
dealt to it now. -/
structure PoolTurn where
  slice : Nat
  want : Nat
  served : Nat
  g : Nat
  got : Nat := 0

/-- The order of a turn (R703). -/
def turnBefore (a b : PoolTurn) : Bool :=
  let la := decide (a.served < a.g)
  let lb := decide (b.served < b.g)
  if la != lb then la
  else if la then decide (a.served * b.g < b.served * a.g) || (a.served * b.g = b.served * a.g && decide (a.slice < b.slice))
  else decide (a.served < b.served) || (a.served = b.served && decide (a.slice < b.slice))

/-- One turn: each slice in order takes one core. -/
def poolTurn : Nat → List PoolTurn → Nat × List PoolTurn
  | cores, [] => (cores, [])
  | cores, t :: ts =>
    if 0 < t.want && 0 < cores then
      let r := poolTurn (cores - 1) ts
      (r.1, { t with want := t.want - 1, served := t.served + 1, got := t.got + 1 } :: r.2)
    else
      let r := poolTurn cores ts
      (r.1, t :: r.2)

/-- Turns, until every core is given or nothing is left to run. -/
def poolDeal : Nat → Nat → List PoolTurn → List PoolTurn
  | 0, _, ts => ts
  | fuel + 1, cores, ts =>
    if cores = 0 then ts
    else
      let r := poolTurn cores (sortBy turnBefore ts)
      poolDeal fuel r.1 r.2

/-- What a tick deals to the slices: assigned cores' batches and pool batches. -/
def cipherDeal (s : State) : List (Nat × Nat × Nat) :=
  let own := s.cipherSlices.map (fun n => (n, min (s.slice n).aes.length (s.cipherDemand n)))
  let turns := (own.filter (fun p => decide (0 < s.aesTotal p.1))).map (fun p =>
    ({ slice := p.1, want := s.cipherDemand p.1 - p.2, served := tgetD s.cph.poolLap p.1 0,
       g := s.aesGuarantee p.1 } : PoolTurn))
  let dealt := poolDeal s.aesPool.length s.aesPool.length turns
  own.map (fun p => (p.1, p.2, ((dealt.find? (fun t => t.slice = p.1)).map PoolTurn.got).getD 0))

/-- Batches have run (R737, R738). -/
def countBatches (s : State) (n b : Nat) : State :=
  { s with cph := { s.cph with allLap := tset s.cph.allLap n (tgetD s.cph.allLap n 0 + b),
                               batches := min top64 (s.cph.batches + b) } }

/-- Run `k` batches of a slice's commands in stamp order, at most 4 of one. A command that fails at its first runs none. -/
def runBatches (s : State) : Nat → List CipherRun → State
  | _, [] => s
  | k, r :: t =>
    let b := min k (s.cipherWant r)
    if b = 0 then runBatches s k t
    else
      let s := if r.begun then s else s.cipherBegin r
      if s.cph.runs.any (fun q => q.id = r.id && q.begun) then
        runBatches ((s.modCipher r.id (fun r => { r with done := r.done + b })).countBatches r.id.slice b) (k - b) t
      else runBatches s k t

/-! ### Bad words (R735 sources 0x1 and 0x3, R736) -/

/-- The runs past their first batch whose key slot has a word that cannot be corrected. -/
def badKeyRuns (s : State) : List (CipherRun × Nat) :=
  s.cph.runs.filterMap (fun r => match s.adm? r.id with
    | some a => if r.begun && decide (s.badWords r.id.slice (cphKey a.ent) ≠ []) then some (r, cphKey a.ent) else none
    | none => none)

/-- A run ends with CIPHER_ALARM. -/
def cipherDies (s : State) (r : CipherRun) : State := (s.dropCipher r.id).failCmd r.id (.vendor 0x86)

/-- Source 0x1: one alarm for each key slot. -/
def badKeyTick (s : State) : State :=
  let hits := s.badKeyRuns
  let s := ((hits.map (fun h => (h.1.id.slice, h.2))).eraseDups).foldl (fun s q => s.cipherAlarm 1 q.1) s
  hits.foldl (fun s h => s.cipherDies h.1) s

/-- The bytes of a staging buffer that cannot be corrected. -/
def badStaging (s : State) (b : Nat) : List Nat :=
  ((s.arr dramArr).raws.filter (fun r => decide (r.1 < s.regionBase * 2 ^ 20) &&
    decide (Config.stagingByte r.1 = b) && (s.memByte dramArr r.1).2.2)).map Prod.fst

/-- Source 0x3: the buffer that a run holds is zeroed and withdrawn until the next start-up. -/
def badStagingTick (s : State) : State :=
  if (s.arr dramArr).raws.isEmpty then s
  else s.cph.runs.foldl (fun s r => match r.staging with
    | some b =>
      let bad := s.badStaging b.2
      if bad = [] then s
      else
        let s := bad.foldl (fun s o => (s.memByte dramArr o).1) s
        let s := s.modArr dramArr (fun m => { m with raws := bad.foldl (fun q o => tdel q o) m.raws })
        let s := (s.cipherAlarm 3 r.id.slice).cipherDies r
        { s with cph := { s.cph with withdrawn := b.2 :: s.cph.withdrawn } }
    | none => s) s

/-! ### Results (R714 to R716, R727 to R732) -/

/-- The outcome of a transform whose batches have all run: bytes for the destination, or a mismatch. -/
def cipherOut (s : State) (e : SqEntry) (r : CipherRun) (src : Bytes) : Option Bytes :=
  let aad := src.take (cphAad e)
  let data := bytesAt src (cphAad e) (cphLen e)
  let m := cphMode e
  let own := beBytes 4 s.instanceId ++ beBytes 8 (r.nonce.getD 0)
  let tr := bytesAt src (cphAad e + cphLen e) 32
  let trailer (tag : Bytes) : Bytes := own ++ leBytes 4 m ++ tag
  if m = 1 then some (xtsUnits r.key (!cphDec e) (cphDu e) (cphLen e / cphDu e) (cphTweak e) data)
  else if cphDec e then
    let nonce := tr.take 12
    let tag := tr.drop 16
    if m = 4 then some (ctrFrom r.key nonce 0 data)
    else if gcmTag r.key nonce aad data = tag then some (if m = 2 then gcmData r.key nonce data else [])
    else none
  else if m = 4 then some (ctrFrom r.key own 0 data ++ trailer (List.replicate 16 0))
  else if m = 2 then
    let ct := gcmData r.key own data
    some (ct ++ trailer (gcmTag r.key own aad ct))
  else some (trailer (gcmTag r.key own aad []))

/-- A run whose batches have all run delivers its destination bytes and completes. -/
def cipherEnd (s : State) (r : CipherRun) : State :=
  match s.adm? r.id, r.src with
  | some a, some src =>
    let n := r.id.slice
    let e := a.ent
    let dest := [(destAddr e, cphDestLen e)]
    let c := r.nonce.getD 0
    let w0 := BitVec.ofNat 32 c
    let w1 := BitVec.ofNat 32 (c / 2 ^ 32)
    match s.cipherOut e r src with
    | none =>
      ((s.dropCipher r.id).finishNow r.id (.vendor 0x83)).evOnly 0x2902 n (item 2 r.id.sqid ++ item 2 r.id.cid)
    | some out =>
      if cphDestLen e = 0 then (s.dropCipher r.id).finishNow r.id .success w0 w1
      else (s.dropCipher r.id).respond r.id { ranges := dest, data := out, dw0 := w0, dw1 := w1 }
  | _, _ => s

/-- What a tick deals to a slice is run: on its assigned cores first, the rest on pool cores (R700, R703, R737). -/
def dealSlice (s : State) (runs : List CipherRun) (d : Nat × Nat × Nat) : State :=
  let n := d.1
  let t := s.runBatches (d.2.1 + d.2.2) (runs.filter (fun r => r.id.slice = n))
  let ran := tgetD t.cph.allLap n 0 - tgetD s.cph.allLap n 0
  let own := min ran d.2.1
  let pool := (s.aesPool.filter (fun i => !s.cph.busy.contains i)).take (ran - own)
  { t with cph := { t.cph with poolLap := tset t.cph.poolLap n (tgetD t.cph.poolLap n 0 + (ran - own)),
                               busy := t.cph.busy ++ (s.slice n).aes.take own ++ pool } }

/-- The cipher engine's tick. -/
def cipherTick (s : State) : State :=
  let s := { s with cph := { s.cph with runs := s.cph.runs.filter (fun r => (s.adm? r.id).isSome), busy := [] } }
  let s := s.badKeyTick.badStagingTick
  let s := (s.cph.runs.filter (fun r => decide (r.total ≤ r.done))).foldl (fun s r => s.cipherEnd r) s
  let runs := sortBy (fun a b => a.stamp.before b.stamp) s.cph.runs
  let s := s.cipherDeal.foldl (fun s d => s.dealSlice runs d) s
  { s with cph := { s.cph with busy := sortNat s.cph.busy } }

/-- The lap boundary of the cipher engine: its counts, and the counter records that wait (R735). -/
def cipherLap (s : State) : State :=
  { s with cph := { s.cph with prevLap := s.cph.allLap, allLap := [], poolLap := [] } }.recordRetry

end State

end Sys2Proof.Machine
end

