-- ==== Sys2Proof/Machine/Digest.lean ====
section
/-! DEFINITION. The digest engine: the checks of Digest, digest units, batons, results and derived keys
(R764 to R775). -/

namespace Sys2Proof.Machine

/-- The command's fields (R766). -/
def dgAlg (e : SqEntry) : Nat := natBits e.cdw10.toNat 7 0
def dgPhase (e : SqEntry) : Nat := natBits e.cdw10.toNat 9 8
def dgKey (e : SqEntry) : Nat := natBits e.cdw10.toNat 31 16
def dgLen (e : SqEntry) : Nat := e.cdw11.toNat
def dgOutLen (e : SqEntry) : Nat := natBits e.cdw12.toNat 15 0
def dgDest (e : SqEntry) : Nat := natBits e.cdw12.toNat 31 16
def dgUse (e : SqEntry) : Nat := natBits e.cdw13.toNat 11 0

def dgKeyed (alg : Nat) : Bool := decide (8 ≤ alg)
def dgDerives (alg : Nat) : Bool := decide (0xC ≤ alg)
/-- Does the phase import a baton, and does it leave one (R768)? -/
def dgImports (e : SqEntry) : Bool := decide (2 ≤ dgPhase e)
def dgExports (e : SqEntry) : Bool := dgPhase e = 1 || dgPhase e = 2

/-- The bits of the hash behind an algorithm. -/
def dgBits (alg : Nat) : Nat :=
  if alg = 1 || alg = 9 || alg = 0xC || alg = 4 then 256 else if alg = 2 || alg = 0xA || alg = 0xD then 384 else 512

/-- The bytes of a result (R767). -/
def dgResultLen (e : SqEntry) : Nat :=
  let a := dgAlg e
  if a ≤ 5 || (decide (9 ≤ a) && decide (a ≤ 0xB)) then dgBits a / 8 else dgOutLen e

/-- OUT_LEN as R767 allows it. -/
def dgOutOk (alg len : Nat) : Bool :=
  if alg = 6 || alg = 7 then decide (1 ≤ len) && decide (len ≤ 4096)
  else if alg = 8 then decide (16 ≤ len) && decide (len ≤ 64)
  else if dgDerives alg then len = 32 || len = 64
  else len = 0

/-- The bytes at OUT_ADDR. -/
def dgWritten (e : SqEntry) : Nat :=
  if dgDerives (dgAlg e) then 0 else if dgExports e then 552 else dgResultLen e

/-- The USE bit that an algorithm needs of its key. -/
def dgUseBit (alg : Nat) : Nat := if alg = 8 then 9 else if dgDerives alg then 10 else 8

namespace State

/-- Checks 1 to 7 (R771), made at admission. -/
def digestChecks1 (s : State) (n : Nat) (e : SqEntry) : Option Status :=
  let a := dgAlg e
  let d := dgDerives a
  if natBits e.cdw10.toNat 15 10 ≠ 0 || natBits e.cdw2.toNat 2 0 ≠ 0 || e.nsid ≠ 0 || a < 1 || 0xF < a ||
     (d && decide (dgPhase e ≠ 0)) || !dgOutOk a (dgOutLen e) || 65536 < dgLen e ||
     (dgPhase e = 2 && dgLen e = 0) || (!dgKeyed a && decide (dgKey e ≠ 0)) ||
     (!d && (decide (dgDest e ≠ 0) || decide (dgUse e ≠ 0))) || (d != decide (destAddr e = 0)) ||
     natBits e.cdw13.toNat 31 12 ≠ 0 || e.cdw14 ≠ 0 || e.cdw15 ≠ 0 then some .invalidField
  else if e.dptr.sgl && decide (ptrLen e.dptr ≠ dgLen e + (if dgImports e then 552 else 0)) then some (.vendor 0x02)
  else if (!d && !s.cmbUseOk n (destAddr e, dgWritten e)) || !s.pointerPlaced n e.dptr then some .invalidCmb
  else if !dgKeyed a then none
  else if s.keyTotal n ≤ dgKey e || (d && (decide (s.keyTotal n ≤ dgDest e) || decide (dgDest e = 0))) then
    some .invalidField
  else match s.keyAt n (dgKey e) with
    | none => some (.vendor 0x81)
    | some k =>
      if !natBit k.use (dgUseBit a) then some (.vendor 0x82)
      else if d && (decide (dgUse e = 0) || decide (dgUse e &&& k.child ≠ dgUse e) ||
                    !useFits (decide (dgOutLen e = 64)) (dgUse e)) then some (.vendor 0x82)
      else if d && (s.keyAt n (dgDest e)).isSome then some (.vendor 0x8B)
      else none

def modDigest (s : State) (c : CmdId) (f : DigestRun → DigestRun) : State :=
  { s with dgs := { s.dgs with runs := s.dgs.runs.map (fun r => if r.id = c then f r else r) } }
def dropDigest (s : State) (c : CmdId) : State :=
  { s with dgs := { s.dgs with runs := s.dgs.runs.filter (fun r => decide (r.id ≠ c)) } }
def digestKnown (s : State) (c : CmdId) (a : Adm) : State :=
  if s.dgs.runs.any (fun r => r.id = c) then s
  else { s with dgs := { s.dgs with runs := s.dgs.runs ++ [{ id := c, stamp := a.stamp }] } }

/-- The key's part of a baton: INSTALL_ID and fingerprint, zero without a key (R773). -/
def batonKey : Option Key → Nat × Bytes
  | some k => (k.install, keyPrint k.value)
  | none => (0, List.replicate 16 0)

/-- Import of a baton (R774): the message absorbed so far, or the status that rejects it. -/
def digestImport (s : State) (n : Nat) (e : SqEntry) (bs : Bytes) : Except Status Bytes :=
  match s.dgs.batons.find? (fun b => b.bytes = bs) with
  | none => .error (.vendor 0x88)
  | some b =>
    let k := if dgKeyed (dgAlg e) then s.keyAt n (dgKey e) else none
    if b.slice ≠ n || b.alg ≠ dgAlg e || b.key ≠ dgKey e then .error (.vendor 0x88)
    else if (b.install, b.print) ≠ batonKey k then .error (.vendor 0x89)
    else .ok b.msg

/-- HKDF's message: salt and info, where its length agrees (R769, check 9). -/
def hkdfParts (m : Bytes) : Option (Bytes × Bytes) :=
  let sl := leAt m 0 4
  let il := leAt m 4 4
  if 8 ≤ m.length && m.length = 8 + sl + il then some (bytesAt m 8 sl, bytesAt m (8 + sl) il) else none

/-- A command's source is in device memory: checks 8 and 9. -/
def digestSource (s : State) (c : CmdId) (a : Adm) (bs : Bytes) : State :=
  let s := s.digestKnown c a
  let e := a.ent
  let head := if dgImports e then 552 else 0
  let bs := padTo (head + dgLen e) bs
  let fail (st : Status) : State := (s.dropDigest c).failCmd c st
  let msg := bs.drop head
  if s.dgs.runs.any (fun r => r.id = c && r.msg.isSome) then s
  else if 0xC ≤ dgAlg e && dgAlg e ≤ 0xE && (hkdfParts msg).isNone then fail (.vendor 0x02)
  else if dgImports e then
    match s.digestImport c.slice e (bs.take 552) with
    | .error st => (fail st).ev 0x2A03 c.slice
    | .ok m => s.modDigest c (fun r => { r with msg := some (m ++ msg) })
  else s.modDigest c (fun r => { r with msg := some msg })

/-- DIGEST: checks 1 to 7. A source in the CMB, or of no bytes, is in device memory at once. -/
def digest (s : State) (c : CmdId) : State :=
  s.onEngine c 0x95 (fun a =>
    match s.digestChecks1 c.slice a.ent with
    | some st => (s.dropDigest c).failCmd c st
    | none =>
      if a.ent.dptr.ranges.all (fun r => s.inPortion c.slice r.1 r.2) then
        s.arrive c a.ent.dptr.ranges (fun s => s.digestSource c a (s.gather c.slice a.ent.dptr.ranges []))
      else s.digestKnown c a)

/-- DIGEST_BATON_ARRIVAL: the baton and the message are in device memory. -/
def digestArrival (s : State) (c : CmdId) (d : Fetch) : State :=
  s.onEngine c 0x95 (fun a =>
    match d with
    | .failAt _ => ((s.dropDigest c).failCmd c .dataTransferError).ev 0x1203 c.slice
    | .ok bs => s.arrive c a.ent.dptr.ranges (fun s => s.digestSource c a (s.gather c.slice a.ent.dptr.ranges bs)))

/-! ### Units (R764, R765) -/

def digestQuota (s : State) (n : Nat) : Nat := s.aesTotal n * 8 / 256

/-- The units a slice holds. -/
def unitsHeld (s : State) (n : Nat) : Nat := (s.dgs.runs.filter (fun r => r.unit.isSome && r.id.slice = n)).length

/-- The lowest idle unit that a slice may take: one of its quota, or one that no quota claims. -/
def unitFree (s : State) (n : Nat) : Option Nat :=
  let held := s.dgs.runs.filterMap DigestRun.unit
  let quotas := lsum (s.slices.map (fun p => if p.2.st.holds then s.digestQuota p.1 else 0))
  let shared := lsum (s.slices.map (fun p => s.unitsHeld p.1 - s.digestQuota p.1))
  if s.unitsHeld n < s.digestQuota n || shared < 8 - quotas then (List.range 8).find? (fun u => !held.contains u)
  else none

/-- The strides of a run: one for each batch, one for a baton at either end, and one at least. -/
def digestStrides (e : SqEntry) : Nat :=
  max 1 ((if dgImports e then 1 else 0) + ceilDiv (dgLen e) 1024 + (if dgExports e then 1 else 0))

/-- A unit that reads an uncorrectable word of its key ends its command with DIGEST_ALARM (R775). -/
def digestBadKeys (s : State) : State :=
  (s.dgs.runs.filter (fun r => r.unit.isSome)).foldl (fun s r =>
    match s.adm? r.id with
    | some a =>
      if dgKeyed (dgAlg a.ent) && decide (s.badWords r.id.slice (dgKey a.ent) ≠ []) then
        (s.dropDigest r.id).failCmd r.id (.vendor 0x8A)
      else s
    | none => s) s

/-- Is a unit in the stride of a baton (R768, R798): the first of a run that imports one, or the last of one that leaves
one? -/
def batonStride (s : State) (r : DigestRun) : Bool :=
  match s.adm? r.id with
  | some a => (dgImports a.ent && r.left + 1 = digestStrides a.ent) || (dgExports a.ent && r.left = 0)
  | none => false

/-- A waiting run begins at this tick if a unit is free to it: its first unit is the completion stage
(R772), and it uses the key then in the slot (R749). -/
def digestBegin (s : State) (r : DigestRun) : State :=
  match s.adm? r.id with
  | none => s
  | some a =>
    let n := r.id.slice
    let waits := s.dgs.runs.any (fun q => q.id.slice = n && q.unit.isNone && q.stamp.before r.stamp)
    let held := (namedSlots a).any (fun i => s.slotHeld n i r.stamp)
    if r.unit.isSome || r.msg.isNone || s.kst.state ≠ .ready || waits || held then s
    else match s.unitFree n with
      | none => s
      | some u =>
        let k := if dgKeyed (dgAlg a.ent) then s.keyAt n (dgKey a.ent) else none
        if dgKeyed (dgAlg a.ent) && k.isNone then (s.dropDigest r.id).failCmd r.id (.vendor 0x81)
        else (s.modDigest r.id (fun r => { r with unit := some u, key := k, left := digestStrides a.ent - 1 })).modAdm
          r.id (fun a => { a with stage := true, started := true })

/-! ### Results (R767 to R773) -/

/-- The result of an algorithm over a message under a key. HMAC and KMAC start from the states cached at its
installation (R748); for HKDF the key is the input keying material that Extract hashes under the salt (R769). -/
def digestResult (e : SqEntry) (k : Option Key) (m : Bytes) : Bytes :=
  let a := dgAlg e
  let n := dgResultLen e
  let key := (k.map Key.value).getD []
  let kmacs := (k.map Key.kmacs).getD []
  let r :=
    if a ≤ 3 then Config.sha2 (dgBits a) m
    else if a = 4 then Config.sha3_256 m
    else if a = 5 then Config.sha3_512 m
    else if a ≤ 7 then Config.shake (decide (a = 7)) m n
    else if a = 8 then Config.kmacFrom (kmacs[0]?.getD []) m n
    else if a ≤ 0xB then hmacFrom (dgBits a) (((k.map Key.hmacs).getD [])[a - 9]?.getD ([], [])) m
    else if a ≤ 0xE then
      match hkdfParts m with
      | some (salt, info) => hkdf (dgBits a) key salt info n
      | none => []
    else Config.kmacFrom (kmacs[1]?.getD []) m n
  padTo n r

/-- The baton of a computation (R773). -/
def digestBaton (s : State) (n : Nat) (e : SqEntry) (k : Option Key) (m : Bytes) : DigestBaton :=
  let key := match k with
    | some k => k.value
    | none => []
  let hdr := leBytes 4 0x4D424431 ++ leBytes 2 1 ++ leBytes 1 (dgAlg e) ++ leBytes 1 0 ++ leBytes 2 n ++
    leBytes 2 (dgKey e) ++ leBytes 4 0 ++ leBytes 8 m.length ++ leBytes 8 s.kst.starts
  let b := batonKey k
  let block := padTo 512 (hdr ++ Config.digestState (dgAlg e) key m ++ leBytes 4 b.1 ++ b.2)
  { bytes := hdr ++ padTo 520 (Config.wrap s.kst.slot2 block), slice := n, alg := dgAlg e, key := dgKey e,
    msg := m, install := b.1, print := b.2 }

/-- A run whose strides have passed ends: its output is delivered, or its derived key is recorded. -/
def digestEnd (s : State) (r : DigestRun) : State :=
  match s.adm? r.id, r.msg with
  | some a, some m =>
    let n := r.id.slice
    let e := a.ent
    let dest := [(destAddr e, dgWritten e)]
    let t := s.dropDigest r.id
    let t := { t with dgs := { t.dgs with batches := min top64 (t.dgs.batches + ceilDiv (dgLen e) 1024) } }
    if dgDerives (dgAlg e) then
      let child := match r.key with
        | some k => k.child
        | none => 0
      let k : NewKey := { k512 := decide (dgOutLen e = 64), use := dgUse e, child := child,
                          value := digestResult e r.key m }
      t.beginChange n r.stamp [(dgDest e, some k)] r.id none
    else if dgExports e then
      let b := s.digestBaton n e r.key m
      let t := { t with dgs := { t.dgs with batons := t.dgs.batons ++ [b] } }
      t.respond r.id { ranges := dest, data := b.bytes, dw0 := 552 }
    else t.respond r.id { ranges := dest, data := digestResult e r.key m, dw0 := BitVec.ofNat 32 (dgWritten e) }
  | _, _ => s

/-- The digest engine's tick: runs meet bad words, go on or end, and waiting ones begin in stamp order. -/
def digestTick (s : State) : State :=
  let s := { s with dgs := { s.dgs with runs := s.dgs.runs.filter (fun r => (s.adm? r.id).isSome) } }
  let s := s.digestBadKeys
  let s := (s.dgs.runs.filter (fun r => r.unit.isSome)).foldl (fun s r =>
    if r.left = 0 then s.digestEnd r else s.modDigest r.id (fun r => { r with left := r.left - 1 })) s
  (sortBy (fun a b => a.stamp.before b.stamp) s.dgs.runs).foldl (fun s r => s.digestBegin r) s

end State

end Sys2Proof.Machine
end

