-- ==== Sys2Proof/Machine/Pattern.lean ====
section
/-! DEFINITION. The pattern engine: the automaton and its tables, rule order, searches and steps, and table
loads (R642 to R693). -/

namespace Sys2Proof.Machine

/-! ### Table entries (R652 to R657) -/

def stKind (e : BitVec 64) : Nat := natBits e.toNat 63 62
def stSparse (e : BitVec 64) : Nat := natBits e.toNat 61 59
def stAccept (e : BitVec 64) : Bool := natBit e.toNat 58
def stDefault (e : BitVec 64) : Nat := natBits e.toNat 55 40
def stTrans (e : BitVec 64) : Nat := natBits e.toNat 39 20
def stAcceptBase (e : BitVec 64) : Nat := natBits e.toNat 19 0

def ruleOccupied (e : BitVec 64) : Bool := natBit e.toNat 63
def ruleId (e : BitVec 64) : Nat := natBits e.toNat 62 48
def rulePrio (e : BitVec 64) : Nat := natBits e.toNat 47 32
def ruleTag (e : BitVec 64) : Nat := natBits e.toNat 31 0
def ruleEntry (id prio tag : Nat) : BitVec 64 := BitVec.ofNat 64 (2 ^ 63 + id * 2 ^ 48 + prio * 2 ^ 32 + tag)

/-- What a slice's pattern table can hold, with `k` search slots (R643). -/
def patStates (k : Nat) : Nat := 4096 * k
def patTrans (k : Nat) : Nat := 65536 * k
def patRules (k : Nat) : Nat := 2048 * k

namespace PatTable

def st (t : PatTable) (i : Nat) : BitVec 64 := tgetD t.states i 0
def tr (t : PatTable) (i : Nat) : Nat := (tgetD t.trans i 0).toNat
def rule (t : PatTable) (i : Nat) : BitVec 64 := tgetD t.rules i 0

/-- Occupied rule entries. -/
def occupied (t : PatTable) : List (Nat × BitVec 64) := t.rules.filter (fun p => ruleOccupied p.2)

/-- The first range entry that covers a byte: its NEXT, the DEFAULT, or a broken entry (R654). -/
def sparseNext (t : PatTable) (b default : Nat) : Nat → Nat → Option Nat
  | 0, _ => some default
  | n + 1, i =>
    let e := t.tr i
    let lo := natBits e 31 24
    let hi := natBits e 23 16
    if hi < lo then none
    else if lo ≤ b && b ≤ hi then some (natBits e 15 0)
    else sparseNext t b default n (i + 1)

/-- One transition: the next state, or the state and reason of a table error (R658). -/
def step (t : PatTable) (k cur b : Nat) : Except (Nat × Nat) Nat :=
  let e := t.st cur
  if stKind e = 1 then
    let x := t.tr (stTrans e + b)
    if natBits x 31 16 ≠ 0 then .error (cur, 3)
    else if patStates k ≤ natBits x 15 0 then .error (cur, 2)
    else .ok (natBits x 15 0)
  else if stKind e = 2 then
    match t.sparseNext b (stDefault e) (stSparse e + 1) (stTrans e) with
    | none => .error (cur, 3)
    | some n => if patStates k ≤ n then .error (cur, 2) else .ok n
  else .error (cur, 1)

/-- The accept list of a state: each entry's rule and whether it counts only at the end of the input
(R655). -/
def accepts (t : PatTable) (k : Nat) : Nat → Nat → Option (List (Nat × Bool))
  | 0, _ => none
  | n + 1, i =>
    if patTrans k ≤ i then none
    else
      let e := t.tr i
      let id := natBits e 14 0
      if patRules k ≤ id then none
      else if natBit e 31 then some [(id, natBit e 30)]
      else match accepts t k n (i + 1) with
        | none => none
        | some l => some ((id, natBit e 30) :: l)

/-- The matches of the remaining input (R648 to R650): rule index, identifier and end offset. -/
def run (t : PatTable) (k first last : Nat) : Nat → Nat → Bytes → Except (Nat × Nat) (List (Nat × Nat × Nat))
  | _, _, [] => .ok []
  | cur, e, b :: rest =>
    match t.step k cur b.toNat with
    | .error x => .error x
    | .ok n =>
      let s := t.st n
      if stKind s = 0 || stKind s = 3 then .error (n, 1)
      else
        let here := if stAccept s then t.accepts k 64 (stAcceptBase s) else some []
        match here with
        | none => .error (n, 4)
        | some l =>
          let ms := (l.filter (fun a => !a.2 || rest.isEmpty)).filterMap (fun a =>
            let r := (tgetD t.rank a.1 0).toNat
            let i := natBits r 14 0
            if natBit r 15 && decide (first ≤ i) && decide (i ≤ last) then some (i, a.1, e) else none)
          match run t k first last n (e + 1) rest with
          | .error x => .error x
          | .ok more => .ok (ms.eraseDups ++ more)

/-- Every match of an input in the order of R659. -/
def search (t : PatTable) (k first last : Nat) (input : Bytes) : Except (Nat × Nat) (List (Nat × Nat × Nat)) :=
  match t.run k first last t.root 0 input with
  | .error x => .error x
  | .ok ms => .ok (sortBy (fun a b => decide (a.1 < b.1) || (a.1 = b.1 && decide (a.2.2 < b.2.2))) ms)

/-! ### Rules (R657, R659 to R665) -/

/-- The rank map of the rules (R657). -/
def withRank (t : PatTable) : PatTable :=
  { t with rank := t.occupied.foldl (fun m p => tset m (ruleId p.2) (BitVec.ofNat 16 (32768 + p.1))) [] }

/-- The j-th position of a re-spacing of n rules (R663). -/
def spacePos (h n cap j : Nat) : Nat :=
  if 2 ≤ h && decide ((n - 1) + (n - 1) / (h - 1) < cap) then j + j / (h - 1) else j

/-- Lay rules out anew in the given order (R662). -/
def layOut (t : PatTable) (h cap : Nat) (rs : List (BitVec 64)) : PatTable :=
  withRank { t with rules := ((List.range rs.length).zip rs).map (fun p => (spacePos h rs.length cap p.1, p.2)) }

def respace (t : PatTable) (h cap : Nat) : PatTable := t.layOut h cap (t.occupied.map Prod.snd)

/-- INSERT (R661). -/
def insert (t : PatTable) (h cap id prio tag : Nat) : PatTable :=
  let occ := t.occupied
  let before := occ.filter (fun p => decide (rulePrio p.2 ≤ prio))
  let lo := match before.getLast? with
    | some p => p.1 + 1
    | none => 0
  let hi := match occ.find? (fun p => decide (lo ≤ p.1)) with
    | some p => p.1
    | none => cap
  let e := ruleEntry id prio tag
  if lo < hi then withRank { t with rules := tset t.rules lo e }
  else t.layOut h cap (before.map Prod.snd ++ [e] ++ (occ.drop before.length).map Prod.snd)

/-- REMOVE (R665). -/
def remove (t : PatTable) (id : Nat) : PatTable :=
  withRank { t with rules := t.rules.filter (fun p => !(ruleOccupied p.2 && ruleId p.2 = id)) }

end PatTable

/-! ### Update images (R680 to R682) -/

/-- The transition runs of an image: offset, FIRST and COUNT of each, and the offset behind the last. -/
def patRuns (bs : Bytes) : Nat → Nat → List (Nat × Nat × Nat) × Nat
  | 0, o => ([], o)
  | n + 1, o =>
    let c := leAt bs (o + 4) 4
    let r := patRuns bs n (o + 8 + ceilDiv (4 * c) 8 * 8)
    ((o, leAt bs o 4, c) :: r.1, r.2)

/-- The parts of an image: state records, runs and rule operations by offset, and its size. -/
structure PatImage where
  recs : List Nat
  runs : List (Nat × Nat × Nat)
  ops : List Nat
  size : Nat

/-- The parts that an image's header declares. Counts that cannot fit in the image end the reading. -/
def patImage (bs : Bytes) : PatImage :=
  let ns := leAt bs 0xC 4
  let nr := leAt bs 0x10 4
  let no := leAt bs 0x14 4
  if bs.length < 32 + 16 * ns + 16 * nr + 16 * no then { recs := [], runs := [], ops := [], size := 0 }
  else
    let r := patRuns bs nr (32 + 16 * ns)
    { recs := (List.range ns).map (fun i => 32 + 16 * i), runs := r.1,
      ops := (List.range no).map (fun i => r.2 + 16 * i), size := r.2 + 16 * no }

/-- A state entry is legal (R652, R681). -/
def stateEntryOk (k : Nat) (e : BitVec 64) : Bool :=
  let kind := stKind e
  if kind = 0 then e = 0
  else if kind = 3 || natBits e.toNat 57 56 ≠ 0 then false
  else if !stAccept e && decide (stAcceptBase e ≠ 0) then false
  else if stAccept e && decide (patTrans k ≤ stAcceptBase e) then false
  else if kind = 1 then stSparse e = 0 && stDefault e = 0 && decide (stTrans e + 256 ≤ patTrans k)
  else decide (stDefault e < patStates k) && decide (stTrans e + stSparse e + 1 ≤ patTrans k)

/-- The image offset of the first bad field of the header, before its sizes are used. -/
def patHeadBad (bs : Bytes) : Option Nat :=
  if leAt bs 0 4 ≠ 0x4D425431 then some 0
  else if leAt bs 4 2 ≠ 1 then some 4
  else if 1 < leAt bs 6 1 then some 6
  else if leAt bs 7 1 ≠ 0 then some 7
  else none

/-- The offset of the first bad field among ROOT, the totals, the records and the runs. -/
def patBodyBad (t : PatTable) (k : Nat) (bs : Bytes) (m : PatImage) : Option Nat :=
  let root := leAt bs 8 4
  let replaces := leAt bs 6 1 = 1
  if (root = 0xFFFFFFFF && (replaces || t.state = .empty)) ||
     (decide (root ≠ 0xFFFFFFFF) && decide (patStates k ≤ root)) then some 8
  else if leAt bs 0x18 4 ≠ lsum (m.runs.map (fun r => r.2.2)) then some 0x18
  else if leAt bs 0x1C 4 ≠ 0 then some 0x1C
  else match m.recs.findSome? (fun o =>
      if patStates k ≤ leAt bs o 4 then some o
      else if leAt bs (o + 4) 4 ≠ 0 then some (o + 4)
      else if !stateEntryOk k (BitVec.ofNat 64 (leAt bs (o + 8) 8)) then some (o + 8)
      else none) with
    | some o => some o
    | none => m.runs.findSome? (fun r =>
        if r.2.2 < 1 then some (r.1 + 4)
        else if patTrans k < r.2.1 + r.2.2 then some r.1
        else if r.2.2 % 2 = 1 && leAt bs (r.1 + 8 + 4 * r.2.2) 4 ≠ 0 then some (r.1 + 8 + 4 * r.2.2)
        else none)

/-- Perform one rule operation: the table behind it, or the offset that fails and whether the table is
full (R664, R682). -/
def patRuleOp (h k : Nat) (bs : Bytes) (t : PatTable) (o : Nat) : Except (Nat × Bool) PatTable :=
  let op := leAt bs o 1
  let id := leAt bs (o + 2) 2
  let prio := leAt bs (o + 4) 2
  let tag := leAt bs (o + 8) 4
  let present := t.occupied.any (fun p => ruleId p.2 = id)
  if op < 1 || 3 < op then .error (o, false)
  else if leAt bs (o + 1) 1 ≠ 0 then .error (o + 1, false)
  else if patRules k ≤ id || (op = 3 && decide (id ≠ 0)) then .error (o + 2, false)
  else if op = 3 && decide (prio ≠ 0) then .error (o + 4, false)
  else if leAt bs (o + 6) 2 ≠ 0 then .error (o + 6, false)
  else if op = 3 && decide (tag ≠ 0) then .error (o + 8, false)
  else if leAt bs (o + 12) 4 ≠ 0 then .error (o + 12, false)
  else if op = 1 then
    if present then .error (o + 2, false)
    else if patRules k ≤ t.occupied.length then .error (o, true)
    else .ok (t.insert h (patRules k) id prio tag)
  else if op = 2 then (if present then .ok (t.remove id) else .error (o + 2, false))
  else .ok (t.respace h (patRules k))

def patRuleOps (h k : Nat) (bs : Bytes) : PatTable → List Nat → Except (Nat × Bool) PatTable
  | t, [] => .ok t
  | t, o :: os =>
    match patRuleOp h k bs t o with
    | .error e => .error e
    | .ok t => patRuleOps h k bs t os

/-- Cut a list into pieces of 256. -/
def cut256 {α : Type} : Nat → List α → List (List α)
  | 0, _ => []
  | _, [] => []
  | k + 1, l => l.take 256 :: cut256 k (l.drop 256)

/-- The write units of an image, of at most 256 entries each (R29, R683): the state records, then the transition entries.
An entry is its table (states or transitions), its index and its value. -/
def patUnits (bs : Bytes) : List (List (Bool × Nat × Nat)) :=
  let m := patImage bs
  let sts := m.recs.map (fun o => (true, leAt bs o 4, leAt bs (o + 8) 8))
  let trs := m.runs.flatMap (fun r => (List.range r.2.2).map (fun i => (false, r.2.1 + i, leAt bs (r.1 + 8 + 4 * i) 4)))
  cut256 (sts.length + 1) sts ++ cut256 (trs.length + 1) trs

/-- One write unit. -/
def patWriteUnit (t : PatTable) (u : List (Bool × Nat × Nat)) : PatTable :=
  u.foldl (fun t w =>
    if w.1 then { t with states := tset t.states w.2.1 (BitVec.ofNat 64 w.2.2) }
    else { t with trans := tset t.trans w.2.1 (BitVec.ofNat 32 w.2.2) }) t

/-- A REPLACE zeroes the partitions before its first unit (R683). -/
def patClear (t : PatTable) (bs : Bytes) : PatTable :=
  if leAt bs 6 1 = 1 then { t with states := [], trans := [], rules := [], rank := [] } else t

/-- The whole write phase of a load. -/
def patWrite (t : PatTable) (bs : Bytes) : PatTable := (patUnits bs).foldl patWriteUnit (patClear t bs)

/-- The apply phase: ROOT, the rule operations and the re-spacing of a REPLACE (R665, R683). -/
def patApply (h k : Nat) (t : PatTable) (bs : Bytes) : PatTable :=
  let root := leAt bs 8 4
  let t := if root = 0xFFFFFFFF then t else { t with root := root }
  let t := match patRuleOps h k bs t (patImage bs).ops with
    | .ok t => t
    | .error _ => t
  let t := if leAt bs 6 1 = 1 then t.respace h (patRules k) else t
  { t with state := .ready }

/-- States that the table reaches from ROOT (R685). -/
def patReach (t : PatTable) : Nat → List Nat → List Nat → List Nat
  | 0, seen, _ => seen
  | _, seen, [] => seen
  | n + 1, seen, s :: todo =>
    let e := t.st s
    let next :=
      if stKind e = 1 then (List.range 256).map (fun b => natBits (t.tr (stTrans e + b)) 15 0)
      else if stKind e = 2 then stDefault e :: (List.range (stSparse e + 1)).map (fun i => natBits (t.tr (stTrans e + i)) 15 0)
      else []
    let new := (next.eraseDups).filter (fun x => !seen.contains x)
    patReach t n (seen ++ new) (todo ++ new)

/-- Does a load write a state or a transition entry that the table in force reaches? -/
def patTouches (t : PatTable) (k : Nat) (bs : Bytes) : Bool :=
  let m := patImage bs
  let rs := patReach t (patStates k) [t.root] [t.root]
  let inRun (lo n : Nat) : Bool := m.runs.any (fun r => decide (r.2.1 < lo + n) && decide (lo < r.2.1 + r.2.2))
  m.recs.any (fun o => rs.contains (leAt bs o 4)) ||
  rs.any (fun s =>
    let e := t.st s
    (stKind e = 1 && inRun (stTrans e) 256) || (stKind e = 2 && inRun (stTrans e) (stSparse e + 1)) ||
    (stAccept e && inRun (stAcceptBase e) (((t.accepts k 64 (stAcceptBase e)).map List.length).getD 64)))

namespace State

def patTable (s : State) (n : Nat) : PatTable := tgetD s.pat.tables n {}
def setPatTable (s : State) (n : Nat) (t : PatTable) : State :=
  { s with pat := { s.pat with tables := tset s.pat.tables n t } }
/-- The search slots a slice holds. -/
def patSlots (s : State) (n : Nat) : Nat := (s.slice n).search.length
/-- PAT_HOLE_INTERVAL in force. -/
def patHole (s : State) : Nat :=
  match s.crs.inForce with
  | some c => c.patHole
  | none => 0
/-- The scrub epoch (R689). -/
def patEpoch (s : State) : Nat := s.stride / 64000 % 2 ^ 32

/-! ### Searches (R666 to R678) -/

def pMax (e : SqEntry) : Nat := natBits e.cdw10.toNat 8 0
def pFirst (e : SqEntry) : Nat := natBits e.cdw12.toNat 14 0
def pLast (e : SqEntry) : Nat := natBits e.cdw12.toNat 30 16

/-- Checks 1 to 8 (R667), made at admission. -/
def patChecks1 (s : State) (n : Nat) (e : SqEntry) : Option Status :=
  let x := s.slice n
  let src := pSource e
  let len := e.cdw11.toNat
  let ptr := e.dptr.ranges.any (fun r => decide (r.1 ≠ 0) || (e.dptr.sgl && decide (r.2 ≠ 0)))
  if natBits e.cdw2.toNat 2 0 ≠ 0 || natBits e.cdw10.toNat 28 9 ≠ 0 || natBit e.cdw12.toNat 31 ||
     natBit e.cdw12.toNat 15 || e.cdw13 ≠ 0 || 256 < pMax e || pLast e < pFirst e ||
     (!src && (decide (16777216 < len) || decide (e.nsid ≠ 0) || decide (pSlba e ≠ 0) || (len = 0 && ptr))) ||
     (src && (decide (natBits len 31 16 ≠ 0) || ptr)) then some .invalidField
  else if x.search = [] then some (.vendor 0x04)
  else
    let place := if s.cmbUseOk n (destAddr e, 64 + 16 * pMax e) && s.pointerPlaced n e.dptr then none else some Status.invalidCmb
    if !src then (if e.dptr.sgl && decide (ptrLen e.dptr ≠ len) then some (.vendor 0x02) else place)
    else match tget x.nss e.nsid with
      | none => some .invalidNamespace
      | some ns =>
        if !ns.attached then some .invalidNamespace
        else if x.mediaKey.isNone then some (.vendor 0x03)
        else if 16777216 < pNlb e * lbaData ns.lbaf then some (.vendor 0x77)
        else match place with
          | some st => some st
          | none => if ns.nsze < pSlba e + pNlb e then some .lbaRange else none

def isSearch (a : Adm) : Bool := !a.admin && (a.ent.opc = 0x8D || a.ent.opc = 0x91)

def modPat (s : State) (c : CmdId) (f : PatRun → PatRun) : State :=
  { s with pat := { s.pat with runs := s.pat.runs.map (fun r => if r.id = c then f r else r) } }
def dropPat (s : State) (c : CmdId) : State :=
  { s with pat := { s.pat with runs := s.pat.runs.filter (fun r => decide (r.id ≠ c)) } }
def patKnown (s : State) (c : CmdId) (a : Adm) : State :=
  if s.pat.runs.any (fun r => r.id = c) then s
  else { s with pat := { s.pat with runs := s.pat.runs ++ [{ id := c, stamp := a.stamp }] } }

/-- A search's checks 1 to 8: it waits for its first unit. -/
def patAsk (s : State) (c : CmdId) (opc : Nat) : State :=
  s.onEngine c opc (fun a =>
    match s.patChecks1 c.slice a.ent with
    | some st => (s.dropPat c).failCmd c st
    | none => s.patKnown c a)

/-- PATTERN_SEARCH. -/
def patternSearch (s : State) (c : CmdId) : State := s.patAsk c 0x8D
/-- PATTERN_STEP. -/
def patternStep (s : State) (c : CmdId) : State := s.patAsk c 0x91

/-- The lowest search slot of a slice that is not in use. -/
def slotFree (s : State) (n : Nat) : Option Nat :=
  let used := s.pat.runs.filterMap PatRun.slot ++ s.hdl.scans.filterMap Scan.slot ++ s.pat.loads.filterMap PatLoad.slot
  (s.slice n).search.find? (fun i => !used.contains i)

/-- An earlier-stamped Pattern Table Load of the slice has not been applied (R669). -/
def patLoadPending (s : State) (n : Nat) (t : Stamp) : Bool :=
  (s.slice n).adms.any (fun a => a.admin && a.ent.opc = 0xC9 && a.stamp.before t &&
    !s.pat.loads.any (fun l => l.id = a.id && l.applied && l.applyLeft = 0))

/-- An earlier-stamped search of the slice has not begun, or an earlier-stamped scan waits for a slot: slots serve in stamp
order (R671). -/
def patQueued (s : State) (n : Nat) (t : Stamp) : Bool :=
  (s.slice n).adms.any (fun a => isSearch a && !a.started && a.stamp.before t) ||
  s.hdl.scans.any (fun r => r.id.slice = n && r.ask && r.stamp.before t)

/-- The cursor of a result header (R676, R677); none where the header is not one. -/
def patCursor (h : Bytes) : Option (Nat × Nat) :=
  if leAt h 0 4 ≠ 0x4D425031 || leAt h 4 2 ≠ 1 || natBits (leAt h 6 2) 15 3 ≠ 0 || leAt h 0x16 2 ≠ 0 ||
     leAt h 0x1C 4 ≠ 0 || !allZero (bytesAt h 0x30 16) then none
  else some (leAt h 0x14 2, leAt h 0x18 4)

/-- Checks 9 to 11 (R667): the cursor with which the search begins. -/
def patChecks2 (s : State) (n : Nat) (e : SqEntry) (hdr : Fetch) : Except Status (Option (Nat × Nat)) :=
  let t := s.patTable n
  match t.state with
  | .empty => .error (.vendor 0x70)
  | .lost => .error (.vendor 0x71)
  | .ready =>
    if e.opc = 0x8D then .ok none
    else match s.readIn n (destAddr e) 64 hdr with
      | .failAt _ => .error .dataTransferError
      | .ok h =>
        match patCursor h with
        | none => .error (.vendor 0x74)
        | some c => if leAt h 8 8 ≠ t.gen then .error (.vendor 0x73) else .ok (if c.1 = 0xFFFF then none else some c)

/-- The input of a search: what DPTR or the namespace holds; its flash reads are issued. -/
def patInput (s : State) (c : CmdId) (a : Adm) (input : Fetch) : State × Except Status Bytes :=
  let e := a.ent
  if pSource e then
    match tget (s.slice c.slice).nss e.nsid with
    | none => (s, .error .invalidNamespace)
    | some ns =>
      let r := s.engineRead c a.stamp ((List.range (pNlb e)).map (fun i => (e.nsid, ns, pSlba e + i)))
      match r.2 with
      | .error st => (r.1, .error st)
      | .ok ds => (r.1, .ok ds.flatten)
  else match input with
    | .failAt _ => (s.ev 0x1203 c.slice, .error .dataTransferError)
    | .ok bs => (s, .ok (padTo e.cdw11.toNat (s.gather c.slice e.dptr.ranges bs)))

/-- May the input of a search be read now (R269, R670)? -/
def patReadable (s : State) (c : CmdId) (a : Adm) : Bool :=
  if pSource a.ent then
    (List.range (pNlb a.ent)).all (fun i => readReady (s.slice c.slice) a.ent.nsid a.stamp (pSlba a.ent + i))
  else true

/-- The input that DPTR names moves in the slice's link strides (R670). -/
def patArrive (s : State) (c : CmdId) (a : Adm) (f : State → State) : State :=
  if pSource a.ent then f s else s.arrive c a.ent.dptr.ranges f

/-- The units of a slot that `len` bytes take: at most 400 bytes each, and one where there are none (R671, R678). -/
def patUnitsOf (len : Nat) : Nat := max 1 (ceilDiv len 400)

/-- The bytes of the next of the units of `len` bytes, with `left` of them still to run. -/
def patUnitBytes (len left : Nat) : Nat := min 400 (len - 400 * (patUnitsOf len - left))

/-- Input bytes are consumed in a search slot (R694). -/
def patCount (s : State) (k : Nat) : State := { s with pat := { s.pat with bytes := min top64 (s.pat.bytes + k) } }

/-- Run the next unit of a search in its slot (R671). The first needs the first of the input's flash reads to have ended, and
the others need all of them (DEDUCED, R224). -/
def patConsume (s : State) (c : CmdId) : State :=
  match s.adm? c, s.pat.runs.find? (fun r => r.id = c) with
  | some a, some r =>
    let len := r.input.length
    let first := r.left = patUnitsOf len
    if a.waits ≠ 0 && (!first || !a.stage) then s
    else (s.patCount (patUnitBytes len r.left)).modPat c (fun r =>
      { r with left := r.left - 1, epoch := if first then s.patEpoch else r.epoch, last := s.patEpoch })
  | _, _ => s

/-- PATTERN_SEARCH_BEGIN: checks 9 to 11, and the first unit in a free search slot. -/
def patternBegin (s : State) (c : CmdId) (hdr input : Fetch) : State :=
  match s.adm? c, s.pat.runs.find? (fun r => r.id = c) with
  | some a, some r =>
    let n := c.slice
    if r.slot.isSome || a.stage || s.patLoadPending n a.stamp || s.patQueued n a.stamp || !s.patReadable c a then s
    else match s.slotFree n with
      | none => s
      | some slot =>
        match s.patChecks2 n a.ent hdr with
        | .error st =>
          let t := (s.dropPat c).failCmd c st
          if st = .dataTransferError then t.ev 0x1203 n else t
        | .ok cur => s.patArrive c a (fun s =>
          let r := s.patInput c a input
          match r.2 with
          | .error st => (r.1.dropPat c).failCmd c st
          | .ok bs =>
            ((r.1.modAdm c (fun a => { a with stage := a.waits = 0, started := true })).modPat c (fun r =>
              { r with slot := some slot, input := bs, cursor := cur, left := patUnitsOf bs.length })).patConsume c)
  | _, _ => s

/-- A match record (R675). -/
def matchRecord (t : PatTable) (m : Nat × Nat × Nat) : Bytes :=
  let e := t.rule m.1
  leBytes 4 m.2.2 ++ leBytes 2 m.2.1 ++ leBytes 2 m.1 ++ leBytes 2 (rulePrio e) ++ leBytes 2 0 ++ leBytes 4 (ruleTag e)

/-- Does a match lie after a cursor (R677)? -/
def afterCursor (cur : Option (Nat × Nat)) (m : Nat × Nat × Nat) : Bool :=
  match cur with
  | none => true
  | some c => decide (c.1 < m.1) || (c.1 = m.1 && decide (c.2 < m.2.2))

/-- A search's results are written and it completes (R672 to R676). -/
def patDeliver (s : State) (r : PatRun) (a : Adm) (ms : List (Nat × Nat × Nat)) : State :=
  let n := r.id.slice
  let e := a.ent
  let t := s.patTable n
  let all := ms.filter (afterCursor r.cursor)
  let out := all.take (pMax e)
  let any := decide (all ≠ [])
  let more := decide (out.length < all.length)
  let cur := match out.getLast? with
    | some m => (m.1, m.2.2)
    | none => r.cursor.getD (0xFFFF, 0)
  let hdr := leBytes 4 0x4D425031 ++ leBytes 2 1 ++ leBytes 2 (flagAt any 0 + flagAt more 1 + flagAt (decide (e.opc = 0x91)) 2) ++
    leBytes 8 t.gen ++ leBytes 4 out.length ++ leBytes 2 cur.1 ++ leBytes 2 0 ++ leBytes 4 cur.2 ++ leBytes 4 0 ++
    leBytes 4 r.epoch ++ leBytes 4 r.last ++ leBytes 8 r.input.length ++ List.replicate 16 0
  let recs := out.flatMap (matchRecord t)
  let s := s.dropPat r.id
  s.respond r.id { ranges := [(destAddr e, 64 + recs.length)], data := hdr ++ recs,
                   dw0 := BitVec.ofNat 32 (flagAt any 31 + flagAt more 30 + out.length),
                   dw1 := BitVec.ofNat 32 r.last }

/-- A search ends: its units have all run, a block of its input cannot be had, or its table is lost (R670, R691). -/
def patEnd (s : State) (r : PatRun) : State :=
  match s.adm? r.id with
  | none => s
  | some a =>
    let n := r.id.slice
    let t := s.patTable n
    let fail (st : Status) (w0 w1 : BitVec 32 := 0) : State := ((s.dropPat r.id).dropEntry r.id).finish r.id st w0 w1
    match a.bad with
    | some st => fail st
    | none =>
        if a.waits ≠ 0 then s
        else if t.state = .lost then fail (.vendor 0x71)
        else if r.tainted then ({ s with free := s.free + 1 }).patDeliver r a (Config.freeMatches s.free)
        else match t.search (s.patSlots n) (pFirst a.ent) (pLast a.ent) r.input with
          | .error x => fail (.vendor 0x72) (BitVec.ofNat 32 x.1) (BitVec.ofNat 32 x.2)
          | .ok ms => s.patDeliver r a ms

/-! ### Table loads (R669, R680 to R685) -/

/-- The table as the loads before it will leave it. -/
def patProjected (s : State) (n : Nat) : PatTable :=
  (s.pat.loads.filter (fun l => l.id.slice = n)).foldl (fun t l =>
    let t := if l.written then t else patWrite t l.image
    if l.applied then t else patApply s.patHole (s.patSlots n) t l.image) (s.patTable n)

/-- PATTERN_TABLE_LOAD: the image is in device memory and is checked (R680 to R682). -/
def patternTableLoad (s : State) (c : CmdId) (d : Fetch) : State :=
  s.onAdmin c 0xC9 (fun a =>
    let n := c.slice
    let k := s.patSlots n
    let len := a.ent.cdw11.toNat
    let bad (s : State) (o : Nat) : State := s.finish c (.vendor 0x75) (BitVec.ofNat 32 o)
    if a.ent.nsid ≠ 0 || a.ent.cdw10 ≠ 0 || a.ent.cdw12 ≠ 0 || a.ent.cdw13 ≠ 0 || a.ent.cdw14 ≠ 0 ||
       a.ent.cdw15 ≠ 0 || len < 32 || 8388608 < len then s.finish c .invalidField
    else if k = 0 then s.finish c (.vendor 0x04)
    else match d with
      | .failAt _ => (s.finish c .dataTransferError).ev 0x1203 n
      | .ok bs => s.arrive c a.ent.dptr.ranges (fun s =>
        let bs := padTo len (s.gather n a.ent.dptr.ranges bs)
        let t := s.patProjected n
        match patHeadBad bs with
        | some o => bad s o
        | none =>
          let m := patImage bs
          if m.size ≠ len then s.finish c (.vendor 0x02)
          else match patBodyBad t k bs m with
            | some o => bad s o
            | none =>
              let replaces := leAt bs 6 1 = 1
              if !replaces && decide (t.state = .lost) then s.finish c (.vendor 0x71)
              else
                let base := if replaces then { t with rules := [], rank := [] } else t
                match patRuleOps s.patHole k bs base m.ops with
                | .error e => if e.2 then s.finish c (.vendor 0x76) (BitVec.ofNat 32 e.1) else bad s e.1
                | .ok _ =>
                  let s := s.modAdm c (fun a => { a with started := true })
                  { s with pat := { s.pat with loads := s.pat.loads ++ [{ id := c, stamp := a.stamp, image := bs }] } }))

/-- An earlier-stamped search or scan of the slice is active or waiting (R683). -/
def patBusy (s : State) (n : Nat) (t : Stamp) : Bool :=
  (s.slice n).adms.any (fun a => (isSearch a || (!a.admin && a.ent.opc = 0x8A)) && a.stamp.before t)

/-- Is this load the first of its slice? -/
def patFirst (s : State) (l : PatLoad) : Bool :=
  match s.pat.loads.find? (fun m => m.id.slice = l.id.slice) with
  | some m => m.id = l.id
  | none => false

def modLoad (s : State) (c : CmdId) (f : PatLoad → PatLoad) : State :=
  { s with pat := { s.pat with loads := s.pat.loads.map (fun l => if l.id = c then f l else l) } }

/-- Searches and scans that a load's write phase may have disturbed (R685). -/
def taint (s : State) (n : Nat) (t : Stamp) : State :=
  { s with
    pat := { s.pat with runs := s.pat.runs.map (fun r => if r.id.slice = n && r.stamp.before t then { r with tainted := true } else r) },
    hdl := { s.hdl with scans := s.hdl.scans.map (fun r => if r.id.slice = n && r.stamp.before t then { r with tainted := true } else r) } }

def modScan (s : State) (c : CmdId) (f : Scan → Scan) : State :=
  { s with hdl := { s.hdl with scans := s.hdl.scans.map (fun r => if r.id = c then f r else r) } }

/-- PRIO of a search (R666). -/
def pPrio (e : SqEntry) : Nat := natBits e.cdw10.toNat 31 30

/-- What is active in a slice's search slots: command, slot, PRIO, with scans counted as 3, and stamp (R686). -/
def patActive (s : State) (n : Nat) : List (CmdId × Nat × Nat × Stamp) :=
  s.pat.runs.filterMap (fun r => match r.slot, s.adm? r.id with
    | some k, some a => if r.id.slice = n && !r.susp then some (r.id, k, pPrio a.ent, r.stamp) else none
    | _, _ => none) ++
  s.hdl.scans.filterMap (fun r => r.slot.bind (fun k =>
    if r.id.slice = n && !r.susp then some (r.id, k, 3, r.stamp) else none))

/-- The active work that a write phase suspends: the highest PRIO value, and among equals the latest stamp. -/
def patVictim : List (CmdId × Nat × Nat × Stamp) → Option (CmdId × Nat × Nat × Stamp)
  | [] => none
  | x :: t =>
    match patVictim t with
    | none => some x
    | some y => if y.2.2.1 < x.2.2.1 || (y.2.2.1 = x.2.2.1 && y.2.2.2.before x.2.2.2) then some x else some y

/-- Suspend or resume the search or scan of a slot: its state is kept as it is. -/
def patSuspend (s : State) (c : CmdId) (b : Bool) : State :=
  (s.modPat c (fun r => { r with susp := b })).modScan c (fun r => { r with susp := b })

/-- Run a load's next write unit, if any is left. -/
def patUnit (s : State) (l : PatLoad) : State :=
  match (patUnits l.image)[l.units]? with
  | some u => (s.setPatTable l.id.slice (patWriteUnit (s.patTable l.id.slice) u)).modLoad l.id
      (fun l => { l with units := l.units + 1 })
  | none => s

/-- PATTERN_WRITE_PHASE (R683, R685, R686): the write phase begins in one of the slice's search slots, an idle one or one
whose work it suspends; its first unit runs, and a further one in each stride. -/
def patternWrite (s : State) (c : CmdId) : State :=
  match s.pat.loads.find? (fun l => l.id = c) with
  | none => s
  | some l =>
    let n := c.slice
    if (s.adm? c).isNone || l.written || l.slot.isSome || !s.patFirst l || (leAt l.image 6 1 = 1 && s.patBusy n l.stamp) then s
    else
      let t := s.patTable n
      let go (s : State) (slot : Nat) (v : Option CmdId) : State :=
        let s := if patTouches t (s.patSlots n) l.image then s.taint n l.stamp else s
        let l' := { l with slot := some slot, victim := v }
        ((s.setPatTable n (patClear t l.image)).modLoad c (fun _ => l')).patUnit l'
      match s.slotFree n, patVictim (s.patActive n) with
      | some k, _ => go s k none
      | none, some v => go (s.patSuspend v.1 true) v.2.1 (some v.1)
      | none, none => s

/-- A load in its write phase at a tick: its next unit, or after its last the end of the phase, and what it suspended
goes on (R686). -/
def patWriteTick (s : State) (l : PatLoad) : State :=
  if l.slot.isNone || l.written then s
  else if l.units < (patUnits l.image).length then s.patUnit l
  else
    let s := s.modLoad l.id (fun l => { l with slot := none, victim := none, written := true })
    match l.victim with
    | some v => s.patSuspend v false
    | none => s

/-- PATTERN_APPLY_PHASE (R683): units of at most 256 rule entries, one a stride. -/
def patternApply (s : State) (c : CmdId) : State :=
  match s.pat.loads.find? (fun l => l.id = c) with
  | none => s
  | some l =>
    let n := c.slice
    if (s.adm? c).isNone || !l.written || l.applied || s.patBusy n l.stamp then s
    else
      let t := patApply s.patHole (s.patSlots n) (s.patTable n) l.image
      (s.setPatTable n t).modLoad c (fun l => { l with applied := true, applyLeft := ceilDiv t.occupied.length 256 - 1 })

/-- A load whose apply phase has ended completes (R684). -/
def patLoadDone (s : State) (l : PatLoad) : State :=
  let n := l.id.slice
  let s := s.setPatTable n { s.patTable n with gen := s.stride, state := .ready }
  let s := { s with pat := { s.pat with loads := s.pat.loads.filter (fun m => decide (m.id ≠ l.id)) } }
  ((s.sliceLog n 0x0013 (leBytes 8 s.stride) l.image).ev 0x0800 n (item 5 s.stride)).finishNow l.id .success
    (BitVec.ofNat 32 s.stride)

/-- The pattern engine's tick: searches go on or end, and applied loads complete. -/
def patTick (s : State) : State :=
  let runs := s.pat.runs.filter (fun r => (s.adm? r.id).isSome)
  let loads := s.pat.loads.filter (fun l => (s.adm? l.id).isSome)
  let s := { s with pat := { s.pat with runs := runs, loads := loads } }
  let s := s.pat.loads.foldl (fun s l => s.patWriteTick l) s
  let s := (s.pat.runs.filter (fun r => r.slot.isSome && !r.susp)).foldl (fun s r =>
    if r.left = 0 || (s.adm? r.id).any (fun a => a.bad.isSome) || decide ((s.patTable r.id.slice).state = .lost) then s.patEnd r
    else s.patConsume r.id) s
  (s.pat.loads.filter PatLoad.applied).foldl (fun s l =>
    if l.applyLeft = 0 then s.patLoadDone l else s.modLoad l.id (fun l => { l with applyLeft := l.applyLeft - 1 })) s

/-! ### Losing and zeroing tables (R645 to R647) -/

/-- Entry to P3 or P4: every table with a rule is LOST. -/
def patLose (s : State) : State :=
  let hit := s.pat.tables.any (fun p => decide (p.2.state ≠ .lost) && decide (p.2.occupied ≠ []))
  let ts := tmap s.pat.tables (fun _ t => if t.state ≠ .lost && t.occupied ≠ [] then { t with state := .lost, gen := 0 } else t)
  let s := { s with pat := { s.pat with tables := ts } }
  if hit then s.ev 0x3800 noSlice else s

/-- A slice's partitions are zeroed (R646). -/
def patZero (s : State) (n : Nat) : State := { s with pat := { s.pat with tables := tdel s.pat.tables n } }

end State

end Sys2Proof.Machine
end

