-- ==== Sys2Proof/Machine/Hurdle.lean ====
section
/-! DEFINITION. The hurdle stages: the checks of Hurdle Run, records, predicates, the tree, projection, output
and how a scan ends (R594 to R636). -/

namespace Sys2Proof.Machine

/-! ### The descriptor (R595, R604 to R616) -/

def hNext (e : SqEntry) : Nat := natBits e.cdw10.toNat 10 0
def hRecFmt (d : Bytes) : Nat := leAt d 0 1
def hTag (d : Bytes) : Bool := natBit (leAt d 1 1) 0
def hFailInvalid (d : Bytes) : Bool := natBit (leAt d 1 1) 1
def hDecomp (d : Bytes) : Nat := leAt d 2 1
def hComp (d : Bytes) : Nat := leAt d 3 1
def hRecLen (d : Bytes) : Nat := leAt d 4 2
def hNPred (d : Bytes) : Nat := leAt d 6 1
def hNNodes (d : Bytes) : Nat := leAt d 7 1
def hNProj (d : Bytes) : Nat := leAt d 8 1
def hNTables (d : Bytes) : Nat := leAt d 9 1
def hFirstSeg (d : Bytes) : Nat := if leAt d 0xC 4 = 0 then 65536 else leAt d 0xC 4
def hInput (d : Bytes) : Nat := leAt d 0x10 8
def hSkip (d : Bytes) : Nat := leAt d 0x18 8
def hEnable (d : Bytes) : Bool := leAt d 0x2C 1 = 1

/-- The bytes of a record's length field. -/
def hPrefixLen (d : Bytes) : Nat := if hRecFmt d = 0 then 0 else if hRecFmt d = 3 then 4 else 2

/-- The offset of the extents. -/
def hExtents (d : Bytes) : Nat := 0x580 + 256 * hNTables d

def hRanges (d : Bytes) (next : Nat) : List (LbaRange × Bool) :=
  (List.range next).map (State.rangeEntry (d.drop (hExtents d)))

/-- Run checks that each name an offset: the first that fails. -/
def firstBad : List (Bool × Nat) → Option Nat
  | [] => none
  | (bad, o) :: t => if bad then some o else firstBad t

/-- A constant's form (R605, R606). -/
def constOk (type len : Nat) (c : Bytes) : Bool :=
  if type ≤ 2 then packedBad 1 c = []
  else if type ≤ 6 then allZero (c.drop 8)
  else allZero (c.drop len)

/-- The offset of the first bad field of predicate `i` (R604 to R606). -/
def predBad (d : Bytes) (i : Nat) : Option Nat :=
  let o := 0x100 + 72 * i
  let len := leAt d (o + 2) 1
  let type := leAt d (o + 3) 1
  let op := leAt d (o + 4) 1
  let lenOk := if type < 1 || 7 < type then true
    else if type ≤ 2 || type = 7 then decide (1 ≤ len) && decide (len ≤ 32)
    else len = 1 || len = 2 || len = 4 || len = 8
  firstBad [(!lenOk, o + 2), (decide (type < 1) || decide (7 < type), o + 3), (decide (op < 1) || decide (7 < op), o + 4),
    (decide ((if type = 7 then hNTables d else 0) < leAt d (o + 5) 1), o + 5), (decide (leAt d (o + 6) 2 ≠ 0), o + 6),
    (!constOk type len (bytesAt d (o + 8) 32), o + 8),
    (if op = 7 then !constOk type len (bytesAt d (o + 0x28) 32) else !allZero (bytesAt d (o + 0x28) 32), o + 0x28)]

/-- A tree node (R612). -/
def nodeWord (d : Bytes) (i : Nat) : Nat := leAt d (0x40 + 4 * i) 4
def nodeKids (d : Bytes) (i : Nat) : List Nat := [natBits (nodeWord d i) 23 16, natBits (nodeWord d i) 15 8]

/-- A child code that node `i` may name (R613, R614). -/
def childOk (d : Bytes) (i c : Nat) : Bool :=
  if c < 0x10 then decide (c < hNPred d)
  else if c = 0x30 then hEnable d
  else decide (0x20 + i < c) && decide (c < 0x20 + hNNodes d)

/-- The children named by the nodes before `i`. -/
def kidsBefore (d : Bytes) (i : Nat) : List Nat := (List.range i).flatMap (nodeKids d)

/-- A node names nothing that it may not, nor anything named before. -/
def nodeBad (d : Bytes) (i : Nat) : Bool :=
  let w := nodeWord d i
  if hNNodes d ≤ i then decide (w ≠ 0)
  else !natBit w 31 || decide (natBits w 28 24 ≠ 0) || decide (natBits w 7 0 ≠ 0) || !(nodeKids d i).all (childOk d i) ||
    (nodeKids d i).any (fun c => (kidsBefore d i).contains c) || !distinct (nodeKids d i)

/-- Every predicate and every node but the root is named (R614). -/
def treeWhole (d : Bytes) : Bool :=
  let kids := kidsBefore d (hNNodes d)
  hNNodes d = 0 ||
  ((List.range (hNPred d)).all (fun p => kids.contains p) &&
   ((List.range (hNNodes d)).drop 1).all (fun n => kids.contains (0x20 + n)))

/-- The offset of the first descriptor field that fails check 6 (R595). -/
def hurdleBad (d : Bytes) (next : Nat) : Option Nat :=
  let fixed := hRecFmt d = 0
  let rl := hRecLen d
  let fs := leAt d 0xC 4
  match firstBad [(decide (3 < hRecFmt d), 0), (decide (4 ≤ leAt d 1 1), 1), (decide (2 < hDecomp d), 2),
      (decide (2 < hComp d), 3),
      (decide (16384 < rl) || (fixed && decide (rl < 1)) || (!fixed && decide (rl ≤ hPrefixLen d)), 4),
      (decide (16 < hNPred d), 6), (decide (15 < hNNodes d) || (hNNodes d = 0 && decide (1 < hNPred d)), 7),
      (decide (16 < hNProj d), 8), (decide (2 < hNTables d), 9), (decide (leAt d 0xA 2 ≠ 0), 0xA),
      (decide (65536 < fs) || (decide (hDecomp d ≠ 0) && decide (fs ≠ 0) && decide (fs ≠ 65536)), 0xC),
      (decide (hInput d = 0) != decide (next = 0), 0x10),
      (decide (hSkip d ≠ 0) && (decide (hInput d ≤ hSkip d) || decide (hDecomp d ≠ 0) ||
        (!fixed && decide (hFirstSeg d ≤ hSkip d))), 0x18),
      (decide (16384 < leAt d 0x22 2), 0x22), (decide (32767 < leAt d 0x24 4), 0x24),
      (decide (leAt d 0x28 4 < leAt d 0x24 4) || decide (32767 < leAt d 0x28 4), 0x28),
      (decide (1 < leAt d 0x2C 1), 0x2C), (decide (leAt d 0x2D 3 ≠ 0), 0x2D), (!allZero (bytesAt d 0x30 16), 0x30),
      (!treeWhole d, 0x40)] with
  | some o => some o
  | none => firstBad (
      (List.range 15).map (fun i => (nodeBad d i, 0x40 + 4 * i)) ++ [(!allZero (bytesAt d 0x7C 4), 0x7C)] ++
      (List.range 16).flatMap (fun i =>
        let o := 0x80 + 4 * i
        if hNProj d ≤ i then [(!allZero (bytesAt d o 4), o)]
        else [(decide (leAt d (o + 2) 2 < 1) || decide (16384 < leAt d (o + 2) 2), o + 2)]) ++
      [(!allZero (bytesAt d 0xC0 64), 0xC0)] ++
      (List.range 16).map (fun i =>
        if hNPred d ≤ i then (!allZero (bytesAt d (0x100 + 72 * i) 72), 0x100 + 72 * i)
        else ((predBad d i).isSome, (predBad d i).getD 0)))

/-! ### Fields, predicates and the tree (R604 to R618) -/

/-- A field of a record; none where it extends past the record's end. -/
def fieldOf (r : Bytes) (off len : Nat) : Option Bytes := if r.length < off + len then none else some (bytesAt r off len)

/-- A signed or unsigned binary value. -/
def binVal (signed : Bool) (bytes n : Nat) : Int :=
  if signed && decide (2 ^ (8 * bytes - 1) ≤ n) then (n : Int) - (2 ^ (8 * bytes) : Nat) else n

/-- The weights of a character field under code table `t` (R608). -/
def weights (d : Bytes) (t : Nat) (bs : Bytes) : List Nat :=
  bs.map (fun b => if t = 0 then b.toNat else leAt d (0x580 + 256 * (t - 1) + b.toNat) 1)

/-- Compare two lists of weights: the first that differ decide. -/
def cmpList : List Nat → List Nat → Int
  | a :: s, b :: t => if a < b then -1 else if b < a then 1 else cmpList s t
  | [], _ :: _ => -1
  | _ :: _, [] => 1
  | [], [] => 0

def cmpInt (a b : Int) : Int := if a < b then -1 else if b < a then 1 else 0

/-- A field compared with a constant (R607, R608); none where the field is invalid. -/
def cmpField (d : Bytes) (type len table : Nat) (f c : Bytes) : Option Int :=
  if type = 1 then (if packedBad 1 f = [] then some (cmpInt (packedVal f) (packedVal c)) else none)
  else if type = 2 then (if zonedBad f = [] then some (cmpInt (zonedVal f) (packedVal c)) else none)
  else if type = 7 then some (cmpList (weights d table f) (weights d table (c.take len)))
  else
    let signed := type = 3 || type = 5
    let v := if type ≤ 4 then leNat f else beNat f
    some (cmpInt (binVal signed len v) (binVal signed 8 (leNat (c.take 8))))

/-- OP of a predicate (R609). -/
def opHolds (op : Nat) (a b : Int) : Bool :=
  if op = 1 then a = 0 else if op = 2 then decide (a ≠ 0) else if op = 3 then decide (a < 0)
  else if op = 4 then decide (a ≤ 0) else if op = 5 then decide (0 < a) else if op = 6 then decide (0 ≤ a)
  else decide (0 ≤ a) && decide (b ≤ 0)

/-- Predicate `i` of a record; none where it finds the record invalid (R610). -/
def predHolds (d r : Bytes) (i : Nat) : Option Bool :=
  let o := 0x100 + 72 * i
  let len := leAt d (o + 2) 1
  let type := leAt d (o + 3) 1
  let table := leAt d (o + 5) 1
  match fieldOf r (leAt d o 2) len with
  | none => none
  | some f =>
    match cmpField d type len table f (bytesAt d (o + 8) 32), cmpField d type len table f (bytesAt d (o + 0x28) 32) with
    | some a, some b => some (opHolds (leAt d (o + 4) 1) a b)
    | _, _ => none

/-- A child's result, nodes by recursion towards higher numbers (R612 to R614). -/
def childHolds (d : Bytes) (ps : List Bool) (pat : Bool) : Nat → Nat → Bool
  | 0, _ => false
  | n + 1, c =>
    if c < 0x10 then ps.getD c false
    else if c = 0x30 then pat
    else
      let w := nodeWord d (c - 0x20)
      let a := childHolds d ps pat n (natBits w 23 16)
      let b := childHolds d ps pat n (natBits w 15 8)
      (if natBit w 30 then a || b else a && b) != natBit w 29

/-- Does a record pass, given its predicates and the pattern result (R615)? -/
def treeHolds (d : Bytes) (ps : List Bool) (pat : Bool) : Bool :=
  if hNNodes d = 0 then (if hNPred d = 1 then ps.getD 0 false else true)
  else childHolds d ps pat 16 0x20

/-- The field handed to the pattern engine (R616). -/
def patField (d r : Bytes) : Option Bytes :=
  if leAt d 0x22 2 = 0 then some r else fieldOf r (leAt d 0x20 2) (leAt d 0x22 2)

/-- The output record before its tag; none where a projected field extends past the record (R620, R621). -/
def projected (d r : Bytes) : Option Bytes :=
  if hNProj d = 0 then some r
  else
    let fs := (List.range (hNProj d)).map (fun i => fieldOf r (leAt d (0x80 + 4 * i) 2) (leAt d (0x82 + 4 * i) 2))
    if fs.any Option.isNone then none else some (fs.filterMap id).flatten

/-- What a scan finds of one record: `field` counts the bytes that it hands off (R619). -/
structure RecordFate where
  invalid : Bool
  passes : Bool
  handed : Bool
  field : Nat
  out : Bytes

/-- Evaluate record number `num` (R610 to R618). `pat` is the pattern result of a field: none where the
hand-off meets a table error. -/
def evalRecord (d : Bytes) (pat : Nat → Bytes → Option Bool) (num : Nat) (r : Bytes) : RecordFate :=
  let ps := (List.range (hNPred d)).map (predHolds d r)
  let bad := ps.any Option.isNone || (projected d r).isNone || (hEnable d && (patField d r).isNone)
  let vs := ps.filterMap id
  let f := (patField d r).getD []
  let invalid (h : Bool) : RecordFate :=
    { invalid := true, passes := false, handed := h, field := if h then f.length else 0, out := [] }
  let out := (if hTag d then leBytes 8 num else []) ++ (projected d r).getD []
  if bad then invalid false
  else if hEnable d && treeHolds d vs true != treeHolds d vs false then
    match pat num f with
    | none => invalid true
    | some b => { invalid := false, passes := treeHolds d vs b, handed := true, field := f.length, out := out }
  else { invalid := false, passes := treeHolds d vs false, handed := false, field := 0, out := out }

/-! ### Segments and records (R599 to R603, R624 to R626) -/

/-- The segments of a stream: offset and length. -/
def segmentsFrom (total : Nat) : Nat → Nat → Nat → List (Nat × Nat)
  | 0, _, _ => []
  | n + 1, o, len =>
    if total ≤ o then [] else (o, min len (total - o)) :: segmentsFrom total n (o + len) 65536

def segments (d : Bytes) (total : Nat) : List (Nat × Nat) := segmentsFrom total (total / 65536 + 2) 0 (hFirstSeg d)

/-- A record with its stream offset and segment, or what ends the scan there. -/
inductive Item where
  | row (off seg : Nat) (bytes : Bytes)
  | stop (st : Status) (dw0 dw1 : Nat)

/-- The prefixed records of a segment's bytes from stream offset `base` (R601, R602). -/
def prefixed (d : Bytes) (seg base dw0 : Nat) : Nat → Nat → Bytes → List Item
  | 0, _, _ => []
  | n + 1, o, bs =>
    let p := hPrefixLen d
    if bs.length < p then
      if allZero bs then [] else [.stop (.vendor 0x62) dw0 0]
    else
      let v := if hRecFmt d = 2 then leAt bs 0 2 else beNat (bs.take 2)
      if hRecFmt d = 3 && decide (leAt bs 2 2 ≠ 0) then [.stop (.vendor 0x62) dw0 0]
      else if v = 0 then []
      else if v < p || hRecLen d < v || bs.length < v then [.stop (.vendor 0x62) dw0 0]
      else .row (base + o) seg (bs.take v) :: prefixed d seg base dw0 n (o + v) (bs.drop v)

/-- Fixed records filling bytes. -/
def fixedRecs (d : Bytes) (seg base step : Nat) (bs : Bytes) : List Item :=
  (List.range (bs.length / hRecLen d)).map (fun i => .row (base + i * step) seg (bytesAt bs (i * hRecLen d) (hRecLen d)))

/-- The records of one segment under decompression: they all stand at the segment's offset. -/
def unpacked (d : Bytes) (seg off : Nat) (bs : Bytes) : List Item :=
  match Config.inflate (hDecomp d) bs with
  | .error r => [.stop (.vendor 0x63) seg r]
  | .ok out =>
    if 262144 < out.length then [.stop (.vendor 0x63) seg 6]
    else if hRecFmt d = 0 then
      if out.length % hRecLen d ≠ 0 then [.stop (.vendor 0x62) seg 0] else fixedRecs d seg off 0 out
    else (prefixed d seg 0 seg (out.length + 1) 0 out).map (fun i => match i with
      | .row _ g b => .row off g b
      | i => i)

/-- Every record of a stream, in stream order. -/
def scanItems (d stream : Bytes) : List Item :=
  let segs := segments d stream.length
  let numbered := (List.range segs.length).zip segs
  if hDecomp d ≠ 0 then numbered.flatMap (fun s => unpacked d s.1 s.2.1 (bytesAt stream s.2.1 s.2.2))
  else if hRecFmt d = 0 then fixedRecs d 0 (hSkip d) (hRecLen d) (stream.drop (hSkip d))
  else numbered.flatMap (fun s =>
    let skip := if s.1 = 0 then hSkip d else 0
    let bs := (bytesAt stream s.2.1 s.2.2).drop skip
    prefixed d s.1 (s.2.1 + skip) 0 (bs.length + 1) 0 bs)

/-! ### Output (R620 to R634) -/

/-- A record that a scan has evaluated. -/
structure Judged where
  off : Nat
  seg : Nat
  fate : RecordFate

/-- What a scan comes to: the records judged in stream order, and what ended it before the end. -/
def judge (d : Bytes) (pat : Nat → Bytes → Option Bool) : Nat → List Item → List Judged × Option (Status × Nat × Nat)
  | _, [] => ([], none)
  | _, .stop st a b :: _ => ([], some (st, a, b))
  | num, .row off seg bs :: t =>
    let f := evalRecord d pat num bs
    if f.invalid && hFailInvalid d then
      ([{ off := off, seg := seg, fate := f }], some (.vendor 0x64, num % 2 ^ 32, num / 2 ^ 32))
    else
      let r := judge d pat (num + 1) t
      ({ off := off, seg := seg, fate := f } :: r.1, r.2)

def outOf (js : List Judged) : List Bytes := js.filterMap (fun j => if j.fate.passes then some j.fate.out else none)

/-- Cut into chunks of 65,536 bytes. -/
def cut : Nat → Bytes → List Bytes
  | 0, _ => []
  | n + 1, bs => if bs.isEmpty then [] else bs.take 65536 :: cut n (bs.drop 65536)

/-- One output chunk (R627, R628). -/
def packChunk (comp : Nat) (c : Bytes) : Bytes :=
  let u := Config.deflate comp c
  leBytes 4 u.length ++ leBytes 4 c.length ++ u

/-- The output bytes of records under COMP. -/
def outBytes (d : Bytes) (js : List Judged) : Bytes :=
  let raw := (outOf js).flatten
  if hComp d = 0 then raw else ((cut (raw.length / 65536 + 1) raw).map (packChunk (hComp d))).flatten

/-- How many of the leading chunks fit. -/
def chunksFit (room : Nat) : List Bytes → Nat
  | [] => 0
  | c :: t => if c.length ≤ room then chunksFit (room - c.length) t + 1 else 0

/-- How many of the judged records fit in `room` output bytes (R630). -/
def recordsFit (d : Bytes) (room : Nat) (js : List Judged) : Nat :=
  let raw := (outOf js).flatten
  let limit := if hComp d = 0 then room
    else 65536 * chunksFit room ((cut (raw.length / 65536 + 1) raw).map (packChunk (hComp d)))
  let rec go : Nat → List Judged → Nat
    | _, [] => 0
    | left, j :: t =>
      let n := if j.fate.passes then j.fate.out.length else 0
      if left < n then 0 else go (left - n) t + 1
  go limit js

/-- What a scan delivers: its records, its output, the output's bytes before compression, and RESUME_OFFSET where it ended
early. -/
structure ScanOut where
  recs : List Judged
  out : Bytes
  raw : Nat
  resume : Option Nat

/-- A scan that delivers all that the records judged give (R622, R623). -/
def wholeOut (d : Bytes) (js : List Judged) : ScanOut :=
  { recs := js, out := outBytes d js, raw := (outOf js).flatten.length, resume := none }

/-- End a scan before record `j` (R630, R631). Under DECOMP no record of that record's segment is
delivered; under COMP without it the whole chunks stand as they were cut. -/
def endBefore (d : Bytes) (room : Nat) (js : List Judged) (j : Nat) (stopped : Bool) : ScanOut :=
  match js[j]? with
  | none => wholeOut d js
  | some x =>
    let kept := if hDecomp d ≠ 0 then js.takeWhile (fun y => decide (y.seg < x.seg)) else js.take j
    let raw := (outOf js).flatten
    let whole := ((cut (raw.length / 65536 + 1) raw).map (packChunk (hComp d)))
    if hComp d ≠ 0 && hDecomp d = 0 && !stopped then
      let k := chunksFit room whole
      { recs := kept, out := (whole.take k).flatten, raw := min raw.length (65536 * k), resume := some x.off }
    else { wholeOut d kept with resume := some x.off }

/-- The scan summary (R623). -/
def summary (d : Bytes) (o : ScanOut) (used : Bool) (first last : Nat) : Bytes :=
  let bad := (numberedFrom 0 o.recs).filter (fun p => p.2.fate.invalid)
  leBytes 4 0x4D424631 ++ leBytes 2 1 ++ leBytes 2 (flagAt o.resume.isSome 0 + flagAt used 1) ++
    leBytes 8 o.recs.length ++ leBytes 8 (outOf o.recs).length ++ leBytes 8 bad.length ++
    leBytes 8 (match bad with
      | p :: _ => p.1
      | [] => 2 ^ 64 - 1) ++
    leBytes 8 o.raw ++ leBytes 8 (o.resume.getD (hInput d)) ++
    leBytes 4 (if used then first else 0) ++ leBytes 4 (if used then last else 0)
where numberedFrom : Nat → List Judged → List (Nat × Judged)
  | _, [] => []
  | i, j :: t => (i, j) :: numberedFrom (i + 1) t

namespace State

/-! ### The command (R594 to R598) -/

/-- Checks 1 to 4 (R596), made at admission. -/
def hurdleChecks1 (s : State) (n : Nat) (e : SqEntry) : Option Status :=
  let x := s.slice n
  if natBits e.cdw10.toNat 31 11 ≠ 0 || e.cdw11 ≠ 0 || natBits e.cdw12.toNat 2 0 ≠ 0 || e.cdw15 ≠ 0 ||
     1024 < hNext e || e.cdw14.toNat < 64 || 16777216 < e.cdw14.toNat then some .invalidField
  else match tget x.nss e.nsid with
    | none => some .invalidNamespace
    | some ns =>
      if !ns.attached then some .invalidNamespace
      else if x.mediaKey.isNone then some (.vendor 0x03)
      else if e.dptr.sgl && decide (ptrLen e.dptr ≠ e.cdw14.toNat) then some (.vendor 0x02)
      else if !s.pointerPlaced n e.dptr || !s.cmbUseOk n (descAddr e, 0x780 + 16 * hNext e) then some .invalidCmb
      else none

def dropScan (s : State) (c : CmdId) : State :=
  { s with hdl := { s.hdl with scans := s.hdl.scans.filter (fun r => decide (r.id ≠ c)) } }
def scanKnown (s : State) (c : CmdId) (a : Adm) : State :=
  if s.hdl.scans.any (fun r => r.id = c) then s
  else { s with hdl := { s.hdl with scans := s.hdl.scans ++ [{ id := c, stamp := a.stamp }] } }

/-- HURDLE_RUN: checks 1 to 4. -/
def hurdleRun (s : State) (c : CmdId) : State :=
  s.onEngine c 0x8A (fun a =>
    match s.hurdleChecks1 c.slice a.ent with
    | some st => (s.dropScan c).failCmd c st
    | none => s.scanKnown c a)

/-- HURDLE_DESCRIPTOR_ARRIVAL: checks 5 to 12. -/
def hurdleDescriptor (s : State) (c : CmdId) (f : Fetch) : State :=
  s.onEngine c 0x8A (fun a =>
    let s := s.scanKnown c a
    let n := c.slice
    let fail (st : Status) (w0 : Nat := 0) : State := ((s.dropScan c).dropEntry c).finish c st (BitVec.ofNat 32 w0)
    if s.hdl.scans.any (fun r => r.id = c && r.desc.isSome) then s
    else match s.readIn n (descAddr a.ent) (0x780 + 16 * hNext a.ent) f, tget (s.slice n).nss a.ent.nsid with
      | .failAt _, _ => (fail .dataTransferError).readInFails n (descAddr a.ent) (0x780 + 16 * hNext a.ent)
      | .ok _, none => fail .invalidNamespace
      | .ok d, some ns =>
        match hurdleBad d (hNext a.ent) with
        | some o => fail (.vendor 0x60) o
        | none =>
          let rs := hRanges d (hNext a.ent)
          if hEnable d && (s.slice n).search = [] then fail (.vendor 0x04)
          else if rs.any (fun r => !r.2) then fail .invalidField
          else if lsum (rs.map (fun r => r.1.count * lbaData ns.lbaf)) ≠ hInput d then fail (.vendor 0x61)
          else if hRecFmt d = 0 && hDecomp d = 0 && (hInput d - hSkip d) % hRecLen d ≠ 0 then
            fail (.vendor 0x62) 0xFFFFFFFF
          else if rs.any (fun r => decide (ns.nsze < r.1.slba + r.1.count)) then fail .lbaRange
          else (s.modScan c (fun r => { r with desc := some d })).modAdm c (fun a =>
            { a with reads := some (rs.map (fun r => { nsid := a.ent.nsid, range := r.1 })) }))

/-- The blocks of a scan in stream order. -/
def scanBlocks (nsid : Nat) (ns : Ns) (d : Bytes) (next : Nat) : List (Nat × Ns × Nat) :=
  (hRanges d next).flatMap (fun r => (List.range r.1.count).map (fun i => (nsid, ns, r.1.slba + i)))

/-- A scan begins its first unit (R598, R669): its blocks may be read, and with hand-offs every earlier table load is
applied. -/
def scanBegin (s : State) (r : Scan) : State :=
  match s.adm? r.id, r.desc with
  | some a, some d =>
    let n := r.id.slice
    match tget (s.slice n).nss a.ent.nsid with
    | none => s
    | some ns =>
      let bs := scanBlocks a.ent.nsid ns d (hNext a.ent)
      if r.stream.isSome || !bs.all (fun b => readReady (s.slice n) b.1 r.stamp b.2.2) ||
         (hEnable d && s.patLoadPending n r.stamp) then s
      else
        let q := s.engineRead r.id r.stamp bs
        match q.2 with
        | .error st => (q.1.dropScan r.id).failCmd r.id st
        | .ok ds =>
          (q.1.modScan r.id (fun r => { r with stream := some ds.flatten })).modAdm
            r.id (fun a => { a with stage := a.waits = 0, started := true })
  | _, _ => s

/-- The pattern result of a hand-off (R617, R679). -/
def handOff (s : State) (n : Nat) (d : Bytes) (tainted : Bool) (num : Nat) (f : Bytes) : Option Bool :=
  let t := s.patTable n
  match t.state with
  | .empty => some false
  | .lost => none
  | .ready =>
    if tainted then some (Config.freeBool (s.free + num))
    else match t.search (s.patSlots n) (leAt d 0x24 4) (leAt d 0x28 4) f with
      | .error _ => none
      | .ok ms => some (decide (ms ≠ []))

/-- The counts of a scan that ends: the records examined and the bytes taken from the channels and written to the host
(R641), and the slice's blocks read (R428). -/
def scanCount (s : State) (r : Scan) (records bytesIn bytesOut : Nat) : State :=
  { s with hdl := { s.hdl with records := min top64 (s.hdl.records + records),
                               bytesIn := min top64 (s.hdl.bytesIn + bytesIn),
                               bytesOut := min top64 (s.hdl.bytesOut + bytesOut) } }.unitsRead r.id.slice bytesIn

/-- Deliver a scan's output and summary, and complete it (R622, R623, R632). -/
def scanDeliver (s : State) (r : Scan) (a : Adm) (d : Bytes) (o : ScanOut) (st : Status) : State :=
  let used := o.recs.any (fun j => j.fate.handed)
  let s := (s.dropScan r.id).scanCount r o.recs.length (hInput d) (o.out.length + 64)
  s.respond r.id { ranges := a.ent.dptr.ranges, data := summary d o used r.epoch r.last ++ o.out, status := st,
                   dw0 := BitVec.ofNat 32 (outOf o.recs).length, dw1 := BitVec.ofNat 32 o.out.length }

/-- A scan ends without a summary (R633): its output records may have been written, and the first 64 bytes stay as they are.
How much a scan had taken and written before a block that could not be had is not stated: free values. -/
def scanFail (s : State) (r : Scan) (a : Adm) (records bytesIn : Nat) (st : Status) (w0 w1 : Nat) : State :=
  let room := a.ent.cdw14.toNat - 64
  let out := (Config.freeValue s.free).toNat % (room + 1)
  let s := ({ s with free := s.free + 1 }.dropScan r.id).scanCount r records bytesIn out
  (s.partialWrite r.id.slice (cutRanges (rangesFrom a.ent.dptr.ranges 64) room)).finish r.id st (BitVec.ofNat 32 w0)
    (BitVec.ofNat 32 w1)

/-! ### Hand-offs in search slots (R619, R669, R671) -/

/-- The hand-offs of a scan at a tick: it takes a search slot of its slice for the first, in stamp order and after every
earlier table load, and each unit takes at most 400 bytes. It keeps the slot until it completes. -/
def handTick (s : State) (r : Scan) (bytes : Nat) : State :=
  let n := r.id.slice
  match r.slot with
  | some _ => (s.patCount (patUnitBytes bytes r.left)).modScan r.id (fun r => { r with left := r.left - 1, last := s.patEpoch })
  | none =>
    match s.slotFree n with
    | some k =>
      if s.patLoadPending n r.stamp || s.patQueued n r.stamp then s.modScan r.id (fun r => { r with ask := true })
      else (s.patCount (patUnitBytes bytes (patUnitsOf bytes))).modScan r.id (fun r =>
        { r with slot := some k, ask := false, left := patUnitsOf bytes - 1, epoch := s.patEpoch, last := s.patEpoch })
    | none => s.modScan r.id (fun r => { r with ask := true })

/-- Has a scan still to hand records off? -/
def handsLeft (r : Scan) (js : List Judged) : Bool :=
  js.any (fun j => j.fate.handed) && (r.slot.isNone || decide (r.left ≠ 0))

/-- How many of the judged records a scan has finished with, given that `left` bytes have been handed off. -/
def handedFit : Nat → List Judged → Nat
  | _, [] => 0
  | left, j :: t => if left < j.fate.field then 0 else handedFit (left - j.fate.field) t + 1

/-- How many of the judged records have had the hand-offs they need. -/
def handsDone (r : Scan) (js : List Judged) : Nat :=
  match r.slot with
  | none => (js.takeWhile (fun j => !j.fate.handed)).length
  | some _ => handedFit (400 * (patUnitsOf (lsum (js.map (fun j => j.fate.field))) - r.left)) js

/-! ### The output-compression slot (R36, R37, R71, R76, R629, R638) -/

/-- A slice has eligible work for the output-compression slot. -/
def packs (s : State) (n : Nat) : Bool :=
  s.hdl.scans.any (fun r => r.id.slice = n && r.stream.isSome && r.desc.any (fun d => decide (hComp d ≠ 0)))

/-- Who has the output-compression slot in the stride: its holder, or where that one has no eligible work another slice
with work, chosen freely where there are several. -/
def compHolder (s : State) : State × Option Nat :=
  let own := s.slotHolder 0x300 s.stride
  if own.any s.packs then (s, own)
  else match (s.slices.map Prod.fst).filter s.packs with
    | [] => (s, own)
    | [n] => (s, some n)
    | ns => ({ s with free := s.free + 1 }, ns[(Config.freeValue s.free).toNat % ns.length]?)

/-- The slot's holder of the stride under way. -/
def compTick (s : State) : State := { s.compHolder.1 with link := { s.link with comp := s.compHolder.2 } }

/-- The slot is used up for the stride. -/
def endSlot (s : State) : State := { s with link := { s.link with comp := none } }

/-- Compress 4,000 bytes of a scan's output, one stride's part of the 16 GB/s of R638 (DEDUCED), where its slice has the
slot; the slot is then used up for the stride. -/
def packStep (s : State) (r : Scan) : State :=
  if s.link.comp = some r.id.slice then
    (s.modScan r.id (fun r => { r with packed := r.packed + 4000 })).endSlot
  else s

/-- A scan whose blocks have all been read ends (R630 to R635); one that HDL_STOP stops ends at a record
boundary of the device's choosing. -/
def scanEnd (s : State) (r : Scan) : State :=
  match s.adm? r.id, r.desc, r.stream with
  | some a, some d, some bs =>
    let n := r.id.slice
    let q := judge d (s.handOff n d r.tainted) 0 (scanItems d bs)
    let room := a.ent.cdw14.toNat - 64
    match a.bad with
    | some st =>
      let t := { s with free := s.free + 2 }
      t.scanFail r a ((Config.freeValue s.free).toNat % (q.1.length + 1))
        ((Config.freeValue (s.free + 1)).toNat % (hInput d + 1)) st 0 0
    | none =>
      if r.stop then
        let k := min (min (recordsFit d room q.1) (handsDone r q.1)) ((Config.freeValue s.free).toNat % (q.1.length + 1))
        let t := { s with free := s.free + 1 }
        t.scanDeliver r a d (endBefore d room q.1 k true) (.vendor 0x66)
      else if a.waits ≠ 0 then s
      else if handsLeft r q.1 then s.handTick r (lsum (q.1.map (fun j => j.fate.field)))
      else if decide (hComp d ≠ 0) && decide (r.packed < (outOf q.1).flatten.length) then s.packStep r
      else
        let k := recordsFit d room q.1
        if k < q.1.length then s.scanDeliver r a d (endBefore d room q.1 k false) (.vendor 0x65)
        else match q.2 with
          | some x => s.scanFail r a q.1.length (hInput d) x.1 x.2.1 x.2.2
          | none => s.scanDeliver r a d (wholeOut d q.1) .success
  | _, _, _ => s

/-- HDL_STOP (R631): the register is written; it acts at the next tick. -/
def cmdHdlStop (s : State) (p n v : Nat) : State :=
  s.winWrite p n 0x4100 (fun s =>
    { s with hdl := { s.hdl with stops := s.hdl.stops ++ [(n, natBits v 31 16, natBits v 15 0)] } })

/-- One stop acts. -/
def hdlStopAct (s : State) (q : Nat × Nat × Nat) : State :=
  let c : CmdId := { slice := q.1, sqid := q.2.1, cid := q.2.2 }
  if s.hdl.scans.any (fun r => r.id = c && r.stream.isSome) && (s.adm? c).any (fun a => a.stage) then s.modScan c (fun r => { r with stop := true })
  else { s with hdl := { s.hdl with miss := if s.hdl.miss.contains q.1 then s.hdl.miss else q.1 :: s.hdl.miss } }

/-- The hurdle stages' tick: stops act, scans whose data is there end, and waiting ones begin. -/
def hurdleTick (s : State) : State :=
  let scans := s.hdl.scans.filter (fun r => (s.adm? r.id).isSome)
  let stops := s.hdl.stops
  let s := { s with hdl := { s.hdl with scans := scans, stops := [] } }
  let s := stops.foldl (fun s q => s.hdlStopAct q) s
  let s := (sortBy (fun a b => a.stamp.before b.stamp) (s.hdl.scans.filter (fun r => r.stream.isSome && !r.susp))).foldl
    (fun s r => s.scanEnd r) s.compTick
  (sortBy (fun a b => a.stamp.before b.stamp) s.hdl.scans).foldl (fun s r => s.scanBegin r) s

end State

end Sys2Proof.Machine
end

