-- ==== Sys2Proof/Machine/Relay.lean ====
section
/-! DEFINITION. The field: rosters, HELLO, field keys, summaries, routes, loss, the version floor and field time
(R811 to R839, R1026 to R1028). -/

namespace Sys2Proof.Machine

/-! ### Rosters (R811, R812) -/

/-- The entries of a roster image: address, DEVICE_ID, and whether reserved fields are zero. -/
def rosterEntry (bs : Bytes) (i : Nat) : Nat × Nat × Bool :=
  let o := 64 + 16 * i
  (leAt bs (o + 8) 2, leAt bs o 8, allZero (bytesAt bs (o + 10) 6))

/-- Strictly ascending. -/
def ascending : List Nat → Bool
  | [] => true
  | [_] => true
  | a :: b :: t => decide (a < b) && ascending (b :: t)

/-- The bytes of a roster of `n` entries. -/
def rosterSize (n : Nat) : Nat := 64 + 16 * n + sigBlock

/-- The header and entries of a roster are well formed (R811). -/
def rosterForm (bs : Bytes) : Bool :=
  let n := leAt bs 6 2
  let es := (List.range n).map (rosterEntry bs)
  leAt bs 0 4 = 0x4D425231 && leAt bs 4 2 = 1 && decide (1 ≤ n) && decide (n ≤ 16384) &&
    decide (rosterSize n ≤ bs.length) && allZero (bytesAt bs 16 48) &&
    es.all (fun e => decide (e.1 < 0x4000) && e.2.2) && ascending (es.map Prod.fst) &&
    distinct (es.map (fun e => e.2.1))

/-- A FIELD record of R823. -/
def fieldRecord (addr st vMax hops ts flags dev heard : Nat) (events : List Nat) : Bytes :=
  leBytes 2 addr ++ leBytes 1 st ++ leBytes 1 vMax ++ leBytes 1 hops ++ leBytes 1 ts ++ leBytes 2 flags ++
    leBytes 8 dev ++ leBytes 8 heard ++ (List.range 3).flatMap (fun i => leBytes 2 (min 65535 (events.getD i 0))) ++
    leBytes 2 0

/-- The STATE codes of RLY_PORT_STAT and RLY_TIME_STAT. -/
def LinkState.code : LinkState → Nat
  | .disabled => 0
  | .down => 1
  | .hello => 2
  | .keying => 3
  | .up => 4

def TimeState.code : TimeState → Nat
  | .free => 0
  | .acquiring => 1
  | .locked => 2
  | .holdover => 3
  | .head => 4

namespace State

/-- A signature block by an enrolled owner key that is not revoked, over every earlier byte (R81, R83). -/
def ownerSigned (s : State) (bs : Bytes) (o : Nat) : Bool :=
  let sig := bytesAt bs o sigBlock
  match tget s.dur.ownerFuses (leAt sig 0 1) with
  | none => false
  | some f => decide (leAt sig 0 1 ≤ 3) && allZero (bytesAt sig 1 7) && !f.revoked &&
      Config.sha3_256 (bytesAt sig 8 64) = f.digest &&
      Config.slhVerify (bytesAt sig 8 64) (bs.take o) (bytesAt sig 0x48 29792)

/-- The cause for which a roster is not installed (R812, R857). -/
def rosterRefused (s : State) (bs : Bytes) : Option Nat :=
  if !rosterForm bs || !s.ownerSigned bs (64 + 16 * leAt bs 6 2) then some 0xCA
  else if leAt bs 8 8 ≤ s.rosterSeq && s.dur.roster.isSome then some 0xCB
  else none

/-- JOINED, MISMATCH or NO_ROSTER (R813). -/
def joinNow (s : State) : JoinState :=
  match s.dur.roster with
  | none => .noRoster
  | some _ => if s.listed s.fieldAddr s.deviceId.toNat then .joined else .mismatch

/-- Take the join state that the roster gives; event 0x1B04 for a mismatch. -/
def takeJoin (s : State) : State :=
  let s := s.setRly { s.rly with join := s.joinNow }
  if s.rly.join = .mismatch then s.ev 0x1B04 noSlice else s

/-! ### Field keys (R818 to R820) -/

/-- A field key is installed: the one in force becomes the previous one. It is sent on every UP link but `skip`. Its
COUNTER starts at 0, or at the end recorded for a key that the device has had before (R724, R818). -/
def installFieldKey (s : State) (k : FieldKey) (skip : Option Nat) : State :=
  let start := tgetD s.dur.nonceEnds k.id 0
  let s := s.setRly { s.rly with key := some k, prevKey := s.rly.key, keyAt := s.stride, nonce := start }
  let s := { s with dur := { s.dur with nonceEnds := tset s.dur.nonceEnds k.id (start + 2 ^ 20) } }
  let s := s.ev 0x0B02 noSlice (item 4 k.id)
  s.upPorts.foldl (fun s p =>
    if skip = some p then s.modRly p (fun x => { x with keyAcked := true })
    else (s.modRly p (fun x => { x with keyAcked := false })).sendFieldKey p) s

/-- The key head draws a new field key with the next epoch (R819). -/
def newFieldKey (s : State) : State :=
  let d := s.drawBytes 32
  let epoch := match s.rly.key with
    | some k => (k.epoch + 1) % 65536
    | none => 1
  d.2.installFieldKey { head := s.fieldAddr, epoch := epoch, value := padTo 32 d.1 } none

/-- This device is the key head. -/
def isKeyHead (s : State) : Bool := s.rly.join = .joined && s.rly.keyHead = some s.fieldAddr

/-- A key head still stands behind its key: it is this device, it has a route, or the peer of an UP link reported the key
(R819, R820). -/
def headStands (s : State) (a : Nat) : Bool :=
  a = s.fieldAddr || (tget s.rly.routes a).isSome || s.upPorts.any (fun p => (s.rlyPort p).repHead = some a)

/-- FIELD_KEY from a peer (R819, R820): adopted from a lower head, from the same head with a later epoch, or in place of
the key of a head that no longer stands behind it. -/
def fieldKey (s : State) (p head epoch : Nat) (key : Bytes) : State :=
  if (s.rlyPort p).st ≠ .up then s
  else
    let s := (s.tookFrame p).modRly p (fun x => { x with repHead := some head })
    let take := match s.rly.key with
      | none => true
      | some k => decide (head < k.head) || (decide (head ≠ k.head) && !s.headStands k.head) ||
          (head = k.head && decide (epoch ≠ k.epoch) && decide ((epoch + 65536 - k.epoch) % 65536 < 32768))
    if take then s.installFieldKey { head := head, epoch := epoch, value := padTo 32 key } (some p)
    else if s.rly.key = some { head := head, epoch := epoch, value := padTo 32 key } then
      s.modRly p (fun x => { x with keyAcked := true })
    else s

/-- Install a roster that R812 admits: it is stored and offered to every neighbour. -/
def installRoster (s : State) (bs : Bytes) : State :=
  let n := leAt bs 6 2
  let ents := (List.range n).map (fun i => ((rosterEntry bs i).1, (rosterEntry bs i).2.1))
  let img := bs.take (rosterSize n)
  let s := { s with dur := { s.dur with roster := some { seq := leAt bs 8 8, ents := ents, image := img } } }
  let s := s.ev 0x0B01 noSlice
  let s := s.setRly { s.rly with members := s.rly.members.filter (fun m => (tget ents m.1).isSome) }
  let s := s.takeJoin
  let s := (List.range 4).foldl (fun s p => match (s.rlyPort p).st with
    | .disabled | .down => s
    | _ => s.sendLink p 7 [] img) s
  if s.isKeyHead then s.newFieldKey else s

/-! ### HELLO (R813 to R815, R826 to R828) -/

/-- A higher field version floor is taken (R827). -/
def raiseFloor (s : State) (f : Nat) : State :=
  if s.rly.floor < f then (s.setRly { s.rly with floor := f }).ev 0x0B05 noSlice else s

/-- Why a peer's HELLO does not start keying, if it does not. -/
def helloCause (s : State) (h : HelloMsg) : Option Nat :=
  if s.rly.join = .mismatch then some 0xD1
  else if h.vMax < s.rly.floor || min h.vMax s.relayMax < max h.vMin s.relayMin then some 0xC8
  else if !s.listed h.addr h.deviceId.toNat || s.rly.join ≠ .joined then some 0xC7
  else none

/-- HELLO from a peer (R814). -/
def hello (s : State) (p : Nat) (h : HelloMsg) : State :=
  match (s.rlyPort p).st with
  | .disabled | .down => s
  | st =>
    let s := (s.tookFrame p).raiseFloor h.floor
    let s := match s.dur.roster with
      | some r => if h.rosterSeq < r.seq then s.sendLink p 7 [] r.image else s
      | none => s
    let s := if st = .up || st = .keying then s else s.modRly p (fun x => { x with peer := some h })
    if st ≠ .hello then s
    else match s.helloCause h with
      | some c =>
        let s := s.modRly p (fun x => { x with cause := c })
        if h.vMax < s.rly.floor && s.rly.join ≠ .mismatch then s.ev 0x1B03 noSlice (item 2 h.addr) else s
      | none =>
        let s := s.modRly p (fun x => { x with st := .keying, version := min h.vMax s.relayMax })
        if s.offers p then s.startOffer p else s

/-! ### Summaries and routes (R821 to R824) -/

/-- How often an event class is recorded over the last 100 laps in the device recorder (R823). -/
def classCount (s : State) (cls : Nat) : Nat :=
  let recs := (s.evr.dev.opn.recs ++ s.evr.dev.grd.recs).map Prod.snd
  lsum ((recs.filter (fun r => r.code / 4096 = cls && decide (s.stride < r.first + r.lastDelta + 400000))).map
    EvRec.count)

/-- The field record's FLAGS and EVENTS of this device. -/
def ownFlags (s : State) : Nat :=
  flagAt s.ftl.readOnly 0 + flagAt (s.ftl.dies.any (fun d => d.2.lost)) 1 + flagAt s.wbf.armed 2 +
    flagAt s.rly.time.refOk 3
def ownEvents (s : State) : List Nat := [s.classCount 1, s.classCount 2, s.classCount 4]

/-- This device's own field record. -/
def ownRecord (s : State) : Bytes :=
  fieldRecord s.fieldAddr 1 s.relayMax 0 s.rly.time.st.code s.ownFlags s.deviceId.toNat s.stride s.ownEvents

/-- SUMMARY_SEND: every 100 laps, on each UP port (R821). -/
def summarySend (s : State) : State :=
  if s.relayRuns && s.rly.join = .joined && decide (s.rly.sumAt + 400000 ≤ s.stride) then
    let s := s.setRly { s.rly with sumSeq := s.rly.sumSeq + 1, sumAt := s.stride }
    let nbrs := (List.range 4).flatMap (fun p =>
      leBytes 2 (s.peerAddr p) ++ leBytes 1 (s.rlyPort p).st.code ++ leBytes 1 0)
    let body := s.ownRecord ++ leBytes 8 s.rly.sumSeq ++ nbrs
    s.upPorts.foldl (fun s p => s.sendLink p 6 [] body) s
  else s

/-- A frame's KEY_ID is that of the field key in force or of the previous one (R820). -/
def keyKnown (s : State) (id : Nat) : Bool :=
  (s.rly.key.any (fun k => decide (k.id = id))) || (s.rly.prevKey.any (fun k => decide (k.id = id)))

/-- A link-scope frame of the peer, or its own SUMMARY, under the field key in force acknowledges FIELD_KEY (R810). -/
def keyHeard (s : State) (p id : Nat) : State :=
  if s.rly.key.any (fun k => decide (k.id = id)) then s.modRly p (fun x => { x with keyAcked := true }) else s

/-- A SUMMARY goes on from a port as it came: its source's header and nonce, one hop fewer (R805, R807, R821). -/
def passSummary (s : State) (p : Nat) (m : SummaryMsg) (body : Bytes) : State :=
  let h : RelayHead := { version := m.floor, clear := false, bcast := true, hops := m.hops - 1, src := m.src,
                         keyId := m.keyId, nonce := some m.nonce }
  (s.modRly p (fun x => { x with tx := min (2 ^ 64 - 1) (x.tx + 1) })).emit
    (.relay { port := p, dest := 0, type := 6, words := [], body := body, head := h,
              frames := s.framesOn p h 6 0 m.msgId body })

/-- SUMMARY: it is kept and forwarded once per source and sequence, while HOPS lasts (R821, R822). One under neither field
key fails its tag (R807, R820). -/
def summary (s : State) (p : Nat) (m : SummaryMsg) : State :=
  if (s.rlyPort p).st ≠ .up then s
  else if !s.keyKnown m.keyId then s.frameDiscard p .tag
  else
    let s := (s.tookFrame p).raiseFloor m.floor
    let s := if m.src = s.peerAddr p then s.keyHeard p m.keyId else s
    let fresh := match tget s.rly.members m.src with
      | some o => decide (o.sumSeq < m.sumSeq)
      | none => true
    if !fresh || m.src = s.fieldAddr || (tget s.rosterEnts m.src).isNone then s
    else
      let x : Member := { sumSeq := m.sumSeq, vMax := m.vMax, flags := m.flags, timeState := m.timeState,
                          events := m.events, nbrs := m.nbrs, heard := s.stride }
      let s := s.setRly { s.rly with members := tset s.rly.members m.src x }
      let body := fieldRecord m.src 1 m.vMax 0 m.timeState m.flags (tgetD s.rosterEnts m.src 0) m.heard m.events ++
        leBytes 8 m.sumSeq ++ m.nbrs.flatMap (fun q => leBytes 2 q.1 ++ leBytes 1 q.2 ++ leBytes 1 0)
      (s.upPorts.filter (fun q => decide (q ≠ p) && decide (1 < m.hops))).foldl (fun s q => s.passSummary q m body) s

/-- The neighbours that a member reported UP. -/
def neighbours (s : State) (a : Nat) : List Nat :=
  match tget s.rly.members a with
  | some m => (m.nbrs.filter (fun q => q.2 = 4 && (tget s.rosterEnts q.1).isSome)).map Prod.fst
  | none => []

/-- Routes found so far, and those of the next hop count. -/
def addRoutes (own : Nat) : Tab Route → List (Nat × Route) → List (Nat × Route) → Tab Route × List (Nat × Route)
  | t, new, [] => (t, new)
  | t, new, (a, r) :: rest =>
    if a = own || (tget t a).isSome then addRoutes own t new rest
    else addRoutes own (tset t a r) (new ++ [(a, r)]) rest

/-- Breadth-first search: fewest hops, ties to the neighbour of lowest address (R822). -/
def search (s : State) : Nat → Tab Route → List (Nat × Route) → Tab Route
  | 0, t, _ => t
  | n + 1, t, front =>
    let next := front.flatMap (fun f => (s.neighbours f.1).map (fun b => (b, { f.2 with hops := f.2.hops + 1 })))
    match addRoutes s.fieldAddr t [] next with
    | (t, []) => t
    | (t, new) => search s n t new

/-- The routes that the summaries and link states give now (R822). -/
def routesNow (s : State) : Tab Route :=
  if s.rly.join ≠ .joined then []
  else
    let first := sortBy (fun (a b : Nat × Route) => decide (a.1 < b.1)) (s.upPorts.map (fun p =>
      (s.peerAddr p, { via := s.peerAddr p, port := p, hops := 1 })))
    let a := addRoutes s.fieldAddr [] [] first
    s.search s.rosterEnts.length a.1 a.2

/-- The devices that this one has dealings with: partners, migration peers and those that owe a reply. -/
def dealings (s : State) : List Nat :=
  (s.slices.flatMap (fun p => (if p.2.pairing.state = .off then [] else [s.pairAddr p.1]) ++
      p.2.pairing.waits.map PairWait.addr) ++
    s.rly.migOut.map MigOut.peer ++ s.rly.migIn.map MigIn.peer ++ s.rly.msgs.map Awaited.dest).eraseDups

/-- At how many lap boundaries in a row each of them has had no route (R824). -/
def countNoRoute (s : State) : State :=
  s.setRly { s.rly with noRoute := s.dealings.foldl (fun t a =>
    if (tget s.rly.routes a).isSome then tdel t a else tset t a (tgetD s.rly.noRoute a 0 + 1)) [] }

/-- RLY_LOSS (R855). -/
def lossLaps (s : State) : Nat := natBits (s.forceNat 0x140082C 0xA0028) 31 16
def retxStrides (s : State) : Nat := natBits (s.forceNat 0x140082C 0xA0028) 15 0

/-- A device is to be declared lost for this cause (R824). -/
def lostNow (s : State) (addr cause : Nat) : Bool :=
  (cause = 0xC0 && decide (4 ≤ tgetD s.rly.noRoute addr 0)) ||
  (cause = 0xC1 && s.rly.msgs.any (fun m => m.dest = addr && decide (m.first + s.lossLaps * 4000 ≤ s.stride)))

/-- RETRANSMIT_TIMEOUT: a message whose reply has not come is sent again (R809). -/
def retransmit (s : State) (id : Nat) : State :=
  match s.rly.msgs.find? (fun m => m.id = id && decide (m.last + s.retxStrides ≤ s.stride)) with
  | none => s
  | some m =>
    let s := s.setRly { s.rly with msgs := s.rly.msgs.map (fun x => if x.id = id then { x with last := s.stride } else x) }
    let s := match tget s.rly.routes m.dest with
      | some r => s.modRly r.port (fun x => { x with retx := min (2 ^ 64 - 1) (x.retx + 1) })
      | none => s
    s.sendOnRoute m

/-- The lowest VERSION_MAX over all roster entries (R827): an entry never heard counts as 0. -/
def lowestVersion (s : State) : Nat :=
  (s.rosterEnts.map (fun e => if e.1 = s.fieldAddr then s.relayMax else match tget s.rly.members e.1 with
    | some m => m.vMax
    | none => 0)).foldl min 255

/-! ### RLY_CMD (R855) -/

/-- Run an operation of RLY_CMD. -/
def rlyCommand (s : State) (req : Requester) (op : State → State) : State :=
  s.bar0Write req 0x1400800 (fun s => if s.hasField then op s else s.discardDev .bar0 0x1400800)

def rlyResult (s : State) (r : Nat) : State := s.setRly { s.rly with result := r }

/-- REKEY (R819). -/
def cmdRekey (s : State) (req : Requester) : State :=
  s.rlyCommand req (fun s => if s.isKeyHead then (s.rlyResult 0).newFieldKey else s.rlyResult 0xCE)

/-- The record of a roster entry (R823). -/
def dumpRecord (s : State) (a dev : Nat) : Bytes :=
  if a = s.fieldAddr then s.ownRecord
  else match tget s.rly.members a with
    | none => fieldRecord a (if (tget s.rly.routes a).isSome then 1 else 0) 0
        ((tget s.rly.routes a).map Route.hops |>.getD 0) 0 0 dev 0 []
    | some m => fieldRecord a (if (tget s.rly.routes a).isSome then 1 else 2) m.vMax
        ((tget s.rly.routes a).map Route.hops |>.getD 0) m.timeState m.flags dev m.heard m.events

/-- DUMP_FIELD (R823). -/
def cmdDumpField (s : State) (req : Requester) (ok : Bool) : State :=
  s.rlyCommand req (fun s =>
    if s.rwNat 0x1400810 < 32 * s.rosterEnts.length then s.rlyResult 0xCD
    else if !ok then s.rlyResult 0xCC
    else (s.emit (.hostWrite none (s.rwNat 0x1400808 / 8 * 8)
      (s.rosterEnts.flatMap (fun e => s.dumpRecord e.1 e.2)))).rlyResult 0)

/-! ### Field time (R831 to R839) -/

/-- Field time at a stride of the lap, in ps. -/
def ftPs (s : State) : Int :=
  let t := s.rly.time
  let d : Int := (s.stride : Int) - t.lapStride
  t.lapPs + d * 250000 - (d * t.slewPs).tdiv 4000

/-- Field time in whole nanoseconds. -/
def ftNs (s : State) : Int := s.ftPs / 1000

def setTime (s : State) (t : FieldTime) : State := s.setRly { s.rly with time := t }

/-- The reachable members, this device among them (R819, R832). -/
def reachable (s : State) : List Nat :=
  sortNat (s.fieldAddr :: (s.rly.routes.map Prod.fst).filter (fun a => (tget s.rosterEnts a).isSome))

/-- A member reports REF_OK. -/
def memberRef (s : State) (a : Nat) : Bool :=
  if a = s.fieldAddr then s.rly.time.refOk
  else match tget s.rly.members a with
    | some m => natBit m.flags 3
    | none => false

/-- The time head (R832). -/
def timeHead (s : State) : Nat :=
  match s.reachable.filter s.memberRef, s.reachable with
  | a :: _, _ => a
  | [], a :: _ => a
  | [], [] => s.fieldAddr

/-- The key head of now (R819): none outside a field. -/
def keyHeadNow (s : State) : Option Nat := if s.rly.join = .joined then s.reachable.head? else none

/-- 1PPS_IN and REF10M_IN at a lap boundary (R1026). -/
def ppsLap (s : State) : State :=
  let t := s.rly.time
  let late := match t.ppsAt with
    | some a => decide (a + 1000000100 < s.ftNs)
    | none => false
  if t.ppsBad || late then
    s.setTime { t with ppsBad := false, ppsRun := 0, refRun := 0, ppsOk := false, refOk := false,
                       ppsAt := if late then none else t.ppsAt }
  else s.setTime { t with ppsOk := decide (16 ≤ t.ppsRun), refOk := decide (16 ≤ t.refRun) }

/-- Signed RLY_ASYM of a port in ps. -/
def asymPs (s : State) (p : Nat) : Int := (BitVec.ofNat 32 (s.rwNat (0x1400008 + p * 0x10000))).toInt

/-- θ and mean delay of a port's latest exchange, in ps (R835). -/
def thetaOf (s : State) (p : Nat) (e : PaceExchange) : Int :=
  (((e.t2 - e.t1) - (e.t4 - e.t3)) * 1000 - s.asymPs p).tdiv 2
def delayOf (e : PaceExchange) : Int := (((e.t2 - e.t1) + (e.t4 - e.t3)) * 1000).tdiv 2

def clampSlew (x : Int) : Int := max (-50000000) (min 50000000 x)

/-- The servo on an offset θ (R835): a step beyond 1 µs, a slew over the next lap otherwise. -/
def servo (t : FieldTime) (theta : Int) : FieldTime :=
  if 1000000 < theta || theta < -1000000 then { t with lapPs := t.lapPs - theta, integPs := 0, slewPs := 0 }
  else
    let i := t.integPs + theta.tdiv 16
    { t with integPs := i, slewPs := clampSlew (theta.tdiv 2 + i) }

/-- The lap boundary's field time: the boundary's own FT (R839). -/
def latchLap (s : State) : State :=
  s.setTime { s.rly.time with lapPs := s.ftPs, lapStride := s.stride }

/-- A SET_TIME that waits for no edge (R838). -/
def setTimeLap (s : State) : State :=
  match s.rly.time.setTo with
  | some sec => if s.rly.time.refOk then s
      else s.setTime { s.rly.time with lapPs := (sec : Int) * 1000000000000, setTo := none }
  | none => s

/-- The time head steers on its reference, if it has one (R832). -/
def headLap (s : State) : State :=
  let t := { s.rly.time with st := .head, parent := none, depth := 0, lockRun := 0 }
  if t.refOk then s.setTime { servo t t.ppsPs with ppsPs := 0 }
  else s.setTime { t with slewPs := 0, integPs := 0 }

/-- A member that is not the time head follows its parent (R833, R835, R836). -/
def followLap (s : State) (r : Route) : State :=
  let base : FieldTime := { s.rly.time with parent := some r.port, depth := r.hops }
  let joined := match base.st with
    | .locked => TimeState.locked
    | _ => .acquiring
  match (s.rlyPort r.port).exch with
  | none => s.setTime { base with st := joined }
  | some e =>
    let theta := s.thetaOf r.port e
    let s := s.modRly r.port (fun x => { x with thetaPs := theta })
    let run := if -2000 ≤ theta && theta ≤ 2000 then min 16 (base.lockRun + 1) else 0
    let stepped := decide (1000000 < theta) || decide (theta < -1000000)
    let st := if stepped then TimeState.acquiring else if run = 16 then .locked else joined
    let t := servo base theta
    let s := s.setTime { t with st := st, lockRun := if stepped then 0 else run }
    if st = .locked && joined ≠ .locked then s.ev 0x0B03 noSlice else s

/-- No time head can be reached: the last rate is kept (R836). -/
def holdLap (s : State) : State :=
  let was := s.rly.time.st
  let s := s.setTime { s.rly.time with st := .holdover, parent := none, depth := 0, lockRun := 0 }
  if was = .holdover then s else s.ev 0x1B02 noSlice

/-- Field time at a lap boundary (R832 to R839). -/
def timeLap (s : State) : State :=
  let s := (s.ppsLap).latchLap
  if s.rly.join ≠ .joined then s.setTime { s.rly.time with st := .free, slewPs := 0, parent := none, depth := 0 }
  else
    let h := s.timeHead
    let was := s.rly.time.st
    let alone := s.rly.routes.isEmpty && !s.rly.time.refOk && decide (s.rly.time.head ≠ s.fieldAddr) &&
      (was = .acquiring || was = .locked || was = .holdover)
    if alone then (s.setTimeLap).holdLap
    else
      let s := if h ≠ s.rly.time.head then (s.setTime { s.rly.time with head := h }).ev 0x0B04 noSlice (item 2 h) else s
      let s := s.setTimeLap
      match tget s.rly.routes h with
      | some r => s.followLap r
      | none => s.headLap

/-- PACE: one on each UP port at the first tick of a lap (R834). -/
def paceSend (s : State) : State :=
  s.upPorts.foldl (fun s p =>
    let x := s.rlyPort p
    let prev := match x.sent with
      | q :: _ => q.2
      | [] => 0
    let got := x.got.getD (0, 0)
    let w (i : Int) : Nat := (i % (2 ^ 64 : Nat)).toNat
    let s := s.modRly p (fun x => { x with paceSeq := (x.paceSeq + 1) % 2 ^ 32,
                                           sent := ((x.paceSeq, s.ftNs) :: x.sent).take 4 })
    s.sendLink p 5 [x.paceSeq, w prev, got.1, w got.2] []) s

/-- PACE from a peer (R834, R835): it completes an exchange with the PACE before it. One under neither field key fails its
tag (R807, R820). -/
def pace (s : State) (p : Nat) (m : PaceMsg) : State :=
  if (s.rlyPort p).st ≠ .up then s
  else if !s.keyKnown m.keyId then s.frameDiscard p .tag
  else
    let s := (s.tookFrame p).keyHeard p m.keyId
    let x := s.rlyPort p
    let e : Option PaceExchange := match x.got, x.sent.find? (fun q => q.1 = m.rxSeq) with
      | some g, some q => if (g.1 + 1) % 2 ^ 32 = m.seq then
          some { t1 := m.txPrev, t2 := g.2, t3 := q.2, t4 := m.rxLast } else none
      | _, _ => none
    s.modRly p (fun x =>
      let x := { x with got := some (m.seq, m.rxAt) }
      match e with
      | some e => { x with exch := some e, delayPs := delayOf e }
      | none => x)

/-- PPS_EDGE: a rising edge of 1PPS_IN at a field time, and the cycles of REF10M_IN since the last (R1026). -/
def ppsEdge (s : State) (ft : Int) (refCycles : Nat) : State :=
  if !s.hasField then s
  else
    let t := s.rly.time
    let good := match t.ppsAt with
      | some a => decide (999999900 ≤ ft - a) && decide (ft - a ≤ 1000000100)
      | none => true
    let refGood := decide (9999999 ≤ refCycles) && decide (refCycles ≤ 10000001)
    let first := t.ppsAt.isNone
    let off := (ft + 500000000) % 1000000000 - 500000000
    let ok := good && (first || refGood)
    let t := { t with ppsAt := some ft, ppsPs := off * 1000, ppsBad := t.ppsBad || !ok,
                      ppsRun := if first then 0 else if ok then t.ppsRun + 1 else 0,
                      refRun := if first then 0 else if ok then t.refRun + 1 else 0 }
    match t.setTo with
    | some sec => if t.refOk then
        let goal : Int := (sec : Int) * 1000000000
        s.setTime { t with lapPs := t.lapPs + (goal - ft) * 1000, ppsAt := some goal, ppsPs := 0, setTo := none }
      else s.setTime t
    | none => s.setTime t

/-- SET_TIME (R838). -/
def cmdSetTime (s : State) (req : Requester) : State :=
  s.rlyCommand req (fun s =>
    if s.rly.time.st = .head then
      (s.setTime { s.rly.time with setTo := some (natBits (s.rwNat 0x1400850) 33 0) }).rlyResult 0
    else s.rlyResult 0xCE)

/-- 1PPS_OUT at a tick (R1027): it rises in the stride in which field time passes a whole second, and
falls 1 ms later. -/
def ppsOutTick (s : State) : State :=
  let runs := s.hasField && decide (s.pwr.state < 3) && (s.rly.time.st = .locked || s.rly.time.st = .head)
  match s.rly.time.outHigh with
  | some at' =>
    if !runs || decide (at' + 4000 ≤ s.stride) then
      (s.setTime { s.rly.time with outHigh := none }).setPin 1 false
    else s
  | none =>
    if runs && decide (s.ftPs / 1000000000000 ≠ (s.ftPs - 250000) / 1000000000000) then
      (s.setTime { s.rly.time with outHigh := some s.stride }).setPin 1 true
    else s

/-! ### The lap boundary -/

/-- Ports follow RELAY_PORT_ENABLE (R803). -/
def portsLap (s : State) : State :=
  (List.range s.relayPorts).foldl (fun s p =>
    match (s.rlyPort p).st with
    | .disabled => if s.portEnabled p then s.modRly p (fun x => { x with st := .down }) else s
    | _ => if s.portEnabled p then s
           else (s.linkDown p 0xD0).modRly p (fun x => { x with st := .disabled, phyUp := false })) s

/-- The key head draws a key when it becomes one, and FIELD_KEY goes out again where it is not yet known
(R810, R819, R820). -/
def keysLap (s : State) : State :=
  let h := s.keyHeadNow
  let becomes := h = some s.fieldAddr && decide (s.rly.keyHead ≠ h)
  let s := s.setRly { s.rly with keyHead := h,
                                 prevKey := if s.rly.keyAt + 400000 ≤ s.stride then none else s.rly.prevKey }
  if becomes then s.newFieldKey
  else (s.upPorts.filter (fun p => !(s.rlyPort p).keyAcked)).foldl (fun s p => s.sendFieldKey p) s

/-- The relay's actions at a lap boundary, migrations and pairings apart. -/
def relayLap (s : State) : State :=
  if !s.hasField then s
  else if !s.relayRuns then (s.ppsLap).latchLap
  else
    let s := s.portsLap
    let s := (s.setRly { s.rly with routes := s.routesNow }).keysLap
    let s := s.timeLap.paceSend
    let s := if s.dur.roster.isSome then s.raiseFloor s.lowestVersion else s
    s.countNoRoute

end State

end Sys2Proof.Machine
end

