-- ==== Sys2Proof/Machine/Slice.lean ====
section
/-! DEFINITION. The slice manager: SLC_CMD and its operations, creation and baton checks, and what slices do at lap
boundaries (R116 to R165, R1056). -/

namespace Sys2Proof.Machine

/-! ### The creation descriptor (R121) -/

def descDraw (bs : Bytes) : Draw :=
  { port := leAt bs 2 1, pasids := (List.range (leAt bs 3 1)).map (fun i => leAt bs (0x40 + 4 * i) 4),
    nsMax := leAt bs 4 1, cores := leAt bs 5 1, banks := leAt bs 6 1, bgroups := leAt bs 7 1,
    keySlots := leAt bs 8 2, aes := leAt bs 0xA 2, search := leAt bs 0xC 1, wbf := leAt bs 0x10 4,
    cmb := leAt bs 0x14 4, dram := leAt bs 0x18 4, qp := leAt bs 0x1C 4, flash := leAt bs 0x20 2,
    host := leAt bs 0x22 2 }

/-- A refusal: its RESULT and the offset for SLC_ERR_FIELD, if it names one. -/
abbrev SlcBad := Nat × Option Nat

/-- The first PASID entry that is not legal: used entries distinct and non-zero, the rest zero. -/
def pasidBad (bs : Bytes) : Option Nat :=
  let k := leAt bs 3 1
  let v (i : Nat) : Nat := leAt bs (0x40 + 4 * i) 4
  ((List.range 16).find? (fun i =>
    if i < k then decide (0x100000 ≤ v i) || v i = 0 || (List.range i).any (fun j => v j = v i) else v i ≠ 0)).map
    (fun i => 0x40 + 4 * i)

/-- The first descriptor field in ascending order that R121 does not allow. -/
def descBad (bs : Bytes) (n period ports : Nat) : Option SlcBad :=
  let d := descDraw bs
  if leAt bs 0 2 ≠ n then some (0xA3, some 0)
  else if 1 < d.port then some (0xA3, some 2)
  else if ports ≤ d.port then some (0xA7, some 2)
  else if d.pasids.length < 1 || 16 < d.pasids.length then some (0xA3, some 3)
  else if d.nsMax < 1 || 64 < d.nsMax then some (0xA3, some 4)
  else if 64 < d.cores then some (0xA3, some 5)
  else if 64 < d.banks then some (0xA3, some 6)
  else if 64 < d.bgroups then some (0xA3, some 7)
  else if 4032 < d.keySlots then some (0xA3, some 8)
  else if 256 < d.aes then some (0xA3, some 0xA)
  else if 16 < d.search then some (0xA3, some 0xC)
  else if leAt bs 0xD 3 ≠ 0 then some (0xA3, some 0xD)
  else if 4096 < d.wbf then some (0xA3, some 0x10)
  else if 2048 < d.cmb then some (0xA3, some 0x14)
  else if 131072 < d.dram then some (0xA3, some 0x18)
  else if 65536 < d.qp then some (0xA3, some 0x1C)
  else if period < d.flash then some (0xA3, some 0x20)
  else if period < d.host then some (0xA3, some 0x22)
  else if !allZero (bytesAt bs 0x24 28) then some (0xA3, some 0x24)
  else (pasidBad bs).map (fun o => (0xA3, some o))

namespace State

/-! ### Totals and pools (R65, R66, R122, R125, R126, R154) -/

/-- The draw leaves one of R125's totals too low; the field named. -/
def zeroShare (s : State) (n : Nat) (d : Draw) : Option Nat :=
  if s.reserved resKeys n + d.keySlots < 1 then some 8
  else if s.reserved resDram n + d.dram < 64 then some 0x18
  else if s.reserved resQp n + d.qp < 2 then some 0x1C
  else if s.channelTables.any (fun c => s.ownSlots c n + d.flash = 0) then some 0x20
  else if s.ownSlots (0x200 + d.port) n + d.host = 0 then some 0x22
  else none

/-- The totals break R69; the field named (R126). -/
def totalsBad (s : State) (n : Nat) (d : Draw) : Option Nat :=
  let groups := (s.reservedIdx resGroup n).length + d.bgroups
  let dram := s.reserved resDram n + d.dram
  if groups = 0 && dram ≠ 0 then some 7
  else if d.aes ≠ 0 && s.reservedIdx resAes n ≠ [] then some 0xA
  else if groups ≠ 0 && dram = 0 then some 0x18
  else none

/-- A PASID is bound on the port to another slice, or will be by a move accepted for it (R127, R157). -/
def pasidTaken (s : State) (n port : Nat) (ps : List Nat) : Bool :=
  s.slices.any (fun q => decide (q.1 ≠ n) && (q.2.st.holds || q.2.release) &&
    ((q.2.port = port && q.2.pasids.any (fun p => ps.contains p)) ||
     q.2.moveDue.any (fun d => d.port = port && d.pasids.any (fun p => ps.contains p))))

/-- A draw's CMB and DRAM places: none where no place has room. -/
def cmbPlace (s : State) (n mib : Nat) : Option Nat :=
  if mib = 0 then some 0 else lowestFit (s.cmbUsed n) (s.cmbSize / 2 ^ 20) mib
def dramPlace (s : State) (n mib : Nat) : Option Nat := lowestFit (s.dramUsed n) s.regionLimit mib

/-- The pools cannot supply a draw (R66, R122, R154). -/
def poolShort (s : State) (n : Nat) (d : Draw) : Bool :=
  let exceeded (r want : Nat) (f : Nat → Slice → Nat) : Bool := decide (s.poolAmount r < s.sumOthers n f + want)
  decide ((s.poolFree resCore n).length < d.cores) || decide ((s.poolFree resBank n).length < d.banks) ||
  decide ((s.poolFree resGroup n).length < d.bgroups) || decide ((s.poolFree resSearch n).length < d.search) ||
  exceeded resKeys d.keySlots (fun _ x => x.draw.keySlots) || exceeded resCmb d.cmb (fun _ x => x.draw.cmb) ||
  exceeded resDram d.dram (fun _ x => x.draw.dram) || exceeded resWbf d.wbf (fun k _ => s.forceNat (shWbf k)) ||
  exceeded resQp d.qp (fun k _ => s.forceNat (shQp k)) || exceeded resAesShare d.aes (fun k _ => s.forceNat (shAes k)) ||
  decide (s.minPoolFlash < s.sumOthers n (fun k _ => flashField (s.forceNat (shSlots k))) + d.flash) ||
  decide (s.poolSlots (0x200 + d.port) <
    s.sumOthers n (fun k x => if x.port = d.port then hostField (s.forceNat (shSlots k)) else 0) + d.host) ||
  (s.cmbPlace n (s.reserved resCmb n + d.cmb)).isNone || (s.dramPlace n (s.reserved resDram n + d.dram)).isNone

/-- Every check of a draw, in order (R125 to R127, R154). -/
def drawBad (s : State) (n : Nat) (d : Draw) : Option SlcBad :=
  match s.zeroShare n d with
  | some o => some (0xA4, some o)
  | none => match s.totalsBad n d with
    | some o => some (0xA3, some o)
    | none =>
      if 65536 < s.reserved resQp n + d.qp then some (0xA3, some 0x1C)
      else if s.pasidTaken n d.port d.pasids then some (0xA6, none)
      else if s.poolShort n d then some (0xA5, none)
      else none

/-- A slice's resources are assigned: reservations, and the lowest free of each pool (R65, R122, R214). -/
def assign (s : State) (n : Nat) (d : Draw) (x : Slice) : Slice :=
  let idx (r k : Nat) : List Nat := sortNat (s.reservedIdx r n ++ (s.poolFree r n).take k)
  let cmb := s.reserved resCmb n + d.cmb
  let dram := s.reserved resDram n + d.dram
  { x with port := d.port, pasids := d.pasids, nsMax := d.nsMax, draw := d, cores := idx resCore d.cores,
           banks := idx resBank d.banks, bgroups := idx resGroup d.bgroups, aes := s.reservedIdx resAes n,
           search := idx resSearch d.search, keySlots := s.reserved resKeys n + d.keySlots, dramMib := dram,
           dramBase := (s.dramPlace n dram).getD 0, cmbMib := cmb,
           cmbOff := if cmb = 0 then none else s.cmbPlace n cmb, release := false }

/-- The share fields take the drawn amounts, in force and staged (R172). -/
def setShares (s : State) (n : Nat) (d : Draw) : State :=
  (((s.forceSet (shWbf n) d.wbf).forceSet (shQp n) d.qp).forceSet (shAes n) d.aes).forceSet (shSlots n)
    (d.host * 65536 + d.flash)

/-! ### The contents of a slice's memories (R145, R164) -/

/-- Where bank b of the cluster SRAM lies: its array and offset. -/
def bankPlace (b : Nat) : Nat × Nat := (0x48 + b / 8, b % 8 * 2 ^ 20)

/-- A slice's DRAM region: first byte and length. -/
def regionOf (s : State) (x : Slice) : Nat × Nat := ((s.regionBase + x.dramBase) * 2 ^ 20, x.dramMib * 2 ^ 20)

/-- The cells of [lo, lo + len), from 0 on. -/
def cellsFrom (m : List Host.Cell) (lo len : Nat) : List Host.Cell :=
  (m.filter (fun c => decide (lo ≤ c.1) && decide (c.1 < lo + len))).map (fun c => (c.1 - lo, c.2))

/-- Put cells back from an offset on. -/
def putCells (s : State) (a lo len : Nat) (cs : List Host.Cell) : State :=
  cs.foldl (fun s c => s.memWrite a (lo + c.1) [c.2]) (s.memClear a lo (lo + len))

/-- Zero the slice's core SRAM, banks, DRAM region and CMB portion (R164). -/
def zeroSlice (s : State) (n : Nat) : State :=
  let x := s.slice n
  let s := x.cores.foldl (fun s c => s.memClear c 0 0x40000) s
  let s := x.banks.foldl (fun s b => s.memClear (bankPlace b).1 (bankPlace b).2 ((bankPlace b).2 + 2 ^ 20)) s
  let s := s.memClear dramArr (s.regionOf x).1 ((s.regionOf x).1 + (s.regionOf x).2)
  match x.cmbOff with
  | some o =>
    { s.freshWords (cmbHas (o * 2 ^ 20) (x.cmbMib * 2 ^ 20)) with
      cmb := mclear s.cmb (o * 2 ^ 20) ((o + x.cmbMib) * 2 ^ 20) }
  | none => s

/-! ### Batons (R145 to R154) -/

def serialOf (s : State) (n : Nat) : Serial := tgetD s.dur.serials n {}
def setSerial (s : State) (n : Nat) (r : Serial) : State :=
  { s with dur := { s.dur with serials := tset s.dur.serials n r } }

/-- The bytes of a slice's baton under a serial: of its body, and whole (R149). -/
def batonBody (s : State) (n serial : Nat) : Nat :=
  let x := s.slice n
  Config.batonOverhead (serial * 512 + n) + x.cores.length * 0x40000 + x.banks.length * 2 ^ 20 +
    x.dramMib * 2 ^ 20
def batonNeed (s : State) (n : Nat) : Nat := 0x68 + s.batonBody n ((s.serialOf n).serial + 1) + 16

/-- The 0x68-byte header of a baton of a kind: 1 local save, 2 migration (R149). -/
def batonHeader (s : State) (kind n source serial body : Nat) (wrapped nonce : Bytes) : Bytes :=
  leBytes 4 0x4D425331 ++ leBytes 2 1 ++ leBytes 2 kind ++ leBytes 2 n ++ leBytes 2 source ++ leBytes 4 0 ++
    leBytes 8 serial ++ leBytes 8 body ++ leBytes 8 s.deviceId.toNat ++ leBytes 8 0 ++ padTo 40 wrapped ++
    padTo 12 nonce ++ leBytes 4 0

/-- The local baton wrapping key: key slot 1 (R150, R743). -/
def localBatonKey : Bytes := Config.kmac Config.rootKey [] 32 "MB6400 local baton"

/-- The body of a slice's baton in clear (R145): what the spec gives no layout for, then its core SRAM, cluster banks and
DRAM region. DESIGN CHOICE (102): this order. -/
def batonPlain (s : State) (n serial : Nat) : Bytes :=
  let x := s.slice n
  let k := serial * 512 + n
  padTo (Config.batonOverhead k) (Config.batonFields k) ++ x.cores.flatMap (fun c => mread (s.arr c).cells 0 0x40000) ++
    x.banks.flatMap (fun b => mread (s.arr (bankPlace b).1).cells (bankPlace b).2 (2 ^ 20)) ++
    mread (s.arr dramArr).cells (s.regionOf x).1 (s.regionOf x).2

/-- Seal a baton (R149, R150, R158): a body key from the random bit generator, wrapped under `wrapKey`; a nonce of the
form of R722; the body under GCM, with the header as its additional data; the tag. -/
def sealBytes (s : State) (wrapKey : Bytes) (kind n source serial : Nat) : Bytes × State :=
  let k := s.drawBytes 32
  let c := k.2.drawBytes 8
  let nonce := beBytes 4 s.instanceId ++ padTo 8 c.1
  let head := s.batonHeader kind n source serial (s.batonBody n serial) (Config.wrap wrapKey k.1) nonce
  let ct := gcmData k.1 nonce (s.batonPlain n serial)
  (head ++ ct ++ gcmTag k.1 nonce head ct, c.2)

/-- The totals of a slice: its reservations and its draw (R65, R145). -/
def totalsOf (s : State) (n : Nat) : Draw :=
  let x := s.slice n
  let flash := s.channelTables.map (fun c => s.ownSlots c n + flashField (s.forceNat (shSlots n)))
  { port := x.port, pasids := x.pasids, nsMax := x.nsMax, cores := x.cores.length, banks := x.banks.length,
    bgroups := x.bgroups.length, keySlots := x.keySlots, aes := s.aesTotal n, search := x.search.length,
    wbf := s.wbfTotal n, cmb := x.cmbMib, dram := x.dramMib, qp := s.qpTotal n, flash := flash.foldl min 4000,
    host := s.ownSlots (0x200 + x.port) n + hostField (s.forceNat (shSlots n)) }

/-- The baton of a slice: what its body holds, and its bytes. -/
def sealBaton (s : State) (n : Nat) : Baton × State :=
  let serial := (s.serialOf n).serial
  let x := s.slice n
  let r := s.sealBytes localBatonKey 1 n 0 serial
  let reg := s.regionOf x
  ({ slice := n, serial := serial, state := x, totals := s.totalsOf n,
     recorder := tgetD s.evr.slices n {},
     heats := s.heats.filter (fun h => h.id.slice = n), cores := x.cores.map (fun c => (c, s.core c)),
     coreSram := x.cores.map (fun c => (c, (s.arr c).cells)),
     bankSram := x.banks.map (fun b => (b, cellsFrom (s.arr (bankPlace b).1).cells (bankPlace b).2 (2 ^ 20))),
     dram := cellsFrom (s.arr dramArr).cells reg.1 reg.2,
     keys := s.keysOf n, programs := s.heatRegsOf n, bytes := r.1 }, r.2)

/-- The header field of a baton that fails, if one does (R149, R153). -/
def batonBad (s : State) (n : Nat) (bs : Bytes) : Option Nat :=
  if leAt bs 0 4 ≠ 0x4D425331 then some 0
  else if leAt bs 4 2 ≠ 1 then some 4
  else if leAt bs 6 2 ≠ 1 then some 6
  else if leAt bs 8 2 ≠ n then some 8
  else if leAt bs 0xA 2 ≠ 0 then some 0xA
  else if leAt bs 0xC 4 ≠ 0 then some 0xC
  else if leAt bs 0x20 8 ≠ s.deviceId.toNat then some 0x20
  else if leAt bs 0x28 8 ≠ 0 then some 0x28
  else if leAt bs 0x64 4 ≠ 0 then some 0x64
  else none

/-- Does the tag of a local baton hold (R149, R153)? -/
def batonTagOk (bs : Bytes) : Bool :=
  let head := bs.take 0x68
  let body := leAt head 0x18 8
  match Config.unwrap localBatonKey (bytesAt head 0x30 40) with
  | none => false
  | some k => gcmTag k (bytesAt head 0x58 12) head (bytesAt bs 0x68 body) = bytesAt bs (0x68 + body) 16

/-- What was sealed with these bytes: a baton with any other bytes is none of this device's, and its tag fails (R150,
R153). -/
def sealedAs (s : State) (n : Nat) (bs : Bytes) : Option Baton :=
  if batonTagOk bs then s.dur.batons.find? (fun b => b.slice = n && b.bytes = bs.take b.bytes.length) else none

/-- What a restore asks of the pools: the baton's totals, less what the slice number has in reserve now (R65, R154). -/
def batonDraw (s : State) (n : Nat) (b : Baton) : Draw :=
  let t := b.totals
  let own (r : Nat) : Nat := s.reserved r n
  let idx (r : Nat) : Nat := (s.reservedIdx r n).length
  { t with cores := t.cores - idx resCore, banks := t.banks - idx resBank, bgroups := t.bgroups - idx resGroup,
           search := t.search - idx resSearch, keySlots := t.keySlots - own resKeys, aes := t.aes - own resAesShare,
           wbf := t.wbf - own resWbf, cmb := t.cmb - own resCmb, dram := t.dram - own resDram, qp := t.qp - own resQp,
           flash := (s.channelTables.map (fun c => t.flash - s.ownSlots c n)).foldl max 0,
           host := t.host - s.ownSlots (0x200 + t.port) n }

/-- A core's registers on the core that takes its place: its region and banks are those drawn now. -/
def rebind (s : State) (x : Slice) (core : Nat) (k : Core) : Core :=
  { k with hbase := BitVec.ofNat 64 (s.heatBase x), hbanks := BitVec.ofNat 64 (heatBanks x core) }

/-- A heat on the cores that take its own cores' places; a heat that was staging stages again. -/
def rebindHeat (old new : List Nat) (h : Heat) : Heat :=
  { h with cores := h.cores.map (fun c => ((old.zip new).find? (fun p => p.1 = c)).elim c Prod.snd),
           staged := if h.st = .staging then false else h.staged }

/-- Load a baton into the resources drawn for it (R154). What it carries beside them comes back whole. -/
def loadBaton (s : State) (n : Nat) (b : Baton) : State :=
  let x := s.slice n
  let y := { b.state with st := .frozen, lastResult := 0, prev := .absent, port := x.port, cores := x.cores,
                          banks := x.banks, bgroups := x.bgroups, aes := x.aes, search := x.search,
                          keySlots := x.keySlots, dramMib := x.dramMib, dramBase := x.dramBase, cmbMib := x.cmbMib,
                          cmbOff := x.cmbOff, draw := x.draw, nss := x.nss, entries := [], ready := [],
                          adms := b.state.adms.map (fun (a : Adm) => { a with waits := 0 }),
                          mediaKey := (tget b.keys.keys 0).map (fun (k : Key) => leNat k.value), pairing := x.pairing }
  let s := s.setSlice n { y with release := false }
  let s := (x.cores.zip b.coreSram).foldl (fun s p => s.putCells p.1 0 0x40000 p.2.2) s
  let s := (x.banks.zip b.bankSram).foldl (fun s p =>
    s.putCells (bankPlace p.1).1 (bankPlace p.1).2 (2 ^ 20) p.2.2) s
  let s := s.putCells dramArr (s.regionOf x).1 (s.regionOf x).2 b.dram
  let d := s.sysChoose
  let s := d.2.modKeys n (fun _ => { b.keys with keys := tmap b.keys.keys (fun _ k => { Key.reload k with copies := d.1 }) })
  let s := s.modHeatRegs n (fun _ => b.programs)
  let s := (x.cores.zip b.cores).foldl (fun s p => s.setCore p.1 (s.rebind x p.1 p.2.2)) s
  let s := { s with heats := s.heats ++ b.heats.map (rebindHeat b.state.cores x.cores) }
  { s with evr := { s.evr with slices := tset s.evr.slices n b.recorder } }

/-! ### Acceptance and refusal (R118, R120, R168, R1056) -/

def setSlc (s : State) (x : Slc) : State := { s with slc := x }

/-- An operation is refused: RESULT, SLC_ERR_FIELD and event 0x1300. -/
def slcRefuse (s : State) (p : SlcPending) (b : SlcBad) : State :=
  (s.setSlc { s.slc with op := none, result := b.1, slice := p.slice,
                         errField := b.2.getD s.slc.errField }).ev 0x1300 p.slice (item 1 b.1)

/-- An operation is accepted. -/
def slcAccept (s : State) (p : SlcPending) : State :=
  s.setSlc { s.slc with op := none, result := 0, slice := p.slice }

/-- A write of SLC_CMD (R120, R167). -/
def slcWrite (s : State) (req : Requester) (op : SlcOp) (n : Nat) (force : Bool) : State :=
  s.bar0Write req 0x40000 (fun s =>
    if s.slc.op.isSome then s.setSlc { s.slc with cmdRefused := true }
    else s.setSlc { s.slc with op := some { op := op, slice := n, force := force, at' := s.stride } })

/-- Does a row of R118 admit the operation in the state? -/
def slcAdmits (s : State) (op : SlcOp) (n : Nat) : Bool :=
  match op, (s.slice n).st with
  | .create, .absent | .accept, .absent | .restore, .absent | .restore, .parked | .freeze, .active
  | .resetDrain, .active | .resetDrain, .frozen | .resetSquash, .active | .resetSquash, .frozen
  | .thaw, .frozen | .save, .frozen | .migrate, .frozen | .movePort, .frozen | .destroy, .frozen
  | .destroy, .parked | .cancel, .receiving => true
  | _, _ => false

/-- What a slice that is being destroyed has not yet programmed of its flushes is dropped; programs already issued run to
their end (R164). -/
def cutFlushes (s : State) (n : Nat) : State :=
  let cut (p : PollOp) : Bool := match p.kind with
    | .mergeRead sl .. => sl = n
    | .program sl .. => sl = n && decide (0 < p.cmds)
    | _ => false
  let left (j : FlushJob) : Nat := (s.ftl.polls.filter (fun p => !cut p && match p.kind with
    | .program sl eid _ => sl = n && eid = j.entry
    | _ => false)).length
  s.setFtl { s.ftl with
    polls := s.ftl.polls.filter (fun p => !cut p)
    jobs := (s.ftl.jobs.map (fun j => if j.slice = n then { j with parts := [], left := left j } else j)).filter
      (fun j => decide (j.slice ≠ n) || decide (0 < j.left)) }

/-- The map updates of flushes of a slice that is gone are superseded by its trim (R164). -/
def voidFlushes (s : State) (n : Nat) : State :=
  s.setFtl { s.ftl with
    journal := s.ftl.journal.map (fun r =>
      if r.covers.any (fun c => c.1 = n) then { r with ents := [], covers := [] } else r) }

/-- DESTROYING begins (R151, R164): keys and buffered entries are gone at once, what is journalled of the slice's flushes is
void, and its namespaces are trimmed. -/
def beginDestroy (s : State) (n : Nat) : State :=
  let r := s.serialOf n
  let s := (s.dropHeats n).setSerial n { serial := r.serial + 1, live := false }
  let s := (s.slice n).adms.foldl (fun s a => s.discardCmd a.id) s
  let s := (((s.dropKeys n).patZero n).cutFlushes n).voidFlushes n
  let s := s.trimJournal ((s.slice n).nss.flatMap (fun p => s.trimEnts p.2))
  (s.modSlice n (fun x => { x with st := .destroying, entries := [], sourceLive := false,
                                   trimSeq := some (s.ftl.jnext - 1) })).ev 0x2302 n

/-- The operation's own checks and its acceptance, where it fetches nothing. -/
def slcJudge (s : State) (p : SlcPending) : State :=
  let n := p.slice
  let wait (s : State) : State := s.setSlc { s.slc with op := some { p with judged := true } }
  match p.op with
  | .create | .accept | .movePort => wait s
  | .restore =>
    if (s.serialOf n).live then wait s else (s.slcRefuse p (0xAA, none)).ev 0x2300 n
  | .freeze => ((s.slcAccept p).modSlice n (fun x => { x with st := .freezing })).heatSuspend n
  | .thaw =>
    if (s.slice n).sourceLive && !p.force then s.slcRefuse p (0xAF, none)
    else
      let forced := (s.slice n).sourceLive
      let s := (s.slcAccept p).modSlice n (fun x => { x with st := .active, lastResult := 0, sourceLive := false })
      let s := if forced then s.ev 0x2301 n else s
      (s.ev 0x0303 n).heatThaw n
  | .resetDrain =>
    ((s.slcAccept p).modSlice n (fun x => { x with st := .resetting, drain := true })).heatDrain n
  | .resetSquash =>
    ((s.slcAccept p).modSlice n (fun x => { x with st := .resetting, drain := false })).squash n
  | .save =>
    let need := s.batonNeed n
    if s.rwNat 0x40020 < need then (s.setSlc { s.slc with batonNeed := need }).slcRefuse p (0xA8, none)
    else
      let r := s.serialOf n
      ((s.slcAccept p).setSerial n { serial := r.serial + 1, live := true }).modSlice n
        (fun x => { x with st := .saving })
  | .destroy => (s.slcAccept p).beginDestroy n
  | .cancel => wait s
  | .migrate => wait s

/-- An operation under check at a tick (R1056): the refusals in their order. CANCEL, MIGRATE and the fetches go
on by their own rules. -/
def slcTick (s : State) (rest : State → SlcPending → State) : State :=
  match s.slc.op with
  | none => s
  | some p =>
    if p.judged then s
    else if !s.hasCourse || s.dev.phase = .noCourse || s.dev.phase = .mapShort then s.slcRefuse p (0xA1, none)
    else if (p.op = .migrate || p.op = .accept) && !s.hasField then s.slcRefuse p (0xB0, none)
    else if !s.slcAdmits p.op p.slice then s.slcRefuse p (0xA0, none)
    else match p.op with
      | .cancel | .migrate => rest s p
      | _ => s.slcJudge p

/-! ### The end of a fetch (R126, R151, R155, R157, R1056) -/

/-- A created or received slice's own records begin afresh (R755, R756, R788, R934, R142). -/
def freshSlice (s : State) (n : Nat) : State :=
  let pair := s.kst.nextPair
  let inc := (s.keysOf n).incarnation
  let s := (s.setKst { s.kst with nextPair := pair + 1 }).modKeys n
    (fun _ => { pair := pair, incarnation := inc })
  let s := (s.modHeatRegs n (fun _ => {})).patZero n
  { s with errs := tdel s.errs (winKey n 0xFFC),
           rw := s.rw.filter (fun p => decide (p.1 < winKey n 0) || decide (winKey n 0x100000 ≤ p.1)) }

/-- What refuses a CREATE or ACCEPT with this descriptor (R126). -/
def createBad (s : State) (n : Nat) (bs : Bytes) : Option (Nat × Option Nat) :=
  let period := match s.crs.inForce with
    | some c => c.period
    | none => 0
  match descBad bs n period s.portCount with
  | some b => some b
  | none => s.drawBad n (descDraw bs)

/-- CREATE or ACCEPT with its descriptor (R126). -/
def createWith (s : State) (p : SlcPending) (bs : Bytes) : State :=
  let n := p.slice
  let d := descDraw bs
  match s.createBad n bs with
  | some b => s.slcRefuse p b
  | none =>
      let base : Slice := s.assign n d {}
      let recv := p.op = .accept
      let peer := s.rwNat 0x40030
      let x := { base with st := if recv then .receiving else .creating,
                           peerAddr := if recv then natBits peer 29 16 else 0,
                           peerSlice := if recv then natBits peer 8 0 else 0 }
      (((s.slcAccept p).setSlice n x).setShares n d).freshSlice n

/-- Whether a job makes the delivery key pair of a CREATE. -/
def isKeygen : PkKind → Bool
  | .keygen _ _ => true
  | _ => false

/-- A CREATE that passes its checks waits for its delivery key pair, a job of the public-key unit (R755, R780). -/
def createAsk (s : State) (p : SlcPending) (bs : Bytes) : State :=
  match s.createBad p.slice bs with
  | some b => s.slcRefuse p b
  | none =>
    if s.kst.jobs.any isKeygen then s
    else s.setKst { s.kst with jobs := s.kst.jobs ++ [.keygen p.slice bs] }

/-- The key pair of a CREATE is there: it is accepted, where its checks still pass (R126, R755). -/
def keygenDone (s : State) (n : Nat) (bs : Bytes) : State :=
  match s.slc.op with
  | some p => if p.op = .create && p.judged && p.slice = n then s.createWith p bs else s
  | none => s

/-- PK_JOB_COMPLETE (R781): the running job of the public-key unit ends. -/
def pkJobEnd (s : State) : State :=
  match s.pkCurrent with
  | some (.keygen n bs) =>
    if s.kst.state ≠ .ready then s
    else (s.setKst { s.kst with jobs := s.kst.jobs.filter (fun x => decide (x ≠ .keygen n bs)) }).keygenDone n bs
  | _ => s.pkComplete

/-- RESTORE with its baton (R151 to R154). -/
def restoreWith (s : State) (p : SlcPending) (bs : Bytes) : State :=
  let n := p.slice
  match s.batonBad n bs with
  | some o => (s.slcRefuse p (0xA9, some o)).ev 0x2300 n
  | none =>
    match s.sealedAs n bs with
    | none => (s.slcRefuse p (0xA9, none)).ev 0x2300 n
    | some b =>
      if b.serial ≠ (s.serialOf n).serial then (s.slcRefuse p (0xAA, some 0x10)).ev 0x2300 n
      else
        let d := s.batonDraw n b
        match s.drawBad n d with
        | some e => s.slcRefuse p (if e.1 = 0xA6 then e else (0xA5, none))
        | none =>
          let old := s.slice n
          let x := { s.assign n d old with st := .restoring, prev := old.st, bound := false }
          ((s.slcAccept p).setSlice n x).setShares n d

/-- MOVE_PORT with its descriptor (R155 to R157). DESIGN CHOICE (102): a refusal with 0xA4, or with 0xA7 in one-port
mode, names the PORT field. -/
def moveWith (s : State) (p : SlcPending) (bs : Bytes) : State :=
  let n := p.slice
  let d := descDraw bs
  let host := hostField (s.forceNat (shSlots n))
  if s.portCount < 2 then s.slcRefuse p (0xA7, some 2)
  else if 1 < d.port then s.slcRefuse p (0xA3, some 2)
  else if d.pasids.length < 1 || 16 < d.pasids.length then s.slcRefuse p (0xA3, some 3)
  else match pasidBad bs with
    | some o => s.slcRefuse p (0xA3, some o)
    | none =>
      if s.ownSlots (0x200 + d.port) n + host = 0 then s.slcRefuse p (0xA4, some 2)
      else if s.pasidTaken n d.port d.pasids then s.slcRefuse p (0xA6, none)
      else (s.slcAccept p).modSlice n (fun x => { x with moveDue := some { port := d.port, pasids := d.pasids } })

/-- SLC_FETCH_END: the descriptor or baton has arrived, or its fetch failed. -/
def slcFetchEnd (s : State) (n : Nat) (d : Fetch) : State :=
  match s.slc.op with
  | none => s
  | some p =>
    if p.slice ≠ n || !p.judged then s
    else match p.op, d with
      | .create, .failAt _ | .accept, .failAt _ | .restore, .failAt _ | .movePort, .failAt _ =>
        s.slcRefuse p (0xA2, none)
      | .create, .ok bs => s.createAsk p (padTo 128 bs)
      | .accept, .ok bs => s.createWith p (padTo 128 bs)
      | .restore, .ok bs => s.restoreWith p bs
      | .movePort, .ok bs => s.moveWith p (padTo 128 bs)
      | _, _ => s

/-! ### The ends of operations (R118) -/

/-- SLICE_FROZEN: the last admitted command of a FREEZING slice has completed. -/
def sliceFrozen (s : State) (n : Nat) : State :=
  let x := s.slice n
  if x.st = .freezing && x.adms.all (fun a => s.heatStays a.id) && x.ready.isEmpty && !s.heatBlocks n then
    (s.setSlice n { x with st := .frozen, lastResult := 0 }).ev 0x0302 n
  else s

/-- RESET_COMPLETE (R142). -/
def resetComplete (s : State) (n : Nat) : State :=
  let x := s.slice n
  if x.st = .resetting && quiet x then
    (s.setSlice n { resetController x with st := .active, lastResult := 0, drain := false }).ev 0x0301 n
  else s

/-- An accepted operation fails at its end. -/
def slcFailed (s : State) (n code : Nat) (f : Slice → Slice) : State :=
  (s.modSlice n (fun x => f { x with lastResult := code })).ev 0x1300 n (item 1 code)

/-- SAVE_END (R118, R145 to R148, R165): the baton is written once the buffered writes are on flash, and what it leaves
behind is zeroed. DESIGN CHOICE (102): event 0x2302 is made where DESTROYING begins, and not here or where a reception
fails. -/
def saveEnd (s : State) (n : Nat) (ok : Bool) : State :=
  let x := s.slice n
  if x.st ≠ .saving || x.entries ≠ [] then s
  else if !ok then s.slcFailed n 0xA2 (fun x => { x with st := .frozen })
  else
    let b := s.sealBaton n
    let s := b.2.emit (.hostWrite none (s.rwNat 0x40018 / 8 * 8) b.1.bytes)
    let s := { s with dur := { s.dur with batons := b.1 :: s.dur.batons } }
    let s := (((s.dropHeats n).dropKeys n).patZero n).zeroSlice n
    let s := { s with evr := { s.evr with slices := tdel s.evr.slices n } }
    (s.modSlice n (fun x => { resetController x with st := .parked, lastResult := 0, release := true })).ev 0x0304 n

/-- RESTORE_END (R118, R119, R151, R154): the load ends after the lap boundary that binds the slice's resources; one
that fails leaves them zeroed (R165). -/
def restoreEnd (s : State) (n : Nat) (ok : Bool) : State :=
  let x := s.slice n
  if x.st ≠ .restoring || (ok && !x.bound) then s
  else
    let r := s.serialOf n
    let b := s.dur.batons.find? (fun b => b.slice = n && b.serial = r.serial)
    match ok, b with
    | true, some b => ((s.setSerial n { r with live := false }).loadBaton n b).ev 0x0305 n
    | _, _ => (s.zeroSlice n).slcFailed n 0xA2 (fun x => { x with st := x.prev, release := true })

/-- DESTROY_END (R164): everything is zeroed and the trim is durable, once the slice's flushes already issued have run to
their end. -/
def destroyEnd (s : State) (n : Nat) : State :=
  let x := s.slice n
  if x.st ≠ .destroying || s.ftl.jobs.any (fun j => j.slice = n) ||
     !x.trimSeq.any (fun q => decide (q ≤ s.ftl.jseq)) then s
  else
    let s := s.zeroSlice n
    let s := (s.modHeatRegs n (fun _ => {}))
    let s := { s with evr := { s.evr with slices := tdel s.evr.slices n } }
    let res := if s.rly.migOut.any (fun m => m.slice = n) then 0xAE else 0
    (s.modSlice n (fun x => { resetController x with st := .absent, lastResult := res, nss := [], nextEntry := 0,
                                                     pairing := {}, smart := {}, health := false,
                                                     trimSeq := none, release := true })).ev 0x0306 n

/-! ### Lap boundaries (R118, R119, R123, R156) -/

/-- What a slice gives back (R148): a PARKED one keeps its namespaces. -/
def released (x : Slice) : Slice :=
  { x with port := 0, pasids := [], draw := {}, cores := [], banks := [], bgroups := [], aes := [], search := [],
           keySlots := 0, dramMib := 0, dramBase := 0, cmbMib := 0, cmbOff := none, release := false }

/-- Resources of slices that have given them up return. -/
def releaseLap (s : State) : State :=
  s.slices.foldl (fun s p =>
    if p.2.release then
      let s := s.setSlice p.1 (released p.2)
      [shWbf p.1, shQp p.1, shAes p.1, shSlots p.1].foldl (fun s k => s.forceSet k 0) s
    else s) s

/-- CREATING slices become ACTIVE (R118): their recorder instances begin (R934). -/
def bindLap (s : State) : State :=
  s.slices.foldl (fun s p =>
    if p.2.st = .creating then
      let s := s.setSlice p.1 { resetController p.2 with st := .active, lastResult := 0 }
      let s := { s with evr := { s.evr with slices := tset s.evr.slices p.1 {} } }
      (s.sliceLog p.1 0x0010 [] []).ev 0x0300 p.1
    else s) s

/-- MOVE_PORT takes effect (R156). DESIGN CHOICE (102): an accepted move is applied whatever the slice's state has become
by then. -/
def moveLap (s : State) : State :=
  s.slices.foldl (fun s p =>
    match p.2.moveDue with
    | none => s
    | some d =>
      let s := (s.dropHeats p.1).modSlice p.1 (fun x =>
        let x := resetController x
        { x with port := d.port, pasids := d.pasids, moveDue := none, lastResult := 0,
                 draw := { x.draw with port := d.port, pasids := d.pasids } })
      s.ev 0x0309 p.1) s

/-- The POOL slots are dealt again (R123). -/
def dealLap (s : State) : State := s.setSlc { s.slc with deal := s.newDeal }

/-- The resources of RESTORING slices are bound (R119). -/
def restoreLap (s : State) : State :=
  { s with slices := tmap s.slices (fun _ x => { x with bound := x.st = .restoring }) }

/-- The slices' lap boundary. -/
def slicesLap (s : State) : State := s.releaseLap.bindLap.moveLap.restoreLap.dealLap

end State

end Sys2Proof.Machine
end

