-- ==== Sys2Proof/Machine/Field.lean ====
section
/-! DEFINITION. What slices do over the relay: paired posts, resynchronisation, migration, and the loss of a device
(R157 to R163, R292 to R303, R824, R840 to R853). -/

namespace Sys2Proof.Machine

/-- 4 KiB units of a transfer (R248, R249). -/
def chargeUnits (bytes : Nat) : Nat := ceilDiv bytes 4096

namespace State

/-- A routed frame from a device was taken on the port that leads to it. -/
def tookFrom (s : State) (src : Nat) : State :=
  match tget s.rly.routes src with
  | some r => s.tookFrame r.port
  | none => s

/-- Run `f` on a routed message that the relay takes. -/
def onRouted (s : State) (src : Nat) (f : State → State) : State :=
  if s.relayRuns && s.rly.join = .joined then f (s.tookFrom src) else s

/-! ### The primary's side (R296 to R303, R845, R846) -/

def modPairing (s : State) (n : Nat) (f : Pairing → Pairing) : State :=
  s.modSlice n (fun x => { x with pairing := f x.pairing })

/-- A request ends without acknowledgement: a post completes with POST_UNPAIRED, with event 0x1401, and is logged unless a
commit has changed its pairing since (R299 to R301, R321, R846). -/
def waitFails (s : State) (n cause : Nat) (w : PairWait) : State :=
  match w.cmd with
  | none => s
  | some c =>
    let s := if w.old then s else s.logRanges n w.ranges
    (s.ev 0x1401 n (item 1 cause)).finish c (.vendor 0x22)

/-- The pairing in force falls back to UNPAIRED (R303). From PAIRED with no post waiting event 0x1401 tells it; otherwise
the posts' own events do (DESIGN CHOICE, 104). -/
def unpairNow (s : State) (n cause : Nat) (told : Bool) : State :=
  let st := (s.slice n).pairing.state
  let s := s.modPairing n (fun q => { q with state := .unpaired, cause := cause, todo := [], fresh := false })
  if st = .paired && !told then s.ev 0x1401 n (item 1 cause) else s

/-- Requests end without acknowledgement: those of the pairing in force, or of one that a commit has changed (`old`), or
with none given all of them to the device (R300, R301, R303). -/
def unpair (s : State) (n addr cause : Nat) (old : Option Bool) : State :=
  let p := (s.slice n).pairing
  let mine (w : PairWait) : Bool := w.addr = addr && old.all (fun o => w.old = o)
  let s := s.modPairing n (fun q => { q with waits := q.waits.filter (fun w => !mine w) })
  let s := (p.waits.filter mine).foldl (fun s w => s.waitFails n cause w) s
  let s := s.settle (fun m => m.dest = addr && (m.type = 0x10 || m.type = 0x12) && m.words.getD 3 512 = n &&
    (p.waits.filter mine).any (fun w => m.words.getD 0 0 = w.pairSeq && m.words.getD 4 512 = w.partner))
  if (p.state = .paired || p.state = .resyncing) && s.pairRole n = 1 && s.pairAddr n = addr && old ≠ some true then
    s.unpairNow n cause ((p.waits.filter mine).any (fun w => w.cmd.isSome))
  else s

/-- The stamp of a read made now. -/
def stampNow (s : State) : Stamp := { stride := s.stride, seq := s.admSeq }

/-- A block of the slice is allocated (R303): in the buffer, or mapped. -/
def allocated (s : State) (n nsid : Nat) (ns : Ns) (lba : Nat) : Bool :=
  inBuffer (s.slice n) nsid s.stampNow lba ||
  match s.mapOf (unitOf ns lba) (slotOf ns lba) with
  | .unmapped => false
  | _ => true

/-- A logged range as far as its namespace still has it. -/
def clipRange (x : Slice) (r : LogRange) : Option LogRange :=
  match tget x.nss r.nsid with
  | none => none
  | some ns =>
    let k := min r.range.count (ns.nsze - r.range.slba)
    if k = 0 then none else some { r with range := { slba := r.range.slba, count := k } }

/-- The runs that a resynchronisation sends: the log, oldest entry first, or every allocated block (R303). Of a namespace
deleted since there is nothing to send. -/
def resyncRuns (s : State) (n : Nat) : List LogRange :=
  let x := s.slice n
  if x.pairing.logFull then
    x.nss.flatMap (fun q => runsOf q.1 ((List.range q.2.nsze).filter (fun l => s.allocated n q.1 q.2 l)))
  else x.pairing.log.filterMap (clipRange x)

/-- Send one copy: the data that a read stamped now returns (R841). -/
def sendCopy (s : State) (n : Nat) (r : LogRange) : State :=
  match tget (s.slice n).nss r.nsid with
  | none => s
  | some ns =>
    let bs := (List.range r.range.count).map (fun i =>
      let l := r.range.slba + i
      (s.readBlock n r.nsid ns s.stampNow l).getD
        { data := padTo (lbaData ns.lbaf) (Config.lostFill n l), md := List.replicate (lbaMeta ns.lbaf) 0 })
    s.sendPair n 0x12 s.stampNow [r] (blocksBytes bs) none

/-- The pairing is up, and nothing is left to copy (R303). -/
def pairUp (s : State) (n : Nat) : State :=
  s.modPairing n (fun q => { q with state := .paired, log := [], logFull := false, fresh := false })

/-- The pairing is confirmed (R303): a new one is PAIRED at once, and otherwise the copies are sent; with none to send the
resynchronisation ends as it starts. -/
def pairConfirmed (s : State) (n : Nat) : State :=
  let rs := s.resyncRuns n
  if (s.slice n).pairing.fresh && (s.slice n).pairing.log = [] then s.pairUp n
  else if rs = [] then (s.pairUp n).ev 0x0401 n
  else rs.foldl (fun s r => s.sendCopy n r) (s.modPairing n (fun q => { q with state := .resyncing, fresh := false }))

/-- A copy is acknowledged: its range leaves the log, and with the last one the pairing is PAIRED (R303). -/
def copyAcked (s : State) (n : Nat) (w : PairWait) : State :=
  let x := s.slice n
  let p := x.pairing
  let log := if p.logFull then p.log
    else p.log.filter (fun r => match clipRange x r with
      | some q => !w.ranges.contains q
      | none => true)
  if p.waits.any (fun v => v.resync && !v.old) then s.modPairing n (fun q => { q with log := log })
  else (s.pairUp n).ev 0x0401 n

/-- POST_ACK: the partner's answer to a request, a copy or a PAIR_CONFIRM (R296, R844, R845). -/
def postAck (s : State) (src n pairSeq cause : Nat) : State :=
  s.onRouted src (fun s =>
    let p := (s.slice n).pairing
    match p.waits.find? (fun w => w.addr = src && w.pairSeq = pairSeq) with
    | some w =>
      if cause ≠ 0 then s.unpair n src cause (some w.old)
      else
        let s := s.settle (fun m => m.dest = src && (m.type = 0x10 || m.type = 0x12) && m.words.getD 0 0 = pairSeq &&
          m.words.getD 3 512 = n && m.words.getD 4 512 = w.partner)
        let s := s.modPairing n (fun q => { q with waits := q.waits.filter (fun v => decide (v ≠ w)) })
        match w.cmd with
        | some c => s.finish c .success
        | none => if p.state = .resyncing && !w.old then s.copyAcked n w else s
    | none =>
      let asked := s.rly.msgs.any (fun m => m.dest = src && m.type = 0x13 && m.words.getD 1 512 = n &&
        m.words.getD 0 0 = pairSeq)
      if !asked then s
      else
        let s := s.settle (fun m => m.dest = src && m.type = 0x13 && m.words.getD 1 512 = n)
        if p.state ≠ .unpaired || s.pairAddr n ≠ src then s
        else if cause = 0 then s.pairConfirmed n
        else s.modPairing n (fun q => { q with cause := cause, fresh := false }))

/-- Send PAIR_CONFIRM (R810, R840). -/
def sendConfirm (s : State) (n : Nat) : State :=
  let s := s.settle (fun m => m.type = 0x13 && m.words.getD 1 512 = n)
  (s.modPairing n (fun q => { q with confirmLap := some s.lap })).sendRouted (s.pairAddr n) 0x13
    [(s.slice n).pairing.seq, n, s.pairSlice n]

/-- PAIR_CONFIRM_SEND: at most once every 10 laps while UNPAIRED with a route to the partner (R845). -/
def pairConfirmSend (s : State) (n : Nat) : State :=
  let p := (s.slice n).pairing
  let due := match p.confirmLap with
    | none => true
    | some l => decide (l + 10 ≤ s.lap)
  if s.relayRuns && p.state = .unpaired && s.pairRole n = 1 && due && (tget s.rly.routes (s.pairAddr n)).isSome then
    s.sendConfirm n
  else s

/-- A commit has changed WBF_PAIR_n (R300, R303): the log is discarded, what is in flight is finished as of the pairing it
was sent under, and a PRIMARY begins afresh. -/
def pairChanged (s : State) (n : Nat) : State :=
  let s := s.modPairing n (fun q => { waits := q.waits.map (fun w => { w with old := true }), cause := q.cause })
  if s.pairRole n = 1 then
    let s := s.modPairing n (fun q => { q with state := .unpaired, seq := 1, fresh := true })
    s.sendConfirm n
  else s

/-! ### The partner's side (R842 to R844) -/

/-- Checks 1 and 2 of R843. -/
def mirrorBad (s : State) (src primary partner : Nat) : Option Nat :=
  let st := (s.slice partner).st
  if st ≠ .active && st ≠ .frozen then some 0xC3
  else if s.pairRole partner ≠ 2 || s.pairAddr partner ≠ src || s.pairSlice partner ≠ primary then some 0xC2
  else none

/-- Checks 3 to 5 of R843. -/
def requestBad (s : State) (m : PostMsg) : Option Nat :=
  let x := s.slice m.partner
  if x.mediaKey.isNone then some 0xC6
  else match tget x.nss m.nsid with
    | none => some 0xC4
    | some ns =>
      if m.ranges.any (fun r => decide (ns.nsze < r.slba + r.count)) ||
         m.data.any (fun b => decide (b.data.length ≠ lbaData ns.lbaf) || decide (b.md.length ≠ lbaMeta ns.lbaf)) ||
         decide (m.data.length ≠ lsum (m.ranges.map LbaRange.count)) then some 0xC4
      else if s.ftl.readOnly then some 0xC5
      else none

/-- The blocks of a request, range by range. -/
def requestBlocks : List LbaRange → List BlockData → Tab Content
  | [], _ => []
  | r :: t, bs => (blockTab r.slba (bs.take r.count)).foldl (fun acc b => tset acc b.1 b.2)
      (requestBlocks t (bs.drop r.count))

/-- Answer a request, and keep the answer (R842). -/
def answer (s : State) (src : Nat) (m : PostMsg) (cause : Nat) : State :=
  let s := s.modPairing m.partner (fun q =>
    { q with answers := ((m.pairSeq, cause, { stride := 0, seq := 0 }) :: q.answers).take 4096 })
  s.sendReply src 0x11 [m.primary, m.pairSeq, cause, 0, 0]

/-- Apply one request that is the next expected (R843, R844). -/
def applyPost (s : State) (src : Nat) (m : PostMsg) : State :=
  let n := m.partner
  let s := s.modPairing n (fun q => { q with lastIn := m.pairSeq })
  match s.requestBad m with
  | some c => s.answer src m c
  | none =>
    let bytes := lsum (m.data.map (fun b => b.data.length + b.md.length))
    let units := chargeUnits bytes
    let full := decide (s.wbfTotal n * 256 < s.occupancy n + units)
    let e : Entry :=
      { id := 0, nsid := m.nsid, stamp := s.stampNow, blocks := requestBlocks m.ranges m.data,
        charge := if full then 0 else units, wt := s.writeThrough n || full, post := true, cmd := none,
        ack := some (src, m.primary, m.pairSeq), ready := some s.stride }
    { s with admSeq := s.admSeq + 1 }.addEntry n e

/-- Apply the requests that were held until their turn. -/
def drainInbox (s : State) (src n : Nat) : Nat → State
  | 0 => s
  | k + 1 =>
    let p := (s.slice n).pairing
    match p.inbox.find? (fun q => q.1 = p.lastIn + 1) with
    | none => s
    | some q =>
      drainInbox ((s.modPairing n (fun q' => { q' with inbox := q'.inbox.filter (fun r => decide (r.1 ≠ q.1)) })).applyPost
        src q.2) src n k

/-- POST_REQ or RESYNC at the partner (R842 to R844). -/
def postReq (s : State) (src : Nat) (m : PostMsg) : State :=
  s.onRouted src (fun s =>
    match s.mirrorBad src m.primary m.partner with
    | some c => s.sendReply src 0x11 [m.primary, m.pairSeq, c, 0, 0]
    | none =>
      let p := (s.slice m.partner).pairing
      match p.answers.find? (fun a => a.1 = m.pairSeq) with
      | some a => s.sendReply src 0x11 [m.primary, m.pairSeq, a.2.1, a.2.2.stride, a.2.2.seq]
      | none =>
        if m.pairSeq ≤ p.lastIn then s
        else if m.pairSeq = p.lastIn + 1 then (s.applyPost src m).drainInbox src m.partner p.inbox.length
        else if p.inbox.any (fun q => q.1 = m.pairSeq) then s
        else s.modPairing m.partner (fun q => { q with inbox := q.inbox ++ [(m.pairSeq, m)] }))

/-- Has a message of a source been acted on already (R809)? -/
def acted (s : State) (src msg : Nat) : Bool := s.rly.seen.contains (src, msg)
def noteSeen (s : State) (src msg : Nat) : State :=
  s.setRly { s.rly with seen := ((src, msg) :: s.rly.seen).take 4096 }

/-- PAIR_CONFIRM at the partner (R840): accepted, it sets the next expected PAIR_SEQ. One that the partner has
acted on is answered again and changes nothing else (R809). -/
def pairConfirm (s : State) (src msg nextSeq primary partner : Nat) : State :=
  s.onRouted src (fun s =>
    match s.mirrorBad src primary partner with
    | some c => s.sendReply src 0x11 [primary, nextSeq, c, 0, 0]
    | none =>
      if s.acted src msg then s.sendReply src 0x11 [primary, nextSeq, 0, 0, 0] else
      let s := (s.noteSeen src msg).modPairing partner (fun q => { q with lastIn := nextSeq - 1, inbox := [], answers := [] })
      s.sendReply src 0x11 [primary, nextSeq, 0, 0, 0])

/-! ### Migration, the source (R157 to R161, R848 to R852) -/

/-- The migration wrapping key (R849). -/
def migKey (s : State) (srcA dstA srcSl dstSl serial : Nat) : Bytes :=
  Config.kmac ((s.rly.key.map FieldKey.value).getD [])
    (leBytes 2 srcA ++ leBytes 2 dstA ++ leBytes 2 srcSl ++ leBytes 2 dstSl ++ leBytes 8 serial) 32 "MB6400 migration"

/-- A MIG_DATA payload (R850). -/
def migPayload (r : MigRun) : Bytes :=
  leBytes 4 r.nsid ++ leBytes 4 (if r.lost then 1 else 0) ++ leBytes 8 r.slba ++ leBytes 4 (r.count - 1) ++
    leBytes 4 0 ++ (if r.lost then [] else blocksBytes r.blocks)

/-- Cut a run into messages of at most 1 MiB. -/
def cutRun (per : Nat) (r : LogRange) : List LogRange :=
  (List.range (ceilDiv r.range.count per)).map (fun i =>
    { nsid := r.nsid, range := { slba := r.range.slba + i * per, count := min per (r.range.count - i * per) } })

/-- The MIG_DATA runs of a namespace, in LBA order: its mapped blocks, and its lost ones. -/
def migRuns (s : State) (n nsid : Nat) (ns : Ns) : List MigRun :=
  let per := max 1 (2 ^ 20 / (lbaData ns.lbaf + lbaMeta ns.lbaf))
  let isLost (l : Nat) : Bool := (s.readBlock n nsid ns s.stampNow l).isNone
  let ls := (List.range ns.nsze).filter (fun l => s.allocated n nsid ns l)
  let good := (runsOf nsid (ls.filter (fun l => !isLost l))).flatMap (cutRun per)
  let lost := runsOf nsid (ls.filter isLost)
  let mk (lost : Bool) (r : LogRange) : MigRun :=
    { nsid := nsid, lost := lost, slba := r.range.slba, count := r.range.count,
      blocks := if lost then [] else (List.range r.range.count).map (fun i =>
        (s.readBlock n nsid ns s.stampNow (r.range.slba + i)).getD (zeroBlock ns.lbaf)) }
  sortBy (fun (a b : MigRun) => decide (a.slba < b.slba)) (good.map (mk false) ++ lost.map (mk true))

/-- Every MIG_DATA run of a slice, in namespace and LBA order. -/
def sliceRuns (s : State) (n : Nat) : List MigRun := (s.slice n).nss.flatMap (fun q => s.migRuns n q.1 q.2)

def modOut (s : State) (n : Nat) (f : MigOut → MigOut) : State :=
  s.setRly { s.rly with migOut := s.rly.migOut.map (fun m => if m.slice = n then f m else m) }
def dropOut (s : State) (n : Nat) : State :=
  s.setRly { s.rly with migOut := s.rly.migOut.filter (fun m => decide (m.slice ≠ n)) }

/-- MIGRATE past the checks of its state (R159, R848): its offer is sent, or there is no route. -/
def migrateGo (s : State) (p : SlcPending) : State :=
  let n := p.slice
  let peer := s.rwNat 0x40030
  let addr := natBits peer 29 16
  if (tget s.rly.routes addr).isNone then s.slcRefuse p (0xAB, none)
  else
    let serial := (s.serialOf n).serial + 1
    let m : MigOut := { slice := n, peer := addr, peerSlice := natBits peer 8 0, serial := serial, count := 0 }
    let s := (s.setSlc { s.slc with op := some { p with judged := true } })
    let s := s.setRly { s.rly with migOut := m :: s.rly.migOut.filter (fun o => decide (o.slice ≠ n)) }
    s.sendRouted addr 0x20 [n, m.peerSlice, serial, s.batonNeed n,
      lsum ((s.sliceRuns n).map MigRun.count)]

/-- Send the baton, the data and the commit of a migration (R850). -/
def migSend (s : State) (m : MigOut) : State :=
  let ids := [m.slice, m.peerSlice, m.serial]
  let b := s.sealBytes (s.migKey s.fieldAddr m.peer m.slice m.peerSlice m.serial) 2 m.slice s.fieldAddr m.serial
  let s := b.2
  let rs := s.sliceRuns m.slice
  let s := s.sendRouted m.peer 0x22 ids b.1
  let s := rs.foldl (fun s r => s.sendRouted m.peer 0x23 ids (migPayload r)) s
  let s := s.sendRouted m.peer 0x24 (ids ++ [rs.length]) (padTo 32 (Config.sha3_256 (rs.flatMap migPayload)))
  s.modOut m.slice (fun o => { o with sent := true, count := rs.length })

/-- MIG_COMMIT is sent again after a start-up (R973). -/
def migResend (s : State) (m : MigOut) : State :=
  let rs := s.sliceRuns m.slice
  let s := s.sendRouted m.peer 0x24 [m.slice, m.peerSlice, m.serial, rs.length]
    (padTo 32 (Config.sha3_256 (rs.flatMap migPayload)))
  s.modOut m.slice (fun o => { o with resend := false, count := rs.length })

/-- An accepted migration goes out once the slice's buffered writes are on flash (R850). -/
def migTick (s : State) : State :=
  s.rly.migOut.foldl (fun s m =>
    if m.accepted && !m.sent && (s.slice m.slice).entries.isEmpty && s.relayRuns then s.migSend m
    else if m.resend && s.relayRuns && (tget s.rly.routes m.peer).isSome then s.migResend m
    else s) s

/-- MIG_REPLY: the destination takes the offer, or refuses it (R159, R848). -/
def migReply (s : State) (src n cause serial : Nat) : State :=
  s.onRouted src (fun s =>
    match s.rly.migOut.find? (fun m => m.slice = n && m.peer = src && m.serial = serial && !m.accepted), s.slc.op with
    | some m, some p =>
      if p.op ≠ .migrate || p.slice ≠ n then s
      else
        let s := s.settle (fun q => q.dest = src && q.type = 0x20)
        if cause ≠ 0 then (s.dropOut n).slcRefuse p (0xAC, none)
        else
          let s := ((s.slcAccept p).setSerial n { serial := serial, live := false }).modSlice n
            (fun x => { x with st := .migrating, peerAddr := src, peerSlice := m.peerSlice })
          (s.modOut n (fun o => { o with accepted := true })).migTick
    | _, _ => s)

/-- A migration fails at the source before it is committed (R160). -/
def outFails (s : State) (m : MigOut) : State :=
  let s := s.settle (fun q => q.dest = m.peer && decide (0x20 ≤ q.type) && decide (q.type ≤ 0x24) &&
    q.words.getD 0 512 = m.slice)
  let s := s.dropOut m.slice
  if (s.slice m.slice).st = .migrating then s.slcFailed m.slice 0xAD (fun x => { x with st := .frozen })
  else match s.slc.op with
    | some p => if p.op = .migrate && p.slice = m.slice then s.slcRefuse p (0xAB, none) else s
    | none => s

/-- MIG_COMMITTED: the source erases its keys and its copy (R118, R161, R852). -/
def migCommitted (s : State) (src : Nat) (m : MigIds) : State :=
  s.onRouted src (fun s =>
    match s.rly.migOut.find? (fun o => o.slice = m.srcSlice && o.peer = src && o.serial = m.serial) with
    | none => s
    | some o =>
      let ids := [m.srcSlice, m.dstSlice, m.serial]
      if o.committed then s.sendRouted src 0x26 ids
      else
        let n := o.slice
        let s := s.settle (fun q => q.dest = src && decide (0x20 ≤ q.type) && decide (q.type ≤ 0x24) &&
          q.words.getD 0 512 = n)
        let keep := s.serialOf n
        let s := (s.beginDestroy n).setSerial n keep
        let s := (s.modSlice n (fun x => { x with lastResult := 0xAE })).ev 0x0307 n
        (s.modOut n (fun o => { o with committed := true })).sendRouted src 0x26 ids)

/-- MIG_ERASED is sent again at every lap boundary until it is acknowledged (R161, R852). -/
def migLapOut (s : State) : State :=
  s.rly.migOut.foldl (fun s o =>
    if o.committed && s.relayRuns then
      let s := s.settle (fun q => q.dest = o.peer && q.type = 0x26 && q.words.getD 0 512 = o.slice)
      s.sendRouted o.peer 0x26 [o.slice, o.peerSlice, o.serial]
    else s) s

/-- MIG_ERASED_ACK (R161). -/
def migErasedAck (s : State) (src : Nat) (m : MigIds) : State :=
  s.onRouted src (fun s =>
    match s.rly.migOut.find? (fun o => o.slice = m.srcSlice && o.peer = src && o.serial = m.serial && o.committed) with
    | none => s
    | some o =>
      let s := s.settle (fun q => q.dest = src && q.type = 0x26 && q.words.getD 0 512 = o.slice)
      (s.dropOut o.slice).modSlice o.slice (fun x => { x with lastResult := 0 }))

/-! ### Migration, the destination (R160, R161, R848 to R852) -/

/-- The migration that a message belongs to. -/
def migIn? (s : State) (src : Nat) (m : MigIds) : Option MigIn :=
  s.rly.migIn.find? (fun i => i.slice = m.dstSlice && i.peer = src && i.peerSlice = m.srcSlice && i.serial = m.serial)
def modIn (s : State) (n : Nat) (f : MigIn → MigIn) : State :=
  s.setRly { s.rly with migIn := s.rly.migIn.map (fun i => if i.slice = n then f i else i) }
def dropIn (s : State) (n : Nat) : State :=
  s.setRly { s.rly with migIn := s.rly.migIn.filter (fun i => decide (i.slice ≠ n)) }

/-- What a RECEIVING slice received is erased (R118, R160, R165). -/
def receiveEnds (s : State) (n code : Nat) : State :=
  let s := ((s.dropIn n).dropKeys n).zeroSlice n
  s.slcFailed n code (fun x => { x with st := .absent, release := true, peerAddr := 0, peerSlice := 0 })

/-- A transfer fails at the destination: MIG_ABORT goes to the source (R851). -/
def migAborts (s : State) (i : MigIn) (cause code : Nat) : State :=
  (s.receiveEnds i.slice code).sendRouted i.peer 0x28 [i.peerSlice, i.slice, i.serial, cause]

/-- ACK of a message (R810). -/
def sendAck (s : State) (src msg type result : Nat) : State := s.sendReply src 0x30 [msg, type, result]

/-- MIG_OFFER (R848): accepted by a matching ACCEPT. -/
def migOffer (s : State) (src : Nat) (m : MigIds) : State :=
  s.onRouted src (fun s =>
    let x := s.slice m.dstSlice
    if x.st = .receiving && x.peerAddr = src && x.peerSlice = m.srcSlice then
      let i : MigIn := { slice := m.dstSlice, peer := src, peerSlice := m.srcSlice, serial := m.serial }
      let s := if (s.migIn? src m).isSome then s
               else s.setRly { s.rly with migIn := i :: s.rly.migIn.filter (fun j => decide (j.slice ≠ m.dstSlice)) }
      s.sendReply src 0x21 [m.srcSlice, 0, m.serial]
    else s.sendReply src 0x21 [m.srcSlice, 0xC3, m.serial])

/-- The logical units that a baton's namespaces need fit the device. -/
def migFits (s : State) (b : MigImage) : Bool :=
  let used := s.allNs.map (fun q => nsUnits q.2.2)
  decide (lsum used + lsum (b.namespaces.map (fun n =>
    nsUnits { nsze := n.nsze, lbaf := n.lbaf, dps := n.dps, firstUnit := 0 })) ≤ s.ftl.capacity / 65536)

/-- MIG_BATON (R149, R850): its tag is checked, and it is kept. -/
def migBaton (s : State) (src msg : Nat) (m : MigIds) (b : MigImage) : State :=
  s.onRouted src (fun s =>
    match s.migIn? src m with
    | none => s
    | some i =>
      if s.acted src msg then s.sendAck src msg 0x22 0
      else if !b.tagOk then (s.noteSeen src msg).migAborts i 0xC9 0xA9
      else if !s.migFits b || b.namespaces.any (fun n => decide (4 < n.lbaf)) then
        (s.noteSeen src msg).migAborts i 0xC4 0xA5
      else ((s.noteSeen src msg).modIn i.slice (fun i => { i with baton := some b })).sendAck src msg 0x22 0)

/-- A received run takes its place in the order of MSG_ID, in which the digest goes over them (R850). -/
def putRun (i : MigIn) (msg : Nat) (r : MigRun) : MigIn :=
  let n := (i.ids.takeWhile (fun k => decide (k < msg))).length
  { i with ids := i.ids.take n ++ msg :: i.ids.drop n, runs := i.runs.take n ++ r :: i.runs.drop n }

/-- MIG_DATA (R850, R851). -/
def migData (s : State) (src msg : Nat) (m : MigIds) (r : MigRun) : State :=
  s.onRouted src (fun s =>
    match s.migIn? src m with
    | none => s
    | some i =>
      if s.acted src msg then s.sendAck src msg 0x23 0
      else ((s.noteSeen src msg).modIn i.slice (fun i => putRun i msg r)).sendAck src msg 0x23 0)

/-- MIG_COMMIT (R851): a matching one is committed at the next lap boundary. -/
def migCommit (s : State) (src : Nat) (m : MigIds) (count : Nat) (digest : Bytes) : State :=
  s.onRouted src (fun s =>
    match s.migIn? src m with
    | none => s
    | some i =>
      if i.committed then s.sendRouted src 0x25 [m.srcSlice, m.dstSlice, m.serial]
      else if i.baton.isSome && count = i.runs.length &&
          padTo 32 digest = padTo 32 (Config.sha3_256 (i.runs.flatMap migPayload)) then
        s.modIn i.slice (fun i => { i with commit := true })
      else s.migAborts i 0xC4 0xAD)

/-- A slot of a received namespace is LOST (R384, R850). -/
def receiveLost (s : State) (u i : Nat) : State :=
  let s := match s.groupOf u with
    | some g =>
      s.setFtl { s.ftl with fine := tmod s.ftl.fine g (fun f => { f with ents := lset f.ents i lostEntry }) }
    | none => match s.freeGroup with
      | none => s.setFtl { s.ftl with coarse := tset s.ftl.coarse u lostEntry }
      | some g =>
        let f : Fine := { unit := u, ents := lset (List.replicate 16 unmapped) i lostEntry, lastPartial := s.lap }
        s.setFtl { s.ftl with fine := tset s.ftl.fine g f, coarse := tset s.ftl.coarse u (fineEntry g) }
  s.loseSlot 0 u i

/-- A received run: lost slots, or an entry of the buffer that is visible at once. -/
def receiveRun (s : State) (n : Nat) (r : MigRun) : State :=
  match tget (s.slice n).nss r.nsid with
  | none => s
  | some ns =>
    if r.lost then
      (((List.range r.count).map (fun i => (unitOf ns (r.slba + i), slotOf ns (r.slba + i)))).eraseDups).foldl
        (fun s p => s.receiveLost p.1 p.2) s
    else
      let e : Entry :=
        { id := 0, nsid := r.nsid, stamp := s.stampNow, blocks := blockTab r.slba r.blocks, charge := 0, wt := false,
          post := false, cmd := none, ready := some s.stride, visible := some s.stride }
      { s with admSeq := s.admSeq + 1 }.addEntry n e

/-- A received key keeps its COUNTER and LIMIT (R726); it takes an INSTALL_ID here (R746). -/
def receiveKey (s : State) (n : Nat) (k : MigKey) : State :=
  let d := s.sysChoose
  let key := Key.cached { k512 := k.k512, use := k.use, child := k.child, install := min s.kst.installs lastInstall,
                          counter := k.counter, limit := k.limit, recEnd := min k.limit (k.counter + 2 ^ 20),
                          value := k.value, copies := d.1 }
  let s := d.2
  let s := s.modKeys n (fun x => { x with keys := tset x.keys k.slot key })
  let s := s.setKst { s.kst with installs := min lastInstall (s.kst.installs + 1) }
  if k.slot = 0 then s.modSlice n (fun x => { x with mediaKey := some (leNat k.value) }) else s

/-- The baton's own part of a migration: controller, namespaces and keys (R160, R851). -/
def migState (s : State) (i : MigIn) (b : MigImage) : State :=
  let n := i.slice
  let s := s.modSlice n (fun x => { resetController x with st := .frozen, lastResult := 0, sourceLive := true, serialSeen := i.serial })
  let s := b.namespaces.foldl (fun s q =>
    let ns : Ns := { nsze := q.nsze, lbaf := q.lbaf, dps := q.dps, firstUnit := 0 }
    match s.placeNs (nsUnits ns) with
    | some u => s.modSlice n (fun x => { x with nss := tset x.nss q.nsid { ns with firstUnit := u } })
    | none => s) s
  let s := s.modKeys n (fun x => { x with pair := b.pair, seq := b.deliverySeq,
                                          log := { meas := b.meas, ents := b.logEnts, count := b.logCount } })
  b.keys.foldl (fun s k => s.receiveKey n k) s

/-- The memories that a migration brings (R160, R851). -/
def migMemory (s : State) (n : Nat) (b : MigImage) : State :=
  let x := s.slice n
  let s := (x.cores.zip b.cores).foldl (fun s p => s.putCells p.1 0 0x40000 p.2) s
  let s := (x.banks.zip b.banks).foldl (fun s p => s.putCells (bankPlace p.1).1 (bankPlace p.1).2 (2 ^ 20) p.2) s
  s.putCells dramArr (s.regionOf x).1 (s.regionOf x).2 b.dram

/-- The destination commits (R118, R161, R851). -/
def migInstall (s : State) (i : MigIn) (b : MigImage) : State :=
  let n := i.slice
  let s := (s.migState i b).migMemory n b
  let s := i.runs.foldl (fun s r => s.receiveRun n r) s
  let s := { s with evr := { s.evr with slices := tset s.evr.slices n {} } }
  let s := (s.modIn n (fun i => { i with committed := true, ids := [], runs := [], baton := none })).ev 0x0308 n
  s.sendRouted i.peer 0x25 [i.peerSlice, n, i.serial]

/-- Migrations at a lap boundary (R851, R852). -/
def migLap (s : State) : State :=
  (s.rly.migIn.foldl (fun s i => match i.baton with
    | some b => if i.commit && !i.committed then s.migInstall i b else s
    | none => s) s).migLapOut

/-- MIG_ERASED: the source's keys are gone; THAW is allowed (R161). -/
def migErased (s : State) (src : Nat) (m : MigIds) : State :=
  s.onRouted src (fun s =>
    let s := match s.migIn? src m with
      | some i =>
        if i.committed then
          let s := s.settle (fun q => q.dest = src && q.type = 0x25 && q.words.getD 1 512 = i.slice)
          (s.dropIn i.slice).modSlice i.slice (fun x => { x with sourceLive := false })
        else s
      | none => s
    s.sendReply src 0x27 [m.srcSlice, m.dstSlice, m.serial])

/-- MIG_ABORT, at the source or at the destination (R160, R852). -/
def migAbort (s : State) (src msg : Nat) (m : MigIds) : State :=
  s.onRouted src (fun s =>
    let s := if s.acted src msg then s
      else
        let s := s.noteSeen src msg
        match s.rly.migOut.find? (fun o => o.slice = m.srcSlice && o.peer = src && o.serial = m.serial && !o.committed),
              s.migIn? src m with
        | some o, _ => s.outFails o
        | none, some i => if i.committed then s else s.receiveEnds i.slice 0xAD
        | none, none => s
    s.sendAck src msg 0x28 0)

/-- ACK (R809, R810): a refused message of a migration fails it. -/
def ackMsg (s : State) (src msg result : Nat) : State :=
  s.onRouted src (fun s =>
    match s.rly.msgs.find? (fun m => m.id = msg && m.dest = src) with
    | none => s
    | some m =>
      let s := s.settle (fun q => q.id = msg)
      if result = 0 || m.type = 0x28 then s
      else match s.rly.migOut.find? (fun o => o.slice = m.words.getD 0 512 && o.peer = src && !o.committed) with
        | some o => s.outFails o
        | none => s)

/-! ### CANCEL, MIGRATE and loss -/

/-- CANCEL of a RECEIVING slice, and MIGRATE, past the checks of the state (R118). -/
def slcRest (s : State) (p : SlcPending) : State :=
  match p.op with
  | .cancel =>
    let n := p.slice
    let s := s.slcAccept p
    match s.rly.migIn.find? (fun i => i.slice = n) with
    | some i => s.migAborts i 0xC3 0xB1
    | none => s.receiveEnds n 0xB1
  | .migrate => s.migrateGo p
  | _ => s

/-- A MIGRATE whose offer finds no answer within the lap that BUSY may last ends with PEER_UNREACHABLE (R120). -/
def slcOverdue (s : State) : State :=
  match s.slc.op with
  | some p =>
    if p.op = .migrate && p.judged && decide (p.at' + 4000 ≤ s.stride) then
      match s.rly.migOut.find? (fun o => o.slice = p.slice && !o.accepted) with
      | some o => s.outFails o
      | none => s
    else s
  | none => s

/-- A device is declared lost (R301, R824, R852). -/
def peerLost (s : State) (addr cause : Nat) : State :=
  let s := s.ev 0x1B01 noSlice (item 2 addr)
  let s := s.slices.foldl (fun s p => s.unpair p.1 addr cause none) s
  let s := (s.rly.migOut.filter (fun o => o.peer = addr && !o.committed)).foldl (fun s o => s.outFails o) s
  let s := (s.rly.migIn.filter (fun i => i.peer = addr && !i.committed)).foldl (fun s i => s.receiveEnds i.slice 0xAD) s
  s.settle (fun m => m.dest = addr)

/-- PEER_DECLARED_LOST (R824). -/
def peerDeclaredLost (s : State) (addr cause : Nat) : State :=
  if s.relayRuns && s.lostNow addr cause then s.peerLost addr cause else s

/-- A roster is installed; the devices of migrations that it drops are lost at once (R853). -/
def takeRoster (s : State) (bs : Bytes) : State :=
  let s := s.installRoster bs
  let gone := ((s.rly.migOut.map MigOut.peer ++ s.rly.migIn.map MigIn.peer).eraseDups).filter
    (fun a => (tget s.rosterEnts a).isNone)
  gone.foldl (fun s a => s.peerLost a 0xC1) s

/-- LOAD_ROSTER (R812, R855). -/
def cmdLoadRoster (s : State) (req : Requester) (d : Fetch) : State :=
  s.rlyCommand req (fun s =>
    let len := s.rwNat 0x1400810
    let bad (s : State) (c : Nat) : State := (s.rlyResult c).ev 0x2B02 noSlice (item 1 c)
    if len = 0 then bad s 0xCA
    else match d with
      | .failAt _ => s.rlyResult 0xCC
      | .ok bs =>
        let bs := padTo len bs
        match s.rosterRefused bs with
        | some c => bad s c
        | none => (s.rlyResult 0).takeRoster bs)

/-- ROSTER from a neighbour whose HELLO carried a higher SEQUENCE (R812). -/
def rosterMsg (s : State) (p : Nat) (bs : Bytes) : State :=
  match (s.rlyPort p).st with
  | .disabled | .down => s
  | _ =>
    let s := s.tookFrame p
    let higher := match (s.rlyPort p).peer with
      | some h => decide (s.rosterSeq < h.rosterSeq) || s.dur.roster.isNone
      | none => false
    if !higher then s
    else match s.rosterRefused bs with
      | some c => s.ev 0x2B02 noSlice (item 1 c)
      | none => s.takeRoster bs

end State

end Sys2Proof.Machine
end

