-- ==== Sys2Proof/Machine/Startup.lean ====
section
/-! DEFINITION. The start-up sequence, device faults, firmware images and restarts (R964 to R990). -/

namespace Sys2Proof.Machine

/-! ### Firmware images (R783, R984) -/

/-- The header of R984 is legal. -/
def fwFormatOk (bs : Bytes) : Bool :=
  let size := leAt bs 8 4
  leAt bs 0 4 = 0x4D425731 && leAt bs 4 2 = 1 && leAt bs 6 2 = 0 && size % 8 = 0 && decide (65536 ≤ size) &&
  decide (size ≤ 6291456) && size = bs.length && decide (leAt bs 0xF 1 ≤ 63) && allZero (bytesAt bs 0x12 14) &&
  allZero (bytesAt bs 0x30 16)

/-- The image that a header describes. -/
def fwParse (bs : Bytes) : FwImage :=
  { state := 1, major := leAt bs 0xC 1, minor := leAt bs 0xD 1, patch := leAt bs 0xE 1, epoch := leAt bs 0xF 1,
    relayMin := leAt bs 0x10 1, relayMax := leAt bs 0x11 1, bytes := bs }

/-- The signature block of R783 verifies under a Weldopo firmware key that is not revoked. -/
def fwSigned (revoked : Nat) (bs : Bytes) : Bool :=
  let sig := bs.length - sigBlock
  let slot := leAt bs sig 1
  let pk := bytesAt bs (sig + 8) 64
  decide (slot ≤ 3) && !natBit revoked slot && Config.sha3_256 pk = Config.weldopoDigest slot &&
  Config.slhVerify pk (bs.take sig) (bytesAt bs (sig + 0x48) 29792)

/-- The checks of an image: its description, or the RESULT of R998. -/
def fwCheck (revoked epoch : Nat) (bs : Bytes) : Except Nat FwImage :=
  if !fwFormatOk bs then .error 2
  else if !fwSigned revoked bs then .error 3
  else if leAt bs 0xF 1 < epoch then .error 4
  else .ok (fwParse bs)

namespace State

/-! ### What survives a reset of the device (R21, R972, R976, R981) -/

/-- The slice-table record as a start-up finds it: the namespaces and key identities that commands have made
durable since it was written stand in it. -/
def tableAtLoss (s : State) : Option SliceTable :=
  match s.dur.sliceTable with
  | none => none
  | some t => some { t with slices := tmap t.slices (fun n x =>
      let y := s.slice n
      if y.st = .absent then x
      else { x with nss := y.nss, smart := y.smart, mediaKey := y.mediaKey, pairing := y.pairing }) }

/-- A die as a start-up finds it: what is durable of it. -/
def dieAtLoss (hs : Tab Health) (d : Nat) (x : Die) : Die :=
  { lost := x.lost, goodBlocks := x.goodBlocks, retireLaps := x.retireLaps,
    health := tgetD hs d {} }

/-- Every core and block outside the always-on domain is reset, and each port has the effects of PERST#
(R981): what remains is durable, fused or in the always-on domain. The device waits for its starter. -/
def resetDevice (s : State) (kind : Nat) : State :=
  let d := { s.dur with sliceTable := s.tableAtLoss }
  let ports := tmap s.ports (fun _ p => { perst := p.perst })
  let down := (s.ports.filter (fun p => p.2.linkUp)).map (fun p => Out.linkDown p.1)
  let f : Ftl :=
    { blks := s.ftl.blks, bandRecs := s.ftl.bandRecs, ckptA := s.ftl.ckptA, ckptB := s.ftl.ckptB,
      ckptArea := s.ftl.ckptArea, ckptSeq := s.ftl.ckptSeq, jseq := s.ftl.jseq, capacity := s.ftl.capacity,
      mediaAge := s.ftl.mediaAge, closeCount := s.ftl.closeCount, loss := s.ftl.loss,
      lossOverflow := s.ftl.lossOverflow, readOnly := s.ftl.readOnly, spareBase := s.ftl.spareBase,
      dies := tmap s.ftl.dies (dieAtLoss s.dur.health) }
  let dev : Dev :=
    if kind = 1 then { startKind := 1, run := .waiting }
    else { startKind := kind, run := .waiting, lastSource := s.dev.lastSource, faultStrides := s.dev.faultStrides,
           faultTotal := s.dev.faultTotal, faultStride := s.dev.faultStride }
  { State.reset with
    pending := s.pending, out := s.out ++ down, free := s.free, stride := s.stride, lastRead := s.lastRead
    variant := s.variant, deviceId := s.deviceId, instanceId := s.instanceId, dur := d, ftl := f, dev := dev
    ports := ports, sliceKeys := s.sliceKeys
    kst := { starts := s.kst.starts, installs := s.kst.installs, weldopoRevoked := s.kst.weldopoRevoked,
             nextPair := s.kst.nextPair, nextChange := s.kst.nextChange }
    evr := { queue := s.evr.queue }
    wbf := { holdupPin := s.wbf.holdupPin }
    pwr := { wakeSource := s.pwr.wakeSource, wakeFrom := s.pwr.wakeFrom, wakeDetail := s.pwr.wakeDetail,
             wakeStride := s.pwr.wakeStride }
    pins := { levels := s.pins.levels, select := s.pins.select, instr := s.pins.instr } }

/-- COLD_START: the always-on rail is first powered (R21, R23). A running device that loses its rails so loses
what no flush has saved. -/
def coldStart (s : State) : State :=
  let lost := s.dev.run = .started && !s.wbf.pfDone && !s.wbf.pfCounted
  let s := s.resetDevice 1
  let s := if lost then { s with dur := { s.dur with unsafeOffs := s.dur.unsafeOffs + 1 } } else s
  { s with stride := 0, evr := {}, pwr := {}, pins := {} }

/-! ### SAFE (R983) -/

/-- Enter SAFE with a cause (R964, R982, R983). -/
def enterSafe (s : State) (cause : Nat) : State :=
  let s := if s.evr.reloaded then s
    else { s with evr := { s.evr with dev := { s.dur.recDev with frozenAt := none, held := [], freezeReq := [] } } }
  ({ s with dev := { s.dev with run := .started, phase := .safe, cause := cause } }).ev 0x1F02 noSlice (item 1 cause)

/-! ### Step 4: the firmware (R783, R985) -/

/-- Image A (0) or B (1). -/
def fwImage (s : State) (k : Nat) : FwImage := if k = 0 then s.dur.fwA else s.dur.fwB
def setFw (s : State) (k : Nat) (f : FwImage) : State :=
  if k = 0 then { s with dur := { s.dur with fwA := f } } else { s with dur := { s.dur with fwB := f } }

/-- A stored image passes. -/
def fwPasses (s : State) (k : Nat) : Bool :=
  (s.fwImage k).state = 1 &&
  match fwCheck s.kst.weldopoRevoked s.dur.fwFusedEpoch (s.fwImage k).bytes with
  | .ok _ => true
  | .error _ => false

/-- An image failed at start-up: event 0x1F01, and its STATE is invalid. -/
def fwFailed (s : State) (k : Nat) : State :=
  let s := if (s.fwImage k).state = 1 then s.setFw k { s.fwImage k with state := 2 } else s
  s.ev 0x1F01 noSlice (item 1 k)

/-- An image runs: entry 0x0002 of the device log. -/
def fwRun (s : State) (k : Nat) (trial : Bool) : State :=
  let f := s.fwImage k
  let s := { s with dev := { s.dev with image := k, trial := trial } }
  s.devLog 2 (leBytes 1 k ++ leBytes 1 f.major ++ leBytes 1 f.minor ++ leBytes 1 f.patch) f.bytes

/-- The starter's choice (R985); none when no image passes. -/
def chooseFw (s : State) : Option State :=
  let confirmed := s.dur.fwConfirmed
  let other := 1 - confirmed
  let confirmedThen (s : State) : Option State :=
    if s.fwPasses confirmed then some (s.fwRun confirmed false)
    else
      let s := s.fwFailed confirmed
      if s.fwPasses other then
        some ({ s with dur := { s.dur with fwTrial := true } }.fwRun other true)
      else none
  if s.dur.fwTrial && decide (s.dur.fwTries < 2) then
    let s := { s with dur := { s.dur with fwTries := s.dur.fwTries + 1 } }
    if s.fwPasses other then some (s.fwRun other true)
    else confirmedThen ({ s with dur := { s.dur with fwTrial := false } }.fwFailed other)
  else
    let s := if s.dur.fwTrial then
        { s with dur := { s.dur with fwTrial := false } }.ev 0x1F03 noSlice
      else s
    confirmedThen s

/-! ### Step 5: the course (R96) -/

/-- A course comes into force: its measurements and events (R92, R96, R789). -/
def courseInForce (s : State) (c : Course) : State :=
  let s := { s with crs := { s.crs with inForce := some c } }
  let s := s.devLog 3 (leBytes 8 c.sequence ++ leBytes 2 c.format) c.image
  let s := if c.grant ≠ 0 then s.devLog 4 (leBytes 2 c.grant) c.image else s
  let s := s.ev 0x0100 noSlice
  if c.debugAuth then s.ev 0x2101 noSlice else s

/-- A persisted course, read from either of its copies (R350): the course, or why it fails (R88). One that neither die
can give any more fails as a fetch does, at its first byte (DESIGN CHOICE, 102). -/
def persistedCourse (s : State) (r : SysCopies) : Check Course :=
  match s.sysRead r with
  | none => .error (0x10, 0)
  | some b => validate (s.courseCtx b.length) b

/-- A persisted course is rejected (R86, R96): RESULT, CRS_ERR_OFFSET and event 0x2100. -/
def courseRejected (s : State) (e : Bad) : State :=
  (s.setCrs { s.crs with result := e.1, errOffset := e.2 }).ev 0x2100 noSlice

/-- The current course of a start-up, where it passes; otherwise the state without it. -/
def startCurrent (s : State) : Except State State :=
  match s.dur.courseCur with
  | none => .error s
  | some r => match s.persistedCourse r with
    | .ok c => .ok (s.courseInForce c)
    | .error e => .error (s.courseRejected e)

/-- The course of a start-up: the current one, else the previous one (R96). -/
def startCourse (s : State) : State :=
  match s.startCurrent with
  | .ok t => t
  | .error s => match s.dur.coursePrev with
    | none => s
    | some r => match s.persistedCourse r with
      | .ok c => (s.courseInForce c).setCrs { (s.courseInForce c).crs with previous := true }
      | .error e => s.courseRejected e

/-! ### Step 8: recovery of the map (R324, R334, R335, R372, R373) -/

/-- The exported capacity of a first format (R324). -/
def firstCapacity (s : State) : Nat :=
  let ds := s.diesInUse
  let p := ds.length
  let all := lsum (ds.map (fun d => s.goodBlocks d * s.blockBytes d))
  let share := if p = 0 then 0 else ceilDiv ((4096 + 64) * 1048576) p
  let reserve := lsum (ds.map (fun d => ceilDiv share (max 1 (s.slcBytes d)) * s.blockBytes d))
  65536 * (7 * (all - Config.systemAreaBytes - reserve) / (8 * 65536))

/-- The first format of the media (R151, R324, R427, R972): an empty map, every good block free. -/
def firstFormat (s : State) : State :=
  let s := s.setFtl { s.ftl with capacity := s.firstCapacity, firstFormat := true, blks := [], bandRecs := [] }
  let s := s.setFtl { s.ftl with spareBase := s.spareNow }
  { s with dur := { s.dur with formatted := true, sliceTable := some { slices := [], shares := [] } } }

/-- PRIVATE_GIB of the course in force, and the least that the map needs (R335). -/
def privGib (s : State) : Nat :=
  match s.crs.inForce with
  | some c => c.privGib
  | none => 0
def privGibLeast (s : State) : Nat := ceilDiv (5 * (s.ftl.capacity / 65536) + 83886080) (2 ^ 30) + 1

/-- G, the number of fine groups (R334). -/
def fineGroups (s : State) : Nat :=
  min 30517578 ((s.privGib * 2 ^ 30 - 2 ^ 30 - 5 * (s.ftl.capacity / 65536)) / 80)

/-- The records that replay applies from a SEQ on: those that follow one another (R370, R372). -/
def replayRun : Nat → List JRec → List JRec
  | _, [] => []
  | seq, r :: t => if r.seq < seq then replayRun seq t else if r.seq = seq then r :: replayRun (seq + 1) t else []

/-- Blocks at the end of recovery: open ones close, and those the map does not name are queued for their
erase (R371, R372). -/
def closeAll (s : State) : State :=
  let s := s.setFtl { s.ftl with blks := tmap s.ftl.blks (fun _ b => match b.state with
    | .hostOpen | .gcOpen => { b with state := .closed, closedAge := s.ftl.mediaAge, closeOrder := s.ftl.closeCount,
                                      erasing := false }
    | _ => { b with erasing := false }) }
  let dead := (s.ftl.blks.filter (fun p => p.2.state = .closed && (s.validSlots p.1).isEmpty)).map Prod.fst
  s.setFtl { s.ftl with closeCount := s.ftl.closeCount + 1,
                        reclaims := dead.map (fun b => { blk := b, why := .gc, finalSeq := some 0 }) }

/-- Does a record count as durable at replay (R370)? Copy 2 is on a die that is in use, or it is not and copy 1 is; a record
of the reserve has no copies. -/
def recReadable (s : State) (r : JRec) : Bool :=
  match r.copies with
  | none => true
  | some (a, b) => s.dieInUse b || s.dieInUse a

/-- Replay the journal from a checkpoint (R370, R372, R373). -/
def replay (s : State) (ckptOk recordsOk : Bool) : State :=
  let newest := if s.ftl.ckptArea = 0 then s.ftl.ckptA else s.ftl.ckptB
  let other := if s.ftl.ckptArea = 0 then s.ftl.ckptB else s.ftl.ckptA
  let prev := newest.isSome && !ckptOk
  let ck := if prev then other else newest
  let start := (ck.map Ckpt.startSeq).getD 0
  let after := s.ftl.bandRecs.filter (fun r => decide (start < r.seq))
  let rs := if recordsOk then replayRun (start + 1) (after.takeWhile s.recReadable) else []
  let last := ((rs.getLast?).map JRec.seq).getD start
  let s := s.setFtl { s.ftl with coarse := (ck.map Ckpt.coarse).getD [], fine := (ck.map Ckpt.fine).getD [],
                                 fineTotal := s.fineGroups, prevCkpt := prev, bandRecs := rs, journal := [],
                                 jseq := last, jnext := last + 1 }
  let s := if prev then s.ev 0x1501 noSlice else s
  let s := if decide (rs.length < after.length) then s.ev 0x1500 noSlice else s
  rs.foldl (fun s r => s.applyRec r) s

/-- FTL recovery; the device stops in MAP_SHORT where the private area is too small (R335, R969). -/
def recoverFtl (s : State) (e : StartEnv) : State :=
  let s := if s.dur.formatted then s else s.firstFormat
  if s.privGib < s.privGibLeast then
    { s with ftl := { s.ftl with result := 3 }, dev := { s.dev with phase := .mapShort } }
  else
    let s := (s.replay e.newestCkptOk e.recordsOk).closeAll
    ({ s with ftl := { s.ftl with recovered := true } }).fillReserves.startCkpt.lifeLap

/-! ### Step 9: the slice table (R973 to R975) -/

/-- An entry as it comes back from the reserve: visible, of no command, stamped anew in stamp order. -/
def reentered (stride : Nat) : Nat → List Entry → List Entry
  | _, [] => []
  | i, e :: t => { e with stamp := { stride := stride, seq := i }, cmd := none, ack := none, wt := false, paired := false,
                          ready := some stride, visible := some stride, flushing := false,
                          flushed := [], journalled := false, dsm := false, drain := false } :: reentered stride (i + 1) t

/-- Insertion of entries by stamp. -/
def byStamp (es : List Entry) : List Entry := sortBy (fun (a b : Entry) => a.stamp.before b.stamp) es

/-- A slice as step 9 begins with it: no queue, registers at reset, its resources still to be drawn. -/
def tabled (s : State) (n : Nat) (x : Slice) (es : List Entry) : Slice :=
  let p := x.pairing
  let resvs (r : Resv) : Resv := if r.ptpl then r else {}
  let base := resetController { x with
    cores := [], banks := [], bgroups := [], aes := [], search := [], dramMib := 0, cmbMib := 0, cmbOff := none,
    moveDue := none, drain := false,
    nss := tmap x.nss (fun _ ns => { ns with resv := resvs ns.resv }),
    mediaKey := if (tget (s.keysOf n).keys 0).isSome then x.mediaKey else none,
    entries := reentered s.stride 0 (byStamp es),
    pairing := { p with waits := [], todo := [], inbox := [], confirmed := false, confirmLap := none,
                        state := if p.state = .off then .off else .unpaired } }
  match x.st with
  | .absent | .creating => { base with st := .absent, release := true }
  | .active | .resetting => { base with st := .active }
  | .freezing | .frozen => { base with st := .frozen }
  | .saving => { base with st := .frozen, lastResult := 0xA2 }
  | .parked => { base with st := .parked }
  | .restoring => { base with st := x.prev, lastResult := 0xA2, release := true }
  | .migrating => { base with st := .migrating }
  | .receiving => { base with st := .absent, lastResult := 0xAD, release := true, nss := [], peerAddr := 0, peerSlice := 0 }
  | .destroying => { base with st := .destroying }

/-- As much of a draw as the pools still hold once the slices of lower number have drawn, and whether it is all of it
(R975). -/
def partDraw (s : State) (n : Nat) (d : Draw) : Draw × Bool :=
  let drawn (f : Nat → Slice → Nat) : Nat := s.sumOthers n (fun k x => if k < n then f k x else 0)
  let idx (r k : Nat) : Nat := min k (s.poolFree r n).length
  let amt (r k : Nat) (f : Nat → Slice → Nat) : Nat := min k (s.poolAmount r - drawn f)
  let flash := min d.flash (s.minPoolFlash - drawn (fun k _ => flashField (s.forceNat (shSlots k))))
  let host := min d.host (s.poolSlots (0x200 + d.port) -
    drawn (fun k x => if x.port = d.port then hostField (s.forceNat (shSlots k)) else 0))
  let got : Draw := { d with
    cores := idx resCore d.cores, banks := idx resBank d.banks, bgroups := idx resGroup d.bgroups,
    search := idx resSearch d.search, keySlots := amt resKeys d.keySlots (fun _ x => x.draw.keySlots),
    aes := amt resAesShare d.aes (fun k _ => s.forceNat (shAes k)),
    wbf := amt resWbf d.wbf (fun k _ => s.forceNat (shWbf k)), cmb := amt resCmb d.cmb (fun _ x => x.draw.cmb),
    dram := amt resDram d.dram (fun _ x => x.draw.dram), qp := amt resQp d.qp (fun k _ => s.forceNat (shQp k)),
    flash := flash, host := host }
  (got, decide (got = d))

/-- The largest CMB portion, in MiB, that fits (R975). -/
def cmbLargest (s : State) (n : Nat) : Nat → Nat
  | 0 => 0
  | k + 1 => if (s.cmbPlace n (k + 1)).isSome then k + 1 else cmbLargest s n k

/-- One slice takes its pool draws again; what it cannot have leaves it FROZEN with 0xA5 (R975). -/
def redraw (s : State) (n : Nat) : State :=
  let x := s.slice n
  if !x.st.holds then s
  else
    let d := { x.draw with wbf := s.forceNat (shWbf n), qp := s.forceNat (shQp n), aes := s.forceNat (shAes n),
                           flash := flashField (s.forceNat (shSlots n)), host := hostField (s.forceNat (shSlots n)) }
    let p := s.partDraw n d
    let y := s.assign n p.1 x
    let cmb := s.reserved resCmb n + p.1.cmb
    let most := s.cmbLargest n cmb
    let y := if most = cmb then y
      else { y with cmbMib := most, cmbOff := if most = 0 then none else s.cmbPlace n most }
    let ok := p.2 && most = cmb && (s.dramPlace n (s.reserved resDram n + p.1.dram)).isSome
    let s := (s.setSlice n y).setShares n p.1
    if ok then s
    else (s.modSlice n (fun x => { x with st := if x.st = .active then .frozen else x.st, lastResult := 0xA5 })).ev
      0x1300 n (item 1 0xA5)

/-- A migration that a start-up cuts goes on (R973, R161). -/
def remigrate (s : State) (n : Nat) : State :=
  let x := s.slice n
  let serial := (s.serialOf n).serial
  let o : MigOut := { slice := n, peer := x.peerAddr, peerSlice := x.peerSlice, serial := serial, count := 0,
                      accepted := true, sent := true }
  if x.st = .migrating then s.setRly { s.rly with migOut := s.rly.migOut ++ [{ o with resend := true }] }
  else if x.lastResult = 0xAE then s.setRly { s.rly with migOut := s.rly.migOut ++ [{ o with committed := true }] }
  else if x.sourceLive then
    s.setRly { s.rly with migIn := s.rly.migIn ++
      [{ slice := n, peer := x.peerAddr, peerSlice := x.peerSlice, serial := x.serialSeen, commit := true,
         committed := true }] }
  else s

/-- The ranges of a slice's posts that awaited an answer are logged at the restart (R301, R302). -/
def logWaits (s : State) (n : Nat) (p : Pairing) : State :=
  s.logRanges n ((p.waits.filter (fun w => w.cmd.isSome && !w.old)).flatMap (fun w => w.ranges))

/-- Step 9 with a record (R973, R975). A destroy that the start-up takes up again has raised its slice's SERIAL already
(R151). -/
def restoreTable (s : State) (t : SliceTable) : State :=
  let s := { s with inForce := t.shares.foldl (fun (m : Tab (BitVec 64)) (p : Nat × BitVec 64) => tset m p.1 p.2) s.inForce }
  let s := { s with slices := tmap t.slices (fun n x => s.tabled n x (tgetD s.dur.reserve n [])) }
  let s := t.slices.foldl (fun s p => s.logWaits p.1 p.2.pairing) s
  let s := t.slices.foldl (fun s p => s.redraw p.1) s
  let s := t.slices.foldl (fun s p =>
    if (s.slice p.1).st = .destroying then (s.beginDestroy p.1).setSerial p.1 (s.serialOf p.1) else s) s
  let s := t.slices.foldl (fun s p => if p.2.st = .receiving then s.dropKeys p.1 else s) s
  t.slices.foldl (fun s p => s.remigrate p.1) s

/-- Step 9 with no record (R974). -/
def restoreNone (s : State) : State :=
  let lost := (s.dur.sliceTable.map SliceTable.slices).getD []
  let s := s.sliceKeys.foldl (fun s p => s.dropKeys p.1) s
  let live := lost.filter (fun (p : Nat × Slice) => (s.serialOf p.1).live)
  let gone := lost.filter (fun (p : Nat × Slice) => !(s.serialOf p.1).live)
  let s := gone.foldl (fun (s : State) (p : Nat × Slice) => p.2.nss.foldl (fun (s : State) q => s.trimNs q.2) s) s
  let s := { s with slices := live.map (fun (p : Nat × Slice) => (p.1, ({ nss := p.2.nss } : Slice))) }
  ({ s with dev := { s.dev with sliceTableLost := true } }).ev 0x1F04 noSlice

/-- Step 9, and READY (R964, R971 to R975). -/
def restoreSlices (s : State) (e : StartEnv) : State :=
  let some1 := s.dur.reserve.any (fun p => !p.2.isEmpty)
  let s := match e.sliceTableOk, s.dur.sliceTable with
    | true, some t => s.restoreTable t
    | _, _ => s.restoreNone
  let s := if some1 then s.ev 0x3500 noSlice else s
  let s := { s with slc := { s.slc with deal := s.newDeal }, rly := { s.rly with join := s.joinNow } }
  let clusters := s.coresPresent / 8
  let s := { s with dev := { s.dev with phase := .ready, env := none },
                    pwr := { s.pwr with pllWanted := 2 ^ clusters - 1 } }
  s.ev 0x0F00 noSlice (item 1 s.dev.startKind ++ item 1 s.dev.image)

/-! ### Steps 6 to 9 -/

/-- DRAM training of every populated channel. -/
def trainAll (s : State) (e : StartEnv) : State :=
  (List.range 4).foldl (fun s c => s.trainDram c (e.dramLanes.getD c [])) s

/-- Step 7: the key slots and the recorders (R743, R753, R957). -/
def reloadBlocks (s : State) : State :=
  let s := s.reloadKeys
  let d := s.drawBytes 32
  let s := d.2.setKst { d.2.kst with state := .ready, slot2 := d.1 }
  let fresh (r : Recorder) : Recorder :=
    { r with frozenAt := none, thawedAt := none, held := [], heldLost := 0, freezeReq := [], releaseReq := false }
  { s with evr := { s.evr with dev := fresh s.dur.recDev, slices := tmap s.dur.recSlices (fun _ r => fresh r),
                               reloaded := true } }

/-- Steps 6 to 9 (R964, R968). -/
def finishStart (s : State) (e : StartEnv) : State :=
  let s := (s.setPin 7 true).trainAll e
  if (List.range 4).any (fun c => s.drcPopulated c && (s.drc c).trainFail) then s.enterSafe 5
  else
    let t := s.reloadBlocks
    let s : State := { t with dev := { t.dev with phase := .step8 } }
    let s := s.recoverFtl e
    if s.dev.phase = .mapShort then s else s.restoreSlices e

/-! ### Steps 1 to 5 -/

/-- The flash channels train, the dies answer (R397, R964 step 3). -/
def trainFlash (s : State) (e : StartEnv) : State :=
  e.channels.foldl (fun s c => if c.ch < s.channelsPresent then s.trainChannel c.ch c.dies c.pass else s) s

/-- The anchors can be read: on die 0 of channel 0 and of channel 1 (R965). -/
def anchorFound (s : State) (e : StartEnv) : Bool :=
  e.anchorsOk && s.dieInUse 0 && s.dieInUse 16

/-- Step 5 on, with the course that `s` is to have. -/
def withCourse (s : State) (e : StartEnv) : State :=
  if s.hasCourse then s.finishStart e
  else { s with dev := { s.dev with phase := .noCourse } }

/-- Step 1: the rails come up, and a start without power before it is counted (R964, R984). -/
def startPower (s : State) (e : StartEnv) : State :=
  let s := { s with dev := { s.dev with run := .started, phase := .step13, env := some e } }
  let s := (((s.setPin 5 true).setPin 6 false).setPin 7 false).setPin 2 false
  let s := if s.dev.startKind = 1 then
      ({ s with dur := { s.dur with coldStarts := s.dur.coldStarts + 1 } }).ev 0x3F00 noSlice
    else s
  s.setKst { s.kst with starts := s.kst.starts + 1 }

/-- Step 3: the starter's code is measured and the flash channels train (R964). -/
def startFlash (s : State) (e : StartEnv) : State :=
  ((s.devLog 1 [] Config.starterRom).setPin 6 true).trainFlash e

/-- Steps 1 to 4 (R964, R985, R796): the state at step 5, or SAFE. -/
def startSteps (s : State) (e : StartEnv) : Except State State :=
  let s := s.startPower e
  if !e.clockOk then .error (s.enterSafe 1)
  else if !e.selfTestOk then .error (s.enterSafe 2)
  else
    let s := s.startFlash e
    if !s.anchorFound e then .error (s.enterSafe 3)
    else
      let s := { s with dev := { s.dev with step3Done := true } }
      match s.chooseFw with
      | none => .error (s.enterSafe 4)
      | some s => .ok s

/-- STARTER_BEGIN: the start-up from its first step (R964, R1018). -/
def starterBegin (s : State) (e : StartEnv) : State :=
  if s.dev.run ≠ .waiting then s
  else match s.startSteps e with
    | .error t => t
    | .ok s => s.startCourse.withCourse e

/-- A start-up that was in NO_COURSE goes on at step 6 (R968). -/
def resumeStart (s : State) : State :=
  match s.dev.phase, s.dev.env with
  | .noCourse, some e => s.finishStart e
  | _, _ => s

/-- The reserve's entries have all reached flash, and it is erased (R971). -/
def reserveTick (s : State) : State :=
  if s.ftl.recovered && s.dev.phase = .ready && s.dur.reserve.any (fun p => !p.2.isEmpty) &&
     s.slices.all (fun p => p.2.entries.all (fun e =>
       e.journalled || !((tgetD s.dur.reserve p.1 []).any (fun r => r.id = e.id)))) then
    { s with dur := { s.dur with reserve := [] } }
  else s

/-! ### Device faults (R977 to R982, R986) -/

/-- What R309 stops. -/
def stopDevice (s : State) : State :=
  let s := s.slices.foldl (fun s p => s.squash p.1) s
  let s := { s with slices := tmap s.slices (fun _ x => { x with ready := [] }) }
  match s.pwr.phase with
  | .preparing => s.abandonPrep 0
  | _ => s

/-- Device faults of the last 1,000 laps (R982, R998). -/
def faultWindow (s : State) : List Nat := s.dev.faultStrides.filter (fun t => decide (s.stride < t + 4000000))

/-- The first tick after a device fault (R978): admission stops and the fault flush begins. -/
def faultTick (s : State) : State :=
  match s.dev.faultDue with
  | none => s
  | some src =>
    let times := s.stride :: s.faultWindow
    let third := decide (3 ≤ times.length)
    let d := { s.dev with faultDue := none, lastSource := src, faultStride := s.stride, faultStrides := times,
                          faultTotal := min 255 (s.dev.faultTotal + 1) }
    let s := ({ s with dev := d }).ev 0x1F00 noSlice (item 1 src)
    let s := if s.dev.trial then { s with dur := { s.dur with fwTrial := false } } else s
    if s.dev.phase = .safe || s.wbf.pfTaken then
      (if third && s.dev.faultFlush then { s with dev := { s.dev with afterFlush := 6 } } else s)
    else
      let s := s.stopDevice
      { s with dev := { s.dev with phase := .flushing, faultFlush := true, afterFlush := if third then 6 else 2 },
               wbf := { s.wbf with pfTaken := true, pfStart := s.stride, pfBound := s.flushBound } }

/-- A manager restart whose drain has ended begins its flush (R990). -/
def restartTick (s : State) : State :=
  if s.dev.restartDue && !s.dev.faultFlush && !s.wbf.pfTaken && s.heats.isEmpty &&
     s.slices.all (fun p => quiet p.2) then
    { s.stopDevice with dev := { s.dev with phase := .flushing, faultFlush := true, afterFlush := 3,
                                            restartDue := false },
                        wbf := { s.wbf with pfTaken := true, pfStart := s.stride, pfBound := s.flushBound } }
  else s

/-- A power failure joins a fault flush (R980). -/
def joinTick (s : State) : State :=
  if s.dev.faultFlush && s.wbf.pfail && !s.wbf.pfFlushing then
    ({ s with wbf := { s.wbf with pfFlushing := true } }).ev 0x3400 noSlice
  else s

/-- A power failure's flush has ended: with PWR_OK low the device enters reset (R1004), with PFAIL_N high
again it restarts (R313). -/
def afterPfail (s : State) : State :=
  if !s.wbf.pfDone then s
  else if s.pins.pwrLow then s.resetDevice 1
  else match s.pins.pfHigh, s.dev.env with
    | true, some e => (s.resetDevice 1).starterBegin e
    | _, _ => s

/-- What a flush writes, where the map and the slices are up (R311, R979). -/
def flushSave (s : State) (records : Bool) : State :=
  if s.ftl.recovered && decide (s.diesInUse ≠ []) && s.slices ≠ [] then s.saveReserve records
  else if s.evr.reloaded then { s with dur := { s.dur with recDev := s.evr.dev, recSlices := s.evr.slices } }
  else s

/-- FAULT_FLUSH_END (R979, R981, R982), within the bound of R312. -/
def faultFlushEnd (s : State) : State :=
  if !s.dev.faultFlush || !s.pfInTime then s
  else
    let s := s.flushSave false
    let s := { s with dev := { s.dev with faultFlush := false } }
    if s.wbf.pfail then
      let laps := s.pfLaps
      ((({ s with wbf := { s.wbf with pfFlushing := false, pfDone := true } }).setPin 2 true).ev 0x3401 noSlice
        (itemSat 2 laps)).afterPfail
    else if s.dev.afterFlush = 6 then
      let done := s.dev.step3Done
      let t := s.resetDevice 2
      ({ t with dev := { t.dev with step3Done := done, startKind := s.dev.startKind },
                ftl := { t.ftl with dies := s.ftl.dies, chans := s.ftl.chans } }).enterSafe 6
    else s.resetDevice s.dev.afterFlush

/-- EMERGENCY_FLUSH_END (R312, R313, R980). -/
def emergencyFlushEnd (s : State) : State :=
  if s.dev.faultFlush && s.wbf.pfFlushing then s.faultFlushEnd else s.flushEnd.afterPfail

/-- A flush ends at the latest with its bound (R312, R979). -/
def flushTime (s : State) : State :=
  if !s.pfLate then s
  else if s.dev.faultFlush then s.faultFlushEnd
  else if s.wbf.pfFlushing then s.emergencyFlushEnd
  else s

/-- WATCHDOG_EXPIRY: source 0x05 (R977). -/
def watchdogExpiry (s : State) : State :=
  if s.dev.run = .started && s.dev.phase ≠ .safe then s.raiseFault 5 else s

/-- PFAIL_N returns high (R313). -/
def pfailHigh (s : State) (e : StartEnv) : State :=
  if !s.wbf.pfail || s.dev.run ≠ .started then s
  else ({ s with pins := { s.pins with pfHigh := true }, dev := { s.dev with env := some e } }).afterPfail

/-- POWER_FAIL_LATCH (R308). A failure before the starter has begun has nothing to act on. -/
def powerFailLatch (s : State) : State :=
  if s.dev.run = .started then s.latchFail else s

/-- PWR_OK_LOW: latched as PFAIL_N is, outside P4 (R1020). -/
def pwrOkLow (s : State) : State :=
  if s.pwr.state = 4 then s
  else if s.dev.run = .started then
    ({ s.latchFail with pins := { s.pins with pwrLow := true } }).setPin 3 true |>.afterPfail
  else s

/-- THERMAL_TRIP (R1048): THERMTRIP_N falls, and a power failure is latched. -/
def thermalTrip (s : State) : State :=
  if s.dev.run = .started then s.latchFail.setPin 3 false else s

/-! ### DEV_CMD (R987 to R990, R998) -/

/-- A write of an operation to DEV_CMD (R967, R983, R998). -/
def devCommand (s : State) (req : Requester) (op : Nat) (f : State → State) : State :=
  s.bar0Write req 0x20 (fun s =>
    if s.dev.phase = .safe && !(op = 4 || (op = 1 && s.dev.step3Done)) || s.dev.cmdBusy || s.dev.faultFlush then
      { s with dev := { s.dev with cmdRefused := true } }
    else f s)

def devResult (s : State) (r : Nat) : State := { s with dev := { s.dev with cmdResult := r } }

/-- FW_LOAD (R987). -/
def cmdFwLoad (s : State) (req : Requester) (d : Fetch) : State :=
  s.devCommand req 1 (fun s =>
    let len := s.rwNat 0x30
    let target := 1 - s.dev.image
    if s.dev.trial then s.devResult 8
    else if len = 0 then s.devResult 2
    else match d with
      | .failAt _ => s.devResult 1
      | .ok bs => match fwCheck s.kst.weldopoRevoked s.dur.fwFusedEpoch (padTo len bs) with
        | .error r => s.devResult r
        | .ok f =>
          if !s.systemAreaWritable then s.devResult 5
          else ((s.setFw target f).devResult 0).ev 0x0F01 noSlice
            (item 1 target ++ item 1 f.major ++ item 1 f.minor ++ item 1 f.patch))

/-- FW_ACTIVATE (R988). -/
def cmdFwActivate (s : State) (req : Requester) : State :=
  s.devCommand req 2 (fun s =>
    let target := 1 - s.dev.image
    if (s.fwImage target).state ≠ 1 then s.devResult 6
    else
      (({ s with dur := { s.dur with fwTrial := true, fwTries := 0, fwConfirmed := s.dev.image } }).devResult 0).ev
        0x0F02 noSlice)

/-- FW_CONFIRM (R989). -/
def cmdFwConfirm (s : State) (req : Requester) : State :=
  s.devCommand req 3 (fun s =>
    if !s.dev.trial then s.devResult 7
    else
      let k := s.dev.image
      let e := (s.fwImage k).epoch
      let up := decide (s.dur.fwFusedEpoch < e)
      let s := { s with dev := { s.dev with trial := false },
                        dur := { s.dur with fwTrial := false, fwTries := 0, fwConfirmed := k,
                                            fwFusedEpoch := max s.dur.fwFusedEpoch e } }
      let s := (s.devResult 0).ev 0x0F03 noSlice
      if up then s.ev 0x2F02 noSlice else s)

/-- RESTART (R990): admission stops, and the heats stop as under RESET_DRAIN. -/
def cmdRestart (s : State) (req : Requester) : State :=
  s.devCommand req 4 (fun s =>
    let s := { s with dev := { s.dev with restartDue := true, cmdBusy := true } }
    s.slices.foldl (fun s p => s.heatDrain p.1) s)

end State

end Sys2Proof.Machine
end

