-- ==== Sys2Proof/Machine/Commit.lean ====
section
/-! DEFINITION. What a lap boundary puts in force: a course apply with its live-slice check, and a commit with
its pairs (R90 to R106, R133 to R137). -/

namespace Sys2Proof.Machine

namespace State

/-! ### The live-slice check (R91) -/

/-- The created slices: those that hold resources. -/
def created (s : State) : Tab Slice := s.slices.filter (fun p => p.2.st.holds || p.2.release)

/-- An index that slice `n` holds stays its own: reserved to it, or drawn and still in the pool. -/
def indexStays (s : State) (c : Course) (n r i : Nat) : Bool :=
  if (s.reservedIdx r n).contains i then (c.indices r n).contains i
  else (c.indices r ownerPool).contains i || (c.indices r n).contains i

/-- The sum of what the created slices have drawn. -/
def drawnSum (s : State) (f : Nat → Slice → Nat) : Nat := lsum (s.created.map (fun p => f p.1 p.2))

/-- The slots of a new course's table that name an owner. -/
def newSlots (c : Course) (code owner : Nat) : Nat := ((c.table code).filter (· = owner)).length

/-- The new course leaves a created slice what R91 gives it. -/
def liveOk (s : State) (c : Course) (n : Nat) (x : Slice) : Bool :=
  let fixed (r : Nat) : Bool := decide (s.reserved r n ≤ c.amount r n)
  let sh := s.forceNat (shSlots n)
  [resCore, resBank, resGroup, resAes, resSearch].all (fun r => (heldIdx x r).all (fun i => s.indexStays c n r i)) &&
  fixed resKeys && fixed resDram && fixed resCmb &&
  decide (qpCreated x ≤ c.amount resQp n + s.forceNat (shQp n)) &&
  decide (1 ≤ newSlots c (0x200 + x.port) n + hostField sh) &&
  s.channelTables.all (fun t => decide (1 ≤ newSlots c t n + flashField sh))

/-- The new course's pools hold what the created slices have drawn. -/
def poolsOk (s : State) (c : Course) : Bool :=
  let fits (r : Nat) (f : Nat → Slice → Nat) : Bool := decide (s.drawnSum f ≤ c.amount r ownerPool)
  fits resKeys (fun _ x => x.draw.keySlots) && fits resCmb (fun _ x => x.draw.cmb) &&
  fits resDram (fun _ x => x.draw.dram) && fits resWbf (fun n _ => s.forceNat (shWbf n)) &&
  fits resQp (fun n _ => s.forceNat (shQp n)) && fits resAesShare (fun n _ => s.forceNat (shAes n)) &&
  s.channelTables.all (fun t => decide (s.drawnSum (fun n _ => flashField (s.forceNat (shSlots n))) ≤
    newSlots c t ownerPool)) &&
  (List.range 2).all (fun p => decide (s.drawnSum (fun n x => if x.port = p then hostField (s.forceNat (shSlots n))
    else 0) ≤ newSlots c (0x200 + p) ownerPool))

/-- The live-slice check. -/
def liveCheck (s : State) (c : Course) : Bool :=
  s.created.isEmpty || (s.poolsOk c && s.created.all (fun p => s.liveOk c p.1 p.2))

/-- A drawn index that the course in force now reserves to its slice counts as reserved (R91). -/
def recount (s : State) (n : Nat) (x : Slice) : Slice :=
  let drawn (r : Nat) : Nat := ((heldIdx x r).filter (fun i => !(s.reservedIdx r n).contains i)).length
  { x with draw := { x.draw with cores := drawn resCore, banks := drawn resBank, bgroups := drawn resGroup,
                                 search := drawn resSearch } }

/-! ### The course apply (R90, R97 to R99, R104, R968) -/

/-- The first course of a start-up resets the ports as PERST# does (R97). -/
def portsReset (s : State) : State := (List.range s.portCount).foldl (fun s p => s.portReset p false) s

/-- The course takes effect. -/
def applyCourse (s : State) (c : Course) : State :=
  let first := !s.hasCourse
  let s := { s with staged := [] }
  let s := s.setCrs { s.crs with state := .applied, result := 0 }
  let s := s.courseInForce c
  let s := { s with slices := tmap s.slices (fun n x => s.recount n x) }
  let s := if s.faultInject then s else s.fijReset
  if first then s.portsReset.resumeStart else s

/-- An apply that is due at this boundary: it takes effect, or it fails the live-slice check (R90). -/
def applyLap (s : State) : State :=
  match s.crs.state, s.crs.image with
  | .applyPending, some c =>
    if s.liveCheck c then s.applyCourse c
    else (s.setCrs { s.crs with state := .staged, result := 0x21 }).ev 0x1101 noSlice
  | _, _ => s

/-! ### The commit (R98 to R104, R133 to R137) -/

/-- A slice whose shares may change (R134, R135). -/
def shareable (s : State) (n : Nat) : Bool := (s.slice n).st = .active || (s.slice n).st = .frozen

/-- The slice whose share or pairing register a key is. -/
def shareKey (k : Nat) : Option Nat :=
  if 0x48000 ≤ k && k < 0x4C000 then some ((k - 0x48000) / 0x20)
  else if 0x202000 ≤ k && k < 0x202800 then some ((k - 0x202000) / 4)
  else none

/-- Staged shares of slices that have left ACTIVE and FROZEN are dropped (R135). -/
def dropStaged (s : State) : State :=
  { s with staged := s.staged.filter (fun p => match shareKey p.1 with
    | some n => s.shareable n
    | none => true) }

/-- The sum of a staged share over all slices. -/
def stagedSum (s : State) (key f : Nat → Nat) : Nat := lsum (s.slices.map (fun p => f (s.stagedNat (key p.1))))

/-- The lowest slice that breaks a pair of its own, 0x110 to 0x113 (R136). -/
def breaker (s : State) (pair : Nat) : Option Nat :=
  let bad (n : Nat) (x : Slice) : Bool :=
    let qp := s.reserved resQp n + s.stagedNat (shQp n)
    let sh := s.stagedNat (shSlots n)
    if pair = 0x110 then decide (qp < qpCreated x)
    else if pair = 0x111 then s.ownSlots (0x200 + x.port) n + hostField sh = 0
    else if pair = 0x112 then s.channelTables.any (fun t => s.ownSlots t n + flashField sh = 0)
    else decide (65536 < qp)
  (s.slices.find? (fun p => s.shareable p.1 && bad p.1 p.2)).map Prod.fst

/-- The pairs that disagree on their staged values, in ascending order (R102, R136, R319, R996). -/
def badPairs (s : State) : List Nat :=
  let host (p : Nat) : Nat :=
    lsum (s.slices.map (fun q => if q.2.port = p && q.2.st.holds then hostField (s.stagedNat (shSlots q.1)) else 0))
  let exceeded (pair want have' : Nat) : List Nat := if have' < want then [pair] else []
  exceeded 0x101 (s.stagedSum shWbf id) (s.poolAmount resWbf) ++ exceeded 0x102 (s.stagedSum shQp id) (s.poolAmount resQp) ++
  exceeded 0x103 (s.stagedSum shAes id) (s.poolAmount resAesShare) ++
  exceeded 0x104 (s.stagedSum shSlots flashField) s.minPoolFlash ++
  (if (List.range 2).any (fun p => decide (s.poolSlots (0x200 + p) < host p)) then [0x105] else []) ++
  [0x110, 0x111, 0x112, 0x113].filter (fun p => (s.breaker p).isSome) ++
  (if s.stagedNat 0x200004 0x4B ≤ s.stagedNat 0x200008 0x32 then [0x301] else []) ++
  ((List.range 8).filter (fun k => !s.fijPairOk (s.stagedNat (fijTgtKey k)) (s.stagedNat (fijRateKey k) 1))).map
    (0xE01 + ·)

/-- The staged values that a commit puts in force. -/
def takeStaged (s : State) : State :=
  let changed := s.staged.map Prod.fst
  let s := { s with inForce := s.staged.foldl (fun (m : Tab (BitVec 64)) (p : Nat × BitVec 64) => tset m p.1 p.2)
                                 s.inForce,
                    staged := [] }
  let pairs := changed.filterMap (fun k => if 0x202000 ≤ k && k < 0x202800 then some ((k - 0x202000) / 4) else none)
  let s := pairs.foldl (fun s n => s.pairChanged n) s
  let s := if changed.contains fijSeedKey then
      { s with fij := { s.fij with lfsr := BitVec.ofNat 32 (s.forceNat fijSeedKey 1) } }
    else s
  ((List.range 8).filter (fun k => changed.any (fun c => decide (fijTgtKey k ≤ c) && decide (c < fijTgtKey k + 0xC)))).foldl
    (fun s k => s.fijArm k) s

/-- The commit of this boundary (R100 to R103). With nothing staged it succeeds and changes nothing (R101). -/
def commitNow (s : State) : State :=
  let s := s.dropStaged
  let bad := if s.staged = [] then [] else s.badPairs
  let own := [0x110, 0x111, 0x112, 0x113].find? (fun p => bad.contains p)
  let s := s.setSlc { s.slc with commitPair := own.getD 0, commitSlice := (own.bind s.breaker).getD 0 }
  match bad with
  | [] =>
    let s := s.setCrs { s.crs with commitPending := false, commitResult := 1, commitPair := 0, commitCount := 0 }
    s.takeStaged.ev 0x0101 noSlice
  | p :: _ =>
    let s := s.setCrs { s.crs with commitPending := false, commitResult := 2, commitPair := p,
                                   commitCount := min 255 bad.length }
    let s := s.ev 0x1100 noSlice
    match own.bind s.breaker with
    | some n => s.ev 0x1301 n
    | none => s

/-- Step 1 of R34: the apply, then the commit; an apply that takes effect supersedes it (R104, R106). -/
def configLap (s : State) : State :=
  if 2 ≤ s.pwr.state then s
  else
    let due := s.crs.commitPending
    let applied := match s.crs.state, s.crs.image with
      | .applyPending, some c => s.liveCheck c
      | _, _ => false
    let s := s.applyLap
    if !due then s
    else if applied then
      s.setCrs { s.crs with commitPending := false, commitResult := 3, commitPair := 0, commitCount := 0 }
    else s.commitNow

end State

end Sys2Proof.Machine
end

