-- ==== Sys2Proof/Machine/Power.lean ====
section
/-! DEFINITION. The power manager: targets, preparation, entry, wake and exit (R898 to R931). -/

namespace Sys2Proof.Machine

/-- The wake-to-P0 bounds in microseconds (R898). -/
def wakeBound (st : Nat) : Nat :=
  if st = 1 then 21 else if st = 2 then 204 else if st = 3 then 182000 else if st = 4 then 2002000 else 0

/-- The SRAM arrays that P3 keeps whole (R895, R913): the local SRAM of the management cores, the management
shared SRAM, the event recorder and the host interface buffers. -/
def alwaysKept (a : Nat) : Bool := (decide (0x40 ≤ a) && decide (a < 0x48)) || a = 0x50 || a = 0x53 || a = 0x54

namespace State

/-! ### The tolerance and the target (R901 to R906) -/

/-- The slices that take part in the tolerance (R903). -/
def tolSlices (s : State) : Tab Slice :=
  s.slices.filter (fun p => match p.2.st with
    | .active | .freezing | .frozen | .resetting => true
    | _ => false)

/-- The tolerance in force (R903). -/
def tolerance (s : State) : Nat :=
  s.tolSlices.foldl (fun m p => min m p.2.feats.ltol.toNat) (s.rwNat 0x1900008)

/-- The slice whose tolerance is in force, or 0xFFFF for the manager's. -/
def tolHolder (s : State) : Nat :=
  if s.tolerance = s.rwNat 0x1900008 then noSlice
  else match s.tolSlices.find? (fun p => p.2.feats.ltol.toNat = s.tolerance) with
    | some p => p.1
    | none => noSlice

/-- PWR_CTL.MAX_STATE (R931). -/
def maxState (s : State) : Nat := natBits (s.rwNat 0x1900004 3) 2 0

/-- The deepest state that the tolerance and MAX_STATE allow. -/
def deepest (s : State) : Nat :=
  let fit := [4, 3, 2, 1].find? (fun k => decide (wakeBound k ≤ s.tolerance) && decide (k ≤ s.maxState))
  fit.getD 0

/-- The idle period of a state, in laps (R931). -/
def idlePeriod (s : State) (k : Nat) : Nat :=
  let v := s.rwNat 0x1900010 0x640A0A01
  if k = 1 then natBits v 7 0 else if k = 2 then natBits v 15 8 else if k = 3 then 100 * natBits v 23 16
  else 100 * natBits v 31 24

/-- CRS_STAT.BUSY (R109). -/
def crsBusy (s : State) : Bool := match s.crs.state with
  | .loading | .applyPending | .persistingStaged | .persistingApplied => true
  | _ => false

/-- Collection, refresh or demotion that is due and has not begun (R343, R361, R368, R905). -/
def ftlDue (s : State) : Bool :=
  !s.refreshWaiting.isEmpty ||
  s.ftl.blks.any (fun p => p.2.state = .closed && !p.2.erasing && (s.reclaimOf p.1).isNone && s.gcRuns (dieOfBlk p.1)) ||
  (decide (7 * s.ftl.fineTotal < 8 * s.ftl.fine.length) && (s.oldestIdle s.ftl.fine).isSome)

/-- The first entry condition of P1, or of P2 to P4, that fails: its BLOCK code, 0 where all hold (R905, R906).
A preparation's own checkpoint is no outstanding work of the FTL. -/
def entryBlock (s : State) (k : Nat) (prep : Bool := false) : Nat :=
  if s.heats.any (fun h => decide (h.st ≠ .checking)) then 3
  else if k = 1 then 0
  else if s.tolSlices.any (fun p => !p.2.adms.isEmpty || !p.2.ready.isEmpty ||
      p.2.sqs.any (fun q => decide (q.2.recTail.getD q.2.tail ≠ q.2.head) || !q.2.ents.isEmpty)) then 4
  else if s.slices.any (fun p => decide (s.occupancy p.1 ≠ 0) || !p.2.entries.isEmpty) then 5
  else if s.crs.state = .applyPending || s.crs.commitPending then 6
  else if s.slices.any (fun p => match p.2.st with
      | .absent | .active | .frozen | .parked => false
      | _ => true) then 7
  else if !s.ftl.reclaims.isEmpty || !s.ftl.demotes.isEmpty || !s.ftl.jobs.isEmpty || !s.ftl.polls.isEmpty || s.ftl.ckptCmd ||
      s.ftlDue || (!prep && (s.ftl.ckptRunning.isSome || !s.ftl.journal.isEmpty)) then 8
  else if s.crsBusy || s.slc.op.isSome || s.ftl.busy || s.ftl.chans.any (fun c => c.2.dumpBusy) ||
      s.kst.enrolBusy then 9
  else 0

/-- The entry conditions of a state hold (R905). -/
def entryOk (s : State) (k : Nat) : Bool := s.entryBlock k = 0

/-- The target of this lap boundary (R904). -/
def target (s : State) : Nat :=
  let fit := [4, 3, 2, 1].find? (fun k => decide (k ≤ s.deepest) &&
    decide (s.idlePeriod k ≤ s.pwr.idle.getD (k - 1) 0))
  fit.getD 0

/-- PWR_STAT.BLOCK (R906). -/
def pwrBlock (s : State) : Nat :=
  let d := s.deepest
  if s.tolerance < wakeBound 1 then 1
  else if s.maxState = 0 then 2
  else if d ≤ s.pwr.state then 0
  else
    let b := s.entryBlock d
    if b ≠ 0 then b else if s.pwr.idle.getD (d - 1) 0 < s.idlePeriod d then 0xA else 0

/-! ### Preparation and entry (R907 to R912, R919) -/

/-- The stride at which the oldest closed block falls due (R368, R919). -/
def refreshStride (s : State) : Option Nat :=
  let closed := s.ftl.blks.filter (fun p => p.2.state = .closed)
  match closed with
  | [] => none
  | p :: t =>
    let oldest := t.foldl (fun m q => min m q.2.closedAge) p.2.closedAge
    let due := oldest + s.refreshDays * 86400000
    some (s.lap * 4000 + (due - s.ftl.mediaAge) * 4000)

/-- Preparation or entry begins at a lap boundary (R904, R907). -/
def descend (s : State) (k : Nat) : State :=
  if k ≤ 2 then { s with pwr := { s.pwr with target := k, phase := .entering, falseStart := s.pwr.falseStart,
                                             latched := none } }
  else
    let s := { s with pwr := { s.pwr with target := k, phase := .preparing, prepAt := s.stride, latched := none,
                                          refreshWake := s.refreshStride } }
    if s.ftl.ckptRunning.isNone then s.startCkpt else s

/-- The idle periods and the target at a lap boundary (R904). -/
def powerLap (s : State) : State :=
  let idle := [1, 2, 3, 4].map (fun k => if s.entryOk k then s.pwr.idle.getD (k - 1) 0 + 1 else 0)
  let res := laddSat s.pwr.residency s.pwr.state 1 (2 ^ 64 - 1)
  let s := { s with pwr := { s.pwr with idle := idle, residency := res } }
  if s.pwr.phase ≠ .steady || s.dev.phase ≠ .ready || s.wbf.pfTaken || s.dev.restartDue || 3 ≤ s.pwr.state then s
  else
    let k := s.target
    if s.pwr.state < k then s.descend k else s

/-- A retained bank of array `a` that holds byte `off` (R77, R913). -/
def retained (s : State) (a off : Nat) : Bool :=
  alwaysKept a ||
  match s.crs.inForce with
  | none => false
  | some c =>
    if a < 0x40 then natBit c.coreBanks (a * 4 + off / 65536)
    else if decide (0x48 ≤ a) && decide (a < 0x50) then natBit c.clusterBanks ((a - 0x48) * 8 + off / 2 ^ 20)
    else if a = 0x51 then c.keystoreRet
    else false

/-- Every page to be retained is clean (R871, R907). -/
def retainedClean (s : State) : Bool :=
  s.mem.all (fun p => p.1 = dramArr || (p.2.dirty.all (fun d => !s.retained p.1 (d.1 * pageSize p.1))))

/-- Preparation for P3 or P4 has ended (R907). -/
def prepared (s : State) : Bool :=
  s.pwr.phase = .preparing && s.ftl.ckptRunning.isNone && s.ftl.journal.isEmpty && s.retainedClean

/-- The P4 record (R916). -/
def p4RecordNow (s : State) : P4Record :=
  { course := s.crs.inForce, inForce := s.inForce, slices := s.slices, devLog := s.kst.log,
    sliceLogs := s.sliceKeys.map (fun p => (p.1, p.2.log)),
    rwPower := s.rw.filter (fun p => p.1 = 0x1900004 || p.1 = 0x1900008 || p.1 = 0x1900010),
    firmware := s.runImage.bytes }

/-- A preparation whose entry condition has failed is abandoned (R909). -/
def prepTick (s : State) : State :=
  if s.pwr.phase = .preparing then
    let b := s.entryBlock 2 true
    if b ≠ 0 then s.abandonPrep b else s
  else s

/-- Something has come since the last tick that holds an entry back (R106, R265): an apply or a commit that is pending, or
an entry in the write buffer. -/
def entryHeld (s : State) : Bool :=
  s.crs.commitPending || s.crs.state = .applyPending || s.slices.any (fun p => !p.2.entries.isEmpty)

/-- POWER_ENTRY_BEGIN (R106, R265, R910, R1014). -/
def powerEntryBegin (s : State) : State :=
  if !s.prepared || (decide (2 ≤ s.pwr.target) && s.entryHeld) then s
  else
    let s := if s.pwr.target = 4 then { s with dur := { s.dur with p4 := some s.p4RecordNow } } else s
    let s := { s with pwr := { s.pwr with phase := .entering, prepReady := true } }
    let s := (List.range 4).foldl (fun s p => s.linkDown p 0xD0) s
    (s.setPin 6 false).setPin 7 false

/-- What P3 loses (R913 to R915, R647). -/
def loseP3 (s : State) : State :=
  let keep (p : Nat × MemArr) : Nat × MemArr :=
    if p.1 = dramArr then (p.1, {})
    else (p.1, { cells := p.2.cells.filter (fun c => s.retained p.1 c.1),
                 raws := p.2.raws.filter (fun c => s.retained p.1 c.1) })
  let s := s.patLose
  let rly := tmap s.rly.ports (fun _ x => { x with phyUp := false })
  { s with
    mem := s.mem.map keep, cmb := [], cores := [], drcs := tmap s.drcs (fun _ d => { d with trained := false })
    heatRegs := tmap s.heatRegs (fun _ h => { h with programs := [] })
    rly := { s.rly with ports := rly, routes := [], members := [] } }

/-- What P4 loses besides (R910, R913). -/
def loseP4 (s : State) : State :=
  let down := (s.ports.filter (fun p => p.2.linkUp)).map (fun p => Out.linkDown p.1)
  let s := { s with mem := [], out := s.out ++ down,
                    ports := tmap s.ports (fun _ p => { perst := p.perst }) }
  s.setPin 5 false

/-- POWER_STATE_REACHED: the state, its losses, event 0x3D00, and the exit of a latched false start (R911, R912). -/
def powerStateReached (latchBasic : State → State) (s : State) : State :=
  if s.pwr.phase ≠ .entering then s
  else
    let k := s.pwr.target
    let s := s.ev 0x3D00 noSlice (item 1 k)
    let s := if 3 ≤ k then (latchBasic s).loseP3 else s
    let s := if k = 4 then s.loseP4 else s
    let s := { s with pwr := { s.pwr with state := k, phase := .steady, clusterPll := 0, pllWanted := 0,
                                          mgmtPll := k = 1, idle := [0, 0, 0, 0], prepReady := false } }
    match s.pwr.latched with
    | some _ => { s with pwr := { s.pwr with phase := .exiting, latched := none, wakeEventDue := true } }
    | none => s

/-! ### Wake (R918 to R920) -/

/-- Wakes that the tick itself finds: the tolerance, and a heat in STAGING (R918 sources 0x8 and 0xA). -/
def wakeTick (s : State) : State :=
  let tol := s.tolerance
  let st := match s.pwr.phase with
    | .steady => s.pwr.state
    | _ => s.pwr.target
  let s := if decide (tol < wakeBound st) && decide (wakeBound st ≤ s.pwr.tolPrev) then s.wakeEvent 8 s.tolHolder else s
  let s := { s with pwr := { s.pwr with tolPrev := tol } }
  match s.heats.find? (fun h => decide (h.st ≠ .checking)) with
  | some h => if st = 1 then s.wakeEvent 0xA h.id.slice else s
  | none => s

/-- PWR_TIMER_EXPIRY (R918 source 0x6). -/
def timerExpiry (s : State) : State :=
  let t := s.rwNat 0x1900028
  if t ≠ 0 && t = s.stride then s.wakeEvent 6 0 else s

/-- REFRESH_WAKE (R918 source 0x7, R919). -/
def refreshWakeDue (s : State) : State :=
  match s.pwr.refreshWake with
  | some t => if t ≤ s.stride && 3 ≤ s.pwr.state then
      ({ s with pwr := { s.pwr with refreshWake := none } }).wakeEvent 7 0 else s
  | none => s

/-- WAKE: a write of PWR_CMD (R918 source 0x9). -/
def cmdWake (s : State) (req : Requester) : State :=
  s.bar0Write req 0x1900014 (fun s => s.wakeEvent 9 0)

/-- PCIE_L1_EXIT (R918 source 0x2). -/
def l1Exit (s : State) : State := s.wakeEvent 2 0

/-- CLUSTER_PLL_LOCK (R930). -/
def pllLock (s : State) (c : Nat) : State :=
  if natBit s.pwr.pllWanted c then
    { s with pwr := { s.pwr with clusterPll := s.pwr.clusterPll + 2 ^ c, pllWanted := s.pwr.pllWanted - 2 ^ c } }
  else s

/-! ### Exit (R927 to R930) -/

/-- P0 is reached: the wake record of an exit from P2 to P4, and the clusters' PLL requests. -/
def reachP0 (s : State) : State :=
  let src := s.pwr.wakeFrom
  let s := { s with pwr := { s.pwr with state := 0, target := 0, phase := .steady, mgmtPll := true, clusterPll := 0,
                                        pllWanted := 2 ^ (s.coresPresent / 8) - 1, wakeEventDue := false,
                                        idle := [0, 0, 0, 0] } }
  if 2 ≤ src then
    s.ev 0x3D01 noSlice (item 1 s.pwr.wakeSource ++ item 1 src ++ item 2 s.pwr.wakeDetail)
  else s

/-- The exit from P3 (R915, R927): memories train, the key store and the map are reloaded. -/
def exitP3 (s : State) (e : StartEnv) : State :=
  let s := ((s.setPin 6 true).setPin 7 true).trainAll e
  let s := s.trainFlash e
  if (List.range 4).any (fun c => s.drcPopulated c && (s.drc c).trainFail) then s.enterSafe 5
  else
    let ret := match s.crs.inForce with
      | some c => c.keystoreRet
      | none => false
    let s := if ret then s else s.reloadKeys
    let d := s.drawBytes 32
    let s := d.2.setKst { d.2.kst with slot2 := d.1 }
    let s := { s with dgs := { s.dgs with batons := [] } }
    (s.recoverFtl e).reachP0

/-- The power registers and tolerances of the P4 record come back (R916). -/
def fromP4 (s : State) (r : P4Record) : State :=
  let s := r.rwPower.foldl (fun s p => s.rwSet p.1 p.2) s
  { s with slices := tmap s.slices (fun n x =>
      { x with feats := { x.feats with ltol := (tgetD r.slices n {}).feats.ltol } }),
           inForce := r.inForce,
           sliceKeys := tmap s.sliceKeys (fun n k => { k with log := tgetD r.sliceLogs n k.log }) }

/-- The exit from P4: the starter's sequence with the P4 record in the course's place, or a cold start
(R927, R929). -/
def exitP4 (s : State) (e : StartEnv) : State :=
  let w := s.pwr
  let cold (s : State) : State := ((s.resetDevice 1).ev 0x1D00 noSlice).starterBegin e
  match s.dur.p4, e.p4RecordOk with
  | some r, true =>
    let t := s.resetDevice 4
    let t := t.setKst { t.kst with log := r.devLog }
    match t.startSteps e with
    | .error t => t
    | .ok t =>
      if t.runImage.bytes ≠ r.firmware then cold s
      else match r.course with
        | none => cold s
        | some c =>
          let t := { (t.courseInForce c) with inForce := r.inForce }
          let t := (t.finishStart e).fromP4 r
          ({ t with pwr := { t.pwr with wakeSource := w.wakeSource, wakeFrom := w.wakeFrom,
                                        wakeDetail := w.wakeDetail, wakeStride := w.wakeStride } }).reachP0
  | _, _ => cold s

/-- POWER_EXIT_COMPLETE (R927). -/
def powerExitComplete (s : State) (e : StartEnv) : State :=
  if s.pwr.phase ≠ .exiting then s
  else if s.pwr.state = 3 then s.exitP3 e
  else if s.pwr.state = 4 then s.exitP4 e
  else s.reachP0

end State

end Sys2Proof.Machine
end

