-- ==== Sys2Proof/Machine/Ports.lean ====
section
/-! DEFINITION. Port events, controller registers, doorbells and the controller memory buffer (R52 to R54, R183
to R193, R210 to R215, R1034, R1035). -/

namespace Sys2Proof.Machine

/-- CC holds no reserved bit or value (R187, and NVMe 2.0 for the fields the rule does not list). -/
def ccOk (v : Nat) : Bool :=
  natBits v 31 24 = 0 && natBits v 3 1 = 0 && natBits v 6 4 = 0 && natBits v 10 7 = 0 && decide (natBits v 13 11 ≤ 1) &&
  decide (natBits v 15 14 ≠ 3) && (natBits v 19 16 = 0 || natBits v 19 16 = 6) &&
  (natBits v 23 20 = 0 || natBits v 23 20 = 4)

namespace State

/-! ### Port events (R183 to R185, R1034, R1035) -/

/-- The port exists under PORT_MODE and the device has power enough to meet its events. -/
def portLive (s : State) (p : Nat) : Bool :=
  decide (p < s.portCount) && s.dev.run = .started && decide (s.pwr.state < 3)

/-- FLR (R183). -/
def flr (s : State) (p : Nat) : State := if s.portLive p && (s.port p).linkUp then s.portReset p true else s

/-- HOT_RESET, or the link goes down (R183). -/
def hotReset (s : State) (p : Nat) : State := if s.portLive p && (s.port p).linkUp then s.portReset p false else s

/-- PERST_ASSERTED: the pin's level is kept; on a port that exists it acts under R183, or as a wake (R918,
R1035). -/
def perstAsserted (s : State) (p : Nat) : State :=
  let s := s.modPort p (fun x => { x with perst := true })
  if s.portCount ≤ p || s.dev.run ≠ .started then s
  else if 3 ≤ s.pwr.state then s.wakeEvent 3 p
  else (s.wakeEvent 3 p).portReset p false

/-- PERST_RELEASED: link training starts (R1034). -/
def perstReleased (s : State) (p : Nat) : State := s.modPort p (fun x => { x with perst := false })

/-- A rate, width and mode that a port's link may come up with (R179, R245): x8 at most with two ports, and FLIT mode at
64 GT/s. -/
def linkOk (s : State) (speed width : Nat) (flit : Bool) : Bool :=
  decide (1 ≤ speed) && decide (speed ≤ 6) && [1, 2, 4, 8, 16].contains width && (s.portCount = 1 || decide (width ≤ 8)) &&
  (decide (speed < 6) || flit)

/-- LINK_UP: the link has trained, and the host has placed BAR4. -/
def linkUp (s : State) (p speed width : Nat) (flit : Bool) (bar4 : Nat) : State :=
  if s.linkOk speed width flit && decide (p < s.portCount) && s.dev.run = .started && !(s.port p).perst && decide (s.pwr.state < 4) then
    (s.modPort p (fun x => { x with linkUp := true, speed := speed, width := width, flit := flit, bar4 := bar4 })).ev
      0x0200 noSlice (item 1 p ++ item 1 speed ++ item 1 width)
  else s

/-- Bus Master Enable of a port is written (R185). -/
def busMaster (s : State) (p : Nat) (on : Bool) : State :=
  if (s.port p).linkUp then s.modPort p (fun x => { x with busMaster := on }) else s

/-! ### CC (R187, R189 to R191) -/

/-- A write of CC. -/
def ccWrite (s : State) (p n : Nat) (v : BitVec 32) : State :=
  s.winWrite p n 0x14 (fun s =>
    let x := s.slice n
    if !ccOk v.toNat || x.ctrl.resetting || x.st = .resetting then s.discardWin n 0x14
    else
      let was := natBit x.ctrl.cc.toNat 0
      let now := natBit v.toNat 0
      let s := s.modSlice n (fun x => { x with ctrl := { x.ctrl with cc := v } })
      if was && !now then s.beginCtrlReset n
      else
        let s := if !was && now && x.st = .active then
            s.modSlice n (fun x => { x with ctrl := { x.ctrl with enableDue := true } })
          else s
        if natBits v.toNat 15 14 ≠ 0 && x.ctrl.shst = 0 then
          s.modSlice n (fun x => { x with ctrl := { x.ctrl with shst := 1 } })
        else s)

/-- The admin queue registers of an enabled controller pass (R187, R189). -/
def adminOk (s : State) (n : Nat) (x : Slice) : Bool :=
  let sqs := natBits x.ctrl.aqa.toNat 11 0
  let cqs := natBits x.ctrl.aqa.toNat 27 16
  let asq := x.ctrl.asq.toNat
  decide (sqs ≠ 0) && decide (cqs ≠ 0) &&
  (!s.touchesBar4 x.port asq ((sqs + 1) * 64) || s.inPortion n asq ((sqs + 1) * 64)) &&
  !s.touchesBar4 x.port x.ctrl.acq.toNat ((cqs + 1) * 16)

/-- The admin queues of a controller that has become ready. -/
def adminQueues (s : State) (n : Nat) (x : Slice) : Slice :=
  let sq : Sq := { base := x.ctrl.asq.toNat, size := natBits x.ctrl.aqa.toNat 11 0 + 1, cqid := 0, prio := 0,
                   inCmb := s.inPortion n x.ctrl.asq.toNat 64 }
  let cq : Cq := { base := x.ctrl.acq.toNat, size := natBits x.ctrl.aqa.toNat 27 16 + 1, iv := 0, ien := true }
  { x with sqs := tset x.sqs 0 sq, cqs := tset x.cqs 0 cq }

/-- The check of an enable at a lap boundary (R189). -/
def enableLap (s : State) : State :=
  s.slices.foldl (fun s p =>
    let x := s.slice p.1
    if x.ctrl.enableDue && x.st = .active && !x.ctrl.resetting then
      if s.adminOk p.1 x then
        (s.setSlice p.1 (s.adminQueues p.1 { x with ctrl := { x.ctrl with rdy := true, enableDue := false } })).ev
          0x0201 p.1
      else (s.setSlice p.1 { x with ctrl := { x.ctrl with cfs := true, enableDue := false } }).ev 0x1201 p.1
    else s) s

/-! ### Doorbells (R210 to R213, R918, R924) -/

/-- An invalid doorbell (R211, R212). -/
def badDoorbell (s : State) (n : Nat) (e : AsyncEv) : State := (s.asyncEvent n e).ev 0x1202 n

/-- A doorbell write is recorded (R210): in its queue, or as one that names none (R212). In SAVING and MIGRATING it is
discarded (R116); DESIGN CHOICE (102): that discard, which is none of R13's, is not reported. -/
def recordDoorbell (s : State) (n : Nat) (cq : Bool) (qid v : Nat) (ents : List SqEntry) : State :=
  let x := s.slice n
  if x.st = .saving || x.st = .migrating then s
  else
  let stray : State :=
    s.setSlice n { x with strays := x.strays.filter (fun d => decide (d ≠ (cq, qid))) ++ [(cq, qid)] }
  if cq then
    match tget x.cqs qid with
    | none => stray
    | some q => s.setSlice n { x with cqs := tset x.cqs qid { q with recHead := some v } }
  else
    match tget x.sqs qid with
    | none => stray
    | some q => s.setSlice n { x with sqs := tset x.sqs qid { q with recTail := some v, recEnts := ents } }

/-- Does a tail doorbell expose an entry (R918)? -/
def exposes (s : State) (n : Nat) (cq : Bool) (qid v : Nat) : Bool :=
  !cq && match tget (s.slice n).sqs qid with
    | some q => decide (v ≠ q.recTail.getD q.tail)
    | none => false

/-- DOORBELL_WRITE: in P3 it is recorded all the same (R924). A value with a bit above 15 sets a reserved bit
(R12). -/
def doorbellWrite (s : State) (p n : Nat) (cq : Bool) (qid v : Nat) (ents : List SqEntry) : State :=
  let off := 0x80000 + 8 * qid + (if cq then 4 else 0)
  if 65536 ≤ v then s.winWrite p n off (fun s => s.discardWin n off)
  else
  let s := if s.exposes n cq qid v then s.wakeEvent 1 n else s.wakeEvent 2 0
  if s.dev.run = .started && s.dev.phase = .ready && s.pwr.state = 3 && s.windowLive p n then
    s.recordDoorbell n cq qid v ents
  else match s.bar2Blocked p n off with
    | some t => t
    | none => s.recordDoorbell n cq qid v ents

/-- Are a slice's doorbells sampled (R116 to R118: FREEZE stops it, THAW resumes it)? -/
def samples (x : Slice) : Bool := x.st = .active && !x.ctrl.resetting

/-- One submission queue's recorded tail at a tick (R210, R211). -/
def sampleSq (s : State) (n qid : Nat) : State :=
  match tget (s.slice n).sqs qid with
  | none => s
  | some q => match q.recTail with
    | none => s
    | some v =>
      let put (s : State) (q : Sq) : State := s.modSlice n (fun x => { x with sqs := tset x.sqs qid q })
      let q0 := { q with recTail := none, recEnts := [] }
      if q.size ≤ v then (put s q0).badDoorbell n .invalidDoorbellValue
      else
        let new := (v + q.size - q.tail) % q.size
        put s { q0 with tail := v, ents := q.ents ++ q.recEnts.take new }

/-- One completion queue's recorded head at a tick (R211). -/
def sampleCq (s : State) (n qid : Nat) : State :=
  match tget (s.slice n).cqs qid with
  | none => s
  | some q => match q.recHead with
    | none => s
    | some v =>
      let put (s : State) (q : Cq) : State := s.modSlice n (fun x => { x with cqs := tset x.cqs qid q })
      let posted := (q.tail + q.size - q.head) % q.size
      if q.size ≤ v || posted < (v + q.size - q.head) % q.size then
        (put s { q with recHead := none }).badDoorbell n .invalidDoorbellValue
      else put s { q with recHead := none, head := v }

/-- The doorbells that name no queue are sampled: each is discarded (R212). -/
def sampleStrays (s : State) (n : Nat) : State :=
  let ds := (s.slice n).strays
  ds.foldl (fun s _ => s.badDoorbell n .invalidDoorbell) (s.modSlice n (fun x => { x with strays := [] }))

/-- The doorbells are sampled (R33 step 4, R210). -/
def sampleTick (s : State) : State :=
  s.slices.foldl (fun s p =>
    if samples p.2 then
      let s := p.2.sqs.foldl (fun s q => s.sampleSq p.1 q.1) s
      (p.2.cqs.foldl (fun s q => s.sampleCq p.1 q.1) s).sampleStrays p.1
    else s) s

/-! ### The controller memory buffer (R52 to R54, R924, R967) -/

/-- The slice whose portion holds every byte of an access, if its PASID is bound there (R54). -/
def portionOf (s : State) (p : Nat) (pasid : Option Nat) (off len : Nat) : Option Nat :=
  (s.slices.find? (fun q => match q.2.cmbOff, pasid with
    | some o, some d => q.2.st.holds && q.2.port = p && q.2.pasids.contains d && decide (o * 2 ^ 20 ≤ off) &&
        decide (off + len ≤ (o + q.2.cmbMib) * 2 ^ 20)
    | _, _ => false)).map Prod.fst

/-- A host read or write of any BAR wakes the device from P3 (R924). -/
def wakeP3 (s : State) : State :=
  let st := match s.pwr.phase with
    | .steady => s.pwr.state
    | _ => s.pwr.target
  if st = 3 then s.wakeEvent 2 0 else s

/-- CMB_ACCESS: a read (`wr` none) or a write of BAR4. -/
def cmbAccess (s : State) (p : Nat) (pasid : Option Nat) (off len : Nat) (wr : Option Bytes) : State :=
  let s := s.wakeP3
  let zero (s : State) : State := { s with lastRead := 0 }
  let early := s.dev.phase ≠ .ready || s.pwr.state = 3
  if s.dev.run ≠ .started || s.pwr.state = 4 then s
  else if early then
    match wr with
    | none => zero s
    | some _ => s.discard devErr 2 (off / 32)
  else if s.cmbSize < off + len then
    match wr with
    | none => zero s
    | some _ => s.discard hifErr 2 (off / 32)
  else match s.portionOf p pasid off len, wr with
    | some _, none => { s with lastRead := BitVec.ofNat 64 (leNat (mread s.cmb off (min 8 len))) }
    | some _, some d => s.cmbPut off (padTo len d)
    | none, none => (zero s).ev 0x2200 noSlice
    | none, some _ => (s.discard hifErr 2 (off / 32)).ev 0x2200 noSlice

end State

end Sys2Proof.Machine
end

