-- ==== Sys2Proof/Machine/RegRead.lean ====
section
/-! DEFINITION. What every register reads (R4, R10, R15 to R17, R44 to R50, R114, R182, R187, R188, R924, R948,
R960, R967, R983, R991 and the register tables of every chapter). -/

namespace Sys2Proof.Machine

/-- The code of a slice state (R116). -/
def SlState.code : SlState → Nat
  | .absent => 0 | .creating => 1 | .active => 2 | .freezing => 3 | .frozen => 4 | .resetting => 5
  | .saving => 6 | .parked => 7 | .restoring => 8 | .migrating => 9 | .receiving => 0xA | .destroying => 0xB

/-- The manager's view of a slice (R130). -/
structure ManagerView where
  state : SlState
  totals : Draw
  pasids : List Nat
  port : Nat
  qpCreated : Nat
  deriving DecidableEq, Repr

/-- What the manager can read of a slice (R130). State, port and the number of queue pairs are fields of SLC_STATE_n; for
the totals and the PASIDs the spec names no register, and they stand here alone. -/
def State.managerView (s : State) (n : Nat) : ManagerView :=
  { state := (s.slice n).st, totals := s.totalsOf n, pasids := (s.slice n).pasids, port := (s.slice n).port,
    qpCreated := qpCreated (s.slice n) }

/-- The code of CRS_STAT.STATE (R109). -/
def CrsState.code : CrsState → Nat
  | .empty => 0 | .loading => 1 | .staged => 2 | .applyPending => 3 | .applied => 4
  | .persistingStaged => 5 | .persistingApplied => 6

/-- The code of DEV_BOOT_STAT.PHASE (R998). -/
def Phase.code : Phase → Nat
  | .step13 => 0 | .step4 => 1 | .step5 => 2 | .step67 => 3 | .step8 => 4 | .ready => 5 | .noCourse => 6
  | .mapShort => 7 | .safe => 8 | .flushing => 9

/-- The code of PWR_STAT.PHASE (R931). -/
def PwrPhase.code : PwrPhase → Nat
  | .steady => 0 | .preparing => 1 | .entering => 2 | .exiting => 3

/-- The code of WBF_PAIRSTAT_n.STATE (R320). -/
def PairState.code : PairState → Nat
  | .off => 0 | .paired => 1 | .unpaired => 2 | .resyncing => 3

/-- The value of an error status register (R17). -/
def ErrStat.value (e : ErrStat) : Nat :=
  e.lastOffset % 2 ^ 26 * 64 + e.space * 16 + flagAt e.overrun 1 + flagAt e.regWr 0

/-- An integer as a two's complement number of `w` bits. -/
def intBits (w : Nat) (v : Int) : Nat := (BitVec.ofInt w v).toNat

/-- A list of flags as a number, the first at bit 0. -/
def flagsNat : List Bool → Nat
  | [] => 0
  | b :: t => flagAt b 0 + 2 * flagsNat t

/-- The value of an image register (R998). -/
def FwImage.value (f : FwImage) : Nat :=
  f.major * 2 ^ 24 + f.minor * 2 ^ 16 + f.patch * 2 ^ 8 + f.state * 64 + f.epoch

/-- The COUNT register of a measurement log (R790). -/
def LogBook.countReg (l : LogBook) : Nat := flagAt l.exceeded 31 + l.count % 2 ^ 31

namespace State

/-! ### Recorder register sets (R948, R959, R960) -/

/-- A register of a recorder's set, other than the side effect of EVR_CHECK. -/
def evrReg (s : State) (set : EvrSet) (r : Reg) (i : Nat) : Nat :=
  let p := s.evrPort (evrSetId set)
  let x := s.recorder (evrSetSlice set)
  match r with
  | .evrCursor => p.area * 2 ^ 16 + p.index
  | .evrHead => flagAt x.grd.wrapped 31 + x.grd.nxt * 2 ^ 16 + flagAt x.opn.wrapped 15 + x.opn.nxt
  | .evrPodium => x.podium.length
  | .evrStat => x.lost * 2 ^ 16 + x.held.length * 2 ^ 7 + flagAt p.refused 2 + flagAt p.gapSeen 1 +
      flagAt x.frozenAt.isSome 0
  | .evrData => leAt (s.evrAtCursor set) (4 * i) 4
  | .evrCheck => leAt (s.evrAtCursor set) 0 4
  | .evrWseq => x.wseq
  | .evrEvents => x.events
  | _ => 0

/-! ### The device's registers -/

/-- Read-only and write-1-to-clear fields of DEV, STR, CRS and SLC. -/
def roCtl (s : State) (r : Reg) (i : Nat) : Nat :=
  match r with
  | .devIdent => 0x6400A000 + s.variant * 16
  | .devFeature => s.coresPresent * 2 ^ 16 + s.channelsPresent * 2 ^ 8 + s.relayPorts * 16 + flagAt s.hasField 3
  | .devBootStat => s.dev.phase.code * 2 ^ 28 + s.dev.cause * 2 ^ 24 + flagAt s.dev.sliceTableLost 16 +
      s.dev.startKind * 2 ^ 8 + s.dev.image * 2 + flagAt s.dev.trial 0
  | .devFaultStat => s.dev.lastSource * 2 ^ 24 + s.faultWindow.length % 256 * 2 ^ 8 + s.dev.faultTotal
  | .devFaultStride => s.dev.faultStride
  | .devCmdStat => s.dev.cmdResult * 2 ^ 24 + flagAt s.dev.cmdRefused 1 + flagAt s.dev.cmdBusy 0
  | .devFwA => s.dur.fwA.value
  | .devFwB => s.dur.fwB.value
  | .devFwSel => s.dur.fwTries * 4 + flagAt s.dur.fwTrial 1 + s.dur.fwConfirmed
  | .strCount => s.stride
  | .crsStat => s.crs.result * 2 ^ 24 + s.crs.state.code * 2 ^ 20 + flagAt s.crs.cmdRefused 1 + flagAt s.crsBusy 0
  | .crsErrOffset => s.crs.errOffset
  | .crsCommitStat => s.crs.commitPair * 2 ^ 20 + s.crs.commitResult * 2 ^ 16 + s.crs.commitCount * 2 ^ 8 +
      flagAt s.crs.commitPending 0
  | .crsActiveSeq => match s.crs.inForce with
    | some c => c.sequence
    | none => 0
  | .crsActiveInfo =>
    let c := match s.crs.inForce with
      | some c => c.format * 2 ^ 16 + c.epoch * 2 ^ 10 + 1
      | none => 0
    c + s.dur.fusedEpoch * 16 + flagAt s.faultInject 3 + flagAt s.debugUnlock 2 + flagAt s.crs.previous 1
  | .slcStat => s.slc.result * 2 ^ 24 + s.slc.slice * 2 ^ 15 + flagAt s.slc.cmdRefused 1 + flagAt s.slc.op.isSome 0
  | .slcErrField => s.slc.errField
  | .slcBatonNeed => s.slc.batonNeed
  | .slcCommitInfo => s.slc.commitPair * 2 ^ 20 + s.slc.commitSlice
  | .slcState =>
    let x := s.slice i
    x.st.code * 2 ^ 28 + x.lastResult * 2 ^ 20 + x.port * 2 ^ 19 + qpCreated x
  | _ => 0

/-- Registers of HIF, WBF and the FTL mailbox. -/
def roStore (s : State) (r : Reg) (i : Nat) : Nat :=
  match r with
  | .hifPortCfg => s.portCount - 1
  | .hifPortStat =>
    let p := s.port i
    flagAt p.downSeen 16 + flagAt p.linkUp 15 + flagAt p.flit 14 + p.speed * 2 ^ 8 + p.width
  | .hifQpFree => s.poolAmount resQp - lsum (s.slices.map (fun p => s.forceNat (shQp p.1)))
  | .hifMsixPend0 => flagsNat ((List.range 32).map (fun k => s.msixPend.contains (32 * i + k)))
  | .hifMsixPend1 => flagsNat ((List.range 32).map (fun k => s.msixPend.contains (2048 + 32 * i + k)))
  | .wbfHoldStat => flagAt s.wbf.pfDone 7 + flagAt s.wbf.pfFlushing 6 + flagAt s.wbf.pfail 5 +
      flagAt s.wbf.disarmSeen 4 + flagAt s.wbf.reserveOk 3 + flagAt s.wbf.holdupOk 2 +
      flagAt (!s.wbf.armed || s.wbfTotalMib = 0) 1 + flagAt s.wbf.armed 0
  | .wbfOcc => match (s.slice i).st with
    | .absent | .creating | .parked | .restoring | .receiving => 0
    | _ => flagAt (s.writeThrough i) 31 + s.occupancy i
  | .wbfPairstat =>
    let p := (s.slice i).pairing
    p.state.code * 2 ^ 28 + flagAt p.logFull 27 + p.log.length
  | .ftlStat => s.ftl.result * 2 ^ 24 + flagAt s.ftl.lossOverflow 7 + flagAt (s.ftl.dies.any (fun d => d.2.lost)) 6 +
      flagAt s.ftl.readOnly 5 + flagAt s.ftl.ckptRunning.isSome 4 +
      flagAt (s.diesInUse.any (fun d => decide ((s.freeBlocks d).length ≤ s.gcUrgent))) 3 +
      flagAt s.ftl.prevCkpt 2 + flagAt s.ftl.cmdRefused 1 + flagAt (s.ftl.busy || s.ftl.ckptCmd) 0
  | .ftlCapacity => s.ftl.capacity
  | .ftlMediaAge => s.ftl.mediaAge
  | .ftlJournalSeq => s.ftl.jseq
  | .ftlCkptSeq => s.ftl.ckptSeq
  | .ftlFineTotal => s.ftl.fineTotal
  | .ftlFineUsed => s.ftl.fine.length
  | .ftlSpare => s.spareNow
  | .ftlLossCount => s.ftl.loss.length
  | .ftlDieLost => flagsNat ((List.range 32).map (fun k => (s.die (32 * i + k)).lost))
  | .ftlCnt => [s.ftl.cntPromote, s.ftl.cntDemote, s.ftl.cntGc, s.ftl.cntRefresh, s.ftl.cntRetired].getD i 0
  | _ => 0

/-- Registers of FCH, DRC, MPR and NCL. -/
def roMedia (s : State) (r : Reg) (i : Nat) : Nat :=
  let ch := s.chan i
  let used (k : Nat) : Bool := s.dieInUse (16 * i + k)
  match r with
  | .fchStat => ch.rate * 2 ^ 16 + ((List.range 16).filter used).length * 2 ^ 8 + flagAt ch.trainFail 2 +
      flagAt ch.trained 1 + flagAt (ch.trained && (List.range 16).any used) 0
  | .fchDiePresent => flagsNat ((List.range 16).map used) +
      2 ^ 16 * flagsNat ((List.range 16).map (fun k => (s.die (16 * i + k)).present && !used k))
  | .fchHlogStat => ch.dumpResult * 2 ^ 24 + flagAt ch.dumpRefused 1 + flagAt ch.dumpBusy 0
  | .fchDecoded => ch.decoded
  | .fchRetried => ch.retried
  | .fchUncorr => ch.uncorr
  | .fchLife => s.ftl.wear * 2 ^ 24 + s.ftl.spareUsed * 2 ^ 16 + s.ftl.availSpare * 2 ^ 8 + s.ftl.pctUsed
  | .fchSpareBase => s.ftl.spareBase
  | .drcStat =>
    let d := s.drc i
    d.rate * 2 ^ 24 + flagAt (d.refresh.any (fun x => x.hot)) 3 + flagAt d.trainFail 2 + flagAt d.trained 1 +
      flagAt (s.drcPopulated i) 0
  | .drcRef =>
    let x := (s.drc (i / 2)).refresh.getD (i % 2) {}
    x.postponed * 2 ^ 16 + x.forced * 2 ^ 8 + x.maxPending * 16 + x.pending
  | .drcLane =>
    let x := (s.drc (i / 10)).lanes.getD (i % 10) {}
    x.rdCentre * 2 ^ 24 + x.rdWidth * 2 ^ 16 + x.wrCentre * 2 ^ 8 + x.wrWidth
  | .mprCeDram => s.mpr.ceDram
  | .mprUeDram => s.mpr.ueDram
  | .mprCeSram => s.mpr.ceSram
  | .mprUeSram => s.mpr.ueSram
  | .mprLastUe => s.mpr.lastUe
  | .mprDirty =>
    let sram := (s.mem.filter (fun p => decide (p.1 ≠ dramArr))).foldl (fun m p => max m p.2.queue.length) 0
    let q := (s.arr dramArr).queue
    let dram := (List.range s.subchannels).foldl
      (fun m u => max m (q.filter (fun g => decide (s.segSub g = u))).length) 0
    flagAt s.mpr.exceeded 31 + min sram 0x7FFF * 2 ^ 16 + min dram 0xFFFF
  | .mprScrubStat => s.mpr.passes
  | .mprTestStat => s.mpr.testResult * 2 ^ 24
  | .nclCore =>
    let st := s.nclState i
    st * 2 ^ 28 + (if st ≤ 1 then 0 else (s.coreOwner i).getD 0) * 2 ^ 16
  | _ => 0

/-- The slice that holds search slot `k`, and what the slot does (R694). -/
def patSlotReg (s : State) (k : Nat) : Nat :=
  match s.slices.find? (fun p => p.2.st.holds && p.2.search.contains k) with
  | none => 0
  | some (n, _) =>
    let st := if s.pat.loads.any (fun l => l.id.slice = n && l.written && !l.applied) then 5
      else if s.pat.runs.any (fun r => r.slot = some k) then 2
      else if s.hdl.scans.any (fun r => r.slot = some k) then 3 else 1
    st * 2 ^ 28 + n * 2 ^ 16

/-- What holds AES core `k`: the slice that it is assigned to, if any (R700). -/
def aesOwner (s : State) (k : Nat) : Option Nat :=
  (s.slices.find? (fun p => p.2.st.holds && (p.2.aes.contains k || (s.reservedIdx resAes p.1).contains k))).map Prod.fst

/-- Registers of PAT, HDL, CPH, DGS and KST. -/
def roEng (s : State) (r : Reg) (i : Nat) : Nat :=
  match r with
  | .patSlot => s.patSlotReg i
  | .patEpoch => s.patEpoch
  | .patHole => s.patHole
  | .patScrubStat => s.pat.corrected * 2 ^ 16 + s.pat.goldenFail * 2 ^ 8 + flagAt s.pat.scrubNew 4 + s.pat.lastSlot
  | .patBytes => s.pat.bytes
  | .hdlRecords => s.hdl.records
  | .hdlBytesIn => s.hdl.bytesIn
  | .hdlBytesOut => s.hdl.bytesOut
  | .cphCore =>
    let st := match s.aesOwner i with
      | some n => 2 * 2 ^ 28 + n * 2 ^ 16
      | none => if s.aesPool.contains i then 2 ^ 28 else 0
    st + flagAt (s.cph.busy.contains i) 0
  | .cphPool => s.aesPool.length * 2 ^ 16 + lsum (s.slices.map (fun p => s.forceNat (shAes p.1)))
  | .cphInstance => s.instanceId
  | .cphAlarmStat => s.cph.lastAlarm * 16 + flagAt s.cph.alarm 0
  | .cphBatches => s.cph.batches
  | .dgsUnit => match s.dgs.runs.find? (fun r => r.unit = some i) with
    | some r => (if s.batonStride r then 2 else 1) * 2 ^ 28 + r.id.slice * 2 ^ 16
    | none => 0
  | .dgsPkStat =>
    let job := match s.pkCurrent with
      | some .course => 2
      | some (.enrol _) => 3
      | some (.keygen _ _) => 4
      | some (.decap _ _) => 5
      | some _ => 6
      | none => 0
    job * 2 ^ 28 + (s.kst.jobs.length - 1)
  | .dgsBatches => s.dgs.batches
  | .kstDeviceId => s.deviceId.toNat
  | .kstStat =>
    let st := match s.kst.state with
      | .starting => 0
      | .ready => 1
      | .suspended => 2
    st * 2 ^ 28 + min s.alarmWindow 255 * 2 ^ 16 + s.kst.starts
  | .kstAlarmStat => s.kst.lastAlarm * 16 + flagAt s.kst.alarm 0
  | .kstFuseStat =>
    let own := fun (k : Nat) => tget s.dur.ownerFuses k
    s.dur.fwFusedEpoch * 2 ^ 16 + s.kst.weldopoRevoked * 2 ^ 12 +
      16 * (s.dur.ownerRevoked % 16) +
      flagsNat ((List.range 4).map (fun k => (own k).isSome))
  | .kstInstallCount => min s.kst.installs 0xFFFFFF
  | .kstSlotsFree => s.poolAmount resKeys - lsum (s.slices.map (fun p => if p.2.st.holds then p.2.draw.keySlots else 0))
  | .kstEnrolStat => s.kst.enrolResult * 2 ^ 24 + flagAt s.kst.enrolRefused 1 + flagAt s.kst.enrolBusy 0
  | .kstMeas => leAt s.kst.log.meas (4 * i) 4
  | .kstLogCount => s.kst.log.countReg
  | .kstAttestPk => leAt attestPk (4 * i) 4
  | _ => 0

/-- The rate applied over the lap in parts per 10^12 (R839). -/
def ratePpt (s : State) : Nat := intBits 32 (-(s.rly.time.slewPs * 1000))

/-- Does a relay port lead to the pacing parent? -/
def isParent (s : State) (p : Nat) : Bool := s.rly.time.parent = some p

/-- Registers of RLY (R854, R855). -/
def roRly (s : State) (r : Reg) (i : Nat) : Nat :=
  let x := s.rlyPort i
  let t := s.rly.time
  match r with
  | .rlyPortStat => x.st.code * 2 ^ 28 + x.cause * 2 ^ 20 + flagAt (s.isParent i) 16 + x.version * 2 ^ 8 +
      flagAt x.phyUp 1 + flagAt x.downSeen 0
  | .rlyPeer => match x.peer with
    | some h => h.addr * 2 ^ 16 + h.port
    | none => 0
  | .rlyDelay => intBits 32 x.delayPs
  | .rlyOffset => if s.isParent i then intBits 32 x.thetaPs else 0
  | .rlyTxFrames => x.tx
  | .rlyRxFrames => x.rx
  | .rlyRxDrop => x.drops
  | .rlyTagFail => x.tagFails
  | .rlyRetx => x.retx
  | .rlyStat =>
    let st := match s.rly.join with
      | .noRoster => 0
      | .joined => 1
      | .mismatch => 2
    s.rly.result * 2 ^ 24 + st * 2 ^ 20 + flagAt s.rly.refused 1
  | .rlyRosterSeq => s.rosterSeq
  | .rlyVersion => s.relayMin * 2 ^ 24 + s.relayMax * 2 ^ 16 + s.rly.floor * 2 ^ 8
  | .rlyHead => t.head * 2 ^ 16 + s.rly.keyHead.getD 0
  | .rlyKeyEpoch => match s.rly.key with
    | some k => k.epoch
    | none => 0
  | .rlyTimeStat => t.st.code * 2 ^ 28 + min t.depth 15 * 2 ^ 24 + flagAt t.ppsOk 1 + flagAt t.refOk 0
  | .rlyLapFt => intBits 64 (t.lapPs / 1000)
  | .rlyLapStride => t.lapStride
  | .rlyTimeRate => s.ratePpt
  | .rlyPpsOffset => if t.ppsOk then intBits 32 t.ppsPs else 0
  | _ => 0

/-- Registers of PWR, FIJ and TST. -/
def roPwr (s : State) (r : Reg) (i : Nat) : Nat :=
  match r with
  | .pwrStat => s.pwr.state * 2 ^ 28 + s.pwr.target * 2 ^ 24 + s.pwr.phase.code * 2 ^ 20 + s.pwrBlock * 2 ^ 8 +
      flagAt s.pwr.falseStart 0
  | .pwrLtolMin => s.tolerance
  | .pwrWakeLast => s.pwr.wakeSource * 2 ^ 28 + s.pwr.wakeFrom * 2 ^ 24 + s.pwr.wakeDetail
  | .pwrWakeStride => s.pwr.wakeStride
  | .pwrClkStat => flagAt s.pwr.mgmtPll 8 + s.pwr.clusterPll
  | .pwrResidency => s.pwr.residency.getD i 0
  | .fijDone => s.fij.done.getD i 0
  | .fijStat => flagAt s.faultInject 8 + flagsNat ((List.range 8).map s.fijActive)
  | .tstIdcode => 0x0640054B
  | .tstStat => s.pins.lockedAccess * 2 ^ 8 + flagAt s.pins.tapActive 1 + flagAt s.debugUnlock 0
  | _ => 0

/-- Is this a register of the fault injector? -/
def isFij (r : Reg) : Bool := match r with
  | .fijTgt | .fijRate | .fijLimit | .fijDone | .fijSeed | .fijStat => true
  | _ => false

/-- Is this a register that stands for an ACTIVE or FROZEN slice alone (R172, R320)? -/
def isShare (r : Reg) : Bool := match r with
  | .slcShWbf | .slcShQp | .slcShAes | .slcShSlots | .wbfPair | .wbfPairstat => true
  | _ => false

/-- The RW and RWS part of a register: the fields last written, or staged (R9). -/
def storedPart (s : State) (l : Loc) : Nat :=
  ((s.rwNat l.key (BitVec.ofNat 64 l.row.reset)) &&& l.row.rw) + ((s.stagedNat l.key l.row.reset) &&& l.row.rws)

/-- The value that a BAR0 register shows, its view register apart. -/
def regValue (s : State) (l : Loc) : Nat :=
  let r := l.row.reg
  if isFij r && !s.faultInject then 0
  else if isShare r && !s.shareable l.idx then 0
  else s.storedPart l + s.roCtl r l.idx + s.roStore r l.idx + s.roMedia r l.idx + s.roEng r l.idx + s.roRly r l.idx +
    s.roPwr r l.idx + s.evrReg .bar0 r l.idx

/-! ### A slice's window (R48, R187, R188, R192, R640, R695, R738, R799, R856) -/

/-- CAP (R188). -/
def capValue : Nat := 0x0A0040200203FFFF

/-- CSTS (R187, R189 to R193). -/
def csts (s : State) (n : Nat) : Nat :=
  let x := s.slice n
  flagAt x.ctrl.rdy 0 + flagAt x.ctrl.cfs 1 + x.ctrl.shst * 4 +
    flagAt (x.st = .freezing || x.st = .frozen || x.st = .resetting) 5

/-- CMBLOC and CMBSZ (R187). -/
def cmbLoc (x : Slice) : Nat := match x.cmbOff with
  | some o => if x.cmbMib = 0 then 0 else o * 4096 + 4
  | none => 0
def cmbSz (x : Slice) : Nat := if x.cmbOff.isNone || x.cmbMib = 0 then 0 else x.cmbMib * 4096 + 2 * 256 + 0x1D

/-- CMBSTS.CBAI, as NVMe 2.0 has it (PRESUMED, R187): memory space is enabled under a controller base address that is not
the host address of the portion. CRE gates nothing: R187 names the one condition under which CMBLOC and CMBSZ read zero. -/
def cmbAddrBad (s : State) (n : Nat) : Bool :=
  let x := s.slice n
  let m := x.ctrl.cmbmsc.toNat
  natBit m 1 && (match x.cmbOff with
    | some o => decide (m / 4096 * 4096 ≠ (s.port x.port).bar4 + o * 2 ^ 20)
    | none => true)

/-- A controller register (R187). -/
def ctrlReg (s : State) (n : Nat) (r : Reg) : Nat :=
  let x := s.slice n
  match r with
  | .cap => capValue
  | .vs => 0x00020000
  | .cc => x.ctrl.cc.toNat
  | .csts => s.csts n
  | .aqa => x.ctrl.aqa.toNat
  | .asq => x.ctrl.asq.toNat
  | .acq => x.ctrl.acq.toNat
  | .cmbloc => cmbLoc x
  | .cmbsz => cmbSz x
  | .cmbmsc => x.ctrl.cmbmsc.toNat
  | .cmbsts => flagAt (s.cmbAddrBad n) 0
  | _ => 0

/-- A key slot's registers (R799). -/
def keyRegs (s : State) (n : Nat) (r : Reg) : Nat :=
  let slot := s.rwNat (winKey n 0x4400) % 4096
  match (if slot < s.keyTotal n then s.keyAt n slot else none), r with
  | some k, .keyInfo => 2 ^ 31 + flagAt k.k512 30 + k.child * 2 ^ 12 + k.use
  | some k, .keyInstall => k.install
  | _, _ => 0

/-- The registers of the engines in a window. -/
def winReg (s : State) (n : Nat) (r : Reg) (i : Nat) : Nat :=
  let x := s.slice n
  let t := s.patTable n
  let hs := s.heats.filter (fun h => h.id.slice = n)
  let early (h : Heat) : Bool := match h.st with
    | .checking | .staging | .waitCores | .loading => true
    | _ => false
  match r with
  | .heatStat => min ((hs.filter early).length) 255 * 2 ^ 16 + min ((hs.filter (fun h => !early h)).length) 255 * 2 ^ 8 +
      flagAt (s.heatRegsOf n).stopMiss 0
  | .heatBusy => flagsNat (x.cores.map (fun c => hs.any (fun h => h.cores.contains c)))
  | .hdlStat => min ((s.hdl.scans.filter (fun r => r.id.slice = n)).length) 255 * 2 ^ 8 + flagAt (s.hdl.miss.contains n) 0
  | .patTableStat =>
    let st := if x.search.isEmpty then 0 else match t.state with
      | .empty => 1
      | .ready => 2
      | .lost => 3
    st * 2 ^ 28 + x.search.length * 2 ^ 16 + t.occupied.length
  | .patGen => t.gen
  | .patScrubEpoch => t.scrubLast * 2 ^ 32 + t.scrubFirst
  | .patScrubInfo => t.scrubCount * 2 ^ 16 + flagAt t.scrubNew 0
  | .cphSliceShare => ((List.range 24).filter (fun k => s.aesOwner k = some n)).length * 2 ^ 24 + s.aesTotal n
  | .cphGuarantee => s.aesGuarantee n
  | .cphLapBatches => tgetD s.cph.prevLap n 0
  | .cphStage =>
    (((List.range 24).filter (fun k => s.aesOwner k = some n)).length + s.aesQuota n) * 2 ^ 8 +
      (s.cph.runs.filter (fun r => r.id.slice = n && r.staging.isSome)).length
  | .rlySliceLapFt => if s.hasField then intBits 64 (s.rly.time.lapPs / 1000) else 0
  | .rlySliceLapStride => if s.hasField then s.rly.time.lapStride else 0
  | .rlySliceRate => if s.hasField then s.ratePpt else 0
  | .rlySliceTimeStat => if s.hasField then s.rly.time.st.code * 2 ^ 28 + min s.rly.time.depth 15 * 2 ^ 24 else 0
  | .rlyPairCause => if s.hasField then x.pairing.cause else 0
  | .keyInfo => s.keyRegs n .keyInfo
  | .keyInstall => s.keyRegs n .keyInstall
  | .keyTotal => s.keyTotal n
  | .deliverySeq => (s.keysOf n).seq
  | .dgsSlice => s.digestQuota n * 2 ^ 8 + s.unitsHeld n
  | .sliceMeas => leAt (s.keysOf n).log.meas (4 * i) 4
  | .sliceLogCount => (s.keysOf n).log.countReg
  | _ => 0

/-! ### Where an offset is -/

/-- A BAR0 register: its block's base and the register. -/
def bar0Loc (off : Nat) : Option Loc :=
  match findBlock blockRows off with
  | some b => findReg b.rows b.base (off - b.base)
  | none => none

/-- The base of the block instance that a BAR0 offset lies in. -/
def instBase (off : Nat) : Option Nat :=
  match findBlock blockRows off with
  | some b => some (b.base + (off - b.base) / b.size * b.size)
  | none => none

/-- Is the block instance of a BAR0 offset absent from this variant (R4, R45)? -/
def absent (s : State) (off : Nat) : Bool :=
  (decide (0x400000 ≤ off) && decide (off < 0x420000) && decide (s.channelsPresent ≤ (off - 0x400000) / 0x1000)) ||
  (decide (0x800000 ≤ off) && decide (off < 0x880000) && decide (s.coresPresent / 8 ≤ (off - 0x800000) / 0x10000)) ||
  (decide (0x1400000 ≤ off) && decide (off < 0x1440000) && decide (s.relayPorts ≤ (off - 0x1400000) / 0x10000))

/-- The port 1 table and pending bits are unassigned in one-port mode (R243). -/
def noPort1 (s : State) (off : Nat) : Bool :=
  s.portCount = 1 && ((decide (0x150000 ≤ off) && decide (off < 0x160000)) ||
    (decide (0x161000 ≤ off) && decide (off < 0x162000)))

/-- The register at a BAR0 offset, where the device has one. -/
def bar0Reg (s : State) (off : Nat) : Option Loc := if s.absent off || s.noPort1 off then none else bar0Loc off

/-- The error status register at a BAR0 offset, by its key. -/
def errAt (s : State) (off : Nat) : Option Nat :=
  if s.absent off then none
  else match instBase off with
    | some b => if off = b + 0xFFC then some off else none
    | none => none

/-- The value that CRS_VIEW_DATA shows: the RWS fields in force of the register selected (R114). -/
def viewData (s : State) : Nat :=
  let sel := s.rwNat 0x10040
  let off := natBits sel 28 0
  let l := if natBit sel 31 then findReg winRows (winKey (off / 0x100000) 0) (off % 0x100000) else s.bar0Reg off
  match l with
  | some l => if isFij l.row.reg && !s.faultInject then 0
      else (s.forceNat l.key l.row.reset &&& l.row.rws) / (if l.high then 2 ^ 32 else 1) % 2 ^ 32
  | none => 0

/-- The value of the register found, of 64 bits where it is wide. -/
def locValue (s : State) (l : Loc) : Nat := match l.row.reg with
  | .crsViewData => s.viewData
  | _ => s.regValue l

/-- The dword at a BAR0 offset. -/
def bar0Dword (s : State) (off : Nat) : Nat :=
  match s.errAt off with
  | some k => if isFijKey k && !s.faultInject then 0 else (tgetD s.errs k {}).value
  | none => match s.bar0Reg off with
    | some l => s.locValue l / (if l.high then 2 ^ 32 else 1) % 2 ^ 32
    | none => 0

/-- A register of a slice window: of its controller, of one of its recorder sets, or of its engines. -/
inductive WinAt where
  | ctrl (l : Loc)
  | evr (set : EvrSet) (l : Loc)
  | eng (l : Loc)

/-- The register at an offset of slice `n`'s window (R48, R960): EVR_CLEAR is in neither recorder set, and
EVR_FREEZE not in the mirror. -/
def winAt (n off : Nat) : Option WinAt :=
  if off < 0x1000 then (findReg ctrlRows (winKey n 0) off).map .ctrl
  else if off < 0x3000 then
    let own := decide (off < 0x2000)
    match findReg evrRows (winKey n (off / 0x1000 * 0x1000)) (off % 0x1000) with
    | some l => match l.row.reg with
      | .evrClear => none
      | .evrFreeze => if own then some (.evr (.own n) l) else none
      | _ => some (.evr (if own then .own n else .mirror n) l)
    | none => none
  else (findReg winRows (winKey n 0) off).map .eng

/-- The value of a window's register, of 64 bits where it is wide. -/
def winValue (s : State) (n : Nat) : WinAt → Nat
  | .ctrl l => s.ctrlReg n l.row.reg
  | .evr set l => s.evrReg set l.row.reg l.idx
  | .eng l => s.storedPart l + s.winReg n l.row.reg l.idx

/-- The place of a window's register. -/
def winLoc : WinAt → Loc
  | .ctrl l => l
  | .evr _ l => l
  | .eng l => l

/-- The half of a register's value that a location names. -/
def half (l : Loc) (v : Nat) : Nat := v / (if l.high then 2 ^ 32 else 1) % 2 ^ 32

/-- The dword at an offset of slice `n`'s window. -/
def winDword (s : State) (n off : Nat) : Nat :=
  if off = 0xFFC then (tgetD s.errs (winKey n 0xFFC) {}).value
  else match winAt n off with
    | some w => half (winLoc w) (s.winValue n w)
    | none => 0

/-! ### Which reads return a value (R924, R967, R983) -/

/-- A BAR0 read returns its register's value. In MAP_SHORT, FTL_STAT reads too: R335 says that its RESULT reads
MAP_SHORT, where R967 names no block FTL (DEDUCED from R335, see the log entry (105)). -/
def bar0Reads (s : State) (off : Nat) : Bool :=
  if s.dev.run ≠ .started || s.pwr.state = 4 then false
  else
    let dev := decide (off < 0x10000)
    let str := decide (0x20000 ≤ off) && decide (off < 0x30000)
    let pwr := decide (0x1900000 ≤ off) && decide (off < 0x1A00000)
    if s.pwr.state = 3 then dev || str || pwr || (decide (0x41000 ≤ off) && decide (off < 0x41800))
    else match s.dev.phase with
      | .ready => true
      | .safe => safeBlock off
      | ph => dev || str || pwr || (decide (0x10000 ≤ off) && decide (off < 0x20000)) ||
          (decide (0x1380000 ≤ off) && decide (off < 0x1400000)) ||
          (decide (0x1800000 ≤ off) && decide (off < 0x1900000)) ||
          ((ph = .noCourse || ph = .mapShort) && decide (0x40000 ≤ off) && decide (off < 0x100000)) ||
          (ph = .mapShort && decide (0x300004 ≤ off) && decide (off < 0x300008))

/-- A BAR2 read returns its register's value: the window is live from the port, and P3 shows CSTS alone. -/
def bar2Reads (s : State) (p n off : Nat) : Bool :=
  s.dev.run = .started && s.dev.phase = .ready && s.windowLive p n &&
  (decide (s.pwr.state < 3) || (s.pwr.state = 3 && off = 0x1C))

/-- The registers of test mode read zero for all but cores (R877, R894); 0x104 to 0x107 hold none of them. -/
def testHidden (req : Requester) (off : Nat) : Bool := match req with
  | .core _ => false
  | _ => (decide (0x700100 ≤ off) && decide (off < 0x700104)) || (decide (0x700108 ≤ off) && decide (off < 0x70011C))

/-- The register that a requester reaches at an offset, when its reads return a value: its place and value.
Only a PCIe port reaches BAR2, and the SMBus port reaches its own recorder set alone. -/
def reads (s : State) (req : Requester) (sp : Space) (off : Nat) : Option (Loc × Nat) :=
  match sp, req with
  | .bar0, .smbus => match bar0Loc off with
    | some l => if decide (0x1800000 ≤ off) && decide (off < 0x1900000) then
        some (l, s.evrReg .smbus l.row.reg l.idx) else none
    | none => none
  | .bar0, _ => if s.bar0Reads off && !testHidden req off then
      (s.bar0Reg off).map (fun l => (l, s.locValue l)) else none
  | .bar2, .port p =>
    let n := off / 0x100000
    if s.bar2Reads p n (off % 0x100000) then
      (winAt n (off % 0x100000)).map (fun w => (winLoc w, s.winValue n w))
    else none
  | .bar2, _ => none

/-- The dword that a requester reads. -/
def readDword (s : State) (req : Requester) (sp : Space) (off : Nat) : Nat :=
  match sp, req with
  | .bar0, .smbus => match s.reads req sp off with
    | some (l, v) => half l v
    | none => 0
  | .bar0, _ => if s.bar0Reads off && !testHidden req off then s.bar0Dword off else 0
  | .bar2, .port p =>
    let n := off / 0x100000
    if s.bar2Reads p n (off % 0x100000) then s.winDword n (off % 0x100000) else 0
  | .bar2, _ => 0

/-- A host read of a BAR wakes the device from P3 (R924). -/
def wakeOnRead (s : State) (req : Requester) : State := match req with
  | .port _ => s.wakeP3
  | _ => s

/-- The recorder set that an offset of EVR_CHECK belongs to, for a requester. -/
def checkSet (req : Requester) (sp : Space) (off : Nat) : Option EvrSet :=
  match sp, req with
  | .bar0, .smbus => if off = 0x1800030 then some .smbus else none
  | .bar0, _ => if off = 0x1800030 then some .bar0 else none
  | .bar2, _ =>
    if off % 0x100000 = 0x1030 then some (.own (off / 0x100000))
    else if off % 0x100000 = 0x2030 then some (.mirror (off / 0x100000)) else none

/-- A 32-bit read and its side effects (R16, R948): the low half of a wide register latches the high half, and
EVR_CHECK moves its set's cursor. -/
def busRead (s : State) (req : Requester) (sp : Space) (off : Nat) : State × Nat :=
  let s := s.wakeOnRead req
  let v := s.readDword req sp off
  match s.reads req sp off with
  | none => (s, v)
  | some (l, w) =>
    let mine (x : Latch) : Bool := decide (x.req = req) && decide (x.key = l.key)
    if !l.row.wide then
      match checkSet req sp off with
      | some set => if l.row.reg = .evrCheck then (s.readEvrCheck set, v) else (s, v)
      | none => (s, v)
    else if l.high then
      match (s.latches.find? mine).bind Latch.high with
      | some h => ({ s with latches := s.latches.map (fun x => if mine x then { x with high := none } else x) }, h.toNat)
      | none => (s, v)
    else
      let h := BitVec.ofNat 32 (w / 2 ^ 32)
      if s.latches.any mine then
        ({ s with latches := s.latches.map (fun x => if mine x then { x with high := some h } else x) }, v)
      else ({ s with latches := s.latches ++ [{ req := req, key := l.key, high := some h }] }, v)

/-- A read of `size` bytes (R15, R16). One of 32 bits has its register's side effects. A narrower one returns the
bytes addressed and has none. An aligned one of 64 bits returns a wide register whole, its latch unused; over other
registers it is the two reads of 32 bits, low one first. DESIGN CHOICE (102): the spec names no 64-bit read of 32-bit
registers, and does not say that a whole read uses up a high half that waits. -/
def sizedRead (s : State) (req : Requester) (sp : Space) (off size : Nat) : State × Nat :=
  if size < 4 then
    let s := s.wakeOnRead req
    (s, s.readDword req sp (off / 4 * 4) / 256 ^ (off % 4) % 256 ^ size)
  else if size = 4 then s.busRead req sp off
  else
    let t := s.wakeOnRead req
    match t.reads req sp off with
    | some (l, v) =>
      if l.row.wide && !l.high then (t, v % 2 ^ 64)
      else
        let a := s.busRead req sp off
        let b := a.1.busRead req sp (off + 4)
        (b.1, a.2 + 2 ^ 32 * b.2)
    | none =>
      let a := s.busRead req sp off
      let b := a.1.busRead req sp (off + 4)
      (b.1, a.2 + 2 ^ 32 * b.2)

end State

end Sys2Proof.Machine
end

