-- ==== Sys2Proof/Machine/RegWrite.lean ====
section
/-! DEFINITION. Register writes: reserved bits and values, 64-bit pairs, staging, write-1-to-clear and the
commands that a write gives (R9, R11 to R14, R16, R17, R47, R49, R98, R134, R877, R991). -/

namespace Sys2Proof.Machine

namespace State

/-! ### Reserved values (R12) -/

/-- A write to a recorder register places no reserved value (R954, R959). -/
def evrOk (s : State) (set : EvrSet) (r : Reg) (v : Nat) : Bool :=
  match r with
  | .evrCursor => decide (natBits v 17 16 ≠ 3) && decide (natBits v 12 0 < evrAreaSize set (natBits v 17 16))
  | .evrFreeze => decide (v ≠ 3)
  | .evrClear => evrClearOk s v
  | _ => true

/-- The four-bit operation code `v` of a command register lies in 1 to `top`. -/
def opOk (v top : Nat) : Bool := decide (1 ≤ v) && decide (v ≤ top)

/-- A value places no reserved value in any field of its register. Reserved bits are checked apart. -/
def valueOk (s : State) (r : Reg) (v : Nat) : Bool :=
  match r with
  | .devCmd | .crsCmd | .ftlCmd | .rlyCmd => opOk v 4
  | .crsSrcLen => decide (v ≤ 0x100000)
  | .crsCommit => decide (v ≠ 3)
  | .crsViewSel => natBits v 1 0 = 0 && (natBit v 31 || natBits v 28 26 = 0)
  | .slcCmd => opOk (natBits v 3 0) 12 && (!natBit v 31 || natBits v 3 0 = 5)
  | .slcShWbf => decide (v ≤ 4096)
  | .slcShQp => decide (v ≤ 65536)
  | .slcShAes => decide (v ≤ 256)
  | .hifMgrPort => decide (v < s.portCount)
  | .wbfFlushHi | .wbfFlushLo => decide (1 ≤ v) && decide (v ≤ 100)
  | .wbfAge | .ftlDemote | .fijSeed => decide (v ≠ 0)
  | .wbfPair => decide (natBits v 31 30 ≠ 3) && (s.hasField || natBits v 31 30 = 0)
  | .ftlArg => decide (natBits v 11 0 ≤ 3650)
  | .ftlPromote => decide (natBits v 23 8 ≠ 0)
  | .ftlGcCfg => decide (4 ≤ natBits v 23 16) && decide (natBits v 23 16 < natBits v 15 8) &&
      decide (natBits v 15 8 < natBits v 7 0)
  | .ftlRefresh => decide (1 ≤ v) && decide (v ≤ 365)
  | .ftlCkpt => decide (1000 ≤ v)
  | .mprScrub => decide (16384 ≤ v) && decide (v ≤ 1048576)
  | .mprTestCmd => opOk (natBits v 3 0) 4 && (decide (natBits v 13 8 < 32) || natBit (s.rwNat 0x700108) 63)
  | .mprTestAddr => natBits v 1 0 = 0 && (!natBit v 63 || decide (natBits v 62 56 ≤ 0x55))
  | .rlyAsym => decide ((BitVec.ofNat 32 v).toInt ≤ 100000) && decide (-100000 ≤ (BitVec.ofNat 32 v).toInt)
  | .rlyLoss => opOk (natBits v 31 16) 1000 && decide (8 ≤ natBits v 15 0) && decide (natBits v 15 0 ≤ 4000)
  | .pwrCtl => decide (natBits v 2 0 ≤ 4)
  | .pwrIdle => [natBits v 7 0, natBits v 15 8, natBits v 23 16, natBits v 31 24].all (fun x => decide (x ≠ 0))
  | .fijTgt => decide (natBits v 3 0 ≤ 3)
  | .fijRate => decide (natBits v 15 0 ≠ 0)
  | .heatBudget => opOk v 2000000
  | .keySel => decide (v ≤ 4031)
  | .evrCursor | .evrFreeze | .evrClear => s.evrOk .bar0 r v
  | _ => true

/-- A write is neither to a reserved bit nor of a reserved value (R12). -/
def writeOk (s : State) (l : Loc) (v : Nat) : Bool := v &&& l.row.res = 0 && s.valueOk l.row.reg v

/-! ### The effect of a write (R9) -/

/-- Write-1-to-clear bits of the recorder's status, in one set (R960). -/
def evrClearBits (s : State) (set : EvrSet) (v : Nat) : State :=
  let p := s.evrPort (evrSetId set)
  s.setEvrPort (evrSetId set) { p with refused := p.refused && !natBit v 2, gapSeen := p.gapSeen && !natBit v 1 }

/-- A write to a register of a recorder's set that has passed R12. -/
def evrPut (s : State) (set : EvrSet) (r : Reg) (v : Nat) : State :=
  match r with
  | .evrCursor => s.setEvrPort (evrSetId set)
      { s.evrPort (evrSetId set) with area := natBits v 17 16, index := natBits v 12 0 }
  | .evrStat => s.evrClearBits set v
  | .evrFreeze => if natBit v 0 then s.requestFreeze set else if natBit v 1 then s.requestRelease set else s
  | .evrClear => s.requestClear v (evrSetId set)
  | _ => s

/-- Write-1-to-clear bits of BAR0 registers: `v` holds the bits written 1. -/
def clearBits (s : State) (r : Reg) (i v : Nat) : State :=
  let b1 := natBit v 1
  let b0 := natBit v 0
  match r with
  | .devCmdStat => { s with dev := { s.dev with cmdRefused := s.dev.cmdRefused && !b1 } }
  | .crsStat => s.setCrs { s.crs with cmdRefused := s.crs.cmdRefused && !b1 }
  | .slcStat => s.setSlc { s.slc with cmdRefused := s.slc.cmdRefused && !b1 }
  | .hifPortStat => s.modPort i (fun p => { p with downSeen := p.downSeen && !natBit v 16 })
  | .wbfHoldStat => { s with wbf := { s.wbf with disarmSeen := s.wbf.disarmSeen && !natBit v 4 } }
  | .ftlStat => s.setFtl { s.ftl with cmdRefused := s.ftl.cmdRefused && !b1 }
  | .fchHlogStat => s.modChan i (fun c => { c with dumpRefused := c.dumpRefused && !b1 })
  | .mprDirty => { s with mpr := { s.mpr with exceeded := s.mpr.exceeded && !natBit v 31 } }
  | .patScrubStat => { s with pat := { s.pat with scrubNew := s.pat.scrubNew && !natBit v 4 } }
  | .cphAlarmStat => { s with cph := { s.cph with alarm := s.cph.alarm && !b0 } }
  | .kstAlarmStat => s.setKst { s.kst with alarm := s.kst.alarm && !b0 }
  | .kstEnrolStat => s.setKst { s.kst with enrolRefused := s.kst.enrolRefused && !b1 }
  | .rlyPortStat => s.modRly i (fun x => { x with downSeen := x.downSeen && !b0 })
  | .rlyStat => s.setRly { s.rly with refused := s.rly.refused && !b1 }
  | .pwrStat => { s with pwr := { s.pwr with falseStart := s.pwr.falseStart && !b0 } }
  | _ => s

/-- Write-1-to-clear bits of a window's engine registers. -/
def clearWin (s : State) (n : Nat) (r : Reg) (v : Nat) : State :=
  let b0 := natBit v 0
  match r with
  | .heatStat => s.modHeatRegs n (fun x => { x with stopMiss := x.stopMiss && !b0 })
  | .hdlStat => if b0 then { s with hdl := { s.hdl with miss := s.hdl.miss.filter (fun m => decide (m ≠ n)) } } else s
  | .patScrubInfo => s.setPatTable n { s.patTable n with scrubNew := (s.patTable n).scrubNew && !b0 }
  | _ => s

/-- RW fields take the value, and RWS fields their staged value (R9, R98). -/
def store (s : State) (l : Loc) (v : Nat) : State :=
  let s := if l.row.rw = 0 then s else s.rwSet l.key (BitVec.ofNat 64 (v &&& l.row.rw))
  if l.row.rws = 0 then s
  else if s.forceNat l.key l.row.reset = v &&& l.row.rws then { s with staged := tdel s.staged l.key }
  else s.stage l.key (BitVec.ofNat 64 (v &&& l.row.rws))

/-- An MSI-X entry that is unmasked sends what was pending (R240). -/
def unmask (s : State) (off : Nat) : State :=
  let p := (off - 0x140000) / 0x10000
  let v := (off - 0x140000) % 0x10000 / 16
  if off % 16 = 12 && !s.msixMasked p v && s.msixPend.contains (p * 2048 + v) then
    ({ s with msixPend := s.msixPend.filter (fun k => decide (k ≠ p * 2048 + v)) }).emit (.msix p v)
  else s

/-- The effect of a BAR0 write that has passed R12. -/
def bar0Put (s : State) (l : Loc) (v : Nat) : State :=
  match l.row.reg with
  | .evrCursor | .evrStat | .evrFreeze | .evrClear => s.evrPut .bar0 l.row.reg v
  | .hifMsixTable => (s.store l v).unmask l.key
  | r => (s.store l v).clearBits r l.idx (v &&& l.row.w1c)

/-- A write of an error status register (R17). -/
def errPut (s : State) (k v : Nat) (bad : State → State) : State :=
  if natBits v 3 2 ≠ 0 then bad s
  else
    let e := tgetD s.errs k {}
    { s with errs := tset s.errs k { e with regWr := e.regWr && !natBit v 0, overrun := e.overrun && !natBit v 1 } }

/-! ### 64-bit registers (R16) -/

/-- Hold a low half for its requester. -/
def holdLow (s : State) (req : Requester) (k v : Nat) : State :=
  let mine (x : Latch) : Bool := decide (x.req = req) && decide (x.key = k)
  let low := some (BitVec.ofNat 32 v)
  if s.latches.any mine then
    { s with latches := s.latches.map (fun x => if mine x then { x with low := low } else x) }
  else { s with latches := s.latches ++ [{ req := req, key := k, low := low }] }

/-- Take a requester's held low half. -/
def takeLow (s : State) (req : Requester) (k : Nat) : State × Option Nat :=
  let mine (x : Latch) : Bool := decide (x.req = req) && decide (x.key = k)
  ({ s with latches := s.latches.map (fun x => if mine x then { x with low := none } else x) },
   ((s.latches.find? mine).bind Latch.low).map BitVec.toNat)

/-- The register write itself: whole, or the half of a wide register. `cur` is the register's current value,
`put` its effect with the checks of R12, `bad` the discard. An access of another width than the register's
is discarded. DESIGN CHOICE (102): one write of 64 bits leaves a low half that its requester holds as it is. -/
def access (s : State) (req : Requester) (l : Loc) (size v cur : Nat) (put : State → Nat → State)
    (bad : State → State) : State :=
  if !l.row.wide then (if size = 4 then put s v else bad s)
  else if size = 8 then (if l.high then bad s else put s v)
  else if l.high then
    let p := s.takeLow req l.key
    put p.1 (v * 2 ^ 32 + p.2.getD (cur % 2 ^ 32))
  else s.holdLow req l.key v

/-! ### BAR0 -/

/-- Discard a BAR0 write in the error status register of its register's block (R13, R14), or the device's where
nothing stands at the offset (R4, R47). -/
def discardAt (s : State) (off : Nat) : State :=
  match s.bar0Reg (off / 4 * 4), s.errAt (off / 4 * 4), instBase off with
  | some _, _, some b => s.discard (b + 0xFFC) 0 off
  | none, some k, _ => s.discard k 0 off
  | _, _, _ => s.discardDev .bar0 off

/-- A BAR0 write that has reached its register. -/
def bar0Reach (s : State) (req : Requester) (off size v : Nat) : State :=
  let fij := decide (0x1A00000 ≤ off) && decide (off < 0x1B00000)
  if fij && !s.faultInject then (s.discard 0x1A00FFC 0 off).ev 0x2F01 noSlice
  else if testHidden req off then (s.discard mprErr 0 off).ev 0x2C00 noSlice
  else if size ≠ 4 && size ≠ 8 then s.discardAt off
  else match s.errAt off with
    | some k => if size = 4 then s.errPut k v (fun s => s.discardAt off) else s.discardAt off
    | none => match s.bar0Reg off with
      | none => s.discardAt off
      | some l =>
        if isShare l.row.reg && !s.shareable l.idx then s.discard slcErr 0 off
        else s.access req l size v (s.regValue l)
          (fun s v => if s.writeOk l v then s.bar0Put l v else s.discardAt off) (fun s => s.discardAt off)

/-- What a device read of host memory brings, where the write carries no data: a free value. -/
def hostFetch (s : State) : Fetch × State := (Config.hostFetch s.free, { s with free := s.free + 1 })

/-- Whether the host takes a device write: a free choice. -/
def hostTakes (s : State) : Bool × State := (Config.freeBool s.free, { s with free := s.free + 1 })

/-- The operation of SLC_CMD by its code (R167). -/
def slcOpOf (v : Nat) : SlcOp :=
  [.create, .resetDrain, .resetSquash, .freeze, .thaw, .save, .restore, .destroy, .migrate, .accept, .movePort,
   .cancel].getD (v - 1) .cancel

/-- The command that a write to a command register gives; none where the write gives none. -/
def bar0Command (s : State) (req : Requester) (l : Loc) (v : Nat) : Option State :=
  let off := l.key
  let f := s.hostFetch
  let t := s.hostTakes
  if !s.writeOk l v then none
  else match l.row.reg with
  | .devCmd => some (if v = 1 then f.2.cmdFwLoad req f.1 else if v = 2 then s.cmdFwActivate req
      else if v = 3 then s.cmdFwConfirm req else s.cmdRestart req)
  | .crsCmd => some (s.bar0Write req off (fun s => if v = 1 then s.crsLoad else if v = 2 then s.crsApply
      else if v = 3 then s.crsPersist else s.crsDiscard))
  | .crsCommit => some (s.bar0Write req off (fun s => if v = 1 then s.commitRequest
      else if v = 2 then s.commitCancel else s))
  | .slcCmd => some (s.slcWrite req (slcOpOf (natBits v 3 0)) (natBits v 24 16) (natBit v 31))
  | .ftlCmd => some (if v = 1 then s.cmdCheckpoint req else if v = 2 then t.2.cmdDumpLoss req t.1
      else if v = 3 then s.cmdAddUnpowered req else s.cmdClearLoss req)
  | .fchHlogCmd => if natBit v 0 then some (t.2.cmdDump req l.idx t.1) else none
  | .mprTestCmd =>
    let op := natBits v 3 0
    some (if op = 1 then s.cmdReadRaw req else if op = 2 then s.cmdWriteRaw req
      else if op = 3 then s.cmdReadPage req (natBits v 13 8) else s.cmdWritePage req (natBits v 13 8))
  | .kstEnrolCmd => if natBit v 0 then some (f.2.enrolGo req f.1) else none
  | .rlyCmd => some (if v = 1 then f.2.cmdLoadRoster req f.1 else if v = 2 then s.cmdRekey req
      else if v = 3 then t.2.cmdDumpField req t.1 else s.cmdSetTime req)
  | .pwrCmd => if natBit v 0 then some (s.cmdWake req) else none
  | _ => none

/-- A BAR0 write from a PCIe port or a core. -/
def bar0RegWrite (s : State) (req : Requester) (off size v : Nat) : State :=
  let cmd := if size = 4 then (s.bar0Reg off).bind (fun l => s.bar0Command req l v) else none
  match cmd with
  | some t => t
  | none => s.bar0Write req off (fun s => s.bar0Reach req off size v)

/-! ### BAR2 -/

/-- A controller register takes a value (R187): INTMS, INTMC and NSSR ignore it. -/
def ctrlPut (s : State) (n : Nat) (r : Reg) (v : Nat) : State :=
  s.modSlice n (fun x => match r with
    | .aqa => { x with ctrl := { x.ctrl with aqa := BitVec.ofNat 32 v } }
    | .asq => { x with ctrl := { x.ctrl with asq := BitVec.ofNat 64 v } }
    | .acq => { x with ctrl := { x.ctrl with acq := BitVec.ofNat 64 v } }
    | .cmbmsc => { x with ctrl := { x.ctrl with cmbmsc := BitVec.ofNat 64 v } }
    | _ => x)

/-- The bits of a window's register that are reserved (R960): the slice set's EVR_PODIUM has fewer than the
device's. -/
def winRes (w : WinAt) : Nat :=
  match w with
  | .evr (.own _) l => if l.row.reg = .evrPodium then 0xffffff80 else l.row.res
  | w => (winLoc w).row.res

/-- The effect of a write to a window's register, checked under R12. -/
def winPut (s : State) (n off : Nat) (w : WinAt) (v : Nat) : State :=
  if v &&& winRes w ≠ 0 then s.discardWin n off
  else match w with
    | .ctrl l => s.ctrlPut n l.row.reg v
    | .evr set l => if s.evrOk set l.row.reg v then s.evrPut set l.row.reg v else s.discardWin n off
    | .eng l =>
      if s.valueOk l.row.reg v then (s.store l v).clearWin n l.row.reg (v &&& l.row.w1c) else s.discardWin n off

/-- A window write that has reached its register. -/
def winReach (s : State) (p n off size v : Nat) : State :=
  let bad (s : State) : State := s.discardWin n off
  if size ≠ 4 && size ≠ 8 then bad s
  else if off = 0xFFC then (if size = 4 then s.errPut (winKey n 0xFFC) v bad else bad s)
  else match winAt n off with
    | none => bad s
    | some w => s.access (.port p) (winLoc w) size v (s.winValue n w) (fun s v => s.winPut n off w v) bad

/-- The entries that a tail doorbell value exposes, where the write carries none. -/
def hostEntries (s : State) (n qid v : Nat) : List SqEntry × State :=
  let k := match tget (s.slice n).sqs qid with
    | some q => if v < q.size then (v + q.size - q.tail) % q.size else 0
    | none => 0
  ((List.range k).map (fun i => Config.hostEntry (s.free + i)), { s with free := s.free + k })

/-- A BAR2 write from a PCIe port. -/
def bar2RegWrite (s : State) (p abs size v : Nat) : State :=
  let n := abs / 0x100000
  let off := abs % 0x100000
  if 0x80000 ≤ off && off % 4 = 0 && size = 4 && v < 65536 then
    let qid := (off - 0x80000) / 8
    let es := s.hostEntries n qid v
    if off % 8 = 4 then s.doorbellWrite p n true qid v [] else es.2.doorbellWrite p n false qid v es.1
  else if size = 4 && off = 0x14 then s.ccWrite p n (BitVec.ofNat 32 v)
  else if size = 4 && off = 0x4004 then s.cmdHeatStop p n v
  else if size = 4 && off = 0x4100 then s.cmdHdlStop p n v
  else s.winWrite p n off (fun s => s.winReach p n off size v)

/-! ### The SMBus set (R1038) -/

/-- A 32-bit write to a register of the SMBus port's recorder set: EVR_CLEAR is discarded. -/
def smbusReach (s : State) (off v : Nat) : State :=
  let bad (s : State) : State := s.discard 0x1800FFC 0 (0x1800000 + off)
  match findReg evrRows 0x1800000 off with
  | none => bad s
  | some l => match l.row.reg with
    | .evrClear => bad s
    | r => s.access .smbus l 4 v (s.evrReg .smbus r l.idx)
        (fun s v => if v &&& l.row.res = 0 && s.evrOk .smbus r v then s.evrPut .smbus r v else bad s) bad

/-- A register write of `size` bytes by a requester (REG_WRITE). -/
def regWrite (s : State) (req : Requester) (sp : Space) (off size : Nat) (v : BitVec 64) : State :=
  let v := v.toNat % 256 ^ size
  match sp, req with
  | .bar0, .smbus => if size = 4 && 0x1800000 ≤ off && off < 0x1801000 then s.smbusReach (off - 0x1800000) v else s
  | .bar0, _ => s.bar0RegWrite req off size v
  | .bar2, .port p => s.bar2RegWrite p off size v
  | .bar2, _ => s

/-- REG64_LOW_READ and REG64_HIGH_READ: a read of `size` bytes at `off` (R15, R16). -/
def reg64Read (s : State) (req : Requester) (sp : Space) (off size : Nat) : State :=
  let p := s.sizedRead req sp off size
  { p.1 with lastRead := BitVec.ofNat 64 p.2 }

end State

end Sys2Proof.Machine
end

