-- ==== Sys2Proof/Machine/Pins.lean ====
section
/-! DEFINITION. The SMBus port, the alert output and the boundary-scan TAP (R1036 to R1045). The byte layout of
the basic management command is NVMe-MI's. -/

namespace Sys2Proof.Machine

/-- An upper-case hexadecimal digit in ASCII. -/
def hexDigit (n : Nat) : BitVec 8 := BitVec.ofNat 8 (if n < 10 then 0x30 + n else 0x37 + n)

namespace State

/-! ### Basic management command (R1037, R1039) -/

/-- SMART Warnings: bits 0 to 4 of R428, device-wide. -/
def warnings (s : State) : Nat :=
  let temp := s.compositeTemp
  flagAt (decide (s.ftl.availSpare < 10)) 0 +
  flagAt (s.slices.any (fun p => p.2.st.holds &&
    (decide (p.2.feats.tempOver ≤ temp) || decide (temp < p.2.feats.tempUnder)))) 1 +
  flagAt (s.ftl.dies.any (fun d => d.2.lost)) 2 + flagAt s.ftl.readOnly 3 +
  flagAt (decide (s.wbfTotalMib ≠ 0) && !s.wbf.armed) 4

/-- Composite Temperature in degrees Celsius in one byte: 0x7F is 127 or more, 0xC4 is −60 or less. -/
def celsius (s : State) : Nat :=
  let t : Int := (s.compositeTemp : Int) - 273
  if 127 ≤ t then 0x7F else if t ≤ -60 then 0xC4 else intBits 8 t

/-- The status block of command code 0x00: its length, flags, SMART Warnings, CTemp, PDLU and two reserved bytes. -/
def basicBlock (s : State) : Bytes :=
  let flags := flagAt (decide (s.dev.phase ≠ .ready)) 6 + flagAt (decide (s.dev.phase ≠ .safe)) 5 + 0x13 +
    flagAt (s.port 0).linkUp 3 + flagAt (s.port 1).linkUp 2
  [6, BitVec.ofNat 8 flags, BitVec.ofNat 8 s.warnings, BitVec.ofNat 8 s.celsius, BitVec.ofNat 8 s.ftl.pctUsed, 0, 0]

/-- The identity block of command code 0x08: its length, the vendor ID and the serial number. -/
def identBlock (s : State) : Bytes :=
  [22, 0x1F, 0x3C] ++ (List.range 16).map (fun i => hexDigit (natBits s.deviceId.toNat (63 - 4 * i) (60 - 4 * i))) ++
    List.replicate 4 0x20

/-- The values latched at entry to P3 and P4 (R1039). -/
def latchBasic (s : State) : State :=
  { s with pins := { s.pins with basic := s.basicBlock, ident := s.identBlock } }

/-- The port answers as in P4: in P3, in P4 and before READY (R1039). -/
def smbusAway (s : State) : Bool := decide (3 ≤ s.pwr.state) || decide (s.dev.phase ≠ .ready)

/-- Set Drive Not Ready in a latched block: READY has not been reached. -/
def notReady (s : State) (bs : Bytes) : Bytes :=
  if s.dev.phase = .ready then bs else bs.set 1 (bs.getD 1 0 ||| 0x40)

/-- SMBUS_BASIC_MANAGEMENT: a read of command code 0x00 or 0x08. Every other code is NACKed. -/
def smbusBasic (s : State) (code : Nat) : State :=
  if s.dev.run ≠ .started then s
  else if code = 0 then
    if s.smbusAway && !s.pins.basic.isEmpty then s.emit (.smbus (s.notReady s.pins.basic))
    else s.emit (.smbus s.basicBlock)
  else if code = 8 then
    if s.smbusAway && !s.pins.ident.isEmpty then s.emit (.smbus s.pins.ident) else s.emit (.smbus s.identBlock)
  else s

/-! ### The recorder set (R1038 to R1040) -/

/-- SMBUS_SELECT_WRITE: a Write Byte to 0xD0. -/
def smbusSelect (s : State) (v : Nat) (pecOk : Bool) : State :=
  if s.dev.run ≠ .started || !pecOk then s
  else
    let s := s.wakeEvent 4 0
    if v ≤ 0x11 then { s with pins := { s.pins with select := v } } else s

/-- SMBUS_BLOCK_READ: a Block Read of 0xD1. -/
def smbusRead (s : State) : State :=
  if s.dev.run ≠ .started || s.smbusAway then s
  else
    let p := s.busRead .smbus .bar0 (0x1800000 + 4 * s.pins.select)
    p.1.emit (.smbus (4 :: leBytes 4 p.2))

/-- SMBUS_BLOCK_WRITE: a Block Write to 0xD1 of `count` bytes. -/
def smbusWrite (s : State) (count : Nat) (v : BitVec 32) (pecOk : Bool) : State :=
  if s.dev.run ≠ .started || !pecOk then s
  else if s.smbusAway then s.wakeEvent 4 0
  else
    let s := s.wakeEvent 4 0
    if count ≠ 4 then s.discard 0x1800FFC 0 (0x1800000 + 4 * s.pins.select)
    else s.smbusReach (4 * s.pins.select) v.toNat

/-- SMB_ALERT_N at a tick (R1041). -/
def alertTick (s : State) : State :=
  s.setPin 4 (s.warnings = 0 && decide (s.compositeTemp < 0x157))

/-! ### Boundary scan (R1042 to R1045) -/

/-- Load an instruction into the TAP. -/
def tapLoad (s : State) (code : Nat) : State := { s with pins := { s.pins with instr := code, tapActive := true } }

/-- An instruction that is not allowed now: it selects BYPASS and raises security alarm source 0x5 (R1044). -/
def tapLocked (s : State) : State :=
  let s := s.tapLoad 0xFF
  if s.dev.run = .started then
    { s with pins := { s.pins with lockedAccess := satAdd s.pins.lockedAccess 1 255 } }.securityAlarm 5
  else s

/-- EXTEST and CLAMP: they drive the balls in reset and in SAFE alone. -/
def tapDrive (s : State) (code : Nat) : State :=
  if s.dev.run = .off then s
  else if s.dev.run = .waiting || s.dev.phase = .safe then s.tapLoad code
  else s.tapLocked

/-- A public instruction with no condition of its own. -/
def tapPublic (s : State) (code : Nat) : State := if s.dev.run = .off then s else s.tapLoad code

/-- DEBUG_INSTRUCTION: codes 0x80 to 0xBF need DEBUG_UNLOCK; other unlisted codes select BYPASS. -/
def tapDebug (s : State) (code : Nat) : State :=
  if s.dev.run = .off then s
  else if 0x80 ≤ code && code ≤ 0xBF then (if s.debugUnlock then s.tapLoad code else s.tapLocked)
  else s.tapLoad 0xFF

/-- TAP_RESET: Test-Logic-Reset loads IDCODE. -/
def tapReset (s : State) : State :=
  if s.dev.run = .off then s else { s with pins := { s.pins with instr := 1 } }

end State

end Sys2Proof.Machine
end

