-- ==== Sys2Proof/Machine/Admit.lean ====
section
/-! DEFINITION. Admission: its checks, the order in which queues are served, the slots of the host link and
their lending, Aborts, and the posting of completion entries (R37, R195 to R200, R217 to R232, R248 to R255,
R281, R293). -/

namespace Sys2Proof.Machine

namespace State

/-! ### The checks of admission (R222) -/

/-- The I/O commands whose entries carry a stamp under Stamp Reporting (R223). -/
def reportsStamp : List Nat := [0x00, 0x01, 0x02, 0x05, 0x08, 0x09, 0x0C]

/-- The I/O commands of the NVM command set that name a namespace. -/
def namesNs (opc : Nat) : Bool := decide (opc < 0x80) || opc = 0x81

/-- Is some masked doubleword not zero? -/
def anyBits (ws : List (BitVec 32)) : Bool := ws.any (fun w => decide (w ≠ 0))

/-- Reserved bits of an admin command of NVMe, as NVMe 2.0 places them (PRESUMED, R18); an NSID that the command does
not use is reserved. -/
def reservedAdmin (e : SqEntry) : Bool :=
  let z := anyBits
  let tail := [e.cdw12, e.cdw13, e.cdw14, e.cdw15]
  let noNs := decide (e.nsid ≠ 0)
  if 0xC0 ≤ e.opc then false
  else anyBits [e.cdw2, e.cdw3] ||
    (if e.opc = 0x00 || e.opc = 0x04 then noNs || z ([e.cdw10 &&& 0xFFFF0000, e.cdw11] ++ tail)
     else if e.opc = 0x01 then
       noNs || z [e.cdw11 &&& 0x0000FFF8, e.cdw12 &&& 0xFFFF0000, e.cdw13, e.cdw14, e.cdw15]
     else if e.opc = 0x05 then noNs || z ([e.cdw11 &&& 0x0000FFFC] ++ tail)
     else if e.opc = 0x02 then z [e.cdw14 &&& 0x007FFF80, e.cdw15]
     else if e.opc = 0x06 then
       z [e.cdw10 &&& 0x0000FF00, e.cdw11 &&& 0x00FF0000, e.cdw12, e.cdw13, e.cdw14 &&& 0xFFFFFF80, e.cdw15]
     else if e.opc = 0x08 then noNs || z (e.cdw11 :: tail)
     else if e.opc = 0x09 then z [e.cdw10 &&& 0x7FFFFF00, e.cdw14 &&& 0xFFFFFF80]
     else if e.opc = 0x0A then z [e.cdw10 &&& 0xFFFFF800, e.cdw14 &&& 0xFFFFFF80]
     else if e.opc = 0x0C then noNs || z ([e.cdw10, e.cdw11] ++ tail)
     else if e.opc = 0x0D then z ([e.cdw10 &&& 0xFFFFFFF0, e.cdw11 &&& 0x00FFFFFF] ++ tail)
     else if e.opc = 0x15 then z ([e.cdw10 &&& 0xFFFFFFF0, e.cdw11] ++ tail)
     else if e.opc = 0x80 then z ([e.cdw10 &&& 0xFFFFC000, e.cdw11] ++ tail)
     else if e.opc = 0x84 then z ([e.cdw10 &&& 0xFFFFFC00] ++ tail)
     else false)

/-- Reserved bits of an NVM or Ledger Post command, as NVMe 2.0 and R278 place them (PRESUMED, R18): the device has no
directives and no storage tags. In LBA format 4 (`wide`) bits [15:0] of dword 3 are the upper part of the reference tag
of the commands that have one (R889). -/
def reservedIo (wide : Bool) (e : SqEntry) : Bool :=
  let z := anyBits
  let tail := [e.cdw11, e.cdw12, e.cdw13, e.cdw14, e.cdw15]
  let tagged := wide && (e.opc = 0x01 || e.opc = 0x02 || e.opc = 0x05 || e.opc = 0x08 || e.opc = 0x0C)
  if 0x81 < e.opc then false
  else anyBits [e.cdw2, if tagged then e.cdw3 &&& 0xFFFF0000 else e.cdw3] ||
    (if e.opc = 0x00 then z (e.cdw10 :: tail)
     else if e.opc = 0x01 || e.opc = 0x02 then z [e.cdw12 &&& 0x03FF0000, e.cdw13 &&& 0xFFFFFF00]
     else if e.opc = 0x05 || e.opc = 0x0C then z [e.cdw12 &&& 0x03FF0000, e.cdw13]
     else if e.opc = 0x08 then z [e.cdw12 &&& 0x01FF0000, e.cdw13]
     else if e.opc = 0x09 then
       z [e.cdw10 &&& 0xFFFFFF00, e.cdw11 &&& 0xFFFFFFF8, e.cdw12, e.cdw13, e.cdw14, e.cdw15]
     else if e.opc = 0x0D then z ((e.cdw10 &&& 0x3FFFFFF0) :: tail)
     else if e.opc = 0x0E then z [e.cdw11 &&& 0xFFFFFFFE, e.cdw12, e.cdw13, e.cdw14, e.cdw15]
     else if e.opc = 0x11 || e.opc = 0x15 then z ((e.cdw10 &&& 0xFFFF00F0) :: tail)
     else if e.opc = 0x81 then
       z [e.cdw10 &&& 0xFFFFFE00, e.cdw11 &&& 0xFFFF0000, e.cdw12 &&& 0xC3FFFFFF, e.cdw13, e.cdw14]
     else false)

/-- R200, no SGL for admin commands (R195), and the reserved bits of the first doubleword (R18). -/
def formBad (admin : Bool) (e : SqEntry) : Bool :=
  decide (e.fuse ≠ 0) || decide (e.rsvd ≠ 0) || decide (2 ≤ e.psdt) || (admin && decide (e.psdt ≠ 0)) || decide (e.mptr ≠ 0)

/-- The status of a data pointer's form (R235, R236). -/
def pointerBad (d : DataPtr) : Option Status :=
  match d.form with
  | .badSegment => some .sglSegment
  | .badType => some .sglType
  | .badOffset => some .prpOffset
  | .ok => if d.sgl && decide (1024 < d.ranges.length) then some .sglCount else none

/-- The transfer length of an NVM command whose SGL must match it (R236). -/
def transferLen (ns : Ns) (e : SqEntry) : Option Nat :=
  if e.opc = 0x01 || e.opc = 0x02 || e.opc = 0x05 then some (nlbOf e * linkBlock ns e)
  else if e.opc = 0x09 then
    some (16 * (natBits e.cdw10.toNat 7 0 + 1))
  else if e.opc = 0x0D || e.opc = 0x11 then some 16
  else if e.opc = 0x15 then some 8
  else if e.opc = 0x0E then some (4 * (e.cdw10.toNat + 1))
  else none

/-- The commands that address the blocks SLBA to SLBA + NLB. -/
def addressesBlocks (opc : Nat) : Bool :=
  opc = 0x01 || opc = 0x02 || opc = 0x05 || opc = 0x08 || opc = 0x0C

/-- The commands that a MIRROR slice's host may not give (R293). -/
def refusedByMirror (opc : Nat) : Bool := opc = 0x01 || opc = 0x08 || opc = 0x09 || opc = 0x81

/-- The first status of a list of checks. -/
def firstStatus : List (Option Status) → Option Status
  | [] => none
  | some st :: _ => some st
  | none :: t => firstStatus t

def bad? (b : Bool) (st : Status) : Option Status := if b then some st else none

/-- Checks of an NVM command that names a namespace. -/
def nvmChecks (s : State) (n : Nat) (ns : Ns) (e : SqEntry) : Option Status :=
  firstStatus
    [bad? ((s.slice n).mediaKey.isNone) (.vendor 0x03),
     bad? (refusedByMirror e.opc && decide (s.pairRole n = 2)) (.vendor 0x24),
     bad? (e.opc = 0x01 && s.ftl.readOnly) .writeProtected,
     bad? (addressesBlocks e.opc && decide (ns.nsze < slbaOf e + nlbOf e)) .lbaRange,
     bad? ((e.opc = 0x01 || e.opc = 0x02 || e.opc = 0x05) && decide (16 * 2 ^ 20 < nlbOf e * linkBlock ns e))
       .invalidField,
     (match transferLen ns e with
      | some len => firstStatus [pointerBad e.dptr, bad? (e.dptr.sgl && decide (ptrLen e.dptr ≠ len)) .sglLength,
                              bad? (!s.pointerPlaced n e.dptr) .invalidCmb]
      | none => none)]

/-- Checks 3 to 6 of a Ledger Post (R281, R830). -/
def postAdmission (s : State) (n : Nat) (ns : Ns) (e : SqEntry) : Option Status :=
  firstStatus
    [bad? ((s.slice n).mediaKey.isNone) (.vendor 0x03),
     bad? (s.pairRole n = 2) (.vendor 0x24),
     bad? (postPaired e && decide (s.pairRole n ≠ 1)) (.vendor 0x23),
     bad? (postPaired e && decide (16 < postRanges e) && decide (s.rly.floor < 2)) (.vendor 0x05),
     pointerBad e.dptr,
     bad? (ptrLen e.dptr ≠ 16 * postRanges e + postTotal e * linkBlock ns e) (.vendor 0x02),
     bad? (!s.pointerPlaced n e.dptr) .invalidCmb,
     bad? s.ftl.readOnly .writeProtected]

/-- The namespace that an I/O command names, when it exists and is attached. -/
def attachedNs (s : State) (n nsid : Nat) : Option Ns :=
  match tget (s.slice n).nss nsid with
  | some ns => if ns.attached then some ns else none
  | none => none

/-- The admission checks of an I/O command. -/
def ioChecks (s : State) (n : Nat) (e : SqEntry) : Option Status :=
  if e.opc = 0x86 then firstStatus [pointerBad e.dptr, s.heatChecks1 n e]
  else if e.opc = 0x8A then firstStatus [pointerBad e.dptr, s.hurdleChecks1 n e]
  else if e.opc = 0x8D || e.opc = 0x91 then firstStatus [pointerBad e.dptr, s.patChecks1 n e]
  else if e.opc = 0x93 then firstStatus [pointerBad e.dptr, s.cipherChecks1 n e]
  else if e.opc = 0x95 then firstStatus [pointerBad e.dptr, s.digestChecks1 n e]
  else if reservedIo ((s.attachedNs n e.nsid).any (fun ns => ns.lbaf = 4)) e then some .invalidField
  else if e.opc = 0x81 then
    if postRanges e = 0 || 64 < postRanges e then some .invalidField
    else match s.attachedNs n e.nsid with
      | none => some .invalidNamespace
      | some ns => s.postAdmission n ns e
  else if e.opc = 0x00 && e.nsid = 0xFFFFFFFF then none
  else match s.attachedNs n e.nsid with
    | none => some .invalidNamespace
    | some ns => s.nvmChecks n ns e

/-- The admission checks of an admin command: its own chapter's checks are its own. -/
def adminChecks (s : State) (n : Nat) (e : SqEntry) : Option Status :=
  firstStatus
    [bad? (reservedAdmin e) .invalidField, pointerBad e.dptr,
     bad? (decide (e.opc ≠ 0x01) && decide (e.opc ≠ 0x05) && !s.pointerPlaced n e.dptr) .invalidCmb]

/-- Is there an admitted command of the same SQID and CID whose completion is not posted (R231)? -/
def cidInUse (s : State) (c : CmdId) : Bool :=
  let x := s.slice c.slice
  x.adms.any (fun a => a.id = c) || x.ready.any (fun r => r.id = c) || x.aers.any (fun r => r.1 = c)

/-- Every check of admission, in order (R195, R200, R222, R231). -/
def admissionChecks (s : State) (c : CmdId) (e : SqEntry) : Option Status :=
  let admin := decide (c.sqid = 0)
  if s.cidInUse c then some .cidConflict
  else if formBad admin e then some .invalidField
  else if !(if admin then adminOpcodes else ioOpcodes).contains e.opc then some .invalidOpcode
  else if admin then s.adminChecks c.slice e else s.ioChecks c.slice e

/-! ### Charges (R248 to R255) -/

/-- The charge of a Write or Ledger Post in 4 KiB units; no other command has one. -/
def chargeOf (s : State) (n : Nat) (e : SqEntry) : Nat :=
  match tget (s.slice n).nss e.nsid with
  | none => 0
  | some ns =>
    if e.opc = 0x01 then ceilDiv (nlbOf e * linkBlock ns e) 4096
    else if e.opc = 0x81 then ceilDiv (postTotal e * linkBlock ns e) 4096
    else 0

/-- A slice's write-buffer total in charge units. -/
def unitsTotal (s : State) (n : Nat) : Nat := s.wbfTotal n * 256

/-- A charge that the total can never hold is written through (R254). -/
def overTotal (s : State) (n : Nat) (e : SqEntry) : Bool := decide (s.unitsTotal n < s.chargeOf n e)

/-- Must a queue whose next entry is `e` wait for space (R253)? -/
def waitsForSpace (s : State) (n : Nat) (admin : Bool) (e : SqEntry) : Bool :=
  !admin && !s.overTotal n e && decide (s.unitsTotal n - s.occupancy n < s.chargeOf n e)

/-! ### One entry -/

/-- The fields of an entry of a CMB queue as the CMB holds them; its data pointer's lists are what the
doorbell brought (R218). -/
def cmbEntry (s : State) (n : Nat) (q : Sq) (slot : Nat) (e : SqEntry) : SqEntry :=
  if !q.inCmb then e
  else
    let bs := mread s.cmb (q.base + 64 * slot - (s.port (s.slice n).port).bar4) 64
    let w (i : Nat) : BitVec 32 := BitVec.ofNat 32 (leAt bs (4 * i) 4)
    { opc := leAt bs 0 1, cid := leAt bs 2 2, fuse := natBits (leAt bs 1 1) 1 0, psdt := natBits (leAt bs 1 1) 7 6,
      rsvd := natBits (leAt bs 1 1) 5 2,
      nsid := leAt bs 4 4, cdw2 := w 2, cdw3 := w 3, mptr := leAt bs 16 8, dptr := e.dptr, cdw10 := w 10,
      cdw11 := w 11, cdw12 := w 12, cdw13 := w 13, cdw14 := w 14, cdw15 := w 15 }

/-- Pass over leading slots that were admitted out of order (R228). -/
def passSkipped : List SqEntry → Sq → Sq
  | [], q => { q with ents := [] }
  | e :: t, q =>
    if q.skip.contains q.head then
      passSkipped t { q with head := (q.head + 1) % q.size, skip := q.skip.filter (· ≠ q.head), ents := t,
                             fetched := q.fetched - 1 }
    else { q with ents := e :: t }

/-- Has the next entry of a CMB queue an uncorrectable word (R869)? -/
def entryBad (s : State) (n : Nat) (q : Sq) : Bool :=
  let k := passSkipped q.ents q
  q.inCmb && decide (k.ents ≠ []) && s.cmbBad n [(q.base + 64 * k.head, 64)]

/-- Such an entry is as a failed fetch (R193, R869). -/
def takeBadEntries (s : State) (n : Nat) : State :=
  match (s.slice n).sqs.filter (fun q => s.entryBad n q.2) with
  | [] => s
  | qs => (s.readCmb n (qs.map (fun q => (q.2.base + 64 * (passSkipped q.2.ents q.2).head, 64)))).modSlice n (fun x =>
      { x with ctrl := { x.ctrl with cfsDue := true } })

/-- How many of a queue's entries are in device memory (R218). -/
def inMemory (q : Sq) : Nat := if q.inCmb then q.ents.length else min q.fetched q.ents.length

/-- The next eligible entry of a queue. -/
def headEntry (s : State) (n : Nat) (q : Sq) : Option SqEntry :=
  match q.ents with
  | [] => none
  | e :: _ => if inMemory q = 0 || s.entryBad n q then none else some (s.cmbEntry n q q.head e)

/-- Can an entry of a completion queue be reserved (R213)? -/
def cqRoom (x : Slice) (cqid : Nat) : Bool :=
  match tget x.cqs cqid with
  | none => false
  | some q => decide ((q.tail + q.size - q.head) % q.size + q.resv + 1 < q.size)

/-- Reserve an entry of a completion queue. -/
def reserveCq (x : Slice) (cqid : Nat) : Slice :=
  { x with cqs := tmod x.cqs cqid (fun q => { q with resv := q.resv + 1 }) }

/-- A queue's turn can be taken: it has an eligible entry and a reservable completion entry (R220). -/
def canServe (s : State) (n : Nat) (q : Sq) : Bool := (s.headEntry n q).isSome && cqRoom (s.slice n) q.cqid

/-- The admitted command of an entry, with its stamp (R221, R223, R224, R289). A write-through deallocation reaches its
completion stage only with its journal write (R258). -/
def makeAdm (s : State) (n qid : Nat) (q : Sq) (e : SqEntry) : Adm :=
  let admin := decide (qid = 0)
  { id := { slice := n, sqid := qid, cid := e.cid }, ent := e, admin := admin,
    stamp := { stride := s.stride, seq := s.admSeq }, cqid := q.cqid, sqhd := q.head,
    stage := admin || (stagedAtAdmission.contains e.opc &&
      !(e.opc = 0x09 && natBit e.cdw11.toNat 2 && s.writeThrough n)),
    charge := if admin || s.overTotal n e then 0 else s.chargeOf n e,
    wt := !admin && s.overTotal n e,
    rep := !admin && (e.opc = 0x81 || ((s.slice n).feats.stampRep && reportsStamp.contains e.opc)) }

/-- A command that is admitted and ends at once with a status, its entry ready at the tick of stride `at'`. -/
def endAtOnce (s : State) (a : Adm) (st : Status) (at' : Nat) : State :=
  s.modSlice a.id.slice (fun x =>
    let x := countDone x a st
    { x with ready := x.ready ++ [{ id := a.id, cqid := a.cqid, sqhd := a.sqhd, status := st,
                                    dw0 := if a.rep then a.stamp.dw0 else 0,
                                    dw1 := if a.rep then a.stamp.dw1 else 0, at' := at' }] })

/-- Admit an entry that has left its queue: it takes the next sequence, its completion entry is reserved,
and a failed check ends it at once (R213, R221, R222). -/
def admitEntry (s : State) (n qid : Nat) (q : Sq) (e : SqEntry) : State :=
  let a := s.makeAdm n qid q e
  let bad := s.admissionChecks a.id e
  let s := { s with admSeq := s.admSeq + 1 }
  let s := s.modSlice n (fun x => reserveCq x q.cqid)
  match bad with
  | some st => s.endAtOnce { a with charge := 0 } st (s.stride + 1)
  | none => s.modSlice n (fun x => { x with adms := x.adms ++ [a] })

/-- Admit up to `k` entries of one queue in a row: how many, and whether it was passed over for space. -/
def admitRow (n qid : Nat) : Nat → State → State × Nat × Bool
  | 0, s => (s, 0, false)
  | k + 1, s =>
    match tget (s.slice n).sqs qid with
    | none => (s, 0, false)
    | some q0 =>
      let q := passSkipped q0.ents q0
      let s := s.modSlice n (fun x => { x with sqs := tset x.sqs qid q })
      match s.headEntry n q with
      | none => (s, 0, false)
      | some e =>
        if !cqRoom (s.slice n) q.cqid then (s, 0, false)
        else if s.waitsForSpace n (decide (qid = 0)) e then (s, 0, true)
        else
          let q' := { q with head := (q.head + 1) % q.size, ents := q.ents.tail, fetched := q.fetched - 1 }
          let s := (s.modSlice n (fun x => { x with sqs := tset x.sqs qid q' })).admitEntry n qid q' e
          let r := admitRow n qid k s
          (r.1, r.2.1 + 1, r.2.2)

/-! ### The order of the queues (R220) -/

/-- The next queue of a round robin after the one served last. -/
def nextRobin (last : Nat) (qs : List Nat) : Option Nat :=
  match qs.find? (fun q => decide (last < q)) with
  | some q => some q
  | none => qs.head?

/-- The class of a position of the weighted round robin: HPW + 1 of high, MPW + 1 of medium, LPW + 1 of low. -/
def robinClass (f : Features) (pos : Nat) : Nat :=
  if pos < f.hpw + 1 then 1 else if pos < f.hpw + f.mpw + 2 then 2 else 3

def robinLen (f : Features) : Nat := f.hpw + f.mpw + f.lpw + 3

/-- The first position from `pos` on whose class has a queue to serve. -/
def robinFind (f : Features) (serves : Nat → Bool) (pos : Nat) : Nat → Option Nat
  | 0 => none
  | k + 1 =>
    let p := pos % robinLen f
    if serves (robinClass f p) then some p else robinFind f serves (p + 1) k

/-- The queue that takes the next turn, and the slice with its round robins moved on. -/
def nextQueue (s : State) (n : Nat) (passed : List Nat) : Option (Nat × Slice) :=
  let x := s.slice n
  let qs := (x.sqs.filter (fun q => !passed.contains q.1 && s.canServe n (passSkipped q.2.ents q.2)))
  if qs.any (fun q => q.1 = 0) then some (0, x)
  else
    let of (k : Nat) : List Nat := (qs.filter (fun q => q.2.prio = k)).map Prod.fst
    match nextRobin x.rr (of 0) with
    | some q => some (q, { x with rr := q })
    | none =>
      match robinFind x.feats (fun k => decide (of k ≠ [])) (x.wrr.getD 0 0) (robinLen x.feats) with
      | none => none
      | some p =>
        let k := robinClass x.feats p
        match nextRobin (x.wrr.getD k 0) (of k) with
        | none => none
        | some q => some (q, { x with wrr := lset (lset x.wrr 0 ((p + 1) % robinLen x.feats)) k q })

/-- The admission of one slice, up to its limit: turns of at most 2^AB entries. -/
def admitTurns (n : Nat) : Nat → Nat → List Nat → State → State × List Nat
  | 0, _, passed, s => (s, passed)
  | k + 1, cap, passed, s =>
    if cap = 0 then (s, passed)
    else match s.nextQueue n passed with
      | none => (s, passed)
      | some (qid, x) =>
        let s := s.setSlice n x
        let burst := if x.feats.ab = 7 then cap else min cap (2 ^ x.feats.ab)
        let r := admitRow n qid burst s
        admitTurns n k (cap - r.2.1) (if r.2.2 then qid :: passed else passed) r.1

/-- Admission of a slice; event 0x0402 once where a queue was passed over for space (R255). -/
def admitSlice (s : State) (n limit : Nat) : State :=
  let r := admitTurns n (limit + (s.slice n).sqs.length) limit [] s
  if r.2.isEmpty then r.1 else r.1.ev 0x0402 n

/-! ### Host-link slots (R37, R76, R217, R219) -/

/-- A slice has eligible work for its port's link: completions to post, host data to move (data in the CMB is none, R216),
commands to admit or entries to fetch. -/
def linkWork (s : State) (n : Nat) : Bool :=
  let x := s.slice n
  x.ready.any (fun r => decide (r.at' ≤ s.stride)) ||
  x.adms.any (fun a => match a.reply with
    | some r => decide (0 < s.hostBytes n (cutRanges r.ranges r.data.length))
    | none => !a.started && decide (0 < s.hostBytes n a.ent.dptr.ranges)) ||
  (s.admitting n && x.sqs.any (fun q => (s.canServe n (passSkipped q.2.ents q.2)) || (!q.2.inCmb && decide (q.2.fetched < q.2.ents.length))))

/-- The slices of a port that hold resources, in ascending number. -/
def slicesOn (s : State) (p : Nat) : List Nat :=
  (s.slices.filter (fun q => q.2.port = p && q.2.st.holds)).map Prod.fst

/-- Which slice has a port's slot in this stride: its holder, or where that one has no eligible work, another
with work, chosen freely where there are several. -/
def linkHolder (s : State) (p : Nat) : State × Option Nat :=
  let own := s.slotHolder (0x200 + p) s.stride
  if own.any s.linkWork then (s, own)
  else match (s.slicesOn p).filter s.linkWork with
    | [] => (s, own)
    | [n] => (s, some n)
    | ns => ({ s with free := s.free + 1 }, ns[(Config.freeValue s.free).toNat % ns.length]?)

/-- The holders of the ports' slots, port 0 first. -/
def linkHolders (s : State) : State × List (Option Nat) :=
  (List.range s.portCount).foldl (fun r p =>
    let h := r.1.linkHolder p
    (h.1, r.2 ++ [h.2])) (s, [])

/-- The counts of R217 and R219 for a slice on a port whose slot `holder` has. -/
def linkLimit (s : State) (n : Nat) (holder : Option Nat) : Nat :=
  if holder = some n then 32 else if s.steady n then 8 else 0

/-- Admission is not stopped for the whole device (R309, R910). -/
def admissionOpen (s : State) : Bool :=
  decide (s.pwr.state < 2) && !(s.pwr.phase = .entering && decide (2 ≤ s.pwr.target))

/-- The device's admission at a tick: ports ascending, and slices ascending within a port. -/
def admitTick (s : State) (hs : List (Option Nat)) : State :=
  if !s.admissionOpen then s
  else
    (List.range s.portCount).foldl (fun s p =>
      (s.slicesOn p).foldl (fun s n =>
        if s.admitting n then (s.admitSlice n (s.linkLimit n (hs.getD p none))).takeBadEntries n else s) s) s

/-- The posting of a tick. -/
def postTick (s : State) (hs : List (Option Nat)) : State :=
  if s.wbf.pfTaken || !s.admissionOpen then s
  else
    (List.range s.portCount).foldl (fun s p =>
      (s.slicesOn p).foldl (fun s n => s.postReady n (s.linkLimit n (hs.getD p none))) s) s

/-- Fetch up to `k` entries of a slice's host-memory queues, in ascending queue number (R218). -/
def fetchQueues : Nat → Tab Sq → Tab Sq
  | _, [] => []
  | k, (i, q) :: t =>
    let m := if q.inCmb then 0 else min k (q.ents.length - q.fetched)
    (i, { q with fetched := q.fetched + m }) :: fetchQueues (k - m) t

/-- The entry fetches of the stride that a tick begins. -/
def fetchTick (s : State) (hs : List (Option Nat)) : State :=
  if !s.admissionOpen then s
  else hs.foldl (fun s h => match h with
    | some n =>
      if s.admitting n && s.portMoves (s.slice n).port then
        s.modSlice n (fun x => { x with sqs := fetchQueues 64 x.sqs })
      else s
    | none => s) s

/-! ### Aborts (R225 to R230) -/

/-- The place of an eligible entry with a CID in a queue: its slot and the entry, passing over slots already
admitted. -/
def findEntry (s : State) (n : Nat) (q : Sq) (cid : Nat) : Nat → Nat → List SqEntry → Option (Nat × SqEntry)
  | 0, _, _ => none
  | _, _, [] => none
  | k + 1, slot, e :: t =>
    let e' := s.cmbEntry n q slot e
    if !q.skip.contains slot && e'.cid = cid then some (slot, e')
    else findEntry s n q cid k ((slot + 1) % q.size) t

/-- An eligible target is admitted with its stamp and ends at once (R228). -/
def abortEligible (s : State) (n qid cid : Nat) : Option State :=
  match tget (s.slice n).sqs qid with
  | none => none
  | some q =>
    match s.findEntry n q cid (inMemory q) q.head q.ents with
    | none => none
    | some (slot, e) =>
      if !s.admitting n || !s.admissionOpen || !cqRoom (s.slice n) q.cqid then none
      else
        let q1 := passSkipped q.ents { q with skip := slot :: q.skip }
        let a := s.makeAdm n qid q1 e
        let s := { s with admSeq := s.admSeq + 1 }
        let s := s.modSlice n (fun x => reserveCq { x with sqs := tset x.sqs qid q1 } q.cqid)
        some (s.endAtOnce a .abortRequested s.stride)

/-- One Abort acts (R226 to R229): DW0 bit 0 is 0 where its target was aborted. -/
def abortAct (s : State) (n : Nat) (r : AbortReq) : State :=
  let t : CmdId := { slice := n, sqid := r.sqid, cid := r.cid }
  match s.adm? t with
  | some a =>
    if a.stage || decide (a.id = r.id) then s.finishNow r.id .success 1
    else ((s.dropEntry t).finishNow t .abortRequested).finishNow r.id .success 0
  | none =>
    match s.abortEligible n r.sqid r.cid with
    | some s' => s'.finishNow r.id .success 0
    | none => s.finishNow r.id .success 1

/-- Aborts that no command has taken up yet are taken up at the tick. -/
def takeAborts (s : State) (n : Nat) : State :=
  ((s.slice n).adms.filter (fun a => a.admin && a.ent.opc = 0x08 && !a.started)).foldl
    (fun s a => s.takeAbort a.id) s

/-- Every Abort admitted before this tick acts. -/
def abortTick (s : State) : State :=
  s.slices.foldl (fun s p =>
    let s := s.takeAborts p.1
    let rs := (s.slice p.1).aborts
    let s := s.modSlice p.1 (fun x => { x with aborts := [] })
    rs.foldl (fun s r => s.abortAct p.1 r) s) s

/-- Step 4 of R33 at the host interface: doorbells are sampled, and Aborts act on the stages that the strides before have
left (R225). `admSeq` counts from 0 at each tick (R221). -/
def sampleStep (s : State) : State :=
  let s := { s with admSeq := 0 }
  let s := if s.wbf.pfTaken then s else s.sampleTick
  if s.wbf.pfTaken then s else s.abortTick

/-- The links of the new stride: who has each port's slot, and nothing moved yet. -/
def linkTick (s : State) : State :=
  let h := s.linkHolders
  { h.1 with link := { holders := h.2 } }

/-- The units of the new stride at the host interface: admission, deliveries under way, fetches and posting. -/
def hostTick (s : State) : State :=
  let hs := s.link.holders
  (((s.admitTick hs).replyTick).fetchTick hs).postTick hs

end State

end Sys2Proof.Machine
end

