-- ==== Sys2Proof/Machine/Tick.lean ====
section
/-! DEFINITION. The tick and the lap boundary: everything that the device does of itself as the stride counter
rises, in the order of R33 and R34, and what a core's accesses and faults mean for the device. -/

namespace Sys2Proof.Machine

namespace State

/-- Do `f` for every slice number of the table. -/
def eachSlice (s : State) (f : State → Nat → State) : State := s.slices.foldl (fun s p => f s p.1) s

/-! ### The pattern scrubber (R687 to R692) -/

/-- Does a raw byte lie in the partition of a search slot? -/
def inPartition (entry slot : Nat) : Bool := entry % 16 = slot

/-- The slice that holds a search slot. -/
def slotSlice (s : State) (slot : Nat) : Option Nat := (s.slices.find? (fun p => p.2.search.contains slot)).map Prod.fst

/-- A report to the slice that holds the slot (R690). -/
def scrubReport (s : State) (slot : Nat) : State :=
  let e := s.patEpoch
  match s.slotSlice slot with
  | none => s
  | some n =>
    let t := s.patTable n
    s.setPatTable n { t with scrubFirst := e - 1, scrubLast := e, scrubCount := min 0xFFFF (t.scrubCount + 1),
                             scrubNew := true }

/-- One entry is rewritten from its golden copy (R690). -/
def scrubEntry (s : State) (slot off : Nat) : State :=
  let k := Config.patEntry off
  let s := s.modArr 0x52 (fun m => { m with raws := tdel m.raws off })
  let s := { s with pat := { s.pat with corrected := min 0xFFFF (s.pat.corrected + 1), scrubNew := true,
                                        lastSlot := slot } }
  (s.scrubReport slot).ev 0x1800 ((s.slotSlice slot).getD noSlice)
    (item 1 slot ++ item 1 (k / 16 % 4) ++ item 3 (k / 64) ++ item 4 s.patEpoch)

/-- A golden copy that cannot be read: the holding slice's table is LOST (R691). -/
def goldenLost (s : State) (slot : Nat) : State :=
  let s := { s with pat := { s.pat with goldenFail := min 0xFF (s.pat.goldenFail + 1), scrubNew := true,
                                        lastSlot := slot } }
  match s.slotSlice slot with
  | none => s.ev 0x1801 noSlice (item 1 slot)
  | some n => (s.setPatTable n { s.patTable n with state := .lost }).ev 0x1801 n (item 1 slot)

/-- The scrub of a lap: partition L mod 16 of all four tables (R688). -/
def scrubLap (s : State) : State :=
  let slot := s.lap % 16
  let golden := ((s.arr dramArr).raws.filter (fun r => decide (r.1 < s.regionBase * 2 ^ 20) &&
    inPartition (Config.goldenEntry r.1) slot)).map Prod.fst
  let s := golden.foldl (fun s o =>
    let r := s.memByte dramArr o
    if r.2.2 then r.1.goldenLost slot else r.1) s
  let bad := ((s.arr 0x52).raws.filter (fun r => inPartition (Config.patEntry r.1) slot)).map Prod.fst
  bad.foldl (fun s o => s.scrubEntry slot o) s

/-- While a table word differs from its golden copy, what searches and scans find is open (R692). -/
def scrubTaint (s : State) : State :=
  if (s.arr 0x52).raws.isEmpty then s
  else { s with
    pat := { s.pat with runs := s.pat.runs.map (fun r => { r with tainted := true }) }
    hdl := { s.hdl with scans := s.hdl.scans.map (fun r => { r with tainted := true }) } }

/-! ### The lap boundary (R34) -/

/-- The counts of laps: media age, powered time, busy time and time at a high temperature (R367, R428). -/
def ageLap (s : State) : State :=
  let hot := s.compositeTemp
  { s with
    ftl := { s.ftl with mediaAge := satAdd s.ftl.mediaAge 1 top64 }
    dur := { s.dur with poweredLaps := s.dur.poweredLaps + 1,
                        warnLaps := s.dur.warnLaps + (if 0x157 ≤ hot then 1 else 0),
                        critLaps := s.dur.critLaps + (if 0x166 ≤ hot then 1 else 0) }
    slices := tmap s.slices (fun _ (x : Slice) =>
      if x.adms.isEmpty then x else { x with smart := { x.smart with busyLaps := x.smart.busyLaps + 1 } }) }

/-- The slice-table record of a change (R972): it is durable at the boundary. -/
def recordTable (s : State) : State :=
  if s.dev.phase = .ready && s.dur.sliceTable ≠ some s.sliceTableNow then
    { s with dur := { s.dur with sliceTable := some s.sliceTableNow } }
  else s

/-- Step 1 of R34: configuration takes effect. -/
def lapConfig (s : State) : State := (s.configLap.slicesLap).enableLap.fijLap

/-- Step 2: budgets are refilled. -/
def lapBudgets (s : State) : State := (s.budgetRefill.cipherLap).heatLap.coreResets

/-- Step 3: the background passes begin. -/
def lapPasses (s : State) : State :=
  let s := s.catchUpLap.patrolLap.scrubLap.keyLap
  let s := if s.ftl.recovered then s.fillReserves else s
  s.decayLap.lifeLap.kstLap

/-- The other actions of a boundary: the relay, migrations, the power target and the records. -/
def lapRest (s : State) : State := (s.relayLap.migLap).ageLap.recordTable.powerLap

/-- A lap boundary. -/
def lapTick (s : State) : State := s.lapConfig.lapBudgets.lapPasses.lapRest

/-! ### What a core reaches (R16, R585, R977) -/

/-- A double fault: the heat of a tenant core ends as faulted; on a management core it is a device fault
(R496, R977). -/
def doubleFault (s : State) (c cause sub : Nat) (epc : Dword) : State :=
  if isTenant c then s.heatFault c cause sub epc else s.raiseFault 1

/-- BAR0 as a core in marshal mode reaches it, and what its exceptions mean. -/
def coreBus : Bus :=
  { read := fun s c off =>
      let r := s.busRead (.core c) .bar0 off
      (r.1, BitVec.ofNat 32 r.2),
    write := fun s c off v => s.regWrite (.core c) .bar0 off 4 (v.setWidth 64),
    fault := fun s c cause sub epc => s.heatFault c cause sub epc,
    double := fun s c cause sub epc => s.doubleFault c cause sub epc }

/-! ### The tick (R33) -/

/-- What a power failure, a device fault or a restart does at a tick. -/
def failTick (s : State) : State := s.powerFailTick.faultTick.restartTick.joinTick.flushTime.afterPfail

/-- The SMART/Health events of a tick ("As NVMe 2.0", R199, R212): a Critical Warning bit has risen. The reliability bit's
own events come with the losses that set it (R380). -/
def warnEvents (s : State) (n : Nat) : State :=
  let x := s.slice n
  let w := s.criticalWarning x
  let rose (k : Nat) : Bool := natBit w k && !natBit x.smart.warned k
  if w = x.smart.warned then s
  else
    let s := s.modSlice n (fun x => { x with smart := { x.smart with warned := w } })
    let s := if rose 0 then s.healthEvent n 0 .spare else s
    let s := if rose 1 then s.healthEvent n 1 .temperature else s
    let s := if rose 3 then s.healthEvent n 3 .health else s
    if rose 4 then s.healthEvent n 4 .health else s

/-- The memories and media at a tick. -/
def storeTick (s : State) : State :=
  let s := (s.holdupTick.dumpTick.catchUpTick.refreshTick).visibleTick.releaseTick.waterTick.drainTick.reserveTick
  (s.eachSlice trimTick).evacTick.flushTick.issueTick

/-- The engines at a tick. -/
def engineTick (s : State) : State :=
  let s := s.heatSweep.heatStopTick.coreTick
  let s := s.heats.foldl (fun s h => s.heatStaged h.id) s
  s.scrubTaint.pkTick.cipherTick.digestTick.patTick.hurdleTick

/-- The slice manager at a tick. -/
def sliceTick (s : State) : State := (s.slcTick slcRest).slcOverdue.migTick

/-- The relay's due times at a tick. -/
def relayTick (s : State) : State :=
  if !s.hasField then s
  else
    let s := (List.range 4).foldl (fun s p => (s.linkSilent p).helloRepeat p) s
    let s := (s.rly.msgs.map Awaited.id).foldl (fun s i => s.retransmit i) s
    let s := (s.dealings).foldl (fun s a => (s.peerDeclaredLost a 0xC0).peerDeclaredLost a 0xC1) s
    (s.summarySend.eachSlice pairConfirmSend).ppsOutTick

/-- Host work that a tick ends, after posting. -/
def endTick (s : State) : State :=
  s.eachSlice (fun s n => (((s.endCtrlReset n).endShutdown n).resetComplete n).sliceFrozen n)

/-- A tick while the fabric clock runs. -/
def activeTick (s : State) : State :=
  let s := s.evrTick.heatFaultTick.failTick
  if s.dev.run ≠ .started then s
  else
    let s := if s.stride % 4000 = 0 then s.lapTick else s
    let s := ((s.eachSlice takeCfs).eachSlice warnEvents).sampleStep.linkTick
    let s := s.storeTick.engineTick.sliceTick.relayTick
    (s.hostTick.coalesceTick.endTick.prepTick.wakeTick.alertTick).repuTick coreBus

/-- A tick in P3 or P4 (R23): the counter, the wake timers, power failure and the counts of laps. -/
def sleepTick (s : State) : State :=
  let s := s.failTick.timerExpiry.refreshWakeDue
  if s.dev.run = .started && s.stride % 4000 = 0 then (s.ageLap).powerLap else s

/-- TICK (R33): the counter rises, and the device acts. With no supply there is no tick (R21). -/
def tick (s : State) : State :=
  if s.dev.run = .off then s
  else
    let s := { s with stride := s.stride + 1 }
    if s.dev.run ≠ .started then s
    else if 3 ≤ s.pwr.state then s.sleepTick
    else s.activeTick

/-- LAP_BOUNDARY (R34): the tick that makes the counter a multiple of 4,000, where it is the next. -/
def lapBoundary (s : State) : State := if (s.stride + 1) % 4000 = 0 then s.tick else s

end State

end Sys2Proof.Machine
end

