-- ==== Sys2Proof/Machine/Exec.lean ====
section
/-! DEFINITION. The units that a command names: what every meaning checks before it runs. A command that names
a slice, port, core or other unit that the device does not have stops under the unit's name. -/

namespace Sys2Proof.Machine

/-- Run a command that names host port `p` (R175). -/
def onPort (p : Nat) (s : State) : Res := if p < 2 then .next s else .fault (.noSuchPort p)

/-- Run a command that names host port `p` and slice `n`. -/
def onPortSlice (p n : Nat) (s : State) : Res := if p < 2 then onSlice n s else .fault (.noSuchPort p)

/-- Run a command that names core `c` (R436). -/
def onCore (c : Nat) (s : State) : Res := if c < 72 then .next s else .fault (.noSuchCore c)

/-- Run a command that names flash channel `c` (R327). -/
def onChannel (c : Nat) (s : State) : Res := if c < 32 then .next s else .fault (.noSuchMedia c)

/-- Run a command that names die `d`, or a block on it (R327). -/
def onDie (d : Nat) (s : State) : Res := if d < 512 then .next s else .fault (.noSuchMedia d)

/-- Run a command that names relay port `p` (R803). -/
def onRelayPort (p : Nat) (s : State) : Res := if p < 4 then .next s else .fault (.noSuchRelayPort p)

/-- Run a command that names unit `k` of `count`. -/
def onUnit (count k : Nat) (s : State) : Res := if k < count then .next s else .fault (.noSuchUnit k)

/-- Run a command of a requester (R16). -/
def byReq : Requester → State → Res
  | .port p, s => onPort p s
  | .core c, s => onCore c s
  | .smbus, s => .next s

/-- Run a command of a requester that names slice `n`. -/
def byReqSlice : Requester → Nat → State → Res
  | .port p, n, s => onPortSlice p n s
  | .core c, n, s => if c < 72 then onSlice n s else .fault (.noSuchCore c)
  | .smbus, n, s => onSlice n s

/-- Run a command of a requester that names flash channel `ch`. -/
def byReqChannel : Requester → Nat → State → Res
  | .port p, ch, s => if p < 2 then onChannel ch s else .fault (.noSuchPort p)
  | .core c, ch, s => if c < 72 then onChannel ch s else .fault (.noSuchCore c)
  | .smbus, ch, s => onChannel ch s

/-- Run a command on a recorder register set (R960). -/
def onSet : EvrSet → State → Res
  | .own n, s => onSlice n s
  | .mirror n, s => onSlice n s
  | .bar0, s => .next s
  | .smbus, s => .next s

namespace State

/-- The fabric hop that an admitted command's data crosses (R862, R993). -/
def hopFor (s : State) (c : CmdId) (h : Nat) : State := if (s.adm? c).isSome then s.onHop h else s

end State

end Sys2Proof.Machine
end

