-- ==== Sys2Proof/Machine/ExecCore.lean ====
section
/-! DEFINITION. The meanings of the Norsor core's commands. A row carries the word that the core fetched; the
word's bits select the operands (R465, R466). A word that belongs to another row is not this row's command and
leaves the state alone; a word whose opcode no row lists is an Illegal Instruction (R467, R488). -/

namespace Sys2Proof.Machine

/-! ### Which words a row has (R464 to R467, R475 to R477) -/

/-- The word's two low-address length bits say 16, 32 or 48 bits (R464). -/
def wordLenOk : RepWord → Bool
  | .w16 i => natBits i.toNat 15 15 = 0
  | .w32 i => natBits i.toNat 31 30 = 2
  | .w48 i => natBits i.toNat 47 46 = 3

/-- The opcode of a word. -/
def opcodeOf : RepWord → Nat
  | .w16 i => op16 i.toNat
  | .w32 i => op32 i.toNat
  | .w48 i => op48 i.toNat

/-- An opcode or operation that the spec's tables leave out (R467). -/
def undefinedWord (w : RepWord) : Bool := (State.illWord 0 {} w).contains 1

/-- A word of the row: its opcode lies from `lo` to `hi`. -/
def inRow (lo hi : Nat) (w : RepWord) : Bool := decide (lo ≤ opcodeOf w) && decide (opcodeOf w ≤ hi)

/-- A word of the SYS16 group: opcode 0 and operation `d` (R475). -/
def isSys (d : Nat) (i : BitVec 16) : Bool := op16 i.toNat = 0 && d16 i.toNat = d

/-- The encoded word of an MM or MD instruction. -/
def memWord : MemForm → RepWord
  | .mm i => .w32 i
  | .md i => .w48 i

/-- A word of a memory row: opcodes of its MM form and of its MD form. -/
def memRow (mmLo mmHi mdLo mdHi : Nat) : MemForm → Bool
  | .mm i => inRow mmLo mmHi (.w32 i)
  | .md i => inRow mdLo mdHi (.w48 i)

namespace State

/-- Run a word on a core where it is the row's (R488). -/
def runRow (s : State) (core : Nat) (own : Bool) (w : RepWord) : State :=
  if wordLenOk w && (own || undefinedWord w) then s.runWord coreBus core w else s

end State

/-! ### 16-bit instructions (R475) -/

/-- NOP (R475). -/
def execNop (core : Nat) (i : BitVec 16) (s : State) : Res :=
  onCore core (s.runRow core (isSys 1 i) (.w16 i))
/-- FENCE (R459). -/
def execFence (core : Nat) (i : BitVec 16) (s : State) : Res :=
  onCore core (s.runRow core (isSys 2 i) (.w16 i))
/-- IFENCE (R462). -/
def execIfence (core : Nat) (i : BitVec 16) (s : State) : Res :=
  onCore core (s.runRow core (isSys 3 i) (.w16 i))
/-- ERET (R491). -/
def execEret (core : Nat) (i : BitVec 16) (s : State) : Res :=
  onCore core (s.runRow core (isSys 4 i) (.w16 i))
/-- WAIT (R475). -/
def execWait (core : Nat) (i : BitVec 16) (s : State) : Res :=
  onCore core (s.runRow core (isSys 5 i) (.w16 i))
/-- HALT (R475). -/
def execHalt (core : Nat) (i : BitVec 16) (s : State) : Res :=
  onCore core (s.runRow core (isSys 6 i) (.w16 i))
/-- MOV (R475). -/
def execMov (core : Nat) (i : BitVec 16) (s : State) : Res :=
  onCore core (s.runRow core (inRow 0x01 0x01 (.w16 i)) (.w16 i))
/-- ALU_RR (R475). -/
def execAluRr (core : Nat) (i : BitVec 16) (s : State) : Res :=
  onCore core (s.runRow core (inRow 0x02 0x07 (.w16 i)) (.w16 i))
/-- SHIFT_RR (R475). -/
def execShiftRr (core : Nat) (i : BitVec 16) (s : State) : Res :=
  onCore core (s.runRow core (inRow 0x08 0x0A (.w16 i)) (.w16 i))
/-- MUL_RR (R475). -/
def execMulRr (core : Nat) (i : BitVec 16) (s : State) : Res :=
  onCore core (s.runRow core (inRow 0x0B 0x0B (.w16 i)) (.w16 i))
/-- UNARY (R475). -/
def execUnary (core : Nat) (i : BitVec 16) (s : State) : Res :=
  onCore core (s.runRow core (inRow 0x0C 0x0C (.w16 i)) (.w16 i))
/-- ADDI5 (R475). -/
def execAddi5 (core : Nat) (i : BitVec 16) (s : State) : Res :=
  onCore core (s.runRow core (inRow 0x0D 0x0D (.w16 i)) (.w16 i))
/-- MOVI5 (R475). -/
def execMovi5 (core : Nat) (i : BitVec 16) (s : State) : Res :=
  onCore core (s.runRow core (inRow 0x0E 0x0E (.w16 i)) (.w16 i))
/-- LD_RR (R475). -/
def execLdRr (core : Nat) (i : BitVec 16) (s : State) : Res :=
  onCore core (s.runRow core (inRow 0x0F 0x0F (.w16 i)) (.w16 i))
/-- ST_RR (R475). -/
def execStRr (core : Nat) (i : BitVec 16) (s : State) : Res :=
  onCore core (s.runRow core (inRow 0x10 0x10 (.w16 i)) (.w16 i))
/-- JR (R475). -/
def execJr (core : Nat) (i : BitVec 16) (s : State) : Res :=
  onCore core (s.runRow core (inRow 0x11 0x11 (.w16 i)) (.w16 i))
/-- JALR (R475). -/
def execJalr (core : Nat) (i : BitVec 16) (s : State) : Res :=
  onCore core (s.runRow core (inRow 0x12 0x12 (.w16 i)) (.w16 i))
/-- ADD_B_SUB_B (R480). -/
def execAddBSubB (core : Nat) (i : BitVec 16) (s : State) : Res :=
  onCore core (s.runRow core (inRow 0x13 0x14 (.w16 i)) (.w16 i))
/-- DAA_B (R528). -/
def execDaaB (core : Nat) (i : BitVec 16) (s : State) : Res :=
  onCore core (s.runRow core (inRow 0x15 0x15 (.w16 i)) (.w16 i))
/-- DAS_B (R528). -/
def execDasB (core : Nat) (i : BitVec 16) (s : State) : Res :=
  onCore core (s.runRow core (inRow 0x16 0x16 (.w16 i)) (.w16 i))

/-! ### 32-bit instructions (R476) -/

/-- ALU_TR (R476). -/
def execAluTr (core : Nat) (i : BitVec 32) (s : State) : Res :=
  onCore core (s.runRow core (inRow 0x00 0x07 (.w32 i)) (.w32 i))
/-- SHIFT_TR (R476). -/
def execShiftTr (core : Nat) (i : BitVec 32) (s : State) : Res :=
  onCore core (s.runRow core (inRow 0x08 0x0B (.w32 i)) (.w32 i))
/-- MUL_TR (R476). -/
def execMulTr (core : Nat) (i : BitVec 32) (s : State) : Res :=
  onCore core (s.runRow core (inRow 0x0C 0x0E (.w32 i)) (.w32 i))
/-- CMP (R476). -/
def execCmp (core : Nat) (i : BitVec 32) (s : State) : Res :=
  onCore core (s.runRow core (inRow 0x0F 0x0F (.w32 i)) (.w32 i))
/-- DIVU_DIVS_REMU_REMS (R481). -/
def execDivuDivsRemuRems (core : Nat) (i : BitVec 32) (s : State) : Res :=
  onCore core (s.runRow core (inRow 0x10 0x13 (.w32 i)) (.w32 i))
/-- ADDI (R476). -/
def execAddi (core : Nat) (i : BitVec 32) (s : State) : Res :=
  onCore core (s.runRow core (inRow 0x14 0x14 (.w32 i)) (.w32 i))
/-- ANDI_ORI_XORI (R476). -/
def execAndiOriXori (core : Nat) (i : BitVec 32) (s : State) : Res :=
  onCore core (s.runRow core (inRow 0x15 0x17 (.w32 i)) (.w32 i))
/-- SHLI_SHRI_SARI (R476). -/
def execShliShriSari (core : Nat) (i : BitVec 32) (s : State) : Res :=
  onCore core (s.runRow core (inRow 0x18 0x1A (.w32 i)) (.w32 i))
/-- CMPI (R476). -/
def execCmpi (core : Nat) (i : BitVec 32) (s : State) : Res :=
  onCore core (s.runRow core (inRow 0x1B 0x1B (.w32 i)) (.w32 i))
/-- MOVI (R476). -/
def execMovi (core : Nat) (i : BitVec 32) (s : State) : Res :=
  onCore core (s.runRow core (inRow 0x1C 0x1C (.w32 i)) (.w32 i))
/-- RDSR (R443). -/
def execRdsr (core : Nat) (i : BitVec 32) (s : State) : Res :=
  onCore core (s.runRow core (inRow 0x1D 0x1D (.w32 i)) (.w32 i))
/-- WRSR (R447). -/
def execWrsr (core : Nat) (i : BitVec 32) (s : State) : Res :=
  onCore core (s.runRow core (inRow 0x1E 0x1E (.w32 i)) (.w32 i))
/-- RDFEAT (R486). -/
def execRdfeat (core : Nat) (i : BitVec 32) (s : State) : Res :=
  onCore core (s.runRow core (inRow 0x1F 0x1F (.w32 i)) (.w32 i))
/-- SWAP (R460). -/
def execSwap (core : Nat) (i : BitVec 32) (s : State) : Res :=
  onCore core (s.runRow core (inRow 0x2E 0x2E (.w32 i)) (.w32 i))
/-- CAS (R460). -/
def execCas (core : Nat) (i : BitVec 32) (s : State) : Res :=
  onCore core (s.runRow core (inRow 0x2F 0x2F (.w32 i)) (.w32 i))
/-- FADD (R460). -/
def execFadd (core : Nat) (i : BitVec 32) (s : State) : Res :=
  onCore core (s.runRow core (inRow 0x30 0x30 (.w32 i)) (.w32 i))
/-- B (R478). -/
def execB (core : Nat) (i : BitVec 32) (s : State) : Res :=
  onCore core (s.runRow core (inRow 0x31 0x31 (.w32 i)) (.w32 i))
/-- JAL (R476). -/
def execJal (core : Nat) (i : BitVec 32) (s : State) : Res :=
  onCore core (s.runRow core (inRow 0x32 0x32 (.w32 i)) (.w32 i))
/-- ADDPR_SUBPR_MULPR (R527). -/
def execAddprSubprMulpr (core : Nat) (i : BitVec 32) (s : State) : Res :=
  onCore core (s.runRow core (inRow 0x38 0x3A (.w32 i)) (.w32 i))
/-- CMPPR (R527). -/
def execCmppr (core : Nat) (i : BitVec 32) (s : State) : Res :=
  onCore core (s.runRow core (inRow 0x3B 0x3B (.w32 i)) (.w32 i))

/-! ### Loads, stores and LEA (R468 to R474) -/

/-- LOAD_INSTRUCTION (R457). -/
def execLoadInstruction (core : Nat) (w : MemForm) (s : State) : Res :=
  onCore core (s.runRow core (memRow 0x20 0x27 0x08 0x0F w) (memWord w))
/-- STORE_INSTRUCTION (R473). -/
def execStoreInstruction (core : Nat) (w : MemForm) (s : State) : Res :=
  onCore core (s.runRow core (memRow 0x28 0x2C 0x10 0x14 w) (memWord w))
/-- LEA (R476). -/
def execLea (core : Nat) (w : MemForm) (s : State) : Res :=
  onCore core (s.runRow core (memRow 0x2D 0x2D 0x15 0x15 w) (memWord w))

/-! ### 48-bit instructions (R477, R512) -/

/-- MOVI32 (R477). -/
def execMovi32 (core : Nat) (i : BitVec 48) (s : State) : Res :=
  onCore core (s.runRow core (inRow 0x00 0x00 (.w48 i)) (.w48 i))
/-- MOVHI32 (R477). -/
def execMovhi32 (core : Nat) (i : BitVec 48) (s : State) : Res :=
  onCore core (s.runRow core (inRow 0x01 0x01 (.w48 i)) (.w48 i))
/-- ADDI32 (R477). -/
def execAddi32 (core : Nat) (i : BitVec 48) (s : State) : Res :=
  onCore core (s.runRow core (inRow 0x02 0x02 (.w48 i)) (.w48 i))
/-- CMPI32 (R477). -/
def execCmpi32 (core : Nat) (i : BitVec 48) (s : State) : Res :=
  onCore core (s.runRow core (inRow 0x03 0x03 (.w48 i)) (.w48 i))
/-- ADDP (R512). -/
def execAddp (core : Nat) (i : BitVec 48) (s : State) : Res :=
  onCore core (s.runRow core (inRow 0x20 0x20 (.w48 i)) (.w48 i))
/-- SUBP (R512). -/
def execSubp (core : Nat) (i : BitVec 48) (s : State) : Res :=
  onCore core (s.runRow core (inRow 0x21 0x21 (.w48 i)) (.w48 i))
/-- MULP (R512). -/
def execMulp (core : Nat) (i : BitVec 48) (s : State) : Res :=
  onCore core (s.runRow core (inRow 0x22 0x22 (.w48 i)) (.w48 i))
/-- DIVP (R513). -/
def execDivp (core : Nat) (i : BitVec 48) (s : State) : Res :=
  onCore core (s.runRow core (inRow 0x23 0x23 (.w48 i)) (.w48 i))
/-- CMPP (R515). -/
def execCmpp (core : Nat) (i : BitVec 48) (s : State) : Res :=
  onCore core (s.runRow core (inRow 0x24 0x24 (.w48 i)) (.w48 i))
/-- MOVP (R512). -/
def execMovp (core : Nat) (i : BitVec 48) (s : State) : Res :=
  onCore core (s.runRow core (inRow 0x25 0x25 (.w48 i)) (.w48 i))
/-- PACK (R512). -/
def execPack (core : Nat) (i : BitVec 48) (s : State) : Res :=
  onCore core (s.runRow core (inRow 0x26 0x26 (.w48 i)) (.w48 i))
/-- UNPK (R517). -/
def execUnpk (core : Nat) (i : BitVec 48) (s : State) : Res :=
  onCore core (s.runRow core (inRow 0x27 0x27 (.w48 i)) (.w48 i))
/-- EDIT (R520). -/
def execEdit (core : Nat) (i : BitVec 48) (s : State) : Res :=
  onCore core (s.runRow core (inRow 0x28 0x28 (.w48 i)) (.w48 i))
/-- SHFP (R514). -/
def execShfp (core : Nat) (i : BitVec 48) (s : State) : Res :=
  onCore core (s.runRow core (inRow 0x29 0x29 (.w48 i)) (.w48 i))
/-- CVBP (R512). -/
def execCvbp (core : Nat) (i : BitVec 48) (s : State) : Res :=
  onCore core (s.runRow core (inRow 0x2A 0x2A (.w48 i)) (.w48 i))
/-- CVPB (R516). -/
def execCvpb (core : Nat) (i : BitVec 48) (s : State) : Res :=
  onCore core (s.runRow core (inRow 0x2B 0x2B (.w48 i)) (.w48 i))

/-! ### The repeats, the service calls and the requests -/

/-- REP_I (R533), followed by the word it repeats. -/
def execRepI (core : Nat) (i : BitVec 32) (r : RepWord) (s : State) : Res :=
  onCore core (if wordLenOk (.w32 i) && inRow 0x33 0x33 (.w32 i) && wordLenOk r then s.runRepI State.coreBus core i r else s)
/-- REP_U (R541), followed by the word it repeats. -/
def execRepU (core : Nat) (i : BitVec 32) (r : RepWord) (s : State) : Res :=
  onCore core (if wordLenOk (.w32 i) && inRow 0x34 0x34 (.w32 i) && wordLenOk r then s.runRepU State.coreBus core i r else s)
/-- SVC (R575, R490): a service call's entry. -/
def execSvc (core : Nat) (i : BitVec 32) (s : State) : Res :=
  onCore core (if wordLenOk (.w32 i) && inRow 0x35 0x35 (.w32 i) then s.runSvc State.coreBus core i else s)
/-- SVC_EXIT (R573): the heat runtime's handling of service 0x000. -/
def execSvcExit (core : Nat) (s : State) : Res := onCore core (s.svcExit core)
/-- SVC_BARRIER (R574): service 0x001. -/
def execSvcBarrier (core : Nat) (s : State) : Res := onCore core (s.svcWait core 1 .barrier)
/-- SVC_YIELD (R573): service 0x002. -/
def execSvcYield (core : Nat) (s : State) : Res := onCore core (s.svcWait core 2 .yield)
/-- BUDGET_EXHAUSTED (R493). -/
def execBudgetExhausted (core : Nat) (s : State) : Res := onCore core (s.budgetEntry core)
/-- STOP (R492). -/
def execStop (core : Nat) (s : State) : Res := onCore core (s.request core true)
/-- SUSPEND (R492). -/
def execSuspend (core : Nat) (s : State) : Res := onCore core (s.request core false)

end Sys2Proof.Machine
end

