-- ==== Sys2Proof/Machine/ExecDevice.lean ====
section
/-! DEFINITION. The meanings of the commands of power, the event recorder, start-up, firmware, device faults, the
SMBus port and boundary scan. -/

namespace Sys2Proof.Machine

namespace State

/-- The port of a recorder register set, and the space and offset at which the set stands (R960). -/
def setPlace (s : State) : EvrSet → Requester × Space × Nat
  | .bar0 => (.port s.mgrPort, .bar0, 0x1800000)
  | .own n => (.port (s.slice n).port, .bar2, n * 0x100000 + 0x1000)
  | .mirror n => (.port (s.slice n).port, .bar2, n * 0x100000 + 0x2000)
  | .smbus => (.smbus, .bar0, 0x1800000)

/-- A read of EVR_CHECK through a set (R948, R960). -/
def setCheck (s : State) (set : EvrSet) : State :=
  let p := s.setPlace set
  s.reg64Read p.1 p.2.1 (p.2.2 + 0x30) 4

/-- A write of EVR_FREEZE through a set (R951, R952, R960). -/
def setFreeze (s : State) (set : EvrSet) (v : BitVec 64) : State :=
  let p := s.setPlace set
  s.regWrite p.1 p.2.1 (p.2.2 + 0x34) 4 v

/-- FREEZE_EXPIRY: a freeze has stood for 4,000 strides (R952). -/
def freezeExpiry (s : State) (i : Option Nat) : State :=
  match (s.recorder i).frozenAt with
  | some t => if t + 4000 ≤ s.stride then s.evrThaw i else s
  | none => s

/-- A device fault of a source of R977. -/
def faultOf (s : State) (src : Nat) : State := if s.dev.run = .started then s.raiseFault src else s

end State

/-- Run a command that names a recorder: the device's, or slice `n`'s (R933). -/
def onRecorder : Option Nat → State → Res
  | some n, s => onSlice n s
  | none, s => .next s

/-! ### Power -/

/-- WAKE (R918). -/
def execWake (req : Requester) (s : State) : Res := byReq req (s.cmdWake req)
/-- PWR_TIMER_EXPIRY (R918). -/
def execPwrTimerExpiry (s : State) : Res := .next s.timerExpiry
/-- REFRESH_WAKE (R919). -/
def execRefreshWake (s : State) : Res := .next s.refreshWakeDue
/-- POWER_ENTRY_BEGIN (R910). -/
def execPowerEntryBegin (s : State) : Res := .next s.powerEntryBegin
/-- POWER_STATE_REACHED (R912): the SMBus values are latched at entry to P3 and P4 (R1039). -/
def execPowerStateReached (s : State) : Res := .next (s.powerStateReached State.latchBasic)
/-- POWER_EXIT_COMPLETE (R927). -/
def execPowerExitComplete (env : ExitEnv) (s : State) : Res := .next (s.powerExitComplete env.start)
/-- CLUSTER_PLL_LOCK (R930). -/
def execClusterPllLock (cluster : Nat) (s : State) : Res := onUnit 8 cluster (s.pllLock cluster)
/-- PCIE_L1_EXIT (R918). -/
def execPcieL1Exit (p : Nat) (s : State) : Res := onPort p s.l1Exit

/-! ### The event recorder -/

/-- EVR_CHECK_READ (R948). -/
def execEvrCheckRead (set : EvrSet) (s : State) : Res := onSet set (s.setCheck set)
/-- FREEZE_RING (R951). -/
def execFreezeRing (set : EvrSet) (s : State) : Res := onSet set (s.setFreeze set 1)
/-- RELEASE (R952). -/
def execRelease (set : EvrSet) (s : State) : Res := onSet set (s.setFreeze set 2)
/-- FREEZE_EXPIRY (R952). -/
def execFreezeExpiry (inst : Option Nat) (s : State) : Res := onRecorder inst (s.freezeExpiry inst)
/-- EVR_CLEAR (R954). -/
def execEvrClear (req : Requester) (v : BitVec 32) (s : State) : Res :=
  byReq req (s.regWrite req .bar0 0x1800038 4 (v.setWidth 64))

/-! ### Start-up, firmware and device faults -/

/-- COLD_START (R21). -/
def execColdStart (s : State) : Res := .next s.coldStart
/-- STARTER_BEGIN (R1018). -/
def execStarterBegin (env : StartEnv) (s : State) : Res := .next (s.starterBegin env)
/-- FW_LOAD (R987). -/
def execFwLoad (req : Requester) (d : Fetch) (s : State) : Res := byReq req (s.cmdFwLoad req d)
/-- FW_ACTIVATE (R988). -/
def execFwActivate (req : Requester) (s : State) : Res := byReq req (s.cmdFwActivate req)
/-- FW_CONFIRM (R989). -/
def execFwConfirm (req : Requester) (s : State) : Res := byReq req (s.cmdFwConfirm req)
/-- RESTART (R990). -/
def execRestart (req : Requester) (s : State) : Res := byReq req (s.cmdRestart req)
/-- DEVICE_FAULT (R978), of sources 1 to 5 (R977). -/
def execDeviceFault (src : Nat) (s : State) : Res :=
  if 1 ≤ src ∧ src ≤ 5 then .next (s.faultOf src) else .fault (.noSuchUnit src)
/-- WATCHDOG_EXPIRY (R977). -/
def execWatchdogExpiry (s : State) : Res := .next s.watchdogExpiry
/-- FAULT_FLUSH_END (R981). -/
def execFaultFlushEnd (s : State) : Res := .next s.faultFlushEnd

/-! ### The SMBus port and boundary scan -/

/-- SMBUS_BASIC_MANAGEMENT (R1037). -/
def execSmbusBasicManagement (code : Nat) (s : State) : Res := .next (s.smbusBasic code)
/-- SMBUS_SELECT_WRITE (R1038). -/
def execSmbusSelectWrite (v : Nat) (pecOk : Bool) (s : State) : Res := .next (s.smbusSelect v pecOk)
/-- SMBUS_BLOCK_READ (R1038). -/
def execSmbusBlockRead (s : State) : Res := .next s.smbusRead
/-- SMBUS_BLOCK_WRITE (R1038). -/
def execSmbusBlockWrite (count : Nat) (v : BitVec 32) (pecOk : Bool) (s : State) : Res :=
  .next (s.smbusWrite count v pecOk)
/-- EXTEST (R1044). -/
def execExtest (s : State) : Res := .next (s.tapDrive 0x00)
/-- IDCODE (R1043). -/
def execIdcode (s : State) : Res := .next (s.tapPublic 0x01)
/-- SAMPLE_PRELOAD (R1042). -/
def execSamplePreload (s : State) : Res := .next (s.tapPublic 0x02)
/-- HIGHZ (R1042). -/
def execHighz (s : State) : Res := .next (s.tapPublic 0x08)
/-- CLAMP (R1044). -/
def execClamp (s : State) : Res := .next (s.tapDrive 0x09)
/-- BYPASS (R1042). -/
def execBypass (s : State) : Res := .next (s.tapPublic 0xFF)
/-- DEBUG_INSTRUCTION (R1044). -/
def execDebugInstruction (code : Nat) (s : State) : Res := .next (s.tapDebug code)
/-- TAP_RESET (R1042). -/
def execTapReset (s : State) : Res := .next s.tapReset

end Sys2Proof.Machine
end

