-- ==== Sys2Proof/Machine/ExecHost.lean ====
section
/-! DEFINITION. The meanings of the port events, the controller commands, and the admin and I/O commands of
NVMe. A command of a queue acts once it has been admitted, and leaves the state alone otherwise. -/

namespace Sys2Proof.Machine

/-! ### Ports and controllers -/

/-- FLR (R183). -/
def execFlr (p : Nat) (s : State) : Res := onPort p (s.flr p)
/-- HOT_RESET (R183). -/
def execHotReset (p : Nat) (s : State) : Res := onPort p (s.hotReset p)
/-- PERST_ASSERTED (R1035). -/
def execPerstAsserted (p : Nat) (s : State) : Res := onPort p (s.perstAsserted p)
/-- PERST_RELEASED (R1034). -/
def execPerstReleased (p : Nat) (s : State) : Res := onPort p (s.perstReleased p)
/-- LINK_UP (R246). -/
def execLinkUp (p speed width : Nat) (flit : Bool) (bar4 : Nat) (s : State) : Res :=
  onPort p (s.linkUp p speed width flit bar4)
/-- BUS_MASTER_ENABLE (R185). -/
def execBusMasterEnable (p : Nat) (on : Bool) (s : State) : Res := onPort p (s.busMaster p on)
/-- CC_ENABLE (R189): a write of CC with EN 1. -/
def execCcEnable (p n : Nat) (v : BitVec 32) (s : State) : Res :=
  onPortSlice p n (if natBit v.toNat 0 then s.ccWrite p n v else s)
/-- CC_DISABLE (R190): a write of CC with EN 0. -/
def execCcDisable (p n : Nat) (v : BitVec 32) (s : State) : Res :=
  onPortSlice p n (if natBit v.toNat 0 then s else s.ccWrite p n v)
/-- CC_SHUTDOWN (R191): a write of CC with SHN 0b01 or 0b10. -/
def execCcShutdown (p n : Nat) (v : BitVec 32) (s : State) : Res :=
  onPortSlice p n (if natBits v.toNat 15 14 = 1 || natBits v.toNat 15 14 = 2 then s.ccWrite p n v else s)
/-- SHUTDOWN_COMPLETE (R191). -/
def execShutdownComplete (n : Nat) (s : State) : Res := onSlice n (s.endShutdown n)
/-- HOST_BUS_ERROR (R193). -/
def execHostBusError (n : Nat) (s : State) : Res := onSlice n (s.hostBus n)
/-- DATA_TRANSFER_ERROR (R1054). -/
def execDataTransferError (c : CmdId) (s : State) : Res := onSlice c.slice (s.dataError c)

/-! ### Admin commands -/

/-- DELETE_IO_SUBMISSION_QUEUE (R209). -/
def execDeleteIoSubmissionQueue (c : CmdId) (s : State) : Res := onSlice c.slice (s.deleteSq c)
/-- CREATE_IO_SUBMISSION_QUEUE (R207). -/
def execCreateIoSubmissionQueue (c : CmdId) (s : State) : Res := onSlice c.slice (s.createSq c)
/-- GET_LOG_PAGE (R428). -/
def execGetLogPage (c : CmdId) (s : State) : Res := onSlice c.slice (s.getLog c)
/-- DELETE_IO_COMPLETION_QUEUE (R198). -/
def execDeleteIoCompletionQueue (c : CmdId) (s : State) : Res := onSlice c.slice (s.deleteCq c)
/-- CREATE_IO_COMPLETION_QUEUE (R205). -/
def execCreateIoCompletionQueue (c : CmdId) (s : State) : Res := onSlice c.slice (s.createCq c)
/-- IDENTIFY (R197). -/
def execIdentify (c : CmdId) (s : State) : Res := onSlice c.slice (s.identify c)
/-- ABORT (R226). -/
def execAbort (c : CmdId) (s : State) : Res := onSlice c.slice (s.takeAbort c)
/-- SET_FEATURES (R199). -/
def execSetFeatures (c : CmdId) (s : State) : Res := onSlice c.slice (s.setFeatures c)
/-- GET_FEATURES (R199). -/
def execGetFeatures (c : CmdId) (s : State) : Res := onSlice c.slice (s.getFeatures c)
/-- ASYNCHRONOUS_EVENT_REQUEST (R212). -/
def execAsynchronousEventRequest (c : CmdId) (s : State) : Res := onSlice c.slice (s.takeAer c)
/-- NAMESPACE_MANAGEMENT (R325). -/
def execNamespaceManagement (c : CmdId) (d : NsCreate) (s : State) : Res := onSlice c.slice (s.manageNs c d)
/-- NAMESPACE_ATTACHMENT (R198). -/
def execNamespaceAttachment (c : CmdId) (ctrls : List Nat) (s : State) : Res := onSlice c.slice (s.attachNs c ctrls)
/-- FORMAT_NVM (R268). -/
def execFormatNvm (c : CmdId) (s : State) : Res := onSlice c.slice (s.format c)
/-- SANITIZE (R411). -/
def execSanitize (c : CmdId) (s : State) : Res := onSlice c.slice (s.sanitize c)
/-- KEY_DELIVERY (R760). -/
def execKeyDelivery (c : CmdId) (d : Fetch) (s : State) : Res := onSlice c.slice (s.keyDelivery c d)
/-- ATTESTATION_REPORT (R792). -/
def execAttestationReport (c : CmdId) (s : State) : Res := onSlice c.slice (s.attestationReport c)
/-- HEAT_PROGRAM_LOAD (R554). -/
def execHeatProgramLoad (c : CmdId) (d : Fetch) (s : State) : Res := onSlice c.slice (s.heatProgramLoad c d)
/-- PATTERN_TABLE_LOAD (R682). -/
def execPatternTableLoad (c : CmdId) (d : Fetch) (s : State) : Res := onSlice c.slice (s.patternTableLoad c d)

/-! ### I/O commands -/

/-- FLUSH (R198). -/
def execFlush (c : CmdId) (s : State) : Res := onSlice c.slice (s.ioFlush c)
/-- WRITE (R259): its data crosses the hop from the host interface to the write buffer. -/
def execWrite (c : CmdId) (d : List BlockData) (s : State) : Res := onSlice c.slice ((s.hopFor c 0).ioWrite c d)
/-- READ (R266): its data crosses the hop from the flash channels to the host interface. -/
def execRead (c : CmdId) (s : State) : Res := onSlice c.slice ((s.hopFor c 2).ioRead c)
/-- COMPARE (R266). -/
def execCompare (c : CmdId) (d : List BlockData) (s : State) : Res := onSlice c.slice ((s.hopFor c 2).ioCompare c d)
/-- WRITE_ZEROES (R267). -/
def execWriteZeroes (c : CmdId) (s : State) : Res := onSlice c.slice (s.ioWriteZeroes c)
/-- DATASET_MANAGEMENT (R234). -/
def execDatasetManagement (c : CmdId) (rs : List LbaRange) (s : State) : Res := onSlice c.slice (s.ioDataset c rs)
/-- VERIFY (R381). -/
def execVerify (c : CmdId) (s : State) : Res := onSlice c.slice (s.ioVerify c)
/-- RESERVATION_REGISTER (R198). -/
def execReservationRegister (c : CmdId) (d : ResvKeys) (s : State) : Res := onSlice c.slice (s.resvRegister c d)
/-- RESERVATION_REPORT (R198). -/
def execReservationReport (c : CmdId) (s : State) : Res := onSlice c.slice (s.resvReport c)
/-- RESERVATION_ACQUIRE (R198). -/
def execReservationAcquire (c : CmdId) (d : ResvKeys) (s : State) : Res := onSlice c.slice (s.resvAcquire c d)
/-- RESERVATION_RELEASE (R198). -/
def execReservationRelease (c : CmdId) (d : ResvKeys) (s : State) : Res := onSlice c.slice (s.resvRelease c d)
/-- LEDGER_POST (R281). -/
def execLedgerPost (c : CmdId) (s : State) : Res := onSlice c.slice (s.ioPost c)
/-- LEDGER_POST_LIST_ARRIVAL (R282): list and data cross the hop to the write buffer. -/
def execLedgerPostListArrival (c : CmdId) (list : Fetch) (d : List BlockData) (s : State) : Res :=
  onSlice c.slice ((s.hopFor c 0).ioPostList c list d)

/-! ### Commands of the engines -/

/-- HEAT_RUN (R560). -/
def execHeatRun (c : CmdId) (s : State) : Res := onSlice c.slice (s.heatRun c)
/-- HEAT_DESCRIPTOR_ARRIVAL (R561). -/
def execHeatDescriptorArrival (c : CmdId) (d : Fetch) (s : State) : Res := onSlice c.slice (s.heatDescriptor c d)
/-- HURDLE_RUN (R596). -/
def execHurdleRun (c : CmdId) (s : State) : Res := onSlice c.slice (s.hurdleRun c)
/-- HURDLE_DESCRIPTOR_ARRIVAL (R597): the scan's input crosses the hop from the flash channels to the hurdle
stages. -/
def execHurdleDescriptorArrival (c : CmdId) (d : Fetch) (s : State) : Res :=
  onSlice c.slice ((s.hopFor c 3).hurdleDescriptor c d)
/-- PATTERN_SEARCH (R672). -/
def execPatternSearch (c : CmdId) (s : State) : Res := onSlice c.slice (s.patternSearch c)
/-- PATTERN_STEP (R677). -/
def execPatternStep (c : CmdId) (s : State) : Res := onSlice c.slice (s.patternStep c)
/-- PATTERN_SEARCH_BEGIN (R669). -/
def execPatternSearchBegin (c : CmdId) (hdr input : Fetch) (s : State) : Res :=
  onSlice c.slice (s.patternBegin c hdr input)
/-- CIPHER_TRANSFORM (R711). -/
def execCipherTransform (c : CmdId) (s : State) : Res := onSlice c.slice (s.cipherTransform c)
/-- CIPHER_TRAILER_ARRIVAL (R711): the source crosses the hop from the DRAM controller to the cipher engine. -/
def execCipherTrailerArrival (c : CmdId) (src : Fetch) (s : State) : Res :=
  onSlice c.slice ((s.hopFor c 5).cipherArrival c src)
/-- DIGEST (R771). -/
def execDigest (c : CmdId) (s : State) : Res := onSlice c.slice (s.digest c)
/-- DIGEST_BATON_ARRIVAL (R774). -/
def execDigestBatonArrival (c : CmdId) (src : Fetch) (s : State) : Res := onSlice c.slice (s.digestArrival c src)
/-- HEAT_STAGED (R562). -/
def execHeatStaged (c : CmdId) (s : State) : Res := onSlice c.slice (s.heatStaged c)
/-- HEAT_LOADING_START (R564). -/
def execHeatLoadingStart (c : CmdId) (s : State) : Res := onSlice c.slice (s.heatLoading c)
/-- HEAT_RUNNING_START (R566): program and input cross the hop from the DRAM controller to the clusters. -/
def execHeatRunningStart (c : CmdId) (s : State) : Res := onSlice c.slice ((s.hopFor c 4).heatRunning c)
/-- HEAT_DELIVERED (R581). -/
def execHeatDelivered (c : CmdId) (ok : Bool) (s : State) : Res := onSlice c.slice (s.heatDelivered c ok)
/-- HEAT_STOP (R586). -/
def execHeatStop (p n : Nat) (v : BitVec 32) (s : State) : Res := onPortSlice p n (s.cmdHeatStop p n v.toNat)
/-- HDL_STOP (R631). -/
def execHdlStop (p n : Nat) (v : BitVec 32) (s : State) : Res := onPortSlice p n (s.cmdHdlStop p n v.toNat)
/-- PATTERN_WRITE_PHASE (R683). -/
def execPatternWritePhase (c : CmdId) (s : State) : Res := onSlice c.slice (s.patternWrite c)
/-- PATTERN_APPLY_PHASE (R683). -/
def execPatternApplyPhase (c : CmdId) (s : State) : Res := onSlice c.slice (s.patternApply c)

end Sys2Proof.Machine
end

