-- ==== Sys2Proof/Machine/ExecRelay.lean ====
section
/-! DEFINITION. The meanings of the relay's commands: link events, the messages that arrive, and what the device
is told to send. -/

namespace Sys2Proof.Machine

namespace State

/-- What the frames of a message do (R806). The data of a post or a copy crosses the hop from the relay to the write buffer
(R993). -/
def frameAct (s : State) : RelayIn → State
  | .hello p h => s.hello p h
  | .linkOffer p m => s.linkOffer p m
  | .linkAnswer p m => s.linkAnswer p m
  | .fieldKey p head epoch key => s.fieldKey p head epoch key
  | .pace p m => s.pace p m
  | .summary p m => s.summary p m
  | .roster p img => s.rosterMsg p img
  | .postReq src _ m => (s.onHop 6).postReq src m
  | .postAck src n pairSeq cause => s.postAck src n pairSeq cause.toNat
  | .resync src _ m => (s.onHop 6).postReq src m
  | .pairConfirm src msg nextSeq primary partner => s.pairConfirm src msg nextSeq primary partner
  | .migOffer src _ m _ _ => s.migOffer src m
  | .migReply src n cause serial => s.migReply src n cause.toNat serial
  | .migBaton src msg m b => s.migBaton src msg m b
  | .migData src msg m r => s.migData src msg m r
  | .migCommit src _ m count digest => s.migCommit src m count digest
  | .migCommitted src m => s.migCommitted src m
  | .migErased src _ m => s.migErased src m
  | .migErasedAck src m => s.migErasedAck src m
  | .migAbort src msg m _ => s.migAbort src msg m
  | .ack src msg result => s.ackMsg src msg result.toNat

/-- A frame of an enabled port passes the injector and is acted on (R803, R993). -/
def linkFrame (s : State) (p : Nat) (c : RelayIn) : State :=
  if s.relayRuns && s.portEnabled p then s.onFrame p frameAct c else s

/-- A routed message passes the injector of the port that it arrives by (R807, R993). -/
def routedFrame (s : State) (src : Nat) (c : RelayIn) : State :=
  if s.relayRuns then s.onFrame (s.portFrom src) frameAct c else s

/-- SUMMARY_SEND, of a device that has its relay running (R821). -/
def summaryDue (s : State) : State := if s.relayRuns then s.summarySend else s

/-- PPS_EDGE, on a variant with the field features (R6, R1026). -/
def ppsIn (s : State) (ft : Int) (refCycles : Nat) : State := if s.hasField then s.ppsEdge ft refCycles else s

end State

/-! ### Link events -/

/-- PHY_UP (R814). -/
def execPhyUp (p : Nat) (chal : Bytes) (s : State) : Res := onRelayPort p (s.phyUp p chal)
/-- PHY_DOWN (R814). -/
def execPhyDown (p : Nat) (s : State) : Res := onRelayPort p (s.phyDown p)
/-- LINK_SILENT (R814). -/
def execLinkSilent (p : Nat) (s : State) : Res := onRelayPort p (s.linkSilent p)
/-- HELLO_REPEAT (R814). -/
def execHelloRepeat (p : Nat) (s : State) : Res := onRelayPort p (s.helloRepeat p)
/-- SUMMARY_SEND (R821). -/
def execSummarySend (s : State) : Res := .next s.summaryDue
/-- PAIR_CONFIRM_SEND (R845). -/
def execPairConfirmSend (n : Nat) (s : State) : Res := onSlice n (s.pairConfirmSend n)
/-- RETRANSMIT_TIMEOUT (R809). -/
def execRetransmitTimeout (msg : Nat) (s : State) : Res := .next (s.retransmit msg)
/-- PEER_DECLARED_LOST (R824). -/
def execPeerDeclaredLost (addr : Nat) (cause : BitVec 8) (s : State) : Res :=
  .next (s.peerDeclaredLost addr cause.toNat)
/-- RELAY_FRAME_DISCARD (R804). -/
def execRelayFrameDiscard (p : Nat) (why : FrameDrop) (s : State) : Res := onRelayPort p (s.frameDiscard p why)

/-! ### Messages between neighbours -/

/-- HELLO (R815). -/
def execHello (p : Nat) (h : HelloMsg) (s : State) : Res := onRelayPort p (s.linkFrame p (.hello p h))
/-- LINK_OFFER (R816). -/
def execLinkOffer (p : Nat) (m : LinkMsg) (s : State) : Res :=
  onRelayPort p (s.linkFrame p (.linkOffer p m))
/-- LINK_ANSWER (R817). -/
def execLinkAnswer (p : Nat) (m : LinkMsg) (s : State) : Res :=
  onRelayPort p (s.linkFrame p (.linkAnswer p m))
/-- FIELD_KEY (R820). -/
def execFieldKey (p head epoch : Nat) (key : Bytes) (s : State) : Res :=
  onRelayPort p (s.linkFrame p (.fieldKey p head epoch key))
/-- PACE (R834). -/
def execPace (p : Nat) (m : PaceMsg) (s : State) : Res := onRelayPort p (s.linkFrame p (.pace p m))
/-- SUMMARY (R821). -/
def execSummary (p : Nat) (m : SummaryMsg) (s : State) : Res :=
  onRelayPort p (s.linkFrame p (.summary p m))
/-- ROSTER (R812). -/
def execRoster (p : Nat) (img : Bytes) (s : State) : Res :=
  onRelayPort p (s.linkFrame p (.roster p img))

/-! ### Routed messages -/

/-- POST_REQ (R843): its data crosses the hop from the relay to the write buffer. -/
def execPostReq (src msg : Nat) (m : PostMsg) (s : State) : Res :=
  .next (s.routedFrame src (.postReq src msg m))
/-- POST_ACK (R296). -/
def execPostAck (src n pairSeq : Nat) (cause : BitVec 8) (s : State) : Res :=
  onSlice n (s.routedFrame src (.postAck src n pairSeq cause))
/-- RESYNC (R841): its data crosses the same hop. -/
def execResync (src msg : Nat) (m : PostMsg) (s : State) : Res :=
  .next (s.routedFrame src (.resync src msg m))
/-- PAIR_CONFIRM (R840). -/
def execPairConfirm (src msg nextSeq primary partner : Nat) (s : State) : Res :=
  .next (s.routedFrame src (.pairConfirm src msg nextSeq primary partner))
/-- MIG_OFFER (R848). -/
def execMigOffer (src msg : Nat) (m : MigIds) (batonLen blocks : Nat) (s : State) : Res :=
  .next (s.routedFrame src (.migOffer src msg m batonLen blocks))
/-- MIG_REPLY (R848). -/
def execMigReply (src n : Nat) (cause : BitVec 8) (serial : Nat) (s : State) : Res :=
  onSlice n (s.routedFrame src (.migReply src n cause serial))
/-- MIG_BATON (R850). -/
def execMigBaton (src msg : Nat) (m : MigIds) (b : MigImage) (s : State) : Res :=
  .next (s.routedFrame src (.migBaton src msg m b))
/-- MIG_DATA (R851). -/
def execMigData (src msg : Nat) (m : MigIds) (r : MigRun) (s : State) : Res :=
  .next (s.routedFrame src (.migData src msg m r))
/-- MIG_COMMIT (R851). -/
def execMigCommit (src msg : Nat) (m : MigIds) (count : Nat) (digest : Bytes) (s : State) : Res :=
  .next (s.routedFrame src (.migCommit src msg m count digest))
/-- MIG_COMMITTED (R852). -/
def execMigCommitted (src : Nat) (m : MigIds) (s : State) : Res :=
  .next (s.routedFrame src (.migCommitted src m))
/-- MIG_ERASED (R161). -/
def execMigErased (src msg : Nat) (m : MigIds) (s : State) : Res :=
  .next (s.routedFrame src (.migErased src msg m))
/-- MIG_ERASED_ACK (R852). -/
def execMigErasedAck (src : Nat) (m : MigIds) (s : State) : Res :=
  .next (s.routedFrame src (.migErasedAck src m))
/-- MIG_ABORT (R852). -/
def execMigAbort (src msg : Nat) (m : MigIds) (cause : BitVec 8) (s : State) : Res :=
  .next (s.routedFrame src (.migAbort src msg m cause))
/-- ACK (R810). -/
def execAck (src msg : Nat) (result : BitVec 8) (s : State) : Res :=
  .next (s.routedFrame src (.ack src msg result))

/-! ### Field control and time -/

/-- LOAD_ROSTER (R812). -/
def execLoadRoster (req : Requester) (d : Fetch) (s : State) : Res := byReq req (s.cmdLoadRoster req d)
/-- REKEY (R819). -/
def execRekey (req : Requester) (s : State) : Res := byReq req (s.cmdRekey req)
/-- DUMP_FIELD (R823). -/
def execDumpField (req : Requester) (ok : Bool) (s : State) : Res := byReq req (s.cmdDumpField req ok)
/-- SET_TIME (R838). -/
def execSetTime (req : Requester) (s : State) : Res := byReq req (s.cmdSetTime req)
/-- PPS_EDGE (R1026). -/
def execPpsEdge (ft : Int) (refCycles : Nat) (s : State) : Res := .next (s.ppsIn ft refCycles)

end Sys2Proof.Machine
end

