-- ==== Sys2Proof/Machine/ExecStore.lean ====
section
/-! DEFINITION. The meanings of the commands of the write buffer, flash translation, the flash channels, the
memories and the key store. -/

namespace Sys2Proof.Machine

namespace State

/-- An entry of a slice's buffer becomes visible where it is due (R259). -/
def entryById (s : State) (n id : Nat) : State :=
  match (s.slice n).entries.find? (fun e => e.id = id) with
  | some e => (s.entryVisible n e).mirrorSlice n
  | none => s

/-- HOLDUP_OK has been sampled high at four ticks: the guarantee is armed where the reserve is held (R305). -/
def holdupRise (s : State) : State :=
  if s.dev.run ≠ .started then s
  else
    let s := { s with wbf := { s.wbf with holdupPin := true, holdupOk := true, highTicks := 4, reserveOk := s.reserveHeld } }
    if s.wbf.armed || !s.reserveHeld || decide (s.dev.phase ≠ .ready) then s else s.armHoldup

/-- HOLDUP_OK has been sampled low: the guarantee is disarmed (R306). -/
def holdupFall (s : State) : State :=
  if s.dev.run ≠ .started then s
  else
    let s := { s with wbf := { s.wbf with holdupPin := false, holdupOk := false, highTicks := 0 } }
    if s.wbf.armed then s.disarmHoldup else s

end State

/-! ### The write buffer -/

/-- ENTRY_VISIBLE (R259). -/
def execEntryVisible (n id : Nat) (s : State) : Res := onSlice n (s.entryById n id)
/-- FLUSH_START (R273): the entry's data crosses the hop from the write buffer to the flash channels. -/
def execFlushStart (n id : Nat) (s : State) : Res :=
  onSlice n ((if (s.slice n).entries.any (fun e => e.id = id) then s.onHop 1 else s).flushStart n id)
/-- JOURNAL_RECORD_DURABLE (R352). -/
def execJournalRecordDurable (s : State) : Res := .next s.recordDurable
/-- HOLDUP_ARMED (R305). -/
def execHoldupArmed (s : State) : Res := .next s.holdupRise
/-- HOLDUP_DISARMED (R306). -/
def execHoldupDisarmed (s : State) : Res := .next s.holdupFall
/-- POWER_FAIL_LATCH (R309). -/
def execPowerFailLatch (s : State) : Res := .next s.powerFailLatch
/-- PWR_OK_LOW (R1020). -/
def execPwrOkLow (s : State) : Res := .next s.pwrOkLow
/-- EMERGENCY_FLUSH_END (R312), where the flush has taken so many laps. -/
def execEmergencyFlushEnd (laps : Nat) (s : State) : Res :=
  .next (if laps = s.pfLaps then s.emergencyFlushEnd else s)
/-- THERMAL_TRIP (R1048). -/
def execThermalTrip (s : State) : Res := .next s.thermalTrip
/-- PFAIL_N_RETURNS_HIGH (R313). -/
def execPfailNReturnsHigh (env : StartEnv) (s : State) : Res := .next (s.pfailHigh env)

/-! ### Flash translation -/

/-- CHECKPOINT (R359). -/
def execCheckpoint (req : Requester) (s : State) : Res := byReq req (s.cmdCheckpoint req)
/-- DUMP_LOSS (R384). -/
def execDumpLoss (req : Requester) (ok : Bool) (s : State) : Res := byReq req (s.cmdDumpLoss req ok)
/-- ADD_UNPOWERED (R367). -/
def execAddUnpowered (req : Requester) (s : State) : Res := byReq req (s.cmdAddUnpowered req)
/-- CLEAR_LOSS (R386). -/
def execClearLoss (req : Requester) (s : State) : Res := byReq req (s.cmdClearLoss req)
/-- CHECKPOINT_START (R359). -/
def execCheckpointStart (cause : CkptCause) (s : State) : Res := .next (s.checkpointStart cause)
/-- CHECKPOINT_COMPLETE (R358). -/
def execCheckpointComplete (s : State) : Res := .next s.checkpointComplete
/-- GC_VICTIM_START (R362). -/
def execGcVictimStart (die : Nat) (s : State) : Res := onDie die (s.gcVictimStart die)
/-- GC_ERASE (R363). -/
def execGcErase (blk : Nat) (s : State) : Res := onDie (dieOfBlk blk) (s.gcErase blk)
/-- REFRESH_START (R368). -/
def execRefreshStart (blk : Nat) (s : State) : Res := onDie (dieOfBlk blk) (s.refreshStart blk)
/-- DEMOTE_BACKGROUND (R343). -/
def execDemoteBackground (s : State) : Res := .next s.demoteBackground
/-- PROGRAM_FAIL (R365). -/
def execProgramFail (id : Nat) (s : State) : Res := .next (s.programFail id)
/-- ERASE_FAIL (R374). -/
def execEraseFail (id : Nat) (s : State) : Res := .next (s.eraseFail id)
/-- DIE_LOST (R380). -/
def execDieLost (die : Nat) (s : State) : Res := onDie die (s.dieLostEvent die)
/-- DIE_TEMP_READ (R421). -/
def execDieTempRead (die : Nat) (temp : Int) (s : State) : Res := onDie die (s.dieTemp die temp)
/-- DUMP (R424). -/
def execDump (req : Requester) (ch : Nat) (ok : Bool) (s : State) : Res := byReqChannel req ch (s.cmdDump req ch ok)
/-- CHANNEL_TRAINING (R397). -/
def execChannelTraining (ch : Nat) (dies : List DieReport) (pass : List Bool) (s : State) : Res :=
  onChannel ch (s.trainChannel ch dies pass)

/-! ### The key store -/

/-- SECURITY_ALARM (R777), of a source from 1 to 6. -/
def execSecurityAlarm (src : Nat) (s : State) : Res :=
  if 1 ≤ src && src ≤ 6 then .next (s.securityAlarm src) else .fault (.noSuchUnit src)
/-- KEY_CHANGE_EFFECT (R751). -/
def execKeyChangeEffect (id : Nat) (s : State) : Res := .next (s.keyChangeEffect id)
/-- PK_JOB_COMPLETE (R781). -/
def execPkJobComplete (s : State) : Res := .next s.pkJobEnd
/-- GO (R784). -/
def execGo (req : Requester) (d : Fetch) (s : State) : Res := byReq req (s.enrolGo req d)

/-! ### The memories -/

/-- READ_RAW (R878). -/
def execReadRaw (req : Requester) (s : State) : Res := byReq req (s.cmdReadRaw req)
/-- WRITE_RAW (R878). -/
def execWriteRaw (req : Requester) (s : State) : Res := byReq req (s.cmdWriteRaw req)
/-- READ_PAGE (R878). -/
def execReadPage (req : Requester) (index : Nat) (s : State) : Res := byReq req (s.cmdReadPage req index)
/-- WRITE_PAGE (R878). -/
def execWritePage (req : Requester) (index : Nat) (s : State) : Res := byReq req (s.cmdWritePage req index)
/-- DRAM_TEMP_CHANGE (R883). -/
def execDramTempChange (sub : Nat) (hot : Bool) (s : State) : Res := onUnit 8 sub (s.dramTemp sub hot)
/-- DRAM_TRAINING (R887). -/
def execDramTraining (ch : Nat) (lanes : List LaneSweep) (s : State) : Res := onUnit 4 ch (s.trainDram ch lanes)

end Sys2Proof.Machine
end

