-- ==== Sys2Proof/Machine/ExecStride.lean ====
section
/-! DEFINITION. The meanings of the tick, register, course and slice manager commands. -/

namespace Sys2Proof.Machine

/-! ### Stride and registers -/

/-- TICK (R33). -/
def execTick (s : State) : Res := .next s.tick
/-- POLL_COMPLETE (R32). -/
def execPollComplete (id : Nat) (r : PollResult) (s : State) : Res := .next (s.pollReturn id r)
/-- LAP_BOUNDARY (R34). -/
def execLapBoundary (s : State) : Res := .next s.lapBoundary
/-- HEAT_LAP_LIMIT (R580). -/
def execHeatLapLimit (c : CmdId) (s : State) : Res := onSlice c.slice (s.heatLapLimit c)
/-- REG_WRITE (R12). -/
def execRegWrite (req : Requester) (sp : Space) (off size : Nat) (v : BitVec 64) (s : State) : Res :=
  byReq req (s.regWrite req sp off size v)
/-- REG64_LOW_READ (R15, R16): a read that begins at the register's offset, of 4 bytes for the low half, of 8 for
the whole register, of 1 or 2 for those bytes alone. -/
def execReg64LowRead (req : Requester) (sp : Space) (span : ReadSpan) (s : State) : Res :=
  byReq req (s.reg64Read req sp span.off span.size)
/-- REG64_HIGH_READ (R16): the high half stands 4 bytes above the register's offset. -/
def execReg64HighRead (req : Requester) (sp : Space) (off : Nat) (s : State) : Res :=
  byReq req (s.reg64Read req sp (off + 4) 4)
/-- REG64_LOW_WRITE (R16). -/
def execReg64LowWrite (req : Requester) (sp : Space) (off : Nat) (v : BitVec 32) (s : State) : Res :=
  byReq req (s.regWrite req sp off 4 (v.setWidth 64))
/-- REG64_HIGH_WRITE (R16). -/
def execReg64HighWrite (req : Requester) (sp : Space) (off : Nat) (v : BitVec 32) (s : State) : Res :=
  byReq req (s.regWrite req sp (off + 4) 4 (v.setWidth 64))
/-- CMB_ACCESS (R54). -/
def execCmbAccess (p : Nat) (pasid : Option Nat) (off len : Nat) (wr : Option Bytes) (s : State) : Res :=
  onPort p (s.cmbAccess p pasid off len wr)
/-- DOORBELL_WRITE (R210). -/
def execDoorbellWrite (p n : Nat) (cq : Bool) (qid v : Nat) (ents : List SqEntry) (s : State) : Res :=
  onPortSlice p n (s.doorbellWrite p n cq qid v ents)

/-! ### The course engine -/

/-- The offsets of CRS_CMD and CRS_COMMIT (R108). -/
def crsCmdOff : Nat := 0x10000
def crsCommitOff : Nat := 0x10020

/-- LOAD (R90). -/
def execLoad (req : Requester) (s : State) : Res := byReq req (s.bar0Write req crsCmdOff State.crsLoad)
/-- APPLY (R90). -/
def execApply (req : Requester) (s : State) : Res := byReq req (s.bar0Write req crsCmdOff State.crsApply)
/-- PERSIST (R93). -/
def execPersist (req : Requester) (s : State) : Res := byReq req (s.bar0Write req crsCmdOff State.crsPersist)
/-- DISCARD (R90). -/
def execDiscard (req : Requester) (s : State) : Res := byReq req (s.bar0Write req crsCmdOff State.crsDiscard)
/-- COURSE_VALIDATION_END (R85). -/
def execCourseValidationEnd (img : Fetch) (s : State) : Res := .next (s.crsLoadEnd img)
/-- PERSIST_END (R94). -/
def execPersistEnd (ok : Bool) (s : State) : Res := .next (s.crsPersistEnd ok)
/-- REQUEST (R100). -/
def execRequest (req : Requester) (s : State) : Res := byReq req (s.bar0Write req crsCommitOff State.commitRequest)
/-- CANCEL_COMMIT (R112). -/
def execCancelCommit (req : Requester) (s : State) : Res :=
  byReq req (s.bar0Write req crsCommitOff State.commitCancel)

/-! ### The slice manager -/

/-- CREATE (R121). -/
def execCreate (req : Requester) (n : Nat) (s : State) : Res := byReqSlice req n (s.slcWrite req .create n false)
/-- RESET_DRAIN (R139). -/
def execResetDrain (req : Requester) (n : Nat) (s : State) : Res :=
  byReqSlice req n (s.slcWrite req .resetDrain n false)
/-- RESET_SQUASH (R140). -/
def execResetSquash (req : Requester) (n : Nat) (s : State) : Res :=
  byReqSlice req n (s.slcWrite req .resetSquash n false)
/-- FREEZE (R118). -/
def execFreeze (req : Requester) (n : Nat) (s : State) : Res := byReqSlice req n (s.slcWrite req .freeze n false)
/-- THAW (R162). -/
def execThaw (req : Requester) (n : Nat) (force : Bool) (s : State) : Res :=
  byReqSlice req n (s.slcWrite req .thaw n force)
/-- SAVE (R145). -/
def execSave (req : Requester) (n : Nat) (s : State) : Res := byReqSlice req n (s.slcWrite req .save n false)
/-- RESTORE (R151). -/
def execRestore (req : Requester) (n : Nat) (s : State) : Res := byReqSlice req n (s.slcWrite req .restore n false)
/-- DESTROY (R164). -/
def execDestroy (req : Requester) (n : Nat) (s : State) : Res := byReqSlice req n (s.slcWrite req .destroy n false)
/-- MIGRATE (R159). -/
def execMigrate (req : Requester) (n : Nat) (s : State) : Res := byReqSlice req n (s.slcWrite req .migrate n false)
/-- ACCEPT (R118). -/
def execAccept (req : Requester) (n : Nat) (s : State) : Res := byReqSlice req n (s.slcWrite req .accept n false)
/-- MOVE_PORT (R156). -/
def execMovePort (req : Requester) (n : Nat) (s : State) : Res :=
  byReqSlice req n (s.slcWrite req .movePort n false)
/-- CANCEL (R118). -/
def execCancel (req : Requester) (n : Nat) (s : State) : Res := byReqSlice req n (s.slcWrite req .cancel n false)
/-- SLC_FETCH_END (R1056). -/
def execSlcFetchEnd (n : Nat) (d : Fetch) (s : State) : Res := onSlice n (s.slcFetchEnd n d)
/-- SLICE_FROZEN (R118). -/
def execSliceFrozen (n : Nat) (s : State) : Res := onSlice n (s.sliceFrozen n)
/-- RESET_COMPLETE (R142). -/
def execResetComplete (n : Nat) (s : State) : Res := onSlice n (s.resetComplete n)
/-- SAVE_END (R118). -/
def execSaveEnd (n : Nat) (ok : Bool) (s : State) : Res := onSlice n (s.saveEnd n ok)
/-- RESTORE_END (R118). -/
def execRestoreEnd (n : Nat) (ok : Bool) (s : State) : Res := onSlice n (s.restoreEnd n ok)
/-- DESTROY_END (R164). -/
def execDestroyEnd (n : Nat) (s : State) : Res := onSlice n (s.destroyEnd n)

end Sys2Proof.Machine
end

