-- ==== Sys2Proof/Machine/Dispatch.lean ====
section
/-! DEFINITION. What each command does: one arm per row of the command table. -/

namespace Sys2Proof.Machine

/-- The effect of a command on everything but the queue. -/
def exec (i : Instr) (s : State) : Host.Outcome State Fault Refusal :=
  match i with
  | .tick => Sys2Proof.Machine.execTick s
  | .pollComplete id r => Sys2Proof.Machine.execPollComplete id r s
  | .lapBoundary => Sys2Proof.Machine.execLapBoundary s
  | .heatLapLimit c => Sys2Proof.Machine.execHeatLapLimit c s
  | .regWrite req sp off size v => Sys2Proof.Machine.execRegWrite req sp off size v s
  | .reg64LowRead req sp span => Sys2Proof.Machine.execReg64LowRead req sp span s
  | .reg64HighRead req sp off => Sys2Proof.Machine.execReg64HighRead req sp off s
  | .reg64LowWrite req sp off v => Sys2Proof.Machine.execReg64LowWrite req sp off v s
  | .reg64HighWrite req sp off v => Sys2Proof.Machine.execReg64HighWrite req sp off v s
  | .cmbAccess port pasid off len wr => Sys2Proof.Machine.execCmbAccess port pasid off len wr s
  | .doorbellWrite port slice cq qid value ents => Sys2Proof.Machine.execDoorbellWrite port slice cq qid value ents s
  | .load req => Sys2Proof.Machine.execLoad req s
  | .apply req => Sys2Proof.Machine.execApply req s
  | .persist req => Sys2Proof.Machine.execPersist req s
  | .discard req => Sys2Proof.Machine.execDiscard req s
  | .courseValidationEnd img => Sys2Proof.Machine.execCourseValidationEnd img s
  | .persistEnd ok => Sys2Proof.Machine.execPersistEnd ok s
  | .request req => Sys2Proof.Machine.execRequest req s
  | .cancelCommit req => Sys2Proof.Machine.execCancelCommit req s
  | .create req slice => Sys2Proof.Machine.execCreate req slice s
  | .resetDrain req slice => Sys2Proof.Machine.execResetDrain req slice s
  | .resetSquash req slice => Sys2Proof.Machine.execResetSquash req slice s
  | .freeze req slice => Sys2Proof.Machine.execFreeze req slice s
  | .thaw req slice force => Sys2Proof.Machine.execThaw req slice force s
  | .save req slice => Sys2Proof.Machine.execSave req slice s
  | .restore req slice => Sys2Proof.Machine.execRestore req slice s
  | .destroy req slice => Sys2Proof.Machine.execDestroy req slice s
  | .migrate req slice => Sys2Proof.Machine.execMigrate req slice s
  | .accept req slice => Sys2Proof.Machine.execAccept req slice s
  | .movePort req slice => Sys2Proof.Machine.execMovePort req slice s
  | .cancel req slice => Sys2Proof.Machine.execCancel req slice s
  | .slcFetchEnd slice d => Sys2Proof.Machine.execSlcFetchEnd slice d s
  | .sliceFrozen slice => Sys2Proof.Machine.execSliceFrozen slice s
  | .resetComplete slice => Sys2Proof.Machine.execResetComplete slice s
  | .saveEnd slice ok => Sys2Proof.Machine.execSaveEnd slice ok s
  | .restoreEnd slice ok => Sys2Proof.Machine.execRestoreEnd slice ok s
  | .destroyEnd slice => Sys2Proof.Machine.execDestroyEnd slice s
  | .flr port => Sys2Proof.Machine.execFlr port s
  | .hotReset port => Sys2Proof.Machine.execHotReset port s
  | .perstAsserted port => Sys2Proof.Machine.execPerstAsserted port s
  | .perstReleased port => Sys2Proof.Machine.execPerstReleased port s
  | .linkUp port speed width flit bar4 => Sys2Proof.Machine.execLinkUp port speed width flit bar4 s
  | .busMasterEnable port on => Sys2Proof.Machine.execBusMasterEnable port on s
  | .ccEnable port slice v => Sys2Proof.Machine.execCcEnable port slice v s
  | .ccDisable port slice v => Sys2Proof.Machine.execCcDisable port slice v s
  | .ccShutdown port slice v => Sys2Proof.Machine.execCcShutdown port slice v s
  | .shutdownComplete slice => Sys2Proof.Machine.execShutdownComplete slice s
  | .hostBusError slice => Sys2Proof.Machine.execHostBusError slice s
  | .dataTransferError c => Sys2Proof.Machine.execDataTransferError c s
  | .deleteIoSubmissionQueue c => Sys2Proof.Machine.execDeleteIoSubmissionQueue c s
  | .createIoSubmissionQueue c => Sys2Proof.Machine.execCreateIoSubmissionQueue c s
  | .getLogPage c => Sys2Proof.Machine.execGetLogPage c s
  | .deleteIoCompletionQueue c => Sys2Proof.Machine.execDeleteIoCompletionQueue c s
  | .createIoCompletionQueue c => Sys2Proof.Machine.execCreateIoCompletionQueue c s
  | .identify c => Sys2Proof.Machine.execIdentify c s
  | .abort c => Sys2Proof.Machine.execAbort c s
  | .setFeatures c => Sys2Proof.Machine.execSetFeatures c s
  | .getFeatures c => Sys2Proof.Machine.execGetFeatures c s
  | .asynchronousEventRequest c => Sys2Proof.Machine.execAsynchronousEventRequest c s
  | .namespaceManagement c d => Sys2Proof.Machine.execNamespaceManagement c d s
  | .namespaceAttachment c ctrls => Sys2Proof.Machine.execNamespaceAttachment c ctrls s
  | .formatNvm c => Sys2Proof.Machine.execFormatNvm c s
  | .sanitize c => Sys2Proof.Machine.execSanitize c s
  | .keyDelivery c d => Sys2Proof.Machine.execKeyDelivery c d s
  | .attestationReport c => Sys2Proof.Machine.execAttestationReport c s
  | .heatProgramLoad c d => Sys2Proof.Machine.execHeatProgramLoad c d s
  | .patternTableLoad c d => Sys2Proof.Machine.execPatternTableLoad c d s
  | .flush c => Sys2Proof.Machine.execFlush c s
  | .write c d => Sys2Proof.Machine.execWrite c d s
  | .read c => Sys2Proof.Machine.execRead c s
  | .compare c d => Sys2Proof.Machine.execCompare c d s
  | .writeZeroes c => Sys2Proof.Machine.execWriteZeroes c s
  | .datasetManagement c rs => Sys2Proof.Machine.execDatasetManagement c rs s
  | .verify c => Sys2Proof.Machine.execVerify c s
  | .reservationRegister c d => Sys2Proof.Machine.execReservationRegister c d s
  | .reservationReport c => Sys2Proof.Machine.execReservationReport c s
  | .reservationAcquire c d => Sys2Proof.Machine.execReservationAcquire c d s
  | .reservationRelease c d => Sys2Proof.Machine.execReservationRelease c d s
  | .ledgerPost c => Sys2Proof.Machine.execLedgerPost c s
  | .ledgerPostListArrival c list d => Sys2Proof.Machine.execLedgerPostListArrival c list d s
  | .heatRun c => Sys2Proof.Machine.execHeatRun c s
  | .heatDescriptorArrival c d => Sys2Proof.Machine.execHeatDescriptorArrival c d s
  | .hurdleRun c => Sys2Proof.Machine.execHurdleRun c s
  | .hurdleDescriptorArrival c d => Sys2Proof.Machine.execHurdleDescriptorArrival c d s
  | .patternSearch c => Sys2Proof.Machine.execPatternSearch c s
  | .patternStep c => Sys2Proof.Machine.execPatternStep c s
  | .patternSearchBegin c hdr input => Sys2Proof.Machine.execPatternSearchBegin c hdr input s
  | .cipherTransform c => Sys2Proof.Machine.execCipherTransform c s
  | .cipherTrailerArrival c src => Sys2Proof.Machine.execCipherTrailerArrival c src s
  | .digest c => Sys2Proof.Machine.execDigest c s
  | .digestBatonArrival c src => Sys2Proof.Machine.execDigestBatonArrival c src s
  | .entryVisible slice id => Sys2Proof.Machine.execEntryVisible slice id s
  | .flushStart slice id => Sys2Proof.Machine.execFlushStart slice id s
  | .journalRecordDurable => Sys2Proof.Machine.execJournalRecordDurable s
  | .holdupArmed => Sys2Proof.Machine.execHoldupArmed s
  | .holdupDisarmed => Sys2Proof.Machine.execHoldupDisarmed s
  | .powerFailLatch => Sys2Proof.Machine.execPowerFailLatch s
  | .pwrOkLow => Sys2Proof.Machine.execPwrOkLow s
  | .emergencyFlushEnd laps => Sys2Proof.Machine.execEmergencyFlushEnd laps s
  | .thermalTrip => Sys2Proof.Machine.execThermalTrip s
  | .checkpoint req => Sys2Proof.Machine.execCheckpoint req s
  | .dumpLoss req ok => Sys2Proof.Machine.execDumpLoss req ok s
  | .addUnpowered req => Sys2Proof.Machine.execAddUnpowered req s
  | .clearLoss req => Sys2Proof.Machine.execClearLoss req s
  | .checkpointStart cause => Sys2Proof.Machine.execCheckpointStart cause s
  | .checkpointComplete => Sys2Proof.Machine.execCheckpointComplete s
  | .gcVictimStart die => Sys2Proof.Machine.execGcVictimStart die s
  | .gcErase blk => Sys2Proof.Machine.execGcErase blk s
  | .refreshStart blk => Sys2Proof.Machine.execRefreshStart blk s
  | .demoteBackground => Sys2Proof.Machine.execDemoteBackground s
  | .programFail id => Sys2Proof.Machine.execProgramFail id s
  | .eraseFail id => Sys2Proof.Machine.execEraseFail id s
  | .dieLost die => Sys2Proof.Machine.execDieLost die s
  | .dieTempRead die temp => Sys2Proof.Machine.execDieTempRead die temp s
  | .dump req ch ok => Sys2Proof.Machine.execDump req ch ok s
  | .channelTraining ch dies pass => Sys2Proof.Machine.execChannelTraining ch dies pass s
  | .nop core w => Sys2Proof.Machine.execNop core w s
  | .fence core w => Sys2Proof.Machine.execFence core w s
  | .ifence core w => Sys2Proof.Machine.execIfence core w s
  | .eret core w => Sys2Proof.Machine.execEret core w s
  | .wait core w => Sys2Proof.Machine.execWait core w s
  | .halt core w => Sys2Proof.Machine.execHalt core w s
  | .mov core w => Sys2Proof.Machine.execMov core w s
  | .aluRr core w => Sys2Proof.Machine.execAluRr core w s
  | .shiftRr core w => Sys2Proof.Machine.execShiftRr core w s
  | .mulRr core w => Sys2Proof.Machine.execMulRr core w s
  | .unary core w => Sys2Proof.Machine.execUnary core w s
  | .addi5 core w => Sys2Proof.Machine.execAddi5 core w s
  | .movi5 core w => Sys2Proof.Machine.execMovi5 core w s
  | .ldRr core w => Sys2Proof.Machine.execLdRr core w s
  | .stRr core w => Sys2Proof.Machine.execStRr core w s
  | .jr core w => Sys2Proof.Machine.execJr core w s
  | .jalr core w => Sys2Proof.Machine.execJalr core w s
  | .addBSubB core w => Sys2Proof.Machine.execAddBSubB core w s
  | .daaB core w => Sys2Proof.Machine.execDaaB core w s
  | .dasB core w => Sys2Proof.Machine.execDasB core w s
  | .aluTr core w => Sys2Proof.Machine.execAluTr core w s
  | .shiftTr core w => Sys2Proof.Machine.execShiftTr core w s
  | .mulTr core w => Sys2Proof.Machine.execMulTr core w s
  | .cmp core w => Sys2Proof.Machine.execCmp core w s
  | .divuDivsRemuRems core w => Sys2Proof.Machine.execDivuDivsRemuRems core w s
  | .addi core w => Sys2Proof.Machine.execAddi core w s
  | .andiOriXori core w => Sys2Proof.Machine.execAndiOriXori core w s
  | .shliShriSari core w => Sys2Proof.Machine.execShliShriSari core w s
  | .cmpi core w => Sys2Proof.Machine.execCmpi core w s
  | .movi core w => Sys2Proof.Machine.execMovi core w s
  | .rdsr core w => Sys2Proof.Machine.execRdsr core w s
  | .wrsr core w => Sys2Proof.Machine.execWrsr core w s
  | .rdfeat core w => Sys2Proof.Machine.execRdfeat core w s
  | .loadInstruction core w => Sys2Proof.Machine.execLoadInstruction core w s
  | .storeInstruction core w => Sys2Proof.Machine.execStoreInstruction core w s
  | .lea core w => Sys2Proof.Machine.execLea core w s
  | .swap core w => Sys2Proof.Machine.execSwap core w s
  | .cas core w => Sys2Proof.Machine.execCas core w s
  | .fadd core w => Sys2Proof.Machine.execFadd core w s
  | .b core w => Sys2Proof.Machine.execB core w s
  | .jal core w => Sys2Proof.Machine.execJal core w s
  | .repI core w r => Sys2Proof.Machine.execRepI core w r s
  | .repU core w r => Sys2Proof.Machine.execRepU core w r s
  | .svc core w => Sys2Proof.Machine.execSvc core w s
  | .svcExit core => Sys2Proof.Machine.execSvcExit core s
  | .svcBarrier core => Sys2Proof.Machine.execSvcBarrier core s
  | .svcYield core => Sys2Proof.Machine.execSvcYield core s
  | .addprSubprMulpr core w => Sys2Proof.Machine.execAddprSubprMulpr core w s
  | .cmppr core w => Sys2Proof.Machine.execCmppr core w s
  | .movi32 core w => Sys2Proof.Machine.execMovi32 core w s
  | .movhi32 core w => Sys2Proof.Machine.execMovhi32 core w s
  | .addi32 core w => Sys2Proof.Machine.execAddi32 core w s
  | .cmpi32 core w => Sys2Proof.Machine.execCmpi32 core w s
  | .addp core w => Sys2Proof.Machine.execAddp core w s
  | .subp core w => Sys2Proof.Machine.execSubp core w s
  | .mulp core w => Sys2Proof.Machine.execMulp core w s
  | .divp core w => Sys2Proof.Machine.execDivp core w s
  | .cmpp core w => Sys2Proof.Machine.execCmpp core w s
  | .movp core w => Sys2Proof.Machine.execMovp core w s
  | .pack core w => Sys2Proof.Machine.execPack core w s
  | .unpk core w => Sys2Proof.Machine.execUnpk core w s
  | .edit core w => Sys2Proof.Machine.execEdit core w s
  | .shfp core w => Sys2Proof.Machine.execShfp core w s
  | .cvbp core w => Sys2Proof.Machine.execCvbp core w s
  | .cvpb core w => Sys2Proof.Machine.execCvpb core w s
  | .budgetExhausted core => Sys2Proof.Machine.execBudgetExhausted core s
  | .stop core => Sys2Proof.Machine.execStop core s
  | .suspend core => Sys2Proof.Machine.execSuspend core s
  | .heatStaged c => Sys2Proof.Machine.execHeatStaged c s
  | .heatLoadingStart c => Sys2Proof.Machine.execHeatLoadingStart c s
  | .heatRunningStart c => Sys2Proof.Machine.execHeatRunningStart c s
  | .heatDelivered c ok => Sys2Proof.Machine.execHeatDelivered c ok s
  | .heatStop port slice v => Sys2Proof.Machine.execHeatStop port slice v s
  | .hdlStop port slice v => Sys2Proof.Machine.execHdlStop port slice v s
  | .patternWritePhase c => Sys2Proof.Machine.execPatternWritePhase c s
  | .patternApplyPhase c => Sys2Proof.Machine.execPatternApplyPhase c s
  | .securityAlarm src => Sys2Proof.Machine.execSecurityAlarm src s
  | .keyChangeEffect id => Sys2Proof.Machine.execKeyChangeEffect id s
  | .pkJobComplete => Sys2Proof.Machine.execPkJobComplete s
  | .go req d => Sys2Proof.Machine.execGo req d s
  | .readRaw req => Sys2Proof.Machine.execReadRaw req s
  | .writeRaw req => Sys2Proof.Machine.execWriteRaw req s
  | .readPage req index => Sys2Proof.Machine.execReadPage req index s
  | .writePage req index => Sys2Proof.Machine.execWritePage req index s
  | .dramTempChange sub hot => Sys2Proof.Machine.execDramTempChange sub hot s
  | .dramTraining ch lanes => Sys2Proof.Machine.execDramTraining ch lanes s
  | .wake req => Sys2Proof.Machine.execWake req s
  | .pwrTimerExpiry => Sys2Proof.Machine.execPwrTimerExpiry s
  | .refreshWake => Sys2Proof.Machine.execRefreshWake s
  | .powerEntryBegin => Sys2Proof.Machine.execPowerEntryBegin s
  | .powerStateReached => Sys2Proof.Machine.execPowerStateReached s
  | .powerExitComplete env => Sys2Proof.Machine.execPowerExitComplete env s
  | .clusterPllLock cluster => Sys2Proof.Machine.execClusterPllLock cluster s
  | .evrCheckRead set => Sys2Proof.Machine.execEvrCheckRead set s
  | .freezeRing set => Sys2Proof.Machine.execFreezeRing set s
  | .release set => Sys2Proof.Machine.execRelease set s
  | .freezeExpiry inst => Sys2Proof.Machine.execFreezeExpiry inst s
  | .evrClear req v => Sys2Proof.Machine.execEvrClear req v s
  | .coldStart => Sys2Proof.Machine.execColdStart s
  | .starterBegin env => Sys2Proof.Machine.execStarterBegin env s
  | .fwLoad req d => Sys2Proof.Machine.execFwLoad req d s
  | .fwActivate req => Sys2Proof.Machine.execFwActivate req s
  | .fwConfirm req => Sys2Proof.Machine.execFwConfirm req s
  | .restart req => Sys2Proof.Machine.execRestart req s
  | .deviceFault src => Sys2Proof.Machine.execDeviceFault src s
  | .watchdogExpiry => Sys2Proof.Machine.execWatchdogExpiry s
  | .faultFlushEnd => Sys2Proof.Machine.execFaultFlushEnd s
  | .phyUp p chal => Sys2Proof.Machine.execPhyUp p chal s
  | .phyDown p => Sys2Proof.Machine.execPhyDown p s
  | .linkSilent p => Sys2Proof.Machine.execLinkSilent p s
  | .helloRepeat p => Sys2Proof.Machine.execHelloRepeat p s
  | .summarySend => Sys2Proof.Machine.execSummarySend s
  | .pairConfirmSend slice => Sys2Proof.Machine.execPairConfirmSend slice s
  | .retransmitTimeout msg => Sys2Proof.Machine.execRetransmitTimeout msg s
  | .peerDeclaredLost addr cause => Sys2Proof.Machine.execPeerDeclaredLost addr cause s
  | .relayFrameDiscard p why => Sys2Proof.Machine.execRelayFrameDiscard p why s
  | .hello p h => Sys2Proof.Machine.execHello p h s
  | .linkOffer p m => Sys2Proof.Machine.execLinkOffer p m s
  | .linkAnswer p m => Sys2Proof.Machine.execLinkAnswer p m s
  | .fieldKey p head epoch key => Sys2Proof.Machine.execFieldKey p head epoch key s
  | .pace p m => Sys2Proof.Machine.execPace p m s
  | .summary p m => Sys2Proof.Machine.execSummary p m s
  | .roster p img => Sys2Proof.Machine.execRoster p img s
  | .postReq src msg m => Sys2Proof.Machine.execPostReq src msg m s
  | .postAck src slice pairSeq cause => Sys2Proof.Machine.execPostAck src slice pairSeq cause s
  | .resync src msg m => Sys2Proof.Machine.execResync src msg m s
  | .pairConfirm src msg nextSeq primary partner => Sys2Proof.Machine.execPairConfirm src msg nextSeq primary partner s
  | .migOffer src msg m batonLen blocks => Sys2Proof.Machine.execMigOffer src msg m batonLen blocks s
  | .migReply src slice cause serial => Sys2Proof.Machine.execMigReply src slice cause serial s
  | .migBaton src msg m b => Sys2Proof.Machine.execMigBaton src msg m b s
  | .migData src msg m r => Sys2Proof.Machine.execMigData src msg m r s
  | .migCommit src msg m count digest => Sys2Proof.Machine.execMigCommit src msg m count digest s
  | .migCommitted src m => Sys2Proof.Machine.execMigCommitted src m s
  | .migErased src msg m => Sys2Proof.Machine.execMigErased src msg m s
  | .migErasedAck src m => Sys2Proof.Machine.execMigErasedAck src m s
  | .migAbort src msg m cause => Sys2Proof.Machine.execMigAbort src msg m cause s
  | .ack src msg result => Sys2Proof.Machine.execAck src msg result s
  | .loadRoster req d => Sys2Proof.Machine.execLoadRoster req d s
  | .rekey req => Sys2Proof.Machine.execRekey req s
  | .dumpField req ok => Sys2Proof.Machine.execDumpField req ok s
  | .setTime req => Sys2Proof.Machine.execSetTime req s
  | .ppsEdge ft refCycles => Sys2Proof.Machine.execPpsEdge ft refCycles s
  | .smbusBasicManagement code => Sys2Proof.Machine.execSmbusBasicManagement code s
  | .smbusSelectWrite v pecOk => Sys2Proof.Machine.execSmbusSelectWrite v pecOk s
  | .smbusBlockRead => Sys2Proof.Machine.execSmbusBlockRead s
  | .smbusBlockWrite count v pecOk => Sys2Proof.Machine.execSmbusBlockWrite count v pecOk s
  | .extest => Sys2Proof.Machine.execExtest s
  | .idcode => Sys2Proof.Machine.execIdcode s
  | .samplePreload => Sys2Proof.Machine.execSamplePreload s
  | .highz => Sys2Proof.Machine.execHighz s
  | .clamp => Sys2Proof.Machine.execClamp s
  | .bypass => Sys2Proof.Machine.execBypass s
  | .debugInstruction code => Sys2Proof.Machine.execDebugInstruction code s
  | .tapReset => Sys2Proof.Machine.execTapReset s
  | .pcieL1Exit port => Sys2Proof.Machine.execPcieL1Exit port s
  | .pfailNReturnsHigh env => Sys2Proof.Machine.execPfailNReturnsHigh env s

end Sys2Proof.Machine
end

