-- ==== Sys2Proof/Safety.lean ====
section
/-! DEFINITION. What counts as a safe or a ready state, in the terms that statements use. -/

namespace Sys2Proof.Machine

/-- Every memory of the device is in canonical form: the controller memory buffer, and the contents of every
SRAM array and of DRAM. -/
def State.memOk (s : State) : Prop :=
  Memory.wf s.cmb = true ∧ ∀ p ∈ s.mem, Memory.wf p.2.cells = true

/-- The device is READY in P0 and no change of its power state is under way (R899, R967). -/
def State.up (s : State) : Prop :=
  s.dev.run = .started ∧ s.dev.phase = .ready ∧ s.pwr.state = 0 ∧ s.pwr.phase = .steady

/-- A requester whose BAR0 accesses are honoured: the manager port, or a core (R181, R454). -/
def State.honours (s : State) (q : Requester) : Prop :=
  match q with
  | .port p => p < 2 ∧ p = s.mgrPort
  | .core c => c < 72
  | .smbus => False

/-- At an offset of BAR0 stands register `l`: no command register, no register of the event recorder, the fault
injector or test mode, and none that stands for an ACTIVE or FROZEN slice alone (R44, R172, R877, R991). -/
def State.plainReg (s : State) (off : Nat) (l : Loc) : Prop :=
  s.bar0Reg off = some l ∧ s.errAt off = none ∧ (off < 0x1A00000 ∨ 0x1B00000 ≤ off) ∧
  (off < 0x700100 ∨ 0x70011C ≤ off) ∧ State.isShare l.row.reg = false ∧
  l.row.reg ∉ [.devCmd, .crsCmd, .crsCommit, .slcCmd, .ftlCmd, .fchHlogCmd, .mprTestCmd, .kstEnrolCmd, .rlyCmd, .pwrCmd,
    .evrCursor, .evrStat, .evrFreeze, .evrClear]

/-- The state in which a device that was steady has begun its exit: the source of the wake is latched (R918). -/
def State.woken (s : State) (src detail : Nat) : State :=
  { s with pwr := { s.pwr with phase := .exiting, wakeSource := src, wakeFrom := s.pwr.state, wakeDetail := detail,
                               wakeStride := s.stride, wakeEventDue := true } }

/-- Admin command `c`, of this opcode, has been admitted as `a` and has not acted yet (R221, R227). -/
def State.awaitsAdmin (s : State) (c : CmdId) (opc : Nat) (a : Adm) : Prop :=
  c.slice < 512 ∧ s.adm? c = some a ∧ a.admin = true ∧ a.ent.opc = opc ∧ a.started = false

/-- I/O command `c`, of this opcode, has been admitted as `a` to namespace `ns` and has not acted yet, and no earlier
format, sanitize or namespace command of its slice is still to act (R224, R268). -/
def State.awaitsIo (s : State) (c : CmdId) (opc : Nat) (a : Adm) (ns : Ns) : Prop :=
  c.slice < 512 ∧ s.adm? c = some a ∧ tget (s.slice c.slice).nss a.ent.nsid = some ns ∧ a.admin = false ∧
  a.ent.opc = opc ∧ a.started = false ∧ (a.stage = false ∨ opc ∈ [0x00, 0x09, 0x0D, 0x0E, 0x11, 0x15]) ∧
  formatPending (s.slice c.slice) a.ent.nsid a.stamp = false

/-- I/O command `c` of an engine, of this opcode, has been admitted as `a` and is not at its completion stage (R224). -/
def State.awaitsEngine (s : State) (c : CmdId) (opc : Nat) (a : Adm) : Prop :=
  c.slice < 512 ∧ s.adm? c = some a ∧ a.admin = false ∧ a.ent.opc = opc ∧ a.stage = false

/-- Port `p` of the relay is enabled and the relay runs, and no fault is injected into its frames (R803, R993). -/
def State.linked (s : State) (p : Nat) : Prop :=
  p < 4 ∧ s.relayRuns = true ∧ s.portEnabled p = true ∧ s.faultInject = false

/-- The relay runs in a field that the device has joined, and no fault is injected into its frames (R807, R813). -/
def State.routed (s : State) : Prop :=
  s.relayRuns = true ∧ s.rly.join = .joined ∧ s.faultInject = false

/-- Core `c` stands at an instruction boundary at which nothing but the instruction is due, and the `len` bytes of
the instruction can be fetched and are free of memory errors (R456, R494, R498). -/
def State.atInstr (s : State) (c len : Nat) : Prop :=
  s.coreRuns c = true ∧ entryDue (s.core c) = none ∧ fetchStop (s.core c) len = none ∧
  (0x40000 ≤ (s.core c).pc.toNat ∨ (s.arr c).raws = [])

/-- Core `c` has run one instruction and now stands as `k`: nothing but the core has changed. The cycles that the
instruction took, at least one and at most its bound where it has one, move the core's place in the stride on and, in
heat mode, are taken from CYC; the count of the drawn free values rises (R30, R484, R485, R493). -/
def State.ran (s t : State) (c : Nat) (k : Core) (bound : Option Nat) : Prop :=
  ∃ n : Nat, 1 ≤ n ∧ (∀ m, bound = some m → n ≤ max 1 m) ∧
    t = { s.setCore c (State.spend k (!(s.core c).marshal) n) with free := s.free + 1 }

/-- Core `k` once it has entered marshal mode (R490). -/
def Core.entered (k : Core) (cause sub : Nat) (epc eaddr : Dword) : Core :=
  { k with epc := epc, ecause := BitVec.ofNat 64 (sub * 256 + cause), eaddr := eaddr, pmode := k.marshal, exl := true,
           marshal := true, pc := k.mvec + BitVec.ofNat 64 (0x40 * cause), waiting := false }

/-- An exception of core `c` is no double fault, and no heat runs on the core unless it is in marshal mode (R496,
R577). -/
def State.handles (s : State) (c : Nat) : Prop :=
  (s.core c).exl = false ∧ ((s.core c).marshal = true ∨ s.heatOn c = none)

/-- FLG after an addition with carry in (R480): C is the carry out, V a signed overflow, Z and N tell of the result,
and every other bit is kept. -/
def FlgAdd (f f' a b : Dword) (cin : Nat) : Prop :=
  f'.getLsbD 0 = decide (2 ^ 64 ≤ a.toNat + b.toNat + cin) ∧
  f'.getLsbD 1 = decide (a.toInt + b.toInt + (cin : Int) < -(2 ^ 63) ∨ 2 ^ 63 ≤ a.toInt + b.toInt + (cin : Int)) ∧
  f'.getLsbD 2 = decide (a + b + BitVec.ofNat 64 cin = 0) ∧ f'.getLsbD 3 = (a + b + BitVec.ofNat 64 cin).msb ∧
  ∀ j, 4 ≤ j → f'.getLsbD j = f.getLsbD j

/-- FLG after a subtraction with borrow in (R480): C is 1 without borrow, V a signed overflow, Z and N tell of the
result, and every other bit is kept. -/
def FlgSub (f f' a b : Dword) (bin : Nat) : Prop :=
  f'.getLsbD 0 = decide (b.toNat + bin ≤ a.toNat) ∧
  f'.getLsbD 1 = decide (a.toInt - b.toInt - (bin : Int) < -(2 ^ 63) ∨ 2 ^ 63 ≤ a.toInt - b.toInt - (bin : Int)) ∧
  f'.getLsbD 2 = decide (a - b - BitVec.ofNat 64 bin = 0) ∧ f'.getLsbD 3 = (a - b - BitVec.ofNat 64 bin).msb ∧
  ∀ j, 4 ≤ j → f'.getLsbD j = f.getLsbD j

/-- FLG after an operation that gives N and Z from its 64-bit result `r` and keeps the rest (R480). -/
def FlgNZ (f f' r : Dword) : Prop :=
  f'.getLsbD 2 = decide (r = 0) ∧ f'.getLsbD 3 = r.msb ∧ ∀ j, j ≠ 2 → j ≠ 3 → f'.getLsbD j = f.getLsbD j

/-- FLG after a decimal result with stored value `v` (R508, R510): N and Z tell of the value, V of an overflow, which
also sets the sticky DOV; C and H are kept. -/
def FlgDec (f f' : Dword) (v : Int) (overflow : Bool) : Prop :=
  f'.getLsbD 3 = decide (v < 0) ∧ f'.getLsbD 2 = decide (v = 0) ∧ f'.getLsbD 1 = overflow ∧
  f'.getLsbD 5 = (f.getLsbD 5 || overflow) ∧ ∀ j, j = 0 ∨ j = 4 ∨ 6 ≤ j → f'.getLsbD j = f.getLsbD j

/-! ### The instruction formats, field by field (R464 to R466) -/

namespace Fmt

/-- RR: 16 bits. -/
def rr (op d g : BitVec 5) : BitVec 16 := (0#1 ++ op) ++ d ++ g
/-- TR: 32 bits, the low nine of them zero. -/
def tr (op : BitVec 6) (d a b : BitVec 5) : BitVec 32 := (2#2 ++ op) ++ d ++ a ++ b ++ 0#9
/-- IM. -/
def im (op : BitVec 6) (d a : BitVec 5) (imm : BitVec 14) : BitVec 32 := (2#2 ++ op) ++ d ++ a ++ imm
/-- LI. -/
def li (op : BitVec 6) (d : BitVec 5) (imm : BitVec 19) : BitVec 32 := (2#2 ++ op) ++ d ++ imm
/-- MM. -/
def mm (op : BitVec 6) (d b : BitVec 5) (mode : BitVec 3) (gi : BitVec 5) (scale low : BitVec 3) : BitVec 32 :=
  (2#2 ++ op) ++ d ++ b ++ mode ++ gi ++ scale ++ low
/-- BR. -/
def br (op : BitVec 6) (cond : BitVec 4) (disp : BitVec 20) : BitVec 32 := (2#2 ++ op) ++ cond ++ disp
/-- JP. -/
def jp (op : BitVec 6) (disp : BitVec 24) : BitVec 32 := (2#2 ++ op) ++ disp
/-- WI: 48 bits. -/
def wi (op : BitVec 6) (d : BitVec 5) (imm : BitVec 32) : BitVec 48 := (3#2 ++ op) ++ d ++ 0#3 ++ imm
/-- MD with a 16-bit displacement. -/
def md (op : BitVec 6) (d b : BitVec 5) (disp : BitVec 16) : BitVec 48 :=
  (3#2 ++ op) ++ d ++ b ++ 4#3 ++ 0#11 ++ disp
/-- MD, indexed with an 8-bit displacement. -/
def mx (op : BitVec 6) (d b gi : BitVec 5) (scale : BitVec 3) (disp : BitVec 8) : BitVec 48 :=
  (3#2 ++ op) ++ d ++ b ++ 5#3 ++ gi ++ scale ++ 0#11 ++ disp
/-- DS: operand k is `l`k + 1 bytes at G`b`k + `d`k. -/
def ds (op : BitVec 6) (l1 l2 b1 : BitVec 5) (d1 : BitVec 10) (b2 : BitVec 5) (d2 : BitVec 10) : BitVec 48 :=
  (3#2 ++ op) ++ l1 ++ l2 ++ b1 ++ d1 ++ b2 ++ d2
/-- IM with a six-bit shift count, and REP.U with its count. -/
def sh (op : BitVec 6) (d a : BitVec 5) (n : BitVec 6) : BitVec 32 := (2#2 ++ op) ++ d ++ a ++ 0#8 ++ n
/-- DH. -/
def dh (op : BitVec 6) (l1 : BitVec 5) (sh : BitVec 7) (b1 : BitVec 5) (d1 : BitVec 10) : BitVec 48 :=
  (3#2 ++ op) ++ l1 ++ sh ++ b1 ++ d1 ++ 0#13
/-- DR. -/
def dr (op : BitVec 6) (l1 gr b1 : BitVec 5) (d1 : BitVec 10) : BitVec 48 :=
  (3#2 ++ op) ++ l1 ++ gr ++ b1 ++ d1 ++ 0#15

end Fmt

/-! ### Memory operands (R455, R463, R468 to R470) -/

/-- The addressing modes of loads and stores (R468). -/
inductive Addressing where
  | base
  | postInc
  | preDec
  | indexed (gi : BitVec 5) (scale : BitVec 3)
  | disp (d : BitVec 16)
  | indexedDisp (gi : BitVec 5) (scale : BitVec 3) (d : BitVec 8)
  deriving DecidableEq, Repr

/-- The word of a load or store: its MM and its MD opcode, the data register and the base register. -/
def Addressing.word (mmOp mdOp : BitVec 6) (d b : BitVec 5) : Addressing → MemForm
  | .base => .mm (Fmt.mm mmOp d b 0 0 0 0)
  | .postInc => .mm (Fmt.mm mmOp d b 1 0 0 0)
  | .preDec => .mm (Fmt.mm mmOp d b 2 0 0 0)
  | .indexed gi scale => .mm (Fmt.mm mmOp d b 3 gi scale 0)
  | .disp x => .md (Fmt.md mdOp d b x)
  | .indexedDisp gi scale x => .md (Fmt.mx mdOp d b gi scale x)

/-- Bytes of the word. -/
def Addressing.len : Addressing → Nat
  | .disp _ | .indexedDisp _ _ _ => 6
  | _ => 4

/-- The effective address of an access of `size` bytes. -/
def Addressing.addr (m : Addressing) (k : Core) (b : BitVec 5) (size : Nat) : Dword :=
  match m with
  | .base | .postInc => k.reg b.toNat
  | .preDec => k.reg b.toNat - BitVec.ofNat 64 size
  | .indexed gi scale => k.reg b.toNat + k.reg gi.toNat * BitVec.ofNat 64 (2 ^ scale.toNat)
  | .disp x => k.reg b.toNat + x.signExtend 64
  | .indexedDisp gi scale x => k.reg b.toNat + k.reg gi.toNat * BitVec.ofNat 64 (2 ^ scale.toNat) + x.signExtend 64

/-- The mode changes its base register. -/
def Addressing.moves (m : Addressing) : Bool := m = .postInc || m = .preDec

/-- The core after the base update of an access of `size` bytes. -/
def Addressing.after (m : Addressing) (k : Core) (b : BitVec 5) (size : Nat) : Core :=
  match m with
  | .postInc => k.put b.toNat (k.reg b.toNat + BitVec.ofNat 64 size)
  | .preDec => k.put b.toNat (k.reg b.toNat - BitVec.ofNat 64 size)
  | _ => k

/-- The mode's scale is one of the five of R468. -/
def Addressing.ok : Addressing → Prop
  | .indexed _ scale | .indexedDisp _ scale _ => scale.toNat ≤ 4
  | _ => True

/-- What core `c` loads at `a` is `bs`: the bytes lie in a memory that it may load from and their stored words are
good, or they lie in the starter ROM (R451, R453, R455). -/
def State.loadsAs (s : State) (c : Nat) (a : Dword) (bs : Bytes) : Prop :=
  (∃ m off, s.place c (s.core c) a.toNat bs.length false = some (.mem m off) ∧
    (∀ i, i < bs.length → tget (s.arr m).raws (off + i) = none) ∧ mread (s.arr m).cells off bs.length = bs) ∨
  (∃ off, s.place c (s.core c) a.toNat bs.length false = some (.rom off) ∧
    padTo bs.length (bytesAt Config.starterRom off bs.length) = bs)

/-- Core `c` may store `n` bytes at `a`: they are the `n` bytes of memory `m` from `off` (R451, R453, R455). -/
def State.storesAt (s : State) (c : Nat) (a : Dword) (n m off : Nat) : Prop :=
  s.place c (s.core c) a.toNat n true = some (.mem m off)

/-- Packed bytes `bs` hold value `v` under sign nibble `g`, every digit and the sign valid (R499 to R501). -/
def IsPacked (bs : Bytes) (v : Int) (g : Nat) : Prop :=
  packedBad 1 bs = [] ∧ packedVal bs = v ∧ packedSign bs = g

/-- Zoned bytes `bs` hold value `v`, every digit and zone valid, with `g` as the last zone and 0xF as every other
(R504, R505, R517). -/
def IsZoned (bs : Bytes) (v : Int) (g : Nat) : Prop :=
  zonedBad bs = [] ∧ zonedVal bs = v ∧ (bs.getLastD 0).toNat / 16 = g ∧
  ∀ b ∈ bs.dropLast, b.toNat / 16 = 0xF

/-- The value that `n` decimal digits keep of `v`: its low digits, with its sign (R508). -/
def kept (n : Nat) (v : Int) : Int := if v < 0 then -((v.natAbs % 10 ^ n : Nat) : Int) else ((v.natAbs % 10 ^ n : Nat) : Int)

end Sys2Proof.Machine
end

