-- ==== Sys2Proof/WellFormed.lean ====
section
/-! DEFINITION. Which commands are well formed: every unit that a command names exists, every field fits the width
the spec gives it, and a core's word is one of its row's. -/

namespace Sys2Proof

open Sys2Proof.Machine

/-- A requester that the device has (R16, R175, R436). -/
def Requester.wf : Requester → Bool
  | .port p => decide (p < 2)
  | .core c => decide (c < 72)
  | .smbus => true

/-- A command's identity names a slice, and a queue and a command of 16 bits (R116, R198). -/
def CmdId.wf (c : CmdId) : Bool := decide (c.slice < 512) && decide (c.sqid < 65536) && decide (c.cid < 65536)

/-- The fields of a submission queue entry fit their widths (R198). -/
def SqEntry.wf (e : SqEntry) : Bool :=
  decide (e.opc < 256) && decide (e.cid < 65536) && decide (e.fuse < 4) && decide (e.psdt < 4) && decide (e.rsvd < 16) &&
  decide (e.nsid < 2 ^ 32)

/-- A range's fields fit their widths (R279). -/
def LbaRange.wf (r : LbaRange) : Bool := decide (r.slba < 2 ^ 64) && decide (r.count ≤ 2 ^ 32)

/-- A namespace's size fits its width (R325). -/
def NsCreate.wf (d : NsCreate) : Bool := decide (d.nsze < 2 ^ 64)

/-- A die number on its channel (R327). -/
def DieReport.wf (d : DieReport) : Bool := decide (d.die < 16)

/-- What the starter found of a channel names a channel and its dies (R327). -/
def ChannelReport.wf (c : ChannelReport) : Bool := decide (c.ch < 32) && c.dies.all DieReport.wf

/-- What the starter found outside the device names channels that exist. -/
def StartEnv.wf (e : StartEnv) : Bool := e.channels.all ChannelReport.wf

/-- A recorder register set that the device has (R960). -/
def EvrSet.wf : EvrSet → Bool
  | .own n => decide (n < 512)
  | .mirror n => decide (n < 512)
  | .bar0 => true
  | .smbus => true

/-- A HELLO names an address of 16 bits and a port (R815). -/
def HelloMsg.wf (h : HelloMsg) : Bool := decide (h.addr < 65536) && decide (h.port < 4)

/-- A SUMMARY names a field address (R821). -/
def SummaryMsg.wf (m : SummaryMsg) : Bool := decide (m.src < 65536)

/-- A request between partners names slices that exist (R841). -/
def PostMsg.wf (m : PostMsg) : Bool := decide (m.primary < 512) && decide (m.partner < 512)

/-- A migration message names slices that exist (R810). -/
def MigIds.wf (m : MigIds) : Bool := decide (m.srcSlice < 512) && decide (m.dstSlice < 512)

/-- A run carries its blocks, or is lost and carries none (R850). -/
def MigRun.wf (r : MigRun) : Bool := if r.lost then r.blocks.isEmpty else r.blocks.length = r.count

/-- The sizes of a register access (R14 to R16). -/
def accessSize (size : Nat) : Bool := size = 1 || size = 2 || size = 4 || size = 8

/-- A well-formed command. -/
def Instr.wf : Instr → Bool
  | .tick => true
  | .pollComplete _ _ => true
  | .lapBoundary => true
  | .heatLapLimit c => c.wf
  | .regWrite req _ _ size _ => req.wf && accessSize size
  | .reg64LowRead req _ span => req.wf && accessSize span.size
  | .reg64HighRead req _ _ => req.wf
  | .reg64LowWrite req _ _ _ => req.wf
  | .reg64HighWrite req _ _ _ => req.wf
  | .cmbAccess port _ _ _ _ => decide (port < 2)
  | .doorbellWrite port slice _ qid v ents => decide (port < 2) && decide (slice < 512) && decide (qid < 65536) && decide (v < 2 ^ 32) && ents.all SqEntry.wf
  | .load req => req.wf
  | .apply req => req.wf
  | .persist req => req.wf
  | .discard req => req.wf
  | .courseValidationEnd _ => true
  | .persistEnd _ => true
  | .request req => req.wf
  | .cancelCommit req => req.wf
  | .create req slice => req.wf && decide (slice < 512)
  | .resetDrain req slice => req.wf && decide (slice < 512)
  | .resetSquash req slice => req.wf && decide (slice < 512)
  | .freeze req slice => req.wf && decide (slice < 512)
  | .thaw req slice _ => req.wf && decide (slice < 512)
  | .save req slice => req.wf && decide (slice < 512)
  | .restore req slice => req.wf && decide (slice < 512)
  | .destroy req slice => req.wf && decide (slice < 512)
  | .migrate req slice => req.wf && decide (slice < 512)
  | .accept req slice => req.wf && decide (slice < 512)
  | .movePort req slice => req.wf && decide (slice < 512)
  | .cancel req slice => req.wf && decide (slice < 512)
  | .slcFetchEnd slice _ => decide (slice < 512)
  | .sliceFrozen slice => decide (slice < 512)
  | .resetComplete slice => decide (slice < 512)
  | .saveEnd slice _ => decide (slice < 512)
  | .restoreEnd slice _ => decide (slice < 512)
  | .destroyEnd slice => decide (slice < 512)
  | .flr port => decide (port < 2)
  | .hotReset port => decide (port < 2)
  | .perstAsserted port => decide (port < 2)
  | .perstReleased port => decide (port < 2)
  | .linkUp port _ _ _ _ => decide (port < 2)
  | .busMasterEnable port _ => decide (port < 2)
  | .ccEnable port slice _ => decide (port < 2) && decide (slice < 512)
  | .ccDisable port slice _ => decide (port < 2) && decide (slice < 512)
  | .ccShutdown port slice _ => decide (port < 2) && decide (slice < 512)
  | .shutdownComplete slice => decide (slice < 512)
  | .hostBusError slice => decide (slice < 512)
  | .dataTransferError c => c.wf
  | .deleteIoSubmissionQueue c => c.wf
  | .createIoSubmissionQueue c => c.wf
  | .getLogPage c => c.wf
  | .deleteIoCompletionQueue c => c.wf
  | .createIoCompletionQueue c => c.wf
  | .identify c => c.wf
  | .abort c => c.wf
  | .setFeatures c => c.wf
  | .getFeatures c => c.wf
  | .asynchronousEventRequest c => c.wf
  | .namespaceManagement c d => c.wf && d.wf
  | .namespaceAttachment c _ => c.wf
  | .formatNvm c => c.wf
  | .sanitize c => c.wf
  | .keyDelivery c _ => c.wf
  | .attestationReport c => c.wf
  | .heatProgramLoad c _ => c.wf
  | .patternTableLoad c _ => c.wf
  | .flush c => c.wf
  | .write c _ => c.wf
  | .read c => c.wf
  | .compare c _ => c.wf
  | .writeZeroes c => c.wf
  | .datasetManagement c rs => c.wf && rs.all LbaRange.wf
  | .verify c => c.wf
  | .reservationRegister c _ => c.wf
  | .reservationReport c => c.wf
  | .reservationAcquire c _ => c.wf
  | .reservationRelease c _ => c.wf
  | .ledgerPost c => c.wf
  | .ledgerPostListArrival c _ _ => c.wf
  | .heatRun c => c.wf
  | .heatDescriptorArrival c _ => c.wf
  | .hurdleRun c => c.wf
  | .hurdleDescriptorArrival c _ => c.wf
  | .patternSearch c => c.wf
  | .patternStep c => c.wf
  | .patternSearchBegin c _ _ => c.wf
  | .cipherTransform c => c.wf
  | .cipherTrailerArrival c _ => c.wf
  | .digest c => c.wf
  | .digestBatonArrival c _ => c.wf
  | .entryVisible slice _ => decide (slice < 512)
  | .flushStart slice _ => decide (slice < 512)
  | .journalRecordDurable => true
  | .holdupArmed => true
  | .holdupDisarmed => true
  | .powerFailLatch => true
  | .pwrOkLow => true
  | .emergencyFlushEnd _ => true
  | .thermalTrip => true
  | .checkpoint req => req.wf
  | .dumpLoss req _ => req.wf
  | .addUnpowered req => req.wf
  | .clearLoss req => req.wf
  | .checkpointStart _ => true
  | .checkpointComplete => true
  | .gcVictimStart die => decide (die < 512)
  | .gcErase blk => decide (dieOfBlk blk < 512)
  | .refreshStart blk => decide (dieOfBlk blk < 512)
  | .demoteBackground => true
  | .programFail _ => true
  | .eraseFail _ => true
  | .dieLost die => decide (die < 512)
  | .dieTempRead die _ => decide (die < 512)
  | .dump req ch _ => req.wf && decide (ch < 32)
  | .channelTraining ch dies _ => decide (ch < 32) && dies.all DieReport.wf
  | .nop core i => decide (core < 72) && wordLenOk (.w16 i) && isSys 1 i
  | .fence core i => decide (core < 72) && wordLenOk (.w16 i) && isSys 2 i
  | .ifence core i => decide (core < 72) && wordLenOk (.w16 i) && isSys 3 i
  | .eret core i => decide (core < 72) && wordLenOk (.w16 i) && isSys 4 i
  | .wait core i => decide (core < 72) && wordLenOk (.w16 i) && isSys 5 i
  | .halt core i => decide (core < 72) && wordLenOk (.w16 i) && isSys 6 i
  | .mov core i => decide (core < 72) && wordLenOk (.w16 i) && inRow 0x01 0x01 (.w16 i)
  | .aluRr core i => decide (core < 72) && wordLenOk (.w16 i) && inRow 0x02 0x07 (.w16 i)
  | .shiftRr core i => decide (core < 72) && wordLenOk (.w16 i) && inRow 0x08 0x0A (.w16 i)
  | .mulRr core i => decide (core < 72) && wordLenOk (.w16 i) && inRow 0x0B 0x0B (.w16 i)
  | .unary core i => decide (core < 72) && wordLenOk (.w16 i) && inRow 0x0C 0x0C (.w16 i)
  | .addi5 core i => decide (core < 72) && wordLenOk (.w16 i) && inRow 0x0D 0x0D (.w16 i)
  | .movi5 core i => decide (core < 72) && wordLenOk (.w16 i) && inRow 0x0E 0x0E (.w16 i)
  | .ldRr core i => decide (core < 72) && wordLenOk (.w16 i) && inRow 0x0F 0x0F (.w16 i)
  | .stRr core i => decide (core < 72) && wordLenOk (.w16 i) && inRow 0x10 0x10 (.w16 i)
  | .jr core i => decide (core < 72) && wordLenOk (.w16 i) && inRow 0x11 0x11 (.w16 i)
  | .jalr core i => decide (core < 72) && wordLenOk (.w16 i) && inRow 0x12 0x12 (.w16 i)
  | .addBSubB core i => decide (core < 72) && wordLenOk (.w16 i) && inRow 0x13 0x14 (.w16 i)
  | .daaB core i => decide (core < 72) && wordLenOk (.w16 i) && inRow 0x15 0x15 (.w16 i)
  | .dasB core i => decide (core < 72) && wordLenOk (.w16 i) && inRow 0x16 0x16 (.w16 i)
  | .aluTr core i => decide (core < 72) && wordLenOk (.w32 i) && inRow 0x00 0x07 (.w32 i)
  | .shiftTr core i => decide (core < 72) && wordLenOk (.w32 i) && inRow 0x08 0x0B (.w32 i)
  | .mulTr core i => decide (core < 72) && wordLenOk (.w32 i) && inRow 0x0C 0x0E (.w32 i)
  | .cmp core i => decide (core < 72) && wordLenOk (.w32 i) && inRow 0x0F 0x0F (.w32 i)
  | .divuDivsRemuRems core i => decide (core < 72) && wordLenOk (.w32 i) && inRow 0x10 0x13 (.w32 i)
  | .addi core i => decide (core < 72) && wordLenOk (.w32 i) && inRow 0x14 0x14 (.w32 i)
  | .andiOriXori core i => decide (core < 72) && wordLenOk (.w32 i) && inRow 0x15 0x17 (.w32 i)
  | .shliShriSari core i => decide (core < 72) && wordLenOk (.w32 i) && inRow 0x18 0x1A (.w32 i)
  | .cmpi core i => decide (core < 72) && wordLenOk (.w32 i) && inRow 0x1B 0x1B (.w32 i)
  | .movi core i => decide (core < 72) && wordLenOk (.w32 i) && inRow 0x1C 0x1C (.w32 i)
  | .rdsr core i => decide (core < 72) && wordLenOk (.w32 i) && inRow 0x1D 0x1D (.w32 i)
  | .wrsr core i => decide (core < 72) && wordLenOk (.w32 i) && inRow 0x1E 0x1E (.w32 i)
  | .rdfeat core i => decide (core < 72) && wordLenOk (.w32 i) && inRow 0x1F 0x1F (.w32 i)
  | .loadInstruction core w => decide (core < 72) && wordLenOk (memWord w) && memRow 0x20 0x27 0x08 0x0F w
  | .storeInstruction core w => decide (core < 72) && wordLenOk (memWord w) && memRow 0x28 0x2C 0x10 0x14 w
  | .lea core w => decide (core < 72) && wordLenOk (memWord w) && memRow 0x2D 0x2D 0x15 0x15 w
  | .swap core i => decide (core < 72) && wordLenOk (.w32 i) && inRow 0x2E 0x2E (.w32 i)
  | .cas core i => decide (core < 72) && wordLenOk (.w32 i) && inRow 0x2F 0x2F (.w32 i)
  | .fadd core i => decide (core < 72) && wordLenOk (.w32 i) && inRow 0x30 0x30 (.w32 i)
  | .b core i => decide (core < 72) && wordLenOk (.w32 i) && inRow 0x31 0x31 (.w32 i)
  | .jal core i => decide (core < 72) && wordLenOk (.w32 i) && inRow 0x32 0x32 (.w32 i)
  | .repI core i r => decide (core < 72) && wordLenOk (.w32 i) && inRow 0x33 0x33 (.w32 i) && wordLenOk r
  | .repU core i r => decide (core < 72) && wordLenOk (.w32 i) && inRow 0x34 0x34 (.w32 i) && wordLenOk r
  | .svc core i => decide (core < 72) && wordLenOk (.w32 i) && inRow 0x35 0x35 (.w32 i)
  | .svcExit core => decide (core < 72)
  | .svcBarrier core => decide (core < 72)
  | .svcYield core => decide (core < 72)
  | .addprSubprMulpr core i => decide (core < 72) && wordLenOk (.w32 i) && inRow 0x38 0x3A (.w32 i)
  | .cmppr core i => decide (core < 72) && wordLenOk (.w32 i) && inRow 0x3B 0x3B (.w32 i)
  | .movi32 core i => decide (core < 72) && wordLenOk (.w48 i) && inRow 0x00 0x00 (.w48 i)
  | .movhi32 core i => decide (core < 72) && wordLenOk (.w48 i) && inRow 0x01 0x01 (.w48 i)
  | .addi32 core i => decide (core < 72) && wordLenOk (.w48 i) && inRow 0x02 0x02 (.w48 i)
  | .cmpi32 core i => decide (core < 72) && wordLenOk (.w48 i) && inRow 0x03 0x03 (.w48 i)
  | .addp core i => decide (core < 72) && wordLenOk (.w48 i) && inRow 0x20 0x20 (.w48 i)
  | .subp core i => decide (core < 72) && wordLenOk (.w48 i) && inRow 0x21 0x21 (.w48 i)
  | .mulp core i => decide (core < 72) && wordLenOk (.w48 i) && inRow 0x22 0x22 (.w48 i)
  | .divp core i => decide (core < 72) && wordLenOk (.w48 i) && inRow 0x23 0x23 (.w48 i)
  | .cmpp core i => decide (core < 72) && wordLenOk (.w48 i) && inRow 0x24 0x24 (.w48 i)
  | .movp core i => decide (core < 72) && wordLenOk (.w48 i) && inRow 0x25 0x25 (.w48 i)
  | .pack core i => decide (core < 72) && wordLenOk (.w48 i) && inRow 0x26 0x26 (.w48 i)
  | .unpk core i => decide (core < 72) && wordLenOk (.w48 i) && inRow 0x27 0x27 (.w48 i)
  | .edit core i => decide (core < 72) && wordLenOk (.w48 i) && inRow 0x28 0x28 (.w48 i)
  | .shfp core i => decide (core < 72) && wordLenOk (.w48 i) && inRow 0x29 0x29 (.w48 i)
  | .cvbp core i => decide (core < 72) && wordLenOk (.w48 i) && inRow 0x2A 0x2A (.w48 i)
  | .cvpb core i => decide (core < 72) && wordLenOk (.w48 i) && inRow 0x2B 0x2B (.w48 i)
  | .budgetExhausted core => decide (core < 72)
  | .stop core => decide (core < 72)
  | .suspend core => decide (core < 72)
  | .heatStaged c => c.wf
  | .heatLoadingStart c => c.wf
  | .heatRunningStart c => c.wf
  | .heatDelivered c _ => c.wf
  | .heatStop port slice _ => decide (port < 2) && decide (slice < 512)
  | .hdlStop port slice _ => decide (port < 2) && decide (slice < 512)
  | .patternWritePhase c => c.wf
  | .patternApplyPhase c => c.wf
  | .securityAlarm src => decide (1 ≤ src) && decide (src ≤ 6)
  | .keyChangeEffect _ => true
  | .pkJobComplete => true
  | .go req _ => req.wf
  | .readRaw req => req.wf
  | .writeRaw req => req.wf
  | .readPage req _ => req.wf
  | .writePage req _ => req.wf
  | .dramTempChange sub _ => decide (sub < 8)
  | .dramTraining ch _ => decide (ch < 4)
  | .wake req => req.wf
  | .pwrTimerExpiry => true
  | .refreshWake => true
  | .powerEntryBegin => true
  | .powerStateReached => true
  | .powerExitComplete env => env.start.wf
  | .clusterPllLock cluster => decide (cluster < 8)
  | .evrCheckRead set => set.wf
  | .freezeRing set => set.wf
  | .release set => set.wf
  | .freezeExpiry inst => inst.all (fun n => decide (n < 512))
  | .evrClear req _ => req.wf
  | .coldStart => true
  | .starterBegin env => env.wf
  | .fwLoad req _ => req.wf
  | .fwActivate req => req.wf
  | .fwConfirm req => req.wf
  | .restart req => req.wf
  | .deviceFault src => decide (1 ≤ src) && decide (src ≤ 5)
  | .watchdogExpiry => true
  | .faultFlushEnd => true
  | .phyUp p _ => decide (p < 4)
  | .phyDown p => decide (p < 4)
  | .linkSilent p => decide (p < 4)
  | .helloRepeat p => decide (p < 4)
  | .summarySend => true
  | .pairConfirmSend slice => decide (slice < 512)
  | .retransmitTimeout _ => true
  | .peerDeclaredLost addr _ => decide (addr < 65536)
  | .relayFrameDiscard p _ => decide (p < 4)
  | .hello p h => decide (p < 4) && h.wf
  | .linkOffer p _ => decide (p < 4)
  | .linkAnswer p _ => decide (p < 4)
  | .fieldKey p _ _ _ => decide (p < 4)
  | .pace p _ => decide (p < 4)
  | .summary p m => decide (p < 4) && m.wf
  | .roster p _ => decide (p < 4)
  | .postReq src _ m => decide (src < 65536) && m.wf
  | .postAck src slice _ _ => decide (src < 65536) && decide (slice < 512)
  | .resync src _ m => decide (src < 65536) && m.wf
  | .pairConfirm src _ _ primary partner => decide (src < 65536) && decide (primary < 512) && decide (partner < 512)
  | .migOffer src _ m _ _ => decide (src < 65536) && m.wf
  | .migReply src slice _ _ => decide (src < 65536) && decide (slice < 512)
  | .migBaton src _ m _ => decide (src < 65536) && m.wf
  | .migData src _ m r => decide (src < 65536) && m.wf && r.wf
  | .migCommit src _ m _ _ => decide (src < 65536) && m.wf
  | .migCommitted src m => decide (src < 65536) && m.wf
  | .migErased src _ m => decide (src < 65536) && m.wf
  | .migErasedAck src m => decide (src < 65536) && m.wf
  | .migAbort src _ m _ => decide (src < 65536) && m.wf
  | .ack src _ _ => decide (src < 65536)
  | .loadRoster req _ => req.wf
  | .rekey req => req.wf
  | .dumpField req _ => req.wf
  | .setTime req => req.wf
  | .ppsEdge _ _ => true
  | .smbusBasicManagement code => decide (code < 256)
  | .smbusSelectWrite _ _ => true
  | .smbusBlockRead => true
  | .smbusBlockWrite _ _ _ => true
  | .extest => true
  | .idcode => true
  | .samplePreload => true
  | .highz => true
  | .clamp => true
  | .bypass => true
  | .debugInstruction code => decide (code < 256)
  | .tapReset => true
  | .pcieL1Exit port => decide (port < 2)
  | .pfailNReturnsHigh env => env.wf

end Sys2Proof
end

