-- ==== Sys2Proof/Certificates/Slice0/Obligations.lean ====
section
/-! DEFINITION. The statements about the machine. Each says what a rule of the spec says of a command, or what every
command keeps. -/

open Sys2Proof Sys2Proof.Machine

/-- For every command c and state s, a step of s with c put at the front of its queue is exec c on s with the
queue's rest. (01_architecture_and_stride.md.) -/
def Obligations.StepRunsTheFrontCommand : Prop :=
  (∀ (s : State) (c : Instr), step { s with pending := c :: s.pending } = exec c s)

/-- On an empty queue a step answers the state itself. This is the model's choice, log entry 1: time passes only by
the command TICK. (01_architecture_and_stride.md.) -/
def Obligations.AnEmptyQueueIdles : Prop :=
  (∀ s : State, s.pending = [] → step s = .next s)

/-- From every state whose controller memory buffer, SRAM arrays and DRAM are in canonical form (addresses strictly
rising, no entry equal to what an unlisted byte reads as), a step that answers a next state answers one of that
form. The form is the model's own (log entry 4). (01_architecture_and_stride.md, 16_memory_protection_and_dram.md.)
-/
def Obligations.MemoriesStayCanonical : Prop :=
  (∀ s t : State, s.memOk → step s = .next t → t.memOk)

/-- State.reset has every memory in canonical form, which MemoriesStayCanonical keeps.
(16_memory_protection_and_dram.md.) -/
def Obligations.MemoriesAreCanonicalAtReset : Prop :=
  (State.reset.memOk)

/-- Whatever command answers a next state: COLD_START leaves the stride counter 0; TICK, and LAP_BOUNDARY where the
next stride is a multiple of 4,000, raise it by 1 unless the device has no supply; every other command leaves it.
(01_architecture_and_stride.md.) -/
def Obligations.TheStrideCounts : Prop :=
  (∀ (s t : State) (c : Instr), exec c s = .next t →
    t.stride = if c = .coldStart then 0
      else if s.dev.run ≠ .off ∧ (c = .tick ∨ c = .lapBoundary ∧ (s.stride + 1) % 4000 = 0) then s.stride + 1
      else s.stride)

/-- If a step answers a next state, its queue is the old queue without its front, and the variant, the device
identifier and the cipher instance are as before. (00_scope.md, 02_course_image.md, 13_cipher_engine.md.) -/
def Obligations.FusedValuesAndTheQueueStay : Prop :=
  (∀ s t : State, step s = .next t → t.pending = s.pending.tail ∧ t.variant = s.variant ∧ t.deviceId = s.deviceId ∧
    t.instanceId = s.instanceId)

/-- If a step answers a next state, the fused course epoch and the fused firmware epoch are at least what they were.
(02_course_image.md, 19_startup_faults_and_injection.md.) -/
def Obligations.FusedEpochsNeverFall : Prop :=
  (∀ s t : State, step s = .next t → s.dur.fusedEpoch ≤ t.dur.fusedEpoch ∧ s.dur.fwFusedEpoch ≤ t.dur.fwFusedEpoch)

/-- For every well-formed command and every state, exec answers a next state: no command that names units the device
has ends in a fault or a refusal. (01_architecture_and_stride.md.) -/
def Obligations.WellFormedCommandsNeverStop : Prop :=
  (∀ (c : Instr) (s : State), c.wf = true → ∃ t, exec c s = .next t)

/-- A slice from 512, a port from 2, a core from 72, a die from 512, a relay port from 4 and a cluster from 8 end
the command in the fault named after the unit. This is the model's choice, log entry 9. (03_slices.md,
04_host_interface_and_queues.md, 08_norsor_isa.md, 06_flash_translation.md, 15_relay_and_field.md, 17_power.md.) -/
def Obligations.OutOfRangeUnitsStopByName : Prop :=
  (∀ (s : State) (n : Nat), 512 ≤ n → exec (.sliceFrozen n) s = .fault (.noSuchSlice n)) ∧
  (∀ (s : State) (p : Nat), 2 ≤ p → exec (.hotReset p) s = .fault (.noSuchPort p)) ∧
  (∀ (s : State) (c : Nat), 72 ≤ c → exec (.stop c) s = .fault (.noSuchCore c)) ∧
  (∀ (s : State) (d : Nat), 512 ≤ d → exec (.dieLost d) s = .fault (.noSuchMedia d)) ∧
  (∀ (s : State) (p : Nat), 4 ≤ p → exec (.phyDown p) s = .fault (.noSuchRelayPort p)) ∧
  (∀ (s : State) (k : Nat), 8 ≤ k → exec (.clusterPllLock k) s = .fault (.noSuchUnit k))

/-- On a core at an instruction boundary the two-operand, three-operand and immediate additions write the 64-bit sum
(ADC with FLG.C added), set C to the carry out, V to signed overflow, Z and N from the result, keep every other
flag, and advance the pc by the instruction's length. Everything else stays: the next state is the old one with this
core replaced, its place in the stride moved on by the cycles taken (at least one, and no more than the
instruction's bound), CYC reduced by them in heat mode, and the count of free values raised (State.ran).
(08_norsor_isa.md.) -/
def Obligations.AdditionsAndTheirFlags : Prop :=
  (∀ (s : State) (c : Nat) (k : Core) (d g : BitVec 5), k = s.core c → s.atInstr c 2 →
    ∃ t f, exec (.aluRr c (Fmt.rr 0x02 d g)) s = .next t ∧ FlgAdd k.flg f (k.reg d.toNat) (k.reg g.toNat) 0 ∧
      s.ran t c { k.put d.toNat (k.reg d.toNat + k.reg g.toNat) with flg := f, pc := k.pc + 2 } (some 1)) ∧
  (∀ (s : State) (c : Nat) (k : Core) (d a b : BitVec 5), k = s.core c → s.atInstr c 4 →
    ∃ t f, exec (.aluTr c (Fmt.tr 0x00 d a b)) s = .next t ∧ FlgAdd k.flg f (k.reg a.toNat) (k.reg b.toNat) 0 ∧
      s.ran t c { k.put d.toNat (k.reg a.toNat + k.reg b.toNat) with flg := f, pc := k.pc + 4 } (some 1)) ∧
  (∀ (s : State) (c : Nat) (k : Core) (d a b : BitVec 5) (cin : Nat), k = s.core c → s.atInstr c 4 →
    cin = (if k.flg.getLsbD 0 then 1 else 0) →
    ∃ t f, exec (.aluTr c (Fmt.tr 0x02 d a b)) s = .next t ∧ FlgAdd k.flg f (k.reg a.toNat) (k.reg b.toNat) cin ∧
      s.ran t c { k.put d.toNat (k.reg a.toNat + k.reg b.toNat + BitVec.ofNat 64 cin) with
                  flg := f, pc := k.pc + 4 } (some 1)) ∧
  (∀ (s : State) (c : Nat) (k : Core) (d imm : BitVec 5), k = s.core c → s.atInstr c 2 →
    ∃ t f, exec (.addi5 c (Fmt.rr 0x0D d imm)) s = .next t ∧ FlgAdd k.flg f (k.reg d.toNat) (imm.signExtend 64) 0 ∧
      s.ran t c { k.put d.toNat (k.reg d.toNat + imm.signExtend 64) with flg := f, pc := k.pc + 2 } (some 1)) ∧
  (∀ (s : State) (c : Nat) (k : Core) (d a : BitVec 5) (imm : BitVec 14), k = s.core c → s.atInstr c 4 →
    ∃ t f, exec (.addi c (Fmt.im 0x14 d a imm)) s = .next t ∧ FlgAdd k.flg f (k.reg a.toNat) (imm.signExtend 64) 0 ∧
      s.ran t c { k.put d.toNat (k.reg a.toNat + imm.signExtend 64) with flg := f, pc := k.pc + 4 } (some 1)) ∧
  (∀ (s : State) (c : Nat) (k : Core) (d : BitVec 5) (imm : BitVec 32), k = s.core c → s.atInstr c 6 →
    ∃ t f, exec (.addi32 c (Fmt.wi 0x02 d imm)) s = .next t ∧ FlgAdd k.flg f (k.reg d.toNat) (imm.signExtend 64) 0 ∧
      s.ran t c { k.put d.toNat (k.reg d.toNat + imm.signExtend 64) with flg := f, pc := k.pc + 6 } (some 1))

/-- SUB, SBC (with the borrow that FLG.C = 0 means) and NEG write the difference; CMP, CMPI and CMPI32 write no
register. C is 1 without borrow, V is signed overflow, Z and N are of the difference, and every other flag is kept.
Everything else stays: the next state is the old one with this core replaced, its place in the stride moved on by
the cycles taken (at least one, and no more than the instruction's bound), CYC reduced by them in heat mode, and the
count of free values raised (State.ran). (08_norsor_isa.md.) -/
def Obligations.SubtractionsAndComparisons : Prop :=
  (∀ (s : State) (c : Nat) (k : Core) (d g : BitVec 5), k = s.core c → s.atInstr c 2 →
    ∃ t f, exec (.aluRr c (Fmt.rr 0x03 d g)) s = .next t ∧ FlgSub k.flg f (k.reg d.toNat) (k.reg g.toNat) 0 ∧
      s.ran t c { k.put d.toNat (k.reg d.toNat - k.reg g.toNat) with flg := f, pc := k.pc + 2 } (some 1)) ∧
  (∀ (s : State) (c : Nat) (k : Core) (d g : BitVec 5), k = s.core c → s.atInstr c 2 →
    ∃ t f, exec (.aluRr c (Fmt.rr 0x07 d g)) s = .next t ∧ FlgSub k.flg f (k.reg d.toNat) (k.reg g.toNat) 0 ∧
      s.ran t c { k with flg := f, pc := k.pc + 2 } (some 1)) ∧
  (∀ (s : State) (c : Nat) (k : Core) (d a b : BitVec 5), k = s.core c → s.atInstr c 4 →
    ∃ t f, exec (.aluTr c (Fmt.tr 0x01 d a b)) s = .next t ∧ FlgSub k.flg f (k.reg a.toNat) (k.reg b.toNat) 0 ∧
      s.ran t c { k.put d.toNat (k.reg a.toNat - k.reg b.toNat) with flg := f, pc := k.pc + 4 } (some 1)) ∧
  (∀ (s : State) (c : Nat) (k : Core) (d a b : BitVec 5) (bin : Nat), k = s.core c → s.atInstr c 4 →
    bin = (if k.flg.getLsbD 0 then 0 else 1) →
    ∃ t f, exec (.aluTr c (Fmt.tr 0x03 d a b)) s = .next t ∧ FlgSub k.flg f (k.reg a.toNat) (k.reg b.toNat) bin ∧
      s.ran t c { k.put d.toNat (k.reg a.toNat - k.reg b.toNat - BitVec.ofNat 64 bin) with
                  flg := f, pc := k.pc + 4 } (some 1)) ∧
  (∀ (s : State) (c : Nat) (k : Core) (d : BitVec 5), k = s.core c → s.atInstr c 2 →
    ∃ t f, exec (.unary c (Fmt.rr 0x0C d 0)) s = .next t ∧ FlgSub k.flg f 0 (k.reg d.toNat) 0 ∧
      s.ran t c { k.put d.toNat (0 - k.reg d.toNat) with flg := f, pc := k.pc + 2 } (some 1)) ∧
  (∀ (s : State) (c : Nat) (k : Core) (a b : BitVec 5), k = s.core c → s.atInstr c 4 →
    ∃ t f, exec (.cmp c (Fmt.tr 0x0F 0 a b)) s = .next t ∧ FlgSub k.flg f (k.reg a.toNat) (k.reg b.toNat) 0 ∧
      s.ran t c { k with flg := f, pc := k.pc + 4 } (some 1)) ∧
  (∀ (s : State) (c : Nat) (k : Core) (a : BitVec 5) (imm : BitVec 14), k = s.core c → s.atInstr c 4 →
    ∃ t f, exec (.cmpi c (Fmt.im 0x1B 0 a imm)) s = .next t ∧ FlgSub k.flg f (k.reg a.toNat) (imm.signExtend 64) 0 ∧
      s.ran t c { k with flg := f, pc := k.pc + 4 } (some 1)) ∧
  (∀ (s : State) (c : Nat) (k : Core) (d : BitVec 5) (imm : BitVec 32), k = s.core c → s.atInstr c 6 →
    ∃ t f, exec (.cmpi32 c (Fmt.wi 0x03 d imm)) s = .next t ∧ FlgSub k.flg f (k.reg d.toNat) (imm.signExtend 64) 0 ∧
      s.ran t c { k with flg := f, pc := k.pc + 6 } (some 1))

/-- The logic instructions write the bitwise result (immediates zero-extended), set Z and N from it and keep every
other flag. Everything else stays: the next state is the old one with this core replaced, its place in the stride
moved on by the cycles taken (at least one, and no more than the instruction's bound), CYC reduced by them in heat
mode, and the count of free values raised (State.ran). (08_norsor_isa.md.) -/
def Obligations.LogicAndItsFlags : Prop :=
  (∀ (s : State) (c : Nat) (k : Core) (d g : BitVec 5) (r : Dword), k = s.core c → s.atInstr c 2 →
    r = k.reg d.toNat &&& k.reg g.toNat →
    ∃ t f, exec (.aluRr c (Fmt.rr 0x04 d g)) s = .next t ∧ FlgNZ k.flg f r ∧
      s.ran t c { k.put d.toNat r with flg := f, pc := k.pc + 2 } (some 1)) ∧
  (∀ (s : State) (c : Nat) (k : Core) (d g : BitVec 5) (r : Dword), k = s.core c → s.atInstr c 2 →
    r = k.reg d.toNat ||| k.reg g.toNat →
    ∃ t f, exec (.aluRr c (Fmt.rr 0x05 d g)) s = .next t ∧ FlgNZ k.flg f r ∧
      s.ran t c { k.put d.toNat r with flg := f, pc := k.pc + 2 } (some 1)) ∧
  (∀ (s : State) (c : Nat) (k : Core) (d g : BitVec 5) (r : Dword), k = s.core c → s.atInstr c 2 →
    r = k.reg d.toNat ^^^ k.reg g.toNat →
    ∃ t f, exec (.aluRr c (Fmt.rr 0x06 d g)) s = .next t ∧ FlgNZ k.flg f r ∧
      s.ran t c { k.put d.toNat r with flg := f, pc := k.pc + 2 } (some 1)) ∧
  (∀ (s : State) (c : Nat) (k : Core) (d a b : BitVec 5) (r : Dword), k = s.core c → s.atInstr c 4 →
    r = k.reg a.toNat &&& k.reg b.toNat →
    ∃ t f, exec (.aluTr c (Fmt.tr 0x04 d a b)) s = .next t ∧ FlgNZ k.flg f r ∧
      s.ran t c { k.put d.toNat r with flg := f, pc := k.pc + 4 } (some 1)) ∧
  (∀ (s : State) (c : Nat) (k : Core) (d a b : BitVec 5) (r : Dword), k = s.core c → s.atInstr c 4 →
    r = k.reg a.toNat ||| k.reg b.toNat →
    ∃ t f, exec (.aluTr c (Fmt.tr 0x05 d a b)) s = .next t ∧ FlgNZ k.flg f r ∧
      s.ran t c { k.put d.toNat r with flg := f, pc := k.pc + 4 } (some 1)) ∧
  (∀ (s : State) (c : Nat) (k : Core) (d a b : BitVec 5) (r : Dword), k = s.core c → s.atInstr c 4 →
    r = k.reg a.toNat ^^^ k.reg b.toNat →
    ∃ t f, exec (.aluTr c (Fmt.tr 0x06 d a b)) s = .next t ∧ FlgNZ k.flg f r ∧
      s.ran t c { k.put d.toNat r with flg := f, pc := k.pc + 4 } (some 1)) ∧
  (∀ (s : State) (c : Nat) (k : Core) (d a b : BitVec 5) (r : Dword), k = s.core c → s.atInstr c 4 →
    r = k.reg a.toNat &&& ~~~(k.reg b.toNat) →
    ∃ t f, exec (.aluTr c (Fmt.tr 0x07 d a b)) s = .next t ∧ FlgNZ k.flg f r ∧
      s.ran t c { k.put d.toNat r with flg := f, pc := k.pc + 4 } (some 1)) ∧
  (∀ (s : State) (c : Nat) (k : Core) (d a : BitVec 5) (imm : BitVec 14) (r : Dword), k = s.core c → s.atInstr c 4 →
    r = k.reg a.toNat &&& imm.setWidth 64 →
    ∃ t f, exec (.andiOriXori c (Fmt.im 0x15 d a imm)) s = .next t ∧ FlgNZ k.flg f r ∧
      s.ran t c { k.put d.toNat r with flg := f, pc := k.pc + 4 } (some 1)) ∧
  (∀ (s : State) (c : Nat) (k : Core) (d a : BitVec 5) (imm : BitVec 14) (r : Dword), k = s.core c → s.atInstr c 4 →
    r = k.reg a.toNat ||| imm.setWidth 64 →
    ∃ t f, exec (.andiOriXori c (Fmt.im 0x16 d a imm)) s = .next t ∧ FlgNZ k.flg f r ∧
      s.ran t c { k.put d.toNat r with flg := f, pc := k.pc + 4 } (some 1)) ∧
  (∀ (s : State) (c : Nat) (k : Core) (d a : BitVec 5) (imm : BitVec 14) (r : Dword), k = s.core c → s.atInstr c 4 →
    r = k.reg a.toNat ^^^ imm.setWidth 64 →
    ∃ t f, exec (.andiOriXori c (Fmt.im 0x17 d a imm)) s = .next t ∧ FlgNZ k.flg f r ∧
      s.ran t c { k.put d.toNat r with flg := f, pc := k.pc + 4 } (some 1)) ∧
  (∀ (s : State) (c : Nat) (k : Core) (d : BitVec 5) (r : Dword), k = s.core c → s.atInstr c 2 →
    r = ~~~(k.reg d.toNat) →
    ∃ t f, exec (.unary c (Fmt.rr 0x0C d 1)) s = .next t ∧ FlgNZ k.flg f r ∧
      s.ran t c { k.put d.toNat r with flg := f, pc := k.pc + 2 } (some 1))

/-- SHL, SHR, SAR and ROR by a register's low six bits, and the immediate shifts, write the shifted value, set Z and
N and keep every other flag. Everything else stays: the next state is the old one with this core replaced, its place
in the stride moved on by the cycles taken (at least one, and no more than the instruction's bound), CYC reduced by
them in heat mode, and the count of free values raised (State.ran). (08_norsor_isa.md.) -/
def Obligations.ShiftsAndTheirFlags : Prop :=
  (∀ (s : State) (c : Nat) (k : Core) (d g : BitVec 5) (r : Dword), k = s.core c → s.atInstr c 2 →
    r = (k.reg d.toNat) <<< ((k.reg g.toNat).toNat % 64) →
    ∃ t f, exec (.shiftRr c (Fmt.rr 0x08 d g)) s = .next t ∧ FlgNZ k.flg f r ∧
      s.ran t c { k.put d.toNat r with flg := f, pc := k.pc + 2 } (some 1)) ∧
  (∀ (s : State) (c : Nat) (k : Core) (d g : BitVec 5) (r : Dword), k = s.core c → s.atInstr c 2 →
    r = (k.reg d.toNat) >>> ((k.reg g.toNat).toNat % 64) →
    ∃ t f, exec (.shiftRr c (Fmt.rr 0x09 d g)) s = .next t ∧ FlgNZ k.flg f r ∧
      s.ran t c { k.put d.toNat r with flg := f, pc := k.pc + 2 } (some 1)) ∧
  (∀ (s : State) (c : Nat) (k : Core) (d g : BitVec 5) (r : Dword), k = s.core c → s.atInstr c 2 →
    r = (k.reg d.toNat).sshiftRight ((k.reg g.toNat).toNat % 64) →
    ∃ t f, exec (.shiftRr c (Fmt.rr 0x0A d g)) s = .next t ∧ FlgNZ k.flg f r ∧
      s.ran t c { k.put d.toNat r with flg := f, pc := k.pc + 2 } (some 1)) ∧
  (∀ (s : State) (c : Nat) (k : Core) (d a b : BitVec 5) (r : Dword), k = s.core c → s.atInstr c 4 →
    r = (k.reg a.toNat) <<< ((k.reg b.toNat).toNat % 64) →
    ∃ t f, exec (.shiftTr c (Fmt.tr 0x08 d a b)) s = .next t ∧ FlgNZ k.flg f r ∧
      s.ran t c { k.put d.toNat r with flg := f, pc := k.pc + 4 } (some 1)) ∧
  (∀ (s : State) (c : Nat) (k : Core) (d a b : BitVec 5) (r : Dword), k = s.core c → s.atInstr c 4 →
    r = (k.reg a.toNat) >>> ((k.reg b.toNat).toNat % 64) →
    ∃ t f, exec (.shiftTr c (Fmt.tr 0x09 d a b)) s = .next t ∧ FlgNZ k.flg f r ∧
      s.ran t c { k.put d.toNat r with flg := f, pc := k.pc + 4 } (some 1)) ∧
  (∀ (s : State) (c : Nat) (k : Core) (d a b : BitVec 5) (r : Dword), k = s.core c → s.atInstr c 4 →
    r = (k.reg a.toNat).sshiftRight ((k.reg b.toNat).toNat % 64) →
    ∃ t f, exec (.shiftTr c (Fmt.tr 0x0A d a b)) s = .next t ∧ FlgNZ k.flg f r ∧
      s.ran t c { k.put d.toNat r with flg := f, pc := k.pc + 4 } (some 1)) ∧
  (∀ (s : State) (c : Nat) (k : Core) (d a b : BitVec 5) (r : Dword), k = s.core c → s.atInstr c 4 →
    r = (k.reg a.toNat).rotateRight ((k.reg b.toNat).toNat % 64) →
    ∃ t f, exec (.shiftTr c (Fmt.tr 0x0B d a b)) s = .next t ∧ FlgNZ k.flg f r ∧
      s.ran t c { k.put d.toNat r with flg := f, pc := k.pc + 4 } (some 1)) ∧
  (∀ (s : State) (c : Nat) (k : Core) (d a : BitVec 5) (n : BitVec 6) (r : Dword), k = s.core c → s.atInstr c 4 →
    r = (k.reg a.toNat) <<< n.toNat →
    ∃ t f, exec (.shliShriSari c (Fmt.sh 0x18 d a n)) s = .next t ∧ FlgNZ k.flg f r ∧
      s.ran t c { k.put d.toNat r with flg := f, pc := k.pc + 4 } (some 1)) ∧
  (∀ (s : State) (c : Nat) (k : Core) (d a : BitVec 5) (n : BitVec 6) (r : Dword), k = s.core c → s.atInstr c 4 →
    r = (k.reg a.toNat) >>> n.toNat →
    ∃ t f, exec (.shliShriSari c (Fmt.sh 0x19 d a n)) s = .next t ∧ FlgNZ k.flg f r ∧
      s.ran t c { k.put d.toNat r with flg := f, pc := k.pc + 4 } (some 1)) ∧
  (∀ (s : State) (c : Nat) (k : Core) (d a : BitVec 5) (n : BitVec 6) (r : Dword), k = s.core c → s.atInstr c 4 →
    r = (k.reg a.toNat).sshiftRight n.toNat →
    ∃ t f, exec (.shliShriSari c (Fmt.sh 0x1A d a n)) s = .next t ∧ FlgNZ k.flg f r ∧
      s.ran t c { k.put d.toNat r with flg := f, pc := k.pc + 4 } (some 1))

/-- MUL writes the low 64 bits of the product, MULHU and MULHS the high 64 bits of the unsigned and the signed
product; no flag changes. Everything else stays: the next state is the old one with this core replaced, its place in
the stride moved on by the cycles taken (at least one, and no more than the instruction's bound), CYC reduced by
them in heat mode, and the count of free values raised (State.ran). (08_norsor_isa.md.) -/
def Obligations.Products : Prop :=
  (∀ (s : State) (c : Nat) (k : Core) (d g : BitVec 5), k = s.core c → s.atInstr c 2 →
    ∃ t, exec (.mulRr c (Fmt.rr 0x0B d g)) s = .next t ∧
      s.ran t c { k.put d.toNat (k.reg d.toNat * k.reg g.toNat) with pc := k.pc + 2 } (some 3)) ∧
  (∀ (s : State) (c : Nat) (k : Core) (d a b : BitVec 5), k = s.core c → s.atInstr c 4 →
    ∃ t, exec (.mulTr c (Fmt.tr 0x0C d a b)) s = .next t ∧
      s.ran t c { k.put d.toNat (k.reg a.toNat * k.reg b.toNat) with pc := k.pc + 4 } (some 3)) ∧
  (∀ (s : State) (c : Nat) (k : Core) (d a b : BitVec 5), k = s.core c → s.atInstr c 4 →
    ∃ t, exec (.mulTr c (Fmt.tr 0x0D d a b)) s = .next t ∧
      s.ran t c { k.put d.toNat (BitVec.ofNat 64 ((k.reg a.toNat).toNat * (k.reg b.toNat).toNat / 2 ^ 64)) with pc := k.pc + 4 } (some 3)) ∧
  (∀ (s : State) (c : Nat) (k : Core) (d a b : BitVec 5), k = s.core c → s.atInstr c 4 →
    ∃ t, exec (.mulTr c (Fmt.tr 0x0E d a b)) s = .next t ∧
      s.ran t c { k.put d.toNat (BitVec.ofInt 64 ((k.reg a.toNat).toInt * (k.reg b.toNat).toInt / 2 ^ 64)) with pc := k.pc + 4 } (some 3))

/-- SXB, SXH, SXW, ZXB, ZXH and ZXW extend the low part of the register; CLZ gives the number n of leading zeros (64
for zero), POPC the number of ones, BSWAP the bytes in reverse order. No flag changes. Everything else stays: the
next state is the old one with this core replaced, its place in the stride moved on by the cycles taken (at least
one, and no more than the instruction's bound), CYC reduced by them in heat mode, and the count of free values
raised (State.ran). (08_norsor_isa.md.) -/
def Obligations.UnaryOperations : Prop :=
  (∀ (s : State) (c : Nat) (k : Core) (d : BitVec 5), k = s.core c → s.atInstr c 2 →
    ∃ t, exec (.unary c (Fmt.rr 0x0C d 2)) s = .next t ∧
      s.ran t c { k.put d.toNat (((k.reg d.toNat).setWidth 8).signExtend 64) with pc := k.pc + 2 } (some 1)) ∧
  (∀ (s : State) (c : Nat) (k : Core) (d : BitVec 5), k = s.core c → s.atInstr c 2 →
    ∃ t, exec (.unary c (Fmt.rr 0x0C d 3)) s = .next t ∧
      s.ran t c { k.put d.toNat (((k.reg d.toNat).setWidth 16).signExtend 64) with pc := k.pc + 2 } (some 1)) ∧
  (∀ (s : State) (c : Nat) (k : Core) (d : BitVec 5), k = s.core c → s.atInstr c 2 →
    ∃ t, exec (.unary c (Fmt.rr 0x0C d 4)) s = .next t ∧
      s.ran t c { k.put d.toNat (((k.reg d.toNat).setWidth 32).signExtend 64) with pc := k.pc + 2 } (some 1)) ∧
  (∀ (s : State) (c : Nat) (k : Core) (d : BitVec 5), k = s.core c → s.atInstr c 2 →
    ∃ t, exec (.unary c (Fmt.rr 0x0C d 5)) s = .next t ∧
      s.ran t c { k.put d.toNat (((k.reg d.toNat).setWidth 8).setWidth 64) with pc := k.pc + 2 } (some 1)) ∧
  (∀ (s : State) (c : Nat) (k : Core) (d : BitVec 5), k = s.core c → s.atInstr c 2 →
    ∃ t, exec (.unary c (Fmt.rr 0x0C d 6)) s = .next t ∧
      s.ran t c { k.put d.toNat (((k.reg d.toNat).setWidth 16).setWidth 64) with pc := k.pc + 2 } (some 1)) ∧
  (∀ (s : State) (c : Nat) (k : Core) (d : BitVec 5), k = s.core c → s.atInstr c 2 →
    ∃ t, exec (.unary c (Fmt.rr 0x0C d 7)) s = .next t ∧
      s.ran t c { k.put d.toNat (((k.reg d.toNat).setWidth 32).setWidth 64) with pc := k.pc + 2 } (some 1)) ∧
  (∀ (s : State) (c : Nat) (k : Core) (d : BitVec 5), k = s.core c → s.atInstr c 2 →
    ∃ t n, exec (.unary c (Fmt.rr 0x0C d 8)) s = .next t ∧ n ≤ 64 ∧ (k.reg d.toNat).toNat < 2 ^ (64 - n) ∧
      (n < 64 → 2 ^ (63 - n) ≤ (k.reg d.toNat).toNat) ∧
      s.ran t c { k.put d.toNat (BitVec.ofNat 64 n) with pc := k.pc + 2 } (some 1)) ∧
  (∀ (s : State) (c : Nat) (k : Core) (d : BitVec 5), k = s.core c → s.atInstr c 2 →
    ∃ t, exec (.unary c (Fmt.rr 0x0C d 9)) s = .next t ∧
      s.ran t c { k.put d.toNat (BitVec.ofNat 64
        (((List.range 64).map (fun j => if (k.reg d.toNat).getLsbD j then 1 else 0)).sum)) with pc := k.pc + 2 } (some 1)) ∧
  (∀ (s : State) (c : Nat) (k : Core) (d : BitVec 5), k = s.core c → s.atInstr c 2 →
    ∃ t v, exec (.unary c (Fmt.rr 0x0C d 10)) s = .next t ∧
      leBytes 8 v.toNat = (leBytes 8 (k.reg d.toNat).toNat).reverse ∧
      s.ran t c { k.put d.toNat v with pc := k.pc + 2 } (some 1))

/-- NOP changes nothing but the pc; MOV, MOVI5, MOVI, MOVI32 and MOVHI32 write the register; RDFEAT gives the values
that R486 lists, of the two clock sources, and zero for the rest; LEA writes the effective address of every
addressing mode that does not move its base. Everything else stays: the next state is the old one with this core
replaced, its place in the stride moved on by the cycles taken (at least one, and no more than the instruction's
bound), CYC reduced by them in heat mode, and the count of free values raised (State.ran). (08_norsor_isa.md.) -/
def Obligations.MovesAndAddresses : Prop :=
  (∀ (s : State) (c : Nat) (k : Core), k = s.core c → s.atInstr c 2 →
    ∃ t, exec (.nop c (Fmt.rr 0 1 0)) s = .next t ∧
      s.ran t c { k with pc := k.pc + 2 } (some 1)) ∧
  (∀ (s : State) (c : Nat) (k : Core) (d g : BitVec 5), k = s.core c → s.atInstr c 2 →
    ∃ t, exec (.mov c (Fmt.rr 0x01 d g)) s = .next t ∧
      s.ran t c { k.put d.toNat (k.reg g.toNat) with pc := k.pc + 2 } (some 1)) ∧
  (∀ (s : State) (c : Nat) (k : Core) (d imm : BitVec 5), k = s.core c → s.atInstr c 2 →
    ∃ t, exec (.movi5 c (Fmt.rr 0x0E d imm)) s = .next t ∧
      s.ran t c { k.put d.toNat (imm.signExtend 64) with pc := k.pc + 2 } (some 1)) ∧
  (∀ (s : State) (c : Nat) (k : Core) (d : BitVec 5) (imm : BitVec 19), k = s.core c → s.atInstr c 4 →
    ∃ t, exec (.movi c (Fmt.li 0x1C d imm)) s = .next t ∧
      s.ran t c { k.put d.toNat (imm.signExtend 64) with pc := k.pc + 4 } (some 1)) ∧
  (∀ (s : State) (c : Nat) (k : Core) (d : BitVec 5) (imm : BitVec 32), k = s.core c → s.atInstr c 6 →
    ∃ t, exec (.movi32 c (Fmt.wi 0x00 d imm)) s = .next t ∧
      s.ran t c { k.put d.toNat (imm.signExtend 64) with pc := k.pc + 6 } (some 1)) ∧
  (∀ (s : State) (c : Nat) (k : Core) (d : BitVec 5) (imm : BitVec 32), k = s.core c → s.atInstr c 6 →
    ∃ t, exec (.movhi32 c (Fmt.wi 0x01 d imm)) s = .next t ∧
      s.ran t c { k.put d.toNat (imm ++ (k.reg d.toNat).setWidth 32) with pc := k.pc + 6 } (some 1)) ∧
  (∀ (s : State) (c : Nat) (k : Core) (d : BitVec 5) (p : BitVec 5 × Dword), k = s.core c → s.atInstr c 4 →
    p ∈ [((0 : BitVec 5), (0x0100 : Dword)), (1, 0x033F2001), (2, 0x01004003), (3, 0x0000000400080100),
        (4, if s.onOscillator c then 0x00C80320 else 0x01F407D0), (5, 0), (6, 0), (7, 0)] →
    ∃ t, exec (.rdfeat c (Fmt.im 0x1F d p.1 0)) s = .next t ∧
      s.ran t c { k.put d.toNat p.2 with pc := k.pc + 4 } (some 1)) ∧
  (∀ (s : State) (c : Nat) (k : Core) (d b : BitVec 5) (m : Addressing), k = s.core c → s.atInstr c m.len →
    m.ok → m.moves = false →
    ∃ t, exec (.lea c (m.word 0x2D 0x15 d b)) s = .next t ∧
      s.ran t c { k.put d.toNat (m.addr k b 0) with pc := k.pc + BitVec.ofNat 64 m.len } (some 1))

/-- ADD.B and SUB.B give the low byte's sum and difference with C, V, Z, N and the half carry H; DAA.B and DAS.B
correct the byte one digit at a time, set C, Z and N and clear H; bits 63 to 8 of the register and every other flag
are kept. Everything else stays: the next state is the old one with this core replaced, its place in the stride
moved on by the cycles taken (at least one, and no more than the instruction's bound), CYC reduced by them in heat
mode, and the count of free values raised (State.ran). (08_norsor_isa.md, 09_decimal_and_repeat.md.) -/
def Obligations.ByteArithmeticAndAdjust : Prop :=
  (∀ (s : State) (c : Nat) (k : Core) (d g : BitVec 5) (a b : BitVec 8), k = s.core c → s.atInstr c 2 →
    a = (k.reg d.toNat).setWidth 8 → b = (k.reg g.toNat).setWidth 8 →
    ∃ (t : State) (v f : Dword), exec (.addBSubB c (Fmt.rr 0x13 d g)) s = .next t ∧ v.setWidth 8 = a + b ∧
      v >>> 8 = k.reg d.toNat >>> 8 ∧
      f.getLsbD 0 = decide (256 ≤ a.toNat + b.toNat) ∧
      f.getLsbD 1 = decide (a.toInt + b.toInt < -128 ∨ 128 ≤ a.toInt + b.toInt) ∧
      f.getLsbD 2 = decide (a + b = 0) ∧ f.getLsbD 3 = (a + b).msb ∧
      f.getLsbD 4 = decide (16 ≤ a.toNat % 16 + b.toNat % 16) ∧
      (∀ j, 5 ≤ j → f.getLsbD j = k.flg.getLsbD j) ∧
      s.ran t c { k.put d.toNat v with flg := f, pc := k.pc + 2 } (some 1)) ∧
  (∀ (s : State) (c : Nat) (k : Core) (d g : BitVec 5) (a b : BitVec 8), k = s.core c → s.atInstr c 2 →
    a = (k.reg d.toNat).setWidth 8 → b = (k.reg g.toNat).setWidth 8 →
    ∃ (t : State) (v f : Dword), exec (.addBSubB c (Fmt.rr 0x14 d g)) s = .next t ∧ v.setWidth 8 = a - b ∧
      v >>> 8 = k.reg d.toNat >>> 8 ∧
      f.getLsbD 0 = decide (b.toNat ≤ a.toNat) ∧
      f.getLsbD 1 = decide (a.toInt - b.toInt < -128 ∨ 128 ≤ a.toInt - b.toInt) ∧
      f.getLsbD 2 = decide (a - b = 0) ∧ f.getLsbD 3 = (a - b).msb ∧
      f.getLsbD 4 = decide (b.toNat % 16 ≤ a.toNat % 16) ∧
      (∀ j, 5 ≤ j → f.getLsbD j = k.flg.getLsbD j) ∧
      s.ran t c { k.put d.toNat v with flg := f, pc := k.pc + 2 } (some 1)) ∧
  (∀ (s : State) (c : Nat) (k : Core) (d : BitVec 5) (a r : BitVec 8) (up : Bool), k = s.core c → s.atInstr c 2 →
    a = (k.reg d.toNat).setWidth 8 →
    up = (k.flg.getLsbD 0 || decide (160 ≤ a.toNat + (if k.flg.getLsbD 4 || decide (9 < a.toNat % 16) then 6 else 0))) →
    r = BitVec.ofNat 8 (a.toNat + (if k.flg.getLsbD 4 || decide (9 < a.toNat % 16) then 6 else 0) + (if up then 96 else 0)) →
    ∃ (t : State) (v f : Dword), exec (.daaB c (Fmt.rr 0x15 d 0)) s = .next t ∧ v.setWidth 8 = r ∧ v >>> 8 = k.reg d.toNat >>> 8 ∧
      f.getLsbD 0 = up ∧ f.getLsbD 2 = decide (r = 0) ∧ f.getLsbD 3 = r.msb ∧ f.getLsbD 4 = false ∧
      (∀ j, j = 1 ∨ 5 ≤ j → f.getLsbD j = k.flg.getLsbD j) ∧
      s.ran t c { k.put d.toNat v with flg := f, pc := k.pc + 2 } (some 1)) ∧
  (∀ (s : State) (c : Nat) (k : Core) (d : BitVec 5) (a r : BitVec 8) (up : Bool), k = s.core c → s.atInstr c 2 →
    a = (k.reg d.toNat).setWidth 8 →
    up = (k.flg.getLsbD 0 && decide (a.toNat < 160)) →
    r = BitVec.ofNat 8 ((a.toNat / 16 + (if up then 0 else 10)) % 16 * 16 +
          (a.toNat + (if k.flg.getLsbD 4 && decide (a.toNat % 16 ≤ 9) then 0 else 10)) % 16) →
    ∃ (t : State) (v f : Dword), exec (.dasB c (Fmt.rr 0x16 d 0)) s = .next t ∧ v.setWidth 8 = r ∧ v >>> 8 = k.reg d.toNat >>> 8 ∧
      f.getLsbD 0 = up ∧ f.getLsbD 2 = decide (r = 0) ∧ f.getLsbD 3 = r.msb ∧ f.getLsbD 4 = false ∧
      (∀ j, j = 1 ∨ 5 ≤ j → f.getLsbD j = k.flg.getLsbD j) ∧
      s.ran t c { k.put d.toNat v with flg := f, pc := k.pc + 2 } (some 1))

/-- JR and JALR go to the register's address, JAL to the pc plus twice its displacement, with the return address in
Gd and in G30; a branch goes to its target under each of the fifteen conditions and to the next instruction
otherwise. Targets here are even; ExceptionsEnterMarshalMode covers an odd one. Everything else stays: the next
state is the old one with this core replaced, its place in the stride moved on by the cycles taken (at least one,
and no more than the instruction's bound), CYC reduced by them in heat mode, and the count of free values raised
(State.ran). (08_norsor_isa.md.) -/
def Obligations.JumpsAndBranches : Prop :=
  (∀ (s : State) (c : Nat) (k : Core) (g : BitVec 5) (x : Dword), k = s.core c → s.atInstr c 2 →
    x = k.reg g.toNat → x.getLsbD 0 = false →
    ∃ t, exec (.jr c (Fmt.rr 0x11 0 g)) s = .next t ∧ s.ran t c { k with pc := x } (some 2)) ∧
  (∀ (s : State) (c : Nat) (k : Core) (d g : BitVec 5) (x : Dword), k = s.core c → s.atInstr c 2 →
    x = k.reg g.toNat → x.getLsbD 0 = false →
    ∃ t, exec (.jalr c (Fmt.rr 0x12 d g)) s = .next t ∧ s.ran t c { k.put d.toNat (k.pc + 2) with pc := x } (some 2)) ∧
  (∀ (s : State) (c : Nat) (k : Core) (disp : BitVec 24) (x : Dword), k = s.core c → s.atInstr c 4 →
    x = k.pc + disp.signExtend 64 * 2 → x.getLsbD 0 = false →
    ∃ t, exec (.jal c (Fmt.jp 0x32 disp)) s = .next t ∧ s.ran t c { k.put 30 (k.pc + 4) with pc := x } (some 2)) ∧
  (∀ (s : State) (c : Nat) (k : Core) (p : BitVec 4 × Bool) (disp : BitVec 20) (x : Dword) (cy v z n : Bool),
    k = s.core c → s.atInstr c 4 →
    cy = k.flg.getLsbD 0 → v = k.flg.getLsbD 1 → z = k.flg.getLsbD 2 → n = k.flg.getLsbD 3 →
    p ∈ [((0 : BitVec 4), z), (1, !z), (2, cy), (3, !cy), (4, n), (5, !n), (6, v), (7, !v), (8, cy && !z), (9, !cy || z),
        (10, n == v), (11, n != v), (12, !z && n == v), (13, z || n != v), (14, true)] →
    x = k.pc + disp.signExtend 64 * 2 → x.getLsbD 0 = false →
    ∃ t, exec (.b c (Fmt.br 0x31 p.1 disp)) s = .next t ∧
      s.ran t c { k with pc := if p.2 then x else k.pc + 4 } (some (if p.2 then 2 else 1)))

/-- FENCE and IFENCE only advance the pc; WAIT leaves the core waiting and HALT halted in marshal mode; RDSR gives
each special register that the mode may read; WRSR writes each that it may write, where the value sets no reserved
bit and no reserved value. Everything else stays: the next state is the old one with this core replaced, its place
in the stride moved on by the cycles taken (at least one, and no more than the instruction's bound), CYC reduced by
them in heat mode, and the count of free values raised (State.ran). (08_norsor_isa.md.) -/
def Obligations.SystemInstructions : Prop :=
  (∀ (s : State) (c : Nat) (k : Core), k = s.core c → s.atInstr c 2 →
    ∃ t, exec (.fence c (Fmt.rr 0 2 0)) s = .next t ∧
      s.ran t c { k with pc := k.pc + 2 } none) ∧
  (∀ (s : State) (c : Nat) (k : Core), k = s.core c → s.atInstr c 2 →
    ∃ t, exec (.ifence c (Fmt.rr 0 3 0)) s = .next t ∧
      s.ran t c { k with pc := k.pc + 2 } (some 8)) ∧
  (∀ (s : State) (c : Nat) (k : Core), k = s.core c → s.atInstr c 2 → k.marshal = true →
    ∃ t, exec (.wait c (Fmt.rr 0 5 0)) s = .next t ∧
      s.ran t c { k with pc := k.pc + 2, waiting := true } none) ∧
  (∀ (s : State) (c : Nat) (k : Core), k = s.core c → s.atInstr c 2 → k.marshal = true →
    ∃ t, exec (.halt c (Fmt.rr 0 6 0)) s = .next t ∧
      s.ran t c { k with pc := k.pc + 2, halted := true } (some 1)) ∧
  (∀ (s : State) (c : Nat) (k : Core) (d : BitVec 5) (p : BitVec 5 × Dword), k = s.core c → s.atInstr c 4 →
    p ∈ [((0 : BitVec 5), k.flg), (1, k.dcx), (2, k.cyc), (3, BitVec.ofNat 64 s.stride), (4, BitVec.ofNat 64 c),
        (8, BitVec.ofNat 64 ((if k.exl then 4 else 0) + (if k.pmode then 2 else 0) + 1)), (9, k.epc), (10, k.ecause),
        (11, k.eaddr), (12, k.mvec), (13, k.hbase), (14, k.hsize), (15, k.hbanks), (16, k.scratch.getD 0 0),
        (17, k.scratch.getD 1 0), (18, k.scratch.getD 2 0), (19, k.scratch.getD 3 0)] → (p.1.toNat < 8 ∨ k.marshal = true) →
    ∃ t, exec (.rdsr c (Fmt.im 0x1D d p.1 0)) s = .next t ∧
      s.ran t c { k.put d.toNat p.2 with pc := k.pc + 4 } (some 1)) ∧
  (∀ (s : State) (c v : Nat) (k : Core) (a : BitVec 5) (x : Dword) (p : BitVec 5 × Bool × Core),
    k = s.core c → s.atInstr c 4 → x = k.reg a.toNat → v = x.toNat →
    p ∈ [((0 : BitVec 5), decide (v < 64), { k with flg := x }),
        (1, decide (v < 512) && decide (natBits v 7 3 = 0) && decide (natBits v 2 0 ≤ 4), { k with dcx := x }),
        (2, k.marshal, { k with cyc := x }),
        (8, k.marshal && decide (v < 8), { k with exl := x.getLsbD 2, pmode := x.getLsbD 1 }),
        (9, k.marshal && decide (v % 2 = 0), { k with epc := x }), (10, k.marshal && decide (v < 65536), { k with ecause := x }),
        (11, k.marshal, { k with eaddr := x }), (12, k.marshal && decide (v % 512 = 0), { k with mvec := x }),
        (13, k.marshal && decide (v < 2 ^ 37) && decide (v % 2 ^ 20 = 0), { k with hbase := x }),
        (14, k.marshal && decide (v ≤ 131072 * 2 ^ 20) && decide (v % 2 ^ 20 = 0), { k with hsize := x }),
        (15, k.marshal && decide (v < 256), { k with hbanks := x }),
        (16, k.marshal, { k with scratch := setReg k.scratch 0 x }), (17, k.marshal, { k with scratch := setReg k.scratch 1 x }),
        (18, k.marshal, { k with scratch := setReg k.scratch 2 x }), (19, k.marshal, { k with scratch := setReg k.scratch 3 x })] → p.2.1 = true →
    ∃ t, exec (.wrsr c (Fmt.im 0x1E p.1 a 0)) s = .next t ∧ s.ran t c { p.2.2 with pc := k.pc + 4 } (some 1))

/-- A load of 1, 2, 4, 8 or 16 bytes, zero- or sign-extended, reads little-endian bytes at the effective address of
its mode into Gd (a pair for 16), updates the base of a post-increment or pre-decrement, and changes no memory; in
marshal mode a 4-byte load of BAR0 space reads the register there. Everything else stays: the next state is the old
one with this core replaced, its place in the stride moved on by the cycles taken (at least one, and no more than
the instruction's bound), CYC reduced by them in heat mode, and the count of free values raised (State.ran).
(08_norsor_isa.md.) -/
def Obligations.LoadsReadMemory : Prop :=
  (∀ (s : State) (c : Nat) (k : Core) (d b : BitVec 5) (m : Addressing) (p : Nat × Nat × Bool) (a : Dword) (bs : Bytes),
    p ∈ [(0, 1, false), (1, 2, false), (2, 4, false), (3, 8, false), (4, 1, true), (5, 2, true), (6, 4, true)] →
    k = s.core c → s.atInstr c m.len → m.ok → (m.moves = true → b ≠ d) →
    a = m.addr k b p.2.1 → bs.length = p.2.1 → a.toNat % p.2.1 = 0 → s.loadsAs c a bs →
    ∃ t w, w = m.word (0x20 + BitVec.ofNat 6 p.1) (0x08 + BitVec.ofNat 6 p.1) d b ∧
      exec (.loadInstruction c w) s = .next t ∧
      s.ran t c { (m.after k b p.2.1).put d.toNat
                    (if p.2.2 then (BitVec.ofNat (8 * p.2.1) (leNat bs)).signExtend 64 else BitVec.ofNat 64 (leNat bs)) with
                  pc := k.pc + BitVec.ofNat 64 m.len } (s.bound c k (memWord w))) ∧
  (∀ (s : State) (c : Nat) (k : Core) (d b : BitVec 5) (m : Addressing) (a : Dword) (bs : Bytes),
    k = s.core c → s.atInstr c m.len → m.ok → (m.moves = true → b ≠ d ∧ b ≠ d + 1) → d.toNat % 2 = 0 →
    a = m.addr k b 16 → bs.length = 16 → a.toNat % 16 = 0 → s.loadsAs c a bs →
    ∃ t w, w = m.word 0x27 0x0F d b ∧ exec (.loadInstruction c w) s = .next t ∧
      s.ran t c { ((m.after k b 16).put d.toNat (BitVec.ofNat 64 (leNat (bs.take 8)))).put (d.toNat + 1)
                    (BitVec.ofNat 64 (leNat (bs.drop 8))) with
                  pc := k.pc + BitVec.ofNat 64 m.len } (s.bound c k (memWord w))) ∧
  (∀ (s : State) (c : Nat) (k : Core) (d g : BitVec 5) (bs : Bytes), k = s.core c → s.atInstr c 2 →
    bs.length = 8 → (k.reg g.toNat).toNat % 8 = 0 → s.loadsAs c (k.reg g.toNat) bs →
    ∃ t w, w = Fmt.rr 0x0F d g ∧ exec (.ldRr c w) s = .next t ∧
      s.ran t c { k.put d.toNat (BitVec.ofNat 64 (leNat bs)) with pc := k.pc + 2 } (s.bound c k (.w16 w))) ∧
  (∀ (s u : State) (c off : Nat) (k : Core) (d b : BitVec 5) (m : Addressing) (v : BitVec 32),
    k = s.core c → s.atInstr c m.len → k.marshal = true → m.ok → (m.moves = true → b ≠ d) →
    (m.addr k b 4).toNat % 4 = 0 → s.place c k (m.addr k b 4).toNat 4 false = some (.bar0 off) →
    State.coreBus.read s c off = (u, v) →
    ∃ n : Nat, 1 ≤ n ∧ (∀ x, s.bound c k (memWord (m.word 0x22 0x0A d b)) = some x → n ≤ max 1 x) ∧
      exec (.loadInstruction c (m.word 0x22 0x0A d b)) s = .next { u.setCore c
        (State.spend { (m.after k b 4).put d.toNat (v.setWidth 64) with pc := k.pc + BitVec.ofNat 64 m.len } false n) with
        free := u.free + 1 })

/-- A store of 1, 2, 4, 8 or 16 bytes writes the low bytes of Gd, or of the pair, at the effective address of its
mode, with the value taken before a base update, and changes no register but the base. Everything else stays: the
next state is the old one with this core replaced, its place in the stride moved on by the cycles taken (at least
one, and no more than the instruction's bound), CYC reduced by them in heat mode, and the count of free values
raised (State.ran). (08_norsor_isa.md.) -/
def Obligations.StoresWriteMemory : Prop :=
  (∀ (s : State) (c mem off : Nat) (k : Core) (d b : BitVec 5) (m : Addressing) (p : Nat × Nat) (a : Dword),
    p ∈ [(0, 1), (1, 2), (2, 4), (3, 8), (4, 16)] →
    k = s.core c → s.atInstr c m.len → m.ok → (p.1 = 4 → d.toNat % 2 = 0) →
    a = m.addr k b p.2 → a.toNat % p.2 = 0 → s.storesAt c a p.2 mem off →
    ∃ t w, w = m.word (0x28 + BitVec.ofNat 6 p.1) (0x10 + BitVec.ofNat 6 p.1) d b ∧
      exec (.storeInstruction c w) s = .next t ∧
      (s.memWrite mem off ((leBytes 8 (k.reg d.toNat).toNat ++ leBytes 8 (k.reg (d.toNat + 1)).toNat).take p.2)).ran t c
        { m.after k b p.2 with pc := k.pc + BitVec.ofNat 64 m.len } (s.bound c k (memWord w))) ∧
  (∀ (s : State) (c mem off : Nat) (k : Core) (d g : BitVec 5), k = s.core c → s.atInstr c 2 →
    (k.reg g.toNat).toNat % 8 = 0 → s.storesAt c (k.reg g.toNat) 8 mem off →
    ∃ t w, w = Fmt.rr 0x10 d g ∧ exec (.stRr c w) s = .next t ∧
      (s.memWrite mem off (leBytes 8 (k.reg d.toNat).toNat)).ran t c { k with pc := k.pc + 2 } (s.bound c k (.w16 w)))

/-- After bytes are written at an offset of an array, every other byte of it, and every other array, reads as
before, the written bytes read back, and nothing else of the state changes. This is the frame of the store, atomic
and decimal statements. (08_norsor_isa.md, 16_memory_protection_and_dram.md.) -/
def Obligations.AStoreChangesOnlyItsBytes : Prop :=
  (∀ (s : State) (m off : Nat) (bs : Bytes), s.memOk →
    (∀ a, a < off ∨ off + bs.length ≤ a →
      mget ((s.memWrite m off bs).arr m).cells a = mget (s.arr m).cells a ∧
      tget ((s.memWrite m off bs).arr m).raws a = tget (s.arr m).raws a) ∧
    (∀ i, i < bs.length → mget ((s.memWrite m off bs).arr m).cells (off + i) = bs.getD i 0 ∧
      tget ((s.memWrite m off bs).arr m).raws (off + i) = none) ∧
    (∀ m', m' ≠ m → (s.memWrite m off bs).arr m' = s.arr m') ∧
    s.memWrite m off bs = { s with mem := (s.memWrite m off bs).mem })

/-- SWAP stores Gd, FADD the sum, CAS the new value where the old one equals Gd; each gives Gd the old value; CAS
sets Z by the comparison and keeps the other flags. Everything else stays: the next state is the old one with this
core replaced, its place in the stride moved on by the cycles taken (at least one, and no more than the
instruction's bound), CYC reduced by them in heat mode, and the count of free values raised (State.ran).
(08_norsor_isa.md.) -/
def Obligations.AtomicsExchangeMemory : Prop :=
  (∀ (s : State) (c mem off : Nat) (k : Core) (d b : BitVec 5) (bs : Bytes) (old : Dword), k = s.core c → s.atInstr c 4 →
    bs.length = 8 → (k.reg b.toNat).toNat % 8 = 0 → s.loadsAs c (k.reg b.toNat) bs → s.storesAt c (k.reg b.toNat) 8 mem off →
    old = BitVec.ofNat 64 (leNat bs) →
    ∃ t w, w = Fmt.mm 0x2E d b 0 0 0 0 ∧ exec (.swap c w) s = .next t ∧
      (s.memWrite mem off (leBytes 8 (k.reg d.toNat).toNat)).ran t c { k.put d.toNat old with pc := k.pc + 4 } (s.bound c k (.w32 w))) ∧
  (∀ (s : State) (c mem off : Nat) (k : Core) (d b : BitVec 5) (bs : Bytes) (old : Dword), k = s.core c → s.atInstr c 4 →
    bs.length = 8 → (k.reg b.toNat).toNat % 8 = 0 → s.loadsAs c (k.reg b.toNat) bs → s.storesAt c (k.reg b.toNat) 8 mem off →
    old = BitVec.ofNat 64 (leNat bs) →
    ∃ t w, w = Fmt.mm 0x30 d b 0 0 0 0 ∧ exec (.fadd c w) s = .next t ∧
      (s.memWrite mem off (leBytes 8 (old + k.reg d.toNat).toNat)).ran t c { k.put d.toNat old with pc := k.pc + 4 } (s.bound c k (.w32 w))) ∧
  (∀ (s : State) (c mem off : Nat) (k : Core) (d b a : BitVec 5) (bs : Bytes) (old : Dword), k = s.core c → s.atInstr c 4 →
    bs.length = 8 → (k.reg b.toNat).toNat % 8 = 0 → s.loadsAs c (k.reg b.toNat) bs → s.storesAt c (k.reg b.toNat) 8 mem off →
    old = BitVec.ofNat 64 (leNat bs) →
    ∃ t w f, w = Fmt.mm 0x2F d b 0 a 0 0 ∧ exec (.cas c w) s = .next t ∧
      f.getLsbD 2 = decide (old = k.reg d.toNat) ∧ (∀ j, j ≠ 2 → f.getLsbD j = k.flg.getLsbD j) ∧
      (if old = k.reg d.toNat then s.memWrite mem off (leBytes 8 (k.reg a.toNat).toNat) else s).ran t c { k.put d.toNat old with flg := f, pc := k.pc + 4 } (s.bound c k (.w32 w)))

/-- On registers whose nibbles are decimal digits the register forms give the sum, difference and product modulo
10^16 and the comparison, with the flags of R527. Everything else stays: the next state is the old one with this
core replaced, its place in the stride moved on by the cycles taken (at least one, and no more than the
instruction's bound), CYC reduced by them in heat mode, and the count of free values raised (State.ran).
(09_decimal_and_repeat.md.) -/
def Obligations.RegisterDecimalForms : Prop :=
  (∀ (s : State) (c x y : Nat) (k : Core) (d a b : BitVec 5), k = s.core c → s.atInstr c 4 →
    regBad (k.reg a.toNat) = false → regBad (k.reg b.toNat) = false → x = regVal (k.reg a.toNat) → y = regVal (k.reg b.toNat) →
    ∃ t v f, exec (.addprSubprMulpr c (Fmt.tr 0x38 d a b)) s = .next t ∧ regBad v = false ∧ regVal v = (x + y) % 10 ^ 16 ∧
      f.getLsbD 0 = decide (10 ^ 16 ≤ x + y) ∧ f.getLsbD 1 = false ∧ f.getLsbD 2 = decide ((x + y) % 10 ^ 16 = 0) ∧ f.getLsbD 3 = false ∧
      (∀ j, 4 ≤ j → f.getLsbD j = k.flg.getLsbD j) ∧
      s.ran t c { k.put d.toNat v with flg := f, pc := k.pc + 4 } (some 2)) ∧
  (∀ (s : State) (c x y : Nat) (k : Core) (d a b : BitVec 5), k = s.core c → s.atInstr c 4 →
    regBad (k.reg a.toNat) = false → regBad (k.reg b.toNat) = false → x = regVal (k.reg a.toNat) → y = regVal (k.reg b.toNat) →
    ∃ t v f, exec (.addprSubprMulpr c (Fmt.tr 0x39 d a b)) s = .next t ∧ regBad v = false ∧ (regVal v : Int) = ((x : Int) - y) % 10 ^ 16 ∧
      f.getLsbD 0 = decide (y ≤ x) ∧ f.getLsbD 1 = false ∧ f.getLsbD 2 = decide (x = y) ∧ f.getLsbD 3 = false ∧
      (∀ j, 4 ≤ j → f.getLsbD j = k.flg.getLsbD j) ∧
      s.ran t c { k.put d.toNat v with flg := f, pc := k.pc + 4 } (some 2)) ∧
  (∀ (s : State) (c x y : Nat) (k : Core) (d a b : BitVec 5), k = s.core c → s.atInstr c 4 →
    regBad (k.reg a.toNat) = false → regBad (k.reg b.toNat) = false → x = regVal (k.reg a.toNat) → y = regVal (k.reg b.toNat) →
    ∃ t v f, exec (.addprSubprMulpr c (Fmt.tr 0x3A d a b)) s = .next t ∧ regBad v = false ∧ regVal v = x * y % 10 ^ 16 ∧
      f.getLsbD 0 = decide (10 ^ 16 ≤ x * y) ∧ f.getLsbD 1 = false ∧ f.getLsbD 2 = decide (x * y % 10 ^ 16 = 0) ∧ f.getLsbD 3 = false ∧
      (∀ j, 4 ≤ j → f.getLsbD j = k.flg.getLsbD j) ∧
      s.ran t c { k.put d.toNat v with flg := f, pc := k.pc + 4 } (some 12)) ∧
  (∀ (s : State) (c x y : Nat) (k : Core) (a b : BitVec 5), k = s.core c → s.atInstr c 4 →
    regBad (k.reg a.toNat) = false → regBad (k.reg b.toNat) = false → x = regVal (k.reg a.toNat) → y = regVal (k.reg b.toNat) →
    ∃ t f, exec (.cmppr c (Fmt.tr 0x3B 0 a b)) s = .next t ∧
      f.getLsbD 0 = decide (y ≤ x) ∧ f.getLsbD 1 = false ∧ f.getLsbD 2 = decide (x = y) ∧ f.getLsbD 3 = decide (x < y) ∧
      (∀ j, 4 ≤ j → f.getLsbD j = k.flg.getLsbD j) ∧ s.ran t c { k with flg := f, pc := k.pc + 4 } (some 2))

/-- Where the operands are valid and the result fits or DCX.OTE is 0, each writes the packed result of the value
(its low digits on overflow), with the generated sign and the flags of R508 to R510. DIVP rounds as DCX.RM says.
Everything else stays: the next state is the old one with this core replaced, its place in the stride moved on by
the cycles taken (at least one, and no more than the instruction's bound), CYC reduced by them in heat mode, and the
count of free values raised (State.ran). (09_decimal_and_repeat.md.) -/
def Obligations.PackedDecimalArithmetic : Prop :=
  (∀ (s : State) (c m off : Nat) (k : Core) (l1 l2 b1 b2 : BitVec 5) (d1 d2 : BitVec 10) (a1 a2 : Dword) (o1 o2 : Bytes) (v : Int),
    k = s.core c → s.atInstr c 6 → a1 = k.reg b1.toNat + d1.setWidth 64 → a2 = k.reg b2.toNat + d2.setWidth 64 →
    s.loadsAs c a1 o1 → o1.length = l1.toNat + 1 →
    s.loadsAs c a2 o2 → o2.length = l2.toNat + 1 → s.storesAt c a1 (l1.toNat + 1) m off → packedBad 1 o1 = [] → packedBad 2 o2 = [] → v = packedVal o1 + packedVal o2 →
    (v.natAbs < 10 ^ (2 * l1.toNat + 1) ∨ k.dcx.getLsbD 8 = false) →
    ∃ t w f bs, w = Fmt.ds 0x20 l1 l2 b1 d1 b2 d2 ∧ exec (.addp c w) s = .next t ∧ bs.length = l1.toNat + 1 ∧
      IsPacked bs (kept (2 * l1.toNat + 1) v) (if kept (2 * l1.toNat + 1) v < 0 then 0xD else 0xC) ∧
      FlgDec k.flg f (kept (2 * l1.toNat + 1) v) (decide (10 ^ (2 * l1.toNat + 1) ≤ v.natAbs)) ∧
      (s.memWrite m off bs).ran t c { k with flg := f, pc := k.pc + 6 } (s.bound c k (.w48 w))) ∧
  (∀ (s : State) (c m off : Nat) (k : Core) (l1 l2 b1 b2 : BitVec 5) (d1 d2 : BitVec 10) (a1 a2 : Dword) (o1 o2 : Bytes) (v : Int),
    k = s.core c → s.atInstr c 6 → a1 = k.reg b1.toNat + d1.setWidth 64 → a2 = k.reg b2.toNat + d2.setWidth 64 →
    s.loadsAs c a1 o1 → o1.length = l1.toNat + 1 →
    s.loadsAs c a2 o2 → o2.length = l2.toNat + 1 → s.storesAt c a1 (l1.toNat + 1) m off → packedBad 1 o1 = [] → packedBad 2 o2 = [] → v = packedVal o1 - packedVal o2 →
    (v.natAbs < 10 ^ (2 * l1.toNat + 1) ∨ k.dcx.getLsbD 8 = false) →
    ∃ t w f bs, w = Fmt.ds 0x21 l1 l2 b1 d1 b2 d2 ∧ exec (.subp c w) s = .next t ∧ bs.length = l1.toNat + 1 ∧
      IsPacked bs (kept (2 * l1.toNat + 1) v) (if kept (2 * l1.toNat + 1) v < 0 then 0xD else 0xC) ∧
      FlgDec k.flg f (kept (2 * l1.toNat + 1) v) (decide (10 ^ (2 * l1.toNat + 1) ≤ v.natAbs)) ∧
      (s.memWrite m off bs).ran t c { k with flg := f, pc := k.pc + 6 } (s.bound c k (.w48 w))) ∧
  (∀ (s : State) (c m off : Nat) (k : Core) (l1 l2 b1 b2 : BitVec 5) (d1 d2 : BitVec 10) (a1 a2 : Dword) (o1 o2 : Bytes) (v : Int),
    k = s.core c → s.atInstr c 6 → a1 = k.reg b1.toNat + d1.setWidth 64 → a2 = k.reg b2.toNat + d2.setWidth 64 →
    s.loadsAs c a1 o1 → o1.length = l1.toNat + 1 →
    s.loadsAs c a2 o2 → o2.length = l2.toNat + 1 → s.storesAt c a1 (l1.toNat + 1) m off → packedBad 1 o1 = [] → packedBad 2 o2 = [] → v = packedVal o1 * packedVal o2 →
    (v.natAbs < 10 ^ (2 * l1.toNat + 1) ∨ k.dcx.getLsbD 8 = false) →
    ∃ t w f bs, w = Fmt.ds 0x22 l1 l2 b1 d1 b2 d2 ∧ exec (.mulp c w) s = .next t ∧ bs.length = l1.toNat + 1 ∧
      IsPacked bs (kept (2 * l1.toNat + 1) v) (if kept (2 * l1.toNat + 1) v < 0 then 0xD else 0xC) ∧
      FlgDec k.flg f (kept (2 * l1.toNat + 1) v) (decide (10 ^ (2 * l1.toNat + 1) ≤ v.natAbs)) ∧
      (s.memWrite m off bs).ran t c { k with flg := f, pc := k.pc + 6 } (s.bound c k (.w48 w))) ∧
  (∀ (s : State) (c m off : Nat) (k : Core) (l1 l2 b1 b2 : BitVec 5) (d1 d2 : BitVec 10) (a1 a2 : Dword) (o1 o2 : Bytes) (v : Int),
    k = s.core c → s.atInstr c 6 → a1 = k.reg b1.toNat + d1.setWidth 64 → a2 = k.reg b2.toNat + d2.setWidth 64 →
    s.loadsAs c a1 o1 → o1.length = l1.toNat + 1 →
    s.loadsAs c a2 o2 → o2.length = l2.toNat + 1 → s.storesAt c a1 (l1.toNat + 1) m off → packedBad 1 o1 = [] → packedBad 2 o2 = [] → packedVal o2 ≠ 0 → v = divRound (natBits k.dcx.toNat 2 0) (packedVal o1) (packedVal o2) →
    (v.natAbs < 10 ^ (2 * l1.toNat + 1) ∨ k.dcx.getLsbD 8 = false) →
    ∃ t w f bs, w = Fmt.ds 0x23 l1 l2 b1 d1 b2 d2 ∧ exec (.divp c w) s = .next t ∧ bs.length = l1.toNat + 1 ∧
      IsPacked bs (kept (2 * l1.toNat + 1) v) (if kept (2 * l1.toNat + 1) v < 0 then 0xD else 0xC) ∧
      FlgDec k.flg f (kept (2 * l1.toNat + 1) v) (decide (10 ^ (2 * l1.toNat + 1) ≤ v.natAbs)) ∧
      (s.memWrite m off bs).ran t c { k with flg := f, pc := k.pc + 6 } (s.bound c k (.w48 w))) ∧
  (∀ (s : State) (c m off : Nat) (k : Core) (l1 l2 b1 b2 : BitVec 5) (d1 d2 : BitVec 10) (a1 a2 : Dword) (o2 : Bytes) (v : Int),
    k = s.core c → s.atInstr c 6 → a1 = k.reg b1.toNat + d1.setWidth 64 → a2 = k.reg b2.toNat + d2.setWidth 64 →
    s.loadsAs c a2 o2 → o2.length = l2.toNat + 1 → s.storesAt c a1 (l1.toNat + 1) m off → packedBad 2 o2 = [] → v = packedVal o2 →
    (v.natAbs < 10 ^ (2 * l1.toNat + 1) ∨ k.dcx.getLsbD 8 = false) →
    ∃ t w f bs, w = Fmt.ds 0x25 l1 l2 b1 d1 b2 d2 ∧ exec (.movp c w) s = .next t ∧ bs.length = l1.toNat + 1 ∧
      IsPacked bs (kept (2 * l1.toNat + 1) v) (if packedSign o2 = 0xF then 0xF else if kept (2 * l1.toNat + 1) v < 0 then 0xD else 0xC) ∧
      FlgDec k.flg f (kept (2 * l1.toNat + 1) v) (decide (10 ^ (2 * l1.toNat + 1) ≤ v.natAbs)) ∧
      (s.memWrite m off bs).ran t c { k with flg := f, pc := k.pc + 6 } (s.bound c k (.w48 w))) ∧
  (∀ (s : State) (c m off : Nat) (k : Core) (l1 l2 b1 b2 : BitVec 5) (d1 d2 : BitVec 10) (a1 a2 : Dword) (o2 : Bytes) (v : Int),
    k = s.core c → s.atInstr c 6 → a1 = k.reg b1.toNat + d1.setWidth 64 → a2 = k.reg b2.toNat + d2.setWidth 64 →
    s.loadsAs c a2 o2 → o2.length = l2.toNat + 1 → s.storesAt c a1 (l1.toNat + 1) m off → zonedBad o2 = [] → v = zonedVal o2 →
    (v.natAbs < 10 ^ (2 * l1.toNat + 1) ∨ k.dcx.getLsbD 8 = false) →
    ∃ t w f bs, w = Fmt.ds 0x26 l1 l2 b1 d1 b2 d2 ∧ exec (.pack c w) s = .next t ∧ bs.length = l1.toNat + 1 ∧
      IsPacked bs (kept (2 * l1.toNat + 1) v) (if zonedUnsigned o2 = true then 0xF else if kept (2 * l1.toNat + 1) v < 0 then 0xD else 0xC) ∧
      FlgDec k.flg f (kept (2 * l1.toNat + 1) v) (decide (10 ^ (2 * l1.toNat + 1) ≤ v.natAbs)) ∧
      (s.memWrite m off bs).ran t c { k with flg := f, pc := k.pc + 6 } (s.bound c k (.w48 w)))

/-- CMPP compares; UNPK writes zoned digits; EDIT writes the edited mask; SHFP shifts with rounding; CVBP and CVPB
convert to and from binary; with their flags. Everything else stays: the next state is the old one with this core
replaced, its place in the stride moved on by the cycles taken (at least one, and no more than the instruction's
bound), CYC reduced by them in heat mode, and the count of free values raised (State.ran).
(09_decimal_and_repeat.md.) -/
def Obligations.DecimalConversionsAndEditing : Prop :=
  (∀ (s : State) (c : Nat) (k : Core) (l1 l2 b1 b2 : BitVec 5) (d1 d2 : BitVec 10) (a1 a2 : Dword) (o1 o2 : Bytes),
    k = s.core c → s.atInstr c 6 → a1 = k.reg b1.toNat + d1.setWidth 64 → a2 = k.reg b2.toNat + d2.setWidth 64 →
    s.loadsAs c a1 o1 → o1.length = l1.toNat + 1 → s.loadsAs c a2 o2 → o2.length = l2.toNat + 1 →
    packedBad 1 o1 = [] → packedBad 2 o2 = [] →
    ∃ t w f, w = Fmt.ds 0x24 l1 l2 b1 d1 b2 d2 ∧ exec (.cmpp c w) s = .next t ∧
      f.getLsbD 0 = decide (packedVal o2 ≤ packedVal o1) ∧ f.getLsbD 1 = false ∧
      f.getLsbD 2 = decide (packedVal o1 = packedVal o2) ∧ f.getLsbD 3 = decide (packedVal o1 < packedVal o2) ∧
      (∀ j, 4 ≤ j → f.getLsbD j = k.flg.getLsbD j) ∧
      s.ran t c { k with flg := f, pc := k.pc + 6 } (s.bound c k (.w48 w))) ∧
  (∀ (s : State) (c m off : Nat) (k : Core) (l1 l2 b1 b2 : BitVec 5) (d1 d2 : BitVec 10) (a1 a2 : Dword) (o2 : Bytes) (v : Int),
    k = s.core c → s.atInstr c 6 → a1 = k.reg b1.toNat + d1.setWidth 64 → a2 = k.reg b2.toNat + d2.setWidth 64 →
    s.loadsAs c a2 o2 → o2.length = l2.toNat + 1 → s.storesAt c a1 (l1.toNat + 1) m off → packedBad 2 o2 = [] → v = packedVal o2 →
    (v.natAbs < 10 ^ (l1.toNat + 1) ∨ k.dcx.getLsbD 8 = false) →
    ∃ t w f bs, w = Fmt.ds 0x27 l1 l2 b1 d1 b2 d2 ∧ exec (.unpk c w) s = .next t ∧ bs.length = l1.toNat + 1 ∧
      IsZoned bs (kept (l1.toNat + 1) v)
        (if packedSign o2 = 0xF then 0xF else if kept (l1.toNat + 1) v < 0 then 0xD else 0xC) ∧
      FlgDec k.flg f (kept (l1.toNat + 1) v) (decide (10 ^ (l1.toNat + 1) ≤ v.natAbs)) ∧
      (s.memWrite m off bs).ran t c { k with flg := f, pc := k.pc + 6 } (s.bound c k (.w48 w))) ∧
  (∀ (s : State) (c m off : Nat) (k : Core) (l1 l2 b1 b2 : BitVec 5) (d1 d2 : BitVec 10) (a1 a2 : Dword) (o1 o2 : Bytes),
    k = s.core c → s.atInstr c 6 → a1 = k.reg b1.toNat + d1.setWidth 64 → a2 = k.reg b2.toNat + d2.setWidth 64 →
    s.loadsAs c a1 o1 → o1.length = l1.toNat + 1 →
    s.loadsAs c a2 o2 → o2.length = l2.toNat + 1 → s.storesAt c a1 (l1.toNat + 1) m off → packedBad 2 o2 = [] → editBad o1 o2 = false →
    ∃ t w f bs, w = Fmt.ds 0x28 l1 l2 b1 d1 b2 d2 ∧ exec (.edit c w) s = .next t ∧ bs.length = l1.toNat + 1 ∧
      bs = editOut (if (0x83 : BitVec 8) ∈ o1 then 0x2A else 0x20) (decide (packedVal o2 < 0)) false (packedDigits o2) o1 ∧
      f.getLsbD 3 = decide (packedVal o2 < 0) ∧ f.getLsbD 2 = decide (packedVal o2 = 0) ∧
      (∀ j, j ≠ 2 → j ≠ 3 → f.getLsbD j = k.flg.getLsbD j) ∧
      (s.memWrite m off bs).ran t c { k with flg := f, pc := k.pc + 6 } (s.bound c k (.w48 w))) ∧
  (∀ (s : State) (c m off : Nat) (k : Core) (l1 b1 : BitVec 5) (sh : BitVec 7) (d1 : BitVec 10) (a1 : Dword) (o1 : Bytes) (v : Int),
    k = s.core c → s.atInstr c 6 → a1 = k.reg b1.toNat + d1.setWidth 64 → sh ≠ 64 →
    s.loadsAs c a1 o1 → o1.length = l1.toNat + 1 → s.storesAt c a1 (l1.toNat + 1) m off → packedBad 1 o1 = [] →
    v = shiftVal (natBits k.dcx.toNat 2 0) (packedVal o1) sh.toInt →
    (v.natAbs < 10 ^ (2 * l1.toNat + 1) ∨ k.dcx.getLsbD 8 = false) →
    ∃ t w f bs, w = Fmt.dh 0x29 l1 sh b1 d1 ∧ exec (.shfp c w) s = .next t ∧ bs.length = l1.toNat + 1 ∧
      IsPacked bs (kept (2 * l1.toNat + 1) v)
        (if packedSign o1 = 0xF then 0xF else if kept (2 * l1.toNat + 1) v < 0 then 0xD else 0xC) ∧
      FlgDec k.flg f (kept (2 * l1.toNat + 1) v) (decide (10 ^ (2 * l1.toNat + 1) ≤ v.natAbs)) ∧
      (s.memWrite m off bs).ran t c { k with flg := f, pc := k.pc + 6 } (s.bound c k (.w48 w))) ∧
  (∀ (s : State) (c m off : Nat) (k : Core) (l1 gr b1 : BitVec 5) (d1 : BitVec 10) (a1 : Dword) (v : Int),
    k = s.core c → s.atInstr c 6 → a1 = k.reg b1.toNat + d1.setWidth 64 → s.storesAt c a1 (l1.toNat + 1) m off →
    v = (k.reg gr.toNat).toInt → (v.natAbs < 10 ^ (2 * l1.toNat + 1) ∨ k.dcx.getLsbD 8 = false) →
    ∃ t w f bs, w = Fmt.dr 0x2A l1 gr b1 d1 ∧ exec (.cvbp c w) s = .next t ∧ bs.length = l1.toNat + 1 ∧
      IsPacked bs (kept (2 * l1.toNat + 1) v) (if kept (2 * l1.toNat + 1) v < 0 then 0xD else 0xC) ∧
      FlgDec k.flg f (kept (2 * l1.toNat + 1) v) (decide (10 ^ (2 * l1.toNat + 1) ≤ v.natAbs)) ∧
      (s.memWrite m off bs).ran t c { k with flg := f, pc := k.pc + 6 } (s.bound c k (.w48 w))) ∧
  (∀ (s : State) (c : Nat) (k : Core) (l1 gr b1 : BitVec 5) (d1 : BitVec 10) (a1 : Dword) (o1 : Bytes) (v : Int),
    k = s.core c → s.atInstr c 6 → a1 = k.reg b1.toNat + d1.setWidth 64 → s.loadsAs c a1 o1 → o1.length = l1.toNat + 1 →
    packedBad 1 o1 = [] → v = packedVal o1 → -(2 ^ 63) ≤ v → v < 2 ^ 63 →
    ∃ t w f r, w = Fmt.dr 0x2B l1 gr b1 d1 ∧ exec (.cvpb c w) s = .next t ∧ r.toInt = v ∧
      f.getLsbD 1 = false ∧ f.getLsbD 2 = decide (v = 0) ∧ f.getLsbD 3 = decide (v < 0) ∧
      (∀ j, j = 0 ∨ 4 ≤ j → f.getLsbD j = k.flg.getLsbD j) ∧
      s.ran t c { k.put gr.toNat r with flg := f, pc := k.pc + 6 } (s.bound c k (.w48 w)))

/-- The rounding that DIVP and SHFP use is to nearest with halves away from zero, to nearest with halves to even,
towards zero, towards plus infinity and towards minus infinity. (09_decimal_and_repeat.md.) -/
def Obligations.RoundingFollowsItsMode : Prop :=
  (∀ (num den : Nat) (neg : Bool), 0 < den →
    (2 * (roundDiv 0 num den neg * den) ≤ 2 * num + den ∧ 2 * num < 2 * (roundDiv 0 num den neg * den) + den) ∧
    (2 * (roundDiv 1 num den neg * den) ≤ 2 * num + den ∧ 2 * num ≤ 2 * (roundDiv 1 num den neg * den) + den ∧
      ((2 * (roundDiv 1 num den neg * den) = 2 * num + den ∨ 2 * num = 2 * (roundDiv 1 num den neg * den) + den) →
        roundDiv 1 num den neg % 2 = 0)) ∧
    (roundDiv 2 num den neg * den ≤ num ∧ num < (roundDiv 2 num den neg + 1) * den) ∧
    (if neg then roundDiv 3 num den neg * den ≤ num ∧ num < (roundDiv 3 num den neg + 1) * den
     else num ≤ roundDiv 3 num den neg * den ∧ roundDiv 3 num den neg * den < num + den) ∧
    (if neg then num ≤ roundDiv 4 num den neg * den ∧ roundDiv 4 num den neg * den < num + den
     else roundDiv 4 num den neg * den ≤ num ∧ num < (roundDiv 4 num den neg + 1) * den))

/-- REP.I with a count of zero changes nothing but the pc; otherwise it runs the instruction count times, each
iteration on the state the one before left, with the count register one lower each time. REP.U runs it COUNT times
when the bound allows and the rest of the stride holds 256 cycles, and then passes both words; where the rest of the
stride is shorter, the core holds until the tick. (09_decimal_and_repeat.md.) -/
def Obligations.RepeatsRunTheirInstruction : Prop :=
  (∀ (s : State) (c : Nat) (k : Core) (gc : BitVec 5) (w : RepWord), k = s.core c →
    s.atInstr c (4 + State.wordLen w) → wordLenOk w = true → State.illRep c k (Fmt.im 0x33 gc 0 0).toNat w = [] →
    gc.toNat ∉ State.namesReg w → k.reg gc.toNat = 0 →
    ∃ t, exec (.repI c (Fmt.im 0x33 gc 0 0) w) s = .next t ∧
      s.ran t c { k with pc := k.pc + BitVec.ofNat 64 (4 + State.wordLen w) } (some 1)) ∧
  (∀ (s : State) (c n : Nat) (k : Core) (gc : BitVec 5) (w : RepWord) (f u : Nat → State), k = s.core c →
    s.atInstr c (4 + State.wordLen w) → wordLenOk w = true → State.illRep c k (Fmt.im 0x33 gc 0 0).toNat w = [] →
    gc.toNat ∉ State.namesReg w → (k.reg gc.toNat).toNat = n → f 0 = s.charge c (!k.marshal) (some 1) →
    (∀ i, i < n → State.entryDue ((f i).core c) = none ∧
      (∃ x, (f i).semWord State.coreBus c ((f i).core c) w = .ok (u i, x)) ∧
      f (i + 1) = ((u i).modCore c (fun k => k.put gc.toNat (BitVec.ofNat 64 (n - 1 - i)))).charge c
        (!((f i).core c).marshal) ((f i).bound c ((f i).core c) w)) →
    exec (.repI c (Fmt.im 0x33 gc 0 0) w) s =
      .next ((f n).modCore c (fun k => { k with pc := k.pc + BitVec.ofNat 64 (4 + State.wordLen w) }))) ∧
  (∀ (s : State) (c b : Nat) (k : Core) (n : BitVec 6) (w : RepWord) (f u : Nat → State), k = s.core c →
    s.atInstr c (4 + State.wordLen w) → wordLenOk w = true → State.illRep c k (Fmt.sh 0x34 0 0 n).toNat w = [] →
    State.isAtomic w = false → s.onOscillator c = false → s.bound c k w = some b → (n.toNat + 1) * b ≤ 256 →
    k.used + 256 ≤ 500 → f 0 = s →
    (∀ i, i < n.toNat + 1 →
      (∃ x, (f i).semWord State.coreBus c ((f i).core c) w = .ok (u i, x)) ∧
      f (i + 1) = (u i).charge c (!((f i).core c).marshal) ((f i).bound c ((f i).core c) w)) →
    exec (.repU c (Fmt.sh 0x34 0 0 n) w) s =
      .next ((f (n.toNat + 1)).modCore c (fun k' => { k' with pc := k.pc + BitVec.ofNat 64 (4 + State.wordLen w) }))) ∧
  (∀ (s : State) (c b : Nat) (k : Core) (n : BitVec 6) (w : RepWord), k = s.core c →
    s.atInstr c (4 + State.wordLen w) → wordLenOk w = true → State.illRep c k (Fmt.sh 0x34 0 0 n).toNat w = [] →
    State.isAtomic w = false → s.onOscillator c = false → s.bound c k w = some b → (n.toNat + 1) * b ≤ 256 →
    500 < k.used + 256 →
    exec (.repU c (Fmt.sh 0x34 0 0 n) w) s = .next (s.setCore c
      { k with used := k.used + (500 - k.used), hold := .repu (n.toNat + 1) w
               cyc := if k.marshal then k.cyc else k.cyc - BitVec.ofNat 64 (500 - k.used) }))

/-- If iteration j of a REP.U raises an exception, no memory and no register is as an iteration left it: the core
enters marshal mode from its state before the prefix, with EPC at the prefix and the cause, subcode and address of
that iteration. Stated for a core in marshal mode, where no heat ends. (R542.) -/
def Obligations.AFailingRepeatUHasNoEffect : Prop :=
  (∀ (s v : State) (c b j : Nat) (k : Core) (n : BitVec 6) (w : RepWord) (f u : Nat → State) (x : Exc), k = s.core c →
    s.atInstr c (4 + State.wordLen w) → wordLenOk w = true → State.illRep c k (Fmt.sh 0x34 0 0 n).toNat w = [] →
    State.isAtomic w = false → s.onOscillator c = false → s.bound c k w = some b → (n.toNat + 1) * b ≤ 256 →
    k.used + 256 ≤ 500 → f 0 = s →
    j ≤ n.toNat →
    (∀ i, i < j →
      (∃ x, (f i).semWord State.coreBus c ((f i).core c) w = .ok (u i, x)) ∧
      f (i + 1) = (u i).charge c (!((f i).core c).marshal) ((f i).bound c ((f i).core c) w)) →
    (f j).semWord State.coreBus c ((f j).core c) w = .error (x, v) → k.exl = false → k.marshal = true →
    ∃ t, exec (.repU c (Fmt.sh 0x34 0 0 n) w) s = .next t ∧ t.core c = State.enter k x.cause x.sub k.pc x.eaddr ∧
      t.mem = s.mem ∧ t = { s with cores := t.cores, evr := t.evr, mpr := t.mpr })

/-- SVC enters marshal mode with cause 0x06 and EPC after it; EXIT, BARRIER and YIELD of the heat runtime hold the
core, the last EXIT delivering the heat; a spent budget enters with cause 0x05; STOP and SUSPEND enter with cause
0x07, or stay pending while EXL is 1. (08_norsor_isa.md, 10_heats.md.) -/
def Obligations.ServiceCallsBudgetsAndRequests : Prop :=
  (∀ (s : State) (c : Nat) (k : Core) (imm : BitVec 14), k = s.core c → s.atInstr c 4 → k.exl = false →
    (k.marshal = true ∨ s.heatOn c = none ∨ imm.toNat ≤ 2) →
    ∃ t, exec (.svc c (Fmt.im 0x35 0 0 imm)) s = .next t ∧
      s.ran t c { k with svc := some imm.toNat, epc := k.pc + 4, ecause := 0x0006, eaddr := 0, pmode := k.marshal,
                         exl := true, marshal := true, pc := k.mvec + 0x180, waiting := false } (some 1)) ∧
  (∀ (s : State) (c i : Nat) (k : Core) (h : Heat) (done : Bool), k = s.core c → s.heatOn c = some (h, i) → c < 72 →
    h.st = .running → k.svc = some 0 → k.hold = .none → k.marshal = true →
    done = h.cores.all (fun d => decide (d = c ∨ (s.core d).hold = .exited)) →
    exec (.svcExit c) s = .next { s.setCore c { k with hold := .exited, svc := none } with
      heats := s.heats.map (fun x => if x.id = h.id then
        { x with exitN := if i = 0 then (k.reg 4).toNat else x.exitN,
                 exitCode := if i = 0 then (k.reg 5).toNat % 2 ^ 32 else x.exitCode,
                 st := if done then .delivering else x.st } else x) }) ∧
  (∀ (s : State) (c i : Nat) (k : Core) (h : Heat), k = s.core c → s.heatOn c = some (h, i) → c < 72 →
    h.st = .running → k.svc = some 1 → k.hold = .none → k.marshal = true →
    exec (.svcBarrier c) s = .next (s.setCore c { k with hold := .barrier, svc := none })) ∧
  (∀ (s : State) (c i : Nat) (k : Core) (h : Heat), k = s.core c → s.heatOn c = some (h, i) → c < 72 →
    h.st = .running → k.svc = some 2 → k.hold = .none → k.marshal = true →
    exec (.svcYield c) s = .next (s.setCore c { k with hold := .yield, svc := none })) ∧
  (∀ (s : State) (c : Nat) (k : Core), k = s.core c → s.coreRuns c = true → k.exl = false → k.stopReq = false →
    k.suspReq = false → k.marshal = false → k.cyc.toInt ≤ 0 →
    exec (.budgetExhausted c) s = .next (s.setCore c
      { k with epc := k.pc, ecause := 0x0005, eaddr := 0, pmode := false, exl := true, marshal := true,
               pc := k.mvec + 0x140, waiting := false, hold := if c < 64 then .budget else k.hold })) ∧
  (∀ (s : State) (c : Nat) (k : Core), k = s.core c → c < 72 → s.corePresent c = true → k.halted = false →
    exec (.stop c) s = .next (s.setCore c (if k.exl then { k with stopReq := true, waiting := false } else
      State.unheld { k with epc := k.pc, ecause := 0x0107, eaddr := 0, pmode := k.marshal, exl := true, marshal := true,
                            pc := k.mvec + 0x1C0, waiting := false, stopReq := false }))) ∧
  (∀ (s : State) (c : Nat) (k : Core), k = s.core c → c < 72 → s.corePresent c = true → k.halted = false →
    k.stopReq = false → exec (.suspend c) s = .next (s.setCore c (if k.exl then { k with suspReq := true, waiting := false } else
      State.unheld { k with epc := k.pc, ecause := 0x0207, eaddr := 0, pmode := k.marshal, exl := true, marshal := true,
                            pc := k.mvec + 0x1C0, waiting := false, suspReq := false })))

/-- An illegal word gives cause 0x01 with its lowest subcode (a zero field, an unlisted register, an odd pair), a
privileged one in heat mode subcode 0x04 with event 0x2700; an odd jump, a misaligned and a forbidden load give
cause 0x02 with EADDR; with EXL 1 the core halts in a double fault with event 0x1701; a pending STOP is taken before
the instruction. EPC is the instruction and the core is otherwise as it was. (08_norsor_isa.md.) -/
def Obligations.ExceptionsEnterMarshalMode : Prop :=
  (∀ (s : State) (c : Nat) (k : Core) (d n : BitVec 5) (imm : BitVec 14), k = s.core c → s.atInstr c 4 → s.handles c → imm ≠ 0 → State.srListed n.toNat = false →
    exec (.rdsr c (Fmt.im 0x1D d n imm)) s = .next (s.setCore c (k.entered 1 2 k.pc 0))) ∧
  (∀ (s : State) (c : Nat) (k : Core) (d n : BitVec 5), k = s.core c → s.atInstr c 4 → s.handles c → State.srListed n.toNat = false →
    exec (.rdsr c (Fmt.im 0x1D d n 0)) s = .next (s.setCore c (k.entered 1 3 k.pc 0))) ∧
  (∀ (s : State) (c : Nat) (k : Core) (g : BitVec 5), k = s.core c → s.atInstr c 2 → s.handles c → (k.reg g.toNat).getLsbD 0 = true →
    exec (.jr c (Fmt.rr 0x11 0 g)) s = .next (s.setCore c (k.entered 2 4 k.pc (k.reg g.toNat)))) ∧
  (∀ (s : State) (c : Nat) (k : Core) (d b : BitVec 5) (x : Dword), k = s.core c → s.atInstr c 4 → s.handles c →
    x = k.reg b.toNat → d.toNat % 2 = 1 →
    exec (.loadInstruction c (.mm (Fmt.mm 0x27 d b 0 0 0 0))) s = .next (s.setCore c (k.entered 1 8 k.pc 0))) ∧
  (∀ (s : State) (c : Nat) (k : Core) (d b : BitVec 5) (x : Dword), k = s.core c → s.atInstr c 4 → s.handles c →
    x = k.reg b.toNat → s.place c k x.toNat 4 false = none →
    exec (.loadInstruction c (.mm (Fmt.mm 0x26 d b 0 0 0 0))) s = .next (s.setCore c (k.entered 2 2 k.pc x))) ∧
  (∀ (s : State) (c : Nat) (k : Core) (d b : BitVec 5) (x : Dword), k = s.core c → s.atInstr c 4 → s.handles c →
    x = k.reg b.toNat → (∃ m off, s.place c k x.toNat 4 false = some (.mem m off)) → x.toNat % 4 ≠ 0 →
    exec (.loadInstruction c (.mm (Fmt.mm 0x26 d b 0 0 0 0))) s = .next (s.setCore c (k.entered 2 4 k.pc x))) ∧
  (∀ (s : State) (c : Nat) (k : Core), k = s.core c → s.atInstr c 2 → s.handles c → k.marshal = false →
    exec (.wait c (Fmt.rr 0 5 0)) s = .next ((s.ev 0x2700 (s.coreSrc c) (item 1 c ++ item 4 k.pc.toNat)).setCore c (k.entered 1 4 k.pc 0))) ∧
  (∀ (s : State) (c : Nat) (k : Core), k = s.core c → s.atInstr c 2 → s.handles c → k.marshal = false →
    exec (.halt c (Fmt.rr 0 6 0)) s = .next ((s.ev 0x2700 (s.coreSrc c) (item 1 c ++ item 4 k.pc.toNat)).setCore c (k.entered 1 4 k.pc 0))) ∧
  (∀ (s : State) (c : Nat) (k : Core) (d a b : BitVec 5), k = s.core c → s.atInstr c 4 → k.exl = true → c < 64 →
    s.heatOn c = none → k.reg b.toNat = 0 →
    exec (.divuDivsRemuRems c (Fmt.tr 0x10 d a b)) s = .next ((s.setCore c { k with halted := true, dfault := true }).ev 0x1701 (s.coreSrc c)
      (item 1 c ++ item 4 k.pc.toNat ++ item 2 0x0104))) ∧
  (∀ (s : State) (c : Nat) (k : Core), k = s.core c → s.coreRuns c = true → k.exl = false → k.stopReq = true →
    exec (.nop c (Fmt.rr 0 1 0)) s = .next (s.setCore c { k.entered 7 1 k.pc 0 with stopReq := false }))

/-- With a divisor other than zero DIVU and REMU give the unsigned quotient and remainder, DIVS the quotient
truncated towards zero (so that the most negative number by -1 gives itself) and REMS the remainder with the sign of
the dividend, and no exception is raised. A divisor of zero raises Divide by Zero, subcode 0x01: the core enters
marshal mode and no general register changes. Everything else stays: the next state is the old one with this core
replaced, its place in the stride moved on by the cycles taken (at least one, and no more than the instruction's
bound), CYC reduced by them in heat mode, and the count of free values raised (State.ran). (R481.) -/
def Obligations.BinaryDivision : Prop :=
  (∀ (s : State) (c : Nat) (k : Core) (d a b : BitVec 5), k = s.core c → s.atInstr c 4 → k.reg b.toNat ≠ 0 →
    ∃ t, exec (.divuDivsRemuRems c (Fmt.tr 0x10 d a b)) s = .next t ∧
      s.ran t c { k.put d.toNat (k.reg a.toNat / k.reg b.toNat) with pc := k.pc + 4 } (some 68)) ∧
  (∀ (s : State) (c : Nat) (k : Core) (d a b : BitVec 5), k = s.core c → s.atInstr c 4 → k.reg b.toNat ≠ 0 →
    ∃ t, exec (.divuDivsRemuRems c (Fmt.tr 0x11 d a b)) s = .next t ∧
      s.ran t c { k.put d.toNat (BitVec.ofInt 64 ((k.reg a.toNat).toInt.tdiv (k.reg b.toNat).toInt)) with pc := k.pc + 4 } (some 68)) ∧
  (∀ (s : State) (c : Nat) (k : Core) (d a b : BitVec 5), k = s.core c → s.atInstr c 4 → k.reg b.toNat ≠ 0 →
    ∃ t, exec (.divuDivsRemuRems c (Fmt.tr 0x12 d a b)) s = .next t ∧
      s.ran t c { k.put d.toNat (k.reg a.toNat % k.reg b.toNat) with pc := k.pc + 4 } (some 68)) ∧
  (∀ (s : State) (c : Nat) (k : Core) (d a b : BitVec 5), k = s.core c → s.atInstr c 4 → k.reg b.toNat ≠ 0 →
    ∃ t, exec (.divuDivsRemuRems c (Fmt.tr 0x13 d a b)) s = .next t ∧
      s.ran t c { k.put d.toNat (BitVec.ofInt 64 ((k.reg a.toNat).toInt.tmod (k.reg b.toNat).toInt)) with pc := k.pc + 4 } (some 68)) ∧
  (∀ (s : State) (c : Nat) (k : Core) (d a b : BitVec 5), k = s.core c → s.atInstr c 4 → s.handles c → k.reg b.toNat = 0 →
    exec (.divuDivsRemuRems c (Fmt.tr 0x10 d a b)) s = .next (s.setCore c (k.entered 4 1 k.pc 0))) ∧
  (∀ (s : State) (c : Nat) (k : Core) (d a b : BitVec 5), k = s.core c → s.atInstr c 4 → s.handles c → k.reg b.toNat = 0 →
    exec (.divuDivsRemuRems c (Fmt.tr 0x11 d a b)) s = .next (s.setCore c (k.entered 4 1 k.pc 0))) ∧
  (∀ (s : State) (c : Nat) (k : Core) (d a b : BitVec 5), k = s.core c → s.atInstr c 4 → s.handles c → k.reg b.toNat = 0 →
    exec (.divuDivsRemuRems c (Fmt.tr 0x12 d a b)) s = .next (s.setCore c (k.entered 4 1 k.pc 0))) ∧
  (∀ (s : State) (c : Nat) (k : Core) (d a b : BitVec 5), k = s.core c → s.atInstr c 4 → s.handles c → k.reg b.toNat = 0 →
    exec (.divuDivsRemuRems c (Fmt.tr 0x13 d a b)) s = .next (s.setCore c (k.entered 4 1 k.pc 0)))

/-- In marshal mode ERET takes the pc from EPC and the mode from MSTAT.PMODE and clears EXL (on a management core
PMODE must be 1). In heat mode it raises Illegal Instruction, subcode 0x04, with event 0x2700. Everything else
stays: the next state is the old one with this core replaced, its place in the stride moved on by the cycles taken
(at least one, and no more than the instruction's bound), CYC reduced by them in heat mode, and the count of free
values raised (State.ran). (R491.) -/
def Obligations.EretReturns : Prop :=
  (∀ (s : State) (c : Nat) (k : Core), k = s.core c → s.atInstr c 2 → k.marshal = true → (c < 64 ∨ k.pmode = true) →
    ∃ t, exec (.eret c (Fmt.rr 0 4 0)) s = .next t ∧
      s.ran t c { k with pc := k.epc, marshal := k.pmode, exl := false } (some 1)) ∧
  (∀ (s : State) (c : Nat) (k : Core), k = s.core c → s.atInstr c 2 → s.handles c → k.marshal = false →
    exec (.eret c (Fmt.rr 0 4 0)) s = .next ((s.ev 0x2700 (s.coreSrc c) (item 1 c ++ item 4 k.pc.toNat)).setCore c (k.entered 1 4 k.pc 0)))

/-- From a requester the device honours: LOAD begins to load with a public-key job, or fails with 0x03 where
CRS_SRC_LEN is zero; APPLY makes a staged course pending, or gives 0x20 where it differs from the course in force in
a field that only a restart can change; PERSIST and DISCARD change the state as the table says; a command that
arrives while one runs sets CMD_REFUSED. A failed fetch gives 0x10 with its offset; validation, when it fails early
or its job runs, stages the course or gives its code and offset with event 0x2100. PERSIST ends with 0x23 and
nothing changed, or makes the course current in two copies, the old one previous, raises the fused epoch and blows
the revocation fuses. REQUEST and CANCEL_COMMIT set and drop the pending commit. (02_course_image.md,
14_digest_keys_identity.md, 06_flash_translation.md.) -/
def Obligations.CourseEngineCommands : Prop :=
  (∀ (s : State) (q : Requester), s.up → s.honours q → s.crs.state ∈ [.empty, .staged, .applied] →
    s.rwNat State.crsSrcLen ≠ 0 →
    exec (.load q) s = .next { s with crs := { s.crs with state := .loading, image := none }
                                      kst := { s.kst with jobs := s.kst.jobs ++ [.course] } }) ∧
  (∀ (s : State) (q : Requester), s.up → s.honours q → s.crs.state ∈ [.empty, .staged, .applied] →
    s.rwNat State.crsSrcLen = 0 →
    exec (.load q) s = .next (({ s with crs := { s.crs with state := .empty, result := 0x03, errOffset := 0, image := none } }).ev 0x2100 noSlice)) ∧
  (∀ (s : State) (q : Requester), s.up → s.honours q → s.crs.state = .staged →
    (∀ n f, s.crs.image = some n → s.crs.inForce = some f → State.restartEqual n f = true) →
    exec (.apply q) s = .next { s with crs := { s.crs with state := .applyPending } }) ∧
  (∀ (s : State) (q : Requester), s.up → s.honours q → ∀ (n f : Course), s.crs.state = .staged → s.crs.image = some n → s.crs.inForce = some f →
    State.restartEqual n f = false →
    exec (.apply q) s = .next { s with crs := { s.crs with result := 0x20 } }) ∧
  (∀ (s : State) (q : Requester), s.up → s.honours q → ∀ a b : CrsState,
    (a, b) ∈ [(CrsState.staged, CrsState.persistingStaged), (.applied, .persistingApplied)] → s.crs.state = a →
    exec (.persist q) s = .next { s with crs := { s.crs with state := b } }) ∧
  (∀ (s : State) (q : Requester), s.up → s.honours q → s.crs.state ∈ [.staged, .applyPending, .applied] →
    exec (.discard q) s = .next { s with crs := { s.crs with state := .empty, image := none } }) ∧
  (∀ (s : State) (q : Requester), s.up → s.honours q → ∀ c ∈ [Instr.load q, .apply q, .persist q, .discard q], s.crs.state ∈ [.loading, .persistingStaged, .persistingApplied] →
    exec c s = .next { s with crs := { s.crs with cmdRefused := true } }) ∧
  (∀ (s : State) (off : Nat), s.crs.state = .loading →
    exec (.courseValidationEnd (.failAt off)) s =
      .next (({ s with crs := { s.crs with state := .empty, result := 0x10, errOffset := off, image := none }
                       kst := { s.kst with jobs := s.kst.jobs.filter (fun j => decide (j ≠ PkKind.course)) } }).ev 0x2100 noSlice)) ∧
  (∀ (s : State) (d : Bytes) (len : Nat), s.crs.state = .loading → len = s.rwNat State.crsSrcLen →
    (State.failsEarly (s.courseCtx len) (padTo len d) = true ∨ s.courseJobRuns = true) →
    exec (.courseValidationEnd (.ok d)) s = .next (match validate (s.courseCtx len) (padTo len d) with
      | .ok c => { s with crs := { s.crs with state := .staged, result := 0, image := some c }
                          kst := { s.kst with jobs := s.kst.jobs.filter (fun j => decide (j ≠ PkKind.course)) } }
      | .error e => ({ s with crs := { s.crs with state := .empty, result := e.1, errOffset := e.2, image := none }
                              kst := { s.kst with jobs := s.kst.jobs.filter (fun j => decide (j ≠ PkKind.course)) } }).ev 0x2100 noSlice)) ∧
  (∀ (s : State) (a b : CrsState), (a, b) ∈ [(CrsState.persistingStaged, CrsState.staged), (.persistingApplied, .applied)] →
    s.crs.state = a → exec (.persistEnd false) s = .next { s with crs := { s.crs with state := b, result := 0x23 } }) ∧
  (∀ (s : State) (a b : CrsState) (c : Course), (a, b) ∈ [(CrsState.persistingStaged, CrsState.staged), (.persistingApplied, .applied)] →
    s.crs.state = a → s.crs.image = some c → s.sysPairs ≠ [] →
    ∃ t, ∃ p ∈ s.sysPairs, exec (.persistEnd true) s = .next t ∧ t.crs = { s.crs with state := b, result := 0 } ∧
      t.dur = { s.dur with
                      courseCur := some { bytes := c.image, one := p.1, two := p.2 }, coursePrev := s.dur.courseCur,
                      fusedEpoch := max s.dur.fusedEpoch c.epoch,
                      ownerFuses := tmap s.dur.ownerFuses (fun k f => if natBit c.revokeMask k then { f with revoked := true } else f),
                      ownerRevoked := s.dur.ownerRevoked ||| c.revokeMask } ∧
      t.slices = s.slices ∧ t.mem = s.mem) ∧
  (∀ (s : State) (q : Requester), s.up → s.honours q → exec (.request q) s = .next { s with crs := { s.crs with commitPending := true } }) ∧
  (∀ (s : State) (q : Requester), s.up → s.honours q → s.crs.commitPending = true →
    exec (.cancelCommit q) s =
      .next { s with crs := { s.crs with commitPending := false, commitResult := 4, commitPair := 0, commitCount := 0 } })

/-- With no operation pending every one of the twelve commands is recorded with its slice, FORCE and its stride;
with one pending it sets CMD_REFUSED. At the tick an operation that the slice's state does not admit gives 0xA0 with
event 0x1300; RESET_DRAIN and RESET_SQUASH begin a reset, FREEZE begins freezing, THAW of a frozen slice makes it
active with event 0x0303, SAVE with room for the baton begins saving with SERIAL raised and LIVE set, DESTROY of a
frozen or parked slice begins destroying and drops its buffered entries. The clauses on judging speak of the
operation that the tick calls (slcTick). (03_slices.md.) -/
def Obligations.SliceCommandsAreRecordedAndJudged : Prop :=
  (∀ (s : State) (q : Requester) (n : Nat), s.up → s.honours q → n < 512 → s.slc.op = none →
    ∀ p ∈ [(Instr.create q n, SlcOp.create, false), (.resetDrain q n, .resetDrain, false), (.resetSquash q n,
        .resetSquash, false), (.freeze q n, .freeze, false), (.thaw q n true, .thaw, true), (.thaw q n
        false, .thaw, false), (.save q n, .save, false), (.restore q n, .restore, false), (.destroy q n,
        .destroy, false), (.migrate q n, .migrate, false), (.accept q n, .accept, false), (.movePort q n,
        .movePort, false), (.cancel q n, .cancel, false)],
      exec p.1 s = .next { s with slc := { s.slc with
        op := some { op := p.2.1, slice := n, force := p.2.2, at' := s.stride } } }) ∧
  (∀ (s : State) (q : Requester) (n : Nat), s.up → s.honours q → n < 512 → s.slc.op.isSome = true →
    ∀ p ∈ [(Instr.create q n, SlcOp.create, false), (.resetDrain q n, .resetDrain, false), (.resetSquash q n,
        .resetSquash, false), (.freeze q n, .freeze, false), (.thaw q n true, .thaw, true), (.thaw q n
        false, .thaw, false), (.save q n, .save, false), (.restore q n, .restore, false), (.destroy q n,
        .destroy, false), (.migrate q n, .migrate, false), (.accept q n, .accept, false), (.movePort q n,
        .movePort, false), (.cancel q n, .cancel, false)],
      exec p.1 s = .next { s with slc := { s.slc with cmdRefused := true } }) ∧
  (∀ (s : State) (n : Nat) (p : SlcPending) (rest : State → SlcPending → State), s.slc.op = some p → p.slice = n → p.judged = false →
    s.hasCourse = true → s.dev.phase = .ready → p.op ∈ [.freeze, .resetDrain, .resetSquash, .thaw, .save, .destroy] → s.slcAdmits p.op n = false →
    s.slcTick rest = ({ s with slc := { s.slc with op := none, result := 0xA0, slice := n } }).ev 0x1300 n (item 1 0xA0)) ∧
  (∀ (s : State) (n : Nat) (p : SlcPending) (rest : State → SlcPending → State), s.slc.op = some p → p.slice = n → p.judged = false →
    s.hasCourse = true → s.dev.phase = .ready → ∀ (a b : SlState) (drain : Bool), (p.op, a, b, drain) ∈ [(SlcOp.resetDrain, SlState.active, SlState.resetting, true),
      (.resetDrain, .frozen, .resetting, true), (.resetSquash, .active, .resetting, false),
      (.resetSquash, .frozen, .resetting, false)] → (s.slice n).st = a →
    s.slcTick rest = (if drain then State.heatDrain else State.squash)
      (({ s with slc := { s.slc with op := none, result := 0, slice := n } }).modSlice n
        (fun x => { x with st := b, drain := drain })) n) ∧
  (∀ (s : State) (n : Nat) (p : SlcPending) (rest : State → SlcPending → State), s.slc.op = some p → p.slice = n → p.judged = false →
    s.hasCourse = true → s.dev.phase = .ready → p.op = .freeze → (s.slice n).st = .active →
    s.slcTick rest = (({ s with slc := { s.slc with op := none, result := 0, slice := n } }).modSlice n
      (fun x => { x with st := .freezing })).heatSuspend n) ∧
  (∀ (s : State) (n : Nat) (p : SlcPending) (rest : State → SlcPending → State), s.slc.op = some p → p.slice = n → p.judged = false →
    s.hasCourse = true → s.dev.phase = .ready → p.op = .thaw → (s.slice n).st = .frozen → (s.slice n).sourceLive = false →
    s.slcTick rest = ((({ s with slc := { s.slc with op := none, result := 0, slice := n } }).modSlice n
      (fun x => { x with st := .active, lastResult := 0, sourceLive := false })).ev 0x0303 n).heatThaw n) ∧
  (∀ (s : State) (n : Nat) (p : SlcPending) (rest : State → SlcPending → State), s.slc.op = some p → p.slice = n → p.judged = false →
    s.hasCourse = true → s.dev.phase = .ready → p.op = .save → (s.slice n).st = .frozen → s.batonNeed n ≤ s.rwNat 0x40020 →
    ∃ t, s.slcTick rest = t ∧ (t.slice n).st = .saving ∧ t.slc = { s.slc with op := none, result := 0, slice := n } ∧
      t.serialOf n = { serial := (s.serialOf n).serial + 1, live := true }) ∧
  (∀ (s : State) (n : Nat) (p : SlcPending) (rest : State → SlcPending → State), s.slc.op = some p → p.slice = n → p.judged = false →
    s.hasCourse = true → s.dev.phase = .ready → p.op = .destroy → (s.slice n).st ∈ [.frozen, .parked] →
    ∃ t, s.slcTick rest = t ∧ (t.slice n).st = .destroying ∧ (t.slice n).entries = [])

/-- A descriptor fetch that fails ends the operation with 0xA2; a good CREATE descriptor that the pools can serve
queues the generation of its key pair, whose end accepts it and makes the slice CREATING on its port, and one of
ACCEPT makes it RECEIVING. A freezing slice with nothing running becomes frozen with event 0x0302; a resetting one
that is quiet becomes active with its controller and queues reset and its namespaces kept, event 0x0301; SAVE ends
parked, or frozen with 0xA2; RESTORE ends frozen with LIVE cleared, or back in its former state, zeroed, with 0xA2;
DESTROY ends absent once its operations have run and its trims are durable. (03_slices.md.) -/
def Obligations.SliceOperationsEnd : Prop :=
  (∀ (s : State) (n off : Nat) (p : SlcPending), n < 512 → s.slc.op = some p → p.slice = n → p.judged = true →
    p.op ∈ [.create, .accept, .restore, .movePort] →
    exec (.slcFetchEnd n (.failAt off)) s =
      .next (({ s with slc := { s.slc with op := none, result := 0xA2, slice := n } }).ev 0x1300 n (item 1 0xA2))) ∧
  (∀ (s : State) (n : Nat) (d : Bytes) (p : SlcPending) (period : Nat), n < 512 → s.slc.op = some p → p.slice = n → p.judged = true →
    p.op = .create → period = (match s.crs.inForce with | some c => c.period | none => 0) →
    descBad (padTo 128 d) n period s.portCount = none → s.drawBad n (descDraw (padTo 128 d)) = none →
    (∀ (m : Nat) (bs : Bytes), PkKind.keygen m bs ∉ s.kst.jobs) →
    exec (.slcFetchEnd n (.ok d)) s = .next (s.setKst { s.kst with jobs := s.kst.jobs ++ [.keygen n (padTo 128 d)] })) ∧
  (∀ (s : State) (n : Nat) (bs : Bytes) (p : SlcPending) (period : Nat), s.slc.op = some p → p.slice = n → p.judged = true →
    p.op = .create → s.pkCurrent = some (.keygen n bs) → s.kst.state = .ready →
    period = (match s.crs.inForce with | some c => c.period | none => 0) →
    descBad bs n period s.portCount = none → s.drawBad n (descDraw bs) = none →
    ∃ t, exec .pkJobComplete s = .next t ∧ (t.slice n).st = .creating ∧
      t.slc = { s.slc with op := none, result := 0, slice := n } ∧ (t.slice n).port = (descDraw bs).port) ∧
  (∀ (s : State) (n : Nat) (d : Bytes) (p : SlcPending) (period : Nat), n < 512 → s.slc.op = some p → p.slice = n → p.judged = true →
    p.op = .accept → period = (match s.crs.inForce with | some c => c.period | none => 0) →
    descBad (padTo 128 d) n period s.portCount = none → s.drawBad n (descDraw (padTo 128 d)) = none →
    ∃ t, exec (.slcFetchEnd n (.ok d)) s = .next t ∧ (t.slice n).st = .receiving ∧
      t.slc = { s.slc with op := none, result := 0, slice := n } ∧ (t.slice n).port = (descDraw (padTo 128 d)).port) ∧
  (∀ (s : State) (n : Nat) (x : Slice), n < 512 → x = s.slice n → x.st = .freezing →
    x.adms.all (fun a => s.heatStays a.id) = true → x.ready = [] → s.heatBlocks n = false →
    exec (.sliceFrozen n) s = .next ((s.setSlice n { x with st := .frozen, lastResult := 0 }).ev 0x0302 n)) ∧
  (∀ (s : State) (n : Nat) (x : Slice), n < 512 → x = s.slice n → x.st = .resetting → State.quiet x = true →
    ∃ t, exec (.resetComplete n) s = .next t ∧
      t = (s.setSlice n { State.resetController x with st := .active, lastResult := 0, drain := false }).ev 0x0301 n ∧
      (t.slice n).ctrl.rdy = false ∧ (t.slice n).sqs = [] ∧ (t.slice n).cqs = [] ∧ (t.slice n).nss = x.nss) ∧
  (∀ (s : State) (n : Nat) (x : Slice), n < 512 → x = s.slice n → x.st = .saving → x.entries = [] →
    exec (.saveEnd n false) s = .next ((s.setSlice n { x with st := .frozen, lastResult := 0xA2 }).ev 0x1300 n (item 1 0xA2))) ∧
  (∀ (s : State) (n : Nat) (x : Slice), n < 512 → x = s.slice n → x.st = .saving → x.entries = [] →
    ∃ t, exec (.saveEnd n true) s = .next t ∧ (t.slice n).st = .parked ∧ (t.slice n).lastResult = 0) ∧
  (∀ (s : State) (n : Nat) (x : Slice), n < 512 → x = s.slice n → x.st = .restoring →
    exec (.restoreEnd n false) s =
      .next (((s.zeroSlice n).setSlice n { x with st := x.prev, release := true, lastResult := 0xA2 }).ev 0x1300 n (item 1 0xA2))) ∧
  (∀ (s : State) (n : Nat) (b : Baton), n < 512 → (s.slice n).st = .restoring → (s.slice n).bound = true →
    s.dur.batons.find? (fun b => b.slice = n && b.serial = (s.serialOf n).serial) = some b →
    ∃ t, exec (.restoreEnd n true) s = .next t ∧ (t.slice n).st = .frozen ∧ t.serialOf n = { s.serialOf n with live := false }) ∧
  (∀ (s : State) (n q : Nat), n < 512 → (s.slice n).st = .destroying →
    (∀ j ∈ s.ftl.jobs, j.slice ≠ n) → (s.slice n).trimSeq = some q → q ≤ s.ftl.jseq →
    ∃ t, exec (.destroyEnd n) s = .next t ∧ (t.slice n).st = .absent ∧ (t.slice n).nss = [] ∧ (t.slice n).pairing = {})

/-- A wake request in P1, the timer in P2 to P4, the refresh wake in P3 and P4 and a PCIe L1 exit in P2 and P3 wake
the device with their source codes. POWER_ENTRY_BEGIN of a prepared device that nothing holds begins the entry,
takes the relay links down, lowers READY and its companion pin and, for P4, keeps the P4 record. The entry to P1 or
P2 that no wake has interrupted ends in that state with event 0x3D00. An exit from P1 or P2 ends in P0 with the PLLs
wanted and, from P2 on, event 0x3D01. A cluster PLL that is wanted locks. (17_power.md.) -/
def Obligations.PowerCommands : Prop :=
  (∀ (s : State) (q : Requester), s.dev.run = .started → s.dev.phase = .ready → s.honours q → s.pwr.phase = .steady →
    s.pwr.state = 1 → exec (.wake q) s = .next (s.woken 9 0)) ∧
  (∀ s : State, s.pwr.phase = .steady → s.pwr.state ∈ [2, 3, 4] → s.rwNat 0x1900028 ≠ 0 → s.rwNat 0x1900028 = s.stride →
    exec .pwrTimerExpiry s = .next (s.woken 6 0)) ∧
  (∀ (s : State) (t : Nat), s.pwr.phase = .steady → s.pwr.state ∈ [3, 4] → s.pwr.refreshWake = some t → t ≤ s.stride →
    exec .refreshWake s = .next (State.woken { s with pwr := { s.pwr with refreshWake := none } } 7 0)) ∧
  (∀ (s : State) (p : Nat), p < 2 → s.pwr.phase = .steady → s.pwr.state ∈ [2, 3] →
    exec (.pcieL1Exit p) s = .next (s.woken 2 0)) ∧
  (∀ s : State, s.prepared = true → (s.pwr.target < 2 ∨ s.entryHeld = false) → ∃ t, exec .powerEntryBegin s = .next t ∧
    t.pwr = { s.pwr with phase := .entering, prepReady := true } ∧
    t.dur.p4 = (if s.pwr.target = 4 then some s.p4RecordNow else s.dur.p4) ∧
    (∀ p < 4, (t.rlyPort p).st = .disabled ∨ (t.rlyPort p).st = .down) ∧
    tgetD t.pins.levels 6 false = false ∧ tgetD t.pins.levels 7 false = false) ∧
  (∀ (s : State) (k : Nat), s.pwr.phase = .entering → s.pwr.target = k → k ∈ [1, 2] → s.pwr.latched = none →
    exec .powerStateReached s = .next { s.ev 0x3D00 noSlice (item 1 k) with pwr := { s.pwr with
      state := k, phase := .steady, clusterPll := 0, pllWanted := 0, mgmtPll := k = 1, idle := [0, 0, 0, 0], prepReady := false } }) ∧
  (∀ (s : State) (e : ExitEnv), s.pwr.phase = .exiting → s.pwr.state ∈ [1, 2] → ∃ t, exec (.powerExitComplete e) s = .next t ∧
    t.pwr = { s.pwr with
      state := 0, target := 0, phase := .steady, mgmtPll := true, clusterPll := 0,
      pllWanted := 2 ^ (s.coresPresent / 8) - 1, wakeEventDue := false, idle := [0, 0, 0, 0] } ∧
    t.evr.queue = s.evr.queue ++ (if s.pwr.wakeFrom < 2 then [] else [{
      code := 0x3D01, src := noSlice,
      detail := item 1 s.pwr.wakeSource ++ item 1 s.pwr.wakeFrom ++ item 2 s.pwr.wakeDetail, at' := some s.stride }])) ∧
  (∀ (s : State) (c : Nat), c < 8 → natBit s.pwr.pllWanted c = true →
    exec (.clusterPllLock c) s = .next { s with pwr := { s.pwr with
      clusterPll := s.pwr.clusterPll + 2 ^ c, pllWanted := s.pwr.pllWanted - 2 ^ c } })

/-- From the management port of a running device: a read of EVR_CHECK gives the dword at the cursor and moves it on
in its area; FREEZE and RELEASE are recorded for the tick. A freeze of 4,000 strides expires: the recorder thaws and
holds nothing back. A CLEAR whose bits are allowed is recorded with its slice and its rings. The clauses on
EVR_CHECK, FREEZE and RELEASE speak of the BAR0 set. (18_event_recorder.md.) -/
def Obligations.RecorderCommands : Prop :=
  (∀ s : State, s.up → s.mgrPort < 2 → ∃ v, exec (.evrCheckRead .bar0) s = .next (({ s with lastRead := v }).setEvrPort 0
      { s.evrPort 0 with index := ((s.evrPort 0).index + 1) % State.evrAreaSize .bar0 (s.evrPort 0).area }) ∧
    v = BitVec.ofNat 64 (leAt (s.evrAtCursor .bar0) 0 4)) ∧
  (∀ s : State, s.up → s.mgrPort < 2 → exec (.freezeRing .bar0) s =
    .next { s with evr := { s.evr with dev := { s.evr.dev with freezeReq := s.evr.dev.freezeReq ++ [0] } } }) ∧
  (∀ s : State, s.up → s.mgrPort < 2 → s.evr.dev.frozenAt.isSome = true → exec (.release .bar0) s =
    .next { s with evr := { s.evr with dev := { s.evr.dev with releaseReq := true } } }) ∧
  (∀ (s : State) (i : Option Nat) (t : Nat), (∀ n, i = some n → n < 512) → (s.recorder i).frozenAt = some t → t + 4000 ≤ s.stride →
    ∃ u, exec (.freezeExpiry i) s = .next u ∧ u = s.evrThaw i ∧ (u.recorder i).frozenAt = none ∧
      (u.recorder i).thawedAt = some s.stride ∧ (u.recorder i).held = []) ∧
  (∀ (s : State) (q : Requester) (v : BitVec 32), s.up → s.honours q → evrClearOk s v.toNat = true →
    exec (.evrClear q v) s = .next { s with evr := { s.evr with clears := s.evr.clears ++ [{
      slice := if natBit v.toNat 25 then some (natBits v.toNat 24 16) else none,
      guarded := natBit v.toNat 1, opn := natBit v.toNat 0, set := 0 }] } })

/-- The basic management commands 0x00 and 0x08 answer their blocks; SELECT takes a value up to 0x11; a block read
of selection 2 answers its dword; a freeze written through selection 0xD is recorded; a block write of a length
other than 4 is discarded and reported. IDCODE, SAMPLE/PRELOAD, HIGHZ and BYPASS are taken whenever there is power,
EXTEST and CLAMP before start-up or in SAFE, a debug instruction where debug is unlocked; a locked one counts an
access, gives BYPASS and raises security alarm 5. A TAP reset selects IDCODE. (20_pins_electrical_package.md,
18_event_recorder.md, 19_startup_faults_and_injection.md, 14_digest_keys_identity.md.) -/
def Obligations.ManagementPinCommands : Prop :=
  (∀ (s : State) (k : Nat) (bs : Bytes), s.dev.run = .started → s.smbusAway = false → (k, bs) ∈ [(0x00, s.basicBlock), (0x08, s.identBlock)] →
    exec (.smbusBasicManagement k) s = .next { s with out := s.out ++ [.smbus bs] }) ∧
  (∀ (s : State) (v : Nat), s.up → v ≤ 0x11 →
    exec (.smbusSelectWrite v true) s = .next { s with pins := { s.pins with select := v } }) ∧
  (∀ s : State, s.up → s.pins.select = 2 →
    exec .smbusBlockRead s = .next { s with out := s.out ++ [.smbus (4 :: leBytes 4 s.evr.dev.podium.length)] }) ∧
  (∀ s : State, s.up → s.pins.select = 0xD → exec (.smbusBlockWrite 4 1 true) s =
    .next { s with evr := { s.evr with dev := { s.evr.dev with freezeReq := s.evr.dev.freezeReq ++ [1] } } }) ∧
  (∀ (s : State) (n : Nat) (v : BitVec 32), s.up → n ≠ 4 → exec (.smbusBlockWrite n v true) s =
    .next (s.discard 0x1800FFC 0 (0x1800000 + 4 * s.pins.select))) ∧
  (∀ (s : State) (p : Instr × Nat), s.dev.run = .waiting ∨ (s.dev.run = .started ∧ s.dev.phase = .safe) →
    p ∈ [(Instr.extest, 0x00), (.clamp, 0x09)] →
    exec p.1 s = .next { s with pins := { s.pins with instr := p.2, tapActive := true } }) ∧
  (∀ (s : State) (p : Instr × Nat), s.dev.run ≠ .off →
    p ∈ [(Instr.idcode, 0x01), (.samplePreload, 0x02), (.highz, 0x08), (.bypass, 0xFF)] →
    exec p.1 s = .next { s with pins := { s.pins with instr := p.2, tapActive := true } }) ∧
  (∀ (s : State) (k : Nat), s.dev.run ≠ .off → (0x80 ≤ k ∧ k ≤ 0xBF → s.debugUnlock = true) →
    exec (.debugInstruction k) s = .next { s with pins := { s.pins with
      instr := if 0x80 ≤ k ∧ k ≤ 0xBF then k else 0xFF, tapActive := true } }) ∧
  (∀ (s : State) (p : Instr), s.dev.run = .started → s.dev.phase ≠ .safe →
    (p ∈ [Instr.extest, .clamp] ∨ (s.debugUnlock = false ∧ ∃ k, 0x80 ≤ k ∧ k ≤ 0xBF ∧ p = .debugInstruction k)) →
    ∃ t, exec p s = .next t ∧ t.pins.instr = 0xFF ∧ t.pins.lockedAccess = min 255 (s.pins.lockedAccess + 1) ∧
      t.kst.lastAlarm = 5 ∧ t.kst.alarm = true ∧ t.kst.state = .suspended) ∧
  (∀ s : State, s.dev.run ≠ .off → exec .tapReset s = .next { s with pins := { s.pins with instr := 1 } })

/-- COLD_START leaves a waiting device at stride 0 with no slice, register, memory or core, and with what is
durable. A start without its clock ends SAFE with cause 1; one that passes its first steps and finds no course ends
in NO_COURSE. FW_LOAD of a good image puts it in the slot that is not running; FW_ACTIVATE sets it up for trial;
FW_CONFIRM confirms the running one and fuses its epoch where that is higher; RESTART drains the heats and falls
due; all four set CMD_REFUSED while a command or a fault flush runs. A device fault and the watchdog are taken at
the tick; a fault flush that ends in time ends SAFE with cause 6 or restarts; PFAIL_N high is kept for the end of
the flush. (19_startup_faults_and_injection.md, 10_heats.md.) -/
def Obligations.StartAndFirmwareCommands : Prop :=
  (∀ s : State, ∃ t, exec .coldStart s = .next t ∧ t.stride = 0 ∧ t.dev.run = .waiting ∧ t.dev.startKind = 1 ∧
    t.slices = [] ∧ t.rw = [] ∧ t.crs = {} ∧ t.cmb = [] ∧ t.mem = [] ∧ t.cores = [] ∧ t.pins = {} ∧ t.variant = s.variant ∧
    t.deviceId = s.deviceId ∧ t.dur.courseCur = s.dur.courseCur ∧ t.dur.fusedEpoch = s.dur.fusedEpoch) ∧
  (∀ (s : State) (e : StartEnv), s.dev.run = .waiting → e.clockOk = false →
    ∃ t, exec (.starterBegin e) s = .next t ∧ t.dev.run = .started ∧ t.dev.phase = .safe ∧ t.dev.cause = 1) ∧
  (∀ (s t : State) (e : StartEnv), s.dev.run = .waiting → s.startSteps e = .ok t → t.startCourse.hasCourse = false →
    exec (.starterBegin e) s = .next { t.startCourse with dev := { t.startCourse.dev with phase := .noCourse } }) ∧
  (∀ (s : State) (q : Requester), s.up → s.honours q → s.dev.cmdBusy = false → s.dev.faultFlush = false →
    ∀ (bs : Bytes) (f : FwImage), s.dev.trial = false → s.rwNat 0x30 ≠ 0 → s.systemAreaWritable = true →
    fwCheck s.kst.weldopoRevoked s.dur.fwFusedEpoch (padTo (s.rwNat 0x30) bs) = .ok f →
    exec (.fwLoad q (.ok bs)) s = .next (((s.setFw (1 - s.dev.image) f).devResult 0).ev 0x0F01 noSlice
      (item 1 (1 - s.dev.image) ++ item 1 f.major ++ item 1 f.minor ++ item 1 f.patch))) ∧
  (∀ (s : State) (q : Requester), s.up → s.honours q → s.dev.cmdBusy = false → s.dev.faultFlush = false →
    (s.fwImage (1 - s.dev.image)).state = 1 →
    exec (.fwActivate q) s = .next ((({ s with
      dev := { s.dev with cmdResult := 0 }
      dur := { s.dur with fwTrial := true, fwTries := 0, fwConfirmed := s.dev.image } }).ev 0x0F02 noSlice))) ∧
  (∀ (s : State) (q : Requester), s.up → s.honours q → s.dev.cmdBusy = false → s.dev.faultFlush = false →
    s.dev.trial = true → (s.fwImage s.dev.image).epoch ≤ s.dur.fwFusedEpoch →
    exec (.fwConfirm q) s = .next ((({ s with
      dev := { s.dev with trial := false, cmdResult := 0 }
      dur := { s.dur with fwTrial := false, fwTries := 0, fwConfirmed := s.dev.image } }).ev 0x0F03 noSlice))) ∧
  (∀ (s : State) (q : Requester), s.up → s.honours q → s.dev.cmdBusy = false → s.dev.faultFlush = false →
    s.dev.trial = true → s.dur.fwFusedEpoch < (s.fwImage s.dev.image).epoch →
    exec (.fwConfirm q) s = .next (((({ s with
      dev := { s.dev with trial := false, cmdResult := 0 }
      dur := { s.dur with
        fwTrial := false, fwTries := 0, fwConfirmed := s.dev.image,
        fwFusedEpoch := (s.fwImage s.dev.image).epoch } }).ev 0x0F03 noSlice).ev 0x2F02 noSlice))) ∧
  (∀ (s : State) (q : Requester), s.up → s.honours q → s.dev.cmdBusy = false → s.dev.faultFlush = false →
    exec (.restart q) s = .next (s.slices.foldl (fun t p => t.heatDrain p.1)
      { s with dev := { s.dev with restartDue := true, cmdBusy := true } })) ∧
  (∀ (s : State) (q : Requester), s.up → s.honours q → (s.dev.cmdBusy = true ∨ s.dev.faultFlush = true) →
    ∀ (d : Fetch) (c : Instr), c ∈ [Instr.fwLoad q d, .fwActivate q, .fwConfirm q, .restart q] →
    exec c s = .next { s with dev := { s.dev with cmdRefused := true } }) ∧
  (∀ (s : State) (k : Nat), s.dev.run = .started → 1 ≤ k → k ≤ 5 →
    exec (.deviceFault k) s = .next { s with dev := { s.dev with faultDue := some k } }) ∧
  (∀ s : State, s.dev.run = .started → s.dev.phase ≠ .safe →
    exec .watchdogExpiry s = .next { s with dev := { s.dev with faultDue := some 5 } }) ∧
  (∀ s : State, s.dev.faultFlush = true → s.pfInTime = true → s.wbf.pfail = false → s.dev.afterFlush ≠ 1 →
    ∃ t, exec .faultFlushEnd s = .next t ∧
      (s.dev.afterFlush = 6 → t.dev.run = .started ∧ t.dev.phase = .safe ∧ t.dev.cause = 6) ∧
      (s.dev.afterFlush ≠ 6 → t.dev.run = .waiting ∧ t.dev.startKind = s.dev.afterFlush) ∧
      t.slices = [] ∧ t.rw = [] ∧ t.variant = s.variant) ∧
  (∀ (s : State) (e : StartEnv), s.dev.run = .started → s.wbf.pfail = true → s.wbf.pfDone = false →
    exec (.pfailNReturnsHigh e) s =
      .next { s with
        pins := { s.pins with pfHigh := true }
        dev := { s.dev with env := some e } })

/-- With the reserve held HOLDUP arms with event 0x0400. Disarming turns every buffered entry and every write or
post not yet started to write-through, opens the drain period and makes event 0x1400. A latched failure, PWR_OK low
and a thermal trip latch PFAIL and its flush bound once. An emergency flush that ends in its bound, with the pins
low, has its journal written, the buffered entries saved in the reserve and the slice table and recorders durable.
(05_write_buffer_and_ledger_posts.md, 20_pins_electrical_package.md, 18_event_recorder.md.) -/
def Obligations.PowerFailureCommands : Prop :=
  (∀ s : State, s.dev.run = .started → s.dev.phase = .ready → s.reserveHeld = true → s.wbf.armed = false →
    exec .holdupArmed s = .next (({ s with wbf := { s.wbf with
      holdupPin := true, holdupOk := true, highTicks := 4, reserveOk := true, armed := true } }).ev 0x0400 noSlice)) ∧
  (∀ s : State, s.dev.run = .started → s.wbf.armed = true →
    exec .holdupDisarmed s = .next (({ s with
      wbf := { s.wbf with
        holdupPin := false, holdupOk := false, highTicks := 0, armed := false, disarmSeen := true, drainPeriod := true }
      slices := s.slices.map (fun (p : Nat × Slice) => (p.1, { p.2 with
        entries := p.2.entries.map (fun (e : Entry) =>
          if e.visible.isSome then { e with drain := true } else { e with wt := true, drain := true })
        adms := p.2.adms.map (fun (a : Adm) =>
          if !a.admin && (a.ent.opc = 0x01 || a.ent.opc = 0x81) && !a.started then { a with wt := true, drain := true }
          else a) })) }).ev 0x1400 noSlice)) ∧
  (∀ s : State, s.dev.run = .started →
    exec .powerFailLatch s = .next { s with wbf := { s.wbf with
      pfail := true, pfBound := if s.wbf.pfail || s.wbf.pfTaken then s.wbf.pfBound else s.flushBound } }) ∧
  (∀ s : State, s.dev.run = .started → s.pwr.state ≠ 4 → s.wbf.pfDone = false → ∃ t, exec .pwrOkLow s = .next t ∧
    t.wbf = { s.wbf with pfail := true, pfBound := if s.wbf.pfail || s.wbf.pfTaken then s.wbf.pfBound else s.flushBound } ∧ t.pins.pwrLow = true ∧ tgetD t.pins.levels 3 true = true ∧ t.slices = s.slices) ∧
  (∀ s : State, s.dev.run = .started → ∃ t, exec .thermalTrip s = .next t ∧
    t.wbf = { s.wbf with pfail := true, pfBound := if s.wbf.pfail || s.wbf.pfTaken then s.wbf.pfBound else s.flushBound } ∧ tgetD t.pins.levels 3 true = false ∧ t.slices = s.slices) ∧
  (∀ s : State, s.dev.faultFlush = false → s.wbf.pfFlushing = true → s.pfInTime = true → s.pins.pfHigh = false →
    s.pins.pwrLow = false → ∃ t, exec (.emergencyFlushEnd s.pfLaps) s = .next t ∧
      t.wbf = { s.wbf with pfFlushing := false, pfDone := true } ∧ tgetD t.pins.levels 2 false = true ∧ t.ftl.journal = [] ∧
      t.dur.reserve = s.slices.map (fun p => (p.1, State.savedEntries s p.1 p.2)) ∧
      t.dur.sliceTable = some s.sliceTableNow ∧ t.dur.recDev = s.evr.dev ∧ t.dur.recSlices = s.evr.slices)

/-- From a requester the device honours: CHECKPOINT begins one in the other area; DUMP_LOSS writes the loss list to
host memory and gives 0, or 2 where the write fails with free bytes written; ADD_UNPOWERED adds its days to the
media age; CLEAR_LOSS empties the list and the slices' marks; each sets CMD_REFUSED while one runs. The interval
begins a checkpoint, and one whose journal has drained becomes the newest of its area, with the recorders and health
durable and event 0x0500. (06_flash_translation.md, 07_media_and_health.md, 18_event_recorder.md.) -/
def Obligations.FlashTranslationManagerCommands : Prop :=
  (∀ (s : State) (q : Requester), s.up → s.honours q → s.ftl.busy = false → exec (.checkpoint q) s = .next { s with ftl := { s.ftl with
      busy := true, ckptCmd := true, journal := s.ftl.journal.filter (fun r => decide (r.type ≠ 0x0A)), ckptBegan := s.lap,
      ckptRunning := some { startSeq := s.ftl.jseq, area := 1 - s.ftl.ckptArea, coarse := s.ftl.coarse, fine := s.ftl.fine,
                            blocks := s.ftl.blks } } }) ∧
  (∀ (s : State) (q : Requester), s.up → s.honours q → s.ftl.busy = false → s.ftl.loss ≠ [] → 24 * s.ftl.loss.length ≤ s.rwNat 0x300018 →
    exec (.dumpLoss q true) s = .next ({ s with
      ftl := { s.ftl with result := 0 }
      out := s.out ++ [.hostWrite none (s.rwNat 0x300010) (s.ftl.loss.flatMap State.lostBytes)] }) ∧
    exec (.dumpLoss q false) s = .next { s with
      ftl := { s.ftl with result := 2 }
      out := s.out ++ [.hostPartial none (s.rwNat 0x300010) (24 * s.ftl.loss.length)] }) ∧
  (∀ (s : State) (q : Requester), s.up → s.honours q → s.ftl.busy = false → exec (.addUnpowered q) s = .next { s with ftl := { s.ftl with
      mediaAge := min (2 ^ 64 - 1) (s.ftl.mediaAge + natBits (s.rwNat 0x300008) 11 0 * 86400000), result := 0 } }) ∧
  (∀ (s : State) (q : Requester), s.up → s.honours q → s.ftl.busy = false → exec (.clearLoss q) s = .next { s with
      ftl := { s.ftl with loss := [], lossOverflow := false, result := 0 }
      slices := s.slices.map (fun p => (p.1, { p.2 with health := false })) }) ∧
  (∀ (s : State) (q : Requester), s.up → s.honours q → s.ftl.busy = true → ∀ (b : Bool) (c : Instr), c ∈ [Instr.checkpoint q, .dumpLoss q b, .addUnpowered q, .clearLoss q] →
    exec c s = .next { s with ftl := { s.ftl with cmdRefused := true } }) ∧
  (∀ s : State, s.mediaRuns = true → s.ftl.ckptBegan + s.ckptLaps ≤ s.lap → s.ftl.ckptRunning = none →
    exec (.checkpointStart .interval) s = .next { s with ftl := { s.ftl with
      ckptBegan := s.lap,
      ckptRunning := some { startSeq := s.ftl.jseq, area := 1 - s.ftl.ckptArea, coarse := s.ftl.coarse, fine := s.ftl.fine,
                            blocks := s.ftl.blks } } }) ∧
  (∀ (s : State) (k : Ckpt), s.ftl.ckptRunning = some k → s.ftl.journal = [] → s.sysPairs ≠ [] →
    ∃ t, exec .checkpointComplete s = .next t ∧ t.ftl.ckptRunning = none ∧ t.ftl.ckptArea = k.area ∧
      t.ftl.ckptSeq = k.startSeq ∧ t.ftl.ckptCmd = false ∧ (if k.area = 0 then t.ftl.ckptA else t.ftl.ckptB) = some k ∧
      t.dur.recDev = s.evr.dev ∧ t.dur.health = s.ftl.dies.map (fun p => (p.1, p.2.health)) ∧
      t.evr.queue = s.evr.queue ++ [{ code := 0x0500, src := noSlice, detail := item 1 k.area, at' := s.evAt }])

/-- The victim of an eligible die and the next refresh begin a reclaim, which issues one copy read for every valid
slot; a block that nothing needs is erased by a polled command, and a block that the map still names is given up. A
background demotion issues the reads of the oldest idle fine unit and changes no map. A program or erase failure
counts in the die's health and retires the block; a lost die is lost and its operations settle; a temperature read
keeps its value, histogram and peak; DUMP marks its channel; training takes the fastest rate that passes, with event
0x0600, or fails with 0x1601. (06_flash_translation.md, 07_media_and_health.md.) -/
def Obligations.MediaManagementCommands : Prop :=
  (∀ (s t : State) (d b : Nat), d < 512 → s.mediaRuns = true → s.dieInUse d = true → s.gcRuns d = true →
    t = s.modDie d (fun x => { x with gcOn := true }) → t.reclaiming d = false → t.gcTurn d = true → t.bestVictim (t.victims d) = some b →
    exec (.gcVictimStart d) s = .next (State.reclaimBegin (s.modDie d (fun x => { x with gcOn := true, lastRefresh := false })) b .gc)) ∧
  (∀ (s u : State) (b : Nat) (why : ReclaimFor) (l : List (Nat × FlashSlot)), why ∈ [ReclaimFor.gc, .refresh] → s.idleUnits b = [] →
    l = (s.validSlots b).filter (fun p => !s.demoting p.2.unit) → u = s.reclaimBegin b why →
    u.ftl.reclaims = s.ftl.reclaims ++ [{ blk := b, why := why, reads := l.length, finalSeq := if l = [] then some 0 else none }] ∧
    u.ftl.polls.map PollOp.kind = s.ftl.polls.map PollOp.kind ++ l.map (fun p => .copyRead b (b * 2 ^ 14 + p.1)) ∧
    u.ftl.dies = s.ftl.dies ∧ u.mem = s.mem ∧ u.slices = s.slices) ∧
  (∀ (s : State) (b f : Nat) (r : Reclaim), dieOfBlk b < 512 → s.reclaimOf b = some r → r.why ∈ [ReclaimFor.gc, .refresh] →
    r.finalSeq = some f → s.mediaRuns = true → f ≤ s.ftl.jseq → (s.blk b).erasing = false → s.demotesOf b = false → s.mapNames b = false →
    s.readsOf b = false →
    exec (.gcErase b) s = .next { s with ftl := { s.ftl with
      blks := tset s.ftl.blks b { s.blk b with erasing := true },
      polls := s.ftl.polls ++ [{ id := s.ftl.nextPoll, kind := .erase b, ready := s.stride, cmds := 1, bursts := 0 }],
      nextPoll := s.ftl.nextPoll + 1 } }) ∧
  (∀ (s : State) (b f : Nat) (r : Reclaim), dieOfBlk b < 512 → s.reclaimOf b = some r → r.why ∈ [ReclaimFor.gc, .refresh] →
    r.finalSeq = some f → s.mediaRuns = true → f ≤ s.ftl.jseq → (s.blk b).erasing = false → s.demotesOf b = false → s.mapNames b = true →
    exec (.gcErase b) s = .next { s with ftl := { s.ftl with reclaims := s.ftl.reclaims.filter (fun r => decide (r.blk ≠ b)) } }) ∧
  (∀ (s : State) (b : Nat), dieOfBlk b < 512 → s.mediaRuns = true → s.nextRefresh = some b →
    exec (.refreshStart b) s = .next (State.reclaimBegin ((s.setFtl { s.ftl with refreshHead := s.ftl.refreshHead.filter (· ≠ b) }).modDie
      (dieOfBlk b) (fun x => { x with lastRefresh := true })) b .refresh)) ∧
  (∀ (s : State) (f : Fine) (d : Nat) (l : List Nat), s.mediaRuns = true → 7 * s.ftl.fineTotal < 8 * s.ftl.fine.length →
    s.oldestIdle s.ftl.fine = some f →
    s.diesInUse.find? (fun d => decide ((s.freeBlocks d) ≠ []) || (s.openBlock d .gcOpen).isSome) = some d →
    l = (List.range 16).filterMap (fun i => s.mergeAddr f.unit i) → l ≠ [] →
    ∃ t, exec .demoteBackground s = .next t ∧
      t.ftl.demotes = s.ftl.demotes ++ [{ unit := f.unit, die := d, ents := s.unitEnts f.unit, reads := l.length }] ∧
      t.ftl.polls.map PollOp.kind = s.ftl.polls.map PollOp.kind ++ l.map (fun a => .demoteRead f.unit a) ∧
      t.ftl.fine = s.ftl.fine ∧ t.ftl.coarse = s.ftl.coarse ∧ t.ftl.journal = s.ftl.journal) ∧
  (∀ (s : State) (p : PollOp) (id sl e a b : Nat), s.poll? id = some p →
    (p.kind = .program sl e a ∧ b = blkOf a ∨ p.kind = .copyProgram a b ∨ (p.kind = .demoteProgram e a ∧ b = blkOf a)) →
    exec (.programFail id) s = .next (((s.modDie (dieOfBlk b) (fun x => { x with health := { x.health with
      programFail := min (2 ^ 32 - 1) (x.health.programFail + 1) } })).failBlock b 0x4500).settleLost)) ∧
  (∀ (s : State) (p : PollOp) (id b : Nat), s.poll? id = some p → p.kind = .erase b →
    exec (.eraseFail id) s = .next (((({ s with ftl := { s.ftl with
        polls := s.ftl.polls.filter (fun p => decide (p.id ≠ id)),
        dies := tset s.ftl.dies (dieOfBlk b) { s.die (dieOfBlk b) with health := { (s.die (dieOfBlk b)).health with
          eraseFail := min (2 ^ 32 - 1) ((s.die (dieOfBlk b)).health.eraseFail + 1) } },
        reclaims := s.ftl.reclaims.filter (fun r => decide (r.blk ≠ b)) } }).modBlk b
      (fun x => { x with erasing := false, slots := [] })).retire b 0x4501).settleLost)) ∧
  (∀ (s : State) (d : Nat), d < 512 → (s.die d).present = true → exec (.dieLost d) s = .next (s.loseDie d).settleLost) ∧
  (∀ (s : State) (d : Nat) (v : Int) (h : Health), d < 512 → s.dieInUse d = true → v < 85 → h = (s.die d).health →
    exec (.dieTempRead d v) s = .next (s.modDie d (fun x => { x with health := { h with
      tempNow := v, tempRead := true, hist := laddSat h.hist (State.tempBin v) 1 (2 ^ 32 - 1),
      tempPeak := if h.tempPeak < v ∨ h.tempRead = false then v else h.tempPeak,
      peakAge := if h.tempPeak < v ∨ h.tempRead = false then s.ftl.mediaAge else h.peakAge } }))) ∧
  (∀ (s : State) (q : Requester) (k : Nat) (ok : Bool), s.up → s.honours q → k < s.channelsPresent → (s.chan k).dumpBusy = false →
    exec (.dump q k ok) s = .next (s.modChan k (fun c => { c with dumpBusy := true, dumpOk := ok }))) ∧
  (∀ (s t : State) (k i r : Nat) (dies : List DieReport) (pass : List Bool), k < 32 →
    (i, r) ∈ [(0, 36), (1, 32), (2, 24), (3, 16)] → pass.getD i false = true → (∀ j < i, pass.getD j false = false) →
    t = (dies.filter (fun d => decide (d.die < 16))).foldl (fun s d => s.identifyDie k d) s →
    exec (.channelTraining k dies pass) s =
      .next ((t.modChan k (fun c => { c with rate := r, trained := true, trainFail := false })).ev 0x0600 noSlice (item 1 k ++ item 1 r))) ∧
  (∀ (s t : State) (k : Nat) (dies : List DieReport) (pass : List Bool), k < 32 → (∀ j < 4, pass.getD j false = false) →
    t = (dies.filter (fun d => decide (d.die < 16))).foldl (fun s d => s.identifyDie k d) s →
    exec (.channelTraining k dies pass) s =
      .next ((t.modChan k (fun c => { c with rate := 0, trained := false, trainFail := true })).ev 0x1601 noSlice))

/-- A change of a sub-channel's temperature is kept with event 0x3C00; lanes whose windows are all wide enough train
the channel at the course's rate with event 0x0C00. From a core READ_RAW gives four stored bytes without correction,
WRITE_RAW writes them, READ_PAGE and WRITE_PAGE give and write page-code bytes, with result 0; from the management
port each is discarded and reported with event 0x2C00. (16_memory_protection_and_dram.md.) -/
def Obligations.DramAndTestModeCommands : Prop :=
  (∀ (s : State) (u : Nat) (hot : Bool) (r : Refresh), u < 8 → r = (s.drc (u / 2)).refresh.getD (u % 2) {} → r.hot ≠ hot →
    exec (.dramTempChange u hot) s = .next ((s.modDrc (u / 2) (fun d =>
      { d with refresh := lset d.refresh (u % 2) { r with hot := hot } })).ev 0x3C00 noSlice)) ∧
  (∀ (s : State) (k : Nat) (c : Course) (ws : List LaneSweep), k < 4 → s.crs.inForce = some c → (k < 2 ∨ s.dramGib ≠ 16) →
    ws.length = 10 → (∀ w ∈ ws, 16 ≤ State.windowWidth w.rdFirst w.rdLast ∧ 16 ≤ State.windowWidth w.wrFirst w.wrLast) →
    exec (.dramTraining k ws) s = .next ((s.modDrc k (fun d => { d with
      rate := c.dramMts / 100, trained := true, trainFail := false, populated := true,
      lanes := ws.map State.laneOf })).ev 0x0C00 noSlice (item 1 k ++ item 1 (c.dramMts / 100)))) ∧
  (∀ (s : State) (c a o : Nat), s.up → c < 72 → s.testAddr = (a, o) → o + 4 ≤ arrSize s.dramGib a → 
    ∃ t, exec (.readRaw (.core c)) s = .next t ∧ t.mpr = { s.mpr with testResult := 0 } ∧
      t.rwGet 0x700110 = BitVec.ofNat 64 (leNat ((List.range 4).map (fun k => (s.rawAt a (o + k)).data))) ∧ t.mem = s.mem) ∧
  (∀ (s : State) (c a o : Nat), s.up → c < 72 → s.testAddr = (a, o) → o + 4 ≤ arrSize s.dramGib a → 
    exec (.writeRaw (.core c)) s = .next { s.testWriteRaw a o with mpr := { (s.testWriteRaw a o).mpr with testResult := 0 } }) ∧
  (∀ (s : State) (c a o : Nat), s.up → c < 72 → s.testAddr = (a, o) → o + 4 ≤ arrSize s.dramGib a → ∀ i, (a = dramArr → i ≤ 31) →
    (∃ t, exec (.readPage (.core c) i) s = .next t ∧ t.mpr = { s.mpr with testResult := 0 } ∧
      t.rwGet 0x700110 = BitVec.ofNat 64 (leNat ((List.range 4).map (fun k => s.parityAt a (o / pageSize a) (4 * i + k))))) ∧
    exec (.writePage (.core c) i) s = .next { s.testWritePage i a o with mpr := { (s.testWritePage i a o).mpr with testResult := 0 } }) ∧
  (∀ (s : State) (i : Nat) (x : Instr), s.up → s.mgrPort < 2 → x ∈ [Instr.readRaw (.port s.mgrPort), .writeRaw (.port s.mgrPort),
      .readPage (.port s.mgrPort) i, .writePage (.port s.mgrPort) i] →
    exec x s = .next ((s.discard 0x700FFC 0 0x700100).ev 0x2C00 noSlice))

/-- A 4-byte write that the row admits stores its writable bits, or stages them, and changes no value in force; one
that it does not admit is discarded and reported in the block's own error registers with event 0x1001. The low half
of a 64-bit register is held per requester and taken with the high half; a read of the low half gives it and keeps
the high half for the read of that half; one 8-byte read gives the value whole; a read of less than 4 bytes gives
the addressed bytes and changes nothing else. A CMB write in the sender's portion writes its bytes, and any other is
discarded with event 0x2200. (00_scope.md, 01_architecture_and_stride.md, 04_host_interface_and_queues.md.) -/
def Obligations.RegisterAccesses : Prop :=
  (∀ (s : State) (q : Requester) (off : Nat) (l : Loc), s.up → s.honours q → s.plainReg off l → l.row.wide = false →
    ∀ v : BitVec 64, v.toNat < 2 ^ 32 → s.writeOk l v.toNat = true → ∃ t, exec (.regWrite q .bar0 off 4 v) s = .next t ∧
      (l.row.rw ≠ 0 → t.rwGet l.key = BitVec.ofNat 64 (v.toNat &&& l.row.rw)) ∧
      (l.row.rws ≠ 0 → s.forceNat l.key l.row.reset ≠ v.toNat &&& l.row.rws →
        t.stagedNat l.key l.row.reset = v.toNat &&& l.row.rws) ∧ t.inForce = s.inForce) ∧
  (∀ (s : State) (q : Requester) (off : Nat) (l : Loc), s.up → s.honours q → s.plainReg off l → ∀ b : Nat, off % 4 = 0 → State.instBase off = some b →
    l.row.wide = false → ∀ v : BitVec 64, v.toNat < 2 ^ 32 → s.writeOk l v.toNat = false →
    exec (.regWrite q .bar0 off 4 v) s = .next (({ s with
      errs := tset s.errs (b + 0xFFC) ((tgetD s.errs (b + 0xFFC) {}).note 0 off) }).ev 0x1001 noSlice)) ∧
  (∀ (s : State) (q : Requester) (off : Nat) (l : Loc), s.up → s.honours q → s.plainReg off l → l.row.wide = true → l.high = false →
    s.latches.all (fun x => decide (¬(x.req = q ∧ x.key = l.key))) = true → ∀ v : BitVec 32,
    exec (.reg64LowWrite q .bar0 off v) s = .next { s with latches := s.latches ++ [{ req := q, key := l.key, low := some v }] }) ∧
  (∀ (s : State) (q : Requester) (off : Nat) (l : Loc), s.up → s.honours q → s.plainReg off l → l.row.wide = true → l.high = true →
    ∀ (x : Latch) (lo v : BitVec 32) (w : Nat), s.latches.find? (fun x => decide (x.req = q) && decide (x.key = l.key)) = some x →
    x.low = some lo → w = v.toNat * 2 ^ 32 + lo.toNat → s.writeOk l w = true → l.row.rw ≠ 0 →
    ∀ o : Nat, off = o + 4 →
    ∃ t, exec (.reg64HighWrite q .bar0 o v) s = .next t ∧ t.rwGet l.key = BitVec.ofNat 64 (w &&& l.row.rw) ∧
      ∀ y ∈ t.latches, y.req = q → y.key = l.key → y.low = none) ∧
  (∀ (s : State) (q : Requester) (off : Nat) (l : Loc), s.up → s.honours q → s.bar0Reg off = some l → s.errAt off = none →
    (off < 0x700100 ∨ 0x70011C ≤ off) → l.row.wide = true → l.high = false →
    s.latches.all (fun x => decide (¬(x.req = q ∧ x.key = l.key))) = true →
    exec (.reg64LowRead q .bar0 ⟨off, 4⟩) s = .next { s with
      lastRead := BitVec.ofNat 64 (s.locValue l % 2 ^ 32)
      latches := s.latches ++ [{ req := q, key := l.key, high := some (BitVec.ofNat 32 (s.locValue l / 2 ^ 32)) }] }) ∧
  (∀ (s : State) (q : Requester) (off : Nat) (l : Loc), s.up → s.honours q → s.bar0Reg off = some l → s.errAt off = none →
    (off < 0x700100 ∨ 0x70011C ≤ off) → l.row.wide = true → l.high = true → ∀ o : Nat, off = o + 4 →
    ∀ (x : Latch) (h : BitVec 32), s.latches.find? (fun x => decide (x.req = q) && decide (x.key = l.key)) = some x → x.high = some h →
    exec (.reg64HighRead q .bar0 o) s = .next { s with
      lastRead := BitVec.ofNat 64 h.toNat
      latches := s.latches.map (fun x => if decide (x.req = q) && decide (x.key = l.key) then { x with high := none } else x) }) ∧
  (∀ (s : State) (q : Requester) (off : Nat) (l : Loc), s.up → s.honours q → s.bar0Reg off = some l → s.errAt off = none →
    (off < 0x700100 ∨ 0x70011C ≤ off) → l.row.wide = true → l.high = true → ∀ o : Nat, off = o + 4 →
    s.latches.find? (fun x => decide (x.req = q) && decide (x.key = l.key)) = none →
    exec (.reg64HighRead q .bar0 o) s = .next { s with lastRead := BitVec.ofNat 64 (s.locValue l / 2 ^ 32 % 2 ^ 32) }) ∧
  (∀ (s : State) (q : Requester) (off size : Nat), s.up → s.honours q → size < 4 →
    exec (.reg64LowRead q .bar0 ⟨off, size⟩) s = .next { s with
      lastRead := BitVec.ofNat 64 (s.readDword q .bar0 (off / 4 * 4) / 256 ^ (off % 4) % 256 ^ size) }) ∧
  (∀ (s : State) (q : Requester) (off : Nat) (l : Loc), s.up → s.honours q → s.bar0Reg off = some l → s.errAt off = none →
    (off < 0x700100 ∨ 0x70011C ≤ off) → l.row.wide = true → l.high = false →
    exec (.reg64LowRead q .bar0 ⟨off, 8⟩) s = .next { s with lastRead := BitVec.ofNat 64 (s.locValue l) }) ∧
  (∀ (s : State) (p off len : Nat) (id : Option Nat), s.up → p < 2 → off + len ≤ s.cmbSize → ∀ n, s.portionOf p id off len = some n →
    exec (.cmbAccess p id off len none) s = .next { s with lastRead := BitVec.ofNat 64 (leNat (mread s.cmb off (min 8 len))) } ∧
    ∀ d : Bytes, exec (.cmbAccess p id off len (some d)) s = .next (s.cmbPut off (padTo len d))) ∧
  (∀ (s : State) (p off len : Nat) (id : Option Nat), s.up → p < 2 → off + len ≤ s.cmbSize → s.portionOf p id off len = none →
    exec (.cmbAccess p id off len none) s = .next (({ s with lastRead := 0 }).ev 0x2200 noSlice) ∧
    ∀ d : Bytes, exec (.cmbAccess p id off len (some d)) s = .next ((s.discard 0x100FFC 2 (off / 32)).ev 0x2200 noSlice))

/-- A tick of a device with power raises the stride counter by one, and does nothing else before the starter runs;
LAP_BOUNDARY is the tick that begins a lap. A running heat at its lap limit ends with 0x47 and event 0x0701. An
erase that completes frees its block with one more cycle; a host read that completes is counted in its die and
delivered to its command. (01_architecture_and_stride.md, 10_heats.md, 06_flash_translation.md,
07_media_and_health.md.) -/
def Obligations.TicksLapsAndPolls : Prop :=
  (∀ s : State, s.dev.run ≠ .off → ∃ t, exec .tick s = .next t ∧ t.stride = s.stride + 1) ∧
  (∀ s : State, s.dev.run = .waiting → exec .tick s = .next { s with stride := s.stride + 1 }) ∧
  (∀ s : State, s.dev.run ≠ .off → (s.stride + 1) % 4000 = 0 → ∃ t, exec .lapBoundary s = .next t ∧ exec .tick s = .next t ∧
    t.stride = s.stride + 1 ∧ t.lap = s.lap + 1) ∧
  (∀ (s : State) (c : CmdId) (h : Heat), c.slice < 512 → s.heat? c = some h → h.st = .running → h.maxLaps ≠ 0 → h.maxLaps ≤ h.laps →
    exec (.heatLapLimit c) s = .next ((s.heatEnd h (.vendor 0x47)).ev 0x0701 c.slice)) ∧
  (∀ (s : State) (id b : Nat) (p : PollOp), s.faultInject = false → s.poll? id = some p →
    p.kind = .erase b → s.reclaimOf b = none →
    exec (.pollComplete id .eraseOk) s = .next { s with ftl := { s.ftl with
      polls := s.ftl.polls.filter (fun p => decide (p.id ≠ id)),
      reclaims := s.ftl.reclaims.filter (fun r => decide (r.blk ≠ b)),
      blks := tset s.ftl.blks b { state := .free, pe := (s.blk b).pe + 1 } } }) ∧
  (∀ (s : State) (id a n m : Nat) (c : CmdId) (p : PollOp), s.faultInject = false → s.poll? id = some p →
    p.kind = .hostRead c a → n < 4 → m ≤ 256 →
    exec (.pollComplete id (.readOk n m true)) s = .next ((({ s with ftl := { s.ftl with
      polls := s.ftl.polls.filter (fun p => decide (p.id ≠ id)) } }).countRead (dieOf a) n m).hostReadDone c false))

/-- FLR, a hot reset and PERST reset the port as each does and begin a controller reset of every slice on it; PERST
releases; the link comes up with its speed and width and event 0x0200; Bus Master Enable is kept. CC.EN set falls
due, CC.EN cleared begins the reset, a shutdown notification begins the shutdown, which ends once nothing is under
way. A doorbell write is recorded in its queue, is a stray where no queue has the number, and is discarded in SAVING
and MIGRATING. A bus error makes the fatal status fall due; a data transfer error ends its command with a partial
result free and event 0x1203. (04_host_interface_and_queues.md, 03_slices.md.) -/
def Obligations.PortAndControllerCommands : Prop :=
  (∀ (s : State) (p : Nat), p < 2 → s.portLive p = true → (s.port p).linkUp = true → ∃ t, exec (.flr p) s = .next t ∧ t.port p = { s.port p with busMaster := false, bar4 := 0, downSeen := true } ∧
      t.out = s.out ∧ t.msixPend = s.msixPend.filter (fun v => decide (v / 2048 ≠ p)) ∧
      (∀ n, (n, s.slice n) ∈ s.slices → (s.slice n).port = p → (s.slice n).st.holds = true → (t.slice n).ctrl.resetting = true)) ∧
  (∀ (s : State) (p : Nat), p < 2 → s.portLive p = true → (s.port p).linkUp = true → ∃ t, exec (.hotReset p) s = .next t ∧ t.port p = { ident := (s.port p).ident, perst := (s.port p).perst, downSeen := true } ∧
      t.out = s.out ++ [.linkDown p] ∧ t.msixPend = s.msixPend.filter (fun v => decide (v / 2048 ≠ p)) ∧
      (∀ n, (n, s.slice n) ∈ s.slices → (s.slice n).port = p → (s.slice n).st.holds = true → (t.slice n).ctrl.resetting = true)) ∧
  (∀ (s : State) (p : Nat), p < 2 → p < s.portCount → s.up → ∃ t, exec (.perstAsserted p) s = .next t ∧
      t.port p = { ident := (s.port p).ident, perst := true, downSeen := true } ∧
      t.out = s.out ++ (if (s.port p).linkUp then [.linkDown p] else []) ∧
      (∀ n, (n, s.slice n) ∈ s.slices → (s.slice n).port = p → (s.slice n).st.holds = true → (t.slice n).ctrl.resetting = true)) ∧
  (∀ (s : State) (p : Nat), p < 2 →
    exec (.perstReleased p) s = .next { s with ports := tset s.ports p { s.port p with perst := false } }) ∧
  (∀ (s : State) (p speed width bar4 : Nat) (flit : Bool), p < 2 → p < s.portCount → s.dev.run = .started →
    (s.port p).perst = false → s.pwr.state < 4 → s.linkOk speed width flit = true →
    exec (.linkUp p speed width flit bar4) s = .next (({ s with
      ports := tset s.ports p { s.port p with
        linkUp := true, speed := speed, width := width, flit := flit, bar4 := bar4 } }).ev
      0x0200 noSlice (item 1 p ++ item 1 speed ++ item 1 width))) ∧
  (∀ (s : State) (p : Nat) (on : Bool), p < 2 → (s.port p).linkUp = true →
    exec (.busMasterEnable p on) s = .next { s with ports := tset s.ports p { s.port p with busMaster := on } }) ∧
  (∀ (s : State) (p n : Nat) (v : BitVec 32), p < 2 → n < 512 → s.up → s.windowLive p n = true → ccOk v.toNat = true →
    (s.slice n).ctrl.resetting = false → (s.slice n).st ≠ .resetting → natBit v.toNat 0 = true →
    natBit (s.slice n).ctrl.cc.toNat 0 = false → (s.slice n).st = .active → natBits v.toNat 15 14 = 0 →
    ∃ t, exec (.ccEnable p n v) s = .next t ∧ (t.slice n).ctrl = { (s.slice n).ctrl with cc := v, enableDue := true } ∧
      ∀ m, m ≠ n → t.slice m = s.slice m) ∧
  (∀ (s : State) (p n : Nat) (v : BitVec 32), p < 2 → n < 512 → s.up → s.windowLive p n = true → ccOk v.toNat = true →
    (s.slice n).ctrl.resetting = false → (s.slice n).st ≠ .resetting → natBit v.toNat 0 = false → natBit (s.slice n).ctrl.cc.toNat 0 = true →
    ∃ t, exec (.ccDisable p n v) s = .next t ∧
      (t.slice n).ctrl = { (s.slice n).ctrl with cc := v, resetting := true, enableDue := false } ∧
      ∀ m, m ≠ n → (t.slice m).ctrl = (s.slice m).ctrl) ∧
  (∀ (s : State) (p n : Nat) (v : BitVec 32), p < 2 → n < 512 → s.up → s.windowLive p n = true → ccOk v.toNat = true →
    (s.slice n).ctrl.resetting = false → (s.slice n).st ≠ .resetting → natBits v.toNat 15 14 = 1 ∨ natBits v.toNat 15 14 = 2 →
    natBit v.toNat 0 = natBit (s.slice n).ctrl.cc.toNat 0 → (s.slice n).ctrl.shst = 0 →
    ∃ t, exec (.ccShutdown p n v) s = .next t ∧ (t.slice n).ctrl = { (s.slice n).ctrl with cc := v, shst := 1 } ∧
      ∀ m, m ≠ n → t.slice m = s.slice m) ∧
  (∀ (s : State) (n : Nat), n < 512 → (s.slice n).ctrl.shst = 1 → (s.slice n).adms = [] → (s.slice n).ready = [] →
    exec (.shutdownComplete n) s = .next (s.setSlice n { s.slice n with ctrl := { (s.slice n).ctrl with shst := 2 } })) ∧
  (∀ (s : State) (p n qid v : Nat) (ents : List SqEntry), p < 2 → n < 512 → s.up → s.windowLive p n = true → v < 65536 →
    (s.slice n).st ≠ .saving → (s.slice n).st ≠ .migrating → ∀ q : Sq, tget (s.slice n).sqs qid = some q →
    exec (.doorbellWrite p n false qid v ents) s = .next (s.setSlice n { s.slice n with
      sqs := tset (s.slice n).sqs qid { q with recTail := some v, recEnts := ents } })) ∧
  (∀ (s : State) (p n qid v : Nat) (ents : List SqEntry), p < 2 → n < 512 → s.up → s.windowLive p n = true → v < 65536 →
    (s.slice n).st ≠ .saving → (s.slice n).st ≠ .migrating → ∀ q : Cq, tget (s.slice n).cqs qid = some q →
    exec (.doorbellWrite p n true qid v ents) s = .next (s.setSlice n { s.slice n with
      cqs := tset (s.slice n).cqs qid { q with recHead := some v } })) ∧
  (∀ (s : State) (p n qid v : Nat) (ents : List SqEntry), p < 2 → n < 512 → s.up → s.windowLive p n = true → v < 65536 →
    (s.slice n).st ≠ .saving → (s.slice n).st ≠ .migrating → ∀ cq : Bool, (if cq then (tget (s.slice n).cqs qid).isNone else (tget (s.slice n).sqs qid).isNone) = true →
    exec (.doorbellWrite p n cq qid v ents) s = .next (s.setSlice n { s.slice n with
      strays := (s.slice n).strays.filter (fun d => decide (d ≠ (cq, qid))) ++ [(cq, qid)] })) ∧
  (∀ (s : State) (p n qid v : Nat) (cq : Bool) (ents : List SqEntry), p < 2 → n < 512 → s.up → s.windowLive p n = true → v < 65536 →
    ((s.slice n).st = .saving ∨ (s.slice n).st = .migrating) → exec (.doorbellWrite p n cq qid v ents) s = .next s) ∧
  (∀ (s : State) (n : Nat), n < 512 → (s.slice n).ctrl.rdy = true →
    exec (.hostBusError n) s = .next (s.setSlice n { s.slice n with ctrl := { (s.slice n).ctrl with cfsDue := true } })) ∧
  (∀ (s : State) (c : CmdId) (a : Adm), c.slice < 512 → s.adm? c = some a →
    exec (.dataTransferError c) s = .next ((((s.partialWrite c.slice (State.resultRanges a)).dropEntry c).finish c .dataTransferError).ev 0x1203 c.slice))

/-- For an admitted admin command whose fields are in range: the queues are created and deleted (0x01 or Invalid
Queue Deletion where they are in use); an Abort is taken up unless four are before it; an asynchronous event request
waits, eight at most; the log pages and Identify structures are delivered, other numbers end Invalid Field; features
0x07, 0x08, 0xC0 and 0xC1 are set and read; namespaces are created, deleted, attached, detached and formatted,
deletion and Format waiting for the trims they journal. The contents that NVMe leaves to the device are free values.
(04_host_interface_and_queues.md, 05_write_buffer_and_ledger_posts.md, 06_flash_translation.md.) -/
def Obligations.QueueFeatureAndNamespaceCommands : Prop :=
  (∀ (s : State) (c : CmdId) (a : Adm), s.awaitsAdmin c 0x01 a → ∀ qid size cqid base : Nat, qid = natBits a.ent.cdw10.toNat 15 0 → size = natBits a.ent.cdw10.toNat 31 16 + 1 →
    cqid = natBits a.ent.cdw11.toNat 31 16 → base = State.ptrBase a.ent →
    natBits (s.slice c.slice).ctrl.cc.toNat 19 16 ≠ 0 →
    s.qidBad c.slice qid (s.slice c.slice).feats.sqAlloc (tget (s.slice c.slice).sqs qid).isSome = false → size ≠ 1 →
    natBit a.ent.cdw11.toNat 0 = true → cqid ≠ 0 → (tget (s.slice c.slice).cqs cqid).isSome = true →
    s.queuePlaceOk c.slice base (size * 64) = true →
    exec (.createIoSubmissionQueue c) s = .next ((s.setSlice c.slice { s.slice c.slice with
      sqs := tset (s.slice c.slice).sqs qid {
        base := base, size := size, cqid := cqid, prio := natBits a.ent.cdw11.toNat 2 1
        inCmb := s.touchesBar4 (s.slice c.slice).port base (size * 64) } }).finish c .success)) ∧
  (∀ (s : State) (c : CmdId) (a : Adm), s.awaitsAdmin c 0x05 a → ∀ qid size iv base : Nat, qid = natBits a.ent.cdw10.toNat 15 0 → size = natBits a.ent.cdw10.toNat 31 16 + 1 →
    iv = natBits a.ent.cdw11.toNat 31 16 → base = State.ptrBase a.ent →
    natBits (s.slice c.slice).ctrl.cc.toNat 23 20 ≠ 0 →
    s.qidBad c.slice qid (s.slice c.slice).feats.cqAlloc (tget (s.slice c.slice).cqs qid).isSome = false → size ≠ 1 →
    natBit a.ent.cdw11.toNat 0 = true → iv ≤ 3 → s.touchesBar4 (s.slice c.slice).port base (size * 16) = false →
    exec (.createIoCompletionQueue c) s = .next ((s.setSlice c.slice { s.slice c.slice with
      cqs := tset (s.slice c.slice).cqs qid {
        base := base, size := size, iv := iv, ien := natBit a.ent.cdw11.toNat 1 } }).finish c .success)) ∧
  (∀ (s : State) (c : CmdId) (a : Adm), s.awaitsAdmin c 0x00 a → ∀ (qid : Nat) (q : Sq), qid = natBits a.ent.cdw10.toNat 15 0 → qid ≠ 0 → tget (s.slice c.slice).sqs qid = some q →
    exec (.deleteIoSubmissionQueue c) s = .next (if State.sqBusy (s.slice c.slice) qid q c then s.finish c (.vendor 0x01)
      else (s.setSlice c.slice { s.slice c.slice with sqs := tdel (s.slice c.slice).sqs qid }).finish c .success)) ∧
  (∀ (s : State) (c : CmdId) (a : Adm), s.awaitsAdmin c 0x04 a → ∀ qid : Nat, qid = natBits a.ent.cdw10.toNat 15 0 → qid ≠ 0 → (tget (s.slice c.slice).cqs qid).isSome = true →
    exec (.deleteIoCompletionQueue c) s = .next (if (s.slice c.slice).sqs.any (fun q => q.2.cqid = qid) then
        s.finish c .invalidQueueDeletion
      else (s.setSlice c.slice { s.slice c.slice with cqs := tdel (s.slice c.slice).cqs qid }).finish c .success)) ∧
  (∀ (s : State) (c : CmdId) (a : Adm), s.awaitsAdmin c 0x08 a → ((s.slice c.slice).adms.filter (fun b => b.admin && decide (b.ent.opc = 8) && b.stamp.before a.stamp)).length < 4 → ∃ t, exec (.abort c) s = .next t ∧
      (t.slice c.slice).aborts = (s.slice c.slice).aborts ++ [{
        id := c, sqid := natBits a.ent.cdw10.toNat 15 0, cid := natBits a.ent.cdw10.toNat 31 16 }] ∧
      (t.slice c.slice).adms = (s.slice c.slice).adms.map (fun b => if b.id = c then { b with started := true } else b)) ∧
  (∀ (s : State) (c : CmdId) (a : Adm), s.awaitsAdmin c 0x08 a → 4 ≤ ((s.slice c.slice).adms.filter (fun b => b.admin && decide (b.ent.opc = 8) && b.stamp.before a.stamp)).length → exec (.abort c) s = .next (s.finish c .abortLimit)) ∧
  (∀ (s : State) (c : CmdId) (a : Adm), s.awaitsAdmin c 0x0C a → (s.slice c.slice).asyncs = [] → exec (.asynchronousEventRequest c) s = .next (
      if 8 ≤ (s.slice c.slice).aers.length then s.finish c .asyncLimit
      else s.setSlice c.slice { s.slice c.slice with
        adms := (s.slice c.slice).adms.filter (fun b => decide (b.id ≠ c)), aers := (s.slice c.slice).aers ++ [(c, a.sqhd)] })) ∧
  (∀ (s : State) (c : CmdId) (a : Adm), s.awaitsAdmin c 0x02 a → ∀ (lid len off : Nat), lid = natBits a.ent.cdw10.toNat 7 0 →
    len = 4 * (natBits a.ent.cdw11.toNat 15 0 * 65536 + natBits a.ent.cdw10.toNat 31 16 + 1) →
    off = a.ent.cdw13.toNat * 2 ^ 32 + a.ent.cdw12.toNat →
    (lid = 2 → (∀ t, State.moveData s c true (State.cutRanges a.ent.dptr.ranges (bytesAt (s.smartLog c.slice) off len).length) = (t, true) →
      exec (.getLogPage c) s = .next ((t.deliver c.slice a.ent.dptr.ranges (bytesAt (s.smartLog c.slice) off len)).finish c .success))) ∧
    (lid ∈ [1, 3] → (∀ t, State.moveData { s with free := s.free + 1 } c true (State.cutRanges a.ent.dptr.ranges (bytesAt (Config.logFill lid s.free) off len).length) = (t, true) →
      exec (.getLogPage c) s = .next ((t.deliver c.slice a.ent.dptr.ranges (bytesAt (Config.logFill lid s.free) off len)).finish c .success))) ∧
    (lid = 5 → (∀ t, State.moveData { s with free := s.free + 1 } c true (State.cutRanges a.ent.dptr.ranges (bytesAt (State.effectsLog (Config.logFill 5 s.free)) off len).length) = (t, true) →
      exec (.getLogPage c) s = .next ((t.deliver c.slice a.ent.dptr.ranges (bytesAt (State.effectsLog (Config.logFill 5 s.free)) off len)).finish c .success))) ∧
    (lid ∉ [1, 2, 3, 5] → exec (.getLogPage c) s = .next (s.finish c .invalidField))) ∧
  (∀ (s : State) (c : CmdId) (a : Adm), s.awaitsAdmin c 0x06 a → ∀ cns : Nat, cns = natBits a.ent.cdw10.toNat 7 0 →
    (cns = 1 → (∀ t, State.moveData s c true (State.cutRanges a.ent.dptr.ranges (State.identCtrl (s.slice c.slice) c.slice).length) = (t, true) →
      exec (.identify c) s = .next ((t.deliver c.slice a.ent.dptr.ranges (State.identCtrl (s.slice c.slice) c.slice)).finish c .success))) ∧
    (cns = 2 → (∀ t, State.moveData s c true (State.cutRanges a.ent.dptr.ranges (State.activeNs (s.slice c.slice) a.ent.nsid).length) = (t, true) →
      exec (.identify c) s = .next ((t.deliver c.slice a.ent.dptr.ranges (State.activeNs (s.slice c.slice) a.ent.nsid)).finish c .success))) ∧
    (cns = 0 → ∀ ns, tget (s.slice c.slice).nss a.ent.nsid = some ns → ns.attached = true →
      (∀ t, State.moveData s c true (State.cutRanges a.ent.dptr.ranges (State.identNs a.ent.nsid ns).length) = (t, true) →
      exec (.identify c) s = .next ((t.deliver c.slice a.ent.dptr.ranges (State.identNs a.ent.nsid ns)).finish c .success))) ∧
    (cns = 0 → tget (s.slice c.slice).nss a.ent.nsid = none → a.ent.nsid = 0xFFFFFFFF →
      (∀ t, State.moveData s c true (State.cutRanges a.ent.dptr.ranges (State.identCommon).length) = (t, true) →
      exec (.identify c) s = .next ((t.deliver c.slice a.ent.dptr.ranges (State.identCommon)).finish c .success))) ∧
    (cns = 3 → (tget (s.slice c.slice).nss a.ent.nsid).isSome = true →
      (∀ t, State.moveData s c true (State.cutRanges a.ent.dptr.ranges (padTo 4096 (Config.identifyFill 3 a.ent.nsid)).length) = (t, true) →
      exec (.identify c) s = .next ((t.deliver c.slice a.ent.dptr.ranges (padTo 4096 (Config.identifyFill 3 a.ent.nsid))).finish c .success))) ∧
    (4 ≤ cns → exec (.identify c) s = .next (s.finish c .invalidField))) ∧
  (∀ (s : State) (c : CmdId) (a : Adm), s.awaitsAdmin c 0x09 a → ∀ f : Features, f = (s.slice c.slice).feats → natBits a.ent.cdw10.toNat 7 0 = 0x07 → natBit a.ent.cdw10.toNat 31 = false →
    ∀ sq cq m n : Nat, sq = natBits a.ent.cdw11.toNat 15 0 → cq = natBits a.ent.cdw11.toNat 31 16 → f.sqAlloc = none →
    sq ≠ 0xFFFF → cq ≠ 0xFFFF → m = min (sq + 1) (s.qpTotal c.slice - 1) → n = min (cq + 1) (s.qpTotal c.slice - 1) →
    exec (.setFeatures c) s = .next ((s.setSlice c.slice { s.slice c.slice with feats := { f with sqAlloc := some m, cqAlloc := some n } }).finish c .success (BitVec.ofNat 32 ((n - 1) * 65536 + (m - 1))))) ∧
  (∀ (s : State) (c : CmdId) (a : Adm), s.awaitsAdmin c 0x09 a → ∀ f : Features, f = (s.slice c.slice).feats → natBits a.ent.cdw10.toNat 7 0 = 0x08 → natBit a.ent.cdw10.toNat 31 = false →
    natBits a.ent.cdw11.toNat 31 16 = 0 →
    exec (.setFeatures c) s = .next ((s.setSlice c.slice { s.slice c.slice with feats := { f with coalThr := natBits a.ent.cdw11.toNat 7 0, coalTime := natBits a.ent.cdw11.toNat 15 8 } }).finish c .success)) ∧
  (∀ (s : State) (c : CmdId) (a : Adm), s.awaitsAdmin c 0x09 a → ∀ f : Features, f = (s.slice c.slice).feats → natBits a.ent.cdw10.toNat 7 0 = 0xC0 → natBit a.ent.cdw10.toNat 31 = false →
    f.ltol = a.ent.cdw11 →
    exec (.setFeatures c) s = .next ((s.setSlice c.slice { s.slice c.slice with feats := { f with ltol := a.ent.cdw11 } }).finish c .success)) ∧
  (∀ (s : State) (c : CmdId) (a : Adm), s.awaitsAdmin c 0x09 a → ∀ f : Features, f = (s.slice c.slice).feats → natBits a.ent.cdw10.toNat 7 0 = 0xC1 → natBit a.ent.cdw10.toNat 31 = false →
    natBits a.ent.cdw11.toNat 31 1 = 0 →
    exec (.setFeatures c) s = .next ((s.setSlice c.slice { s.slice c.slice with feats := { f with stampRep := natBit a.ent.cdw11.toNat 0 } }).finish c .success)) ∧
  (∀ (s : State) (c : CmdId) (a : Adm), s.awaitsAdmin c 0x0A a → ∀ f : Features, f = (s.slice c.slice).feats → ∀ fid : Nat, fid = natBits a.ent.cdw10.toNat 7 0 →
    (fid = 0x07 → exec (.getFeatures c) s = .next (s.finish c .success
      (BitVec.ofNat 32 ((f.cqAlloc.getD 1 - 1) * 65536 + (f.sqAlloc.getD 1 - 1))))) ∧
    (fid = 0x08 → exec (.getFeatures c) s = .next (s.finish c .success (BitVec.ofNat 32 (f.coalTime * 256 + f.coalThr)))) ∧
    (fid = 0xC0 → exec (.getFeatures c) s = .next (s.finish c .success f.ltol)) ∧
    (fid = 0xC1 → exec (.getFeatures c) s = .next (s.finish c .success (if f.stampRep then 1 else 0)))) ∧
  (∀ (s : State) (c : CmdId) (a : Adm), s.awaitsAdmin c 0x0D a → ∀ (d : NsCreate) (ns : Ns) (i u : Nat), natBits a.ent.cdw10.toNat 3 0 = 0 → d.nsze ≠ 0 → d.lbaf ≤ 4 → d.dps ≤ 15 → d.dps % 8 ≤ 3 →
    d.dps % 8 ≠ 2 → (d.dps % 8 = 0 ∨ 2 ≤ d.lbaf) → ns = { nsze := d.nsze, lbaf := d.lbaf, dps := d.dps, firstUnit := 0 } →
    (List.range (s.slice c.slice).nsMax).find? (fun i => (tget (s.slice c.slice).nss (i + 1)).isNone) = some i →
    s.placeNs (State.nsUnits ns) = some u →
    exec (.namespaceManagement c d) s = .next ((s.setSlice c.slice { s.slice c.slice with
      nss := tset (s.slice c.slice).nss (i + 1) { ns with firstUnit := u } }).finish c .success (BitVec.ofNat 32 (i + 1)))) ∧
  (∀ (s : State) (c : CmdId) (a : Adm), s.awaitsAdmin c 0x0D a → ∀ (d : NsCreate) (ns : Ns), natBits a.ent.cdw10.toNat 3 0 = 1 → a.ent.nsid ≠ 0xFFFFFFFF →
    tget (s.slice c.slice).nss a.ent.nsid = some ns → s.ioSettled c.slice [a.ent.nsid] a.stamp = true →
    exec (.namespaceManagement c d) s = .next (if s.trimEnts ns = [] then
        (s.modSlice c.slice (fun x => { x with
          entries := x.entries.filter (fun e => decide (e.nsid ≠ a.ent.nsid) || !e.stamp.before a.stamp)
          nss := tdel x.nss a.ent.nsid })).finish c .success
      else (s.trimJournal (s.trimEnts ns)).modAdm c (fun b => { b with
        started := true, jwait := some ((s.trimJournal (s.trimEnts ns)).ftl.jnext - 1) }))) ∧
  (∀ (s : State) (c : CmdId) (a : Adm), s.awaitsAdmin c 0x15 a → ∀ ns : Ns, tget (s.slice c.slice).nss a.ent.nsid = some ns →
    (natBits a.ent.cdw10.toNat 3 0 = 0 → ns.attached = false →
      exec (.namespaceAttachment c [c.slice]) s = .next ((s.setSlice c.slice { s.slice c.slice with
        nss := tset (s.slice c.slice).nss a.ent.nsid { ns with attached := true } }).finish c .success)) ∧
    (natBits a.ent.cdw10.toNat 3 0 = 1 → ns.attached = true →
      exec (.namespaceAttachment c [c.slice]) s = .next ((s.setSlice c.slice { s.slice c.slice with
        nss := tset (s.slice c.slice).nss a.ent.nsid { ns with attached := false } }).finish c .success))) ∧
  (∀ (s : State) (c : CmdId) (a : Adm), s.awaitsAdmin c 0x80 a → ∀ (ns : Ns) (lbaf pi : Nat), lbaf = natBits a.ent.cdw10.toNat 3 0 → pi = natBits a.ent.cdw10.toNat 7 5 → lbaf ≤ 4 → pi ≤ 3 →
    pi ≠ 2 → (pi = 0 ∨ 2 ≤ lbaf) → natBits a.ent.cdw10.toNat 11 9 ≤ 1 → (lbaMeta lbaf = 0 ∨ natBit a.ent.cdw10.toNat 4 = true) →
    a.ent.nsid ≠ 0xFFFFFFFF → tget (s.slice c.slice).nss a.ent.nsid = some ns → s.ioSettled c.slice [a.ent.nsid] a.stamp = true →
    exec (.formatNvm c) s = .next (if s.trimEnts ns = [] then
        (s.modSlice c.slice (fun x => { x with
          entries := x.entries.filter (fun e => decide (e.nsid ≠ a.ent.nsid) || !e.stamp.before a.stamp)
          nss := tset x.nss a.ent.nsid { ns with
            lbaf := lbaf, dps := pi + (if natBit a.ent.cdw10.toNat 8 then 8 else 0)
            nsze := ns.nsze * lbaData ns.lbaf / lbaData lbaf } })).finish c .success
      else (s.trimJournal (s.trimEnts ns)).modAdm c (fun b => { b with
        started := true, jwait := some ((s.trimJournal (s.trimEnts ns)).ftl.jnext - 1) })))

/-- Sanitize exits, trims every namespace and, by crypto erase, removes the media key with a new incarnation; other
actions end Invalid Field. A key delivery in sequence queues its decapsulation, and one out of sequence gives 0x8D
with the sequence expected. An attestation that fits queues its signature, and one that does not gives 0x8F with the
length. A key change that nothing holds installs or removes its keys and completes with INSTALL_ID. The signed
report is delivered; enrolment puts the owner's digest in its slot; GO queues it. A security alarm suspends the key
store and the cipher engine and ends the work that had begun. (04_host_interface_and_queues.md, 13_cipher_engine.md,
14_digest_keys_identity.md, 06_flash_translation.md.) -/
def Obligations.KeyAttestationAndSecurityCommands : Prop :=
  (∀ (s : State) (c : CmdId) (a : Adm), s.awaitsAdmin c 0x84 a → ∀ act : Nat, act = natBits a.ent.cdw10.toNat 2 0 →
    (act = 1 → exec (.sanitize c) s = .next (s.finish c .success)) ∧
    (act ≠ 1 → act ≠ 2 → act ≠ 4 → exec (.sanitize c) s = .next (s.finish c .invalidField)) ∧
    ∀ (u : State) (ents : List JEnt), s.ioSettled c.slice ((s.slice c.slice).nss.map Prod.fst) a.stamp = true →
      ents = (((s.slice c.slice).nss.map Prod.fst).flatMap (fun i => match tget (s.slice c.slice).nss i with
        | some ns => s.trimEnts ns
        | none => [])) →
      u = (s.slice c.slice).nss.foldl (fun s p => s.dropNsEntries c.slice p.1 a.stamp) s →
      (ents = [] → act = 2 → exec (.sanitize c) s = .next (u.finish c .success)) ∧
      (ents = [] → act = 4 → exec (.sanitize c) s = .next (State.finish ((u.eraseKey c.slice 0).modKeys c.slice (fun x => { x with
        incarnation := x.incarnation + 1 })) c .success)) ∧
      (ents ≠ [] → act = 2 ∨ act = 4 → exec (.sanitize c) s = .next ((s.trimJournal ents).modAdm c (fun b => { b with
        started := true, jwait := some ((s.trimJournal ents).ftl.jnext - 1) })))) ∧
  (∀ (s : State) (c : CmdId) (a : Adm), s.awaitsAdmin c 0xC1 a → ∀ (t : State) (len : Nat) (d bs : Bytes), len = a.ent.cdw11.toNat → a.ent.nsid = 0 → a.ent.cdw10 = 0 →
    a.ent.cdw12 = 0 → a.ent.cdw13 = 0 → a.ent.cdw14 = 0 → a.ent.cdw15 = 0 → 1744 ≤ len → len ≤ 2944 →
    s.moveData c false a.ent.dptr.ranges = (t, true) →
    bs = padTo len (t.gather c.slice a.ent.dptr.ranges d) → len = 1664 + 80 * leAt bs 6 2 → t.deliveryBad c.slice bs = none → leAt bs 0x18 8 = (t.keysOf c.slice).seq →
    exec (.keyDelivery c (.ok d)) s = .next (State.setKst (t.modAdm c (fun a => { a with started := true })) { t.kst with
      jobs := t.kst.jobs ++ [.decap c bs] })) ∧
  (∀ (s : State) (c : CmdId) (a : Adm), s.awaitsAdmin c 0xC1 a → ∀ (t : State) (len : Nat) (d bs : Bytes), len = a.ent.cdw11.toNat → a.ent.nsid = 0 → a.ent.cdw10 = 0 →
    a.ent.cdw12 = 0 → a.ent.cdw13 = 0 → a.ent.cdw14 = 0 → a.ent.cdw15 = 0 → 1744 ≤ len → len ≤ 2944 →
    s.moveData c false a.ent.dptr.ranges = (t, true) →
    bs = padTo len (t.gather c.slice a.ent.dptr.ranges d) → len = 1664 + 80 * leAt bs 6 2 → t.deliveryBad c.slice bs = none → leAt bs 0x18 8 ≠ (t.keysOf c.slice).seq →
    exec (.keyDelivery c (.ok d)) s = .next (t.finish c (.vendor 0x8D) (BitVec.ofNat 32 (t.keysOf c.slice).seq)
      (BitVec.ofNat 32 ((t.keysOf c.slice).seq / 2 ^ 32)))) ∧
  (∀ (s : State) (c : CmdId) (a : Adm), s.awaitsAdmin c 0xC2 a → a.ent.nsid = 0 → natBits a.ent.cdw10.toNat 31 3 = 0 →
    exec (.attestationReport c) s = .next (if a.ent.cdw11.toNat < s.reportSize c.slice a.ent.cdw10.toNat then
        s.finish c (.vendor 0x8F) (BitVec.ofNat 32 (s.reportSize c.slice a.ent.cdw10.toNat))
      else State.setKst (s.modAdm c (fun a => { a with started := true })) { s.kst with
        jobs := s.kst.jobs ++ [.sign c none] })) ∧
  (∀ (s : State) (id : Nat) (k : KeyChange), s.kst.changes.find? (fun k => k.id = id) = some k → (s.adm? k.cmd).isSome = true →
    s.changeWaits k = false → s.systemAreaWritable = true → k.delivery = none →
    exec (.keyChangeEffect id) s = .next (State.finish (State.setKst (s.applyChange k.slice k.ents) {
        (s.applyChange k.slice k.ents).kst with
          changes := (s.applyChange k.slice k.ents).kst.changes.filter (fun x => decide (x.id ≠ id)) })
      k.cmd .success (BitVec.ofNat 32 (min s.kst.installs lastInstall)))) ∧
  (∀ (s : State) (id slot : Nat) (k : KeyChange) (key : NewKey), s.kst.changes.find? (fun k => k.id = id) = some k →
    (s.adm? k.cmd).isSome = true → s.changeWaits k = false → s.systemAreaWritable = true → k.ents = [(slot, some key)] →
    ∃ t, exec (.keyChangeEffect id) s = .next t ∧ (t.keysOf k.slice).keys = tset (s.keysOf k.slice).keys slot { key.installed s.kst.installs with copies := s.sysChoose.1 } ∧
      t.kst.installs = min lastInstall (s.kst.installs + 1) ∧
      (t.keysOf k.slice).seq = (s.keysOf k.slice).seq + (if k.delivery.isSome then 1 else 0)) ∧
  (∀ (s t u : State) (c : CmdId) (a : Adm) (body bs : Bytes), s.kst.state = .ready → s.pkCurrent = some (.sign c (some body)) →
    s.adm? c = some a → bs = body ++ padTo 49856 (Config.slhSign body) →
    t = s.setKst { s.kst with jobs := s.kst.jobs.filter (fun x => decide (x ≠ .sign c (some body))) } →
    State.moveData (t.ev 0x0A02 c.slice) c true (State.cutRanges a.ent.dptr.ranges bs.length) = (u, true) →
    exec .pkJobComplete s = .next ((u.deliver c.slice a.ent.dptr.ranges bs).finish c .success (BitVec.ofNat 32 bs.length))) ∧
  (∀ (s : State) (bs : Bytes) (slot : Nat), s.kst.state = .ready → s.pkCurrent = some (.enrol bs) →
    s.enrolCheck bs = .ok slot →
    ∃ t, exec .pkJobComplete s = .next t ∧ t.kst.enrolBusy = false ∧ t.kst.enrolResult = 0 ∧
      t.kst.jobs = s.kst.jobs.filter (fun x => decide (x ≠ .enrol bs)) ∧
      t.dur.ownerFuses = tset s.dur.ownerFuses slot { digest := bytesAt bs 0x10 32, revoked := natBit s.dur.ownerRevoked slot }) ∧
  (∀ (s : State) (q : Requester) (bs : Bytes) (k : Nat), s.up → s.honours q → s.kst.enrolBusy = false →
    exec (.go q (.ok bs)) s = .next (s.setKst { s.kst with
      enrolBusy := true, jobs := s.kst.jobs ++ [.enrol (padTo 29912 bs)] }) ∧
    exec (.go q (.failAt k)) s = .next ((s.setKst { s.kst with enrolResult := 1 }).ev 0x2A05 noSlice (item 1 1))) ∧
  (∀ (s : State) (src : Nat), 1 ≤ src → src ≤ 6 →
    (s.kst.alarms.filter (fun t => decide (s.stride < t + 4000000))).length < 15 →
    ∃ t, exec (.securityAlarm src) s = .next t ∧ t.kst.state = .suspended ∧ t.kst.alarm = true ∧ t.kst.lastAlarm = src ∧
      t.kst.alarms = s.stride :: s.kst.alarms ∧ t.cph.alarm = true ∧ t.cph.lastAlarm = 4 ∧
      t.cph.runs = s.cph.runs.filter (fun r => !r.begun) ∧ t.dgs.runs = s.dgs.runs.filter (fun r => r.unit.isNone) ∧
      (∀ j ∈ t.kst.jobs, ∀ c b, j ≠ .sign c (some b)))

/-- For an admitted command whose data moves: Write, Write Zeroes, a post with its list and data, and a deallocation
make one buffer entry with the command's stamp, blocks and charge; Write ends with its protection error; Read
delivers the blocks, or issues the flash reads it needs; Verify and Compare end with success or Compare Failure;
Flush succeeds at once; the reservation commands change the reservation of the namespace, and the report is
delivered; a failed list ends with Data Transfer Error and event 0x1203. A Write whose data does not move now waits,
and ends with Data Transfer Error where an uncorrectable word of the CMB keeps it. A post's list in the CMB is
readable in the clauses about posts. (05_write_buffer_and_ledger_posts.md, 04_host_interface_and_queues.md,
06_flash_translation.md, 16_memory_protection_and_dram.md.) -/
def Obligations.InputOutputCommands : Prop :=
  (∀ (s : State) (c : CmdId) (a : Adm) (ns : Ns), s.awaitsIo c 0x01 a ns → s.faultInject = false → ∀ v : State, s.moveData c false a.ent.dptr.ranges = (v, true) → ∀ (d bs : List BlockData),
    piIngress ns (piAsk a.ent (entryRef ns a.ent)) (v.blocksIn c.slice ns a.ent d) = .ok bs →
    ∃ t, exec (.write c d) s = .next t ∧
      (t.slice c.slice).entries = (v.slice c.slice).entries ++ [{
          id := (v.slice c.slice).nextEntry, nsid := a.ent.nsid, stamp := a.stamp, blocks := blockTab (State.slbaOf a.ent) bs, charge := a.charge
          wt := v.writeThrough c.slice || a.wt, post := false, paired := false, cmd := some c, ready := some v.stride
          drain := a.drain }] ∧
      (t.slice c.slice).adms = (v.slice c.slice).adms.map (fun b => if b.id = c then { b with charge := 0, started := true } else b) ∧
      (t.slice c.slice).smart.unitsWritten = (v.slice c.slice).smart.unitsWritten + State.nlbOf a.ent * lbaData ns.lbaf / 512) ∧
  (∀ (s : State) (c : CmdId) (a : Adm) (ns : Ns), s.awaitsIo c 0x01 a ns → s.faultInject = false → ∀ v : State, s.moveData c false a.ent.dptr.ranges = (v, true) → ∀ (d : List BlockData) (st : Status),
    piIngress ns (piAsk a.ent (entryRef ns a.ent)) (v.blocksIn c.slice ns a.ent d) = .error st →
    exec (.write c d) s = .next ((v.dropEntry c).finish c st)) ∧
  (∀ (s : State) (c : CmdId) (a : Adm) (ns : Ns), s.awaitsIo c 0x01 a ns → s.faultInject = false → ∀ (v : State) (d : List BlockData), s.moveData c false a.ent.dptr.ranges = (v, false) →
    exec (.write c d) s = .next (if s.cmbBad c.slice a.ent.dptr.ranges then
      ((s.readCmb c.slice a.ent.dptr.ranges).dropEntry c).finish c .dataTransferError else v)) ∧
  (∀ (s : State) (c : CmdId) (a : Adm) (ns : Ns), s.awaitsIo c 0x08 a ns → ∃ t, exec (.writeZeroes c) s = .next t ∧
      (t.slice c.slice).entries = (s.slice c.slice).entries ++ [{
          id := (s.slice c.slice).nextEntry, nsid := a.ent.nsid, stamp := a.stamp, blocks := (List.range (State.nlbOf a.ent)).map (fun i =>
            (State.slbaOf a.ent + i, if natBit a.ent.cdw12.toNat 25 then Content.dealloc else Content.zero)), charge := a.charge
          wt := s.writeThrough c.slice || a.wt, post := false, paired := false, cmd := some c, ready := some s.stride
          drain := a.drain }] ∧
      (t.slice c.slice).adms = (s.slice c.slice).adms.map (fun b => if b.id = c then { b with charge := 0, started := true } else b)) ∧
  (∀ (s : State) (c : CmdId) (a : Adm) (ns : Ns), s.awaitsIo c 0x09 a ns → ∀ rs : List LbaRange, rs.length = natBits a.ent.cdw10.toNat 7 0 + 1 →
    rs.all (fun r => decide (r.count = 0) || decide (r.slba + r.count ≤ ns.nsze)) = true →
    exec (.datasetManagement c rs) s = .next (
      if natBit a.ent.cdw11.toNat 2 && rs.any (fun r => decide (r.count ≠ 0)) then s.deallocate c a rs else s.finish c .success)) ∧
  (∀ (s : State) (c : CmdId) (a : Adm) (r : LbaRange), 0 < r.count → ∃ t, s.deallocate c a [r] = t ∧
      (t.slice c.slice).entries = (s.slice c.slice).entries ++ [{
          id := (s.slice c.slice).nextEntry, nsid := a.ent.nsid, stamp := a.stamp, charge := 0
          blocks := (List.range r.count).map (fun i => (r.slba + i, Content.dealloc))
          wt := s.writeThrough c.slice || a.wt, post := false, paired := false, cmd := some c, ready := some s.stride
          drain := a.drain, dsm := true }]) ∧
  (∀ (s : State) (c : CmdId) (a : Adm), c.slice < 512 → s.adm? c = some a → a.admin = false → a.ent.opc = 0x00 →
    exec (.flush c) s = .next (s.finish c .success)) ∧
  (∀ (s : State) (c : CmdId) (a : Adm) (ns : Ns), s.awaitsIo c 0x02 a ns → s.faultInject = false → ∀ (fs : List State.Fate), a.bad = none →
    fs = (List.range (State.nlbOf a.ent)).map (fun i => s.fate c.slice a.ent.nsid ns a.stamp (State.slbaOf a.ent + i)) →
    s.readMay c a = true → fs.all (fun f => f.block.isSome && !f.isReserved) = true → ∀ bs, piEgress ns (piAsk a.ent (entryRef ns a.ent)) (fs.filterMap State.Fate.block) = .ok bs →
    (fs.filterMap State.Fate.addr).eraseDups = [] → ∀ u : State, u = s.modAdm c (fun _ => { a with
      stage := fs.any (fun f => f.addr.isNone), started := true, bufs := bs, waits := 0 }) → 
    ∀ v, State.moveData (u.unitsRead c.slice (State.nlbOf a.ent * lbaData ns.lbaf)) c true
      (State.cutRanges a.ent.dptr.ranges (State.blocksBytes bs).length) = (v, true) →
    exec (.read c) s = .next ((v.deliver c.slice a.ent.dptr.ranges (State.blocksBytes bs)).finish c .success)) ∧
  (∀ (s : State) (c : CmdId) (a : Adm) (ns : Ns), s.awaitsIo c 0x02 a ns → s.faultInject = false → ∀ (fs : List State.Fate), a.bad = none →
    fs = (List.range (State.nlbOf a.ent)).map (fun i => s.fate c.slice a.ent.nsid ns a.stamp (State.slbaOf a.ent + i)) →
    s.readMay c a = true → fs.all (fun f => f.block.isSome && !f.isReserved) = true → ∀ bs, piEgress ns (piAsk a.ent (entryRef ns a.ent)) (fs.filterMap State.Fate.block) = .ok bs →
    (fs.filterMap State.Fate.addr).eraseDups ≠ [] →
    exec (.read c) s = .next ((s.modAdm c (fun _ => { a with
      stage := fs.any (fun f => f.addr.isNone), started := true, bufs := bs
      waits := (fs.filterMap State.Fate.addr).eraseDups.length })).issueReads c (fs.filterMap State.Fate.addr).eraseDups)) ∧
  (∀ (s : State) (c : CmdId) (a : Adm) (ns : Ns), s.awaitsIo c 0x0C a ns → ∀ (fs : List State.Fate), a.bad = none →
    fs = (List.range (State.nlbOf a.ent)).map (fun i => s.fate c.slice a.ent.nsid ns a.stamp (State.slbaOf a.ent + i)) →
    s.readMay c a = true → fs.all (fun f => f.block.isSome && !f.isReserved) = true → ∀ bs, piEgress ns (piAsk a.ent (entryRef ns a.ent)) (fs.filterMap State.Fate.block) = .ok bs →
    (fs.filterMap State.Fate.addr).eraseDups = [] → ∀ u : State, u = s.modAdm c (fun _ => { a with
      stage := fs.any (fun f => f.addr.isNone), started := true, bufs := bs, waits := 0 }) → 
    exec (.verify c) s = .next ((u.unitsRead c.slice (State.nlbOf a.ent * lbaData ns.lbaf)).finish c .success)) ∧
  (∀ (s : State) (c : CmdId) (a : Adm) (ns : Ns), s.awaitsIo c 0x05 a ns → s.faultInject = false → ∀ (w : State) (fs : List State.Fate), a.bad = none → s.readMay c a = true →
    s.moveData c false a.ent.dptr.ranges = (w, true) →
    fs = (List.range (State.nlbOf a.ent)).map (fun i => w.fate c.slice a.ent.nsid ns a.stamp (State.slbaOf a.ent + i)) →
    fs.all (fun f => f.block.isSome && !f.isReserved) = true → ∀ d bs, piEgress ns (piAsk a.ent (entryRef ns a.ent)) (fs.filterMap State.Fate.block) = .ok bs →
    (fs.filterMap State.Fate.addr).eraseDups = [] →
    (bs = w.blocksIn c.slice ns a.ent d → ∀ u : State, u = w.modAdm c (fun _ => { a with
      stage := fs.any (fun f => f.addr.isNone), started := true, bufs := [], waits := 0 }) → 
      exec (.compare c d) s = .next ((u.unitsRead c.slice (State.nlbOf a.ent * lbaData ns.lbaf)).finish c .success)) ∧
    (bs ≠ w.blocksIn c.slice ns a.ent d → ∀ u : State, u = w.modAdm c (fun _ => { a with
        stage := fs.any (fun f => f.addr.isNone), started := true, bad := some .compareFailure, waits := 0 }) →
      exec (.compare c d) s = .next (u.finish c .compareFailure))) ∧
  (∀ (s : State) (c : CmdId) (a : Adm) (ns : Ns), s.awaitsIo c 0x0D a ns → ∀ d : ResvKeys, natBits a.ent.cdw10.toNat 2 0 = 0 → ns.resv.key = none →
    exec (.reservationRegister c d) s = .next ((s.setResv c a.ent.nsid (State.resvPtpl a.ent { ns.resv with
      key := some d.nrkey, gen := (ns.resv.gen + 1) % 2 ^ 32 })).finish c .success)) ∧
  (∀ (s : State) (c : CmdId) (a : Adm) (ns : Ns), s.awaitsIo c 0x11 a ns → ∀ d : ResvKeys, natBits a.ent.cdw10.toNat 2 0 = 0 → ns.resv.key = some d.crkey → 1 ≤ natBits a.ent.cdw10.toNat 15 8 →
    natBits a.ent.cdw10.toNat 15 8 ≤ 6 → ns.resv.held = false →
    exec (.reservationAcquire c d) s = .next ((s.setResv c a.ent.nsid { ns.resv with held := true, rtype := natBits a.ent.cdw10.toNat 15 8 }).finish c .success)) ∧
  (∀ (s : State) (c : CmdId) (a : Adm) (ns : Ns), s.awaitsIo c 0x15 a ns → ∀ d : ResvKeys, natBits a.ent.cdw10.toNat 2 0 = 0 → ns.resv.key = some d.crkey →
    ns.resv.rtype = natBits a.ent.cdw10.toNat 15 8 →
    exec (.reservationRelease c d) s = .next ((s.setResv c a.ent.nsid { ns.resv with held := false, rtype := 0 }).finish c .success)) ∧
  (∀ (s : State) (c : CmdId) (a : Adm) (ns : Ns), s.awaitsIo c 0x0E a ns → ∀ (v : State) (bs : Bytes),
    bs = (State.resvReportBytes c.slice ns.resv (natBit a.ent.cdw11.toNat 0)).take (4 * (a.ent.cdw10.toNat + 1)) →
    s.moveData c true (State.cutRanges a.ent.dptr.ranges bs.length) = (v, true) →
    exec (.reservationReport c) s = .next ((v.deliver c.slice a.ent.dptr.ranges bs).finish c .success)) ∧
  (∀ (s : State) (c : CmdId) (a : Adm) (ns : Ns), s.awaitsIo c 0x81 a ns → (State.cutRanges a.ent.dptr.ranges (16 * State.postRanges a.ent)).all (fun r => s.inPortion c.slice r.1 r.2) = true →
    (State.postData a).all (fun r => s.inPortion c.slice r.1 r.2) = true →
    ∀ (w v : State) (bs : Bytes) (rs : List (LbaRange × Bool)) (l : List LbaRange) (tb : Tab Content), a.ranges = none →
    s.cmbBad c.slice (State.cutRanges a.ent.dptr.ranges (16 * State.postRanges a.ent)) = false →
    bs = s.gather c.slice a.ent.dptr.ranges [] → rs = (List.range (State.postRanges a.ent)).map (State.rangeEntry bs) →
    l = rs.map Prod.fst → State.postChecks ns a.ent rs = none →
    w = s.modAdm c (fun a => { a with ranges := some l }) → w.moveData c false (State.postData a) = (v, true) →
    State.postIngress ns a.ent l (splitBlocks (lbaData ns.lbaf) (linkMeta ns a.ent) (State.postTotal a.ent) (v.gather c.slice (State.postData a) [])) = .ok tb →
    ∃ t, exec (.ledgerPost c) s = .next t ∧
      (t.slice c.slice).entries = (v.slice c.slice).entries ++ [{
          id := (v.slice c.slice).nextEntry, nsid := a.ent.nsid, stamp := a.stamp, blocks := tb, charge := a.charge
          wt := v.writeThrough c.slice || a.wt, post := true, paired := State.postPaired a.ent, cmd := some c, ready := some v.stride
          drain := a.drain, ranges := l }] ∧
      (t.slice c.slice).adms = (v.slice c.slice).adms.map (fun b => if b.id = c then { b with charge := 0, started := true } else b)) ∧
  (∀ (s : State) (c : CmdId) (a : Adm) (ns : Ns), s.awaitsIo c 0x81 a ns → (State.cutRanges a.ent.dptr.ranges (16 * State.postRanges a.ent)).all (fun r => s.inPortion c.slice r.1 r.2) = true →
    ∀ (w : State) (bs : Bytes) (rs : List (LbaRange × Bool)), a.ranges = none →
    s.cmbBad c.slice (State.cutRanges a.ent.dptr.ranges (16 * State.postRanges a.ent)) = false →
    bs = s.gather c.slice a.ent.dptr.ranges [] → rs = (List.range (State.postRanges a.ent)).map (State.rangeEntry bs) →
    State.postChecks ns a.ent rs = none → w = s.modAdm c (fun a => { a with ranges := some (rs.map Prod.fst) }) →
    (State.postData a).all (fun r => s.inPortion c.slice r.1 r.2) = false → exec (.ledgerPost c) s = .next w) ∧
  (∀ (s : State) (c : CmdId) (a : Adm) (ns : Ns), s.awaitsIo c 0x81 a ns → s.faultInject = false → ∀ (lst : Bytes) (d : List BlockData),
    ∀ (w v : State) (bs : Bytes) (rs : List (LbaRange × Bool)) (l : List LbaRange) (tb : Tab Content), a.ranges = none →
    s.cmbBad c.slice (State.cutRanges a.ent.dptr.ranges (16 * State.postRanges a.ent)) = false →
    bs = s.gather c.slice a.ent.dptr.ranges (padTo (16 * State.postRanges a.ent) lst ++ State.blocksBytes d) → rs = (List.range (State.postRanges a.ent)).map (State.rangeEntry bs) →
    l = rs.map Prod.fst → State.postChecks ns a.ent rs = none →
    w = s.modAdm c (fun a => { a with ranges := some l }) → w.moveData c false (State.postData a) = (v, true) →
    State.postIngress ns a.ent l (splitBlocks (lbaData ns.lbaf) (linkMeta ns a.ent) (State.postTotal a.ent) (bs.drop (16 * State.postRanges a.ent))) = .ok tb →
    ∃ t, exec (.ledgerPostListArrival c (.ok lst) d) s = .next t ∧
      (t.slice c.slice).entries = (v.slice c.slice).entries ++ [{
          id := (v.slice c.slice).nextEntry, nsid := a.ent.nsid, stamp := a.stamp, blocks := tb, charge := a.charge
          wt := v.writeThrough c.slice || a.wt, post := true, paired := State.postPaired a.ent, cmd := some c, ready := some v.stride
          drain := a.drain, ranges := l }] ∧
      (t.slice c.slice).adms = (v.slice c.slice).adms.map (fun b => if b.id = c then { b with charge := 0, started := true } else b)) ∧
  (∀ (s : State) (c : CmdId) (a : Adm) (ns : Ns), s.awaitsIo c 0x81 a ns → s.faultInject = false → ∀ (k : Nat) (d : List BlockData),
    exec (.ledgerPostListArrival c (.failAt k) d) s = .next (((s.dropEntry c).finish c .dataTransferError).ev 0x1203 c.slice))

/-- A due entry becomes visible at its stride and its command completes. An eligible entry that no older read needs
and no flush of its units precedes is flushed; where every block of it trims whole units the flush journals one TRIM
record that covers it. The first journal record that becomes durable is given two copies, is applied to the map, and
marks the entry that it covers journalled. (05_write_buffer_and_ledger_posts.md, 06_flash_translation.md.) -/
def Obligations.WriteBufferEvents : Prop :=
  (∀ (s : State) (n id : Nat) (e : Entry) (c : CmdId) (a : Adm), n < 512 → (s.slice n).entries.find? (fun e => e.id = id) = some e →
    s.visibleDue e = true → e.cmd = some c → s.adm? c = some a → e.dsm = false → a.stage = false → e.paired = false → e.post = false →
    exec (.entryVisible n id) s = .next ((((s.makeVisible n e.id).modAdm c (fun a => { a with stage := true })).finishNow c .success).mirrorSlice n)) ∧
  (∀ (s : State) (n id : Nat), ∃ t, s.makeVisible n id = t ∧ (t.slice n).entries = (s.slice n).entries.map (fun e =>
      if e.id = id then { e with visible := some s.stride } else e)) ∧
  (∀ (s : State) (n id : Nat) (e : Entry) (ns : Ns), n < 512 → s.faultInject = false →
    (s.slice n).entries.find? (fun e => e.id = id) = some e → s.flushEligible n e = true →
    s.wbf.pfTaken = false → State.olderReadWaits (s.slice n) e = false → s.entryBusy n e = false →
    State.trimPending (s.slice n) e.nsid = false → tget (s.slice n).nss e.nsid = some ns → exec (.flushStart n id) s = .next (s.flushEntry n e)) ∧
  (∀ (s : State) (n id : Nat) (e : Entry) (ns : Ns), n < 512 → s.faultInject = false →
    (s.slice n).entries.find? (fun e => e.id = id) = some e → s.flushEligible n e = true →
    s.wbf.pfTaken = false → State.olderReadWaits (s.slice n) e = false → s.entryBusy n e = false →
    State.trimPending (s.slice n) e.nsid = false → tget (s.slice n).nss e.nsid = some ns → ∀ (w : State) (trims : List JEnt), w = s.modSlice n (fun x => { x with
      entries := x.entries.map (fun f => if f.id = e.id then { f with flushing := true } else f) }) →
    trims = (State.entryUnits ns e).flatMap (fun u => w.trimUnit n ns e u) → (State.untrimmed ns e trims).blocks = [] → trims ≠ [] →
    e.post = false → w.entryLives n e.id = true → trims.length ≤ 64 → ∃ t, exec (.flushStart n id) s = .next t ∧
      t.ftl.journal = s.ftl.journal ++ [{ seq := s.ftl.jnext, type := 3, final := false, stamp := some e.stamp, victim := 0
                                          covers := [(n, e.id, none)], ents := trims }]) ∧
  (∀ (s : State) (r : JRec) (rest : List JRec) (n id : Nat), s.ftl.journal = r :: rest → r.covers = [(n, id, none)] →
    s.entryLives n id = true → r.type ≠ 0x0A → s.sysPairs ≠ [] → ∃ p ∈ s.sysPairs, ∀ (t : State) (q : JRec), q = { r with copies := some p } →
    t = State.applyRec { s with free := s.free + 1
                                ftl := { s.ftl with journal := rest, jseq := r.seq, bandRecs := s.ftl.bandRecs ++ [q] } } q →
    exec .journalRecordDurable s = .next (t.modSlice n (fun x => { x with entries := x.entries.map (fun e =>
      if e.id = id then { e with journalled := true, visible := some (e.visible.getD (t.stride + 1)) } else e) })))

/-- Heat Program Load empties a slot, or measures and places a program whose header is good, with event 0x0700. Heat
Run makes a heat that is checked, or ends with its check's status; the descriptor gives the heat its extents or ends
it; a staged heat waits for cores or ends with the read's status; it loads when its cores may be taken, and runs
with every core's registers, bounds and mode set as the heat asks; a delivery writes the result from the slice's
DRAM and completes with the exit code and length, or ends with 0x48 where the result is too long. HEAT_STOP is
recorded for the tick. (10_heats.md.) -/
def Obligations.HeatCommands : Prop :=
  (∀ (s : State) (c : CmdId) (a : Adm), s.awaitsAdmin c 0xC5 a → a.ent.nsid = 0 → natBits a.ent.cdw10.toNat 31 4 = 0 → a.ent.cdw12 = 0 →
    a.ent.cdw13 = 0 → a.ent.cdw14 = 0 → a.ent.cdw15 = 0 → ∀ d : Fetch, a.ent.cdw11 = 0 → a.ent.dptr.ranges.all (fun r => decide (r.1 = 0)) = true →
    exec (.heatProgramLoad c d) s = .next (((s.placeProgram c.slice (natBits a.ent.cdw10.toNat 3 0) a.stamp none).ev 0x0700 c.slice
      (item 1 (natBits a.ent.cdw10.toNat 3 0))).finish c .success)) ∧
  (∀ (s : State) (c : CmdId) (a : Adm), s.awaitsAdmin c 0xC5 a → a.ent.nsid = 0 → natBits a.ent.cdw10.toNat 31 4 = 0 → a.ent.cdw12 = 0 →
    a.ent.cdw13 = 0 → a.ent.cdw14 = 0 → a.ent.cdw15 = 0 → ∀ (v : State) (d bs : Bytes) (len slot : Nat), len = a.ent.cdw11.toNat → slot = natBits a.ent.cdw10.toNat 3 0 → 66 ≤ len →
    len ≤ 258112 → s.moveData c false a.ent.dptr.ranges = (v, true) →
    bs = padTo len (v.gather c.slice a.ent.dptr.ranges d) → State.imageBad bs len = none →
    exec (.heatProgramLoad c (.ok d)) s = .next (State.finish (State.ev (State.placeProgram
        (v.sliceLog c.slice 0x0012 (item 1 slot) bs) c.slice slot a.stamp (some {
          code := bs.drop 64, entry := leAt bs 0xC 4, minCores := leAt bs 0x15 1, maxCores := leAt bs 0x16 1 }))
      0x0700 c.slice (item 1 slot)) c .success)) ∧
  (∀ (s : State) (c : CmdId) (a : Adm), s.awaitsEngine c 0x86 a → s.heatChecks1 c.slice a.ent = none → s.heat? c = none →
    exec (.heatRun c) s = .next { s with heats := s.heats ++ [{
      id := c, stamp := a.stamp, st := .checking, resultBytes := a.ent.cdw14.toNat }] }) ∧
  (∀ (s : State) (c : CmdId) (a : Adm), s.awaitsEngine c 0x86 a → ∀ st : Status, s.heatChecks1 c.slice a.ent = some st →
    exec (.heatRun c) s = .next (((s.dropHeat c).dropEntry c).finish c st)) ∧
  (∀ (s : State) (c : CmdId) (a : Adm), s.awaitsEngine c 0x86 a → ∀ (h : Heat) (d : Fetch) (bs : Bytes), s.heat? c = some h → h.st = .checking →
    s.loadPending c.slice a.stamp = false →
    s.readIn c.slice (State.descAddr a.ent) (64 + 32 * State.extentCount a.ent) d = .ok bs → ∀ h' : Heat, s.heatChecks2 c a bs = .ok h' → s.up →
    exec (.heatDescriptorArrival c d) s = .next ((s.modHeat c (fun _ => h')).modAdm c (fun a => { a with
      reads := some (h'.extents.map (fun e => { nsid := e.nsid, range := { slba := e.slba, count := e.nlb } })) }))) ∧
  (∀ (s : State) (c : CmdId) (a : Adm), s.awaitsEngine c 0x86 a → ∀ (h : Heat) (d : Fetch) (bs : Bytes), s.heat? c = some h → h.st = .checking →
    s.loadPending c.slice a.stamp = false →
    s.readIn c.slice (State.descAddr a.ent) (64 + 32 * State.extentCount a.ent) d = .ok bs → ∀ st : Status, s.heatChecks2 c a bs = .error st →
    exec (.heatDescriptorArrival c d) s = .next (((s.dropHeat c).dropEntry c).finish c st)) ∧
  (∀ (s u : State) (c : CmdId) (h h' : Heat) (a a' : Adm), c.slice < 512 → s.heat? c = some h → s.adm? c = some a → a.id = c →
    h.st = .staging → s.heatStage h = u → u.heat? c = some h' → u.adm? c = some a' → h'.staged = true → a'.waits = 0 →
    (a'.bad = none → exec (.heatStaged c) s = .next (u.modHeat c (fun h => { h with st := .waitCores }))) ∧
    (∀ st, a'.bad = some st → exec (.heatStaged c) s = .next (((u.dropHeat c).dropEntry c).finish c st))) ∧
  (∀ (s : State) (h : Heat), h.st = .staging → h.staged = true → s.heatStage h = s) ∧
  (∀ (s : State) (c : CmdId) (h : Heat), c.slice < 512 → s.heat? c = some h → h.st = .waitCores → s.mayLoad h = true →
    exec (.heatLoadingStart c) s = .next (h.cores.foldl (fun s k => s.modCore k (fun k => { k with loading := true }))
      (s.modHeat c (fun h => { h with st := .loading })))) ∧
  (∀ (s : State) (c : CmdId) (h : Heat) (img : Program), c.slice < 512 → s.faultInject = false → s.heat? c = some h → h.st = .loading →
    h.image = some img → exec (.heatRunningStart c) s = .next (State.modAdm (State.modHeat (((List.range h.cores.length).zip h.cores).foldl
      (fun s p => s.loadCore h img p.2 p.1) s) c (fun h => { h with st := .running })) c (fun a => { a with stage := true }))) ∧
  (∀ (s : State) (c : CmdId) (h : Heat) (img : Program), c.slice < 512 → s.faultInject = false → s.heat? c = some h → h.st = .loading →
    h.image = some img → ∀ k : Nat, h.cores = [k] → ∃ t, exec (.heatRunningStart c) s = .next t ∧
      t.core k = { s.core k with
        g := [0, 0, 1, BitVec.ofNat 64 h.inputBytes, h.param.getD 0 0, h.param.getD 1 0, h.param.getD 2 0, h.param.getD 3 0] ++
          List.replicate 23 0 ++ [0x3F000]
        pc := BitVec.ofNat 64 img.entry, flg := 0, dcx := BitVec.ofNat 64 h.dcx
        hbase := BitVec.ofNat 64 (s.heatBase (s.slice h.id.slice)), hsize := BitVec.ofNat 64 (State.heatRegion (s.slice h.id.slice))
        hbanks := BitVec.ofNat 64 (State.heatBanks (s.slice h.id.slice) k), marshal := false, pmode := true, exl := false
        stopReq := false, suspReq := false, waiting := false, svc := none, hold := .none, loading := false, halted := false }) ∧
  (∀ (s : State) (c : CmdId) (h : Heat) (a : Adm), c.slice < 512 → s.heat? c = some h → s.adm? c = some a → h.st = .delivering → h.exitN ≤ h.resultBytes →
    ∀ (v u : State) (bs : Bytes), s.moveData c true (State.cutRanges a.ent.dptr.ranges h.exitN) = (v, true) →
    v.memRead dramArr (v.heatBase (v.slice c.slice) + h.resultOffset) h.exitN = (u, bs, false) →
    exec (.heatDelivered c true) s = .next ((u.deliver c.slice a.ent.dptr.ranges bs).heatEnd h .success (BitVec.ofNat 32 h.exitCode)
      (BitVec.ofNat 32 h.exitN))) ∧
  (∀ (s : State) (c : CmdId) (h : Heat) (a : Adm), c.slice < 512 → s.heat? c = some h → s.adm? c = some a → h.st = .delivering → h.resultBytes < h.exitN →
    ∀ ok : Bool, exec (.heatDelivered c ok) s = .next (s.heatEnd h (.vendor 0x48))) ∧
  (∀ (s : State) (p n : Nat) (v : BitVec 32), p < 2 → n < 512 → s.up → s.windowLive p n = true →
    exec (.heatStop p n v) s = .next (s.modHeatRegs n (fun r => { r with
      stops := r.stops ++ [(natBits v.toNat 31 16, natBits v.toNat 15 0)] })))

/-- A Hurdle Run that passes its first checks has a scan, and one that fails ends with its status. The descriptor,
with its ranges, is kept and its reads are named; a bad field ends the command with 0x60 and the field's offset.
HDL_STOP is recorded for the tick. (11_hurdle_stage.md.) -/
def Obligations.HurdleCommands : Prop :=
  (∀ (s : State) (c : CmdId) (a : Adm), s.awaitsEngine c 0x8A a → s.hurdleChecks1 c.slice a.ent = none → s.hdl.scans.any (fun r => r.id = c) = false →
    exec (.hurdleRun c) s = .next { s with hdl := { s.hdl with scans := s.hdl.scans ++ [{ id := c, stamp := a.stamp }] } }) ∧
  (∀ (s : State) (c : CmdId) (a : Adm), s.awaitsEngine c 0x8A a → ∀ st : Status, s.hurdleChecks1 c.slice a.ent = some st →
    exec (.hurdleRun c) s = .next (((s.dropScan c).dropEntry c).finish c st)) ∧
  (∀ (s : State) (c : CmdId) (a : Adm), s.awaitsEngine c 0x8A a → ∀ (f : Fetch) (d : Bytes) (ns : Ns), s.faultInject = false →
    s.hdl.scans.any (fun r => r.id = c) = true → s.hdl.scans.any (fun r => r.id = c && r.desc.isSome) = false →
    s.readIn c.slice (State.descAddr a.ent) (0x780 + 16 * hNext a.ent) f = .ok d → tget (s.slice c.slice).nss a.ent.nsid = some ns → ∀ rs : List (LbaRange × Bool), hurdleBad d (hNext a.ent) = none → rs = hRanges d (hNext a.ent) →
    (hEnable d = true → (s.slice c.slice).search ≠ []) → rs.all (fun r => r.2) = true →
    lsum (rs.map (fun r => r.1.count * lbaData ns.lbaf)) = hInput d →
    (hRecFmt d = 0 → hDecomp d = 0 → (hInput d - hSkip d) % hRecLen d = 0) →
    rs.all (fun r => decide (r.1.slba + r.1.count ≤ ns.nsze)) = true →
    exec (.hurdleDescriptorArrival c f) s = .next ((s.modScan c (fun r => { r with desc := some d })).modAdm c (fun a =>
      { a with reads := some (rs.map (fun r => { nsid := a.ent.nsid, range := r.1 })) }))) ∧
  (∀ (s : State) (c : CmdId) (a : Adm), s.awaitsEngine c 0x8A a → ∀ (f : Fetch) (d : Bytes) (ns : Ns), s.faultInject = false →
    s.hdl.scans.any (fun r => r.id = c) = true → s.hdl.scans.any (fun r => r.id = c && r.desc.isSome) = false →
    s.readIn c.slice (State.descAddr a.ent) (0x780 + 16 * hNext a.ent) f = .ok d → tget (s.slice c.slice).nss a.ent.nsid = some ns → ∀ o : Nat, hurdleBad d (hNext a.ent) = some o →
    exec (.hurdleDescriptorArrival c f) s = .next (((s.dropScan c).dropEntry c).finish c (.vendor 0x60) (BitVec.ofNat 32 o))) ∧
  (∀ (s : State) (p n : Nat) (v : BitVec 32), p < 2 → n < 512 → s.up → s.windowLive p n = true →
    exec (.hdlStop p n v) s = .next { s with hdl := { s.hdl with
      stops := s.hdl.stops ++ [(n, natBits v.toNat 31 16, natBits v.toNat 15 0)] } })

/-- A search that passes its first checks is known, and one that fails ends with its status. It begins in a free
slot with its input and cursor, running its first unit of at most 400 bytes with its epoch at once where it waits
for no read, or ends with its second checks' status. A table load whose image is good in every field and rule is
queued, and one that would exceed the rules ends with 0x76 and the offset. Its write phase takes a free slot, or
suspends the search or scan of highest PRIO value and latest stamp and takes that slot; its apply phase applies the
image once no search runs. (12_pattern_engine.md.) -/
def Obligations.PatternCommands : Prop :=
  (∀ (s : State) (c : CmdId) (a : Adm), s.awaitsEngine c 0x8D a → s.patChecks1 c.slice a.ent = none → s.pat.runs.any (fun r => r.id = c) = false →
    exec (.patternSearch c) s = .next { s with pat := { s.pat with runs := s.pat.runs ++ [{ id := c, stamp := a.stamp }] } }) ∧
  (∀ (s : State) (c : CmdId) (a : Adm), s.awaitsEngine c 0x91 a → s.patChecks1 c.slice a.ent = none → s.pat.runs.any (fun r => r.id = c) = false →
    exec (.patternStep c) s = .next { s with pat := { s.pat with runs := s.pat.runs ++ [{ id := c, stamp := a.stamp }] } }) ∧
  (∀ (s : State) (c : CmdId) (a : Adm) (st : Status), (s.awaitsEngine c 0x8D a → s.patChecks1 c.slice a.ent = some st →
      exec (.patternSearch c) s = .next (((s.dropPat c).dropEntry c).finish c st)) ∧
    (s.awaitsEngine c 0x91 a → s.patChecks1 c.slice a.ent = some st →
      exec (.patternStep c) s = .next (((s.dropPat c).dropEntry c).finish c st))) ∧
  (∀ (s : State) (c : CmdId) (a : Adm) (r : PatRun) (slot : Nat) (hdr input : Fetch), c.slice < 512 → s.adm? c = some a →
    s.pat.runs.find? (fun r => r.id = c) = some r → r.slot = none → a.stage = false → s.patLoadPending c.slice a.stamp = false →
    s.patQueued c.slice a.stamp = false → s.patReadable c a = true → s.slotFree c.slice = some slot → ∀ (cur : Option (Nat × Nat)) (w u : State) (bs : Bytes), s.patChecks2 c.slice a.ent hdr = .ok cur →
    (if State.pSource a.ent then w = s else s.moveData c false a.ent.dptr.ranges = (w, true)) → w.patInput c a input = (u, .ok bs) →
    ∀ (a' : Adm) (r' : PatRun) (v : State), u.adm? c = some a' → u.pat.runs.find? (fun r => r.id = c) = some r' →
    v = State.modPat (u.modAdm c (fun a => { a with stage := decide (a.waits = 0), started := true })) c
      (fun r => { r with slot := some slot, input := bs, cursor := cur, left := max 1 (ceilDiv bs.length 400) }) →
    exec (.patternSearchBegin c hdr input) s = .next (if a'.waits = 0 then
      State.modPat { v with pat := { v.pat with bytes := min (2 ^ 64 - 1) (v.pat.bytes + min 400 bs.length) } } c
        (fun r => { r with left := r.left - 1, epoch := u.patEpoch, last := u.patEpoch }) else v)) ∧
  (∀ (s : State) (c : CmdId) (a : Adm) (r : PatRun) (slot : Nat) (hdr input : Fetch), c.slice < 512 → s.adm? c = some a →
    s.pat.runs.find? (fun r => r.id = c) = some r → r.slot = none → a.stage = false → s.patLoadPending c.slice a.stamp = false →
    s.patQueued c.slice a.stamp = false → s.patReadable c a = true → s.slotFree c.slice = some slot → ∀ st : Status, s.patChecks2 c.slice a.ent hdr = .error st → st ≠ .dataTransferError →
    exec (.patternSearchBegin c hdr input) s = .next (((s.dropPat c).dropEntry c).finish c st)) ∧
  (∀ (s v : State) (c : CmdId) (a : Adm) (d bs : Bytes) (len : Nat) (t base : PatTable), s.awaitsAdmin c 0xC9 a → len = a.ent.cdw11.toNat →
    a.ent.nsid = 0 → a.ent.cdw10 = 0 → a.ent.cdw12 = 0 → a.ent.cdw13 = 0 → a.ent.cdw14 = 0 → a.ent.cdw15 = 0 → 32 ≤ len → len ≤ 8388608 →
    s.patSlots c.slice ≠ 0 → s.moveData c false a.ent.dptr.ranges = (v, true) →
    bs = padTo len (v.gather c.slice a.ent.dptr.ranges d) → t = v.patProjected c.slice →
    patHeadBad bs = none → (patImage bs).size = len → patBodyBad t (s.patSlots c.slice) bs (patImage bs) = none →
    (leAt bs 6 1 = 1 ∨ t.state ≠ .lost) → base = (if leAt bs 6 1 = 1 then { t with rules := [], rank := [] } else t) → ∀ x, patRuleOps v.patHole (s.patSlots c.slice) bs base (patImage bs).ops = .ok x →
    ∃ u, u = v.modAdm c (fun a => { a with started := true }) ∧ exec (.patternTableLoad c (.ok d)) s = .next { u with
      pat := { u.pat with loads := u.pat.loads ++ [{ id := c, stamp := a.stamp, image := bs }] } }) ∧
  (∀ (s v : State) (c : CmdId) (a : Adm) (d bs : Bytes) (len : Nat) (t base : PatTable), s.awaitsAdmin c 0xC9 a → len = a.ent.cdw11.toNat →
    a.ent.nsid = 0 → a.ent.cdw10 = 0 → a.ent.cdw12 = 0 → a.ent.cdw13 = 0 → a.ent.cdw14 = 0 → a.ent.cdw15 = 0 → 32 ≤ len → len ≤ 8388608 →
    s.patSlots c.slice ≠ 0 → s.moveData c false a.ent.dptr.ranges = (v, true) →
    bs = padTo len (v.gather c.slice a.ent.dptr.ranges d) → t = v.patProjected c.slice →
    patHeadBad bs = none → (patImage bs).size = len → patBodyBad t (s.patSlots c.slice) bs (patImage bs) = none →
    (leAt bs 6 1 = 1 ∨ t.state ≠ .lost) → base = (if leAt bs 6 1 = 1 then { t with rules := [], rank := [] } else t) → ∀ o : Nat, patRuleOps v.patHole (s.patSlots c.slice) bs base (patImage bs).ops = .error (o, true) →
    exec (.patternTableLoad c (.ok d)) s = .next (v.finish c (.vendor 0x76) (BitVec.ofNat 32 o))) ∧
  (∀ (s : State) (c : CmdId) (l : PatLoad), c.slice < 512 → s.pat.loads.find? (fun l => l.id = c) = some l → (s.adm? c).isSome = true → l.written = false → l.slot = none → s.patFirst l = true → (leAt l.image 6 1 = 1 → s.patBusy c.slice l.stamp = false) →
    ∀ (k : Nat) (u : State) (l' : PatLoad), s.slotFree c.slice = some k → l' = { l with slot := some k, victim := none } →
    u = (if patTouches (s.patTable c.slice) (s.patSlots c.slice) l.image then State.taint s c.slice l.stamp else s) →
    exec (.patternWritePhase c) s = .next (((u.setPatTable c.slice (patClear (s.patTable c.slice) l.image)).modLoad c
      (fun _ => l')).patUnit l')) ∧
  (∀ (s : State) (c : CmdId) (l : PatLoad), c.slice < 512 → s.pat.loads.find? (fun l => l.id = c) = some l → (s.adm? c).isSome = true → l.written = false → l.slot = none → s.patFirst l = true → (leAt l.image 6 1 = 1 → s.patBusy c.slice l.stamp = false) →
    ∀ (v : CmdId × Nat × Nat × Stamp) (u : State) (l' : PatLoad), s.slotFree c.slice = none →
    State.patVictim (s.patActive c.slice) = some v → l' = { l with slot := some v.2.1, victim := some v.1 } →
    u = (if patTouches (s.patTable c.slice) (s.patSlots c.slice) l.image then State.taint (s.patSuspend v.1 true) c.slice l.stamp else s.patSuspend v.1 true) →
    exec (.patternWritePhase c) s = .next (((u.setPatTable c.slice (patClear (s.patTable c.slice) l.image)).modLoad c
      (fun _ => l')).patUnit l')) ∧
  (∀ (s : State) (c : CmdId) (l : PatLoad), c.slice < 512 → s.pat.loads.find? (fun l => l.id = c) = some l → (s.adm? c).isSome = true → l.written = true →
    l.applied = false → s.patBusy c.slice l.stamp = false →
    ∀ t : PatTable, t = patApply s.patHole (s.patSlots c.slice) (s.patTable c.slice) l.image →
    exec (.patternApplyPhase c) s = .next (State.modLoad (s.setPatTable c.slice t) c (fun l => { l with
      applied := true, applyLeft := ceilDiv t.occupied.length 256 - 1 })))

/-- A command that passes its checks has a run, with its source at once where it lies in the slice's CMB portion and
later where it is in host memory; one that fails ends with its status. A source that arrives is kept; a failed one
ends Data Transfer Error with event 0x1203. A digest that imports a baton takes up the message the baton stands for,
or ends with its status and event 0x2A03. (13_cipher_engine.md, 14_digest_keys_identity.md.) -/
def Obligations.CipherAndDigestCommands : Prop :=
  (∀ (s : State) (c : CmdId) (a : Adm), s.awaitsEngine c 0x93 a → s.cipherChecks1 c.slice a.ent = none → s.cph.runs.any (fun r => r.id = c) = false →
    (a.ent.dptr.ranges.all (fun r => s.inPortion c.slice r.1 r.2) = false →
      exec (.cipherTransform c) s = .next { s with cph := { s.cph with runs := s.cph.runs ++ [{
        id := c, stamp := a.stamp, total := cphBatches a.ent }] } }) ∧
    (a.ent.dptr.ranges.all (fun r => s.inPortion c.slice r.1 r.2) = true → ∀ v : State, s.moveData c false a.ent.dptr.ranges = (v, true) → v.cph.runs.any (fun r => r.id = c) = false →
      exec (.cipherTransform c) s = .next { v with cph := { v.cph with runs := v.cph.runs ++ [{
        id := c, stamp := a.stamp, total := cphBatches a.ent
        src := some (padTo (cphSrcLen a.ent) (v.gather c.slice a.ent.dptr.ranges [])) }] } })) ∧
  (∀ (s : State) (c : CmdId) (a : Adm), s.awaitsEngine c 0x93 a → ∀ st : Status, s.cipherChecks1 c.slice a.ent = some st →
    exec (.cipherTransform c) s = .next (((s.dropCipher c).dropEntry c).finish c st)) ∧
  (∀ (s : State) (c : CmdId) (a : Adm), s.awaitsEngine c 0x93 a → ∀ (v : State) (bs : Bytes) (k : Nat), s.faultInject = false →
    s.moveData c false a.ent.dptr.ranges = (v, true) → v.cph.runs.any (fun r => r.id = c) = true →
    exec (.cipherTrailerArrival c (.ok bs)) s = .next { v with cph := { v.cph with runs := v.cph.runs.map (fun r =>
      if r.id = c then if r.src.isSome then r else { r with
        src := some (padTo (cphSrcLen a.ent) (v.gather c.slice a.ent.dptr.ranges bs)) } else r) } } ∧
    exec (.cipherTrailerArrival c (.failAt k)) s = .next ((((s.dropCipher c).dropEntry c).finish c .dataTransferError).ev
      0x1203 c.slice)) ∧
  (∀ (s : State) (c : CmdId) (a : Adm), s.awaitsEngine c 0x95 a → s.digestChecks1 c.slice a.ent = none → s.dgs.runs.any (fun r => r.id = c) = false → 
    (a.ent.dptr.ranges.all (fun r => s.inPortion c.slice r.1 r.2) = false →
      exec (.digest c) s = .next { s with dgs := { s.dgs with runs := s.dgs.runs ++ [{ id := c, stamp := a.stamp }] } }) ∧
    (a.ent.dptr.ranges.all (fun r => s.inPortion c.slice r.1 r.2) = true → (dgAlg a.ent < 0xC ∨ 0xE < dgAlg a.ent) → dgImports a.ent = false →
      ∀ v : State, s.moveData c false a.ent.dptr.ranges = (v, true) → v.dgs.runs.any (fun r => r.id = c) = false →
      exec (.digest c) s = .next { v with dgs := { v.dgs with runs := v.dgs.runs ++ [{
        id := c, stamp := a.stamp, msg := some (padTo (dgLen a.ent) (v.gather c.slice a.ent.dptr.ranges [])) }] } })) ∧
  (∀ (s : State) (c : CmdId) (a : Adm), s.awaitsEngine c 0x95 a → ∀ st : Status, s.digestChecks1 c.slice a.ent = some st →
    exec (.digest c) s = .next (((s.dropDigest c).dropEntry c).finish c st)) ∧
  (∀ (s : State) (c : CmdId) (a : Adm), s.awaitsEngine c 0x95 a → ∀ (v : State) (d bs : Bytes), s.moveData c false a.ent.dptr.ranges = (v, true) →
    v.dgs.runs.any (fun r => r.id = c) = true → v.dgs.runs.any (fun r => r.id = c && r.msg.isSome) = false →
    dgImports a.ent = true → bs = padTo (552 + dgLen a.ent) (v.gather c.slice a.ent.dptr.ranges d) →
    (dgAlg a.ent < 0xC ∨ 0xE < dgAlg a.ent) → 
    (∀ m, v.digestImport c.slice a.ent (bs.take 552) = .ok m →
      exec (.digestBatonArrival c (.ok d)) s = .next (v.modDigest c (fun r => { r with msg := some (m ++ bs.drop 552) }))) ∧
    (∀ st, v.digestImport c.slice a.ent (bs.take 552) = .error st →
      exec (.digestBatonArrival c (.ok d)) s = .next ((((v.dropDigest c).dropEntry c).finish c st).ev 0x2A03 c.slice)))

/-- A PHY that comes up sends HELLO; a link that goes down, or is silent for 16,000 strides, is down with its cause,
its keys and handshake forgotten, its jobs dropped and event 0x1B00; HELLO is repeated every 400,000 strides, and
SUMMARY sent. A HELLO that suits the roster and versions begins keying, and any other is kept with its cause. A peer
whose authentication fails sends the link back to HELLO with event 0x2B01; an offer that verifies is answered
through the public-key unit, and an answer brings the link up with its key. A frame that fails its tag, or is not
for this device, is counted, a tag failure with event 0x2B00 once a lap. (15_relay_and_field.md.) -/
def Obligations.RelayLinkCommands : Prop :=
  (∀ (s : State) (p : Nat) (chal : Bytes) (h : HelloMsg), p < 4 → s.relayRuns = true → s.portEnabled p = true → (s.rlyPort p).st = .down →
    h = s.helloOf p (padTo 16 chal) →
    ∃ t, exec (.phyUp p chal) s = .next t ∧ t.rlyPort p = { s.rlyPort p with
        phyUp := true, st := .hello, ownHello := some h, helloAt := s.stride, tx := min (2 ^ 64 - 1) ((s.rlyPort p).tx + frameCount 1 [] (helloBytes h)) } ∧
      t.out = s.out ++ [.relay {
        port := p, dest := s.peerAddr p, type := 1, words := [], body := helloBytes h
        head := { version := (s.rlyPort p).version, clear := true, bcast := false, hops := 32, src := s.fieldAddr, keyId := 0, nonce := none }
        frames := s.framesOn p (s.frameHead p 1) 1 (s.peerAddr p) s.rly.nextMsg (helloBytes h) }]) ∧
  (∀ (s : State) (p : Nat), p < 4 → (s.rlyPort p).phyUp = true → (s.rlyPort p).st = .up →
    ∃ t, exec (.phyDown p) s = .next t ∧ t.rlyPort p = { s.rlyPort p with
        phyUp := false, st := .down, cause := 0xD0, linkKey := [], pendKey := [], peer := none, ownHello := none, version := 0, keyAcked := false, repHead := none
        exch := none, got := none, sent := [], downSeen := true } ∧
      t.kst.jobs = s.kst.jobs.filter (fun j => match j with
        | .link q _ _ => decide (q ≠ p)
        | _ => true) ∧
      t.evr.queue = s.evr.queue ++ [{ code := 0x1B00, src := noSlice, detail := item 1 p ++ item 1 0xD0, at' := s.evAt }]) ∧
  (∀ (s : State) (p : Nat), p < 4 → (s.rlyPort p).st = .up → (s.rlyPort p).lastRx + 16000 ≤ s.stride →
    ∃ t, exec (.linkSilent p) s = .next t ∧ t.rlyPort p = { s.rlyPort p with
        st := .down, cause := 0xCF, linkKey := [], pendKey := [], peer := none, ownHello := none, version := 0, keyAcked := false, repHead := none
        exch := none, got := none, sent := [], downSeen := true } ∧
      t.kst.jobs = s.kst.jobs.filter (fun j => match j with
        | .link q _ _ => decide (q ≠ p)
        | _ => true) ∧
      t.evr.queue = s.evr.queue ++ [{ code := 0x1B00, src := noSlice, detail := item 1 p ++ item 1 0xCF, at' := s.evAt }]) ∧
  (∀ (s : State) (p : Nat) (h : HelloMsg), p < 4 → (s.rlyPort p).st = .hello → (s.rlyPort p).helloAt + 400000 ≤ s.stride →
    (s.rlyPort p).ownHello = some h →
    ∃ t, exec (.helloRepeat p) s = .next t ∧ t.rlyPort p = { s.rlyPort p with
        ownHello := some (s.helloOf p h.chal), helloAt := s.stride,
        tx := min (2 ^ 64 - 1) ((s.rlyPort p).tx + frameCount 1 [] (helloBytes (s.helloOf p h.chal))) } ∧
      t.out = s.out ++ [.relay {
        port := p, dest := s.peerAddr p, type := 1, words := [], body := helloBytes (s.helloOf p h.chal)
        head := { version := (s.rlyPort p).version, clear := true, bcast := false, hops := 32, src := s.fieldAddr, keyId := 0, nonce := none }
        frames := s.framesOn p (s.frameHead p 1) 1 (s.peerAddr p) s.rly.nextMsg (helloBytes (s.helloOf p h.chal)) }]) ∧
  (∀ s : State, s.relayRuns = true → s.rly.join = .joined → s.rly.sumAt + 400000 ≤ s.stride →
    ∃ t, exec .summarySend s = .next t ∧ t.rly.sumSeq = s.rly.sumSeq + 1 ∧ t.rly.sumAt = s.stride ∧
      t = s.upPorts.foldl (fun u p => u.sendLink p 6 [] (s.ownRecord ++ leBytes 8 (s.rly.sumSeq + 1) ++
          (List.range 4).flatMap (fun p => leBytes 2 (s.peerAddr p) ++ leBytes 1 (s.rlyPort p).st.code ++ leBytes 1 0)))
        (s.setRly { s.rly with sumSeq := s.rly.sumSeq + 1, sumAt := s.stride })) ∧
  (∀ (s : State) (p : Nat) (h : HelloMsg), s.linked p → (s.rlyPort p).st = .hello → h.floor ≤ s.rly.floor →
    s.rosterSeq ≤ h.rosterSeq → s.helloCause h = none → h.addr ≤ s.fieldAddr →
    ∃ t, exec (.hello p h) s = .next t ∧ t.rlyPort p = { s.rlyPort p with
      st := .keying, version := min h.vMax s.relayMax, peer := some h, rx := min (2 ^ 64 - 1) ((s.rlyPort p).rx + 1), lastRx := s.stride }) ∧
  (∀ (s : State) (p : Nat) (h : HelloMsg), s.linked p → (s.rlyPort p).st = .hello → h.floor ≤ s.rly.floor →
    s.rosterSeq ≤ h.rosterSeq → ∀ cause : Nat, s.helloCause h = some cause →
    ∃ t, exec (.hello p h) s = .next t ∧ t.rlyPort p = { s.rlyPort p with
      cause := cause, peer := some h, rx := min (2 ^ 64 - 1) ((s.rlyPort p).rx + 1), lastRx := s.stride }) ∧
  (∀ (s u : State) (p : Nat) (m : LinkMsg), s.linked p → (s.rlyPort p).st = .keying → u = s.tookFrame p → s.offers p = false →
    (u.linkAuth p m = false → exec (.linkOffer p m) s = .next (State.ev (u.modRly p (fun x => { x with st := .hello, cause := 0xC9, helloAt := u.stride })) 0x2B01 noSlice (item 1 p))) ∧
    (u.linkAuth p m = true → ∀ (d : Bytes × State) (e : Bytes × Bytes), d = u.drawBytes 32 →
      e = Config.kemEncap (padTo 1568 m.body) d.1 →
      exec (.linkOffer p m) s = .next (State.linkJob (d.2.modRly p (fun x => { x with pendKey := d.2.linkKeyOf p e.2 })) p 3
        (padTo 1568 e.1)))) ∧
  (∀ (s u : State) (p : Nat) (m : LinkMsg), s.linked p → (s.rlyPort p).st = .keying → u = s.tookFrame p → s.offers p = true →
    (u.linkAuth p m = false → exec (.linkAnswer p m) s = .next (State.ev (u.modRly p (fun x => { x with st := .hello, cause := 0xC9, helloAt := u.stride })) 0x2B01 noSlice (item 1 p))) ∧
    (u.linkAuth p m = true → ∀ key : Bytes, key = u.linkKeyOf p (Config.kemDecap (u.rlyPort p).offerPair (padTo 1568 m.body)) →
      exec (.linkAnswer p m) s = .next (u.linkUpNow p key) ∧
      ((u.linkUpNow p key).rlyPort p).st = .up ∧ ((u.linkUpNow p key).rlyPort p).linkKey = key)) ∧
  (∀ (s : State) (p : Nat), p < 4 → s.relayRuns = true → s.portEnabled p = true →
    ((s.rlyPort p).tagLap ≠ some s.lap → exec (.relayFrameDiscard p .tag) s = .next (State.ev (s.modRly p (fun x => { x with
      tagFails := min (2 ^ 64 - 1) (x.tagFails + 1), tagLap := some s.lap })) 0x2B00 noSlice (item 1 p))) ∧
    ((s.rlyPort p).tagLap = some s.lap → exec (.relayFrameDiscard p .tag) s = .next (s.modRly p (fun x => { x with
      tagFails := min (2 ^ 64 - 1) (x.tagFails + 1), tagLap := some s.lap }))) ∧
    exec (.relayFrameDiscard p .nonce) s = .next (State.ev (s.modRly p (fun x => { x with
      drops := min (2 ^ 64 - 1) (x.drops + 1) })) 0x2B03 noSlice (item 1 p)) ∧
    ∀ why, why ∈ [FrameDrop.address, .etherType, .type, .hops] → exec (.relayFrameDiscard p why) s = .next (s.modRly p (fun x => { x with
      drops := min (2 ^ 64 - 1) (x.drops + 1) })))

/-- A field key of lower head, or of the same head and later epoch, is installed, the same one acknowledged, another
ignored. PACE gives the delay of a whole exchange; a later SUMMARY replaces its member's record and no other. A
roster that verifies is taken, and one that does not gives its code; a message past its time is sent again; a peer
declared lost has no message waiting. LOAD_ROSTER, REKEY, DUMP_FIELD and SET_TIME act or give their results (0xCA,
0xCC, 0xCD, 0xCE); the clause on a new key gives its head, epoch and value. A PPS edge is kept, counts when it is in
bounds, and marks the reference bad otherwise. (15_relay_and_field.md.) -/
def Obligations.FieldCommands : Prop :=
  (∀ (s u : State) (p : Nat) (head epoch : Nat) (key : Bytes), s.linked p → (s.rlyPort p).st = .up → u = (s.tookFrame p).modRly p (fun x => { x with repHead := some head }) →
    (s.rly.key = none → exec (.fieldKey p head epoch key) s = .next (u.installFieldKey { head := head, epoch := epoch, value := padTo 32 key } (some p))) ∧
    ∀ k, s.rly.key = some k →
      (head < k.head ∨ (head = k.head ∧ epoch ≠ k.epoch ∧ (epoch + 65536 - k.epoch) % 65536 < 32768) →
        exec (.fieldKey p head epoch key) s = .next (u.installFieldKey { head := head, epoch := epoch, value := padTo 32 key } (some p))) ∧
      (k = { head := head, epoch := epoch, value := padTo 32 key } → exec (.fieldKey p head epoch key) s = .next (u.modRly p (fun x => { x with keyAcked := true }))) ∧
      (k.head < head → u.headStands k.head = true → exec (.fieldKey p head epoch key) s = .next u) ∧
      (head ≠ k.head → u.headStands k.head = false →
        exec (.fieldKey p head epoch key) s = .next (u.installFieldKey { head := head, epoch := epoch, value := padTo 32 key } (some p)))) ∧
  (∀ (s : State) (p : Nat) (m : PaceMsg), s.linked p → (s.rlyPort p).st = .up → s.keyKnown m.keyId = false →
    exec (.pace p m) s = .next (s.frameDiscard p .tag)) ∧
  (∀ (s : State) (p : Nat) (m : SummaryMsg), s.linked p → (s.rlyPort p).st = .up → s.keyKnown m.keyId = false →
    exec (.summary p m) s = .next (s.frameDiscard p .tag)) ∧
  (∀ (s : State) (p : Nat) (m : PaceMsg), s.linked p → (s.rlyPort p).st = .up → s.keyKnown m.keyId = true →
    ∃ t, exec (.pace p m) s = .next t ∧ (t.rlyPort p).got = some (m.seq, m.rxAt) ∧
      (t.rlyPort p).rx = min (2 ^ 64 - 1) ((s.rlyPort p).rx + 1) ∧ (t.rlyPort p).lastRx = s.stride ∧
      (∀ g q, (s.rlyPort p).got = some g → (s.rlyPort p).sent.find? (fun q => q.1 = m.rxSeq) = some q → (g.1 + 1) % 2 ^ 32 = m.seq →
        (t.rlyPort p).exch = some { t1 := m.txPrev, t2 := g.2, t3 := q.2, t4 := m.rxLast } ∧
        (t.rlyPort p).delayPs = (((g.2 - m.txPrev) + (m.rxLast - q.2)) * 1000).tdiv 2) ∧
      ((s.rlyPort p).got = none → (t.rlyPort p).exch = (s.rlyPort p).exch ∧ (t.rlyPort p).delayPs = (s.rlyPort p).delayPs)) ∧
  (∀ (s : State) (p : Nat) (m : SummaryMsg), s.linked p → (s.rlyPort p).st = .up → s.keyKnown m.keyId = true → m.floor ≤ s.rly.floor →
    (∀ o, tget s.rly.members m.src = some o → o.sumSeq < m.sumSeq) → m.src ≠ s.fieldAddr → (tget s.rosterEnts m.src).isSome = true →
    ∃ t, exec (.summary p m) s = .next t ∧ tget t.rly.members m.src = some {
        sumSeq := m.sumSeq, vMax := m.vMax, flags := m.flags
        timeState := m.timeState, events := m.events, nbrs := m.nbrs, heard := s.stride } ∧
      ∀ a, a ≠ m.src → tget t.rly.members a = tget s.rly.members a) ∧
  (∀ (s u : State) (p : Nat) (bs : Bytes) (h : HelloMsg), s.linked p → (s.rlyPort p).st ≠ .disabled → (s.rlyPort p).st ≠ .down → u = s.tookFrame p →
    (s.rlyPort p).peer = some h → (s.rosterSeq < h.rosterSeq ∨ s.dur.roster = none) →
    (s.rosterRefused bs = none → exec (.roster p bs) s = .next (u.takeRoster bs)) ∧
    (∀ c, s.rosterRefused bs = some c → exec (.roster p bs) s = .next (u.ev 0x2B02 noSlice (item 1 c)))) ∧
  (∀ (s : State) (id : Nat) (m : Awaited), s.rly.msgs.find? (fun m => m.id = id && decide (m.last + s.retxStrides ≤ s.stride)) = some m →
    ∃ t, exec (.retransmitTimeout id) s = .next t ∧
      t.rly.msgs = s.rly.msgs.map (fun x => if x.id = id then { x with last := s.stride } else x) ∧
      (∀ r, tget s.rly.routes m.dest = some r →
        t.out = s.out ++ [.relay {
          port := r.port, dest := m.dest, type := m.type, words := m.id :: m.words, body := m.body, head := s.frameHead r.port m.type
          frames := s.framesOn r.port (s.frameHead r.port m.type) m.type m.dest m.id (payload m.type m.words m.body) }] ∧
        t.rlyPort r.port = { s.rlyPort r.port with
          retx := min (2 ^ 64 - 1) ((s.rlyPort r.port).retx + 1)
          tx := min (2 ^ 64 - 1) ((s.rlyPort r.port).tx + frameCount m.type m.words m.body)
          linkNonce := if m.type = 4 then (s.rlyPort r.port).linkNonce + frameCount m.type m.words m.body else (s.rlyPort r.port).linkNonce }) ∧
      (tget s.rly.routes m.dest = none → t.out = s.out ∧ t.rly.ports = s.rly.ports)) ∧
  (∀ (s : State) (addr : Nat) (cause : BitVec 8), s.relayRuns = true →
    (cause = 0xC0 ∧ 4 ≤ tgetD s.rly.noRoute addr 0) ∨
      (cause = 0xC1 ∧ ∃ m ∈ s.rly.msgs, m.dest = addr ∧ m.first + s.lossLaps * 4000 ≤ s.stride) →
    exec (.peerDeclaredLost addr cause) s = .next (s.peerLost addr cause.toNat) ∧
    ∀ m ∈ (s.peerLost addr cause.toNat).rly.msgs, m.dest ≠ addr) ∧
  (∀ (s : State) (q : Requester) (d : Fetch), s.up → s.honours q → s.hasField = true →
    (s.rwNat 0x1400810 = 0 → exec (.loadRoster q d) s = .next ((s.rlyResult 0xCA).ev 0x2B02 noSlice (item 1 0xCA))) ∧
    (s.rwNat 0x1400810 ≠ 0 →
      (∀ n, d = .failAt n → exec (.loadRoster q d) s = .next (s.rlyResult 0xCC)) ∧
      ∀ bs img, d = .ok bs → img = padTo (s.rwNat 0x1400810) bs →
        (∀ c, s.rosterRefused img = some c → exec (.loadRoster q d) s = .next ((s.rlyResult c).ev 0x2B02 noSlice (item 1 c))) ∧
        (s.rosterRefused img = none → exec (.loadRoster q d) s = .next ((s.rlyResult 0).takeRoster img)))) ∧
  (∀ (s : State) (q : Requester), s.up → s.honours q → s.hasField = true → 
    (s.rly.join = .joined → s.rly.keyHead = some s.fieldAddr → exec (.rekey q) s = .next ((s.rlyResult 0).newFieldKey)) ∧
    ((s.rly.join ≠ .joined ∨ s.rly.keyHead ≠ some s.fieldAddr) → exec (.rekey q) s = .next (s.rlyResult 0xCE)) ∧
    ∀ (d : Bytes × State) (e : Nat), d = s.drawBytes 32 → e = (match s.rly.key with
        | some k => (k.epoch + 1) % 65536
        | none => 1) →
      (s.newFieldKey).rly.key = some { head := s.fieldAddr, epoch := e, value := padTo 32 d.1 } ∧ (s.newFieldKey).rly.prevKey = d.2.rly.key) ∧
  (∀ (s : State) (q : Requester) (ok : Bool), s.up → s.honours q → s.hasField = true →
    (s.rwNat 0x1400810 < 32 * s.rosterEnts.length → exec (.dumpField q ok) s = .next (s.rlyResult 0xCD)) ∧
    (32 * s.rosterEnts.length ≤ s.rwNat 0x1400810 → ok = false → exec (.dumpField q ok) s = .next (s.rlyResult 0xCC)) ∧
    (32 * s.rosterEnts.length ≤ s.rwNat 0x1400810 → ok = true → exec (.dumpField q ok) s = .next ((s.emit
      (.hostWrite none (s.rwNat 0x1400808 / 8 * 8) (s.rosterEnts.flatMap (fun e => s.dumpRecord e.1 e.2)))).rlyResult 0))) ∧
  (∀ (s : State) (q : Requester), s.up → s.honours q → s.hasField = true → 
    (s.rly.time.st = .head → exec (.setTime q) s = .next ((s.setTime { s.rly.time with
      setTo := some (natBits (s.rwNat 0x1400850) 33 0) }).rlyResult 0)) ∧
    (s.rly.time.st ≠ .head → exec (.setTime q) s = .next (s.rlyResult 0xCE))) ∧
  (∀ (s : State) (ft : Int) (cycles : Nat), s.hasField = true → s.rly.time.setTo = none →
    (s.rly.time.ppsAt = none → exec (.ppsEdge ft cycles) s = .next (s.setTime { s.rly.time with
      ppsAt := some ft, ppsPs := ((ft + 500000000) % 1000000000 - 500000000) * 1000, ppsRun := 0, refRun := 0 })) ∧
    (∀ a, s.rly.time.ppsAt = some a → 999999900 ≤ ft - a → ft - a ≤ 1000000100 → 9999999 ≤ cycles → cycles ≤ 10000001 →
      exec (.ppsEdge ft cycles) s = .next (s.setTime { s.rly.time with
        ppsAt := some ft, ppsPs := ((ft + 500000000) % 1000000000 - 500000000) * 1000
        ppsRun := s.rly.time.ppsRun + 1, refRun := s.rly.time.refRun + 1 })) ∧
    (∀ a, s.rly.time.ppsAt = some a → (ft - a < 999999900 ∨ 1000000100 < ft - a ∨ cycles < 9999999 ∨ 10000001 < cycles) →
      exec (.ppsEdge ft cycles) s = .next (s.setTime { s.rly.time with
        ppsAt := some ft, ppsPs := ((ft + 500000000) % 1000000000 - 500000000) * 1000, ppsBad := true, ppsRun := 0, refRun := 0 })))

/-- A request for a slice that is not its partner is refused; one answered before gets its answer again; one applied
before is dropped; the next in PAIR_SEQ is applied and a later one held. An acknowledgement completes the post that
waits for it, a copy is counted in the resynchronisation, and a refusal unpairs. PAIR_CONFIRM is refused, answered
again, or taken with the sequence to expect; the primary sends it at most every ten laps. ACK settles its message,
and a refusal of a migration message ends the migration. (15_relay_and_field.md,
05_write_buffer_and_ledger_posts.md.) -/
def Obligations.PairingCommands : Prop :=
  (∀ (s u : State) (src msg : Nat) (m : PostMsg) (i : Instr) (p : Pairing), s.routed → u = s.tookFrom src → p = (u.slice m.partner).pairing →
    i = .postReq src msg m ∨ i = .resync src msg m →
    (∀ c, u.mirrorBad src m.primary m.partner = some c → exec i s = .next (u.sendReply src 0x11 [m.primary, m.pairSeq, c, 0, 0])) ∧
    (u.mirrorBad src m.primary m.partner = none →
      (∀ a, p.answers.find? (fun a => a.1 = m.pairSeq) = some a →
        exec i s = .next (u.sendReply src 0x11 [m.primary, m.pairSeq, a.2.1, a.2.2.stride, a.2.2.seq])) ∧
      (p.answers.find? (fun a => a.1 = m.pairSeq) = none →
        (m.pairSeq ≤ p.lastIn → exec i s = .next u) ∧
        (m.pairSeq = p.lastIn + 1 → p.inbox = [] → exec i s = .next (u.applyPost src m)) ∧
        (p.lastIn + 1 < m.pairSeq → p.inbox.any (fun q => q.1 = m.pairSeq) = false →
          exec i s = .next (u.modPairing m.partner (fun q => { q with inbox := q.inbox ++ [(m.pairSeq, m)] })))))) ∧
  (∀ (s u v : State) (src n seq : Nat) (cause : BitVec 8) (w : PairWait), s.routed → n < 512 → u = s.tookFrom src →
    (u.slice n).pairing.waits.find? (fun w => w.addr = src && w.pairSeq = seq) = some w →
    v = State.modPairing (u.settle (fun m => m.dest = src && (m.type = 0x10 || m.type = 0x12) && m.words.getD 0 0 = seq &&
        m.words.getD 3 512 = n && m.words.getD 4 512 = w.partner)) n (fun q => { q with waits := q.waits.filter (fun v => decide (v ≠ w)) }) →
    (cause ≠ 0 → exec (.postAck src n seq cause) s = .next (u.unpair n src cause.toNat (some w.old))) ∧
    (cause = 0 → ∀ c, w.cmd = some c → exec (.postAck src n seq cause) s = .next (v.finish c .success)) ∧
    (cause = 0 → w.cmd = none → (u.slice n).pairing.state = .resyncing → w.old = false →
      exec (.postAck src n seq cause) s = .next (v.copyAcked n w))) ∧
  (∀ (s u : State) (src msg next primary partner : Nat), s.routed → u = s.tookFrom src →
    (∀ c, u.mirrorBad src primary partner = some c →
      exec (.pairConfirm src msg next primary partner) s = .next (u.sendReply src 0x11 [primary, next, c, 0, 0])) ∧
    (u.mirrorBad src primary partner = none → u.acted src msg = true →
      exec (.pairConfirm src msg next primary partner) s = .next (u.sendReply src 0x11 [primary, next, 0, 0, 0])) ∧
    (u.mirrorBad src primary partner = none → u.acted src msg = false →
      exec (.pairConfirm src msg next primary partner) s = .next (State.sendReply ((u.noteSeen src msg).modPairing partner (fun q => { q with
        lastIn := next - 1, inbox := [], answers := [] })) src 0x11 [primary, next, 0, 0, 0]))) ∧
  (∀ (s : State) (n : Nat), n < 512 → s.relayRuns = true → (s.slice n).pairing.state = .unpaired → s.pairRole n = 1 →
    (∀ l, (s.slice n).pairing.confirmLap = some l → l + 10 ≤ s.lap) → (tget s.rly.routes (s.pairAddr n)).isSome = true →
    exec (.pairConfirmSend n) s = .next (State.sendRouted (State.modPairing (s.settle (fun m => m.type = 0x13 && m.words.getD 1 512 = n)) n
      (fun q => { q with confirmLap := some s.lap })) (s.pairAddr n) 0x13 [(s.slice n).pairing.seq, n, s.pairSlice n])) ∧
  (∀ (s u : State) (src id : Nat) (result : BitVec 8) (m : Awaited), s.routed → u = s.tookFrom src →
    u.rly.msgs.find? (fun m => m.id = id && m.dest = src) = some m →
    (result = 0 ∨ m.type = 0x28 ∨ (u.rly.migOut.find? (fun o => o.slice = m.words.getD 0 512 && o.peer = src && !o.committed)) = none →
      exec (.ack src id result) s = .next (u.settle (fun q => q.id = id))) ∧
    (∀ o, result ≠ 0 → m.type ≠ 0x28 → u.rly.migOut.find? (fun o => o.slice = m.words.getD 0 512 && o.peer = src && !o.committed) = some o →
      exec (.ack src id result) s = .next ((u.settle (fun q => q.id = id)).outFails o)))

/-- An offer to a slice that receives from that peer is accepted, again if it came before, and refused otherwise; a
reply begins the migration, or ends it with 0xAC. A baton is kept, or aborts with its cause where its tag, room or
formats fail; data is kept in order; a repeated message is only acknowledged. A commit whose count and digest agree
is taken, any other aborts, and one past is answered. MIG_COMMITTED destroys the source with 0xAE and event 0x0307;
MIG_ERASED ends the destination's record; its acknowledgement ends the source's; an abort ends the side that has not
committed. (15_relay_and_field.md, 03_slices.md.) -/
def Obligations.MigrationCommands : Prop :=
  (∀ (s u : State) (src msg : Nat) (m : MigIds) (len blocks : Nat), s.routed → u = s.tookFrom src →
    ((u.slice m.dstSlice).st = .receiving → (u.slice m.dstSlice).peerAddr = src → (u.slice m.dstSlice).peerSlice = m.srcSlice → u.migIn? src m = none →
      exec (.migOffer src msg m len blocks) s = .next (State.sendReply (u.setRly { u.rly with
        migIn := { slice := m.dstSlice, peer := src, peerSlice := m.srcSlice, serial := m.serial } ::
          u.rly.migIn.filter (fun j => decide (j.slice ≠ m.dstSlice)) }) src 0x21 [m.srcSlice, 0, m.serial])) ∧
    ((u.slice m.dstSlice).st = .receiving → (u.slice m.dstSlice).peerAddr = src → (u.slice m.dstSlice).peerSlice = m.srcSlice → (u.migIn? src m).isSome = true →
      exec (.migOffer src msg m len blocks) s = .next (u.sendReply src 0x21 [m.srcSlice, 0, m.serial])) ∧
    ((u.slice m.dstSlice).st ≠ .receiving ∨ (u.slice m.dstSlice).peerAddr ≠ src ∨ (u.slice m.dstSlice).peerSlice ≠ m.srcSlice →
      exec (.migOffer src msg m len blocks) s = .next (u.sendReply src 0x21 [m.srcSlice, 0xC3, m.serial]))) ∧
  (∀ (s u v : State) (src n serial : Nat) (cause : BitVec 8) (m : MigOut) (p : SlcPending), s.routed → n < 512 → u = s.tookFrom src →
    u.rly.migOut.find? (fun m => m.slice = n && m.peer = src && m.serial = serial && !m.accepted) = some m → u.slc.op = some p →
    p.op = .migrate → p.slice = n → v = u.settle (fun q => q.dest = src && q.type = 0x20) →
    (cause ≠ 0 → exec (.migReply src n cause serial) s = .next ((v.dropOut n).slcRefuse p (0xAC, none))) ∧
    (cause = 0 → exec (.migReply src n cause serial) s = .next (State.migTick (State.modOut
      (((v.slcAccept p).setSerial n { serial := serial, live := false }).modSlice n
        (fun x => { x with st := .migrating, peerAddr := src, peerSlice := m.peerSlice })) n (fun o => { o with accepted := true }))))) ∧
  (∀ (s u : State) (src msg : Nat) (m : MigIds) (i : MigIn) (b : MigImage), s.routed → u = s.tookFrom src → u.migIn? src m = some i →
    (u.acted src msg = true → exec (.migBaton src msg m b) s = .next (u.sendAck src msg 0x22 0)) ∧
    (u.acted src msg = false → b.tagOk = false →
      exec (.migBaton src msg m b) s = .next ((u.noteSeen src msg).migAborts i 0xC9 0xA9)) ∧
    (u.acted src msg = false → b.tagOk = true → (u.migFits b = false ∨ ∃ n ∈ b.namespaces, 4 < n.lbaf) →
      exec (.migBaton src msg m b) s = .next ((u.noteSeen src msg).migAborts i 0xC4 0xA5)) ∧
    (u.acted src msg = false → b.tagOk = true → u.migFits b = true → (∀ n ∈ b.namespaces, n.lbaf ≤ 4) →
      exec (.migBaton src msg m b) s = .next (((u.noteSeen src msg).modIn i.slice (fun i => { i with baton := some b })).sendAck src msg 0x22 0))) ∧
  (∀ (s u : State) (src msg : Nat) (m : MigIds) (i : MigIn) (r : MigRun), s.routed → u = s.tookFrom src → u.migIn? src m = some i →
    (u.acted src msg = true → exec (.migData src msg m r) s = .next (u.sendAck src msg 0x23 0)) ∧
    (u.acted src msg = false → exec (.migData src msg m r) s = .next (State.sendAck ((u.noteSeen src msg).modIn i.slice
      (fun i => State.putRun i msg r)) src msg 0x23 0)) ∧
    ((∀ k ∈ i.ids, k < msg) → i.ids.length = i.runs.length → (State.putRun i msg r).runs = i.runs ++ [r])) ∧
  (∀ (s u : State) (src msg : Nat) (m : MigIds) (i : MigIn) (count : Nat) (digest : Bytes) (ok : Bool), s.routed → u = s.tookFrom src → u.migIn? src m = some i →
    
    ok = (i.baton.isSome && count = i.runs.length && padTo 32 digest = padTo 32 (Config.sha3_256 (i.runs.flatMap State.migPayload))) →
    (i.committed = true → exec (.migCommit src msg m count digest) s = .next (u.sendRouted src 0x25 [m.srcSlice, m.dstSlice, m.serial])) ∧
    (i.committed = false → ok = true → exec (.migCommit src msg m count digest) s = .next (u.modIn i.slice (fun i => { i with commit := true }))) ∧
    (i.committed = false → ok = false → exec (.migCommit src msg m count digest) s = .next (u.migAborts i 0xC4 0xAD))) ∧
  (∀ (s u v : State) (src : Nat) (m : MigIds) (o : MigOut), s.routed → u = s.tookFrom src →
    u.rly.migOut.find? (fun o => o.slice = m.srcSlice && o.peer = src && o.serial = m.serial) = some o →
    v = u.settle (fun q => q.dest = src && decide (0x20 ≤ q.type) && decide (q.type ≤ 0x24) && q.words.getD 0 512 = o.slice) →
    (o.committed = true → exec (.migCommitted src m) s = .next (u.sendRouted src 0x26 [m.srcSlice, m.dstSlice, m.serial])) ∧
    (o.committed = false → exec (.migCommitted src m) s = .next (State.sendRouted (State.modOut
      ((((v.beginDestroy o.slice).setSerial o.slice (v.serialOf o.slice)).modSlice o.slice (fun x => { x with lastResult := 0xAE })).ev 0x0307 o.slice)
      o.slice (fun o => { o with committed := true })) src 0x26 [m.srcSlice, m.dstSlice, m.serial]))) ∧
  (∀ (s u : State) (src msg : Nat) (m : MigIds), s.routed → u = s.tookFrom src →
    (∀ i, u.migIn? src m = some i → i.committed = true → exec (.migErased src msg m) s = .next (State.sendReply
      (((u.settle (fun q => q.dest = src && q.type = 0x25 && q.words.getD 1 512 = i.slice)).dropIn i.slice).modSlice i.slice
        (fun x => { x with sourceLive := false })) src 0x27 [m.srcSlice, m.dstSlice, m.serial])) ∧
    ((∀ i, u.migIn? src m = some i → i.committed = false) →
      exec (.migErased src msg m) s = .next (u.sendReply src 0x27 [m.srcSlice, m.dstSlice, m.serial]))) ∧
  (∀ (s u : State) (src : Nat) (m : MigIds), s.routed → u = s.tookFrom src →
    (∀ o, u.rly.migOut.find? (fun o => o.slice = m.srcSlice && o.peer = src && o.serial = m.serial && o.committed) = some o →
      exec (.migErasedAck src m) s = .next (((u.settle (fun q => q.dest = src && q.type = 0x26 && q.words.getD 0 512 = o.slice)).dropOut o.slice).modSlice
        o.slice (fun x => { x with lastResult := 0 }))) ∧
    (u.rly.migOut.find? (fun o => o.slice = m.srcSlice && o.peer = src && o.serial = m.serial && o.committed) = none → exec (.migErasedAck src m) s = .next u)) ∧
  (∀ (s u v : State) (src msg : Nat) (m : MigIds) (cause : BitVec 8), s.routed → u = s.tookFrom src → v = u.noteSeen src msg →
    (u.acted src msg = true → exec (.migAbort src msg m cause) s = .next (u.sendAck src msg 0x28 0)) ∧
    (u.acted src msg = false → ∀ o, u.rly.migOut.find? (fun o => o.slice = m.srcSlice && o.peer = src && o.serial = m.serial && !o.committed) = some o →
      exec (.migAbort src msg m cause) s = .next ((v.outFails o).sendAck src msg 0x28 0)) ∧
    (u.acted src msg = false → u.rly.migOut.find? (fun o => o.slice = m.srcSlice && o.peer = src && o.serial = m.serial && !o.committed) = none →
      ∀ i, u.migIn? src m = some i → i.committed = false →
      exec (.migAbort src msg m cause) s = .next ((v.receiveEnds i.slice 0xAD).sendAck src msg 0x28 0)))
end

