-- ==== Sys2Proof/Laws/Exec.lean ====
section
/-! SUPPORT. Which units a command may name: a command on a unit that exists goes on, any other stops. -/

namespace Sys2Proof.Machine

theorem onSlice_of {n : Nat} (h : n < 512) (s : State) : onSlice n s = .next s := if_pos h
theorem onPort_of {p : Nat} (h : p < 2) (s : State) : onPort p s = .next s := if_pos h
theorem onCore_of {c : Nat} (h : c < 72) (s : State) : onCore c s = .next s := if_pos h
theorem onChannel_of {c : Nat} (h : c < 32) (s : State) : onChannel c s = .next s := if_pos h
theorem onDie_of {d : Nat} (h : d < 512) (s : State) : onDie d s = .next s := if_pos h
theorem onRelayPort_of {p : Nat} (h : p < 4) (s : State) : onRelayPort p s = .next s := if_pos h
theorem onUnit_of {n k : Nat} (h : k < n) (s : State) : onUnit n k s = .next s := if_pos h
theorem onPortSlice_of {p n : Nat} (h : p < 2) (k : n < 512) (s : State) : onPortSlice p n s = .next s := by
  rw [onPortSlice, if_pos h, onSlice_of k]

theorem onSlice_next {n : Nat} {s t : State} (h : onSlice n s = .next t) : t = s := by
  unfold onSlice at h; split at h <;> cases h; rfl
theorem onPort_next {n : Nat} {s t : State} (h : onPort n s = .next t) : t = s := by
  unfold onPort at h; split at h <;> cases h; rfl
theorem onCore_next {n : Nat} {s t : State} (h : onCore n s = .next t) : t = s := by
  unfold onCore at h; split at h <;> cases h; rfl
theorem onChannel_next {n : Nat} {s t : State} (h : onChannel n s = .next t) : t = s := by
  unfold onChannel at h; split at h <;> cases h; rfl
theorem onDie_next {n : Nat} {s t : State} (h : onDie n s = .next t) : t = s := by
  unfold onDie at h; split at h <;> cases h; rfl
theorem onRelayPort_next {n : Nat} {s t : State} (h : onRelayPort n s = .next t) : t = s := by
  unfold onRelayPort at h; split at h <;> cases h; rfl
theorem onUnit_next {n k : Nat} {s t : State} (h : onUnit n k s = .next t) : t = s := by
  unfold onUnit at h; split at h <;> cases h; rfl
theorem onPortSlice_next {p n : Nat} {s t : State} (h : onPortSlice p n s = .next t) : t = s := by
  unfold onPortSlice at h; split at h
  · exact onSlice_next h
  · cases h
theorem byReq_next {q : Requester} {s t : State} (h : byReq q s = .next t) : t = s := by
  cases q with
  | port p => exact onPort_next h
  | core c => exact onCore_next h
  | smbus => cases h; rfl
theorem byReqSlice_next {q : Requester} {n : Nat} {s t : State} (h : byReqSlice q n s = .next t) : t = s := by
  cases q with
  | port p => exact onPortSlice_next h
  | core c => simp only [byReqSlice] at h; split at h
              · exact onSlice_next h
              · cases h
  | smbus => exact onSlice_next h
theorem byReqChannel_next {q : Requester} {n : Nat} {s t : State} (h : byReqChannel q n s = .next t) : t = s := by
  cases q with
  | port p => simp only [byReqChannel] at h; split at h
              · exact onChannel_next h
              · cases h
  | core c => simp only [byReqChannel] at h; split at h
              · exact onChannel_next h
              · cases h
  | smbus => exact onChannel_next h
theorem onSet_next {q : EvrSet} {s t : State} (h : onSet q s = .next t) : t = s := by
  cases q with
  | own n => exact onSlice_next h
  | mirror n => exact onSlice_next h
  | bar0 => cases h; rfl
  | smbus => cases h; rfl
theorem onRecorder_next {q : Option Nat} {s t : State} (h : onRecorder q s = .next t) : t = s := by
  cases q with
  | some n => exact onSlice_next h
  | none => cases h; rfl

end Sys2Proof.Machine
end

