-- ==== Sys2Proof/Laws/Memory.lean ====
section
/-! SUPPORT. Memory: every operation keeps the canonical form, a byte reads as what was last stored, and a store
leaves every other byte as it was. -/

namespace Sys2Proof.Machine

theorem Memory.wfFrom_mono {lo lo' : Nat} (h : lo' ≤ lo) {m : List Host.Cell} (w : Memory.wfFrom lo m = true) :
    Memory.wfFrom lo' m = true := by
  cases m with
  | nil => rfl
  | cons c t =>
    simp only [Memory.wfFrom, Bool.and_eq_true, decide_eq_true_eq] at w ⊢
    exact ⟨⟨Nat.le_trans h w.1.1, w.1.2⟩, w.2⟩

theorem mset_wfFrom {m : List Host.Cell} {lo a : Nat} {v : BitVec 8} (h : lo ≤ a)
    (w : Memory.wfFrom lo m = true) : Memory.wfFrom lo (mset m a v) = true := by
  induction m generalizing lo with
  | nil =>
    unfold mset
    split
    · rfl
    · rename_i hv
      simp only [Memory.wfFrom, Bool.and_eq_true, decide_eq_true_eq]
      exact ⟨⟨h, hv⟩, trivial⟩
  | cons c t ih =>
    obtain ⟨b, x⟩ := c
    simp only [Memory.wfFrom, Bool.and_eq_true, decide_eq_true_eq] at w
    obtain ⟨⟨hb, hx⟩, ht⟩ := w
    unfold mset
    split
    · split
      · simp only [Memory.wfFrom, Bool.and_eq_true, decide_eq_true_eq]
        exact ⟨⟨hb, hx⟩, ht⟩
      · rename_i hab hv
        simp only [Memory.wfFrom, Bool.and_eq_true, decide_eq_true_eq]
        exact ⟨⟨h, hv⟩, ⟨by omega, hx⟩, ht⟩
    · split
      · split
        · exact Memory.wfFrom_mono (by omega) ht
        · rename_i hab hv
          subst hab
          simp only [Memory.wfFrom, Bool.and_eq_true, decide_eq_true_eq]
          exact ⟨⟨h, hv⟩, ht⟩
      · simp only [Memory.wfFrom, Bool.and_eq_true, decide_eq_true_eq]
        exact ⟨⟨hb, hx⟩, ih (by omega) ht⟩

/-- A store keeps the canonical form. -/
theorem mset_wf {m : List Host.Cell} (a : Nat) (v : BitVec 8) (w : Memory.wf m = true) :
    Memory.wf (mset m a v) = true := mset_wfFrom (Nat.zero_le a) w

/-- Stores of a string of bytes keep the canonical form. -/
theorem mwrite_wf {m : List Host.Cell} (a : Nat) (bs : Bytes) (w : Memory.wf m = true) :
    Memory.wf (mwrite m a bs) = true := by
  induction bs generalizing m a with
  | nil => exact w
  | cons b t ih => exact ih (a + 1) (mset_wf a b w)

theorem filter_wfFrom {m : List Host.Cell} {lo : Nat} (p : Host.Cell → Bool) (w : Memory.wfFrom lo m = true) :
    Memory.wfFrom lo (m.filter p) = true := by
  induction m generalizing lo with
  | nil => rfl
  | cons c t ih =>
    obtain ⟨b, x⟩ := c
    simp only [Memory.wfFrom, Bool.and_eq_true, decide_eq_true_eq] at w
    obtain ⟨⟨hb, hx⟩, ht⟩ := w
    rw [List.filter_cons]
    split
    · simp only [Memory.wfFrom, Bool.and_eq_true, decide_eq_true_eq]
      exact ⟨⟨hb, hx⟩, ih ht⟩
    · exact Memory.wfFrom_mono (by omega) (ih ht)

/-- Dropping cells keeps the canonical form. -/
theorem filter_wf {m : List Host.Cell} (p : Host.Cell → Bool) (w : Memory.wf m = true) :
    Memory.wf (m.filter p) = true := filter_wfFrom p w

/-- Clearing a range keeps the canonical form. -/
theorem mclear_wf {m : List Host.Cell} (lo hi : Nat) (w : Memory.wf m = true) : Memory.wf (mclear m lo hi) = true :=
  filter_wf _ w

theorem mget_of_lt {m : List Host.Cell} {lo a : Nat} (h : a < lo) (w : Memory.wfFrom lo m = true) : mget m a = 0 := by
  induction m generalizing lo with
  | nil => rfl
  | cons c t ih =>
    obtain ⟨b, x⟩ := c
    simp only [Memory.wfFrom, Bool.and_eq_true, decide_eq_true_eq] at w
    simp only [mget]
    rw [if_neg (by omega)]
    exact ih (by omega) w.2

theorem mget_mset_same {m : List Host.Cell} {lo a : Nat} {v : BitVec 8} (w : Memory.wfFrom lo m = true) :
    mget (mset m a v) a = v := by
  induction m generalizing lo with
  | nil =>
    unfold mset
    split
    · rename_i hv; rw [hv]; rfl
    · simp [mget]
  | cons c t ih =>
    obtain ⟨b, x⟩ := c
    simp only [Memory.wfFrom, Bool.and_eq_true, decide_eq_true_eq] at w
    unfold mset
    split
    · split
      · rename_i hab hv
        simp only [mget]; rw [if_neg (by omega), hv]
        exact mget_of_lt (by omega) w.2
      · simp [mget]
    · split
      · split
        · rename_i hab hv
          rw [hv]; exact mget_of_lt (by omega) w.2
        · simp [mget]
      · simp only [mget]; rw [if_neg (by omega)]; exact ih w.2

/-- A byte reads as what was last stored. -/
theorem mget_mset {m : List Host.Cell} (a : Nat) (v : BitVec 8) (w : Memory.wf m = true) :
    mget (mset m a v) a = v := mget_mset_same w

/-- A store leaves every other byte as it was. -/
theorem mget_mset_ne {m : List Host.Cell} {a b : Nat} (v : BitVec 8) (h : b ≠ a) : mget (mset m a v) b = mget m b := by
  induction m with
  | nil =>
    unfold mset
    split
    · rfl
    · simp [mget, Ne.symm h]
  | cons c t ih =>
    obtain ⟨k, x⟩ := c
    unfold mset
    split
    · split
      · rfl
      · simp [mget, Ne.symm h]
    · split
      · split
        · rename_i hk _; subst hk; simp [mget, Ne.symm h]
        · rename_i hk _; subst hk; simp [mget, Ne.symm h]
      · simp only [mget]; split
        · rfl
        · exact ih

/-- A string of stores leaves every byte outside it as it was. -/
theorem mget_mwrite_out {m : List Host.Cell} {a b : Nat} {bs : Bytes} (h : b < a ∨ a + bs.length ≤ b) :
    mget (mwrite m a bs) b = mget m b := by
  induction bs generalizing m a with
  | nil => rfl
  | cons x t ih =>
    simp only [List.length_cons] at h
    simp only [mwrite]
    rw [ih (by omega), mget_mset_ne _ (by omega)]

/-- A string of stores reads back, byte by byte. -/
theorem mget_mwrite_in {m : List Host.Cell} {a i : Nat} {bs : Bytes} (w : Memory.wf m = true) (h : i < bs.length) :
    mget (mwrite m a bs) (a + i) = bs.getD i 0 := by
  induction bs generalizing m a i with
  | nil => simp at h
  | cons x t ih =>
    simp only [mwrite]
    cases i with
    | zero =>
      rw [mget_mwrite_out (by omega), Nat.add_zero, mget_mset _ _ w]
      rfl
    | succ k =>
      have e := ih (m := mset m a x) (a := a + 1) (i := k) (mset_wf a x w) (by simpa using h)
      rw [show a + (k + 1) = a + 1 + k by omega, e]
      rfl

/-- The bytes read where a string was stored are that string. -/
theorem mread_eq {m : List Host.Cell} {a : Nat} {bs : Bytes} (h : ∀ i, i < bs.length → mget m (a + i) = bs.getD i 0) :
    mread m a bs.length = bs := by
  induction bs generalizing a with
  | nil => rfl
  | cons x t ih =>
    simp only [List.length_cons, mread]
    have h0 := h 0 (by simp)
    simp at h0
    rw [h0, ih (fun i hi => by
      have e := h (i + 1) (by simpa using hi)
      rw [show a + 1 + i = a + (i + 1) by omega, e]; rfl)]

/-- A read of what was stored. -/
theorem mread_mwrite {m : List Host.Cell} (a : Nat) (bs : Bytes) (w : Memory.wf m = true) :
    mread (mwrite m a bs) a bs.length = bs :=
  mread_eq (fun _ hi => mget_mwrite_in w hi)

/-- Cleared bytes read as zero. -/
theorem mget_mclear_in {m : List Host.Cell} {lo hi a : Nat} (h : lo ≤ a) (k : a < hi) : mget (mclear m lo hi) a = 0 := by
  induction m with
  | nil => rfl
  | cons c t ih =>
    obtain ⟨b, x⟩ := c
    unfold mclear at ih ⊢
    rw [List.filter_cons]
    split
    · rename_i hc
      simp only [Bool.or_eq_true, decide_eq_true_eq] at hc
      simp only [mget]; rw [if_neg (by omega)]; exact ih
    · exact ih

/-- Clearing leaves the bytes outside the range as they were. -/
theorem mget_mclear_out {m : List Host.Cell} {lo hi a : Nat} (h : a < lo ∨ hi ≤ a) :
    mget (mclear m lo hi) a = mget m a := by
  induction m with
  | nil => rfl
  | cons c t ih =>
    obtain ⟨b, x⟩ := c
    unfold mclear at ih ⊢
    rw [List.filter_cons]
    split
    · simp only [mget]; rw [ih]
    · rename_i hc
      simp only [Bool.or_eq_true, decide_eq_true_eq, not_or] at hc
      simp only [mget]; rw [if_neg (by omega)]; exact ih

/-! ### Sparse tables -/

theorem tget_tset_same {α : Type} (t : Tab α) (i : Nat) (v : α) : tget (tset t i v) i = some v := by
  induction t with
  | nil => simp [tset, tget]
  | cons p t ih =>
    obtain ⟨k, w⟩ := p
    unfold tset
    split
    · simp [tget]
    · split
      · simp [tget]
      · simp only [tget]; rw [if_neg (by omega)]; exact ih

theorem tget_tset_ne {α : Type} (t : Tab α) {i j : Nat} (v : α) (h : j ≠ i) : tget (tset t i v) j = tget t j := by
  induction t with
  | nil => simp [tset, tget, Ne.symm h]
  | cons p t ih =>
    obtain ⟨k, w⟩ := p
    unfold tset
    split
    · simp [tget, Ne.symm h]
    · split
      · rename_i hk; subst hk; simp [tget, Ne.symm h]
      · simp only [tget]; split
        · rfl
        · exact ih

@[simp] theorem tgetD_tset_same {α : Type} (t : Tab α) (i : Nat) (v d : α) : tgetD (tset t i v) i d = v := by
  simp [tgetD, tget_tset_same]

theorem tgetD_tset_ne {α : Type} (t : Tab α) {i j : Nat} (v d : α) (h : j ≠ i) :
    tgetD (tset t i v) j d = tgetD t j d := by
  simp [tgetD, tget_tset_ne t v h]

theorem mem_tset {α : Type} {t : Tab α} {i : Nat} {v : α} {p : Nat × α} (h : p ∈ tset t i v) : p = (i, v) ∨ p ∈ t := by
  induction t with
  | nil => simpa [tset] using h
  | cons q t ih =>
    obtain ⟨k, w⟩ := q
    unfold tset at h
    split at h
    · simpa using h
    · split at h
      · simp only [List.mem_cons] at h ⊢
        exact h.elim Or.inl (fun q => Or.inr (Or.inr q))
      · simp only [List.mem_cons] at h ⊢
        rcases h with h | h
        · exact Or.inr (Or.inl h)
        · rcases ih h with h | h
          · exact Or.inl h
          · exact Or.inr (Or.inr h)

theorem mem_of_tget {α : Type} {t : Tab α} {i : Nat} {v : α} (h : tget t i = some v) : (i, v) ∈ t := by
  induction t with
  | nil => simp [tget] at h
  | cons q t ih =>
    obtain ⟨k, w⟩ := q
    simp only [tget] at h
    split at h
    · rename_i hk; subst hk; cases h; simp
    · exact List.mem_cons_of_mem _ (ih h)

end Sys2Proof.Machine
end

