-- ==== Sys2Proof/Laws/State.lean ====
section
/-! SUPPORT. Each named update of the state: what it leaves of every field, and what the field it changes then reads. -/

namespace Sys2Proof.Machine


/-! ### emit -/

@[simp] theorem State.emit_pending (s : State) (a1 : Out) : (s.emit a1).pending = s.pending := rfl
@[simp] theorem State.emit_free (s : State) (a1 : Out) : (s.emit a1).free = s.free := rfl
@[simp] theorem State.emit_stride (s : State) (a1 : Out) : (s.emit a1).stride = s.stride := rfl
@[simp] theorem State.emit_admSeq (s : State) (a1 : Out) : (s.emit a1).admSeq = s.admSeq := rfl
@[simp] theorem State.emit_lastRead (s : State) (a1 : Out) : (s.emit a1).lastRead = s.lastRead := rfl
@[simp] theorem State.emit_variant (s : State) (a1 : Out) : (s.emit a1).variant = s.variant := rfl
@[simp] theorem State.emit_deviceId (s : State) (a1 : Out) : (s.emit a1).deviceId = s.deviceId := rfl
@[simp] theorem State.emit_rw (s : State) (a1 : Out) : (s.emit a1).rw = s.rw := rfl
@[simp] theorem State.emit_staged (s : State) (a1 : Out) : (s.emit a1).staged = s.staged := rfl
@[simp] theorem State.emit_inForce (s : State) (a1 : Out) : (s.emit a1).inForce = s.inForce := rfl
@[simp] theorem State.emit_errs (s : State) (a1 : Out) : (s.emit a1).errs = s.errs := rfl
@[simp] theorem State.emit_latches (s : State) (a1 : Out) : (s.emit a1).latches = s.latches := rfl
@[simp] theorem State.emit_dev (s : State) (a1 : Out) : (s.emit a1).dev = s.dev := rfl
@[simp] theorem State.emit_crs (s : State) (a1 : Out) : (s.emit a1).crs = s.crs := rfl
@[simp] theorem State.emit_evr (s : State) (a1 : Out) : (s.emit a1).evr = s.evr := rfl
@[simp] theorem State.emit_ports (s : State) (a1 : Out) : (s.emit a1).ports = s.ports := rfl
@[simp] theorem State.emit_link (s : State) (a1 : Out) : (s.emit a1).link = s.link := rfl
@[simp] theorem State.emit_msixPend (s : State) (a1 : Out) : (s.emit a1).msixPend = s.msixPend := rfl
@[simp] theorem State.emit_slc (s : State) (a1 : Out) : (s.emit a1).slc = s.slc := rfl
@[simp] theorem State.emit_slices (s : State) (a1 : Out) : (s.emit a1).slices = s.slices := rfl
@[simp] theorem State.emit_wbf (s : State) (a1 : Out) : (s.emit a1).wbf = s.wbf := rfl
@[simp] theorem State.emit_ftl (s : State) (a1 : Out) : (s.emit a1).ftl = s.ftl := rfl
@[simp] theorem State.emit_pwr (s : State) (a1 : Out) : (s.emit a1).pwr = s.pwr := rfl
@[simp] theorem State.emit_fij (s : State) (a1 : Out) : (s.emit a1).fij = s.fij := rfl
@[simp] theorem State.emit_cmb (s : State) (a1 : Out) : (s.emit a1).cmb = s.cmb := rfl
@[simp] theorem State.emit_mem (s : State) (a1 : Out) : (s.emit a1).mem = s.mem := rfl
@[simp] theorem State.emit_mpr (s : State) (a1 : Out) : (s.emit a1).mpr = s.mpr := rfl
@[simp] theorem State.emit_drcs (s : State) (a1 : Out) : (s.emit a1).drcs = s.drcs := rfl
@[simp] theorem State.emit_cores (s : State) (a1 : Out) : (s.emit a1).cores = s.cores := rfl
@[simp] theorem State.emit_heats (s : State) (a1 : Out) : (s.emit a1).heats = s.heats := rfl
@[simp] theorem State.emit_heatRegs (s : State) (a1 : Out) : (s.emit a1).heatRegs = s.heatRegs := rfl
@[simp] theorem State.emit_kst (s : State) (a1 : Out) : (s.emit a1).kst = s.kst := rfl
@[simp] theorem State.emit_sliceKeys (s : State) (a1 : Out) : (s.emit a1).sliceKeys = s.sliceKeys := rfl
@[simp] theorem State.emit_dgs (s : State) (a1 : Out) : (s.emit a1).dgs = s.dgs := rfl
@[simp] theorem State.emit_cph (s : State) (a1 : Out) : (s.emit a1).cph = s.cph := rfl
@[simp] theorem State.emit_instanceId (s : State) (a1 : Out) : (s.emit a1).instanceId = s.instanceId := rfl
@[simp] theorem State.emit_pat (s : State) (a1 : Out) : (s.emit a1).pat = s.pat := rfl
@[simp] theorem State.emit_hdl (s : State) (a1 : Out) : (s.emit a1).hdl = s.hdl := rfl
@[simp] theorem State.emit_rly (s : State) (a1 : Out) : (s.emit a1).rly = s.rly := rfl
@[simp] theorem State.emit_pins (s : State) (a1 : Out) : (s.emit a1).pins = s.pins := rfl
@[simp] theorem State.emit_dur (s : State) (a1 : Out) : (s.emit a1).dur = s.dur := rfl

/-! ### ev -/

@[simp] theorem State.ev_pending (s : State) (a1 : Nat) (a2 : Nat) (a3 : Bytes) : (s.ev a1 a2 a3).pending = s.pending := rfl
@[simp] theorem State.ev_out (s : State) (a1 : Nat) (a2 : Nat) (a3 : Bytes) : (s.ev a1 a2 a3).out = s.out := rfl
@[simp] theorem State.ev_free (s : State) (a1 : Nat) (a2 : Nat) (a3 : Bytes) : (s.ev a1 a2 a3).free = s.free := rfl
@[simp] theorem State.ev_stride (s : State) (a1 : Nat) (a2 : Nat) (a3 : Bytes) : (s.ev a1 a2 a3).stride = s.stride := rfl
@[simp] theorem State.ev_admSeq (s : State) (a1 : Nat) (a2 : Nat) (a3 : Bytes) : (s.ev a1 a2 a3).admSeq = s.admSeq := rfl
@[simp] theorem State.ev_lastRead (s : State) (a1 : Nat) (a2 : Nat) (a3 : Bytes) : (s.ev a1 a2 a3).lastRead = s.lastRead := rfl
@[simp] theorem State.ev_variant (s : State) (a1 : Nat) (a2 : Nat) (a3 : Bytes) : (s.ev a1 a2 a3).variant = s.variant := rfl
@[simp] theorem State.ev_deviceId (s : State) (a1 : Nat) (a2 : Nat) (a3 : Bytes) : (s.ev a1 a2 a3).deviceId = s.deviceId := rfl
@[simp] theorem State.ev_rw (s : State) (a1 : Nat) (a2 : Nat) (a3 : Bytes) : (s.ev a1 a2 a3).rw = s.rw := rfl
@[simp] theorem State.ev_staged (s : State) (a1 : Nat) (a2 : Nat) (a3 : Bytes) : (s.ev a1 a2 a3).staged = s.staged := rfl
@[simp] theorem State.ev_inForce (s : State) (a1 : Nat) (a2 : Nat) (a3 : Bytes) : (s.ev a1 a2 a3).inForce = s.inForce := rfl
@[simp] theorem State.ev_errs (s : State) (a1 : Nat) (a2 : Nat) (a3 : Bytes) : (s.ev a1 a2 a3).errs = s.errs := rfl
@[simp] theorem State.ev_latches (s : State) (a1 : Nat) (a2 : Nat) (a3 : Bytes) : (s.ev a1 a2 a3).latches = s.latches := rfl
@[simp] theorem State.ev_dev (s : State) (a1 : Nat) (a2 : Nat) (a3 : Bytes) : (s.ev a1 a2 a3).dev = s.dev := rfl
@[simp] theorem State.ev_crs (s : State) (a1 : Nat) (a2 : Nat) (a3 : Bytes) : (s.ev a1 a2 a3).crs = s.crs := rfl
@[simp] theorem State.ev_ports (s : State) (a1 : Nat) (a2 : Nat) (a3 : Bytes) : (s.ev a1 a2 a3).ports = s.ports := rfl
@[simp] theorem State.ev_link (s : State) (a1 : Nat) (a2 : Nat) (a3 : Bytes) : (s.ev a1 a2 a3).link = s.link := rfl
@[simp] theorem State.ev_msixPend (s : State) (a1 : Nat) (a2 : Nat) (a3 : Bytes) : (s.ev a1 a2 a3).msixPend = s.msixPend := rfl
@[simp] theorem State.ev_slc (s : State) (a1 : Nat) (a2 : Nat) (a3 : Bytes) : (s.ev a1 a2 a3).slc = s.slc := rfl
@[simp] theorem State.ev_slices (s : State) (a1 : Nat) (a2 : Nat) (a3 : Bytes) : (s.ev a1 a2 a3).slices = s.slices := rfl
@[simp] theorem State.ev_wbf (s : State) (a1 : Nat) (a2 : Nat) (a3 : Bytes) : (s.ev a1 a2 a3).wbf = s.wbf := rfl
@[simp] theorem State.ev_ftl (s : State) (a1 : Nat) (a2 : Nat) (a3 : Bytes) : (s.ev a1 a2 a3).ftl = s.ftl := rfl
@[simp] theorem State.ev_pwr (s : State) (a1 : Nat) (a2 : Nat) (a3 : Bytes) : (s.ev a1 a2 a3).pwr = s.pwr := rfl
@[simp] theorem State.ev_fij (s : State) (a1 : Nat) (a2 : Nat) (a3 : Bytes) : (s.ev a1 a2 a3).fij = s.fij := rfl
@[simp] theorem State.ev_cmb (s : State) (a1 : Nat) (a2 : Nat) (a3 : Bytes) : (s.ev a1 a2 a3).cmb = s.cmb := rfl
@[simp] theorem State.ev_mem (s : State) (a1 : Nat) (a2 : Nat) (a3 : Bytes) : (s.ev a1 a2 a3).mem = s.mem := rfl
@[simp] theorem State.ev_mpr (s : State) (a1 : Nat) (a2 : Nat) (a3 : Bytes) : (s.ev a1 a2 a3).mpr = s.mpr := rfl
@[simp] theorem State.ev_drcs (s : State) (a1 : Nat) (a2 : Nat) (a3 : Bytes) : (s.ev a1 a2 a3).drcs = s.drcs := rfl
@[simp] theorem State.ev_cores (s : State) (a1 : Nat) (a2 : Nat) (a3 : Bytes) : (s.ev a1 a2 a3).cores = s.cores := rfl
@[simp] theorem State.ev_heats (s : State) (a1 : Nat) (a2 : Nat) (a3 : Bytes) : (s.ev a1 a2 a3).heats = s.heats := rfl
@[simp] theorem State.ev_heatRegs (s : State) (a1 : Nat) (a2 : Nat) (a3 : Bytes) : (s.ev a1 a2 a3).heatRegs = s.heatRegs := rfl
@[simp] theorem State.ev_kst (s : State) (a1 : Nat) (a2 : Nat) (a3 : Bytes) : (s.ev a1 a2 a3).kst = s.kst := rfl
@[simp] theorem State.ev_sliceKeys (s : State) (a1 : Nat) (a2 : Nat) (a3 : Bytes) : (s.ev a1 a2 a3).sliceKeys = s.sliceKeys := rfl
@[simp] theorem State.ev_dgs (s : State) (a1 : Nat) (a2 : Nat) (a3 : Bytes) : (s.ev a1 a2 a3).dgs = s.dgs := rfl
@[simp] theorem State.ev_cph (s : State) (a1 : Nat) (a2 : Nat) (a3 : Bytes) : (s.ev a1 a2 a3).cph = s.cph := rfl
@[simp] theorem State.ev_instanceId (s : State) (a1 : Nat) (a2 : Nat) (a3 : Bytes) : (s.ev a1 a2 a3).instanceId = s.instanceId := rfl
@[simp] theorem State.ev_pat (s : State) (a1 : Nat) (a2 : Nat) (a3 : Bytes) : (s.ev a1 a2 a3).pat = s.pat := rfl
@[simp] theorem State.ev_hdl (s : State) (a1 : Nat) (a2 : Nat) (a3 : Bytes) : (s.ev a1 a2 a3).hdl = s.hdl := rfl
@[simp] theorem State.ev_rly (s : State) (a1 : Nat) (a2 : Nat) (a3 : Bytes) : (s.ev a1 a2 a3).rly = s.rly := rfl
@[simp] theorem State.ev_pins (s : State) (a1 : Nat) (a2 : Nat) (a3 : Bytes) : (s.ev a1 a2 a3).pins = s.pins := rfl
@[simp] theorem State.ev_dur (s : State) (a1 : Nat) (a2 : Nat) (a3 : Bytes) : (s.ev a1 a2 a3).dur = s.dur := rfl

/-! ### evOnly -/

@[simp] theorem State.evOnly_pending (s : State) (a1 : Nat) (a2 : Nat) (a3 : Bytes) : (s.evOnly a1 a2 a3).pending = s.pending := rfl
@[simp] theorem State.evOnly_out (s : State) (a1 : Nat) (a2 : Nat) (a3 : Bytes) : (s.evOnly a1 a2 a3).out = s.out := rfl
@[simp] theorem State.evOnly_free (s : State) (a1 : Nat) (a2 : Nat) (a3 : Bytes) : (s.evOnly a1 a2 a3).free = s.free := rfl
@[simp] theorem State.evOnly_stride (s : State) (a1 : Nat) (a2 : Nat) (a3 : Bytes) : (s.evOnly a1 a2 a3).stride = s.stride := rfl
@[simp] theorem State.evOnly_admSeq (s : State) (a1 : Nat) (a2 : Nat) (a3 : Bytes) : (s.evOnly a1 a2 a3).admSeq = s.admSeq := rfl
@[simp] theorem State.evOnly_lastRead (s : State) (a1 : Nat) (a2 : Nat) (a3 : Bytes) : (s.evOnly a1 a2 a3).lastRead = s.lastRead := rfl
@[simp] theorem State.evOnly_variant (s : State) (a1 : Nat) (a2 : Nat) (a3 : Bytes) : (s.evOnly a1 a2 a3).variant = s.variant := rfl
@[simp] theorem State.evOnly_deviceId (s : State) (a1 : Nat) (a2 : Nat) (a3 : Bytes) : (s.evOnly a1 a2 a3).deviceId = s.deviceId := rfl
@[simp] theorem State.evOnly_rw (s : State) (a1 : Nat) (a2 : Nat) (a3 : Bytes) : (s.evOnly a1 a2 a3).rw = s.rw := rfl
@[simp] theorem State.evOnly_staged (s : State) (a1 : Nat) (a2 : Nat) (a3 : Bytes) : (s.evOnly a1 a2 a3).staged = s.staged := rfl
@[simp] theorem State.evOnly_inForce (s : State) (a1 : Nat) (a2 : Nat) (a3 : Bytes) : (s.evOnly a1 a2 a3).inForce = s.inForce := rfl
@[simp] theorem State.evOnly_errs (s : State) (a1 : Nat) (a2 : Nat) (a3 : Bytes) : (s.evOnly a1 a2 a3).errs = s.errs := rfl
@[simp] theorem State.evOnly_latches (s : State) (a1 : Nat) (a2 : Nat) (a3 : Bytes) : (s.evOnly a1 a2 a3).latches = s.latches := rfl
@[simp] theorem State.evOnly_dev (s : State) (a1 : Nat) (a2 : Nat) (a3 : Bytes) : (s.evOnly a1 a2 a3).dev = s.dev := rfl
@[simp] theorem State.evOnly_crs (s : State) (a1 : Nat) (a2 : Nat) (a3 : Bytes) : (s.evOnly a1 a2 a3).crs = s.crs := rfl
@[simp] theorem State.evOnly_ports (s : State) (a1 : Nat) (a2 : Nat) (a3 : Bytes) : (s.evOnly a1 a2 a3).ports = s.ports := rfl
@[simp] theorem State.evOnly_link (s : State) (a1 : Nat) (a2 : Nat) (a3 : Bytes) : (s.evOnly a1 a2 a3).link = s.link := rfl
@[simp] theorem State.evOnly_msixPend (s : State) (a1 : Nat) (a2 : Nat) (a3 : Bytes) : (s.evOnly a1 a2 a3).msixPend = s.msixPend := rfl
@[simp] theorem State.evOnly_slc (s : State) (a1 : Nat) (a2 : Nat) (a3 : Bytes) : (s.evOnly a1 a2 a3).slc = s.slc := rfl
@[simp] theorem State.evOnly_slices (s : State) (a1 : Nat) (a2 : Nat) (a3 : Bytes) : (s.evOnly a1 a2 a3).slices = s.slices := rfl
@[simp] theorem State.evOnly_wbf (s : State) (a1 : Nat) (a2 : Nat) (a3 : Bytes) : (s.evOnly a1 a2 a3).wbf = s.wbf := rfl
@[simp] theorem State.evOnly_ftl (s : State) (a1 : Nat) (a2 : Nat) (a3 : Bytes) : (s.evOnly a1 a2 a3).ftl = s.ftl := rfl
@[simp] theorem State.evOnly_pwr (s : State) (a1 : Nat) (a2 : Nat) (a3 : Bytes) : (s.evOnly a1 a2 a3).pwr = s.pwr := rfl
@[simp] theorem State.evOnly_fij (s : State) (a1 : Nat) (a2 : Nat) (a3 : Bytes) : (s.evOnly a1 a2 a3).fij = s.fij := rfl
@[simp] theorem State.evOnly_cmb (s : State) (a1 : Nat) (a2 : Nat) (a3 : Bytes) : (s.evOnly a1 a2 a3).cmb = s.cmb := rfl
@[simp] theorem State.evOnly_mem (s : State) (a1 : Nat) (a2 : Nat) (a3 : Bytes) : (s.evOnly a1 a2 a3).mem = s.mem := rfl
@[simp] theorem State.evOnly_mpr (s : State) (a1 : Nat) (a2 : Nat) (a3 : Bytes) : (s.evOnly a1 a2 a3).mpr = s.mpr := rfl
@[simp] theorem State.evOnly_drcs (s : State) (a1 : Nat) (a2 : Nat) (a3 : Bytes) : (s.evOnly a1 a2 a3).drcs = s.drcs := rfl
@[simp] theorem State.evOnly_cores (s : State) (a1 : Nat) (a2 : Nat) (a3 : Bytes) : (s.evOnly a1 a2 a3).cores = s.cores := rfl
@[simp] theorem State.evOnly_heats (s : State) (a1 : Nat) (a2 : Nat) (a3 : Bytes) : (s.evOnly a1 a2 a3).heats = s.heats := rfl
@[simp] theorem State.evOnly_heatRegs (s : State) (a1 : Nat) (a2 : Nat) (a3 : Bytes) : (s.evOnly a1 a2 a3).heatRegs = s.heatRegs := rfl
@[simp] theorem State.evOnly_kst (s : State) (a1 : Nat) (a2 : Nat) (a3 : Bytes) : (s.evOnly a1 a2 a3).kst = s.kst := rfl
@[simp] theorem State.evOnly_sliceKeys (s : State) (a1 : Nat) (a2 : Nat) (a3 : Bytes) : (s.evOnly a1 a2 a3).sliceKeys = s.sliceKeys := rfl
@[simp] theorem State.evOnly_dgs (s : State) (a1 : Nat) (a2 : Nat) (a3 : Bytes) : (s.evOnly a1 a2 a3).dgs = s.dgs := rfl
@[simp] theorem State.evOnly_cph (s : State) (a1 : Nat) (a2 : Nat) (a3 : Bytes) : (s.evOnly a1 a2 a3).cph = s.cph := rfl
@[simp] theorem State.evOnly_instanceId (s : State) (a1 : Nat) (a2 : Nat) (a3 : Bytes) : (s.evOnly a1 a2 a3).instanceId = s.instanceId := rfl
@[simp] theorem State.evOnly_pat (s : State) (a1 : Nat) (a2 : Nat) (a3 : Bytes) : (s.evOnly a1 a2 a3).pat = s.pat := rfl
@[simp] theorem State.evOnly_hdl (s : State) (a1 : Nat) (a2 : Nat) (a3 : Bytes) : (s.evOnly a1 a2 a3).hdl = s.hdl := rfl
@[simp] theorem State.evOnly_rly (s : State) (a1 : Nat) (a2 : Nat) (a3 : Bytes) : (s.evOnly a1 a2 a3).rly = s.rly := rfl
@[simp] theorem State.evOnly_pins (s : State) (a1 : Nat) (a2 : Nat) (a3 : Bytes) : (s.evOnly a1 a2 a3).pins = s.pins := rfl
@[simp] theorem State.evOnly_dur (s : State) (a1 : Nat) (a2 : Nat) (a3 : Bytes) : (s.evOnly a1 a2 a3).dur = s.dur := rfl

/-! ### setSlice -/

@[simp] theorem State.setSlice_pending (s : State) (a1 : Nat) (a2 : Slice) : (s.setSlice a1 a2).pending = s.pending := rfl
@[simp] theorem State.setSlice_out (s : State) (a1 : Nat) (a2 : Slice) : (s.setSlice a1 a2).out = s.out := rfl
@[simp] theorem State.setSlice_free (s : State) (a1 : Nat) (a2 : Slice) : (s.setSlice a1 a2).free = s.free := rfl
@[simp] theorem State.setSlice_stride (s : State) (a1 : Nat) (a2 : Slice) : (s.setSlice a1 a2).stride = s.stride := rfl
@[simp] theorem State.setSlice_admSeq (s : State) (a1 : Nat) (a2 : Slice) : (s.setSlice a1 a2).admSeq = s.admSeq := rfl
@[simp] theorem State.setSlice_lastRead (s : State) (a1 : Nat) (a2 : Slice) : (s.setSlice a1 a2).lastRead = s.lastRead := rfl
@[simp] theorem State.setSlice_variant (s : State) (a1 : Nat) (a2 : Slice) : (s.setSlice a1 a2).variant = s.variant := rfl
@[simp] theorem State.setSlice_deviceId (s : State) (a1 : Nat) (a2 : Slice) : (s.setSlice a1 a2).deviceId = s.deviceId := rfl
@[simp] theorem State.setSlice_rw (s : State) (a1 : Nat) (a2 : Slice) : (s.setSlice a1 a2).rw = s.rw := rfl
@[simp] theorem State.setSlice_staged (s : State) (a1 : Nat) (a2 : Slice) : (s.setSlice a1 a2).staged = s.staged := rfl
@[simp] theorem State.setSlice_inForce (s : State) (a1 : Nat) (a2 : Slice) : (s.setSlice a1 a2).inForce = s.inForce := rfl
@[simp] theorem State.setSlice_errs (s : State) (a1 : Nat) (a2 : Slice) : (s.setSlice a1 a2).errs = s.errs := rfl
@[simp] theorem State.setSlice_latches (s : State) (a1 : Nat) (a2 : Slice) : (s.setSlice a1 a2).latches = s.latches := rfl
@[simp] theorem State.setSlice_dev (s : State) (a1 : Nat) (a2 : Slice) : (s.setSlice a1 a2).dev = s.dev := rfl
@[simp] theorem State.setSlice_crs (s : State) (a1 : Nat) (a2 : Slice) : (s.setSlice a1 a2).crs = s.crs := rfl
@[simp] theorem State.setSlice_evr (s : State) (a1 : Nat) (a2 : Slice) : (s.setSlice a1 a2).evr = s.evr := rfl
@[simp] theorem State.setSlice_ports (s : State) (a1 : Nat) (a2 : Slice) : (s.setSlice a1 a2).ports = s.ports := rfl
@[simp] theorem State.setSlice_link (s : State) (a1 : Nat) (a2 : Slice) : (s.setSlice a1 a2).link = s.link := rfl
@[simp] theorem State.setSlice_msixPend (s : State) (a1 : Nat) (a2 : Slice) : (s.setSlice a1 a2).msixPend = s.msixPend := rfl
@[simp] theorem State.setSlice_slc (s : State) (a1 : Nat) (a2 : Slice) : (s.setSlice a1 a2).slc = s.slc := rfl
@[simp] theorem State.setSlice_wbf (s : State) (a1 : Nat) (a2 : Slice) : (s.setSlice a1 a2).wbf = s.wbf := rfl
@[simp] theorem State.setSlice_ftl (s : State) (a1 : Nat) (a2 : Slice) : (s.setSlice a1 a2).ftl = s.ftl := rfl
@[simp] theorem State.setSlice_pwr (s : State) (a1 : Nat) (a2 : Slice) : (s.setSlice a1 a2).pwr = s.pwr := rfl
@[simp] theorem State.setSlice_fij (s : State) (a1 : Nat) (a2 : Slice) : (s.setSlice a1 a2).fij = s.fij := rfl
@[simp] theorem State.setSlice_cmb (s : State) (a1 : Nat) (a2 : Slice) : (s.setSlice a1 a2).cmb = s.cmb := rfl
@[simp] theorem State.setSlice_mem (s : State) (a1 : Nat) (a2 : Slice) : (s.setSlice a1 a2).mem = s.mem := rfl
@[simp] theorem State.setSlice_mpr (s : State) (a1 : Nat) (a2 : Slice) : (s.setSlice a1 a2).mpr = s.mpr := rfl
@[simp] theorem State.setSlice_drcs (s : State) (a1 : Nat) (a2 : Slice) : (s.setSlice a1 a2).drcs = s.drcs := rfl
@[simp] theorem State.setSlice_cores (s : State) (a1 : Nat) (a2 : Slice) : (s.setSlice a1 a2).cores = s.cores := rfl
@[simp] theorem State.setSlice_heats (s : State) (a1 : Nat) (a2 : Slice) : (s.setSlice a1 a2).heats = s.heats := rfl
@[simp] theorem State.setSlice_heatRegs (s : State) (a1 : Nat) (a2 : Slice) : (s.setSlice a1 a2).heatRegs = s.heatRegs := rfl
@[simp] theorem State.setSlice_kst (s : State) (a1 : Nat) (a2 : Slice) : (s.setSlice a1 a2).kst = s.kst := rfl
@[simp] theorem State.setSlice_sliceKeys (s : State) (a1 : Nat) (a2 : Slice) : (s.setSlice a1 a2).sliceKeys = s.sliceKeys := rfl
@[simp] theorem State.setSlice_dgs (s : State) (a1 : Nat) (a2 : Slice) : (s.setSlice a1 a2).dgs = s.dgs := rfl
@[simp] theorem State.setSlice_cph (s : State) (a1 : Nat) (a2 : Slice) : (s.setSlice a1 a2).cph = s.cph := rfl
@[simp] theorem State.setSlice_instanceId (s : State) (a1 : Nat) (a2 : Slice) : (s.setSlice a1 a2).instanceId = s.instanceId := rfl
@[simp] theorem State.setSlice_pat (s : State) (a1 : Nat) (a2 : Slice) : (s.setSlice a1 a2).pat = s.pat := rfl
@[simp] theorem State.setSlice_hdl (s : State) (a1 : Nat) (a2 : Slice) : (s.setSlice a1 a2).hdl = s.hdl := rfl
@[simp] theorem State.setSlice_rly (s : State) (a1 : Nat) (a2 : Slice) : (s.setSlice a1 a2).rly = s.rly := rfl
@[simp] theorem State.setSlice_pins (s : State) (a1 : Nat) (a2 : Slice) : (s.setSlice a1 a2).pins = s.pins := rfl
@[simp] theorem State.setSlice_dur (s : State) (a1 : Nat) (a2 : Slice) : (s.setSlice a1 a2).dur = s.dur := rfl

/-! ### modSlice -/

@[simp] theorem State.modSlice_pending (s : State) (a1 : Nat) (a2 : Slice → Slice) : (s.modSlice a1 a2).pending = s.pending := rfl
@[simp] theorem State.modSlice_out (s : State) (a1 : Nat) (a2 : Slice → Slice) : (s.modSlice a1 a2).out = s.out := rfl
@[simp] theorem State.modSlice_free (s : State) (a1 : Nat) (a2 : Slice → Slice) : (s.modSlice a1 a2).free = s.free := rfl
@[simp] theorem State.modSlice_stride (s : State) (a1 : Nat) (a2 : Slice → Slice) : (s.modSlice a1 a2).stride = s.stride := rfl
@[simp] theorem State.modSlice_admSeq (s : State) (a1 : Nat) (a2 : Slice → Slice) : (s.modSlice a1 a2).admSeq = s.admSeq := rfl
@[simp] theorem State.modSlice_lastRead (s : State) (a1 : Nat) (a2 : Slice → Slice) : (s.modSlice a1 a2).lastRead = s.lastRead := rfl
@[simp] theorem State.modSlice_variant (s : State) (a1 : Nat) (a2 : Slice → Slice) : (s.modSlice a1 a2).variant = s.variant := rfl
@[simp] theorem State.modSlice_deviceId (s : State) (a1 : Nat) (a2 : Slice → Slice) : (s.modSlice a1 a2).deviceId = s.deviceId := rfl
@[simp] theorem State.modSlice_rw (s : State) (a1 : Nat) (a2 : Slice → Slice) : (s.modSlice a1 a2).rw = s.rw := rfl
@[simp] theorem State.modSlice_staged (s : State) (a1 : Nat) (a2 : Slice → Slice) : (s.modSlice a1 a2).staged = s.staged := rfl
@[simp] theorem State.modSlice_inForce (s : State) (a1 : Nat) (a2 : Slice → Slice) : (s.modSlice a1 a2).inForce = s.inForce := rfl
@[simp] theorem State.modSlice_errs (s : State) (a1 : Nat) (a2 : Slice → Slice) : (s.modSlice a1 a2).errs = s.errs := rfl
@[simp] theorem State.modSlice_latches (s : State) (a1 : Nat) (a2 : Slice → Slice) : (s.modSlice a1 a2).latches = s.latches := rfl
@[simp] theorem State.modSlice_dev (s : State) (a1 : Nat) (a2 : Slice → Slice) : (s.modSlice a1 a2).dev = s.dev := rfl
@[simp] theorem State.modSlice_crs (s : State) (a1 : Nat) (a2 : Slice → Slice) : (s.modSlice a1 a2).crs = s.crs := rfl
@[simp] theorem State.modSlice_evr (s : State) (a1 : Nat) (a2 : Slice → Slice) : (s.modSlice a1 a2).evr = s.evr := rfl
@[simp] theorem State.modSlice_ports (s : State) (a1 : Nat) (a2 : Slice → Slice) : (s.modSlice a1 a2).ports = s.ports := rfl
@[simp] theorem State.modSlice_link (s : State) (a1 : Nat) (a2 : Slice → Slice) : (s.modSlice a1 a2).link = s.link := rfl
@[simp] theorem State.modSlice_msixPend (s : State) (a1 : Nat) (a2 : Slice → Slice) : (s.modSlice a1 a2).msixPend = s.msixPend := rfl
@[simp] theorem State.modSlice_slc (s : State) (a1 : Nat) (a2 : Slice → Slice) : (s.modSlice a1 a2).slc = s.slc := rfl
@[simp] theorem State.modSlice_wbf (s : State) (a1 : Nat) (a2 : Slice → Slice) : (s.modSlice a1 a2).wbf = s.wbf := rfl
@[simp] theorem State.modSlice_ftl (s : State) (a1 : Nat) (a2 : Slice → Slice) : (s.modSlice a1 a2).ftl = s.ftl := rfl
@[simp] theorem State.modSlice_pwr (s : State) (a1 : Nat) (a2 : Slice → Slice) : (s.modSlice a1 a2).pwr = s.pwr := rfl
@[simp] theorem State.modSlice_fij (s : State) (a1 : Nat) (a2 : Slice → Slice) : (s.modSlice a1 a2).fij = s.fij := rfl
@[simp] theorem State.modSlice_cmb (s : State) (a1 : Nat) (a2 : Slice → Slice) : (s.modSlice a1 a2).cmb = s.cmb := rfl
@[simp] theorem State.modSlice_mem (s : State) (a1 : Nat) (a2 : Slice → Slice) : (s.modSlice a1 a2).mem = s.mem := rfl
@[simp] theorem State.modSlice_mpr (s : State) (a1 : Nat) (a2 : Slice → Slice) : (s.modSlice a1 a2).mpr = s.mpr := rfl
@[simp] theorem State.modSlice_drcs (s : State) (a1 : Nat) (a2 : Slice → Slice) : (s.modSlice a1 a2).drcs = s.drcs := rfl
@[simp] theorem State.modSlice_cores (s : State) (a1 : Nat) (a2 : Slice → Slice) : (s.modSlice a1 a2).cores = s.cores := rfl
@[simp] theorem State.modSlice_heats (s : State) (a1 : Nat) (a2 : Slice → Slice) : (s.modSlice a1 a2).heats = s.heats := rfl
@[simp] theorem State.modSlice_heatRegs (s : State) (a1 : Nat) (a2 : Slice → Slice) : (s.modSlice a1 a2).heatRegs = s.heatRegs := rfl
@[simp] theorem State.modSlice_kst (s : State) (a1 : Nat) (a2 : Slice → Slice) : (s.modSlice a1 a2).kst = s.kst := rfl
@[simp] theorem State.modSlice_sliceKeys (s : State) (a1 : Nat) (a2 : Slice → Slice) : (s.modSlice a1 a2).sliceKeys = s.sliceKeys := rfl
@[simp] theorem State.modSlice_dgs (s : State) (a1 : Nat) (a2 : Slice → Slice) : (s.modSlice a1 a2).dgs = s.dgs := rfl
@[simp] theorem State.modSlice_cph (s : State) (a1 : Nat) (a2 : Slice → Slice) : (s.modSlice a1 a2).cph = s.cph := rfl
@[simp] theorem State.modSlice_instanceId (s : State) (a1 : Nat) (a2 : Slice → Slice) : (s.modSlice a1 a2).instanceId = s.instanceId := rfl
@[simp] theorem State.modSlice_pat (s : State) (a1 : Nat) (a2 : Slice → Slice) : (s.modSlice a1 a2).pat = s.pat := rfl
@[simp] theorem State.modSlice_hdl (s : State) (a1 : Nat) (a2 : Slice → Slice) : (s.modSlice a1 a2).hdl = s.hdl := rfl
@[simp] theorem State.modSlice_rly (s : State) (a1 : Nat) (a2 : Slice → Slice) : (s.modSlice a1 a2).rly = s.rly := rfl
@[simp] theorem State.modSlice_pins (s : State) (a1 : Nat) (a2 : Slice → Slice) : (s.modSlice a1 a2).pins = s.pins := rfl
@[simp] theorem State.modSlice_dur (s : State) (a1 : Nat) (a2 : Slice → Slice) : (s.modSlice a1 a2).dur = s.dur := rfl

/-! ### modPort -/

@[simp] theorem State.modPort_pending (s : State) (a1 : Nat) (a2 : Port → Port) : (s.modPort a1 a2).pending = s.pending := rfl
@[simp] theorem State.modPort_out (s : State) (a1 : Nat) (a2 : Port → Port) : (s.modPort a1 a2).out = s.out := rfl
@[simp] theorem State.modPort_free (s : State) (a1 : Nat) (a2 : Port → Port) : (s.modPort a1 a2).free = s.free := rfl
@[simp] theorem State.modPort_stride (s : State) (a1 : Nat) (a2 : Port → Port) : (s.modPort a1 a2).stride = s.stride := rfl
@[simp] theorem State.modPort_admSeq (s : State) (a1 : Nat) (a2 : Port → Port) : (s.modPort a1 a2).admSeq = s.admSeq := rfl
@[simp] theorem State.modPort_lastRead (s : State) (a1 : Nat) (a2 : Port → Port) : (s.modPort a1 a2).lastRead = s.lastRead := rfl
@[simp] theorem State.modPort_variant (s : State) (a1 : Nat) (a2 : Port → Port) : (s.modPort a1 a2).variant = s.variant := rfl
@[simp] theorem State.modPort_deviceId (s : State) (a1 : Nat) (a2 : Port → Port) : (s.modPort a1 a2).deviceId = s.deviceId := rfl
@[simp] theorem State.modPort_rw (s : State) (a1 : Nat) (a2 : Port → Port) : (s.modPort a1 a2).rw = s.rw := rfl
@[simp] theorem State.modPort_staged (s : State) (a1 : Nat) (a2 : Port → Port) : (s.modPort a1 a2).staged = s.staged := rfl
@[simp] theorem State.modPort_inForce (s : State) (a1 : Nat) (a2 : Port → Port) : (s.modPort a1 a2).inForce = s.inForce := rfl
@[simp] theorem State.modPort_errs (s : State) (a1 : Nat) (a2 : Port → Port) : (s.modPort a1 a2).errs = s.errs := rfl
@[simp] theorem State.modPort_latches (s : State) (a1 : Nat) (a2 : Port → Port) : (s.modPort a1 a2).latches = s.latches := rfl
@[simp] theorem State.modPort_dev (s : State) (a1 : Nat) (a2 : Port → Port) : (s.modPort a1 a2).dev = s.dev := rfl
@[simp] theorem State.modPort_crs (s : State) (a1 : Nat) (a2 : Port → Port) : (s.modPort a1 a2).crs = s.crs := rfl
@[simp] theorem State.modPort_evr (s : State) (a1 : Nat) (a2 : Port → Port) : (s.modPort a1 a2).evr = s.evr := rfl
@[simp] theorem State.modPort_link (s : State) (a1 : Nat) (a2 : Port → Port) : (s.modPort a1 a2).link = s.link := rfl
@[simp] theorem State.modPort_msixPend (s : State) (a1 : Nat) (a2 : Port → Port) : (s.modPort a1 a2).msixPend = s.msixPend := rfl
@[simp] theorem State.modPort_slc (s : State) (a1 : Nat) (a2 : Port → Port) : (s.modPort a1 a2).slc = s.slc := rfl
@[simp] theorem State.modPort_slices (s : State) (a1 : Nat) (a2 : Port → Port) : (s.modPort a1 a2).slices = s.slices := rfl
@[simp] theorem State.modPort_wbf (s : State) (a1 : Nat) (a2 : Port → Port) : (s.modPort a1 a2).wbf = s.wbf := rfl
@[simp] theorem State.modPort_ftl (s : State) (a1 : Nat) (a2 : Port → Port) : (s.modPort a1 a2).ftl = s.ftl := rfl
@[simp] theorem State.modPort_pwr (s : State) (a1 : Nat) (a2 : Port → Port) : (s.modPort a1 a2).pwr = s.pwr := rfl
@[simp] theorem State.modPort_fij (s : State) (a1 : Nat) (a2 : Port → Port) : (s.modPort a1 a2).fij = s.fij := rfl
@[simp] theorem State.modPort_cmb (s : State) (a1 : Nat) (a2 : Port → Port) : (s.modPort a1 a2).cmb = s.cmb := rfl
@[simp] theorem State.modPort_mem (s : State) (a1 : Nat) (a2 : Port → Port) : (s.modPort a1 a2).mem = s.mem := rfl
@[simp] theorem State.modPort_mpr (s : State) (a1 : Nat) (a2 : Port → Port) : (s.modPort a1 a2).mpr = s.mpr := rfl
@[simp] theorem State.modPort_drcs (s : State) (a1 : Nat) (a2 : Port → Port) : (s.modPort a1 a2).drcs = s.drcs := rfl
@[simp] theorem State.modPort_cores (s : State) (a1 : Nat) (a2 : Port → Port) : (s.modPort a1 a2).cores = s.cores := rfl
@[simp] theorem State.modPort_heats (s : State) (a1 : Nat) (a2 : Port → Port) : (s.modPort a1 a2).heats = s.heats := rfl
@[simp] theorem State.modPort_heatRegs (s : State) (a1 : Nat) (a2 : Port → Port) : (s.modPort a1 a2).heatRegs = s.heatRegs := rfl
@[simp] theorem State.modPort_kst (s : State) (a1 : Nat) (a2 : Port → Port) : (s.modPort a1 a2).kst = s.kst := rfl
@[simp] theorem State.modPort_sliceKeys (s : State) (a1 : Nat) (a2 : Port → Port) : (s.modPort a1 a2).sliceKeys = s.sliceKeys := rfl
@[simp] theorem State.modPort_dgs (s : State) (a1 : Nat) (a2 : Port → Port) : (s.modPort a1 a2).dgs = s.dgs := rfl
@[simp] theorem State.modPort_cph (s : State) (a1 : Nat) (a2 : Port → Port) : (s.modPort a1 a2).cph = s.cph := rfl
@[simp] theorem State.modPort_instanceId (s : State) (a1 : Nat) (a2 : Port → Port) : (s.modPort a1 a2).instanceId = s.instanceId := rfl
@[simp] theorem State.modPort_pat (s : State) (a1 : Nat) (a2 : Port → Port) : (s.modPort a1 a2).pat = s.pat := rfl
@[simp] theorem State.modPort_hdl (s : State) (a1 : Nat) (a2 : Port → Port) : (s.modPort a1 a2).hdl = s.hdl := rfl
@[simp] theorem State.modPort_rly (s : State) (a1 : Nat) (a2 : Port → Port) : (s.modPort a1 a2).rly = s.rly := rfl
@[simp] theorem State.modPort_pins (s : State) (a1 : Nat) (a2 : Port → Port) : (s.modPort a1 a2).pins = s.pins := rfl
@[simp] theorem State.modPort_dur (s : State) (a1 : Nat) (a2 : Port → Port) : (s.modPort a1 a2).dur = s.dur := rfl

/-! ### rwSet -/

@[simp] theorem State.rwSet_pending (s : State) (a1 : Nat) (a2 : BitVec 64) : (s.rwSet a1 a2).pending = s.pending := rfl
@[simp] theorem State.rwSet_out (s : State) (a1 : Nat) (a2 : BitVec 64) : (s.rwSet a1 a2).out = s.out := rfl
@[simp] theorem State.rwSet_free (s : State) (a1 : Nat) (a2 : BitVec 64) : (s.rwSet a1 a2).free = s.free := rfl
@[simp] theorem State.rwSet_stride (s : State) (a1 : Nat) (a2 : BitVec 64) : (s.rwSet a1 a2).stride = s.stride := rfl
@[simp] theorem State.rwSet_admSeq (s : State) (a1 : Nat) (a2 : BitVec 64) : (s.rwSet a1 a2).admSeq = s.admSeq := rfl
@[simp] theorem State.rwSet_lastRead (s : State) (a1 : Nat) (a2 : BitVec 64) : (s.rwSet a1 a2).lastRead = s.lastRead := rfl
@[simp] theorem State.rwSet_variant (s : State) (a1 : Nat) (a2 : BitVec 64) : (s.rwSet a1 a2).variant = s.variant := rfl
@[simp] theorem State.rwSet_deviceId (s : State) (a1 : Nat) (a2 : BitVec 64) : (s.rwSet a1 a2).deviceId = s.deviceId := rfl
@[simp] theorem State.rwSet_staged (s : State) (a1 : Nat) (a2 : BitVec 64) : (s.rwSet a1 a2).staged = s.staged := rfl
@[simp] theorem State.rwSet_inForce (s : State) (a1 : Nat) (a2 : BitVec 64) : (s.rwSet a1 a2).inForce = s.inForce := rfl
@[simp] theorem State.rwSet_errs (s : State) (a1 : Nat) (a2 : BitVec 64) : (s.rwSet a1 a2).errs = s.errs := rfl
@[simp] theorem State.rwSet_latches (s : State) (a1 : Nat) (a2 : BitVec 64) : (s.rwSet a1 a2).latches = s.latches := rfl
@[simp] theorem State.rwSet_dev (s : State) (a1 : Nat) (a2 : BitVec 64) : (s.rwSet a1 a2).dev = s.dev := rfl
@[simp] theorem State.rwSet_crs (s : State) (a1 : Nat) (a2 : BitVec 64) : (s.rwSet a1 a2).crs = s.crs := rfl
@[simp] theorem State.rwSet_evr (s : State) (a1 : Nat) (a2 : BitVec 64) : (s.rwSet a1 a2).evr = s.evr := rfl
@[simp] theorem State.rwSet_ports (s : State) (a1 : Nat) (a2 : BitVec 64) : (s.rwSet a1 a2).ports = s.ports := rfl
@[simp] theorem State.rwSet_link (s : State) (a1 : Nat) (a2 : BitVec 64) : (s.rwSet a1 a2).link = s.link := rfl
@[simp] theorem State.rwSet_msixPend (s : State) (a1 : Nat) (a2 : BitVec 64) : (s.rwSet a1 a2).msixPend = s.msixPend := rfl
@[simp] theorem State.rwSet_slc (s : State) (a1 : Nat) (a2 : BitVec 64) : (s.rwSet a1 a2).slc = s.slc := rfl
@[simp] theorem State.rwSet_slices (s : State) (a1 : Nat) (a2 : BitVec 64) : (s.rwSet a1 a2).slices = s.slices := rfl
@[simp] theorem State.rwSet_wbf (s : State) (a1 : Nat) (a2 : BitVec 64) : (s.rwSet a1 a2).wbf = s.wbf := rfl
@[simp] theorem State.rwSet_ftl (s : State) (a1 : Nat) (a2 : BitVec 64) : (s.rwSet a1 a2).ftl = s.ftl := rfl
@[simp] theorem State.rwSet_pwr (s : State) (a1 : Nat) (a2 : BitVec 64) : (s.rwSet a1 a2).pwr = s.pwr := rfl
@[simp] theorem State.rwSet_fij (s : State) (a1 : Nat) (a2 : BitVec 64) : (s.rwSet a1 a2).fij = s.fij := rfl
@[simp] theorem State.rwSet_cmb (s : State) (a1 : Nat) (a2 : BitVec 64) : (s.rwSet a1 a2).cmb = s.cmb := rfl
@[simp] theorem State.rwSet_mem (s : State) (a1 : Nat) (a2 : BitVec 64) : (s.rwSet a1 a2).mem = s.mem := rfl
@[simp] theorem State.rwSet_mpr (s : State) (a1 : Nat) (a2 : BitVec 64) : (s.rwSet a1 a2).mpr = s.mpr := rfl
@[simp] theorem State.rwSet_drcs (s : State) (a1 : Nat) (a2 : BitVec 64) : (s.rwSet a1 a2).drcs = s.drcs := rfl
@[simp] theorem State.rwSet_cores (s : State) (a1 : Nat) (a2 : BitVec 64) : (s.rwSet a1 a2).cores = s.cores := rfl
@[simp] theorem State.rwSet_heats (s : State) (a1 : Nat) (a2 : BitVec 64) : (s.rwSet a1 a2).heats = s.heats := rfl
@[simp] theorem State.rwSet_heatRegs (s : State) (a1 : Nat) (a2 : BitVec 64) : (s.rwSet a1 a2).heatRegs = s.heatRegs := rfl
@[simp] theorem State.rwSet_kst (s : State) (a1 : Nat) (a2 : BitVec 64) : (s.rwSet a1 a2).kst = s.kst := rfl
@[simp] theorem State.rwSet_sliceKeys (s : State) (a1 : Nat) (a2 : BitVec 64) : (s.rwSet a1 a2).sliceKeys = s.sliceKeys := rfl
@[simp] theorem State.rwSet_dgs (s : State) (a1 : Nat) (a2 : BitVec 64) : (s.rwSet a1 a2).dgs = s.dgs := rfl
@[simp] theorem State.rwSet_cph (s : State) (a1 : Nat) (a2 : BitVec 64) : (s.rwSet a1 a2).cph = s.cph := rfl
@[simp] theorem State.rwSet_instanceId (s : State) (a1 : Nat) (a2 : BitVec 64) : (s.rwSet a1 a2).instanceId = s.instanceId := rfl
@[simp] theorem State.rwSet_pat (s : State) (a1 : Nat) (a2 : BitVec 64) : (s.rwSet a1 a2).pat = s.pat := rfl
@[simp] theorem State.rwSet_hdl (s : State) (a1 : Nat) (a2 : BitVec 64) : (s.rwSet a1 a2).hdl = s.hdl := rfl
@[simp] theorem State.rwSet_rly (s : State) (a1 : Nat) (a2 : BitVec 64) : (s.rwSet a1 a2).rly = s.rly := rfl
@[simp] theorem State.rwSet_pins (s : State) (a1 : Nat) (a2 : BitVec 64) : (s.rwSet a1 a2).pins = s.pins := rfl
@[simp] theorem State.rwSet_dur (s : State) (a1 : Nat) (a2 : BitVec 64) : (s.rwSet a1 a2).dur = s.dur := rfl

/-! ### forceSet -/

@[simp] theorem State.forceSet_pending (s : State) (a1 : Nat) (a2 : Nat) : (s.forceSet a1 a2).pending = s.pending := rfl
@[simp] theorem State.forceSet_out (s : State) (a1 : Nat) (a2 : Nat) : (s.forceSet a1 a2).out = s.out := rfl
@[simp] theorem State.forceSet_free (s : State) (a1 : Nat) (a2 : Nat) : (s.forceSet a1 a2).free = s.free := rfl
@[simp] theorem State.forceSet_stride (s : State) (a1 : Nat) (a2 : Nat) : (s.forceSet a1 a2).stride = s.stride := rfl
@[simp] theorem State.forceSet_admSeq (s : State) (a1 : Nat) (a2 : Nat) : (s.forceSet a1 a2).admSeq = s.admSeq := rfl
@[simp] theorem State.forceSet_lastRead (s : State) (a1 : Nat) (a2 : Nat) : (s.forceSet a1 a2).lastRead = s.lastRead := rfl
@[simp] theorem State.forceSet_variant (s : State) (a1 : Nat) (a2 : Nat) : (s.forceSet a1 a2).variant = s.variant := rfl
@[simp] theorem State.forceSet_deviceId (s : State) (a1 : Nat) (a2 : Nat) : (s.forceSet a1 a2).deviceId = s.deviceId := rfl
@[simp] theorem State.forceSet_rw (s : State) (a1 : Nat) (a2 : Nat) : (s.forceSet a1 a2).rw = s.rw := rfl
@[simp] theorem State.forceSet_errs (s : State) (a1 : Nat) (a2 : Nat) : (s.forceSet a1 a2).errs = s.errs := rfl
@[simp] theorem State.forceSet_latches (s : State) (a1 : Nat) (a2 : Nat) : (s.forceSet a1 a2).latches = s.latches := rfl
@[simp] theorem State.forceSet_dev (s : State) (a1 : Nat) (a2 : Nat) : (s.forceSet a1 a2).dev = s.dev := rfl
@[simp] theorem State.forceSet_crs (s : State) (a1 : Nat) (a2 : Nat) : (s.forceSet a1 a2).crs = s.crs := rfl
@[simp] theorem State.forceSet_evr (s : State) (a1 : Nat) (a2 : Nat) : (s.forceSet a1 a2).evr = s.evr := rfl
@[simp] theorem State.forceSet_ports (s : State) (a1 : Nat) (a2 : Nat) : (s.forceSet a1 a2).ports = s.ports := rfl
@[simp] theorem State.forceSet_link (s : State) (a1 : Nat) (a2 : Nat) : (s.forceSet a1 a2).link = s.link := rfl
@[simp] theorem State.forceSet_msixPend (s : State) (a1 : Nat) (a2 : Nat) : (s.forceSet a1 a2).msixPend = s.msixPend := rfl
@[simp] theorem State.forceSet_slc (s : State) (a1 : Nat) (a2 : Nat) : (s.forceSet a1 a2).slc = s.slc := rfl
@[simp] theorem State.forceSet_slices (s : State) (a1 : Nat) (a2 : Nat) : (s.forceSet a1 a2).slices = s.slices := rfl
@[simp] theorem State.forceSet_wbf (s : State) (a1 : Nat) (a2 : Nat) : (s.forceSet a1 a2).wbf = s.wbf := rfl
@[simp] theorem State.forceSet_ftl (s : State) (a1 : Nat) (a2 : Nat) : (s.forceSet a1 a2).ftl = s.ftl := rfl
@[simp] theorem State.forceSet_pwr (s : State) (a1 : Nat) (a2 : Nat) : (s.forceSet a1 a2).pwr = s.pwr := rfl
@[simp] theorem State.forceSet_fij (s : State) (a1 : Nat) (a2 : Nat) : (s.forceSet a1 a2).fij = s.fij := rfl
@[simp] theorem State.forceSet_cmb (s : State) (a1 : Nat) (a2 : Nat) : (s.forceSet a1 a2).cmb = s.cmb := rfl
@[simp] theorem State.forceSet_mem (s : State) (a1 : Nat) (a2 : Nat) : (s.forceSet a1 a2).mem = s.mem := rfl
@[simp] theorem State.forceSet_mpr (s : State) (a1 : Nat) (a2 : Nat) : (s.forceSet a1 a2).mpr = s.mpr := rfl
@[simp] theorem State.forceSet_drcs (s : State) (a1 : Nat) (a2 : Nat) : (s.forceSet a1 a2).drcs = s.drcs := rfl
@[simp] theorem State.forceSet_cores (s : State) (a1 : Nat) (a2 : Nat) : (s.forceSet a1 a2).cores = s.cores := rfl
@[simp] theorem State.forceSet_heats (s : State) (a1 : Nat) (a2 : Nat) : (s.forceSet a1 a2).heats = s.heats := rfl
@[simp] theorem State.forceSet_heatRegs (s : State) (a1 : Nat) (a2 : Nat) : (s.forceSet a1 a2).heatRegs = s.heatRegs := rfl
@[simp] theorem State.forceSet_kst (s : State) (a1 : Nat) (a2 : Nat) : (s.forceSet a1 a2).kst = s.kst := rfl
@[simp] theorem State.forceSet_sliceKeys (s : State) (a1 : Nat) (a2 : Nat) : (s.forceSet a1 a2).sliceKeys = s.sliceKeys := rfl
@[simp] theorem State.forceSet_dgs (s : State) (a1 : Nat) (a2 : Nat) : (s.forceSet a1 a2).dgs = s.dgs := rfl
@[simp] theorem State.forceSet_cph (s : State) (a1 : Nat) (a2 : Nat) : (s.forceSet a1 a2).cph = s.cph := rfl
@[simp] theorem State.forceSet_instanceId (s : State) (a1 : Nat) (a2 : Nat) : (s.forceSet a1 a2).instanceId = s.instanceId := rfl
@[simp] theorem State.forceSet_pat (s : State) (a1 : Nat) (a2 : Nat) : (s.forceSet a1 a2).pat = s.pat := rfl
@[simp] theorem State.forceSet_hdl (s : State) (a1 : Nat) (a2 : Nat) : (s.forceSet a1 a2).hdl = s.hdl := rfl
@[simp] theorem State.forceSet_rly (s : State) (a1 : Nat) (a2 : Nat) : (s.forceSet a1 a2).rly = s.rly := rfl
@[simp] theorem State.forceSet_pins (s : State) (a1 : Nat) (a2 : Nat) : (s.forceSet a1 a2).pins = s.pins := rfl
@[simp] theorem State.forceSet_dur (s : State) (a1 : Nat) (a2 : Nat) : (s.forceSet a1 a2).dur = s.dur := rfl

/-! ### stage -/

@[simp] theorem State.stage_pending (s : State) (a1 : Nat) (a2 : BitVec 64) : (s.stage a1 a2).pending = s.pending := rfl
@[simp] theorem State.stage_out (s : State) (a1 : Nat) (a2 : BitVec 64) : (s.stage a1 a2).out = s.out := rfl
@[simp] theorem State.stage_free (s : State) (a1 : Nat) (a2 : BitVec 64) : (s.stage a1 a2).free = s.free := rfl
@[simp] theorem State.stage_stride (s : State) (a1 : Nat) (a2 : BitVec 64) : (s.stage a1 a2).stride = s.stride := rfl
@[simp] theorem State.stage_admSeq (s : State) (a1 : Nat) (a2 : BitVec 64) : (s.stage a1 a2).admSeq = s.admSeq := rfl
@[simp] theorem State.stage_lastRead (s : State) (a1 : Nat) (a2 : BitVec 64) : (s.stage a1 a2).lastRead = s.lastRead := rfl
@[simp] theorem State.stage_variant (s : State) (a1 : Nat) (a2 : BitVec 64) : (s.stage a1 a2).variant = s.variant := rfl
@[simp] theorem State.stage_deviceId (s : State) (a1 : Nat) (a2 : BitVec 64) : (s.stage a1 a2).deviceId = s.deviceId := rfl
@[simp] theorem State.stage_rw (s : State) (a1 : Nat) (a2 : BitVec 64) : (s.stage a1 a2).rw = s.rw := rfl
@[simp] theorem State.stage_inForce (s : State) (a1 : Nat) (a2 : BitVec 64) : (s.stage a1 a2).inForce = s.inForce := rfl
@[simp] theorem State.stage_errs (s : State) (a1 : Nat) (a2 : BitVec 64) : (s.stage a1 a2).errs = s.errs := rfl
@[simp] theorem State.stage_latches (s : State) (a1 : Nat) (a2 : BitVec 64) : (s.stage a1 a2).latches = s.latches := rfl
@[simp] theorem State.stage_dev (s : State) (a1 : Nat) (a2 : BitVec 64) : (s.stage a1 a2).dev = s.dev := rfl
@[simp] theorem State.stage_crs (s : State) (a1 : Nat) (a2 : BitVec 64) : (s.stage a1 a2).crs = s.crs := rfl
@[simp] theorem State.stage_evr (s : State) (a1 : Nat) (a2 : BitVec 64) : (s.stage a1 a2).evr = s.evr := rfl
@[simp] theorem State.stage_ports (s : State) (a1 : Nat) (a2 : BitVec 64) : (s.stage a1 a2).ports = s.ports := rfl
@[simp] theorem State.stage_link (s : State) (a1 : Nat) (a2 : BitVec 64) : (s.stage a1 a2).link = s.link := rfl
@[simp] theorem State.stage_msixPend (s : State) (a1 : Nat) (a2 : BitVec 64) : (s.stage a1 a2).msixPend = s.msixPend := rfl
@[simp] theorem State.stage_slc (s : State) (a1 : Nat) (a2 : BitVec 64) : (s.stage a1 a2).slc = s.slc := rfl
@[simp] theorem State.stage_slices (s : State) (a1 : Nat) (a2 : BitVec 64) : (s.stage a1 a2).slices = s.slices := rfl
@[simp] theorem State.stage_wbf (s : State) (a1 : Nat) (a2 : BitVec 64) : (s.stage a1 a2).wbf = s.wbf := rfl
@[simp] theorem State.stage_ftl (s : State) (a1 : Nat) (a2 : BitVec 64) : (s.stage a1 a2).ftl = s.ftl := rfl
@[simp] theorem State.stage_pwr (s : State) (a1 : Nat) (a2 : BitVec 64) : (s.stage a1 a2).pwr = s.pwr := rfl
@[simp] theorem State.stage_fij (s : State) (a1 : Nat) (a2 : BitVec 64) : (s.stage a1 a2).fij = s.fij := rfl
@[simp] theorem State.stage_cmb (s : State) (a1 : Nat) (a2 : BitVec 64) : (s.stage a1 a2).cmb = s.cmb := rfl
@[simp] theorem State.stage_mem (s : State) (a1 : Nat) (a2 : BitVec 64) : (s.stage a1 a2).mem = s.mem := rfl
@[simp] theorem State.stage_mpr (s : State) (a1 : Nat) (a2 : BitVec 64) : (s.stage a1 a2).mpr = s.mpr := rfl
@[simp] theorem State.stage_drcs (s : State) (a1 : Nat) (a2 : BitVec 64) : (s.stage a1 a2).drcs = s.drcs := rfl
@[simp] theorem State.stage_cores (s : State) (a1 : Nat) (a2 : BitVec 64) : (s.stage a1 a2).cores = s.cores := rfl
@[simp] theorem State.stage_heats (s : State) (a1 : Nat) (a2 : BitVec 64) : (s.stage a1 a2).heats = s.heats := rfl
@[simp] theorem State.stage_heatRegs (s : State) (a1 : Nat) (a2 : BitVec 64) : (s.stage a1 a2).heatRegs = s.heatRegs := rfl
@[simp] theorem State.stage_kst (s : State) (a1 : Nat) (a2 : BitVec 64) : (s.stage a1 a2).kst = s.kst := rfl
@[simp] theorem State.stage_sliceKeys (s : State) (a1 : Nat) (a2 : BitVec 64) : (s.stage a1 a2).sliceKeys = s.sliceKeys := rfl
@[simp] theorem State.stage_dgs (s : State) (a1 : Nat) (a2 : BitVec 64) : (s.stage a1 a2).dgs = s.dgs := rfl
@[simp] theorem State.stage_cph (s : State) (a1 : Nat) (a2 : BitVec 64) : (s.stage a1 a2).cph = s.cph := rfl
@[simp] theorem State.stage_instanceId (s : State) (a1 : Nat) (a2 : BitVec 64) : (s.stage a1 a2).instanceId = s.instanceId := rfl
@[simp] theorem State.stage_pat (s : State) (a1 : Nat) (a2 : BitVec 64) : (s.stage a1 a2).pat = s.pat := rfl
@[simp] theorem State.stage_hdl (s : State) (a1 : Nat) (a2 : BitVec 64) : (s.stage a1 a2).hdl = s.hdl := rfl
@[simp] theorem State.stage_rly (s : State) (a1 : Nat) (a2 : BitVec 64) : (s.stage a1 a2).rly = s.rly := rfl
@[simp] theorem State.stage_pins (s : State) (a1 : Nat) (a2 : BitVec 64) : (s.stage a1 a2).pins = s.pins := rfl
@[simp] theorem State.stage_dur (s : State) (a1 : Nat) (a2 : BitVec 64) : (s.stage a1 a2).dur = s.dur := rfl

/-! ### discard -/

@[simp] theorem State.discard_pending (s : State) (a1 : Nat) (a2 : Nat) (a3 : Nat) (a4 : Nat) : (s.discard a1 a2 a3 a4).pending = s.pending := rfl
@[simp] theorem State.discard_out (s : State) (a1 : Nat) (a2 : Nat) (a3 : Nat) (a4 : Nat) : (s.discard a1 a2 a3 a4).out = s.out := rfl
@[simp] theorem State.discard_free (s : State) (a1 : Nat) (a2 : Nat) (a3 : Nat) (a4 : Nat) : (s.discard a1 a2 a3 a4).free = s.free := rfl
@[simp] theorem State.discard_stride (s : State) (a1 : Nat) (a2 : Nat) (a3 : Nat) (a4 : Nat) : (s.discard a1 a2 a3 a4).stride = s.stride := rfl
@[simp] theorem State.discard_admSeq (s : State) (a1 : Nat) (a2 : Nat) (a3 : Nat) (a4 : Nat) : (s.discard a1 a2 a3 a4).admSeq = s.admSeq := rfl
@[simp] theorem State.discard_lastRead (s : State) (a1 : Nat) (a2 : Nat) (a3 : Nat) (a4 : Nat) : (s.discard a1 a2 a3 a4).lastRead = s.lastRead := rfl
@[simp] theorem State.discard_variant (s : State) (a1 : Nat) (a2 : Nat) (a3 : Nat) (a4 : Nat) : (s.discard a1 a2 a3 a4).variant = s.variant := rfl
@[simp] theorem State.discard_deviceId (s : State) (a1 : Nat) (a2 : Nat) (a3 : Nat) (a4 : Nat) : (s.discard a1 a2 a3 a4).deviceId = s.deviceId := rfl
@[simp] theorem State.discard_rw (s : State) (a1 : Nat) (a2 : Nat) (a3 : Nat) (a4 : Nat) : (s.discard a1 a2 a3 a4).rw = s.rw := rfl
@[simp] theorem State.discard_staged (s : State) (a1 : Nat) (a2 : Nat) (a3 : Nat) (a4 : Nat) : (s.discard a1 a2 a3 a4).staged = s.staged := rfl
@[simp] theorem State.discard_inForce (s : State) (a1 : Nat) (a2 : Nat) (a3 : Nat) (a4 : Nat) : (s.discard a1 a2 a3 a4).inForce = s.inForce := rfl
@[simp] theorem State.discard_latches (s : State) (a1 : Nat) (a2 : Nat) (a3 : Nat) (a4 : Nat) : (s.discard a1 a2 a3 a4).latches = s.latches := rfl
@[simp] theorem State.discard_dev (s : State) (a1 : Nat) (a2 : Nat) (a3 : Nat) (a4 : Nat) : (s.discard a1 a2 a3 a4).dev = s.dev := rfl
@[simp] theorem State.discard_crs (s : State) (a1 : Nat) (a2 : Nat) (a3 : Nat) (a4 : Nat) : (s.discard a1 a2 a3 a4).crs = s.crs := rfl
@[simp] theorem State.discard_ports (s : State) (a1 : Nat) (a2 : Nat) (a3 : Nat) (a4 : Nat) : (s.discard a1 a2 a3 a4).ports = s.ports := rfl
@[simp] theorem State.discard_link (s : State) (a1 : Nat) (a2 : Nat) (a3 : Nat) (a4 : Nat) : (s.discard a1 a2 a3 a4).link = s.link := rfl
@[simp] theorem State.discard_msixPend (s : State) (a1 : Nat) (a2 : Nat) (a3 : Nat) (a4 : Nat) : (s.discard a1 a2 a3 a4).msixPend = s.msixPend := rfl
@[simp] theorem State.discard_slc (s : State) (a1 : Nat) (a2 : Nat) (a3 : Nat) (a4 : Nat) : (s.discard a1 a2 a3 a4).slc = s.slc := rfl
@[simp] theorem State.discard_slices (s : State) (a1 : Nat) (a2 : Nat) (a3 : Nat) (a4 : Nat) : (s.discard a1 a2 a3 a4).slices = s.slices := rfl
@[simp] theorem State.discard_wbf (s : State) (a1 : Nat) (a2 : Nat) (a3 : Nat) (a4 : Nat) : (s.discard a1 a2 a3 a4).wbf = s.wbf := rfl
@[simp] theorem State.discard_ftl (s : State) (a1 : Nat) (a2 : Nat) (a3 : Nat) (a4 : Nat) : (s.discard a1 a2 a3 a4).ftl = s.ftl := rfl
@[simp] theorem State.discard_pwr (s : State) (a1 : Nat) (a2 : Nat) (a3 : Nat) (a4 : Nat) : (s.discard a1 a2 a3 a4).pwr = s.pwr := rfl
@[simp] theorem State.discard_fij (s : State) (a1 : Nat) (a2 : Nat) (a3 : Nat) (a4 : Nat) : (s.discard a1 a2 a3 a4).fij = s.fij := rfl
@[simp] theorem State.discard_cmb (s : State) (a1 : Nat) (a2 : Nat) (a3 : Nat) (a4 : Nat) : (s.discard a1 a2 a3 a4).cmb = s.cmb := rfl
@[simp] theorem State.discard_mem (s : State) (a1 : Nat) (a2 : Nat) (a3 : Nat) (a4 : Nat) : (s.discard a1 a2 a3 a4).mem = s.mem := rfl
@[simp] theorem State.discard_mpr (s : State) (a1 : Nat) (a2 : Nat) (a3 : Nat) (a4 : Nat) : (s.discard a1 a2 a3 a4).mpr = s.mpr := rfl
@[simp] theorem State.discard_drcs (s : State) (a1 : Nat) (a2 : Nat) (a3 : Nat) (a4 : Nat) : (s.discard a1 a2 a3 a4).drcs = s.drcs := rfl
@[simp] theorem State.discard_cores (s : State) (a1 : Nat) (a2 : Nat) (a3 : Nat) (a4 : Nat) : (s.discard a1 a2 a3 a4).cores = s.cores := rfl
@[simp] theorem State.discard_heats (s : State) (a1 : Nat) (a2 : Nat) (a3 : Nat) (a4 : Nat) : (s.discard a1 a2 a3 a4).heats = s.heats := rfl
@[simp] theorem State.discard_heatRegs (s : State) (a1 : Nat) (a2 : Nat) (a3 : Nat) (a4 : Nat) : (s.discard a1 a2 a3 a4).heatRegs = s.heatRegs := rfl
@[simp] theorem State.discard_kst (s : State) (a1 : Nat) (a2 : Nat) (a3 : Nat) (a4 : Nat) : (s.discard a1 a2 a3 a4).kst = s.kst := rfl
@[simp] theorem State.discard_sliceKeys (s : State) (a1 : Nat) (a2 : Nat) (a3 : Nat) (a4 : Nat) : (s.discard a1 a2 a3 a4).sliceKeys = s.sliceKeys := rfl
@[simp] theorem State.discard_dgs (s : State) (a1 : Nat) (a2 : Nat) (a3 : Nat) (a4 : Nat) : (s.discard a1 a2 a3 a4).dgs = s.dgs := rfl
@[simp] theorem State.discard_cph (s : State) (a1 : Nat) (a2 : Nat) (a3 : Nat) (a4 : Nat) : (s.discard a1 a2 a3 a4).cph = s.cph := rfl
@[simp] theorem State.discard_instanceId (s : State) (a1 : Nat) (a2 : Nat) (a3 : Nat) (a4 : Nat) : (s.discard a1 a2 a3 a4).instanceId = s.instanceId := rfl
@[simp] theorem State.discard_pat (s : State) (a1 : Nat) (a2 : Nat) (a3 : Nat) (a4 : Nat) : (s.discard a1 a2 a3 a4).pat = s.pat := rfl
@[simp] theorem State.discard_hdl (s : State) (a1 : Nat) (a2 : Nat) (a3 : Nat) (a4 : Nat) : (s.discard a1 a2 a3 a4).hdl = s.hdl := rfl
@[simp] theorem State.discard_rly (s : State) (a1 : Nat) (a2 : Nat) (a3 : Nat) (a4 : Nat) : (s.discard a1 a2 a3 a4).rly = s.rly := rfl
@[simp] theorem State.discard_pins (s : State) (a1 : Nat) (a2 : Nat) (a3 : Nat) (a4 : Nat) : (s.discard a1 a2 a3 a4).pins = s.pins := rfl
@[simp] theorem State.discard_dur (s : State) (a1 : Nat) (a2 : Nat) (a3 : Nat) (a4 : Nat) : (s.discard a1 a2 a3 a4).dur = s.dur := rfl

/-! ### setArr -/

@[simp] theorem State.setArr_pending (s : State) (a1 : Nat) (a2 : MemArr) : (s.setArr a1 a2).pending = s.pending := rfl
@[simp] theorem State.setArr_out (s : State) (a1 : Nat) (a2 : MemArr) : (s.setArr a1 a2).out = s.out := rfl
@[simp] theorem State.setArr_free (s : State) (a1 : Nat) (a2 : MemArr) : (s.setArr a1 a2).free = s.free := rfl
@[simp] theorem State.setArr_stride (s : State) (a1 : Nat) (a2 : MemArr) : (s.setArr a1 a2).stride = s.stride := rfl
@[simp] theorem State.setArr_admSeq (s : State) (a1 : Nat) (a2 : MemArr) : (s.setArr a1 a2).admSeq = s.admSeq := rfl
@[simp] theorem State.setArr_lastRead (s : State) (a1 : Nat) (a2 : MemArr) : (s.setArr a1 a2).lastRead = s.lastRead := rfl
@[simp] theorem State.setArr_variant (s : State) (a1 : Nat) (a2 : MemArr) : (s.setArr a1 a2).variant = s.variant := rfl
@[simp] theorem State.setArr_deviceId (s : State) (a1 : Nat) (a2 : MemArr) : (s.setArr a1 a2).deviceId = s.deviceId := rfl
@[simp] theorem State.setArr_rw (s : State) (a1 : Nat) (a2 : MemArr) : (s.setArr a1 a2).rw = s.rw := rfl
@[simp] theorem State.setArr_staged (s : State) (a1 : Nat) (a2 : MemArr) : (s.setArr a1 a2).staged = s.staged := rfl
@[simp] theorem State.setArr_inForce (s : State) (a1 : Nat) (a2 : MemArr) : (s.setArr a1 a2).inForce = s.inForce := rfl
@[simp] theorem State.setArr_errs (s : State) (a1 : Nat) (a2 : MemArr) : (s.setArr a1 a2).errs = s.errs := rfl
@[simp] theorem State.setArr_latches (s : State) (a1 : Nat) (a2 : MemArr) : (s.setArr a1 a2).latches = s.latches := rfl
@[simp] theorem State.setArr_dev (s : State) (a1 : Nat) (a2 : MemArr) : (s.setArr a1 a2).dev = s.dev := rfl
@[simp] theorem State.setArr_crs (s : State) (a1 : Nat) (a2 : MemArr) : (s.setArr a1 a2).crs = s.crs := rfl
@[simp] theorem State.setArr_evr (s : State) (a1 : Nat) (a2 : MemArr) : (s.setArr a1 a2).evr = s.evr := rfl
@[simp] theorem State.setArr_ports (s : State) (a1 : Nat) (a2 : MemArr) : (s.setArr a1 a2).ports = s.ports := rfl
@[simp] theorem State.setArr_link (s : State) (a1 : Nat) (a2 : MemArr) : (s.setArr a1 a2).link = s.link := rfl
@[simp] theorem State.setArr_msixPend (s : State) (a1 : Nat) (a2 : MemArr) : (s.setArr a1 a2).msixPend = s.msixPend := rfl
@[simp] theorem State.setArr_slc (s : State) (a1 : Nat) (a2 : MemArr) : (s.setArr a1 a2).slc = s.slc := rfl
@[simp] theorem State.setArr_slices (s : State) (a1 : Nat) (a2 : MemArr) : (s.setArr a1 a2).slices = s.slices := rfl
@[simp] theorem State.setArr_wbf (s : State) (a1 : Nat) (a2 : MemArr) : (s.setArr a1 a2).wbf = s.wbf := rfl
@[simp] theorem State.setArr_ftl (s : State) (a1 : Nat) (a2 : MemArr) : (s.setArr a1 a2).ftl = s.ftl := rfl
@[simp] theorem State.setArr_pwr (s : State) (a1 : Nat) (a2 : MemArr) : (s.setArr a1 a2).pwr = s.pwr := rfl
@[simp] theorem State.setArr_fij (s : State) (a1 : Nat) (a2 : MemArr) : (s.setArr a1 a2).fij = s.fij := rfl
@[simp] theorem State.setArr_cmb (s : State) (a1 : Nat) (a2 : MemArr) : (s.setArr a1 a2).cmb = s.cmb := rfl
@[simp] theorem State.setArr_mpr (s : State) (a1 : Nat) (a2 : MemArr) : (s.setArr a1 a2).mpr = s.mpr := rfl
@[simp] theorem State.setArr_drcs (s : State) (a1 : Nat) (a2 : MemArr) : (s.setArr a1 a2).drcs = s.drcs := rfl
@[simp] theorem State.setArr_cores (s : State) (a1 : Nat) (a2 : MemArr) : (s.setArr a1 a2).cores = s.cores := rfl
@[simp] theorem State.setArr_heats (s : State) (a1 : Nat) (a2 : MemArr) : (s.setArr a1 a2).heats = s.heats := rfl
@[simp] theorem State.setArr_heatRegs (s : State) (a1 : Nat) (a2 : MemArr) : (s.setArr a1 a2).heatRegs = s.heatRegs := rfl
@[simp] theorem State.setArr_kst (s : State) (a1 : Nat) (a2 : MemArr) : (s.setArr a1 a2).kst = s.kst := rfl
@[simp] theorem State.setArr_sliceKeys (s : State) (a1 : Nat) (a2 : MemArr) : (s.setArr a1 a2).sliceKeys = s.sliceKeys := rfl
@[simp] theorem State.setArr_dgs (s : State) (a1 : Nat) (a2 : MemArr) : (s.setArr a1 a2).dgs = s.dgs := rfl
@[simp] theorem State.setArr_cph (s : State) (a1 : Nat) (a2 : MemArr) : (s.setArr a1 a2).cph = s.cph := rfl
@[simp] theorem State.setArr_instanceId (s : State) (a1 : Nat) (a2 : MemArr) : (s.setArr a1 a2).instanceId = s.instanceId := rfl
@[simp] theorem State.setArr_pat (s : State) (a1 : Nat) (a2 : MemArr) : (s.setArr a1 a2).pat = s.pat := rfl
@[simp] theorem State.setArr_hdl (s : State) (a1 : Nat) (a2 : MemArr) : (s.setArr a1 a2).hdl = s.hdl := rfl
@[simp] theorem State.setArr_rly (s : State) (a1 : Nat) (a2 : MemArr) : (s.setArr a1 a2).rly = s.rly := rfl
@[simp] theorem State.setArr_pins (s : State) (a1 : Nat) (a2 : MemArr) : (s.setArr a1 a2).pins = s.pins := rfl
@[simp] theorem State.setArr_dur (s : State) (a1 : Nat) (a2 : MemArr) : (s.setArr a1 a2).dur = s.dur := rfl

/-! ### modArr -/

@[simp] theorem State.modArr_pending (s : State) (a1 : Nat) (a2 : MemArr → MemArr) : (s.modArr a1 a2).pending = s.pending := rfl
@[simp] theorem State.modArr_out (s : State) (a1 : Nat) (a2 : MemArr → MemArr) : (s.modArr a1 a2).out = s.out := rfl
@[simp] theorem State.modArr_free (s : State) (a1 : Nat) (a2 : MemArr → MemArr) : (s.modArr a1 a2).free = s.free := rfl
@[simp] theorem State.modArr_stride (s : State) (a1 : Nat) (a2 : MemArr → MemArr) : (s.modArr a1 a2).stride = s.stride := rfl
@[simp] theorem State.modArr_admSeq (s : State) (a1 : Nat) (a2 : MemArr → MemArr) : (s.modArr a1 a2).admSeq = s.admSeq := rfl
@[simp] theorem State.modArr_lastRead (s : State) (a1 : Nat) (a2 : MemArr → MemArr) : (s.modArr a1 a2).lastRead = s.lastRead := rfl
@[simp] theorem State.modArr_variant (s : State) (a1 : Nat) (a2 : MemArr → MemArr) : (s.modArr a1 a2).variant = s.variant := rfl
@[simp] theorem State.modArr_deviceId (s : State) (a1 : Nat) (a2 : MemArr → MemArr) : (s.modArr a1 a2).deviceId = s.deviceId := rfl
@[simp] theorem State.modArr_rw (s : State) (a1 : Nat) (a2 : MemArr → MemArr) : (s.modArr a1 a2).rw = s.rw := rfl
@[simp] theorem State.modArr_staged (s : State) (a1 : Nat) (a2 : MemArr → MemArr) : (s.modArr a1 a2).staged = s.staged := rfl
@[simp] theorem State.modArr_inForce (s : State) (a1 : Nat) (a2 : MemArr → MemArr) : (s.modArr a1 a2).inForce = s.inForce := rfl
@[simp] theorem State.modArr_errs (s : State) (a1 : Nat) (a2 : MemArr → MemArr) : (s.modArr a1 a2).errs = s.errs := rfl
@[simp] theorem State.modArr_latches (s : State) (a1 : Nat) (a2 : MemArr → MemArr) : (s.modArr a1 a2).latches = s.latches := rfl
@[simp] theorem State.modArr_dev (s : State) (a1 : Nat) (a2 : MemArr → MemArr) : (s.modArr a1 a2).dev = s.dev := rfl
@[simp] theorem State.modArr_crs (s : State) (a1 : Nat) (a2 : MemArr → MemArr) : (s.modArr a1 a2).crs = s.crs := rfl
@[simp] theorem State.modArr_evr (s : State) (a1 : Nat) (a2 : MemArr → MemArr) : (s.modArr a1 a2).evr = s.evr := rfl
@[simp] theorem State.modArr_ports (s : State) (a1 : Nat) (a2 : MemArr → MemArr) : (s.modArr a1 a2).ports = s.ports := rfl
@[simp] theorem State.modArr_link (s : State) (a1 : Nat) (a2 : MemArr → MemArr) : (s.modArr a1 a2).link = s.link := rfl
@[simp] theorem State.modArr_msixPend (s : State) (a1 : Nat) (a2 : MemArr → MemArr) : (s.modArr a1 a2).msixPend = s.msixPend := rfl
@[simp] theorem State.modArr_slc (s : State) (a1 : Nat) (a2 : MemArr → MemArr) : (s.modArr a1 a2).slc = s.slc := rfl
@[simp] theorem State.modArr_slices (s : State) (a1 : Nat) (a2 : MemArr → MemArr) : (s.modArr a1 a2).slices = s.slices := rfl
@[simp] theorem State.modArr_wbf (s : State) (a1 : Nat) (a2 : MemArr → MemArr) : (s.modArr a1 a2).wbf = s.wbf := rfl
@[simp] theorem State.modArr_ftl (s : State) (a1 : Nat) (a2 : MemArr → MemArr) : (s.modArr a1 a2).ftl = s.ftl := rfl
@[simp] theorem State.modArr_pwr (s : State) (a1 : Nat) (a2 : MemArr → MemArr) : (s.modArr a1 a2).pwr = s.pwr := rfl
@[simp] theorem State.modArr_fij (s : State) (a1 : Nat) (a2 : MemArr → MemArr) : (s.modArr a1 a2).fij = s.fij := rfl
@[simp] theorem State.modArr_cmb (s : State) (a1 : Nat) (a2 : MemArr → MemArr) : (s.modArr a1 a2).cmb = s.cmb := rfl
@[simp] theorem State.modArr_mpr (s : State) (a1 : Nat) (a2 : MemArr → MemArr) : (s.modArr a1 a2).mpr = s.mpr := rfl
@[simp] theorem State.modArr_drcs (s : State) (a1 : Nat) (a2 : MemArr → MemArr) : (s.modArr a1 a2).drcs = s.drcs := rfl
@[simp] theorem State.modArr_cores (s : State) (a1 : Nat) (a2 : MemArr → MemArr) : (s.modArr a1 a2).cores = s.cores := rfl
@[simp] theorem State.modArr_heats (s : State) (a1 : Nat) (a2 : MemArr → MemArr) : (s.modArr a1 a2).heats = s.heats := rfl
@[simp] theorem State.modArr_heatRegs (s : State) (a1 : Nat) (a2 : MemArr → MemArr) : (s.modArr a1 a2).heatRegs = s.heatRegs := rfl
@[simp] theorem State.modArr_kst (s : State) (a1 : Nat) (a2 : MemArr → MemArr) : (s.modArr a1 a2).kst = s.kst := rfl
@[simp] theorem State.modArr_sliceKeys (s : State) (a1 : Nat) (a2 : MemArr → MemArr) : (s.modArr a1 a2).sliceKeys = s.sliceKeys := rfl
@[simp] theorem State.modArr_dgs (s : State) (a1 : Nat) (a2 : MemArr → MemArr) : (s.modArr a1 a2).dgs = s.dgs := rfl
@[simp] theorem State.modArr_cph (s : State) (a1 : Nat) (a2 : MemArr → MemArr) : (s.modArr a1 a2).cph = s.cph := rfl
@[simp] theorem State.modArr_instanceId (s : State) (a1 : Nat) (a2 : MemArr → MemArr) : (s.modArr a1 a2).instanceId = s.instanceId := rfl
@[simp] theorem State.modArr_pat (s : State) (a1 : Nat) (a2 : MemArr → MemArr) : (s.modArr a1 a2).pat = s.pat := rfl
@[simp] theorem State.modArr_hdl (s : State) (a1 : Nat) (a2 : MemArr → MemArr) : (s.modArr a1 a2).hdl = s.hdl := rfl
@[simp] theorem State.modArr_rly (s : State) (a1 : Nat) (a2 : MemArr → MemArr) : (s.modArr a1 a2).rly = s.rly := rfl
@[simp] theorem State.modArr_pins (s : State) (a1 : Nat) (a2 : MemArr → MemArr) : (s.modArr a1 a2).pins = s.pins := rfl
@[simp] theorem State.modArr_dur (s : State) (a1 : Nat) (a2 : MemArr → MemArr) : (s.modArr a1 a2).dur = s.dur := rfl

/-! ### setCore -/

@[simp] theorem State.setCore_pending (s : State) (a1 : Nat) (a2 : Core) : (s.setCore a1 a2).pending = s.pending := rfl
@[simp] theorem State.setCore_out (s : State) (a1 : Nat) (a2 : Core) : (s.setCore a1 a2).out = s.out := rfl
@[simp] theorem State.setCore_free (s : State) (a1 : Nat) (a2 : Core) : (s.setCore a1 a2).free = s.free := rfl
@[simp] theorem State.setCore_stride (s : State) (a1 : Nat) (a2 : Core) : (s.setCore a1 a2).stride = s.stride := rfl
@[simp] theorem State.setCore_admSeq (s : State) (a1 : Nat) (a2 : Core) : (s.setCore a1 a2).admSeq = s.admSeq := rfl
@[simp] theorem State.setCore_lastRead (s : State) (a1 : Nat) (a2 : Core) : (s.setCore a1 a2).lastRead = s.lastRead := rfl
@[simp] theorem State.setCore_variant (s : State) (a1 : Nat) (a2 : Core) : (s.setCore a1 a2).variant = s.variant := rfl
@[simp] theorem State.setCore_deviceId (s : State) (a1 : Nat) (a2 : Core) : (s.setCore a1 a2).deviceId = s.deviceId := rfl
@[simp] theorem State.setCore_rw (s : State) (a1 : Nat) (a2 : Core) : (s.setCore a1 a2).rw = s.rw := rfl
@[simp] theorem State.setCore_staged (s : State) (a1 : Nat) (a2 : Core) : (s.setCore a1 a2).staged = s.staged := rfl
@[simp] theorem State.setCore_inForce (s : State) (a1 : Nat) (a2 : Core) : (s.setCore a1 a2).inForce = s.inForce := rfl
@[simp] theorem State.setCore_errs (s : State) (a1 : Nat) (a2 : Core) : (s.setCore a1 a2).errs = s.errs := rfl
@[simp] theorem State.setCore_latches (s : State) (a1 : Nat) (a2 : Core) : (s.setCore a1 a2).latches = s.latches := rfl
@[simp] theorem State.setCore_dev (s : State) (a1 : Nat) (a2 : Core) : (s.setCore a1 a2).dev = s.dev := rfl
@[simp] theorem State.setCore_crs (s : State) (a1 : Nat) (a2 : Core) : (s.setCore a1 a2).crs = s.crs := rfl
@[simp] theorem State.setCore_evr (s : State) (a1 : Nat) (a2 : Core) : (s.setCore a1 a2).evr = s.evr := rfl
@[simp] theorem State.setCore_ports (s : State) (a1 : Nat) (a2 : Core) : (s.setCore a1 a2).ports = s.ports := rfl
@[simp] theorem State.setCore_link (s : State) (a1 : Nat) (a2 : Core) : (s.setCore a1 a2).link = s.link := rfl
@[simp] theorem State.setCore_msixPend (s : State) (a1 : Nat) (a2 : Core) : (s.setCore a1 a2).msixPend = s.msixPend := rfl
@[simp] theorem State.setCore_slc (s : State) (a1 : Nat) (a2 : Core) : (s.setCore a1 a2).slc = s.slc := rfl
@[simp] theorem State.setCore_slices (s : State) (a1 : Nat) (a2 : Core) : (s.setCore a1 a2).slices = s.slices := rfl
@[simp] theorem State.setCore_wbf (s : State) (a1 : Nat) (a2 : Core) : (s.setCore a1 a2).wbf = s.wbf := rfl
@[simp] theorem State.setCore_ftl (s : State) (a1 : Nat) (a2 : Core) : (s.setCore a1 a2).ftl = s.ftl := rfl
@[simp] theorem State.setCore_pwr (s : State) (a1 : Nat) (a2 : Core) : (s.setCore a1 a2).pwr = s.pwr := rfl
@[simp] theorem State.setCore_fij (s : State) (a1 : Nat) (a2 : Core) : (s.setCore a1 a2).fij = s.fij := rfl
@[simp] theorem State.setCore_cmb (s : State) (a1 : Nat) (a2 : Core) : (s.setCore a1 a2).cmb = s.cmb := rfl
@[simp] theorem State.setCore_mem (s : State) (a1 : Nat) (a2 : Core) : (s.setCore a1 a2).mem = s.mem := rfl
@[simp] theorem State.setCore_mpr (s : State) (a1 : Nat) (a2 : Core) : (s.setCore a1 a2).mpr = s.mpr := rfl
@[simp] theorem State.setCore_drcs (s : State) (a1 : Nat) (a2 : Core) : (s.setCore a1 a2).drcs = s.drcs := rfl
@[simp] theorem State.setCore_heats (s : State) (a1 : Nat) (a2 : Core) : (s.setCore a1 a2).heats = s.heats := rfl
@[simp] theorem State.setCore_heatRegs (s : State) (a1 : Nat) (a2 : Core) : (s.setCore a1 a2).heatRegs = s.heatRegs := rfl
@[simp] theorem State.setCore_kst (s : State) (a1 : Nat) (a2 : Core) : (s.setCore a1 a2).kst = s.kst := rfl
@[simp] theorem State.setCore_sliceKeys (s : State) (a1 : Nat) (a2 : Core) : (s.setCore a1 a2).sliceKeys = s.sliceKeys := rfl
@[simp] theorem State.setCore_dgs (s : State) (a1 : Nat) (a2 : Core) : (s.setCore a1 a2).dgs = s.dgs := rfl
@[simp] theorem State.setCore_cph (s : State) (a1 : Nat) (a2 : Core) : (s.setCore a1 a2).cph = s.cph := rfl
@[simp] theorem State.setCore_instanceId (s : State) (a1 : Nat) (a2 : Core) : (s.setCore a1 a2).instanceId = s.instanceId := rfl
@[simp] theorem State.setCore_pat (s : State) (a1 : Nat) (a2 : Core) : (s.setCore a1 a2).pat = s.pat := rfl
@[simp] theorem State.setCore_hdl (s : State) (a1 : Nat) (a2 : Core) : (s.setCore a1 a2).hdl = s.hdl := rfl
@[simp] theorem State.setCore_rly (s : State) (a1 : Nat) (a2 : Core) : (s.setCore a1 a2).rly = s.rly := rfl
@[simp] theorem State.setCore_pins (s : State) (a1 : Nat) (a2 : Core) : (s.setCore a1 a2).pins = s.pins := rfl
@[simp] theorem State.setCore_dur (s : State) (a1 : Nat) (a2 : Core) : (s.setCore a1 a2).dur = s.dur := rfl

/-! ### modCore -/

@[simp] theorem State.modCore_pending (s : State) (a1 : Nat) (a2 : Core → Core) : (s.modCore a1 a2).pending = s.pending := rfl
@[simp] theorem State.modCore_out (s : State) (a1 : Nat) (a2 : Core → Core) : (s.modCore a1 a2).out = s.out := rfl
@[simp] theorem State.modCore_free (s : State) (a1 : Nat) (a2 : Core → Core) : (s.modCore a1 a2).free = s.free := rfl
@[simp] theorem State.modCore_stride (s : State) (a1 : Nat) (a2 : Core → Core) : (s.modCore a1 a2).stride = s.stride := rfl
@[simp] theorem State.modCore_admSeq (s : State) (a1 : Nat) (a2 : Core → Core) : (s.modCore a1 a2).admSeq = s.admSeq := rfl
@[simp] theorem State.modCore_lastRead (s : State) (a1 : Nat) (a2 : Core → Core) : (s.modCore a1 a2).lastRead = s.lastRead := rfl
@[simp] theorem State.modCore_variant (s : State) (a1 : Nat) (a2 : Core → Core) : (s.modCore a1 a2).variant = s.variant := rfl
@[simp] theorem State.modCore_deviceId (s : State) (a1 : Nat) (a2 : Core → Core) : (s.modCore a1 a2).deviceId = s.deviceId := rfl
@[simp] theorem State.modCore_rw (s : State) (a1 : Nat) (a2 : Core → Core) : (s.modCore a1 a2).rw = s.rw := rfl
@[simp] theorem State.modCore_staged (s : State) (a1 : Nat) (a2 : Core → Core) : (s.modCore a1 a2).staged = s.staged := rfl
@[simp] theorem State.modCore_inForce (s : State) (a1 : Nat) (a2 : Core → Core) : (s.modCore a1 a2).inForce = s.inForce := rfl
@[simp] theorem State.modCore_errs (s : State) (a1 : Nat) (a2 : Core → Core) : (s.modCore a1 a2).errs = s.errs := rfl
@[simp] theorem State.modCore_latches (s : State) (a1 : Nat) (a2 : Core → Core) : (s.modCore a1 a2).latches = s.latches := rfl
@[simp] theorem State.modCore_dev (s : State) (a1 : Nat) (a2 : Core → Core) : (s.modCore a1 a2).dev = s.dev := rfl
@[simp] theorem State.modCore_crs (s : State) (a1 : Nat) (a2 : Core → Core) : (s.modCore a1 a2).crs = s.crs := rfl
@[simp] theorem State.modCore_evr (s : State) (a1 : Nat) (a2 : Core → Core) : (s.modCore a1 a2).evr = s.evr := rfl
@[simp] theorem State.modCore_ports (s : State) (a1 : Nat) (a2 : Core → Core) : (s.modCore a1 a2).ports = s.ports := rfl
@[simp] theorem State.modCore_link (s : State) (a1 : Nat) (a2 : Core → Core) : (s.modCore a1 a2).link = s.link := rfl
@[simp] theorem State.modCore_msixPend (s : State) (a1 : Nat) (a2 : Core → Core) : (s.modCore a1 a2).msixPend = s.msixPend := rfl
@[simp] theorem State.modCore_slc (s : State) (a1 : Nat) (a2 : Core → Core) : (s.modCore a1 a2).slc = s.slc := rfl
@[simp] theorem State.modCore_slices (s : State) (a1 : Nat) (a2 : Core → Core) : (s.modCore a1 a2).slices = s.slices := rfl
@[simp] theorem State.modCore_wbf (s : State) (a1 : Nat) (a2 : Core → Core) : (s.modCore a1 a2).wbf = s.wbf := rfl
@[simp] theorem State.modCore_ftl (s : State) (a1 : Nat) (a2 : Core → Core) : (s.modCore a1 a2).ftl = s.ftl := rfl
@[simp] theorem State.modCore_pwr (s : State) (a1 : Nat) (a2 : Core → Core) : (s.modCore a1 a2).pwr = s.pwr := rfl
@[simp] theorem State.modCore_fij (s : State) (a1 : Nat) (a2 : Core → Core) : (s.modCore a1 a2).fij = s.fij := rfl
@[simp] theorem State.modCore_cmb (s : State) (a1 : Nat) (a2 : Core → Core) : (s.modCore a1 a2).cmb = s.cmb := rfl
@[simp] theorem State.modCore_mem (s : State) (a1 : Nat) (a2 : Core → Core) : (s.modCore a1 a2).mem = s.mem := rfl
@[simp] theorem State.modCore_mpr (s : State) (a1 : Nat) (a2 : Core → Core) : (s.modCore a1 a2).mpr = s.mpr := rfl
@[simp] theorem State.modCore_drcs (s : State) (a1 : Nat) (a2 : Core → Core) : (s.modCore a1 a2).drcs = s.drcs := rfl
@[simp] theorem State.modCore_heats (s : State) (a1 : Nat) (a2 : Core → Core) : (s.modCore a1 a2).heats = s.heats := rfl
@[simp] theorem State.modCore_heatRegs (s : State) (a1 : Nat) (a2 : Core → Core) : (s.modCore a1 a2).heatRegs = s.heatRegs := rfl
@[simp] theorem State.modCore_kst (s : State) (a1 : Nat) (a2 : Core → Core) : (s.modCore a1 a2).kst = s.kst := rfl
@[simp] theorem State.modCore_sliceKeys (s : State) (a1 : Nat) (a2 : Core → Core) : (s.modCore a1 a2).sliceKeys = s.sliceKeys := rfl
@[simp] theorem State.modCore_dgs (s : State) (a1 : Nat) (a2 : Core → Core) : (s.modCore a1 a2).dgs = s.dgs := rfl
@[simp] theorem State.modCore_cph (s : State) (a1 : Nat) (a2 : Core → Core) : (s.modCore a1 a2).cph = s.cph := rfl
@[simp] theorem State.modCore_instanceId (s : State) (a1 : Nat) (a2 : Core → Core) : (s.modCore a1 a2).instanceId = s.instanceId := rfl
@[simp] theorem State.modCore_pat (s : State) (a1 : Nat) (a2 : Core → Core) : (s.modCore a1 a2).pat = s.pat := rfl
@[simp] theorem State.modCore_hdl (s : State) (a1 : Nat) (a2 : Core → Core) : (s.modCore a1 a2).hdl = s.hdl := rfl
@[simp] theorem State.modCore_rly (s : State) (a1 : Nat) (a2 : Core → Core) : (s.modCore a1 a2).rly = s.rly := rfl
@[simp] theorem State.modCore_pins (s : State) (a1 : Nat) (a2 : Core → Core) : (s.modCore a1 a2).pins = s.pins := rfl
@[simp] theorem State.modCore_dur (s : State) (a1 : Nat) (a2 : Core → Core) : (s.modCore a1 a2).dur = s.dur := rfl

/-! ### setFtl -/

@[simp] theorem State.setFtl_pending (s : State) (a1 : Ftl) : (s.setFtl a1).pending = s.pending := rfl
@[simp] theorem State.setFtl_out (s : State) (a1 : Ftl) : (s.setFtl a1).out = s.out := rfl
@[simp] theorem State.setFtl_free (s : State) (a1 : Ftl) : (s.setFtl a1).free = s.free := rfl
@[simp] theorem State.setFtl_stride (s : State) (a1 : Ftl) : (s.setFtl a1).stride = s.stride := rfl
@[simp] theorem State.setFtl_admSeq (s : State) (a1 : Ftl) : (s.setFtl a1).admSeq = s.admSeq := rfl
@[simp] theorem State.setFtl_lastRead (s : State) (a1 : Ftl) : (s.setFtl a1).lastRead = s.lastRead := rfl
@[simp] theorem State.setFtl_variant (s : State) (a1 : Ftl) : (s.setFtl a1).variant = s.variant := rfl
@[simp] theorem State.setFtl_deviceId (s : State) (a1 : Ftl) : (s.setFtl a1).deviceId = s.deviceId := rfl
@[simp] theorem State.setFtl_rw (s : State) (a1 : Ftl) : (s.setFtl a1).rw = s.rw := rfl
@[simp] theorem State.setFtl_staged (s : State) (a1 : Ftl) : (s.setFtl a1).staged = s.staged := rfl
@[simp] theorem State.setFtl_inForce (s : State) (a1 : Ftl) : (s.setFtl a1).inForce = s.inForce := rfl
@[simp] theorem State.setFtl_errs (s : State) (a1 : Ftl) : (s.setFtl a1).errs = s.errs := rfl
@[simp] theorem State.setFtl_latches (s : State) (a1 : Ftl) : (s.setFtl a1).latches = s.latches := rfl
@[simp] theorem State.setFtl_dev (s : State) (a1 : Ftl) : (s.setFtl a1).dev = s.dev := rfl
@[simp] theorem State.setFtl_crs (s : State) (a1 : Ftl) : (s.setFtl a1).crs = s.crs := rfl
@[simp] theorem State.setFtl_evr (s : State) (a1 : Ftl) : (s.setFtl a1).evr = s.evr := rfl
@[simp] theorem State.setFtl_ports (s : State) (a1 : Ftl) : (s.setFtl a1).ports = s.ports := rfl
@[simp] theorem State.setFtl_link (s : State) (a1 : Ftl) : (s.setFtl a1).link = s.link := rfl
@[simp] theorem State.setFtl_msixPend (s : State) (a1 : Ftl) : (s.setFtl a1).msixPend = s.msixPend := rfl
@[simp] theorem State.setFtl_slc (s : State) (a1 : Ftl) : (s.setFtl a1).slc = s.slc := rfl
@[simp] theorem State.setFtl_slices (s : State) (a1 : Ftl) : (s.setFtl a1).slices = s.slices := rfl
@[simp] theorem State.setFtl_wbf (s : State) (a1 : Ftl) : (s.setFtl a1).wbf = s.wbf := rfl
@[simp] theorem State.setFtl_pwr (s : State) (a1 : Ftl) : (s.setFtl a1).pwr = s.pwr := rfl
@[simp] theorem State.setFtl_fij (s : State) (a1 : Ftl) : (s.setFtl a1).fij = s.fij := rfl
@[simp] theorem State.setFtl_cmb (s : State) (a1 : Ftl) : (s.setFtl a1).cmb = s.cmb := rfl
@[simp] theorem State.setFtl_mem (s : State) (a1 : Ftl) : (s.setFtl a1).mem = s.mem := rfl
@[simp] theorem State.setFtl_mpr (s : State) (a1 : Ftl) : (s.setFtl a1).mpr = s.mpr := rfl
@[simp] theorem State.setFtl_drcs (s : State) (a1 : Ftl) : (s.setFtl a1).drcs = s.drcs := rfl
@[simp] theorem State.setFtl_cores (s : State) (a1 : Ftl) : (s.setFtl a1).cores = s.cores := rfl
@[simp] theorem State.setFtl_heats (s : State) (a1 : Ftl) : (s.setFtl a1).heats = s.heats := rfl
@[simp] theorem State.setFtl_heatRegs (s : State) (a1 : Ftl) : (s.setFtl a1).heatRegs = s.heatRegs := rfl
@[simp] theorem State.setFtl_kst (s : State) (a1 : Ftl) : (s.setFtl a1).kst = s.kst := rfl
@[simp] theorem State.setFtl_sliceKeys (s : State) (a1 : Ftl) : (s.setFtl a1).sliceKeys = s.sliceKeys := rfl
@[simp] theorem State.setFtl_dgs (s : State) (a1 : Ftl) : (s.setFtl a1).dgs = s.dgs := rfl
@[simp] theorem State.setFtl_cph (s : State) (a1 : Ftl) : (s.setFtl a1).cph = s.cph := rfl
@[simp] theorem State.setFtl_instanceId (s : State) (a1 : Ftl) : (s.setFtl a1).instanceId = s.instanceId := rfl
@[simp] theorem State.setFtl_pat (s : State) (a1 : Ftl) : (s.setFtl a1).pat = s.pat := rfl
@[simp] theorem State.setFtl_hdl (s : State) (a1 : Ftl) : (s.setFtl a1).hdl = s.hdl := rfl
@[simp] theorem State.setFtl_rly (s : State) (a1 : Ftl) : (s.setFtl a1).rly = s.rly := rfl
@[simp] theorem State.setFtl_pins (s : State) (a1 : Ftl) : (s.setFtl a1).pins = s.pins := rfl
@[simp] theorem State.setFtl_dur (s : State) (a1 : Ftl) : (s.setFtl a1).dur = s.dur := rfl

/-! ### modBlk -/

@[simp] theorem State.modBlk_pending (s : State) (a1 : Nat) (a2 : Blk → Blk) : (s.modBlk a1 a2).pending = s.pending := rfl
@[simp] theorem State.modBlk_out (s : State) (a1 : Nat) (a2 : Blk → Blk) : (s.modBlk a1 a2).out = s.out := rfl
@[simp] theorem State.modBlk_free (s : State) (a1 : Nat) (a2 : Blk → Blk) : (s.modBlk a1 a2).free = s.free := rfl
@[simp] theorem State.modBlk_stride (s : State) (a1 : Nat) (a2 : Blk → Blk) : (s.modBlk a1 a2).stride = s.stride := rfl
@[simp] theorem State.modBlk_admSeq (s : State) (a1 : Nat) (a2 : Blk → Blk) : (s.modBlk a1 a2).admSeq = s.admSeq := rfl
@[simp] theorem State.modBlk_lastRead (s : State) (a1 : Nat) (a2 : Blk → Blk) : (s.modBlk a1 a2).lastRead = s.lastRead := rfl
@[simp] theorem State.modBlk_variant (s : State) (a1 : Nat) (a2 : Blk → Blk) : (s.modBlk a1 a2).variant = s.variant := rfl
@[simp] theorem State.modBlk_deviceId (s : State) (a1 : Nat) (a2 : Blk → Blk) : (s.modBlk a1 a2).deviceId = s.deviceId := rfl
@[simp] theorem State.modBlk_rw (s : State) (a1 : Nat) (a2 : Blk → Blk) : (s.modBlk a1 a2).rw = s.rw := rfl
@[simp] theorem State.modBlk_staged (s : State) (a1 : Nat) (a2 : Blk → Blk) : (s.modBlk a1 a2).staged = s.staged := rfl
@[simp] theorem State.modBlk_inForce (s : State) (a1 : Nat) (a2 : Blk → Blk) : (s.modBlk a1 a2).inForce = s.inForce := rfl
@[simp] theorem State.modBlk_errs (s : State) (a1 : Nat) (a2 : Blk → Blk) : (s.modBlk a1 a2).errs = s.errs := rfl
@[simp] theorem State.modBlk_latches (s : State) (a1 : Nat) (a2 : Blk → Blk) : (s.modBlk a1 a2).latches = s.latches := rfl
@[simp] theorem State.modBlk_dev (s : State) (a1 : Nat) (a2 : Blk → Blk) : (s.modBlk a1 a2).dev = s.dev := rfl
@[simp] theorem State.modBlk_crs (s : State) (a1 : Nat) (a2 : Blk → Blk) : (s.modBlk a1 a2).crs = s.crs := rfl
@[simp] theorem State.modBlk_evr (s : State) (a1 : Nat) (a2 : Blk → Blk) : (s.modBlk a1 a2).evr = s.evr := rfl
@[simp] theorem State.modBlk_ports (s : State) (a1 : Nat) (a2 : Blk → Blk) : (s.modBlk a1 a2).ports = s.ports := rfl
@[simp] theorem State.modBlk_link (s : State) (a1 : Nat) (a2 : Blk → Blk) : (s.modBlk a1 a2).link = s.link := rfl
@[simp] theorem State.modBlk_msixPend (s : State) (a1 : Nat) (a2 : Blk → Blk) : (s.modBlk a1 a2).msixPend = s.msixPend := rfl
@[simp] theorem State.modBlk_slc (s : State) (a1 : Nat) (a2 : Blk → Blk) : (s.modBlk a1 a2).slc = s.slc := rfl
@[simp] theorem State.modBlk_slices (s : State) (a1 : Nat) (a2 : Blk → Blk) : (s.modBlk a1 a2).slices = s.slices := rfl
@[simp] theorem State.modBlk_wbf (s : State) (a1 : Nat) (a2 : Blk → Blk) : (s.modBlk a1 a2).wbf = s.wbf := rfl
@[simp] theorem State.modBlk_pwr (s : State) (a1 : Nat) (a2 : Blk → Blk) : (s.modBlk a1 a2).pwr = s.pwr := rfl
@[simp] theorem State.modBlk_fij (s : State) (a1 : Nat) (a2 : Blk → Blk) : (s.modBlk a1 a2).fij = s.fij := rfl
@[simp] theorem State.modBlk_cmb (s : State) (a1 : Nat) (a2 : Blk → Blk) : (s.modBlk a1 a2).cmb = s.cmb := rfl
@[simp] theorem State.modBlk_mem (s : State) (a1 : Nat) (a2 : Blk → Blk) : (s.modBlk a1 a2).mem = s.mem := rfl
@[simp] theorem State.modBlk_mpr (s : State) (a1 : Nat) (a2 : Blk → Blk) : (s.modBlk a1 a2).mpr = s.mpr := rfl
@[simp] theorem State.modBlk_drcs (s : State) (a1 : Nat) (a2 : Blk → Blk) : (s.modBlk a1 a2).drcs = s.drcs := rfl
@[simp] theorem State.modBlk_cores (s : State) (a1 : Nat) (a2 : Blk → Blk) : (s.modBlk a1 a2).cores = s.cores := rfl
@[simp] theorem State.modBlk_heats (s : State) (a1 : Nat) (a2 : Blk → Blk) : (s.modBlk a1 a2).heats = s.heats := rfl
@[simp] theorem State.modBlk_heatRegs (s : State) (a1 : Nat) (a2 : Blk → Blk) : (s.modBlk a1 a2).heatRegs = s.heatRegs := rfl
@[simp] theorem State.modBlk_kst (s : State) (a1 : Nat) (a2 : Blk → Blk) : (s.modBlk a1 a2).kst = s.kst := rfl
@[simp] theorem State.modBlk_sliceKeys (s : State) (a1 : Nat) (a2 : Blk → Blk) : (s.modBlk a1 a2).sliceKeys = s.sliceKeys := rfl
@[simp] theorem State.modBlk_dgs (s : State) (a1 : Nat) (a2 : Blk → Blk) : (s.modBlk a1 a2).dgs = s.dgs := rfl
@[simp] theorem State.modBlk_cph (s : State) (a1 : Nat) (a2 : Blk → Blk) : (s.modBlk a1 a2).cph = s.cph := rfl
@[simp] theorem State.modBlk_instanceId (s : State) (a1 : Nat) (a2 : Blk → Blk) : (s.modBlk a1 a2).instanceId = s.instanceId := rfl
@[simp] theorem State.modBlk_pat (s : State) (a1 : Nat) (a2 : Blk → Blk) : (s.modBlk a1 a2).pat = s.pat := rfl
@[simp] theorem State.modBlk_hdl (s : State) (a1 : Nat) (a2 : Blk → Blk) : (s.modBlk a1 a2).hdl = s.hdl := rfl
@[simp] theorem State.modBlk_rly (s : State) (a1 : Nat) (a2 : Blk → Blk) : (s.modBlk a1 a2).rly = s.rly := rfl
@[simp] theorem State.modBlk_pins (s : State) (a1 : Nat) (a2 : Blk → Blk) : (s.modBlk a1 a2).pins = s.pins := rfl
@[simp] theorem State.modBlk_dur (s : State) (a1 : Nat) (a2 : Blk → Blk) : (s.modBlk a1 a2).dur = s.dur := rfl

/-! ### modDie -/

@[simp] theorem State.modDie_pending (s : State) (a1 : Nat) (a2 : Die → Die) : (s.modDie a1 a2).pending = s.pending := rfl
@[simp] theorem State.modDie_out (s : State) (a1 : Nat) (a2 : Die → Die) : (s.modDie a1 a2).out = s.out := rfl
@[simp] theorem State.modDie_free (s : State) (a1 : Nat) (a2 : Die → Die) : (s.modDie a1 a2).free = s.free := rfl
@[simp] theorem State.modDie_stride (s : State) (a1 : Nat) (a2 : Die → Die) : (s.modDie a1 a2).stride = s.stride := rfl
@[simp] theorem State.modDie_admSeq (s : State) (a1 : Nat) (a2 : Die → Die) : (s.modDie a1 a2).admSeq = s.admSeq := rfl
@[simp] theorem State.modDie_lastRead (s : State) (a1 : Nat) (a2 : Die → Die) : (s.modDie a1 a2).lastRead = s.lastRead := rfl
@[simp] theorem State.modDie_variant (s : State) (a1 : Nat) (a2 : Die → Die) : (s.modDie a1 a2).variant = s.variant := rfl
@[simp] theorem State.modDie_deviceId (s : State) (a1 : Nat) (a2 : Die → Die) : (s.modDie a1 a2).deviceId = s.deviceId := rfl
@[simp] theorem State.modDie_rw (s : State) (a1 : Nat) (a2 : Die → Die) : (s.modDie a1 a2).rw = s.rw := rfl
@[simp] theorem State.modDie_staged (s : State) (a1 : Nat) (a2 : Die → Die) : (s.modDie a1 a2).staged = s.staged := rfl
@[simp] theorem State.modDie_inForce (s : State) (a1 : Nat) (a2 : Die → Die) : (s.modDie a1 a2).inForce = s.inForce := rfl
@[simp] theorem State.modDie_errs (s : State) (a1 : Nat) (a2 : Die → Die) : (s.modDie a1 a2).errs = s.errs := rfl
@[simp] theorem State.modDie_latches (s : State) (a1 : Nat) (a2 : Die → Die) : (s.modDie a1 a2).latches = s.latches := rfl
@[simp] theorem State.modDie_dev (s : State) (a1 : Nat) (a2 : Die → Die) : (s.modDie a1 a2).dev = s.dev := rfl
@[simp] theorem State.modDie_crs (s : State) (a1 : Nat) (a2 : Die → Die) : (s.modDie a1 a2).crs = s.crs := rfl
@[simp] theorem State.modDie_evr (s : State) (a1 : Nat) (a2 : Die → Die) : (s.modDie a1 a2).evr = s.evr := rfl
@[simp] theorem State.modDie_ports (s : State) (a1 : Nat) (a2 : Die → Die) : (s.modDie a1 a2).ports = s.ports := rfl
@[simp] theorem State.modDie_link (s : State) (a1 : Nat) (a2 : Die → Die) : (s.modDie a1 a2).link = s.link := rfl
@[simp] theorem State.modDie_msixPend (s : State) (a1 : Nat) (a2 : Die → Die) : (s.modDie a1 a2).msixPend = s.msixPend := rfl
@[simp] theorem State.modDie_slc (s : State) (a1 : Nat) (a2 : Die → Die) : (s.modDie a1 a2).slc = s.slc := rfl
@[simp] theorem State.modDie_slices (s : State) (a1 : Nat) (a2 : Die → Die) : (s.modDie a1 a2).slices = s.slices := rfl
@[simp] theorem State.modDie_wbf (s : State) (a1 : Nat) (a2 : Die → Die) : (s.modDie a1 a2).wbf = s.wbf := rfl
@[simp] theorem State.modDie_pwr (s : State) (a1 : Nat) (a2 : Die → Die) : (s.modDie a1 a2).pwr = s.pwr := rfl
@[simp] theorem State.modDie_fij (s : State) (a1 : Nat) (a2 : Die → Die) : (s.modDie a1 a2).fij = s.fij := rfl
@[simp] theorem State.modDie_cmb (s : State) (a1 : Nat) (a2 : Die → Die) : (s.modDie a1 a2).cmb = s.cmb := rfl
@[simp] theorem State.modDie_mem (s : State) (a1 : Nat) (a2 : Die → Die) : (s.modDie a1 a2).mem = s.mem := rfl
@[simp] theorem State.modDie_mpr (s : State) (a1 : Nat) (a2 : Die → Die) : (s.modDie a1 a2).mpr = s.mpr := rfl
@[simp] theorem State.modDie_drcs (s : State) (a1 : Nat) (a2 : Die → Die) : (s.modDie a1 a2).drcs = s.drcs := rfl
@[simp] theorem State.modDie_cores (s : State) (a1 : Nat) (a2 : Die → Die) : (s.modDie a1 a2).cores = s.cores := rfl
@[simp] theorem State.modDie_heats (s : State) (a1 : Nat) (a2 : Die → Die) : (s.modDie a1 a2).heats = s.heats := rfl
@[simp] theorem State.modDie_heatRegs (s : State) (a1 : Nat) (a2 : Die → Die) : (s.modDie a1 a2).heatRegs = s.heatRegs := rfl
@[simp] theorem State.modDie_kst (s : State) (a1 : Nat) (a2 : Die → Die) : (s.modDie a1 a2).kst = s.kst := rfl
@[simp] theorem State.modDie_sliceKeys (s : State) (a1 : Nat) (a2 : Die → Die) : (s.modDie a1 a2).sliceKeys = s.sliceKeys := rfl
@[simp] theorem State.modDie_dgs (s : State) (a1 : Nat) (a2 : Die → Die) : (s.modDie a1 a2).dgs = s.dgs := rfl
@[simp] theorem State.modDie_cph (s : State) (a1 : Nat) (a2 : Die → Die) : (s.modDie a1 a2).cph = s.cph := rfl
@[simp] theorem State.modDie_instanceId (s : State) (a1 : Nat) (a2 : Die → Die) : (s.modDie a1 a2).instanceId = s.instanceId := rfl
@[simp] theorem State.modDie_pat (s : State) (a1 : Nat) (a2 : Die → Die) : (s.modDie a1 a2).pat = s.pat := rfl
@[simp] theorem State.modDie_hdl (s : State) (a1 : Nat) (a2 : Die → Die) : (s.modDie a1 a2).hdl = s.hdl := rfl
@[simp] theorem State.modDie_rly (s : State) (a1 : Nat) (a2 : Die → Die) : (s.modDie a1 a2).rly = s.rly := rfl
@[simp] theorem State.modDie_pins (s : State) (a1 : Nat) (a2 : Die → Die) : (s.modDie a1 a2).pins = s.pins := rfl
@[simp] theorem State.modDie_dur (s : State) (a1 : Nat) (a2 : Die → Die) : (s.modDie a1 a2).dur = s.dur := rfl

/-! ### modChan -/

@[simp] theorem State.modChan_pending (s : State) (a1 : Nat) (a2 : Chan → Chan) : (s.modChan a1 a2).pending = s.pending := rfl
@[simp] theorem State.modChan_out (s : State) (a1 : Nat) (a2 : Chan → Chan) : (s.modChan a1 a2).out = s.out := rfl
@[simp] theorem State.modChan_free (s : State) (a1 : Nat) (a2 : Chan → Chan) : (s.modChan a1 a2).free = s.free := rfl
@[simp] theorem State.modChan_stride (s : State) (a1 : Nat) (a2 : Chan → Chan) : (s.modChan a1 a2).stride = s.stride := rfl
@[simp] theorem State.modChan_admSeq (s : State) (a1 : Nat) (a2 : Chan → Chan) : (s.modChan a1 a2).admSeq = s.admSeq := rfl
@[simp] theorem State.modChan_lastRead (s : State) (a1 : Nat) (a2 : Chan → Chan) : (s.modChan a1 a2).lastRead = s.lastRead := rfl
@[simp] theorem State.modChan_variant (s : State) (a1 : Nat) (a2 : Chan → Chan) : (s.modChan a1 a2).variant = s.variant := rfl
@[simp] theorem State.modChan_deviceId (s : State) (a1 : Nat) (a2 : Chan → Chan) : (s.modChan a1 a2).deviceId = s.deviceId := rfl
@[simp] theorem State.modChan_rw (s : State) (a1 : Nat) (a2 : Chan → Chan) : (s.modChan a1 a2).rw = s.rw := rfl
@[simp] theorem State.modChan_staged (s : State) (a1 : Nat) (a2 : Chan → Chan) : (s.modChan a1 a2).staged = s.staged := rfl
@[simp] theorem State.modChan_inForce (s : State) (a1 : Nat) (a2 : Chan → Chan) : (s.modChan a1 a2).inForce = s.inForce := rfl
@[simp] theorem State.modChan_errs (s : State) (a1 : Nat) (a2 : Chan → Chan) : (s.modChan a1 a2).errs = s.errs := rfl
@[simp] theorem State.modChan_latches (s : State) (a1 : Nat) (a2 : Chan → Chan) : (s.modChan a1 a2).latches = s.latches := rfl
@[simp] theorem State.modChan_dev (s : State) (a1 : Nat) (a2 : Chan → Chan) : (s.modChan a1 a2).dev = s.dev := rfl
@[simp] theorem State.modChan_crs (s : State) (a1 : Nat) (a2 : Chan → Chan) : (s.modChan a1 a2).crs = s.crs := rfl
@[simp] theorem State.modChan_evr (s : State) (a1 : Nat) (a2 : Chan → Chan) : (s.modChan a1 a2).evr = s.evr := rfl
@[simp] theorem State.modChan_ports (s : State) (a1 : Nat) (a2 : Chan → Chan) : (s.modChan a1 a2).ports = s.ports := rfl
@[simp] theorem State.modChan_link (s : State) (a1 : Nat) (a2 : Chan → Chan) : (s.modChan a1 a2).link = s.link := rfl
@[simp] theorem State.modChan_msixPend (s : State) (a1 : Nat) (a2 : Chan → Chan) : (s.modChan a1 a2).msixPend = s.msixPend := rfl
@[simp] theorem State.modChan_slc (s : State) (a1 : Nat) (a2 : Chan → Chan) : (s.modChan a1 a2).slc = s.slc := rfl
@[simp] theorem State.modChan_slices (s : State) (a1 : Nat) (a2 : Chan → Chan) : (s.modChan a1 a2).slices = s.slices := rfl
@[simp] theorem State.modChan_wbf (s : State) (a1 : Nat) (a2 : Chan → Chan) : (s.modChan a1 a2).wbf = s.wbf := rfl
@[simp] theorem State.modChan_pwr (s : State) (a1 : Nat) (a2 : Chan → Chan) : (s.modChan a1 a2).pwr = s.pwr := rfl
@[simp] theorem State.modChan_fij (s : State) (a1 : Nat) (a2 : Chan → Chan) : (s.modChan a1 a2).fij = s.fij := rfl
@[simp] theorem State.modChan_cmb (s : State) (a1 : Nat) (a2 : Chan → Chan) : (s.modChan a1 a2).cmb = s.cmb := rfl
@[simp] theorem State.modChan_mem (s : State) (a1 : Nat) (a2 : Chan → Chan) : (s.modChan a1 a2).mem = s.mem := rfl
@[simp] theorem State.modChan_mpr (s : State) (a1 : Nat) (a2 : Chan → Chan) : (s.modChan a1 a2).mpr = s.mpr := rfl
@[simp] theorem State.modChan_drcs (s : State) (a1 : Nat) (a2 : Chan → Chan) : (s.modChan a1 a2).drcs = s.drcs := rfl
@[simp] theorem State.modChan_cores (s : State) (a1 : Nat) (a2 : Chan → Chan) : (s.modChan a1 a2).cores = s.cores := rfl
@[simp] theorem State.modChan_heats (s : State) (a1 : Nat) (a2 : Chan → Chan) : (s.modChan a1 a2).heats = s.heats := rfl
@[simp] theorem State.modChan_heatRegs (s : State) (a1 : Nat) (a2 : Chan → Chan) : (s.modChan a1 a2).heatRegs = s.heatRegs := rfl
@[simp] theorem State.modChan_kst (s : State) (a1 : Nat) (a2 : Chan → Chan) : (s.modChan a1 a2).kst = s.kst := rfl
@[simp] theorem State.modChan_sliceKeys (s : State) (a1 : Nat) (a2 : Chan → Chan) : (s.modChan a1 a2).sliceKeys = s.sliceKeys := rfl
@[simp] theorem State.modChan_dgs (s : State) (a1 : Nat) (a2 : Chan → Chan) : (s.modChan a1 a2).dgs = s.dgs := rfl
@[simp] theorem State.modChan_cph (s : State) (a1 : Nat) (a2 : Chan → Chan) : (s.modChan a1 a2).cph = s.cph := rfl
@[simp] theorem State.modChan_instanceId (s : State) (a1 : Nat) (a2 : Chan → Chan) : (s.modChan a1 a2).instanceId = s.instanceId := rfl
@[simp] theorem State.modChan_pat (s : State) (a1 : Nat) (a2 : Chan → Chan) : (s.modChan a1 a2).pat = s.pat := rfl
@[simp] theorem State.modChan_hdl (s : State) (a1 : Nat) (a2 : Chan → Chan) : (s.modChan a1 a2).hdl = s.hdl := rfl
@[simp] theorem State.modChan_rly (s : State) (a1 : Nat) (a2 : Chan → Chan) : (s.modChan a1 a2).rly = s.rly := rfl
@[simp] theorem State.modChan_pins (s : State) (a1 : Nat) (a2 : Chan → Chan) : (s.modChan a1 a2).pins = s.pins := rfl
@[simp] theorem State.modChan_dur (s : State) (a1 : Nat) (a2 : Chan → Chan) : (s.modChan a1 a2).dur = s.dur := rfl

/-! ### setCrs -/

@[simp] theorem State.setCrs_pending (s : State) (a1 : Crs) : (s.setCrs a1).pending = s.pending := rfl
@[simp] theorem State.setCrs_out (s : State) (a1 : Crs) : (s.setCrs a1).out = s.out := rfl
@[simp] theorem State.setCrs_free (s : State) (a1 : Crs) : (s.setCrs a1).free = s.free := rfl
@[simp] theorem State.setCrs_stride (s : State) (a1 : Crs) : (s.setCrs a1).stride = s.stride := rfl
@[simp] theorem State.setCrs_admSeq (s : State) (a1 : Crs) : (s.setCrs a1).admSeq = s.admSeq := rfl
@[simp] theorem State.setCrs_lastRead (s : State) (a1 : Crs) : (s.setCrs a1).lastRead = s.lastRead := rfl
@[simp] theorem State.setCrs_variant (s : State) (a1 : Crs) : (s.setCrs a1).variant = s.variant := rfl
@[simp] theorem State.setCrs_deviceId (s : State) (a1 : Crs) : (s.setCrs a1).deviceId = s.deviceId := rfl
@[simp] theorem State.setCrs_rw (s : State) (a1 : Crs) : (s.setCrs a1).rw = s.rw := rfl
@[simp] theorem State.setCrs_staged (s : State) (a1 : Crs) : (s.setCrs a1).staged = s.staged := rfl
@[simp] theorem State.setCrs_inForce (s : State) (a1 : Crs) : (s.setCrs a1).inForce = s.inForce := rfl
@[simp] theorem State.setCrs_errs (s : State) (a1 : Crs) : (s.setCrs a1).errs = s.errs := rfl
@[simp] theorem State.setCrs_latches (s : State) (a1 : Crs) : (s.setCrs a1).latches = s.latches := rfl
@[simp] theorem State.setCrs_dev (s : State) (a1 : Crs) : (s.setCrs a1).dev = s.dev := rfl
@[simp] theorem State.setCrs_evr (s : State) (a1 : Crs) : (s.setCrs a1).evr = s.evr := rfl
@[simp] theorem State.setCrs_ports (s : State) (a1 : Crs) : (s.setCrs a1).ports = s.ports := rfl
@[simp] theorem State.setCrs_link (s : State) (a1 : Crs) : (s.setCrs a1).link = s.link := rfl
@[simp] theorem State.setCrs_msixPend (s : State) (a1 : Crs) : (s.setCrs a1).msixPend = s.msixPend := rfl
@[simp] theorem State.setCrs_slc (s : State) (a1 : Crs) : (s.setCrs a1).slc = s.slc := rfl
@[simp] theorem State.setCrs_slices (s : State) (a1 : Crs) : (s.setCrs a1).slices = s.slices := rfl
@[simp] theorem State.setCrs_wbf (s : State) (a1 : Crs) : (s.setCrs a1).wbf = s.wbf := rfl
@[simp] theorem State.setCrs_ftl (s : State) (a1 : Crs) : (s.setCrs a1).ftl = s.ftl := rfl
@[simp] theorem State.setCrs_pwr (s : State) (a1 : Crs) : (s.setCrs a1).pwr = s.pwr := rfl
@[simp] theorem State.setCrs_fij (s : State) (a1 : Crs) : (s.setCrs a1).fij = s.fij := rfl
@[simp] theorem State.setCrs_cmb (s : State) (a1 : Crs) : (s.setCrs a1).cmb = s.cmb := rfl
@[simp] theorem State.setCrs_mem (s : State) (a1 : Crs) : (s.setCrs a1).mem = s.mem := rfl
@[simp] theorem State.setCrs_mpr (s : State) (a1 : Crs) : (s.setCrs a1).mpr = s.mpr := rfl
@[simp] theorem State.setCrs_drcs (s : State) (a1 : Crs) : (s.setCrs a1).drcs = s.drcs := rfl
@[simp] theorem State.setCrs_cores (s : State) (a1 : Crs) : (s.setCrs a1).cores = s.cores := rfl
@[simp] theorem State.setCrs_heats (s : State) (a1 : Crs) : (s.setCrs a1).heats = s.heats := rfl
@[simp] theorem State.setCrs_heatRegs (s : State) (a1 : Crs) : (s.setCrs a1).heatRegs = s.heatRegs := rfl
@[simp] theorem State.setCrs_kst (s : State) (a1 : Crs) : (s.setCrs a1).kst = s.kst := rfl
@[simp] theorem State.setCrs_sliceKeys (s : State) (a1 : Crs) : (s.setCrs a1).sliceKeys = s.sliceKeys := rfl
@[simp] theorem State.setCrs_dgs (s : State) (a1 : Crs) : (s.setCrs a1).dgs = s.dgs := rfl
@[simp] theorem State.setCrs_cph (s : State) (a1 : Crs) : (s.setCrs a1).cph = s.cph := rfl
@[simp] theorem State.setCrs_instanceId (s : State) (a1 : Crs) : (s.setCrs a1).instanceId = s.instanceId := rfl
@[simp] theorem State.setCrs_pat (s : State) (a1 : Crs) : (s.setCrs a1).pat = s.pat := rfl
@[simp] theorem State.setCrs_hdl (s : State) (a1 : Crs) : (s.setCrs a1).hdl = s.hdl := rfl
@[simp] theorem State.setCrs_rly (s : State) (a1 : Crs) : (s.setCrs a1).rly = s.rly := rfl
@[simp] theorem State.setCrs_pins (s : State) (a1 : Crs) : (s.setCrs a1).pins = s.pins := rfl
@[simp] theorem State.setCrs_dur (s : State) (a1 : Crs) : (s.setCrs a1).dur = s.dur := rfl

/-! ### setKst -/

@[simp] theorem State.setKst_pending (s : State) (a1 : Kst) : (s.setKst a1).pending = s.pending := rfl
@[simp] theorem State.setKst_out (s : State) (a1 : Kst) : (s.setKst a1).out = s.out := rfl
@[simp] theorem State.setKst_free (s : State) (a1 : Kst) : (s.setKst a1).free = s.free := rfl
@[simp] theorem State.setKst_stride (s : State) (a1 : Kst) : (s.setKst a1).stride = s.stride := rfl
@[simp] theorem State.setKst_admSeq (s : State) (a1 : Kst) : (s.setKst a1).admSeq = s.admSeq := rfl
@[simp] theorem State.setKst_lastRead (s : State) (a1 : Kst) : (s.setKst a1).lastRead = s.lastRead := rfl
@[simp] theorem State.setKst_variant (s : State) (a1 : Kst) : (s.setKst a1).variant = s.variant := rfl
@[simp] theorem State.setKst_deviceId (s : State) (a1 : Kst) : (s.setKst a1).deviceId = s.deviceId := rfl
@[simp] theorem State.setKst_rw (s : State) (a1 : Kst) : (s.setKst a1).rw = s.rw := rfl
@[simp] theorem State.setKst_staged (s : State) (a1 : Kst) : (s.setKst a1).staged = s.staged := rfl
@[simp] theorem State.setKst_inForce (s : State) (a1 : Kst) : (s.setKst a1).inForce = s.inForce := rfl
@[simp] theorem State.setKst_errs (s : State) (a1 : Kst) : (s.setKst a1).errs = s.errs := rfl
@[simp] theorem State.setKst_latches (s : State) (a1 : Kst) : (s.setKst a1).latches = s.latches := rfl
@[simp] theorem State.setKst_dev (s : State) (a1 : Kst) : (s.setKst a1).dev = s.dev := rfl
@[simp] theorem State.setKst_crs (s : State) (a1 : Kst) : (s.setKst a1).crs = s.crs := rfl
@[simp] theorem State.setKst_evr (s : State) (a1 : Kst) : (s.setKst a1).evr = s.evr := rfl
@[simp] theorem State.setKst_ports (s : State) (a1 : Kst) : (s.setKst a1).ports = s.ports := rfl
@[simp] theorem State.setKst_link (s : State) (a1 : Kst) : (s.setKst a1).link = s.link := rfl
@[simp] theorem State.setKst_msixPend (s : State) (a1 : Kst) : (s.setKst a1).msixPend = s.msixPend := rfl
@[simp] theorem State.setKst_slc (s : State) (a1 : Kst) : (s.setKst a1).slc = s.slc := rfl
@[simp] theorem State.setKst_slices (s : State) (a1 : Kst) : (s.setKst a1).slices = s.slices := rfl
@[simp] theorem State.setKst_wbf (s : State) (a1 : Kst) : (s.setKst a1).wbf = s.wbf := rfl
@[simp] theorem State.setKst_ftl (s : State) (a1 : Kst) : (s.setKst a1).ftl = s.ftl := rfl
@[simp] theorem State.setKst_pwr (s : State) (a1 : Kst) : (s.setKst a1).pwr = s.pwr := rfl
@[simp] theorem State.setKst_fij (s : State) (a1 : Kst) : (s.setKst a1).fij = s.fij := rfl
@[simp] theorem State.setKst_cmb (s : State) (a1 : Kst) : (s.setKst a1).cmb = s.cmb := rfl
@[simp] theorem State.setKst_mem (s : State) (a1 : Kst) : (s.setKst a1).mem = s.mem := rfl
@[simp] theorem State.setKst_mpr (s : State) (a1 : Kst) : (s.setKst a1).mpr = s.mpr := rfl
@[simp] theorem State.setKst_drcs (s : State) (a1 : Kst) : (s.setKst a1).drcs = s.drcs := rfl
@[simp] theorem State.setKst_cores (s : State) (a1 : Kst) : (s.setKst a1).cores = s.cores := rfl
@[simp] theorem State.setKst_heats (s : State) (a1 : Kst) : (s.setKst a1).heats = s.heats := rfl
@[simp] theorem State.setKst_heatRegs (s : State) (a1 : Kst) : (s.setKst a1).heatRegs = s.heatRegs := rfl
@[simp] theorem State.setKst_sliceKeys (s : State) (a1 : Kst) : (s.setKst a1).sliceKeys = s.sliceKeys := rfl
@[simp] theorem State.setKst_dgs (s : State) (a1 : Kst) : (s.setKst a1).dgs = s.dgs := rfl
@[simp] theorem State.setKst_cph (s : State) (a1 : Kst) : (s.setKst a1).cph = s.cph := rfl
@[simp] theorem State.setKst_instanceId (s : State) (a1 : Kst) : (s.setKst a1).instanceId = s.instanceId := rfl
@[simp] theorem State.setKst_pat (s : State) (a1 : Kst) : (s.setKst a1).pat = s.pat := rfl
@[simp] theorem State.setKst_hdl (s : State) (a1 : Kst) : (s.setKst a1).hdl = s.hdl := rfl
@[simp] theorem State.setKst_rly (s : State) (a1 : Kst) : (s.setKst a1).rly = s.rly := rfl
@[simp] theorem State.setKst_pins (s : State) (a1 : Kst) : (s.setKst a1).pins = s.pins := rfl
@[simp] theorem State.setKst_dur (s : State) (a1 : Kst) : (s.setKst a1).dur = s.dur := rfl

/-! ### modKeys -/

@[simp] theorem State.modKeys_pending (s : State) (a1 : Nat) (a2 : SliceKeys → SliceKeys) : (s.modKeys a1 a2).pending = s.pending := rfl
@[simp] theorem State.modKeys_out (s : State) (a1 : Nat) (a2 : SliceKeys → SliceKeys) : (s.modKeys a1 a2).out = s.out := rfl
@[simp] theorem State.modKeys_free (s : State) (a1 : Nat) (a2 : SliceKeys → SliceKeys) : (s.modKeys a1 a2).free = s.free := rfl
@[simp] theorem State.modKeys_stride (s : State) (a1 : Nat) (a2 : SliceKeys → SliceKeys) : (s.modKeys a1 a2).stride = s.stride := rfl
@[simp] theorem State.modKeys_admSeq (s : State) (a1 : Nat) (a2 : SliceKeys → SliceKeys) : (s.modKeys a1 a2).admSeq = s.admSeq := rfl
@[simp] theorem State.modKeys_lastRead (s : State) (a1 : Nat) (a2 : SliceKeys → SliceKeys) : (s.modKeys a1 a2).lastRead = s.lastRead := rfl
@[simp] theorem State.modKeys_variant (s : State) (a1 : Nat) (a2 : SliceKeys → SliceKeys) : (s.modKeys a1 a2).variant = s.variant := rfl
@[simp] theorem State.modKeys_deviceId (s : State) (a1 : Nat) (a2 : SliceKeys → SliceKeys) : (s.modKeys a1 a2).deviceId = s.deviceId := rfl
@[simp] theorem State.modKeys_rw (s : State) (a1 : Nat) (a2 : SliceKeys → SliceKeys) : (s.modKeys a1 a2).rw = s.rw := rfl
@[simp] theorem State.modKeys_staged (s : State) (a1 : Nat) (a2 : SliceKeys → SliceKeys) : (s.modKeys a1 a2).staged = s.staged := rfl
@[simp] theorem State.modKeys_inForce (s : State) (a1 : Nat) (a2 : SliceKeys → SliceKeys) : (s.modKeys a1 a2).inForce = s.inForce := rfl
@[simp] theorem State.modKeys_errs (s : State) (a1 : Nat) (a2 : SliceKeys → SliceKeys) : (s.modKeys a1 a2).errs = s.errs := rfl
@[simp] theorem State.modKeys_latches (s : State) (a1 : Nat) (a2 : SliceKeys → SliceKeys) : (s.modKeys a1 a2).latches = s.latches := rfl
@[simp] theorem State.modKeys_dev (s : State) (a1 : Nat) (a2 : SliceKeys → SliceKeys) : (s.modKeys a1 a2).dev = s.dev := rfl
@[simp] theorem State.modKeys_crs (s : State) (a1 : Nat) (a2 : SliceKeys → SliceKeys) : (s.modKeys a1 a2).crs = s.crs := rfl
@[simp] theorem State.modKeys_evr (s : State) (a1 : Nat) (a2 : SliceKeys → SliceKeys) : (s.modKeys a1 a2).evr = s.evr := rfl
@[simp] theorem State.modKeys_ports (s : State) (a1 : Nat) (a2 : SliceKeys → SliceKeys) : (s.modKeys a1 a2).ports = s.ports := rfl
@[simp] theorem State.modKeys_link (s : State) (a1 : Nat) (a2 : SliceKeys → SliceKeys) : (s.modKeys a1 a2).link = s.link := rfl
@[simp] theorem State.modKeys_msixPend (s : State) (a1 : Nat) (a2 : SliceKeys → SliceKeys) : (s.modKeys a1 a2).msixPend = s.msixPend := rfl
@[simp] theorem State.modKeys_slc (s : State) (a1 : Nat) (a2 : SliceKeys → SliceKeys) : (s.modKeys a1 a2).slc = s.slc := rfl
@[simp] theorem State.modKeys_slices (s : State) (a1 : Nat) (a2 : SliceKeys → SliceKeys) : (s.modKeys a1 a2).slices = s.slices := rfl
@[simp] theorem State.modKeys_wbf (s : State) (a1 : Nat) (a2 : SliceKeys → SliceKeys) : (s.modKeys a1 a2).wbf = s.wbf := rfl
@[simp] theorem State.modKeys_ftl (s : State) (a1 : Nat) (a2 : SliceKeys → SliceKeys) : (s.modKeys a1 a2).ftl = s.ftl := rfl
@[simp] theorem State.modKeys_pwr (s : State) (a1 : Nat) (a2 : SliceKeys → SliceKeys) : (s.modKeys a1 a2).pwr = s.pwr := rfl
@[simp] theorem State.modKeys_fij (s : State) (a1 : Nat) (a2 : SliceKeys → SliceKeys) : (s.modKeys a1 a2).fij = s.fij := rfl
@[simp] theorem State.modKeys_cmb (s : State) (a1 : Nat) (a2 : SliceKeys → SliceKeys) : (s.modKeys a1 a2).cmb = s.cmb := rfl
@[simp] theorem State.modKeys_mem (s : State) (a1 : Nat) (a2 : SliceKeys → SliceKeys) : (s.modKeys a1 a2).mem = s.mem := rfl
@[simp] theorem State.modKeys_mpr (s : State) (a1 : Nat) (a2 : SliceKeys → SliceKeys) : (s.modKeys a1 a2).mpr = s.mpr := rfl
@[simp] theorem State.modKeys_drcs (s : State) (a1 : Nat) (a2 : SliceKeys → SliceKeys) : (s.modKeys a1 a2).drcs = s.drcs := rfl
@[simp] theorem State.modKeys_cores (s : State) (a1 : Nat) (a2 : SliceKeys → SliceKeys) : (s.modKeys a1 a2).cores = s.cores := rfl
@[simp] theorem State.modKeys_heats (s : State) (a1 : Nat) (a2 : SliceKeys → SliceKeys) : (s.modKeys a1 a2).heats = s.heats := rfl
@[simp] theorem State.modKeys_heatRegs (s : State) (a1 : Nat) (a2 : SliceKeys → SliceKeys) : (s.modKeys a1 a2).heatRegs = s.heatRegs := rfl
@[simp] theorem State.modKeys_kst (s : State) (a1 : Nat) (a2 : SliceKeys → SliceKeys) : (s.modKeys a1 a2).kst = s.kst := rfl
@[simp] theorem State.modKeys_dgs (s : State) (a1 : Nat) (a2 : SliceKeys → SliceKeys) : (s.modKeys a1 a2).dgs = s.dgs := rfl
@[simp] theorem State.modKeys_cph (s : State) (a1 : Nat) (a2 : SliceKeys → SliceKeys) : (s.modKeys a1 a2).cph = s.cph := rfl
@[simp] theorem State.modKeys_instanceId (s : State) (a1 : Nat) (a2 : SliceKeys → SliceKeys) : (s.modKeys a1 a2).instanceId = s.instanceId := rfl
@[simp] theorem State.modKeys_pat (s : State) (a1 : Nat) (a2 : SliceKeys → SliceKeys) : (s.modKeys a1 a2).pat = s.pat := rfl
@[simp] theorem State.modKeys_hdl (s : State) (a1 : Nat) (a2 : SliceKeys → SliceKeys) : (s.modKeys a1 a2).hdl = s.hdl := rfl
@[simp] theorem State.modKeys_rly (s : State) (a1 : Nat) (a2 : SliceKeys → SliceKeys) : (s.modKeys a1 a2).rly = s.rly := rfl
@[simp] theorem State.modKeys_pins (s : State) (a1 : Nat) (a2 : SliceKeys → SliceKeys) : (s.modKeys a1 a2).pins = s.pins := rfl
@[simp] theorem State.modKeys_dur (s : State) (a1 : Nat) (a2 : SliceKeys → SliceKeys) : (s.modKeys a1 a2).dur = s.dur := rfl

/-! ### setSlc -/

@[simp] theorem State.setSlc_pending (s : State) (a1 : Slc) : (s.setSlc a1).pending = s.pending := rfl
@[simp] theorem State.setSlc_out (s : State) (a1 : Slc) : (s.setSlc a1).out = s.out := rfl
@[simp] theorem State.setSlc_free (s : State) (a1 : Slc) : (s.setSlc a1).free = s.free := rfl
@[simp] theorem State.setSlc_stride (s : State) (a1 : Slc) : (s.setSlc a1).stride = s.stride := rfl
@[simp] theorem State.setSlc_admSeq (s : State) (a1 : Slc) : (s.setSlc a1).admSeq = s.admSeq := rfl
@[simp] theorem State.setSlc_lastRead (s : State) (a1 : Slc) : (s.setSlc a1).lastRead = s.lastRead := rfl
@[simp] theorem State.setSlc_variant (s : State) (a1 : Slc) : (s.setSlc a1).variant = s.variant := rfl
@[simp] theorem State.setSlc_deviceId (s : State) (a1 : Slc) : (s.setSlc a1).deviceId = s.deviceId := rfl
@[simp] theorem State.setSlc_rw (s : State) (a1 : Slc) : (s.setSlc a1).rw = s.rw := rfl
@[simp] theorem State.setSlc_staged (s : State) (a1 : Slc) : (s.setSlc a1).staged = s.staged := rfl
@[simp] theorem State.setSlc_inForce (s : State) (a1 : Slc) : (s.setSlc a1).inForce = s.inForce := rfl
@[simp] theorem State.setSlc_errs (s : State) (a1 : Slc) : (s.setSlc a1).errs = s.errs := rfl
@[simp] theorem State.setSlc_latches (s : State) (a1 : Slc) : (s.setSlc a1).latches = s.latches := rfl
@[simp] theorem State.setSlc_dev (s : State) (a1 : Slc) : (s.setSlc a1).dev = s.dev := rfl
@[simp] theorem State.setSlc_crs (s : State) (a1 : Slc) : (s.setSlc a1).crs = s.crs := rfl
@[simp] theorem State.setSlc_evr (s : State) (a1 : Slc) : (s.setSlc a1).evr = s.evr := rfl
@[simp] theorem State.setSlc_ports (s : State) (a1 : Slc) : (s.setSlc a1).ports = s.ports := rfl
@[simp] theorem State.setSlc_link (s : State) (a1 : Slc) : (s.setSlc a1).link = s.link := rfl
@[simp] theorem State.setSlc_msixPend (s : State) (a1 : Slc) : (s.setSlc a1).msixPend = s.msixPend := rfl
@[simp] theorem State.setSlc_slices (s : State) (a1 : Slc) : (s.setSlc a1).slices = s.slices := rfl
@[simp] theorem State.setSlc_wbf (s : State) (a1 : Slc) : (s.setSlc a1).wbf = s.wbf := rfl
@[simp] theorem State.setSlc_ftl (s : State) (a1 : Slc) : (s.setSlc a1).ftl = s.ftl := rfl
@[simp] theorem State.setSlc_pwr (s : State) (a1 : Slc) : (s.setSlc a1).pwr = s.pwr := rfl
@[simp] theorem State.setSlc_fij (s : State) (a1 : Slc) : (s.setSlc a1).fij = s.fij := rfl
@[simp] theorem State.setSlc_cmb (s : State) (a1 : Slc) : (s.setSlc a1).cmb = s.cmb := rfl
@[simp] theorem State.setSlc_mem (s : State) (a1 : Slc) : (s.setSlc a1).mem = s.mem := rfl
@[simp] theorem State.setSlc_mpr (s : State) (a1 : Slc) : (s.setSlc a1).mpr = s.mpr := rfl
@[simp] theorem State.setSlc_drcs (s : State) (a1 : Slc) : (s.setSlc a1).drcs = s.drcs := rfl
@[simp] theorem State.setSlc_cores (s : State) (a1 : Slc) : (s.setSlc a1).cores = s.cores := rfl
@[simp] theorem State.setSlc_heats (s : State) (a1 : Slc) : (s.setSlc a1).heats = s.heats := rfl
@[simp] theorem State.setSlc_heatRegs (s : State) (a1 : Slc) : (s.setSlc a1).heatRegs = s.heatRegs := rfl
@[simp] theorem State.setSlc_kst (s : State) (a1 : Slc) : (s.setSlc a1).kst = s.kst := rfl
@[simp] theorem State.setSlc_sliceKeys (s : State) (a1 : Slc) : (s.setSlc a1).sliceKeys = s.sliceKeys := rfl
@[simp] theorem State.setSlc_dgs (s : State) (a1 : Slc) : (s.setSlc a1).dgs = s.dgs := rfl
@[simp] theorem State.setSlc_cph (s : State) (a1 : Slc) : (s.setSlc a1).cph = s.cph := rfl
@[simp] theorem State.setSlc_instanceId (s : State) (a1 : Slc) : (s.setSlc a1).instanceId = s.instanceId := rfl
@[simp] theorem State.setSlc_pat (s : State) (a1 : Slc) : (s.setSlc a1).pat = s.pat := rfl
@[simp] theorem State.setSlc_hdl (s : State) (a1 : Slc) : (s.setSlc a1).hdl = s.hdl := rfl
@[simp] theorem State.setSlc_rly (s : State) (a1 : Slc) : (s.setSlc a1).rly = s.rly := rfl
@[simp] theorem State.setSlc_pins (s : State) (a1 : Slc) : (s.setSlc a1).pins = s.pins := rfl
@[simp] theorem State.setSlc_dur (s : State) (a1 : Slc) : (s.setSlc a1).dur = s.dur := rfl

/-! ### setRly -/

@[simp] theorem State.setRly_pending (s : State) (a1 : Rly) : (s.setRly a1).pending = s.pending := rfl
@[simp] theorem State.setRly_out (s : State) (a1 : Rly) : (s.setRly a1).out = s.out := rfl
@[simp] theorem State.setRly_free (s : State) (a1 : Rly) : (s.setRly a1).free = s.free := rfl
@[simp] theorem State.setRly_stride (s : State) (a1 : Rly) : (s.setRly a1).stride = s.stride := rfl
@[simp] theorem State.setRly_admSeq (s : State) (a1 : Rly) : (s.setRly a1).admSeq = s.admSeq := rfl
@[simp] theorem State.setRly_lastRead (s : State) (a1 : Rly) : (s.setRly a1).lastRead = s.lastRead := rfl
@[simp] theorem State.setRly_variant (s : State) (a1 : Rly) : (s.setRly a1).variant = s.variant := rfl
@[simp] theorem State.setRly_deviceId (s : State) (a1 : Rly) : (s.setRly a1).deviceId = s.deviceId := rfl
@[simp] theorem State.setRly_rw (s : State) (a1 : Rly) : (s.setRly a1).rw = s.rw := rfl
@[simp] theorem State.setRly_staged (s : State) (a1 : Rly) : (s.setRly a1).staged = s.staged := rfl
@[simp] theorem State.setRly_inForce (s : State) (a1 : Rly) : (s.setRly a1).inForce = s.inForce := rfl
@[simp] theorem State.setRly_errs (s : State) (a1 : Rly) : (s.setRly a1).errs = s.errs := rfl
@[simp] theorem State.setRly_latches (s : State) (a1 : Rly) : (s.setRly a1).latches = s.latches := rfl
@[simp] theorem State.setRly_dev (s : State) (a1 : Rly) : (s.setRly a1).dev = s.dev := rfl
@[simp] theorem State.setRly_crs (s : State) (a1 : Rly) : (s.setRly a1).crs = s.crs := rfl
@[simp] theorem State.setRly_evr (s : State) (a1 : Rly) : (s.setRly a1).evr = s.evr := rfl
@[simp] theorem State.setRly_ports (s : State) (a1 : Rly) : (s.setRly a1).ports = s.ports := rfl
@[simp] theorem State.setRly_link (s : State) (a1 : Rly) : (s.setRly a1).link = s.link := rfl
@[simp] theorem State.setRly_msixPend (s : State) (a1 : Rly) : (s.setRly a1).msixPend = s.msixPend := rfl
@[simp] theorem State.setRly_slc (s : State) (a1 : Rly) : (s.setRly a1).slc = s.slc := rfl
@[simp] theorem State.setRly_slices (s : State) (a1 : Rly) : (s.setRly a1).slices = s.slices := rfl
@[simp] theorem State.setRly_wbf (s : State) (a1 : Rly) : (s.setRly a1).wbf = s.wbf := rfl
@[simp] theorem State.setRly_ftl (s : State) (a1 : Rly) : (s.setRly a1).ftl = s.ftl := rfl
@[simp] theorem State.setRly_pwr (s : State) (a1 : Rly) : (s.setRly a1).pwr = s.pwr := rfl
@[simp] theorem State.setRly_fij (s : State) (a1 : Rly) : (s.setRly a1).fij = s.fij := rfl
@[simp] theorem State.setRly_cmb (s : State) (a1 : Rly) : (s.setRly a1).cmb = s.cmb := rfl
@[simp] theorem State.setRly_mem (s : State) (a1 : Rly) : (s.setRly a1).mem = s.mem := rfl
@[simp] theorem State.setRly_mpr (s : State) (a1 : Rly) : (s.setRly a1).mpr = s.mpr := rfl
@[simp] theorem State.setRly_drcs (s : State) (a1 : Rly) : (s.setRly a1).drcs = s.drcs := rfl
@[simp] theorem State.setRly_cores (s : State) (a1 : Rly) : (s.setRly a1).cores = s.cores := rfl
@[simp] theorem State.setRly_heats (s : State) (a1 : Rly) : (s.setRly a1).heats = s.heats := rfl
@[simp] theorem State.setRly_heatRegs (s : State) (a1 : Rly) : (s.setRly a1).heatRegs = s.heatRegs := rfl
@[simp] theorem State.setRly_kst (s : State) (a1 : Rly) : (s.setRly a1).kst = s.kst := rfl
@[simp] theorem State.setRly_sliceKeys (s : State) (a1 : Rly) : (s.setRly a1).sliceKeys = s.sliceKeys := rfl
@[simp] theorem State.setRly_dgs (s : State) (a1 : Rly) : (s.setRly a1).dgs = s.dgs := rfl
@[simp] theorem State.setRly_cph (s : State) (a1 : Rly) : (s.setRly a1).cph = s.cph := rfl
@[simp] theorem State.setRly_instanceId (s : State) (a1 : Rly) : (s.setRly a1).instanceId = s.instanceId := rfl
@[simp] theorem State.setRly_pat (s : State) (a1 : Rly) : (s.setRly a1).pat = s.pat := rfl
@[simp] theorem State.setRly_hdl (s : State) (a1 : Rly) : (s.setRly a1).hdl = s.hdl := rfl
@[simp] theorem State.setRly_pins (s : State) (a1 : Rly) : (s.setRly a1).pins = s.pins := rfl
@[simp] theorem State.setRly_dur (s : State) (a1 : Rly) : (s.setRly a1).dur = s.dur := rfl

/-! ### modRly -/

@[simp] theorem State.modRly_pending (s : State) (a1 : Nat) (a2 : RlyPort → RlyPort) : (s.modRly a1 a2).pending = s.pending := rfl
@[simp] theorem State.modRly_out (s : State) (a1 : Nat) (a2 : RlyPort → RlyPort) : (s.modRly a1 a2).out = s.out := rfl
@[simp] theorem State.modRly_free (s : State) (a1 : Nat) (a2 : RlyPort → RlyPort) : (s.modRly a1 a2).free = s.free := rfl
@[simp] theorem State.modRly_stride (s : State) (a1 : Nat) (a2 : RlyPort → RlyPort) : (s.modRly a1 a2).stride = s.stride := rfl
@[simp] theorem State.modRly_admSeq (s : State) (a1 : Nat) (a2 : RlyPort → RlyPort) : (s.modRly a1 a2).admSeq = s.admSeq := rfl
@[simp] theorem State.modRly_lastRead (s : State) (a1 : Nat) (a2 : RlyPort → RlyPort) : (s.modRly a1 a2).lastRead = s.lastRead := rfl
@[simp] theorem State.modRly_variant (s : State) (a1 : Nat) (a2 : RlyPort → RlyPort) : (s.modRly a1 a2).variant = s.variant := rfl
@[simp] theorem State.modRly_deviceId (s : State) (a1 : Nat) (a2 : RlyPort → RlyPort) : (s.modRly a1 a2).deviceId = s.deviceId := rfl
@[simp] theorem State.modRly_rw (s : State) (a1 : Nat) (a2 : RlyPort → RlyPort) : (s.modRly a1 a2).rw = s.rw := rfl
@[simp] theorem State.modRly_staged (s : State) (a1 : Nat) (a2 : RlyPort → RlyPort) : (s.modRly a1 a2).staged = s.staged := rfl
@[simp] theorem State.modRly_inForce (s : State) (a1 : Nat) (a2 : RlyPort → RlyPort) : (s.modRly a1 a2).inForce = s.inForce := rfl
@[simp] theorem State.modRly_errs (s : State) (a1 : Nat) (a2 : RlyPort → RlyPort) : (s.modRly a1 a2).errs = s.errs := rfl
@[simp] theorem State.modRly_latches (s : State) (a1 : Nat) (a2 : RlyPort → RlyPort) : (s.modRly a1 a2).latches = s.latches := rfl
@[simp] theorem State.modRly_dev (s : State) (a1 : Nat) (a2 : RlyPort → RlyPort) : (s.modRly a1 a2).dev = s.dev := rfl
@[simp] theorem State.modRly_crs (s : State) (a1 : Nat) (a2 : RlyPort → RlyPort) : (s.modRly a1 a2).crs = s.crs := rfl
@[simp] theorem State.modRly_evr (s : State) (a1 : Nat) (a2 : RlyPort → RlyPort) : (s.modRly a1 a2).evr = s.evr := rfl
@[simp] theorem State.modRly_ports (s : State) (a1 : Nat) (a2 : RlyPort → RlyPort) : (s.modRly a1 a2).ports = s.ports := rfl
@[simp] theorem State.modRly_link (s : State) (a1 : Nat) (a2 : RlyPort → RlyPort) : (s.modRly a1 a2).link = s.link := rfl
@[simp] theorem State.modRly_msixPend (s : State) (a1 : Nat) (a2 : RlyPort → RlyPort) : (s.modRly a1 a2).msixPend = s.msixPend := rfl
@[simp] theorem State.modRly_slc (s : State) (a1 : Nat) (a2 : RlyPort → RlyPort) : (s.modRly a1 a2).slc = s.slc := rfl
@[simp] theorem State.modRly_slices (s : State) (a1 : Nat) (a2 : RlyPort → RlyPort) : (s.modRly a1 a2).slices = s.slices := rfl
@[simp] theorem State.modRly_wbf (s : State) (a1 : Nat) (a2 : RlyPort → RlyPort) : (s.modRly a1 a2).wbf = s.wbf := rfl
@[simp] theorem State.modRly_ftl (s : State) (a1 : Nat) (a2 : RlyPort → RlyPort) : (s.modRly a1 a2).ftl = s.ftl := rfl
@[simp] theorem State.modRly_pwr (s : State) (a1 : Nat) (a2 : RlyPort → RlyPort) : (s.modRly a1 a2).pwr = s.pwr := rfl
@[simp] theorem State.modRly_fij (s : State) (a1 : Nat) (a2 : RlyPort → RlyPort) : (s.modRly a1 a2).fij = s.fij := rfl
@[simp] theorem State.modRly_cmb (s : State) (a1 : Nat) (a2 : RlyPort → RlyPort) : (s.modRly a1 a2).cmb = s.cmb := rfl
@[simp] theorem State.modRly_mem (s : State) (a1 : Nat) (a2 : RlyPort → RlyPort) : (s.modRly a1 a2).mem = s.mem := rfl
@[simp] theorem State.modRly_mpr (s : State) (a1 : Nat) (a2 : RlyPort → RlyPort) : (s.modRly a1 a2).mpr = s.mpr := rfl
@[simp] theorem State.modRly_drcs (s : State) (a1 : Nat) (a2 : RlyPort → RlyPort) : (s.modRly a1 a2).drcs = s.drcs := rfl
@[simp] theorem State.modRly_cores (s : State) (a1 : Nat) (a2 : RlyPort → RlyPort) : (s.modRly a1 a2).cores = s.cores := rfl
@[simp] theorem State.modRly_heats (s : State) (a1 : Nat) (a2 : RlyPort → RlyPort) : (s.modRly a1 a2).heats = s.heats := rfl
@[simp] theorem State.modRly_heatRegs (s : State) (a1 : Nat) (a2 : RlyPort → RlyPort) : (s.modRly a1 a2).heatRegs = s.heatRegs := rfl
@[simp] theorem State.modRly_kst (s : State) (a1 : Nat) (a2 : RlyPort → RlyPort) : (s.modRly a1 a2).kst = s.kst := rfl
@[simp] theorem State.modRly_sliceKeys (s : State) (a1 : Nat) (a2 : RlyPort → RlyPort) : (s.modRly a1 a2).sliceKeys = s.sliceKeys := rfl
@[simp] theorem State.modRly_dgs (s : State) (a1 : Nat) (a2 : RlyPort → RlyPort) : (s.modRly a1 a2).dgs = s.dgs := rfl
@[simp] theorem State.modRly_cph (s : State) (a1 : Nat) (a2 : RlyPort → RlyPort) : (s.modRly a1 a2).cph = s.cph := rfl
@[simp] theorem State.modRly_instanceId (s : State) (a1 : Nat) (a2 : RlyPort → RlyPort) : (s.modRly a1 a2).instanceId = s.instanceId := rfl
@[simp] theorem State.modRly_pat (s : State) (a1 : Nat) (a2 : RlyPort → RlyPort) : (s.modRly a1 a2).pat = s.pat := rfl
@[simp] theorem State.modRly_hdl (s : State) (a1 : Nat) (a2 : RlyPort → RlyPort) : (s.modRly a1 a2).hdl = s.hdl := rfl
@[simp] theorem State.modRly_pins (s : State) (a1 : Nat) (a2 : RlyPort → RlyPort) : (s.modRly a1 a2).pins = s.pins := rfl
@[simp] theorem State.modRly_dur (s : State) (a1 : Nat) (a2 : RlyPort → RlyPort) : (s.modRly a1 a2).dur = s.dur := rfl

/-! ### setTime -/

@[simp] theorem State.setTime_pending (s : State) (a1 : FieldTime) : (s.setTime a1).pending = s.pending := rfl
@[simp] theorem State.setTime_out (s : State) (a1 : FieldTime) : (s.setTime a1).out = s.out := rfl
@[simp] theorem State.setTime_free (s : State) (a1 : FieldTime) : (s.setTime a1).free = s.free := rfl
@[simp] theorem State.setTime_stride (s : State) (a1 : FieldTime) : (s.setTime a1).stride = s.stride := rfl
@[simp] theorem State.setTime_admSeq (s : State) (a1 : FieldTime) : (s.setTime a1).admSeq = s.admSeq := rfl
@[simp] theorem State.setTime_lastRead (s : State) (a1 : FieldTime) : (s.setTime a1).lastRead = s.lastRead := rfl
@[simp] theorem State.setTime_variant (s : State) (a1 : FieldTime) : (s.setTime a1).variant = s.variant := rfl
@[simp] theorem State.setTime_deviceId (s : State) (a1 : FieldTime) : (s.setTime a1).deviceId = s.deviceId := rfl
@[simp] theorem State.setTime_rw (s : State) (a1 : FieldTime) : (s.setTime a1).rw = s.rw := rfl
@[simp] theorem State.setTime_staged (s : State) (a1 : FieldTime) : (s.setTime a1).staged = s.staged := rfl
@[simp] theorem State.setTime_inForce (s : State) (a1 : FieldTime) : (s.setTime a1).inForce = s.inForce := rfl
@[simp] theorem State.setTime_errs (s : State) (a1 : FieldTime) : (s.setTime a1).errs = s.errs := rfl
@[simp] theorem State.setTime_latches (s : State) (a1 : FieldTime) : (s.setTime a1).latches = s.latches := rfl
@[simp] theorem State.setTime_dev (s : State) (a1 : FieldTime) : (s.setTime a1).dev = s.dev := rfl
@[simp] theorem State.setTime_crs (s : State) (a1 : FieldTime) : (s.setTime a1).crs = s.crs := rfl
@[simp] theorem State.setTime_evr (s : State) (a1 : FieldTime) : (s.setTime a1).evr = s.evr := rfl
@[simp] theorem State.setTime_ports (s : State) (a1 : FieldTime) : (s.setTime a1).ports = s.ports := rfl
@[simp] theorem State.setTime_link (s : State) (a1 : FieldTime) : (s.setTime a1).link = s.link := rfl
@[simp] theorem State.setTime_msixPend (s : State) (a1 : FieldTime) : (s.setTime a1).msixPend = s.msixPend := rfl
@[simp] theorem State.setTime_slc (s : State) (a1 : FieldTime) : (s.setTime a1).slc = s.slc := rfl
@[simp] theorem State.setTime_slices (s : State) (a1 : FieldTime) : (s.setTime a1).slices = s.slices := rfl
@[simp] theorem State.setTime_wbf (s : State) (a1 : FieldTime) : (s.setTime a1).wbf = s.wbf := rfl
@[simp] theorem State.setTime_ftl (s : State) (a1 : FieldTime) : (s.setTime a1).ftl = s.ftl := rfl
@[simp] theorem State.setTime_pwr (s : State) (a1 : FieldTime) : (s.setTime a1).pwr = s.pwr := rfl
@[simp] theorem State.setTime_fij (s : State) (a1 : FieldTime) : (s.setTime a1).fij = s.fij := rfl
@[simp] theorem State.setTime_cmb (s : State) (a1 : FieldTime) : (s.setTime a1).cmb = s.cmb := rfl
@[simp] theorem State.setTime_mem (s : State) (a1 : FieldTime) : (s.setTime a1).mem = s.mem := rfl
@[simp] theorem State.setTime_mpr (s : State) (a1 : FieldTime) : (s.setTime a1).mpr = s.mpr := rfl
@[simp] theorem State.setTime_drcs (s : State) (a1 : FieldTime) : (s.setTime a1).drcs = s.drcs := rfl
@[simp] theorem State.setTime_cores (s : State) (a1 : FieldTime) : (s.setTime a1).cores = s.cores := rfl
@[simp] theorem State.setTime_heats (s : State) (a1 : FieldTime) : (s.setTime a1).heats = s.heats := rfl
@[simp] theorem State.setTime_heatRegs (s : State) (a1 : FieldTime) : (s.setTime a1).heatRegs = s.heatRegs := rfl
@[simp] theorem State.setTime_kst (s : State) (a1 : FieldTime) : (s.setTime a1).kst = s.kst := rfl
@[simp] theorem State.setTime_sliceKeys (s : State) (a1 : FieldTime) : (s.setTime a1).sliceKeys = s.sliceKeys := rfl
@[simp] theorem State.setTime_dgs (s : State) (a1 : FieldTime) : (s.setTime a1).dgs = s.dgs := rfl
@[simp] theorem State.setTime_cph (s : State) (a1 : FieldTime) : (s.setTime a1).cph = s.cph := rfl
@[simp] theorem State.setTime_instanceId (s : State) (a1 : FieldTime) : (s.setTime a1).instanceId = s.instanceId := rfl
@[simp] theorem State.setTime_pat (s : State) (a1 : FieldTime) : (s.setTime a1).pat = s.pat := rfl
@[simp] theorem State.setTime_hdl (s : State) (a1 : FieldTime) : (s.setTime a1).hdl = s.hdl := rfl
@[simp] theorem State.setTime_pins (s : State) (a1 : FieldTime) : (s.setTime a1).pins = s.pins := rfl
@[simp] theorem State.setTime_dur (s : State) (a1 : FieldTime) : (s.setTime a1).dur = s.dur := rfl

/-! ### modHeatRegs -/

@[simp] theorem State.modHeatRegs_pending (s : State) (a1 : Nat) (a2 : HeatRegs → HeatRegs) : (s.modHeatRegs a1 a2).pending = s.pending := rfl
@[simp] theorem State.modHeatRegs_out (s : State) (a1 : Nat) (a2 : HeatRegs → HeatRegs) : (s.modHeatRegs a1 a2).out = s.out := rfl
@[simp] theorem State.modHeatRegs_free (s : State) (a1 : Nat) (a2 : HeatRegs → HeatRegs) : (s.modHeatRegs a1 a2).free = s.free := rfl
@[simp] theorem State.modHeatRegs_stride (s : State) (a1 : Nat) (a2 : HeatRegs → HeatRegs) : (s.modHeatRegs a1 a2).stride = s.stride := rfl
@[simp] theorem State.modHeatRegs_admSeq (s : State) (a1 : Nat) (a2 : HeatRegs → HeatRegs) : (s.modHeatRegs a1 a2).admSeq = s.admSeq := rfl
@[simp] theorem State.modHeatRegs_lastRead (s : State) (a1 : Nat) (a2 : HeatRegs → HeatRegs) : (s.modHeatRegs a1 a2).lastRead = s.lastRead := rfl
@[simp] theorem State.modHeatRegs_variant (s : State) (a1 : Nat) (a2 : HeatRegs → HeatRegs) : (s.modHeatRegs a1 a2).variant = s.variant := rfl
@[simp] theorem State.modHeatRegs_deviceId (s : State) (a1 : Nat) (a2 : HeatRegs → HeatRegs) : (s.modHeatRegs a1 a2).deviceId = s.deviceId := rfl
@[simp] theorem State.modHeatRegs_rw (s : State) (a1 : Nat) (a2 : HeatRegs → HeatRegs) : (s.modHeatRegs a1 a2).rw = s.rw := rfl
@[simp] theorem State.modHeatRegs_staged (s : State) (a1 : Nat) (a2 : HeatRegs → HeatRegs) : (s.modHeatRegs a1 a2).staged = s.staged := rfl
@[simp] theorem State.modHeatRegs_inForce (s : State) (a1 : Nat) (a2 : HeatRegs → HeatRegs) : (s.modHeatRegs a1 a2).inForce = s.inForce := rfl
@[simp] theorem State.modHeatRegs_errs (s : State) (a1 : Nat) (a2 : HeatRegs → HeatRegs) : (s.modHeatRegs a1 a2).errs = s.errs := rfl
@[simp] theorem State.modHeatRegs_latches (s : State) (a1 : Nat) (a2 : HeatRegs → HeatRegs) : (s.modHeatRegs a1 a2).latches = s.latches := rfl
@[simp] theorem State.modHeatRegs_dev (s : State) (a1 : Nat) (a2 : HeatRegs → HeatRegs) : (s.modHeatRegs a1 a2).dev = s.dev := rfl
@[simp] theorem State.modHeatRegs_crs (s : State) (a1 : Nat) (a2 : HeatRegs → HeatRegs) : (s.modHeatRegs a1 a2).crs = s.crs := rfl
@[simp] theorem State.modHeatRegs_evr (s : State) (a1 : Nat) (a2 : HeatRegs → HeatRegs) : (s.modHeatRegs a1 a2).evr = s.evr := rfl
@[simp] theorem State.modHeatRegs_ports (s : State) (a1 : Nat) (a2 : HeatRegs → HeatRegs) : (s.modHeatRegs a1 a2).ports = s.ports := rfl
@[simp] theorem State.modHeatRegs_link (s : State) (a1 : Nat) (a2 : HeatRegs → HeatRegs) : (s.modHeatRegs a1 a2).link = s.link := rfl
@[simp] theorem State.modHeatRegs_msixPend (s : State) (a1 : Nat) (a2 : HeatRegs → HeatRegs) : (s.modHeatRegs a1 a2).msixPend = s.msixPend := rfl
@[simp] theorem State.modHeatRegs_slc (s : State) (a1 : Nat) (a2 : HeatRegs → HeatRegs) : (s.modHeatRegs a1 a2).slc = s.slc := rfl
@[simp] theorem State.modHeatRegs_slices (s : State) (a1 : Nat) (a2 : HeatRegs → HeatRegs) : (s.modHeatRegs a1 a2).slices = s.slices := rfl
@[simp] theorem State.modHeatRegs_wbf (s : State) (a1 : Nat) (a2 : HeatRegs → HeatRegs) : (s.modHeatRegs a1 a2).wbf = s.wbf := rfl
@[simp] theorem State.modHeatRegs_ftl (s : State) (a1 : Nat) (a2 : HeatRegs → HeatRegs) : (s.modHeatRegs a1 a2).ftl = s.ftl := rfl
@[simp] theorem State.modHeatRegs_pwr (s : State) (a1 : Nat) (a2 : HeatRegs → HeatRegs) : (s.modHeatRegs a1 a2).pwr = s.pwr := rfl
@[simp] theorem State.modHeatRegs_fij (s : State) (a1 : Nat) (a2 : HeatRegs → HeatRegs) : (s.modHeatRegs a1 a2).fij = s.fij := rfl
@[simp] theorem State.modHeatRegs_cmb (s : State) (a1 : Nat) (a2 : HeatRegs → HeatRegs) : (s.modHeatRegs a1 a2).cmb = s.cmb := rfl
@[simp] theorem State.modHeatRegs_mem (s : State) (a1 : Nat) (a2 : HeatRegs → HeatRegs) : (s.modHeatRegs a1 a2).mem = s.mem := rfl
@[simp] theorem State.modHeatRegs_mpr (s : State) (a1 : Nat) (a2 : HeatRegs → HeatRegs) : (s.modHeatRegs a1 a2).mpr = s.mpr := rfl
@[simp] theorem State.modHeatRegs_drcs (s : State) (a1 : Nat) (a2 : HeatRegs → HeatRegs) : (s.modHeatRegs a1 a2).drcs = s.drcs := rfl
@[simp] theorem State.modHeatRegs_cores (s : State) (a1 : Nat) (a2 : HeatRegs → HeatRegs) : (s.modHeatRegs a1 a2).cores = s.cores := rfl
@[simp] theorem State.modHeatRegs_heats (s : State) (a1 : Nat) (a2 : HeatRegs → HeatRegs) : (s.modHeatRegs a1 a2).heats = s.heats := rfl
@[simp] theorem State.modHeatRegs_kst (s : State) (a1 : Nat) (a2 : HeatRegs → HeatRegs) : (s.modHeatRegs a1 a2).kst = s.kst := rfl
@[simp] theorem State.modHeatRegs_sliceKeys (s : State) (a1 : Nat) (a2 : HeatRegs → HeatRegs) : (s.modHeatRegs a1 a2).sliceKeys = s.sliceKeys := rfl
@[simp] theorem State.modHeatRegs_dgs (s : State) (a1 : Nat) (a2 : HeatRegs → HeatRegs) : (s.modHeatRegs a1 a2).dgs = s.dgs := rfl
@[simp] theorem State.modHeatRegs_cph (s : State) (a1 : Nat) (a2 : HeatRegs → HeatRegs) : (s.modHeatRegs a1 a2).cph = s.cph := rfl
@[simp] theorem State.modHeatRegs_instanceId (s : State) (a1 : Nat) (a2 : HeatRegs → HeatRegs) : (s.modHeatRegs a1 a2).instanceId = s.instanceId := rfl
@[simp] theorem State.modHeatRegs_pat (s : State) (a1 : Nat) (a2 : HeatRegs → HeatRegs) : (s.modHeatRegs a1 a2).pat = s.pat := rfl
@[simp] theorem State.modHeatRegs_hdl (s : State) (a1 : Nat) (a2 : HeatRegs → HeatRegs) : (s.modHeatRegs a1 a2).hdl = s.hdl := rfl
@[simp] theorem State.modHeatRegs_rly (s : State) (a1 : Nat) (a2 : HeatRegs → HeatRegs) : (s.modHeatRegs a1 a2).rly = s.rly := rfl
@[simp] theorem State.modHeatRegs_pins (s : State) (a1 : Nat) (a2 : HeatRegs → HeatRegs) : (s.modHeatRegs a1 a2).pins = s.pins := rfl
@[simp] theorem State.modHeatRegs_dur (s : State) (a1 : Nat) (a2 : HeatRegs → HeatRegs) : (s.modHeatRegs a1 a2).dur = s.dur := rfl

/-! ### modHeat -/

@[simp] theorem State.modHeat_pending (s : State) (a1 : CmdId) (a2 : Heat → Heat) : (s.modHeat a1 a2).pending = s.pending := rfl
@[simp] theorem State.modHeat_out (s : State) (a1 : CmdId) (a2 : Heat → Heat) : (s.modHeat a1 a2).out = s.out := rfl
@[simp] theorem State.modHeat_free (s : State) (a1 : CmdId) (a2 : Heat → Heat) : (s.modHeat a1 a2).free = s.free := rfl
@[simp] theorem State.modHeat_stride (s : State) (a1 : CmdId) (a2 : Heat → Heat) : (s.modHeat a1 a2).stride = s.stride := rfl
@[simp] theorem State.modHeat_admSeq (s : State) (a1 : CmdId) (a2 : Heat → Heat) : (s.modHeat a1 a2).admSeq = s.admSeq := rfl
@[simp] theorem State.modHeat_lastRead (s : State) (a1 : CmdId) (a2 : Heat → Heat) : (s.modHeat a1 a2).lastRead = s.lastRead := rfl
@[simp] theorem State.modHeat_variant (s : State) (a1 : CmdId) (a2 : Heat → Heat) : (s.modHeat a1 a2).variant = s.variant := rfl
@[simp] theorem State.modHeat_deviceId (s : State) (a1 : CmdId) (a2 : Heat → Heat) : (s.modHeat a1 a2).deviceId = s.deviceId := rfl
@[simp] theorem State.modHeat_rw (s : State) (a1 : CmdId) (a2 : Heat → Heat) : (s.modHeat a1 a2).rw = s.rw := rfl
@[simp] theorem State.modHeat_staged (s : State) (a1 : CmdId) (a2 : Heat → Heat) : (s.modHeat a1 a2).staged = s.staged := rfl
@[simp] theorem State.modHeat_inForce (s : State) (a1 : CmdId) (a2 : Heat → Heat) : (s.modHeat a1 a2).inForce = s.inForce := rfl
@[simp] theorem State.modHeat_errs (s : State) (a1 : CmdId) (a2 : Heat → Heat) : (s.modHeat a1 a2).errs = s.errs := rfl
@[simp] theorem State.modHeat_latches (s : State) (a1 : CmdId) (a2 : Heat → Heat) : (s.modHeat a1 a2).latches = s.latches := rfl
@[simp] theorem State.modHeat_dev (s : State) (a1 : CmdId) (a2 : Heat → Heat) : (s.modHeat a1 a2).dev = s.dev := rfl
@[simp] theorem State.modHeat_crs (s : State) (a1 : CmdId) (a2 : Heat → Heat) : (s.modHeat a1 a2).crs = s.crs := rfl
@[simp] theorem State.modHeat_evr (s : State) (a1 : CmdId) (a2 : Heat → Heat) : (s.modHeat a1 a2).evr = s.evr := rfl
@[simp] theorem State.modHeat_ports (s : State) (a1 : CmdId) (a2 : Heat → Heat) : (s.modHeat a1 a2).ports = s.ports := rfl
@[simp] theorem State.modHeat_link (s : State) (a1 : CmdId) (a2 : Heat → Heat) : (s.modHeat a1 a2).link = s.link := rfl
@[simp] theorem State.modHeat_msixPend (s : State) (a1 : CmdId) (a2 : Heat → Heat) : (s.modHeat a1 a2).msixPend = s.msixPend := rfl
@[simp] theorem State.modHeat_slc (s : State) (a1 : CmdId) (a2 : Heat → Heat) : (s.modHeat a1 a2).slc = s.slc := rfl
@[simp] theorem State.modHeat_slices (s : State) (a1 : CmdId) (a2 : Heat → Heat) : (s.modHeat a1 a2).slices = s.slices := rfl
@[simp] theorem State.modHeat_wbf (s : State) (a1 : CmdId) (a2 : Heat → Heat) : (s.modHeat a1 a2).wbf = s.wbf := rfl
@[simp] theorem State.modHeat_ftl (s : State) (a1 : CmdId) (a2 : Heat → Heat) : (s.modHeat a1 a2).ftl = s.ftl := rfl
@[simp] theorem State.modHeat_pwr (s : State) (a1 : CmdId) (a2 : Heat → Heat) : (s.modHeat a1 a2).pwr = s.pwr := rfl
@[simp] theorem State.modHeat_fij (s : State) (a1 : CmdId) (a2 : Heat → Heat) : (s.modHeat a1 a2).fij = s.fij := rfl
@[simp] theorem State.modHeat_cmb (s : State) (a1 : CmdId) (a2 : Heat → Heat) : (s.modHeat a1 a2).cmb = s.cmb := rfl
@[simp] theorem State.modHeat_mem (s : State) (a1 : CmdId) (a2 : Heat → Heat) : (s.modHeat a1 a2).mem = s.mem := rfl
@[simp] theorem State.modHeat_mpr (s : State) (a1 : CmdId) (a2 : Heat → Heat) : (s.modHeat a1 a2).mpr = s.mpr := rfl
@[simp] theorem State.modHeat_drcs (s : State) (a1 : CmdId) (a2 : Heat → Heat) : (s.modHeat a1 a2).drcs = s.drcs := rfl
@[simp] theorem State.modHeat_cores (s : State) (a1 : CmdId) (a2 : Heat → Heat) : (s.modHeat a1 a2).cores = s.cores := rfl
@[simp] theorem State.modHeat_heatRegs (s : State) (a1 : CmdId) (a2 : Heat → Heat) : (s.modHeat a1 a2).heatRegs = s.heatRegs := rfl
@[simp] theorem State.modHeat_kst (s : State) (a1 : CmdId) (a2 : Heat → Heat) : (s.modHeat a1 a2).kst = s.kst := rfl
@[simp] theorem State.modHeat_sliceKeys (s : State) (a1 : CmdId) (a2 : Heat → Heat) : (s.modHeat a1 a2).sliceKeys = s.sliceKeys := rfl
@[simp] theorem State.modHeat_dgs (s : State) (a1 : CmdId) (a2 : Heat → Heat) : (s.modHeat a1 a2).dgs = s.dgs := rfl
@[simp] theorem State.modHeat_cph (s : State) (a1 : CmdId) (a2 : Heat → Heat) : (s.modHeat a1 a2).cph = s.cph := rfl
@[simp] theorem State.modHeat_instanceId (s : State) (a1 : CmdId) (a2 : Heat → Heat) : (s.modHeat a1 a2).instanceId = s.instanceId := rfl
@[simp] theorem State.modHeat_pat (s : State) (a1 : CmdId) (a2 : Heat → Heat) : (s.modHeat a1 a2).pat = s.pat := rfl
@[simp] theorem State.modHeat_hdl (s : State) (a1 : CmdId) (a2 : Heat → Heat) : (s.modHeat a1 a2).hdl = s.hdl := rfl
@[simp] theorem State.modHeat_rly (s : State) (a1 : CmdId) (a2 : Heat → Heat) : (s.modHeat a1 a2).rly = s.rly := rfl
@[simp] theorem State.modHeat_pins (s : State) (a1 : CmdId) (a2 : Heat → Heat) : (s.modHeat a1 a2).pins = s.pins := rfl
@[simp] theorem State.modHeat_dur (s : State) (a1 : CmdId) (a2 : Heat → Heat) : (s.modHeat a1 a2).dur = s.dur := rfl

/-! ### modAdm -/

@[simp] theorem State.modAdm_pending (s : State) (a1 : CmdId) (a2 : Adm → Adm) : (s.modAdm a1 a2).pending = s.pending := rfl
@[simp] theorem State.modAdm_out (s : State) (a1 : CmdId) (a2 : Adm → Adm) : (s.modAdm a1 a2).out = s.out := rfl
@[simp] theorem State.modAdm_free (s : State) (a1 : CmdId) (a2 : Adm → Adm) : (s.modAdm a1 a2).free = s.free := rfl
@[simp] theorem State.modAdm_stride (s : State) (a1 : CmdId) (a2 : Adm → Adm) : (s.modAdm a1 a2).stride = s.stride := rfl
@[simp] theorem State.modAdm_admSeq (s : State) (a1 : CmdId) (a2 : Adm → Adm) : (s.modAdm a1 a2).admSeq = s.admSeq := rfl
@[simp] theorem State.modAdm_lastRead (s : State) (a1 : CmdId) (a2 : Adm → Adm) : (s.modAdm a1 a2).lastRead = s.lastRead := rfl
@[simp] theorem State.modAdm_variant (s : State) (a1 : CmdId) (a2 : Adm → Adm) : (s.modAdm a1 a2).variant = s.variant := rfl
@[simp] theorem State.modAdm_deviceId (s : State) (a1 : CmdId) (a2 : Adm → Adm) : (s.modAdm a1 a2).deviceId = s.deviceId := rfl
@[simp] theorem State.modAdm_rw (s : State) (a1 : CmdId) (a2 : Adm → Adm) : (s.modAdm a1 a2).rw = s.rw := rfl
@[simp] theorem State.modAdm_staged (s : State) (a1 : CmdId) (a2 : Adm → Adm) : (s.modAdm a1 a2).staged = s.staged := rfl
@[simp] theorem State.modAdm_inForce (s : State) (a1 : CmdId) (a2 : Adm → Adm) : (s.modAdm a1 a2).inForce = s.inForce := rfl
@[simp] theorem State.modAdm_errs (s : State) (a1 : CmdId) (a2 : Adm → Adm) : (s.modAdm a1 a2).errs = s.errs := rfl
@[simp] theorem State.modAdm_latches (s : State) (a1 : CmdId) (a2 : Adm → Adm) : (s.modAdm a1 a2).latches = s.latches := rfl
@[simp] theorem State.modAdm_dev (s : State) (a1 : CmdId) (a2 : Adm → Adm) : (s.modAdm a1 a2).dev = s.dev := rfl
@[simp] theorem State.modAdm_crs (s : State) (a1 : CmdId) (a2 : Adm → Adm) : (s.modAdm a1 a2).crs = s.crs := rfl
@[simp] theorem State.modAdm_evr (s : State) (a1 : CmdId) (a2 : Adm → Adm) : (s.modAdm a1 a2).evr = s.evr := rfl
@[simp] theorem State.modAdm_ports (s : State) (a1 : CmdId) (a2 : Adm → Adm) : (s.modAdm a1 a2).ports = s.ports := rfl
@[simp] theorem State.modAdm_link (s : State) (a1 : CmdId) (a2 : Adm → Adm) : (s.modAdm a1 a2).link = s.link := rfl
@[simp] theorem State.modAdm_msixPend (s : State) (a1 : CmdId) (a2 : Adm → Adm) : (s.modAdm a1 a2).msixPend = s.msixPend := rfl
@[simp] theorem State.modAdm_slc (s : State) (a1 : CmdId) (a2 : Adm → Adm) : (s.modAdm a1 a2).slc = s.slc := rfl
@[simp] theorem State.modAdm_wbf (s : State) (a1 : CmdId) (a2 : Adm → Adm) : (s.modAdm a1 a2).wbf = s.wbf := rfl
@[simp] theorem State.modAdm_ftl (s : State) (a1 : CmdId) (a2 : Adm → Adm) : (s.modAdm a1 a2).ftl = s.ftl := rfl
@[simp] theorem State.modAdm_pwr (s : State) (a1 : CmdId) (a2 : Adm → Adm) : (s.modAdm a1 a2).pwr = s.pwr := rfl
@[simp] theorem State.modAdm_fij (s : State) (a1 : CmdId) (a2 : Adm → Adm) : (s.modAdm a1 a2).fij = s.fij := rfl
@[simp] theorem State.modAdm_cmb (s : State) (a1 : CmdId) (a2 : Adm → Adm) : (s.modAdm a1 a2).cmb = s.cmb := rfl
@[simp] theorem State.modAdm_mem (s : State) (a1 : CmdId) (a2 : Adm → Adm) : (s.modAdm a1 a2).mem = s.mem := rfl
@[simp] theorem State.modAdm_mpr (s : State) (a1 : CmdId) (a2 : Adm → Adm) : (s.modAdm a1 a2).mpr = s.mpr := rfl
@[simp] theorem State.modAdm_drcs (s : State) (a1 : CmdId) (a2 : Adm → Adm) : (s.modAdm a1 a2).drcs = s.drcs := rfl
@[simp] theorem State.modAdm_cores (s : State) (a1 : CmdId) (a2 : Adm → Adm) : (s.modAdm a1 a2).cores = s.cores := rfl
@[simp] theorem State.modAdm_heats (s : State) (a1 : CmdId) (a2 : Adm → Adm) : (s.modAdm a1 a2).heats = s.heats := rfl
@[simp] theorem State.modAdm_heatRegs (s : State) (a1 : CmdId) (a2 : Adm → Adm) : (s.modAdm a1 a2).heatRegs = s.heatRegs := rfl
@[simp] theorem State.modAdm_kst (s : State) (a1 : CmdId) (a2 : Adm → Adm) : (s.modAdm a1 a2).kst = s.kst := rfl
@[simp] theorem State.modAdm_sliceKeys (s : State) (a1 : CmdId) (a2 : Adm → Adm) : (s.modAdm a1 a2).sliceKeys = s.sliceKeys := rfl
@[simp] theorem State.modAdm_dgs (s : State) (a1 : CmdId) (a2 : Adm → Adm) : (s.modAdm a1 a2).dgs = s.dgs := rfl
@[simp] theorem State.modAdm_cph (s : State) (a1 : CmdId) (a2 : Adm → Adm) : (s.modAdm a1 a2).cph = s.cph := rfl
@[simp] theorem State.modAdm_instanceId (s : State) (a1 : CmdId) (a2 : Adm → Adm) : (s.modAdm a1 a2).instanceId = s.instanceId := rfl
@[simp] theorem State.modAdm_pat (s : State) (a1 : CmdId) (a2 : Adm → Adm) : (s.modAdm a1 a2).pat = s.pat := rfl
@[simp] theorem State.modAdm_hdl (s : State) (a1 : CmdId) (a2 : Adm → Adm) : (s.modAdm a1 a2).hdl = s.hdl := rfl
@[simp] theorem State.modAdm_rly (s : State) (a1 : CmdId) (a2 : Adm → Adm) : (s.modAdm a1 a2).rly = s.rly := rfl
@[simp] theorem State.modAdm_pins (s : State) (a1 : CmdId) (a2 : Adm → Adm) : (s.modAdm a1 a2).pins = s.pins := rfl
@[simp] theorem State.modAdm_dur (s : State) (a1 : CmdId) (a2 : Adm → Adm) : (s.modAdm a1 a2).dur = s.dur := rfl

/-! ### modPairing -/

@[simp] theorem State.modPairing_pending (s : State) (a1 : Nat) (a2 : Pairing → Pairing) : (s.modPairing a1 a2).pending = s.pending := rfl
@[simp] theorem State.modPairing_out (s : State) (a1 : Nat) (a2 : Pairing → Pairing) : (s.modPairing a1 a2).out = s.out := rfl
@[simp] theorem State.modPairing_free (s : State) (a1 : Nat) (a2 : Pairing → Pairing) : (s.modPairing a1 a2).free = s.free := rfl
@[simp] theorem State.modPairing_stride (s : State) (a1 : Nat) (a2 : Pairing → Pairing) : (s.modPairing a1 a2).stride = s.stride := rfl
@[simp] theorem State.modPairing_admSeq (s : State) (a1 : Nat) (a2 : Pairing → Pairing) : (s.modPairing a1 a2).admSeq = s.admSeq := rfl
@[simp] theorem State.modPairing_lastRead (s : State) (a1 : Nat) (a2 : Pairing → Pairing) : (s.modPairing a1 a2).lastRead = s.lastRead := rfl
@[simp] theorem State.modPairing_variant (s : State) (a1 : Nat) (a2 : Pairing → Pairing) : (s.modPairing a1 a2).variant = s.variant := rfl
@[simp] theorem State.modPairing_deviceId (s : State) (a1 : Nat) (a2 : Pairing → Pairing) : (s.modPairing a1 a2).deviceId = s.deviceId := rfl
@[simp] theorem State.modPairing_rw (s : State) (a1 : Nat) (a2 : Pairing → Pairing) : (s.modPairing a1 a2).rw = s.rw := rfl
@[simp] theorem State.modPairing_staged (s : State) (a1 : Nat) (a2 : Pairing → Pairing) : (s.modPairing a1 a2).staged = s.staged := rfl
@[simp] theorem State.modPairing_inForce (s : State) (a1 : Nat) (a2 : Pairing → Pairing) : (s.modPairing a1 a2).inForce = s.inForce := rfl
@[simp] theorem State.modPairing_errs (s : State) (a1 : Nat) (a2 : Pairing → Pairing) : (s.modPairing a1 a2).errs = s.errs := rfl
@[simp] theorem State.modPairing_latches (s : State) (a1 : Nat) (a2 : Pairing → Pairing) : (s.modPairing a1 a2).latches = s.latches := rfl
@[simp] theorem State.modPairing_dev (s : State) (a1 : Nat) (a2 : Pairing → Pairing) : (s.modPairing a1 a2).dev = s.dev := rfl
@[simp] theorem State.modPairing_crs (s : State) (a1 : Nat) (a2 : Pairing → Pairing) : (s.modPairing a1 a2).crs = s.crs := rfl
@[simp] theorem State.modPairing_evr (s : State) (a1 : Nat) (a2 : Pairing → Pairing) : (s.modPairing a1 a2).evr = s.evr := rfl
@[simp] theorem State.modPairing_ports (s : State) (a1 : Nat) (a2 : Pairing → Pairing) : (s.modPairing a1 a2).ports = s.ports := rfl
@[simp] theorem State.modPairing_link (s : State) (a1 : Nat) (a2 : Pairing → Pairing) : (s.modPairing a1 a2).link = s.link := rfl
@[simp] theorem State.modPairing_msixPend (s : State) (a1 : Nat) (a2 : Pairing → Pairing) : (s.modPairing a1 a2).msixPend = s.msixPend := rfl
@[simp] theorem State.modPairing_slc (s : State) (a1 : Nat) (a2 : Pairing → Pairing) : (s.modPairing a1 a2).slc = s.slc := rfl
@[simp] theorem State.modPairing_wbf (s : State) (a1 : Nat) (a2 : Pairing → Pairing) : (s.modPairing a1 a2).wbf = s.wbf := rfl
@[simp] theorem State.modPairing_ftl (s : State) (a1 : Nat) (a2 : Pairing → Pairing) : (s.modPairing a1 a2).ftl = s.ftl := rfl
@[simp] theorem State.modPairing_pwr (s : State) (a1 : Nat) (a2 : Pairing → Pairing) : (s.modPairing a1 a2).pwr = s.pwr := rfl
@[simp] theorem State.modPairing_fij (s : State) (a1 : Nat) (a2 : Pairing → Pairing) : (s.modPairing a1 a2).fij = s.fij := rfl
@[simp] theorem State.modPairing_cmb (s : State) (a1 : Nat) (a2 : Pairing → Pairing) : (s.modPairing a1 a2).cmb = s.cmb := rfl
@[simp] theorem State.modPairing_mem (s : State) (a1 : Nat) (a2 : Pairing → Pairing) : (s.modPairing a1 a2).mem = s.mem := rfl
@[simp] theorem State.modPairing_mpr (s : State) (a1 : Nat) (a2 : Pairing → Pairing) : (s.modPairing a1 a2).mpr = s.mpr := rfl
@[simp] theorem State.modPairing_drcs (s : State) (a1 : Nat) (a2 : Pairing → Pairing) : (s.modPairing a1 a2).drcs = s.drcs := rfl
@[simp] theorem State.modPairing_cores (s : State) (a1 : Nat) (a2 : Pairing → Pairing) : (s.modPairing a1 a2).cores = s.cores := rfl
@[simp] theorem State.modPairing_heats (s : State) (a1 : Nat) (a2 : Pairing → Pairing) : (s.modPairing a1 a2).heats = s.heats := rfl
@[simp] theorem State.modPairing_heatRegs (s : State) (a1 : Nat) (a2 : Pairing → Pairing) : (s.modPairing a1 a2).heatRegs = s.heatRegs := rfl
@[simp] theorem State.modPairing_kst (s : State) (a1 : Nat) (a2 : Pairing → Pairing) : (s.modPairing a1 a2).kst = s.kst := rfl
@[simp] theorem State.modPairing_sliceKeys (s : State) (a1 : Nat) (a2 : Pairing → Pairing) : (s.modPairing a1 a2).sliceKeys = s.sliceKeys := rfl
@[simp] theorem State.modPairing_dgs (s : State) (a1 : Nat) (a2 : Pairing → Pairing) : (s.modPairing a1 a2).dgs = s.dgs := rfl
@[simp] theorem State.modPairing_cph (s : State) (a1 : Nat) (a2 : Pairing → Pairing) : (s.modPairing a1 a2).cph = s.cph := rfl
@[simp] theorem State.modPairing_instanceId (s : State) (a1 : Nat) (a2 : Pairing → Pairing) : (s.modPairing a1 a2).instanceId = s.instanceId := rfl
@[simp] theorem State.modPairing_pat (s : State) (a1 : Nat) (a2 : Pairing → Pairing) : (s.modPairing a1 a2).pat = s.pat := rfl
@[simp] theorem State.modPairing_hdl (s : State) (a1 : Nat) (a2 : Pairing → Pairing) : (s.modPairing a1 a2).hdl = s.hdl := rfl
@[simp] theorem State.modPairing_rly (s : State) (a1 : Nat) (a2 : Pairing → Pairing) : (s.modPairing a1 a2).rly = s.rly := rfl
@[simp] theorem State.modPairing_pins (s : State) (a1 : Nat) (a2 : Pairing → Pairing) : (s.modPairing a1 a2).pins = s.pins := rfl
@[simp] theorem State.modPairing_dur (s : State) (a1 : Nat) (a2 : Pairing → Pairing) : (s.modPairing a1 a2).dur = s.dur := rfl

/-! ### What is read back -/

@[simp] theorem State.slice_setSlice (s : State) (n : Nat) (x : Slice) : (s.setSlice n x).slice n = x := by
  simp [State.slice, State.setSlice]
theorem State.slice_setSlice_ne (s : State) {n m : Nat} (x : Slice) (h : m ≠ n) :
    (s.setSlice n x).slice m = s.slice m := by
  simp [State.slice, State.setSlice, tgetD_tset_ne _ _ _ h]
@[simp] theorem State.slice_modSlice (s : State) (n : Nat) (f : Slice → Slice) :
    (s.modSlice n f).slice n = f (s.slice n) := State.slice_setSlice s n _
theorem State.slice_modSlice_ne (s : State) {n m : Nat} (f : Slice → Slice) (h : m ≠ n) :
    (s.modSlice n f).slice m = s.slice m := State.slice_setSlice_ne s _ h
@[simp] theorem State.port_modPort (s : State) (p : Nat) (f : Port → Port) : (s.modPort p f).port p = f (s.port p) := by
  simp [State.port, State.modPort]
theorem State.port_modPort_ne (s : State) {p q : Nat} (f : Port → Port) (h : q ≠ p) :
    (s.modPort p f).port q = s.port q := by
  simp [State.port, State.modPort, tgetD_tset_ne _ _ _ h]
@[simp] theorem State.core_setCore (s : State) (c : Nat) (k : Core) : (s.setCore c k).core c = k := by
  simp [State.core, State.setCore]
theorem State.core_setCore_ne (s : State) {c d : Nat} (k : Core) (h : d ≠ c) : (s.setCore c k).core d = s.core d := by
  simp [State.core, State.setCore, tgetD_tset_ne _ _ _ h]
@[simp] theorem State.core_modCore (s : State) (c : Nat) (f : Core → Core) : (s.modCore c f).core c = f (s.core c) :=
  State.core_setCore s c _
theorem State.core_modCore_ne (s : State) {c d : Nat} (f : Core → Core) (h : d ≠ c) :
    (s.modCore c f).core d = s.core d := State.core_setCore_ne s _ h
@[simp] theorem State.arr_setArr (s : State) (a : Nat) (m : MemArr) : (s.setArr a m).arr a = m := by
  simp [State.arr, State.setArr]
theorem State.arr_setArr_ne (s : State) {a b : Nat} (m : MemArr) (h : b ≠ a) : (s.setArr a m).arr b = s.arr b := by
  simp [State.arr, State.setArr, tgetD_tset_ne _ _ _ h]
@[simp] theorem State.rwGet_rwSet (s : State) (k : Nat) (v r : BitVec 64) : (s.rwSet k v).rwGet k r = v := by
  simp [State.rwGet, State.rwSet]
theorem State.rwGet_rwSet_ne (s : State) {k j : Nat} (v r : BitVec 64) (h : j ≠ k) :
    (s.rwSet k v).rwGet j r = s.rwGet j r := by
  simp [State.rwGet, State.rwSet, tgetD_tset_ne _ _ _ h]
@[simp] theorem State.emit_out (s : State) (o : Out) : (s.emit o).out = s.out ++ [o] := rfl
@[simp] theorem State.setFtl_ftl (s : State) (f : Ftl) : (s.setFtl f).ftl = f := rfl
@[simp] theorem State.setCrs_crs (s : State) (c : Crs) : (s.setCrs c).crs = c := rfl
@[simp] theorem State.setKst_kst (s : State) (k : Kst) : (s.setKst k).kst = k := rfl
@[simp] theorem State.setSlc_slc (s : State) (x : Slc) : (s.setSlc x).slc = x := rfl
@[simp] theorem State.setRly_rly (s : State) (x : Rly) : (s.setRly x).rly = x := rfl
@[simp] theorem State.stage_staged (s : State) (k : Nat) (v : BitVec 64) : (s.stage k v).staged = tset s.staged k v := rfl
@[simp] theorem State.ev_queue (s : State) (c n : Nat) (d : Bytes) :
    (s.ev c n d).evr.queue = s.evr.queue ++ [{ code := c, src := n, detail := d, at' := s.evAt }] := rfl

end Sys2Proof.Machine
end

