-- ==== Sys2Proof/Laws/Commands.lean ====
section
/-! SUPPORT. Register commands on a device that is up: they reach their register, and nothing stands before them. -/

namespace Sys2Proof.Machine

/-- No wake source wakes a device in P0. -/
theorem wakesMask_p0 (src : Nat) : natBit (wakesMask src) 0 = false := by
  unfold wakesMask
  repeat' split
  all_goals rfl

theorem State.wakeEvent_up {s : State} (h : s.up) (src d : Nat) : s.wakeEvent src d = s := by
  obtain ⟨_, _, h3, h4⟩ := h
  unfold State.wakeEvent
  simp [h3, h4, wakesMask_p0]

theorem State.wakeOnWrite_up {s : State} (h : s.up) (q : Requester) : s.wakeOnWrite q = s := by
  cases q <;> simp [State.wakeOnWrite, State.wakeEvent_up h]

theorem State.bar0Blocked_up {s : State} {q : Requester} (h : s.up) (k : s.honours q) (off : Nat) :
    s.bar0Blocked q off = none := by
  obtain ⟨h1, h2, h3, _⟩ := h
  unfold State.bar0Blocked
  cases q with
  | port p => simp [State.honours] at k; simp [h1, h2, h3, k.2.symm]
  | core c => simp [h1, h2, h3]
  | smbus => cases k

theorem State.bar0Write_up {s : State} {q : Requester} (h : s.up) (k : s.honours q) (off : Nat) (op : State → State) :
    s.bar0Write q off op = op s := by
  unfold State.bar0Write
  simp only [State.wakeOnWrite_up h, State.bar0Blocked_up h k]

theorem byReq_honours {s : State} {q : Requester} (k : s.honours q) (t : State) : byReq q t = .next t := by
  cases q with
  | port p => exact onPort_of k.1 t
  | core c => exact onCore_of k t
  | smbus => cases k

theorem byReqSlice_honours {s : State} {q : Requester} {n : Nat} (k : s.honours q) (h : n < 512) (t : State) :
    byReqSlice q n t = .next t := by
  cases q with
  | port p => exact onPortSlice_of k.1 h t
  | core c => simp only [State.honours] at k; simp [byReqSlice, k, onSlice_of h]
  | smbus => cases k

theorem byReqChannel_honours {s : State} {q : Requester} {n : Nat} (k : s.honours q) (h : n < 32) (t : State) :
    byReqChannel q n t = .next t := by
  cases q with
  | port p => simp only [State.honours] at k; simp [byReqChannel, k.1, onChannel_of h]
  | core c => simp only [State.honours] at k; simp [byReqChannel, k, onChannel_of h]
  | smbus => cases k

theorem State.bar2Blocked_up {s : State} {p n : Nat} (h : s.up) (k : s.windowLive p n = true) (off : Nat) :
    s.bar2Blocked p n off = none := by
  obtain ⟨h1, h2, h3, _⟩ := h
  unfold State.bar2Blocked
  simp [h1, h2, h3, k]

theorem State.winWrite_up {s : State} {p n : Nat} (h : s.up) (k : s.windowLive p n = true) (off : Nat) (op : State → State) :
    s.winWrite p n off op = op s := by
  unfold State.winWrite
  simp only [State.wakeEvent_up h, State.bar2Blocked_up h k]

/-! ### Commands that have been admitted -/

theorem State.onAdmin_of {s : State} {c : CmdId} {opc : Nat} {a : Adm} (h : s.awaitsAdmin c opc a) (f : Adm → State) :
    s.onAdmin c opc f = f a := by
  obtain ⟨_, h2, h3, h4, h5⟩ := h
  simp [State.onAdmin, h2, h3, h4, h5]

theorem State.onIo_of {s : State} {c : CmdId} {opc : Nat} {a : Adm} {ns : Ns} (h : s.awaitsIo c opc a ns)
    (f : Adm → Ns → State) : s.onIo c opc f = f a ns := by
  obtain ⟨_, h2, h3, h4, h5, h6, h7, h8⟩ := h
  unfold State.onIo
  simp only [h2, Slice.ns, h3]
  rcases h7 with h7 | h7 <;> simp [h4, h5, h6, h7, h8, State.stagedAtAdmission]

theorem State.onEngine_of {s : State} {c : CmdId} {opc : Nat} {a : Adm} (h : s.awaitsEngine c opc a) (f : Adm → State) :
    s.onEngine c opc f = f a := by
  obtain ⟨_, h2, h3, h4, h5⟩ := h
  simp [State.onEngine, h2, h3, h4, h5]

/-- Where FAULT_INJECT is not granted, nothing is injected. -/
theorem State.onHop_quiet {s : State} (h : s.faultInject = false) (k : Nat) : s.onHop k = s := by
  simp [State.onHop, State.fijUnit, h]

theorem State.hopFor_quiet {s : State} (h : s.faultInject = false) (c : CmdId) (k : Nat) : s.hopFor c k = s := by
  unfold State.hopFor; split <;> simp [State.onHop_quiet h]

theorem State.onFrame_quiet {s : State} (h : s.faultInject = false) (p : Nat) (f : State → RelayIn → State) (c : RelayIn) :
    s.onFrame p f c = f s c := by
  simp [State.onFrame, h]

theorem State.linkFrame_of {s : State} {p : Nat} (h : s.linked p) (c : RelayIn) : s.linkFrame p c = s.frameAct c := by
  obtain ⟨_, h2, h3, h4⟩ := h
  simp [State.linkFrame, h2, h3, State.onFrame_quiet h4]

theorem State.routedFrame_of {s : State} (h : s.routed) (src : Nat) (c : RelayIn) : s.routedFrame src c = s.frameAct c := by
  obtain ⟨h1, _, h3⟩ := h
  simp [State.routedFrame, h1, State.onFrame_quiet h3]

theorem State.onRouted_of {s : State} (h : s.routed) (src : Nat) (f : State → State) :
    s.onRouted src f = f (s.tookFrom src) := by
  obtain ⟨h1, h2, _⟩ := h
  simp [State.onRouted, h1, h2]

@[simp] theorem State.rlyPort_modRly (s : State) (p : Nat) (f : RlyPort → RlyPort) :
    (s.modRly p f).rlyPort p = f (s.rlyPort p) := by
  simp [State.rlyPort, State.modRly, State.setRly]

theorem State.wakeEvent_wakes {s : State} {src : Nat} (h : s.pwr.phase = .steady)
    (k : natBit (wakesMask src) s.pwr.state = true) (d : Nat) : s.wakeEvent src d = s.woken src d := by
  simp [State.wakeEvent, h, k, State.woken]

/-! ### Registers of BAR0 -/

/-- An offset of BAR0 outside the blocks that a variant may lack holds the register of the map. -/
theorem State.bar0Reg_of (s : State) {off : Nat} {l : Loc} (h : bar0Loc off = some l)
    (h0 : (decide (0x400000 ≤ off) && decide (off < 0x420000) || decide (0x800000 ≤ off) && decide (off < 0x880000) ||
      decide (0x1400000 ≤ off) && decide (off < 0x1440000) || decide (0x150000 ≤ off) && decide (off < 0x162000)) = false) :
    s.bar0Reg off = some l := by
  unfold State.bar0Reg State.absent State.noPort1
  simp only [Bool.or_eq_false_iff, Bool.and_eq_false_iff, decide_eq_false_iff_not] at h0
  have : ((decide (0x400000 ≤ off) && decide (off < 0x420000) &&
      decide (s.channelsPresent ≤ (off - 0x400000) / 0x1000)) ||
    (decide (0x800000 ≤ off) && decide (off < 0x880000) && decide (s.coresPresent / 8 ≤ (off - 0x800000) / 0x10000)) ||
    (decide (0x1400000 ≤ off) && decide (off < 0x1440000) && decide (s.relayPorts ≤ (off - 0x1400000) / 0x10000)) ||
    (decide (s.portCount = 1) && ((decide (0x150000 ≤ off) && decide (off < 0x160000)) ||
      (decide (0x161000 ≤ off) && decide (off < 0x162000))))) = false := by
    simp only [Bool.or_eq_false_iff, Bool.and_eq_false_iff, decide_eq_false_iff_not]
    omega
  rw [if_neg (by rw [this]; decide), h]

/-- No error status register stands at an offset but the last of its block. -/
theorem State.errAt_of (s : State) {off b : Nat} (h : instBase off = some b) (h' : off ≠ b + 0xFFC) :
    s.errAt off = none := by
  unfold State.errAt
  split
  · rfl
  · simp [h, h']

/-- A write of a 32-bit register has its effect, or is discarded and reported (R9, R12). -/
theorem State.bar0Reach_of (s : State) (q : Requester) {off : Nat} {l : Loc} (v : Nat) (hl : s.bar0Reg off = some l)
    (he : s.errAt off = none) (hf : off < 0x1A00000 ∨ 0x1B00000 ≤ off) (ht : off < 0x700100 ∨ 0x70011C ≤ off)
    (hs : isShare l.row.reg = false) (hw : l.row.wide = false) :
    s.bar0Reach q off 4 v = if s.writeOk l v then s.bar0Put l v else s.discardAt off := by
  have h1 : (decide (0x1A00000 ≤ off) && decide (off < 0x1B00000)) = false := by
    simp only [Bool.and_eq_false_iff, decide_eq_false_iff_not]; omega
  have h2 : testHidden q off = false := by
    unfold testHidden
    split
    · rfl
    · simp only [Bool.or_eq_false_iff, Bool.and_eq_false_iff, decide_eq_false_iff_not]; omega
  unfold State.bar0Reach State.access
  simp [h1, h2, he, hl, hs, hw]

theorem State.bar0RegWrite_of {s : State} {q : Requester} (hu : s.up) (hq : s.honours q) {off : Nat} {l : Loc} {v : Nat}
    (hl : s.bar0Reg off = some l) (hc : s.bar0Command q l v = none) :
    s.bar0RegWrite q off 4 v = s.bar0Reach q off 4 v := by
  unfold State.bar0RegWrite
  simp [hl, hc, State.bar0Write_up hu hq]

theorem State.bar0Command_plain {s : State} {q : Requester} {off : Nat} {l : Loc} (h : s.plainReg off l) (v : Nat) :
    s.bar0Command q l v = none := by
  obtain ⟨_, _, _, _, _, h⟩ := h
  unfold State.bar0Command
  dsimp only
  split
  · rfl
  · split <;> first | rfl | (rename_i e; rw [e] at h; simp at h)

theorem State.regWrite_bar0 {s : State} {q : Requester} (hq : s.honours q) (off size : Nat) (v : BitVec 64) :
    s.regWrite q .bar0 off size v = s.bar0RegWrite q off size (v.toNat % 256 ^ size) := by
  cases q with
  | smbus => cases hq
  | port p => rfl
  | core c => rfl

/-! ### Operations that leave the slices -/

@[simp] theorem State.ev_slice (s : State) (a1 : Nat) (a2 : Nat) (a3 : Bytes) (n : Nat) : (s.ev a1 a2 a3).slice n = s.slice n := rfl
@[simp] theorem State.emit_slice (s : State) (a1 : Out) (n : Nat) : (s.emit a1).slice n = s.slice n := rfl
@[simp] theorem State.setSlc_slice (s : State) (a1 : Slc) (n : Nat) : (s.setSlc a1).slice n = s.slice n := rfl
@[simp] theorem State.setKst_slice (s : State) (a1 : Kst) (n : Nat) : (s.setKst a1).slice n = s.slice n := rfl
@[simp] theorem State.modKeys_slice (s : State) (a1 : Nat) (a2 : SliceKeys → SliceKeys) (n : Nat) : (s.modKeys a1 a2).slice n = s.slice n := rfl
@[simp] theorem State.modHeatRegs_slice (s : State) (a1 : Nat) (a2 : HeatRegs → HeatRegs) (n : Nat) : (s.modHeatRegs a1 a2).slice n = s.slice n := rfl
@[simp] theorem State.setCore_slice (s : State) (a1 : Nat) (a2 : Core) (n : Nat) : (s.setCore a1 a2).slice n = s.slice n := rfl
@[simp] theorem State.modCore_slice (s : State) (a1 : Nat) (a2 : Core → Core) (n : Nat) : (s.modCore a1 a2).slice n = s.slice n := rfl
@[simp] theorem State.setArr_slice (s : State) (a1 : Nat) (a2 : MemArr) (n : Nat) : (s.setArr a1 a2).slice n = s.slice n := rfl
@[simp] theorem State.modArr_slice (s : State) (a1 : Nat) (a2 : MemArr → MemArr) (n : Nat) : (s.modArr a1 a2).slice n = s.slice n := rfl
@[simp] theorem State.rwSet_slice (s : State) (a1 : Nat) (a2 : BitVec 64) (n : Nat) : (s.rwSet a1 a2).slice n = s.slice n := rfl
@[simp] theorem State.forceSet_slice (s : State) (a1 : Nat) (a2 : Nat) (n : Nat) : (s.forceSet a1 a2).slice n = s.slice n := rfl
@[simp] theorem State.setFtl_slice (s : State) (a1 : Ftl) (n : Nat) : (s.setFtl a1).slice n = s.slice n := rfl
@[simp] theorem State.modHeat_slice (s : State) (a1 : CmdId) (a2 : Heat → Heat) (n : Nat) : (s.modHeat a1 a2).slice n = s.slice n := rfl
@[simp] theorem State.setCrs_slice (s : State) (a1 : Crs) (n : Nat) : (s.setCrs a1).slice n = s.slice n := rfl
@[simp] theorem State.setRly_slice (s : State) (a1 : Rly) (n : Nat) : (s.setRly a1).slice n = s.slice n := rfl
@[simp] theorem State.evOnly_slice (s : State) (a1 : Nat) (a2 : Nat) (a3 : Bytes) (n : Nat) : (s.evOnly a1 a2 a3).slice n = s.slice n := rfl
@[simp] theorem State.modBlk_slice (s : State) (a1 : Nat) (a2 : Blk → Blk) (n : Nat) : (s.modBlk a1 a2).slice n = s.slice n := rfl
@[simp] theorem State.modDie_slice (s : State) (a1 : Nat) (a2 : Die → Die) (n : Nat) : (s.modDie a1 a2).slice n = s.slice n := rfl
@[simp] theorem State.modChan_slice (s : State) (a1 : Nat) (a2 : Chan → Chan) (n : Nat) : (s.modChan a1 a2).slice n = s.slice n := rfl
@[simp] theorem State.modPort_slice (s : State) (a1 : Nat) (a2 : Port → Port) (n : Nat) : (s.modPort a1 a2).slice n = s.slice n := rfl
@[simp] theorem State.discard_slice (s : State) (a1 : Nat) (a2 : Nat) (a3 : Nat) (a4 : Nat) (n : Nat) : (s.discard a1 a2 a3 a4).slice n = s.slice n := rfl

end Sys2Proof.Machine
end

