-- ==== Sys2Proof/Laws/Norsor.lean ====
section
/-! SUPPORT. One instruction of a core: where it is legal and nothing else is due, it does what its group does, and
the program counter moves on. -/

namespace Sys2Proof.Machine

theorem tset_tset {α : Type} (t : Tab α) (i : Nat) (v w : α) : tset (tset t i v) i w = tset t i w := by
  induction t with
  | nil => simp [tset]
  | cons p t ih =>
    obtain ⟨k, x⟩ := p
    by_cases h1 : i < k
    · simp [tset, h1]
    · by_cases h2 : i = k
      · subst h2; simp [tset]
      · simp [tset, h1, h2, ih]

theorem State.setCore_setCore (s : State) (c : Nat) (k l : Core) : (s.setCore c k).setCore c l = s.setCore c l := by
  simp [State.setCore, tset_tset]

/-- A read of bytes none of which stands as raw storage. -/
theorem State.memByte_clean (s : State) (a off : Nat) (h : tget (s.arr a).raws off = none) :
    s.memByte a off = (s, mget (s.arr a).cells off, false) := by
  simp [State.memByte, h]

theorem State.memRead_clean (s : State) (a off n : Nat) (h : ∀ i, i < n → tget (s.arr a).raws (off + i) = none) :
    s.memRead a off n = (s, mread (s.arr a).cells off n, false) := by
  induction n generalizing off with
  | zero => rfl
  | succ n ih =>
    have e := s.memByte_clean a off (by simpa using h 0 (by omega))
    have r := ih (off + 1) (fun i hi => by
      have := h (i + 1) (by omega)
      rwa [show off + (i + 1) = off + 1 + i by omega] at this)
    simp [State.memRead, e, r, mread]

theorem State.coreRuns_lt {s : State} {c : Nat} (h : s.coreRuns c = true) : c < 72 := by
  simp only [State.coreRuns, State.corePresent, State.coresPresent, Bool.and_eq_true, Bool.or_eq_true,
    decide_eq_true_eq] at h
  have p := h.1.1.1.1.2
  have q : (if s.variant = 1 then 64 else if s.variant = 2 then 32 else 16) ≤ 64 := by
    split
    · omega
    · split <;> omega
  rcases p with p | p
  · exact Nat.lt_of_lt_of_le (of_decide_eq_true p) (Nat.le_trans q (by decide))
  · exact p.2

theorem State.takeEntry_none {s : State} {c : Nat} (h : entryDue (s.core c) = none) : s.takeEntry c = none := by
  simp [State.takeEntry, h]

/-- At an instruction boundary where nothing is due the body runs. -/
theorem State.atBoundary_of {bus : Bus} {s : State} {c len : Nat} (h : s.atInstr c len) (body : State → Core → State) :
    s.atBoundary bus c len body = body s (s.core c) := by
  obtain ⟨h1, h2, h3, h4⟩ := h
  unfold State.atBoundary
  simp only [h1, Bool.not_true, Bool.false_eq_true, if_false, State.takeEntry_none h2, h3]
  rcases h4 with h4 | h4
  · rw [if_neg (by omega)]
  · split
    · rw [State.memRead_clean s c _ len (fun i _ => by rw [h4]; rfl)]
      rfl
    · rfl

theorem State.cyclesOf_pos (s : State) (b : Option Nat) : 1 ≤ s.cyclesOf b := by
  unfold State.cyclesOf
  split
  · split <;> omega
  · omega

theorem State.cyclesOf_le (s : State) (m : Nat) : s.cyclesOf (some m) ≤ max 1 m := by
  unfold State.cyclesOf
  dsimp only
  split
  · omega
  · have := Nat.mod_lt (Config.freeValue s.free).toNat (show 0 < m by omega)
    omega

/-- Charging a core that has run. -/
theorem State.charge_ran (s : State) (c : Nat) (k : Core) (b : Option Nat) :
    s.ran ((s.setCore c k).charge c (!(s.core c).marshal) b) c k b := by
  refine ⟨(s.setCore c k).cyclesOf b, (s.setCore c k).cyclesOf_pos b, fun m hb => ?_, ?_⟩
  · subst hb; exact (s.setCore c k).cyclesOf_le m
  · simp [State.charge, State.setCore, tset_tset, State.core]

/-- A legal instruction whose group answers a core and perhaps a target runs. -/
theorem State.runWord_ok {bus : Bus} {s : State} {c : Nat} {w : RepWord} {k : Core} {target : Option Dword}
    (h : s.atInstr c (wordLen w)) (hl : illWord c (s.core c) w = [])
    (e : s.semWord bus c (s.core c) w = .ok (s.setCore c k, target)) :
    s.ran (s.runWord bus c w) c
      { k with pc := target.getD ((s.core c).pc + BitVec.ofNat 64 (wordLen w)) } (s.bound c (s.core c) w) := by
  have q : s.runWord bus c w = ((s.setCore c
      { k with pc := target.getD ((s.core c).pc + BitVec.ofNat 64 (wordLen w)) }).charge c (!(s.core c).marshal)
        (s.bound c (s.core c) w)) := by
    unfold State.runWord
    rw [State.atBoundary_of h, hl]
    simp only [List.min?_nil, e, State.modCore, State.core_setCore, State.setCore_setCore]
  rw [q]
  exact State.charge_ran s c _ _

/-- A row's instruction runs. -/
theorem State.runRow_ok {s : State} {c : Nat} {own : Bool} {w : RepWord} {k : Core} {target : Option Dword}
    (hw : own = true) (ho : wordLenOk w = true) (h : s.atInstr c (wordLen w))
    (hl : illWord c (s.core c) w = [])
    (e : s.semWord State.coreBus c (s.core c) w = .ok (s.setCore c k, target)) :
    ∃ t, onCore c (s.runRow c own w) = .next t ∧ s.ran t c
      { k with pc := target.getD ((s.core c).pc + BitVec.ofNat 64 (wordLen w)) } (s.bound c (s.core c) w) := by
  subst hw
  refine ⟨_, onCore_of (State.coreRuns_lt h.1) _, ?_⟩
  unfold State.runRow
  rw [ho]
  exact State.runWord_ok h hl e

end Sys2Proof.Machine
end

