-- ==== Sys2Proof/Laws/Formats.lean ====
section
/-! SUPPORT. The fields of a word built by its format are the fields it was built from. -/

namespace Sys2Proof.Machine

theorem natBits_hi {m n hi lo : Nat} (x : BitVec m) (y : BitVec n) (h : n ≤ lo) (h2 : lo ≤ hi) :
    natBits (x ++ y).toNat hi lo = natBits x.toNat (hi - n) (lo - n) := by
  unfold natBits
  rw [show hi - n + 1 - (lo - n) = hi + 1 - lo by omega]
  congr 1
  apply Nat.eq_of_testBit_eq
  intro i
  simp only [BitVec.toNat_append, Nat.testBit_shiftRight, Nat.testBit_or, Nat.testBit_shiftLeft]
  rw [Nat.testBit_lt_two_pow (x := y.toNat) (Nat.lt_of_lt_of_le y.isLt (Nat.pow_le_pow_right (by decide) (by omega)))]
  simp [show n ≤ lo + i by omega, show lo + i - n = lo - n + i by omega]

theorem natBits_lo {m n hi lo : Nat} (x : BitVec m) (y : BitVec n) (h : hi < n) :
    natBits (x ++ y).toNat hi lo = natBits y.toNat hi lo := by
  unfold natBits
  apply Nat.eq_of_testBit_eq
  intro i
  simp only [BitVec.toNat_append, Nat.testBit_shiftRight, Nat.testBit_or, Nat.testBit_shiftLeft,
    Nat.testBit_mod_two_pow]
  by_cases hi : i < hi + 1 - lo
  · simp [show ¬ n ≤ lo + i by omega]
  · simp [hi]

theorem natBits_all {n : Nat} (x : BitVec (n + 1)) : natBits x.toNat n 0 = x.toNat := by
  unfold natBits
  rw [Nat.shiftRight_zero, Nat.mod_eq_of_lt]
  exact x.isLt

theorem natBits_zero_step {m n hi : Nat} (x : BitVec m) (h : n ≤ hi) (e : natBits x.toNat (hi - n) 0 = 0) :
    natBits (x ++ 0#n).toNat hi 0 = 0 := by
  apply Nat.eq_of_testBit_eq
  intro i
  unfold natBits at e ⊢
  simp only [BitVec.toNat_append, Nat.testBit_shiftRight, Nat.testBit_or, Nat.testBit_shiftLeft,
    Nat.testBit_mod_two_pow, Nat.zero_testBit]
  by_cases hn : n ≤ i
  · have q := congrArg (fun z => z.testBit (i - n)) e
    simp only [Nat.shiftRight_zero, Nat.testBit_mod_two_pow, Nat.zero_testBit] at q
    by_cases hi2 : i < hi + 1
    · simp [show i - n < hi - n + 1 by omega] at q
      simp [q]
    · simp [hi2]
  · simp [hn]

namespace Fmt

@[simp] theorem rr_len (op d g : BitVec 5) : natBits (Fmt.rr op d g).toNat 15 15 = 0 := by
  unfold Fmt.rr
  rw [natBits_hi _ _ (by decide) (by decide), natBits_hi _ _ (by decide) (by decide), natBits_hi _ _ (by decide) (by decide)]
  decide
@[simp] theorem rr_op (op d g : BitVec 5) : natBits (Fmt.rr op d g).toNat 14 10 = op.toNat := by
  unfold Fmt.rr
  rw [natBits_hi _ _ (by decide) (by decide), natBits_hi _ _ (by decide) (by decide), natBits_lo _ _ (by decide)]
  exact natBits_all op
@[simp] theorem rr_d (op d g : BitVec 5) : natBits (Fmt.rr op d g).toNat 9 5 = d.toNat := by
  unfold Fmt.rr
  rw [natBits_hi _ _ (by decide) (by decide), natBits_lo _ _ (by decide)]
  exact natBits_all d
@[simp] theorem rr_g (op d g : BitVec 5) : natBits (Fmt.rr op d g).toNat 4 0 = g.toNat := by
  unfold Fmt.rr
  rw [natBits_lo _ _ (by decide)]
  exact natBits_all g

@[simp] theorem tr_len (op : BitVec 6) (d a b : BitVec 5) : natBits (Fmt.tr op d a b).toNat 31 30 = 2 := by
  unfold Fmt.tr
  rw [natBits_hi _ _ (by decide) (by decide), natBits_hi _ _ (by decide) (by decide), natBits_hi _ _ (by decide) (by decide), natBits_hi _ _ (by decide) (by decide), natBits_hi _ _ (by decide) (by decide)]
  decide
@[simp] theorem tr_op (op : BitVec 6) (d a b : BitVec 5) : natBits (Fmt.tr op d a b).toNat 29 24 = op.toNat := by
  unfold Fmt.tr
  rw [natBits_hi _ _ (by decide) (by decide), natBits_hi _ _ (by decide) (by decide), natBits_hi _ _ (by decide) (by decide), natBits_hi _ _ (by decide) (by decide), natBits_lo _ _ (by decide)]
  exact natBits_all op
@[simp] theorem tr_d (op : BitVec 6) (d a b : BitVec 5) : natBits (Fmt.tr op d a b).toNat 23 19 = d.toNat := by
  unfold Fmt.tr
  rw [natBits_hi _ _ (by decide) (by decide), natBits_hi _ _ (by decide) (by decide), natBits_hi _ _ (by decide) (by decide), natBits_lo _ _ (by decide)]
  exact natBits_all d
@[simp] theorem tr_a (op : BitVec 6) (d a b : BitVec 5) : natBits (Fmt.tr op d a b).toNat 18 14 = a.toNat := by
  unfold Fmt.tr
  rw [natBits_hi _ _ (by decide) (by decide), natBits_hi _ _ (by decide) (by decide), natBits_lo _ _ (by decide)]
  exact natBits_all a
@[simp] theorem tr_b (op : BitVec 6) (d a b : BitVec 5) : natBits (Fmt.tr op d a b).toNat 13 9 = b.toNat := by
  unfold Fmt.tr
  rw [natBits_hi _ _ (by decide) (by decide), natBits_lo _ _ (by decide)]
  exact natBits_all b
@[simp] theorem tr_z (op : BitVec 6) (d a b : BitVec 5) : natBits (Fmt.tr op d a b).toNat 8 0 = 0 := by
  unfold Fmt.tr
  rw [natBits_lo _ _ (by decide)]
  decide

@[simp] theorem im_len (op : BitVec 6) (d a : BitVec 5) (imm : BitVec 14) : natBits (Fmt.im op d a imm).toNat 31 30 = 2 := by
  unfold Fmt.im
  rw [natBits_hi _ _ (by decide) (by decide), natBits_hi _ _ (by decide) (by decide), natBits_hi _ _ (by decide) (by decide), natBits_hi _ _ (by decide) (by decide)]
  decide
@[simp] theorem im_op (op : BitVec 6) (d a : BitVec 5) (imm : BitVec 14) : natBits (Fmt.im op d a imm).toNat 29 24 = op.toNat := by
  unfold Fmt.im
  rw [natBits_hi _ _ (by decide) (by decide), natBits_hi _ _ (by decide) (by decide), natBits_hi _ _ (by decide) (by decide), natBits_lo _ _ (by decide)]
  exact natBits_all op
@[simp] theorem im_d (op : BitVec 6) (d a : BitVec 5) (imm : BitVec 14) : natBits (Fmt.im op d a imm).toNat 23 19 = d.toNat := by
  unfold Fmt.im
  rw [natBits_hi _ _ (by decide) (by decide), natBits_hi _ _ (by decide) (by decide), natBits_lo _ _ (by decide)]
  exact natBits_all d
@[simp] theorem im_a (op : BitVec 6) (d a : BitVec 5) (imm : BitVec 14) : natBits (Fmt.im op d a imm).toNat 18 14 = a.toNat := by
  unfold Fmt.im
  rw [natBits_hi _ _ (by decide) (by decide), natBits_lo _ _ (by decide)]
  exact natBits_all a
@[simp] theorem im_imm (op : BitVec 6) (d a : BitVec 5) (imm : BitVec 14) : natBits (Fmt.im op d a imm).toNat 13 0 = imm.toNat := by
  unfold Fmt.im
  rw [natBits_lo _ _ (by decide)]
  exact natBits_all imm

@[simp] theorem li_len (op : BitVec 6) (d : BitVec 5) (imm : BitVec 19) : natBits (Fmt.li op d imm).toNat 31 30 = 2 := by
  unfold Fmt.li
  rw [natBits_hi _ _ (by decide) (by decide), natBits_hi _ _ (by decide) (by decide), natBits_hi _ _ (by decide) (by decide)]
  decide
@[simp] theorem li_op (op : BitVec 6) (d : BitVec 5) (imm : BitVec 19) : natBits (Fmt.li op d imm).toNat 29 24 = op.toNat := by
  unfold Fmt.li
  rw [natBits_hi _ _ (by decide) (by decide), natBits_hi _ _ (by decide) (by decide), natBits_lo _ _ (by decide)]
  exact natBits_all op
@[simp] theorem li_d (op : BitVec 6) (d : BitVec 5) (imm : BitVec 19) : natBits (Fmt.li op d imm).toNat 23 19 = d.toNat := by
  unfold Fmt.li
  rw [natBits_hi _ _ (by decide) (by decide), natBits_lo _ _ (by decide)]
  exact natBits_all d
@[simp] theorem li_imm (op : BitVec 6) (d : BitVec 5) (imm : BitVec 19) : natBits (Fmt.li op d imm).toNat 18 0 = imm.toNat := by
  unfold Fmt.li
  rw [natBits_lo _ _ (by decide)]
  exact natBits_all imm

@[simp] theorem mm_len (op : BitVec 6) (d b : BitVec 5) (mode : BitVec 3) (gi : BitVec 5) (scale low : BitVec 3) : natBits (Fmt.mm op d b mode gi scale low).toNat 31 30 = 2 := by
  unfold Fmt.mm
  rw [natBits_hi _ _ (by decide) (by decide), natBits_hi _ _ (by decide) (by decide), natBits_hi _ _ (by decide) (by decide), natBits_hi _ _ (by decide) (by decide), natBits_hi _ _ (by decide) (by decide), natBits_hi _ _ (by decide) (by decide), natBits_hi _ _ (by decide) (by decide)]
  decide
@[simp] theorem mm_op (op : BitVec 6) (d b : BitVec 5) (mode : BitVec 3) (gi : BitVec 5) (scale low : BitVec 3) : natBits (Fmt.mm op d b mode gi scale low).toNat 29 24 = op.toNat := by
  unfold Fmt.mm
  rw [natBits_hi _ _ (by decide) (by decide), natBits_hi _ _ (by decide) (by decide), natBits_hi _ _ (by decide) (by decide), natBits_hi _ _ (by decide) (by decide), natBits_hi _ _ (by decide) (by decide), natBits_hi _ _ (by decide) (by decide), natBits_lo _ _ (by decide)]
  exact natBits_all op
@[simp] theorem mm_d (op : BitVec 6) (d b : BitVec 5) (mode : BitVec 3) (gi : BitVec 5) (scale low : BitVec 3) : natBits (Fmt.mm op d b mode gi scale low).toNat 23 19 = d.toNat := by
  unfold Fmt.mm
  rw [natBits_hi _ _ (by decide) (by decide), natBits_hi _ _ (by decide) (by decide), natBits_hi _ _ (by decide) (by decide), natBits_hi _ _ (by decide) (by decide), natBits_hi _ _ (by decide) (by decide), natBits_lo _ _ (by decide)]
  exact natBits_all d
@[simp] theorem mm_b (op : BitVec 6) (d b : BitVec 5) (mode : BitVec 3) (gi : BitVec 5) (scale low : BitVec 3) : natBits (Fmt.mm op d b mode gi scale low).toNat 18 14 = b.toNat := by
  unfold Fmt.mm
  rw [natBits_hi _ _ (by decide) (by decide), natBits_hi _ _ (by decide) (by decide), natBits_hi _ _ (by decide) (by decide), natBits_hi _ _ (by decide) (by decide), natBits_lo _ _ (by decide)]
  exact natBits_all b
@[simp] theorem mm_mode (op : BitVec 6) (d b : BitVec 5) (mode : BitVec 3) (gi : BitVec 5) (scale low : BitVec 3) : natBits (Fmt.mm op d b mode gi scale low).toNat 13 11 = mode.toNat := by
  unfold Fmt.mm
  rw [natBits_hi _ _ (by decide) (by decide), natBits_hi _ _ (by decide) (by decide), natBits_hi _ _ (by decide) (by decide), natBits_lo _ _ (by decide)]
  exact natBits_all mode
@[simp] theorem mm_gi (op : BitVec 6) (d b : BitVec 5) (mode : BitVec 3) (gi : BitVec 5) (scale low : BitVec 3) : natBits (Fmt.mm op d b mode gi scale low).toNat 10 6 = gi.toNat := by
  unfold Fmt.mm
  rw [natBits_hi _ _ (by decide) (by decide), natBits_hi _ _ (by decide) (by decide), natBits_lo _ _ (by decide)]
  exact natBits_all gi
@[simp] theorem mm_scale (op : BitVec 6) (d b : BitVec 5) (mode : BitVec 3) (gi : BitVec 5) (scale low : BitVec 3) : natBits (Fmt.mm op d b mode gi scale low).toNat 5 3 = scale.toNat := by
  unfold Fmt.mm
  rw [natBits_hi _ _ (by decide) (by decide), natBits_lo _ _ (by decide)]
  exact natBits_all scale
@[simp] theorem mm_low (op : BitVec 6) (d b : BitVec 5) (mode : BitVec 3) (gi : BitVec 5) (scale low : BitVec 3) : natBits (Fmt.mm op d b mode gi scale low).toNat 2 0 = low.toNat := by
  unfold Fmt.mm
  rw [natBits_lo _ _ (by decide)]
  exact natBits_all low

@[simp] theorem br_len (op : BitVec 6) (cond : BitVec 4) (disp : BitVec 20) : natBits (Fmt.br op cond disp).toNat 31 30 = 2 := by
  unfold Fmt.br
  rw [natBits_hi _ _ (by decide) (by decide), natBits_hi _ _ (by decide) (by decide), natBits_hi _ _ (by decide) (by decide)]
  decide
@[simp] theorem br_op (op : BitVec 6) (cond : BitVec 4) (disp : BitVec 20) : natBits (Fmt.br op cond disp).toNat 29 24 = op.toNat := by
  unfold Fmt.br
  rw [natBits_hi _ _ (by decide) (by decide), natBits_hi _ _ (by decide) (by decide), natBits_lo _ _ (by decide)]
  exact natBits_all op
@[simp] theorem br_cond (op : BitVec 6) (cond : BitVec 4) (disp : BitVec 20) : natBits (Fmt.br op cond disp).toNat 23 20 = cond.toNat := by
  unfold Fmt.br
  rw [natBits_hi _ _ (by decide) (by decide), natBits_lo _ _ (by decide)]
  exact natBits_all cond
@[simp] theorem br_disp (op : BitVec 6) (cond : BitVec 4) (disp : BitVec 20) : natBits (Fmt.br op cond disp).toNat 19 0 = disp.toNat := by
  unfold Fmt.br
  rw [natBits_lo _ _ (by decide)]
  exact natBits_all disp

@[simp] theorem jp_len (op : BitVec 6) (disp : BitVec 24) : natBits (Fmt.jp op disp).toNat 31 30 = 2 := by
  unfold Fmt.jp
  rw [natBits_hi _ _ (by decide) (by decide), natBits_hi _ _ (by decide) (by decide)]
  decide
@[simp] theorem jp_op (op : BitVec 6) (disp : BitVec 24) : natBits (Fmt.jp op disp).toNat 29 24 = op.toNat := by
  unfold Fmt.jp
  rw [natBits_hi _ _ (by decide) (by decide), natBits_lo _ _ (by decide)]
  exact natBits_all op
@[simp] theorem jp_disp (op : BitVec 6) (disp : BitVec 24) : natBits (Fmt.jp op disp).toNat 23 0 = disp.toNat := by
  unfold Fmt.jp
  rw [natBits_lo _ _ (by decide)]
  exact natBits_all disp

@[simp] theorem wi_len (op : BitVec 6) (d : BitVec 5) (imm : BitVec 32) : natBits (Fmt.wi op d imm).toNat 47 46 = 3 := by
  unfold Fmt.wi
  rw [natBits_hi _ _ (by decide) (by decide), natBits_hi _ _ (by decide) (by decide), natBits_hi _ _ (by decide) (by decide), natBits_hi _ _ (by decide) (by decide)]
  decide
@[simp] theorem wi_op (op : BitVec 6) (d : BitVec 5) (imm : BitVec 32) : natBits (Fmt.wi op d imm).toNat 45 40 = op.toNat := by
  unfold Fmt.wi
  rw [natBits_hi _ _ (by decide) (by decide), natBits_hi _ _ (by decide) (by decide), natBits_hi _ _ (by decide) (by decide), natBits_lo _ _ (by decide)]
  exact natBits_all op
@[simp] theorem wi_d (op : BitVec 6) (d : BitVec 5) (imm : BitVec 32) : natBits (Fmt.wi op d imm).toNat 39 35 = d.toNat := by
  unfold Fmt.wi
  rw [natBits_hi _ _ (by decide) (by decide), natBits_hi _ _ (by decide) (by decide), natBits_lo _ _ (by decide)]
  exact natBits_all d
@[simp] theorem wi_z (op : BitVec 6) (d : BitVec 5) (imm : BitVec 32) : natBits (Fmt.wi op d imm).toNat 34 32 = 0 := by
  unfold Fmt.wi
  rw [natBits_hi _ _ (by decide) (by decide), natBits_lo _ _ (by decide)]
  decide
@[simp] theorem wi_imm (op : BitVec 6) (d : BitVec 5) (imm : BitVec 32) : natBits (Fmt.wi op d imm).toNat 31 0 = imm.toNat := by
  unfold Fmt.wi
  rw [natBits_lo _ _ (by decide)]
  exact natBits_all imm

@[simp] theorem md_len (op : BitVec 6) (d b : BitVec 5) (disp : BitVec 16) : natBits (Fmt.md op d b disp).toNat 47 46 = 3 := by
  unfold Fmt.md
  rw [natBits_hi _ _ (by decide) (by decide), natBits_hi _ _ (by decide) (by decide), natBits_hi _ _ (by decide) (by decide), natBits_hi _ _ (by decide) (by decide), natBits_hi _ _ (by decide) (by decide), natBits_hi _ _ (by decide) (by decide)]
  decide
@[simp] theorem md_op (op : BitVec 6) (d b : BitVec 5) (disp : BitVec 16) : natBits (Fmt.md op d b disp).toNat 45 40 = op.toNat := by
  unfold Fmt.md
  rw [natBits_hi _ _ (by decide) (by decide), natBits_hi _ _ (by decide) (by decide), natBits_hi _ _ (by decide) (by decide), natBits_hi _ _ (by decide) (by decide), natBits_hi _ _ (by decide) (by decide), natBits_lo _ _ (by decide)]
  exact natBits_all op
@[simp] theorem md_d (op : BitVec 6) (d b : BitVec 5) (disp : BitVec 16) : natBits (Fmt.md op d b disp).toNat 39 35 = d.toNat := by
  unfold Fmt.md
  rw [natBits_hi _ _ (by decide) (by decide), natBits_hi _ _ (by decide) (by decide), natBits_hi _ _ (by decide) (by decide), natBits_hi _ _ (by decide) (by decide), natBits_lo _ _ (by decide)]
  exact natBits_all d
@[simp] theorem md_b (op : BitVec 6) (d b : BitVec 5) (disp : BitVec 16) : natBits (Fmt.md op d b disp).toNat 34 30 = b.toNat := by
  unfold Fmt.md
  rw [natBits_hi _ _ (by decide) (by decide), natBits_hi _ _ (by decide) (by decide), natBits_hi _ _ (by decide) (by decide), natBits_lo _ _ (by decide)]
  exact natBits_all b
@[simp] theorem md_mode (op : BitVec 6) (d b : BitVec 5) (disp : BitVec 16) : natBits (Fmt.md op d b disp).toNat 29 27 = 4 := by
  unfold Fmt.md
  rw [natBits_hi _ _ (by decide) (by decide), natBits_hi _ _ (by decide) (by decide), natBits_lo _ _ (by decide)]
  decide
@[simp] theorem md_z (op : BitVec 6) (d b : BitVec 5) (disp : BitVec 16) : natBits (Fmt.md op d b disp).toNat 26 16 = 0 := by
  unfold Fmt.md
  rw [natBits_hi _ _ (by decide) (by decide), natBits_lo _ _ (by decide)]
  decide
@[simp] theorem md_disp (op : BitVec 6) (d b : BitVec 5) (disp : BitVec 16) : natBits (Fmt.md op d b disp).toNat 15 0 = disp.toNat := by
  unfold Fmt.md
  rw [natBits_lo _ _ (by decide)]
  exact natBits_all disp

@[simp] theorem mx_len (op : BitVec 6) (d b gi : BitVec 5) (scale : BitVec 3) (disp : BitVec 8) : natBits (Fmt.mx op d b gi scale disp).toNat 47 46 = 3 := by
  unfold Fmt.mx
  rw [natBits_hi _ _ (by decide) (by decide), natBits_hi _ _ (by decide) (by decide), natBits_hi _ _ (by decide) (by decide), natBits_hi _ _ (by decide) (by decide), natBits_hi _ _ (by decide) (by decide), natBits_hi _ _ (by decide) (by decide), natBits_hi _ _ (by decide) (by decide), natBits_hi _ _ (by decide) (by decide)]
  decide
@[simp] theorem mx_op (op : BitVec 6) (d b gi : BitVec 5) (scale : BitVec 3) (disp : BitVec 8) : natBits (Fmt.mx op d b gi scale disp).toNat 45 40 = op.toNat := by
  unfold Fmt.mx
  rw [natBits_hi _ _ (by decide) (by decide), natBits_hi _ _ (by decide) (by decide), natBits_hi _ _ (by decide) (by decide), natBits_hi _ _ (by decide) (by decide), natBits_hi _ _ (by decide) (by decide), natBits_hi _ _ (by decide) (by decide), natBits_hi _ _ (by decide) (by decide), natBits_lo _ _ (by decide)]
  exact natBits_all op
@[simp] theorem mx_d (op : BitVec 6) (d b gi : BitVec 5) (scale : BitVec 3) (disp : BitVec 8) : natBits (Fmt.mx op d b gi scale disp).toNat 39 35 = d.toNat := by
  unfold Fmt.mx
  rw [natBits_hi _ _ (by decide) (by decide), natBits_hi _ _ (by decide) (by decide), natBits_hi _ _ (by decide) (by decide), natBits_hi _ _ (by decide) (by decide), natBits_hi _ _ (by decide) (by decide), natBits_hi _ _ (by decide) (by decide), natBits_lo _ _ (by decide)]
  exact natBits_all d
@[simp] theorem mx_b (op : BitVec 6) (d b gi : BitVec 5) (scale : BitVec 3) (disp : BitVec 8) : natBits (Fmt.mx op d b gi scale disp).toNat 34 30 = b.toNat := by
  unfold Fmt.mx
  rw [natBits_hi _ _ (by decide) (by decide), natBits_hi _ _ (by decide) (by decide), natBits_hi _ _ (by decide) (by decide), natBits_hi _ _ (by decide) (by decide), natBits_hi _ _ (by decide) (by decide), natBits_lo _ _ (by decide)]
  exact natBits_all b
@[simp] theorem mx_mode (op : BitVec 6) (d b gi : BitVec 5) (scale : BitVec 3) (disp : BitVec 8) : natBits (Fmt.mx op d b gi scale disp).toNat 29 27 = 5 := by
  unfold Fmt.mx
  rw [natBits_hi _ _ (by decide) (by decide), natBits_hi _ _ (by decide) (by decide), natBits_hi _ _ (by decide) (by decide), natBits_hi _ _ (by decide) (by decide), natBits_lo _ _ (by decide)]
  decide
@[simp] theorem mx_gi (op : BitVec 6) (d b gi : BitVec 5) (scale : BitVec 3) (disp : BitVec 8) : natBits (Fmt.mx op d b gi scale disp).toNat 26 22 = gi.toNat := by
  unfold Fmt.mx
  rw [natBits_hi _ _ (by decide) (by decide), natBits_hi _ _ (by decide) (by decide), natBits_hi _ _ (by decide) (by decide), natBits_lo _ _ (by decide)]
  exact natBits_all gi
@[simp] theorem mx_scale (op : BitVec 6) (d b gi : BitVec 5) (scale : BitVec 3) (disp : BitVec 8) : natBits (Fmt.mx op d b gi scale disp).toNat 21 19 = scale.toNat := by
  unfold Fmt.mx
  rw [natBits_hi _ _ (by decide) (by decide), natBits_hi _ _ (by decide) (by decide), natBits_lo _ _ (by decide)]
  exact natBits_all scale
@[simp] theorem mx_z (op : BitVec 6) (d b gi : BitVec 5) (scale : BitVec 3) (disp : BitVec 8) : natBits (Fmt.mx op d b gi scale disp).toNat 18 8 = 0 := by
  unfold Fmt.mx
  rw [natBits_hi _ _ (by decide) (by decide), natBits_lo _ _ (by decide)]
  decide
@[simp] theorem mx_disp (op : BitVec 6) (d b gi : BitVec 5) (scale : BitVec 3) (disp : BitVec 8) : natBits (Fmt.mx op d b gi scale disp).toNat 7 0 = disp.toNat := by
  unfold Fmt.mx
  rw [natBits_lo _ _ (by decide)]
  exact natBits_all disp

@[simp] theorem ds_len (op : BitVec 6) (l1 l2 b1 : BitVec 5) (d1 : BitVec 10) (b2 : BitVec 5) (d2 : BitVec 10) : natBits (Fmt.ds op l1 l2 b1 d1 b2 d2).toNat 47 46 = 3 := by
  unfold Fmt.ds
  rw [natBits_hi _ _ (by decide) (by decide), natBits_hi _ _ (by decide) (by decide), natBits_hi _ _ (by decide) (by decide), natBits_hi _ _ (by decide) (by decide), natBits_hi _ _ (by decide) (by decide), natBits_hi _ _ (by decide) (by decide), natBits_hi _ _ (by decide) (by decide)]
  decide
@[simp] theorem ds_op (op : BitVec 6) (l1 l2 b1 : BitVec 5) (d1 : BitVec 10) (b2 : BitVec 5) (d2 : BitVec 10) : natBits (Fmt.ds op l1 l2 b1 d1 b2 d2).toNat 45 40 = op.toNat := by
  unfold Fmt.ds
  rw [natBits_hi _ _ (by decide) (by decide), natBits_hi _ _ (by decide) (by decide), natBits_hi _ _ (by decide) (by decide), natBits_hi _ _ (by decide) (by decide), natBits_hi _ _ (by decide) (by decide), natBits_hi _ _ (by decide) (by decide), natBits_lo _ _ (by decide)]
  exact natBits_all op
@[simp] theorem ds_l1 (op : BitVec 6) (l1 l2 b1 : BitVec 5) (d1 : BitVec 10) (b2 : BitVec 5) (d2 : BitVec 10) : natBits (Fmt.ds op l1 l2 b1 d1 b2 d2).toNat 39 35 = l1.toNat := by
  unfold Fmt.ds
  rw [natBits_hi _ _ (by decide) (by decide), natBits_hi _ _ (by decide) (by decide), natBits_hi _ _ (by decide) (by decide), natBits_hi _ _ (by decide) (by decide), natBits_hi _ _ (by decide) (by decide), natBits_lo _ _ (by decide)]
  exact natBits_all l1
@[simp] theorem ds_l2 (op : BitVec 6) (l1 l2 b1 : BitVec 5) (d1 : BitVec 10) (b2 : BitVec 5) (d2 : BitVec 10) : natBits (Fmt.ds op l1 l2 b1 d1 b2 d2).toNat 34 30 = l2.toNat := by
  unfold Fmt.ds
  rw [natBits_hi _ _ (by decide) (by decide), natBits_hi _ _ (by decide) (by decide), natBits_hi _ _ (by decide) (by decide), natBits_hi _ _ (by decide) (by decide), natBits_lo _ _ (by decide)]
  exact natBits_all l2
@[simp] theorem ds_b1 (op : BitVec 6) (l1 l2 b1 : BitVec 5) (d1 : BitVec 10) (b2 : BitVec 5) (d2 : BitVec 10) : natBits (Fmt.ds op l1 l2 b1 d1 b2 d2).toNat 29 25 = b1.toNat := by
  unfold Fmt.ds
  rw [natBits_hi _ _ (by decide) (by decide), natBits_hi _ _ (by decide) (by decide), natBits_hi _ _ (by decide) (by decide), natBits_lo _ _ (by decide)]
  exact natBits_all b1
@[simp] theorem ds_d1 (op : BitVec 6) (l1 l2 b1 : BitVec 5) (d1 : BitVec 10) (b2 : BitVec 5) (d2 : BitVec 10) : natBits (Fmt.ds op l1 l2 b1 d1 b2 d2).toNat 24 15 = d1.toNat := by
  unfold Fmt.ds
  rw [natBits_hi _ _ (by decide) (by decide), natBits_hi _ _ (by decide) (by decide), natBits_lo _ _ (by decide)]
  exact natBits_all d1
@[simp] theorem ds_b2 (op : BitVec 6) (l1 l2 b1 : BitVec 5) (d1 : BitVec 10) (b2 : BitVec 5) (d2 : BitVec 10) : natBits (Fmt.ds op l1 l2 b1 d1 b2 d2).toNat 14 10 = b2.toNat := by
  unfold Fmt.ds
  rw [natBits_hi _ _ (by decide) (by decide), natBits_lo _ _ (by decide)]
  exact natBits_all b2
@[simp] theorem ds_d2 (op : BitVec 6) (l1 l2 b1 : BitVec 5) (d1 : BitVec 10) (b2 : BitVec 5) (d2 : BitVec 10) : natBits (Fmt.ds op l1 l2 b1 d1 b2 d2).toNat 9 0 = d2.toNat := by
  unfold Fmt.ds
  rw [natBits_lo _ _ (by decide)]
  exact natBits_all d2

@[simp] theorem dh_len (op : BitVec 6) (l1 : BitVec 5) (sh : BitVec 7) (b1 : BitVec 5) (d1 : BitVec 10) : natBits (Fmt.dh op l1 sh b1 d1).toNat 47 46 = 3 := by
  unfold Fmt.dh
  rw [natBits_hi _ _ (by decide) (by decide), natBits_hi _ _ (by decide) (by decide), natBits_hi _ _ (by decide) (by decide), natBits_hi _ _ (by decide) (by decide), natBits_hi _ _ (by decide) (by decide), natBits_hi _ _ (by decide) (by decide)]
  decide
@[simp] theorem dh_op (op : BitVec 6) (l1 : BitVec 5) (sh : BitVec 7) (b1 : BitVec 5) (d1 : BitVec 10) : natBits (Fmt.dh op l1 sh b1 d1).toNat 45 40 = op.toNat := by
  unfold Fmt.dh
  rw [natBits_hi _ _ (by decide) (by decide), natBits_hi _ _ (by decide) (by decide), natBits_hi _ _ (by decide) (by decide), natBits_hi _ _ (by decide) (by decide), natBits_hi _ _ (by decide) (by decide), natBits_lo _ _ (by decide)]
  exact natBits_all op
@[simp] theorem dh_l1 (op : BitVec 6) (l1 : BitVec 5) (sh : BitVec 7) (b1 : BitVec 5) (d1 : BitVec 10) : natBits (Fmt.dh op l1 sh b1 d1).toNat 39 35 = l1.toNat := by
  unfold Fmt.dh
  rw [natBits_hi _ _ (by decide) (by decide), natBits_hi _ _ (by decide) (by decide), natBits_hi _ _ (by decide) (by decide), natBits_hi _ _ (by decide) (by decide), natBits_lo _ _ (by decide)]
  exact natBits_all l1
@[simp] theorem dh_sh (op : BitVec 6) (l1 : BitVec 5) (sh : BitVec 7) (b1 : BitVec 5) (d1 : BitVec 10) : natBits (Fmt.dh op l1 sh b1 d1).toNat 34 28 = sh.toNat := by
  unfold Fmt.dh
  rw [natBits_hi _ _ (by decide) (by decide), natBits_hi _ _ (by decide) (by decide), natBits_hi _ _ (by decide) (by decide), natBits_lo _ _ (by decide)]
  exact natBits_all sh
@[simp] theorem dh_b1 (op : BitVec 6) (l1 : BitVec 5) (sh : BitVec 7) (b1 : BitVec 5) (d1 : BitVec 10) : natBits (Fmt.dh op l1 sh b1 d1).toNat 27 23 = b1.toNat := by
  unfold Fmt.dh
  rw [natBits_hi _ _ (by decide) (by decide), natBits_hi _ _ (by decide) (by decide), natBits_lo _ _ (by decide)]
  exact natBits_all b1
@[simp] theorem dh_d1 (op : BitVec 6) (l1 : BitVec 5) (sh : BitVec 7) (b1 : BitVec 5) (d1 : BitVec 10) : natBits (Fmt.dh op l1 sh b1 d1).toNat 22 13 = d1.toNat := by
  unfold Fmt.dh
  rw [natBits_hi _ _ (by decide) (by decide), natBits_lo _ _ (by decide)]
  exact natBits_all d1
@[simp] theorem dh_z (op : BitVec 6) (l1 : BitVec 5) (sh : BitVec 7) (b1 : BitVec 5) (d1 : BitVec 10) : natBits (Fmt.dh op l1 sh b1 d1).toNat 12 0 = 0 := by
  unfold Fmt.dh
  rw [natBits_lo _ _ (by decide)]
  decide

@[simp] theorem dr_len (op : BitVec 6) (l1 gr b1 : BitVec 5) (d1 : BitVec 10) : natBits (Fmt.dr op l1 gr b1 d1).toNat 47 46 = 3 := by
  unfold Fmt.dr
  rw [natBits_hi _ _ (by decide) (by decide), natBits_hi _ _ (by decide) (by decide), natBits_hi _ _ (by decide) (by decide), natBits_hi _ _ (by decide) (by decide), natBits_hi _ _ (by decide) (by decide), natBits_hi _ _ (by decide) (by decide)]
  decide
@[simp] theorem dr_op (op : BitVec 6) (l1 gr b1 : BitVec 5) (d1 : BitVec 10) : natBits (Fmt.dr op l1 gr b1 d1).toNat 45 40 = op.toNat := by
  unfold Fmt.dr
  rw [natBits_hi _ _ (by decide) (by decide), natBits_hi _ _ (by decide) (by decide), natBits_hi _ _ (by decide) (by decide), natBits_hi _ _ (by decide) (by decide), natBits_hi _ _ (by decide) (by decide), natBits_lo _ _ (by decide)]
  exact natBits_all op
@[simp] theorem dr_l1 (op : BitVec 6) (l1 gr b1 : BitVec 5) (d1 : BitVec 10) : natBits (Fmt.dr op l1 gr b1 d1).toNat 39 35 = l1.toNat := by
  unfold Fmt.dr
  rw [natBits_hi _ _ (by decide) (by decide), natBits_hi _ _ (by decide) (by decide), natBits_hi _ _ (by decide) (by decide), natBits_hi _ _ (by decide) (by decide), natBits_lo _ _ (by decide)]
  exact natBits_all l1
@[simp] theorem dr_gr (op : BitVec 6) (l1 gr b1 : BitVec 5) (d1 : BitVec 10) : natBits (Fmt.dr op l1 gr b1 d1).toNat 34 30 = gr.toNat := by
  unfold Fmt.dr
  rw [natBits_hi _ _ (by decide) (by decide), natBits_hi _ _ (by decide) (by decide), natBits_hi _ _ (by decide) (by decide), natBits_lo _ _ (by decide)]
  exact natBits_all gr
@[simp] theorem dr_b1 (op : BitVec 6) (l1 gr b1 : BitVec 5) (d1 : BitVec 10) : natBits (Fmt.dr op l1 gr b1 d1).toNat 29 25 = b1.toNat := by
  unfold Fmt.dr
  rw [natBits_hi _ _ (by decide) (by decide), natBits_hi _ _ (by decide) (by decide), natBits_lo _ _ (by decide)]
  exact natBits_all b1
@[simp] theorem dr_d1 (op : BitVec 6) (l1 gr b1 : BitVec 5) (d1 : BitVec 10) : natBits (Fmt.dr op l1 gr b1 d1).toNat 24 15 = d1.toNat := by
  unfold Fmt.dr
  rw [natBits_hi _ _ (by decide) (by decide), natBits_lo _ _ (by decide)]
  exact natBits_all d1
@[simp] theorem dr_z (op : BitVec 6) (l1 gr b1 : BitVec 5) (d1 : BitVec 10) : natBits (Fmt.dr op l1 gr b1 d1).toNat 14 0 = 0 := by
  unfold Fmt.dr
  rw [natBits_lo _ _ (by decide)]
  decide

@[simp] theorem sh_len (op : BitVec 6) (d a : BitVec 5) (n : BitVec 6) : natBits (Fmt.sh op d a n).toNat 31 30 = 2 := by
  unfold Fmt.sh
  rw [natBits_hi _ _ (by decide) (by decide), natBits_hi _ _ (by decide) (by decide), natBits_hi _ _ (by decide) (by decide), natBits_hi _ _ (by decide) (by decide), natBits_hi _ _ (by decide) (by decide)]
  decide
@[simp] theorem sh_op (op : BitVec 6) (d a : BitVec 5) (n : BitVec 6) : natBits (Fmt.sh op d a n).toNat 29 24 = op.toNat := by
  unfold Fmt.sh
  rw [natBits_hi _ _ (by decide) (by decide), natBits_hi _ _ (by decide) (by decide), natBits_hi _ _ (by decide) (by decide), natBits_hi _ _ (by decide) (by decide), natBits_lo _ _ (by decide)]
  exact natBits_all op
@[simp] theorem sh_d (op : BitVec 6) (d a : BitVec 5) (n : BitVec 6) : natBits (Fmt.sh op d a n).toNat 23 19 = d.toNat := by
  unfold Fmt.sh
  rw [natBits_hi _ _ (by decide) (by decide), natBits_hi _ _ (by decide) (by decide), natBits_hi _ _ (by decide) (by decide), natBits_lo _ _ (by decide)]
  exact natBits_all d
@[simp] theorem sh_a (op : BitVec 6) (d a : BitVec 5) (n : BitVec 6) : natBits (Fmt.sh op d a n).toNat 18 14 = a.toNat := by
  unfold Fmt.sh
  rw [natBits_hi _ _ (by decide) (by decide), natBits_hi _ _ (by decide) (by decide), natBits_lo _ _ (by decide)]
  exact natBits_all a
@[simp] theorem sh_z (op : BitVec 6) (d a : BitVec 5) (n : BitVec 6) : natBits (Fmt.sh op d a n).toNat 13 6 = 0 := by
  unfold Fmt.sh
  rw [natBits_hi _ _ (by decide) (by decide), natBits_lo _ _ (by decide)]
  decide
@[simp] theorem sh_n (op : BitVec 6) (d a : BitVec 5) (n : BitVec 6) : natBits (Fmt.sh op d a n).toNat 5 0 = n.toNat := by
  unfold Fmt.sh
  rw [natBits_lo _ _ (by decide)]
  exact natBits_all n

@[simp] theorem mm_ext (op : BitVec 6) (d b : BitVec 5) (mode : BitVec 3) :
    natBits (Fmt.mm op d b mode 0#5 0#3 0#3).toNat 10 0 = 0 := by
  unfold Fmt.mm
  exact natBits_zero_step _ (by decide) (natBits_zero_step _ (by decide) (natBits_lo _ _ (by decide)))
@[simp] theorem mm_low6 (op : BitVec 6) (d b : BitVec 5) (mode : BitVec 3) (gi : BitVec 5) :
    natBits (Fmt.mm op d b mode gi 0#3 0#3).toNat 5 0 = 0 := by
  unfold Fmt.mm
  exact natBits_zero_step _ (by decide) (natBits_lo _ _ (by decide))
@[simp] theorem sh_zero (op : BitVec 6) (n : BitVec 6) : natBits (Fmt.sh op 0#5 0#5 n).toNat 23 6 = 0 := by
  unfold Fmt.sh
  rw [natBits_hi _ _ (by decide) (by decide)]
  exact natBits_zero_step _ (by decide) (natBits_zero_step _ (by decide) (natBits_lo _ _ (by decide)))
@[simp] theorem im_zero (op : BitVec 6) (n : BitVec 14) : natBits (Fmt.im op 0#5 0#5 n).toNat 23 14 = 0 := by
  unfold Fmt.im
  rw [natBits_hi _ _ (by decide) (by decide)]
  exact natBits_zero_step _ (by decide) (natBits_lo _ _ (by decide))

end Fmt

end Sys2Proof.Machine
end

