-- ==== Sys2Proof/Laws/Flags.lean ====
section
/-! SUPPORT. What the flag computations make of FLG, bit by bit (R480). -/

namespace Sys2Proof.Machine

theorem putFlag_same (f : Dword) (k : Nat) (b : Bool) (h : k < 64) : (putFlag f k b).getLsbD k = b := by
  unfold putFlag
  cases b <;> simp [h]

theorem putFlag_other (f : Dword) (k j : Nat) (b : Bool) (e : j ≠ k) : (putFlag f k b).getLsbD j = f.getLsbD j := by
  unfold putFlag
  cases b
  · by_cases hj : j < 64
    · by_cases hl : j < k
      · simp [hl, hj]
      · simp [hj, hl, show j - k ≠ 0 by omega]
    · simp [BitVec.getLsbD_of_ge _ _ (show 64 ≤ j by omega)]
  · by_cases hl : j < k
    · simp [hl]
    · simp [show j - k ≠ 0 by omega]

theorem beq_zero_decide (r : Dword) : (r == 0) = decide (r = 0) := by
  rw [Bool.eq_iff_iff, beq_iff_eq, decide_eq_true_eq]

theorem flagsNZ_spec (f r : Dword) : FlgNZ f (flagsNZ f r) r := by
  unfold flagsNZ flZ flN FlgNZ
  refine ⟨?_, ?_, ?_⟩
  · rw [putFlag_same _ _ _ (by decide), beq_zero_decide]
  · rw [putFlag_other _ _ _ _ (by decide), putFlag_same _ _ _ (by decide)]
  · intro j h1 h2
    rw [putFlag_other _ _ _ _ h1, putFlag_other _ _ _ _ h2]

theorem addFlags_sum (f a b : Dword) (cin : Nat) : (addFlags f a b cin).1 = a + b + BitVec.ofNat 64 cin := by
  unfold addFlags
  apply BitVec.eq_of_toNat_eq
  simp [BitVec.toNat_add]

theorem subFlags_diff (f a b : Dword) (bin : Nat) : (subFlags f a b bin).1 = a - b - BitVec.ofNat 64 bin := rfl

theorem toInt_ne_iff (r : Dword) (z : Int) (h : (r.toInt - z) % 2 ^ 64 = 0) (h1 : -(2 ^ 64) ≤ z) (h2 : z ≤ 2 ^ 64) :
    r.toInt ≠ z ↔ (z < -(2 ^ 63) ∨ 2 ^ 63 ≤ z) := by
  have a := BitVec.toInt_lt (x := r)
  have b := BitVec.le_toInt (x := r)
  simp at a b
  omega

theorem addFlags_spec (f a b : Dword) (cin : Nat) (h : cin ≤ 1) : FlgAdd f (addFlags f a b cin).2 a b cin := by
  have hr : BitVec.ofNat 64 (a.toNat + b.toNat + cin) = a + b + BitVec.ofNat 64 cin := addFlags_sum f a b cin
  have hv : ((BitVec.ofNat 64 (a.toNat + b.toNat + cin)).toInt ≠ a.toInt + b.toInt + (cin : Int)) ↔
      (a.toInt + b.toInt + (cin : Int) < -(2 ^ 63) ∨ 2 ^ 63 ≤ a.toInt + b.toInt + (cin : Int)) := by
    have a1 := BitVec.toInt_lt (x := a)
    have a2 := BitVec.le_toInt (x := a)
    have b1 := BitVec.toInt_lt (x := b)
    have b2 := BitVec.le_toInt (x := b)
    simp at a1 a2 b1 b2
    apply toInt_ne_iff
    · rw [BitVec.toInt_ofNat', BitVec.toInt_eq_toNat_bmod, BitVec.toInt_eq_toNat_bmod]
      simp only [Int.bmod_def]
      omega
    · omega
    · omega
  unfold FlgAdd addFlags flagsNZ flC flV flZ flN
  rw [← hr]
  refine ⟨?_, ?_, ?_, ?_, ?_⟩
  · simp (disch := omega) only [putFlag_same, putFlag_other]
  · simp (disch := omega) only [putFlag_same]
    exact decide_eq_decide.mpr hv
  · simp (disch := omega) only [putFlag_same, putFlag_other, beq_zero_decide]
  · simp (disch := omega) only [putFlag_same, putFlag_other]
  · intro j hj
    simp (disch := omega) only [putFlag_other]

theorem subFlags_spec (f a b : Dword) (bin : Nat) (h : bin ≤ 1) : FlgSub f (subFlags f a b bin).2 a b bin := by
  have hv : ((a - b - BitVec.ofNat 64 bin).toInt ≠ a.toInt - b.toInt - (bin : Int)) ↔
      (a.toInt - b.toInt - (bin : Int) < -(2 ^ 63) ∨ 2 ^ 63 ≤ a.toInt - b.toInt - (bin : Int)) := by
    have a1 := BitVec.toInt_lt (x := a)
    have a2 := BitVec.le_toInt (x := a)
    have b1 := BitVec.toInt_lt (x := b)
    have b2 := BitVec.le_toInt (x := b)
    simp at a1 a2 b1 b2
    apply toInt_ne_iff
    · rw [BitVec.toInt_sub, BitVec.toInt_sub, BitVec.toInt_ofNat']
      simp only [Int.bmod_def]
      omega
    · omega
    · omega
  unfold FlgSub subFlags flagsNZ flC flV flZ flN
  refine ⟨?_, ?_, ?_, ?_, ?_⟩
  · simp (disch := omega) only [putFlag_same, putFlag_other]
  · simp (disch := omega) only [putFlag_same]
    exact decide_eq_decide.mpr hv
  · simp (disch := omega) only [putFlag_same, putFlag_other, beq_zero_decide]
  · simp (disch := omega) only [putFlag_same, putFlag_other]
  · intro j hj
    simp (disch := omega) only [putFlag_other]

end Sys2Proof.Machine
end

