-- ==== Sys2Proof/Laws/Kept.lean ====
section
/-! SUPPORT. What every operation keeps. -/

namespace Sys2Proof.Machine

/-- What no command but a tick and a power cycle changes on the way from `r` to `t`. -/
structure Kept (r t : State) : Prop where
  queue : t.pending = r.pending
  variant : t.variant = r.variant
  device : t.deviceId = r.deviceId
  unit : t.instanceId = r.instanceId
  stride : t.stride = r.stride
  epoch : r.dur.fusedEpoch ≤ t.dur.fusedEpoch
  fwEpoch : r.dur.fwFusedEpoch ≤ t.dur.fwFusedEpoch
  mem : r.memOk → t.memOk

theorem Kept.refl (s : State) : Kept s s := ⟨rfl, rfl, rfl, rfl, rfl, Nat.le_refl _, Nat.le_refl _, id⟩

theorem Kept.trans {r s t : State} (h : Kept r s) (k : Kept s t) : Kept r t :=
  ⟨k.queue.trans h.queue, k.variant.trans h.variant, k.device.trans h.device, k.unit.trans h.unit,
   k.stride.trans h.stride, Nat.le_trans h.epoch k.epoch, Nat.le_trans h.fwEpoch k.fwEpoch, fun m => k.mem (h.mem m)⟩

/-- An update of fields that are not among the kept ones. -/
theorem Kept.upd {r s : State} (h : Kept r s) {o fr ad lr rw sg inf er la dv cr ev po li mx sc sl wb ft pw fi mp dr co he hr ks sk dg cp pa hd rl pi}
    : Kept r (State.mk s.pending o fr s.stride ad lr s.variant s.deviceId rw sg inf er la dv cr ev po li mx sc sl wb ft pw fi s.cmb s.mem mp dr co he hr ks sk dg cp s.instanceId pa hd rl pi s.dur) :=
  ⟨h.queue, h.variant, h.device, h.unit, h.stride, h.epoch, h.fwEpoch, fun m => h.mem m⟩

theorem Kept.upd_iff {r s : State} {o fr ad lr rw sg inf er la dv cr ev po li mx sc sl wb ft pw fi mp dr co he hr ks sk dg cp pa hd rl pi}
    : Kept r (State.mk s.pending o fr s.stride ad lr s.variant s.deviceId rw sg inf er la dv cr ev po li mx sc sl wb ft pw fi s.cmb s.mem mp dr co he hr ks sk dg cp s.instanceId pa hd rl pi s.dur) ↔ Kept r s :=
  ⟨fun h => ⟨h.queue, h.variant, h.device, h.unit, h.stride, h.epoch, h.fwEpoch, fun m => h.mem m⟩, fun h => h.upd⟩

/-- The same with an update of what is durable that keeps the fused epochs. -/
theorem Kept.updDur {r s : State} (h : Kept r s) {o fr ad lr rw sg inf er la dv cr ev po li mx sc sl wb ft pw fi mp dr co he hr ks sk dg cp pa hd rl pi d}
    (e : s.dur.fusedEpoch ≤ d.fusedEpoch) (f : s.dur.fwFusedEpoch ≤ d.fwFusedEpoch)
    : Kept r (State.mk s.pending o fr s.stride ad lr s.variant s.deviceId rw sg inf er la dv cr ev po li mx sc sl wb ft pw fi s.cmb s.mem mp dr co he hr ks sk dg cp s.instanceId pa hd rl pi d) :=
  ⟨h.queue, h.variant, h.device, h.unit, h.stride, Nat.le_trans h.epoch e, Nat.le_trans h.fwEpoch f, fun m => h.mem m⟩

theorem Kept.updDur_iff {r s : State} {o fr ad lr rw sg inf er la dv cr ev po li mx sc sl wb ft pw fi mp dr co he hr ks sk dg cp pa hd rl pi d}
    (e : d.fusedEpoch = s.dur.fusedEpoch) (f : d.fwFusedEpoch = s.dur.fwFusedEpoch)
    : Kept r (State.mk s.pending o fr s.stride ad lr s.variant s.deviceId rw sg inf er la dv cr ev po li mx sc sl wb ft pw fi s.cmb s.mem mp dr co he hr ks sk dg cp s.instanceId pa hd rl pi d) ↔ Kept r s :=
  ⟨fun h => ⟨h.queue, h.variant, h.device, h.unit, h.stride, e ▸ h.epoch, f ▸ h.fwEpoch, fun m => h.mem m⟩,
   fun h => h.updDur (Nat.le_of_eq e.symm) (Nat.le_of_eq f.symm)⟩

/-- An update of the controller memory buffer that keeps its canonical form. -/
theorem Kept.setCmb {r s : State} {m : List Host.Cell} (h : Kept r s)
    (k : Memory.wf s.cmb = true → Memory.wf m = true) : Kept r { s with cmb := m } :=
  ⟨h.queue, h.variant, h.device, h.unit, h.stride, h.epoch, h.fwEpoch, fun q => ⟨k (h.mem q).1, (h.mem q).2⟩⟩

/-- An update of the memories that keeps their canonical form. -/
theorem Kept.setMem {r s : State} {m : Tab MemArr} (h : Kept r s)
    (k : (∀ p ∈ s.mem, Memory.wf p.2.cells = true) → ∀ p ∈ m, Memory.wf p.2.cells = true) :
    Kept r { s with mem := m } :=
  ⟨h.queue, h.variant, h.device, h.unit, h.stride, h.epoch, h.fwEpoch, fun q => ⟨(h.mem q).1, k (h.mem q).2⟩⟩

/-- The cells of any memory are in canonical form. -/
theorem State.memOk.arr {s : State} (h : s.memOk) (a : Nat) : Memory.wf (s.arr a).cells = true := by
  unfold State.arr tgetD
  cases e : tget s.mem a with
  | none => rfl
  | some m => exact h.2 _ (mem_of_tget e)

theorem State.setArr_kept {r s : State} (h : Kept r s) (a : Nat) (m : MemArr)
    (k : (∀ i, Memory.wf (s.arr i).cells = true) → Memory.wf m.cells = true) : Kept r (s.setArr a m) :=
  ⟨h.queue, h.variant, h.device, h.unit, h.stride, h.epoch, h.fwEpoch, fun q =>
    ⟨(h.mem q).1, fun p hp => by
      rcases mem_tset hp with e | e
      · rw [e]; exact k (fun i => State.memOk.arr (h.mem q) i)
      · exact (h.mem q).2 p e⟩⟩

theorem State.modArr_kept {r s : State} (h : Kept r s) (a : Nat) (f : MemArr → MemArr)
    (k : ∀ m : MemArr, Memory.wf m.cells = true → Memory.wf (f m).cells = true) : Kept r (s.modArr a f) :=
  State.setArr_kept h a _ (fun w => k _ (w a))

/-- A fold of steps that each keep. -/
theorem Kept.foldl {r s : State} {α : Type} {l : List α} {f : State → α → State} (h : Kept r s)
    (k : ∀ s x, Kept r s → Kept r (f s x)) : Kept r (l.foldl f s) := by
  induction l generalizing s with
  | nil => exact h
  | cons x t ih => exact ih (k s x h)

theorem Kept.ite {r a b : State} {p : Prop} [Decidable p] (ha : Kept r a) (hb : Kept r b) :
    Kept r (if p then a else b) := by split <;> assumption

/-- A fold that carries a state beside something else. -/
theorem Kept.foldlFst {r : State} {α β : Type} {l : List α} {f : State × β → α → State × β} {p : State × β}
    (h : Kept r p.1) (k : ∀ p x, Kept r p.1 → Kept r (f p x).1) : Kept r (l.foldl f p).1 := by
  induction l generalizing p with
  | nil => exact h
  | cons x t ih => exact ih (k p x h)

/-- A bus whose operations each keep. -/
structure Bus.Keeps (b : Bus) : Prop where
  read : ∀ {r s : State}, Kept r s → ∀ c a, Kept r (b.read s c a).1
  write : ∀ {r s : State}, Kept r s → ∀ c a v, Kept r (b.write s c a v)
  fault : ∀ {r s : State}, Kept r s → ∀ c x y z, Kept r (b.fault s c x y z)
  double : ∀ {r s : State}, Kept r s → ∀ c x y z, Kept r (b.double s c x y z)

theorem Bus.Keeps.readE {b : Bus} (hb : b.Keeps) {r s t : State} {v : BitVec 32} (h : Kept r s) (c a : Nat)
    (e : b.read s c a = (t, v)) : Kept r t := by
  have q := hb.read h c a
  rw [e] at q
  exact q

/-- What an instruction's outcome keeps: the state it goes on in, or the state its exception is taken in. -/
def KeptE {α : Type} (r : State) (x : Except (Exc × State) (State × α)) : Prop :=
  match x with
  | .error e => Kept r e.2
  | .ok p => Kept r p.1

theorem KeptE.error {α : Type} {r s : State} {e : Exc} (h : Kept r s) :
    KeptE (α := α) r (.error (e, s)) := h

theorem KeptE.ok {α : Type} {r s : State} {x : α} (h : Kept r s) : KeptE r (.ok (s, x)) := h

theorem KeptE.ofError {α : Type} {r t : State} {e : Exc} {x : Except (Exc × State) (State × α)} (k : KeptE r x)
    (q : x = .error (e, t)) : Kept r t := by rw [q] at k; exact k

theorem KeptE.ofOk {α : Type} {r t : State} {v : α} {x : Except (Exc × State) (State × α)} (k : KeptE r x)
    (q : x = .ok (t, v)) : Kept r t := by rw [q] at k; exact k

theorem KeptE.ite {α : Type} {r : State} {p : Prop} [Decidable p] {a b : Except (Exc × State) (State × α)}
    (ha : KeptE r a) (hb : KeptE r b) : KeptE r (if p then a else b) := by split <;> assumption

end Sys2Proof.Machine
end

