-- ==== Sys2Proof/Laws/KeptBase.lean ====
section
/-! SUPPORT. What every operation of the register file, memory protection, queues and the cores keeps. -/

namespace Sys2Proof.Machine

open State

/-! ### Ops -/

theorem State.setSlice_kept {r s : State} (h : Kept r s) (a1 : Nat) (a2 : Slice) : Kept r
    (State.setSlice s a1 a2) := by
  unfold State.setSlice
  repeat' first
    | with_reducible exact h | simp only [↓Kept.upd_iff]

theorem State.modSlice_kept {r s : State} (h : Kept r s) (a1 : Nat) (a2 : Slice → Slice) : Kept r
    (State.modSlice s a1 a2) := by
  unfold State.modSlice
  repeat' first
    | with_reducible exact h | with_reducible apply State.setSlice_kept

theorem State.modPort_kept {r s : State} (h : Kept r s) (a1 : Nat) (a2 : Port → Port) : Kept r
    (State.modPort s a1 a2) := by
  unfold State.modPort
  repeat' first
    | with_reducible exact h | simp only [↓Kept.upd_iff]

theorem State.emit_kept {r s : State} (h : Kept r s) (a1 : Out) : Kept r (State.emit s a1) := by
  unfold State.emit
  repeat' first
    | with_reducible exact h | simp only [↓Kept.upd_iff]

theorem State.drawFree_kept {r s : State} (h : Kept r s) : Kept r (State.drawFree s).2 := by
  unfold State.drawFree
  repeat' first
    | with_reducible exact h | simp only [↓Kept.upd_iff]

theorem State.drawFree_keptE {t : State} {x : _} {r s : State} (h : Kept r s) (e : State.drawFree s = (x, t))
    : Kept r t := by
  have q := State.drawFree_kept h  ; rw [e] at q; exact q

theorem State.drawBytes_kept {r s : State} (h : Kept r s) (a1 : Nat) : Kept r (State.drawBytes s a1).2 := by
  unfold State.drawBytes
  repeat' first
    | with_reducible exact h | simp only [↓Kept.upd_iff]

theorem State.drawBytes_keptE {t : State} {x : _} {r s : State} (h : Kept r s) (a1 : Nat)
    (e : State.drawBytes s a1 = (x, t)) : Kept r t := by
  have q := State.drawBytes_kept h a1 ; rw [e] at q; exact q

theorem State.ev_kept {r s : State} (h : Kept r s) (a1 : Nat) (a2 : Nat) (a3 : optParam Bytes []) : Kept r
    (State.ev s a1 a2 a3) := by
  unfold State.ev
  repeat' first
    | with_reducible exact h | simp only [↓Kept.upd_iff]

theorem State.evOnly_kept {r s : State} (h : Kept r s) (a1 : Nat) (a2 : Nat) (a3 : optParam Bytes []) : Kept r
    (State.evOnly s a1 a2 a3) := by
  unfold State.evOnly
  repeat' first
    | with_reducible exact h | simp only [↓Kept.upd_iff]

theorem State.rwSet_kept {r s : State} (h : Kept r s) (a1 : Nat) (a2 : BitVec 64) : Kept r (State.rwSet s a1 a2) := by
  unfold State.rwSet
  repeat' first
    | with_reducible exact h | simp only [↓Kept.upd_iff]

theorem State.forceSet_kept {r s : State} (h : Kept r s) (a1 : Nat) (a2 : Nat) : Kept r (State.forceSet s a1 a2) := by
  unfold State.forceSet
  repeat' first
    | with_reducible exact h | simp only [↓Kept.upd_iff]

theorem State.stage_kept {r s : State} (h : Kept r s) (a1 : Nat) (a2 : BitVec 64) : Kept r (State.stage s a1 a2) := by
  unfold State.stage
  repeat' first
    | with_reducible exact h | simp only [↓Kept.upd_iff]

theorem State.setPin_kept {r s : State} (h : Kept r s) (a1 : Nat) (a2 : Bool) : Kept r (State.setPin s a1 a2) := by
  unfold State.setPin
  repeat' first
    | with_reducible exact h | with_reducible apply State.emit_kept | with_reducible apply Kept.ite
    | simp only [↓Kept.upd_iff]

theorem State.discard_kept {r s : State} (h : Kept r s) (a1 : Nat) (a2 : Nat) (a3 : Nat)
    (a4 : optParam Nat noSlice) : Kept r (State.discard s a1 a2 a3 a4) := by
  unfold State.discard
  repeat' first
    | with_reducible exact h | with_reducible apply State.ev_kept | simp only [↓Kept.upd_iff]

/-! ### Measure -/

theorem State.setKst_kept {r s : State} (h : Kept r s) (a1 : Kst) : Kept r (State.setKst s a1) := by
  unfold State.setKst
  repeat' first
    | with_reducible exact h | simp only [↓Kept.upd_iff]

theorem State.modKeys_kept {r s : State} (h : Kept r s) (a1 : Nat) (a2 : SliceKeys → SliceKeys) : Kept r
    (State.modKeys s a1 a2) := by
  unfold State.modKeys
  repeat' first
    | with_reducible exact h | simp only [↓Kept.upd_iff]

theorem State.devLog_kept {r s : State} (h : Kept r s) (a1 : Nat) (a2 : Bytes) (a3 : Bytes) : Kept r
    (State.devLog s a1 a2 a3) := by
  unfold State.devLog
  repeat' first
    | with_reducible exact h | with_reducible apply State.setKst_kept

theorem State.sliceLog_kept {r s : State} (h : Kept r s) (a1 : Nat) (a2 : Nat) (a3 : Bytes) (a4 : Bytes) : Kept r
    (State.sliceLog s a1 a2 a3 a4) := by
  unfold State.sliceLog
  repeat' first
    | with_reducible exact h | with_reducible apply State.modKeys_kept

theorem State.raiseFault_kept {r s : State} (h : Kept r s) (a1 : Nat) : Kept r (State.raiseFault s a1) := by
  unfold State.raiseFault
  repeat' first
    | with_reducible exact h | simp only [↓Kept.upd_iff]

/-! ### SysArea -/

theorem State.sysChoose_kept {r s : State} (h : Kept r s) : Kept r (State.sysChoose s).2 := by
  unfold State.sysChoose
  repeat' first
    | with_reducible exact h | with_reducible apply State.drawFree_kept | split

theorem State.sysChoose_keptE {t : State} {x : _} {r s : State} (h : Kept r s) (e : State.sysChoose s = (x, t))
    : Kept r t := by
  have q := State.sysChoose_kept h  ; rw [e] at q; exact q

theorem State.sysWrite_kept {r s : State} (h : Kept r s) (a1 : Bytes) : Kept r (State.sysWrite s a1).2 := by
  unfold State.sysWrite
  repeat' first
    | with_reducible exact h | with_reducible refine State.sysChoose_keptE ?_ ‹_› | split

theorem State.sysWrite_keptE {t : State} {x : _} {r s : State} (h : Kept r s) (a1 : Bytes)
    (e : State.sysWrite s a1 = (x, t)) : Kept r t := by
  have q := State.sysWrite_kept h a1 ; rw [e] at q; exact q

/-! ### Course -/

theorem State.setCrs_kept {r s : State} (h : Kept r s) (a1 : Crs) : Kept r (State.setCrs s a1) := by
  unfold State.setCrs
  repeat' first
    | with_reducible exact h | simp only [↓Kept.upd_iff]

theorem State.crsRefuse_kept {r s : State} (h : Kept r s) : Kept r (State.crsRefuse s) := by
  unfold State.crsRefuse
  repeat' first
    | with_reducible exact h | with_reducible apply State.setCrs_kept

theorem State.crsFail_kept {r s : State} (h : Kept r s) (a1 : Nat) (a2 : Nat) : Kept r (State.crsFail s a1 a2) := by
  unfold State.crsFail
  repeat' first
    | with_reducible exact h | with_reducible apply State.ev_kept | with_reducible apply State.setCrs_kept

theorem State.crsLoad_kept {r s : State} (h : Kept r s) : Kept r (State.crsLoad s) := by
  unfold State.crsLoad
  repeat' first
    | with_reducible exact h | with_reducible apply State.crsFail_kept | with_reducible apply State.setCrs_kept
    | with_reducible apply State.crsRefuse_kept | with_reducible apply Kept.ite | simp only [↓Kept.upd_iff] | split

theorem State.courseJobEnds_kept {r s : State} (h : Kept r s) : Kept r (State.courseJobEnds s) := by
  unfold State.courseJobEnds
  repeat' first
    | with_reducible exact h | simp only [↓Kept.upd_iff]

theorem State.crsLoadEnd_kept {r s : State} (h : Kept r s) (a1 : Fetch) : Kept r (State.crsLoadEnd s a1) := by
  unfold State.crsLoadEnd
  repeat' first
    | with_reducible exact h | with_reducible apply State.crsFail_kept
    | with_reducible apply State.courseJobEnds_kept | with_reducible apply State.setCrs_kept
    | with_reducible apply Kept.ite | simp only | split

theorem State.crsApply_kept {r s : State} (h : Kept r s) : Kept r (State.crsApply s) := by
  unfold State.crsApply
  repeat' first
    | with_reducible exact h | with_reducible apply State.setCrs_kept | with_reducible apply State.crsRefuse_kept
    | with_reducible apply Kept.ite | simp only | split

theorem State.crsPersist_kept {r s : State} (h : Kept r s) : Kept r (State.crsPersist s) := by
  unfold State.crsPersist
  repeat' first
    | with_reducible exact h | with_reducible apply State.setCrs_kept | with_reducible apply State.crsRefuse_kept
    | simp only | split

theorem State.crsDiscard_kept {r s : State} (h : Kept r s) : Kept r (State.crsDiscard s) := by
  unfold State.crsDiscard
  repeat' first
    | with_reducible exact h | with_reducible apply State.setCrs_kept | with_reducible apply State.crsRefuse_kept
    | simp only | split

theorem State.sysWrite_dur (s : State) (b : Bytes) : (s.sysWrite b).2.dur = s.dur := by
  have k : (s.sysChoose).2.dur = s.dur := by
    unfold State.sysChoose
    split <;> rfl
  unfold State.sysWrite
  split
  · rename_i e; rw [e] at k; exact k
  · rename_i e; rw [e] at k; exact k

theorem State.persisted_kept {r s : State} (h : Kept r s) (a1 : Course) : Kept r (State.persisted s a1) := by
  unfold State.persisted
  dsimp only
  have k := State.sysWrite_kept h a1.image
  have d : Kept r ({ (s.sysWrite a1.image).2 with dur := { (s.sysWrite a1.image).2.dur with
      courseCur := (s.sysWrite a1.image).1, coursePrev := s.dur.courseCur, fusedEpoch := max s.dur.fusedEpoch a1.epoch
      ownerFuses := revokeOwners s.dur.ownerFuses a1.revokeMask, ownerRevoked := s.dur.ownerRevoked ||| a1.revokeMask } }) :=
    Kept.updDur k (State.sysWrite_dur s a1.image ▸ Nat.le_max_left _ _) (Nat.le_refl _)
  repeat' first
    | with_reducible assumption
    | intro _
    | with_reducible apply State.ev_kept
    | with_reducible apply State.devLog_kept
    | with_reducible apply Kept.ite
    | with_reducible apply Kept.foldl
    | split

theorem State.crsPersistEnd_kept {r s : State} (h : Kept r s) (a1 : Bool) : Kept r (State.crsPersistEnd s a1) := by
  unfold State.crsPersistEnd
  repeat' first
    | with_reducible exact h | with_reducible apply State.persisted_kept | with_reducible apply State.setCrs_kept
    | with_reducible apply Kept.ite | simp only | split

theorem State.commitRequest_kept {r s : State} (h : Kept r s) : Kept r (State.commitRequest s) := by
  unfold State.commitRequest
  repeat' first
    | with_reducible exact h | with_reducible apply State.setCrs_kept

theorem State.commitCancel_kept {r s : State} (h : Kept r s) : Kept r (State.commitCancel s) := by
  unfold State.commitCancel
  repeat' first
    | with_reducible exact h | with_reducible apply State.setCrs_kept | with_reducible apply Kept.ite

/-! ### Access -/

theorem State.abandonPrep_kept {r s : State} (h : Kept r s) (a1 : Nat) : Kept r (State.abandonPrep s a1) := by
  unfold State.abandonPrep
  repeat' first
    | with_reducible exact h | with_reducible apply State.ev_kept | simp only [↓Kept.upd_iff]

theorem State.wakeEvent_kept {r s : State} (h : Kept r s) (a1 : Nat) (a2 : Nat) : Kept r
    (State.wakeEvent s a1 a2) := by
  unfold State.wakeEvent
  repeat' first
    | with_reducible exact h | with_reducible apply State.abandonPrep_kept | with_reducible apply State.ev_kept
    | with_reducible apply Kept.ite | simp only [↓Kept.upd_iff] | split

theorem State.discardDev_kept {r s : State} (h : Kept r s) (a1 : Space) (a2 : Nat) : Kept r
    (State.discardDev s a1 a2) := by
  unfold State.discardDev
  repeat' first
    | with_reducible exact h | with_reducible apply State.discard_kept

theorem State.wakeOnWrite_kept {r s : State} (h : Kept r s) (a1 : Requester) : Kept r (State.wakeOnWrite s a1) := by
  unfold State.wakeOnWrite
  repeat' first
    | with_reducible exact h | with_reducible apply State.wakeEvent_kept | split

theorem State.bar0Blocked_keptE {t : State} {r s : State} (h : Kept r s) (a1 : Requester) (a2 : Nat)
    (e : State.bar0Blocked s a1 a2 = some t) : Kept r t := by
  unfold State.bar0Blocked at e
  dsimp only at e
  repeat' split at e
  all_goals first
    | (cases e; done)
    | (cases e; exact h)
    | (cases e; exact State.ev_kept (State.discard_kept h _ _ _ _) _ _ _)
    | (cases e; exact State.discardDev_kept h _ _)

theorem State.bar0Write_kept {r s : State} (h : Kept r s) (a1 : Requester) (a2 : Nat) (a3 : State → State)
    (h3 : ∀ (x0 : State), Kept r x0 → Kept r (a3 x0)) : Kept r (State.bar0Write s a1 a2 a3) := by
  unfold State.bar0Write
  repeat' first
    | with_reducible exact h | with_reducible apply h3 | with_reducible apply State.wakeOnWrite_kept
    | with_reducible refine State.bar0Blocked_keptE ?_ _ _ ‹_› | simp only | split

theorem State.discardWin_kept {r s : State} (h : Kept r s) (a1 : Nat) (a2 : Nat) : Kept r
    (State.discardWin s a1 a2) := by
  unfold State.discardWin
  repeat' first
    | with_reducible exact h | with_reducible apply State.discard_kept

theorem State.bar2Blocked_keptE {t : State} {r s : State} (h : Kept r s) (a1 : Nat) (a2 : Nat) (a3 : Nat)
    (e : State.bar2Blocked s a1 a2 a3 = some t) : Kept r t := by
  unfold State.bar2Blocked at e
  repeat' first
    | cases e | with_reducible exact h | with_reducible apply State.discardDev_kept
    | with_reducible apply State.discard_kept | split at e

theorem State.winWrite_kept {r s : State} (h : Kept r s) (a1 : Nat) (a2 : Nat) (a3 : Nat) (a4 : State → State)
    (h4 : ∀ (x0 : State), Kept r x0 → Kept r (a4 x0)) : Kept r (State.winWrite s a1 a2 a3 a4) := by
  unfold State.winWrite
  repeat' first
    | with_reducible exact h | with_reducible apply h4 | with_reducible apply State.wakeEvent_kept
    | with_reducible refine State.bar2Blocked_keptE ?_ _ _ _ ‹_› | simp only | split

/-! ### Memory -/

theorem State.noteUe_kept {r s : State} (h : Kept r s) (a1 : Nat) (a2 : Nat) (a3 : Bool) : Kept r
    (State.noteUe s a1 a2 a3) := by
  unfold State.noteUe
  repeat' first
    | with_reducible exact h | with_reducible apply State.ev_kept | with_reducible apply Kept.ite
    | simp only [↓Kept.upd_iff]

theorem State.noteCe_kept {r s : State} (h : Kept r s) (a1 : Nat) : Kept r (State.noteCe s a1) := by
  unfold State.noteCe
  repeat' first
    | with_reducible exact h | with_reducible apply Kept.ite | simp only [↓Kept.upd_iff]

theorem State.memByte_kept {r s : State} (h : Kept r s) (a1 : Nat) (a2 : Nat) : Kept r (State.memByte s a1 a2).1 := by
  unfold State.memByte
  repeat' first
    | with_reducible exact h | intro _ | with_reducible apply State.noteCe_kept
    | with_reducible apply State.setArr_kept | with_reducible apply State.noteUe_kept
    | exact (‹∀ i, Memory.wf (State.arr _ i).cells = true› _) | simp only | split

theorem State.memByte_keptE {t : State} {x : _} {r s : State} (h : Kept r s) (a1 : Nat) (a2 : Nat)
    (e : State.memByte s a1 a2 = (t, x)) : Kept r t := by
  have q := State.memByte_kept h a1 a2 ; rw [e] at q; exact q

theorem State.readWords_kept {r s : State} (h : Kept r s) (a1 : Nat → Bool) : Kept r (State.readWords s a1) := by
  unfold State.readWords
  exact Kept.foldl h (fun _ _ h => State.memByte_kept h _ _)

theorem State.freshWords_kept {r s : State} (h : Kept r s) (a1 : Nat → Bool) : Kept r (State.freshWords s a1) := by
  unfold State.freshWords
  split
  · exact h
  · exact State.modArr_kept h _ _ (fun _ w => w)

theorem State.freshWords_cmb (s : State) (p : Nat → Bool) : (s.freshWords p).cmb = s.cmb := by
  unfold State.freshWords
  split <;> rfl

@[simp] theorem State.freshWords_slices (s : State) (p : Nat → Bool) : (s.freshWords p).slices = s.slices := by
  unfold State.freshWords
  split <;> rfl

@[simp] theorem State.freshWords_slice (s : State) (p : Nat → Bool) (n : Nat) : (s.freshWords p).slice n = s.slice n := by
  unfold State.freshWords
  split <;> rfl

theorem State.cmbPut_kept {r s : State} (h : Kept r s) (a1 : Nat) (a2 : Bytes) : Kept r (State.cmbPut s a1 a2) := by
  unfold State.cmbPut
  refine Kept.setCmb (State.freshWords_kept h _) ?_
  rw [State.freshWords_cmb]
  exact mwrite_wf _ _

theorem State.memRead_kept {r s : State} (h : Kept r s) (a1 : Nat) (a2 : Nat) (a3 : Nat) : Kept r
    (State.memRead s a1 a2 a3).1 := by
  induction a3 generalizing s a2 with
  | zero => exact h
  | succ n ih => exact ih (State.memByte_kept h _ _) _

theorem State.memRead_keptE {t : State} {x : _} {r s : State} (h : Kept r s) (a1 : Nat) (a2 : Nat) (a3 : Nat)
    (e : State.memRead s a1 a2 a3 = (t, x)) : Kept r t := by
  have q := State.memRead_kept h a1 a2 a3 ; rw [e] at q; exact q

theorem State.memWrite_kept {r s : State} (h : Kept r s) (a1 : Nat) (a2 : Nat) (a3 : Bytes) : Kept r
    (State.memWrite s a1 a2 a3) := by
  have touch : ∀ (l : List Nat) (m : MemArr) (f : Nat → Nat) (o : List Host.Cell) (a b c : Nat), Memory.wf m.cells = true →
      Memory.wf (l.foldl (fun m' i => touchPage m' o a b c (f i)) m).cells = true := by
    intro l
    induction l with
    | nil => intro m f o a b c w; exact w
    | cons x t ih =>
      intro m f o a b c w
      refine ih _ _ _ _ _ _ ?_
      unfold touchPage
      dsimp only
      split
      · exact w
      · split
        · exact w
        · exact w
  unfold State.memWrite
  dsimp only
  split
  · exact h
  · exact State.setArr_kept h _ _ (fun w => touch _ _ _ _ _ _ _ (mwrite_wf _ _ (w _)))

theorem State.memClear_kept {r s : State} (h : Kept r s) (a1 : Nat) (a2 : Nat) (a3 : Nat) : Kept r
    (State.memClear s a1 a2 a3) := by
  unfold State.memClear
  repeat' first
    | with_reducible exact h | intro _ | with_reducible apply State.modArr_kept | exact mclear_wf _ _ ‹_›

theorem State.recompute_kept {r s : State} (h : Kept r s) (a1 : Nat) (a2 : Nat) : Kept r
    (State.recompute s a1 a2) := by
  unfold State.recompute
  repeat' first
    | with_reducible exact h | with_reducible assumption | intro _ | with_reducible apply State.memByte_kept
    | with_reducible apply State.modArr_kept | exact mset_wf _ _ ‹_› | with_reducible apply Kept.ite
    | with_reducible apply Kept.foldl

theorem State.catchUpTick_kept {r s : State} (h : Kept r s) : Kept r (State.catchUpTick s) := by
  unfold State.catchUpTick
  repeat' first
    | with_reducible exact h | with_reducible assumption | intro _ | with_reducible apply State.recompute_kept
    | with_reducible apply Kept.foldl

theorem State.catchUpLap_kept {r s : State} (h : Kept r s) : Kept r (State.catchUpLap s) := by
  unfold State.catchUpLap
  dsimp only
  have k : Kept r (if (s.mem.any fun p => decide (p.2.queue ≠ [])) = true then
      ({ s with mpr := { s.mpr with exceeded := true } }).ev 0x1C05 noSlice else s) := by
    split
    · exact State.ev_kept (Kept.upd h) _ _ _
    · exact h
  generalize (if (s.mem.any fun p => decide (p.2.queue ≠ [])) = true then
      ({ s with mpr := { s.mpr with exceeded := true } }).ev 0x1C05 noSlice else s) = t at k ⊢
  exact ⟨k.queue, k.variant, k.device, k.unit, k.stride, k.epoch, k.fwEpoch, fun q => ⟨(k.mem q).1, fun p hp => by
    obtain ⟨c, hc, rfl⟩ := List.mem_map.mp hp
    exact (k.mem q).2 c hc⟩⟩

theorem State.patrol_kept {r s : State} (h : Kept r s) (a1 : Nat) : Kept r (State.patrol s a1) := by
  unfold State.patrol
  repeat' first
    | with_reducible exact h | with_reducible assumption | intro _ | with_reducible apply State.memByte_kept
    | with_reducible apply Kept.foldl

theorem State.patrolDram_kept {r s : State} (h : Kept r s) : Kept r (State.patrolDram s) := by
  unfold State.patrolDram
  repeat' first
    | with_reducible exact h | with_reducible assumption | intro _ | with_reducible apply State.patrol_kept
    | with_reducible apply State.noteCe_kept | with_reducible apply State.setArr_kept
    | exact (‹∀ i, Memory.wf (State.arr _ i).cells = true› _) | with_reducible apply Kept.ite
    | with_reducible apply Kept.foldl

theorem State.patrolLap_kept {r s : State} (h : Kept r s) : Kept r (State.patrolLap s) := by
  unfold State.patrolLap
  repeat' first
    | with_reducible exact h | with_reducible assumption | intro _ | with_reducible apply State.patrol_kept
    | with_reducible apply State.patrolDram_kept | with_reducible apply Kept.ite | with_reducible apply Kept.foldl
    | simp only [↓Kept.upd_iff]

theorem State.testOp_kept {r s : State} (h : Kept r s) (a1 : Nat → Nat → State)
    (h1 : ∀ (x0 : Nat) (x1 : Nat), Kept r (a1 x0 x1)) : Kept r (State.testOp s a1) := by
  unfold State.testOp
  repeat' first
    | with_reducible exact h | with_reducible apply h1 | with_reducible apply Kept.ite | simp only [↓Kept.upd_iff]

theorem State.testReadRaw_kept {r s : State} (h : Kept r s) (a1 : Nat) (a2 : Nat) : Kept r
    (State.testReadRaw s a1 a2) := by
  unfold State.testReadRaw
  repeat' first
    | with_reducible exact h | with_reducible apply State.rwSet_kept

theorem State.testWriteRaw_kept {r s : State} (h : Kept r s) (a1 : Nat) (a2 : Nat) : Kept r
    (State.testWriteRaw s a1 a2) := by
  unfold State.testWriteRaw
  repeat' first
    | with_reducible exact h | with_reducible assumption | intro _ | with_reducible apply State.modArr_kept
    | with_reducible apply Kept.foldl

theorem State.testReadPage_kept {r s : State} (h : Kept r s) (a1 : Nat) (a2 : Nat) (a3 : Nat) : Kept r
    (State.testReadPage s a1 a2 a3) := by
  unfold State.testReadPage
  repeat' first
    | with_reducible exact h | with_reducible apply State.rwSet_kept

theorem State.testWritePage_kept {r s : State} (h : Kept r s) (a1 : Nat) (a2 : Nat) (a3 : Nat) : Kept r
    (State.testWritePage s a1 a2 a3) := by
  unfold State.testWritePage
  repeat' first
    | with_reducible exact h | with_reducible assumption | intro _ | with_reducible apply State.modArr_kept
    | with_reducible apply Kept.foldl

theorem State.testCommand_kept {r s : State} (h : Kept r s) (a1 : Requester) (a2 : Nat)
    (a3 : Nat → Nat → State → State) (h3 : ∀ (x0 : Nat) (x1 : Nat) (x2 : State), Kept r x2 → Kept r (a3 x0 x1 x2))
    : Kept r (State.testCommand s a1 a2 a3) := by
  unfold State.testCommand
  repeat' first
    | with_reducible exact h | with_reducible assumption | intro _ | with_reducible apply h3
    | with_reducible apply State.bar0Write_kept | with_reducible apply State.discard_kept
    | with_reducible apply State.testOp_kept | with_reducible apply State.ev_kept | with_reducible apply Kept.ite
    | split

theorem State.cmdReadRaw_kept {r s : State} (h : Kept r s) (a1 : Requester) : Kept r (State.cmdReadRaw s a1) := by
  unfold State.cmdReadRaw
  repeat' first
    | with_reducible exact h | with_reducible assumption | intro _ | with_reducible apply State.testCommand_kept
    | with_reducible apply State.testReadRaw_kept

theorem State.cmdWriteRaw_kept {r s : State} (h : Kept r s) (a1 : Requester) : Kept r (State.cmdWriteRaw s a1) := by
  unfold State.cmdWriteRaw
  repeat' first
    | with_reducible exact h | with_reducible assumption | intro _ | with_reducible apply State.testCommand_kept
    | with_reducible apply State.testWriteRaw_kept

theorem State.cmdReadPage_kept {r s : State} (h : Kept r s) (a1 : Requester) (a2 : Nat) : Kept r
    (State.cmdReadPage s a1 a2) := by
  unfold State.cmdReadPage
  repeat' first
    | with_reducible exact h | with_reducible assumption | intro _ | with_reducible apply State.testCommand_kept
    | with_reducible apply State.testReadPage_kept

theorem State.cmdWritePage_kept {r s : State} (h : Kept r s) (a1 : Requester) (a2 : Nat) : Kept r
    (State.cmdWritePage s a1 a2) := by
  unfold State.cmdWritePage
  repeat' first
    | with_reducible exact h | with_reducible assumption | intro _ | with_reducible apply State.testCommand_kept
    | with_reducible apply State.testWritePage_kept

theorem State.modDrc_kept {r s : State} (h : Kept r s) (a1 : Nat) (a2 : Drc → Drc) : Kept r
    (State.modDrc s a1 a2) := by
  unfold State.modDrc
  repeat' first
    | with_reducible exact h | simp only [↓Kept.upd_iff]

theorem State.refreshTick_kept {r s : State} (h : Kept r s) : Kept r (State.refreshTick s) := by
  unfold State.refreshTick
  repeat' first
    | with_reducible exact h | with_reducible assumption | intro _ | with_reducible apply State.ev_kept
    | with_reducible apply Kept.foldl | simp only [↓Kept.upd_iff]

theorem State.dramTemp_kept {r s : State} (h : Kept r s) (a1 : Nat) (a2 : Bool) : Kept r
    (State.dramTemp s a1 a2) := by
  unfold State.dramTemp
  repeat' first
    | with_reducible exact h | with_reducible apply State.ev_kept | with_reducible apply State.modDrc_kept
    | with_reducible apply Kept.ite

theorem State.trainDram_kept {r s : State} (h : Kept r s) (a1 : Nat) (a2 : List LaneSweep) : Kept r
    (State.trainDram s a1 a2) := by
  unfold State.trainDram
  repeat' first
    | with_reducible exact h | with_reducible assumption | intro _ | with_reducible apply State.ev_kept
    | with_reducible apply State.modDrc_kept | with_reducible apply Kept.ite | with_reducible apply Kept.foldl

/-! ### Norsor -/

theorem State.setCore_kept {r s : State} (h : Kept r s) (a1 : Nat) (a2 : Core) : Kept r (State.setCore s a1 a2) := by
  unfold State.setCore
  repeat' first
    | with_reducible exact h | simp only [↓Kept.upd_iff]

theorem State.modCore_kept {r s : State} (h : Kept r s) (a1 : Nat) (a2 : Core → Core) : Kept r
    (State.modCore s a1 a2) := by
  unfold State.modCore
  repeat' first
    | with_reducible exact h | with_reducible apply State.setCore_kept

theorem State.coreUe_kept {r s : State} (h : Kept r s) (a1 : Nat) (a2 : Core) (a3 : Dword) : Kept r
    (State.coreUe s a1 a2 a3) := by
  unfold State.coreUe
  repeat' first
    | with_reducible exact h | with_reducible apply State.ev_kept

theorem State.coreRead_kept {r s : State} (h : Kept r s) (a0 : Bus) (a2 : Nat) (a3 : Core) (a4 : Dword) (a5 : Nat)
    (a6 : Nat) (a7 : Bool) (h0 : a0.Keeps) : KeptE r (State.coreRead a0 s a2 a3 a4 a5 a6 a7) := by
  unfold State.coreRead
  repeat' first
    | with_reducible exact h | with_reducible apply KeptE.error | with_reducible apply KeptE.ok
    | with_reducible apply KeptE.ite | with_reducible apply State.memRead_kept
    | with_reducible apply State.coreUe_kept | with_reducible apply h0.read | simp only | split

theorem State.coreStore_kept {r s : State} (h : Kept r s) (a0 : Bus) (a2 : Nat) (a3 : Core) (a4 : Dword)
    (a5 : Bytes) (h0 : a0.Keeps) : Kept r (State.coreStore a0 s a2 a3 a4 a5) := by
  unfold State.coreStore
  repeat' first
    | with_reducible exact h | with_reducible apply State.memWrite_kept | with_reducible apply h0.write | split

theorem State.raise_kept {r s : State} (h : Kept r s) (a0 : Bus) (a2 : Nat) (a3 : Nat) (a4 : Nat) (a5 : Dword)
    (a6 : Dword) (h0 : a0.Keeps) : Kept r (State.raise a0 s a2 a3 a4 a5 a6) := by
  unfold State.raise
  repeat' first
    | with_reducible exact h | with_reducible apply State.ev_kept | with_reducible apply State.setCore_kept
    | with_reducible apply h0.double | with_reducible apply h0.fault | with_reducible apply Kept.ite

theorem State.takeEntry_keptE {t : State} {r s : State} (h : Kept r s) (a1 : Nat)
    (e : State.takeEntry s a1 = some t) : Kept r t := by
  unfold State.takeEntry at e
  dsimp only at e
  split at e
  · cases e
  · cases e; exact State.setCore_kept h _ _

theorem State.charge_kept {r s : State} (h : Kept r s) (a1 : Nat) (a2 : Bool) (a3 : Option Nat) : Kept r
    (State.charge s a1 a2 a3) := by
  unfold State.charge
  repeat' first
    | with_reducible exact h | with_reducible apply State.setCore_kept | simp only [↓Kept.upd_iff]

theorem State.done_kept {r s : State} (h : Kept r s) (a1 : Nat) (a2 : Core) : KeptE r (State.done s a1 a2) := by
  unfold State.done
  repeat' first
    | with_reducible exact h | with_reducible apply KeptE.ok | with_reducible apply State.setCore_kept

theorem State.jump_kept {r s : State} (h : Kept r s) (a1 : Nat) (a2 : Core) (a3 : Dword) : KeptE r
    (State.jump s a1 a2 a3) := by
  unfold State.jump
  repeat' first
    | with_reducible exact h | with_reducible apply KeptE.error | with_reducible apply KeptE.ok
    | with_reducible apply KeptE.ite | with_reducible apply State.setCore_kept

theorem State.doLoad_kept {r s : State} (h : Kept r s) (a0 : Bus) (a2 : Nat) (a3 : Core) (a4 : Nat) (a5 : Nat)
    (a6 : Ea) (h0 : a0.Keeps) : KeptE r (State.doLoad a0 s a2 a3 a4 a5 a6) := by
  unfold State.doLoad
  repeat' first
    | with_reducible exact h | with_reducible assumption | with_reducible apply KeptE.error
    | with_reducible apply KeptE.ite
    | with_reducible refine KeptE.ofError (State.coreRead_kept ?_ _ _ _ _ _ _ _ ?_) ‹_›
    | with_reducible refine KeptE.ofOk (State.coreRead_kept ?_ _ _ _ _ _ _ _ ?_) ‹_›
    | with_reducible apply State.done_kept | simp only | split

theorem State.doStore_kept {r s : State} (h : Kept r s) (a0 : Bus) (a2 : Nat) (a3 : Core) (a4 : Nat) (a5 : Nat)
    (a6 : Ea) (h0 : a0.Keeps) : KeptE r (State.doStore a0 s a2 a3 a4 a5 a6) := by
  unfold State.doStore
  repeat' first
    | with_reducible exact h | with_reducible assumption | with_reducible apply KeptE.error
    | with_reducible apply State.coreStore_kept | with_reducible apply State.done_kept | simp only
    | split

theorem State.doAtomic_kept {r s : State} (h : Kept r s) (a0 : Bus) (a2 : Nat) (a3 : Core) (a4 : Nat) (a5 : Nat)
    (a6 : Nat) (a7 : Nat) (h0 : a0.Keeps) : KeptE r (State.doAtomic a0 s a2 a3 a4 a5 a6 a7) := by
  unfold State.doAtomic
  repeat' first
    | with_reducible exact h | with_reducible assumption | with_reducible apply KeptE.error
    | with_reducible refine KeptE.ofError (State.coreRead_kept ?_ _ _ _ _ _ _ _ ?_) ‹_›
    | with_reducible refine KeptE.ofOk (State.coreRead_kept ?_ _ _ _ _ _ _ _ ?_) ‹_›
    | with_reducible apply State.coreStore_kept | with_reducible apply State.done_kept
    | with_reducible apply Kept.ite | simp only | split

theorem State.decDone_kept {r s : State} (h : Kept r s) (a0 : Bus) (a2 : Nat) (a3 : Core) (a4 : Dword)
    (a5 : List Nat) (a6 : DecResult) (h0 : a0.Keeps) : KeptE r (State.decDone a0 s a2 a3 a4 a5 a6) := by
  unfold State.decDone
  repeat' first
    | with_reducible exact h | with_reducible assumption | with_reducible apply KeptE.error
    | with_reducible apply KeptE.ite | with_reducible apply State.coreStore_kept
    | with_reducible apply State.done_kept | simp only | split

theorem State.doDs_kept {r s : State} (h : Kept r s) (a0 : Bus) (a2 : Nat) (a3 : Core) (a4 : Nat) (h0 : a0.Keeps)
    : KeptE r (State.doDs a0 s a2 a3 a4) := by
  have one : KeptE r (if (decide (op48 a4 - 0x20 ≤ 4) || op48 a4 - 0x20 = 8) = true then
      s.coreRead a0 a2 a3 (eaDs1 a3 a4) (len1 a4) 2 false else .ok (s, [])) := by
    split
    · exact State.coreRead_kept h _ _ _ _ _ _ _ h0
    · exact h
  unfold State.doDs
  dsimp only
  generalize (if (decide (op48 a4 - 0x20 ≤ 4) || op48 a4 - 0x20 = 8) = true then
      s.coreRead a0 a2 a3 (eaDs1 a3 a4) (len1 a4) 2 false else .ok (s, [])) = x at one ⊢
  cases x with
  | error e => exact one
  | ok p =>
    have k1 : Kept r p.1 := one
    clear one
    dsimp only
    split
    · exact k1
    · split
      · exact KeptE.ofError (State.coreRead_kept k1 _ _ _ _ _ _ _ h0) ‹_›
      · have k2 := KeptE.ofOk (State.coreRead_kept k1 _ _ _ _ _ _ _ h0) ‹_›
        repeat' first
          | with_reducible apply State.decDone_kept
          | with_reducible apply State.done_kept
          | with_reducible assumption
          | exact h0
          | with_reducible apply KeptE.error
          | with_reducible apply KeptE.ite
          | split

theorem State.doShfp_kept {r s : State} (h : Kept r s) (a0 : Bus) (a2 : Nat) (a3 : Core) (a4 : Nat) (h0 : a0.Keeps)
    : KeptE r (State.doShfp a0 s a2 a3 a4) := by
  unfold State.doShfp
  repeat' first
    | with_reducible exact h | with_reducible assumption | with_reducible apply KeptE.error
    | with_reducible refine KeptE.ofError (State.coreRead_kept ?_ _ _ _ _ _ _ _ ?_) ‹_›
    | with_reducible refine KeptE.ofOk (State.coreRead_kept ?_ _ _ _ _ _ _ _ ?_) ‹_›
    | with_reducible apply State.decDone_kept | simp only | split

theorem State.doCvbp_kept {r s : State} (h : Kept r s) (a0 : Bus) (a2 : Nat) (a3 : Core) (a4 : Nat) (h0 : a0.Keeps)
    : KeptE r (State.doCvbp a0 s a2 a3 a4) := by
  unfold State.doCvbp
  repeat' first
    | with_reducible exact h | with_reducible assumption | with_reducible apply KeptE.error
    | with_reducible apply State.decDone_kept | simp only | split

theorem State.doCvpb_kept {r s : State} (h : Kept r s) (a0 : Bus) (a2 : Nat) (a3 : Core) (a4 : Nat) (h0 : a0.Keeps)
    : KeptE r (State.doCvpb a0 s a2 a3 a4) := by
  unfold State.doCvpb
  repeat' first
    | with_reducible exact h | with_reducible assumption | with_reducible apply KeptE.error
    | with_reducible apply KeptE.ite
    | with_reducible refine KeptE.ofError (State.coreRead_kept ?_ _ _ _ _ _ _ _ ?_) ‹_›
    | with_reducible refine KeptE.ofOk (State.coreRead_kept ?_ _ _ _ _ _ _ _ ?_) ‹_›
    | with_reducible apply State.done_kept | simp only | split

theorem State.doRegDec_kept {r s : State} (h : Kept r s) (a1 : Nat) (a2 : Core) (a3 : Nat) (a4 : Nat) : KeptE r
    (State.doRegDec s a1 a2 a3 a4) := by
  unfold State.doRegDec
  repeat' first
    | with_reducible exact h | with_reducible apply KeptE.error | with_reducible apply KeptE.ite
    | with_reducible apply State.done_kept

theorem State.sem16_kept {r s : State} (h : Kept r s) (a0 : Bus) (a2 : Nat) (a3 : Core) (a4 : Nat) (h0 : a0.Keeps)
    : KeptE r (State.sem16 a0 s a2 a3 a4) := by
  unfold State.sem16
  repeat' first
    | with_reducible exact h | with_reducible assumption | with_reducible apply KeptE.ok
    | with_reducible apply KeptE.ite | with_reducible apply State.setCore_kept
    | with_reducible apply State.done_kept | with_reducible apply State.doLoad_kept
    | with_reducible apply State.doStore_kept | with_reducible apply State.jump_kept

theorem State.sem32_kept {r s : State} (h : Kept r s) (a0 : Bus) (a2 : Nat) (a3 : Core) (a4 : Nat) (h0 : a0.Keeps)
    : KeptE r (State.sem32 a0 s a2 a3 a4) := by
  unfold State.sem32
  repeat' first
    | with_reducible exact h | with_reducible assumption | with_reducible apply KeptE.error
    | with_reducible apply KeptE.ite | with_reducible apply State.done_kept | with_reducible apply State.doLoad_kept
    | with_reducible apply State.doStore_kept | with_reducible apply State.doAtomic_kept
    | with_reducible apply State.jump_kept | with_reducible apply State.doRegDec_kept

theorem State.sem48_kept {r s : State} (h : Kept r s) (a0 : Bus) (a2 : Nat) (a3 : Core) (a4 : Nat) (h0 : a0.Keeps)
    : KeptE r (State.sem48 a0 s a2 a3 a4) := by
  unfold State.sem48
  repeat' first
    | with_reducible exact h | with_reducible assumption | with_reducible apply KeptE.ite
    | with_reducible apply State.done_kept | with_reducible apply State.doLoad_kept
    | with_reducible apply State.doStore_kept | with_reducible apply State.doDs_kept
    | with_reducible apply State.doShfp_kept | with_reducible apply State.doCvbp_kept
    | with_reducible apply State.doCvpb_kept

theorem State.semWord_kept {r s : State} (h : Kept r s) (a0 : Bus) (a2 : Nat) (a3 : Core) (a4 : RepWord)
    (h0 : a0.Keeps) : KeptE r (State.semWord a0 s a2 a3 a4) := by
  unfold State.semWord
  repeat' first
    | with_reducible exact h | with_reducible assumption | with_reducible apply State.sem16_kept
    | with_reducible apply State.sem32_kept | with_reducible apply State.sem48_kept | split

theorem State.atBoundary_kept {r s : State} (h : Kept r s) (a0 : Bus) (a2 : Nat) (a3 : Nat)
    (a4 : State → Core → State) (h0 : a0.Keeps) (h4 : ∀ (x0 : State) (x1 : Core), Kept r x0 → Kept r (a4 x0 x1))
    : Kept r (State.atBoundary a0 s a2 a3 a4) := by
  unfold State.atBoundary
  repeat' first
    | with_reducible exact h | with_reducible assumption | with_reducible apply h4
    | with_reducible refine State.takeEntry_keptE ?_ _ ‹_› | with_reducible apply State.raise_kept
    | with_reducible apply State.memRead_kept | with_reducible apply State.coreUe_kept
    | with_reducible apply Kept.ite | simp only | split

theorem State.runWord_kept {r s : State} (h : Kept r s) (a0 : Bus) (a2 : Nat) (a3 : RepWord) (h0 : a0.Keeps)
    : Kept r (State.runWord a0 s a2 a3) := by
  unfold State.runWord
  repeat' first
    | with_reducible exact h | with_reducible assumption | intro _ | with_reducible apply State.atBoundary_kept
    | with_reducible apply State.raise_kept
    | with_reducible refine KeptE.ofError (State.semWord_kept ?_ _ _ _ _ ?_) ‹_›
    | with_reducible refine KeptE.ofOk (State.semWord_kept ?_ _ _ _ _ ?_) ‹_›
    | with_reducible apply State.modCore_kept | with_reducible apply State.charge_kept | simp only
    | split

theorem State.runSvc_kept {r s : State} (h : Kept r s) (a0 : Bus) (a2 : Nat) (a3 : BitVec 32) (h0 : a0.Keeps)
    : Kept r (State.runSvc a0 s a2 a3) := by
  unfold State.runSvc
  repeat' first
    | with_reducible exact h | with_reducible assumption | intro _ | with_reducible apply State.atBoundary_kept
    | with_reducible apply State.raise_kept | with_reducible apply State.charge_kept
    | with_reducible apply State.modCore_kept | simp only | split

theorem State.repeatI_kept {r s : State} (h : Kept r s) (a0 : Bus) (a1 : Nat) (a2 : Nat) (a3 : RepWord) (a4 : Nat)
    (a5 : Nat) (h0 : a0.Keeps) : Kept r (State.repeatI a0 a1 a2 a3 a4 a5 s) := by
  induction a5 generalizing s with
  | zero => exact State.modCore_kept h _ _
  | succ n ih =>
    unfold State.repeatI
    dsimp only
    split
    · exact State.takeEntry_keptE h _ ‹_›
    · split
      · exact State.raise_kept (KeptE.ofError (State.semWord_kept h _ _ _ _ h0) ‹_›) _ _ _ _ _ _ h0
      · exact ih (State.charge_kept (State.modCore_kept (KeptE.ofOk (State.semWord_kept h _ _ _ _ h0) ‹_›) _ _) _ _ _)

theorem State.runRepI_kept {r s : State} (h : Kept r s) (a0 : Bus) (a2 : Nat) (a3 : BitVec 32) (a4 : RepWord)
    (h0 : a0.Keeps) : Kept r (State.runRepI a0 s a2 a3 a4) := by
  unfold State.runRepI
  repeat' first
    | with_reducible exact h | with_reducible assumption | intro _ | with_reducible apply State.atBoundary_kept
    | with_reducible apply State.raise_kept | with_reducible apply State.repeatI_kept
    | with_reducible apply State.charge_kept | split

theorem State.repeatU_keptL {r s t : State} {x : Exc} (h : Kept r s) (a0 : Bus) (a1 : Nat) (a2 : RepWord) (a4 : Nat) (h0 : a0.Keeps) (e : State.repeatU a0 a1 a2 a4 s = .error (x, t)) : Kept r t := by
  induction a4 generalizing s with
  | zero => cases e
  | succ n ih =>
    unfold State.repeatU at e
    dsimp only at e
    split at e
    · cases e; exact KeptE.ofError (State.semWord_kept h _ _ _ _ h0) ‹_›
    · exact ih (State.charge_kept (KeptE.ofOk (State.semWord_kept h _ _ _ _ h0) ‹_›) _ _ _) e

theorem State.repeatU_keptR {r s t : State} (h : Kept r s) (a0 : Bus) (a1 : Nat) (a2 : RepWord) (a4 : Nat) (h0 : a0.Keeps) (e : State.repeatU a0 a1 a2 a4 s = .ok t) : Kept r t := by
  induction a4 generalizing s with
  | zero => cases e; exact h
  | succ n ih =>
    unfold State.repeatU at e
    dsimp only at e
    split at e
    · cases e
    · exact ih (State.charge_kept (KeptE.ofOk (State.semWord_kept h _ _ _ _ h0) ‹_›) _ _ _) e

theorem State.beginRepU_kept {r s : State} (h : Kept r s) (a0 : Bus) (a2 : Nat) (a3 : Nat) (a4 : RepWord)
    (h0 : a0.Keeps) : Kept r (State.beginRepU a0 s a2 a3 a4) := by
  unfold State.beginRepU
  dsimp only
  split
  · exact State.raise_kept (Kept.upd h) _ _ _ _ _ _ h0
  · exact State.modCore_kept (State.repeatU_keptR h _ _ _ _ h0 ‹_›) _ _

theorem State.holdRepU_kept {r s : State} (h : Kept r s) (a1 : Nat) (a2 : Nat) (a3 : RepWord) : Kept r
    (State.holdRepU s a1 a2 a3) := by
  unfold State.holdRepU
  repeat' first
    | with_reducible exact h | with_reducible apply State.modCore_kept

theorem State.repuTick_kept {r s : State} (h : Kept r s) (a0 : Bus) (h0 : a0.Keeps) : Kept r
    (State.repuTick a0 s) := by
  unfold State.repuTick
  refine Kept.foldl h (fun s p h => ?_)
  dsimp only
  split
  · have k := State.modCore_kept h p.1 (fun k => { k with hold := .none })
    split
    · exact k
    · generalize e : State.takeEntry _ p.1 = q
      cases q with
      | none => exact State.beginRepU_kept k _ _ _ _ h0
      | some t => exact State.takeEntry_keptE k _ e
  · exact h

theorem State.runRepU_kept {r s : State} (h : Kept r s) (a0 : Bus) (a2 : Nat) (a3 : BitVec 32) (a4 : RepWord)
    (h0 : a0.Keeps) : Kept r (State.runRepU a0 s a2 a3 a4) := by
  unfold State.runRepU
  repeat' first
    | with_reducible exact h | with_reducible assumption | intro _ | with_reducible apply State.atBoundary_kept
    | with_reducible apply State.raise_kept | with_reducible apply State.holdRepU_kept
    | with_reducible apply State.beginRepU_kept | with_reducible apply Kept.ite | simp only | split

theorem State.budgetEntry_kept {r s : State} (h : Kept r s) (a1 : Nat) : Kept r (State.budgetEntry s a1) := by
  unfold State.budgetEntry
  dsimp only
  split
  · cases e : s.takeEntry a1 with
    | none => exact h
    | some t => exact State.takeEntry_keptE h _ e
  · exact h

theorem State.request_kept {r s : State} (h : Kept r s) (a1 : Nat) (a2 : Bool) : Kept r (State.request s a1 a2) := by
  unfold State.request
  dsimp only
  split
  · exact h
  · have k : ∀ f, Kept r ((State.takeEntry (s.modCore a1 f) a1).getD (s.modCore a1 f)) := by
      intro f
      generalize e : State.takeEntry (s.modCore a1 f) a1 = q
      cases q with
      | none => exact State.modCore_kept h _ _
      | some t => exact State.takeEntry_keptE (State.modCore_kept h _ _) _ e
    exact k _

/-! ### Queue -/

theorem State.modAdm_kept {r s : State} (h : Kept r s) (a1 : CmdId) (a2 : Adm → Adm) : Kept r
    (State.modAdm s a1 a2) := by
  unfold State.modAdm
  repeat' first
    | with_reducible exact h | with_reducible apply State.modSlice_kept

theorem State.finishAt_kept {r s : State} (h : Kept r s) (a1 : CmdId) (a2 : Status) (a3 : BitVec 32)
    (a4 : BitVec 32) (a5 : Nat) : Kept r (State.finishAt s a1 a2 a3 a4 a5) := by
  unfold State.finishAt
  repeat' first
    | with_reducible exact h | with_reducible apply State.modSlice_kept | simp only | split

theorem State.finish_kept {r s : State} (h : Kept r s) (a1 : CmdId) (a2 : Status) (a3 : optParam (BitVec 32) 0)
    (a4 : optParam (BitVec 32) 0) : Kept r (State.finish s a1 a2 a3 a4) := by
  unfold State.finish
  repeat' first
    | with_reducible exact h | with_reducible apply State.finishAt_kept

theorem State.finishNow_kept {r s : State} (h : Kept r s) (a1 : CmdId) (a2 : Status) (a3 : optParam (BitVec 32) 0)
    (a4 : optParam (BitVec 32) 0) : Kept r (State.finishNow s a1 a2 a3 a4) := by
  unfold State.finishNow
  repeat' first
    | with_reducible exact h | with_reducible apply State.finishAt_kept

theorem State.discardCmd_kept {r s : State} (h : Kept r s) (a1 : CmdId) : Kept r (State.discardCmd s a1) := by
  unfold State.discardCmd
  repeat' first
    | with_reducible exact h | with_reducible apply State.modSlice_kept | simp only | split

theorem State.dropEntry_kept {r s : State} (h : Kept r s) (a1 : CmdId) : Kept r (State.dropEntry s a1) := by
  unfold State.dropEntry
  repeat' first
    | with_reducible exact h | with_reducible apply State.modSlice_kept

theorem State.failCmd_kept {r s : State} (h : Kept r s) (a1 : CmdId) (a2 : Status) : Kept r
    (State.failCmd s a1 a2) := by
  unfold State.failCmd
  repeat' first
    | with_reducible exact h | with_reducible apply State.finish_kept | with_reducible apply State.dropEntry_kept

theorem State.sendMsix_kept {r s : State} (h : Kept r s) (a1 : Nat) (a2 : Nat) : Kept r (State.sendMsix s a1 a2) := by
  unfold State.sendMsix
  repeat' first
    | with_reducible exact h | with_reducible apply State.emit_kept | with_reducible apply Kept.ite
    | simp only [↓Kept.upd_iff]

theorem State.interrupt_kept {r s : State} (h : Kept r s) (a1 : Nat) (a2 : Nat) (a3 : Cq) : Kept r
    (State.interrupt s a1 a2 a3) := by
  unfold State.interrupt
  repeat' first
    | with_reducible exact h | with_reducible apply State.sendMsix_kept | with_reducible apply State.modSlice_kept
    | with_reducible apply Kept.ite

theorem State.coalesceTick_kept {r s : State} (h : Kept r s) : Kept r (State.coalesceTick s) := by
  unfold State.coalesceTick
  repeat' first
    | with_reducible exact h | with_reducible assumption | intro _ | with_reducible apply State.sendMsix_kept
    | with_reducible apply State.modSlice_kept | with_reducible apply Kept.ite | with_reducible apply Kept.foldl

theorem State.postOne_kept {r s : State} (h : Kept r s) (a1 : Nat) (a2 : Ready) : Kept r (State.postOne s a1 a2) := by
  unfold State.postOne
  repeat' first
    | with_reducible exact h | with_reducible apply State.emit_kept | with_reducible apply State.modSlice_kept
    | with_reducible apply State.interrupt_kept | simp only | split

theorem State.postReady_kept {r s : State} (h : Kept r s) (a1 : Nat) (a2 : Nat) : Kept r
    (State.postReady s a1 a2) := by
  unfold State.postReady
  repeat' first
    | with_reducible exact h | with_reducible assumption | intro _ | with_reducible apply State.modSlice_kept
    | with_reducible apply State.postOne_kept | with_reducible apply Kept.ite | with_reducible apply Kept.foldl

theorem State.deliverAsync_kept {r s : State} (h : Kept r s) (a1 : Nat) : Kept r (State.deliverAsync s a1) := by
  unfold State.deliverAsync
  repeat' first
    | with_reducible exact h | with_reducible apply State.setSlice_kept | simp only | split

theorem State.asyncEvent_kept {r s : State} (h : Kept r s) (a1 : Nat) (a2 : AsyncEv) : Kept r
    (State.asyncEvent s a1 a2) := by
  unfold State.asyncEvent
  repeat' first
    | with_reducible exact h | with_reducible apply State.deliverAsync_kept
    | with_reducible apply State.modSlice_kept

theorem State.healthEvent_kept {r s : State} (h : Kept r s) (a1 : Nat) (a2 : Nat) (a3 : AsyncEv) : Kept r
    (State.healthEvent s a1 a2 a3) := by
  unfold State.healthEvent
  repeat' first
    | with_reducible exact h | with_reducible apply State.asyncEvent_kept | with_reducible apply Kept.ite

theorem State.stopCore_kept {r s : State} (h : Kept r s) (a1 : Nat) : Kept r (State.stopCore s a1) := by
  unfold State.stopCore
  repeat' first
    | with_reducible exact h | with_reducible apply State.modCore_kept

theorem State.freeCores_kept {r s : State} (h : Kept r s) (a1 : Heat) : Kept r (State.freeCores s a1) := by
  unfold State.freeCores
  repeat' first
    | with_reducible exact h | with_reducible assumption | intro _ | with_reducible apply State.stopCore_kept
    | with_reducible apply Kept.foldl | split

theorem State.dropHeat_kept {r s : State} (h : Kept r s) (a1 : CmdId) : Kept r (State.dropHeat s a1) := by
  unfold State.dropHeat
  repeat' first
    | with_reducible exact h | simp only [↓Kept.upd_iff]

theorem State.dropHeats_kept {r s : State} (h : Kept r s) (a1 : Nat) : Kept r (State.dropHeats s a1) := by
  unfold State.dropHeats
  repeat' first
    | with_reducible exact h | with_reducible assumption | intro _ | with_reducible apply State.discardCmd_kept
    | with_reducible apply State.dropHeat_kept | with_reducible apply State.freeCores_kept
    | with_reducible apply Kept.foldl

theorem State.squash_kept {r s : State} (h : Kept r s) (a1 : Nat) : Kept r (State.squash s a1) := by
  unfold State.squash
  repeat' first
    | with_reducible exact h | with_reducible assumption | intro _ | with_reducible apply State.discardCmd_kept
    | with_reducible apply State.dropHeats_kept | with_reducible apply Kept.foldl

theorem State.beginCtrlReset_kept {r s : State} (h : Kept r s) (a1 : Nat) : Kept r (State.beginCtrlReset s a1) := by
  unfold State.beginCtrlReset
  repeat' first
    | with_reducible exact h | with_reducible apply State.modSlice_kept | with_reducible apply State.squash_kept

theorem State.endCtrlReset_kept {r s : State} (h : Kept r s) (a1 : Nat) : Kept r (State.endCtrlReset s a1) := by
  unfold State.endCtrlReset
  repeat' first
    | with_reducible exact h | with_reducible apply State.setSlice_kept | with_reducible apply Kept.ite

theorem State.portReset_kept {r s : State} (h : Kept r s) (a1 : Nat) (a2 : Bool) : Kept r
    (State.portReset s a1 a2) := by
  unfold State.portReset
  repeat' first
    | with_reducible exact h | with_reducible assumption | intro _ | with_reducible apply State.beginCtrlReset_kept
    | with_reducible apply State.modPort_kept | with_reducible apply State.ev_kept
    | with_reducible apply State.emit_kept | with_reducible apply Kept.ite | with_reducible apply Kept.foldl
    | simp only [↓Kept.upd_iff]

theorem State.endShutdown_kept {r s : State} (h : Kept r s) (a1 : Nat) : Kept r (State.endShutdown s a1) := by
  unfold State.endShutdown
  repeat' first
    | with_reducible exact h | with_reducible apply State.setSlice_kept | with_reducible apply Kept.ite

theorem State.takeCfs_kept {r s : State} (h : Kept r s) (a1 : Nat) : Kept r (State.takeCfs s a1) := by
  unfold State.takeCfs
  repeat' first
    | with_reducible exact h | with_reducible apply State.ev_kept | with_reducible apply State.squash_kept
    | with_reducible apply State.setSlice_kept | with_reducible apply Kept.ite

theorem State.deliver_kept {r s : State} (h : Kept r s) (a1 : Nat) (a2 : List (Nat × Nat)) (a3 : Bytes) : Kept r
    (State.deliver s a1 a2 a3) := by
  induction a2 generalizing s a3 with
  | nil => exact h
  | cons p t ih =>
    obtain ⟨a, len⟩ := p
    unfold State.deliver
    dsimp only
    refine ih ?_ _
    split
    · exact h
    · split
      · exact State.cmbPut_kept h _ _
      · exact State.emit_kept h _

theorem State.readCmb_kept {r s : State} (h : Kept r s) (a1 : Nat) (a2 : List (Nat × Nat)) : Kept r
    (State.readCmb s a1 a2) := State.readWords_kept h _

theorem State.moveData_kept {r s : State} (h : Kept r s) (a1 : CmdId) (a2 : Bool) (a3 : List (Nat × Nat)) : Kept r
    (State.moveData s a1 a2 a3).1 := by
  unfold State.moveData
  repeat' first
    | with_reducible exact h | with_reducible apply State.modAdm_kept | simp only [↓Kept.upd_iff] | split

theorem State.moveData_keptE {t : State} {x : _} {r s : State} (h : Kept r s) (a1 : CmdId) (a2 : Bool)
    (a3 : List (Nat × Nat)) (e : State.moveData s a1 a2 a3 = (t, x)) : Kept r t := by
  have q := State.moveData_kept h a1 a2 a3 ; rw [e] at q; exact q

theorem State.respond_kept {r s : State} (h : Kept r s) (a1 : CmdId) (a2 : Reply) : Kept r
    (State.respond s a1 a2) := by
  unfold State.respond
  repeat' first
    | with_reducible exact h | with_reducible apply State.moveData_kept | with_reducible apply State.finish_kept
    | with_reducible apply State.deliver_kept | with_reducible apply State.modAdm_kept
    | with_reducible apply Kept.ite

theorem State.replyTick_kept {r s : State} (h : Kept r s) : Kept r (State.replyTick s) := by
  unfold State.replyTick
  repeat' first
    | with_reducible exact h | with_reducible assumption | intro _ | with_reducible apply State.respond_kept
    | with_reducible apply Kept.foldl | split

end Sys2Proof.Machine
end

