-- ==== Sys2Proof/Laws/KeptStore.lean ====
section
/-! SUPPORT. What every operation of flash translation, the write buffer and the commands that read and write it keeps. -/

namespace Sys2Proof.Machine

open State

/-! ### Ftl -/

theorem State.setFtl_kept {r s : State} (h : Kept r s) (a1 : Ftl) : Kept r (State.setFtl s a1) := by
  unfold State.setFtl
  repeat' first
    | with_reducible exact h | simp only [↓Kept.upd_iff]

theorem State.modDie_kept {r s : State} (h : Kept r s) (a1 : Nat) (a2 : Die → Die) : Kept r
    (State.modDie s a1 a2) := by
  unfold State.modDie
  repeat' first
    | with_reducible exact h | with_reducible apply State.setFtl_kept

theorem State.modChan_kept {r s : State} (h : Kept r s) (a1 : Nat) (a2 : Chan → Chan) : Kept r
    (State.modChan s a1 a2) := by
  unfold State.modChan
  repeat' first
    | with_reducible exact h | with_reducible apply State.setFtl_kept

theorem State.modBlk_kept {r s : State} (h : Kept r s) (a1 : Nat) (a2 : Blk → Blk) : Kept r
    (State.modBlk s a1 a2) := by
  unfold State.modBlk
  repeat' first
    | with_reducible exact h | with_reducible apply State.setFtl_kept

theorem State.closeBlk_kept {r s : State} (h : Kept r s) (a1 : Nat) : Kept r (State.closeBlk s a1) := by
  unfold State.closeBlk
  repeat' first
    | with_reducible exact h | with_reducible apply State.modBlk_kept | with_reducible apply State.setFtl_kept

theorem State.takeSlots_keptE {t : State} {x : _} {r s : State} (h : Kept r s) (a1 : Nat) (a2 : BlkState)
    (a3 : Nat) (e : State.takeSlots s a1 a2 a3 = some (x, t)) : Kept r t := by
  have alloc : ∀ (s : State) (x : Nat) (t : State), Kept r s →
      (match s.leastWorn (s.freeBlocks a1) with
       | none => none
       | some b => some (b * 2 ^ 14, s.modBlk b (fun x => { x with state := a2, nextSlot := a3, slots := [] }))) = some (x, t) →
      Kept r t := by
    intro s x t h e
    split at e
    · cases e
    · cases e; exact State.modBlk_kept h _ _
  unfold State.takeSlots at e
  dsimp only at e
  split at e
  · exact alloc s _ _ h e
  · generalize (if a3 = 16 then _ else _ : Nat) = i at e
    split at e
    · cases e; exact State.modBlk_kept h _ _
    · exact alloc _ _ _ (State.closeBlk_kept h _) e

theorem State.putSlots_kept {r s : State} (h : Kept r s) (a1 : Nat) (a2 : List FlashSlot) : Kept r
    (State.putSlots s a1 a2) := by
  induction a2 generalizing s a1 with
  | nil => exact h
  | cons f t ih => exact ih (State.modBlk_kept h _ _) _

theorem State.journal_kept {r s : State} (h : Kept r s) (a1 : Nat) (a2 : List JEnt)
    (a3 : optParam (Option Stamp) none) (a4 : optParam Nat 0) (a5 : optParam Bool false)
    (a6 : optParam (List (Nat × Nat × Option Nat)) []) : Kept r (State.journal s a1 a2 a3 a4 a5 a6) := by
  unfold State.journal
  repeat' first
    | with_reducible exact h | with_reducible apply State.setFtl_kept

theorem State.journalAll_kept {r s : State} (h : Kept r s) (a1 : Nat) (a2 : Option Stamp) (a3 : Nat) (a4 : Bool)
    (a5 : List (Nat × Nat × Option Nat)) (a6 : Nat) (a7 : List JEnt) : Kept r
    (State.journalAll s a1 a2 a3 a4 a5 a6 a7) := by
  induction a6 generalizing s a7 with
  | zero => exact h
  | succ k ih =>
    unfold State.journalAll
    split
    · exact State.journal_kept h _ _ _ _ _ _
    · exact ih (State.journal_kept h _ _ _ _ _ _) _

theorem State.applyEnt_kept {r s : State} (h : Kept r s) (a1 : Nat) (a2 : JEnt) : Kept r
    (State.applyEnt s a1 a2) := by
  unfold State.applyEnt
  repeat' first
    | with_reducible exact h | with_reducible apply State.setFtl_kept | with_reducible apply Kept.ite
    | simp only | split

theorem State.applyRec_kept {r s : State} (h : Kept r s) (a1 : JRec) : Kept r (State.applyRec s a1) := by
  unfold State.applyRec
  repeat' first
    | with_reducible exact h | with_reducible assumption | intro _ | with_reducible apply State.applyEnt_kept
    | with_reducible apply Kept.ite | with_reducible apply Kept.foldl

theorem State.startCkpt_kept {r s : State} (h : Kept r s) : Kept r (State.startCkpt s) := by
  unfold State.startCkpt
  repeat' first
    | with_reducible exact h | with_reducible apply State.setFtl_kept

theorem State.completeCkpt_kept {r s : State} (h : Kept r s) : Kept r (State.completeCkpt s) := by
  unfold State.completeCkpt
  repeat' first
    | with_reducible exact h | with_reducible apply State.ev_kept | simp only
    | simp only [↓Kept.updDur_iff] | split

theorem State.coverEntry_kept {r s : State} (h : Kept r s) (a1 : Nat × Nat × Option Nat) : Kept r
    (State.coverEntry s a1) := by
  unfold State.coverEntry
  repeat' first
    | with_reducible exact h | with_reducible apply State.modSlice_kept

theorem State.recordDurable_kept {r s : State} (h : Kept r s) : Kept r (State.recordDurable s) := by
  unfold State.recordDurable
  repeat' first
    | with_reducible exact h | with_reducible assumption | intro _
    | with_reducible refine State.sysChoose_keptE ?_ ‹_› | with_reducible apply State.setFtl_kept
    | with_reducible apply State.coverEntry_kept | with_reducible apply State.applyRec_kept
    | with_reducible apply State.completeCkpt_kept | with_reducible apply Kept.ite | with_reducible apply Kept.foldl
    | simp only | split

theorem State.addPoll_kept {r s : State} (h : Kept r s) (a1 : PollKind) (a2 : Nat) : Kept r
    (State.addPoll s a1 a2) := by
  unfold State.addPoll
  repeat' first
    | with_reducible exact h | with_reducible apply State.setFtl_kept

theorem State.waterTick_kept {r s : State} (h : Kept r s) : Kept r (State.waterTick s) := by
  unfold State.waterTick
  repeat' first
    | with_reducible exact h | with_reducible assumption | intro _ | with_reducible apply State.modSlice_kept
    | with_reducible apply Kept.foldl

theorem State.countPartial_kept {r s : State} (h : Kept r s) (a1 : Nat) : Kept r (State.countPartial s a1).1 := by
  unfold State.countPartial
  repeat' first
    | with_reducible exact h | with_reducible apply State.setFtl_kept | simp only | split

theorem State.countPartial_keptE {t : State} {x : _} {r s : State} (h : Kept r s) (a1 : Nat)
    (e : State.countPartial s a1 = (t, x)) : Kept r t := by
  have q := State.countPartial_kept h a1 ; rw [e] at q; exact q

theorem State.promote_kept {r s : State} (h : Kept r s) (a1 : Nat) (a2 : Nat) : Kept r (State.promote s a1 a2) := by
  unfold State.promote
  repeat' first
    | with_reducible exact h | with_reducible apply State.journal_kept | with_reducible apply State.ev_kept
    | simp only [↓Kept.upd_iff]

theorem State.noteReserved_kept {r s : State} (h : Kept r s) (a1 : Nat) (a2 : List Nat) : Kept r
    (State.noteReserved s a1 a2) := by
  unfold State.noteReserved
  repeat' first
    | with_reducible exact h | with_reducible apply State.ev_kept | with_reducible apply Kept.ite

theorem State.addLost_kept {r s : State} (h : Kept r s) (a1 : Lost) : Kept r (State.addLost s a1) := by
  unfold State.addLost
  repeat' first
    | with_reducible exact h | with_reducible apply State.modSlice_kept | with_reducible apply State.setFtl_kept
    | with_reducible apply State.ev_kept | with_reducible apply Kept.ite | simp only | split

theorem State.loseSlot_kept {r s : State} (h : Kept r s) (a1 : Nat) (a2 : Nat) (a3 : Nat) : Kept r
    (State.loseSlot s a1 a2 a3) := by
  unfold State.loseSlot
  repeat' first
    | with_reducible exact h | with_reducible apply State.addLost_kept | split

theorem State.loseHits_kept {r s : State} (h : Kept r s) (a1 : Nat) (a2 : Entry) (a3 : Ns) (a4 : Nat) (a5 : List Nat) :
    Kept r (State.loseHits s a1 a2 a3 a4 a5) := by
  unfold State.loseHits
  exact Kept.foldl h (fun _ _ h => State.loseSlot_kept (Kept.foldl h (fun _ _ h => State.readWords_kept h _)) _ _ _)

theorem State.planUnit_kept {r s : State} (h : Kept r s) (a1 : Nat) (a2 : Ns) (a3 : Entry) (a4 : Nat) : Kept r
    (State.planUnit s a1 a2 a3 a4).1 := by
  unfold State.planUnit
  repeat' first
    | with_reducible exact h | with_reducible assumption | intro _ | with_reducible apply State.countPartial_kept
    | with_reducible apply State.promote_kept | with_reducible apply State.noteReserved_kept
    | with_reducible apply State.loseHits_kept | with_reducible apply State.addPoll_kept | with_reducible apply Kept.foldl | simp only | split

theorem State.planUnit_keptE {t : State} {x : _} {r s : State} (h : Kept r s) (a1 : Nat) (a2 : Ns) (a3 : Entry)
    (a4 : Nat) (e : State.planUnit s a1 a2 a3 a4 = (t, x)) : Kept r t := by
  have q := State.planUnit_kept h a1 a2 a3 a4 ; rw [e] at q; exact q

theorem State.finishJob_kept {r s : State} (h : Kept r s) (a1 : FlushJob) : Kept r (State.finishJob s a1) := by
  unfold State.finishJob
  repeat' first
    | with_reducible exact h | with_reducible apply State.setFtl_kept | with_reducible apply State.coverEntry_kept
    | with_reducible apply State.journalAll_kept | with_reducible apply Kept.ite

theorem State.flushEntry_kept {r s : State} (h : Kept r s) (a1 : Nat) (a2 : Entry) : Kept r
    (State.flushEntry s a1 a2) := by
  unfold State.flushEntry
  repeat' first
    | with_reducible exact h | with_reducible assumption | intro _ | with_reducible apply State.modSlice_kept
    | with_reducible apply State.planUnit_kept | with_reducible apply State.setFtl_kept
    | with_reducible apply State.finishJob_kept | with_reducible apply Kept.ite | with_reducible apply Kept.foldlFst
    | simp only | split

theorem State.flushStart_kept {r s : State} (h : Kept r s) (a1 : Nat) (a2 : Nat) : Kept r
    (State.flushStart s a1 a2) := by
  unfold State.flushStart
  repeat' first
    | with_reducible exact h | with_reducible apply State.flushEntry_kept | with_reducible apply Kept.ite | split

theorem State.putJob_kept {r s : State} (h : Kept r s) (a1 : FlushJob) (a2 : FlushJob) : Kept r
    (State.putJob s a1 a2) := by
  unfold State.putJob
  repeat' first
    | with_reducible exact h | with_reducible apply State.setFtl_kept

theorem State.healPart_keptE {r s : State} {x : State × FlushJob × FlushPart} (h : Kept r s) (j : FlushJob) (p : FlushPart)
    (e : State.healPart s j p = some x) : Kept r x.1 := by
  unfold State.healPart at e
  dsimp only at e
  split at e
  · cases e; exact h
  · split at e
    · cases e; exact State.putJob_kept h _ _
    · split at e
      · cases e
      · cases e; exact State.putJob_kept (State.promote_kept h _ _) _ _

theorem State.placeSlots_keptE {t : State} {r s : State} (h : Kept r s) (a1 a2 : Nat) (a3 : Ns) (a4 : Entry) (a5 : FlushJob)
    (a6 : FlushPart) (e : State.placeSlots s a1 a2 a3 a4 a5 a6 = some t) : Kept r t := by
  unfold State.placeSlots at e
  dsimp only at e
  split at e
  · cases e
  · rename_i ht
    have k1 := State.takeSlots_keptE h _ _ _ ht
    obtain rfl := Option.some.inj e
    repeat' first
      | with_reducible assumption
      | with_reducible apply State.putJob_kept
      | with_reducible apply State.ev_kept
      | with_reducible apply State.setFtl_kept
      | with_reducible apply State.modChan_kept
      | with_reducible apply State.putSlots_kept
      | with_reducible apply Kept.ite
      | simp only [↓Kept.upd_iff]

theorem State.placePart_keptE {t : State} {r s : State} (h : Kept r s) (a1 : Nat) (a2 : FlushJob) (a3 : FlushPart)
    (e : State.placePart s a1 a2 a3 = some t) : Kept r t := by
  unfold State.placePart at e
  split at e
  · split at e
    · rename_i hh
      have k := State.healPart_keptE h _ _ hh
      split at e
      · obtain rfl := Option.some.inj e
        exact State.putJob_kept k _ _
      · exact State.placeSlots_keptE k _ _ _ _ _ _ e
    · cases e
  · cases e

theorem State.cleanJobs_kept {r s : State} (h : Kept r s) (a1 : Nat) : Kept r (State.cleanJobs s a1) := by
  unfold State.cleanJobs
  repeat' first
    | with_reducible exact h | with_reducible assumption | intro _ | with_reducible apply State.putJob_kept
    | with_reducible apply State.finishJob_kept | with_reducible apply Kept.ite | with_reducible apply Kept.foldl

theorem State.placeNext_kept {r s : State} (h : Kept r s) (a1 : Nat) (a2 : Nat) : Kept r
    (State.placeNext s a1 a2) := by
  unfold State.placeNext
  generalize q : List.findSome? _ _ = x
  cases x with
  | none => exact h
  | some t =>
    obtain ⟨y, _, e⟩ := List.exists_of_findSome?_eq_some q
    exact State.placePart_keptE h _ _ _ e

theorem State.flushTick_kept {r s : State} (h : Kept r s) : Kept r (State.flushTick s) := by
  unfold State.flushTick
  repeat' first
    | with_reducible exact h | with_reducible assumption | intro _ | with_reducible apply State.placeNext_kept
    | with_reducible apply State.cleanJobs_kept | with_reducible apply Kept.ite | with_reducible apply Kept.foldl

theorem State.programDone_kept {r s : State} (h : Kept r s) (a1 : Nat) (a2 : Nat) : Kept r
    (State.programDone s a1 a2) := by
  unfold State.programDone
  repeat' first
    | with_reducible exact h | with_reducible apply State.finishJob_kept | with_reducible apply State.putJob_kept
    | with_reducible apply Kept.ite | split

theorem State.markLost_kept {r s : State} (h : Kept r s) (a1 : Nat) : Kept r (State.markLost s a1) := by
  unfold State.markLost
  repeat' first
    | with_reducible exact h | with_reducible apply State.setFtl_kept

theorem State.loseDie_kept {r s : State} (h : Kept r s) (a1 : Nat) : Kept r (State.loseDie s a1) := by
  unfold State.loseDie
  repeat' first
    | with_reducible exact h | with_reducible assumption | intro _ | with_reducible apply State.journal_kept
    | with_reducible apply State.loseSlot_kept | with_reducible apply State.markLost_kept
    | with_reducible apply State.modDie_kept | with_reducible apply State.setFtl_kept
    | with_reducible apply State.healthEvent_kept | with_reducible apply State.ev_kept
    | with_reducible apply Kept.ite | with_reducible apply Kept.foldl

theorem State.retire_kept {r s : State} (h : Kept r s) (a1 : Nat) (a2 : Nat) : Kept r (State.retire s a1 a2) := by
  unfold State.retire
  repeat' first
    | with_reducible exact h | with_reducible apply State.journal_kept | with_reducible apply State.modBlk_kept
    | with_reducible apply State.modDie_kept | with_reducible apply State.ev_kept
    | with_reducible apply State.setFtl_kept | with_reducible apply State.loseDie_kept
    | with_reducible apply Kept.ite

theorem State.copyGroup_kept {r s : State} (h : Kept r s) (a1 : Nat) (a2 : Nat) (a3 : List Nat) (a4 : Nat)
    (a5 : List (Nat × FlashSlot)) : Kept r (State.copyGroup s a1 a2 a3 a4 a5).1 := by
  unfold State.copyGroup
  repeat' first
    | with_reducible exact h | with_reducible assumption | intro _
    | with_reducible refine State.takeSlots_keptE ?_ _ _ _ ‹_› | with_reducible apply State.putSlots_kept
    | with_reducible apply State.journal_kept | with_reducible apply Kept.foldlFst | simp only
    | split

theorem State.copyGroup_keptE {t : State} {x : _} {r s : State} (h : Kept r s) (a1 : Nat) (a2 : Nat)
    (a3 : List Nat) (a4 : Nat) (a5 : List (Nat × FlashSlot)) (e : State.copyGroup s a1 a2 a3 a4 a5 = (t, x))
    : Kept r t := by
  have q := State.copyGroup_kept h a1 a2 a3 a4 a5 ; rw [e] at q; exact q

theorem State.copyBlock_kept {r s : State} (h : Kept r s) (a1 : Nat) (a2 : Nat) (a3 a4 : List Nat) : Kept r
    (State.copyBlock s a1 a2 a3 a4).1 := by
  unfold State.copyBlock
  repeat' first
    | with_reducible exact h | with_reducible assumption | intro _ | with_reducible apply State.copyGroup_kept
    | with_reducible apply Kept.foldlFst

theorem State.copyBlock_keptE {t : State} {x : _} {r s : State} (h : Kept r s) (a1 : Nat) (a2 : Nat)
    (a3 a4 : List Nat) (e : State.copyBlock s a1 a2 a3 a4 = (t, x)) : Kept r t := by
  have q := State.copyBlock_kept h a1 a2 a3 a4 ; rw [e] at q; exact q

theorem State.dropDemote_kept {r s : State} (h : Kept r s) (a1 : Nat) : Kept r (State.dropDemote s a1) := by
  unfold State.dropDemote
  repeat' first
    | with_reducible exact h | with_reducible apply State.setFtl_kept

theorem State.modDemote_kept {r s : State} (h : Kept r s) (a1 : Nat) (a2 : Demote → Demote) : Kept r
    (State.modDemote s a1 a2) := by
  unfold State.modDemote
  repeat' first
    | with_reducible exact h | with_reducible apply State.setFtl_kept

theorem State.demoteWrite_kept {r s : State} (h : Kept r s) (a1 : Demote) : Kept r (State.demoteWrite s a1) := by
  unfold State.demoteWrite
  repeat' first
    | with_reducible exact h | with_reducible refine State.takeSlots_keptE ?_ _ _ _ ‹_›
    | with_reducible apply State.addPoll_kept | with_reducible apply State.modDemote_kept
    | with_reducible apply State.putSlots_kept | with_reducible apply State.dropDemote_kept
    | simp only | split

theorem State.demoteBegin_kept {r s : State} (h : Kept r s) (a1 : Nat) (a2 : Nat) : Kept r
    (State.demoteBegin s a1 a2) := by
  unfold State.demoteBegin
  repeat' first
    | with_reducible exact h | with_reducible assumption | intro _ | with_reducible apply State.noteReserved_kept
    | with_reducible apply State.setFtl_kept | with_reducible apply State.demoteWrite_kept
    | with_reducible apply State.addPoll_kept | with_reducible apply Kept.ite | with_reducible apply Kept.foldl

theorem State.demoteEnd_kept {r s : State} (h : Kept r s) (a1 : Demote) (a2 : Nat) : Kept r
    (State.demoteEnd s a1 a2) := by
  unfold State.demoteEnd
  repeat' first
    | with_reducible exact h | with_reducible apply State.dropDemote_kept | with_reducible apply State.journal_kept
    | with_reducible apply State.ev_kept | with_reducible apply Kept.ite | simp only [↓Kept.upd_iff]

theorem State.modReclaim_kept {r s : State} (h : Kept r s) (a1 : Nat) (a2 : Reclaim → Reclaim) : Kept r
    (State.modReclaim s a1 a2) := by
  unfold State.modReclaim
  repeat' first
    | with_reducible exact h | with_reducible apply State.setFtl_kept

theorem State.dropReclaim_kept {r s : State} (h : Kept r s) (a1 : Nat) : Kept r (State.dropReclaim s a1) := by
  unfold State.dropReclaim
  repeat' first
    | with_reducible exact h | with_reducible apply State.setFtl_kept

theorem State.reclaimBegin_kept {r s : State} (h : Kept r s) (a1 : Nat) (a2 : ReclaimFor) : Kept r
    (State.reclaimBegin s a1 a2) := by
  unfold State.reclaimBegin
  repeat' first
    | with_reducible exact h | with_reducible assumption | intro _ | with_reducible apply State.demoteBegin_kept
    | with_reducible apply State.addPoll_kept | with_reducible apply State.setFtl_kept
    | with_reducible apply Kept.foldl | split

theorem State.reclaimJournal_kept {r s : State} (h : Kept r s) (a1 : Reclaim) : Kept r
    (State.reclaimJournal s a1) := by
  unfold State.reclaimJournal
  repeat' first
    | with_reducible exact h | with_reducible apply State.modReclaim_kept
    | with_reducible apply State.journalAll_kept | with_reducible apply Kept.ite

theorem State.reclaimCopy_kept {r s : State} (h : Kept r s) (a1 : Reclaim) : Kept r (State.reclaimCopy s a1) := by
  unfold State.reclaimCopy
  repeat' first
    | with_reducible exact h | with_reducible assumption | intro _ | with_reducible apply State.copyBlock_kept
    | with_reducible apply State.modReclaim_kept | with_reducible apply State.reclaimJournal_kept
    | with_reducible apply State.addPoll_kept | with_reducible apply Kept.ite | with_reducible apply Kept.foldl

/-! ### Link -/

theorem State.setRly_kept {r s : State} (h : Kept r s) (a1 : Rly) : Kept r (State.setRly s a1) := by
  unfold State.setRly
  repeat' first
    | with_reducible exact h | simp only [↓Kept.upd_iff]

theorem State.modRly_kept {r s : State} (h : Kept r s) (a1 : Nat) (a2 : RlyPort → RlyPort) : Kept r
    (State.modRly s a1 a2) := by
  unfold State.modRly
  repeat' first
    | with_reducible exact h | with_reducible apply State.setRly_kept

theorem State.countFrames_kept {r s : State} (h : Kept r s) (a1 : Nat) (a2 : Nat) (a3 : Nat) : Kept r
    (State.countFrames s a1 a2 a3) := by
  unfold State.countFrames
  repeat' first
    | with_reducible exact h | with_reducible apply State.modRly_kept | with_reducible apply Kept.ite
    | simp only | simp only [↓Kept.updDur_iff] | split

theorem State.sendLink_kept {r s : State} (h : Kept r s) (a1 : Nat) (a2 : Nat) (a3 : List Nat) (a4 : Bytes)
    : Kept r (State.sendLink s a1 a2 a3 a4) := by
  unfold State.sendLink
  repeat' first
    | with_reducible exact h | with_reducible apply State.emit_kept | with_reducible apply State.countFrames_kept
    | with_reducible apply State.setRly_kept

theorem State.sendOnRoute_kept {r s : State} (h : Kept r s) (a1 : Awaited) : Kept r (State.sendOnRoute s a1) := by
  unfold State.sendOnRoute
  repeat' first
    | with_reducible exact h | with_reducible apply State.emit_kept | with_reducible apply State.countFrames_kept
    | split

theorem State.sendRouted_kept {r s : State} (h : Kept r s) (a1 : Nat) (a2 : Nat) (a3 : List Nat)
    (a4 : optParam Bytes []) : Kept r (State.sendRouted s a1 a2 a3 a4) := by
  unfold State.sendRouted
  repeat' first
    | with_reducible exact h | with_reducible apply State.setRly_kept | with_reducible apply State.sendOnRoute_kept

theorem State.sendReply_kept {r s : State} (h : Kept r s) (a1 : Nat) (a2 : Nat) (a3 : List Nat) : Kept r
    (State.sendReply s a1 a2 a3) := by
  unfold State.sendReply
  repeat' first
    | with_reducible exact h | with_reducible apply State.sendRouted_kept

theorem State.settle_kept {r s : State} (h : Kept r s) (a1 : Awaited → Bool) : Kept r (State.settle s a1) := by
  unfold State.settle
  repeat' first
    | with_reducible exact h | with_reducible apply State.setRly_kept

theorem State.sendHello_kept {r s : State} (h : Kept r s) (a1 : Nat) (a2 : Bytes) : Kept r
    (State.sendHello s a1 a2) := by
  unfold State.sendHello
  repeat' first
    | with_reducible exact h | with_reducible apply State.sendLink_kept | with_reducible apply State.modRly_kept

theorem State.sendFieldKey_kept {r s : State} (h : Kept r s) (a1 : Nat) : Kept r (State.sendFieldKey s a1) := by
  unfold State.sendFieldKey
  repeat' first
    | with_reducible exact h | with_reducible apply State.sendLink_kept | split

theorem State.linkUpNow_kept {r s : State} (h : Kept r s) (a1 : Nat) (a2 : Bytes) : Kept r
    (State.linkUpNow s a1 a2) := by
  unfold State.linkUpNow
  repeat' first
    | with_reducible exact h | with_reducible apply State.modRly_kept | with_reducible apply State.sendFieldKey_kept
    | with_reducible apply State.ev_kept

theorem State.linkSigned_kept {r s : State} (h : Kept r s) (a1 : Nat) (a2 : Nat) (a3 : Bytes) : Kept r
    (State.linkSigned s a1 a2 a3) := by
  unfold State.linkSigned
  repeat' first
    | with_reducible exact h | with_reducible apply State.sendLink_kept | with_reducible apply State.linkUpNow_kept
    | with_reducible apply Kept.ite

theorem State.linkJob_kept {r s : State} (h : Kept r s) (a1 : Nat) (a2 : Nat) (a3 : Bytes) : Kept r
    (State.linkJob s a1 a2 a3) := by
  unfold State.linkJob
  repeat' first
    | with_reducible exact h | with_reducible apply State.setKst_kept

theorem State.startOffer_kept {r s : State} (h : Kept r s) (a1 : Nat) : Kept r (State.startOffer s a1) := by
  unfold State.startOffer
  repeat' first
    | with_reducible exact h | with_reducible apply State.setKst_kept | with_reducible apply State.linkJob_kept
    | with_reducible apply State.modRly_kept

theorem State.authFailed_kept {r s : State} (h : Kept r s) (a1 : Nat) : Kept r (State.authFailed s a1) := by
  unfold State.authFailed
  repeat' first
    | with_reducible exact h | with_reducible apply State.ev_kept | with_reducible apply State.modRly_kept

theorem State.tookFrame_kept {r s : State} (h : Kept r s) (a1 : Nat) : Kept r (State.tookFrame s a1) := by
  unfold State.tookFrame
  repeat' first
    | with_reducible exact h | with_reducible apply State.modRly_kept

theorem State.linkOffer_kept {r s : State} (h : Kept r s) (a1 : Nat) (a2 : LinkMsg) : Kept r
    (State.linkOffer s a1 a2) := by
  unfold State.linkOffer
  repeat' first
    | with_reducible exact h | with_reducible apply State.tookFrame_kept
    | with_reducible apply State.authFailed_kept | with_reducible apply State.drawBytes_kept
    | with_reducible apply State.modRly_kept | with_reducible apply State.linkJob_kept
    | with_reducible apply Kept.ite

theorem State.linkAnswer_kept {r s : State} (h : Kept r s) (a1 : Nat) (a2 : LinkMsg) : Kept r
    (State.linkAnswer s a1 a2) := by
  unfold State.linkAnswer
  repeat' first
    | with_reducible exact h | with_reducible apply State.tookFrame_kept
    | with_reducible apply State.authFailed_kept | with_reducible apply State.linkUpNow_kept
    | with_reducible apply Kept.ite

theorem State.linkDown_kept {r s : State} (h : Kept r s) (a1 : Nat) (a2 : Nat) : Kept r (State.linkDown s a1 a2) := by
  unfold State.linkDown
  repeat' first
    | with_reducible exact h | with_reducible apply State.modRly_kept | with_reducible apply State.setKst_kept
    | with_reducible apply State.ev_kept | with_reducible apply Kept.ite | simp only | split

theorem State.phyUp_kept {r s : State} (h : Kept r s) (a1 : Nat) (a2 : Bytes) : Kept r (State.phyUp s a1 a2) := by
  unfold State.phyUp
  repeat' first
    | with_reducible exact h | with_reducible apply State.modRly_kept | with_reducible apply State.sendHello_kept
    | with_reducible apply Kept.ite | simp only | split

theorem State.phyDown_kept {r s : State} (h : Kept r s) (a1 : Nat) : Kept r (State.phyDown s a1) := by
  unfold State.phyDown
  repeat' first
    | with_reducible exact h | with_reducible apply State.linkDown_kept | with_reducible apply State.modRly_kept
    | with_reducible apply Kept.ite

theorem State.linkSilent_kept {r s : State} (h : Kept r s) (a1 : Nat) : Kept r (State.linkSilent s a1) := by
  unfold State.linkSilent
  repeat' first
    | with_reducible exact h | with_reducible apply State.linkDown_kept | with_reducible apply Kept.ite

theorem State.helloRepeat_kept {r s : State} (h : Kept r s) (a1 : Nat) : Kept r (State.helloRepeat s a1) := by
  unfold State.helloRepeat
  repeat' first
    | with_reducible exact h | with_reducible apply State.sendHello_kept | with_reducible apply Kept.ite

theorem State.frameDiscard_kept {r s : State} (h : Kept r s) (a1 : Nat) (a2 : FrameDrop) : Kept r
    (State.frameDiscard s a1 a2) := by
  unfold State.frameDiscard
  repeat' first
    | with_reducible exact h | with_reducible apply State.modRly_kept | with_reducible apply State.ev_kept
    | with_reducible apply Kept.ite | simp only | split

/-! ### Wbf -/

theorem State.addEntry_kept {r s : State} (h : Kept r s) (a1 : Nat) (a2 : Entry) : Kept r
    (State.addEntry s a1 a2) := by
  unfold State.addEntry
  repeat' first
    | with_reducible exact h | with_reducible apply State.modSlice_kept | with_reducible apply State.freshWords_kept

theorem State.logRanges_kept {r s : State} (h : Kept r s) (a1 : Nat) (a2 : List LogRange) : Kept r
    (State.logRanges s a1 a2) := by
  unfold State.logRanges
  repeat' first
    | with_reducible exact h | with_reducible apply State.modSlice_kept | with_reducible apply State.ev_kept
    | with_reducible apply Kept.ite

theorem State.sendPair_kept {r s : State} (h : Kept r s) (a1 : Nat) (a2 : Nat) (a3 : Stamp) (a4 : List LogRange)
    (a5 : Bytes) (a6 : Option CmdId) : Kept r (State.sendPair s a1 a2 a3 a4 a5 a6) := by
  unfold State.sendPair
  repeat' first
    | with_reducible exact h | with_reducible apply State.modSlice_kept | with_reducible apply State.sendRouted_kept

theorem State.pairedVisible_kept {r s : State} (h : Kept r s) (a1 : Nat) (a2 : Entry) (a3 : CmdId) : Kept r
    (State.pairedVisible s a1 a2 a3) := by
  unfold State.pairedVisible
  repeat' first
    | with_reducible exact h | with_reducible apply State.sendPair_kept | with_reducible apply State.logRanges_kept
    | with_reducible apply State.ev_kept | with_reducible apply State.finish_kept | simp only
    | split

theorem State.mirrorEntry_kept {r s : State} (h : Kept r s) (a1 : Nat) (a2 : Entry) : Kept r
    (State.mirrorEntry s a1 a2) := by
  unfold State.mirrorEntry
  repeat' first
    | with_reducible exact h | with_reducible apply State.pairedVisible_kept
    | with_reducible apply State.modSlice_kept | with_reducible apply Kept.ite | simp only | split

theorem State.mirrorSlice_kept {r s : State} (h : Kept r s) (a1 : Nat) : Kept r (State.mirrorSlice s a1) := by
  unfold State.mirrorSlice
  repeat' first
    | with_reducible exact h | with_reducible assumption | intro _ | with_reducible apply State.mirrorEntry_kept
    | with_reducible apply Kept.foldl

theorem State.ackEntry_kept {r s : State} (h : Kept r s) (a1 : Nat) (a2 : Entry) : Kept r
    (State.ackEntry s a1 a2) := by
  unfold State.ackEntry
  repeat' first
    | with_reducible exact h | with_reducible apply State.modSlice_kept | with_reducible apply State.sendReply_kept
    | simp only | split

theorem State.visibleDone_kept {r s : State} (h : Kept r s) (a1 : Nat) (a2 : Entry) : Kept r
    (State.visibleDone s a1 a2) := by
  unfold State.visibleDone
  repeat' first
    | with_reducible exact h | with_reducible apply State.ackEntry_kept | with_reducible apply State.finishNow_kept
    | with_reducible apply State.modAdm_kept | with_reducible apply Kept.ite | simp only | split

theorem State.makeVisible_kept {r s : State} (h : Kept r s) (a1 : Nat) (a2 : Nat) : Kept r
    (State.makeVisible s a1 a2) := by
  unfold State.makeVisible
  repeat' first
    | with_reducible exact h | with_reducible apply State.modSlice_kept

theorem State.entryVisible_kept {r s : State} (h : Kept r s) (a1 : Nat) (a2 : Entry) : Kept r
    (State.entryVisible s a1 a2) := by
  unfold State.entryVisible
  repeat' first
    | with_reducible exact h | with_reducible apply State.visibleDone_kept
    | with_reducible apply State.makeVisible_kept | with_reducible apply Kept.ite

theorem State.visibleTick_kept {r s : State} (h : Kept r s) : Kept r (State.visibleTick s) := by
  unfold State.visibleTick
  repeat' first
    | with_reducible exact h | with_reducible assumption | intro _ | with_reducible apply State.mirrorSlice_kept
    | with_reducible apply State.entryVisible_kept | with_reducible apply Kept.foldl

theorem State.releaseTick_kept {r s : State} (h : Kept r s) : Kept r (State.releaseTick s) := by
  unfold State.releaseTick
  repeat' first
    | with_reducible exact h | simp only [↓Kept.upd_iff]

theorem State.fillReserve_kept {r s : State} (h : Kept r s) (a1 : Nat) (a2 : Nat) : Kept r
    (State.fillReserve s a1 a2) := by
  induction a2 generalizing s with
  | zero => exact h
  | succ k ih =>
    unfold State.fillReserve
    split
    · exact h
    · split
      · exact h
      · exact ih (State.modBlk_kept h _ _)

theorem State.fillReserves_kept {r s : State} (h : Kept r s) : Kept r (State.fillReserves s) := by
  unfold State.fillReserves
  repeat' first
    | with_reducible exact h | with_reducible assumption | intro _ | with_reducible apply State.fillReserve_kept
    | with_reducible apply Kept.foldl

theorem State.armHoldup_kept {r s : State} (h : Kept r s) : Kept r (State.armHoldup s) := by
  unfold State.armHoldup
  repeat' first
    | with_reducible exact h | with_reducible apply State.ev_kept | simp only [↓Kept.upd_iff]

theorem State.disarmHoldup_kept {r s : State} (h : Kept r s) : Kept r (State.disarmHoldup s) := by
  unfold State.disarmHoldup
  repeat' first
    | with_reducible exact h | with_reducible apply State.ev_kept | simp only [↓Kept.upd_iff]

theorem State.holdupTick_kept {r s : State} (h : Kept r s) : Kept r (State.holdupTick s) := by
  unfold State.holdupTick
  repeat' first
    | with_reducible exact h | with_reducible apply State.disarmHoldup_kept
    | with_reducible apply State.armHoldup_kept | with_reducible apply Kept.ite | simp only [↓Kept.upd_iff]

theorem State.drainTick_kept {r s : State} (h : Kept r s) : Kept r (State.drainTick s) := by
  unfold State.drainTick
  repeat' first
    | with_reducible exact h | with_reducible apply Kept.ite | simp only [↓Kept.upd_iff]

theorem State.latchFail_kept {r s : State} (h : Kept r s) : Kept r (State.latchFail s) := by
  unfold State.latchFail
  repeat' first
    | with_reducible exact h | simp only [↓Kept.upd_iff]

theorem State.powerFailTick_kept {r s : State} (h : Kept r s) : Kept r (State.powerFailTick s) := by
  unfold State.powerFailTick
  repeat' first
    | with_reducible exact h | with_reducible assumption | intro _ | with_reducible apply State.squash_kept
    | with_reducible apply State.abandonPrep_kept | with_reducible apply State.ev_kept
    | with_reducible apply State.setPin_kept | with_reducible apply Kept.ite | with_reducible apply Kept.foldl
    | simp only [↓Kept.upd_iff] | simp only [↓Kept.updDur_iff] | split

theorem State.saveReserve_kept {r s : State} (h : Kept r s) (a1 : Bool) : Kept r (State.saveReserve s a1) := by
  unfold State.saveReserve
  repeat' first
    | with_reducible exact h | simp only | simp only [↓Kept.updDur_iff]

theorem State.flushEnd_kept {r s : State} (h : Kept r s) : Kept r (State.flushEnd s) := by
  unfold State.flushEnd
  repeat' first
    | with_reducible exact h | with_reducible apply State.saveReserve_kept | with_reducible apply State.ev_kept
    | with_reducible apply State.setPin_kept | with_reducible apply Kept.ite | simp only [↓Kept.upd_iff]

/-! ### Io -/

theorem State.cmbLost_kept {r s : State} (h : Kept r s) (a1 : CmdId) (a2 : List (Nat × Nat)) : Kept r
    (State.cmbLost s a1 a2) := State.failCmd_kept (State.readCmb_kept h _ _) _ _

theorem State.readEntries_kept {r s : State} (h : Kept r s) (a1 a2 : Nat) (a3 : Stamp) (a4 : List Nat) : Kept r
    (State.readEntries s a1 a2 a3 a4) := by
  unfold State.readEntries
  refine Kept.foldl h (fun s x h => ?_)
  split
  · exact State.readWords_kept h _
  · exact h

theorem State.arrive_kept {r s : State} (h : Kept r s) (a1 : CmdId) (a2 : List (Nat × Nat)) (a3 : State → State)
    (h3 : ∀ (x0 : State), Kept r x0 → Kept r (a3 x0)) : Kept r (State.arrive s a1 a2 a3) := by
  unfold State.arrive
  repeat' first
    | with_reducible apply State.cmbLost_kept
    | with_reducible exact h | with_reducible apply h3 | with_reducible apply State.moveData_kept
    | with_reducible apply Kept.ite

theorem State.unitsWritten_kept {r s : State} (h : Kept r s) (a1 : Nat) (a2 : Nat) : Kept r
    (State.unitsWritten s a1 a2) := by
  unfold State.unitsWritten
  repeat' first
    | with_reducible exact h | with_reducible apply State.modSlice_kept

theorem State.unitsRead_kept {r s : State} (h : Kept r s) (a1 : Nat) (a2 : Nat) : Kept r
    (State.unitsRead s a1 a2) := by
  unfold State.unitsRead
  repeat' first
    | with_reducible exact h | with_reducible apply State.modSlice_kept

theorem State.onIo_kept {r s : State} (h : Kept r s) (a1 : CmdId) (a2 : Nat) (a3 : Adm → Ns → State)
    (h3 : ∀ (x0 : Adm) (x1 : Ns), Kept r (a3 x0 x1)) : Kept r (State.onIo s a1 a2 a3) := by
  unfold State.onIo
  repeat' first
    | with_reducible exact h | with_reducible apply h3 | with_reducible apply Kept.ite | split

theorem State.ioWrite_kept {r s : State} (h : Kept r s) (a1 : CmdId) (a2 : List BlockData) : Kept r
    (State.ioWrite s a1 a2) := by
  unfold State.ioWrite
  repeat' first
    | with_reducible exact h | with_reducible assumption | intro _ | with_reducible apply State.onIo_kept
    | with_reducible apply State.arrive_kept | with_reducible apply State.failCmd_kept
    | with_reducible apply State.unitsWritten_kept | with_reducible apply State.addEntry_kept | split

theorem State.ioWriteZeroes_kept {r s : State} (h : Kept r s) (a1 : CmdId) : Kept r (State.ioWriteZeroes s a1) := by
  unfold State.ioWriteZeroes
  repeat' first
    | with_reducible exact h | intro _ | with_reducible apply State.onIo_kept
    | with_reducible apply State.addEntry_kept

theorem State.deallocate_kept {r s : State} (h : Kept r s) (a1 : CmdId) (a2 : Adm) (a3 : List LbaRange) : Kept r
    (State.deallocate s a1 a2 a3) := by
  induction a3 generalizing s with
  | nil => exact h
  | cons p t ih =>
    unfold State.deallocate
    dsimp only
    refine ih ?_
    split
    · exact h
    · exact State.addEntry_kept h _ _

theorem State.ioDataset_kept {r s : State} (h : Kept r s) (a1 : CmdId) (a2 : List LbaRange) : Kept r
    (State.ioDataset s a1 a2) := by
  unfold State.ioDataset
  repeat' first
    | with_reducible exact h | intro _ | with_reducible apply State.onIo_kept
    | with_reducible apply State.finish_kept | with_reducible apply State.deallocate_kept
    | with_reducible apply Kept.ite

theorem State.ioFlush_kept {r s : State} (h : Kept r s) (a1 : CmdId) : Kept r (State.ioFlush s a1) := by
  unfold State.ioFlush
  repeat' first
    | with_reducible exact h | with_reducible apply State.finish_kept | with_reducible apply Kept.ite | split

theorem State.issueReads_kept {r s : State} (h : Kept r s) (a1 : CmdId) (a2 : List Nat) : Kept r
    (State.issueReads s a1 a2) := by
  induction a2 generalizing s with
  | nil => exact h
  | cons a t ih => exact ih (State.setFtl_kept h _)

theorem State.readEnd_kept {r s : State} (h : Kept r s) (a1 : CmdId) (a2 : Adm) (a3 : Ns) : Kept r
    (State.readEnd s a1 a2 a3) := by
  unfold State.readEnd
  repeat' first
    | with_reducible exact h | with_reducible apply State.finish_kept | with_reducible apply State.unitsRead_kept
    | with_reducible apply State.respond_kept | with_reducible apply Kept.ite | simp only | split

theorem State.readBegin_kept {r s : State} (h : Kept r s) (a1 : CmdId) (a2 : Adm) (a3 : Ns)
    (a4 : List BlockData → Except Status (List BlockData)) : Kept r (State.readBegin s a1 a2 a3 a4) := by
  unfold State.readBegin
  repeat' first
    | with_reducible apply State.readEntries_kept
    | with_reducible exact h | with_reducible apply State.ev_kept | with_reducible apply State.failCmd_kept
    | with_reducible apply State.modAdm_kept | with_reducible apply State.issueReads_kept
    | with_reducible apply State.readEnd_kept | with_reducible apply Kept.ite

theorem State.ioRead_kept {r s : State} (h : Kept r s) (a1 : CmdId) : Kept r (State.ioRead s a1) := by
  unfold State.ioRead
  repeat' first
    | with_reducible exact h | intro _ | with_reducible apply State.onIo_kept
    | with_reducible apply State.readBegin_kept | with_reducible apply Kept.ite

theorem State.ioVerify_kept {r s : State} (h : Kept r s) (a1 : CmdId) : Kept r (State.ioVerify s a1) := by
  unfold State.ioVerify
  repeat' first
    | with_reducible exact h | intro _ | with_reducible apply State.onIo_kept
    | with_reducible apply State.readBegin_kept | with_reducible apply Kept.ite

theorem State.ioCompare_kept {r s : State} (h : Kept r s) (a1 : CmdId) (a2 : List BlockData) : Kept r
    (State.ioCompare s a1 a2) := by
  unfold State.ioCompare
  repeat' first
    | with_reducible exact h | with_reducible assumption | intro _ | with_reducible apply State.onIo_kept
    | with_reducible apply State.arrive_kept | with_reducible apply State.readBegin_kept
    | with_reducible apply Kept.ite

theorem State.hostReadDone_kept {r s : State} (h : Kept r s) (a1 : CmdId) (a2 : Bool) : Kept r
    (State.hostReadDone s a1 a2) := by
  unfold State.hostReadDone
  repeat' first
    | with_reducible exact h | with_reducible apply State.modAdm_kept | with_reducible apply State.readEnd_kept
    | with_reducible apply State.finish_kept | with_reducible apply Kept.ite | simp only | split

theorem State.setResv_kept {r s : State} (h : Kept r s) (a1 : CmdId) (a2 : Nat) (a3 : Resv) : Kept r
    (State.setResv s a1 a2 a3) := by
  unfold State.setResv
  repeat' first
    | with_reducible exact h | with_reducible apply State.modSlice_kept

theorem State.resvRegister_kept {r s : State} (h : Kept r s) (a1 : CmdId) (a2 : ResvKeys) : Kept r
    (State.resvRegister s a1 a2) := by
  unfold State.resvRegister
  repeat' first
    | with_reducible exact h | intro _ | with_reducible apply State.onIo_kept
    | with_reducible apply State.finish_kept | with_reducible apply State.setResv_kept
    | with_reducible apply Kept.ite | simp only | split

theorem State.resvAcquire_kept {r s : State} (h : Kept r s) (a1 : CmdId) (a2 : ResvKeys) : Kept r
    (State.resvAcquire s a1 a2) := by
  unfold State.resvAcquire
  repeat' first
    | with_reducible exact h | intro _ | with_reducible apply State.onIo_kept
    | with_reducible apply State.finish_kept | with_reducible apply State.setResv_kept
    | with_reducible apply Kept.ite

theorem State.resvRelease_kept {r s : State} (h : Kept r s) (a1 : CmdId) (a2 : ResvKeys) : Kept r
    (State.resvRelease s a1 a2) := by
  unfold State.resvRelease
  repeat' first
    | with_reducible exact h | intro _ | with_reducible apply State.onIo_kept
    | with_reducible apply State.finish_kept | with_reducible apply State.setResv_kept
    | with_reducible apply Kept.ite

theorem State.resvReport_kept {r s : State} (h : Kept r s) (a1 : CmdId) : Kept r (State.resvReport s a1) := by
  unfold State.resvReport
  repeat' first
    | with_reducible exact h | intro _ | with_reducible apply State.onIo_kept
    | with_reducible apply State.respond_kept

theorem State.postArrive_kept {r s : State} (h : Kept r s) (a1 : CmdId) (a2 : Adm) (a3 : Ns) (a4 : List LbaRange)
    (a5 : Bytes) : Kept r (State.postArrive s a1 a2 a3 a4 a5) := by
  unfold State.postArrive
  repeat' first
    | with_reducible exact h | with_reducible apply State.failCmd_kept
    | with_reducible apply State.unitsWritten_kept | with_reducible apply State.addEntry_kept
    | simp only | split

theorem State.postList_kept {r s : State} (h : Kept r s) (a1 : CmdId) (a2 : Adm) (a3 : Ns) (a4 : Bytes)
    (a5 : State → List LbaRange → State) (h5 : ∀ (x0 : State) (x1 : List LbaRange), Kept r x0 → Kept r (a5 x0 x1))
    : Kept r (State.postList s a1 a2 a3 a4 a5) := by
  unfold State.postList
  repeat' first
    | with_reducible exact h | with_reducible apply h5 | with_reducible apply State.failCmd_kept
    | with_reducible apply State.modAdm_kept | simp only | split

theorem State.ioPost_kept {r s : State} (h : Kept r s) (a1 : CmdId) : Kept r (State.ioPost s a1) := by
  unfold State.ioPost
  repeat' first
    | with_reducible apply State.cmbLost_kept
    | with_reducible exact h | with_reducible assumption | intro _ | with_reducible apply State.onIo_kept
    | with_reducible apply State.postList_kept | with_reducible apply State.arrive_kept
    | with_reducible apply State.postArrive_kept | with_reducible apply Kept.ite

theorem State.ioPostList_kept {r s : State} (h : Kept r s) (a1 : CmdId) (a2 : Fetch) (a3 : List BlockData)
    : Kept r (State.ioPostList s a1 a2 a3) := by
  unfold State.ioPostList
  repeat' first
    | with_reducible apply State.cmbLost_kept
    | with_reducible exact h | with_reducible assumption | intro _ | with_reducible apply State.onIo_kept
    | with_reducible apply State.ev_kept | with_reducible apply State.failCmd_kept
    | with_reducible apply State.postList_kept | with_reducible apply State.arrive_kept
    | with_reducible apply State.postArrive_kept | simp only | split

theorem State.partialWrite_kept {r s : State} (h : Kept r s) (a1 : Nat) (a2 : List (Nat × Nat)) : Kept r
    (State.partialWrite s a1 a2) := by
  unfold State.partialWrite
  refine Kept.foldl h (fun s r h => ?_)
  split
  · exact Kept.upd (State.cmbPut_kept h _ _)
  · exact State.emit_kept h _

theorem State.dataError_kept {r s : State} (h : Kept r s) (a1 : CmdId) : Kept r (State.dataError s a1) := by
  unfold State.dataError
  repeat' first
    | with_reducible exact h | with_reducible apply State.ev_kept | with_reducible apply State.failCmd_kept
    | with_reducible apply State.partialWrite_kept | split

/-! ### Host -/

theorem State.onAdmin_kept {r s : State} (h : Kept r s) (a1 : CmdId) (a2 : Nat) (a3 : Adm → State)
    (h3 : ∀ (x0 : Adm), Kept r (a3 x0)) : Kept r (State.onAdmin s a1 a2 a3) := by
  unfold State.onAdmin
  repeat' first
    | with_reducible exact h | with_reducible apply h3 | with_reducible apply Kept.ite | split

theorem State.createSq_kept {r s : State} (h : Kept r s) (a1 : CmdId) : Kept r (State.createSq s a1) := by
  unfold State.createSq
  repeat' first
    | with_reducible exact h | intro _ | with_reducible apply State.onAdmin_kept
    | with_reducible apply State.finish_kept | with_reducible apply State.modSlice_kept
    | with_reducible apply Kept.ite

theorem State.createCq_kept {r s : State} (h : Kept r s) (a1 : CmdId) : Kept r (State.createCq s a1) := by
  unfold State.createCq
  repeat' first
    | with_reducible exact h | intro _ | with_reducible apply State.onAdmin_kept
    | with_reducible apply State.finish_kept | with_reducible apply State.modSlice_kept
    | with_reducible apply Kept.ite

theorem State.deleteSq_kept {r s : State} (h : Kept r s) (a1 : CmdId) : Kept r (State.deleteSq s a1) := by
  unfold State.deleteSq
  repeat' first
    | with_reducible exact h | intro _ | with_reducible apply State.onAdmin_kept
    | with_reducible apply State.finish_kept | with_reducible apply State.modSlice_kept
    | with_reducible apply Kept.ite | simp only | split

theorem State.deleteCq_kept {r s : State} (h : Kept r s) (a1 : CmdId) : Kept r (State.deleteCq s a1) := by
  unfold State.deleteCq
  repeat' first
    | with_reducible exact h | intro _ | with_reducible apply State.onAdmin_kept
    | with_reducible apply State.finish_kept | with_reducible apply State.modSlice_kept
    | with_reducible apply Kept.ite

theorem State.setFeatures_kept {r s : State} (h : Kept r s) (a1 : CmdId) : Kept r (State.setFeatures s a1) := by
  unfold State.setFeatures
  repeat' first
    | with_reducible exact h | intro _ | with_reducible apply State.onAdmin_kept
    | with_reducible apply State.finish_kept | with_reducible apply State.modSlice_kept
    | with_reducible apply State.wakeEvent_kept | with_reducible apply Kept.ite | simp only | split

theorem State.getFeatures_kept {r s : State} (h : Kept r s) (a1 : CmdId) : Kept r (State.getFeatures s a1) := by
  unfold State.getFeatures
  repeat' first
    | with_reducible exact h | intro _ | with_reducible apply State.onAdmin_kept
    | with_reducible apply State.finish_kept | split

theorem State.identify_kept {r s : State} (h : Kept r s) (a1 : CmdId) : Kept r (State.identify s a1) := by
  unfold State.identify
  repeat' first
    | with_reducible exact h | intro _ | with_reducible apply State.onAdmin_kept
    | with_reducible apply State.respond_kept | with_reducible apply State.finish_kept
    | with_reducible apply Kept.ite | simp only | split

theorem State.getLog_kept {r s : State} (h : Kept r s) (a1 : CmdId) : Kept r (State.getLog s a1) := by
  unfold State.getLog
  repeat' first
    | with_reducible exact h | intro _ | with_reducible apply State.onAdmin_kept
    | with_reducible apply State.respond_kept | with_reducible apply State.finish_kept
    | with_reducible apply Kept.ite | simp only [↓Kept.upd_iff]

theorem State.takeAbort_kept {r s : State} (h : Kept r s) (a1 : CmdId) : Kept r (State.takeAbort s a1) := by
  unfold State.takeAbort
  repeat' first
    | with_reducible exact h | intro _ | with_reducible apply State.onAdmin_kept
    | with_reducible apply State.finish_kept | with_reducible apply State.modSlice_kept
    | with_reducible apply State.modAdm_kept | with_reducible apply Kept.ite

theorem State.takeAer_kept {r s : State} (h : Kept r s) (a1 : CmdId) : Kept r (State.takeAer s a1) := by
  unfold State.takeAer
  repeat' first
    | with_reducible exact h | intro _ | with_reducible apply State.onAdmin_kept
    | with_reducible apply State.finish_kept | with_reducible apply State.deliverAsync_kept
    | with_reducible apply State.modSlice_kept | with_reducible apply Kept.ite

theorem State.trimJournal_kept {r s : State} (h : Kept r s) (a1 : List JEnt) : Kept r (State.trimJournal s a1) := by
  unfold State.trimJournal
  repeat' first
    | with_reducible exact h | with_reducible apply State.journalAll_kept | with_reducible apply Kept.ite

theorem State.trimNs_kept {r s : State} (h : Kept r s) (a1 : Ns) : Kept r (State.trimNs s a1) := by
  unfold State.trimNs
  repeat' first
    | with_reducible exact h | with_reducible assumption | intro _ | with_reducible apply State.applyEnt_kept
    | with_reducible apply State.trimJournal_kept | with_reducible apply Kept.foldl

theorem State.dropNsEntries_kept {r s : State} (h : Kept r s) (a1 : Nat) (a2 : Nat) (a3 : Stamp) : Kept r
    (State.dropNsEntries s a1 a2 a3) := by
  unfold State.dropNsEntries
  repeat' first
    | with_reducible exact h | with_reducible apply State.modSlice_kept

theorem State.trimBegin_kept {r s : State} (h : Kept r s) (a1 : CmdId) (a2 : List Nat) (a3 : State → State)
    (h3 : ∀ (x0 : State), Kept r x0 → Kept r (a3 x0)) : Kept r (State.trimBegin s a1 a2 a3) := by
  unfold State.trimBegin
  repeat' first
    | with_reducible exact h | with_reducible apply h3 | with_reducible apply State.trimJournal_kept
    | with_reducible apply State.modAdm_kept | with_reducible apply Kept.ite

theorem State.createNs_kept {r s : State} (h : Kept r s) (a1 : CmdId) (a2 : NsCreate) : Kept r
    (State.createNs s a1 a2) := by
  have k : ∀ u i, Kept r ((s.modSlice a1.slice (fun x => { x with
      nss := tset x.nss (i + 1) { nsze := a2.nsze, lbaf := a2.lbaf, dps := a2.dps, firstUnit := u } })).finish
        a1 .success (BitVec.ofNat 32 (i + 1))) := fun u i => State.finish_kept (State.modSlice_kept h _ _) _ _ _ _
  have f : ∀ st, Kept r (s.finish a1 st) := fun st => State.finish_kept h _ _ _ _
  unfold State.createNs
  extract_lets x type ns
  split
  · exact f _
  · split
    · exact f _
    · split
      · exact f _
      · split
        · exact f _
        · exact f _
        · exact k _ _

theorem State.deleteNs_kept {r s : State} (h : Kept r s) (a1 : Nat) (a2 : Stamp) (a3 : Nat) : Kept r
    (State.deleteNs s a1 a2 a3) := by
  unfold State.deleteNs
  repeat' first
    | with_reducible exact h | with_reducible apply State.modSlice_kept
    | with_reducible apply State.dropNsEntries_kept

theorem State.deleteEnd_kept {r s : State} (h : Kept r s) (a1 : CmdId) (a2 : Adm) : Kept r
    (State.deleteEnd s a1 a2) := by
  unfold State.deleteEnd
  repeat' first
    | with_reducible exact h | with_reducible assumption | intro _ | with_reducible apply State.finish_kept
    | with_reducible apply State.deleteNs_kept | with_reducible apply Kept.foldl

theorem State.manageNs_kept {r s : State} (h : Kept r s) (a1 : CmdId) (a2 : NsCreate) : Kept r
    (State.manageNs s a1 a2) := by
  unfold State.manageNs
  repeat' first
    | with_reducible exact h | with_reducible assumption | intro _ | with_reducible apply State.onAdmin_kept
    | with_reducible apply State.createNs_kept | with_reducible apply State.finish_kept
    | with_reducible apply State.trimBegin_kept | with_reducible apply State.deleteEnd_kept
    | with_reducible apply Kept.ite

theorem State.attachNs_kept {r s : State} (h : Kept r s) (a1 : CmdId) (a2 : List Nat) : Kept r
    (State.attachNs s a1 a2) := by
  unfold State.attachNs
  repeat' first
    | with_reducible exact h | intro _ | with_reducible apply State.onAdmin_kept
    | with_reducible apply State.finish_kept | with_reducible apply State.modSlice_kept
    | with_reducible apply Kept.ite | simp only | split

theorem State.formatNs_kept {r s : State} (h : Kept r s) (a1 : Nat) (a2 : Stamp) (a3 : Nat) (a4 : Nat) (a5 : Nat)
    : Kept r (State.formatNs s a1 a2 a3 a4 a5) := by
  unfold State.formatNs
  repeat' first
    | with_reducible exact h | with_reducible apply State.modSlice_kept
    | with_reducible apply State.dropNsEntries_kept | simp only | split

theorem State.formatEnd_kept {r s : State} (h : Kept r s) (a1 : CmdId) (a2 : Adm) : Kept r
    (State.formatEnd s a1 a2) := by
  unfold State.formatEnd
  repeat' first
    | with_reducible exact h | with_reducible assumption | intro _ | with_reducible apply State.finish_kept
    | with_reducible apply State.formatNs_kept | with_reducible apply Kept.foldl

theorem State.format_kept {r s : State} (h : Kept r s) (a1 : CmdId) : Kept r (State.format s a1) := by
  unfold State.format
  repeat' first
    | with_reducible exact h | with_reducible assumption | intro _ | with_reducible apply State.onAdmin_kept
    | with_reducible apply State.finish_kept | with_reducible apply State.trimBegin_kept
    | with_reducible apply State.formatEnd_kept | with_reducible apply Kept.ite

theorem State.hostBus_kept {r s : State} (h : Kept r s) (a1 : Nat) : Kept r (State.hostBus s a1) := by
  unfold State.hostBus
  repeat' first
    | with_reducible exact h | with_reducible apply State.modSlice_kept | with_reducible apply Kept.ite

/-! ### FtlCmd -/

theorem State.ftlCommand_kept {r s : State} (h : Kept r s) (a1 : Requester) (a2 : State → State)
    (h2 : ∀ (x0 : State), Kept r x0 → Kept r (a2 x0)) : Kept r (State.ftlCommand s a1 a2) := by
  unfold State.ftlCommand
  repeat' first
    | with_reducible exact h | with_reducible assumption | intro _ | with_reducible apply h2
    | with_reducible apply State.bar0Write_kept | with_reducible apply State.setFtl_kept
    | with_reducible apply Kept.ite

theorem State.ckptBegin_kept {r s : State} (h : Kept r s) : Kept r (State.ckptBegin s) := by
  unfold State.ckptBegin
  repeat' first
    | with_reducible exact h | with_reducible apply State.startCkpt_kept | with_reducible apply State.setFtl_kept

theorem State.cmdCheckpoint_kept {r s : State} (h : Kept r s) (a1 : Requester) : Kept r
    (State.cmdCheckpoint s a1) := by
  unfold State.cmdCheckpoint
  repeat' first
    | with_reducible exact h | with_reducible assumption | intro _ | with_reducible apply State.ftlCommand_kept
    | with_reducible apply State.ckptBegin_kept | with_reducible apply State.setFtl_kept

theorem State.cmdDumpLoss_kept {r s : State} (h : Kept r s) (a1 : Requester) (a2 : Bool) : Kept r
    (State.cmdDumpLoss s a1 a2) := by
  unfold State.cmdDumpLoss
  repeat' first
    | with_reducible exact h | with_reducible assumption | intro _ | with_reducible apply State.ftlCommand_kept
    | with_reducible apply State.setFtl_kept | with_reducible apply State.emit_kept | with_reducible apply Kept.ite

theorem State.cmdAddUnpowered_kept {r s : State} (h : Kept r s) (a1 : Requester) : Kept r
    (State.cmdAddUnpowered s a1) := by
  unfold State.cmdAddUnpowered
  repeat' first
    | with_reducible exact h | with_reducible assumption | intro _ | with_reducible apply State.ftlCommand_kept
    | with_reducible apply State.setFtl_kept

theorem State.cmdClearLoss_kept {r s : State} (h : Kept r s) (a1 : Requester) : Kept r (State.cmdClearLoss s a1) := by
  unfold State.cmdClearLoss
  repeat' first
    | with_reducible exact h | with_reducible assumption | intro _ | with_reducible apply State.ftlCommand_kept
    | simp only [↓Kept.upd_iff]

theorem State.checkpointStart_kept {r s : State} (h : Kept r s) (a1 : CkptCause) : Kept r
    (State.checkpointStart s a1) := by
  unfold State.checkpointStart
  repeat' first
    | with_reducible exact h | with_reducible apply State.startCkpt_kept | with_reducible apply Kept.ite

theorem State.checkpointComplete_kept {r s : State} (h : Kept r s) : Kept r (State.checkpointComplete s) := by
  unfold State.checkpointComplete
  repeat' first
    | with_reducible exact h | with_reducible apply State.journal_kept
    | with_reducible apply State.recordDurable_kept | with_reducible apply Kept.ite | simp only
    | split

theorem State.gcVictimStart_kept {r s : State} (h : Kept r s) (a1 : Nat) : Kept r (State.gcVictimStart s a1) := by
  unfold State.gcVictimStart
  repeat' first
    | with_reducible exact h | with_reducible apply State.modDie_kept | with_reducible apply State.reclaimBegin_kept
    | with_reducible apply Kept.ite | split

theorem State.gcErase_kept {r s : State} (h : Kept r s) (a1 : Nat) : Kept r (State.gcErase s a1) := by
  unfold State.gcErase
  repeat' first
    | with_reducible exact h | with_reducible apply State.dropReclaim_kept | with_reducible apply State.addPoll_kept
    | with_reducible apply State.modBlk_kept | with_reducible apply Kept.ite | split

theorem State.refreshStart_kept {r s : State} (h : Kept r s) (a1 : Nat) : Kept r (State.refreshStart s a1) := by
  unfold State.refreshStart
  repeat' first
    | with_reducible exact h | with_reducible apply State.reclaimBegin_kept | with_reducible apply State.modDie_kept
    | with_reducible apply State.setFtl_kept | with_reducible apply Kept.ite

theorem State.demoteBackground_kept {r s : State} (h : Kept r s) : Kept r (State.demoteBackground s) := by
  unfold State.demoteBackground
  repeat' first
    | with_reducible exact h | with_reducible apply State.demoteBegin_kept | with_reducible apply Kept.ite | split

theorem State.stageRead_kept {r s : State} (h : Kept r s) (a1 : PollKind) : Kept r (State.stageRead s a1) := by
  unfold State.stageRead
  repeat' first
    | with_reducible exact h | with_reducible apply State.modAdm_kept | split

theorem State.channelUnits_kept {r s : State} (h : Kept r s) (a1 : Nat) : Kept r (State.channelUnits s a1) := by
  unfold State.channelUnits
  repeat' first
    | with_reducible exact h | with_reducible apply State.setFtl_kept | with_reducible apply State.stageRead_kept
    | simp only | split

theorem State.dropDead_kept {r s : State} (h : Kept r s) : Kept r (State.dropDead s) := by
  unfold State.dropDead
  repeat' first
    | with_reducible exact h | with_reducible apply State.setFtl_kept

theorem State.issueTick_kept {r s : State} (h : Kept r s) : Kept r (State.issueTick s) := by
  unfold State.issueTick
  repeat' first
    | with_reducible exact h | with_reducible assumption | intro _ | with_reducible apply State.channelUnits_kept
    | with_reducible apply State.dropDead_kept | with_reducible apply Kept.ite | with_reducible apply Kept.foldl

theorem State.renewPoll_kept {r s : State} (h : Kept r s) (a1 : PollOp) (a2 : PollKind) (a3 : Nat) : Kept r
    (State.renewPoll s a1 a2 a3) := by
  unfold State.renewPoll
  repeat' first
    | with_reducible exact h | with_reducible apply State.setFtl_kept

theorem State.retryProgram_kept {r s : State} (h : Kept r s) (a1 : PollOp) (a2 : Nat) (a3 : Nat) (a4 : Nat)
    : Kept r (State.retryProgram s a1 a2 a3 a4) := by
  unfold State.retryProgram
  repeat' first
    | with_reducible exact h | with_reducible refine State.takeSlots_keptE ?_ _ _ _ ‹_›
    | with_reducible apply State.putSlots_kept | with_reducible apply State.renewPoll_kept
    | with_reducible apply State.setFtl_kept | simp only | split

theorem State.retargetCopy_kept {r s : State} (h : Kept r s) (a1 : PollOp) (a2 : Nat) (a3 : Nat) : Kept r
    (State.retargetCopy s a1 a2 a3) := by
  unfold State.retargetCopy
  repeat' first
    | with_reducible exact h | with_reducible assumption | intro _
    | with_reducible refine State.takeSlots_keptE ?_ _ _ _ ‹_› | with_reducible apply State.putSlots_kept
    | with_reducible apply State.modReclaim_kept | with_reducible apply State.ev_kept
    | with_reducible apply State.renewPoll_kept | with_reducible apply Kept.foldlFst | simp only
    | split

theorem State.retargetDemote_kept {r s : State} (h : Kept r s) (a1 : PollOp) (a2 : Nat) (a3 : Nat) : Kept r
    (State.retargetDemote s a1 a2 a3) := by
  unfold State.retargetDemote
  repeat' first
    | with_reducible exact h | with_reducible refine State.takeSlots_keptE ?_ _ _ _ ‹_›
    | with_reducible apply State.ev_kept | with_reducible apply State.renewPoll_kept
    | with_reducible apply State.modDemote_kept | with_reducible apply State.putSlots_kept | split

theorem State.retryPoll_kept {r s : State} (h : Kept r s) (a1 : Nat) (a2 : PollOp) : Kept r
    (State.retryPoll s a1 a2) := by
  unfold State.retryPoll
  repeat' first
    | with_reducible exact h | with_reducible apply State.retryProgram_kept
    | with_reducible apply State.retargetCopy_kept | with_reducible apply State.retargetDemote_kept
    | with_reducible apply Kept.ite | split

theorem State.retryBlock_kept {r s : State} (h : Kept r s) (a1 : Nat) : Kept r (State.retryBlock s a1) := by
  unfold State.retryBlock
  repeat' first
    | with_reducible exact h | with_reducible assumption | intro _ | with_reducible apply State.retryPoll_kept
    | with_reducible apply Kept.foldl

theorem State.evacEnd_kept {r s : State} (h : Kept r s) (a1 : Reclaim) : Kept r (State.evacEnd s a1) := by
  unfold State.evacEnd
  repeat' first
    | with_reducible exact h | with_reducible apply State.reclaimBegin_kept
    | with_reducible apply State.dropReclaim_kept | with_reducible apply State.retire_kept
    | with_reducible apply Kept.ite | split

theorem State.evacTick_kept {r s : State} (h : Kept r s) : Kept r (State.evacTick s) := by
  unfold State.evacTick
  repeat' first
    | with_reducible exact h | with_reducible assumption | intro _ | with_reducible apply State.evacEnd_kept
    | with_reducible apply Kept.foldl

theorem State.failBlock_kept {r s : State} (h : Kept r s) (a1 : Nat) (a2 : Nat) : Kept r
    (State.failBlock s a1 a2) := by
  unfold State.failBlock
  repeat' first
    | with_reducible exact h | with_reducible apply State.retryBlock_kept | with_reducible apply State.closeBlk_kept
    | with_reducible apply State.modReclaim_kept | with_reducible apply State.reclaimBegin_kept
    | with_reducible apply State.retire_kept | with_reducible apply Kept.ite | simp only | split

theorem State.dropPoll_kept {r s : State} (h : Kept r s) (a1 : Nat) : Kept r (State.dropPoll s a1) := by
  unfold State.dropPoll
  repeat' first
    | with_reducible exact h | with_reducible apply State.setFtl_kept

theorem State.mergeReadDone_kept {r s : State} (h : Kept r s) (a1 : Nat) (a2 : Nat) (a3 : Nat) (a4 : Nat)
    (a5 : Bool) : Kept r (State.mergeReadDone s a1 a2 a3 a4 a5) := by
  unfold State.mergeReadDone
  repeat' first
    | with_reducible exact h | with_reducible apply State.putJob_kept | split

theorem State.settleLost_kept {r s : State} (h : Kept r s) : Kept r (State.settleLost s) := by
  unfold State.settleLost
  repeat' first
    | with_reducible exact h | with_reducible assumption | intro _ | with_reducible apply State.hostReadDone_kept
    | with_reducible apply State.dropPoll_kept | with_reducible apply State.mergeReadDone_kept
    | with_reducible apply State.retryProgram_kept | with_reducible apply State.retargetCopy_kept
    | with_reducible apply Kept.ite | with_reducible apply Kept.foldl | split

theorem State.dieLostEvent_kept {r s : State} (h : Kept r s) (a1 : Nat) : Kept r (State.dieLostEvent s a1) := by
  unfold State.dieLostEvent
  repeat' first
    | with_reducible exact h | with_reducible apply State.settleLost_kept | with_reducible apply State.loseDie_kept
    | with_reducible apply Kept.ite

theorem State.blockFails_kept {r s : State} (h : Kept r s) (a1 : Nat) : Kept r (State.blockFails s a1) := by
  unfold State.blockFails
  repeat' first
    | with_reducible exact h | with_reducible apply State.settleLost_kept
    | with_reducible apply State.failBlock_kept | with_reducible apply State.modDie_kept

theorem State.programFail_kept {r s : State} (h : Kept r s) (a1 : Nat) : Kept r (State.programFail s a1) := by
  unfold State.programFail
  repeat' first
    | with_reducible exact h | with_reducible apply State.blockFails_kept | split

theorem State.eraseFail_kept {r s : State} (h : Kept r s) (a1 : Nat) : Kept r (State.eraseFail s a1) := by
  unfold State.eraseFail
  repeat' first
    | with_reducible exact h | with_reducible apply State.modDie_kept | with_reducible apply State.dropPoll_kept
    | with_reducible apply State.dropReclaim_kept | with_reducible apply State.settleLost_kept
    | with_reducible apply State.retire_kept | with_reducible apply State.modBlk_kept | simp only
    | split

theorem State.countRead_kept {r s : State} (h : Kept r s) (a1 : Nat) (a2 : Nat) (a3 : Nat) : Kept r
    (State.countRead s a1 a2 a3) := by
  unfold State.countRead
  repeat' first
    | with_reducible exact h | with_reducible apply State.modDie_kept | with_reducible apply State.modChan_kept

theorem State.countUncorr_kept {r s : State} (h : Kept r s) (a1 : Nat) : Kept r (State.countUncorr s a1) := by
  unfold State.countUncorr
  repeat' first
    | with_reducible exact h | with_reducible apply State.modDie_kept | with_reducible apply State.modChan_kept

theorem State.weakRead_kept {r s : State} (h : Kept r s) (a1 : Nat) (a2 : Nat) (a3 : Nat) : Kept r
    (State.weakRead s a1 a2 a3) := by
  unfold State.weakRead
  repeat' first
    | with_reducible exact h | with_reducible apply State.ev_kept | with_reducible apply State.setFtl_kept
    | with_reducible apply Kept.ite

theorem State.copyLost_kept {r s : State} (h : Kept r s) (a1 : Nat) : Kept r (State.copyLost s a1) := by
  unfold State.copyLost
  repeat' first
    | with_reducible exact h | with_reducible apply State.ev_kept | with_reducible apply State.loseSlot_kept | split

theorem State.copyReadDone_kept {r s : State} (h : Kept r s) (a1 : Nat) (a2 : Nat) (a3 : Bool) : Kept r
    (State.copyReadDone s a1 a2 a3) := by
  unfold State.copyReadDone
  repeat' first
    | with_reducible exact h | with_reducible apply State.modReclaim_kept | with_reducible apply State.copyLost_kept
    | with_reducible apply State.reclaimCopy_kept | with_reducible apply Kept.ite | simp only
    | split

theorem State.demoteReadDone_kept {r s : State} (h : Kept r s) (a1 : Nat) (a2 : Nat) (a3 : Bool) : Kept r
    (State.demoteReadDone s a1 a2 a3) := by
  unfold State.demoteReadDone
  repeat' first
    | with_reducible exact h | with_reducible apply State.journal_kept | with_reducible apply State.copyLost_kept
    | with_reducible apply State.dropDemote_kept | with_reducible apply State.settleLost_kept
    | with_reducible apply State.failBlock_kept | with_reducible apply State.modDemote_kept
    | with_reducible apply State.demoteWrite_kept | with_reducible apply Kept.ite | simp only
    | split

theorem State.copyVerified_kept {r s : State} (h : Kept r s) (a1 : Nat) (a2 : Nat) : Kept r
    (State.copyVerified s a1 a2) := by
  unfold State.copyVerified
  repeat' first
    | with_reducible exact h | with_reducible apply State.modReclaim_kept
    | with_reducible apply State.reclaimJournal_kept | with_reducible apply Kept.ite | simp only
    | split

theorem State.eraseDone_kept {r s : State} (h : Kept r s) (a1 : Nat) : Kept r (State.eraseDone s a1) := by
  unfold State.eraseDone
  repeat' first
    | with_reducible exact h | with_reducible apply State.dropReclaim_kept | with_reducible apply State.modBlk_kept
    | with_reducible apply State.ev_kept | simp only [↓Kept.upd_iff] | split

theorem State.countPages_kept {r s : State} (h : Kept r s) (a1 : Nat) (a2 : Nat) : Kept r
    (State.countPages s a1 a2) := by
  unfold State.countPages
  repeat' first
    | with_reducible exact h | with_reducible apply State.modDie_kept

theorem State.readDone_kept {r s : State} (h : Kept r s) (a1 : PollKind) (a2 : Bool) : Kept r
    (State.readDone s a1 a2) := by
  unfold State.readDone
  repeat' first
    | with_reducible exact h | with_reducible apply State.hostReadDone_kept
    | with_reducible apply State.copyReadDone_kept | with_reducible apply State.mergeReadDone_kept
    | with_reducible apply State.copyLost_kept | with_reducible apply State.demoteReadDone_kept
    | with_reducible apply Kept.ite | split

theorem State.copySkip_kept {r s : State} (h : Kept r s) (a1 : Nat) (a2 : Nat) : Kept r (State.copySkip s a1 a2) := by
  unfold State.copySkip
  repeat' first
    | with_reducible exact h | with_reducible apply State.modReclaim_kept
    | with_reducible apply State.reclaimCopy_kept | with_reducible apply Kept.ite | simp only
    | split

theorem State.mergeSkip_kept {r s : State} (h : Kept r s) (a1 a2 a3 a4 : Nat) : Kept r
    (State.mergeSkip s a1 a2 a3 a4) := by
  unfold State.mergeSkip
  repeat' first
    | with_reducible exact h | with_reducible apply State.putJob_kept | split

theorem State.readMisled_kept {r s : State} (h : Kept r s) (a1 : PollKind) : Kept r (State.readMisled s a1) := by
  unfold State.readMisled
  repeat' first
    | with_reducible exact h | with_reducible apply State.copySkip_kept | with_reducible apply State.mergeSkip_kept
    | with_reducible apply State.dropDemote_kept | with_reducible apply State.readDone_kept | split

theorem State.readPolled_kept {r s : State} (h : Kept r s) (a1 : PollKind) (a2 : Nat) (a3 : Nat) (a4 : Bool)
    : Kept r (State.readPolled s a1 a2 a3 a4) := by
  unfold State.readPolled
  repeat' first
    | with_reducible exact h | with_reducible apply State.countRead_kept | with_reducible apply State.readDone_kept
    | with_reducible apply State.readMisled_kept | with_reducible apply State.weakRead_kept | with_reducible apply State.ev_kept | with_reducible apply Kept.ite

theorem State.readFailed_kept {r s : State} (h : Kept r s) (a1 : PollKind) : Kept r (State.readFailed s a1) := by
  unfold State.readFailed
  repeat' first
    | with_reducible exact h | with_reducible apply State.readDone_kept
    | with_reducible apply State.countUncorr_kept | with_reducible apply State.settleLost_kept
    | with_reducible apply State.failBlock_kept | with_reducible apply State.ev_kept | simp only
    | split

theorem State.verifyDone_kept {r s : State} (h : Kept r s) (a1 : PollOp) (a2 : Bool) : Kept r
    (State.verifyDone s a1 a2) := by
  unfold State.verifyDone
  repeat' first
    | with_reducible exact h | with_reducible apply State.blockFails_kept | with_reducible apply State.setFtl_kept
    | with_reducible apply State.copyVerified_kept | with_reducible apply State.demoteEnd_kept
    | with_reducible apply Kept.ite | simp only | split

theorem State.programPolled_kept {r s : State} (h : Kept r s) (a1 : PollKind) : Kept r
    (State.programPolled s a1) := by
  unfold State.programPolled
  repeat' first
    | with_reducible exact h | with_reducible apply State.programDone_kept
    | with_reducible apply State.countPages_kept | with_reducible apply State.addPoll_kept
    | simp only | split

theorem State.pollComplete_kept {r s : State} (h : Kept r s) (a1 : Nat) (a2 : PollResult) : Kept r
    (State.pollComplete s a1 a2) := by
  unfold State.pollComplete
  repeat' first
    | with_reducible exact h | with_reducible apply State.verifyDone_kept
    | with_reducible apply State.readPolled_kept | with_reducible apply State.dropPoll_kept
    | with_reducible apply State.readFailed_kept | with_reducible apply State.programPolled_kept
    | with_reducible apply State.eraseDone_kept | split

theorem State.identifyDie_kept {r s : State} (h : Kept r s) (a1 : Nat) (a2 : DieReport) : Kept r
    (State.identifyDie s a1 a2) := by
  unfold State.identifyDie
  repeat' first
    | with_reducible exact h | with_reducible apply State.modDie_kept | with_reducible apply State.ev_kept
    | with_reducible apply Kept.ite

theorem State.trainChannel_kept {r s : State} (h : Kept r s) (a1 : Nat) (a2 : List DieReport) (a3 : List Bool)
    : Kept r (State.trainChannel s a1 a2 a3) := by
  unfold State.trainChannel
  repeat' first
    | with_reducible exact h | with_reducible assumption | intro _ | with_reducible apply State.identifyDie_kept
    | with_reducible apply State.ev_kept | with_reducible apply State.modChan_kept | with_reducible apply Kept.foldl
    | simp only | split

theorem State.dieTemp_kept {r s : State} (h : Kept r s) (a1 : Nat) (a2 : Int) : Kept r (State.dieTemp s a1 a2) := by
  unfold State.dieTemp
  repeat' first
    | with_reducible exact h | with_reducible apply State.modDie_kept | with_reducible apply State.ev_kept
    | with_reducible apply Kept.ite

theorem State.cmdDump_kept {r s : State} (h : Kept r s) (a1 : Requester) (a2 : Nat) (a3 : Bool) : Kept r
    (State.cmdDump s a1 a2 a3) := by
  unfold State.cmdDump
  repeat' first
    | with_reducible exact h | with_reducible assumption | intro _ | with_reducible apply State.bar0Write_kept
    | with_reducible apply State.discardDev_kept | with_reducible apply State.modChan_kept
    | with_reducible apply Kept.ite

theorem State.dumpTick_kept {r s : State} (h : Kept r s) : Kept r (State.dumpTick s) := by
  unfold State.dumpTick
  repeat' first
    | with_reducible exact h | with_reducible assumption | intro _ | with_reducible apply State.modChan_kept
    | with_reducible apply State.emit_kept | with_reducible apply Kept.ite | with_reducible apply Kept.foldl

theorem State.lifeLap_kept {r s : State} (h : Kept r s) : Kept r (State.lifeLap s) := by
  unfold State.lifeLap
  repeat' first
    | with_reducible exact h | with_reducible apply State.ev_kept | with_reducible apply State.setFtl_kept
    | with_reducible apply Kept.ite | simp only [↓Kept.upd_iff]

theorem State.decayLap_kept {r s : State} (h : Kept r s) : Kept r (State.decayLap s) := by
  unfold State.decayLap
  repeat' first
    | with_reducible exact h | with_reducible apply State.setFtl_kept | with_reducible apply Kept.ite

end Sys2Proof.Machine
end

