-- ==== Sys2Proof/Laws/KeptEngines.lean ====
section
/-! SUPPORT. What every operation of the engines, heats and the key store keeps. -/

namespace Sys2Proof.Machine

open State

/-! ### Heat -/

theorem State.onEngine_kept {r s : State} (h : Kept r s) (a1 : CmdId) (a2 : Nat) (a3 : Adm → State)
    (h3 : ∀ (x0 : Adm), Kept r (a3 x0)) : Kept r (State.onEngine s a1 a2 a3) := by
  unfold State.onEngine
  repeat' first
    | with_reducible exact h | with_reducible apply h3 | with_reducible apply Kept.ite | split

theorem State.modHeatRegs_kept {r s : State} (h : Kept r s) (a1 : Nat) (a2 : HeatRegs → HeatRegs) : Kept r
    (State.modHeatRegs s a1 a2) := by
  unfold State.modHeatRegs
  repeat' first
    | with_reducible exact h | simp only [↓Kept.upd_iff]

theorem State.placeProgram_kept {r s : State} (h : Kept r s) (a1 : Nat) (a2 : Nat) (a3 : Stamp)
    (a4 : Option Program) : Kept r (State.placeProgram s a1 a2 a3 a4) := by
  unfold State.placeProgram
  repeat' first
    | with_reducible exact h | with_reducible apply State.modHeatRegs_kept

theorem State.heatProgramLoad_kept {r s : State} (h : Kept r s) (a1 : CmdId) (a2 : Fetch) : Kept r
    (State.heatProgramLoad s a1 a2) := by
  unfold State.heatProgramLoad
  repeat' first
    | with_reducible exact h | with_reducible assumption | intro _ | with_reducible apply State.onAdmin_kept
    | with_reducible apply State.finish_kept | with_reducible apply State.ev_kept
    | with_reducible apply State.placeProgram_kept | with_reducible apply State.arrive_kept
    | with_reducible apply State.sliceLog_kept | with_reducible apply Kept.ite | simp only | split

theorem State.modHeat_kept {r s : State} (h : Kept r s) (a1 : CmdId) (a2 : Heat → Heat) : Kept r
    (State.modHeat s a1 a2) := by
  unfold State.modHeat
  repeat' first
    | with_reducible exact h | simp only [↓Kept.upd_iff]

theorem State.heatKnown_kept {r s : State} (h : Kept r s) (a1 : CmdId) (a2 : Adm) : Kept r
    (State.heatKnown s a1 a2) := by
  unfold State.heatKnown
  repeat' first
    | with_reducible exact h | simp only [↓Kept.upd_iff] | split

theorem State.heatRun_kept {r s : State} (h : Kept r s) (a1 : CmdId) : Kept r (State.heatRun s a1) := by
  unfold State.heatRun
  repeat' first
    | with_reducible exact h | intro _ | with_reducible apply State.onEngine_kept
    | with_reducible apply State.failCmd_kept | with_reducible apply State.dropHeat_kept
    | with_reducible apply State.heatKnown_kept | split

theorem State.readInFails_kept {r s : State} (h : Kept r s) (a1 a2 a3 : Nat) : Kept r (State.readInFails s a1 a2 a3) := by
  unfold State.readInFails
  split
  · exact State.readCmb_kept h _ _
  · exact State.ev_kept h _ _ _

theorem State.heatDescriptor_kept {r s : State} (h : Kept r s) (a1 : CmdId) (a2 : Fetch) : Kept r
    (State.heatDescriptor s a1 a2) := by
  unfold State.heatDescriptor
  repeat' first
    | with_reducible apply State.readInFails_kept
    | with_reducible exact h | intro _ | with_reducible apply State.onEngine_kept
    | with_reducible apply State.heatKnown_kept | with_reducible apply State.ev_kept
    | with_reducible apply State.failCmd_kept | with_reducible apply State.dropHeat_kept
    | with_reducible apply State.wakeEvent_kept | with_reducible apply State.modAdm_kept
    | with_reducible apply State.modHeat_kept | with_reducible apply Kept.ite | simp only | split

theorem State.engineRead_kept {r s : State} (h : Kept r s) (a1 : CmdId) (a2 : Stamp) (a3 : List (Nat × Ns × Nat))
    : Kept r (State.engineRead s a1 a2 a3).1 := by
  unfold State.engineRead
  repeat' first
    | with_reducible refine Kept.foldl ?_ (fun _ _ h => State.readEntries_kept h _ _ _ _)
    | with_reducible exact h | with_reducible apply State.ev_kept | with_reducible apply State.modAdm_kept
    | with_reducible apply State.issueReads_kept | with_reducible apply Kept.ite | simp only | split

theorem State.engineRead_keptE {t : State} {x : _} {r s : State} (h : Kept r s) (a1 : CmdId) (a2 : Stamp)
    (a3 : List (Nat × Ns × Nat)) (e : State.engineRead s a1 a2 a3 = (t, x)) : Kept r t := by
  have q := State.engineRead_kept h a1 a2 a3 ; rw [e] at q; exact q

theorem State.putStaged_kept {r s : State} (h : Kept r s) (a1 : Nat) (a2 : List (Nat × Bytes)) : Kept r
    (State.putStaged s a1 a2) := by
  induction a2 generalizing s with
  | nil => exact h
  | cons p t ih => exact ih (State.memWrite_kept h _ _ _)

theorem State.heatFail_kept {r s : State} (h : Kept r s) (a1 : CmdId) (a2 : Status) : Kept r
    (State.heatFail s a1 a2) := by
  unfold State.heatFail
  repeat' first
    | with_reducible exact h | with_reducible apply State.failCmd_kept | with_reducible apply State.dropHeat_kept

theorem State.heatStage_kept {r s : State} (h : Kept r s) (a1 : Heat) : Kept r (State.heatStage s a1) := by
  unfold State.heatStage
  repeat' first
    | with_reducible exact h | with_reducible apply State.engineRead_kept | with_reducible apply State.heatFail_kept
    | with_reducible apply State.modHeat_kept | with_reducible apply State.putStaged_kept
    | with_reducible apply Kept.ite | simp only | split

theorem State.heatStaged_kept {r s : State} (h : Kept r s) (a1 : CmdId) : Kept r (State.heatStaged s a1) := by
  unfold State.heatStaged
  repeat' first
    | with_reducible exact h | with_reducible apply State.heatStage_kept | with_reducible apply State.heatFail_kept
    | with_reducible apply State.modHeat_kept | with_reducible apply Kept.ite | simp only | split

theorem State.heatLoading_kept {r s : State} (h : Kept r s) (a1 : CmdId) : Kept r (State.heatLoading s a1) := by
  unfold State.heatLoading
  repeat' first
    | with_reducible exact h | with_reducible assumption | intro _ | with_reducible apply State.modHeat_kept
    | with_reducible apply State.modCore_kept | with_reducible apply Kept.ite | with_reducible apply Kept.foldl
    | simp only | split

theorem State.loadCore_kept {r s : State} (h : Kept r s) (a1 : Heat) (a2 : Program) (a3 : Nat) (a4 : Nat) : Kept r
    (State.loadCore s a1 a2 a3 a4) := by
  unfold State.loadCore
  repeat' first
    | with_reducible exact h | with_reducible apply State.memWrite_kept | with_reducible apply State.memClear_kept
    | with_reducible apply State.modCore_kept

theorem State.heatRunning_kept {r s : State} (h : Kept r s) (a1 : CmdId) : Kept r (State.heatRunning s a1) := by
  unfold State.heatRunning
  repeat' first
    | with_reducible exact h | with_reducible assumption | intro _ | with_reducible apply State.loadCore_kept
    | with_reducible apply State.modAdm_kept | with_reducible apply State.modHeat_kept
    | with_reducible apply Kept.foldl | simp only | split

theorem State.heatEnd_kept {r s : State} (h : Kept r s) (a1 : Heat) (a2 : Status) (a3 : optParam (BitVec 32) 0)
    (a4 : optParam (BitVec 32) 0) : Kept r (State.heatEnd s a1 a2 a3 a4) := by
  unfold State.heatEnd
  repeat' first
    | with_reducible exact h | with_reducible apply State.finish_kept | with_reducible apply State.dropHeat_kept
    | with_reducible apply State.freeCores_kept

theorem State.heatFaultTick_kept {r s : State} (h : Kept r s) : Kept r (State.heatFaultTick s) := by
  unfold State.heatFaultTick
  repeat' first
    | with_reducible exact h | with_reducible assumption | intro _ | with_reducible apply State.heatEnd_kept
    | with_reducible apply Kept.foldl | split

theorem State.heatFault_kept {r s : State} (h : Kept r s) (a1 : Nat) (a2 : Nat) (a3 : Nat) (a4 : Dword) : Kept r
    (State.heatFault s a1 a2 a3 a4) := by
  unfold State.heatFault
  repeat' first
    | with_reducible exact h | with_reducible apply State.modHeat_kept | with_reducible apply Kept.ite
    | simp only | split

theorem State.svcExit_kept {r s : State} (h : Kept r s) (a1 : Nat) : Kept r (State.svcExit s a1) := by
  unfold State.svcExit
  repeat' first
    | with_reducible exact h | with_reducible apply State.setCore_kept | with_reducible apply State.modHeat_kept
    | with_reducible apply Kept.ite | simp only | split

theorem State.svcWait_kept {r s : State} (h : Kept r s) (a1 : Nat) (a2 : Nat) (a3 : CoreHold) : Kept r
    (State.svcWait s a1 a2 a3) := by
  unfold State.svcWait
  repeat' first
    | with_reducible exact h | with_reducible apply State.setCore_kept | with_reducible apply Kept.ite
    | simp only | split

theorem State.resume_kept {r s : State} (h : Kept r s) (a1 : Nat) : Kept r (State.resume s a1) := by
  unfold State.resume
  repeat' first
    | with_reducible exact h | with_reducible apply State.modCore_kept

theorem State.coreTick_kept {r s : State} (h : Kept r s) : Kept r (State.coreTick s) := by
  unfold State.coreTick
  repeat' first
    | with_reducible exact h | with_reducible assumption | intro _ | with_reducible apply State.resume_kept
    | with_reducible apply Kept.ite | with_reducible apply Kept.foldl | simp only [↓Kept.upd_iff]

theorem State.heatLapLimit_kept {r s : State} (h : Kept r s) (a1 : CmdId) : Kept r (State.heatLapLimit s a1) := by
  unfold State.heatLapLimit
  repeat' first
    | with_reducible exact h | with_reducible apply State.ev_kept | with_reducible apply State.heatEnd_kept
    | with_reducible apply Kept.ite | split

theorem State.heatDelivered_kept {r s : State} (h : Kept r s) (a1 : CmdId) (a2 : Bool) : Kept r
    (State.heatDelivered s a1 a2) := by
  unfold State.heatDelivered
  repeat' first
    | with_reducible exact h | with_reducible apply State.heatEnd_kept | with_reducible apply State.ev_kept
    | with_reducible apply State.partialWrite_kept | with_reducible apply State.moveData_kept
    | with_reducible apply State.memRead_kept | with_reducible apply State.deliver_kept
    | with_reducible apply Kept.ite | simp only | split

theorem State.heatStopAct_kept {r s : State} (h : Kept r s) (a1 : Nat) (a2 : Nat × Nat) : Kept r
    (State.heatStopAct s a1 a2) := by
  unfold State.heatStopAct
  repeat' first
    | with_reducible exact h | with_reducible apply State.modHeatRegs_kept | with_reducible apply State.heatEnd_kept
    | with_reducible apply State.modHeat_kept | with_reducible apply Kept.ite | split

theorem State.heatStopTick_kept {r s : State} (h : Kept r s) : Kept r (State.heatStopTick s) := by
  unfold State.heatStopTick
  repeat' first
    | with_reducible exact h | with_reducible assumption | intro _ | with_reducible apply State.heatStopAct_kept
    | with_reducible apply State.modHeatRegs_kept | with_reducible apply Kept.foldl

theorem State.cmdHeatStop_kept {r s : State} (h : Kept r s) (a1 : Nat) (a2 : Nat) (a3 : Nat) : Kept r
    (State.cmdHeatStop s a1 a2 a3) := by
  unfold State.cmdHeatStop
  repeat' first
    | with_reducible exact h | with_reducible assumption | intro _ | with_reducible apply State.winWrite_kept
    | with_reducible apply State.modHeatRegs_kept

theorem State.heatSweep_kept {r s : State} (h : Kept r s) : Kept r (State.heatSweep s) := by
  unfold State.heatSweep
  repeat' first
    | with_reducible exact h | with_reducible assumption | intro _ | with_reducible apply State.dropHeat_kept
    | with_reducible apply State.freeCores_kept | with_reducible apply Kept.ite | with_reducible apply Kept.foldl

theorem State.heatDrain_kept {r s : State} (h : Kept r s) (a1 : Nat) : Kept r (State.heatDrain s a1) := by
  unfold State.heatDrain
  repeat' first
    | with_reducible exact h | with_reducible assumption | intro _ | with_reducible apply State.heatEnd_kept
    | with_reducible apply State.failCmd_kept | with_reducible apply Kept.foldl

theorem State.heatSuspend_kept {r s : State} (h : Kept r s) (a1 : Nat) : Kept r (State.heatSuspend s a1) := by
  unfold State.heatSuspend
  repeat' first
    | with_reducible exact h | with_reducible assumption | intro _ | with_reducible apply State.modHeat_kept
    | with_reducible apply State.modCore_kept | with_reducible apply Kept.foldl

theorem State.heatThaw_kept {r s : State} (h : Kept r s) (a1 : Nat) : Kept r (State.heatThaw s a1) := by
  unfold State.heatThaw
  repeat' first
    | with_reducible exact h | with_reducible assumption | intro _ | with_reducible apply State.heatEnd_kept
    | with_reducible apply State.modHeat_kept | with_reducible apply State.resume_kept
    | with_reducible apply Kept.ite | with_reducible apply Kept.foldl

theorem State.budgetRefill_kept {r s : State} (h : Kept r s) : Kept r (State.budgetRefill s) := by
  unfold State.budgetRefill
  repeat' first
    | with_reducible exact h | with_reducible assumption | intro _ | with_reducible apply State.setCore_kept
    | with_reducible apply State.resume_kept | with_reducible apply Kept.ite | with_reducible apply Kept.foldl
    | split

theorem State.heatLap_kept {r s : State} (h : Kept r s) : Kept r (State.heatLap s) := by
  unfold State.heatLap
  repeat' first
    | with_reducible exact h | with_reducible assumption | intro _ | with_reducible apply State.heatLapLimit_kept
    | with_reducible apply State.modHeat_kept | with_reducible apply Kept.ite | with_reducible apply Kept.foldl

theorem State.coreResets_kept {r s : State} (h : Kept r s) : Kept r (State.coreResets s) := by
  unfold State.coreResets
  repeat' first
    | with_reducible exact h | with_reducible assumption | intro _ | with_reducible apply State.ev_kept
    | with_reducible apply State.setCore_kept | with_reducible apply Kept.ite | with_reducible apply Kept.foldl

/-! ### Keys -/

theorem State.installKey_kept {r s : State} (h : Kept r s) (a1 : Nat) (a2 : Nat) (a3 : NewKey) : Kept r
    (State.installKey s a1 a2 a3) := by
  unfold State.installKey
  repeat' first
    | with_reducible exact h | with_reducible apply State.sysChoose_kept | with_reducible apply State.modKeys_kept
    | with_reducible apply State.setKst_kept | with_reducible apply State.ev_kept
    | with_reducible apply State.modSlice_kept | with_reducible apply Kept.ite

theorem State.eraseKey_kept {r s : State} (h : Kept r s) (a1 : Nat) (a2 : Nat) : Kept r (State.eraseKey s a1 a2) := by
  unfold State.eraseKey
  repeat' first
    | with_reducible exact h | with_reducible apply State.modKeys_kept | with_reducible apply State.modSlice_kept
    | with_reducible apply Kept.ite

theorem State.dropKeys_kept {r s : State} (h : Kept r s) (a1 : Nat) : Kept r (State.dropKeys s a1) := by
  unfold State.dropKeys
  repeat' first
    | with_reducible exact h | with_reducible apply State.modSlice_kept | with_reducible apply State.modKeys_kept

theorem State.beginChange_kept {r s : State} (h : Kept r s) (a1 : Nat) (a2 : Stamp)
    (a3 : List (Nat × Option NewKey)) (a4 : CmdId) (a5 : Option Bytes) : Kept r
    (State.beginChange s a1 a2 a3 a4 a5) := by
  unfold State.beginChange
  repeat' first
    | with_reducible exact h | with_reducible apply State.setKst_kept

theorem State.applyChange_kept {r s : State} (h : Kept r s) (a1 : Nat) (a2 : List (Nat × Option NewKey)) : Kept r
    (State.applyChange s a1 a2) := by
  induction a2 generalizing s with
  | nil => exact h
  | cons p t ih =>
    obtain ⟨slot, k⟩ := p
    cases k with
    | none => exact ih (State.eraseKey_kept h _ _)
    | some k => exact ih (State.installKey_kept h _ _ _)

theorem State.keyChangeEffect_kept {r s : State} (h : Kept r s) (a1 : Nat) : Kept r (State.keyChangeEffect s a1) := by
  unfold State.keyChangeEffect
  repeat' first
    | with_reducible exact h | with_reducible apply State.setKst_kept | with_reducible apply State.applyChange_kept
    | with_reducible apply State.finish_kept | with_reducible apply State.modKeys_kept
    | with_reducible apply State.ev_kept | with_reducible apply State.sliceLog_kept | with_reducible apply Kept.ite
    | simp only | split

theorem State.keyDelivery_kept {r s : State} (h : Kept r s) (a1 : CmdId) (a2 : Fetch) : Kept r
    (State.keyDelivery s a1 a2) := by
  unfold State.keyDelivery
  repeat' first
    | with_reducible exact h | with_reducible assumption | intro _ | with_reducible apply State.onAdmin_kept
    | with_reducible apply State.finish_kept | with_reducible apply State.ev_kept
    | with_reducible apply State.arrive_kept | with_reducible apply State.setKst_kept
    | with_reducible apply State.modAdm_kept | with_reducible apply Kept.ite | simp only | split

theorem State.deliveryOpen_kept {r s : State} (h : Kept r s) (a1 : CmdId) (a2 : Bytes) : Kept r
    (State.deliveryOpen s a1 a2) := by
  unfold State.deliveryOpen
  repeat' first
    | with_reducible exact h | with_reducible apply State.ev_kept | with_reducible apply State.finish_kept
    | with_reducible apply State.beginChange_kept | with_reducible apply Kept.ite | simp only
    | split

theorem State.attestationReport_kept {r s : State} (h : Kept r s) (a1 : CmdId) : Kept r
    (State.attestationReport s a1) := by
  unfold State.attestationReport
  repeat' first
    | with_reducible exact h | intro _ | with_reducible apply State.onAdmin_kept
    | with_reducible apply State.finish_kept | with_reducible apply State.setKst_kept
    | with_reducible apply State.modAdm_kept | with_reducible apply Kept.ite

theorem State.reportSigned_kept {r s : State} (h : Kept r s) (a1 : CmdId) (a2 : Bytes) : Kept r
    (State.reportSigned s a1 a2) := by
  unfold State.reportSigned
  repeat' first
    | with_reducible exact h | with_reducible apply State.respond_kept | with_reducible apply State.ev_kept
    | simp only | split

theorem State.enrolDone_kept {r s : State} (h : Kept r s) (a1 : Bytes) : Kept r (State.enrolDone s a1) := by
  unfold State.enrolDone
  repeat' first
    | with_reducible exact h | with_reducible apply State.ev_kept | with_reducible apply State.setKst_kept
    | with_reducible apply State.devLog_kept | simp only | simp only [↓Kept.updDur_iff] | split

theorem State.enrolGo_kept {r s : State} (h : Kept r s) (a1 : Requester) (a2 : Fetch) : Kept r
    (State.enrolGo s a1 a2) := by
  unfold State.enrolGo
  repeat' first
    | with_reducible exact h | with_reducible assumption | intro _ | with_reducible apply State.bar0Write_kept
    | with_reducible apply State.setKst_kept | with_reducible apply State.ev_kept | with_reducible apply Kept.ite
    | simp only | split

theorem State.pkTick_kept {r s : State} (h : Kept r s) : Kept r (State.pkTick s) := by
  unfold State.pkTick
  repeat' first
    | with_reducible exact h | with_reducible apply State.setKst_kept | with_reducible apply Kept.ite
    | simp only | split

theorem State.pkComplete_kept {r s : State} (h : Kept r s) : Kept r (State.pkComplete s) := by
  unfold State.pkComplete
  repeat' first
    | with_reducible exact h | with_reducible apply State.setKst_kept | with_reducible apply State.enrolDone_kept
    | with_reducible apply State.deliveryOpen_kept | with_reducible apply State.reportSigned_kept
    | with_reducible apply State.linkSigned_kept | with_reducible apply Kept.ite | simp only | split

theorem State.cipherAlarm_kept {r s : State} (h : Kept r s) (a1 : Nat) (a2 : optParam Nat noSlice) : Kept r
    (State.cipherAlarm s a1 a2) := by
  unfold State.cipherAlarm
  repeat' first
    | with_reducible exact h | with_reducible apply State.ev_kept | simp only [↓Kept.upd_iff]

theorem State.alarmClear_kept {r s : State} (h : Kept r s) : Kept r (State.alarmClear s) := by
  unfold State.alarmClear
  repeat' first
    | with_reducible exact h | with_reducible assumption | intro _ | with_reducible apply State.failCmd_kept
    | with_reducible apply Kept.foldl | simp only [↓Kept.upd_iff]

theorem State.pkRestart_kept {r s : State} (h : Kept r s) : Kept r (State.pkRestart s) := by
  unfold State.pkRestart
  repeat' first
    | with_reducible exact h | with_reducible apply State.setKst_kept

theorem State.securityAlarm_kept {r s : State} (h : Kept r s) (a1 : Nat) : Kept r (State.securityAlarm s a1) := by
  unfold State.securityAlarm
  repeat' first
    | with_reducible exact h | with_reducible apply State.setKst_kept | with_reducible apply State.pkRestart_kept
    | with_reducible apply State.alarmClear_kept | with_reducible apply State.cipherAlarm_kept
    | with_reducible apply State.ev_kept | with_reducible apply State.raiseFault_kept
    | with_reducible apply Kept.ite

theorem State.kstLap_kept {r s : State} (h : Kept r s) : Kept r (State.kstLap s) := by
  unfold State.kstLap
  repeat' first
    | with_reducible exact h | with_reducible apply State.setKst_kept | with_reducible apply State.ev_kept
    | with_reducible apply Kept.ite

theorem State.sanitizeEnd_kept {r s : State} (h : Kept r s) (a1 : CmdId) (a2 : Adm) : Kept r
    (State.sanitizeEnd s a1 a2) := by
  unfold State.sanitizeEnd
  repeat' first
    | with_reducible exact h | with_reducible assumption | intro _ | with_reducible apply State.dropNsEntries_kept
    | with_reducible apply State.modKeys_kept | with_reducible apply State.eraseKey_kept
    | with_reducible apply State.finish_kept | with_reducible apply Kept.ite | with_reducible apply Kept.foldl

theorem State.sanitize_kept {r s : State} (h : Kept r s) (a1 : CmdId) : Kept r (State.sanitize s a1) := by
  unfold State.sanitize
  repeat' first
    | with_reducible exact h | with_reducible assumption | intro _ | with_reducible apply State.onAdmin_kept
    | with_reducible apply State.finish_kept | with_reducible apply State.trimBegin_kept
    | with_reducible apply State.sanitizeEnd_kept | with_reducible apply Kept.ite

theorem State.trimEnd_kept {r s : State} (h : Kept r s) (a1 : Adm) : Kept r (State.trimEnd s a1) := by
  unfold State.trimEnd
  repeat' first
    | with_reducible exact h | with_reducible apply State.formatEnd_kept
    | with_reducible apply State.sanitizeEnd_kept | with_reducible apply State.deleteEnd_kept
    | with_reducible apply Kept.ite

theorem State.trimTick_kept {r s : State} (h : Kept r s) (a1 : Nat) : Kept r (State.trimTick s a1) := by
  unfold State.trimTick
  repeat' first
    | with_reducible exact h | with_reducible assumption | intro _ | with_reducible apply State.trimEnd_kept
    | with_reducible apply Kept.foldl

theorem State.reloadKeys_kept {r s : State} (h : Kept r s) : Kept r (State.reloadKeys s) := by
  unfold State.reloadKeys
  repeat' first
    | with_reducible exact h | simp only [↓Kept.upd_iff]

theorem State.reloadSlot_kept {r s : State} (h : Kept r s) (a1 : Nat) (a2 : Nat) (a3 : Key) : Kept r
    (State.reloadSlot s a1 a2 a3) := by
  unfold State.reloadSlot
  repeat' first
    | with_reducible exact h | with_reducible assumption | intro _ | with_reducible apply State.modArr_kept
    | with_reducible apply State.modKeys_kept | with_reducible apply State.ev_kept
    | with_reducible apply State.eraseKey_kept | with_reducible apply Kept.ite | simp only | split

theorem State.recordRetry_kept {r s : State} (h : Kept r s) : Kept r (State.recordRetry s) := by
  unfold State.recordRetry
  repeat' first
    | with_reducible exact h | with_reducible assumption | intro _ | with_reducible apply State.modKeys_kept
    | with_reducible apply State.sysChoose_kept | with_reducible apply Kept.ite | with_reducible apply Kept.foldl
    | simp only

theorem State.keyLap_kept {r s : State} (h : Kept r s) : Kept r (State.keyLap s) := by
  unfold State.keyLap
  repeat' first
    | with_reducible exact h | with_reducible assumption | intro _ | with_reducible apply State.reloadSlot_kept
    | with_reducible apply Kept.ite | with_reducible apply Kept.foldl

/-! ### Cipher -/

theorem State.modCipher_kept {r s : State} (h : Kept r s) (a1 : CmdId) (a2 : CipherRun → CipherRun) : Kept r
    (State.modCipher s a1 a2) := by
  unfold State.modCipher
  repeat' first
    | with_reducible exact h | simp only [↓Kept.upd_iff]

theorem State.dropCipher_kept {r s : State} (h : Kept r s) (a1 : CmdId) : Kept r (State.dropCipher s a1) := by
  unfold State.dropCipher
  repeat' first
    | with_reducible exact h | simp only [↓Kept.upd_iff]

theorem State.cipherKnown_kept {r s : State} (h : Kept r s) (a1 : CmdId) (a2 : Adm) : Kept r
    (State.cipherKnown s a1 a2) := by
  unfold State.cipherKnown
  repeat' first
    | with_reducible exact h | with_reducible apply Kept.ite | simp only [↓Kept.upd_iff]

theorem State.cipherSource_kept {r s : State} (h : Kept r s) (a1 : CmdId) (a2 : Adm) (a3 : Bytes) : Kept r
    (State.cipherSource s a1 a2 a3) := by
  unfold State.cipherSource
  repeat' first
    | with_reducible exact h | with_reducible apply State.modCipher_kept
    | with_reducible apply State.cipherKnown_kept

theorem State.cipherTransform_kept {r s : State} (h : Kept r s) (a1 : CmdId) : Kept r
    (State.cipherTransform s a1) := by
  unfold State.cipherTransform
  repeat' first
    | with_reducible exact h | with_reducible assumption | intro _ | with_reducible apply State.onEngine_kept
    | with_reducible apply State.failCmd_kept | with_reducible apply State.dropCipher_kept
    | with_reducible apply State.arrive_kept | with_reducible apply State.cipherSource_kept
    | with_reducible apply State.cipherKnown_kept | with_reducible apply Kept.ite | split

theorem State.cipherArrival_kept {r s : State} (h : Kept r s) (a1 : CmdId) (a2 : Fetch) : Kept r
    (State.cipherArrival s a1 a2) := by
  unfold State.cipherArrival
  repeat' first
    | with_reducible exact h | with_reducible assumption | intro _ | with_reducible apply State.onEngine_kept
    | with_reducible apply State.ev_kept | with_reducible apply State.failCmd_kept
    | with_reducible apply State.dropCipher_kept | with_reducible apply State.arrive_kept
    | with_reducible apply State.cipherSource_kept | split

theorem State.nonceTaken_kept {r s : State} (h : Kept r s) (a1 a2 : Nat) (a3 : Key) : Kept r
    (State.nonceTaken s a1 a2 a3) := by
  unfold State.nonceTaken
  repeat' first
    | with_reducible exact h | with_reducible apply State.modKeys_kept | with_reducible apply State.cipherAlarm_kept
    | with_reducible apply State.sysChoose_kept | with_reducible apply Kept.ite | simp only

theorem State.cipherBegin_kept {r s : State} (h : Kept r s) (a1 : CipherRun) : Kept r (State.cipherBegin s a1) := by
  unfold State.cipherBegin
  repeat' first
    | with_reducible exact h | with_reducible apply State.failCmd_kept | with_reducible apply State.dropCipher_kept
    | with_reducible apply State.ev_kept | with_reducible apply State.modKeys_kept
    | with_reducible apply State.modAdm_kept | with_reducible apply State.modCipher_kept
    | with_reducible apply State.nonceTaken_kept | with_reducible apply Kept.ite | simp only | split

theorem State.countBatches_kept {r s : State} (h : Kept r s) (a1 a2 : Nat) : Kept r (State.countBatches s a1 a2) := by
  unfold State.countBatches
  repeat' first
    | with_reducible exact h | simp only [↓Kept.upd_iff]

theorem State.runBatches_kept {r s : State} (h : Kept r s) (a1 : Nat) (a2 : List CipherRun) : Kept r
    (State.runBatches s a1 a2) := by
  induction a2 generalizing s a1 with
  | nil => exact h
  | cons q t ih =>
    unfold State.runBatches
    dsimp only
    split
    · exact ih h _
    · have k : Kept r (if q.begun then s else s.cipherBegin q) := by
        split
        · exact h
        · exact State.cipherBegin_kept h _
      generalize (if q.begun then s else s.cipherBegin q) = v at k
      split
      · exact ih (State.countBatches_kept (State.modCipher_kept k _ _) _ _) _
      · exact ih k _

theorem State.cipherDies_kept {r s : State} (h : Kept r s) (a1 : CipherRun) : Kept r (State.cipherDies s a1) := by
  unfold State.cipherDies
  repeat' first
    | with_reducible exact h | with_reducible apply State.failCmd_kept | with_reducible apply State.dropCipher_kept

theorem State.badKeyTick_kept {r s : State} (h : Kept r s) : Kept r (State.badKeyTick s) := by
  unfold State.badKeyTick
  repeat' first
    | with_reducible exact h | with_reducible assumption | intro _ | with_reducible apply State.cipherDies_kept
    | with_reducible apply State.cipherAlarm_kept | with_reducible apply Kept.foldl | simp only

theorem State.badStagingTick_kept {r s : State} (h : Kept r s) : Kept r (State.badStagingTick s) := by
  unfold State.badStagingTick
  repeat' first
    | with_reducible exact h | with_reducible assumption | intro _ | with_reducible apply State.cipherDies_kept
    | with_reducible apply State.cipherAlarm_kept | with_reducible apply State.modArr_kept
    | with_reducible apply State.memByte_kept | with_reducible apply Kept.foldl | with_reducible apply Kept.ite
    | simp only [↓Kept.upd_iff] | split

theorem State.dealSlice_kept {r s : State} (h : Kept r s) (a1 : List CipherRun) (a2 : Nat × Nat × Nat) : Kept r
    (State.dealSlice s a1 a2) := by
  unfold State.dealSlice
  repeat' first
    | with_reducible exact h | with_reducible apply State.runBatches_kept | simp only [↓Kept.upd_iff]

theorem State.cipherEnd_kept {r s : State} (h : Kept r s) (a1 : CipherRun) : Kept r (State.cipherEnd s a1) := by
  unfold State.cipherEnd
  repeat' first
    | with_reducible exact h | with_reducible apply State.evOnly_kept | with_reducible apply State.finishNow_kept
    | with_reducible apply State.dropCipher_kept | with_reducible apply State.respond_kept
    | with_reducible apply Kept.ite | simp only | split

theorem State.cipherTick_kept {r s : State} (h : Kept r s) : Kept r (State.cipherTick s) := by
  unfold State.cipherTick
  repeat' first
    | with_reducible exact h | with_reducible assumption | intro _ | with_reducible apply State.cipherEnd_kept
    | with_reducible apply State.badStagingTick_kept | with_reducible apply State.badKeyTick_kept
    | with_reducible apply State.dealSlice_kept | with_reducible apply Kept.foldl | simp only [↓Kept.upd_iff]

theorem State.cipherLap_kept {r s : State} (h : Kept r s) : Kept r (State.cipherLap s) := by
  unfold State.cipherLap
  repeat' first
    | with_reducible exact h | with_reducible apply State.recordRetry_kept | simp only [↓Kept.upd_iff]

/-! ### Digest -/

theorem State.modDigest_kept {r s : State} (h : Kept r s) (a1 : CmdId) (a2 : DigestRun → DigestRun) : Kept r
    (State.modDigest s a1 a2) := by
  unfold State.modDigest
  repeat' first
    | with_reducible exact h | simp only [↓Kept.upd_iff]

theorem State.dropDigest_kept {r s : State} (h : Kept r s) (a1 : CmdId) : Kept r (State.dropDigest s a1) := by
  unfold State.dropDigest
  repeat' first
    | with_reducible exact h | simp only [↓Kept.upd_iff]

theorem State.digestKnown_kept {r s : State} (h : Kept r s) (a1 : CmdId) (a2 : Adm) : Kept r
    (State.digestKnown s a1 a2) := by
  unfold State.digestKnown
  repeat' first
    | with_reducible exact h | with_reducible apply Kept.ite | simp only [↓Kept.upd_iff]

theorem State.digestSource_kept {r s : State} (h : Kept r s) (a1 : CmdId) (a2 : Adm) (a3 : Bytes) : Kept r
    (State.digestSource s a1 a2 a3) := by
  unfold State.digestSource
  repeat' first
    | with_reducible exact h | with_reducible apply State.digestKnown_kept | with_reducible apply State.failCmd_kept
    | with_reducible apply State.dropDigest_kept | with_reducible apply State.ev_kept
    | with_reducible apply State.modDigest_kept | with_reducible apply Kept.ite | simp only | split

theorem State.digest_kept {r s : State} (h : Kept r s) (a1 : CmdId) : Kept r (State.digest s a1) := by
  unfold State.digest
  repeat' first
    | with_reducible exact h | with_reducible assumption | intro _ | with_reducible apply State.onEngine_kept
    | with_reducible apply State.failCmd_kept | with_reducible apply State.dropDigest_kept
    | with_reducible apply State.arrive_kept | with_reducible apply State.digestSource_kept
    | with_reducible apply State.digestKnown_kept | with_reducible apply Kept.ite | split

theorem State.digestArrival_kept {r s : State} (h : Kept r s) (a1 : CmdId) (a2 : Fetch) : Kept r
    (State.digestArrival s a1 a2) := by
  unfold State.digestArrival
  repeat' first
    | with_reducible exact h | with_reducible assumption | intro _ | with_reducible apply State.onEngine_kept
    | with_reducible apply State.ev_kept | with_reducible apply State.failCmd_kept
    | with_reducible apply State.dropDigest_kept | with_reducible apply State.arrive_kept
    | with_reducible apply State.digestSource_kept | split

theorem State.digestBegin_kept {r s : State} (h : Kept r s) (a1 : DigestRun) : Kept r (State.digestBegin s a1) := by
  unfold State.digestBegin
  repeat' first
    | with_reducible exact h | with_reducible apply State.failCmd_kept | with_reducible apply State.dropDigest_kept
    | with_reducible apply State.modAdm_kept | with_reducible apply State.modDigest_kept
    | with_reducible apply Kept.ite | simp only | split

theorem State.digestEnd_kept {r s : State} (h : Kept r s) (a1 : DigestRun) : Kept r (State.digestEnd s a1) := by
  unfold State.digestEnd
  repeat' first
    | with_reducible exact h | with_reducible apply State.dropDigest_kept
    | with_reducible apply State.beginChange_kept | with_reducible apply State.respond_kept
    | with_reducible apply Kept.ite | simp only [↓Kept.upd_iff] | split

theorem State.digestBadKeys_kept {r s : State} (h : Kept r s) : Kept r (State.digestBadKeys s) := by
  unfold State.digestBadKeys
  repeat' first
    | with_reducible exact h | with_reducible assumption | intro _ | with_reducible apply State.failCmd_kept
    | with_reducible apply State.dropDigest_kept | with_reducible apply Kept.ite | with_reducible apply Kept.foldl | split

theorem State.digestTick_kept {r s : State} (h : Kept r s) : Kept r (State.digestTick s) := by
  unfold State.digestTick
  repeat' first
    | with_reducible exact h | with_reducible assumption | intro _ | with_reducible apply State.digestEnd_kept
    | with_reducible apply State.digestBadKeys_kept
    | with_reducible apply State.modDigest_kept | with_reducible apply State.digestBegin_kept
    | with_reducible apply Kept.ite | with_reducible apply Kept.foldl | simp only [↓Kept.upd_iff]

/-! ### Pattern -/

theorem State.setPatTable_kept {r s : State} (h : Kept r s) (a1 : Nat) (a2 : PatTable) : Kept r
    (State.setPatTable s a1 a2) := by
  unfold State.setPatTable
  repeat' first
    | with_reducible exact h | simp only [↓Kept.upd_iff]

theorem State.modPat_kept {r s : State} (h : Kept r s) (a1 : CmdId) (a2 : PatRun → PatRun) : Kept r
    (State.modPat s a1 a2) := by
  unfold State.modPat
  repeat' first
    | with_reducible exact h | simp only [↓Kept.upd_iff]

theorem State.dropPat_kept {r s : State} (h : Kept r s) (a1 : CmdId) : Kept r (State.dropPat s a1) := by
  unfold State.dropPat
  repeat' first
    | with_reducible exact h | simp only [↓Kept.upd_iff]

theorem State.patKnown_kept {r s : State} (h : Kept r s) (a1 : CmdId) (a2 : Adm) : Kept r
    (State.patKnown s a1 a2) := by
  unfold State.patKnown
  repeat' first
    | with_reducible exact h | with_reducible apply Kept.ite | simp only [↓Kept.upd_iff]

theorem State.patAsk_kept {r s : State} (h : Kept r s) (a1 : CmdId) (a2 : Nat) : Kept r (State.patAsk s a1 a2) := by
  unfold State.patAsk
  repeat' first
    | with_reducible exact h | intro _ | with_reducible apply State.onEngine_kept
    | with_reducible apply State.failCmd_kept | with_reducible apply State.dropPat_kept
    | with_reducible apply State.patKnown_kept | split

theorem State.patternSearch_kept {r s : State} (h : Kept r s) (a1 : CmdId) : Kept r (State.patternSearch s a1) := by
  unfold State.patternSearch
  repeat' first
    | with_reducible exact h | with_reducible apply State.patAsk_kept

theorem State.patternStep_kept {r s : State} (h : Kept r s) (a1 : CmdId) : Kept r (State.patternStep s a1) := by
  unfold State.patternStep
  repeat' first
    | with_reducible exact h | with_reducible apply State.patAsk_kept

theorem State.patInput_kept {r s : State} (h : Kept r s) (a1 : CmdId) (a2 : Adm) (a3 : Fetch) : Kept r
    (State.patInput s a1 a2 a3).1 := by
  unfold State.patInput
  repeat' first
    | with_reducible exact h | with_reducible apply State.engineRead_kept | with_reducible apply State.ev_kept
    | simp only | split

theorem State.patInput_keptE {t : State} {x : _} {r s : State} (h : Kept r s) (a1 : CmdId) (a2 : Adm) (a3 : Fetch)
    (e : State.patInput s a1 a2 a3 = (t, x)) : Kept r t := by
  have q := State.patInput_kept h a1 a2 a3 ; rw [e] at q; exact q

theorem State.patArrive_kept {r s : State} (h : Kept r s) (a1 : CmdId) (a2 : Adm) (a3 : State → State)
    (h3 : ∀ (x0 : State), Kept r x0 → Kept r (a3 x0)) : Kept r (State.patArrive s a1 a2 a3) := by
  unfold State.patArrive
  repeat' first
    | with_reducible exact h | with_reducible assumption | with_reducible apply h3
    | with_reducible apply State.arrive_kept | with_reducible apply Kept.ite

theorem State.patCount_kept {r s : State} (h : Kept r s) (a1 : Nat) : Kept r (State.patCount s a1) := by
  unfold State.patCount
  repeat' first
    | with_reducible exact h | simp only [↓Kept.upd_iff]

theorem State.patConsume_kept {r s : State} (h : Kept r s) (a1 : CmdId) : Kept r (State.patConsume s a1) := by
  unfold State.patConsume
  repeat' first
    | with_reducible exact h | with_reducible apply State.modPat_kept | with_reducible apply State.patCount_kept
    | with_reducible apply Kept.ite | simp only | split

theorem State.patternBegin_kept {r s : State} (h : Kept r s) (a1 : CmdId) (a2 : Fetch) (a3 : Fetch) : Kept r
    (State.patternBegin s a1 a2 a3) := by
  unfold State.patternBegin
  repeat' first
    | with_reducible exact h | with_reducible assumption | intro _ | with_reducible apply State.failCmd_kept
    | with_reducible apply State.dropPat_kept | with_reducible apply State.ev_kept
    | with_reducible apply State.patArrive_kept | with_reducible apply State.patInput_kept
    | with_reducible apply State.patConsume_kept
    | with_reducible apply State.modPat_kept | with_reducible apply State.modAdm_kept
    | with_reducible apply Kept.ite | simp only | split

theorem State.patDeliver_kept {r s : State} (h : Kept r s) (a1 : PatRun) (a2 : Adm) (a3 : List (Nat × Nat × Nat))
    : Kept r (State.patDeliver s a1 a2 a3) := by
  unfold State.patDeliver
  repeat' first
    | with_reducible exact h | with_reducible apply State.dropPat_kept | with_reducible apply State.respond_kept
    | simp only [↓Kept.upd_iff]

theorem State.patEnd_kept {r s : State} (h : Kept r s) (a1 : PatRun) : Kept r (State.patEnd s a1) := by
  unfold State.patEnd
  repeat' first
    | with_reducible exact h | with_reducible apply State.finish_kept | with_reducible apply State.dropEntry_kept
    | with_reducible apply State.dropPat_kept | with_reducible apply State.patDeliver_kept
    | with_reducible apply Kept.ite | simp only [↓Kept.upd_iff] | split

theorem State.patternTableLoad_kept {r s : State} (h : Kept r s) (a1 : CmdId) (a2 : Fetch) : Kept r
    (State.patternTableLoad s a1 a2) := by
  unfold State.patternTableLoad
  repeat' first
    | with_reducible exact h | with_reducible assumption | intro _ | with_reducible apply State.onAdmin_kept
    | with_reducible apply State.finish_kept | with_reducible apply State.ev_kept
    | with_reducible apply State.arrive_kept | with_reducible apply State.modAdm_kept
    | with_reducible apply Kept.ite | simp only [↓Kept.upd_iff] | split

theorem State.modLoad_kept {r s : State} (h : Kept r s) (a1 : CmdId) (a2 : PatLoad → PatLoad) : Kept r
    (State.modLoad s a1 a2) := by
  unfold State.modLoad
  repeat' first
    | with_reducible exact h | simp only [↓Kept.upd_iff]

theorem State.taint_kept {r s : State} (h : Kept r s) (a1 : Nat) (a2 : Stamp) : Kept r (State.taint s a1 a2) := by
  unfold State.taint
  repeat' first
    | with_reducible exact h | simp only [↓Kept.upd_iff]

theorem State.modScan_kept {r s : State} (h : Kept r s) (a1 : CmdId) (a2 : Scan → Scan) : Kept r
    (State.modScan s a1 a2) := by
  unfold State.modScan
  repeat' first
    | with_reducible exact h | simp only [↓Kept.upd_iff]

theorem State.patSuspend_kept {r s : State} (h : Kept r s) (a1 : CmdId) (a2 : Bool) : Kept r
    (State.patSuspend s a1 a2) := by
  unfold State.patSuspend
  repeat' first
    | with_reducible exact h | with_reducible apply State.modScan_kept | with_reducible apply State.modPat_kept

theorem State.patUnit_kept {r s : State} (h : Kept r s) (a1 : PatLoad) : Kept r (State.patUnit s a1) := by
  unfold State.patUnit
  repeat' first
    | with_reducible exact h | with_reducible apply State.modLoad_kept | with_reducible apply State.setPatTable_kept
    | split

theorem State.patternWrite_kept {r s : State} (h : Kept r s) (a1 : CmdId) : Kept r (State.patternWrite s a1) := by
  unfold State.patternWrite
  repeat' first
    | with_reducible exact h | with_reducible apply State.taint_kept | with_reducible apply State.patUnit_kept
    | with_reducible apply State.modLoad_kept | with_reducible apply State.setPatTable_kept
    | with_reducible apply State.patSuspend_kept | with_reducible apply Kept.ite | simp only | split

theorem State.patWriteTick_kept {r s : State} (h : Kept r s) (a1 : PatLoad) : Kept r (State.patWriteTick s a1) := by
  unfold State.patWriteTick
  repeat' first
    | with_reducible exact h | with_reducible apply State.patUnit_kept | with_reducible apply State.modLoad_kept
    | with_reducible apply State.patSuspend_kept | with_reducible apply Kept.ite | simp only | split

theorem State.patternApply_kept {r s : State} (h : Kept r s) (a1 : CmdId) : Kept r (State.patternApply s a1) := by
  unfold State.patternApply
  repeat' first
    | with_reducible exact h | with_reducible apply State.modLoad_kept | with_reducible apply State.setPatTable_kept
    | with_reducible apply Kept.ite | simp only | split

theorem State.patLoadDone_kept {r s : State} (h : Kept r s) (a1 : PatLoad) : Kept r (State.patLoadDone s a1) := by
  unfold State.patLoadDone
  repeat' first
    | with_reducible exact h | with_reducible apply State.setPatTable_kept
    | with_reducible apply State.finishNow_kept | with_reducible apply State.ev_kept
    | with_reducible apply State.sliceLog_kept | simp only [↓Kept.upd_iff]

theorem State.patTick_kept {r s : State} (h : Kept r s) : Kept r (State.patTick s) := by
  unfold State.patTick
  repeat' first
    | with_reducible exact h | with_reducible assumption | intro _ | with_reducible apply State.patWriteTick_kept
    | with_reducible apply State.patEnd_kept | with_reducible apply State.patConsume_kept
    | with_reducible apply State.patLoadDone_kept | with_reducible apply State.modLoad_kept
    | with_reducible apply Kept.ite | with_reducible apply Kept.foldl | simp only [↓Kept.upd_iff]

theorem State.patLose_kept {r s : State} (h : Kept r s) : Kept r (State.patLose s) := by
  unfold State.patLose
  repeat' first
    | with_reducible exact h | with_reducible apply State.ev_kept | with_reducible apply Kept.ite
    | simp only [↓Kept.upd_iff]

theorem State.patZero_kept {r s : State} (h : Kept r s) (a1 : Nat) : Kept r (State.patZero s a1) := by
  unfold State.patZero
  repeat' first
    | with_reducible exact h | simp only [↓Kept.upd_iff]

/-! ### Hurdle -/

theorem State.dropScan_kept {r s : State} (h : Kept r s) (a1 : CmdId) : Kept r (State.dropScan s a1) := by
  unfold State.dropScan
  repeat' first
    | with_reducible exact h | simp only [↓Kept.upd_iff]

theorem State.scanKnown_kept {r s : State} (h : Kept r s) (a1 : CmdId) (a2 : Adm) : Kept r
    (State.scanKnown s a1 a2) := by
  unfold State.scanKnown
  repeat' first
    | with_reducible exact h | with_reducible apply Kept.ite | simp only [↓Kept.upd_iff]

theorem State.hurdleRun_kept {r s : State} (h : Kept r s) (a1 : CmdId) : Kept r (State.hurdleRun s a1) := by
  unfold State.hurdleRun
  repeat' first
    | with_reducible exact h | intro _ | with_reducible apply State.onEngine_kept
    | with_reducible apply State.failCmd_kept | with_reducible apply State.dropScan_kept
    | with_reducible apply State.scanKnown_kept | split

theorem State.hurdleDescriptor_kept {r s : State} (h : Kept r s) (a1 : CmdId) (a2 : Fetch) : Kept r
    (State.hurdleDescriptor s a1 a2) := by
  unfold State.hurdleDescriptor
  repeat' first
    | with_reducible apply State.readInFails_kept
    | with_reducible exact h | intro _ | with_reducible apply State.onEngine_kept
    | with_reducible apply State.scanKnown_kept | with_reducible apply State.finish_kept
    | with_reducible apply State.dropEntry_kept | with_reducible apply State.dropScan_kept
    | with_reducible apply State.ev_kept | with_reducible apply State.modAdm_kept
    | with_reducible apply State.modScan_kept | with_reducible apply Kept.ite | simp only | split

theorem State.scanBegin_kept {r s : State} (h : Kept r s) (a1 : Scan) : Kept r (State.scanBegin s a1) := by
  unfold State.scanBegin
  repeat' first
    | with_reducible exact h | with_reducible apply State.engineRead_kept | with_reducible apply State.failCmd_kept
    | with_reducible apply State.dropScan_kept | with_reducible apply State.modAdm_kept
    | with_reducible apply State.modScan_kept | with_reducible apply Kept.ite | simp only | split

theorem State.scanCount_kept {r s : State} (h : Kept r s) (a1 : Scan) (a2 a3 a4 : Nat) : Kept r
    (State.scanCount s a1 a2 a3 a4) := by
  unfold State.scanCount
  repeat' first
    | with_reducible exact h | with_reducible apply State.unitsRead_kept | simp only [↓Kept.upd_iff]

theorem State.scanFail_kept {r s : State} (h : Kept r s) (a1 : Scan) (a2 : Adm) (a3 a4 : Nat) (a5 : Status)
    (a6 a7 : Nat) : Kept r (State.scanFail s a1 a2 a3 a4 a5 a6 a7) := by
  unfold State.scanFail
  repeat' first
    | with_reducible exact h | with_reducible apply State.finish_kept | with_reducible apply State.partialWrite_kept
    | with_reducible apply State.scanCount_kept | with_reducible apply State.dropScan_kept | simp only [↓Kept.upd_iff]

theorem State.handTick_kept {r s : State} (h : Kept r s) (a1 : Scan) (a2 : Nat) : Kept r (State.handTick s a1 a2) := by
  unfold State.handTick
  repeat' first
    | with_reducible exact h | with_reducible apply State.modScan_kept | with_reducible apply State.patCount_kept
    | with_reducible apply Kept.ite | simp only | split

theorem State.scanDeliver_kept {r s : State} (h : Kept r s) (a1 : Scan) (a2 : Adm) (a3 : Bytes) (a4 : ScanOut)
    (a5 : Status) : Kept r (State.scanDeliver s a1 a2 a3 a4 a5) := by
  unfold State.scanDeliver
  repeat' first
    | with_reducible exact h | with_reducible apply State.dropScan_kept | with_reducible apply State.respond_kept
    | with_reducible apply State.scanCount_kept

theorem State.compHolder_kept {r s : State} (h : Kept r s) : Kept r (State.compHolder s).1 := by
  unfold State.compHolder
  repeat' first
    | with_reducible exact h | simp only [↓Kept.upd_iff] | split

theorem State.compHolder_keptE {t : State} {x : _} {r s : State} (h : Kept r s) (e : State.compHolder s = (t, x))
    : Kept r t := by
  have q := State.compHolder_kept h  ; rw [e] at q; exact q

theorem State.compTick_kept {r s : State} (h : Kept r s) : Kept r (State.compTick s) := by
  unfold State.compTick
  repeat' first
    | with_reducible exact h | with_reducible apply State.compHolder_kept | simp only [↓Kept.upd_iff]

theorem State.endSlot_kept {r s : State} (h : Kept r s) : Kept r (State.endSlot s) := by
  unfold State.endSlot
  repeat' first
    | with_reducible exact h | simp only [↓Kept.upd_iff]

theorem State.packStep_kept {r s : State} (h : Kept r s) (a1 : Scan) : Kept r (State.packStep s a1) := by
  unfold State.packStep
  repeat' first
    | with_reducible exact h | with_reducible apply State.endSlot_kept | with_reducible apply State.modScan_kept
    | with_reducible apply Kept.ite

theorem State.scanEnd_kept {r s : State} (h : Kept r s) (a1 : Scan) : Kept r (State.scanEnd s a1) := by
  unfold State.scanEnd
  repeat' first
    | with_reducible exact h | with_reducible apply State.scanFail_kept | with_reducible apply State.handTick_kept
    | with_reducible apply State.scanDeliver_kept | with_reducible apply State.packStep_kept
    | with_reducible apply Kept.ite | simp only [↓Kept.upd_iff] | split

theorem State.cmdHdlStop_kept {r s : State} (h : Kept r s) (a1 : Nat) (a2 : Nat) (a3 : Nat) : Kept r
    (State.cmdHdlStop s a1 a2 a3) := by
  unfold State.cmdHdlStop
  repeat' first
    | with_reducible exact h | with_reducible assumption | intro _ | with_reducible apply State.winWrite_kept
    | simp only [↓Kept.upd_iff]

theorem State.hdlStopAct_kept {r s : State} (h : Kept r s) (a1 : Nat × Nat × Nat) : Kept r
    (State.hdlStopAct s a1) := by
  unfold State.hdlStopAct
  repeat' first
    | with_reducible exact h | with_reducible apply State.modScan_kept | with_reducible apply Kept.ite
    | simp only [↓Kept.upd_iff]

theorem State.hurdleTick_kept {r s : State} (h : Kept r s) : Kept r (State.hurdleTick s) := by
  unfold State.hurdleTick
  repeat' first
    | with_reducible exact h | with_reducible assumption | intro _ | with_reducible apply State.hdlStopAct_kept
    | with_reducible apply State.scanEnd_kept | with_reducible apply State.compTick_kept
    | with_reducible apply State.scanBegin_kept | with_reducible apply Kept.foldl | simp only [↓Kept.upd_iff]

end Sys2Proof.Machine
end

