-- ==== Sys2Proof/Laws/KeptField.lean ====
section
/-! SUPPORT. What every operation of the relay, the slice manager and the field keeps. -/

namespace Sys2Proof.Machine

open State

/-! ### Relay -/

theorem State.takeJoin_kept {r s : State} (h : Kept r s) : Kept r (State.takeJoin s) := by
  unfold State.takeJoin
  repeat' first
    | with_reducible exact h | with_reducible apply State.setRly_kept | with_reducible apply State.ev_kept
    | with_reducible apply Kept.ite

theorem State.installFieldKey_kept {r s : State} (h : Kept r s) (a1 : FieldKey) (a2 : Option Nat) : Kept r
    (State.installFieldKey s a1 a2) := by
  unfold State.installFieldKey
  repeat' first
    | with_reducible exact h | with_reducible assumption | intro _ | with_reducible apply State.setRly_kept
    | with_reducible apply State.ev_kept | with_reducible apply State.modRly_kept
    | with_reducible apply State.sendFieldKey_kept | with_reducible apply Kept.ite | with_reducible apply Kept.foldl
    | simp only | simp only [↓Kept.updDur_iff]

theorem State.newFieldKey_kept {r s : State} (h : Kept r s) : Kept r (State.newFieldKey s) := by
  unfold State.newFieldKey
  repeat' first
    | with_reducible exact h | with_reducible apply State.drawBytes_kept
    | with_reducible apply State.installFieldKey_kept

theorem State.fieldKey_kept {r s : State} (h : Kept r s) (a1 : Nat) (a2 : Nat) (a3 : Nat) (a4 : Bytes) : Kept r
    (State.fieldKey s a1 a2 a3 a4) := by
  unfold State.fieldKey
  repeat' first
    | with_reducible exact h | with_reducible apply State.tookFrame_kept
    | with_reducible apply State.installFieldKey_kept | with_reducible apply State.modRly_kept
    | with_reducible apply Kept.ite

theorem State.installRoster_kept {r s : State} (h : Kept r s) (a1 : Bytes) : Kept r (State.installRoster s a1) := by
  unfold State.installRoster
  repeat' first
    | with_reducible exact h | with_reducible assumption | intro _ | with_reducible apply State.ev_kept
    | with_reducible apply State.setRly_kept | with_reducible apply State.takeJoin_kept
    | with_reducible apply State.sendLink_kept | with_reducible apply State.newFieldKey_kept
    | with_reducible apply Kept.ite | with_reducible apply Kept.foldl | simp only
    | simp only [↓Kept.updDur_iff] | split

theorem State.raiseFloor_kept {r s : State} (h : Kept r s) (a1 : Nat) : Kept r (State.raiseFloor s a1) := by
  unfold State.raiseFloor
  repeat' first
    | with_reducible exact h | with_reducible apply State.ev_kept | with_reducible apply State.setRly_kept
    | with_reducible apply Kept.ite

theorem State.hello_kept {r s : State} (h : Kept r s) (a1 : Nat) (a2 : HelloMsg) : Kept r (State.hello s a1 a2) := by
  unfold State.hello
  repeat' first
    | with_reducible exact h | with_reducible apply State.raiseFloor_kept
    | with_reducible apply State.tookFrame_kept | with_reducible apply State.sendLink_kept
    | with_reducible apply State.modRly_kept | with_reducible apply State.ev_kept
    | with_reducible apply State.startOffer_kept | with_reducible apply Kept.ite | simp only | split

theorem State.summarySend_kept {r s : State} (h : Kept r s) : Kept r (State.summarySend s) := by
  unfold State.summarySend
  repeat' first
    | with_reducible exact h | with_reducible assumption | intro _ | with_reducible apply State.setRly_kept
    | with_reducible apply State.sendLink_kept | with_reducible apply Kept.ite | with_reducible apply Kept.foldl

theorem State.keyHeard_kept {r s : State} (h : Kept r s) (a1 a2 : Nat) : Kept r (State.keyHeard s a1 a2) := by
  unfold State.keyHeard
  repeat' first
    | with_reducible exact h | with_reducible apply State.modRly_kept | with_reducible apply Kept.ite

theorem State.passSummary_kept {r s : State} (h : Kept r s) (a1 : Nat) (a2 : SummaryMsg) (a3 : Bytes) : Kept r
    (State.passSummary s a1 a2 a3) := by
  unfold State.passSummary
  repeat' first
    | with_reducible exact h | with_reducible apply State.emit_kept | with_reducible apply State.modRly_kept

theorem State.summary_kept {r s : State} (h : Kept r s) (a1 : Nat) (a2 : SummaryMsg) : Kept r
    (State.summary s a1 a2) := by
  unfold State.summary
  repeat' first
    | with_reducible exact h | with_reducible assumption | intro _ | with_reducible apply State.raiseFloor_kept
    | with_reducible apply State.tookFrame_kept | with_reducible apply State.modRly_kept
    | with_reducible apply State.setRly_kept | with_reducible apply State.passSummary_kept | with_reducible apply State.keyHeard_kept
    | with_reducible apply State.frameDiscard_kept
    | with_reducible apply Kept.ite | with_reducible apply Kept.foldl

theorem State.countNoRoute_kept {r s : State} (h : Kept r s) : Kept r (State.countNoRoute s) := by
  unfold State.countNoRoute
  repeat' first
    | with_reducible exact h | with_reducible apply State.setRly_kept

theorem State.retransmit_kept {r s : State} (h : Kept r s) (a1 : Nat) : Kept r (State.retransmit s a1) := by
  unfold State.retransmit
  repeat' first
    | with_reducible exact h | with_reducible apply State.setRly_kept | with_reducible apply State.modRly_kept
    | with_reducible apply State.sendOnRoute_kept | simp only | split

theorem State.rlyCommand_kept {r s : State} (h : Kept r s) (a1 : Requester) (a2 : State → State)
    (h2 : ∀ (x0 : State), Kept r x0 → Kept r (a2 x0)) : Kept r (State.rlyCommand s a1 a2) := by
  unfold State.rlyCommand
  repeat' first
    | with_reducible exact h | with_reducible assumption | intro _ | with_reducible apply h2
    | with_reducible apply State.bar0Write_kept | with_reducible apply State.discardDev_kept
    | with_reducible apply Kept.ite

theorem State.rlyResult_kept {r s : State} (h : Kept r s) (a1 : Nat) : Kept r (State.rlyResult s a1) := by
  unfold State.rlyResult
  repeat' first
    | with_reducible exact h | with_reducible apply State.setRly_kept

theorem State.cmdRekey_kept {r s : State} (h : Kept r s) (a1 : Requester) : Kept r (State.cmdRekey s a1) := by
  unfold State.cmdRekey
  repeat' first
    | with_reducible exact h | with_reducible assumption | intro _ | with_reducible apply State.rlyCommand_kept
    | with_reducible apply State.newFieldKey_kept | with_reducible apply State.rlyResult_kept
    | with_reducible apply Kept.ite

theorem State.cmdDumpField_kept {r s : State} (h : Kept r s) (a1 : Requester) (a2 : Bool) : Kept r
    (State.cmdDumpField s a1 a2) := by
  unfold State.cmdDumpField
  repeat' first
    | with_reducible exact h | with_reducible assumption | intro _ | with_reducible apply State.rlyCommand_kept
    | with_reducible apply State.rlyResult_kept | with_reducible apply State.emit_kept
    | with_reducible apply Kept.ite

theorem State.setTime_kept {r s : State} (h : Kept r s) (a1 : FieldTime) : Kept r (State.setTime s a1) := by
  unfold State.setTime
  repeat' first
    | with_reducible exact h | with_reducible apply State.setRly_kept

theorem State.ppsLap_kept {r s : State} (h : Kept r s) : Kept r (State.ppsLap s) := by
  unfold State.ppsLap
  repeat' first
    | with_reducible exact h | with_reducible apply State.setTime_kept | with_reducible apply Kept.ite

theorem State.latchLap_kept {r s : State} (h : Kept r s) : Kept r (State.latchLap s) := by
  unfold State.latchLap
  repeat' first
    | with_reducible exact h | with_reducible apply State.setTime_kept

theorem State.setTimeLap_kept {r s : State} (h : Kept r s) : Kept r (State.setTimeLap s) := by
  unfold State.setTimeLap
  repeat' first
    | with_reducible exact h | with_reducible apply State.setTime_kept | with_reducible apply Kept.ite
    | simp only | split

theorem State.headLap_kept {r s : State} (h : Kept r s) : Kept r (State.headLap s) := by
  unfold State.headLap
  repeat' first
    | with_reducible exact h | with_reducible apply State.setTime_kept | with_reducible apply Kept.ite

theorem State.followLap_kept {r s : State} (h : Kept r s) (a1 : Route) : Kept r (State.followLap s a1) := by
  unfold State.followLap
  repeat' first
    | with_reducible exact h | with_reducible apply State.setTime_kept | with_reducible apply State.modRly_kept
    | with_reducible apply State.ev_kept | with_reducible apply Kept.ite | simp only | split

theorem State.holdLap_kept {r s : State} (h : Kept r s) : Kept r (State.holdLap s) := by
  unfold State.holdLap
  repeat' first
    | with_reducible exact h | with_reducible apply State.setTime_kept | with_reducible apply State.ev_kept
    | with_reducible apply Kept.ite

theorem State.timeLap_kept {r s : State} (h : Kept r s) : Kept r (State.timeLap s) := by
  unfold State.timeLap
  repeat' first
    | with_reducible exact h | with_reducible apply State.latchLap_kept | with_reducible apply State.ppsLap_kept
    | with_reducible apply State.setTime_kept | with_reducible apply State.holdLap_kept
    | with_reducible apply State.setTimeLap_kept | with_reducible apply State.ev_kept
    | with_reducible apply State.followLap_kept | with_reducible apply State.headLap_kept
    | with_reducible apply Kept.ite | simp only | split

theorem State.paceSend_kept {r s : State} (h : Kept r s) : Kept r (State.paceSend s) := by
  unfold State.paceSend
  repeat' first
    | with_reducible exact h | with_reducible assumption | intro _ | with_reducible apply State.modRly_kept
    | with_reducible apply State.sendLink_kept | with_reducible apply Kept.foldl

theorem State.pace_kept {r s : State} (h : Kept r s) (a1 : Nat) (a2 : PaceMsg) : Kept r (State.pace s a1 a2) := by
  unfold State.pace
  repeat' first
    | with_reducible exact h | with_reducible apply State.tookFrame_kept | with_reducible apply State.modRly_kept
    | with_reducible apply State.keyHeard_kept | with_reducible apply State.frameDiscard_kept | with_reducible apply Kept.ite

theorem State.ppsEdge_kept {r s : State} (h : Kept r s) (a1 : Int) (a2 : Nat) : Kept r (State.ppsEdge s a1 a2) := by
  unfold State.ppsEdge
  repeat' first
    | with_reducible exact h | with_reducible apply State.setTime_kept | with_reducible apply Kept.ite
    | simp only | split

theorem State.cmdSetTime_kept {r s : State} (h : Kept r s) (a1 : Requester) : Kept r (State.cmdSetTime s a1) := by
  unfold State.cmdSetTime
  repeat' first
    | with_reducible exact h | with_reducible assumption | intro _ | with_reducible apply State.rlyCommand_kept
    | with_reducible apply State.rlyResult_kept | with_reducible apply State.setTime_kept
    | with_reducible apply Kept.ite

theorem State.ppsOutTick_kept {r s : State} (h : Kept r s) : Kept r (State.ppsOutTick s) := by
  unfold State.ppsOutTick
  repeat' first
    | with_reducible exact h | with_reducible apply State.setPin_kept | with_reducible apply State.setTime_kept
    | with_reducible apply Kept.ite | simp only | split

theorem State.portsLap_kept {r s : State} (h : Kept r s) : Kept r (State.portsLap s) := by
  unfold State.portsLap
  repeat' first
    | with_reducible exact h | with_reducible assumption | intro _ | with_reducible apply State.modRly_kept
    | with_reducible apply State.linkDown_kept | with_reducible apply Kept.ite | with_reducible apply Kept.foldl
    | split

theorem State.keysLap_kept {r s : State} (h : Kept r s) : Kept r (State.keysLap s) := by
  unfold State.keysLap
  repeat' first
    | with_reducible exact h | with_reducible assumption | intro _ | with_reducible apply State.setRly_kept
    | with_reducible apply State.newFieldKey_kept | with_reducible apply State.sendFieldKey_kept
    | with_reducible apply Kept.ite | with_reducible apply Kept.foldl

theorem State.relayLap_kept {r s : State} (h : Kept r s) : Kept r (State.relayLap s) := by
  unfold State.relayLap
  repeat' first
    | with_reducible exact h | with_reducible apply State.latchLap_kept | with_reducible apply State.ppsLap_kept
    | with_reducible apply State.portsLap_kept | with_reducible apply State.keysLap_kept
    | with_reducible apply State.setRly_kept | with_reducible apply State.paceSend_kept
    | with_reducible apply State.timeLap_kept | with_reducible apply State.raiseFloor_kept
    | with_reducible apply State.countNoRoute_kept | with_reducible apply Kept.ite

/-! ### Slice -/

theorem State.setShares_kept {r s : State} (h : Kept r s) (a1 : Nat) (a2 : Draw) : Kept r
    (State.setShares s a1 a2) := by
  unfold State.setShares
  repeat' first
    | with_reducible exact h | with_reducible apply State.forceSet_kept

theorem State.putCells_kept {r s : State} (h : Kept r s) (a1 : Nat) (a2 : Nat) (a3 : Nat) (a4 : List Host.Cell)
    : Kept r (State.putCells s a1 a2 a3 a4) := by
  unfold State.putCells
  repeat' first
    | with_reducible exact h | with_reducible assumption | intro _ | with_reducible apply State.memWrite_kept
    | with_reducible apply State.memClear_kept | with_reducible apply Kept.foldl

theorem State.zeroSlice_kept {r s : State} (h : Kept r s) (a1 : Nat) : Kept r (State.zeroSlice s a1) := by
  unfold State.zeroSlice
  dsimp only
  have k : ∀ s : State, Kept r s → ∀ (x : Slice) (a b : Nat), Kept r ((x.banks.foldl (fun s b => s.memClear (bankPlace b).1 (bankPlace b).2 ((bankPlace b).2 + 2 ^ 20))
      (x.cores.foldl (fun s c => s.memClear c 0 0x40000) s)).memClear dramArr a b) := fun s h x a b =>
    State.memClear_kept (Kept.foldl (Kept.foldl h (fun s _ h => State.memClear_kept h _ _ _))
      (fun s _ h => State.memClear_kept h _ _ _)) _ _ _
  split
  · refine Kept.setCmb (State.freshWords_kept (k s h _ _ _) _) ?_
    rw [State.freshWords_cmb]
    exact mclear_wf _ _
  · exact k s h _ _ _

theorem State.setSerial_kept {r s : State} (h : Kept r s) (a1 : Nat) (a2 : Serial) : Kept r
    (State.setSerial s a1 a2) := by
  unfold State.setSerial
  repeat' first
    | with_reducible exact h | simp only | simp only [↓Kept.updDur_iff]

theorem State.sealBytes_kept {r s : State} (h : Kept r s) (a1 : Bytes) (a2 : Nat) (a3 : Nat) (a4 : Nat) (a5 : Nat)
    : Kept r (State.sealBytes s a1 a2 a3 a4 a5).2 := by
  unfold State.sealBytes
  repeat' first
    | with_reducible exact h | with_reducible apply State.drawBytes_kept

theorem State.sealBytes_keptE {t : State} {x : _} {r s : State} (h : Kept r s) (a1 : Bytes) (a2 : Nat) (a3 : Nat)
    (a4 : Nat) (a5 : Nat) (e : State.sealBytes s a1 a2 a3 a4 a5 = (x, t)) : Kept r t := by
  have q := State.sealBytes_kept h a1 a2 a3 a4 a5 ; rw [e] at q; exact q

theorem State.sealBaton_kept {r s : State} (h : Kept r s) (a1 : Nat) : Kept r (State.sealBaton s a1).2 := by
  unfold State.sealBaton
  repeat' first
    | with_reducible exact h | with_reducible apply State.sealBytes_kept

theorem State.sealBaton_keptE {t : State} {x : _} {r s : State} (h : Kept r s) (a1 : Nat)
    (e : State.sealBaton s a1 = (x, t)) : Kept r t := by
  have q := State.sealBaton_kept h a1 ; rw [e] at q; exact q

theorem State.loadBaton_kept {r s : State} (h : Kept r s) (a1 : Nat) (a2 : Baton) : Kept r
    (State.loadBaton s a1 a2) := by
  unfold State.loadBaton
  repeat' first
    | with_reducible exact h | with_reducible assumption | intro _ | with_reducible apply State.setSlice_kept
    | with_reducible apply State.putCells_kept | with_reducible apply State.sysChoose_kept
    | with_reducible apply State.modKeys_kept | with_reducible apply State.modHeatRegs_kept
    | with_reducible apply State.setCore_kept | with_reducible apply Kept.foldl | simp only [↓Kept.upd_iff]

theorem State.setSlc_kept {r s : State} (h : Kept r s) (a1 : Slc) : Kept r (State.setSlc s a1) := by
  unfold State.setSlc
  repeat' first
    | with_reducible exact h | simp only [↓Kept.upd_iff]

theorem State.slcRefuse_kept {r s : State} (h : Kept r s) (a1 : SlcPending) (a2 : SlcBad) : Kept r
    (State.slcRefuse s a1 a2) := by
  unfold State.slcRefuse
  repeat' first
    | with_reducible exact h | with_reducible apply State.ev_kept | with_reducible apply State.setSlc_kept

theorem State.slcAccept_kept {r s : State} (h : Kept r s) (a1 : SlcPending) : Kept r (State.slcAccept s a1) := by
  unfold State.slcAccept
  repeat' first
    | with_reducible exact h | with_reducible apply State.setSlc_kept

theorem State.slcWrite_kept {r s : State} (h : Kept r s) (a1 : Requester) (a2 : SlcOp) (a3 : Nat) (a4 : Bool)
    : Kept r (State.slcWrite s a1 a2 a3 a4) := by
  unfold State.slcWrite
  repeat' first
    | with_reducible exact h | with_reducible assumption | intro _ | with_reducible apply State.bar0Write_kept
    | with_reducible apply State.setSlc_kept | with_reducible apply Kept.ite

theorem State.cutFlushes_kept {r s : State} (h : Kept r s) (a1 : Nat) : Kept r (State.cutFlushes s a1) := by
  unfold State.cutFlushes
  repeat' first
    | with_reducible exact h | with_reducible apply State.setFtl_kept

theorem State.voidFlushes_kept {r s : State} (h : Kept r s) (a1 : Nat) : Kept r (State.voidFlushes s a1) := by
  unfold State.voidFlushes
  repeat' first
    | with_reducible exact h | with_reducible apply State.setFtl_kept

theorem State.beginDestroy_kept {r s : State} (h : Kept r s) (a1 : Nat) : Kept r (State.beginDestroy s a1) := by
  unfold State.beginDestroy
  repeat' first
    | with_reducible exact h | with_reducible assumption | intro _ | with_reducible apply State.setSerial_kept
    | with_reducible apply State.dropHeats_kept | with_reducible apply State.discardCmd_kept
    | with_reducible apply State.voidFlushes_kept | with_reducible apply State.cutFlushes_kept
    | with_reducible apply State.patZero_kept | with_reducible apply State.dropKeys_kept
    | with_reducible apply State.trimJournal_kept | with_reducible apply State.ev_kept
    | with_reducible apply State.modSlice_kept | with_reducible apply Kept.foldl

theorem State.slcJudge_kept {r s : State} (h : Kept r s) (a1 : SlcPending) : Kept r (State.slcJudge s a1) := by
  unfold State.slcJudge
  repeat' first
    | with_reducible exact h | with_reducible apply State.setSlc_kept | with_reducible apply State.ev_kept
    | with_reducible apply State.slcRefuse_kept | with_reducible apply State.heatSuspend_kept
    | with_reducible apply State.modSlice_kept | with_reducible apply State.slcAccept_kept
    | with_reducible apply State.heatThaw_kept | with_reducible apply State.heatDrain_kept
    | with_reducible apply State.squash_kept | with_reducible apply State.setSerial_kept
    | with_reducible apply State.beginDestroy_kept | with_reducible apply Kept.ite | simp only
    | split

theorem State.slcTick_kept {r s : State} (h : Kept r s) (a1 : State → SlcPending → State)
    (h1 : ∀ (x0 : State) (x1 : SlcPending), Kept r x0 → Kept r (a1 x0 x1)) : Kept r (State.slcTick s a1) := by
  unfold State.slcTick
  repeat' first
    | with_reducible exact h | with_reducible apply h1 | with_reducible apply State.slcRefuse_kept
    | with_reducible apply State.slcJudge_kept | with_reducible apply Kept.ite | split

theorem State.freshSlice_kept {r s : State} (h : Kept r s) (a1 : Nat) : Kept r (State.freshSlice s a1) := by
  unfold State.freshSlice
  repeat' first
    | with_reducible exact h | with_reducible apply State.modKeys_kept | with_reducible apply State.setKst_kept
    | with_reducible apply State.patZero_kept | with_reducible apply State.modHeatRegs_kept
    | simp only [↓Kept.upd_iff]

theorem State.createWith_kept {r s : State} (h : Kept r s) (a1 : SlcPending) (a2 : Bytes) : Kept r
    (State.createWith s a1 a2) := by
  unfold State.createWith
  repeat' first
    | with_reducible exact h | with_reducible apply State.slcRefuse_kept
    | with_reducible apply State.freshSlice_kept | with_reducible apply State.setShares_kept
    | with_reducible apply State.setSlice_kept | with_reducible apply State.slcAccept_kept
    | simp only | split

theorem State.restoreWith_kept {r s : State} (h : Kept r s) (a1 : SlcPending) (a2 : Bytes) : Kept r
    (State.restoreWith s a1 a2) := by
  unfold State.restoreWith
  repeat' first
    | with_reducible exact h | with_reducible apply State.ev_kept | with_reducible apply State.slcRefuse_kept
    | with_reducible apply State.setShares_kept | with_reducible apply State.setSlice_kept
    | with_reducible apply State.slcAccept_kept | with_reducible apply Kept.ite | simp only | split

theorem State.moveWith_kept {r s : State} (h : Kept r s) (a1 : SlcPending) (a2 : Bytes) : Kept r
    (State.moveWith s a1 a2) := by
  unfold State.moveWith
  repeat' first
    | with_reducible exact h | with_reducible apply State.slcRefuse_kept | with_reducible apply State.modSlice_kept
    | with_reducible apply State.slcAccept_kept | with_reducible apply Kept.ite | split

theorem State.createAsk_kept {r s : State} (h : Kept r s) (a1 : SlcPending) (a2 : Bytes) : Kept r
    (State.createAsk s a1 a2) := by
  unfold State.createAsk
  repeat' first
    | with_reducible exact h | with_reducible apply State.slcRefuse_kept | with_reducible apply State.setKst_kept
    | with_reducible apply Kept.ite | split

theorem State.keygenDone_kept {r s : State} (h : Kept r s) (a1 : Nat) (a2 : Bytes) : Kept r (State.keygenDone s a1 a2) := by
  unfold State.keygenDone
  repeat' first
    | with_reducible exact h | with_reducible apply State.createWith_kept | with_reducible apply Kept.ite | split

theorem State.pkJobEnd_kept {r s : State} (h : Kept r s) : Kept r (State.pkJobEnd s) := by
  unfold State.pkJobEnd
  repeat' first
    | with_reducible exact h | with_reducible apply State.keygenDone_kept | with_reducible apply State.setKst_kept
    | with_reducible apply State.pkComplete_kept | with_reducible apply Kept.ite | split

theorem State.slcFetchEnd_kept {r s : State} (h : Kept r s) (a1 : Nat) (a2 : Fetch) : Kept r
    (State.slcFetchEnd s a1 a2) := by
  unfold State.slcFetchEnd
  repeat' first
    | with_reducible exact h | with_reducible apply State.slcRefuse_kept
    | with_reducible apply State.createAsk_kept
    | with_reducible apply State.createWith_kept | with_reducible apply State.restoreWith_kept
    | with_reducible apply State.moveWith_kept | with_reducible apply Kept.ite | split

theorem State.sliceFrozen_kept {r s : State} (h : Kept r s) (a1 : Nat) : Kept r (State.sliceFrozen s a1) := by
  unfold State.sliceFrozen
  repeat' first
    | with_reducible exact h | with_reducible apply State.ev_kept | with_reducible apply State.setSlice_kept
    | with_reducible apply Kept.ite

theorem State.resetComplete_kept {r s : State} (h : Kept r s) (a1 : Nat) : Kept r (State.resetComplete s a1) := by
  unfold State.resetComplete
  repeat' first
    | with_reducible exact h | with_reducible apply State.ev_kept | with_reducible apply State.setSlice_kept
    | with_reducible apply Kept.ite

theorem State.slcFailed_kept {r s : State} (h : Kept r s) (a1 : Nat) (a2 : Nat) (a3 : Slice → Slice) : Kept r
    (State.slcFailed s a1 a2 a3) := by
  unfold State.slcFailed
  repeat' first
    | with_reducible exact h | with_reducible apply State.ev_kept | with_reducible apply State.modSlice_kept

theorem State.saveEnd_kept {r s : State} (h : Kept r s) (a1 : Nat) (a2 : Bool) : Kept r (State.saveEnd s a1 a2) := by
  unfold State.saveEnd
  repeat' first
    | with_reducible exact h | with_reducible apply State.slcFailed_kept | with_reducible apply State.sealBaton_kept
    | with_reducible apply State.emit_kept | with_reducible apply State.zeroSlice_kept
    | with_reducible apply State.patZero_kept | with_reducible apply State.dropKeys_kept
    | with_reducible apply State.dropHeats_kept | with_reducible apply State.ev_kept
    | with_reducible apply State.modSlice_kept | with_reducible apply Kept.ite | simp only [↓Kept.upd_iff]
    | simp only [↓Kept.updDur_iff]

theorem State.restoreEnd_kept {r s : State} (h : Kept r s) (a1 : Nat) (a2 : Bool) : Kept r
    (State.restoreEnd s a1 a2) := by
  unfold State.restoreEnd
  repeat' first
    | with_reducible exact h | with_reducible apply State.ev_kept | with_reducible apply State.loadBaton_kept
    | with_reducible apply State.setSerial_kept | with_reducible apply State.slcFailed_kept
    | with_reducible apply State.zeroSlice_kept | with_reducible apply Kept.ite | simp only | split

theorem State.destroyEnd_kept {r s : State} (h : Kept r s) (a1 : Nat) : Kept r (State.destroyEnd s a1) := by
  unfold State.destroyEnd
  repeat' first
    | with_reducible exact h | with_reducible apply State.zeroSlice_kept
    | with_reducible apply State.modHeatRegs_kept | with_reducible apply State.ev_kept
    | with_reducible apply State.modSlice_kept | with_reducible apply Kept.ite | simp only [↓Kept.upd_iff]

theorem State.releaseLap_kept {r s : State} (h : Kept r s) : Kept r (State.releaseLap s) := by
  unfold State.releaseLap
  repeat' first
    | with_reducible exact h | with_reducible assumption | intro _ | with_reducible apply State.setSlice_kept
    | with_reducible apply State.forceSet_kept | with_reducible apply Kept.ite | with_reducible apply Kept.foldl

theorem State.bindLap_kept {r s : State} (h : Kept r s) : Kept r (State.bindLap s) := by
  unfold State.bindLap
  repeat' first
    | with_reducible exact h | with_reducible assumption | intro _ | with_reducible apply State.setSlice_kept
    | with_reducible apply State.ev_kept | with_reducible apply State.sliceLog_kept | with_reducible apply Kept.ite
    | with_reducible apply Kept.foldl | simp only [↓Kept.upd_iff]

theorem State.moveLap_kept {r s : State} (h : Kept r s) : Kept r (State.moveLap s) := by
  unfold State.moveLap
  repeat' first
    | with_reducible exact h | with_reducible assumption | intro _ | with_reducible apply State.modSlice_kept
    | with_reducible apply State.dropHeats_kept | with_reducible apply State.ev_kept
    | with_reducible apply Kept.foldl | simp only | split

theorem State.dealLap_kept {r s : State} (h : Kept r s) : Kept r (State.dealLap s) := by
  unfold State.dealLap
  repeat' first
    | with_reducible exact h | with_reducible apply State.setSlc_kept

theorem State.restoreLap_kept {r s : State} (h : Kept r s) : Kept r (State.restoreLap s) := by
  unfold State.restoreLap
  repeat' first
    | with_reducible exact h | simp only [↓Kept.upd_iff]

theorem State.slicesLap_kept {r s : State} (h : Kept r s) : Kept r (State.slicesLap s) := by
  unfold State.slicesLap
  repeat' first
    | with_reducible exact h | with_reducible apply State.dealLap_kept | with_reducible apply State.restoreLap_kept
    | with_reducible apply State.moveLap_kept | with_reducible apply State.bindLap_kept
    | with_reducible apply State.releaseLap_kept

/-! ### Field -/

theorem State.tookFrom_kept {r s : State} (h : Kept r s) (a1 : Nat) : Kept r (State.tookFrom s a1) := by
  unfold State.tookFrom
  repeat' first
    | with_reducible exact h | with_reducible apply State.tookFrame_kept | split

theorem State.onRouted_kept {r s : State} (h : Kept r s) (a1 : Nat) (a2 : State → State)
    (h2 : ∀ (x0 : State), Kept r x0 → Kept r (a2 x0)) : Kept r (State.onRouted s a1 a2) := by
  unfold State.onRouted
  repeat' first
    | with_reducible exact h | with_reducible apply h2 | with_reducible apply State.tookFrom_kept
    | with_reducible apply Kept.ite

theorem State.modPairing_kept {r s : State} (h : Kept r s) (a1 : Nat) (a2 : Pairing → Pairing) : Kept r
    (State.modPairing s a1 a2) := by
  unfold State.modPairing
  repeat' first
    | with_reducible exact h | with_reducible apply State.modSlice_kept

theorem State.waitFails_kept {r s : State} (h : Kept r s) (a1 : Nat) (a2 : Nat) (a3 : PairWait) : Kept r
    (State.waitFails s a1 a2 a3) := by
  unfold State.waitFails
  repeat' first
    | with_reducible exact h | with_reducible apply State.logRanges_kept | with_reducible apply State.finish_kept
    | with_reducible apply State.ev_kept | with_reducible apply Kept.ite | simp only | split

theorem State.unpairNow_kept {r s : State} (h : Kept r s) (a1 : Nat) (a2 : Nat) (a3 : Bool) : Kept r
    (State.unpairNow s a1 a2 a3) := by
  unfold State.unpairNow
  repeat' first
    | with_reducible exact h | with_reducible apply State.modPairing_kept | with_reducible apply State.ev_kept
    | with_reducible apply Kept.ite

theorem State.unpair_kept {r s : State} (h : Kept r s) (a1 : Nat) (a2 : Nat) (a3 : Nat) (a4 : Option Bool)
    : Kept r (State.unpair s a1 a2 a3 a4) := by
  unfold State.unpair
  repeat' first
    | with_reducible exact h | with_reducible assumption | intro _ | with_reducible apply State.modPairing_kept
    | with_reducible apply State.waitFails_kept | with_reducible apply State.settle_kept
    | with_reducible apply State.unpairNow_kept | with_reducible apply Kept.ite | with_reducible apply Kept.foldl

theorem State.sendCopy_kept {r s : State} (h : Kept r s) (a1 : Nat) (a2 : LogRange) : Kept r
    (State.sendCopy s a1 a2) := by
  unfold State.sendCopy
  repeat' first
    | with_reducible exact h | with_reducible apply State.sendPair_kept | simp only | split

theorem State.pairUp_kept {r s : State} (h : Kept r s) (a1 : Nat) : Kept r (State.pairUp s a1) := by
  unfold State.pairUp
  repeat' first
    | with_reducible exact h | with_reducible apply State.modPairing_kept

theorem State.pairConfirmed_kept {r s : State} (h : Kept r s) (a1 : Nat) : Kept r (State.pairConfirmed s a1) := by
  unfold State.pairConfirmed
  repeat' first
    | with_reducible exact h | with_reducible assumption | intro _ | with_reducible apply State.pairUp_kept
    | with_reducible apply State.ev_kept | with_reducible apply State.sendCopy_kept
    | with_reducible apply State.modPairing_kept | with_reducible apply Kept.ite | with_reducible apply Kept.foldl

theorem State.copyAcked_kept {r s : State} (h : Kept r s) (a1 : Nat) (a2 : PairWait) : Kept r
    (State.copyAcked s a1 a2) := by
  unfold State.copyAcked
  repeat' first
    | with_reducible exact h | with_reducible apply State.modPairing_kept | with_reducible apply State.ev_kept
    | with_reducible apply State.pairUp_kept | with_reducible apply Kept.ite

theorem State.postAck_kept {r s : State} (h : Kept r s) (a1 : Nat) (a2 : Nat) (a3 : Nat) (a4 : Nat) : Kept r
    (State.postAck s a1 a2 a3 a4) := by
  unfold State.postAck
  repeat' first
    | with_reducible exact h | with_reducible assumption | intro _ | with_reducible apply State.onRouted_kept
    | with_reducible apply State.unpair_kept | with_reducible apply State.settle_kept
    | with_reducible apply State.modPairing_kept | with_reducible apply State.finish_kept
    | with_reducible apply State.copyAcked_kept | with_reducible apply State.pairConfirmed_kept
    | with_reducible apply Kept.ite | simp only | split

theorem State.sendConfirm_kept {r s : State} (h : Kept r s) (a1 : Nat) : Kept r (State.sendConfirm s a1) := by
  unfold State.sendConfirm
  repeat' first
    | with_reducible exact h | with_reducible apply State.settle_kept | with_reducible apply State.sendRouted_kept
    | with_reducible apply State.modPairing_kept

theorem State.pairConfirmSend_kept {r s : State} (h : Kept r s) (a1 : Nat) : Kept r (State.pairConfirmSend s a1) := by
  unfold State.pairConfirmSend
  repeat' first
    | with_reducible exact h | with_reducible apply State.sendConfirm_kept | with_reducible apply Kept.ite

theorem State.pairChanged_kept {r s : State} (h : Kept r s) (a1 : Nat) : Kept r (State.pairChanged s a1) := by
  unfold State.pairChanged
  repeat' first
    | with_reducible exact h | with_reducible apply State.modPairing_kept
    | with_reducible apply State.sendConfirm_kept | with_reducible apply Kept.ite

theorem State.answer_kept {r s : State} (h : Kept r s) (a1 : Nat) (a2 : PostMsg) (a3 : Nat) : Kept r
    (State.answer s a1 a2 a3) := by
  unfold State.answer
  repeat' first
    | with_reducible exact h | with_reducible apply State.modPairing_kept
    | with_reducible apply State.sendReply_kept

theorem State.applyPost_kept {r s : State} (h : Kept r s) (a1 : Nat) (a2 : PostMsg) : Kept r
    (State.applyPost s a1 a2) := by
  unfold State.applyPost
  repeat' first
    | with_reducible exact h | with_reducible apply State.modPairing_kept | with_reducible apply State.answer_kept
    | with_reducible apply State.addEntry_kept | simp only [↓Kept.upd_iff] | split

theorem State.drainInbox_kept {r s : State} (h : Kept r s) (a1 : Nat) (a2 : Nat) (a3 : Nat) : Kept r
    (State.drainInbox s a1 a2 a3) := by
  induction a3 generalizing s with
  | zero => exact h
  | succ k ih =>
    unfold State.drainInbox
    dsimp only
    split
    · exact h
    · exact ih (State.applyPost_kept (State.modPairing_kept h _ _) _ _)

theorem State.postReq_kept {r s : State} (h : Kept r s) (a1 : Nat) (a2 : PostMsg) : Kept r
    (State.postReq s a1 a2) := by
  unfold State.postReq
  repeat' first
    | with_reducible exact h | with_reducible assumption | intro _ | with_reducible apply State.onRouted_kept
    | with_reducible apply State.sendReply_kept | with_reducible apply State.drainInbox_kept
    | with_reducible apply State.applyPost_kept | with_reducible apply State.modPairing_kept
    | with_reducible apply Kept.ite | simp only | split

theorem State.noteSeen_kept {r s : State} (h : Kept r s) (a1 : Nat) (a2 : Nat) : Kept r (State.noteSeen s a1 a2) := by
  unfold State.noteSeen
  repeat' first
    | with_reducible exact h | with_reducible apply State.setRly_kept

theorem State.pairConfirm_kept {r s : State} (h : Kept r s) (a1 : Nat) (a2 : Nat) (a3 : Nat) (a4 : Nat) (a5 : Nat)
    : Kept r (State.pairConfirm s a1 a2 a3 a4 a5) := by
  unfold State.pairConfirm
  repeat' first
    | with_reducible exact h | with_reducible assumption | intro _ | with_reducible apply State.onRouted_kept
    | with_reducible apply State.sendReply_kept | with_reducible apply State.modPairing_kept
    | with_reducible apply State.noteSeen_kept | with_reducible apply Kept.ite | simp only | split

theorem State.modOut_kept {r s : State} (h : Kept r s) (a1 : Nat) (a2 : MigOut → MigOut) : Kept r
    (State.modOut s a1 a2) := by
  unfold State.modOut
  repeat' first
    | with_reducible exact h | with_reducible apply State.setRly_kept

theorem State.dropOut_kept {r s : State} (h : Kept r s) (a1 : Nat) : Kept r (State.dropOut s a1) := by
  unfold State.dropOut
  repeat' first
    | with_reducible exact h | with_reducible apply State.setRly_kept

theorem State.migrateGo_kept {r s : State} (h : Kept r s) (a1 : SlcPending) : Kept r (State.migrateGo s a1) := by
  unfold State.migrateGo
  repeat' first
    | with_reducible exact h | with_reducible apply State.slcRefuse_kept | with_reducible apply State.setSlc_kept
    | with_reducible apply State.setRly_kept | with_reducible apply State.sendRouted_kept
    | with_reducible apply Kept.ite

theorem State.migSend_kept {r s : State} (h : Kept r s) (a1 : MigOut) : Kept r (State.migSend s a1) := by
  unfold State.migSend
  repeat' first
    | with_reducible exact h | with_reducible assumption | intro _ | with_reducible apply State.sealBytes_kept
    | with_reducible apply State.sendRouted_kept | with_reducible apply State.modOut_kept
    | with_reducible apply Kept.foldl

theorem State.migResend_kept {r s : State} (h : Kept r s) (a1 : MigOut) : Kept r (State.migResend s a1) := by
  unfold State.migResend
  repeat' first
    | with_reducible exact h | with_reducible apply State.sendRouted_kept | with_reducible apply State.modOut_kept

theorem State.migTick_kept {r s : State} (h : Kept r s) : Kept r (State.migTick s) := by
  unfold State.migTick
  repeat' first
    | with_reducible exact h | with_reducible assumption | intro _ | with_reducible apply State.migSend_kept
    | with_reducible apply State.migResend_kept | with_reducible apply Kept.ite | with_reducible apply Kept.foldl

theorem State.migReply_kept {r s : State} (h : Kept r s) (a1 : Nat) (a2 : Nat) (a3 : Nat) (a4 : Nat) : Kept r
    (State.migReply s a1 a2 a3 a4) := by
  unfold State.migReply
  repeat' first
    | with_reducible exact h | with_reducible assumption | intro _ | with_reducible apply State.onRouted_kept
    | with_reducible apply State.settle_kept | with_reducible apply State.slcRefuse_kept
    | with_reducible apply State.dropOut_kept | with_reducible apply State.modSlice_kept
    | with_reducible apply State.setSerial_kept | with_reducible apply State.slcAccept_kept
    | with_reducible apply State.migTick_kept | with_reducible apply State.modOut_kept
    | with_reducible apply Kept.ite | simp only | split

theorem State.outFails_kept {r s : State} (h : Kept r s) (a1 : MigOut) : Kept r (State.outFails s a1) := by
  unfold State.outFails
  repeat' first
    | with_reducible exact h | with_reducible apply State.settle_kept | with_reducible apply State.dropOut_kept
    | with_reducible apply State.slcFailed_kept | with_reducible apply State.slcRefuse_kept
    | with_reducible apply Kept.ite | split

theorem State.migCommitted_kept {r s : State} (h : Kept r s) (a1 : Nat) (a2 : MigIds) : Kept r
    (State.migCommitted s a1 a2) := by
  unfold State.migCommitted
  repeat' first
    | with_reducible exact h | with_reducible assumption | intro _ | with_reducible apply State.onRouted_kept
    | with_reducible apply State.sendRouted_kept | with_reducible apply State.settle_kept
    | with_reducible apply State.setSerial_kept | with_reducible apply State.beginDestroy_kept
    | with_reducible apply State.ev_kept | with_reducible apply State.modSlice_kept
    | with_reducible apply State.modOut_kept | with_reducible apply Kept.ite | simp only | split

theorem State.migLapOut_kept {r s : State} (h : Kept r s) : Kept r (State.migLapOut s) := by
  unfold State.migLapOut
  repeat' first
    | with_reducible exact h | with_reducible assumption | intro _ | with_reducible apply State.settle_kept
    | with_reducible apply State.sendRouted_kept | with_reducible apply Kept.ite | with_reducible apply Kept.foldl

theorem State.migErasedAck_kept {r s : State} (h : Kept r s) (a1 : Nat) (a2 : MigIds) : Kept r
    (State.migErasedAck s a1 a2) := by
  unfold State.migErasedAck
  repeat' first
    | with_reducible exact h | with_reducible assumption | intro _ | with_reducible apply State.onRouted_kept
    | with_reducible apply State.settle_kept | with_reducible apply State.modSlice_kept
    | with_reducible apply State.dropOut_kept | simp only | split

theorem State.modIn_kept {r s : State} (h : Kept r s) (a1 : Nat) (a2 : MigIn → MigIn) : Kept r
    (State.modIn s a1 a2) := by
  unfold State.modIn
  repeat' first
    | with_reducible exact h | with_reducible apply State.setRly_kept

theorem State.dropIn_kept {r s : State} (h : Kept r s) (a1 : Nat) : Kept r (State.dropIn s a1) := by
  unfold State.dropIn
  repeat' first
    | with_reducible exact h | with_reducible apply State.setRly_kept

theorem State.receiveEnds_kept {r s : State} (h : Kept r s) (a1 : Nat) (a2 : Nat) : Kept r
    (State.receiveEnds s a1 a2) := by
  unfold State.receiveEnds
  repeat' first
    | with_reducible exact h | with_reducible apply State.zeroSlice_kept | with_reducible apply State.dropKeys_kept
    | with_reducible apply State.dropIn_kept | with_reducible apply State.slcFailed_kept

theorem State.migAborts_kept {r s : State} (h : Kept r s) (a1 : MigIn) (a2 : Nat) (a3 : Nat) : Kept r
    (State.migAborts s a1 a2 a3) := by
  unfold State.migAborts
  repeat' first
    | with_reducible exact h | with_reducible apply State.sendRouted_kept
    | with_reducible apply State.receiveEnds_kept

theorem State.sendAck_kept {r s : State} (h : Kept r s) (a1 : Nat) (a2 : Nat) (a3 : Nat) (a4 : Nat) : Kept r
    (State.sendAck s a1 a2 a3 a4) := by
  unfold State.sendAck
  repeat' first
    | with_reducible exact h | with_reducible apply State.sendReply_kept

theorem State.migOffer_kept {r s : State} (h : Kept r s) (a1 : Nat) (a2 : MigIds) : Kept r
    (State.migOffer s a1 a2) := by
  unfold State.migOffer
  repeat' first
    | with_reducible exact h | with_reducible assumption | intro _ | with_reducible apply State.onRouted_kept
    | with_reducible apply State.setRly_kept | with_reducible apply State.sendReply_kept
    | with_reducible apply Kept.ite

theorem State.migBaton_kept {r s : State} (h : Kept r s) (a1 : Nat) (a2 : Nat) (a3 : MigIds) (a4 : MigImage)
    : Kept r (State.migBaton s a1 a2 a3 a4) := by
  unfold State.migBaton
  repeat' first
    | with_reducible exact h | with_reducible assumption | intro _ | with_reducible apply State.onRouted_kept
    | with_reducible apply State.sendAck_kept | with_reducible apply State.migAborts_kept
    | with_reducible apply State.noteSeen_kept | with_reducible apply State.modIn_kept
    | with_reducible apply Kept.ite | split

theorem State.migData_kept {r s : State} (h : Kept r s) (a1 : Nat) (a2 : Nat) (a3 : MigIds) (a4 : MigRun) : Kept r
    (State.migData s a1 a2 a3 a4) := by
  unfold State.migData
  repeat' first
    | with_reducible exact h | with_reducible assumption | intro _ | with_reducible apply State.onRouted_kept
    | with_reducible apply State.sendAck_kept | with_reducible apply State.modIn_kept
    | with_reducible apply State.noteSeen_kept | with_reducible apply Kept.ite | split

theorem State.migCommit_kept {r s : State} (h : Kept r s) (a1 : Nat) (a2 : MigIds) (a3 : Nat) (a4 : Bytes)
    : Kept r (State.migCommit s a1 a2 a3 a4) := by
  unfold State.migCommit
  repeat' first
    | with_reducible exact h | with_reducible assumption | intro _ | with_reducible apply State.onRouted_kept
    | with_reducible apply State.sendRouted_kept | with_reducible apply State.modIn_kept
    | with_reducible apply State.migAborts_kept | with_reducible apply Kept.ite | split

theorem State.receiveLost_kept {r s : State} (h : Kept r s) (a1 : Nat) (a2 : Nat) : Kept r
    (State.receiveLost s a1 a2) := by
  unfold State.receiveLost
  repeat' first
    | with_reducible exact h | with_reducible apply State.setFtl_kept | with_reducible apply State.loseSlot_kept
    | simp only | split

theorem State.receiveRun_kept {r s : State} (h : Kept r s) (a1 : Nat) (a2 : MigRun) : Kept r
    (State.receiveRun s a1 a2) := by
  unfold State.receiveRun
  repeat' first
    | with_reducible exact h | with_reducible assumption | intro _ | with_reducible apply State.receiveLost_kept
    | with_reducible apply State.addEntry_kept | with_reducible apply Kept.ite | with_reducible apply Kept.foldl
    | simp only [↓Kept.upd_iff] | split

theorem State.receiveKey_kept {r s : State} (h : Kept r s) (a1 : Nat) (a2 : MigKey) : Kept r
    (State.receiveKey s a1 a2) := by
  unfold State.receiveKey
  repeat' first
    | with_reducible exact h | with_reducible apply State.sysChoose_kept | with_reducible apply State.modKeys_kept
    | with_reducible apply State.setKst_kept | with_reducible apply State.modSlice_kept
    | with_reducible apply Kept.ite

theorem State.migState_kept {r s : State} (h : Kept r s) (a1 : MigIn) (a2 : MigImage) : Kept r
    (State.migState s a1 a2) := by
  unfold State.migState
  repeat' first
    | with_reducible exact h | with_reducible assumption | intro _ | with_reducible apply State.modSlice_kept
    | with_reducible apply State.modKeys_kept | with_reducible apply State.receiveKey_kept
    | with_reducible apply Kept.foldl | simp only | split

theorem State.migMemory_kept {r s : State} (h : Kept r s) (a1 : Nat) (a2 : MigImage) : Kept r
    (State.migMemory s a1 a2) := by
  unfold State.migMemory
  repeat' first
    | with_reducible exact h | with_reducible assumption | intro _ | with_reducible apply State.putCells_kept
    | with_reducible apply Kept.foldl

theorem State.migInstall_kept {r s : State} (h : Kept r s) (a1 : MigIn) (a2 : MigImage) : Kept r
    (State.migInstall s a1 a2) := by
  unfold State.migInstall
  repeat' first
    | with_reducible exact h | with_reducible assumption | intro _ | with_reducible apply State.migMemory_kept
    | with_reducible apply State.migState_kept | with_reducible apply State.receiveRun_kept
    | with_reducible apply State.ev_kept | with_reducible apply State.modIn_kept
    | with_reducible apply State.sendRouted_kept | with_reducible apply Kept.foldl | simp only [↓Kept.upd_iff]

theorem State.migLap_kept {r s : State} (h : Kept r s) : Kept r (State.migLap s) := by
  unfold State.migLap
  repeat' first
    | with_reducible exact h | with_reducible assumption | intro _ | with_reducible apply State.migLapOut_kept
    | with_reducible apply State.migInstall_kept | with_reducible apply Kept.ite | with_reducible apply Kept.foldl
    | split

theorem State.migErased_kept {r s : State} (h : Kept r s) (a1 : Nat) (a2 : MigIds) : Kept r
    (State.migErased s a1 a2) := by
  unfold State.migErased
  repeat' first
    | with_reducible exact h | with_reducible assumption | intro _ | with_reducible apply State.onRouted_kept
    | with_reducible apply State.settle_kept | with_reducible apply State.modSlice_kept
    | with_reducible apply State.dropIn_kept | with_reducible apply State.sendReply_kept
    | with_reducible apply Kept.ite | simp only | split

theorem State.migAbort_kept {r s : State} (h : Kept r s) (a1 : Nat) (a2 : Nat) (a3 : MigIds) : Kept r
    (State.migAbort s a1 a2 a3) := by
  unfold State.migAbort
  repeat' first
    | with_reducible exact h | with_reducible assumption | intro _ | with_reducible apply State.onRouted_kept
    | with_reducible apply State.noteSeen_kept | with_reducible apply State.outFails_kept
    | with_reducible apply State.receiveEnds_kept | with_reducible apply State.sendAck_kept
    | with_reducible apply Kept.ite | simp only | split

theorem State.ackMsg_kept {r s : State} (h : Kept r s) (a1 : Nat) (a2 : Nat) (a3 : Nat) : Kept r
    (State.ackMsg s a1 a2 a3) := by
  unfold State.ackMsg
  repeat' first
    | with_reducible exact h | with_reducible assumption | intro _ | with_reducible apply State.onRouted_kept
    | with_reducible apply State.settle_kept | with_reducible apply State.outFails_kept
    | with_reducible apply Kept.ite | simp only | split

theorem State.slcRest_kept {r s : State} (h : Kept r s) (a1 : SlcPending) : Kept r (State.slcRest s a1) := by
  unfold State.slcRest
  repeat' first
    | with_reducible exact h | with_reducible apply State.slcAccept_kept | with_reducible apply State.migAborts_kept
    | with_reducible apply State.receiveEnds_kept | with_reducible apply State.migrateGo_kept
    | simp only | split

theorem State.slcOverdue_kept {r s : State} (h : Kept r s) : Kept r (State.slcOverdue s) := by
  unfold State.slcOverdue
  repeat' first
    | with_reducible exact h | with_reducible apply State.outFails_kept | with_reducible apply Kept.ite | split

theorem State.peerLost_kept {r s : State} (h : Kept r s) (a1 : Nat) (a2 : Nat) : Kept r (State.peerLost s a1 a2) := by
  unfold State.peerLost
  repeat' first
    | with_reducible exact h | with_reducible assumption | intro _ | with_reducible apply State.ev_kept
    | with_reducible apply State.unpair_kept | with_reducible apply State.outFails_kept
    | with_reducible apply State.receiveEnds_kept | with_reducible apply State.settle_kept
    | with_reducible apply Kept.foldl

theorem State.peerDeclaredLost_kept {r s : State} (h : Kept r s) (a1 : Nat) (a2 : Nat) : Kept r
    (State.peerDeclaredLost s a1 a2) := by
  unfold State.peerDeclaredLost
  repeat' first
    | with_reducible exact h | with_reducible apply State.peerLost_kept | with_reducible apply Kept.ite

theorem State.takeRoster_kept {r s : State} (h : Kept r s) (a1 : Bytes) : Kept r (State.takeRoster s a1) := by
  unfold State.takeRoster
  repeat' first
    | with_reducible exact h | with_reducible assumption | intro _ | with_reducible apply State.installRoster_kept
    | with_reducible apply State.peerLost_kept | with_reducible apply Kept.foldl

theorem State.cmdLoadRoster_kept {r s : State} (h : Kept r s) (a1 : Requester) (a2 : Fetch) : Kept r
    (State.cmdLoadRoster s a1 a2) := by
  unfold State.cmdLoadRoster
  repeat' first
    | with_reducible exact h | with_reducible assumption | intro _ | with_reducible apply State.rlyCommand_kept
    | with_reducible apply State.ev_kept | with_reducible apply State.rlyResult_kept
    | with_reducible apply State.takeRoster_kept | with_reducible apply Kept.ite | simp only | split

theorem State.rosterMsg_kept {r s : State} (h : Kept r s) (a1 : Nat) (a2 : Bytes) : Kept r
    (State.rosterMsg s a1 a2) := by
  unfold State.rosterMsg
  repeat' first
    | with_reducible exact h | with_reducible apply State.tookFrame_kept | with_reducible apply State.ev_kept
    | with_reducible apply State.takeRoster_kept | with_reducible apply Kept.ite | simp only | split

end Sys2Proof.Machine
end

