-- ==== Sys2Proof/Laws/KeptDevice.lean ====
section
/-! SUPPORT. What every operation of the recorder, start-up, power, ports and registers keeps. -/

namespace Sys2Proof.Machine

open State

/-! ### Evr -/

theorem State.setEvrPort_kept {r s : State} (h : Kept r s) (a1 : Nat) (a2 : EvrPort) : Kept r
    (State.setEvrPort s a1 a2) := by
  unfold State.setEvrPort
  repeat' first
    | with_reducible exact h | simp only [↓Kept.upd_iff]

theorem State.setRecorder_kept {r s : State} (h : Kept r s) (a1 : Option Nat) (a2 : Recorder) : Kept r
    (State.setRecorder s a1 a2) := by
  unfold State.setRecorder
  repeat' first
    | with_reducible exact h | simp only [↓Kept.upd_iff] | split

theorem State.noteGap_kept {r s : State} (h : Kept r s) (a1 : Option Nat) : Kept r (State.noteGap s a1) := by
  unfold State.noteGap
  repeat' first
    | with_reducible exact h | with_reducible assumption | intro _ | with_reducible apply State.setEvrPort_kept
    | with_reducible apply Kept.foldl | simp only | split

theorem State.record_kept {r s : State} (h : Kept r s) (a1 : Option Nat) (a2 : Bool) (a3 : List Ev) : Kept r
    (State.record s a1 a2 a3) := by
  unfold State.record
  repeat' first
    | with_reducible exact h | with_reducible apply State.setRecorder_kept | with_reducible apply State.ev_kept
    | with_reducible apply State.noteGap_kept | with_reducible apply Kept.ite

theorem State.evrClearOne_kept {r s : State} (h : Kept r s) (a1 : EvrClearReq) : Kept r (State.evrClearOne s a1) := by
  unfold State.evrClearOne
  repeat' first
    | with_reducible exact h | with_reducible apply State.setEvrPort_kept | with_reducible apply State.record_kept
    | with_reducible apply State.setRecorder_kept | with_reducible apply Kept.ite | simp only
    | split

theorem State.evrThaw_kept {r s : State} (h : Kept r s) (a1 : Option Nat) : Kept r (State.evrThaw s a1) := by
  unfold State.evrThaw
  repeat' first
    | with_reducible exact h | with_reducible apply State.ev_kept | with_reducible apply State.setRecorder_kept

theorem State.evrThawIfDue_kept {r s : State} (h : Kept r s) (a1 : Option Nat) : Kept r
    (State.evrThawIfDue s a1) := by
  unfold State.evrThawIfDue
  repeat' first
    | with_reducible exact h | with_reducible apply State.evrThaw_kept | with_reducible apply State.setRecorder_kept
    | with_reducible apply Kept.ite | simp only | split

theorem State.evrFreezeOne_kept {r s : State} (h : Kept r s) (a1 : Option Nat) (a2 : Nat) : Kept r
    (State.evrFreezeOne s a1 a2) := by
  unfold State.evrFreezeOne
  repeat' first
    | with_reducible exact h | with_reducible apply State.setEvrPort_kept | with_reducible apply State.ev_kept
    | with_reducible apply State.setRecorder_kept | with_reducible apply Kept.ite

theorem State.evrFreezes_kept {r s : State} (h : Kept r s) (a1 : Option Nat) : Kept r (State.evrFreezes s a1) := by
  unfold State.evrFreezes
  repeat' first
    | with_reducible exact h | with_reducible assumption | intro _ | with_reducible apply State.setRecorder_kept
    | with_reducible apply State.evrFreezeOne_kept | with_reducible apply Kept.foldl

theorem State.evrTick_kept {r s : State} (h : Kept r s) : Kept r (State.evrTick s) := by
  unfold State.evrTick
  repeat' first
    | with_reducible exact h | with_reducible assumption | intro _ | with_reducible apply State.evrClearOne_kept
    | with_reducible apply State.evrThawIfDue_kept | with_reducible apply State.evrFreezes_kept
    | with_reducible apply State.record_kept | with_reducible apply Kept.ite | with_reducible apply Kept.foldl
    | simp only [↓Kept.upd_iff]

theorem State.readEvrCheck_kept {r s : State} (h : Kept r s) (a1 : EvrSet) : Kept r (State.readEvrCheck s a1) := by
  unfold State.readEvrCheck
  repeat' first
    | with_reducible exact h | with_reducible apply State.setEvrPort_kept | simp only [↓Kept.upd_iff]

theorem State.requestFreeze_kept {r s : State} (h : Kept r s) (a1 : EvrSet) : Kept r (State.requestFreeze s a1) := by
  unfold State.requestFreeze
  repeat' first
    | with_reducible exact h | with_reducible apply State.setRecorder_kept

theorem State.requestRelease_kept {r s : State} (h : Kept r s) (a1 : EvrSet) : Kept r
    (State.requestRelease s a1) := by
  unfold State.requestRelease
  repeat' first
    | with_reducible exact h | with_reducible apply State.setRecorder_kept | with_reducible apply Kept.ite

theorem State.requestClear_kept {r s : State} (h : Kept r s) (a1 : Nat) (a2 : Nat) : Kept r
    (State.requestClear s a1 a2) := by
  unfold State.requestClear
  repeat' first
    | with_reducible exact h | simp only [↓Kept.upd_iff]

/-! ### Startup -/

theorem State.resetDevice_kept {r s : State} (h : Kept r s) (a1 : Nat) : Kept r (State.resetDevice s a1) := by
  exact ⟨h.queue, h.variant, h.device, h.unit, h.stride, h.epoch, h.fwEpoch,
    fun _ => ⟨rfl, fun p hp => by cases hp⟩⟩

theorem State.coldStart_kept {r s : State} (h : Kept r s) : Kept { r with stride := 0 } s.coldStart := by
  unfold State.coldStart
  dsimp only
  have k := State.resetDevice_kept h 1
  split
  · exact ⟨k.queue, k.variant, k.device, k.unit, rfl, k.epoch, k.fwEpoch, fun m => k.mem m⟩
  · exact ⟨k.queue, k.variant, k.device, k.unit, rfl, k.epoch, k.fwEpoch, fun m => k.mem m⟩

theorem State.enterSafe_kept {r s : State} (h : Kept r s) (a1 : Nat) : Kept r (State.enterSafe s a1) := by
  unfold State.enterSafe
  repeat' first
    | with_reducible exact h | with_reducible apply State.ev_kept | with_reducible apply Kept.ite
    | simp only [↓Kept.upd_iff]

theorem State.setFw_kept {r s : State} (h : Kept r s) (a1 : Nat) (a2 : FwImage) : Kept r (State.setFw s a1 a2) := by
  unfold State.setFw
  repeat' first
    | with_reducible exact h | with_reducible apply Kept.ite | simp only
    | simp only [↓Kept.updDur_iff]

theorem State.fwFailed_kept {r s : State} (h : Kept r s) (a1 : Nat) : Kept r (State.fwFailed s a1) := by
  unfold State.fwFailed
  repeat' first
    | with_reducible exact h | with_reducible apply State.setFw_kept | with_reducible apply State.ev_kept
    | with_reducible apply Kept.ite

theorem State.fwRun_kept {r s : State} (h : Kept r s) (a1 : Nat) (a2 : Bool) : Kept r (State.fwRun s a1 a2) := by
  unfold State.fwRun
  repeat' first
    | with_reducible exact h | with_reducible apply State.devLog_kept | simp only [↓Kept.upd_iff]

theorem State.chooseFw_keptE {t : State} {r s : State} (h : Kept r s) (e : State.chooseFw s = some t) : Kept r t := by
  have dur : ∀ (s : State) (b : Bool) (n : Nat), Kept r s →
      Kept r { s with dur := { s.dur with fwTrial := b, fwTries := n } } := fun s b n h =>
    Kept.updDur h (Nat.le_refl _) (Nat.le_refl _)
  have conf : ∀ (s : State) (c d : Nat) (t : State), Kept r s →
      (if s.fwPasses c = true then some (s.fwRun c false)
       else if (s.fwFailed c).fwPasses d = true then
        some (({ s.fwFailed c with dur := { (s.fwFailed c).dur with fwTrial := true } }).fwRun d true)
       else none) = some t → Kept r t := by
    intro s c d t h e
    split at e
    · cases e; exact State.fwRun_kept h _ _
    · split at e
      · cases e; exact State.fwRun_kept (dur _ true _ (State.fwFailed_kept h _)) _ _
      · cases e
  unfold State.chooseFw at e
  dsimp only at e
  split at e
  · split at e
    · cases e; exact State.fwRun_kept (dur s _ _ h) _ _
    · exact conf _ _ _ _ (State.fwFailed_kept (dur s _ _ h) _) e
  · split at e
    · exact conf _ _ _ _ (State.ev_kept (dur s _ _ h) _ _ _) e
    · exact conf _ _ _ _ h e

theorem State.courseInForce_kept {r s : State} (h : Kept r s) (a1 : Course) : Kept r (State.courseInForce s a1) := by
  unfold State.courseInForce
  repeat' first
    | with_reducible exact h | with_reducible apply State.devLog_kept | with_reducible apply State.ev_kept
    | with_reducible apply Kept.ite | simp only [↓Kept.upd_iff]

theorem State.courseRejected_kept {r s : State} (h : Kept r s) (a1 : Bad) : Kept r (State.courseRejected s a1) := by
  unfold State.courseRejected
  repeat' first
    | with_reducible exact h | with_reducible apply State.ev_kept | with_reducible apply State.setCrs_kept

theorem State.startCurrent_keptL {t r s : State} (h : Kept r s) (e : State.startCurrent s = .error t) : Kept r t := by
  unfold State.startCurrent at e
  split at e
  · cases e; exact h
  · split at e
    · cases e
    · cases e; exact State.courseRejected_kept h _

theorem State.startCurrent_keptR {t r s : State} (h : Kept r s) (e : State.startCurrent s = .ok t) : Kept r t := by
  unfold State.startCurrent at e
  split at e
  · cases e
  · split at e
    · cases e; exact State.courseInForce_kept h _
    · cases e

theorem State.startCourse_kept {r s : State} (h : Kept r s) : Kept r (State.startCourse s) := by
  unfold State.startCourse
  split
  · exact State.startCurrent_keptR h ‹_›
  · have k := State.startCurrent_keptL h ‹_›
    split
    · exact k
    · split
      · exact State.setCrs_kept (State.courseInForce_kept k _) _
      · exact State.courseRejected_kept k _

theorem State.firstFormat_kept {r s : State} (h : Kept r s) : Kept r (State.firstFormat s) := by
  unfold State.firstFormat
  repeat' first
    | with_reducible exact h | with_reducible apply State.setFtl_kept | simp only
    | simp only [↓Kept.updDur_iff]

theorem State.closeAll_kept {r s : State} (h : Kept r s) : Kept r (State.closeAll s) := by
  unfold State.closeAll
  repeat' first
    | with_reducible exact h | with_reducible apply State.setFtl_kept

theorem State.replay_kept {r s : State} (h : Kept r s) (a1 : Bool) (a2 : Bool) : Kept r (State.replay s a1 a2) := by
  unfold State.replay
  repeat' first
    | with_reducible exact h | with_reducible assumption | intro _ | with_reducible apply State.setFtl_kept
    | with_reducible apply State.ev_kept | with_reducible apply State.applyRec_kept | with_reducible apply Kept.ite
    | with_reducible apply Kept.foldl

theorem State.recoverFtl_kept {r s : State} (h : Kept r s) (a1 : StartEnv) : Kept r (State.recoverFtl s a1) := by
  unfold State.recoverFtl
  repeat' first
    | with_reducible exact h | with_reducible apply State.firstFormat_kept
    | with_reducible apply State.closeAll_kept | with_reducible apply State.replay_kept
    | with_reducible apply State.lifeLap_kept | with_reducible apply State.startCkpt_kept
    | with_reducible apply State.fillReserves_kept | with_reducible apply Kept.ite | simp only [↓Kept.upd_iff]

theorem State.redraw_kept {r s : State} (h : Kept r s) (a1 : Nat) : Kept r (State.redraw s a1) := by
  unfold State.redraw
  repeat' first
    | with_reducible exact h | with_reducible apply State.setShares_kept | with_reducible apply State.setSlice_kept
    | with_reducible apply State.ev_kept | with_reducible apply State.modSlice_kept | with_reducible apply Kept.ite

theorem State.remigrate_kept {r s : State} (h : Kept r s) (a1 : Nat) : Kept r (State.remigrate s a1) := by
  unfold State.remigrate
  repeat' first
    | with_reducible exact h | with_reducible apply State.setRly_kept | with_reducible apply Kept.ite

theorem State.logWaits_kept {r s : State} (h : Kept r s) (a1 : Nat) (a2 : Pairing) : Kept r
    (State.logWaits s a1 a2) := by
  unfold State.logWaits
  repeat' first
    | with_reducible exact h | with_reducible apply State.logRanges_kept

theorem State.restoreTable_kept {r s : State} (h : Kept r s) (a1 : SliceTable) : Kept r
    (State.restoreTable s a1) := by
  unfold State.restoreTable
  repeat' first
    | with_reducible exact h | with_reducible assumption | intro _ | with_reducible apply State.logWaits_kept
    | with_reducible apply State.redraw_kept | with_reducible apply State.setSerial_kept
    | with_reducible apply State.beginDestroy_kept | with_reducible apply State.dropKeys_kept
    | with_reducible apply State.remigrate_kept | with_reducible apply Kept.ite | with_reducible apply Kept.foldl
    | simp only [↓Kept.upd_iff]

theorem State.restoreNone_kept {r s : State} (h : Kept r s) : Kept r (State.restoreNone s) := by
  unfold State.restoreNone
  repeat' first
    | with_reducible exact h | with_reducible assumption | intro _ | with_reducible apply State.dropKeys_kept
    | with_reducible apply State.trimNs_kept | with_reducible apply State.ev_kept | with_reducible apply Kept.foldl
    | simp only [↓Kept.upd_iff]

theorem State.restoreSlices_kept {r s : State} (h : Kept r s) (a1 : StartEnv) : Kept r
    (State.restoreSlices s a1) := by
  unfold State.restoreSlices
  repeat' first
    | with_reducible exact h | with_reducible apply State.restoreTable_kept
    | with_reducible apply State.restoreNone_kept | with_reducible apply State.ev_kept
    | with_reducible apply Kept.ite | simp only [↓Kept.upd_iff] | split

theorem State.trainAll_kept {r s : State} (h : Kept r s) (a1 : StartEnv) : Kept r (State.trainAll s a1) := by
  unfold State.trainAll
  repeat' first
    | with_reducible exact h | with_reducible assumption | intro _ | with_reducible apply State.trainDram_kept
    | with_reducible apply Kept.foldl

theorem State.reloadBlocks_kept {r s : State} (h : Kept r s) : Kept r (State.reloadBlocks s) := by
  unfold State.reloadBlocks
  repeat' first
    | with_reducible exact h | with_reducible apply State.reloadKeys_kept
    | with_reducible apply State.drawBytes_kept | with_reducible apply State.setKst_kept | simp only [↓Kept.upd_iff]

theorem State.finishStart_kept {r s : State} (h : Kept r s) (a1 : StartEnv) : Kept r (State.finishStart s a1) := by
  unfold State.finishStart
  repeat' first
    | with_reducible exact h | with_reducible apply State.trainAll_kept | with_reducible apply State.setPin_kept
    | with_reducible apply State.enterSafe_kept | with_reducible apply State.reloadBlocks_kept
    | with_reducible apply State.recoverFtl_kept | with_reducible apply State.restoreSlices_kept
    | with_reducible apply Kept.ite | simp only [↓Kept.upd_iff]

theorem State.trainFlash_kept {r s : State} (h : Kept r s) (a1 : StartEnv) : Kept r (State.trainFlash s a1) := by
  unfold State.trainFlash
  repeat' first
    | with_reducible exact h | with_reducible assumption | intro _ | with_reducible apply State.trainChannel_kept
    | with_reducible apply Kept.ite | with_reducible apply Kept.foldl

theorem State.withCourse_kept {r s : State} (h : Kept r s) (a1 : StartEnv) : Kept r (State.withCourse s a1) := by
  unfold State.withCourse
  repeat' first
    | with_reducible exact h | with_reducible apply State.finishStart_kept | with_reducible apply Kept.ite
    | simp only [↓Kept.upd_iff]

theorem State.startPower_kept {r s : State} (h : Kept r s) (a1 : StartEnv) : Kept r (State.startPower s a1) := by
  unfold State.startPower
  repeat' first
    | with_reducible exact h | with_reducible apply State.setPin_kept | with_reducible apply State.ev_kept
    | with_reducible apply State.setKst_kept | with_reducible apply Kept.ite | simp only [↓Kept.upd_iff]
    | simp only [↓Kept.updDur_iff]

theorem State.startFlash_kept {r s : State} (h : Kept r s) (a1 : StartEnv) : Kept r (State.startFlash s a1) := by
  unfold State.startFlash
  repeat' first
    | with_reducible exact h | with_reducible apply State.trainFlash_kept | with_reducible apply State.setPin_kept
    | with_reducible apply State.devLog_kept

theorem State.startSteps_keptL {t : State} {r s : State} (h : Kept r s) (a1 : StartEnv) (e : State.startSteps s a1 = .error t) : Kept r t := by
  have p := State.startPower_kept h a1
  have f := State.startFlash_kept p a1
  unfold State.startSteps at e
  dsimp only at e
  split at e
  · cases e; exact State.enterSafe_kept p _
  · split at e
    · cases e; exact State.enterSafe_kept p _
    · split at e
      · cases e; exact State.enterSafe_kept f _
      · split at e
        · cases e; exact State.enterSafe_kept (Kept.upd f) _
        · cases e

theorem State.startSteps_keptR {t : State} {r s : State} (h : Kept r s) (a1 : StartEnv) (e : State.startSteps s a1 = .ok t) : Kept r t := by
  have p := State.startPower_kept h a1
  have f := State.startFlash_kept p a1
  unfold State.startSteps at e
  dsimp only at e
  split at e
  · cases e
  · split at e
    · cases e
    · split at e
      · cases e
      · split at e
        · cases e
        · cases e; exact State.chooseFw_keptE (Kept.upd f) ‹_›

theorem State.starterBegin_kept {r s : State} (h : Kept r s) (a1 : StartEnv) : Kept r (State.starterBegin s a1) := by
  unfold State.starterBegin
  split
  · exact h
  · split
    · exact State.startSteps_keptL h _ ‹_›
    · exact State.withCourse_kept (State.startCourse_kept (State.startSteps_keptR h _ ‹_›)) _

theorem State.resumeStart_kept {r s : State} (h : Kept r s) : Kept r (State.resumeStart s) := by
  unfold State.resumeStart
  repeat' first
    | with_reducible exact h | with_reducible apply State.finishStart_kept | split

theorem State.reserveTick_kept {r s : State} (h : Kept r s) : Kept r (State.reserveTick s) := by
  unfold State.reserveTick
  repeat' first
    | with_reducible exact h | with_reducible apply Kept.ite | simp only
    | simp only [↓Kept.updDur_iff]

theorem State.stopDevice_kept {r s : State} (h : Kept r s) : Kept r (State.stopDevice s) := by
  unfold State.stopDevice
  repeat' first
    | with_reducible exact h | with_reducible assumption | intro _ | with_reducible apply State.squash_kept
    | with_reducible apply State.abandonPrep_kept | with_reducible apply Kept.foldl | simp only [↓Kept.upd_iff]
    | split

theorem State.faultTick_kept {r s : State} (h : Kept r s) : Kept r (State.faultTick s) := by
  unfold State.faultTick
  repeat' first
    | with_reducible exact h | with_reducible apply State.ev_kept | with_reducible apply State.stopDevice_kept
    | with_reducible apply Kept.ite | simp only [↓Kept.upd_iff] | simp only [↓Kept.updDur_iff] | split

theorem State.restartTick_kept {r s : State} (h : Kept r s) : Kept r (State.restartTick s) := by
  unfold State.restartTick
  repeat' first
    | with_reducible exact h | with_reducible apply State.stopDevice_kept | with_reducible apply Kept.ite
    | simp only [↓Kept.upd_iff]

theorem State.joinTick_kept {r s : State} (h : Kept r s) : Kept r (State.joinTick s) := by
  unfold State.joinTick
  repeat' first
    | with_reducible exact h | with_reducible apply State.ev_kept | with_reducible apply Kept.ite
    | simp only [↓Kept.upd_iff]

theorem State.afterPfail_kept {r s : State} (h : Kept r s) : Kept r (State.afterPfail s) := by
  unfold State.afterPfail
  repeat' first
    | with_reducible exact h | with_reducible apply State.resetDevice_kept
    | with_reducible apply State.starterBegin_kept | with_reducible apply Kept.ite | split

theorem State.flushSave_kept {r s : State} (h : Kept r s) (a1 : Bool) : Kept r (State.flushSave s a1) := by
  unfold State.flushSave
  repeat' first
    | with_reducible exact h | with_reducible apply State.saveReserve_kept | with_reducible apply Kept.ite
    | simp only | simp only [↓Kept.updDur_iff]

theorem State.faultFlushEnd_kept {r s : State} (h : Kept r s) : Kept r (State.faultFlushEnd s) := by
  unfold State.faultFlushEnd
  repeat' first
    | with_reducible exact h | with_reducible apply State.flushSave_kept
    | with_reducible apply State.afterPfail_kept | with_reducible apply State.ev_kept
    | with_reducible apply State.setPin_kept | with_reducible apply State.resetDevice_kept
    | with_reducible apply State.enterSafe_kept | with_reducible apply Kept.ite | simp only [↓Kept.upd_iff]

theorem State.emergencyFlushEnd_kept {r s : State} (h : Kept r s) : Kept r (State.emergencyFlushEnd s) := by
  unfold State.emergencyFlushEnd
  repeat' first
    | with_reducible exact h | with_reducible apply State.faultFlushEnd_kept
    | with_reducible apply State.afterPfail_kept | with_reducible apply State.flushEnd_kept
    | with_reducible apply Kept.ite

theorem State.flushTime_kept {r s : State} (h : Kept r s) : Kept r (State.flushTime s) := by
  unfold State.flushTime
  repeat' first
    | with_reducible exact h | with_reducible apply State.faultFlushEnd_kept
    | with_reducible apply State.emergencyFlushEnd_kept | with_reducible apply Kept.ite

theorem State.watchdogExpiry_kept {r s : State} (h : Kept r s) : Kept r (State.watchdogExpiry s) := by
  unfold State.watchdogExpiry
  repeat' first
    | with_reducible exact h | with_reducible apply State.raiseFault_kept | with_reducible apply Kept.ite

theorem State.pfailHigh_kept {r s : State} (h : Kept r s) (a1 : StartEnv) : Kept r (State.pfailHigh s a1) := by
  unfold State.pfailHigh
  repeat' first
    | with_reducible exact h | with_reducible apply State.afterPfail_kept | with_reducible apply Kept.ite
    | simp only [↓Kept.upd_iff]

theorem State.powerFailLatch_kept {r s : State} (h : Kept r s) : Kept r (State.powerFailLatch s) := by
  unfold State.powerFailLatch
  repeat' first
    | with_reducible exact h | with_reducible apply State.latchFail_kept | with_reducible apply Kept.ite

theorem State.pwrOkLow_kept {r s : State} (h : Kept r s) : Kept r (State.pwrOkLow s) := by
  unfold State.pwrOkLow
  repeat' first
    | with_reducible exact h | with_reducible apply State.afterPfail_kept | with_reducible apply State.setPin_kept
    | with_reducible apply State.latchFail_kept | with_reducible apply Kept.ite | simp only [↓Kept.upd_iff]

theorem State.thermalTrip_kept {r s : State} (h : Kept r s) : Kept r (State.thermalTrip s) := by
  unfold State.thermalTrip
  repeat' first
    | with_reducible exact h | with_reducible apply State.setPin_kept | with_reducible apply State.latchFail_kept
    | with_reducible apply Kept.ite

theorem State.devCommand_kept {r s : State} (h : Kept r s) (a1 : Requester) (a2 : Nat) (a3 : State → State)
    (h3 : ∀ (x0 : State), Kept r x0 → Kept r (a3 x0)) : Kept r (State.devCommand s a1 a2 a3) := by
  unfold State.devCommand
  repeat' first
    | with_reducible exact h | with_reducible assumption | intro _ | with_reducible apply h3
    | with_reducible apply State.bar0Write_kept | with_reducible apply Kept.ite | simp only [↓Kept.upd_iff]

theorem State.devResult_kept {r s : State} (h : Kept r s) (a1 : Nat) : Kept r (State.devResult s a1) := by
  unfold State.devResult
  repeat' first
    | with_reducible exact h | simp only [↓Kept.upd_iff]

theorem State.cmdFwLoad_kept {r s : State} (h : Kept r s) (a1 : Requester) (a2 : Fetch) : Kept r
    (State.cmdFwLoad s a1 a2) := by
  unfold State.cmdFwLoad
  repeat' first
    | with_reducible exact h | with_reducible assumption | intro _ | with_reducible apply State.devCommand_kept
    | with_reducible apply State.devResult_kept | with_reducible apply State.ev_kept
    | with_reducible apply State.setFw_kept | with_reducible apply Kept.ite | split

theorem State.cmdFwActivate_kept {r s : State} (h : Kept r s) (a1 : Requester) : Kept r
    (State.cmdFwActivate s a1) := by
  unfold State.cmdFwActivate
  repeat' first
    | with_reducible exact h | with_reducible assumption | intro _ | with_reducible apply State.devCommand_kept
    | with_reducible apply State.devResult_kept | with_reducible apply State.ev_kept | with_reducible apply Kept.ite
    | simp only | simp only [↓Kept.updDur_iff]

theorem State.cmdFwConfirm_kept {r s : State} (h : Kept r s) (a1 : Requester) : Kept r (State.cmdFwConfirm s a1) := by
  unfold State.cmdFwConfirm
  repeat' first
    | with_reducible exact h | with_reducible assumption | intro _ | with_reducible apply State.devCommand_kept
    | with_reducible apply State.devResult_kept | with_reducible apply State.ev_kept
    | with_reducible refine Kept.updDur ?_ (Nat.le_refl _) (Nat.le_max_left _ _) | with_reducible apply Kept.ite

theorem State.cmdRestart_kept {r s : State} (h : Kept r s) (a1 : Requester) : Kept r (State.cmdRestart s a1) := by
  unfold State.cmdRestart
  repeat' first
    | with_reducible exact h | with_reducible assumption | intro _ | with_reducible apply State.devCommand_kept
    | with_reducible apply State.heatDrain_kept | with_reducible apply Kept.foldl | simp only [↓Kept.upd_iff]

/-! ### Inject -/

theorem State.fijCount_kept {r s : State} (h : Kept r s) (a1 : Nat) : Kept r (State.fijCount s a1).1 := by
  unfold State.fijCount
  repeat' first
    | with_reducible exact h | simp only [↓Kept.upd_iff]

theorem State.fijCount_keptE {t : State} {x : _} {r s : State} (h : Kept r s) (a1 : Nat)
    (e : State.fijCount s a1 = (t, x)) : Kept r t := by
  have q := State.fijCount_kept h a1 ; rw [e] at q; exact q

theorem State.fijUnit_kept {r s : State} (h : Kept r s) (a1 : Nat) (a2 : Nat) : Kept r (State.fijUnit s a1 a2).1 := by
  unfold State.fijUnit
  repeat' first
    | with_reducible exact h | with_reducible assumption | intro _ | with_reducible apply State.fijCount_kept
    | with_reducible apply Kept.foldlFst | simp only | split

theorem State.fijUnit_keptE {t : State} {x : _} {r s : State} (h : Kept r s) (a1 : Nat) (a2 : Nat)
    (e : State.fijUnit s a1 a2 = (t, x)) : Kept r t := by
  have q := State.fijUnit_kept h a1 a2 ; rw [e] at q; exact q

theorem State.setLate_kept {r s : State} (h : Kept r s) (a1 : Nat) (a2 : Option RelayIn) : Kept r (State.setLate s a1 a2) := by
  unfold State.setLate
  repeat' first
    | with_reducible exact h | simp only [↓Kept.upd_iff]

theorem State.onFrame_kept {r s : State} (h : Kept r s) (a1 : Nat) (a2 : State → RelayIn → State) (a3 : RelayIn)
    (h2 : ∀ (x0 : State) (x1 : RelayIn), Kept r x0 → Kept r (a2 x0 x1)) : Kept r (State.onFrame s a1 a2 a3) := by
  unfold State.onFrame
  repeat' first
    | with_reducible exact h | with_reducible apply h2 | with_reducible refine State.fijUnit_keptE ?_ _ _ ‹_›
    | with_reducible apply State.setLate_kept | with_reducible apply State.frameDiscard_kept
    | with_reducible apply Kept.ite | simp only | split

theorem State.onHop_kept {r s : State} (h : Kept r s) (a1 : Nat) : Kept r (State.onHop s a1) := by
  unfold State.onHop
  repeat' first
    | with_reducible exact h | with_reducible refine State.fijUnit_keptE ?_ _ _ ‹_›
    | with_reducible apply State.raiseFault_kept | with_reducible apply State.ev_kept | split

theorem State.onCodeword_kept {r s : State} (h : Kept r s) (a1 : Nat) (a2 : PollResult) : Kept r
    (State.onCodeword s a1 a2).1 := by
  unfold State.onCodeword
  repeat' first
    | with_reducible exact h | with_reducible refine State.fijUnit_keptE ?_ _ _ ‹_› | split

theorem State.onCodeword_keptE {t : State} {x : _} {r s : State} (h : Kept r s) (a1 : Nat) (a2 : PollResult)
    (e : State.onCodeword s a1 a2 = (t, x)) : Kept r t := by
  have q := State.onCodeword_kept h a1 a2 ; rw [e] at q; exact q

theorem State.pollReturn_kept {r s : State} (h : Kept r s) (a1 : Nat) (a2 : PollResult) : Kept r
    (State.pollReturn s a1 a2) := by
  unfold State.pollReturn
  repeat' first
    | with_reducible exact h | with_reducible apply State.onCodeword_kept | with_reducible apply State.onHop_kept
    | with_reducible apply State.pollComplete_kept | simp only | split

theorem State.fijLap_kept {r s : State} (h : Kept r s) : Kept r (State.fijLap s) := by
  unfold State.fijLap
  repeat' first
    | with_reducible exact h | with_reducible assumption | intro _ | with_reducible apply State.ev_kept
    | with_reducible apply Kept.ite | with_reducible apply Kept.foldl | simp only [↓Kept.upd_iff]

theorem State.fijReset_kept {r s : State} (h : Kept r s) : Kept r (State.fijReset s) := by
  unfold State.fijReset
  repeat' first
    | with_reducible exact h | simp only [↓Kept.upd_iff]

theorem State.fijArm_kept {r s : State} (h : Kept r s) (a1 : Nat) : Kept r (State.fijArm s a1) := by
  unfold State.fijArm
  repeat' first
    | with_reducible exact h | with_reducible apply State.ev_kept | with_reducible apply Kept.ite
    | simp only [↓Kept.upd_iff]

/-! ### Commit -/

theorem State.portsReset_kept {r s : State} (h : Kept r s) : Kept r (State.portsReset s) := by
  unfold State.portsReset
  repeat' first
    | with_reducible exact h | with_reducible assumption | intro _ | with_reducible apply State.portReset_kept
    | with_reducible apply Kept.foldl

theorem State.applyCourse_kept {r s : State} (h : Kept r s) (a1 : Course) : Kept r (State.applyCourse s a1) := by
  unfold State.applyCourse
  repeat' first
    | with_reducible exact h | with_reducible apply State.setCrs_kept
    | with_reducible apply State.courseInForce_kept | with_reducible apply State.fijReset_kept
    | with_reducible apply State.resumeStart_kept | with_reducible apply State.portsReset_kept
    | with_reducible apply Kept.ite | simp only [↓Kept.upd_iff]

theorem State.applyLap_kept {r s : State} (h : Kept r s) : Kept r (State.applyLap s) := by
  unfold State.applyLap
  repeat' first
    | with_reducible exact h | with_reducible apply State.applyCourse_kept | with_reducible apply State.ev_kept
    | with_reducible apply State.setCrs_kept | with_reducible apply Kept.ite | simp only | split

theorem State.dropStaged_kept {r s : State} (h : Kept r s) : Kept r (State.dropStaged s) := by
  unfold State.dropStaged
  repeat' first
    | with_reducible exact h | simp only [↓Kept.upd_iff]

theorem State.takeStaged_kept {r s : State} (h : Kept r s) : Kept r (State.takeStaged s) := by
  unfold State.takeStaged
  repeat' first
    | with_reducible exact h | with_reducible assumption | intro _ | with_reducible apply State.pairChanged_kept
    | with_reducible apply State.fijArm_kept | with_reducible apply Kept.ite | with_reducible apply Kept.foldl
    | simp only [↓Kept.upd_iff]

theorem State.commitNow_kept {r s : State} (h : Kept r s) : Kept r (State.commitNow s) := by
  unfold State.commitNow
  repeat' first
    | with_reducible exact h | with_reducible apply State.dropStaged_kept | with_reducible apply State.setSlc_kept
    | with_reducible apply State.setCrs_kept | with_reducible apply State.ev_kept
    | with_reducible apply State.takeStaged_kept | simp only | split

theorem State.configLap_kept {r s : State} (h : Kept r s) : Kept r (State.configLap s) := by
  unfold State.configLap
  repeat' first
    | with_reducible exact h | with_reducible apply State.applyLap_kept | with_reducible apply State.setCrs_kept
    | with_reducible apply State.commitNow_kept | with_reducible apply Kept.ite

/-! ### Power -/

theorem State.descend_kept {r s : State} (h : Kept r s) (a1 : Nat) : Kept r (State.descend s a1) := by
  unfold State.descend
  repeat' first
    | with_reducible exact h | with_reducible apply State.startCkpt_kept | with_reducible apply Kept.ite
    | simp only [↓Kept.upd_iff]

theorem State.powerLap_kept {r s : State} (h : Kept r s) : Kept r (State.powerLap s) := by
  unfold State.powerLap
  repeat' first
    | with_reducible exact h | with_reducible apply State.descend_kept | with_reducible apply Kept.ite
    | simp only [↓Kept.upd_iff]

theorem State.prepTick_kept {r s : State} (h : Kept r s) : Kept r (State.prepTick s) := by
  unfold State.prepTick
  repeat' first
    | with_reducible exact h | with_reducible apply State.abandonPrep_kept | with_reducible apply Kept.ite

theorem State.powerEntryBegin_kept {r s : State} (h : Kept r s) : Kept r (State.powerEntryBegin s) := by
  unfold State.powerEntryBegin
  repeat' first
    | with_reducible exact h | with_reducible assumption | intro _ | with_reducible apply State.linkDown_kept
    | with_reducible apply State.setPin_kept | with_reducible apply Kept.ite | with_reducible apply Kept.foldl
    | simp only [↓Kept.upd_iff] | simp only [↓Kept.updDur_iff]

theorem State.loseP3_kept {r s : State} (h : Kept r s) : Kept r (State.loseP3 s) := by
  have k := State.patLose_kept h
  have w : ∀ p : Nat × MemArr, Memory.wf p.2.cells = true → ∀ (s : State), Memory.wf (if p.1 = dramArr then (p.1, ({} : MemArr))
      else (p.1, { cells := p.2.cells.filter (fun c => s.retained p.1 c.1),
                   raws := p.2.raws.filter (fun c => s.retained p.1 c.1) })).2.cells = true := by
    intro p hp s
    split
    · rfl
    · exact filter_wf _ hp
  exact ⟨k.queue, k.variant, k.device, k.unit, k.stride, k.epoch, k.fwEpoch, fun q => ⟨rfl, fun p hp => by
    obtain ⟨a, ha, rfl⟩ := List.mem_map.mp hp
    exact w a ((k.mem q).2 a ha) s⟩⟩

theorem State.loseP4_kept {r s : State} (h : Kept r s) : Kept r (State.loseP4 s) := by
  unfold State.loseP4
  refine State.setPin_kept ?_ _ _
  exact ⟨h.queue, h.variant, h.device, h.unit, h.stride, h.epoch, h.fwEpoch,
    fun q => ⟨(h.mem q).1, fun p hp => absurd hp List.not_mem_nil⟩⟩

theorem State.powerStateReached_kept {r s : State} (h : Kept r s) (a0 : State → State)
    (h0 : ∀ (x0 : State), Kept r x0 → Kept r (a0 x0)) : Kept r (State.powerStateReached a0 s) := by
  unfold State.powerStateReached
  repeat' first
    | with_reducible exact h | with_reducible apply h0 | with_reducible apply State.ev_kept
    | with_reducible apply State.loseP3_kept | with_reducible apply State.loseP4_kept
    | with_reducible apply Kept.ite | simp only [↓Kept.upd_iff] | split

theorem State.wakeTick_kept {r s : State} (h : Kept r s) : Kept r (State.wakeTick s) := by
  unfold State.wakeTick
  repeat' first
    | with_reducible exact h | with_reducible apply State.wakeEvent_kept | with_reducible apply Kept.ite
    | simp only [↓Kept.upd_iff] | split

theorem State.timerExpiry_kept {r s : State} (h : Kept r s) : Kept r (State.timerExpiry s) := by
  unfold State.timerExpiry
  repeat' first
    | with_reducible exact h | with_reducible apply State.wakeEvent_kept | with_reducible apply Kept.ite

theorem State.refreshWakeDue_kept {r s : State} (h : Kept r s) : Kept r (State.refreshWakeDue s) := by
  unfold State.refreshWakeDue
  repeat' first
    | with_reducible exact h | with_reducible apply State.wakeEvent_kept | with_reducible apply Kept.ite
    | simp only [↓Kept.upd_iff] | split

theorem State.cmdWake_kept {r s : State} (h : Kept r s) (a1 : Requester) : Kept r (State.cmdWake s a1) := by
  unfold State.cmdWake
  repeat' first
    | with_reducible exact h | with_reducible assumption | intro _ | with_reducible apply State.bar0Write_kept
    | with_reducible apply State.wakeEvent_kept

theorem State.l1Exit_kept {r s : State} (h : Kept r s) : Kept r (State.l1Exit s) := by
  unfold State.l1Exit
  repeat' first
    | with_reducible exact h | with_reducible apply State.wakeEvent_kept

theorem State.pllLock_kept {r s : State} (h : Kept r s) (a1 : Nat) : Kept r (State.pllLock s a1) := by
  unfold State.pllLock
  repeat' first
    | with_reducible exact h | with_reducible apply Kept.ite | simp only [↓Kept.upd_iff]

theorem State.reachP0_kept {r s : State} (h : Kept r s) : Kept r (State.reachP0 s) := by
  unfold State.reachP0
  repeat' first
    | with_reducible exact h | with_reducible apply State.ev_kept | with_reducible apply Kept.ite
    | simp only [↓Kept.upd_iff]

theorem State.exitP3_kept {r s : State} (h : Kept r s) (a1 : StartEnv) : Kept r (State.exitP3 s a1) := by
  unfold State.exitP3
  repeat' first
    | with_reducible exact h | with_reducible apply State.trainAll_kept | with_reducible apply State.setPin_kept
    | with_reducible apply State.trainFlash_kept | with_reducible apply State.enterSafe_kept
    | with_reducible apply State.reloadKeys_kept | with_reducible apply State.drawBytes_kept
    | with_reducible apply State.setKst_kept | with_reducible apply State.reachP0_kept
    | with_reducible apply State.recoverFtl_kept | with_reducible apply Kept.ite | simp only [↓Kept.upd_iff]

theorem State.fromP4_kept {r s : State} (h : Kept r s) (a1 : P4Record) : Kept r (State.fromP4 s a1) := by
  unfold State.fromP4
  repeat' first
    | with_reducible exact h | with_reducible assumption | intro _ | with_reducible apply State.rwSet_kept
    | with_reducible apply Kept.foldl | simp only [↓Kept.upd_iff]

theorem State.exitP4_kept {r s : State} (h : Kept r s) (a1 : StartEnv) : Kept r (State.exitP4 s a1) := by
  have cold : ∀ s, Kept r s → Kept r (((s.resetDevice 1).ev 0x1D00 noSlice).starterBegin a1) := fun s h =>
    State.starterBegin_kept (State.ev_kept (State.resetDevice_kept h _) _ _ _) _
  unfold State.exitP4
  dsimp only
  split
  · split
    · exact State.startSteps_keptL (State.setKst_kept (State.resetDevice_kept h _) _) _ ‹_›
    · have k := State.startSteps_keptR (State.setKst_kept (State.resetDevice_kept h 4) _) _ ‹_›
      split
      · exact cold _ h
      · split
        · exact cold _ h
        · exact State.reachP0_kept (Kept.upd (State.fromP4_kept (State.finishStart_kept (Kept.upd (State.courseInForce_kept k _)) _) _))
  · exact cold _ h

theorem State.powerExitComplete_kept {r s : State} (h : Kept r s) (a1 : StartEnv) : Kept r
    (State.powerExitComplete s a1) := by
  unfold State.powerExitComplete
  repeat' first
    | with_reducible exact h | with_reducible apply State.exitP3_kept | with_reducible apply State.exitP4_kept
    | with_reducible apply State.reachP0_kept | with_reducible apply Kept.ite

/-! ### Ports -/

theorem State.flr_kept {r s : State} (h : Kept r s) (a1 : Nat) : Kept r (State.flr s a1) := by
  unfold State.flr
  repeat' first
    | with_reducible exact h | with_reducible apply State.portReset_kept | with_reducible apply Kept.ite

theorem State.hotReset_kept {r s : State} (h : Kept r s) (a1 : Nat) : Kept r (State.hotReset s a1) := by
  unfold State.hotReset
  repeat' first
    | with_reducible exact h | with_reducible apply State.portReset_kept | with_reducible apply Kept.ite

theorem State.perstAsserted_kept {r s : State} (h : Kept r s) (a1 : Nat) : Kept r (State.perstAsserted s a1) := by
  unfold State.perstAsserted
  repeat' first
    | with_reducible exact h | with_reducible apply State.modPort_kept | with_reducible apply State.wakeEvent_kept
    | with_reducible apply State.portReset_kept | with_reducible apply Kept.ite

theorem State.perstReleased_kept {r s : State} (h : Kept r s) (a1 : Nat) : Kept r (State.perstReleased s a1) := by
  unfold State.perstReleased
  repeat' first
    | with_reducible exact h | with_reducible apply State.modPort_kept

theorem State.linkUp_kept {r s : State} (h : Kept r s) (a1 : Nat) (a2 : Nat) (a3 : Nat) (a4 : Bool) (a5 : Nat)
    : Kept r (State.linkUp s a1 a2 a3 a4 a5) := by
  unfold State.linkUp
  repeat' first
    | with_reducible exact h | with_reducible apply State.ev_kept | with_reducible apply State.modPort_kept
    | with_reducible apply Kept.ite

theorem State.busMaster_kept {r s : State} (h : Kept r s) (a1 : Nat) (a2 : Bool) : Kept r
    (State.busMaster s a1 a2) := by
  unfold State.busMaster
  repeat' first
    | with_reducible exact h | with_reducible apply State.modPort_kept | with_reducible apply Kept.ite

theorem State.ccWrite_kept {r s : State} (h : Kept r s) (a1 : Nat) (a2 : Nat) (a3 : BitVec 32) : Kept r
    (State.ccWrite s a1 a2 a3) := by
  unfold State.ccWrite
  repeat' first
    | with_reducible exact h | with_reducible assumption | intro _ | with_reducible apply State.winWrite_kept
    | with_reducible apply State.discardWin_kept | with_reducible apply State.modSlice_kept
    | with_reducible apply State.beginCtrlReset_kept | with_reducible apply Kept.ite

theorem State.enableLap_kept {r s : State} (h : Kept r s) : Kept r (State.enableLap s) := by
  unfold State.enableLap
  repeat' first
    | with_reducible exact h | with_reducible assumption | intro _ | with_reducible apply State.ev_kept
    | with_reducible apply State.setSlice_kept | with_reducible apply Kept.ite | with_reducible apply Kept.foldl

theorem State.badDoorbell_kept {r s : State} (h : Kept r s) (a1 : Nat) (a2 : AsyncEv) : Kept r
    (State.badDoorbell s a1 a2) := by
  unfold State.badDoorbell
  repeat' first
    | with_reducible exact h | with_reducible apply State.ev_kept | with_reducible apply State.asyncEvent_kept

theorem State.recordDoorbell_kept {r s : State} (h : Kept r s) (a1 : Nat) (a2 : Bool) (a3 : Nat) (a4 : Nat)
    (a5 : List SqEntry) : Kept r (State.recordDoorbell s a1 a2 a3 a4 a5) := by
  unfold State.recordDoorbell
  repeat' first
    | with_reducible exact h | with_reducible apply State.setSlice_kept | with_reducible apply Kept.ite | split

theorem State.doorbellWrite_kept {r s : State} (h : Kept r s) (a1 : Nat) (a2 : Nat) (a3 : Bool) (a4 : Nat)
    (a5 : Nat) (a6 : List SqEntry) : Kept r (State.doorbellWrite s a1 a2 a3 a4 a5 a6) := by
  unfold State.doorbellWrite
  repeat' first
    | with_reducible exact h | with_reducible assumption | intro _ | with_reducible apply State.winWrite_kept
    | with_reducible apply State.discardWin_kept | with_reducible apply State.wakeEvent_kept
    | with_reducible apply State.recordDoorbell_kept | with_reducible refine State.bar2Blocked_keptE ?_ _ _ _ ‹_›
    | with_reducible apply Kept.ite | split

theorem State.sampleSq_kept {r s : State} (h : Kept r s) (a1 : Nat) (a2 : Nat) : Kept r (State.sampleSq s a1 a2) := by
  unfold State.sampleSq
  repeat' first
    | with_reducible exact h | with_reducible apply State.modSlice_kept
    | with_reducible apply State.badDoorbell_kept | with_reducible apply Kept.ite | simp only
    | split

theorem State.sampleCq_kept {r s : State} (h : Kept r s) (a1 : Nat) (a2 : Nat) : Kept r (State.sampleCq s a1 a2) := by
  unfold State.sampleCq
  repeat' first
    | with_reducible exact h | with_reducible apply State.modSlice_kept
    | with_reducible apply State.badDoorbell_kept | with_reducible apply Kept.ite | simp only
    | split

theorem State.sampleStrays_kept {r s : State} (h : Kept r s) (a1 : Nat) : Kept r (State.sampleStrays s a1) := by
  unfold State.sampleStrays
  repeat' first
    | with_reducible exact h | with_reducible assumption | intro _ | with_reducible apply State.badDoorbell_kept
    | with_reducible apply State.modSlice_kept | with_reducible apply Kept.foldl

theorem State.sampleTick_kept {r s : State} (h : Kept r s) : Kept r (State.sampleTick s) := by
  unfold State.sampleTick
  repeat' first
    | with_reducible exact h | with_reducible assumption | intro _ | with_reducible apply State.sampleSq_kept
    | with_reducible apply State.sampleStrays_kept | with_reducible apply State.sampleCq_kept
    | with_reducible apply Kept.ite | with_reducible apply Kept.foldl

theorem State.wakeP3_kept {r s : State} (h : Kept r s) : Kept r (State.wakeP3 s) := by
  unfold State.wakeP3
  repeat' first
    | with_reducible exact h | with_reducible apply State.wakeEvent_kept | with_reducible apply Kept.ite

theorem State.cmbAccess_kept {r s : State} (h : Kept r s) (a1 : Nat) (a2 : Option Nat) (a3 : Nat) (a4 : Nat)
    (a5 : Option Bytes) : Kept r (State.cmbAccess s a1 a2 a3 a4 a5) := by
  unfold State.cmbAccess
  repeat' first
    | with_reducible exact h | with_reducible apply State.wakeP3_kept | with_reducible apply State.discard_kept
    | with_reducible apply State.ev_kept | with_reducible apply State.cmbPut_kept
    | with_reducible apply Kept.ite | simp only [↓Kept.upd_iff] | split

/-! ### RegRead -/

theorem State.wakeOnRead_kept {r s : State} (h : Kept r s) (a1 : Requester) : Kept r (State.wakeOnRead s a1) := by
  unfold State.wakeOnRead
  repeat' first
    | with_reducible exact h | with_reducible apply State.wakeP3_kept | split

theorem State.busRead_kept {r s : State} (h : Kept r s) (a1 : Requester) (a2 : Space) (a3 : Nat) : Kept r
    (State.busRead s a1 a2 a3).1 := by
  unfold State.busRead
  repeat' first
    | with_reducible exact h | with_reducible apply State.wakeOnRead_kept
    | with_reducible apply State.readEvrCheck_kept | simp only [↓Kept.upd_iff] | split

theorem State.busRead_keptE {t : State} {x : _} {r s : State} (h : Kept r s) (a1 : Requester) (a2 : Space)
    (a3 : Nat) (e : State.busRead s a1 a2 a3 = (t, x)) : Kept r t := by
  have q := State.busRead_kept h a1 a2 a3 ; rw [e] at q; exact q

theorem State.sizedRead_kept {r s : State} (h : Kept r s) (a1 : Requester) (a2 : Space) (a3 : Nat) (a4 : Nat)
    : Kept r (State.sizedRead s a1 a2 a3 a4).1 := by
  unfold State.sizedRead
  repeat' first
    | with_reducible exact h | with_reducible apply State.wakeOnRead_kept | with_reducible apply State.busRead_kept
    | simp only | split

theorem State.sizedRead_keptE {t : State} {x : _} {r s : State} (h : Kept r s) (a1 : Requester) (a2 : Space)
    (a3 : Nat) (a4 : Nat) (e : State.sizedRead s a1 a2 a3 a4 = (t, x)) : Kept r t := by
  have q := State.sizedRead_kept h a1 a2 a3 a4 ; rw [e] at q; exact q

/-! ### RegWrite -/

theorem State.evrClearBits_kept {r s : State} (h : Kept r s) (a1 : EvrSet) (a2 : Nat) : Kept r
    (State.evrClearBits s a1 a2) := by
  unfold State.evrClearBits
  repeat' first
    | with_reducible exact h | with_reducible apply State.setEvrPort_kept

theorem State.evrPut_kept {r s : State} (h : Kept r s) (a1 : EvrSet) (a2 : Reg) (a3 : Nat) : Kept r
    (State.evrPut s a1 a2 a3) := by
  unfold State.evrPut
  repeat' first
    | with_reducible exact h | with_reducible apply State.setEvrPort_kept
    | with_reducible apply State.evrClearBits_kept | with_reducible apply State.requestFreeze_kept
    | with_reducible apply State.requestRelease_kept | with_reducible apply State.requestClear_kept
    | with_reducible apply Kept.ite | simp only | split

theorem State.clearBits_kept {r s : State} (h : Kept r s) (a1 : Reg) (a2 : Nat) (a3 : Nat) : Kept r
    (State.clearBits s a1 a2 a3) := by
  unfold State.clearBits
  repeat' first
    | with_reducible exact h | with_reducible apply State.setCrs_kept | with_reducible apply State.setSlc_kept
    | with_reducible apply State.modPort_kept | with_reducible apply State.setFtl_kept
    | with_reducible apply State.modChan_kept | with_reducible apply State.setKst_kept
    | with_reducible apply State.modRly_kept | with_reducible apply State.setRly_kept | simp only [↓Kept.upd_iff]
    | split

theorem State.clearWin_kept {r s : State} (h : Kept r s) (a1 : Nat) (a2 : Reg) (a3 : Nat) : Kept r
    (State.clearWin s a1 a2 a3) := by
  unfold State.clearWin
  repeat' first
    | with_reducible exact h | with_reducible apply State.modHeatRegs_kept
    | with_reducible apply State.setPatTable_kept | with_reducible apply Kept.ite | simp only [↓Kept.upd_iff]
    | split

theorem State.store_kept {r s : State} (h : Kept r s) (a1 : Loc) (a2 : Nat) : Kept r (State.store s a1 a2) := by
  unfold State.store
  repeat' first
    | with_reducible exact h | with_reducible apply State.rwSet_kept | with_reducible apply State.stage_kept
    | with_reducible apply Kept.ite | simp only [↓Kept.upd_iff]

theorem State.unmask_kept {r s : State} (h : Kept r s) (a1 : Nat) : Kept r (State.unmask s a1) := by
  unfold State.unmask
  repeat' first
    | with_reducible exact h | with_reducible apply State.emit_kept | with_reducible apply Kept.ite
    | simp only [↓Kept.upd_iff]

theorem State.bar0Put_kept {r s : State} (h : Kept r s) (a1 : Loc) (a2 : Nat) : Kept r (State.bar0Put s a1 a2) := by
  unfold State.bar0Put
  repeat' first
    | with_reducible exact h | with_reducible apply State.evrPut_kept | with_reducible apply State.unmask_kept
    | with_reducible apply State.store_kept | with_reducible apply State.clearBits_kept | split

theorem State.errPut_kept {r s : State} (h : Kept r s) (a1 : Nat) (a2 : Nat) (a3 : State → State)
    (h3 : ∀ (x0 : State), Kept r x0 → Kept r (a3 x0)) : Kept r (State.errPut s a1 a2 a3) := by
  unfold State.errPut
  repeat' first
    | with_reducible exact h | with_reducible apply h3 | with_reducible apply Kept.ite | simp only [↓Kept.upd_iff]

theorem State.holdLow_kept {r s : State} (h : Kept r s) (a1 : Requester) (a2 : Nat) (a3 : Nat) : Kept r
    (State.holdLow s a1 a2 a3) := by
  unfold State.holdLow
  repeat' first
    | with_reducible exact h | with_reducible apply Kept.ite | simp only [↓Kept.upd_iff]

theorem State.takeLow_kept {r s : State} (h : Kept r s) (a1 : Requester) (a2 : Nat) : Kept r
    (State.takeLow s a1 a2).1 := by
  unfold State.takeLow
  repeat' first
    | with_reducible exact h | simp only [↓Kept.upd_iff]

theorem State.takeLow_keptE {t : State} {x : _} {r s : State} (h : Kept r s) (a1 : Requester) (a2 : Nat)
    (e : State.takeLow s a1 a2 = (t, x)) : Kept r t := by
  have q := State.takeLow_kept h a1 a2 ; rw [e] at q; exact q

theorem State.access_kept {r s : State} (h : Kept r s) (a1 : Requester) (a2 : Loc) (a3 : Nat) (a4 : Nat)
    (a5 : Nat) (a6 : State → Nat → State) (a7 : State → State)
    (h6 : ∀ (x0 : State) (x1 : Nat), Kept r x0 → Kept r (a6 x0 x1))
    (h7 : ∀ (x0 : State), Kept r x0 → Kept r (a7 x0)) : Kept r (State.access s a1 a2 a3 a4 a5 a6 a7) := by
  unfold State.access
  repeat' first
    | with_reducible exact h | with_reducible apply h6 | with_reducible apply h7
    | with_reducible apply State.takeLow_kept | with_reducible apply State.holdLow_kept
    | with_reducible apply Kept.ite

theorem State.discardAt_kept {r s : State} (h : Kept r s) (a1 : Nat) : Kept r (State.discardAt s a1) := by
  unfold State.discardAt
  repeat' first
    | with_reducible exact h | with_reducible apply State.discard_kept | with_reducible apply State.discardDev_kept
    | split

theorem State.bar0Reach_kept {r s : State} (h : Kept r s) (a1 : Requester) (a2 : Nat) (a3 : Nat) (a4 : Nat)
    : Kept r (State.bar0Reach s a1 a2 a3 a4) := by
  unfold State.bar0Reach
  repeat' first
    | with_reducible exact h | with_reducible assumption | intro _ | with_reducible apply State.ev_kept
    | with_reducible apply State.discard_kept | with_reducible apply State.discardAt_kept
    | with_reducible apply State.errPut_kept | with_reducible apply State.access_kept
    | with_reducible apply State.bar0Put_kept | with_reducible apply Kept.ite | split

theorem State.hostFetch_kept {r s : State} (h : Kept r s) : Kept r (State.hostFetch s).2 := by
  unfold State.hostFetch
  repeat' first
    | with_reducible exact h | simp only [↓Kept.upd_iff]

theorem State.hostFetch_keptE {t : State} {x : _} {r s : State} (h : Kept r s) (e : State.hostFetch s = (x, t))
    : Kept r t := by
  have q := State.hostFetch_kept h  ; rw [e] at q; exact q

theorem State.hostTakes_kept {r s : State} (h : Kept r s) : Kept r (State.hostTakes s).2 := by
  unfold State.hostTakes
  repeat' first
    | with_reducible exact h | simp only [↓Kept.upd_iff]

theorem State.hostTakes_keptE {t : State} {x : _} {r s : State} (h : Kept r s) (e : State.hostTakes s = (x, t))
    : Kept r t := by
  have q := State.hostTakes_kept h  ; rw [e] at q; exact q

theorem State.bar0Command_keptE {t : State} {r s : State} (h : Kept r s) (a1 : Requester) (a2 : Loc) (a3 : Nat)
    (e : State.bar0Command s a1 a2 a3 = some t) : Kept r t := by
  unfold State.bar0Command at e
  repeat' first
    | cases e | with_reducible exact h | with_reducible assumption | intro _
    | with_reducible apply State.hostFetch_kept | with_reducible apply State.hostTakes_kept
    | with_reducible apply State.cmdFwLoad_kept | with_reducible apply State.cmdFwActivate_kept
    | with_reducible apply State.cmdFwConfirm_kept | with_reducible apply State.cmdRestart_kept
    | with_reducible apply State.bar0Write_kept | with_reducible apply State.crsLoad_kept
    | with_reducible apply State.crsApply_kept | with_reducible apply State.crsPersist_kept
    | with_reducible apply State.crsDiscard_kept | with_reducible apply State.commitRequest_kept
    | with_reducible apply State.commitCancel_kept | with_reducible apply State.slcWrite_kept
    | with_reducible apply State.cmdCheckpoint_kept | with_reducible apply State.cmdDumpLoss_kept
    | with_reducible apply State.cmdAddUnpowered_kept | with_reducible apply State.cmdClearLoss_kept
    | with_reducible apply State.cmdDump_kept | with_reducible apply State.cmdReadRaw_kept
    | with_reducible apply State.cmdWriteRaw_kept | with_reducible apply State.cmdReadPage_kept
    | with_reducible apply State.cmdWritePage_kept | with_reducible apply State.enrolGo_kept
    | with_reducible apply State.cmdLoadRoster_kept | with_reducible apply State.cmdRekey_kept
    | with_reducible apply State.cmdDumpField_kept | with_reducible apply State.cmdSetTime_kept
    | with_reducible apply State.cmdWake_kept | with_reducible apply Kept.ite | split at e

theorem State.bar0RegWrite_kept {r s : State} (h : Kept r s) (a1 : Requester) (a2 : Nat) (a3 : Nat) (a4 : Nat)
    : Kept r (State.bar0RegWrite s a1 a2 a3 a4) := by
  have key : ∀ (l : Loc) (t : State), s.bar0Command a1 l a4 = some t → Kept r t := by
    intro l t e
    unfold State.bar0Command at e
    dsimp only at e
    have hf := State.hostFetch_kept h
    have ht := State.hostTakes_kept h
    split at e
    · cases e
    · split at e
      all_goals
        try split at e
        all_goals first
          | (cases e; done)
          | (obtain rfl := Option.some.inj e
             repeat' first
               | with_reducible assumption
               | intro _
               | with_reducible apply State.bar0Write_kept
               | with_reducible apply State.cmdFwLoad_kept
               | with_reducible apply State.cmdFwActivate_kept
               | with_reducible apply State.cmdFwConfirm_kept
               | with_reducible apply State.cmdRestart_kept
               | with_reducible apply State.crsLoad_kept
               | with_reducible apply State.crsApply_kept
               | with_reducible apply State.crsPersist_kept
               | with_reducible apply State.crsDiscard_kept
               | with_reducible apply State.commitRequest_kept
               | with_reducible apply State.commitCancel_kept
               | with_reducible apply State.slcWrite_kept
               | with_reducible apply State.cmdCheckpoint_kept
               | with_reducible apply State.cmdDumpLoss_kept
               | with_reducible apply State.cmdAddUnpowered_kept
               | with_reducible apply State.cmdClearLoss_kept
               | with_reducible apply State.cmdDump_kept
               | with_reducible apply State.cmdReadRaw_kept
               | with_reducible apply State.cmdWriteRaw_kept
               | with_reducible apply State.cmdReadPage_kept
               | with_reducible apply State.cmdWritePage_kept
               | with_reducible apply State.enrolGo_kept
               | with_reducible apply State.cmdLoadRoster_kept
               | with_reducible apply State.cmdRekey_kept
               | with_reducible apply State.cmdDumpField_kept
               | with_reducible apply State.cmdSetTime_kept
               | with_reducible apply State.cmdWake_kept
               | with_reducible apply Kept.ite)
  unfold State.bar0RegWrite
  dsimp only
  split
  · rename_i t e
    split at e
    · cases q : s.bar0Reg a2 with
      | none => rw [q] at e; cases e
      | some l => rw [q] at e; exact key l _ e
    · cases e
  · exact State.bar0Write_kept h _ _ _ (fun x hx => State.bar0Reach_kept hx _ _ _ _)

theorem State.ctrlPut_kept {r s : State} (h : Kept r s) (a1 : Nat) (a2 : Reg) (a3 : Nat) : Kept r
    (State.ctrlPut s a1 a2 a3) := by
  unfold State.ctrlPut
  repeat' first
    | with_reducible exact h | with_reducible apply State.modSlice_kept

theorem State.winPut_kept {r s : State} (h : Kept r s) (a1 : Nat) (a2 : Nat) (a3 : State.WinAt) (a4 : Nat)
    : Kept r (State.winPut s a1 a2 a3 a4) := by
  unfold State.winPut
  repeat' first
    | with_reducible exact h | with_reducible apply State.discardWin_kept | with_reducible apply State.ctrlPut_kept
    | with_reducible apply State.evrPut_kept | with_reducible apply State.clearWin_kept
    | with_reducible apply State.store_kept | with_reducible apply Kept.ite | split

theorem State.winReach_kept {r s : State} (h : Kept r s) (a1 : Nat) (a2 : Nat) (a3 : Nat) (a4 : Nat) (a5 : Nat)
    : Kept r (State.winReach s a1 a2 a3 a4 a5) := by
  unfold State.winReach
  repeat' first
    | with_reducible exact h | with_reducible assumption | intro _ | with_reducible apply State.discardWin_kept
    | with_reducible apply State.errPut_kept | with_reducible apply State.access_kept
    | with_reducible apply State.winPut_kept | with_reducible apply Kept.ite | simp only | split

theorem State.hostEntries_kept {r s : State} (h : Kept r s) (a1 : Nat) (a2 : Nat) (a3 : Nat) : Kept r
    (State.hostEntries s a1 a2 a3).2 := by
  unfold State.hostEntries
  repeat' first
    | with_reducible exact h | simp only [↓Kept.upd_iff]

theorem State.hostEntries_keptE {t : State} {x : _} {r s : State} (h : Kept r s) (a1 : Nat) (a2 : Nat) (a3 : Nat)
    (e : State.hostEntries s a1 a2 a3 = (x, t)) : Kept r t := by
  have q := State.hostEntries_kept h a1 a2 a3 ; rw [e] at q; exact q

theorem State.bar2RegWrite_kept {r s : State} (h : Kept r s) (a1 : Nat) (a2 : Nat) (a3 : Nat) (a4 : Nat) : Kept r
    (State.bar2RegWrite s a1 a2 a3 a4) := by
  unfold State.bar2RegWrite
  repeat' first
    | with_reducible exact h | with_reducible assumption | intro _ | with_reducible apply State.hostEntries_kept
    | with_reducible apply State.doorbellWrite_kept | with_reducible apply State.ccWrite_kept
    | with_reducible apply State.cmdHeatStop_kept | with_reducible apply State.cmdHdlStop_kept
    | with_reducible apply State.winWrite_kept | with_reducible apply State.winReach_kept
    | with_reducible apply Kept.ite

theorem State.smbusReach_kept {r s : State} (h : Kept r s) (a1 : Nat) (a2 : Nat) : Kept r
    (State.smbusReach s a1 a2) := by
  unfold State.smbusReach
  repeat' first
    | with_reducible exact h | with_reducible assumption | intro _ | with_reducible apply State.discard_kept
    | with_reducible apply State.access_kept | with_reducible apply State.evrPut_kept
    | with_reducible apply Kept.ite | simp only | split

theorem State.regWrite_kept {r s : State} (h : Kept r s) (a1 : Requester) (a2 : Space) (a3 : Nat) (a4 : Nat)
    (a5 : BitVec 64) : Kept r (State.regWrite s a1 a2 a3 a4 a5) := by
  unfold State.regWrite
  repeat' first
    | with_reducible exact h | with_reducible apply State.smbusReach_kept
    | with_reducible apply State.bar0RegWrite_kept | with_reducible apply State.bar2RegWrite_kept
    | with_reducible apply Kept.ite | simp only | split

theorem State.reg64Read_kept {r s : State} (h : Kept r s) (a1 : Requester) (a2 : Space) (a3 : Nat) (a4 : Nat)
    : Kept r (State.reg64Read s a1 a2 a3 a4) := by
  unfold State.reg64Read
  repeat' first
    | with_reducible exact h | with_reducible apply State.sizedRead_kept | simp only [↓Kept.upd_iff]

/-! ### Pins -/

theorem State.latchBasic_kept {r s : State} (h : Kept r s) : Kept r (State.latchBasic s) := by
  unfold State.latchBasic
  repeat' first
    | with_reducible exact h | simp only [↓Kept.upd_iff]

theorem State.smbusBasic_kept {r s : State} (h : Kept r s) (a1 : Nat) : Kept r (State.smbusBasic s a1) := by
  unfold State.smbusBasic
  repeat' first
    | with_reducible exact h | with_reducible apply State.emit_kept | with_reducible apply Kept.ite

theorem State.smbusSelect_kept {r s : State} (h : Kept r s) (a1 : Nat) (a2 : Bool) : Kept r
    (State.smbusSelect s a1 a2) := by
  unfold State.smbusSelect
  repeat' first
    | with_reducible exact h | with_reducible apply State.wakeEvent_kept | with_reducible apply Kept.ite
    | simp only [↓Kept.upd_iff]

theorem State.smbusRead_kept {r s : State} (h : Kept r s) : Kept r (State.smbusRead s) := by
  unfold State.smbusRead
  repeat' first
    | with_reducible exact h | with_reducible apply State.busRead_kept | with_reducible apply State.emit_kept
    | with_reducible apply Kept.ite

theorem State.smbusWrite_kept {r s : State} (h : Kept r s) (a1 : Nat) (a2 : BitVec 32) (a3 : Bool) : Kept r
    (State.smbusWrite s a1 a2 a3) := by
  unfold State.smbusWrite
  repeat' first
    | with_reducible exact h | with_reducible apply State.wakeEvent_kept | with_reducible apply State.discard_kept
    | with_reducible apply State.smbusReach_kept | with_reducible apply Kept.ite

theorem State.alertTick_kept {r s : State} (h : Kept r s) : Kept r (State.alertTick s) := by
  unfold State.alertTick
  repeat' first
    | with_reducible exact h | with_reducible apply State.setPin_kept

theorem State.tapLoad_kept {r s : State} (h : Kept r s) (a1 : Nat) : Kept r (State.tapLoad s a1) := by
  unfold State.tapLoad
  repeat' first
    | with_reducible exact h | simp only [↓Kept.upd_iff]

theorem State.tapLocked_kept {r s : State} (h : Kept r s) : Kept r (State.tapLocked s) := by
  unfold State.tapLocked
  repeat' first
    | with_reducible exact h | with_reducible apply State.tapLoad_kept
    | with_reducible apply State.securityAlarm_kept | with_reducible apply Kept.ite | simp only [↓Kept.upd_iff]

theorem State.tapDrive_kept {r s : State} (h : Kept r s) (a1 : Nat) : Kept r (State.tapDrive s a1) := by
  unfold State.tapDrive
  repeat' first
    | with_reducible exact h | with_reducible apply State.tapLoad_kept | with_reducible apply State.tapLocked_kept
    | with_reducible apply Kept.ite

theorem State.tapPublic_kept {r s : State} (h : Kept r s) (a1 : Nat) : Kept r (State.tapPublic s a1) := by
  unfold State.tapPublic
  repeat' first
    | with_reducible exact h | with_reducible apply State.tapLoad_kept | with_reducible apply Kept.ite

theorem State.tapDebug_kept {r s : State} (h : Kept r s) (a1 : Nat) : Kept r (State.tapDebug s a1) := by
  unfold State.tapDebug
  repeat' first
    | with_reducible exact h | with_reducible apply State.tapLoad_kept | with_reducible apply State.tapLocked_kept
    | with_reducible apply Kept.ite

theorem State.tapReset_kept {r s : State} (h : Kept r s) : Kept r (State.tapReset s) := by
  unfold State.tapReset
  repeat' first
    | with_reducible exact h | with_reducible apply Kept.ite | simp only [↓Kept.upd_iff]

/-! ### Admit -/

theorem State.endAtOnce_kept {r s : State} (h : Kept r s) (a1 : Adm) (a2 : Status) (a3 : Nat) : Kept r
    (State.endAtOnce s a1 a2 a3) := by
  unfold State.endAtOnce
  repeat' first
    | with_reducible exact h | with_reducible apply State.modSlice_kept

theorem State.admitEntry_kept {r s : State} (h : Kept r s) (a1 : Nat) (a2 : Nat) (a3 : Sq) (a4 : SqEntry) : Kept r
    (State.admitEntry s a1 a2 a3 a4) := by
  unfold State.admitEntry
  repeat' first
    | with_reducible exact h | with_reducible apply State.modSlice_kept | with_reducible apply State.endAtOnce_kept
    | simp only [↓Kept.upd_iff] | split

theorem State.admitRow_kept {r s : State} (h : Kept r s) (a0 : Nat) (a1 : Nat) (a2 : Nat) : Kept r
    (State.admitRow a0 a1 a2 s).1 := by
  induction a2 generalizing s with
  | zero => exact h
  | succ k ih =>
    unfold State.admitRow
    dsimp only
    split
    · exact h
    · have k1 : ∀ q, Kept r (s.modSlice a0 (fun x => { x with sqs := tset x.sqs a1 q })) := fun q =>
        State.modSlice_kept h _ _
      split
      · exact k1 _
      · split
        · exact k1 _
        · split
          · exact k1 _
          · exact ih (State.admitEntry_kept (State.modSlice_kept (k1 _) _ _) _ _ _ _)

theorem State.admitRow_keptE {t : State} {x : _} {r s : State} (h : Kept r s) (a0 : Nat) (a1 : Nat) (a2 : Nat)
    (e : State.admitRow a0 a1 a2 s = (t, x)) : Kept r t := by
  have q := State.admitRow_kept h a0 a1 a2 ; rw [e] at q; exact q

theorem State.admitTurns_kept {r s : State} (h : Kept r s) (a0 : Nat) (a1 : Nat) (a2 : Nat) (a3 : List Nat)
    : Kept r (State.admitTurns a0 a1 a2 a3 s).1 := by
  induction a1 generalizing s a2 a3 with
  | zero => exact h
  | succ k ih =>
    unfold State.admitTurns
    dsimp only
    split
    · exact h
    · split
      · exact h
      · exact ih (State.admitRow_kept (State.setSlice_kept h _ _) _ _ _) _ _

theorem State.admitTurns_keptE {t : State} {x : _} {r s : State} (h : Kept r s) (a0 : Nat) (a1 : Nat) (a2 : Nat)
    (a3 : List Nat) (e : State.admitTurns a0 a1 a2 a3 s = (t, x)) : Kept r t := by
  have q := State.admitTurns_kept h a0 a1 a2 a3 ; rw [e] at q; exact q

theorem State.admitSlice_kept {r s : State} (h : Kept r s) (a1 : Nat) (a2 : Nat) : Kept r
    (State.admitSlice s a1 a2) := by
  unfold State.admitSlice
  repeat' first
    | with_reducible exact h | with_reducible apply State.admitTurns_kept | with_reducible apply State.ev_kept
    | with_reducible apply Kept.ite

theorem State.linkHolder_kept {r s : State} (h : Kept r s) (a1 : Nat) : Kept r (State.linkHolder s a1).1 := by
  unfold State.linkHolder
  repeat' first
    | with_reducible exact h | simp only [↓Kept.upd_iff] | split

theorem State.linkHolder_keptE {t : State} {x : _} {r s : State} (h : Kept r s) (a1 : Nat)
    (e : State.linkHolder s a1 = (t, x)) : Kept r t := by
  have q := State.linkHolder_kept h a1 ; rw [e] at q; exact q

theorem State.linkHolders_kept {r s : State} (h : Kept r s) : Kept r (State.linkHolders s).1 := by
  unfold State.linkHolders
  repeat' first
    | with_reducible exact h | with_reducible assumption | intro _ | with_reducible apply State.linkHolder_kept
    | with_reducible apply Kept.foldlFst

theorem State.linkHolders_keptE {t : State} {x : _} {r s : State} (h : Kept r s) (e : State.linkHolders s = (t, x))
    : Kept r t := by
  have q := State.linkHolders_kept h  ; rw [e] at q; exact q

theorem State.takeBadEntries_kept {r s : State} (h : Kept r s) (a1 : Nat) : Kept r (State.takeBadEntries s a1) := by
  unfold State.takeBadEntries
  split
  · exact h
  · exact State.modSlice_kept (State.readCmb_kept h _ _) _ _

theorem State.admitTick_kept {r s : State} (h : Kept r s) (a1 : List (Option Nat)) : Kept r
    (State.admitTick s a1) := by
  unfold State.admitTick
  repeat' first
    | with_reducible apply State.takeBadEntries_kept
    | with_reducible exact h | with_reducible assumption | intro _ | with_reducible apply State.admitSlice_kept
    | with_reducible apply Kept.ite | with_reducible apply Kept.foldl

theorem State.postTick_kept {r s : State} (h : Kept r s) (a1 : List (Option Nat)) : Kept r (State.postTick s a1) := by
  unfold State.postTick
  repeat' first
    | with_reducible exact h | with_reducible assumption | intro _ | with_reducible apply State.postReady_kept
    | with_reducible apply Kept.ite | with_reducible apply Kept.foldl

theorem State.fetchTick_kept {r s : State} (h : Kept r s) (a1 : List (Option Nat)) : Kept r
    (State.fetchTick s a1) := by
  unfold State.fetchTick
  repeat' first
    | with_reducible exact h | with_reducible assumption | intro _ | with_reducible apply State.modSlice_kept
    | with_reducible apply Kept.ite | with_reducible apply Kept.foldl | split

theorem State.abortEligible_keptE {t : State} {r s : State} (h : Kept r s) (a1 : Nat) (a2 : Nat) (a3 : Nat)
    (e : State.abortEligible s a1 a2 a3 = some t) : Kept r t := by
  unfold State.abortEligible at e
  repeat' first
    | cases e | with_reducible exact h | with_reducible apply State.modSlice_kept
    | with_reducible apply State.endAtOnce_kept | simp only [↓Kept.upd_iff] | split at e

theorem State.abortAct_kept {r s : State} (h : Kept r s) (a1 : Nat) (a2 : AbortReq) : Kept r
    (State.abortAct s a1 a2) := by
  unfold State.abortAct
  repeat' first
    | with_reducible exact h | with_reducible apply State.finishNow_kept | with_reducible apply State.dropEntry_kept
    | with_reducible refine State.abortEligible_keptE ?_ _ _ _ ‹_› | with_reducible apply Kept.ite
    | simp only | split

theorem State.takeAborts_kept {r s : State} (h : Kept r s) (a1 : Nat) : Kept r (State.takeAborts s a1) := by
  unfold State.takeAborts
  repeat' first
    | with_reducible exact h | with_reducible assumption | intro _ | with_reducible apply State.takeAbort_kept
    | with_reducible apply Kept.foldl

theorem State.abortTick_kept {r s : State} (h : Kept r s) : Kept r (State.abortTick s) := by
  unfold State.abortTick
  repeat' first
    | with_reducible exact h | with_reducible assumption | intro _ | with_reducible apply State.takeAborts_kept
    | with_reducible apply State.modSlice_kept | with_reducible apply State.abortAct_kept
    | with_reducible apply Kept.foldl

theorem State.sampleStep_kept {r s : State} (h : Kept r s) : Kept r (State.sampleStep s) := by
  unfold State.sampleStep
  repeat' first
    | with_reducible exact h | with_reducible apply State.sampleTick_kept
    | with_reducible apply State.abortTick_kept | with_reducible apply Kept.ite | simp only [↓Kept.upd_iff]

theorem State.linkTick_kept {r s : State} (h : Kept r s) : Kept r (State.linkTick s) := by
  unfold State.linkTick
  repeat' first
    | with_reducible exact h | with_reducible apply State.linkHolders_kept | simp only [↓Kept.upd_iff]

theorem State.hostTick_kept {r s : State} (h : Kept r s) : Kept r (State.hostTick s) := by
  unfold State.hostTick
  repeat' first
    | with_reducible exact h | with_reducible apply State.postTick_kept | with_reducible apply State.fetchTick_kept
    | with_reducible apply State.replyTick_kept | with_reducible apply State.admitTick_kept

end Sys2Proof.Machine
end

