-- ==== Sys2Proof/Laws/KeptStep.lean ====
section
/-! SUPPORT. What every operation of the tick and what each command runs keeps. -/

namespace Sys2Proof.Machine

open State

/-! ### Tick -/

theorem State.eachSlice_kept {r s : State} (h : Kept r s) (a1 : State → Nat → State)
    (h1 : ∀ (x0 : State) (x1 : Nat), Kept r x0 → Kept r (a1 x0 x1)) : Kept r (State.eachSlice s a1) := by
  unfold State.eachSlice
  repeat' first
    | with_reducible exact h | with_reducible assumption | intro _ | with_reducible apply h1
    | with_reducible apply Kept.foldl

theorem State.scrubReport_kept {r s : State} (h : Kept r s) (a1 : Nat) : Kept r (State.scrubReport s a1) := by
  unfold State.scrubReport
  repeat' first
    | with_reducible exact h | with_reducible apply State.setPatTable_kept | simp only | split

theorem State.scrubEntry_kept {r s : State} (h : Kept r s) (a1 : Nat) (a2 : Nat) : Kept r
    (State.scrubEntry s a1 a2) := by
  unfold State.scrubEntry
  repeat' first
    | with_reducible exact h | with_reducible assumption | intro _ | with_reducible apply State.modArr_kept
    | with_reducible apply State.ev_kept | with_reducible apply State.scrubReport_kept | simp only [↓Kept.upd_iff]

theorem State.goldenLost_kept {r s : State} (h : Kept r s) (a1 : Nat) : Kept r (State.goldenLost s a1) := by
  unfold State.goldenLost
  repeat' first
    | with_reducible exact h | with_reducible apply State.ev_kept | with_reducible apply State.setPatTable_kept
    | simp only [↓Kept.upd_iff] | split

theorem State.scrubLap_kept {r s : State} (h : Kept r s) : Kept r (State.scrubLap s) := by
  unfold State.scrubLap
  repeat' first
    | with_reducible exact h | with_reducible assumption | intro _ | with_reducible apply State.memByte_kept
    | with_reducible apply State.goldenLost_kept | with_reducible apply State.scrubEntry_kept
    | with_reducible apply Kept.ite | with_reducible apply Kept.foldl

theorem State.scrubTaint_kept {r s : State} (h : Kept r s) : Kept r (State.scrubTaint s) := by
  unfold State.scrubTaint
  repeat' first
    | with_reducible exact h | with_reducible apply Kept.ite | simp only [↓Kept.upd_iff]

theorem State.ageLap_kept {r s : State} (h : Kept r s) : Kept r (State.ageLap s) := by
  unfold State.ageLap
  repeat' first
    | with_reducible exact h | simp only | simp only [↓Kept.updDur_iff]

theorem State.recordTable_kept {r s : State} (h : Kept r s) : Kept r (State.recordTable s) := by
  unfold State.recordTable
  repeat' first
    | with_reducible exact h | with_reducible apply Kept.ite | simp only
    | simp only [↓Kept.updDur_iff]

theorem State.lapConfig_kept {r s : State} (h : Kept r s) : Kept r (State.lapConfig s) := by
  unfold State.lapConfig
  repeat' first
    | with_reducible exact h | with_reducible apply State.fijLap_kept | with_reducible apply State.enableLap_kept
    | with_reducible apply State.slicesLap_kept | with_reducible apply State.configLap_kept

theorem State.lapBudgets_kept {r s : State} (h : Kept r s) : Kept r (State.lapBudgets s) := by
  unfold State.lapBudgets
  repeat' first
    | with_reducible exact h | with_reducible apply State.coreResets_kept | with_reducible apply State.heatLap_kept
    | with_reducible apply State.cipherLap_kept | with_reducible apply State.budgetRefill_kept

theorem State.lapPasses_kept {r s : State} (h : Kept r s) : Kept r (State.lapPasses s) := by
  unfold State.lapPasses
  repeat' first
    | with_reducible exact h | with_reducible apply State.keyLap_kept | with_reducible apply State.scrubLap_kept
    | with_reducible apply State.patrolLap_kept | with_reducible apply State.catchUpLap_kept
    | with_reducible apply State.fillReserves_kept | with_reducible apply State.kstLap_kept
    | with_reducible apply State.lifeLap_kept | with_reducible apply State.decayLap_kept
    | with_reducible apply Kept.ite

theorem State.lapRest_kept {r s : State} (h : Kept r s) : Kept r (State.lapRest s) := by
  unfold State.lapRest
  repeat' first
    | with_reducible exact h | with_reducible apply State.powerLap_kept
    | with_reducible apply State.recordTable_kept | with_reducible apply State.ageLap_kept
    | with_reducible apply State.migLap_kept | with_reducible apply State.relayLap_kept

theorem State.lapTick_kept {r s : State} (h : Kept r s) : Kept r (State.lapTick s) := by
  unfold State.lapTick
  repeat' first
    | with_reducible exact h | with_reducible apply State.lapRest_kept | with_reducible apply State.lapPasses_kept
    | with_reducible apply State.lapBudgets_kept | with_reducible apply State.lapConfig_kept

theorem State.doubleFault_kept {r s : State} (h : Kept r s) (a1 : Nat) (a2 : Nat) (a3 : Nat) (a4 : Dword) : Kept r
    (State.doubleFault s a1 a2 a3 a4) := by
  unfold State.doubleFault
  repeat' first
    | with_reducible exact h | with_reducible apply State.heatFault_kept
    | with_reducible apply State.raiseFault_kept | with_reducible apply Kept.ite

theorem State.failTick_kept {r s : State} (h : Kept r s) : Kept r (State.failTick s) := by
  unfold State.failTick
  repeat' first
    | with_reducible exact h | with_reducible apply State.afterPfail_kept
    | with_reducible apply State.flushTime_kept | with_reducible apply State.joinTick_kept
    | with_reducible apply State.restartTick_kept | with_reducible apply State.faultTick_kept
    | with_reducible apply State.powerFailTick_kept

theorem State.warnEvents_kept {r s : State} (h : Kept r s) (a1 : Nat) : Kept r (State.warnEvents s a1) := by
  unfold State.warnEvents
  repeat' first
    | with_reducible exact h | with_reducible apply State.modSlice_kept
    | with_reducible apply State.healthEvent_kept | with_reducible apply Kept.ite

theorem State.storeTick_kept {r s : State} (h : Kept r s) : Kept r (State.storeTick s) := by
  unfold State.storeTick
  repeat' first
    | with_reducible exact h | with_reducible assumption | intro _ | with_reducible apply State.reserveTick_kept
    | with_reducible apply State.drainTick_kept | with_reducible apply State.waterTick_kept
    | with_reducible apply State.releaseTick_kept | with_reducible apply State.visibleTick_kept
    | with_reducible apply State.refreshTick_kept | with_reducible apply State.catchUpTick_kept
    | with_reducible apply State.dumpTick_kept | with_reducible apply State.holdupTick_kept
    | with_reducible apply State.issueTick_kept | with_reducible apply State.flushTick_kept
    | with_reducible apply State.evacTick_kept | with_reducible apply State.eachSlice_kept
    | with_reducible apply State.trimTick_kept

theorem State.engineTick_kept {r s : State} (h : Kept r s) : Kept r (State.engineTick s) := by
  unfold State.engineTick
  repeat' first
    | with_reducible exact h | with_reducible assumption | intro _ | with_reducible apply State.coreTick_kept
    | with_reducible apply State.heatStopTick_kept | with_reducible apply State.heatSweep_kept
    | with_reducible apply State.heatStaged_kept | with_reducible apply State.hurdleTick_kept
    | with_reducible apply State.patTick_kept | with_reducible apply State.digestTick_kept
    | with_reducible apply State.cipherTick_kept | with_reducible apply State.pkTick_kept
    | with_reducible apply State.scrubTaint_kept | with_reducible apply Kept.foldl

theorem State.sliceTick_kept {r s : State} (h : Kept r s) : Kept r (State.sliceTick s) := by
  unfold State.sliceTick
  repeat' first
    | with_reducible exact h | with_reducible assumption | intro _ | with_reducible apply State.migTick_kept
    | with_reducible apply State.slcOverdue_kept | with_reducible apply State.slcTick_kept
    | with_reducible apply State.slcRest_kept

theorem State.relayTick_kept {r s : State} (h : Kept r s) : Kept r (State.relayTick s) := by
  unfold State.relayTick
  repeat' first
    | with_reducible exact h | with_reducible assumption | intro _ | with_reducible apply State.helloRepeat_kept
    | with_reducible apply State.linkSilent_kept | with_reducible apply State.retransmit_kept
    | with_reducible apply State.peerDeclaredLost_kept | with_reducible apply State.ppsOutTick_kept
    | with_reducible apply State.eachSlice_kept | with_reducible apply State.summarySend_kept
    | with_reducible apply State.pairConfirmSend_kept | with_reducible apply Kept.ite
    | with_reducible apply Kept.foldl

theorem State.endTick_kept {r s : State} (h : Kept r s) : Kept r (State.endTick s) := by
  unfold State.endTick
  repeat' first
    | with_reducible exact h | with_reducible assumption | intro _ | with_reducible apply State.eachSlice_kept
    | with_reducible apply State.sliceFrozen_kept | with_reducible apply State.resetComplete_kept
    | with_reducible apply State.endShutdown_kept | with_reducible apply State.endCtrlReset_kept

theorem State.coreBus_keeps : State.coreBus.Keeps := by
  refine ⟨?_, ?_, ?_, ?_⟩
  · intro r s h c a; exact State.busRead_kept h _ _ _
  · intro r s h c a v; exact State.regWrite_kept h (.core c) .bar0 a 4 (v.setWidth 64)
  · intro r s h c x y z; exact State.heatFault_kept h _ _ _ _
  · intro r s h c x y z; exact State.doubleFault_kept h _ _ _ _

theorem State.activeTick_kept {r s : State} (h : Kept r s) : Kept r (State.activeTick s) := by
  unfold State.activeTick
  repeat' first
    | with_reducible exact h | with_reducible assumption | intro _ | with_reducible apply State.failTick_kept
    | with_reducible apply State.evrTick_kept | with_reducible apply State.heatFaultTick_kept
    | with_reducible apply State.lapTick_kept
    | with_reducible apply State.linkTick_kept | with_reducible apply State.sampleStep_kept
    | with_reducible apply State.eachSlice_kept | with_reducible apply State.takeCfs_kept
    | with_reducible apply State.warnEvents_kept | with_reducible apply State.relayTick_kept
    | with_reducible apply State.sliceTick_kept | with_reducible apply State.engineTick_kept
    | with_reducible apply State.storeTick_kept | with_reducible apply State.repuTick_kept
    | with_reducible apply State.alertTick_kept | with_reducible apply State.wakeTick_kept
    | with_reducible apply State.prepTick_kept | with_reducible apply State.endTick_kept
    | with_reducible apply State.coalesceTick_kept | with_reducible apply State.hostTick_kept
    | exact State.coreBus_keeps | with_reducible apply Kept.ite

theorem State.sleepTick_kept {r s : State} (h : Kept r s) : Kept r (State.sleepTick s) := by
  unfold State.sleepTick
  repeat' first
    | with_reducible exact h | with_reducible apply State.refreshWakeDue_kept
    | with_reducible apply State.timerExpiry_kept | with_reducible apply State.failTick_kept
    | with_reducible apply State.powerLap_kept | with_reducible apply State.ageLap_kept
    | with_reducible apply Kept.ite

theorem State.tick_kept {r s : State} (hr : s.dev.run ≠ .off) (ht : Kept r { s with stride := s.stride + 1 })
    : Kept r s.tick := by
  unfold State.tick
  dsimp only
  split
  · exact absurd ‹_› hr
  · split
    · exact ht
    · split
      · exact State.sleepTick_kept ht
      · exact State.activeTick_kept ht

theorem State.lapBoundary_kept {r s : State} (hl : (s.stride + 1) % 4000 = 0) (hr : s.dev.run ≠ .off)
    (ht : Kept r { s with stride := s.stride + 1 }) : Kept r s.lapBoundary := by
  unfold State.lapBoundary
  split
  · exact State.tick_kept hr ht
  · rename_i q; exact absurd hl q

/-! ### Exec -/

theorem State.hopFor_kept {r s : State} (h : Kept r s) (a1 : CmdId) (a2 : Nat) : Kept r (State.hopFor s a1 a2) := by
  unfold State.hopFor
  repeat' first
    | with_reducible exact h | with_reducible apply State.onHop_kept | with_reducible apply Kept.ite

/-! ### ExecStore -/

theorem State.entryById_kept {r s : State} (h : Kept r s) (a1 : Nat) (a2 : Nat) : Kept r
    (State.entryById s a1 a2) := by
  unfold State.entryById
  repeat' first
    | with_reducible exact h | with_reducible apply State.mirrorSlice_kept
    | with_reducible apply State.entryVisible_kept | split

theorem State.holdupRise_kept {r s : State} (h : Kept r s) : Kept r (State.holdupRise s) := by
  unfold State.holdupRise
  repeat' first
    | with_reducible exact h | with_reducible apply State.armHoldup_kept | with_reducible apply Kept.ite
    | simp only [↓Kept.upd_iff]

theorem State.holdupFall_kept {r s : State} (h : Kept r s) : Kept r (State.holdupFall s) := by
  unfold State.holdupFall
  repeat' first
    | with_reducible exact h | with_reducible apply State.disarmHoldup_kept | with_reducible apply Kept.ite
    | simp only [↓Kept.upd_iff]

/-! ### ExecCore -/

theorem State.runRow_kept {r s : State} (h : Kept r s) (a1 : Nat) (a2 : Bool) (a3 : RepWord) : Kept r
    (State.runRow s a1 a2 a3) := by
  unfold State.runRow
  split
  · exact State.runWord_kept h _ _ _ State.coreBus_keeps
  · exact h

/-! ### ExecRelay -/

theorem State.frameAct_kept {r s : State} (h : Kept r s) (a1 : RelayIn) : Kept r (State.frameAct s a1) := by
  unfold State.frameAct
  split
  all_goals first
    | exact h
    | apply State.hello_kept h
    | apply State.linkOffer_kept h
    | apply State.linkAnswer_kept h
    | apply State.fieldKey_kept h
    | apply State.pace_kept h
    | apply State.summary_kept h
    | apply State.rosterMsg_kept h
    | apply State.postAck_kept h
    | apply State.pairConfirm_kept h
    | apply State.migOffer_kept h
    | apply State.migReply_kept h
    | apply State.migBaton_kept h
    | apply State.migData_kept h
    | apply State.migCommit_kept h
    | apply State.migCommitted_kept h
    | apply State.migErased_kept h
    | apply State.migErasedAck_kept h
    | apply State.migAbort_kept h
    | apply State.ackMsg_kept h
    | exact State.postReq_kept (State.onHop_kept h _) _ _

theorem State.linkFrame_kept {r s : State} (h : Kept r s) (a1 : Nat) (a2 : RelayIn) : Kept r (State.linkFrame s a1 a2) := by
  unfold State.linkFrame
  repeat' first
    | with_reducible exact h | intro _ | with_reducible assumption | with_reducible apply State.frameAct_kept
    | with_reducible apply State.onFrame_kept | with_reducible apply Kept.ite

theorem State.routedFrame_kept {r s : State} (h : Kept r s) (a1 : Nat) (a2 : RelayIn) : Kept r
    (State.routedFrame s a1 a2) := by
  unfold State.routedFrame
  repeat' first
    | with_reducible exact h | intro _ | with_reducible assumption | with_reducible apply State.frameAct_kept
    | with_reducible apply State.onFrame_kept | with_reducible apply Kept.ite

theorem State.summaryDue_kept {r s : State} (h : Kept r s) : Kept r (State.summaryDue s) := by
  unfold State.summaryDue
  repeat' first
    | with_reducible exact h | with_reducible apply State.summarySend_kept | with_reducible apply Kept.ite

theorem State.ppsIn_kept {r s : State} (h : Kept r s) (a1 : Int) (a2 : Nat) : Kept r (State.ppsIn s a1 a2) := by
  unfold State.ppsIn
  repeat' first
    | with_reducible exact h | with_reducible apply State.ppsEdge_kept | with_reducible apply Kept.ite

/-! ### ExecDevice -/

theorem State.setCheck_kept {r s : State} (h : Kept r s) (a1 : EvrSet) : Kept r (State.setCheck s a1) := by
  unfold State.setCheck
  repeat' first
    | with_reducible exact h | with_reducible apply State.reg64Read_kept

theorem State.setFreeze_kept {r s : State} (h : Kept r s) (a1 : EvrSet) (a2 : BitVec 64) : Kept r
    (State.setFreeze s a1 a2) := by
  unfold State.setFreeze
  repeat' first
    | with_reducible exact h | with_reducible apply State.regWrite_kept

theorem State.freezeExpiry_kept {r s : State} (h : Kept r s) (a1 : Option Nat) : Kept r
    (State.freezeExpiry s a1) := by
  unfold State.freezeExpiry
  repeat' first
    | with_reducible exact h | with_reducible apply State.evrThaw_kept | with_reducible apply Kept.ite | split

theorem State.faultOf_kept {r s : State} (h : Kept r s) (a1 : Nat) : Kept r (State.faultOf s a1) := by
  unfold State.faultOf
  repeat' first
    | with_reducible exact h | with_reducible apply State.raiseFault_kept | with_reducible apply Kept.ite

end Sys2Proof.Machine
end

