-- ==== Sys2Proof/Laws/KeptExec.lean ====
section
/-! SUPPORT. What the meaning of each command keeps, the tick and the power cycle apart. -/

namespace Sys2Proof.Machine

open State

theorem execPollComplete_kept {u s t : State} (h : Kept u s) (id : Nat) (r : PollResult) (e : execPollComplete id r s = .next t) : Kept u t := by
  cases e
  repeat' first
    | with_reducible exact h | with_reducible assumption | intro _ | with_reducible apply State.pollReturn_kept | with_reducible exact State.coreBus_keeps | with_reducible apply Kept.ite | split

theorem execHeatLapLimit_kept {u s t : State} (h : Kept u s) (c : CmdId) (e : execHeatLapLimit c s = .next t) : Kept u t := by
  obtain rfl := onSlice_next e
  repeat' first
    | with_reducible exact h | with_reducible assumption | intro _ | with_reducible apply State.heatLapLimit_kept | with_reducible exact State.coreBus_keeps | with_reducible apply Kept.ite | split

theorem execRegWrite_kept {u s t : State} (h : Kept u s) (req : Requester) (sp : Space) (off size : Nat) (v : BitVec 64) (e : execRegWrite req sp off size v s = .next t) : Kept u t := by
  obtain rfl := byReq_next e
  repeat' first
    | with_reducible exact h | with_reducible assumption | intro _ | with_reducible apply State.regWrite_kept | with_reducible exact State.coreBus_keeps | with_reducible apply Kept.ite | split

theorem execReg64LowRead_kept {u s t : State} (h : Kept u s) (req : Requester) (sp : Space) (span : ReadSpan) (e : execReg64LowRead req sp span s = .next t) : Kept u t := by
  obtain rfl := byReq_next e
  repeat' first
    | with_reducible exact h | with_reducible assumption | intro _ | with_reducible apply State.reg64Read_kept | with_reducible exact State.coreBus_keeps | with_reducible apply Kept.ite | split

theorem execReg64HighRead_kept {u s t : State} (h : Kept u s) (req : Requester) (sp : Space) (off : Nat) (e : execReg64HighRead req sp off s = .next t) : Kept u t := by
  obtain rfl := byReq_next e
  repeat' first
    | with_reducible exact h | with_reducible assumption | intro _ | with_reducible apply State.reg64Read_kept | with_reducible exact State.coreBus_keeps | with_reducible apply Kept.ite | split

theorem execReg64LowWrite_kept {u s t : State} (h : Kept u s) (req : Requester) (sp : Space) (off : Nat) (v : BitVec 32) (e : execReg64LowWrite req sp off v s = .next t) : Kept u t := by
  obtain rfl := byReq_next e
  repeat' first
    | with_reducible exact h | with_reducible assumption | intro _ | with_reducible apply State.regWrite_kept | with_reducible exact State.coreBus_keeps | with_reducible apply Kept.ite | split

theorem execReg64HighWrite_kept {u s t : State} (h : Kept u s) (req : Requester) (sp : Space) (off : Nat) (v : BitVec 32) (e : execReg64HighWrite req sp off v s = .next t) : Kept u t := by
  obtain rfl := byReq_next e
  repeat' first
    | with_reducible exact h | with_reducible assumption | intro _ | with_reducible apply State.regWrite_kept | with_reducible exact State.coreBus_keeps | with_reducible apply Kept.ite | split

theorem execCmbAccess_kept {u s t : State} (h : Kept u s) (p : Nat) (pasid : Option Nat) (off len : Nat) (wr : Option Bytes) (e : execCmbAccess p pasid off len wr s = .next t) : Kept u t := by
  obtain rfl := onPort_next e
  repeat' first
    | with_reducible exact h | with_reducible assumption | intro _ | with_reducible apply State.cmbAccess_kept | with_reducible exact State.coreBus_keeps | with_reducible apply Kept.ite | split

theorem execDoorbellWrite_kept {u s t : State} (h : Kept u s) (p n : Nat) (cq : Bool) (qid v : Nat) (ents : List SqEntry) (e : execDoorbellWrite p n cq qid v ents s = .next t) : Kept u t := by
  obtain rfl := onPortSlice_next e
  repeat' first
    | with_reducible exact h | with_reducible assumption | intro _ | with_reducible apply State.doorbellWrite_kept | with_reducible exact State.coreBus_keeps | with_reducible apply Kept.ite | split

theorem execLoad_kept {u s t : State} (h : Kept u s) (req : Requester) (e : execLoad req s = .next t) : Kept u t := by
  obtain rfl := byReq_next e
  repeat' first
    | with_reducible exact h | with_reducible assumption | intro _ | with_reducible apply State.bar0Write_kept | with_reducible apply State.crsLoad_kept | with_reducible exact State.coreBus_keeps | with_reducible apply Kept.ite | split

theorem execApply_kept {u s t : State} (h : Kept u s) (req : Requester) (e : execApply req s = .next t) : Kept u t := by
  obtain rfl := byReq_next e
  repeat' first
    | with_reducible exact h | with_reducible assumption | intro _ | with_reducible apply State.bar0Write_kept | with_reducible apply State.crsApply_kept | with_reducible exact State.coreBus_keeps | with_reducible apply Kept.ite | split

theorem execPersist_kept {u s t : State} (h : Kept u s) (req : Requester) (e : execPersist req s = .next t) : Kept u t := by
  obtain rfl := byReq_next e
  repeat' first
    | with_reducible exact h | with_reducible assumption | intro _ | with_reducible apply State.bar0Write_kept | with_reducible apply State.crsPersist_kept | with_reducible exact State.coreBus_keeps | with_reducible apply Kept.ite | split

theorem execDiscard_kept {u s t : State} (h : Kept u s) (req : Requester) (e : execDiscard req s = .next t) : Kept u t := by
  obtain rfl := byReq_next e
  repeat' first
    | with_reducible exact h | with_reducible assumption | intro _ | with_reducible apply State.bar0Write_kept | with_reducible apply State.crsDiscard_kept | with_reducible exact State.coreBus_keeps | with_reducible apply Kept.ite | split

theorem execCourseValidationEnd_kept {u s t : State} (h : Kept u s) (img : Fetch) (e : execCourseValidationEnd img s = .next t) : Kept u t := by
  cases e
  repeat' first
    | with_reducible exact h | with_reducible assumption | intro _ | with_reducible apply State.crsLoadEnd_kept | with_reducible exact State.coreBus_keeps | with_reducible apply Kept.ite | split

theorem execPersistEnd_kept {u s t : State} (h : Kept u s) (ok : Bool) (e : execPersistEnd ok s = .next t) : Kept u t := by
  cases e
  repeat' first
    | with_reducible exact h | with_reducible assumption | intro _ | with_reducible apply State.crsPersistEnd_kept | with_reducible exact State.coreBus_keeps | with_reducible apply Kept.ite | split

theorem execRequest_kept {u s t : State} (h : Kept u s) (req : Requester) (e : execRequest req s = .next t) : Kept u t := by
  obtain rfl := byReq_next e
  repeat' first
    | with_reducible exact h | with_reducible assumption | intro _ | with_reducible apply State.bar0Write_kept | with_reducible apply State.commitRequest_kept | with_reducible exact State.coreBus_keeps | with_reducible apply Kept.ite | split

theorem execCancelCommit_kept {u s t : State} (h : Kept u s) (req : Requester) (e : execCancelCommit req s = .next t) : Kept u t := by
  obtain rfl := byReq_next e
  repeat' first
    | with_reducible exact h | with_reducible assumption | intro _ | with_reducible apply State.bar0Write_kept | with_reducible apply State.commitCancel_kept | with_reducible exact State.coreBus_keeps | with_reducible apply Kept.ite | split

theorem execCreate_kept {u s t : State} (h : Kept u s) (req : Requester) (n : Nat) (e : execCreate req n s = .next t) : Kept u t := by
  obtain rfl := byReqSlice_next e
  repeat' first
    | with_reducible exact h | with_reducible assumption | intro _ | with_reducible apply State.slcWrite_kept | with_reducible exact State.coreBus_keeps | with_reducible apply Kept.ite | split

theorem execResetDrain_kept {u s t : State} (h : Kept u s) (req : Requester) (n : Nat) (e : execResetDrain req n s = .next t) : Kept u t := by
  obtain rfl := byReqSlice_next e
  repeat' first
    | with_reducible exact h | with_reducible assumption | intro _ | with_reducible apply State.slcWrite_kept | with_reducible exact State.coreBus_keeps | with_reducible apply Kept.ite | split

theorem execResetSquash_kept {u s t : State} (h : Kept u s) (req : Requester) (n : Nat) (e : execResetSquash req n s = .next t) : Kept u t := by
  obtain rfl := byReqSlice_next e
  repeat' first
    | with_reducible exact h | with_reducible assumption | intro _ | with_reducible apply State.slcWrite_kept | with_reducible exact State.coreBus_keeps | with_reducible apply Kept.ite | split

theorem execFreeze_kept {u s t : State} (h : Kept u s) (req : Requester) (n : Nat) (e : execFreeze req n s = .next t) : Kept u t := by
  obtain rfl := byReqSlice_next e
  repeat' first
    | with_reducible exact h | with_reducible assumption | intro _ | with_reducible apply State.slcWrite_kept | with_reducible exact State.coreBus_keeps | with_reducible apply Kept.ite | split

theorem execThaw_kept {u s t : State} (h : Kept u s) (req : Requester) (n : Nat) (force : Bool) (e : execThaw req n force s = .next t) : Kept u t := by
  obtain rfl := byReqSlice_next e
  repeat' first
    | with_reducible exact h | with_reducible assumption | intro _ | with_reducible apply State.slcWrite_kept | with_reducible exact State.coreBus_keeps | with_reducible apply Kept.ite | split

theorem execSave_kept {u s t : State} (h : Kept u s) (req : Requester) (n : Nat) (e : execSave req n s = .next t) : Kept u t := by
  obtain rfl := byReqSlice_next e
  repeat' first
    | with_reducible exact h | with_reducible assumption | intro _ | with_reducible apply State.slcWrite_kept | with_reducible exact State.coreBus_keeps | with_reducible apply Kept.ite | split

theorem execRestore_kept {u s t : State} (h : Kept u s) (req : Requester) (n : Nat) (e : execRestore req n s = .next t) : Kept u t := by
  obtain rfl := byReqSlice_next e
  repeat' first
    | with_reducible exact h | with_reducible assumption | intro _ | with_reducible apply State.slcWrite_kept | with_reducible exact State.coreBus_keeps | with_reducible apply Kept.ite | split

theorem execDestroy_kept {u s t : State} (h : Kept u s) (req : Requester) (n : Nat) (e : execDestroy req n s = .next t) : Kept u t := by
  obtain rfl := byReqSlice_next e
  repeat' first
    | with_reducible exact h | with_reducible assumption | intro _ | with_reducible apply State.slcWrite_kept | with_reducible exact State.coreBus_keeps | with_reducible apply Kept.ite | split

theorem execMigrate_kept {u s t : State} (h : Kept u s) (req : Requester) (n : Nat) (e : execMigrate req n s = .next t) : Kept u t := by
  obtain rfl := byReqSlice_next e
  repeat' first
    | with_reducible exact h | with_reducible assumption | intro _ | with_reducible apply State.slcWrite_kept | with_reducible exact State.coreBus_keeps | with_reducible apply Kept.ite | split

theorem execAccept_kept {u s t : State} (h : Kept u s) (req : Requester) (n : Nat) (e : execAccept req n s = .next t) : Kept u t := by
  obtain rfl := byReqSlice_next e
  repeat' first
    | with_reducible exact h | with_reducible assumption | intro _ | with_reducible apply State.slcWrite_kept | with_reducible exact State.coreBus_keeps | with_reducible apply Kept.ite | split

theorem execMovePort_kept {u s t : State} (h : Kept u s) (req : Requester) (n : Nat) (e : execMovePort req n s = .next t) : Kept u t := by
  obtain rfl := byReqSlice_next e
  repeat' first
    | with_reducible exact h | with_reducible assumption | intro _ | with_reducible apply State.slcWrite_kept | with_reducible exact State.coreBus_keeps | with_reducible apply Kept.ite | split

theorem execCancel_kept {u s t : State} (h : Kept u s) (req : Requester) (n : Nat) (e : execCancel req n s = .next t) : Kept u t := by
  obtain rfl := byReqSlice_next e
  repeat' first
    | with_reducible exact h | with_reducible assumption | intro _ | with_reducible apply State.slcWrite_kept | with_reducible exact State.coreBus_keeps | with_reducible apply Kept.ite | split

theorem execSlcFetchEnd_kept {u s t : State} (h : Kept u s) (n : Nat) (d : Fetch) (e : execSlcFetchEnd n d s = .next t) : Kept u t := by
  obtain rfl := onSlice_next e
  repeat' first
    | with_reducible exact h | with_reducible assumption | intro _ | with_reducible apply State.slcFetchEnd_kept | with_reducible exact State.coreBus_keeps | with_reducible apply Kept.ite | split

theorem execSliceFrozen_kept {u s t : State} (h : Kept u s) (n : Nat) (e : execSliceFrozen n s = .next t) : Kept u t := by
  obtain rfl := onSlice_next e
  repeat' first
    | with_reducible exact h | with_reducible assumption | intro _ | with_reducible apply State.sliceFrozen_kept | with_reducible exact State.coreBus_keeps | with_reducible apply Kept.ite | split

theorem execResetComplete_kept {u s t : State} (h : Kept u s) (n : Nat) (e : execResetComplete n s = .next t) : Kept u t := by
  obtain rfl := onSlice_next e
  repeat' first
    | with_reducible exact h | with_reducible assumption | intro _ | with_reducible apply State.resetComplete_kept | with_reducible exact State.coreBus_keeps | with_reducible apply Kept.ite | split

theorem execSaveEnd_kept {u s t : State} (h : Kept u s) (n : Nat) (ok : Bool) (e : execSaveEnd n ok s = .next t) : Kept u t := by
  obtain rfl := onSlice_next e
  repeat' first
    | with_reducible exact h | with_reducible assumption | intro _ | with_reducible apply State.saveEnd_kept | with_reducible exact State.coreBus_keeps | with_reducible apply Kept.ite | split

theorem execRestoreEnd_kept {u s t : State} (h : Kept u s) (n : Nat) (ok : Bool) (e : execRestoreEnd n ok s = .next t) : Kept u t := by
  obtain rfl := onSlice_next e
  repeat' first
    | with_reducible exact h | with_reducible assumption | intro _ | with_reducible apply State.restoreEnd_kept | with_reducible exact State.coreBus_keeps | with_reducible apply Kept.ite | split

theorem execDestroyEnd_kept {u s t : State} (h : Kept u s) (n : Nat) (e : execDestroyEnd n s = .next t) : Kept u t := by
  obtain rfl := onSlice_next e
  repeat' first
    | with_reducible exact h | with_reducible assumption | intro _ | with_reducible apply State.destroyEnd_kept | with_reducible exact State.coreBus_keeps | with_reducible apply Kept.ite | split

theorem execFlr_kept {u s t : State} (h : Kept u s) (p : Nat) (e : execFlr p s = .next t) : Kept u t := by
  obtain rfl := onPort_next e
  repeat' first
    | with_reducible exact h | with_reducible assumption | intro _ | with_reducible apply State.flr_kept | with_reducible exact State.coreBus_keeps | with_reducible apply Kept.ite | split

theorem execHotReset_kept {u s t : State} (h : Kept u s) (p : Nat) (e : execHotReset p s = .next t) : Kept u t := by
  obtain rfl := onPort_next e
  repeat' first
    | with_reducible exact h | with_reducible assumption | intro _ | with_reducible apply State.hotReset_kept | with_reducible exact State.coreBus_keeps | with_reducible apply Kept.ite | split

theorem execPerstAsserted_kept {u s t : State} (h : Kept u s) (p : Nat) (e : execPerstAsserted p s = .next t) : Kept u t := by
  obtain rfl := onPort_next e
  repeat' first
    | with_reducible exact h | with_reducible assumption | intro _ | with_reducible apply State.perstAsserted_kept | with_reducible exact State.coreBus_keeps | with_reducible apply Kept.ite | split

theorem execPerstReleased_kept {u s t : State} (h : Kept u s) (p : Nat) (e : execPerstReleased p s = .next t) : Kept u t := by
  obtain rfl := onPort_next e
  repeat' first
    | with_reducible exact h | with_reducible assumption | intro _ | with_reducible apply State.perstReleased_kept | with_reducible exact State.coreBus_keeps | with_reducible apply Kept.ite | split

theorem execLinkUp_kept {u s t : State} (h : Kept u s) (p speed width : Nat) (flit : Bool) (bar4 : Nat) (e : execLinkUp p speed width flit bar4 s = .next t) : Kept u t := by
  obtain rfl := onPort_next e
  repeat' first
    | with_reducible exact h | with_reducible assumption | intro _ | with_reducible apply State.linkUp_kept | with_reducible exact State.coreBus_keeps | with_reducible apply Kept.ite | split

theorem execBusMasterEnable_kept {u s t : State} (h : Kept u s) (p : Nat) (on : Bool) (e : execBusMasterEnable p on s = .next t) : Kept u t := by
  obtain rfl := onPort_next e
  repeat' first
    | with_reducible exact h | with_reducible assumption | intro _ | with_reducible apply State.busMaster_kept | with_reducible exact State.coreBus_keeps | with_reducible apply Kept.ite | split

theorem execCcEnable_kept {u s t : State} (h : Kept u s) (p n : Nat) (v : BitVec 32) (e : execCcEnable p n v s = .next t) : Kept u t := by
  obtain rfl := onPortSlice_next e
  repeat' first
    | with_reducible exact h | with_reducible assumption | intro _ | with_reducible apply State.ccWrite_kept | with_reducible exact State.coreBus_keeps | with_reducible apply Kept.ite | split

theorem execCcDisable_kept {u s t : State} (h : Kept u s) (p n : Nat) (v : BitVec 32) (e : execCcDisable p n v s = .next t) : Kept u t := by
  obtain rfl := onPortSlice_next e
  repeat' first
    | with_reducible exact h | with_reducible assumption | intro _ | with_reducible apply State.ccWrite_kept | with_reducible exact State.coreBus_keeps | with_reducible apply Kept.ite | split

theorem execCcShutdown_kept {u s t : State} (h : Kept u s) (p n : Nat) (v : BitVec 32) (e : execCcShutdown p n v s = .next t) : Kept u t := by
  obtain rfl := onPortSlice_next e
  repeat' first
    | with_reducible exact h | with_reducible assumption | intro _ | with_reducible apply State.ccWrite_kept | with_reducible exact State.coreBus_keeps | with_reducible apply Kept.ite | split

theorem execShutdownComplete_kept {u s t : State} (h : Kept u s) (n : Nat) (e : execShutdownComplete n s = .next t) : Kept u t := by
  obtain rfl := onSlice_next e
  repeat' first
    | with_reducible exact h | with_reducible assumption | intro _ | with_reducible apply State.endShutdown_kept | with_reducible exact State.coreBus_keeps | with_reducible apply Kept.ite | split

theorem execHostBusError_kept {u s t : State} (h : Kept u s) (n : Nat) (e : execHostBusError n s = .next t) : Kept u t := by
  obtain rfl := onSlice_next e
  repeat' first
    | with_reducible exact h | with_reducible assumption | intro _ | with_reducible apply State.hostBus_kept | with_reducible exact State.coreBus_keeps | with_reducible apply Kept.ite | split

theorem execDataTransferError_kept {u s t : State} (h : Kept u s) (c : CmdId) (e : execDataTransferError c s = .next t) : Kept u t := by
  obtain rfl := onSlice_next e
  repeat' first
    | with_reducible exact h | with_reducible assumption | intro _ | with_reducible apply State.dataError_kept | with_reducible exact State.coreBus_keeps | with_reducible apply Kept.ite | split

theorem execDeleteIoSubmissionQueue_kept {u s t : State} (h : Kept u s) (c : CmdId) (e : execDeleteIoSubmissionQueue c s = .next t) : Kept u t := by
  obtain rfl := onSlice_next e
  repeat' first
    | with_reducible exact h | with_reducible assumption | intro _ | with_reducible apply State.deleteSq_kept | with_reducible exact State.coreBus_keeps | with_reducible apply Kept.ite | split

theorem execCreateIoSubmissionQueue_kept {u s t : State} (h : Kept u s) (c : CmdId) (e : execCreateIoSubmissionQueue c s = .next t) : Kept u t := by
  obtain rfl := onSlice_next e
  repeat' first
    | with_reducible exact h | with_reducible assumption | intro _ | with_reducible apply State.createSq_kept | with_reducible exact State.coreBus_keeps | with_reducible apply Kept.ite | split

theorem execGetLogPage_kept {u s t : State} (h : Kept u s) (c : CmdId) (e : execGetLogPage c s = .next t) : Kept u t := by
  obtain rfl := onSlice_next e
  repeat' first
    | with_reducible exact h | with_reducible assumption | intro _ | with_reducible apply State.getLog_kept | with_reducible exact State.coreBus_keeps | with_reducible apply Kept.ite | split

theorem execDeleteIoCompletionQueue_kept {u s t : State} (h : Kept u s) (c : CmdId) (e : execDeleteIoCompletionQueue c s = .next t) : Kept u t := by
  obtain rfl := onSlice_next e
  repeat' first
    | with_reducible exact h | with_reducible assumption | intro _ | with_reducible apply State.deleteCq_kept | with_reducible exact State.coreBus_keeps | with_reducible apply Kept.ite | split

theorem execCreateIoCompletionQueue_kept {u s t : State} (h : Kept u s) (c : CmdId) (e : execCreateIoCompletionQueue c s = .next t) : Kept u t := by
  obtain rfl := onSlice_next e
  repeat' first
    | with_reducible exact h | with_reducible assumption | intro _ | with_reducible apply State.createCq_kept | with_reducible exact State.coreBus_keeps | with_reducible apply Kept.ite | split

theorem execIdentify_kept {u s t : State} (h : Kept u s) (c : CmdId) (e : execIdentify c s = .next t) : Kept u t := by
  obtain rfl := onSlice_next e
  repeat' first
    | with_reducible exact h | with_reducible assumption | intro _ | with_reducible apply State.identify_kept | with_reducible exact State.coreBus_keeps | with_reducible apply Kept.ite | split

theorem execAbort_kept {u s t : State} (h : Kept u s) (c : CmdId) (e : execAbort c s = .next t) : Kept u t := by
  obtain rfl := onSlice_next e
  repeat' first
    | with_reducible exact h | with_reducible assumption | intro _ | with_reducible apply State.takeAbort_kept | with_reducible exact State.coreBus_keeps | with_reducible apply Kept.ite | split

theorem execSetFeatures_kept {u s t : State} (h : Kept u s) (c : CmdId) (e : execSetFeatures c s = .next t) : Kept u t := by
  obtain rfl := onSlice_next e
  repeat' first
    | with_reducible exact h | with_reducible assumption | intro _ | with_reducible apply State.setFeatures_kept | with_reducible exact State.coreBus_keeps | with_reducible apply Kept.ite | split

theorem execGetFeatures_kept {u s t : State} (h : Kept u s) (c : CmdId) (e : execGetFeatures c s = .next t) : Kept u t := by
  obtain rfl := onSlice_next e
  repeat' first
    | with_reducible exact h | with_reducible assumption | intro _ | with_reducible apply State.getFeatures_kept | with_reducible exact State.coreBus_keeps | with_reducible apply Kept.ite | split

theorem execAsynchronousEventRequest_kept {u s t : State} (h : Kept u s) (c : CmdId) (e : execAsynchronousEventRequest c s = .next t) : Kept u t := by
  obtain rfl := onSlice_next e
  repeat' first
    | with_reducible exact h | with_reducible assumption | intro _ | with_reducible apply State.takeAer_kept | with_reducible exact State.coreBus_keeps | with_reducible apply Kept.ite | split

theorem execNamespaceManagement_kept {u s t : State} (h : Kept u s) (c : CmdId) (d : NsCreate) (e : execNamespaceManagement c d s = .next t) : Kept u t := by
  obtain rfl := onSlice_next e
  repeat' first
    | with_reducible exact h | with_reducible assumption | intro _ | with_reducible apply State.manageNs_kept | with_reducible exact State.coreBus_keeps | with_reducible apply Kept.ite | split

theorem execNamespaceAttachment_kept {u s t : State} (h : Kept u s) (c : CmdId) (ctrls : List Nat) (e : execNamespaceAttachment c ctrls s = .next t) : Kept u t := by
  obtain rfl := onSlice_next e
  repeat' first
    | with_reducible exact h | with_reducible assumption | intro _ | with_reducible apply State.attachNs_kept | with_reducible exact State.coreBus_keeps | with_reducible apply Kept.ite | split

theorem execFormatNvm_kept {u s t : State} (h : Kept u s) (c : CmdId) (e : execFormatNvm c s = .next t) : Kept u t := by
  obtain rfl := onSlice_next e
  repeat' first
    | with_reducible exact h | with_reducible assumption | intro _ | with_reducible apply State.format_kept | with_reducible exact State.coreBus_keeps | with_reducible apply Kept.ite | split

theorem execSanitize_kept {u s t : State} (h : Kept u s) (c : CmdId) (e : execSanitize c s = .next t) : Kept u t := by
  obtain rfl := onSlice_next e
  repeat' first
    | with_reducible exact h | with_reducible assumption | intro _ | with_reducible apply State.sanitize_kept | with_reducible exact State.coreBus_keeps | with_reducible apply Kept.ite | split

theorem execKeyDelivery_kept {u s t : State} (h : Kept u s) (c : CmdId) (d : Fetch) (e : execKeyDelivery c d s = .next t) : Kept u t := by
  obtain rfl := onSlice_next e
  repeat' first
    | with_reducible exact h | with_reducible assumption | intro _ | with_reducible apply State.keyDelivery_kept | with_reducible exact State.coreBus_keeps | with_reducible apply Kept.ite | split

theorem execAttestationReport_kept {u s t : State} (h : Kept u s) (c : CmdId) (e : execAttestationReport c s = .next t) : Kept u t := by
  obtain rfl := onSlice_next e
  repeat' first
    | with_reducible exact h | with_reducible assumption | intro _ | with_reducible apply State.attestationReport_kept | with_reducible exact State.coreBus_keeps | with_reducible apply Kept.ite | split

theorem execHeatProgramLoad_kept {u s t : State} (h : Kept u s) (c : CmdId) (d : Fetch) (e : execHeatProgramLoad c d s = .next t) : Kept u t := by
  obtain rfl := onSlice_next e
  repeat' first
    | with_reducible exact h | with_reducible assumption | intro _ | with_reducible apply State.heatProgramLoad_kept | with_reducible exact State.coreBus_keeps | with_reducible apply Kept.ite | split

theorem execPatternTableLoad_kept {u s t : State} (h : Kept u s) (c : CmdId) (d : Fetch) (e : execPatternTableLoad c d s = .next t) : Kept u t := by
  obtain rfl := onSlice_next e
  repeat' first
    | with_reducible exact h | with_reducible assumption | intro _ | with_reducible apply State.patternTableLoad_kept | with_reducible exact State.coreBus_keeps | with_reducible apply Kept.ite | split

theorem execFlush_kept {u s t : State} (h : Kept u s) (c : CmdId) (e : execFlush c s = .next t) : Kept u t := by
  obtain rfl := onSlice_next e
  repeat' first
    | with_reducible exact h | with_reducible assumption | intro _ | with_reducible apply State.ioFlush_kept | with_reducible exact State.coreBus_keeps | with_reducible apply Kept.ite | split

theorem execWrite_kept {u s t : State} (h : Kept u s) (c : CmdId) (d : List BlockData) (e : execWrite c d s = .next t) : Kept u t := by
  obtain rfl := onSlice_next e
  repeat' first
    | with_reducible exact h | with_reducible assumption | intro _ | with_reducible apply State.ioWrite_kept | with_reducible apply State.hopFor_kept | with_reducible exact State.coreBus_keeps | with_reducible apply Kept.ite | split

theorem execRead_kept {u s t : State} (h : Kept u s) (c : CmdId) (e : execRead c s = .next t) : Kept u t := by
  obtain rfl := onSlice_next e
  repeat' first
    | with_reducible exact h | with_reducible assumption | intro _ | with_reducible apply State.ioRead_kept | with_reducible apply State.hopFor_kept | with_reducible exact State.coreBus_keeps | with_reducible apply Kept.ite | split

theorem execCompare_kept {u s t : State} (h : Kept u s) (c : CmdId) (d : List BlockData) (e : execCompare c d s = .next t) : Kept u t := by
  obtain rfl := onSlice_next e
  repeat' first
    | with_reducible exact h | with_reducible assumption | intro _ | with_reducible apply State.ioCompare_kept | with_reducible apply State.hopFor_kept | with_reducible exact State.coreBus_keeps | with_reducible apply Kept.ite | split

theorem execWriteZeroes_kept {u s t : State} (h : Kept u s) (c : CmdId) (e : execWriteZeroes c s = .next t) : Kept u t := by
  obtain rfl := onSlice_next e
  repeat' first
    | with_reducible exact h | with_reducible assumption | intro _ | with_reducible apply State.ioWriteZeroes_kept | with_reducible exact State.coreBus_keeps | with_reducible apply Kept.ite | split

theorem execDatasetManagement_kept {u s t : State} (h : Kept u s) (c : CmdId) (rs : List LbaRange) (e : execDatasetManagement c rs s = .next t) : Kept u t := by
  obtain rfl := onSlice_next e
  repeat' first
    | with_reducible exact h | with_reducible assumption | intro _ | with_reducible apply State.ioDataset_kept | with_reducible exact State.coreBus_keeps | with_reducible apply Kept.ite | split

theorem execVerify_kept {u s t : State} (h : Kept u s) (c : CmdId) (e : execVerify c s = .next t) : Kept u t := by
  obtain rfl := onSlice_next e
  repeat' first
    | with_reducible exact h | with_reducible assumption | intro _ | with_reducible apply State.ioVerify_kept | with_reducible exact State.coreBus_keeps | with_reducible apply Kept.ite | split

theorem execReservationRegister_kept {u s t : State} (h : Kept u s) (c : CmdId) (d : ResvKeys) (e : execReservationRegister c d s = .next t) : Kept u t := by
  obtain rfl := onSlice_next e
  repeat' first
    | with_reducible exact h | with_reducible assumption | intro _ | with_reducible apply State.resvRegister_kept | with_reducible exact State.coreBus_keeps | with_reducible apply Kept.ite | split

theorem execReservationReport_kept {u s t : State} (h : Kept u s) (c : CmdId) (e : execReservationReport c s = .next t) : Kept u t := by
  obtain rfl := onSlice_next e
  repeat' first
    | with_reducible exact h | with_reducible assumption | intro _ | with_reducible apply State.resvReport_kept | with_reducible exact State.coreBus_keeps | with_reducible apply Kept.ite | split

theorem execReservationAcquire_kept {u s t : State} (h : Kept u s) (c : CmdId) (d : ResvKeys) (e : execReservationAcquire c d s = .next t) : Kept u t := by
  obtain rfl := onSlice_next e
  repeat' first
    | with_reducible exact h | with_reducible assumption | intro _ | with_reducible apply State.resvAcquire_kept | with_reducible exact State.coreBus_keeps | with_reducible apply Kept.ite | split

theorem execReservationRelease_kept {u s t : State} (h : Kept u s) (c : CmdId) (d : ResvKeys) (e : execReservationRelease c d s = .next t) : Kept u t := by
  obtain rfl := onSlice_next e
  repeat' first
    | with_reducible exact h | with_reducible assumption | intro _ | with_reducible apply State.resvRelease_kept | with_reducible exact State.coreBus_keeps | with_reducible apply Kept.ite | split

theorem execLedgerPost_kept {u s t : State} (h : Kept u s) (c : CmdId) (e : execLedgerPost c s = .next t) : Kept u t := by
  obtain rfl := onSlice_next e
  repeat' first
    | with_reducible exact h | with_reducible assumption | intro _ | with_reducible apply State.ioPost_kept | with_reducible exact State.coreBus_keeps | with_reducible apply Kept.ite | split

theorem execLedgerPostListArrival_kept {u s t : State} (h : Kept u s) (c : CmdId) (list : Fetch) (d : List BlockData) (e : execLedgerPostListArrival c list d s = .next t) : Kept u t := by
  obtain rfl := onSlice_next e
  repeat' first
    | with_reducible exact h | with_reducible assumption | intro _ | with_reducible apply State.ioPostList_kept | with_reducible apply State.hopFor_kept | with_reducible exact State.coreBus_keeps | with_reducible apply Kept.ite | split

theorem execHeatRun_kept {u s t : State} (h : Kept u s) (c : CmdId) (e : execHeatRun c s = .next t) : Kept u t := by
  obtain rfl := onSlice_next e
  repeat' first
    | with_reducible exact h | with_reducible assumption | intro _ | with_reducible apply State.heatRun_kept | with_reducible exact State.coreBus_keeps | with_reducible apply Kept.ite | split

theorem execHeatDescriptorArrival_kept {u s t : State} (h : Kept u s) (c : CmdId) (d : Fetch) (e : execHeatDescriptorArrival c d s = .next t) : Kept u t := by
  obtain rfl := onSlice_next e
  repeat' first
    | with_reducible exact h | with_reducible assumption | intro _ | with_reducible apply State.heatDescriptor_kept | with_reducible exact State.coreBus_keeps | with_reducible apply Kept.ite | split

theorem execHurdleRun_kept {u s t : State} (h : Kept u s) (c : CmdId) (e : execHurdleRun c s = .next t) : Kept u t := by
  obtain rfl := onSlice_next e
  repeat' first
    | with_reducible exact h | with_reducible assumption | intro _ | with_reducible apply State.hurdleRun_kept | with_reducible exact State.coreBus_keeps | with_reducible apply Kept.ite | split

theorem execHurdleDescriptorArrival_kept {u s t : State} (h : Kept u s) (c : CmdId) (d : Fetch) (e : execHurdleDescriptorArrival c d s = .next t) : Kept u t := by
  obtain rfl := onSlice_next e
  repeat' first
    | with_reducible exact h | with_reducible assumption | intro _ | with_reducible apply State.hurdleDescriptor_kept | with_reducible apply State.hopFor_kept | with_reducible exact State.coreBus_keeps | with_reducible apply Kept.ite | split

theorem execPatternSearch_kept {u s t : State} (h : Kept u s) (c : CmdId) (e : execPatternSearch c s = .next t) : Kept u t := by
  obtain rfl := onSlice_next e
  repeat' first
    | with_reducible exact h | with_reducible assumption | intro _ | with_reducible apply State.patternSearch_kept | with_reducible exact State.coreBus_keeps | with_reducible apply Kept.ite | split

theorem execPatternStep_kept {u s t : State} (h : Kept u s) (c : CmdId) (e : execPatternStep c s = .next t) : Kept u t := by
  obtain rfl := onSlice_next e
  repeat' first
    | with_reducible exact h | with_reducible assumption | intro _ | with_reducible apply State.patternStep_kept | with_reducible exact State.coreBus_keeps | with_reducible apply Kept.ite | split

theorem execPatternSearchBegin_kept {u s t : State} (h : Kept u s) (c : CmdId) (hdr input : Fetch) (e : execPatternSearchBegin c hdr input s = .next t) : Kept u t := by
  obtain rfl := onSlice_next e
  repeat' first
    | with_reducible exact h | with_reducible assumption | intro _ | with_reducible apply State.patternBegin_kept | with_reducible exact State.coreBus_keeps | with_reducible apply Kept.ite | split

theorem execCipherTransform_kept {u s t : State} (h : Kept u s) (c : CmdId) (e : execCipherTransform c s = .next t) : Kept u t := by
  obtain rfl := onSlice_next e
  repeat' first
    | with_reducible exact h | with_reducible assumption | intro _ | with_reducible apply State.cipherTransform_kept | with_reducible exact State.coreBus_keeps | with_reducible apply Kept.ite | split

theorem execCipherTrailerArrival_kept {u s t : State} (h : Kept u s) (c : CmdId) (src : Fetch) (e : execCipherTrailerArrival c src s = .next t) : Kept u t := by
  obtain rfl := onSlice_next e
  repeat' first
    | with_reducible exact h | with_reducible assumption | intro _ | with_reducible apply State.cipherArrival_kept | with_reducible apply State.hopFor_kept | with_reducible exact State.coreBus_keeps | with_reducible apply Kept.ite | split

theorem execDigest_kept {u s t : State} (h : Kept u s) (c : CmdId) (e : execDigest c s = .next t) : Kept u t := by
  obtain rfl := onSlice_next e
  repeat' first
    | with_reducible exact h | with_reducible assumption | intro _ | with_reducible apply State.digest_kept | with_reducible exact State.coreBus_keeps | with_reducible apply Kept.ite | split

theorem execDigestBatonArrival_kept {u s t : State} (h : Kept u s) (c : CmdId) (src : Fetch) (e : execDigestBatonArrival c src s = .next t) : Kept u t := by
  obtain rfl := onSlice_next e
  repeat' first
    | with_reducible exact h | with_reducible assumption | intro _ | with_reducible apply State.digestArrival_kept | with_reducible exact State.coreBus_keeps | with_reducible apply Kept.ite | split

theorem execHeatStaged_kept {u s t : State} (h : Kept u s) (c : CmdId) (e : execHeatStaged c s = .next t) : Kept u t := by
  obtain rfl := onSlice_next e
  repeat' first
    | with_reducible exact h | with_reducible assumption | intro _ | with_reducible apply State.heatStaged_kept | with_reducible exact State.coreBus_keeps | with_reducible apply Kept.ite | split

theorem execHeatLoadingStart_kept {u s t : State} (h : Kept u s) (c : CmdId) (e : execHeatLoadingStart c s = .next t) : Kept u t := by
  obtain rfl := onSlice_next e
  repeat' first
    | with_reducible exact h | with_reducible assumption | intro _ | with_reducible apply State.heatLoading_kept | with_reducible exact State.coreBus_keeps | with_reducible apply Kept.ite | split

theorem execHeatRunningStart_kept {u s t : State} (h : Kept u s) (c : CmdId) (e : execHeatRunningStart c s = .next t) : Kept u t := by
  obtain rfl := onSlice_next e
  repeat' first
    | with_reducible exact h | with_reducible assumption | intro _ | with_reducible apply State.heatRunning_kept | with_reducible apply State.hopFor_kept | with_reducible exact State.coreBus_keeps | with_reducible apply Kept.ite | split

theorem execHeatDelivered_kept {u s t : State} (h : Kept u s) (c : CmdId) (ok : Bool) (e : execHeatDelivered c ok s = .next t) : Kept u t := by
  obtain rfl := onSlice_next e
  repeat' first
    | with_reducible exact h | with_reducible assumption | intro _ | with_reducible apply State.heatDelivered_kept | with_reducible exact State.coreBus_keeps | with_reducible apply Kept.ite | split

theorem execHeatStop_kept {u s t : State} (h : Kept u s) (p n : Nat) (v : BitVec 32) (e : execHeatStop p n v s = .next t) : Kept u t := by
  obtain rfl := onPortSlice_next e
  repeat' first
    | with_reducible exact h | with_reducible assumption | intro _ | with_reducible apply State.cmdHeatStop_kept | with_reducible exact State.coreBus_keeps | with_reducible apply Kept.ite | split

theorem execHdlStop_kept {u s t : State} (h : Kept u s) (p n : Nat) (v : BitVec 32) (e : execHdlStop p n v s = .next t) : Kept u t := by
  obtain rfl := onPortSlice_next e
  repeat' first
    | with_reducible exact h | with_reducible assumption | intro _ | with_reducible apply State.cmdHdlStop_kept | with_reducible exact State.coreBus_keeps | with_reducible apply Kept.ite | split

theorem execPatternWritePhase_kept {u s t : State} (h : Kept u s) (c : CmdId) (e : execPatternWritePhase c s = .next t) : Kept u t := by
  obtain rfl := onSlice_next e
  repeat' first
    | with_reducible exact h | with_reducible assumption | intro _ | with_reducible apply State.patternWrite_kept | with_reducible exact State.coreBus_keeps | with_reducible apply Kept.ite | split

theorem execPatternApplyPhase_kept {u s t : State} (h : Kept u s) (c : CmdId) (e : execPatternApplyPhase c s = .next t) : Kept u t := by
  obtain rfl := onSlice_next e
  repeat' first
    | with_reducible exact h | with_reducible assumption | intro _ | with_reducible apply State.patternApply_kept | with_reducible exact State.coreBus_keeps | with_reducible apply Kept.ite | split

theorem execEntryVisible_kept {u s t : State} (h : Kept u s) (n id : Nat) (e : execEntryVisible n id s = .next t) : Kept u t := by
  obtain rfl := onSlice_next e
  repeat' first
    | with_reducible exact h | with_reducible assumption | intro _ | with_reducible apply State.entryById_kept | with_reducible exact State.coreBus_keeps | with_reducible apply Kept.ite | split

theorem execFlushStart_kept {u s t : State} (h : Kept u s) (n id : Nat) (e : execFlushStart n id s = .next t) : Kept u t := by
  obtain rfl := onSlice_next e
  repeat' first
    | with_reducible exact h | with_reducible assumption | intro _ | with_reducible apply State.flushStart_kept | with_reducible apply State.onHop_kept | with_reducible exact State.coreBus_keeps | with_reducible apply Kept.ite | split

theorem execJournalRecordDurable_kept {u s t : State} (h : Kept u s)  (e : execJournalRecordDurable s = .next t) : Kept u t := by
  cases e
  repeat' first
    | with_reducible exact h | with_reducible assumption | intro _ | with_reducible apply State.recordDurable_kept | with_reducible exact State.coreBus_keeps | with_reducible apply Kept.ite | split

theorem execHoldupArmed_kept {u s t : State} (h : Kept u s)  (e : execHoldupArmed s = .next t) : Kept u t := by
  cases e
  repeat' first
    | with_reducible exact h | with_reducible assumption | intro _ | with_reducible apply State.holdupRise_kept | with_reducible exact State.coreBus_keeps | with_reducible apply Kept.ite | split

theorem execHoldupDisarmed_kept {u s t : State} (h : Kept u s)  (e : execHoldupDisarmed s = .next t) : Kept u t := by
  cases e
  repeat' first
    | with_reducible exact h | with_reducible assumption | intro _ | with_reducible apply State.holdupFall_kept | with_reducible exact State.coreBus_keeps | with_reducible apply Kept.ite | split

theorem execPowerFailLatch_kept {u s t : State} (h : Kept u s)  (e : execPowerFailLatch s = .next t) : Kept u t := by
  cases e
  repeat' first
    | with_reducible exact h | with_reducible assumption | intro _ | with_reducible apply State.powerFailLatch_kept | with_reducible exact State.coreBus_keeps | with_reducible apply Kept.ite | split

theorem execPwrOkLow_kept {u s t : State} (h : Kept u s)  (e : execPwrOkLow s = .next t) : Kept u t := by
  cases e
  repeat' first
    | with_reducible exact h | with_reducible assumption | intro _ | with_reducible apply State.pwrOkLow_kept | with_reducible exact State.coreBus_keeps | with_reducible apply Kept.ite | split

theorem execEmergencyFlushEnd_kept {u s t : State} (h : Kept u s) (laps : Nat) (e : execEmergencyFlushEnd laps s = .next t) : Kept u t := by
  cases e
  repeat' first
    | with_reducible exact h | with_reducible assumption | intro _ | with_reducible apply State.emergencyFlushEnd_kept | with_reducible exact State.coreBus_keeps | with_reducible apply Kept.ite | split

theorem execThermalTrip_kept {u s t : State} (h : Kept u s)  (e : execThermalTrip s = .next t) : Kept u t := by
  cases e
  repeat' first
    | with_reducible exact h | with_reducible assumption | intro _ | with_reducible apply State.thermalTrip_kept | with_reducible exact State.coreBus_keeps | with_reducible apply Kept.ite | split

theorem execPfailNReturnsHigh_kept {u s t : State} (h : Kept u s) (env : StartEnv) (e : execPfailNReturnsHigh env s = .next t) : Kept u t := by
  cases e
  repeat' first
    | with_reducible exact h | with_reducible assumption | intro _ | with_reducible apply State.pfailHigh_kept | with_reducible exact State.coreBus_keeps | with_reducible apply Kept.ite | split

theorem execCheckpoint_kept {u s t : State} (h : Kept u s) (req : Requester) (e : execCheckpoint req s = .next t) : Kept u t := by
  obtain rfl := byReq_next e
  repeat' first
    | with_reducible exact h | with_reducible assumption | intro _ | with_reducible apply State.cmdCheckpoint_kept | with_reducible exact State.coreBus_keeps | with_reducible apply Kept.ite | split

theorem execDumpLoss_kept {u s t : State} (h : Kept u s) (req : Requester) (ok : Bool) (e : execDumpLoss req ok s = .next t) : Kept u t := by
  obtain rfl := byReq_next e
  repeat' first
    | with_reducible exact h | with_reducible assumption | intro _ | with_reducible apply State.cmdDumpLoss_kept | with_reducible exact State.coreBus_keeps | with_reducible apply Kept.ite | split

theorem execAddUnpowered_kept {u s t : State} (h : Kept u s) (req : Requester) (e : execAddUnpowered req s = .next t) : Kept u t := by
  obtain rfl := byReq_next e
  repeat' first
    | with_reducible exact h | with_reducible assumption | intro _ | with_reducible apply State.cmdAddUnpowered_kept | with_reducible exact State.coreBus_keeps | with_reducible apply Kept.ite | split

theorem execClearLoss_kept {u s t : State} (h : Kept u s) (req : Requester) (e : execClearLoss req s = .next t) : Kept u t := by
  obtain rfl := byReq_next e
  repeat' first
    | with_reducible exact h | with_reducible assumption | intro _ | with_reducible apply State.cmdClearLoss_kept | with_reducible exact State.coreBus_keeps | with_reducible apply Kept.ite | split

theorem execCheckpointStart_kept {u s t : State} (h : Kept u s) (cause : CkptCause) (e : execCheckpointStart cause s = .next t) : Kept u t := by
  cases e
  repeat' first
    | with_reducible exact h | with_reducible assumption | intro _ | with_reducible apply State.checkpointStart_kept | with_reducible exact State.coreBus_keeps | with_reducible apply Kept.ite | split

theorem execCheckpointComplete_kept {u s t : State} (h : Kept u s)  (e : execCheckpointComplete s = .next t) : Kept u t := by
  cases e
  repeat' first
    | with_reducible exact h | with_reducible assumption | intro _ | with_reducible apply State.checkpointComplete_kept | with_reducible exact State.coreBus_keeps | with_reducible apply Kept.ite | split

theorem execGcVictimStart_kept {u s t : State} (h : Kept u s) (die : Nat) (e : execGcVictimStart die s = .next t) : Kept u t := by
  obtain rfl := onDie_next e
  repeat' first
    | with_reducible exact h | with_reducible assumption | intro _ | with_reducible apply State.gcVictimStart_kept | with_reducible exact State.coreBus_keeps | with_reducible apply Kept.ite | split

theorem execGcErase_kept {u s t : State} (h : Kept u s) (blk : Nat) (e : execGcErase blk s = .next t) : Kept u t := by
  obtain rfl := onDie_next e
  repeat' first
    | with_reducible exact h | with_reducible assumption | intro _ | with_reducible apply State.gcErase_kept | with_reducible exact State.coreBus_keeps | with_reducible apply Kept.ite | split

theorem execRefreshStart_kept {u s t : State} (h : Kept u s) (blk : Nat) (e : execRefreshStart blk s = .next t) : Kept u t := by
  obtain rfl := onDie_next e
  repeat' first
    | with_reducible exact h | with_reducible assumption | intro _ | with_reducible apply State.refreshStart_kept | with_reducible exact State.coreBus_keeps | with_reducible apply Kept.ite | split

theorem execDemoteBackground_kept {u s t : State} (h : Kept u s)  (e : execDemoteBackground s = .next t) : Kept u t := by
  cases e
  repeat' first
    | with_reducible exact h | with_reducible assumption | intro _ | with_reducible apply State.demoteBackground_kept | with_reducible exact State.coreBus_keeps | with_reducible apply Kept.ite | split

theorem execProgramFail_kept {u s t : State} (h : Kept u s) (id : Nat) (e : execProgramFail id s = .next t) : Kept u t := by
  cases e
  repeat' first
    | with_reducible exact h | with_reducible assumption | intro _ | with_reducible apply State.programFail_kept | with_reducible exact State.coreBus_keeps | with_reducible apply Kept.ite | split

theorem execEraseFail_kept {u s t : State} (h : Kept u s) (id : Nat) (e : execEraseFail id s = .next t) : Kept u t := by
  cases e
  repeat' first
    | with_reducible exact h | with_reducible assumption | intro _ | with_reducible apply State.eraseFail_kept | with_reducible exact State.coreBus_keeps | with_reducible apply Kept.ite | split

theorem execDieLost_kept {u s t : State} (h : Kept u s) (die : Nat) (e : execDieLost die s = .next t) : Kept u t := by
  obtain rfl := onDie_next e
  repeat' first
    | with_reducible exact h | with_reducible assumption | intro _ | with_reducible apply State.dieLostEvent_kept | with_reducible exact State.coreBus_keeps | with_reducible apply Kept.ite | split

theorem execDieTempRead_kept {u s t : State} (h : Kept u s) (die : Nat) (temp : Int) (e : execDieTempRead die temp s = .next t) : Kept u t := by
  obtain rfl := onDie_next e
  repeat' first
    | with_reducible exact h | with_reducible assumption | intro _ | with_reducible apply State.dieTemp_kept | with_reducible exact State.coreBus_keeps | with_reducible apply Kept.ite | split

theorem execDump_kept {u s t : State} (h : Kept u s) (req : Requester) (ch : Nat) (ok : Bool) (e : execDump req ch ok s = .next t) : Kept u t := by
  obtain rfl := byReqChannel_next e
  repeat' first
    | with_reducible exact h | with_reducible assumption | intro _ | with_reducible apply State.cmdDump_kept | with_reducible exact State.coreBus_keeps | with_reducible apply Kept.ite | split

theorem execChannelTraining_kept {u s t : State} (h : Kept u s) (ch : Nat) (dies : List DieReport) (pass : List Bool) (e : execChannelTraining ch dies pass s = .next t) : Kept u t := by
  obtain rfl := onChannel_next e
  repeat' first
    | with_reducible exact h | with_reducible assumption | intro _ | with_reducible apply State.trainChannel_kept | with_reducible exact State.coreBus_keeps | with_reducible apply Kept.ite | split

theorem execSecurityAlarm_kept {u s t : State} (h : Kept u s) (src : Nat) (e : execSecurityAlarm src s = .next t) : Kept u t := by
  unfold execSecurityAlarm at e; split at e <;> cases e
  repeat' first
    | with_reducible exact h | with_reducible assumption | intro _ | with_reducible apply State.securityAlarm_kept | with_reducible exact State.coreBus_keeps | with_reducible apply Kept.ite | split

theorem execKeyChangeEffect_kept {u s t : State} (h : Kept u s) (id : Nat) (e : execKeyChangeEffect id s = .next t) : Kept u t := by
  cases e
  repeat' first
    | with_reducible exact h | with_reducible assumption | intro _ | with_reducible apply State.keyChangeEffect_kept | with_reducible exact State.coreBus_keeps | with_reducible apply Kept.ite | split

theorem execPkJobComplete_kept {u s t : State} (h : Kept u s)  (e : execPkJobComplete s = .next t) : Kept u t := by
  cases e
  repeat' first
    | with_reducible exact h | with_reducible assumption | intro _ | with_reducible apply State.pkJobEnd_kept | with_reducible exact State.coreBus_keeps | with_reducible apply Kept.ite | split

theorem execGo_kept {u s t : State} (h : Kept u s) (req : Requester) (d : Fetch) (e : execGo req d s = .next t) : Kept u t := by
  obtain rfl := byReq_next e
  repeat' first
    | with_reducible exact h | with_reducible assumption | intro _ | with_reducible apply State.enrolGo_kept | with_reducible exact State.coreBus_keeps | with_reducible apply Kept.ite | split

theorem execReadRaw_kept {u s t : State} (h : Kept u s) (req : Requester) (e : execReadRaw req s = .next t) : Kept u t := by
  obtain rfl := byReq_next e
  repeat' first
    | with_reducible exact h | with_reducible assumption | intro _ | with_reducible apply State.cmdReadRaw_kept | with_reducible exact State.coreBus_keeps | with_reducible apply Kept.ite | split

theorem execWriteRaw_kept {u s t : State} (h : Kept u s) (req : Requester) (e : execWriteRaw req s = .next t) : Kept u t := by
  obtain rfl := byReq_next e
  repeat' first
    | with_reducible exact h | with_reducible assumption | intro _ | with_reducible apply State.cmdWriteRaw_kept | with_reducible exact State.coreBus_keeps | with_reducible apply Kept.ite | split

theorem execReadPage_kept {u s t : State} (h : Kept u s) (req : Requester) (index : Nat) (e : execReadPage req index s = .next t) : Kept u t := by
  obtain rfl := byReq_next e
  repeat' first
    | with_reducible exact h | with_reducible assumption | intro _ | with_reducible apply State.cmdReadPage_kept | with_reducible exact State.coreBus_keeps | with_reducible apply Kept.ite | split

theorem execWritePage_kept {u s t : State} (h : Kept u s) (req : Requester) (index : Nat) (e : execWritePage req index s = .next t) : Kept u t := by
  obtain rfl := byReq_next e
  repeat' first
    | with_reducible exact h | with_reducible assumption | intro _ | with_reducible apply State.cmdWritePage_kept | with_reducible exact State.coreBus_keeps | with_reducible apply Kept.ite | split

theorem execDramTempChange_kept {u s t : State} (h : Kept u s) (sub : Nat) (hot : Bool) (e : execDramTempChange sub hot s = .next t) : Kept u t := by
  obtain rfl := onUnit_next e
  repeat' first
    | with_reducible exact h | with_reducible assumption | intro _ | with_reducible apply State.dramTemp_kept | with_reducible exact State.coreBus_keeps | with_reducible apply Kept.ite | split

theorem execDramTraining_kept {u s t : State} (h : Kept u s) (ch : Nat) (lanes : List LaneSweep) (e : execDramTraining ch lanes s = .next t) : Kept u t := by
  obtain rfl := onUnit_next e
  repeat' first
    | with_reducible exact h | with_reducible assumption | intro _ | with_reducible apply State.trainDram_kept | with_reducible exact State.coreBus_keeps | with_reducible apply Kept.ite | split

theorem execNop_kept {u s t : State} (h : Kept u s) (core : Nat) (i : BitVec 16) (e : execNop core i s = .next t) : Kept u t := by
  obtain rfl := onCore_next e
  repeat' first
    | with_reducible exact h | with_reducible assumption | intro _ | with_reducible apply State.runRow_kept | with_reducible exact State.coreBus_keeps | with_reducible apply Kept.ite | split

theorem execFence_kept {u s t : State} (h : Kept u s) (core : Nat) (i : BitVec 16) (e : execFence core i s = .next t) : Kept u t := by
  obtain rfl := onCore_next e
  repeat' first
    | with_reducible exact h | with_reducible assumption | intro _ | with_reducible apply State.runRow_kept | with_reducible exact State.coreBus_keeps | with_reducible apply Kept.ite | split

theorem execIfence_kept {u s t : State} (h : Kept u s) (core : Nat) (i : BitVec 16) (e : execIfence core i s = .next t) : Kept u t := by
  obtain rfl := onCore_next e
  repeat' first
    | with_reducible exact h | with_reducible assumption | intro _ | with_reducible apply State.runRow_kept | with_reducible exact State.coreBus_keeps | with_reducible apply Kept.ite | split

theorem execEret_kept {u s t : State} (h : Kept u s) (core : Nat) (i : BitVec 16) (e : execEret core i s = .next t) : Kept u t := by
  obtain rfl := onCore_next e
  repeat' first
    | with_reducible exact h | with_reducible assumption | intro _ | with_reducible apply State.runRow_kept | with_reducible exact State.coreBus_keeps | with_reducible apply Kept.ite | split

theorem execWait_kept {u s t : State} (h : Kept u s) (core : Nat) (i : BitVec 16) (e : execWait core i s = .next t) : Kept u t := by
  obtain rfl := onCore_next e
  repeat' first
    | with_reducible exact h | with_reducible assumption | intro _ | with_reducible apply State.runRow_kept | with_reducible exact State.coreBus_keeps | with_reducible apply Kept.ite | split

theorem execHalt_kept {u s t : State} (h : Kept u s) (core : Nat) (i : BitVec 16) (e : execHalt core i s = .next t) : Kept u t := by
  obtain rfl := onCore_next e
  repeat' first
    | with_reducible exact h | with_reducible assumption | intro _ | with_reducible apply State.runRow_kept | with_reducible exact State.coreBus_keeps | with_reducible apply Kept.ite | split

theorem execMov_kept {u s t : State} (h : Kept u s) (core : Nat) (i : BitVec 16) (e : execMov core i s = .next t) : Kept u t := by
  obtain rfl := onCore_next e
  repeat' first
    | with_reducible exact h | with_reducible assumption | intro _ | with_reducible apply State.runRow_kept | with_reducible exact State.coreBus_keeps | with_reducible apply Kept.ite | split

theorem execAluRr_kept {u s t : State} (h : Kept u s) (core : Nat) (i : BitVec 16) (e : execAluRr core i s = .next t) : Kept u t := by
  obtain rfl := onCore_next e
  repeat' first
    | with_reducible exact h | with_reducible assumption | intro _ | with_reducible apply State.runRow_kept | with_reducible exact State.coreBus_keeps | with_reducible apply Kept.ite | split

theorem execShiftRr_kept {u s t : State} (h : Kept u s) (core : Nat) (i : BitVec 16) (e : execShiftRr core i s = .next t) : Kept u t := by
  obtain rfl := onCore_next e
  repeat' first
    | with_reducible exact h | with_reducible assumption | intro _ | with_reducible apply State.runRow_kept | with_reducible exact State.coreBus_keeps | with_reducible apply Kept.ite | split

theorem execMulRr_kept {u s t : State} (h : Kept u s) (core : Nat) (i : BitVec 16) (e : execMulRr core i s = .next t) : Kept u t := by
  obtain rfl := onCore_next e
  repeat' first
    | with_reducible exact h | with_reducible assumption | intro _ | with_reducible apply State.runRow_kept | with_reducible exact State.coreBus_keeps | with_reducible apply Kept.ite | split

theorem execUnary_kept {u s t : State} (h : Kept u s) (core : Nat) (i : BitVec 16) (e : execUnary core i s = .next t) : Kept u t := by
  obtain rfl := onCore_next e
  repeat' first
    | with_reducible exact h | with_reducible assumption | intro _ | with_reducible apply State.runRow_kept | with_reducible exact State.coreBus_keeps | with_reducible apply Kept.ite | split

theorem execAddi5_kept {u s t : State} (h : Kept u s) (core : Nat) (i : BitVec 16) (e : execAddi5 core i s = .next t) : Kept u t := by
  obtain rfl := onCore_next e
  repeat' first
    | with_reducible exact h | with_reducible assumption | intro _ | with_reducible apply State.runRow_kept | with_reducible exact State.coreBus_keeps | with_reducible apply Kept.ite | split

theorem execMovi5_kept {u s t : State} (h : Kept u s) (core : Nat) (i : BitVec 16) (e : execMovi5 core i s = .next t) : Kept u t := by
  obtain rfl := onCore_next e
  repeat' first
    | with_reducible exact h | with_reducible assumption | intro _ | with_reducible apply State.runRow_kept | with_reducible exact State.coreBus_keeps | with_reducible apply Kept.ite | split

theorem execLdRr_kept {u s t : State} (h : Kept u s) (core : Nat) (i : BitVec 16) (e : execLdRr core i s = .next t) : Kept u t := by
  obtain rfl := onCore_next e
  repeat' first
    | with_reducible exact h | with_reducible assumption | intro _ | with_reducible apply State.runRow_kept | with_reducible exact State.coreBus_keeps | with_reducible apply Kept.ite | split

theorem execStRr_kept {u s t : State} (h : Kept u s) (core : Nat) (i : BitVec 16) (e : execStRr core i s = .next t) : Kept u t := by
  obtain rfl := onCore_next e
  repeat' first
    | with_reducible exact h | with_reducible assumption | intro _ | with_reducible apply State.runRow_kept | with_reducible exact State.coreBus_keeps | with_reducible apply Kept.ite | split

theorem execJr_kept {u s t : State} (h : Kept u s) (core : Nat) (i : BitVec 16) (e : execJr core i s = .next t) : Kept u t := by
  obtain rfl := onCore_next e
  repeat' first
    | with_reducible exact h | with_reducible assumption | intro _ | with_reducible apply State.runRow_kept | with_reducible exact State.coreBus_keeps | with_reducible apply Kept.ite | split

theorem execJalr_kept {u s t : State} (h : Kept u s) (core : Nat) (i : BitVec 16) (e : execJalr core i s = .next t) : Kept u t := by
  obtain rfl := onCore_next e
  repeat' first
    | with_reducible exact h | with_reducible assumption | intro _ | with_reducible apply State.runRow_kept | with_reducible exact State.coreBus_keeps | with_reducible apply Kept.ite | split

theorem execAddBSubB_kept {u s t : State} (h : Kept u s) (core : Nat) (i : BitVec 16) (e : execAddBSubB core i s = .next t) : Kept u t := by
  obtain rfl := onCore_next e
  repeat' first
    | with_reducible exact h | with_reducible assumption | intro _ | with_reducible apply State.runRow_kept | with_reducible exact State.coreBus_keeps | with_reducible apply Kept.ite | split

theorem execDaaB_kept {u s t : State} (h : Kept u s) (core : Nat) (i : BitVec 16) (e : execDaaB core i s = .next t) : Kept u t := by
  obtain rfl := onCore_next e
  repeat' first
    | with_reducible exact h | with_reducible assumption | intro _ | with_reducible apply State.runRow_kept | with_reducible exact State.coreBus_keeps | with_reducible apply Kept.ite | split

theorem execDasB_kept {u s t : State} (h : Kept u s) (core : Nat) (i : BitVec 16) (e : execDasB core i s = .next t) : Kept u t := by
  obtain rfl := onCore_next e
  repeat' first
    | with_reducible exact h | with_reducible assumption | intro _ | with_reducible apply State.runRow_kept | with_reducible exact State.coreBus_keeps | with_reducible apply Kept.ite | split

theorem execAluTr_kept {u s t : State} (h : Kept u s) (core : Nat) (i : BitVec 32) (e : execAluTr core i s = .next t) : Kept u t := by
  obtain rfl := onCore_next e
  repeat' first
    | with_reducible exact h | with_reducible assumption | intro _ | with_reducible apply State.runRow_kept | with_reducible exact State.coreBus_keeps | with_reducible apply Kept.ite | split

theorem execShiftTr_kept {u s t : State} (h : Kept u s) (core : Nat) (i : BitVec 32) (e : execShiftTr core i s = .next t) : Kept u t := by
  obtain rfl := onCore_next e
  repeat' first
    | with_reducible exact h | with_reducible assumption | intro _ | with_reducible apply State.runRow_kept | with_reducible exact State.coreBus_keeps | with_reducible apply Kept.ite | split

theorem execMulTr_kept {u s t : State} (h : Kept u s) (core : Nat) (i : BitVec 32) (e : execMulTr core i s = .next t) : Kept u t := by
  obtain rfl := onCore_next e
  repeat' first
    | with_reducible exact h | with_reducible assumption | intro _ | with_reducible apply State.runRow_kept | with_reducible exact State.coreBus_keeps | with_reducible apply Kept.ite | split

theorem execCmp_kept {u s t : State} (h : Kept u s) (core : Nat) (i : BitVec 32) (e : execCmp core i s = .next t) : Kept u t := by
  obtain rfl := onCore_next e
  repeat' first
    | with_reducible exact h | with_reducible assumption | intro _ | with_reducible apply State.runRow_kept | with_reducible exact State.coreBus_keeps | with_reducible apply Kept.ite | split

theorem execDivuDivsRemuRems_kept {u s t : State} (h : Kept u s) (core : Nat) (i : BitVec 32) (e : execDivuDivsRemuRems core i s = .next t) : Kept u t := by
  obtain rfl := onCore_next e
  repeat' first
    | with_reducible exact h | with_reducible assumption | intro _ | with_reducible apply State.runRow_kept | with_reducible exact State.coreBus_keeps | with_reducible apply Kept.ite | split

theorem execAddi_kept {u s t : State} (h : Kept u s) (core : Nat) (i : BitVec 32) (e : execAddi core i s = .next t) : Kept u t := by
  obtain rfl := onCore_next e
  repeat' first
    | with_reducible exact h | with_reducible assumption | intro _ | with_reducible apply State.runRow_kept | with_reducible exact State.coreBus_keeps | with_reducible apply Kept.ite | split

theorem execAndiOriXori_kept {u s t : State} (h : Kept u s) (core : Nat) (i : BitVec 32) (e : execAndiOriXori core i s = .next t) : Kept u t := by
  obtain rfl := onCore_next e
  repeat' first
    | with_reducible exact h | with_reducible assumption | intro _ | with_reducible apply State.runRow_kept | with_reducible exact State.coreBus_keeps | with_reducible apply Kept.ite | split

theorem execShliShriSari_kept {u s t : State} (h : Kept u s) (core : Nat) (i : BitVec 32) (e : execShliShriSari core i s = .next t) : Kept u t := by
  obtain rfl := onCore_next e
  repeat' first
    | with_reducible exact h | with_reducible assumption | intro _ | with_reducible apply State.runRow_kept | with_reducible exact State.coreBus_keeps | with_reducible apply Kept.ite | split

theorem execCmpi_kept {u s t : State} (h : Kept u s) (core : Nat) (i : BitVec 32) (e : execCmpi core i s = .next t) : Kept u t := by
  obtain rfl := onCore_next e
  repeat' first
    | with_reducible exact h | with_reducible assumption | intro _ | with_reducible apply State.runRow_kept | with_reducible exact State.coreBus_keeps | with_reducible apply Kept.ite | split

theorem execMovi_kept {u s t : State} (h : Kept u s) (core : Nat) (i : BitVec 32) (e : execMovi core i s = .next t) : Kept u t := by
  obtain rfl := onCore_next e
  repeat' first
    | with_reducible exact h | with_reducible assumption | intro _ | with_reducible apply State.runRow_kept | with_reducible exact State.coreBus_keeps | with_reducible apply Kept.ite | split

theorem execRdsr_kept {u s t : State} (h : Kept u s) (core : Nat) (i : BitVec 32) (e : execRdsr core i s = .next t) : Kept u t := by
  obtain rfl := onCore_next e
  repeat' first
    | with_reducible exact h | with_reducible assumption | intro _ | with_reducible apply State.runRow_kept | with_reducible exact State.coreBus_keeps | with_reducible apply Kept.ite | split

theorem execWrsr_kept {u s t : State} (h : Kept u s) (core : Nat) (i : BitVec 32) (e : execWrsr core i s = .next t) : Kept u t := by
  obtain rfl := onCore_next e
  repeat' first
    | with_reducible exact h | with_reducible assumption | intro _ | with_reducible apply State.runRow_kept | with_reducible exact State.coreBus_keeps | with_reducible apply Kept.ite | split

theorem execRdfeat_kept {u s t : State} (h : Kept u s) (core : Nat) (i : BitVec 32) (e : execRdfeat core i s = .next t) : Kept u t := by
  obtain rfl := onCore_next e
  repeat' first
    | with_reducible exact h | with_reducible assumption | intro _ | with_reducible apply State.runRow_kept | with_reducible exact State.coreBus_keeps | with_reducible apply Kept.ite | split

theorem execSwap_kept {u s t : State} (h : Kept u s) (core : Nat) (i : BitVec 32) (e : execSwap core i s = .next t) : Kept u t := by
  obtain rfl := onCore_next e
  repeat' first
    | with_reducible exact h | with_reducible assumption | intro _ | with_reducible apply State.runRow_kept | with_reducible exact State.coreBus_keeps | with_reducible apply Kept.ite | split

theorem execCas_kept {u s t : State} (h : Kept u s) (core : Nat) (i : BitVec 32) (e : execCas core i s = .next t) : Kept u t := by
  obtain rfl := onCore_next e
  repeat' first
    | with_reducible exact h | with_reducible assumption | intro _ | with_reducible apply State.runRow_kept | with_reducible exact State.coreBus_keeps | with_reducible apply Kept.ite | split

theorem execFadd_kept {u s t : State} (h : Kept u s) (core : Nat) (i : BitVec 32) (e : execFadd core i s = .next t) : Kept u t := by
  obtain rfl := onCore_next e
  repeat' first
    | with_reducible exact h | with_reducible assumption | intro _ | with_reducible apply State.runRow_kept | with_reducible exact State.coreBus_keeps | with_reducible apply Kept.ite | split

theorem execB_kept {u s t : State} (h : Kept u s) (core : Nat) (i : BitVec 32) (e : execB core i s = .next t) : Kept u t := by
  obtain rfl := onCore_next e
  repeat' first
    | with_reducible exact h | with_reducible assumption | intro _ | with_reducible apply State.runRow_kept | with_reducible exact State.coreBus_keeps | with_reducible apply Kept.ite | split

theorem execJal_kept {u s t : State} (h : Kept u s) (core : Nat) (i : BitVec 32) (e : execJal core i s = .next t) : Kept u t := by
  obtain rfl := onCore_next e
  repeat' first
    | with_reducible exact h | with_reducible assumption | intro _ | with_reducible apply State.runRow_kept | with_reducible exact State.coreBus_keeps | with_reducible apply Kept.ite | split

theorem execAddprSubprMulpr_kept {u s t : State} (h : Kept u s) (core : Nat) (i : BitVec 32) (e : execAddprSubprMulpr core i s = .next t) : Kept u t := by
  obtain rfl := onCore_next e
  repeat' first
    | with_reducible exact h | with_reducible assumption | intro _ | with_reducible apply State.runRow_kept | with_reducible exact State.coreBus_keeps | with_reducible apply Kept.ite | split

theorem execCmppr_kept {u s t : State} (h : Kept u s) (core : Nat) (i : BitVec 32) (e : execCmppr core i s = .next t) : Kept u t := by
  obtain rfl := onCore_next e
  repeat' first
    | with_reducible exact h | with_reducible assumption | intro _ | with_reducible apply State.runRow_kept | with_reducible exact State.coreBus_keeps | with_reducible apply Kept.ite | split

theorem execLoadInstruction_kept {u s t : State} (h : Kept u s) (core : Nat) (w : MemForm) (e : execLoadInstruction core w s = .next t) : Kept u t := by
  obtain rfl := onCore_next e
  repeat' first
    | with_reducible exact h | with_reducible assumption | intro _ | with_reducible apply State.runRow_kept | with_reducible exact State.coreBus_keeps | with_reducible apply Kept.ite | split

theorem execStoreInstruction_kept {u s t : State} (h : Kept u s) (core : Nat) (w : MemForm) (e : execStoreInstruction core w s = .next t) : Kept u t := by
  obtain rfl := onCore_next e
  repeat' first
    | with_reducible exact h | with_reducible assumption | intro _ | with_reducible apply State.runRow_kept | with_reducible exact State.coreBus_keeps | with_reducible apply Kept.ite | split

theorem execLea_kept {u s t : State} (h : Kept u s) (core : Nat) (w : MemForm) (e : execLea core w s = .next t) : Kept u t := by
  obtain rfl := onCore_next e
  repeat' first
    | with_reducible exact h | with_reducible assumption | intro _ | with_reducible apply State.runRow_kept | with_reducible exact State.coreBus_keeps | with_reducible apply Kept.ite | split

theorem execMovi32_kept {u s t : State} (h : Kept u s) (core : Nat) (i : BitVec 48) (e : execMovi32 core i s = .next t) : Kept u t := by
  obtain rfl := onCore_next e
  repeat' first
    | with_reducible exact h | with_reducible assumption | intro _ | with_reducible apply State.runRow_kept | with_reducible exact State.coreBus_keeps | with_reducible apply Kept.ite | split

theorem execMovhi32_kept {u s t : State} (h : Kept u s) (core : Nat) (i : BitVec 48) (e : execMovhi32 core i s = .next t) : Kept u t := by
  obtain rfl := onCore_next e
  repeat' first
    | with_reducible exact h | with_reducible assumption | intro _ | with_reducible apply State.runRow_kept | with_reducible exact State.coreBus_keeps | with_reducible apply Kept.ite | split

theorem execAddi32_kept {u s t : State} (h : Kept u s) (core : Nat) (i : BitVec 48) (e : execAddi32 core i s = .next t) : Kept u t := by
  obtain rfl := onCore_next e
  repeat' first
    | with_reducible exact h | with_reducible assumption | intro _ | with_reducible apply State.runRow_kept | with_reducible exact State.coreBus_keeps | with_reducible apply Kept.ite | split

theorem execCmpi32_kept {u s t : State} (h : Kept u s) (core : Nat) (i : BitVec 48) (e : execCmpi32 core i s = .next t) : Kept u t := by
  obtain rfl := onCore_next e
  repeat' first
    | with_reducible exact h | with_reducible assumption | intro _ | with_reducible apply State.runRow_kept | with_reducible exact State.coreBus_keeps | with_reducible apply Kept.ite | split

theorem execAddp_kept {u s t : State} (h : Kept u s) (core : Nat) (i : BitVec 48) (e : execAddp core i s = .next t) : Kept u t := by
  obtain rfl := onCore_next e
  repeat' first
    | with_reducible exact h | with_reducible assumption | intro _ | with_reducible apply State.runRow_kept | with_reducible exact State.coreBus_keeps | with_reducible apply Kept.ite | split

theorem execSubp_kept {u s t : State} (h : Kept u s) (core : Nat) (i : BitVec 48) (e : execSubp core i s = .next t) : Kept u t := by
  obtain rfl := onCore_next e
  repeat' first
    | with_reducible exact h | with_reducible assumption | intro _ | with_reducible apply State.runRow_kept | with_reducible exact State.coreBus_keeps | with_reducible apply Kept.ite | split

theorem execMulp_kept {u s t : State} (h : Kept u s) (core : Nat) (i : BitVec 48) (e : execMulp core i s = .next t) : Kept u t := by
  obtain rfl := onCore_next e
  repeat' first
    | with_reducible exact h | with_reducible assumption | intro _ | with_reducible apply State.runRow_kept | with_reducible exact State.coreBus_keeps | with_reducible apply Kept.ite | split

theorem execDivp_kept {u s t : State} (h : Kept u s) (core : Nat) (i : BitVec 48) (e : execDivp core i s = .next t) : Kept u t := by
  obtain rfl := onCore_next e
  repeat' first
    | with_reducible exact h | with_reducible assumption | intro _ | with_reducible apply State.runRow_kept | with_reducible exact State.coreBus_keeps | with_reducible apply Kept.ite | split

theorem execCmpp_kept {u s t : State} (h : Kept u s) (core : Nat) (i : BitVec 48) (e : execCmpp core i s = .next t) : Kept u t := by
  obtain rfl := onCore_next e
  repeat' first
    | with_reducible exact h | with_reducible assumption | intro _ | with_reducible apply State.runRow_kept | with_reducible exact State.coreBus_keeps | with_reducible apply Kept.ite | split

theorem execMovp_kept {u s t : State} (h : Kept u s) (core : Nat) (i : BitVec 48) (e : execMovp core i s = .next t) : Kept u t := by
  obtain rfl := onCore_next e
  repeat' first
    | with_reducible exact h | with_reducible assumption | intro _ | with_reducible apply State.runRow_kept | with_reducible exact State.coreBus_keeps | with_reducible apply Kept.ite | split

theorem execPack_kept {u s t : State} (h : Kept u s) (core : Nat) (i : BitVec 48) (e : execPack core i s = .next t) : Kept u t := by
  obtain rfl := onCore_next e
  repeat' first
    | with_reducible exact h | with_reducible assumption | intro _ | with_reducible apply State.runRow_kept | with_reducible exact State.coreBus_keeps | with_reducible apply Kept.ite | split

theorem execUnpk_kept {u s t : State} (h : Kept u s) (core : Nat) (i : BitVec 48) (e : execUnpk core i s = .next t) : Kept u t := by
  obtain rfl := onCore_next e
  repeat' first
    | with_reducible exact h | with_reducible assumption | intro _ | with_reducible apply State.runRow_kept | with_reducible exact State.coreBus_keeps | with_reducible apply Kept.ite | split

theorem execEdit_kept {u s t : State} (h : Kept u s) (core : Nat) (i : BitVec 48) (e : execEdit core i s = .next t) : Kept u t := by
  obtain rfl := onCore_next e
  repeat' first
    | with_reducible exact h | with_reducible assumption | intro _ | with_reducible apply State.runRow_kept | with_reducible exact State.coreBus_keeps | with_reducible apply Kept.ite | split

theorem execShfp_kept {u s t : State} (h : Kept u s) (core : Nat) (i : BitVec 48) (e : execShfp core i s = .next t) : Kept u t := by
  obtain rfl := onCore_next e
  repeat' first
    | with_reducible exact h | with_reducible assumption | intro _ | with_reducible apply State.runRow_kept | with_reducible exact State.coreBus_keeps | with_reducible apply Kept.ite | split

theorem execCvbp_kept {u s t : State} (h : Kept u s) (core : Nat) (i : BitVec 48) (e : execCvbp core i s = .next t) : Kept u t := by
  obtain rfl := onCore_next e
  repeat' first
    | with_reducible exact h | with_reducible assumption | intro _ | with_reducible apply State.runRow_kept | with_reducible exact State.coreBus_keeps | with_reducible apply Kept.ite | split

theorem execCvpb_kept {u s t : State} (h : Kept u s) (core : Nat) (i : BitVec 48) (e : execCvpb core i s = .next t) : Kept u t := by
  obtain rfl := onCore_next e
  repeat' first
    | with_reducible exact h | with_reducible assumption | intro _ | with_reducible apply State.runRow_kept | with_reducible exact State.coreBus_keeps | with_reducible apply Kept.ite | split

theorem execRepI_kept {u s t : State} (h : Kept u s) (core : Nat) (i : BitVec 32) (r : RepWord) (e : execRepI core i r s = .next t) : Kept u t := by
  obtain rfl := onCore_next e
  repeat' first
    | with_reducible exact h | with_reducible assumption | intro _ | with_reducible apply State.runRepI_kept | with_reducible exact State.coreBus_keeps | with_reducible apply Kept.ite | split

theorem execRepU_kept {u s t : State} (h : Kept u s) (core : Nat) (i : BitVec 32) (r : RepWord) (e : execRepU core i r s = .next t) : Kept u t := by
  obtain rfl := onCore_next e
  repeat' first
    | with_reducible exact h | with_reducible assumption | intro _ | with_reducible apply State.runRepU_kept | with_reducible exact State.coreBus_keeps | with_reducible apply Kept.ite | split

theorem execSvc_kept {u s t : State} (h : Kept u s) (core : Nat) (i : BitVec 32) (e : execSvc core i s = .next t) : Kept u t := by
  obtain rfl := onCore_next e
  repeat' first
    | with_reducible exact h | with_reducible assumption | intro _ | with_reducible apply State.runSvc_kept | with_reducible exact State.coreBus_keeps | with_reducible apply Kept.ite | split

theorem execSvcExit_kept {u s t : State} (h : Kept u s) (core : Nat) (e : execSvcExit core s = .next t) : Kept u t := by
  obtain rfl := onCore_next e
  repeat' first
    | with_reducible exact h | with_reducible assumption | intro _ | with_reducible apply State.svcExit_kept | with_reducible exact State.coreBus_keeps | with_reducible apply Kept.ite | split

theorem execSvcBarrier_kept {u s t : State} (h : Kept u s) (core : Nat) (e : execSvcBarrier core s = .next t) : Kept u t := by
  obtain rfl := onCore_next e
  repeat' first
    | with_reducible exact h | with_reducible assumption | intro _ | with_reducible apply State.svcWait_kept | with_reducible exact State.coreBus_keeps | with_reducible apply Kept.ite | split

theorem execSvcYield_kept {u s t : State} (h : Kept u s) (core : Nat) (e : execSvcYield core s = .next t) : Kept u t := by
  obtain rfl := onCore_next e
  repeat' first
    | with_reducible exact h | with_reducible assumption | intro _ | with_reducible apply State.svcWait_kept | with_reducible exact State.coreBus_keeps | with_reducible apply Kept.ite | split

theorem execBudgetExhausted_kept {u s t : State} (h : Kept u s) (core : Nat) (e : execBudgetExhausted core s = .next t) : Kept u t := by
  obtain rfl := onCore_next e
  repeat' first
    | with_reducible exact h | with_reducible assumption | intro _ | with_reducible apply State.budgetEntry_kept | with_reducible exact State.coreBus_keeps | with_reducible apply Kept.ite | split

theorem execStop_kept {u s t : State} (h : Kept u s) (core : Nat) (e : execStop core s = .next t) : Kept u t := by
  obtain rfl := onCore_next e
  repeat' first
    | with_reducible exact h | with_reducible assumption | intro _ | with_reducible apply State.request_kept | with_reducible exact State.coreBus_keeps | with_reducible apply Kept.ite | split

theorem execSuspend_kept {u s t : State} (h : Kept u s) (core : Nat) (e : execSuspend core s = .next t) : Kept u t := by
  obtain rfl := onCore_next e
  repeat' first
    | with_reducible exact h | with_reducible assumption | intro _ | with_reducible apply State.request_kept | with_reducible exact State.coreBus_keeps | with_reducible apply Kept.ite | split

theorem execPhyUp_kept {u s t : State} (h : Kept u s) (p : Nat) (chal : Bytes) (e : execPhyUp p chal s = .next t) : Kept u t := by
  obtain rfl := onRelayPort_next e
  repeat' first
    | with_reducible exact h | with_reducible assumption | intro _ | with_reducible apply State.phyUp_kept | with_reducible exact State.coreBus_keeps | with_reducible apply Kept.ite | split

theorem execPhyDown_kept {u s t : State} (h : Kept u s) (p : Nat) (e : execPhyDown p s = .next t) : Kept u t := by
  obtain rfl := onRelayPort_next e
  repeat' first
    | with_reducible exact h | with_reducible assumption | intro _ | with_reducible apply State.phyDown_kept | with_reducible exact State.coreBus_keeps | with_reducible apply Kept.ite | split

theorem execLinkSilent_kept {u s t : State} (h : Kept u s) (p : Nat) (e : execLinkSilent p s = .next t) : Kept u t := by
  obtain rfl := onRelayPort_next e
  repeat' first
    | with_reducible exact h | with_reducible assumption | intro _ | with_reducible apply State.linkSilent_kept | with_reducible exact State.coreBus_keeps | with_reducible apply Kept.ite | split

theorem execHelloRepeat_kept {u s t : State} (h : Kept u s) (p : Nat) (e : execHelloRepeat p s = .next t) : Kept u t := by
  obtain rfl := onRelayPort_next e
  repeat' first
    | with_reducible exact h | with_reducible assumption | intro _ | with_reducible apply State.helloRepeat_kept | with_reducible exact State.coreBus_keeps | with_reducible apply Kept.ite | split

theorem execSummarySend_kept {u s t : State} (h : Kept u s)  (e : execSummarySend s = .next t) : Kept u t := by
  cases e
  repeat' first
    | with_reducible exact h | with_reducible assumption | intro _ | with_reducible apply State.summaryDue_kept | with_reducible exact State.coreBus_keeps | with_reducible apply Kept.ite | split

theorem execPairConfirmSend_kept {u s t : State} (h : Kept u s) (n : Nat) (e : execPairConfirmSend n s = .next t) : Kept u t := by
  obtain rfl := onSlice_next e
  repeat' first
    | with_reducible exact h | with_reducible assumption | intro _ | with_reducible apply State.pairConfirmSend_kept | with_reducible exact State.coreBus_keeps | with_reducible apply Kept.ite | split

theorem execRetransmitTimeout_kept {u s t : State} (h : Kept u s) (msg : Nat) (e : execRetransmitTimeout msg s = .next t) : Kept u t := by
  cases e
  repeat' first
    | with_reducible exact h | with_reducible assumption | intro _ | with_reducible apply State.retransmit_kept | with_reducible exact State.coreBus_keeps | with_reducible apply Kept.ite | split

theorem execPeerDeclaredLost_kept {u s t : State} (h : Kept u s) (addr : Nat) (cause : BitVec 8) (e : execPeerDeclaredLost addr cause s = .next t) : Kept u t := by
  cases e
  repeat' first
    | with_reducible exact h | with_reducible assumption | intro _ | with_reducible apply State.peerDeclaredLost_kept | with_reducible exact State.coreBus_keeps | with_reducible apply Kept.ite | split

theorem execRelayFrameDiscard_kept {u s t : State} (h : Kept u s) (p : Nat) (why : FrameDrop) (e : execRelayFrameDiscard p why s = .next t) : Kept u t := by
  obtain rfl := onRelayPort_next e
  repeat' first
    | with_reducible exact h | with_reducible assumption | intro _ | with_reducible apply State.frameDiscard_kept | with_reducible exact State.coreBus_keeps | with_reducible apply Kept.ite | split

theorem execHello_kept {u s t : State} (h : Kept u s) (p : Nat) (h : HelloMsg) (e : execHello p h s = .next t) : Kept u t := by
  obtain rfl := onRelayPort_next e
  exact State.linkFrame_kept ‹_› _ _

theorem execLinkOffer_kept {u s t : State} (h : Kept u s) (p : Nat) (m : LinkMsg) (e : execLinkOffer p m s = .next t) : Kept u t := by
  obtain rfl := onRelayPort_next e
  exact State.linkFrame_kept ‹_› _ _

theorem execLinkAnswer_kept {u s t : State} (h : Kept u s) (p : Nat) (m : LinkMsg) (e : execLinkAnswer p m s = .next t) : Kept u t := by
  obtain rfl := onRelayPort_next e
  exact State.linkFrame_kept ‹_› _ _

theorem execFieldKey_kept {u s t : State} (h : Kept u s) (p head epoch : Nat) (key : Bytes) (e : execFieldKey p head epoch key s = .next t) : Kept u t := by
  obtain rfl := onRelayPort_next e
  exact State.linkFrame_kept ‹_› _ _

theorem execPace_kept {u s t : State} (h : Kept u s) (p : Nat) (m : PaceMsg) (e : execPace p m s = .next t) : Kept u t := by
  obtain rfl := onRelayPort_next e
  exact State.linkFrame_kept ‹_› _ _

theorem execSummary_kept {u s t : State} (h : Kept u s) (p : Nat) (m : SummaryMsg) (e : execSummary p m s = .next t) : Kept u t := by
  obtain rfl := onRelayPort_next e
  exact State.linkFrame_kept ‹_› _ _

theorem execRoster_kept {u s t : State} (h : Kept u s) (p : Nat) (img : Bytes) (e : execRoster p img s = .next t) : Kept u t := by
  obtain rfl := onRelayPort_next e
  exact State.linkFrame_kept ‹_› _ _

theorem execPostReq_kept {u s t : State} (h : Kept u s) (src _msg : Nat) (m : PostMsg) (e : execPostReq src _msg m s = .next t) : Kept u t := by
  cases e
  exact State.routedFrame_kept ‹_› _ _

theorem execPostAck_kept {u s t : State} (h : Kept u s) (src n pairSeq : Nat) (cause : BitVec 8) (e : execPostAck src n pairSeq cause s = .next t) : Kept u t := by
  obtain rfl := onSlice_next e
  exact State.routedFrame_kept ‹_› _ _

theorem execResync_kept {u s t : State} (h : Kept u s) (src _msg : Nat) (m : PostMsg) (e : execResync src _msg m s = .next t) : Kept u t := by
  cases e
  exact State.routedFrame_kept ‹_› _ _

theorem execPairConfirm_kept {u s t : State} (h : Kept u s) (src msg nextSeq primary partner : Nat) (e : execPairConfirm src msg nextSeq primary partner s = .next t) : Kept u t := by
  cases e
  exact State.routedFrame_kept ‹_› _ _

theorem execMigOffer_kept {u s t : State} (h : Kept u s) (src _msg : Nat) (m : MigIds) (_batonLen _blocks : Nat) (e : execMigOffer src _msg m _batonLen _blocks s = .next t) : Kept u t := by
  cases e
  exact State.routedFrame_kept ‹_› _ _

theorem execMigReply_kept {u s t : State} (h : Kept u s) (src n : Nat) (cause : BitVec 8) (serial : Nat) (e : execMigReply src n cause serial s = .next t) : Kept u t := by
  obtain rfl := onSlice_next e
  exact State.routedFrame_kept ‹_› _ _

theorem execMigBaton_kept {u s t : State} (h : Kept u s) (src msg : Nat) (m : MigIds) (b : MigImage) (e : execMigBaton src msg m b s = .next t) : Kept u t := by
  cases e
  exact State.routedFrame_kept ‹_› _ _

theorem execMigData_kept {u s t : State} (h : Kept u s) (src msg : Nat) (m : MigIds) (r : MigRun) (e : execMigData src msg m r s = .next t) : Kept u t := by
  cases e
  exact State.routedFrame_kept ‹_› _ _

theorem execMigCommit_kept {u s t : State} (h : Kept u s) (src _msg : Nat) (m : MigIds) (count : Nat) (digest : Bytes) (e : execMigCommit src _msg m count digest s = .next t) : Kept u t := by
  cases e
  exact State.routedFrame_kept ‹_› _ _

theorem execMigCommitted_kept {u s t : State} (h : Kept u s) (src : Nat) (m : MigIds) (e : execMigCommitted src m s = .next t) : Kept u t := by
  cases e
  exact State.routedFrame_kept ‹_› _ _

theorem execMigErased_kept {u s t : State} (h : Kept u s) (src _msg : Nat) (m : MigIds) (e : execMigErased src _msg m s = .next t) : Kept u t := by
  cases e
  exact State.routedFrame_kept ‹_› _ _

theorem execMigErasedAck_kept {u s t : State} (h : Kept u s) (src : Nat) (m : MigIds) (e : execMigErasedAck src m s = .next t) : Kept u t := by
  cases e
  exact State.routedFrame_kept ‹_› _ _

theorem execMigAbort_kept {u s t : State} (h : Kept u s) (src msg : Nat) (m : MigIds) (_cause : BitVec 8) (e : execMigAbort src msg m _cause s = .next t) : Kept u t := by
  cases e
  exact State.routedFrame_kept ‹_› _ _

theorem execAck_kept {u s t : State} (h : Kept u s) (src msg : Nat) (result : BitVec 8) (e : execAck src msg result s = .next t) : Kept u t := by
  cases e
  exact State.routedFrame_kept ‹_› _ _

theorem execLoadRoster_kept {u s t : State} (h : Kept u s) (req : Requester) (d : Fetch) (e : execLoadRoster req d s = .next t) : Kept u t := by
  obtain rfl := byReq_next e
  repeat' first
    | with_reducible exact h | with_reducible assumption | intro _ | with_reducible apply State.cmdLoadRoster_kept | with_reducible exact State.coreBus_keeps | with_reducible apply Kept.ite | split

theorem execRekey_kept {u s t : State} (h : Kept u s) (req : Requester) (e : execRekey req s = .next t) : Kept u t := by
  obtain rfl := byReq_next e
  repeat' first
    | with_reducible exact h | with_reducible assumption | intro _ | with_reducible apply State.cmdRekey_kept | with_reducible exact State.coreBus_keeps | with_reducible apply Kept.ite | split

theorem execDumpField_kept {u s t : State} (h : Kept u s) (req : Requester) (ok : Bool) (e : execDumpField req ok s = .next t) : Kept u t := by
  obtain rfl := byReq_next e
  repeat' first
    | with_reducible exact h | with_reducible assumption | intro _ | with_reducible apply State.cmdDumpField_kept | with_reducible exact State.coreBus_keeps | with_reducible apply Kept.ite | split

theorem execSetTime_kept {u s t : State} (h : Kept u s) (req : Requester) (e : execSetTime req s = .next t) : Kept u t := by
  obtain rfl := byReq_next e
  repeat' first
    | with_reducible exact h | with_reducible assumption | intro _ | with_reducible apply State.cmdSetTime_kept | with_reducible exact State.coreBus_keeps | with_reducible apply Kept.ite | split

theorem execPpsEdge_kept {u s t : State} (h : Kept u s) (ft : Int) (refCycles : Nat) (e : execPpsEdge ft refCycles s = .next t) : Kept u t := by
  cases e
  repeat' first
    | with_reducible exact h | with_reducible assumption | intro _ | with_reducible apply State.ppsIn_kept | with_reducible exact State.coreBus_keeps | with_reducible apply Kept.ite | split

theorem execWake_kept {u s t : State} (h : Kept u s) (req : Requester) (e : execWake req s = .next t) : Kept u t := by
  obtain rfl := byReq_next e
  repeat' first
    | with_reducible exact h | with_reducible assumption | intro _ | with_reducible apply State.cmdWake_kept | with_reducible exact State.coreBus_keeps | with_reducible apply Kept.ite | split

theorem execPwrTimerExpiry_kept {u s t : State} (h : Kept u s)  (e : execPwrTimerExpiry s = .next t) : Kept u t := by
  cases e
  repeat' first
    | with_reducible exact h | with_reducible assumption | intro _ | with_reducible apply State.timerExpiry_kept | with_reducible exact State.coreBus_keeps | with_reducible apply Kept.ite | split

theorem execRefreshWake_kept {u s t : State} (h : Kept u s)  (e : execRefreshWake s = .next t) : Kept u t := by
  cases e
  repeat' first
    | with_reducible exact h | with_reducible assumption | intro _ | with_reducible apply State.refreshWakeDue_kept | with_reducible exact State.coreBus_keeps | with_reducible apply Kept.ite | split

theorem execPowerEntryBegin_kept {u s t : State} (h : Kept u s)  (e : execPowerEntryBegin s = .next t) : Kept u t := by
  cases e
  repeat' first
    | with_reducible exact h | with_reducible assumption | intro _ | with_reducible apply State.powerEntryBegin_kept | with_reducible exact State.coreBus_keeps | with_reducible apply Kept.ite | split

theorem execPowerStateReached_kept {u s t : State} (h : Kept u s)  (e : execPowerStateReached s = .next t) : Kept u t := by
  cases e
  repeat' first
    | with_reducible exact h | with_reducible assumption | intro _ | with_reducible apply State.powerStateReached_kept | with_reducible apply State.latchBasic_kept | with_reducible exact State.coreBus_keeps | with_reducible apply Kept.ite | split

theorem execPowerExitComplete_kept {u s t : State} (h : Kept u s) (env : ExitEnv) (e : execPowerExitComplete env s = .next t) : Kept u t := by
  cases e
  repeat' first
    | with_reducible exact h | with_reducible assumption | intro _ | with_reducible apply State.powerExitComplete_kept | with_reducible exact State.coreBus_keeps | with_reducible apply Kept.ite | split

theorem execClusterPllLock_kept {u s t : State} (h : Kept u s) (cluster : Nat) (e : execClusterPllLock cluster s = .next t) : Kept u t := by
  obtain rfl := onUnit_next e
  repeat' first
    | with_reducible exact h | with_reducible assumption | intro _ | with_reducible apply State.pllLock_kept | with_reducible exact State.coreBus_keeps | with_reducible apply Kept.ite | split

theorem execPcieL1Exit_kept {u s t : State} (h : Kept u s) (p : Nat) (e : execPcieL1Exit p s = .next t) : Kept u t := by
  obtain rfl := onPort_next e
  repeat' first
    | with_reducible exact h | with_reducible assumption | intro _ | with_reducible apply State.l1Exit_kept | with_reducible exact State.coreBus_keeps | with_reducible apply Kept.ite | split

theorem execEvrCheckRead_kept {u s t : State} (h : Kept u s) (set : EvrSet) (e : execEvrCheckRead set s = .next t) : Kept u t := by
  obtain rfl := onSet_next e
  repeat' first
    | with_reducible exact h | with_reducible assumption | intro _ | with_reducible apply State.setCheck_kept | with_reducible exact State.coreBus_keeps | with_reducible apply Kept.ite | split

theorem execFreezeRing_kept {u s t : State} (h : Kept u s) (set : EvrSet) (e : execFreezeRing set s = .next t) : Kept u t := by
  obtain rfl := onSet_next e
  repeat' first
    | with_reducible exact h | with_reducible assumption | intro _ | with_reducible apply State.setFreeze_kept | with_reducible exact State.coreBus_keeps | with_reducible apply Kept.ite | split

theorem execRelease_kept {u s t : State} (h : Kept u s) (set : EvrSet) (e : execRelease set s = .next t) : Kept u t := by
  obtain rfl := onSet_next e
  repeat' first
    | with_reducible exact h | with_reducible assumption | intro _ | with_reducible apply State.setFreeze_kept | with_reducible exact State.coreBus_keeps | with_reducible apply Kept.ite | split

theorem execFreezeExpiry_kept {u s t : State} (h : Kept u s) (inst : Option Nat) (e : execFreezeExpiry inst s = .next t) : Kept u t := by
  obtain rfl := onRecorder_next e
  repeat' first
    | with_reducible exact h | with_reducible assumption | intro _ | with_reducible apply State.freezeExpiry_kept | with_reducible exact State.coreBus_keeps | with_reducible apply Kept.ite | split

theorem execEvrClear_kept {u s t : State} (h : Kept u s) (req : Requester) (v : BitVec 32) (e : execEvrClear req v s = .next t) : Kept u t := by
  obtain rfl := byReq_next e
  repeat' first
    | with_reducible exact h | with_reducible assumption | intro _ | with_reducible apply State.regWrite_kept | with_reducible exact State.coreBus_keeps | with_reducible apply Kept.ite | split

theorem execStarterBegin_kept {u s t : State} (h : Kept u s) (env : StartEnv) (e : execStarterBegin env s = .next t) : Kept u t := by
  cases e
  repeat' first
    | with_reducible exact h | with_reducible assumption | intro _ | with_reducible apply State.starterBegin_kept | with_reducible exact State.coreBus_keeps | with_reducible apply Kept.ite | split

theorem execFwLoad_kept {u s t : State} (h : Kept u s) (req : Requester) (d : Fetch) (e : execFwLoad req d s = .next t) : Kept u t := by
  obtain rfl := byReq_next e
  repeat' first
    | with_reducible exact h | with_reducible assumption | intro _ | with_reducible apply State.cmdFwLoad_kept | with_reducible exact State.coreBus_keeps | with_reducible apply Kept.ite | split

theorem execFwActivate_kept {u s t : State} (h : Kept u s) (req : Requester) (e : execFwActivate req s = .next t) : Kept u t := by
  obtain rfl := byReq_next e
  repeat' first
    | with_reducible exact h | with_reducible assumption | intro _ | with_reducible apply State.cmdFwActivate_kept | with_reducible exact State.coreBus_keeps | with_reducible apply Kept.ite | split

theorem execFwConfirm_kept {u s t : State} (h : Kept u s) (req : Requester) (e : execFwConfirm req s = .next t) : Kept u t := by
  obtain rfl := byReq_next e
  repeat' first
    | with_reducible exact h | with_reducible assumption | intro _ | with_reducible apply State.cmdFwConfirm_kept | with_reducible exact State.coreBus_keeps | with_reducible apply Kept.ite | split

theorem execRestart_kept {u s t : State} (h : Kept u s) (req : Requester) (e : execRestart req s = .next t) : Kept u t := by
  obtain rfl := byReq_next e
  repeat' first
    | with_reducible exact h | with_reducible assumption | intro _ | with_reducible apply State.cmdRestart_kept | with_reducible exact State.coreBus_keeps | with_reducible apply Kept.ite | split

theorem execDeviceFault_kept {u s t : State} (h : Kept u s) (src : Nat) (e : execDeviceFault src s = .next t) : Kept u t := by
  unfold execDeviceFault at e; split at e <;> cases e
  repeat' first
    | with_reducible exact h | with_reducible assumption | intro _ | with_reducible apply State.faultOf_kept | with_reducible exact State.coreBus_keeps | with_reducible apply Kept.ite | split

theorem execWatchdogExpiry_kept {u s t : State} (h : Kept u s)  (e : execWatchdogExpiry s = .next t) : Kept u t := by
  cases e
  repeat' first
    | with_reducible exact h | with_reducible assumption | intro _ | with_reducible apply State.watchdogExpiry_kept | with_reducible exact State.coreBus_keeps | with_reducible apply Kept.ite | split

theorem execFaultFlushEnd_kept {u s t : State} (h : Kept u s)  (e : execFaultFlushEnd s = .next t) : Kept u t := by
  cases e
  repeat' first
    | with_reducible exact h | with_reducible assumption | intro _ | with_reducible apply State.faultFlushEnd_kept | with_reducible exact State.coreBus_keeps | with_reducible apply Kept.ite | split

theorem execSmbusBasicManagement_kept {u s t : State} (h : Kept u s) (code : Nat) (e : execSmbusBasicManagement code s = .next t) : Kept u t := by
  cases e
  repeat' first
    | with_reducible exact h | with_reducible assumption | intro _ | with_reducible apply State.smbusBasic_kept | with_reducible exact State.coreBus_keeps | with_reducible apply Kept.ite | split

theorem execSmbusSelectWrite_kept {u s t : State} (h : Kept u s) (v : Nat) (pecOk : Bool) (e : execSmbusSelectWrite v pecOk s = .next t) : Kept u t := by
  cases e
  repeat' first
    | with_reducible exact h | with_reducible assumption | intro _ | with_reducible apply State.smbusSelect_kept | with_reducible exact State.coreBus_keeps | with_reducible apply Kept.ite | split

theorem execSmbusBlockRead_kept {u s t : State} (h : Kept u s)  (e : execSmbusBlockRead s = .next t) : Kept u t := by
  cases e
  repeat' first
    | with_reducible exact h | with_reducible assumption | intro _ | with_reducible apply State.smbusRead_kept | with_reducible exact State.coreBus_keeps | with_reducible apply Kept.ite | split

theorem execSmbusBlockWrite_kept {u s t : State} (h : Kept u s) (count : Nat) (v : BitVec 32) (pecOk : Bool) (e : execSmbusBlockWrite count v pecOk s = .next t) : Kept u t := by
  cases e
  repeat' first
    | with_reducible exact h | with_reducible assumption | intro _ | with_reducible apply State.smbusWrite_kept | with_reducible exact State.coreBus_keeps | with_reducible apply Kept.ite | split

theorem execExtest_kept {u s t : State} (h : Kept u s)  (e : execExtest s = .next t) : Kept u t := by
  cases e
  repeat' first
    | with_reducible exact h | with_reducible assumption | intro _ | with_reducible apply State.tapDrive_kept | with_reducible exact State.coreBus_keeps | with_reducible apply Kept.ite | split

theorem execIdcode_kept {u s t : State} (h : Kept u s)  (e : execIdcode s = .next t) : Kept u t := by
  cases e
  repeat' first
    | with_reducible exact h | with_reducible assumption | intro _ | with_reducible apply State.tapPublic_kept | with_reducible exact State.coreBus_keeps | with_reducible apply Kept.ite | split

theorem execSamplePreload_kept {u s t : State} (h : Kept u s)  (e : execSamplePreload s = .next t) : Kept u t := by
  cases e
  repeat' first
    | with_reducible exact h | with_reducible assumption | intro _ | with_reducible apply State.tapPublic_kept | with_reducible exact State.coreBus_keeps | with_reducible apply Kept.ite | split

theorem execHighz_kept {u s t : State} (h : Kept u s)  (e : execHighz s = .next t) : Kept u t := by
  cases e
  repeat' first
    | with_reducible exact h | with_reducible assumption | intro _ | with_reducible apply State.tapPublic_kept | with_reducible exact State.coreBus_keeps | with_reducible apply Kept.ite | split

theorem execClamp_kept {u s t : State} (h : Kept u s)  (e : execClamp s = .next t) : Kept u t := by
  cases e
  repeat' first
    | with_reducible exact h | with_reducible assumption | intro _ | with_reducible apply State.tapDrive_kept | with_reducible exact State.coreBus_keeps | with_reducible apply Kept.ite | split

theorem execBypass_kept {u s t : State} (h : Kept u s)  (e : execBypass s = .next t) : Kept u t := by
  cases e
  repeat' first
    | with_reducible exact h | with_reducible assumption | intro _ | with_reducible apply State.tapPublic_kept | with_reducible exact State.coreBus_keeps | with_reducible apply Kept.ite | split

theorem execDebugInstruction_kept {u s t : State} (h : Kept u s) (code : Nat) (e : execDebugInstruction code s = .next t) : Kept u t := by
  cases e
  repeat' first
    | with_reducible exact h | with_reducible assumption | intro _ | with_reducible apply State.tapDebug_kept | with_reducible exact State.coreBus_keeps | with_reducible apply Kept.ite | split

theorem execTapReset_kept {u s t : State} (h : Kept u s)  (e : execTapReset s = .next t) : Kept u t := by
  cases e
  repeat' first
    | with_reducible exact h | with_reducible assumption | intro _ | with_reducible apply State.tapReset_kept | with_reducible exact State.coreBus_keeps | with_reducible apply Kept.ite | split

end Sys2Proof.Machine
end

