-- ==== Sys2Proof/Laws/PerInstr.lean ====
section
/-! SUPPORT. What holds of every command as syntax: the table gives no row any bits, so no word spells a command. -/

namespace Sys2Proof.Laws.NoWord

/-- No word of any width spells the command. -/
def Statement (i : Instr) : Prop := ∀ n w : Nat, decodeTableWord n w ≠ some i

theorem none_spells (i : Instr) : Statement i := fun _ _ h => nomatch h

theorem tick : Statement (.tick) := none_spells _
theorem pollComplete : ∀ a0 a1, Statement (.pollComplete a0 a1) := fun _ _ => none_spells _
theorem lapBoundary : Statement (.lapBoundary) := none_spells _
theorem heatLapLimit : ∀ a0, Statement (.heatLapLimit a0) := fun _ => none_spells _
theorem regWrite : ∀ a0 a1 a2 a3 a4, Statement (.regWrite a0 a1 a2 a3 a4) := fun _ _ _ _ _ => none_spells _
theorem reg64LowRead : ∀ a0 a1 a2, Statement (.reg64LowRead a0 a1 a2) := fun _ _ _ => none_spells _
theorem reg64HighRead : ∀ a0 a1 a2, Statement (.reg64HighRead a0 a1 a2) := fun _ _ _ => none_spells _
theorem reg64LowWrite : ∀ a0 a1 a2 a3, Statement (.reg64LowWrite a0 a1 a2 a3) := fun _ _ _ _ => none_spells _
theorem reg64HighWrite : ∀ a0 a1 a2 a3, Statement (.reg64HighWrite a0 a1 a2 a3) := fun _ _ _ _ => none_spells _
theorem cmbAccess : ∀ a0 a1 a2 a3 a4, Statement (.cmbAccess a0 a1 a2 a3 a4) := fun _ _ _ _ _ => none_spells _
theorem doorbellWrite : ∀ a0 a1 a2 a3 a4 a5, Statement (.doorbellWrite a0 a1 a2 a3 a4 a5) := fun _ _ _ _ _ _ => none_spells _
theorem load : ∀ a0, Statement (.load a0) := fun _ => none_spells _
theorem apply : ∀ a0, Statement (.apply a0) := fun _ => none_spells _
theorem persist : ∀ a0, Statement (.persist a0) := fun _ => none_spells _
theorem discard : ∀ a0, Statement (.discard a0) := fun _ => none_spells _
theorem courseValidationEnd : ∀ a0, Statement (.courseValidationEnd a0) := fun _ => none_spells _
theorem persistEnd : ∀ a0, Statement (.persistEnd a0) := fun _ => none_spells _
theorem request : ∀ a0, Statement (.request a0) := fun _ => none_spells _
theorem cancelCommit : ∀ a0, Statement (.cancelCommit a0) := fun _ => none_spells _
theorem create : ∀ a0 a1, Statement (.create a0 a1) := fun _ _ => none_spells _
theorem resetDrain : ∀ a0 a1, Statement (.resetDrain a0 a1) := fun _ _ => none_spells _
theorem resetSquash : ∀ a0 a1, Statement (.resetSquash a0 a1) := fun _ _ => none_spells _
theorem freeze : ∀ a0 a1, Statement (.freeze a0 a1) := fun _ _ => none_spells _
theorem thaw : ∀ a0 a1 a2, Statement (.thaw a0 a1 a2) := fun _ _ _ => none_spells _
theorem save : ∀ a0 a1, Statement (.save a0 a1) := fun _ _ => none_spells _
theorem restore : ∀ a0 a1, Statement (.restore a0 a1) := fun _ _ => none_spells _
theorem destroy : ∀ a0 a1, Statement (.destroy a0 a1) := fun _ _ => none_spells _
theorem migrate : ∀ a0 a1, Statement (.migrate a0 a1) := fun _ _ => none_spells _
theorem accept : ∀ a0 a1, Statement (.accept a0 a1) := fun _ _ => none_spells _
theorem movePort : ∀ a0 a1, Statement (.movePort a0 a1) := fun _ _ => none_spells _
theorem cancel : ∀ a0 a1, Statement (.cancel a0 a1) := fun _ _ => none_spells _
theorem slcFetchEnd : ∀ a0 a1, Statement (.slcFetchEnd a0 a1) := fun _ _ => none_spells _
theorem sliceFrozen : ∀ a0, Statement (.sliceFrozen a0) := fun _ => none_spells _
theorem resetComplete : ∀ a0, Statement (.resetComplete a0) := fun _ => none_spells _
theorem saveEnd : ∀ a0 a1, Statement (.saveEnd a0 a1) := fun _ _ => none_spells _
theorem restoreEnd : ∀ a0 a1, Statement (.restoreEnd a0 a1) := fun _ _ => none_spells _
theorem destroyEnd : ∀ a0, Statement (.destroyEnd a0) := fun _ => none_spells _
theorem flr : ∀ a0, Statement (.flr a0) := fun _ => none_spells _
theorem hotReset : ∀ a0, Statement (.hotReset a0) := fun _ => none_spells _
theorem perstAsserted : ∀ a0, Statement (.perstAsserted a0) := fun _ => none_spells _
theorem perstReleased : ∀ a0, Statement (.perstReleased a0) := fun _ => none_spells _
theorem linkUp : ∀ a0 a1 a2 a3 a4, Statement (.linkUp a0 a1 a2 a3 a4) := fun _ _ _ _ _ => none_spells _
theorem busMasterEnable : ∀ a0 a1, Statement (.busMasterEnable a0 a1) := fun _ _ => none_spells _
theorem ccEnable : ∀ a0 a1 a2, Statement (.ccEnable a0 a1 a2) := fun _ _ _ => none_spells _
theorem ccDisable : ∀ a0 a1 a2, Statement (.ccDisable a0 a1 a2) := fun _ _ _ => none_spells _
theorem ccShutdown : ∀ a0 a1 a2, Statement (.ccShutdown a0 a1 a2) := fun _ _ _ => none_spells _
theorem shutdownComplete : ∀ a0, Statement (.shutdownComplete a0) := fun _ => none_spells _
theorem hostBusError : ∀ a0, Statement (.hostBusError a0) := fun _ => none_spells _
theorem dataTransferError : ∀ a0, Statement (.dataTransferError a0) := fun _ => none_spells _
theorem deleteIoSubmissionQueue : ∀ a0, Statement (.deleteIoSubmissionQueue a0) := fun _ => none_spells _
theorem createIoSubmissionQueue : ∀ a0, Statement (.createIoSubmissionQueue a0) := fun _ => none_spells _
theorem getLogPage : ∀ a0, Statement (.getLogPage a0) := fun _ => none_spells _
theorem deleteIoCompletionQueue : ∀ a0, Statement (.deleteIoCompletionQueue a0) := fun _ => none_spells _
theorem createIoCompletionQueue : ∀ a0, Statement (.createIoCompletionQueue a0) := fun _ => none_spells _
theorem identify : ∀ a0, Statement (.identify a0) := fun _ => none_spells _
theorem abort : ∀ a0, Statement (.abort a0) := fun _ => none_spells _
theorem setFeatures : ∀ a0, Statement (.setFeatures a0) := fun _ => none_spells _
theorem getFeatures : ∀ a0, Statement (.getFeatures a0) := fun _ => none_spells _
theorem asynchronousEventRequest : ∀ a0, Statement (.asynchronousEventRequest a0) := fun _ => none_spells _
theorem namespaceManagement : ∀ a0 a1, Statement (.namespaceManagement a0 a1) := fun _ _ => none_spells _
theorem namespaceAttachment : ∀ a0 a1, Statement (.namespaceAttachment a0 a1) := fun _ _ => none_spells _
theorem formatNvm : ∀ a0, Statement (.formatNvm a0) := fun _ => none_spells _
theorem sanitize : ∀ a0, Statement (.sanitize a0) := fun _ => none_spells _
theorem keyDelivery : ∀ a0 a1, Statement (.keyDelivery a0 a1) := fun _ _ => none_spells _
theorem attestationReport : ∀ a0, Statement (.attestationReport a0) := fun _ => none_spells _
theorem heatProgramLoad : ∀ a0 a1, Statement (.heatProgramLoad a0 a1) := fun _ _ => none_spells _
theorem patternTableLoad : ∀ a0 a1, Statement (.patternTableLoad a0 a1) := fun _ _ => none_spells _
theorem flush : ∀ a0, Statement (.flush a0) := fun _ => none_spells _
theorem write : ∀ a0 a1, Statement (.write a0 a1) := fun _ _ => none_spells _
theorem read : ∀ a0, Statement (.read a0) := fun _ => none_spells _
theorem compare : ∀ a0 a1, Statement (.compare a0 a1) := fun _ _ => none_spells _
theorem writeZeroes : ∀ a0, Statement (.writeZeroes a0) := fun _ => none_spells _
theorem datasetManagement : ∀ a0 a1, Statement (.datasetManagement a0 a1) := fun _ _ => none_spells _
theorem verify : ∀ a0, Statement (.verify a0) := fun _ => none_spells _
theorem reservationRegister : ∀ a0 a1, Statement (.reservationRegister a0 a1) := fun _ _ => none_spells _
theorem reservationReport : ∀ a0, Statement (.reservationReport a0) := fun _ => none_spells _
theorem reservationAcquire : ∀ a0 a1, Statement (.reservationAcquire a0 a1) := fun _ _ => none_spells _
theorem reservationRelease : ∀ a0 a1, Statement (.reservationRelease a0 a1) := fun _ _ => none_spells _
theorem ledgerPost : ∀ a0, Statement (.ledgerPost a0) := fun _ => none_spells _
theorem ledgerPostListArrival : ∀ a0 a1 a2, Statement (.ledgerPostListArrival a0 a1 a2) := fun _ _ _ => none_spells _
theorem heatRun : ∀ a0, Statement (.heatRun a0) := fun _ => none_spells _
theorem heatDescriptorArrival : ∀ a0 a1, Statement (.heatDescriptorArrival a0 a1) := fun _ _ => none_spells _
theorem hurdleRun : ∀ a0, Statement (.hurdleRun a0) := fun _ => none_spells _
theorem hurdleDescriptorArrival : ∀ a0 a1, Statement (.hurdleDescriptorArrival a0 a1) := fun _ _ => none_spells _
theorem patternSearch : ∀ a0, Statement (.patternSearch a0) := fun _ => none_spells _
theorem patternStep : ∀ a0, Statement (.patternStep a0) := fun _ => none_spells _
theorem patternSearchBegin : ∀ a0 a1 a2, Statement (.patternSearchBegin a0 a1 a2) := fun _ _ _ => none_spells _
theorem cipherTransform : ∀ a0, Statement (.cipherTransform a0) := fun _ => none_spells _
theorem cipherTrailerArrival : ∀ a0 a1, Statement (.cipherTrailerArrival a0 a1) := fun _ _ => none_spells _
theorem digest : ∀ a0, Statement (.digest a0) := fun _ => none_spells _
theorem digestBatonArrival : ∀ a0 a1, Statement (.digestBatonArrival a0 a1) := fun _ _ => none_spells _
theorem entryVisible : ∀ a0 a1, Statement (.entryVisible a0 a1) := fun _ _ => none_spells _
theorem flushStart : ∀ a0 a1, Statement (.flushStart a0 a1) := fun _ _ => none_spells _
theorem journalRecordDurable : Statement (.journalRecordDurable) := none_spells _
theorem holdupArmed : Statement (.holdupArmed) := none_spells _
theorem holdupDisarmed : Statement (.holdupDisarmed) := none_spells _
theorem powerFailLatch : Statement (.powerFailLatch) := none_spells _
theorem pwrOkLow : Statement (.pwrOkLow) := none_spells _
theorem emergencyFlushEnd : ∀ a0, Statement (.emergencyFlushEnd a0) := fun _ => none_spells _
theorem thermalTrip : Statement (.thermalTrip) := none_spells _
theorem checkpoint : ∀ a0, Statement (.checkpoint a0) := fun _ => none_spells _
theorem dumpLoss : ∀ a0 a1, Statement (.dumpLoss a0 a1) := fun _ _ => none_spells _
theorem addUnpowered : ∀ a0, Statement (.addUnpowered a0) := fun _ => none_spells _
theorem clearLoss : ∀ a0, Statement (.clearLoss a0) := fun _ => none_spells _
theorem checkpointStart : ∀ a0, Statement (.checkpointStart a0) := fun _ => none_spells _
theorem checkpointComplete : Statement (.checkpointComplete) := none_spells _
theorem gcVictimStart : ∀ a0, Statement (.gcVictimStart a0) := fun _ => none_spells _
theorem gcErase : ∀ a0, Statement (.gcErase a0) := fun _ => none_spells _
theorem refreshStart : ∀ a0, Statement (.refreshStart a0) := fun _ => none_spells _
theorem demoteBackground : Statement (.demoteBackground) := none_spells _
theorem programFail : ∀ a0, Statement (.programFail a0) := fun _ => none_spells _
theorem eraseFail : ∀ a0, Statement (.eraseFail a0) := fun _ => none_spells _
theorem dieLost : ∀ a0, Statement (.dieLost a0) := fun _ => none_spells _
theorem dieTempRead : ∀ a0 a1, Statement (.dieTempRead a0 a1) := fun _ _ => none_spells _
theorem dump : ∀ a0 a1 a2, Statement (.dump a0 a1 a2) := fun _ _ _ => none_spells _
theorem channelTraining : ∀ a0 a1 a2, Statement (.channelTraining a0 a1 a2) := fun _ _ _ => none_spells _
theorem nop : ∀ a0 a1, Statement (.nop a0 a1) := fun _ _ => none_spells _
theorem fence : ∀ a0 a1, Statement (.fence a0 a1) := fun _ _ => none_spells _
theorem ifence : ∀ a0 a1, Statement (.ifence a0 a1) := fun _ _ => none_spells _
theorem eret : ∀ a0 a1, Statement (.eret a0 a1) := fun _ _ => none_spells _
theorem wait : ∀ a0 a1, Statement (.wait a0 a1) := fun _ _ => none_spells _
theorem halt : ∀ a0 a1, Statement (.halt a0 a1) := fun _ _ => none_spells _
theorem mov : ∀ a0 a1, Statement (.mov a0 a1) := fun _ _ => none_spells _
theorem aluRr : ∀ a0 a1, Statement (.aluRr a0 a1) := fun _ _ => none_spells _
theorem shiftRr : ∀ a0 a1, Statement (.shiftRr a0 a1) := fun _ _ => none_spells _
theorem mulRr : ∀ a0 a1, Statement (.mulRr a0 a1) := fun _ _ => none_spells _
theorem unary : ∀ a0 a1, Statement (.unary a0 a1) := fun _ _ => none_spells _
theorem addi5 : ∀ a0 a1, Statement (.addi5 a0 a1) := fun _ _ => none_spells _
theorem movi5 : ∀ a0 a1, Statement (.movi5 a0 a1) := fun _ _ => none_spells _
theorem ldRr : ∀ a0 a1, Statement (.ldRr a0 a1) := fun _ _ => none_spells _
theorem stRr : ∀ a0 a1, Statement (.stRr a0 a1) := fun _ _ => none_spells _
theorem jr : ∀ a0 a1, Statement (.jr a0 a1) := fun _ _ => none_spells _
theorem jalr : ∀ a0 a1, Statement (.jalr a0 a1) := fun _ _ => none_spells _
theorem addBSubB : ∀ a0 a1, Statement (.addBSubB a0 a1) := fun _ _ => none_spells _
theorem daaB : ∀ a0 a1, Statement (.daaB a0 a1) := fun _ _ => none_spells _
theorem dasB : ∀ a0 a1, Statement (.dasB a0 a1) := fun _ _ => none_spells _
theorem aluTr : ∀ a0 a1, Statement (.aluTr a0 a1) := fun _ _ => none_spells _
theorem shiftTr : ∀ a0 a1, Statement (.shiftTr a0 a1) := fun _ _ => none_spells _
theorem mulTr : ∀ a0 a1, Statement (.mulTr a0 a1) := fun _ _ => none_spells _
theorem cmp : ∀ a0 a1, Statement (.cmp a0 a1) := fun _ _ => none_spells _
theorem divuDivsRemuRems : ∀ a0 a1, Statement (.divuDivsRemuRems a0 a1) := fun _ _ => none_spells _
theorem addi : ∀ a0 a1, Statement (.addi a0 a1) := fun _ _ => none_spells _
theorem andiOriXori : ∀ a0 a1, Statement (.andiOriXori a0 a1) := fun _ _ => none_spells _
theorem shliShriSari : ∀ a0 a1, Statement (.shliShriSari a0 a1) := fun _ _ => none_spells _
theorem cmpi : ∀ a0 a1, Statement (.cmpi a0 a1) := fun _ _ => none_spells _
theorem movi : ∀ a0 a1, Statement (.movi a0 a1) := fun _ _ => none_spells _
theorem rdsr : ∀ a0 a1, Statement (.rdsr a0 a1) := fun _ _ => none_spells _
theorem wrsr : ∀ a0 a1, Statement (.wrsr a0 a1) := fun _ _ => none_spells _
theorem rdfeat : ∀ a0 a1, Statement (.rdfeat a0 a1) := fun _ _ => none_spells _
theorem loadInstruction : ∀ a0 a1, Statement (.loadInstruction a0 a1) := fun _ _ => none_spells _
theorem storeInstruction : ∀ a0 a1, Statement (.storeInstruction a0 a1) := fun _ _ => none_spells _
theorem lea : ∀ a0 a1, Statement (.lea a0 a1) := fun _ _ => none_spells _
theorem swap : ∀ a0 a1, Statement (.swap a0 a1) := fun _ _ => none_spells _
theorem cas : ∀ a0 a1, Statement (.cas a0 a1) := fun _ _ => none_spells _
theorem fadd : ∀ a0 a1, Statement (.fadd a0 a1) := fun _ _ => none_spells _
theorem b : ∀ a0 a1, Statement (.b a0 a1) := fun _ _ => none_spells _
theorem jal : ∀ a0 a1, Statement (.jal a0 a1) := fun _ _ => none_spells _
theorem repI : ∀ a0 a1 a2, Statement (.repI a0 a1 a2) := fun _ _ _ => none_spells _
theorem repU : ∀ a0 a1 a2, Statement (.repU a0 a1 a2) := fun _ _ _ => none_spells _
theorem svc : ∀ a0 a1, Statement (.svc a0 a1) := fun _ _ => none_spells _
theorem svcExit : ∀ a0, Statement (.svcExit a0) := fun _ => none_spells _
theorem svcBarrier : ∀ a0, Statement (.svcBarrier a0) := fun _ => none_spells _
theorem svcYield : ∀ a0, Statement (.svcYield a0) := fun _ => none_spells _
theorem addprSubprMulpr : ∀ a0 a1, Statement (.addprSubprMulpr a0 a1) := fun _ _ => none_spells _
theorem cmppr : ∀ a0 a1, Statement (.cmppr a0 a1) := fun _ _ => none_spells _
theorem movi32 : ∀ a0 a1, Statement (.movi32 a0 a1) := fun _ _ => none_spells _
theorem movhi32 : ∀ a0 a1, Statement (.movhi32 a0 a1) := fun _ _ => none_spells _
theorem addi32 : ∀ a0 a1, Statement (.addi32 a0 a1) := fun _ _ => none_spells _
theorem cmpi32 : ∀ a0 a1, Statement (.cmpi32 a0 a1) := fun _ _ => none_spells _
theorem addp : ∀ a0 a1, Statement (.addp a0 a1) := fun _ _ => none_spells _
theorem subp : ∀ a0 a1, Statement (.subp a0 a1) := fun _ _ => none_spells _
theorem mulp : ∀ a0 a1, Statement (.mulp a0 a1) := fun _ _ => none_spells _
theorem divp : ∀ a0 a1, Statement (.divp a0 a1) := fun _ _ => none_spells _
theorem cmpp : ∀ a0 a1, Statement (.cmpp a0 a1) := fun _ _ => none_spells _
theorem movp : ∀ a0 a1, Statement (.movp a0 a1) := fun _ _ => none_spells _
theorem pack : ∀ a0 a1, Statement (.pack a0 a1) := fun _ _ => none_spells _
theorem unpk : ∀ a0 a1, Statement (.unpk a0 a1) := fun _ _ => none_spells _
theorem edit : ∀ a0 a1, Statement (.edit a0 a1) := fun _ _ => none_spells _
theorem shfp : ∀ a0 a1, Statement (.shfp a0 a1) := fun _ _ => none_spells _
theorem cvbp : ∀ a0 a1, Statement (.cvbp a0 a1) := fun _ _ => none_spells _
theorem cvpb : ∀ a0 a1, Statement (.cvpb a0 a1) := fun _ _ => none_spells _
theorem budgetExhausted : ∀ a0, Statement (.budgetExhausted a0) := fun _ => none_spells _
theorem stop : ∀ a0, Statement (.stop a0) := fun _ => none_spells _
theorem suspend : ∀ a0, Statement (.suspend a0) := fun _ => none_spells _
theorem heatStaged : ∀ a0, Statement (.heatStaged a0) := fun _ => none_spells _
theorem heatLoadingStart : ∀ a0, Statement (.heatLoadingStart a0) := fun _ => none_spells _
theorem heatRunningStart : ∀ a0, Statement (.heatRunningStart a0) := fun _ => none_spells _
theorem heatDelivered : ∀ a0 a1, Statement (.heatDelivered a0 a1) := fun _ _ => none_spells _
theorem heatStop : ∀ a0 a1 a2, Statement (.heatStop a0 a1 a2) := fun _ _ _ => none_spells _
theorem hdlStop : ∀ a0 a1 a2, Statement (.hdlStop a0 a1 a2) := fun _ _ _ => none_spells _
theorem patternWritePhase : ∀ a0, Statement (.patternWritePhase a0) := fun _ => none_spells _
theorem patternApplyPhase : ∀ a0, Statement (.patternApplyPhase a0) := fun _ => none_spells _
theorem securityAlarm : ∀ a0, Statement (.securityAlarm a0) := fun _ => none_spells _
theorem keyChangeEffect : ∀ a0, Statement (.keyChangeEffect a0) := fun _ => none_spells _
theorem pkJobComplete : Statement (.pkJobComplete) := none_spells _
theorem go : ∀ a0 a1, Statement (.go a0 a1) := fun _ _ => none_spells _
theorem readRaw : ∀ a0, Statement (.readRaw a0) := fun _ => none_spells _
theorem writeRaw : ∀ a0, Statement (.writeRaw a0) := fun _ => none_spells _
theorem readPage : ∀ a0 a1, Statement (.readPage a0 a1) := fun _ _ => none_spells _
theorem writePage : ∀ a0 a1, Statement (.writePage a0 a1) := fun _ _ => none_spells _
theorem dramTempChange : ∀ a0 a1, Statement (.dramTempChange a0 a1) := fun _ _ => none_spells _
theorem dramTraining : ∀ a0 a1, Statement (.dramTraining a0 a1) := fun _ _ => none_spells _
theorem wake : ∀ a0, Statement (.wake a0) := fun _ => none_spells _
theorem pwrTimerExpiry : Statement (.pwrTimerExpiry) := none_spells _
theorem refreshWake : Statement (.refreshWake) := none_spells _
theorem powerEntryBegin : Statement (.powerEntryBegin) := none_spells _
theorem powerStateReached : Statement (.powerStateReached) := none_spells _
theorem powerExitComplete : ∀ a0, Statement (.powerExitComplete a0) := fun _ => none_spells _
theorem clusterPllLock : ∀ a0, Statement (.clusterPllLock a0) := fun _ => none_spells _
theorem evrCheckRead : ∀ a0, Statement (.evrCheckRead a0) := fun _ => none_spells _
theorem freezeRing : ∀ a0, Statement (.freezeRing a0) := fun _ => none_spells _
theorem release : ∀ a0, Statement (.release a0) := fun _ => none_spells _
theorem freezeExpiry : ∀ a0, Statement (.freezeExpiry a0) := fun _ => none_spells _
theorem evrClear : ∀ a0 a1, Statement (.evrClear a0 a1) := fun _ _ => none_spells _
theorem coldStart : Statement (.coldStart) := none_spells _
theorem starterBegin : ∀ a0, Statement (.starterBegin a0) := fun _ => none_spells _
theorem fwLoad : ∀ a0 a1, Statement (.fwLoad a0 a1) := fun _ _ => none_spells _
theorem fwActivate : ∀ a0, Statement (.fwActivate a0) := fun _ => none_spells _
theorem fwConfirm : ∀ a0, Statement (.fwConfirm a0) := fun _ => none_spells _
theorem restart : ∀ a0, Statement (.restart a0) := fun _ => none_spells _
theorem deviceFault : ∀ a0, Statement (.deviceFault a0) := fun _ => none_spells _
theorem watchdogExpiry : Statement (.watchdogExpiry) := none_spells _
theorem faultFlushEnd : Statement (.faultFlushEnd) := none_spells _
theorem phyUp : ∀ a0 a1, Statement (.phyUp a0 a1) := fun _ _ => none_spells _
theorem phyDown : ∀ a0, Statement (.phyDown a0) := fun _ => none_spells _
theorem linkSilent : ∀ a0, Statement (.linkSilent a0) := fun _ => none_spells _
theorem helloRepeat : ∀ a0, Statement (.helloRepeat a0) := fun _ => none_spells _
theorem summarySend : Statement (.summarySend) := none_spells _
theorem pairConfirmSend : ∀ a0, Statement (.pairConfirmSend a0) := fun _ => none_spells _
theorem retransmitTimeout : ∀ a0, Statement (.retransmitTimeout a0) := fun _ => none_spells _
theorem peerDeclaredLost : ∀ a0 a1, Statement (.peerDeclaredLost a0 a1) := fun _ _ => none_spells _
theorem relayFrameDiscard : ∀ a0 a1, Statement (.relayFrameDiscard a0 a1) := fun _ _ => none_spells _
theorem hello : ∀ a0 a1, Statement (.hello a0 a1) := fun _ _ => none_spells _
theorem linkOffer : ∀ a0 a1, Statement (.linkOffer a0 a1) := fun _ _ => none_spells _
theorem linkAnswer : ∀ a0 a1, Statement (.linkAnswer a0 a1) := fun _ _ => none_spells _
theorem fieldKey : ∀ a0 a1 a2 a3, Statement (.fieldKey a0 a1 a2 a3) := fun _ _ _ _ => none_spells _
theorem pace : ∀ a0 a1, Statement (.pace a0 a1) := fun _ _ => none_spells _
theorem summary : ∀ a0 a1, Statement (.summary a0 a1) := fun _ _ => none_spells _
theorem roster : ∀ a0 a1, Statement (.roster a0 a1) := fun _ _ => none_spells _
theorem postReq : ∀ a0 a1 a2, Statement (.postReq a0 a1 a2) := fun _ _ _ => none_spells _
theorem postAck : ∀ a0 a1 a2 a3, Statement (.postAck a0 a1 a2 a3) := fun _ _ _ _ => none_spells _
theorem resync : ∀ a0 a1 a2, Statement (.resync a0 a1 a2) := fun _ _ _ => none_spells _
theorem pairConfirm : ∀ a0 a1 a2 a3 a4, Statement (.pairConfirm a0 a1 a2 a3 a4) := fun _ _ _ _ _ => none_spells _
theorem migOffer : ∀ a0 a1 a2 a3 a4, Statement (.migOffer a0 a1 a2 a3 a4) := fun _ _ _ _ _ => none_spells _
theorem migReply : ∀ a0 a1 a2 a3, Statement (.migReply a0 a1 a2 a3) := fun _ _ _ _ => none_spells _
theorem migBaton : ∀ a0 a1 a2 a3, Statement (.migBaton a0 a1 a2 a3) := fun _ _ _ _ => none_spells _
theorem migData : ∀ a0 a1 a2 a3, Statement (.migData a0 a1 a2 a3) := fun _ _ _ _ => none_spells _
theorem migCommit : ∀ a0 a1 a2 a3 a4, Statement (.migCommit a0 a1 a2 a3 a4) := fun _ _ _ _ _ => none_spells _
theorem migCommitted : ∀ a0 a1, Statement (.migCommitted a0 a1) := fun _ _ => none_spells _
theorem migErased : ∀ a0 a1 a2, Statement (.migErased a0 a1 a2) := fun _ _ _ => none_spells _
theorem migErasedAck : ∀ a0 a1, Statement (.migErasedAck a0 a1) := fun _ _ => none_spells _
theorem migAbort : ∀ a0 a1 a2 a3, Statement (.migAbort a0 a1 a2 a3) := fun _ _ _ _ => none_spells _
theorem ack : ∀ a0 a1 a2, Statement (.ack a0 a1 a2) := fun _ _ _ => none_spells _
theorem loadRoster : ∀ a0 a1, Statement (.loadRoster a0 a1) := fun _ _ => none_spells _
theorem rekey : ∀ a0, Statement (.rekey a0) := fun _ => none_spells _
theorem dumpField : ∀ a0 a1, Statement (.dumpField a0 a1) := fun _ _ => none_spells _
theorem setTime : ∀ a0, Statement (.setTime a0) := fun _ => none_spells _
theorem ppsEdge : ∀ a0 a1, Statement (.ppsEdge a0 a1) := fun _ _ => none_spells _
theorem smbusBasicManagement : ∀ a0, Statement (.smbusBasicManagement a0) := fun _ => none_spells _
theorem smbusSelectWrite : ∀ a0 a1, Statement (.smbusSelectWrite a0 a1) := fun _ _ => none_spells _
theorem smbusBlockRead : Statement (.smbusBlockRead) := none_spells _
theorem smbusBlockWrite : ∀ a0 a1 a2, Statement (.smbusBlockWrite a0 a1 a2) := fun _ _ _ => none_spells _
theorem extest : Statement (.extest) := none_spells _
theorem idcode : Statement (.idcode) := none_spells _
theorem samplePreload : Statement (.samplePreload) := none_spells _
theorem highz : Statement (.highz) := none_spells _
theorem clamp : Statement (.clamp) := none_spells _
theorem bypass : Statement (.bypass) := none_spells _
theorem debugInstruction : ∀ a0, Statement (.debugInstruction a0) := fun _ => none_spells _
theorem tapReset : Statement (.tapReset) := none_spells _
theorem pcieL1Exit : ∀ a0, Statement (.pcieL1Exit a0) := fun _ => none_spells _
theorem pfailNReturnsHigh : ∀ a0, Statement (.pfailNReturnsHigh a0) := fun _ => none_spells _

end Sys2Proof.Laws.NoWord
end

