-- ==== Sys2Proof/Tests/Slice0.lean ====
section
/-! SUPPORT. Tests: small states, single steps, and a witness for the hypotheses of every statement. -/

namespace Sys2Proof.Tests
open Sys2Proof Sys2Proof.Machine

/- One theorem after another: the witnesses are many, and their threads would fill the memory. -/
set_option Elab.async false

/-- A started device in P0 whose core 0 stands as `k` (R441, R899). -/
def withCore (k : Core) : State :=
  { State.reset with dev := { State.reset.dev with run := .started, phase := .ready }, cores := [(0, k)] }
/-- Core 0 in core local SRAM, in marshal mode. -/
def k0 : Core := { pc := 0x100 }
def s0 : State := withCore k0
/-- A started device that is READY in P0. -/
def up : State := { State.reset with dev := { State.reset.dev with run := .started, phase := .ready } }
/-- A course that allots nothing, with the relay ports enabled and field address 2. -/
def crs : Course :=
  { image := [], format := 1, epoch := 0, sequence := 1, debugAuth := false, revokeMask := 0, ownerSlot := 0, portMode := 0,
    cmbLog2 := 0, patHole := 0, relayEnable := 15, wbfMib := 0, etherType := 0x88B5, fieldAddr := 2, dramMts := 4800,
    dramGib := 64, privGib := 32, allots := [], period := 1, tables := [], coreBanks := 0, clusterBanks := 0,
    keystoreRet := false, grant := 0 }
/-- The device with that course applied. -/
def ready : State := { up with crs := { up.crs with state := .applied, inForce := some crs } }
/-- Slice 0 stands as `x`. -/
def withSlice (x : Slice) : State := { ready with slices := [(0, x)] }

/-- The course with what slice 0 needs reserved for it: one slot of each table, a bank group, DRAM, queues and a key. -/
def crsA : Course :=
  { crs with allots := [⟨0, 3, 0, 1⟩, ⟨0, 4, 0, 64⟩, ⟨0, 7, 0, 2⟩, ⟨0, 10, 0, 1⟩],
             tables := (List.range 32).map (fun c => (0x100 + c, [0])) ++ [(0x200, [0])] }
/-- A CREATE descriptor of slice 0 on port 0 with one PASID and one namespace. -/
def desc : Bytes := [0, 0, 0, 1, 1] ++ List.replicate 59 0 ++ [1]
/-- Two dies in use, on channels 0 and 1. -/
def twoDies : Ftl :=
  { dies := [(0, { present := true, qualified := true, planes := 1, blocksPerPlane := 4, pagesPerBlock := 8, bitsPerCell := 3 }),
      (16, { present := true, qualified := true })],
    chans := [(0, { trained := true }), (1, { trained := true })] }
/-- The device with its media recovered. -/
def media : State := { ready with ftl := { twoDies with recovered := true } }
/-- The device with a command of its core 0 at an address of test mode. -/
def rwOf (s : State) (k : Nat) (v : BitVec 64) : State := { s with rw := [(k, v)] }
/-- A command of slice 0, and a polled operation on flash that has been issued. -/
def cid0 : CmdId := ⟨0, 1, 7⟩
def poll0 (k : PollKind) : PollOp := { id := 0, kind := k, ready := 0, cmds := 0, bursts := 0, last := some 0 }
def polling (k : PollKind) : State := { media with stride := 1, ftl := { media.ftl with polls := [poll0 k] } }
/-- A baton of slice 0. -/
def baton : Baton :=
  { slice := 0, serial := 0, state := {}, totals := {}, recorder := {}, heats := [], cores := [], coreSram := [],
    bankSram := [], dram := [], keys := {}, programs := {}, bytes := [] }

/-- A submission queue entry of an opcode, its other fields zero but for NSID 1. -/
def ent0 (opc : Nat) : SqEntry :=
  { opc := opc, cid := 7, fuse := 0, psdt := 0, rsvd := 0, nsid := 1, cdw2 := 0, cdw3 := 0, mptr := 0,
    dptr := { sgl := false, form := .ok, ranges := [] }, cdw10 := 0, cdw11 := 0, cdw12 := 0, cdw13 := 0, cdw14 := 0,
    cdw15 := 0 }
/-- An admitted command of slice 0. -/
def adm0 (admin : Bool) (e : SqEntry) : Adm :=
  { id := cid0, ent := e, admin := admin, stamp := ⟨0, 0⟩, cqid := 1, sqhd := 0, stage := false, charge := 0, wt := false,
    rep := false }
/-- Slice 0 with that command admitted and namespace 1 of 64 blocks of 512 bytes. -/
def withAdm (a : Adm) : State :=
  withSlice { st := .active, adms := [a], nss := [(1, { nsze := 64, lbaf := 0, dps := 0, firstUnit := 0 })] }

/-- The same entry with its command words 10 and 11 and `len` bytes of host memory. -/
def entD (opc : Nat) (d10 d11 : BitVec 32) (len : Nat) : SqEntry :=
  { ent0 opc with cdw10 := d10, cdw11 := d11, dptr := { sgl := false, form := .ok, ranges := [(2 ^ 40, len)] } }
/-- The same with no data pointer. -/
def entE (opc : Nat) (d10 d11 : BitVec 32) : SqEntry := { ent0 opc with cdw10 := d10, cdw11 := d11 }
/-- Slice 0's port moves data, and the slice holds the host link's slot. -/
def moving (s : State) : State :=
  { s with ports := [(0, { linkUp := true, busMaster := true, perst := false })], link := { holders := [some 0] } }
/-- Slice 0 as `x` with an admin command of an entry admitted. -/
def withAdmin (x : Slice) (e : SqEntry) : State := withSlice { x with st := .active, adms := [adm0 true e] }
/-- A namespace of 64 blocks of 512 bytes. -/
def ns0 : Ns := { nsze := 64, lbaf := 0, dps := 0, firstUnit := 0, attached := true }

/-- A Key Delivery's image: its header, one entry and the rest zero, of this delivery sequence. -/
def delivery (seq : BitVec 8) : Bytes :=
  leBytes 4 0x4D424B31 ++ leBytes 2 1 ++ leBytes 2 1 ++ List.replicate 16 0 ++ [seq]
/-- Slice 0 with an I/O command of an entry admitted, and namespace 1 as `n`. -/
def withIo (n : Ns) (e : SqEntry) : State := withSlice { st := .active, adms := [adm0 false e], nss := [(1, n)], mediaKey := some 0 }
/-- Slice 0 with core 0 of its own and an I/O command of an entry admitted, and its heat. -/
def withHeat (x : Slice) (e : SqEntry) (h : Heat) : State :=
  { withSlice { x with st := .active, cores := [0], adms := [adm0 false e] } with heats := [h] }
/-- A heat of that command. -/
def heat0 (st : HeatState) : Heat := { id := cid0, stamp := ⟨0, 0⟩, st := st }
/-- A program of one zero instruction word. -/
def prog0 : Program := { code := [0, 0], entry := 0, minCores := 1, maxCores := 64 }

/-- A Ledger Post of one range whose list and data stand in these ranges. -/
def posting (rs : List (Nat × Nat)) : SqEntry :=
  { entE 0x81 1 0 with dptr := { sgl := true, form := .ok, ranges := rs } }
/-- Slice 0 with a portion of the CMB and that post admitted. -/
def inCmb (rs : List (Nat × Nat)) : State :=
  { withSlice { st := .active, adms := [adm0 false (posting rs)], nss := [(1, ns0)], cmbOff := some 0, cmbMib := 1 } with
    crs := { ready.crs with inForce := some { crs with cmbLog2 := 26 } }, ports := [(0, { bar4 := 2 ^ 32 })] }

/-- The public-key unit signs the report of a command of slice 0. -/
def signing : State :=
  { withAdmin {} (entE 0xC2 0 0) with kst := { state := .ready, jobs := [.sign cid0 (some [])] } }

/-- A namespace of one block. -/
def ns1 : Ns := { ns0 with nsze := 1 }

/-- The fields of a scan descriptor for fixed records of 64 bytes and no predicate. -/
def hdesc : Bytes := padTo 1920 [0, 0, 0, 0, 64]
/-- A Hurdle Run of slice 0 whose output is 64 bytes. -/
def scanning : State := withIo ns0 { entE 0x8A 0 0 with cdw14 := 64 }
/-- Slice 0 with search slot 0 and a command of an entry admitted. -/
def withPat (admin : Bool) (e : SqEntry) (p : Pat) : State :=
  { withSlice { st := .active, adms := [adm0 admin e], nss := [(1, ns0)], search := [0] } with pat := p }
/-- A Pattern Search of no input. -/
def searchE (opc : Nat) : SqEntry := { entE opc 0 0 with nsid := 0 }
/-- A Pattern Table Load. -/
def loadE (len : Nat) : SqEntry := { entD 0xC9 0 (BitVec.ofNat 32 len) len with nsid := 0 }
/-- The header of an image of no states and no transitions that replaces the table or not, with `ops` rule operations. -/
def imageHead (replaces : BitVec 8) (root ops : Nat) : Bytes :=
  leBytes 4 0x4D425431 ++ leBytes 2 1 ++ [replaces, 0] ++ leBytes 4 root ++ leBytes 4 0 ++ leBytes 4 0 ++ leBytes 4 ops ++ leBytes 8 0
/-- A pattern table whose rule entries are all occupied. -/
def fullRules : PatTable := { state := .ready, rules := (List.range 2048).map (fun i => (i, ruleEntry 1 0 0)) }

/-- Slice 0 with a core of each engine and two key slots, and an I/O command of an entry admitted. -/
def withKeys (k : SliceKeys) (e : SqEntry) : State :=
  { withSlice { st := .active, adms := [adm0 false e], aes := [0], keySlots := 2 } with sliceKeys := [(0, k)] }
/-- A key of 256 bits in slot 1 that may do all that its size allows. -/
def keyed : SliceKeys :=
  { keys := [(1, { k512 := false, use := 0xFFF, child := 0, install := 0, counter := 0, limit := 9, recEnd := 9, value := [] })] }
/-- A GCM encryption under that key, and a SHA-256 of phase `p`. -/
def gcmE (len : Nat) : SqEntry :=
  { entD 0x93 0x10002 (BitVec.ofNat 32 len) len with nsid := 0, cdw2 := 8 }
def shaE (p : BitVec 32) (len : Nat) : SqEntry :=
  { entD 0x95 (0x001 + p <<< 8) (BitVec.ofNat 32 len) (len + if p = 2 then 552 else 0) with nsid := 0, cdw2 := 8 }
/-- The same with no source. -/
def bare (e : SqEntry) : SqEntry := { e with cdw11 := 0, dptr := { sgl := false, form := .ok, ranges := [] } }
/-- The device has joined its field as member 2, and port 0 stands as `p`; member 3 is its peer. -/
def joined (p : RlyPort) : State :=
  { ready with
    rly := { ready.rly with join := .joined, ports := [(0, p)], routes := [(3, ⟨3, 0, 1⟩)] },
    dur := { ready.dur with fwA := { relayMin := 1, relayMax := 1 }, roster := some { seq := 1, ents := [(2, 0), (3, 5), (1, 4)], image := [] } } }
/-- The HELLO of a member. -/
def helloFrom (addr : Nat) (dev : BitVec 64) : HelloMsg :=
  { vMin := 1, vMax := 1, floor := 1, addr := addr, port := 0, deviceId := dev, rosterSeq := 1, keyId := 0, chal := [] }
/-- Slice 0 is paired with slice 5 of member 3, in a role (1 primary, 2 partner). -/
def paired (role : Nat) (x : Slice) : State :=
  { joined {} with slices := [(0, x)], inForce := [(0x202000, BitVec.ofNat 64 (role * 2 ^ 30 + 3 * 512 + 5))] }
/-- A mirrored post of slice 5 of member 3. -/
def post (seq : Nat) : PostMsg :=
  { pairSeq := seq, stampStride := 0, stampSeq := 0, primary := 5, partner := 0, nsid := 1, ranges := [], data := [] }

/-- Core 0 as `k`, its local SRAM holding these bytes from address 0. -/
def withBytes (k : Core) (bs : Bytes) : State :=
  { withCore k with mem := [(0, { cells := mwrite [] 0 bs })] }
/-- Core 0 with a value in general register 0. -/
def kReg (v : Dword) : Core := { k0 with g := v :: List.replicate 31 0 }
/-- Core 0 in heat mode. -/
def heatMode : State := withCore { k0 with marshal := false, cyc := 100 }
/-- Core 0 runs a heat, in marshal mode behind a service call. -/
def serving (v : Nat) : State :=
  { withCore { k0 with svc := some v } with heats := [{ heat0 .running with cores := [0] }] }
/-- The PLL of core 0's cluster is locked. -/
def locked (s : State) : State := { s with pwr := { s.pwr with clusterPll := 255 } }


/-! ### Witnesses: for every statement with hypotheses, states and operands that meet them together. A clause whose
hypotheses rest on a constant without a body (a signature check) is witnessed under that check's success. -/

theorem witness_CourseEngineCommands :
    (∃ (s : State) (q : Requester), s.up ∧ s.honours q ∧ s.crs.state ∈ [.empty, .staged, .applied] ∧ s.rwNat State.crsSrcLen ≠ 0) ∧
    (∃ (s : State) (q : Requester), s.up ∧ s.honours q ∧ s.crs.state ∈ [.empty, .staged, .applied] ∧ s.rwNat State.crsSrcLen = 0) ∧
    (∃ (s : State) (q : Requester), s.up ∧ s.honours q ∧ s.crs.state = .staged ∧ (∀ n f, s.crs.image = some n → s.crs.inForce = some f → State.restartEqual n f = true)) ∧
    (∃ (s : State) (q : Requester) (n f : Course), s.up ∧ s.honours q ∧ s.crs.state = .staged ∧ s.crs.image = some n ∧ s.crs.inForce = some f ∧ State.restartEqual n f = false) ∧
    (∃ (s : State) (q : Requester) (a b : CrsState), s.up ∧ s.honours q ∧ (a, b) ∈ [(CrsState.staged, CrsState.persistingStaged), (.applied, .persistingApplied)] ∧ s.crs.state = a) ∧
    (∃ (s : State) (q : Requester), s.up ∧ s.honours q ∧ s.crs.state ∈ [.staged, .applyPending, .applied]) ∧
    (∃ (s : State) (q : Requester) (c : _), c ∈ [Instr.load q, .apply q, .persist q, .discard q] ∧ s.up ∧ s.honours q ∧ s.crs.state ∈ [.loading, .persistingStaged, .persistingApplied]) ∧
    (∃ (s : State), s.crs.state = .loading) ∧
    (∃ (s : State) (d : Bytes) (len : Nat), s.crs.state = .loading ∧ len = s.rwNat State.crsSrcLen ∧ (State.failsEarly (s.courseCtx len) (padTo len d) = true ∨ s.courseJobRuns = true)) ∧
    (∃ (s : State) (a b : CrsState), (a, b) ∈ [(CrsState.persistingStaged, CrsState.staged), (.persistingApplied, .applied)] ∧ s.crs.state = a) ∧
    (∃ (s : State) (a b : CrsState) (c : Course), (a, b) ∈ [(CrsState.persistingStaged, CrsState.staged), (.persistingApplied, .applied)] ∧ s.crs.state = a ∧ s.crs.image = some c ∧ s.sysPairs ≠ []) ∧
    (∃ (s : State) (q : Requester), s.up ∧ s.honours q) ∧
    (∃ (s : State) (q : Requester), s.up ∧ s.honours q ∧ s.crs.commitPending = true) :=
  ⟨⟨{ up with rw := [(State.crsSrcLen, 0x1000)] }, .port 0, (by unfold State.up; decide +kernel), (by simp only [State.honours]; decide +kernel), (by first | decide +kernel | rfl), (by first | decide +kernel | rfl)⟩,
   ⟨up, .port 0, (by unfold State.up; decide +kernel), (by simp only [State.honours]; decide +kernel), (by first | decide +kernel | rfl), (by first | decide +kernel | rfl)⟩,
   ⟨{ up with crs := { up.crs with state := .staged } }, .port 0, (by unfold State.up; decide +kernel), (by simp only [State.honours]; decide +kernel), (by first | decide +kernel | rfl), (by intro n f h; cases h)⟩,
   ⟨{ ready with crs := { ready.crs with state := .staged, image := some { crs with dramGib := 32 } } }, .port 0, _, _, (by unfold State.up; decide +kernel), (by simp only [State.honours]; decide +kernel), (by first | decide +kernel | rfl), rfl, rfl, (by first | decide +kernel | rfl)⟩,
   ⟨{ up with crs := { up.crs with state := .applied } }, .port 0, .applied, .persistingApplied, (by unfold State.up; decide +kernel), (by simp only [State.honours]; decide +kernel), (by first | decide +kernel | rfl), (by first | decide +kernel | rfl)⟩,
   ⟨{ up with crs := { up.crs with state := .applyPending } }, .port 0, (by unfold State.up; decide +kernel), (by simp only [State.honours]; decide +kernel), (by first | decide +kernel | rfl)⟩,
   ⟨{ up with crs := { up.crs with state := .persistingStaged } }, .port 0, .persist (.port 0), (by first | decide +kernel | rfl), (by unfold State.up; decide +kernel), (by simp only [State.honours]; decide +kernel), (by first | decide +kernel | rfl)⟩,
   ⟨{ up with crs := { up.crs with state := .loading } }, (by first | decide +kernel | rfl)⟩,
   ⟨{ up with crs := { up.crs with state := .loading } }, [], _, (by first | decide +kernel | rfl), rfl, (by first | decide +kernel | rfl)⟩,
   ⟨{ up with crs := { up.crs with state := .persistingStaged } }, .persistingStaged, .staged, (by first | decide +kernel | rfl), (by first | decide +kernel | rfl)⟩,
   ⟨{ ready with crs := { ready.crs with state := .persistingApplied, image := some crs }, ftl := twoDies }, .persistingApplied, .applied, _, (by first | decide +kernel | rfl), (by first | decide +kernel | rfl), rfl, (by first | decide +kernel | rfl)⟩,
   ⟨up, .port 0, (by unfold State.up; decide +kernel), (by simp only [State.honours]; decide +kernel)⟩,
   ⟨{ up with crs := { up.crs with state := .applied, commitPending := true } }, .port 0, (by unfold State.up; decide +kernel), (by simp only [State.honours]; decide +kernel), (by first | decide +kernel | rfl)⟩⟩

set_option maxRecDepth 20000 in
theorem witness_KeyAttestationAndSecurityCommands :
    (∃ (s : State) (c : CmdId) (a : Adm) (act : Nat), s.awaitsAdmin c 0x84 a ∧ act = natBits a.ent.cdw10.toNat 2 0 ∧ act = 1) ∧
    (∃ (s : State) (c : CmdId) (a : Adm) (act : Nat), s.awaitsAdmin c 0x84 a ∧ act = natBits a.ent.cdw10.toNat 2 0 ∧ act ≠ 1 ∧ act ≠ 2 ∧ act ≠ 4) ∧
    (∃ (s : State) (c : CmdId) (a : Adm) (act : Nat) (u : State) (ents : List JEnt), s.awaitsAdmin c 0x84 a ∧ act = natBits a.ent.cdw10.toNat 2 0 ∧ s.ioSettled c.slice ((s.slice c.slice).nss.map Prod.fst) a.stamp = true ∧ ents = (((s.slice c.slice).nss.map Prod.fst).flatMap (fun i => match tget (s.slice c.slice).nss i with | some ns => s.trimEnts ns | none => [])) ∧ u = (s.slice c.slice).nss.foldl (fun s p => s.dropNsEntries c.slice p.1 a.stamp) s ∧ ents = [] ∧ act = 2) ∧
    (∃ (s : State) (c : CmdId) (a : Adm) (act : Nat) (u : State) (ents : List JEnt), s.awaitsAdmin c 0x84 a ∧ act = natBits a.ent.cdw10.toNat 2 0 ∧ s.ioSettled c.slice ((s.slice c.slice).nss.map Prod.fst) a.stamp = true ∧ ents = (((s.slice c.slice).nss.map Prod.fst).flatMap (fun i => match tget (s.slice c.slice).nss i with | some ns => s.trimEnts ns | none => [])) ∧ u = (s.slice c.slice).nss.foldl (fun s p => s.dropNsEntries c.slice p.1 a.stamp) s ∧ ents = [] ∧ act = 4) ∧
    (∃ (s : State) (c : CmdId) (a : Adm) (act : Nat) (u : State) (ents : List JEnt), s.awaitsAdmin c 0x84 a ∧ act = natBits a.ent.cdw10.toNat 2 0 ∧ s.ioSettled c.slice ((s.slice c.slice).nss.map Prod.fst) a.stamp = true ∧ ents = (((s.slice c.slice).nss.map Prod.fst).flatMap (fun i => match tget (s.slice c.slice).nss i with | some ns => s.trimEnts ns | none => [])) ∧ u = (s.slice c.slice).nss.foldl (fun s p => s.dropNsEntries c.slice p.1 a.stamp) s ∧ ents ≠ [] ∧ (act = 2 ∨ act = 4)) ∧
    (∃ (s : State) (c : CmdId) (a : Adm) (t : State) (len : Nat) (d bs : Bytes), s.awaitsAdmin c 0xC1 a ∧ len = a.ent.cdw11.toNat ∧ a.ent.nsid = 0 ∧ a.ent.cdw10 = 0 ∧ a.ent.cdw12 = 0 ∧ a.ent.cdw13 = 0 ∧ a.ent.cdw14 = 0 ∧ a.ent.cdw15 = 0 ∧ 1744 ≤ len ∧ len ≤ 2944 ∧ s.moveData c false a.ent.dptr.ranges = (t, true) ∧ bs = padTo len (t.gather c.slice a.ent.dptr.ranges d) ∧ len = 1664 + 80 * leAt bs 6 2 ∧ t.deliveryBad c.slice bs = none ∧ leAt bs 0x18 8 = (t.keysOf c.slice).seq) ∧
    (∃ (s : State) (c : CmdId) (a : Adm) (t : State) (len : Nat) (d bs : Bytes), s.awaitsAdmin c 0xC1 a ∧ len = a.ent.cdw11.toNat ∧ a.ent.nsid = 0 ∧ a.ent.cdw10 = 0 ∧ a.ent.cdw12 = 0 ∧ a.ent.cdw13 = 0 ∧ a.ent.cdw14 = 0 ∧ a.ent.cdw15 = 0 ∧ 1744 ≤ len ∧ len ≤ 2944 ∧ s.moveData c false a.ent.dptr.ranges = (t, true) ∧ bs = padTo len (t.gather c.slice a.ent.dptr.ranges d) ∧ len = 1664 + 80 * leAt bs 6 2 ∧ t.deliveryBad c.slice bs = none ∧ leAt bs 0x18 8 ≠ (t.keysOf c.slice).seq) ∧
    (∃ (s : State) (c : CmdId) (a : Adm), s.awaitsAdmin c 0xC2 a ∧ a.ent.nsid = 0 ∧ natBits a.ent.cdw10.toNat 31 3 = 0) ∧
    (∃ (s : State) (id : Nat) (k : KeyChange), s.kst.changes.find? (fun k => k.id = id) = some k ∧ (s.adm? k.cmd).isSome = true ∧ s.changeWaits k = false ∧ s.systemAreaWritable = true ∧ k.delivery = none) ∧
    (∃ (s : State) (id slot : Nat) (k : KeyChange) (key : NewKey), s.kst.changes.find? (fun k => k.id = id) = some k ∧ (s.adm? k.cmd).isSome = true ∧ s.changeWaits k = false ∧ s.systemAreaWritable = true ∧ k.ents = [(slot, some key)]) ∧
    (∃ (s t u : State) (c : CmdId) (a : Adm) (body bs : Bytes), s.kst.state = .ready ∧ s.pkCurrent = some (.sign c (some body)) ∧ s.adm? c = some a ∧ bs = body ++ padTo 49856 (Config.slhSign body) ∧ t = s.setKst { s.kst with jobs := s.kst.jobs.filter (fun x => decide (x ≠ .sign c (some body))) } ∧ State.moveData (t.ev 0x0A02 c.slice) c true (State.cutRanges a.ent.dptr.ranges bs.length) = (u, true)) ∧
    (∃ (s : State) (bs : Bytes) (slot : Nat), s.kst.state = .ready ∧ s.pkCurrent = some (.enrol bs) ∧ s.enrolCheck bs = .ok slot) ∧
    (∃ (s : State) (q : Requester), s.up ∧ s.honours q ∧ s.kst.enrolBusy = false) ∧
    (∃ (s : State) (src : Nat), 1 ≤ src ∧ src ≤ 6 ∧ (s.kst.alarms.filter (fun t => decide (s.stride < t + 4000000))).length < 15) :=
  ⟨⟨withAdmin {  } (entE 0x84 1 0), cid0, adm0 true (entE 0x84 1 0), _, (by unfold State.awaitsAdmin; decide +kernel), rfl, rfl⟩,
   ⟨withAdmin {  } (entE 0x84 3 0), cid0, adm0 true (entE 0x84 3 0), _, (by unfold State.awaitsAdmin; decide +kernel), rfl, (by first | decide +kernel | rfl), (by first | decide +kernel | rfl), (by first | decide +kernel | rfl)⟩,
   ⟨withAdmin { nss := [(1, ns0)] } (entE 0x84 2 0), cid0, adm0 true (entE 0x84 2 0), _, _, _, (by unfold State.awaitsAdmin; decide +kernel), rfl, (by first | decide +kernel | rfl), rfl, rfl, rfl, rfl⟩,
   ⟨withAdmin { nss := [(1, ns0)] } (entE 0x84 4 0), cid0, adm0 true (entE 0x84 4 0), _, _, _, (by unfold State.awaitsAdmin; decide +kernel), rfl, (by first | decide +kernel | rfl), rfl, rfl, rfl, rfl⟩,
   ⟨{ withAdmin { nss := [(1, ns0)] } (entE 0x84 2 0) with ftl := { coarse := [(0, 0x4000)] } }, cid0, adm0 true (entE 0x84 2 0), _, _, _, (by unfold State.awaitsAdmin; decide +kernel), rfl, (by first | decide +kernel | rfl), rfl, rfl, (by first | decide +kernel | rfl), (by first | decide +kernel | rfl)⟩,
   ⟨moving (withAdmin {  } ({ entD 0xC1 0 1744 1744 with nsid := 0 })), cid0, adm0 true ({ entD 0xC1 0 1744 1744 with nsid := 0 }), ((moving (withAdmin {  } ({ entD 0xC1 0 1744 1744 with nsid := 0 }))).moveData (cid0) false (adm0 true ({ entD 0xC1 0 1744 1744 with nsid := 0 })).ent.dptr.ranges).1, 1744, delivery 0, padTo (1744) ((((moving (withAdmin {  } ({ entD 0xC1 0 1744 1744 with nsid := 0 }))).moveData (cid0) false (adm0 true ({ entD 0xC1 0 1744 1744 with nsid := 0 })).ent.dptr.ranges).1).gather (cid0).slice (adm0 true ({ entD 0xC1 0 1744 1744 with nsid := 0 })).ent.dptr.ranges (delivery 0)), (by unfold State.awaitsAdmin; decide +kernel), (by first | decide +kernel | rfl), (by first | decide +kernel | rfl), (by first | decide +kernel | rfl), (by first | decide +kernel | rfl), (by first | decide +kernel | rfl), (by first | decide +kernel | rfl), (by first | decide +kernel | rfl), (by first | decide +kernel | rfl), (by first | decide +kernel | rfl), Prod.ext rfl (by decide +kernel), rfl, (by first | decide +kernel | rfl), (by first | decide +kernel | rfl), (by first | decide +kernel | rfl)⟩,
   ⟨moving (withAdmin {  } ({ entD 0xC1 0 1744 1744 with nsid := 0 })), cid0, adm0 true ({ entD 0xC1 0 1744 1744 with nsid := 0 }), ((moving (withAdmin {  } ({ entD 0xC1 0 1744 1744 with nsid := 0 }))).moveData (cid0) false (adm0 true ({ entD 0xC1 0 1744 1744 with nsid := 0 })).ent.dptr.ranges).1, 1744, delivery 1, padTo (1744) ((((moving (withAdmin {  } ({ entD 0xC1 0 1744 1744 with nsid := 0 }))).moveData (cid0) false (adm0 true ({ entD 0xC1 0 1744 1744 with nsid := 0 })).ent.dptr.ranges).1).gather (cid0).slice (adm0 true ({ entD 0xC1 0 1744 1744 with nsid := 0 })).ent.dptr.ranges (delivery 1)), (by unfold State.awaitsAdmin; decide +kernel), (by first | decide +kernel | rfl), (by first | decide +kernel | rfl), (by first | decide +kernel | rfl), (by first | decide +kernel | rfl), (by first | decide +kernel | rfl), (by first | decide +kernel | rfl), (by first | decide +kernel | rfl), (by first | decide +kernel | rfl), (by first | decide +kernel | rfl), Prod.ext rfl (by decide +kernel), rfl, (by first | decide +kernel | rfl), (by first | decide +kernel | rfl), (by first | decide +kernel | rfl)⟩,
   ⟨withAdmin {  } ({ entE 0xC2 0 0 with nsid := 0 }), cid0, adm0 true ({ entE 0xC2 0 0 with nsid := 0 }), (by unfold State.awaitsAdmin; decide +kernel), (by first | decide +kernel | rfl), (by first | decide +kernel | rfl)⟩,
   ⟨{ withAdmin {} (entE 0xC1 0 0) with ftl := twoDies, kst := { state := .ready, changes := [{ id := 0, slice := 0, stamp := ⟨0, 0⟩, ents := [(1, none)], cmd := cid0, delivery := none }] } }, 0, { id := 0, slice := 0, stamp := ⟨0, 0⟩, ents := [(1, none)], cmd := cid0, delivery := none }, (by first | decide +kernel | rfl), (by first | decide +kernel | rfl), (by first | decide +kernel | rfl), (by first | decide +kernel | rfl), (by first | decide +kernel | rfl)⟩,
   ⟨{ withAdmin {} (entE 0xC1 0 0) with ftl := twoDies, kst := { state := .ready, changes := [{ id := 0, slice := 0, stamp := ⟨0, 0⟩, ents := [(1, some ⟨false, 1, 0, []⟩)], cmd := cid0, delivery := none }] } }, 0, 1, { id := 0, slice := 0, stamp := ⟨0, 0⟩, ents := [(1, some ⟨false, 1, 0, []⟩)], cmd := cid0, delivery := none }, ⟨false, 1, 0, []⟩, (by first | decide +kernel | rfl), (by first | decide +kernel | rfl), (by first | decide +kernel | rfl), (by first | decide +kernel | rfl), (by first | decide +kernel | rfl)⟩,
   ⟨signing, signing.setKst { signing.kst with jobs := [] }, (State.moveData ((signing.setKst { signing.kst with jobs := [] }).ev 0x0A02 (cid0).slice) (cid0) true (State.cutRanges (adm0 true (entE 0xC2 0 0)).ent.dptr.ranges (([]) ++ padTo 49856 (Config.slhSign ([]))).length)).1, cid0, adm0 true (entE 0xC2 0 0), [], ([]) ++ padTo 49856 (Config.slhSign ([])), (by first | decide +kernel | rfl), (by first | decide +kernel | rfl), (by first | decide +kernel | rfl), rfl, (by first | decide +kernel | rfl), Prod.ext rfl (by decide +kernel)⟩,
   ⟨{ ready with kst := { state := .ready, jobs := [.enrol (leBytes 4 0x4D424531 ++ leBytes 2 1)] } }, leBytes 4 0x4D424531 ++ leBytes 2 1, 0, (by first | decide +kernel | rfl), (by first | decide +kernel | rfl), (by first | decide +kernel | rfl)⟩,
   ⟨ready, .port 0, (by unfold State.up; decide +kernel), (by simp only [State.honours]; decide +kernel), (by first | decide +kernel | rfl)⟩,
   ⟨ready, 6, (by first | decide +kernel | rfl), (by first | decide +kernel | rfl), (by first | decide +kernel | rfl)⟩⟩

set_option maxRecDepth 20000 in
theorem witness_InputOutputCommands :
    (∃ (s : State) (c : CmdId) (a : Adm) (ns : Ns) (v : State) (d bs : List BlockData), s.awaitsIo c 0x01 a ns ∧ s.faultInject = false ∧ s.moveData c false a.ent.dptr.ranges = (v, true) ∧ piIngress ns (piAsk a.ent (entryRef ns a.ent)) (v.blocksIn c.slice ns a.ent d) = .ok bs) ∧
    (∃ (s : State) (c : CmdId) (a : Adm) (ns : Ns) (v : State) (d : List BlockData) (st : Status), s.awaitsIo c 0x01 a ns ∧ s.faultInject = false ∧ s.moveData c false a.ent.dptr.ranges = (v, true) ∧ piIngress ns (piAsk a.ent (entryRef ns a.ent)) (v.blocksIn c.slice ns a.ent d) = .error st) ∧
    (∃ (s : State) (c : CmdId) (a : Adm) (ns : Ns) (v : State), s.awaitsIo c 0x01 a ns ∧ s.faultInject = false ∧ s.moveData c false a.ent.dptr.ranges = (v, false)) ∧
    (∃ (s : State) (c : CmdId) (a : Adm) (ns : Ns), s.awaitsIo c 0x08 a ns) ∧
    (∃ (s : State) (c : CmdId) (a : Adm) (ns : Ns) (rs : List LbaRange), s.awaitsIo c 0x09 a ns ∧ rs.length = natBits a.ent.cdw10.toNat 7 0 + 1 ∧ rs.all (fun r => decide (r.count = 0) || decide (r.slba + r.count ≤ ns.nsze)) = true) ∧
    (∃ (r : LbaRange), 0 < r.count) ∧
    (∃ (s : State) (c : CmdId) (a : Adm), c.slice < 512 ∧ s.adm? c = some a ∧ a.admin = false ∧ a.ent.opc = 0x00) ∧
    (∃ (s : State) (c : CmdId) (a : Adm) (ns : Ns) (fs : List State.Fate) (bs : _) (u : State) (v : _), s.awaitsIo c 0x02 a ns ∧ s.faultInject = false ∧ a.bad = none ∧ fs = (List.range (State.nlbOf a.ent)).map (fun i => s.fate c.slice a.ent.nsid ns a.stamp (State.slbaOf a.ent + i)) ∧ s.readMay c a = true ∧ fs.all (fun f => f.block.isSome && !f.isReserved) = true ∧ piEgress ns (piAsk a.ent (entryRef ns a.ent)) (fs.filterMap State.Fate.block) = .ok bs ∧ (fs.filterMap State.Fate.addr).eraseDups = [] ∧ u = s.modAdm c (fun _ => { a with stage := fs.any (fun f => f.addr.isNone), started := true, bufs := bs, waits := 0 }) ∧ State.moveData (u.unitsRead c.slice (State.nlbOf a.ent * lbaData ns.lbaf)) c true (State.cutRanges a.ent.dptr.ranges (State.blocksBytes bs).length) = (v, true)) ∧
    (∃ (s : State) (c : CmdId) (a : Adm) (ns : Ns) (fs : List State.Fate) (bs : _), s.awaitsIo c 0x02 a ns ∧ s.faultInject = false ∧ a.bad = none ∧ fs = (List.range (State.nlbOf a.ent)).map (fun i => s.fate c.slice a.ent.nsid ns a.stamp (State.slbaOf a.ent + i)) ∧ s.readMay c a = true ∧ fs.all (fun f => f.block.isSome && !f.isReserved) = true ∧ piEgress ns (piAsk a.ent (entryRef ns a.ent)) (fs.filterMap State.Fate.block) = .ok bs ∧ (fs.filterMap State.Fate.addr).eraseDups ≠ []) ∧
    (∃ (s : State) (c : CmdId) (a : Adm) (ns : Ns) (fs : List State.Fate) (bs : _) (u : State), s.awaitsIo c 0x0C a ns ∧ a.bad = none ∧ fs = (List.range (State.nlbOf a.ent)).map (fun i => s.fate c.slice a.ent.nsid ns a.stamp (State.slbaOf a.ent + i)) ∧ s.readMay c a = true ∧ fs.all (fun f => f.block.isSome && !f.isReserved) = true ∧ piEgress ns (piAsk a.ent (entryRef ns a.ent)) (fs.filterMap State.Fate.block) = .ok bs ∧ (fs.filterMap State.Fate.addr).eraseDups = [] ∧ u = s.modAdm c (fun _ => { a with stage := fs.any (fun f => f.addr.isNone), started := true, bufs := bs, waits := 0 })) ∧
    (∃ (s : State) (c : CmdId) (a : Adm) (ns : Ns) (w : State) (fs : List State.Fate) (d : _) (bs : _) (u : State), s.awaitsIo c 0x05 a ns ∧ s.faultInject = false ∧ a.bad = none ∧ s.readMay c a = true ∧ s.moveData c false a.ent.dptr.ranges = (w, true) ∧ fs = (List.range (State.nlbOf a.ent)).map (fun i => w.fate c.slice a.ent.nsid ns a.stamp (State.slbaOf a.ent + i)) ∧ fs.all (fun f => f.block.isSome && !f.isReserved) = true ∧ piEgress ns (piAsk a.ent (entryRef ns a.ent)) (fs.filterMap State.Fate.block) = .ok bs ∧ (fs.filterMap State.Fate.addr).eraseDups = [] ∧ bs = w.blocksIn c.slice ns a.ent d ∧ u = w.modAdm c (fun _ => { a with stage := fs.any (fun f => f.addr.isNone), started := true, bufs := [], waits := 0 })) ∧
    (∃ (s : State) (c : CmdId) (a : Adm) (ns : Ns) (w : State) (fs : List State.Fate) (d : _) (bs : _) (u : State), s.awaitsIo c 0x05 a ns ∧ s.faultInject = false ∧ a.bad = none ∧ s.readMay c a = true ∧ s.moveData c false a.ent.dptr.ranges = (w, true) ∧ fs = (List.range (State.nlbOf a.ent)).map (fun i => w.fate c.slice a.ent.nsid ns a.stamp (State.slbaOf a.ent + i)) ∧ fs.all (fun f => f.block.isSome && !f.isReserved) = true ∧ piEgress ns (piAsk a.ent (entryRef ns a.ent)) (fs.filterMap State.Fate.block) = .ok bs ∧ (fs.filterMap State.Fate.addr).eraseDups = [] ∧ bs ≠ w.blocksIn c.slice ns a.ent d ∧ u = w.modAdm c (fun _ => { a with stage := fs.any (fun f => f.addr.isNone), started := true, bad := some .compareFailure, waits := 0 })) ∧
    (∃ (s : State) (c : CmdId) (a : Adm) (ns : Ns), s.awaitsIo c 0x0D a ns ∧ natBits a.ent.cdw10.toNat 2 0 = 0 ∧ ns.resv.key = none) ∧
    (∃ (s : State) (c : CmdId) (a : Adm) (ns : Ns) (d : ResvKeys), s.awaitsIo c 0x11 a ns ∧ natBits a.ent.cdw10.toNat 2 0 = 0 ∧ ns.resv.key = some d.crkey ∧ 1 ≤ natBits a.ent.cdw10.toNat 15 8 ∧ natBits a.ent.cdw10.toNat 15 8 ≤ 6 ∧ ns.resv.held = false) ∧
    (∃ (s : State) (c : CmdId) (a : Adm) (ns : Ns) (d : ResvKeys), s.awaitsIo c 0x15 a ns ∧ natBits a.ent.cdw10.toNat 2 0 = 0 ∧ ns.resv.key = some d.crkey ∧ ns.resv.rtype = natBits a.ent.cdw10.toNat 15 8) ∧
    (∃ (s : State) (c : CmdId) (a : Adm) (ns : Ns) (v : State) (bs : Bytes), s.awaitsIo c 0x0E a ns ∧ bs = (State.resvReportBytes c.slice ns.resv (natBit a.ent.cdw11.toNat 0)).take (4 * (a.ent.cdw10.toNat + 1)) ∧ s.moveData c true (State.cutRanges a.ent.dptr.ranges bs.length) = (v, true)) ∧
    (∃ (s : State) (c : CmdId) (a : Adm) (ns : Ns) (w v : State) (bs : Bytes) (rs : List (LbaRange × Bool)) (l : List LbaRange) (tb : Tab Content), s.awaitsIo c 0x81 a ns ∧ (State.cutRanges a.ent.dptr.ranges (16 * State.postRanges a.ent)).all (fun r => s.inPortion c.slice r.1 r.2) = true ∧ (State.postData a).all (fun r => s.inPortion c.slice r.1 r.2) = true ∧ a.ranges = none ∧ s.cmbBad c.slice (State.cutRanges a.ent.dptr.ranges (16 * State.postRanges a.ent)) = false ∧ bs = s.gather c.slice a.ent.dptr.ranges [] ∧ rs = (List.range (State.postRanges a.ent)).map (State.rangeEntry bs) ∧ l = rs.map Prod.fst ∧ State.postChecks ns a.ent rs = none ∧ w = s.modAdm c (fun a => { a with ranges := some l }) ∧ w.moveData c false (State.postData a) = (v, true) ∧ State.postIngress ns a.ent l (splitBlocks (lbaData ns.lbaf) (linkMeta ns a.ent) (State.postTotal a.ent) (v.gather c.slice (State.postData a) [])) = .ok tb) ∧
    (∃ (s : State) (c : CmdId) (a : Adm) (ns : Ns) (w : State) (bs : Bytes) (rs : List (LbaRange × Bool)), s.awaitsIo c 0x81 a ns ∧ (State.cutRanges a.ent.dptr.ranges (16 * State.postRanges a.ent)).all (fun r => s.inPortion c.slice r.1 r.2) = true ∧ a.ranges = none ∧ s.cmbBad c.slice (State.cutRanges a.ent.dptr.ranges (16 * State.postRanges a.ent)) = false ∧ bs = s.gather c.slice a.ent.dptr.ranges [] ∧ rs = (List.range (State.postRanges a.ent)).map (State.rangeEntry bs) ∧ State.postChecks ns a.ent rs = none ∧ w = s.modAdm c (fun a => { a with ranges := some (rs.map Prod.fst) }) ∧ (State.postData a).all (fun r => s.inPortion c.slice r.1 r.2) = false) ∧
    (∃ (s : State) (c : CmdId) (a : Adm) (ns : Ns) (lst : Bytes) (d : List BlockData) (w v : State) (bs : Bytes) (rs : List (LbaRange × Bool)) (l : List LbaRange) (tb : Tab Content), s.awaitsIo c 0x81 a ns ∧ s.faultInject = false ∧ a.ranges = none ∧ s.cmbBad c.slice (State.cutRanges a.ent.dptr.ranges (16 * State.postRanges a.ent)) = false ∧ bs = s.gather c.slice a.ent.dptr.ranges (padTo (16 * State.postRanges a.ent) lst ++ State.blocksBytes d) ∧ rs = (List.range (State.postRanges a.ent)).map (State.rangeEntry bs) ∧ l = rs.map Prod.fst ∧ State.postChecks ns a.ent rs = none ∧ w = s.modAdm c (fun a => { a with ranges := some l }) ∧ w.moveData c false (State.postData a) = (v, true) ∧ State.postIngress ns a.ent l (splitBlocks (lbaData ns.lbaf) (linkMeta ns a.ent) (State.postTotal a.ent) (bs.drop (16 * State.postRanges a.ent))) = .ok tb) ∧
    (∃ (s : State) (c : CmdId) (a : Adm) (ns : Ns), s.awaitsIo c 0x81 a ns ∧ s.faultInject = false) :=
  ⟨⟨withIo ns0 (entE 0x01 0 0), cid0, adm0 false (entE 0x01 0 0), ns0, ((withIo ns0 (entE 0x01 0 0)).moveData (cid0) false (adm0 false (entE 0x01 0 0)).ent.dptr.ranges).1, [], _, (by unfold State.awaitsIo; decide +kernel), (by first | decide +kernel | rfl), Prod.ext rfl (by decide +kernel), rfl⟩,
   ⟨withIo ({ ns0 with lbaf := 2, dps := 1 }) ({ entE 0x01 0 0 with cdw12 := 0x04000000, cdw14 := 1 }), cid0, adm0 false ({ entE 0x01 0 0 with cdw12 := 0x04000000, cdw14 := 1 }), { ns0 with lbaf := 2, dps := 1 }, ((withIo ({ ns0 with lbaf := 2, dps := 1 }) ({ entE 0x01 0 0 with cdw12 := 0x04000000, cdw14 := 1 })).moveData (cid0) false (adm0 false ({ entE 0x01 0 0 with cdw12 := 0x04000000, cdw14 := 1 })).ent.dptr.ranges).1, [], _, (by unfold State.awaitsIo; decide +kernel), (by first | decide +kernel | rfl), Prod.ext rfl (by decide +kernel), rfl⟩,
   ⟨withIo ns0 (entD 0x01 0 0 512), cid0, adm0 false (entD 0x01 0 0 512), ns0, ((withIo ns0 (entD 0x01 0 0 512)).moveData (cid0) false (adm0 false (entD 0x01 0 0 512)).ent.dptr.ranges).1, (by unfold State.awaitsIo; decide +kernel), (by first | decide +kernel | rfl), Prod.ext rfl (by decide +kernel)⟩,
   ⟨withIo ns0 (entE 0x08 0 0), cid0, adm0 false (entE 0x08 0 0), ns0, (by unfold State.awaitsIo; decide +kernel)⟩,
   ⟨withIo ns0 (entE 0x09 0 0), cid0, adm0 false (entE 0x09 0 0), ns0, [⟨0, 64⟩], (by unfold State.awaitsIo; decide +kernel), (by first | decide +kernel | rfl), (by first | decide +kernel | rfl)⟩,
   ⟨⟨63, 1⟩, (by first | decide +kernel | rfl)⟩,
   ⟨withIo ns0 (entE 0x00 0 0), cid0, adm0 false (entE 0x00 0 0), (by first | decide +kernel | rfl), (by first | decide +kernel | rfl), (by first | decide +kernel | rfl), (by first | decide +kernel | rfl)⟩,
   ⟨withIo ns0 (entE 0x02 0 0), cid0, adm0 false (entE 0x02 0 0), ns0, (List.range (State.nlbOf (adm0 false (entE 0x02 0 0)).ent)).map (fun i => (withIo ns0 (entE 0x02 0 0)).fate (cid0).slice (adm0 false (entE 0x02 0 0)).ent.nsid (ns0) (adm0 false (entE 0x02 0 0)).stamp (State.slbaOf (adm0 false (entE 0x02 0 0)).ent + i)), [State.zeroBlock 0], (withIo ns0 (entE 0x02 0 0)).modAdm (cid0) (fun _ => { (adm0 false (entE 0x02 0 0)) with stage := ((List.range (State.nlbOf (adm0 false (entE 0x02 0 0)).ent)).map (fun i => (withIo ns0 (entE 0x02 0 0)).fate (cid0).slice (adm0 false (entE 0x02 0 0)).ent.nsid (ns0) (adm0 false (entE 0x02 0 0)).stamp (State.slbaOf (adm0 false (entE 0x02 0 0)).ent + i))).any (fun f => f.addr.isNone), started := true, bufs := ([State.zeroBlock 0]), waits := 0 }), (State.moveData (((withIo ns0 (entE 0x02 0 0)).modAdm (cid0) (fun _ => { (adm0 false (entE 0x02 0 0)) with stage := ((List.range (State.nlbOf (adm0 false (entE 0x02 0 0)).ent)).map (fun i => (withIo ns0 (entE 0x02 0 0)).fate (cid0).slice (adm0 false (entE 0x02 0 0)).ent.nsid (ns0) (adm0 false (entE 0x02 0 0)).stamp (State.slbaOf (adm0 false (entE 0x02 0 0)).ent + i))).any (fun f => f.addr.isNone), started := true, bufs := ([State.zeroBlock 0]), waits := 0 })).unitsRead (cid0).slice (State.nlbOf (adm0 false (entE 0x02 0 0)).ent * lbaData (ns0).lbaf)) (cid0) true (State.cutRanges (adm0 false (entE 0x02 0 0)).ent.dptr.ranges (State.blocksBytes ([State.zeroBlock 0])).length)).1, (by unfold State.awaitsIo; decide +kernel), (by first | decide +kernel | rfl), (by first | decide +kernel | rfl), rfl, (by first | decide +kernel | rfl), (by first | decide +kernel | rfl), (by first | decide +kernel | rfl), (by first | decide +kernel | rfl), rfl, Prod.ext rfl (by decide +kernel)⟩,
   ⟨{ withIo ns0 (entE 0x02 0 0) with ftl := { twoDies with coarse := [(0, 0x4000)], blks := [(1, { slots := [(0, ⟨0, 0, 0, ⟨0, 0⟩, 0, []⟩)] })] } }, cid0, adm0 false (entE 0x02 0 0), ns0, _, _, (by unfold State.awaitsIo; decide +kernel), (by first | decide +kernel | rfl), (by first | decide +kernel | rfl), rfl, (by first | decide +kernel | rfl), (by first | decide +kernel | rfl), rfl, (by first | decide +kernel | rfl)⟩,
   ⟨withIo ns0 (entE 0x0C 0 0), cid0, adm0 false (entE 0x0C 0 0), ns0, _, _, _, (by unfold State.awaitsIo; decide +kernel), (by first | decide +kernel | rfl), rfl, (by first | decide +kernel | rfl), (by first | decide +kernel | rfl), rfl, (by first | decide +kernel | rfl), rfl⟩,
   ⟨moving (withIo ns0 (entD 0x05 0 0 512)), cid0, adm0 false (entD 0x05 0 0 512), ns0, ((moving (withIo ns0 (entD 0x05 0 0 512))).moveData (cid0) false (adm0 false (entD 0x05 0 0 512)).ent.dptr.ranges).1, (List.range (State.nlbOf (adm0 false (entD 0x05 0 0 512)).ent)).map (fun i => (((moving (withIo ns0 (entD 0x05 0 0 512))).moveData (cid0) false (adm0 false (entD 0x05 0 0 512)).ent.dptr.ranges).1).fate (cid0).slice (adm0 false (entD 0x05 0 0 512)).ent.nsid (ns0) (adm0 false (entD 0x05 0 0 512)).stamp (State.slbaOf (adm0 false (entD 0x05 0 0 512)).ent + i)), [State.zeroBlock 0], [State.zeroBlock 0], (((moving (withIo ns0 (entD 0x05 0 0 512))).moveData (cid0) false (adm0 false (entD 0x05 0 0 512)).ent.dptr.ranges).1).modAdm (cid0) (fun _ => { (adm0 false (entD 0x05 0 0 512)) with stage := ((List.range (State.nlbOf (adm0 false (entD 0x05 0 0 512)).ent)).map (fun i => (((moving (withIo ns0 (entD 0x05 0 0 512))).moveData (cid0) false (adm0 false (entD 0x05 0 0 512)).ent.dptr.ranges).1).fate (cid0).slice (adm0 false (entD 0x05 0 0 512)).ent.nsid (ns0) (adm0 false (entD 0x05 0 0 512)).stamp (State.slbaOf (adm0 false (entD 0x05 0 0 512)).ent + i))).any (fun f => f.addr.isNone), started := true, bufs := [], waits := 0 }), (by unfold State.awaitsIo; decide +kernel), (by first | decide +kernel | rfl), (by first | decide +kernel | rfl), (by first | decide +kernel | rfl), Prod.ext rfl (by decide +kernel), rfl, (by first | decide +kernel | rfl), (by first | decide +kernel | rfl), (by first | decide +kernel | rfl), (by first | decide +kernel | rfl), rfl⟩,
   ⟨moving (withIo ns0 (entD 0x05 0 0 512)), cid0, adm0 false (entD 0x05 0 0 512), ns0, ((moving (withIo ns0 (entD 0x05 0 0 512))).moveData (cid0) false (adm0 false (entD 0x05 0 0 512)).ent.dptr.ranges).1, (List.range (State.nlbOf (adm0 false (entD 0x05 0 0 512)).ent)).map (fun i => (((moving (withIo ns0 (entD 0x05 0 0 512))).moveData (cid0) false (adm0 false (entD 0x05 0 0 512)).ent.dptr.ranges).1).fate (cid0).slice (adm0 false (entD 0x05 0 0 512)).ent.nsid (ns0) (adm0 false (entD 0x05 0 0 512)).stamp (State.slbaOf (adm0 false (entD 0x05 0 0 512)).ent + i)), [⟨List.replicate 512 1, []⟩], [State.zeroBlock 0], (((moving (withIo ns0 (entD 0x05 0 0 512))).moveData (cid0) false (adm0 false (entD 0x05 0 0 512)).ent.dptr.ranges).1).modAdm (cid0) (fun _ => { (adm0 false (entD 0x05 0 0 512)) with stage := ((List.range (State.nlbOf (adm0 false (entD 0x05 0 0 512)).ent)).map (fun i => (((moving (withIo ns0 (entD 0x05 0 0 512))).moveData (cid0) false (adm0 false (entD 0x05 0 0 512)).ent.dptr.ranges).1).fate (cid0).slice (adm0 false (entD 0x05 0 0 512)).ent.nsid (ns0) (adm0 false (entD 0x05 0 0 512)).stamp (State.slbaOf (adm0 false (entD 0x05 0 0 512)).ent + i))).any (fun f => f.addr.isNone), started := true, bad := some .compareFailure, waits := 0 }), (by unfold State.awaitsIo; decide +kernel), (by first | decide +kernel | rfl), (by first | decide +kernel | rfl), (by first | decide +kernel | rfl), Prod.ext rfl (by decide +kernel), rfl, (by first | decide +kernel | rfl), (by first | decide +kernel | rfl), (by first | decide +kernel | rfl), (by first | decide +kernel | rfl), rfl⟩,
   ⟨withIo ns0 (entE 0x0D 0 0), cid0, adm0 false (entE 0x0D 0 0), ns0, (by unfold State.awaitsIo; decide +kernel), (by first | decide +kernel | rfl), (by first | decide +kernel | rfl)⟩,
   ⟨withIo ({ ns0 with resv := { key := some 5 } }) (entE 0x11 0x600 0), cid0, adm0 false (entE 0x11 0x600 0), { ns0 with resv := { key := some 5 } }, ⟨5, 0⟩, (by unfold State.awaitsIo; decide +kernel), (by first | decide +kernel | rfl), (by first | decide +kernel | rfl), (by first | decide +kernel | rfl), (by first | decide +kernel | rfl), (by first | decide +kernel | rfl)⟩,
   ⟨withIo ({ ns0 with resv := { key := some 5, rtype := 6, held := true } }) (entE 0x15 0x600 0), cid0, adm0 false (entE 0x15 0x600 0), { ns0 with resv := { key := some 5, rtype := 6, held := true } }, ⟨5, 0⟩, (by unfold State.awaitsIo; decide +kernel), (by first | decide +kernel | rfl), (by first | decide +kernel | rfl), (by first | decide +kernel | rfl)⟩,
   ⟨withIo ns0 (entE 0x0E 0 0), cid0, adm0 false (entE 0x0E 0 0), ns0, ((withIo ns0 (entE 0x0E 0 0)).moveData (cid0) true (State.cutRanges (adm0 false (entE 0x0E 0 0)).ent.dptr.ranges ((State.resvReportBytes (cid0).slice (ns0).resv (natBit (adm0 false (entE 0x0E 0 0)).ent.cdw11.toNat 0)).take (4 * ((adm0 false (entE 0x0E 0 0)).ent.cdw10.toNat + 1))).length)).1, (State.resvReportBytes (cid0).slice (ns0).resv (natBit (adm0 false (entE 0x0E 0 0)).ent.cdw11.toNat 0)).take (4 * ((adm0 false (entE 0x0E 0 0)).ent.cdw10.toNat + 1)), (by unfold State.awaitsIo; decide +kernel), rfl, Prod.ext rfl (by decide +kernel)⟩,
   ⟨inCmb [(2 ^ 32, 528)], cid0, adm0 false (posting [(2 ^ 32, 528)]), ns0, (inCmb [(2 ^ 32, 528)]).modAdm (cid0) (fun a => { a with ranges := some (((List.range (State.postRanges (adm0 false (posting [(2 ^ 32, 528)])).ent)).map (State.rangeEntry ((inCmb [(2 ^ 32, 528)]).gather (cid0).slice (adm0 false (posting [(2 ^ 32, 528)])).ent.dptr.ranges []))).map Prod.fst) }), (((inCmb [(2 ^ 32, 528)]).modAdm (cid0) (fun a => { a with ranges := some (((List.range (State.postRanges (adm0 false (posting [(2 ^ 32, 528)])).ent)).map (State.rangeEntry ((inCmb [(2 ^ 32, 528)]).gather (cid0).slice (adm0 false (posting [(2 ^ 32, 528)])).ent.dptr.ranges []))).map Prod.fst) })).moveData (cid0) false (State.postData (adm0 false (posting [(2 ^ 32, 528)])))).1, (inCmb [(2 ^ 32, 528)]).gather (cid0).slice (adm0 false (posting [(2 ^ 32, 528)])).ent.dptr.ranges [], (List.range (State.postRanges (adm0 false (posting [(2 ^ 32, 528)])).ent)).map (State.rangeEntry ((inCmb [(2 ^ 32, 528)]).gather (cid0).slice (adm0 false (posting [(2 ^ 32, 528)])).ent.dptr.ranges [])), ((List.range (State.postRanges (adm0 false (posting [(2 ^ 32, 528)])).ent)).map (State.rangeEntry ((inCmb [(2 ^ 32, 528)]).gather (cid0).slice (adm0 false (posting [(2 ^ 32, 528)])).ent.dptr.ranges []))).map Prod.fst, _, (by unfold State.awaitsIo; decide +kernel), (by first | decide +kernel | rfl), (by first | decide +kernel | rfl), (by first | decide +kernel | rfl), (by first | decide +kernel | rfl), rfl, rfl, rfl, (by first | decide +kernel | rfl), rfl, Prod.ext rfl (by decide +kernel), (by first | decide +kernel | rfl)⟩,
   ⟨inCmb [(2 ^ 32, 16), (2 ^ 40, 512)], cid0, adm0 false (posting [(2 ^ 32, 16), (2 ^ 40, 512)]), ns0, (inCmb [(2 ^ 32, 16), (2 ^ 40, 512)]).modAdm (cid0) (fun a => { a with ranges := some (((List.range (State.postRanges (adm0 false (posting [(2 ^ 32, 16), (2 ^ 40, 512)])).ent)).map (State.rangeEntry ((inCmb [(2 ^ 32, 16), (2 ^ 40, 512)]).gather (cid0).slice (adm0 false (posting [(2 ^ 32, 16), (2 ^ 40, 512)])).ent.dptr.ranges []))).map Prod.fst) }), (inCmb [(2 ^ 32, 16), (2 ^ 40, 512)]).gather (cid0).slice (adm0 false (posting [(2 ^ 32, 16), (2 ^ 40, 512)])).ent.dptr.ranges [], (List.range (State.postRanges (adm0 false (posting [(2 ^ 32, 16), (2 ^ 40, 512)])).ent)).map (State.rangeEntry ((inCmb [(2 ^ 32, 16), (2 ^ 40, 512)]).gather (cid0).slice (adm0 false (posting [(2 ^ 32, 16), (2 ^ 40, 512)])).ent.dptr.ranges [])), (by unfold State.awaitsIo; decide +kernel), (by first | decide +kernel | rfl), (by first | decide +kernel | rfl), (by first | decide +kernel | rfl), rfl, rfl, (by first | decide +kernel | rfl), rfl, (by first | decide +kernel | rfl)⟩,
   ⟨moving (withIo ns0 (entD 0x81 1 0 528)), cid0, adm0 false (entD 0x81 1 0 528), ns0, [], [State.zeroBlock 0], (moving (withIo ns0 (entD 0x81 1 0 528))).modAdm (cid0) (fun a => { a with ranges := some (((List.range (State.postRanges (adm0 false (entD 0x81 1 0 528)).ent)).map (State.rangeEntry ((moving (withIo ns0 (entD 0x81 1 0 528))).gather (cid0).slice (adm0 false (entD 0x81 1 0 528)).ent.dptr.ranges (padTo (16 * State.postRanges (adm0 false (entD 0x81 1 0 528)).ent) ([]) ++ State.blocksBytes ([State.zeroBlock 0]))))).map Prod.fst) }), (((moving (withIo ns0 (entD 0x81 1 0 528))).modAdm (cid0) (fun a => { a with ranges := some (((List.range (State.postRanges (adm0 false (entD 0x81 1 0 528)).ent)).map (State.rangeEntry ((moving (withIo ns0 (entD 0x81 1 0 528))).gather (cid0).slice (adm0 false (entD 0x81 1 0 528)).ent.dptr.ranges (padTo (16 * State.postRanges (adm0 false (entD 0x81 1 0 528)).ent) ([]) ++ State.blocksBytes ([State.zeroBlock 0]))))).map Prod.fst) })).moveData (cid0) false (State.postData (adm0 false (entD 0x81 1 0 528)))).1, (moving (withIo ns0 (entD 0x81 1 0 528))).gather (cid0).slice (adm0 false (entD 0x81 1 0 528)).ent.dptr.ranges (padTo (16 * State.postRanges (adm0 false (entD 0x81 1 0 528)).ent) ([]) ++ State.blocksBytes ([State.zeroBlock 0])), (List.range (State.postRanges (adm0 false (entD 0x81 1 0 528)).ent)).map (State.rangeEntry ((moving (withIo ns0 (entD 0x81 1 0 528))).gather (cid0).slice (adm0 false (entD 0x81 1 0 528)).ent.dptr.ranges (padTo (16 * State.postRanges (adm0 false (entD 0x81 1 0 528)).ent) ([]) ++ State.blocksBytes ([State.zeroBlock 0])))), ((List.range (State.postRanges (adm0 false (entD 0x81 1 0 528)).ent)).map (State.rangeEntry ((moving (withIo ns0 (entD 0x81 1 0 528))).gather (cid0).slice (adm0 false (entD 0x81 1 0 528)).ent.dptr.ranges (padTo (16 * State.postRanges (adm0 false (entD 0x81 1 0 528)).ent) ([]) ++ State.blocksBytes ([State.zeroBlock 0]))))).map Prod.fst, _, (by unfold State.awaitsIo; decide +kernel), (by first | decide +kernel | rfl), (by first | decide +kernel | rfl), (by first | decide +kernel | rfl), rfl, rfl, rfl, (by first | decide +kernel | rfl), rfl, Prod.ext rfl (by decide +kernel), rfl⟩,
   ⟨withIo ns0 (entD 0x81 1 0 528), cid0, adm0 false (entD 0x81 1 0 528), ns0, (by unfold State.awaitsIo; decide +kernel), (by first | decide +kernel | rfl)⟩⟩

theorem witness_WriteBufferEvents :
    (∃ (s : State) (n id : Nat) (e : Entry) (c : CmdId) (a : Adm), n < 512 ∧ (s.slice n).entries.find? (fun e => e.id = id) = some e ∧ s.visibleDue e = true ∧ e.cmd = some c ∧ s.adm? c = some a ∧ e.dsm = false ∧ a.stage = false ∧ e.paired = false ∧ e.post = false) ∧
    (∃ (s : State) (n id : Nat) (e : Entry) (ns : Ns), n < 512 ∧ s.faultInject = false ∧ (s.slice n).entries.find? (fun e => e.id = id) = some e ∧ s.flushEligible n e = true ∧ s.wbf.pfTaken = false ∧ State.olderReadWaits (s.slice n) e = false ∧ s.entryBusy n e = false ∧ State.trimPending (s.slice n) e.nsid = false ∧ tget (s.slice n).nss e.nsid = some ns) ∧
    (∃ (s : State) (n id : Nat) (e : Entry) (ns : Ns) (w : State) (trims : List JEnt), n < 512 ∧ s.faultInject = false ∧ (s.slice n).entries.find? (fun e => e.id = id) = some e ∧ s.flushEligible n e = true ∧ s.wbf.pfTaken = false ∧ State.olderReadWaits (s.slice n) e = false ∧ s.entryBusy n e = false ∧ State.trimPending (s.slice n) e.nsid = false ∧ tget (s.slice n).nss e.nsid = some ns ∧ w = s.modSlice n (fun x => { x with entries := x.entries.map (fun f => if f.id = e.id then { f with flushing := true } else f) }) ∧ trims = (State.entryUnits ns e).flatMap (fun u => w.trimUnit n ns e u) ∧ (State.untrimmed ns e trims).blocks = [] ∧ trims ≠ [] ∧ e.post = false ∧ w.entryLives n e.id = true ∧ trims.length ≤ 64) ∧
    (∃ (s : State) (r : JRec) (rest : List JRec) (n id : Nat), s.ftl.journal = r :: rest ∧ r.covers = [(n, id, none)] ∧ s.entryLives n id = true ∧ r.type ≠ 0x0A ∧ s.sysPairs ≠ []) :=
  ⟨⟨{ withIo ns0 (entE 0x01 0 0) with stride := 1, wbf := { armed := true }, slices := [(0, { st := .active, adms := [adm0 false (entE 0x01 0 0)], entries := [{ id := 3, nsid := 1, stamp := ⟨0, 0⟩, blocks := [], charge := 1, wt := false, post := false, cmd := some cid0, ready := some 0, visible := none }] })] }, 0, 3, { id := 3, nsid := 1, stamp := ⟨0, 0⟩, blocks := [], charge := 1, wt := false, post := false, cmd := some cid0, ready := some 0, visible := none }, cid0, adm0 false (entE 0x01 0 0), (by first | decide +kernel | rfl), (by first | decide +kernel | rfl), (by first | decide +kernel | rfl), (by first | decide +kernel | rfl), (by first | decide +kernel | rfl), (by first | decide +kernel | rfl), (by first | decide +kernel | rfl), (by first | decide +kernel | rfl), (by first | decide +kernel | rfl)⟩,
   ⟨withSlice { st := .active, nss := [(1, ns0)], entries := [{ id := 3, nsid := 1, stamp := ⟨0, 0⟩, blocks := [(0, .zero)], charge := 1, wt := true, post := false, cmd := none, ready := some 0, visible := none }] }, 0, 3, { id := 3, nsid := 1, stamp := ⟨0, 0⟩, blocks := [(0, .zero)], charge := 1, wt := true, post := false, cmd := none, ready := some 0, visible := none }, ns0, (by first | decide +kernel | rfl), (by first | decide +kernel | rfl), (by first | decide +kernel | rfl), (by first | decide +kernel | rfl), (by first | decide +kernel | rfl), (by first | decide +kernel | rfl), (by first | decide +kernel | rfl), (by first | decide +kernel | rfl), (by first | decide +kernel | rfl)⟩,
   ⟨withSlice { st := .active, nss := [(1, ns1)], entries := [{ id := 3, nsid := 1, stamp := ⟨0, 0⟩, blocks := [(0, .dealloc)], charge := 1, wt := true, post := false, cmd := none, ready := some 0, visible := none }] }, 0, 3, ({ id := 3, nsid := 1, stamp := ⟨0, 0⟩, blocks := [(0, .dealloc)], charge := 1, wt := true, post := false, cmd := none, ready := some 0, visible := none } : Entry), ns1, (withSlice { st := .active, nss := [(1, ns1)], entries := [{ id := 3, nsid := 1, stamp := ⟨0, 0⟩, blocks := [(0, .dealloc)], charge := 1, wt := true, post := false, cmd := none, ready := some 0, visible := none }] }).modSlice (0) (fun x => { x with entries := x.entries.map (fun f => if f.id = (({ id := 3, nsid := 1, stamp := ⟨0, 0⟩, blocks := [(0, .dealloc)], charge := 1, wt := true, post := false, cmd := none, ready := some 0, visible := none } : Entry)).id then { f with flushing := true } else f) }), [⟨0, 0xFF, unmapped, unmapped⟩], (by first | decide +kernel | rfl), (by first | decide +kernel | rfl), (by first | decide +kernel | rfl), (by first | decide +kernel | rfl), (by first | decide +kernel | rfl), (by first | decide +kernel | rfl), (by first | decide +kernel | rfl), (by first | decide +kernel | rfl), (by first | decide +kernel | rfl), rfl, (by first | decide +kernel | rfl), (by first | decide +kernel | rfl), (by first | decide +kernel | rfl), (by first | decide +kernel | rfl), (by first | decide +kernel | rfl), (by first | decide +kernel | rfl)⟩,
   ⟨{ withSlice { st := .active, entries := [{ id := 3, nsid := 1, stamp := ⟨0, 0⟩, blocks := [(0, .zero)], charge := 1, wt := true, post := false, cmd := none, ready := some 0, visible := none }] } with ftl := { twoDies with journal := [⟨1, 1, false, none, 0, [], [(0, 3, none)], none⟩] } }, ⟨1, 1, false, none, 0, [], [(0, 3, none)], none⟩, [], 0, 3, (by first | decide +kernel | rfl), (by first | decide +kernel | rfl), (by first | decide +kernel | rfl), (by first | decide +kernel | rfl), (by first | decide +kernel | rfl)⟩⟩

theorem witness_HeatCommands :
    (∃ (s : State) (c : CmdId) (a : Adm), s.awaitsAdmin c 0xC5 a ∧ a.ent.nsid = 0 ∧ natBits a.ent.cdw10.toNat 31 4 = 0 ∧ a.ent.cdw12 = 0 ∧ a.ent.cdw13 = 0 ∧ a.ent.cdw14 = 0 ∧ a.ent.cdw15 = 0 ∧ a.ent.cdw11 = 0 ∧ a.ent.dptr.ranges.all (fun r => decide (r.1 = 0)) = true) ∧
    (∃ (s : State) (c : CmdId) (a : Adm) (v : State) (d bs : Bytes) (len slot : Nat), s.awaitsAdmin c 0xC5 a ∧ a.ent.nsid = 0 ∧ natBits a.ent.cdw10.toNat 31 4 = 0 ∧ a.ent.cdw12 = 0 ∧ a.ent.cdw13 = 0 ∧ a.ent.cdw14 = 0 ∧ a.ent.cdw15 = 0 ∧ len = a.ent.cdw11.toNat ∧ slot = natBits a.ent.cdw10.toNat 3 0 ∧ 66 ≤ len ∧ len ≤ 258112 ∧ s.moveData c false a.ent.dptr.ranges = (v, true) ∧ bs = padTo len (v.gather c.slice a.ent.dptr.ranges d) ∧ State.imageBad bs len = none) ∧
    (∃ (s : State) (c : CmdId) (a : Adm), s.awaitsEngine c 0x86 a ∧ s.heatChecks1 c.slice a.ent = none ∧ s.heat? c = none) ∧
    (∃ (s : State) (c : CmdId) (a : Adm) (st : Status), s.awaitsEngine c 0x86 a ∧ s.heatChecks1 c.slice a.ent = some st) ∧
    (∃ (s : State) (c : CmdId) (a : Adm) (h : Heat) (d : Fetch) (bs : Bytes) (h' : Heat), s.awaitsEngine c 0x86 a ∧ s.heat? c = some h ∧ h.st = .checking ∧ s.loadPending c.slice a.stamp = false ∧ s.readIn c.slice (State.descAddr a.ent) (64 + 32 * State.extentCount a.ent) d = .ok bs ∧ s.heatChecks2 c a bs = .ok h' ∧ s.up) ∧
    (∃ (s : State) (c : CmdId) (a : Adm) (h : Heat) (d : Fetch) (bs : Bytes) (st : Status), s.awaitsEngine c 0x86 a ∧ s.heat? c = some h ∧ h.st = .checking ∧ s.loadPending c.slice a.stamp = false ∧ s.readIn c.slice (State.descAddr a.ent) (64 + 32 * State.extentCount a.ent) d = .ok bs ∧ s.heatChecks2 c a bs = .error st) ∧
    (∃ (s u : State) (c : CmdId) (h h' : Heat) (a a' : Adm), c.slice < 512 ∧ s.heat? c = some h ∧ s.adm? c = some a ∧ a.id = c ∧ h.st = .staging ∧ s.heatStage h = u ∧ u.heat? c = some h' ∧ u.adm? c = some a' ∧ h'.staged = true ∧ a'.waits = 0 ∧ a'.bad = none) ∧
    (∃ (s u : State) (c : CmdId) (h h' : Heat) (a a' : Adm) (st : _), c.slice < 512 ∧ s.heat? c = some h ∧ s.adm? c = some a ∧ a.id = c ∧ h.st = .staging ∧ s.heatStage h = u ∧ u.heat? c = some h' ∧ u.adm? c = some a' ∧ h'.staged = true ∧ a'.waits = 0 ∧ a'.bad = some st) ∧
    (∃ (h : Heat), h.st = .staging ∧ h.staged = true) ∧
    (∃ (s : State) (c : CmdId) (h : Heat), c.slice < 512 ∧ s.heat? c = some h ∧ h.st = .waitCores ∧ s.mayLoad h = true) ∧
    (∃ (s : State) (c : CmdId) (h : Heat) (img : Program), c.slice < 512 ∧ s.faultInject = false ∧ s.heat? c = some h ∧ h.st = .loading ∧ h.image = some img) ∧
    (∃ (s : State) (c : CmdId) (h : Heat) (img : Program) (k : Nat), c.slice < 512 ∧ s.faultInject = false ∧ s.heat? c = some h ∧ h.st = .loading ∧ h.image = some img ∧ h.cores = [k]) ∧
    (∃ (s : State) (c : CmdId) (h : Heat) (a : Adm) (v u : State) (bs : Bytes), c.slice < 512 ∧ s.heat? c = some h ∧ s.adm? c = some a ∧ h.st = .delivering ∧ h.exitN ≤ h.resultBytes ∧ s.moveData c true (State.cutRanges a.ent.dptr.ranges h.exitN) = (v, true) ∧ v.memRead dramArr (v.heatBase (v.slice c.slice) + h.resultOffset) h.exitN = (u, bs, false)) ∧
    (∃ (s : State) (c : CmdId) (h : Heat) (a : Adm), c.slice < 512 ∧ s.heat? c = some h ∧ s.adm? c = some a ∧ h.st = .delivering ∧ h.resultBytes < h.exitN) ∧
    (∃ (s : State) (p n : Nat), p < 2 ∧ n < 512 ∧ s.up ∧ s.windowLive p n = true) :=
  ⟨⟨withAdmin {  } ({ entE 0xC5 0 0 with nsid := 0 }), cid0, adm0 true ({ entE 0xC5 0 0 with nsid := 0 }), (by unfold State.awaitsAdmin; decide +kernel), (by first | decide +kernel | rfl), (by first | decide +kernel | rfl), (by first | decide +kernel | rfl), (by first | decide +kernel | rfl), (by first | decide +kernel | rfl), (by first | decide +kernel | rfl), (by first | decide +kernel | rfl), (by first | decide +kernel | rfl)⟩,
   ⟨moving (withAdmin {  } ({ entD 0xC5 0 66 66 with nsid := 0 })), cid0, adm0 true ({ entD 0xC5 0 66 66 with nsid := 0 }), ((moving (withAdmin {  } ({ entD 0xC5 0 66 66 with nsid := 0 }))).moveData (cid0) false (adm0 true ({ entD 0xC5 0 66 66 with nsid := 0 })).ent.dptr.ranges).1, leBytes 4 0x4D424831 ++ leBytes 4 1 ++ leBytes 4 2 ++ List.replicate 8 0 ++ [1, 1, 64], padTo (66) ((((moving (withAdmin {  } ({ entD 0xC5 0 66 66 with nsid := 0 }))).moveData (cid0) false (adm0 true ({ entD 0xC5 0 66 66 with nsid := 0 })).ent.dptr.ranges).1).gather (cid0).slice (adm0 true ({ entD 0xC5 0 66 66 with nsid := 0 })).ent.dptr.ranges (leBytes 4 0x4D424831 ++ leBytes 4 1 ++ leBytes 4 2 ++ List.replicate 8 0 ++ [1, 1, 64])), 66, 0, (by unfold State.awaitsAdmin; decide +kernel), (by first | decide +kernel | rfl), (by first | decide +kernel | rfl), (by first | decide +kernel | rfl), (by first | decide +kernel | rfl), (by first | decide +kernel | rfl), (by first | decide +kernel | rfl), (by first | decide +kernel | rfl), (by first | decide +kernel | rfl), (by first | decide +kernel | rfl), (by first | decide +kernel | rfl), Prod.ext rfl (by decide +kernel), rfl, (by first | decide +kernel | rfl)⟩,
   ⟨{ withHeat {} ({ entE 0x86 0 0 with nsid := 0, cdw13 := 0x100 }) (heat0 .checking) with heats := [] }, cid0, adm0 false ({ entE 0x86 0 0 with nsid := 0, cdw13 := 0x100 }), (by unfold State.awaitsEngine; decide +kernel), (by first | decide +kernel | rfl), (by first | decide +kernel | rfl)⟩,
   ⟨withHeat {  } (entE 0x86 0 0) { heat0 .checking with laps := 0 }, cid0, adm0 false (entE 0x86 0 0), .invalidField, (by unfold State.awaitsEngine; decide +kernel), (by first | decide +kernel | rfl)⟩,
   ⟨{ withSlice { st := .active, cores := [0], dramMib := 64, mediaKey := some 0, adms := [{ adm0 false (entE 0x86 0 0) with stamp := ⟨0, 1⟩ }] } with heats := [heat0 .checking], heatRegs := [(0, { programs := [(0, [⟨⟨0, 0⟩, some prog0⟩])] })] }, cid0, { adm0 false (entE 0x86 0 0) with stamp := ⟨0, 1⟩ }, heat0 .checking, .ok [0, 0, 1], padTo 64 [0, 0, 1], { heat0 .staging with stamp := ⟨0, 1⟩, image := some prog0, cores := [0], param := [0, 0, 0, 0] }, (by unfold State.awaitsEngine; decide +kernel), (by first | decide +kernel | rfl), (by first | decide +kernel | rfl), (by first | decide +kernel | rfl), (by first | decide +kernel | rfl), (by first | decide +kernel | rfl), (by unfold State.up; decide +kernel)⟩,
   ⟨{ withSlice { st := .active, cores := [0], dramMib := 64, mediaKey := some 0, adms := [{ adm0 false (entE 0x86 0 0) with stamp := ⟨0, 1⟩ }] } with heats := [heat0 .checking], heatRegs := [(0, { programs := [(0, [⟨⟨0, 0⟩, some prog0⟩])] })] }, cid0, { adm0 false (entE 0x86 0 0) with stamp := ⟨0, 1⟩ }, heat0 .checking, .ok [0, 0, 0], padTo 64 [0, 0, 0], .invalidField, (by unfold State.awaitsEngine; decide +kernel), (by first | decide +kernel | rfl), (by first | decide +kernel | rfl), (by first | decide +kernel | rfl), (by first | decide +kernel | rfl), (by first | decide +kernel | rfl)⟩,
   ⟨{ withSlice { st := .active, cores := [0], dramMib := 64, mediaKey := some 0, adms := [{ adm0 false (entE 0x86 0 0) with waits := 0 }] } with heats := [{ heat0 .staging with staged := true }], heatRegs := [(0, { programs := [(0, [⟨⟨0, 0⟩, some prog0⟩])] })] }, { withSlice { st := .active, cores := [0], dramMib := 64, mediaKey := some 0, adms := [{ adm0 false (entE 0x86 0 0) with waits := 0 }] } with heats := [{ heat0 .staging with staged := true }], heatRegs := [(0, { programs := [(0, [⟨⟨0, 0⟩, some prog0⟩])] })] }, cid0, _, _, _, _, (by first | decide +kernel | rfl), rfl, rfl, (by first | decide +kernel | rfl), (by first | decide +kernel | rfl), (by first | decide +kernel | rfl), rfl, rfl, (by first | decide +kernel | rfl), (by first | decide +kernel | rfl), (by first | decide +kernel | rfl)⟩,
   ⟨{ withSlice { st := .active, cores := [0], dramMib := 64, mediaKey := some 0, adms := [{ adm0 false (entE 0x86 0 0) with bad := some .unrecoveredRead }] } with heats := [{ heat0 .staging with staged := true }], heatRegs := [(0, { programs := [(0, [⟨⟨0, 0⟩, some prog0⟩])] })] }, { withSlice { st := .active, cores := [0], dramMib := 64, mediaKey := some 0, adms := [{ adm0 false (entE 0x86 0 0) with bad := some .unrecoveredRead }] } with heats := [{ heat0 .staging with staged := true }], heatRegs := [(0, { programs := [(0, [⟨⟨0, 0⟩, some prog0⟩])] })] }, cid0, _, _, _, _, _, (by first | decide +kernel | rfl), rfl, rfl, (by first | decide +kernel | rfl), (by first | decide +kernel | rfl), (by first | decide +kernel | rfl), rfl, rfl, (by first | decide +kernel | rfl), (by first | decide +kernel | rfl), rfl⟩,
   ⟨{ heat0 .staging with staged := true }, (by first | decide +kernel | rfl), (by first | decide +kernel | rfl)⟩,
   ⟨{ { withSlice { st := .active, cores := [0], dramMib := 64, mediaKey := some 0, adms := [{ adm0 false (entE 0x86 0 0) with waits := 0 }] } with heats := [{ heat0 .waitCores with cores := [0] }], heatRegs := [(0, { programs := [(0, [⟨⟨0, 0⟩, some prog0⟩])] })] } with pwr := { clusterPll := 255 } }, cid0, { heat0 .waitCores with cores := [0] }, (by first | decide +kernel | rfl), (by first | decide +kernel | rfl), (by first | decide +kernel | rfl), (by first | decide +kernel | rfl)⟩,
   ⟨{ withSlice { st := .active, cores := [0], dramMib := 64, mediaKey := some 0, adms := [{ adm0 false (entE 0x86 0 0) with waits := 0 }] } with heats := [{ heat0 .loading with image := some prog0 }], heatRegs := [(0, { programs := [(0, [⟨⟨0, 0⟩, some prog0⟩])] })] }, cid0, _, _, (by first | decide +kernel | rfl), (by first | decide +kernel | rfl), rfl, (by first | decide +kernel | rfl), rfl⟩,
   ⟨{ withSlice { st := .active, cores := [0], dramMib := 64, mediaKey := some 0, adms := [{ adm0 false (entE 0x86 0 0) with waits := 0 }] } with heats := [{ heat0 .loading with cores := [0], image := some prog0 }], heatRegs := [(0, { programs := [(0, [⟨⟨0, 0⟩, some prog0⟩])] })] }, cid0, _, _, 0, (by first | decide +kernel | rfl), (by first | decide +kernel | rfl), rfl, (by first | decide +kernel | rfl), rfl, (by first | decide +kernel | rfl)⟩,
   ⟨{ withSlice { st := .active, cores := [0], dramMib := 64, mediaKey := some 0, adms := [{ adm0 false (entE 0x86 0 0) with waits := 0 }] } with heats := [heat0 .delivering], heatRegs := [(0, { programs := [(0, [⟨⟨0, 0⟩, some prog0⟩])] })] }, cid0, heat0 .delivering, { adm0 false (entE 0x86 0 0) with waits := 0 }, (({ withSlice { st := .active, cores := [0], dramMib := 64, mediaKey := some 0, adms := [{ adm0 false (entE 0x86 0 0) with waits := 0 }] } with heats := [heat0 .delivering], heatRegs := [(0, { programs := [(0, [⟨⟨0, 0⟩, some prog0⟩])] })] }).moveData (cid0) true (State.cutRanges ({ adm0 false (entE 0x86 0 0) with waits := 0 }).ent.dptr.ranges (heat0 .delivering).exitN)).1, _, [], (by first | decide +kernel | rfl), (by first | decide +kernel | rfl), (by first | decide +kernel | rfl), (by first | decide +kernel | rfl), (by first | decide +kernel | rfl), Prod.ext rfl (by decide +kernel), rfl⟩,
   ⟨{ withSlice { st := .active, cores := [0], dramMib := 64, mediaKey := some 0, adms := [{ adm0 false (entE 0x86 0 0) with waits := 0 }] } with heats := [{ heat0 .delivering with exitN := 1 }], heatRegs := [(0, { programs := [(0, [⟨⟨0, 0⟩, some prog0⟩])] })] }, cid0, _, _, (by first | decide +kernel | rfl), rfl, rfl, (by first | decide +kernel | rfl), (by first | decide +kernel | rfl)⟩,
   ⟨withSlice { st := .active }, 0, 0, (by first | decide +kernel | rfl), (by first | decide +kernel | rfl), (by unfold State.up; decide +kernel), (by first | decide +kernel | rfl)⟩⟩

set_option maxRecDepth 20000 in
theorem witness_HurdleCommands :
    (∃ (s : State) (c : CmdId) (a : Adm), s.awaitsEngine c 0x8A a ∧ s.hurdleChecks1 c.slice a.ent = none ∧ s.hdl.scans.any (fun r => r.id = c) = false) ∧
    (∃ (s : State) (c : CmdId) (a : Adm) (st : Status), s.awaitsEngine c 0x8A a ∧ s.hurdleChecks1 c.slice a.ent = some st) ∧
    (∃ (s : State) (c : CmdId) (a : Adm) (f : Fetch) (d : Bytes) (ns : Ns) (rs : List (LbaRange × Bool)), s.awaitsEngine c 0x8A a ∧ s.faultInject = false ∧ s.hdl.scans.any (fun r => r.id = c) = true ∧ s.hdl.scans.any (fun r => r.id = c && r.desc.isSome) = false ∧ s.readIn c.slice (State.descAddr a.ent) (0x780 + 16 * hNext a.ent) f = .ok d ∧ tget (s.slice c.slice).nss a.ent.nsid = some ns ∧ hurdleBad d (hNext a.ent) = none ∧ rs = hRanges d (hNext a.ent) ∧ (hEnable d = true → (s.slice c.slice).search ≠ []) ∧ rs.all (fun r => r.2) = true ∧ lsum (rs.map (fun r => r.1.count * lbaData ns.lbaf)) = hInput d ∧ (hRecFmt d = 0 → hDecomp d = 0 → (hInput d - hSkip d) % hRecLen d = 0) ∧ rs.all (fun r => decide (r.1.slba + r.1.count ≤ ns.nsze)) = true) ∧
    (∃ (s : State) (c : CmdId) (a : Adm) (f : Fetch) (d : Bytes) (ns : Ns) (o : Nat), s.awaitsEngine c 0x8A a ∧ s.faultInject = false ∧ s.hdl.scans.any (fun r => r.id = c) = true ∧ s.hdl.scans.any (fun r => r.id = c && r.desc.isSome) = false ∧ s.readIn c.slice (State.descAddr a.ent) (0x780 + 16 * hNext a.ent) f = .ok d ∧ tget (s.slice c.slice).nss a.ent.nsid = some ns ∧ hurdleBad d (hNext a.ent) = some o) ∧
    (∃ (s : State) (p n : Nat), p < 2 ∧ n < 512 ∧ s.up ∧ s.windowLive p n = true) :=
  ⟨⟨scanning, cid0, adm0 false ({ entE 0x8A 0 0 with cdw14 := 64 }), (by unfold State.awaitsEngine; decide +kernel), (by first | decide +kernel | rfl), (by first | decide +kernel | rfl)⟩,
   ⟨withIo ns0 (entE 0x8A 0 0), cid0, adm0 false (entE 0x8A 0 0), .invalidField, (by unfold State.awaitsEngine; decide +kernel), (by first | decide +kernel | rfl)⟩,
   ⟨{ scanning with hdl := { scans := [{ id := cid0, stamp := ⟨0, 0⟩ }] } }, cid0, adm0 false ({ entE 0x8A 0 0 with cdw14 := 64 }), .ok hdesc, hdesc, ns0, _, (by unfold State.awaitsEngine; decide +kernel), (by first | decide +kernel | rfl), (by first | decide +kernel | rfl), (by first | decide +kernel | rfl), (by first | decide +kernel | rfl), (by first | decide +kernel | rfl), (by first | decide +kernel | rfl), (by first | decide +kernel | rfl), (by first | decide +kernel | rfl), (by decide +kernel), (by first | decide +kernel | rfl), (by first | decide +kernel | rfl), (by first | decide +kernel | rfl)⟩,
   ⟨{ scanning with hdl := { scans := [{ id := cid0, stamp := ⟨0, 0⟩ }] } }, cid0, adm0 false ({ entE 0x8A 0 0 with cdw14 := 64 }), .ok [], padTo 1920 [], ns0, 4, (by unfold State.awaitsEngine; decide +kernel), (by first | decide +kernel | rfl), (by first | decide +kernel | rfl), (by first | decide +kernel | rfl), (by first | decide +kernel | rfl), (by first | decide +kernel | rfl), (by first | decide +kernel | rfl)⟩,
   ⟨withSlice { st := .active }, 0, 0, (by first | decide +kernel | rfl), (by first | decide +kernel | rfl), (by unfold State.up; decide +kernel), (by first | decide +kernel | rfl)⟩⟩

set_option maxRecDepth 20000 in
theorem witness_PatternCommands :
    (∃ (s : State) (c : CmdId) (a : Adm), s.awaitsEngine c 0x8D a ∧ s.patChecks1 c.slice a.ent = none ∧ s.pat.runs.any (fun r => r.id = c) = false) ∧
    (∃ (s : State) (c : CmdId) (a : Adm), s.awaitsEngine c 0x91 a ∧ s.patChecks1 c.slice a.ent = none ∧ s.pat.runs.any (fun r => r.id = c) = false) ∧
    (∃ (s : State) (c : CmdId) (a : Adm) (st : Status), s.awaitsEngine c 0x8D a ∧ s.patChecks1 c.slice a.ent = some st) ∧
    (∃ (s : State) (c : CmdId) (a : Adm) (st : Status), s.awaitsEngine c 0x91 a ∧ s.patChecks1 c.slice a.ent = some st) ∧
    (∃ (s : State) (c : CmdId) (a : Adm) (r : PatRun) (slot : Nat) (hdr input : Fetch) (cur : Option (Nat × Nat)) (w u : State) (bs : Bytes) (a' : Adm) (r' : PatRun) (v : State), c.slice < 512 ∧ s.adm? c = some a ∧ s.pat.runs.find? (fun r => r.id = c) = some r ∧ r.slot = none ∧ a.stage = false ∧ s.patLoadPending c.slice a.stamp = false ∧ s.patQueued c.slice a.stamp = false ∧ s.patReadable c a = true ∧ s.slotFree c.slice = some slot ∧ s.patChecks2 c.slice a.ent hdr = .ok cur ∧ (if State.pSource a.ent then w = s else s.moveData c false a.ent.dptr.ranges = (w, true)) ∧ w.patInput c a input = (u, .ok bs) ∧ u.adm? c = some a' ∧ u.pat.runs.find? (fun r => r.id = c) = some r' ∧ v = State.modPat (u.modAdm c (fun a => { a with stage := decide (a.waits = 0), started := true })) c (fun r => { r with slot := some slot, input := bs, cursor := cur, left := max 1 (ceilDiv bs.length 400) })) ∧
    (∃ (s : State) (c : CmdId) (a : Adm) (r : PatRun) (slot : Nat) (hdr : Fetch) (st : Status), c.slice < 512 ∧ s.adm? c = some a ∧ s.pat.runs.find? (fun r => r.id = c) = some r ∧ r.slot = none ∧ a.stage = false ∧ s.patLoadPending c.slice a.stamp = false ∧ s.patQueued c.slice a.stamp = false ∧ s.patReadable c a = true ∧ s.slotFree c.slice = some slot ∧ s.patChecks2 c.slice a.ent hdr = .error st ∧ st ≠ .dataTransferError) ∧
    (∃ (s v : State) (c : CmdId) (a : Adm) (d bs : Bytes) (len : Nat) (t base : PatTable) (x : _), s.awaitsAdmin c 0xC9 a ∧ len = a.ent.cdw11.toNat ∧ a.ent.nsid = 0 ∧ a.ent.cdw10 = 0 ∧ a.ent.cdw12 = 0 ∧ a.ent.cdw13 = 0 ∧ a.ent.cdw14 = 0 ∧ a.ent.cdw15 = 0 ∧ 32 ≤ len ∧ len ≤ 8388608 ∧ s.patSlots c.slice ≠ 0 ∧ s.moveData c false a.ent.dptr.ranges = (v, true) ∧ bs = padTo len (v.gather c.slice a.ent.dptr.ranges d) ∧ t = v.patProjected c.slice ∧ patHeadBad bs = none ∧ (patImage bs).size = len ∧ patBodyBad t (s.patSlots c.slice) bs (patImage bs) = none ∧ (leAt bs 6 1 = 1 ∨ t.state ≠ .lost) ∧ base = (if leAt bs 6 1 = 1 then { t with rules := [], rank := [] } else t) ∧ patRuleOps v.patHole (s.patSlots c.slice) bs base (patImage bs).ops = .ok x) ∧
    (∃ (s v : State) (c : CmdId) (a : Adm) (d bs : Bytes) (len : Nat) (t base : PatTable) (o : Nat), s.awaitsAdmin c 0xC9 a ∧ len = a.ent.cdw11.toNat ∧ a.ent.nsid = 0 ∧ a.ent.cdw10 = 0 ∧ a.ent.cdw12 = 0 ∧ a.ent.cdw13 = 0 ∧ a.ent.cdw14 = 0 ∧ a.ent.cdw15 = 0 ∧ 32 ≤ len ∧ len ≤ 8388608 ∧ s.patSlots c.slice ≠ 0 ∧ s.moveData c false a.ent.dptr.ranges = (v, true) ∧ bs = padTo len (v.gather c.slice a.ent.dptr.ranges d) ∧ t = v.patProjected c.slice ∧ patHeadBad bs = none ∧ (patImage bs).size = len ∧ patBodyBad t (s.patSlots c.slice) bs (patImage bs) = none ∧ (leAt bs 6 1 = 1 ∨ t.state ≠ .lost) ∧ base = (if leAt bs 6 1 = 1 then { t with rules := [], rank := [] } else t) ∧ patRuleOps v.patHole (s.patSlots c.slice) bs base (patImage bs).ops = .error (o, true)) ∧
    (∃ (s : State) (c : CmdId) (l : PatLoad) (k : Nat) (u : State) (l' : PatLoad), c.slice < 512 ∧ s.pat.loads.find? (fun l => l.id = c) = some l ∧ (s.adm? c).isSome = true ∧ l.written = false ∧ l.slot = none ∧ s.patFirst l = true ∧ (leAt l.image 6 1 = 1 → s.patBusy c.slice l.stamp = false) ∧ s.slotFree c.slice = some k ∧ l' = { l with slot := some k, victim := none } ∧ u = (if patTouches (s.patTable c.slice) (s.patSlots c.slice) l.image then State.taint s c.slice l.stamp else s)) ∧
    (∃ (s : State) (c : CmdId) (l : PatLoad) (v : CmdId × Nat × Nat × Stamp) (u : State) (l' : PatLoad), c.slice < 512 ∧ s.pat.loads.find? (fun l => l.id = c) = some l ∧ (s.adm? c).isSome = true ∧ l.written = false ∧ l.slot = none ∧ s.patFirst l = true ∧ (leAt l.image 6 1 = 1 → s.patBusy c.slice l.stamp = false) ∧ s.slotFree c.slice = none ∧ State.patVictim (s.patActive c.slice) = some v ∧ l' = { l with slot := some v.2.1, victim := some v.1 } ∧ u = (if patTouches (s.patTable c.slice) (s.patSlots c.slice) l.image then State.taint (s.patSuspend v.1 true) c.slice l.stamp else s.patSuspend v.1 true)) ∧
    (∃ (s : State) (c : CmdId) (l : PatLoad) (t : PatTable), c.slice < 512 ∧ s.pat.loads.find? (fun l => l.id = c) = some l ∧ (s.adm? c).isSome = true ∧ l.written = true ∧ l.applied = false ∧ s.patBusy c.slice l.stamp = false ∧ t = patApply s.patHole (s.patSlots c.slice) (s.patTable c.slice) l.image) :=
  ⟨⟨withPat false (searchE 0x8D) {}, cid0, adm0 false (searchE 0x8D), (by unfold State.awaitsEngine; decide +kernel), (by first | decide +kernel | rfl), (by first | decide +kernel | rfl)⟩,
   ⟨withPat false (searchE 0x91) {}, cid0, adm0 false (searchE 0x91), (by unfold State.awaitsEngine; decide +kernel), (by first | decide +kernel | rfl), (by first | decide +kernel | rfl)⟩,
   ⟨withPat false (entE 0x8D 0 0) {}, cid0, adm0 false (entE 0x8D 0 0), .invalidField, (by unfold State.awaitsEngine; decide +kernel), (by first | decide +kernel | rfl)⟩,
   ⟨withPat false (entE 0x91 0 0) {}, cid0, adm0 false (entE 0x91 0 0), .invalidField, (by unfold State.awaitsEngine; decide +kernel), (by first | decide +kernel | rfl)⟩,
   ⟨moving (withPat false (searchE 0x8D) { runs := [{ id := cid0, stamp := ⟨0, 0⟩ }], tables := [(0, { state := .ready })] }), cid0, adm0 false (searchE 0x8D), { id := cid0, stamp := ⟨0, 0⟩ }, 0, .ok [], .ok [], none, (State.moveData (moving (withPat false (searchE 0x8D) { runs := [{ id := cid0, stamp := ⟨0, 0⟩ }], tables := [(0, { state := .ready })] })) cid0 false []).1, (State.moveData (moving (withPat false (searchE 0x8D) { runs := [{ id := cid0, stamp := ⟨0, 0⟩ }], tables := [(0, { state := .ready })] })) cid0 false []).1, [], adm0 false (searchE 0x8D), { id := cid0, stamp := ⟨0, 0⟩ }, _, (by first | decide +kernel | rfl), (by first | decide +kernel | rfl), (by first | decide +kernel | rfl), (by first | decide +kernel | rfl), (by first | decide +kernel | rfl), (by first | decide +kernel | rfl), (by first | decide +kernel | rfl), (by first | decide +kernel | rfl), (by first | decide +kernel | rfl), (by first | decide +kernel | rfl), (by rw [if_neg (by decide)]; exact Prod.ext rfl (by decide +kernel)), (by first | decide +kernel | rfl), (by first | decide +kernel | rfl), (by first | decide +kernel | rfl), rfl⟩,
   ⟨moving (withPat false (searchE 0x8D) { runs := [{ id := cid0, stamp := ⟨0, 0⟩ }] }), cid0, adm0 false (searchE 0x8D), { id := cid0, stamp := ⟨0, 0⟩ }, 0, .ok [], .vendor 0x70, (by first | decide +kernel | rfl), (by first | decide +kernel | rfl), (by first | decide +kernel | rfl), (by first | decide +kernel | rfl), (by first | decide +kernel | rfl), (by first | decide +kernel | rfl), (by first | decide +kernel | rfl), (by first | decide +kernel | rfl), (by first | decide +kernel | rfl), (by first | decide +kernel | rfl), (by first | decide +kernel | rfl)⟩,
   ⟨moving (withPat true (loadE 32) {}), (State.moveData (moving (withPat true (loadE 32) {})) cid0 false (loadE 32).dptr.ranges).1, cid0, adm0 true (loadE 32), imageHead 1 0 0, padTo 32 (imageHead 1 0 0), 32, {}, {}, {}, (by unfold State.awaitsAdmin; decide +kernel), (by first | decide +kernel | rfl), (by first | decide +kernel | rfl), (by first | decide +kernel | rfl), (by first | decide +kernel | rfl), (by first | decide +kernel | rfl), (by first | decide +kernel | rfl), (by first | decide +kernel | rfl), (by first | decide +kernel | rfl), (by first | decide +kernel | rfl), (by first | decide +kernel | rfl), (by exact Prod.ext rfl (by decide +kernel)), (by first | decide +kernel | rfl), (by first | decide +kernel | rfl), (by first | decide +kernel | rfl), (by first | decide +kernel | rfl), (by first | decide +kernel | rfl), (by first | decide +kernel | rfl), (by first | decide +kernel | rfl), (by first | decide +kernel | rfl)⟩,
   ⟨moving (withPat true (loadE 48) { tables := [(0, fullRules)] }), (State.moveData (moving (withPat true (loadE 48) { tables := [(0, fullRules)] })) cid0 false (loadE 48).dptr.ranges).1, cid0, adm0 true (loadE 48), imageHead 0 0xFFFFFFFF 1 ++ padTo 16 [1], padTo 48 (imageHead 0 0xFFFFFFFF 1 ++ padTo 16 [1]), 48, fullRules, fullRules, 32, (by unfold State.awaitsAdmin; decide +kernel), (by first | decide +kernel | rfl), (by first | decide +kernel | rfl), (by first | decide +kernel | rfl), (by first | decide +kernel | rfl), (by first | decide +kernel | rfl), (by first | decide +kernel | rfl), (by first | decide +kernel | rfl), (by first | decide +kernel | rfl), (by first | decide +kernel | rfl), (by first | decide +kernel | rfl), (by exact Prod.ext rfl (by decide +kernel)), (by first | decide +kernel | rfl), (by first | decide +kernel | rfl), (by first | decide +kernel | rfl), (by first | decide +kernel | rfl), (by first | decide +kernel | rfl), (by first | decide +kernel | rfl), (by first | decide +kernel | rfl), (by first | decide +kernel | rfl)⟩,
   ⟨withPat true (loadE 32) { loads := [{ id := cid0, stamp := ⟨0, 0⟩, image := imageHead 1 0 0 }] }, cid0, { id := cid0, stamp := ⟨0, 0⟩, image := imageHead 1 0 0 }, 0, _, _, (by first | decide +kernel | rfl), (by first | decide +kernel | rfl), (by first | decide +kernel | rfl), (by first | decide +kernel | rfl), (by first | decide +kernel | rfl), (by first | decide +kernel | rfl), (by first | decide +kernel | rfl), (by first | decide +kernel | rfl), rfl, rfl⟩,
   ⟨{ withPat true (loadE 32) { loads := [{ id := cid0, stamp := ⟨0, 0⟩, image := imageHead 1 0 0 }] } with hdl := { scans := [{ id := ⟨0, 1, 8⟩, stamp := ⟨0, 1⟩, slot := some 0 }] } }, cid0, { id := cid0, stamp := ⟨0, 0⟩, image := imageHead 1 0 0 }, (⟨0, 1, 8⟩, 0, 3, ⟨0, 1⟩), _, _, (by first | decide +kernel | rfl), (by first | decide +kernel | rfl), (by first | decide +kernel | rfl), (by first | decide +kernel | rfl), (by first | decide +kernel | rfl), (by first | decide +kernel | rfl), (by first | decide +kernel | rfl), (by first | decide +kernel | rfl), (by first | decide +kernel | rfl), rfl, rfl⟩,
   ⟨withPat true (loadE 32) { loads := [{ id := cid0, stamp := ⟨0, 0⟩, image := imageHead 1 0 0, written := true }] }, cid0, { id := cid0, stamp := ⟨0, 0⟩, image := imageHead 1 0 0, written := true }, _, (by first | decide +kernel | rfl), (by first | decide +kernel | rfl), (by first | decide +kernel | rfl), (by first | decide +kernel | rfl), (by first | decide +kernel | rfl), (by first | decide +kernel | rfl), rfl⟩⟩

set_option maxRecDepth 20000 in
theorem witness_CipherAndDigestCommands :
    (∃ (s : State) (c : CmdId) (a : Adm), s.awaitsEngine c 0x93 a ∧ s.cipherChecks1 c.slice a.ent = none ∧ s.cph.runs.any (fun r => r.id = c) = false ∧ a.ent.dptr.ranges.all (fun r => s.inPortion c.slice r.1 r.2) = false) ∧
    (∃ (s : State) (c : CmdId) (a : Adm) (v : State), s.awaitsEngine c 0x93 a ∧ s.cipherChecks1 c.slice a.ent = none ∧ s.cph.runs.any (fun r => r.id = c) = false ∧ a.ent.dptr.ranges.all (fun r => s.inPortion c.slice r.1 r.2) = true ∧ s.moveData c false a.ent.dptr.ranges = (v, true) ∧ v.cph.runs.any (fun r => r.id = c) = false) ∧
    (∃ (s : State) (c : CmdId) (a : Adm) (st : Status), s.awaitsEngine c 0x93 a ∧ s.cipherChecks1 c.slice a.ent = some st) ∧
    (∃ (s : State) (c : CmdId) (a : Adm) (v : State), s.awaitsEngine c 0x93 a ∧ s.faultInject = false ∧ s.moveData c false a.ent.dptr.ranges = (v, true) ∧ v.cph.runs.any (fun r => r.id = c) = true) ∧
    (∃ (s : State) (c : CmdId) (a : Adm), s.awaitsEngine c 0x95 a ∧ s.digestChecks1 c.slice a.ent = none ∧ s.dgs.runs.any (fun r => r.id = c) = false ∧ a.ent.dptr.ranges.all (fun r => s.inPortion c.slice r.1 r.2) = false) ∧
    (∃ (s : State) (c : CmdId) (a : Adm) (v : State), s.awaitsEngine c 0x95 a ∧ s.digestChecks1 c.slice a.ent = none ∧ s.dgs.runs.any (fun r => r.id = c) = false ∧ a.ent.dptr.ranges.all (fun r => s.inPortion c.slice r.1 r.2) = true ∧ (dgAlg a.ent < 0xC ∨ 0xE < dgAlg a.ent) ∧ dgImports a.ent = false ∧ s.moveData c false a.ent.dptr.ranges = (v, true) ∧ v.dgs.runs.any (fun r => r.id = c) = false) ∧
    (∃ (s : State) (c : CmdId) (a : Adm) (st : Status), s.awaitsEngine c 0x95 a ∧ s.digestChecks1 c.slice a.ent = some st) ∧
    (∃ (s : State) (c : CmdId) (a : Adm) (v : State) (d bs : Bytes) (m : _), s.awaitsEngine c 0x95 a ∧ s.moveData c false a.ent.dptr.ranges = (v, true) ∧ v.dgs.runs.any (fun r => r.id = c) = true ∧ v.dgs.runs.any (fun r => r.id = c && r.msg.isSome) = false ∧ dgImports a.ent = true ∧ bs = padTo (552 + dgLen a.ent) (v.gather c.slice a.ent.dptr.ranges d) ∧ (dgAlg a.ent < 0xC ∨ 0xE < dgAlg a.ent) ∧ v.digestImport c.slice a.ent (bs.take 552) = .ok m) ∧
    (∃ (s : State) (c : CmdId) (a : Adm) (v : State) (d bs : Bytes) (st : _), s.awaitsEngine c 0x95 a ∧ s.moveData c false a.ent.dptr.ranges = (v, true) ∧ v.dgs.runs.any (fun r => r.id = c) = true ∧ v.dgs.runs.any (fun r => r.id = c && r.msg.isSome) = false ∧ dgImports a.ent = true ∧ bs = padTo (552 + dgLen a.ent) (v.gather c.slice a.ent.dptr.ranges d) ∧ (dgAlg a.ent < 0xC ∨ 0xE < dgAlg a.ent) ∧ v.digestImport c.slice a.ent (bs.take 552) = .error st) :=
  ⟨⟨withKeys keyed (gcmE 16), cid0, adm0 false (gcmE 16), (by unfold State.awaitsEngine; decide +kernel), (by first | decide +kernel | rfl), (by first | decide +kernel | rfl), (by first | decide +kernel | rfl)⟩,
   ⟨moving (withKeys keyed (bare (gcmE 16))), cid0, adm0 false (bare (gcmE 16)), (State.moveData (moving (withKeys keyed (bare (gcmE 16)))) cid0 false (adm0 false (bare (gcmE 16))).ent.dptr.ranges).1, (by unfold State.awaitsEngine; decide +kernel), (by first | decide +kernel | rfl), (by first | decide +kernel | rfl), (by first | decide +kernel | rfl), (by exact Prod.ext rfl (by decide +kernel)), (by first | decide +kernel | rfl)⟩,
   ⟨withKeys keyed (entE 0x93 0 0), cid0, adm0 false (entE 0x93 0 0), .invalidField, (by unfold State.awaitsEngine; decide +kernel), (by first | decide +kernel | rfl)⟩,
   ⟨moving ({ withKeys keyed (gcmE 16) with cph := { runs := [{ id := cid0, stamp := ⟨0, 0⟩ }] } }), cid0, adm0 false (gcmE 16), (State.moveData (moving ({ withKeys keyed (gcmE 16) with cph := { runs := [{ id := cid0, stamp := ⟨0, 0⟩ }] } })) cid0 false (adm0 false (gcmE 16)).ent.dptr.ranges).1, (by unfold State.awaitsEngine; decide +kernel), (by first | decide +kernel | rfl), (by exact Prod.ext rfl (by decide +kernel)), (by first | decide +kernel | rfl)⟩,
   ⟨withKeys keyed (shaE 0 16), cid0, adm0 false (shaE 0 16), (by unfold State.awaitsEngine; decide +kernel), (by first | decide +kernel | rfl), (by first | decide +kernel | rfl), (by first | decide +kernel | rfl)⟩,
   ⟨moving (withKeys keyed (bare (shaE 0 16))), cid0, adm0 false (bare (shaE 0 16)), (State.moveData (moving (withKeys keyed (bare (shaE 0 16)))) cid0 false (adm0 false (bare (shaE 0 16))).ent.dptr.ranges).1, (by unfold State.awaitsEngine; decide +kernel), (by first | decide +kernel | rfl), (by first | decide +kernel | rfl), (by first | decide +kernel | rfl), (by first | decide +kernel | rfl), (by first | decide +kernel | rfl), (by exact Prod.ext rfl (by decide +kernel)), (by first | decide +kernel | rfl)⟩,
   ⟨withKeys keyed (entE 0x95 0 0), cid0, adm0 false (entE 0x95 0 0), .invalidField, (by unfold State.awaitsEngine; decide +kernel), (by first | decide +kernel | rfl)⟩,
   ⟨moving ({ withKeys keyed (shaE 2 16) with dgs := { runs := [{ id := cid0, stamp := ⟨0, 0⟩ }], batons := [{ bytes := List.replicate 552 0, slice := 0, alg := 1, key := 0, msg := [7], install := 0, print := List.replicate 16 0 }] } }), cid0, adm0 false (shaE 2 16), (State.moveData (moving ({ withKeys keyed (shaE 2 16) with dgs := { runs := [{ id := cid0, stamp := ⟨0, 0⟩ }], batons := [{ bytes := List.replicate 552 0, slice := 0, alg := 1, key := 0, msg := [7], install := 0, print := List.replicate 16 0 }] } })) cid0 false (adm0 false (shaE 2 16)).ent.dptr.ranges).1, [], padTo 568 [], [7], (by unfold State.awaitsEngine; decide +kernel), (by exact Prod.ext rfl (by decide +kernel)), (by first | decide +kernel | rfl), (by first | decide +kernel | rfl), (by first | decide +kernel | rfl), (by first | decide +kernel | rfl), (by decide +kernel), (by rfl)⟩,
   ⟨moving ({ withKeys keyed (shaE 2 16) with dgs := { runs := [{ id := cid0, stamp := ⟨0, 0⟩ }] } }), cid0, adm0 false (shaE 2 16), (State.moveData (moving ({ withKeys keyed (shaE 2 16) with dgs := { runs := [{ id := cid0, stamp := ⟨0, 0⟩ }] } })) cid0 false (adm0 false (shaE 2 16)).ent.dptr.ranges).1, [], padTo 568 [], .vendor 0x88, (by unfold State.awaitsEngine; decide +kernel), (by exact Prod.ext rfl (by decide +kernel)), (by first | decide +kernel | rfl), (by first | decide +kernel | rfl), (by first | decide +kernel | rfl), (by first | decide +kernel | rfl), (by decide +kernel), (by rfl)⟩⟩

theorem witness_RelayLinkCommands :
    (∃ (s : State) (p : Nat) (chal : Bytes) (h : HelloMsg), p < 4 ∧ s.relayRuns = true ∧ s.portEnabled p = true ∧ (s.rlyPort p).st = .down ∧ h = s.helloOf p (padTo 16 chal)) ∧
    (∃ (s : State) (p : Nat), p < 4 ∧ (s.rlyPort p).phyUp = true ∧ (s.rlyPort p).st = .up) ∧
    (∃ (s : State) (p : Nat), p < 4 ∧ (s.rlyPort p).st = .up ∧ (s.rlyPort p).lastRx + 16000 ≤ s.stride) ∧
    (∃ (s : State) (p : Nat) (h : HelloMsg), p < 4 ∧ (s.rlyPort p).st = .hello ∧ (s.rlyPort p).helloAt + 400000 ≤ s.stride ∧ (s.rlyPort p).ownHello = some h) ∧
    (∃ (s : State), s.relayRuns = true ∧ s.rly.join = .joined ∧ s.rly.sumAt + 400000 ≤ s.stride) ∧
    (∃ (s : State) (p : Nat) (h : HelloMsg), s.linked p ∧ (s.rlyPort p).st = .hello ∧ h.floor ≤ s.rly.floor ∧ s.rosterSeq ≤ h.rosterSeq ∧ s.helloCause h = none ∧ h.addr ≤ s.fieldAddr) ∧
    (∃ (s : State) (p : Nat) (h : HelloMsg) (cause : Nat), s.linked p ∧ (s.rlyPort p).st = .hello ∧ h.floor ≤ s.rly.floor ∧ s.rosterSeq ≤ h.rosterSeq ∧ s.helloCause h = some cause) ∧
    (∃ (s u : State) (p : Nat) (m : LinkMsg), s.linked p ∧ (s.rlyPort p).st = .keying ∧ u = s.tookFrame p ∧ s.offers p = false ∧ u.linkAuth p m = false) ∧
    (((joined { phyUp := true, st := .keying, peer := some (helloFrom 1 4) }).tookFrame 0).linkAuth 0 (⟨[], [], []⟩ : LinkMsg) = true → ∃ (s u : State) (p : Nat) (m : LinkMsg) (d : Bytes × State) (e : Bytes × Bytes), s.linked p ∧ (s.rlyPort p).st = .keying ∧ u = s.tookFrame p ∧ s.offers p = false ∧ u.linkAuth p m = true ∧ d = u.drawBytes 32 ∧ e = Config.kemEncap (padTo 1568 m.body) d.1) ∧
    (∃ (s u : State) (p : Nat) (m : LinkMsg), s.linked p ∧ (s.rlyPort p).st = .keying ∧ u = s.tookFrame p ∧ s.offers p = true ∧ u.linkAuth p m = false) ∧
    (((joined { phyUp := true, st := .keying, peer := some (helloFrom 3 5) }).tookFrame 0).linkAuth 0 (⟨[], [], []⟩ : LinkMsg) = true → ∃ (s u : State) (p : Nat) (m : LinkMsg) (key : Bytes), s.linked p ∧ (s.rlyPort p).st = .keying ∧ u = s.tookFrame p ∧ s.offers p = true ∧ u.linkAuth p m = true ∧ key = u.linkKeyOf p (Config.kemDecap (u.rlyPort p).offerPair (padTo 1568 m.body))) ∧
    (∃ (s : State) (p : Nat), p < 4 ∧ s.relayRuns = true ∧ s.portEnabled p = true ∧ (s.rlyPort p).tagLap ≠ some s.lap) ∧
    (∃ (s : State) (p : Nat), p < 4 ∧ s.relayRuns = true ∧ s.portEnabled p = true ∧ (s.rlyPort p).tagLap = some s.lap) ∧
    (∃ (s : State) (p : Nat) (why : _), p < 4 ∧ s.relayRuns = true ∧ s.portEnabled p = true ∧ why ∈ [FrameDrop.address, .etherType, .type, .hops]) :=
  ⟨⟨joined { st := .down }, 0, [], _, (by first | decide +kernel | rfl), (by first | decide +kernel | rfl), (by first | decide +kernel | rfl), (by first | decide +kernel | rfl), rfl⟩,
   ⟨joined { phyUp := true, st := .up }, 0, (by first | decide +kernel | rfl), (by first | decide +kernel | rfl), (by first | decide +kernel | rfl)⟩,
   ⟨{ joined { phyUp := true, st := .up } with stride := 16000 }, 0, (by first | decide +kernel | rfl), (by first | decide +kernel | rfl), (by first | decide +kernel | rfl)⟩,
   ⟨{ joined { phyUp := true, st := .hello, ownHello := some (helloFrom 2 0) } with stride := 400000 }, 0, helloFrom 2 0, (by first | decide +kernel | rfl), (by first | decide +kernel | rfl), (by first | decide +kernel | rfl), (by first | decide +kernel | rfl)⟩,
   ⟨{ joined {} with stride := 400000 }, (by first | decide +kernel | rfl), (by first | decide +kernel | rfl), (by first | decide +kernel | rfl)⟩,
   ⟨joined { phyUp := true, st := .hello }, 0, helloFrom 1 4, (by unfold State.linked; decide +kernel), (by first | decide +kernel | rfl), (by first | decide +kernel | rfl), (by first | decide +kernel | rfl), (by first | decide +kernel | rfl), (by first | decide +kernel | rfl)⟩,
   ⟨joined { phyUp := true, st := .hello }, 0, helloFrom 3 6, 0xC7, (by unfold State.linked; decide +kernel), (by first | decide +kernel | rfl), (by first | decide +kernel | rfl), (by first | decide +kernel | rfl), (by first | decide +kernel | rfl)⟩,
   ⟨joined { phyUp := true, st := .keying, peer := some (helloFrom 1 4) }, (joined { phyUp := true, st := .keying, peer := some (helloFrom 1 4) }).tookFrame (0), 0, (⟨[], [], []⟩ : LinkMsg), (by unfold State.linked; decide +kernel), (by first | decide +kernel | rfl), rfl, (by first | decide +kernel | rfl), (by first | decide +kernel | rfl)⟩,
   fun h => ⟨joined { phyUp := true, st := .keying, peer := some (helloFrom 1 4) }, (joined { phyUp := true, st := .keying, peer := some (helloFrom 1 4) }).tookFrame (0), 0, (⟨[], [], []⟩ : LinkMsg), ((joined { phyUp := true, st := .keying, peer := some (helloFrom 1 4) }).tookFrame (0)).drawBytes 32, Config.kemEncap (padTo 1568 ((⟨[], [], []⟩ : LinkMsg)).body) (((joined { phyUp := true, st := .keying, peer := some (helloFrom 1 4) }).tookFrame (0)).drawBytes 32).1, (by unfold State.linked; decide +kernel), (by first | decide +kernel | rfl), rfl, (by first | decide +kernel | rfl), h, rfl, rfl⟩,
   ⟨joined { phyUp := true, st := .keying, peer := some (helloFrom 3 5) }, (joined { phyUp := true, st := .keying, peer := some (helloFrom 3 5) }).tookFrame (0), 0, (⟨[], [], []⟩ : LinkMsg), (by unfold State.linked; decide +kernel), (by first | decide +kernel | rfl), rfl, (by first | decide +kernel | rfl), (by first | decide +kernel | rfl)⟩,
   fun h => ⟨joined { phyUp := true, st := .keying, peer := some (helloFrom 3 5) }, (joined { phyUp := true, st := .keying, peer := some (helloFrom 3 5) }).tookFrame (0), 0, (⟨[], [], []⟩ : LinkMsg), ((joined { phyUp := true, st := .keying, peer := some (helloFrom 3 5) }).tookFrame (0)).linkKeyOf (0) (Config.kemDecap (((joined { phyUp := true, st := .keying, peer := some (helloFrom 3 5) }).tookFrame (0)).rlyPort (0)).offerPair (padTo 1568 ((⟨[], [], []⟩ : LinkMsg)).body)), (by unfold State.linked; decide +kernel), (by first | decide +kernel | rfl), rfl, (by first | decide +kernel | rfl), h, rfl⟩,
   ⟨joined { phyUp := true, st := .up }, 0, (by first | decide +kernel | rfl), (by first | decide +kernel | rfl), (by first | decide +kernel | rfl), (by first | decide +kernel | rfl)⟩,
   ⟨joined { phyUp := true, st := .up, tagLap := some 0 }, 0, (by first | decide +kernel | rfl), (by first | decide +kernel | rfl), (by first | decide +kernel | rfl), (by first | decide +kernel | rfl)⟩,
   ⟨joined { phyUp := true, st := .up }, 0, .type, (by first | decide +kernel | rfl), (by first | decide +kernel | rfl), (by first | decide +kernel | rfl), (by first | decide +kernel | rfl)⟩⟩

set_option maxRecDepth 20000 in
theorem witness_FieldCommands :
    (∃ (s u : State) (p : Nat) (head : Nat), s.linked p ∧ (s.rlyPort p).st = .up ∧ u = (s.tookFrame p).modRly p (fun x => { x with repHead := some head }) ∧ s.rly.key = none) ∧
    (∃ (s u : State) (p : Nat) (head epoch : Nat) (k : _), s.linked p ∧ (s.rlyPort p).st = .up ∧ u = (s.tookFrame p).modRly p (fun x => { x with repHead := some head }) ∧ s.rly.key = some k ∧ (head < k.head ∨ (head = k.head ∧ epoch ≠ k.epoch ∧ (epoch + 65536 - k.epoch) % 65536 < 32768))) ∧
    (∃ (s u : State) (p : Nat) (head epoch : Nat) (key : Bytes) (k : _), s.linked p ∧ (s.rlyPort p).st = .up ∧ u = (s.tookFrame p).modRly p (fun x => { x with repHead := some head }) ∧ s.rly.key = some k ∧ k = { head := head, epoch := epoch, value := padTo 32 key }) ∧
    (∃ (s u : State) (p : Nat) (head : Nat) (k : _), s.linked p ∧ (s.rlyPort p).st = .up ∧ u = (s.tookFrame p).modRly p (fun x => { x with repHead := some head }) ∧ s.rly.key = some k ∧ k.head < head ∧ u.headStands k.head = true) ∧
    (∃ (s u : State) (p : Nat) (head : Nat) (k : _), s.linked p ∧ (s.rlyPort p).st = .up ∧ u = (s.tookFrame p).modRly p (fun x => { x with repHead := some head }) ∧ s.rly.key = some k ∧ head ≠ k.head ∧ u.headStands k.head = false) ∧
    (∃ (s : State) (p : Nat) (m : PaceMsg), s.linked p ∧ (s.rlyPort p).st = .up ∧ s.keyKnown m.keyId = false) ∧
    (∃ (s : State) (p : Nat) (m : SummaryMsg), s.linked p ∧ (s.rlyPort p).st = .up ∧ s.keyKnown m.keyId = false) ∧
    (∃ (s : State) (p : Nat) (m : PaceMsg), s.linked p ∧ (s.rlyPort p).st = .up ∧ s.keyKnown m.keyId = true) ∧
    (∃ (s : State) (p : Nat) (m : SummaryMsg), s.linked p ∧ (s.rlyPort p).st = .up ∧ s.keyKnown m.keyId = true ∧ m.floor ≤ s.rly.floor ∧ (∀ o, tget s.rly.members m.src = some o → o.sumSeq < m.sumSeq) ∧ m.src ≠ s.fieldAddr ∧ (tget s.rosterEnts m.src).isSome = true) ∧
    ((joined { phyUp := true, st := .hello, peer := some { helloFrom 3 5 with rosterSeq := 2 } }).rosterRefused [] = none → ∃ (s u : State) (p : Nat) (bs : Bytes) (h : HelloMsg), s.linked p ∧ (s.rlyPort p).st ≠ .disabled ∧ (s.rlyPort p).st ≠ .down ∧ u = s.tookFrame p ∧ (s.rlyPort p).peer = some h ∧ (s.rosterSeq < h.rosterSeq ∨ s.dur.roster = none) ∧ s.rosterRefused bs = none) ∧
    (∃ (s u : State) (p : Nat) (bs : Bytes) (h : HelloMsg) (c : _), s.linked p ∧ (s.rlyPort p).st ≠ .disabled ∧ (s.rlyPort p).st ≠ .down ∧ u = s.tookFrame p ∧ (s.rlyPort p).peer = some h ∧ (s.rosterSeq < h.rosterSeq ∨ s.dur.roster = none) ∧ s.rosterRefused bs = some c) ∧
    (∃ (s : State) (id : Nat) (m : Awaited), s.rly.msgs.find? (fun m => m.id = id && decide (m.last + s.retxStrides ≤ s.stride)) = some m) ∧
    (∃ (s : State) (addr : Nat) (cause : BitVec 8) (m : _), m ∈ (s.peerLost addr cause.toNat).rly.msgs ∧ s.relayRuns = true ∧ ((cause = 0xC0 ∧ 4 ≤ tgetD s.rly.noRoute addr 0) ∨ (cause = 0xC1 ∧ ∃ m ∈ s.rly.msgs, m.dest = addr ∧ m.first + s.lossLaps * 4000 ≤ s.stride))) ∧
    (∃ (s : State) (q : Requester), s.up ∧ s.honours q ∧ s.hasField = true ∧ s.rwNat 0x1400810 = 0) ∧
    (∃ (s : State) (q : Requester) (d : Fetch) (n : _), s.up ∧ s.honours q ∧ s.hasField = true ∧ s.rwNat 0x1400810 ≠ 0 ∧ d = .failAt n) ∧
    (∃ (s : State) (q : Requester) (d : Fetch) (bs : _) (img : _) (c : _), s.up ∧ s.honours q ∧ s.hasField = true ∧ s.rwNat 0x1400810 ≠ 0 ∧ d = .ok bs ∧ img = padTo (s.rwNat 0x1400810) bs ∧ s.rosterRefused img = some c) ∧
    (({ joined {} with rw := [(0x1400810, 1)] }).rosterRefused (padTo (({ joined {} with rw := [(0x1400810, 1)] }).rwNat 0x1400810) []) = none → ∃ (s : State) (q : Requester) (d : Fetch) (bs : _) (img : _), s.up ∧ s.honours q ∧ s.hasField = true ∧ s.rwNat 0x1400810 ≠ 0 ∧ d = .ok bs ∧ img = padTo (s.rwNat 0x1400810) bs ∧ s.rosterRefused img = none) ∧
    (∃ (s : State) (q : Requester), s.up ∧ s.honours q ∧ s.hasField = true ∧ s.rly.join = .joined ∧ s.rly.keyHead = some s.fieldAddr) ∧
    (∃ (s : State) (q : Requester), s.up ∧ s.honours q ∧ s.hasField = true ∧ (s.rly.join ≠ .joined ∨ s.rly.keyHead ≠ some s.fieldAddr)) ∧
    (∃ (s : State) (q : Requester) (d : Bytes × State) (e : Nat), s.up ∧ s.honours q ∧ s.hasField = true ∧ d = s.drawBytes 32 ∧ e = (match s.rly.key with | some k => (k.epoch + 1) % 65536 | none => 1)) ∧
    (∃ (s : State) (q : Requester), s.up ∧ s.honours q ∧ s.hasField = true ∧ s.rwNat 0x1400810 < 32 * s.rosterEnts.length) ∧
    (∃ (s : State) (q : Requester) (ok : Bool), s.up ∧ s.honours q ∧ s.hasField = true ∧ 32 * s.rosterEnts.length ≤ s.rwNat 0x1400810 ∧ ok = false) ∧
    (∃ (s : State) (q : Requester) (ok : Bool), s.up ∧ s.honours q ∧ s.hasField = true ∧ 32 * s.rosterEnts.length ≤ s.rwNat 0x1400810 ∧ ok = true) ∧
    (∃ (s : State) (q : Requester), s.up ∧ s.honours q ∧ s.hasField = true ∧ s.rly.time.st = .head) ∧
    (∃ (s : State) (q : Requester), s.up ∧ s.honours q ∧ s.hasField = true ∧ s.rly.time.st ≠ .head) ∧
    (∃ (s : State), s.hasField = true ∧ s.rly.time.setTo = none ∧ s.rly.time.ppsAt = none) ∧
    (∃ (s : State) (ft : Int) (cycles : Nat) (a : _), s.hasField = true ∧ s.rly.time.setTo = none ∧ s.rly.time.ppsAt = some a ∧ 999999900 ≤ ft - a ∧ ft - a ≤ 1000000100 ∧ 9999999 ≤ cycles ∧ cycles ≤ 10000001) ∧
    (∃ (s : State) (ft : Int) (cycles : Nat) (a : _), s.hasField = true ∧ s.rly.time.setTo = none ∧ s.rly.time.ppsAt = some a ∧ (ft - a < 999999900 ∨ 1000000100 < ft - a ∨ cycles < 9999999 ∨ 10000001 < cycles)) :=
  ⟨⟨{ joined { phyUp := true, st := .up } with rly := { (joined { phyUp := true, st := .up }).rly with key := none } }, (({ joined { phyUp := true, st := .up } with rly := { (joined { phyUp := true, st := .up }).rly with key := none } }).tookFrame (0)).modRly (0) (fun x => { x with repHead := some (3) }), 0, 3, (by unfold State.linked; decide +kernel), (by first | decide +kernel | rfl), rfl, (by first | decide +kernel | rfl)⟩,
   ⟨{ joined { phyUp := true, st := .up } with rly := { (joined { phyUp := true, st := .up }).rly with key := some { head := 3, epoch := 1, value := padTo 32 [] } } }, (({ joined { phyUp := true, st := .up } with rly := { (joined { phyUp := true, st := .up }).rly with key := some { head := 3, epoch := 1, value := padTo 32 [] } } }).tookFrame (0)).modRly (0) (fun x => { x with repHead := some (2) }), 0, 2, 1, { head := 3, epoch := 1, value := padTo 32 [] }, (by unfold State.linked; decide +kernel), (by first | decide +kernel | rfl), rfl, (by first | decide +kernel | rfl), (by first | decide +kernel | rfl)⟩,
   ⟨{ joined { phyUp := true, st := .up } with rly := { (joined { phyUp := true, st := .up }).rly with key := some { head := 3, epoch := 1, value := padTo 32 [] } } }, (({ joined { phyUp := true, st := .up } with rly := { (joined { phyUp := true, st := .up }).rly with key := some { head := 3, epoch := 1, value := padTo 32 [] } } }).tookFrame (0)).modRly (0) (fun x => { x with repHead := some (3) }), 0, 3, 1, [], { head := 3, epoch := 1, value := padTo 32 [] }, (by unfold State.linked; decide +kernel), (by first | decide +kernel | rfl), rfl, (by first | decide +kernel | rfl), (by decide +kernel)⟩,
   ⟨{ joined { phyUp := true, st := .up } with rly := { (joined { phyUp := true, st := .up }).rly with key := some { head := 3, epoch := 1, value := padTo 32 [] } } }, (({ joined { phyUp := true, st := .up } with rly := { (joined { phyUp := true, st := .up }).rly with key := some { head := 3, epoch := 1, value := padTo 32 [] } } }).tookFrame (0)).modRly (0) (fun x => { x with repHead := some (4) }), 0, 4, { head := 3, epoch := 1, value := padTo 32 [] }, (by unfold State.linked; decide +kernel), (by first | decide +kernel | rfl), rfl, (by first | decide +kernel | rfl), (by first | decide +kernel | rfl), (by first | decide +kernel | rfl)⟩,
   ⟨{ joined { phyUp := true, st := .up } with rly := { (joined { phyUp := true, st := .up }).rly with key := some { head := 1, epoch := 1, value := padTo 32 [] } } }, (({ joined { phyUp := true, st := .up } with rly := { (joined { phyUp := true, st := .up }).rly with key := some { head := 1, epoch := 1, value := padTo 32 [] } } }).tookFrame (0)).modRly (0) (fun x => { x with repHead := some (3) }), 0, 3, { head := 1, epoch := 1, value := padTo 32 [] }, (by unfold State.linked; decide +kernel), (by first | decide +kernel | rfl), rfl, (by first | decide +kernel | rfl), (by first | decide +kernel | rfl), (by first | decide +kernel | rfl)⟩,
   ⟨joined { phyUp := true, st := .up }, 0, (⟨1, 0, 0, 0, 0, 0⟩ : PaceMsg), (by unfold State.linked; decide +kernel), (by first | decide +kernel | rfl), (by first | decide +kernel | rfl)⟩,
   ⟨joined { phyUp := true, st := .up }, 0, (⟨3, 1, 1, 1, 0, 0, [], [], 0, 32, 0, 0, (0, 0)⟩ : SummaryMsg), (by unfold State.linked; decide +kernel), (by first | decide +kernel | rfl), (by first | decide +kernel | rfl)⟩,
   ⟨{ joined { phyUp := true, st := .up } with rly := { (joined { phyUp := true, st := .up }).rly with key := some { head := 3, epoch := 1, value := padTo 32 [] } } }, 0, (⟨1, 0, 0, 0, 0, 196609⟩ : PaceMsg), (by unfold State.linked; decide +kernel), (by first | decide +kernel | rfl), (by first | decide +kernel | rfl)⟩,
   ⟨{ joined { phyUp := true, st := .up } with rly := { (joined { phyUp := true, st := .up }).rly with key := some { head := 3, epoch := 1, value := padTo 32 [] } } }, 0, (⟨3, 1, 1, 1, 0, 0, [], [], 0, 32, 0, 196609, (0, 0)⟩ : SummaryMsg), (by unfold State.linked; decide +kernel), (by first | decide +kernel | rfl), (by first | decide +kernel | rfl), (by first | decide +kernel | rfl), (by intro o h; cases h), (by first | decide +kernel | rfl), (by first | decide +kernel | rfl)⟩,
   fun h => ⟨joined { phyUp := true, st := .hello, peer := some { helloFrom 3 5 with rosterSeq := 2 } }, (joined { phyUp := true, st := .hello, peer := some { helloFrom 3 5 with rosterSeq := 2 } }).tookFrame (0), 0, [], { helloFrom 3 5 with rosterSeq := 2 }, (by unfold State.linked; decide +kernel), (by first | decide +kernel | rfl), (by first | decide +kernel | rfl), rfl, (by first | decide +kernel | rfl), (by first | decide +kernel | rfl), h⟩,
   ⟨joined { phyUp := true, st := .hello, peer := some { helloFrom 3 5 with rosterSeq := 2 } }, (joined { phyUp := true, st := .hello, peer := some { helloFrom 3 5 with rosterSeq := 2 } }).tookFrame (0), 0, [], { helloFrom 3 5 with rosterSeq := 2 }, 0xCA, (by unfold State.linked; decide +kernel), (by first | decide +kernel | rfl), (by first | decide +kernel | rfl), rfl, (by first | decide +kernel | rfl), (by first | decide +kernel | rfl), (by first | decide +kernel | rfl)⟩,
   ⟨{ { joined {} with rly := { (joined {}).rly with msgs := [{ id := 7, dest := 3, type := 0x20, words := [0], body := [], first := 0, last := 0 }] } } with stride := 4000 }, 7, { id := 7, dest := 3, type := 0x20, words := [0], body := [], first := 0, last := 0 }, (by first | decide +kernel | rfl)⟩,
   ⟨{ joined {} with rly := { (joined {}).rly with msgs := [{ id := 7, dest := 3, type := 0x20, words := [0], body := [], first := 0, last := 0 }, { id := 7, dest := 1, type := 0x20, words := [0], body := [], first := 0, last := 0 }], noRoute := [(3, 4)] } }, 3, 0xC0, { id := 7, dest := 1, type := 0x20, words := [0], body := [], first := 0, last := 0 }, (by first | decide +kernel | rfl), (by first | decide +kernel | rfl), (by first | decide +kernel | rfl)⟩,
   ⟨ready, .port 0, (by unfold State.up; decide +kernel), (by simp only [State.honours]; decide +kernel), (by first | decide +kernel | rfl), (by first | decide +kernel | rfl)⟩,
   ⟨{ joined {} with rw := [(0x1400810, 1)] }, .port 0, .failAt 0, 0, (by unfold State.up; decide +kernel), (by simp only [State.honours]; decide +kernel), (by first | decide +kernel | rfl), (by first | decide +kernel | rfl), (by first | decide +kernel | rfl)⟩,
   ⟨{ joined {} with rw := [(0x1400810, 1)] }, .port 0, .ok [], [], [0], 0xCA, (by unfold State.up; decide +kernel), (by simp only [State.honours]; decide +kernel), (by first | decide +kernel | rfl), (by first | decide +kernel | rfl), (by first | decide +kernel | rfl), (by first | decide +kernel | rfl), (by first | decide +kernel | rfl)⟩,
   fun h => ⟨{ joined {} with rw := [(0x1400810, 1)] }, .port 0, .ok [], [], padTo (({ joined {} with rw := [(0x1400810, 1)] }).rwNat 0x1400810) [], (by unfold State.up; decide +kernel), (by simp only [State.honours]; decide +kernel), (by first | decide +kernel | rfl), (by first | decide +kernel | rfl), (by first | decide +kernel | rfl), (by first | decide +kernel | rfl), h⟩,
   ⟨{ joined {} with rly := { (joined {}).rly with keyHead := some 2 } }, .port 0, (by unfold State.up; decide +kernel), (by simp only [State.honours]; decide +kernel), (by first | decide +kernel | rfl), (by first | decide +kernel | rfl), (by first | decide +kernel | rfl)⟩,
   ⟨ready, .port 0, (by unfold State.up; decide +kernel), (by simp only [State.honours]; decide +kernel), (by first | decide +kernel | rfl), (by first | decide +kernel | rfl)⟩,
   ⟨ready, .port 0, (ready).drawBytes 32, (match (ready).rly.key with | some k => (k.epoch + 1) % 65536 | none => 1), (by unfold State.up; decide +kernel), (by simp only [State.honours]; decide +kernel), (by first | decide +kernel | rfl), rfl, rfl⟩,
   ⟨{ joined {} with rw := [(0x1400810, 1)] }, .port 0, (by unfold State.up; decide +kernel), (by simp only [State.honours]; decide +kernel), (by first | decide +kernel | rfl), (by first | decide +kernel | rfl)⟩,
   ⟨{ joined {} with rw := [(0x1400810, 96)] }, .port 0, false, (by unfold State.up; decide +kernel), (by simp only [State.honours]; decide +kernel), (by first | decide +kernel | rfl), (by first | decide +kernel | rfl), (by first | decide +kernel | rfl)⟩,
   ⟨{ joined {} with rw := [(0x1400810, 96)] }, .port 0, true, (by unfold State.up; decide +kernel), (by simp only [State.honours]; decide +kernel), (by first | decide +kernel | rfl), (by first | decide +kernel | rfl), (by first | decide +kernel | rfl)⟩,
   ⟨{ joined {} with rly := { (joined {}).rly with time := { (joined {}).rly.time with st := .head } } }, .port 0, (by unfold State.up; decide +kernel), (by simp only [State.honours]; decide +kernel), (by first | decide +kernel | rfl), (by first | decide +kernel | rfl)⟩,
   ⟨ready, .port 0, (by unfold State.up; decide +kernel), (by simp only [State.honours]; decide +kernel), (by first | decide +kernel | rfl), (by first | decide +kernel | rfl)⟩,
   ⟨ready, (by first | decide +kernel | rfl), (by first | decide +kernel | rfl), (by first | decide +kernel | rfl)⟩,
   ⟨{ joined {} with rly := { (joined {}).rly with time := { (joined {}).rly.time with ppsAt := some 0 } } }, 1000000000, 10000000, 0, (by first | decide +kernel | rfl), (by first | decide +kernel | rfl), (by first | decide +kernel | rfl), (by first | decide +kernel | rfl), (by first | decide +kernel | rfl), (by first | decide +kernel | rfl), (by first | decide +kernel | rfl)⟩,
   ⟨{ joined {} with rly := { (joined {}).rly with time := { (joined {}).rly.time with ppsAt := some 0 } } }, 1, 10000000, 0, (by first | decide +kernel | rfl), (by first | decide +kernel | rfl), (by first | decide +kernel | rfl), (by first | decide +kernel | rfl)⟩⟩

theorem witness_PairingCommands :
    (∃ (s u : State) (src msg : Nat) (m : PostMsg) (i : Instr) (p : Pairing) (c : _), s.routed ∧ u = s.tookFrom src ∧ p = (u.slice m.partner).pairing ∧ (i = .postReq src msg m ∨ i = .resync src msg m) ∧ u.mirrorBad src m.primary m.partner = some c) ∧
    (∃ (s u : State) (src msg : Nat) (m : PostMsg) (i : Instr) (p : Pairing) (a : _), s.routed ∧ u = s.tookFrom src ∧ p = (u.slice m.partner).pairing ∧ (i = .postReq src msg m ∨ i = .resync src msg m) ∧ u.mirrorBad src m.primary m.partner = none ∧ p.answers.find? (fun a => a.1 = m.pairSeq) = some a) ∧
    (∃ (s u : State) (src msg : Nat) (m : PostMsg) (i : Instr) (p : Pairing), s.routed ∧ u = s.tookFrom src ∧ p = (u.slice m.partner).pairing ∧ (i = .postReq src msg m ∨ i = .resync src msg m) ∧ u.mirrorBad src m.primary m.partner = none ∧ p.answers.find? (fun a => a.1 = m.pairSeq) = none ∧ m.pairSeq ≤ p.lastIn) ∧
    (∃ (s u : State) (src msg : Nat) (m : PostMsg) (i : Instr) (p : Pairing), s.routed ∧ u = s.tookFrom src ∧ p = (u.slice m.partner).pairing ∧ (i = .postReq src msg m ∨ i = .resync src msg m) ∧ u.mirrorBad src m.primary m.partner = none ∧ p.answers.find? (fun a => a.1 = m.pairSeq) = none ∧ m.pairSeq = p.lastIn + 1 ∧ p.inbox = []) ∧
    (∃ (s u : State) (src msg : Nat) (m : PostMsg) (i : Instr) (p : Pairing), s.routed ∧ u = s.tookFrom src ∧ p = (u.slice m.partner).pairing ∧ (i = .postReq src msg m ∨ i = .resync src msg m) ∧ u.mirrorBad src m.primary m.partner = none ∧ p.answers.find? (fun a => a.1 = m.pairSeq) = none ∧ p.lastIn + 1 < m.pairSeq ∧ p.inbox.any (fun q => q.1 = m.pairSeq) = false) ∧
    (∃ (s u v : State) (src n seq : Nat) (cause : BitVec 8) (w : PairWait), s.routed ∧ n < 512 ∧ u = s.tookFrom src ∧ (u.slice n).pairing.waits.find? (fun w => w.addr = src && w.pairSeq = seq) = some w ∧ v = State.modPairing (u.settle (fun m => m.dest = src && (m.type = 0x10 || m.type = 0x12) && m.words.getD 0 0 = seq && m.words.getD 3 512 = n && m.words.getD 4 512 = w.partner)) n (fun q => { q with waits := q.waits.filter (fun v => decide (v ≠ w)) }) ∧ cause ≠ 0) ∧
    (∃ (s u v : State) (src n seq : Nat) (cause : BitVec 8) (w : PairWait) (c : _), s.routed ∧ n < 512 ∧ u = s.tookFrom src ∧ (u.slice n).pairing.waits.find? (fun w => w.addr = src && w.pairSeq = seq) = some w ∧ v = State.modPairing (u.settle (fun m => m.dest = src && (m.type = 0x10 || m.type = 0x12) && m.words.getD 0 0 = seq && m.words.getD 3 512 = n && m.words.getD 4 512 = w.partner)) n (fun q => { q with waits := q.waits.filter (fun v => decide (v ≠ w)) }) ∧ cause = 0 ∧ w.cmd = some c) ∧
    (∃ (s u v : State) (src n seq : Nat) (cause : BitVec 8) (w : PairWait), s.routed ∧ n < 512 ∧ u = s.tookFrom src ∧ (u.slice n).pairing.waits.find? (fun w => w.addr = src && w.pairSeq = seq) = some w ∧ v = State.modPairing (u.settle (fun m => m.dest = src && (m.type = 0x10 || m.type = 0x12) && m.words.getD 0 0 = seq && m.words.getD 3 512 = n && m.words.getD 4 512 = w.partner)) n (fun q => { q with waits := q.waits.filter (fun v => decide (v ≠ w)) }) ∧ cause = 0 ∧ w.cmd = none ∧ (u.slice n).pairing.state = .resyncing ∧ w.old = false) ∧
    (∃ (s u : State) (src primary partner : Nat) (c : _), s.routed ∧ u = s.tookFrom src ∧ u.mirrorBad src primary partner = some c) ∧
    (∃ (s u : State) (src msg primary partner : Nat), s.routed ∧ u = s.tookFrom src ∧ u.mirrorBad src primary partner = none ∧ u.acted src msg = true) ∧
    (∃ (s u : State) (src msg primary partner : Nat), s.routed ∧ u = s.tookFrom src ∧ u.mirrorBad src primary partner = none ∧ u.acted src msg = false) ∧
    (∃ (s : State) (n : Nat), n < 512 ∧ s.relayRuns = true ∧ (s.slice n).pairing.state = .unpaired ∧ s.pairRole n = 1 ∧ (∀ l, (s.slice n).pairing.confirmLap = some l → l + 10 ≤ s.lap) ∧ (tget s.rly.routes (s.pairAddr n)).isSome = true) ∧
    (∃ (s u : State) (src id : Nat) (result : BitVec 8) (m : Awaited), s.routed ∧ u = s.tookFrom src ∧ u.rly.msgs.find? (fun m => m.id = id && m.dest = src) = some m ∧ (result = 0 ∨ m.type = 0x28 ∨ (u.rly.migOut.find? (fun o => o.slice = m.words.getD 0 512 && o.peer = src && !o.committed)) = none)) ∧
    (∃ (s u : State) (src id : Nat) (result : BitVec 8) (m : Awaited) (o : _), s.routed ∧ u = s.tookFrom src ∧ u.rly.msgs.find? (fun m => m.id = id && m.dest = src) = some m ∧ result ≠ 0 ∧ m.type ≠ 0x28 ∧ u.rly.migOut.find? (fun o => o.slice = m.words.getD 0 512 && o.peer = src && !o.committed) = some o) :=
  ⟨⟨paired 2 {}, (paired 2 {}).tookFrom 3, 3, 9, post 1, .postReq 3 9 (post 1), (((paired 2 {}).tookFrom 3).slice 0).pairing, 0xC3, (by unfold State.routed; decide +kernel), (by first | decide +kernel | rfl), (by first | decide +kernel | rfl), (by exact Or.inl rfl), (by first | decide +kernel | rfl)⟩,
   ⟨paired 2 { st := .active, pairing := { answers := [(1, 0, ⟨0, 0⟩)] } }, (paired 2 { st := .active, pairing := { answers := [(1, 0, ⟨0, 0⟩)] } }).tookFrom 3, 3, 9, post 1, .postReq 3 9 (post 1), (((paired 2 { st := .active, pairing := { answers := [(1, 0, ⟨0, 0⟩)] } }).tookFrom 3).slice 0).pairing, (1, 0, ⟨0, 0⟩), (by unfold State.routed; decide +kernel), (by first | decide +kernel | rfl), (by first | decide +kernel | rfl), (by exact Or.inl rfl), (by first | decide +kernel | rfl), (by first | decide +kernel | rfl)⟩,
   ⟨paired 2 { st := .active, pairing := { lastIn := 1 } }, (paired 2 { st := .active, pairing := { lastIn := 1 } }).tookFrom 3, 3, 9, post 1, .postReq 3 9 (post 1), (((paired 2 { st := .active, pairing := { lastIn := 1 } }).tookFrom 3).slice 0).pairing, (by unfold State.routed; decide +kernel), (by first | decide +kernel | rfl), (by first | decide +kernel | rfl), (by exact Or.inl rfl), (by first | decide +kernel | rfl), (by first | decide +kernel | rfl), (by first | decide +kernel | rfl)⟩,
   ⟨paired 2 { st := .active }, (paired 2 { st := .active }).tookFrom 3, 3, 9, post 1, .postReq 3 9 (post 1), (((paired 2 { st := .active }).tookFrom 3).slice 0).pairing, (by unfold State.routed; decide +kernel), (by first | decide +kernel | rfl), (by first | decide +kernel | rfl), (by exact Or.inl rfl), (by first | decide +kernel | rfl), (by first | decide +kernel | rfl), (by first | decide +kernel | rfl), (by first | decide +kernel | rfl)⟩,
   ⟨paired 2 { st := .active }, (paired 2 { st := .active }).tookFrom 3, 3, 9, post 2, .postReq 3 9 (post 2), (((paired 2 { st := .active }).tookFrom 3).slice 0).pairing, (by unfold State.routed; decide +kernel), (by first | decide +kernel | rfl), (by first | decide +kernel | rfl), (by exact Or.inl rfl), (by first | decide +kernel | rfl), (by first | decide +kernel | rfl), (by first | decide +kernel | rfl), (by first | decide +kernel | rfl)⟩,
   ⟨paired 1 { st := .active, pairing := { state := .paired, waits := [{ pairSeq := 1, cmd := some cid0, addr := 3, partner := 5, ranges := [], resync := false }] } }, (paired 1 { st := .active, pairing := { state := .paired, waits := [{ pairSeq := 1, cmd := some cid0, addr := 3, partner := 5, ranges := [], resync := false }] } }).tookFrom 3, State.modPairing (((paired 1 { st := .active, pairing := { state := .paired, waits := [{ pairSeq := 1, cmd := some cid0, addr := 3, partner := 5, ranges := [], resync := false }] } }).tookFrom 3).settle (fun m => m.dest = (3) && (m.type = 0x10 || m.type = 0x12) && m.words.getD 0 0 = (1) && m.words.getD 3 512 = (0) && m.words.getD 4 512 = (({ pairSeq := 1, cmd := some cid0, addr := 3, partner := 5, ranges := [], resync := false } : PairWait)).partner)) (0) (fun q => { q with waits := q.waits.filter (fun v => decide (v ≠ (({ pairSeq := 1, cmd := some cid0, addr := 3, partner := 5, ranges := [], resync := false } : PairWait)))) }), 3, 0, 1, 1, ({ pairSeq := 1, cmd := some cid0, addr := 3, partner := 5, ranges := [], resync := false } : PairWait), (by unfold State.routed; decide +kernel), (by first | decide +kernel | rfl), (by first | decide +kernel | rfl), (by first | decide +kernel | rfl), rfl, (by first | decide +kernel | rfl)⟩,
   ⟨paired 1 { st := .active, pairing := { state := .paired, waits := [{ pairSeq := 1, cmd := some cid0, addr := 3, partner := 5, ranges := [], resync := false }] } }, (paired 1 { st := .active, pairing := { state := .paired, waits := [{ pairSeq := 1, cmd := some cid0, addr := 3, partner := 5, ranges := [], resync := false }] } }).tookFrom 3, State.modPairing (((paired 1 { st := .active, pairing := { state := .paired, waits := [{ pairSeq := 1, cmd := some cid0, addr := 3, partner := 5, ranges := [], resync := false }] } }).tookFrom 3).settle (fun m => m.dest = (3) && (m.type = 0x10 || m.type = 0x12) && m.words.getD 0 0 = (1) && m.words.getD 3 512 = (0) && m.words.getD 4 512 = (({ pairSeq := 1, cmd := some cid0, addr := 3, partner := 5, ranges := [], resync := false } : PairWait)).partner)) (0) (fun q => { q with waits := q.waits.filter (fun v => decide (v ≠ (({ pairSeq := 1, cmd := some cid0, addr := 3, partner := 5, ranges := [], resync := false } : PairWait)))) }), 3, 0, 1, 0, ({ pairSeq := 1, cmd := some cid0, addr := 3, partner := 5, ranges := [], resync := false } : PairWait), cid0, (by unfold State.routed; decide +kernel), (by first | decide +kernel | rfl), (by first | decide +kernel | rfl), (by first | decide +kernel | rfl), rfl, (by first | decide +kernel | rfl), (by first | decide +kernel | rfl)⟩,
   ⟨paired 1 { st := .active, pairing := { state := .resyncing, waits := [{ pairSeq := 1, cmd := none, addr := 3, partner := 5, ranges := [], resync := false }] } }, (paired 1 { st := .active, pairing := { state := .resyncing, waits := [{ pairSeq := 1, cmd := none, addr := 3, partner := 5, ranges := [], resync := false }] } }).tookFrom 3, State.modPairing (((paired 1 { st := .active, pairing := { state := .resyncing, waits := [{ pairSeq := 1, cmd := none, addr := 3, partner := 5, ranges := [], resync := false }] } }).tookFrom 3).settle (fun m => m.dest = (3) && (m.type = 0x10 || m.type = 0x12) && m.words.getD 0 0 = (1) && m.words.getD 3 512 = (0) && m.words.getD 4 512 = (({ pairSeq := 1, cmd := none, addr := 3, partner := 5, ranges := [], resync := false } : PairWait)).partner)) (0) (fun q => { q with waits := q.waits.filter (fun v => decide (v ≠ (({ pairSeq := 1, cmd := none, addr := 3, partner := 5, ranges := [], resync := false } : PairWait)))) }), 3, 0, 1, 0, ({ pairSeq := 1, cmd := none, addr := 3, partner := 5, ranges := [], resync := false } : PairWait), (by unfold State.routed; decide +kernel), (by first | decide +kernel | rfl), (by first | decide +kernel | rfl), (by first | decide +kernel | rfl), rfl, (by first | decide +kernel | rfl), (by first | decide +kernel | rfl), (by first | decide +kernel | rfl), (by first | decide +kernel | rfl)⟩,
   ⟨paired 2 {}, (paired 2 {}).tookFrom (3), 3, 5, 0, 0xC3, (by unfold State.routed; decide +kernel), rfl, (by first | decide +kernel | rfl)⟩,
   ⟨{ paired 2 { st := .active } with rly := { (joined {}).rly with seen := [(3, 9)] } }, ({ paired 2 { st := .active } with rly := { (joined {}).rly with seen := [(3, 9)] } }).tookFrom (3), 3, 9, 5, 0, (by unfold State.routed; decide +kernel), rfl, (by first | decide +kernel | rfl), (by first | decide +kernel | rfl)⟩,
   ⟨paired 2 { st := .active }, (paired 2 { st := .active }).tookFrom (3), 3, 9, 5, 0, (by unfold State.routed; decide +kernel), rfl, (by first | decide +kernel | rfl), (by first | decide +kernel | rfl)⟩,
   ⟨paired 1 { st := .active, pairing := { state := .unpaired } }, 0, (by first | decide +kernel | rfl), (by first | decide +kernel | rfl), (by first | decide +kernel | rfl), (by first | decide +kernel | rfl), (by intro l h; cases h), (by first | decide +kernel | rfl)⟩,
   ⟨{ joined {} with rly := { (joined {}).rly with msgs := [{ id := 7, dest := 3, type := 0x20, words := [0], body := [], first := 0, last := 0 }], migOut := [] } }, ({ joined {} with rly := { (joined {}).rly with msgs := [{ id := 7, dest := 3, type := 0x20, words := [0], body := [], first := 0, last := 0 }], migOut := [] } }).tookFrom (3), 3, 7, 0, { id := 7, dest := 3, type := 0x20, words := [0], body := [], first := 0, last := 0 }, (by unfold State.routed; decide +kernel), rfl, (by first | decide +kernel | rfl), (by exact Or.inl rfl)⟩,
   ⟨{ joined {} with rly := { (joined {}).rly with msgs := [{ id := 7, dest := 3, type := 0x20, words := [0], body := [], first := 0, last := 0 }], migOut := [{ slice := 0, peer := 3, peerSlice := 5, serial := 0, count := 1 }] } }, ({ joined {} with rly := { (joined {}).rly with msgs := [{ id := 7, dest := 3, type := 0x20, words := [0], body := [], first := 0, last := 0 }], migOut := [{ slice := 0, peer := 3, peerSlice := 5, serial := 0, count := 1 }] } }).tookFrom (3), 3, 7, 1, { id := 7, dest := 3, type := 0x20, words := [0], body := [], first := 0, last := 0 }, { slice := 0, peer := 3, peerSlice := 5, serial := 0, count := 1 }, (by unfold State.routed; decide +kernel), rfl, (by first | decide +kernel | rfl), (by first | decide +kernel | rfl), (by first | decide +kernel | rfl), (by first | decide +kernel | rfl)⟩⟩

set_option maxRecDepth 20000 in
theorem witness_MigrationCommands :
    (∃ (s u : State) (src : Nat) (m : MigIds), s.routed ∧ u = s.tookFrom src ∧ (u.slice m.dstSlice).st = .receiving ∧ (u.slice m.dstSlice).peerAddr = src ∧ (u.slice m.dstSlice).peerSlice = m.srcSlice ∧ u.migIn? src m = none) ∧
    (∃ (s u : State) (src : Nat) (m : MigIds), s.routed ∧ u = s.tookFrom src ∧ (u.slice m.dstSlice).st = .receiving ∧ (u.slice m.dstSlice).peerAddr = src ∧ (u.slice m.dstSlice).peerSlice = m.srcSlice ∧ (u.migIn? src m).isSome = true) ∧
    (∃ (s u : State) (src : Nat) (m : MigIds), s.routed ∧ u = s.tookFrom src ∧ ((u.slice m.dstSlice).st ≠ .receiving ∨ (u.slice m.dstSlice).peerAddr ≠ src ∨ (u.slice m.dstSlice).peerSlice ≠ m.srcSlice)) ∧
    (∃ (s u v : State) (src n serial : Nat) (cause : BitVec 8) (m : MigOut) (p : SlcPending), s.routed ∧ n < 512 ∧ u = s.tookFrom src ∧ u.rly.migOut.find? (fun m => m.slice = n && m.peer = src && m.serial = serial && !m.accepted) = some m ∧ u.slc.op = some p ∧ p.op = .migrate ∧ p.slice = n ∧ v = u.settle (fun q => q.dest = src && q.type = 0x20) ∧ cause ≠ 0) ∧
    (∃ (s u v : State) (src n serial : Nat) (cause : BitVec 8) (m : MigOut) (p : SlcPending), s.routed ∧ n < 512 ∧ u = s.tookFrom src ∧ u.rly.migOut.find? (fun m => m.slice = n && m.peer = src && m.serial = serial && !m.accepted) = some m ∧ u.slc.op = some p ∧ p.op = .migrate ∧ p.slice = n ∧ v = u.settle (fun q => q.dest = src && q.type = 0x20) ∧ cause = 0) ∧
    (∃ (s u : State) (src msg : Nat) (m : MigIds) (i : MigIn), s.routed ∧ u = s.tookFrom src ∧ u.migIn? src m = some i ∧ u.acted src msg = true) ∧
    (∃ (s u : State) (src msg : Nat) (m : MigIds) (i : MigIn) (b : MigImage), s.routed ∧ u = s.tookFrom src ∧ u.migIn? src m = some i ∧ u.acted src msg = false ∧ b.tagOk = false) ∧
    (∃ (s u : State) (src msg : Nat) (m : MigIds) (i : MigIn) (b : MigImage), s.routed ∧ u = s.tookFrom src ∧ u.migIn? src m = some i ∧ u.acted src msg = false ∧ b.tagOk = true ∧ (u.migFits b = false ∨ ∃ n ∈ b.namespaces, 4 < n.lbaf)) ∧
    (∃ (s u : State) (src msg : Nat) (m : MigIds) (i : MigIn) (b : MigImage), s.routed ∧ u = s.tookFrom src ∧ u.migIn? src m = some i ∧ u.acted src msg = false ∧ b.tagOk = true ∧ u.migFits b = true ∧ (∀ n ∈ b.namespaces, n.lbaf ≤ 4)) ∧
    (∃ (s u : State) (src msg : Nat) (m : MigIds) (i : MigIn), s.routed ∧ u = s.tookFrom src ∧ u.migIn? src m = some i ∧ u.acted src msg = false) ∧
    (∃ (s u : State) (src msg : Nat) (m : MigIds) (i : MigIn), s.routed ∧ u = s.tookFrom src ∧ u.migIn? src m = some i ∧ (∀ k ∈ i.ids, k < msg) ∧ i.ids.length = i.runs.length) ∧
    (∃ (s u : State) (src : Nat) (m : MigIds) (i : MigIn) (count : Nat) (digest : Bytes) (ok : Bool), s.routed ∧ u = s.tookFrom src ∧ u.migIn? src m = some i ∧ ok = (i.baton.isSome && count = i.runs.length && padTo 32 digest = padTo 32 (Config.sha3_256 (i.runs.flatMap State.migPayload))) ∧ i.committed = true) ∧
    (∃ (s u : State) (src : Nat) (m : MigIds) (i : MigIn) (count : Nat) (digest : Bytes) (ok : Bool), s.routed ∧ u = s.tookFrom src ∧ u.migIn? src m = some i ∧ ok = (i.baton.isSome && count = i.runs.length && padTo 32 digest = padTo 32 (Config.sha3_256 (i.runs.flatMap State.migPayload))) ∧ i.committed = false ∧ ok = true) ∧
    (∃ (s u : State) (src : Nat) (m : MigIds) (i : MigIn) (count : Nat) (digest : Bytes) (ok : Bool), s.routed ∧ u = s.tookFrom src ∧ u.migIn? src m = some i ∧ ok = (i.baton.isSome && count = i.runs.length && padTo 32 digest = padTo 32 (Config.sha3_256 (i.runs.flatMap State.migPayload))) ∧ i.committed = false ∧ ok = false) ∧
    (∃ (s u v : State) (src : Nat) (m : MigIds) (o : MigOut), s.routed ∧ u = s.tookFrom src ∧ u.rly.migOut.find? (fun o => o.slice = m.srcSlice && o.peer = src && o.serial = m.serial) = some o ∧ v = u.settle (fun q => q.dest = src && decide (0x20 ≤ q.type) && decide (q.type ≤ 0x24) && q.words.getD 0 512 = o.slice) ∧ o.committed = true) ∧
    (∃ (s u v : State) (src : Nat) (m : MigIds) (o : MigOut), s.routed ∧ u = s.tookFrom src ∧ u.rly.migOut.find? (fun o => o.slice = m.srcSlice && o.peer = src && o.serial = m.serial) = some o ∧ v = u.settle (fun q => q.dest = src && decide (0x20 ≤ q.type) && decide (q.type ≤ 0x24) && q.words.getD 0 512 = o.slice) ∧ o.committed = false) ∧
    (∃ (s u : State) (src : Nat) (m : MigIds) (i : _), s.routed ∧ u = s.tookFrom src ∧ u.migIn? src m = some i ∧ i.committed = true) ∧
    (∃ (s u : State) (src : Nat) (m : MigIds), s.routed ∧ u = s.tookFrom src ∧ (∀ i, u.migIn? src m = some i → i.committed = false)) ∧
    (∃ (s u : State) (src : Nat) (m : MigIds) (o : _), s.routed ∧ u = s.tookFrom src ∧ u.rly.migOut.find? (fun o => o.slice = m.srcSlice && o.peer = src && o.serial = m.serial && o.committed) = some o) ∧
    (∃ (s u : State) (src : Nat) (m : MigIds), s.routed ∧ u = s.tookFrom src ∧ u.rly.migOut.find? (fun o => o.slice = m.srcSlice && o.peer = src && o.serial = m.serial && o.committed) = none) ∧
    (∃ (s u v : State) (src msg : Nat), s.routed ∧ u = s.tookFrom src ∧ v = u.noteSeen src msg ∧ u.acted src msg = true) ∧
    (∃ (s u v : State) (src msg : Nat) (m : MigIds) (o : _), s.routed ∧ u = s.tookFrom src ∧ v = u.noteSeen src msg ∧ u.acted src msg = false ∧ u.rly.migOut.find? (fun o => o.slice = m.srcSlice && o.peer = src && o.serial = m.serial && !o.committed) = some o) ∧
    (∃ (s u v : State) (src msg : Nat) (m : MigIds) (i : _), s.routed ∧ u = s.tookFrom src ∧ v = u.noteSeen src msg ∧ u.acted src msg = false ∧ u.rly.migOut.find? (fun o => o.slice = m.srcSlice && o.peer = src && o.serial = m.serial && !o.committed) = none ∧ u.migIn? src m = some i ∧ i.committed = false) :=
  ⟨⟨{ { joined {} with rly := { (joined {}).rly with seen := [] } } with slices := [(0, { st := .receiving, peerAddr := 3, peerSlice := 5 })] }, ({ { joined {} with rly := { (joined {}).rly with seen := [] } } with slices := [(0, { st := .receiving, peerAddr := 3, peerSlice := 5 })] }).tookFrom (3), 3, (⟨5, 0, 0⟩ : MigIds), (by unfold State.routed; decide +kernel), rfl, (by first | decide +kernel | rfl), (by first | decide +kernel | rfl), (by first | decide +kernel | rfl), (by first | decide +kernel | rfl)⟩,
   ⟨{ { joined {} with rly := { (joined {}).rly with migIn := [{ slice := 0, peer := 3, peerSlice := 5, serial := 0 }] } } with slices := [(0, { st := .receiving, peerAddr := 3, peerSlice := 5 })] }, ({ { joined {} with rly := { (joined {}).rly with migIn := [{ slice := 0, peer := 3, peerSlice := 5, serial := 0 }] } } with slices := [(0, { st := .receiving, peerAddr := 3, peerSlice := 5 })] }).tookFrom (3), 3, (⟨5, 0, 0⟩ : MigIds), (by unfold State.routed; decide +kernel), rfl, (by first | decide +kernel | rfl), (by first | decide +kernel | rfl), (by first | decide +kernel | rfl), (by first | decide +kernel | rfl)⟩,
   ⟨joined {}, (joined {}).tookFrom (3), 3, (⟨5, 0, 0⟩ : MigIds), (by unfold State.routed; decide +kernel), rfl, (by first | decide +kernel | rfl)⟩,
   ⟨{ { joined {} with rly := { (joined {}).rly with migOut := [{ slice := 0, peer := 3, peerSlice := 5, serial := 0, count := 1 }] } } with slices := [(0, { st := .frozen })], slc := { op := some { op := .migrate, slice := 0, force := false } } }, ({ { joined {} with rly := { (joined {}).rly with migOut := [{ slice := 0, peer := 3, peerSlice := 5, serial := 0, count := 1 }] } } with slices := [(0, { st := .frozen })], slc := { op := some { op := .migrate, slice := 0, force := false } } }).tookFrom (3), (({ { joined {} with rly := { (joined {}).rly with migOut := [{ slice := 0, peer := 3, peerSlice := 5, serial := 0, count := 1 }] } } with slices := [(0, { st := .frozen })], slc := { op := some { op := .migrate, slice := 0, force := false } } }).tookFrom (3)).settle (fun q => q.dest = (3) && q.type = 0x20), 3, 0, 0, 0xC4, ({ slice := 0, peer := 3, peerSlice := 5, serial := 0, count := 1 } : MigOut), { op := .migrate, slice := 0, force := false }, (by unfold State.routed; decide +kernel), (by first | decide +kernel | rfl), rfl, (by first | decide +kernel | rfl), (by first | decide +kernel | rfl), (by first | decide +kernel | rfl), (by first | decide +kernel | rfl), rfl, (by first | decide +kernel | rfl)⟩,
   ⟨{ { joined {} with rly := { (joined {}).rly with migOut := [{ slice := 0, peer := 3, peerSlice := 5, serial := 0, count := 1 }] } } with slices := [(0, { st := .frozen })], slc := { op := some { op := .migrate, slice := 0, force := false } } }, ({ { joined {} with rly := { (joined {}).rly with migOut := [{ slice := 0, peer := 3, peerSlice := 5, serial := 0, count := 1 }] } } with slices := [(0, { st := .frozen })], slc := { op := some { op := .migrate, slice := 0, force := false } } }).tookFrom (3), (({ { joined {} with rly := { (joined {}).rly with migOut := [{ slice := 0, peer := 3, peerSlice := 5, serial := 0, count := 1 }] } } with slices := [(0, { st := .frozen })], slc := { op := some { op := .migrate, slice := 0, force := false } } }).tookFrom (3)).settle (fun q => q.dest = (3) && q.type = 0x20), 3, 0, 0, 0, ({ slice := 0, peer := 3, peerSlice := 5, serial := 0, count := 1 } : MigOut), { op := .migrate, slice := 0, force := false }, (by unfold State.routed; decide +kernel), (by first | decide +kernel | rfl), rfl, (by first | decide +kernel | rfl), (by first | decide +kernel | rfl), (by first | decide +kernel | rfl), (by first | decide +kernel | rfl), rfl, (by first | decide +kernel | rfl)⟩,
   ⟨{ { joined {} with rly := { (joined {}).rly with migIn := [{ slice := 0, peer := 3, peerSlice := 5, serial := 0 }], seen := [(3, 9)] } } with slices := [(0, { st := .receiving, peerAddr := 3, peerSlice := 5 })] }, ({ { joined {} with rly := { (joined {}).rly with migIn := [{ slice := 0, peer := 3, peerSlice := 5, serial := 0 }], seen := [(3, 9)] } } with slices := [(0, { st := .receiving, peerAddr := 3, peerSlice := 5 })] }).tookFrom (3), 3, 9, (⟨5, 0, 0⟩ : MigIds), ({ slice := 0, peer := 3, peerSlice := 5, serial := 0 } : MigIn), (by unfold State.routed; decide +kernel), rfl, (by first | decide +kernel | rfl), (by first | decide +kernel | rfl)⟩,
   ⟨{ { joined {} with rly := { (joined {}).rly with migIn := [{ slice := 0, peer := 3, peerSlice := 5, serial := 0 }] } } with slices := [(0, { st := .receiving, peerAddr := 3, peerSlice := 5 })] }, ({ { joined {} with rly := { (joined {}).rly with migIn := [{ slice := 0, peer := 3, peerSlice := 5, serial := 0 }] } } with slices := [(0, { st := .receiving, peerAddr := 3, peerSlice := 5 })] }).tookFrom (3), 3, 9, (⟨5, 0, 0⟩ : MigIds), ({ slice := 0, peer := 3, peerSlice := 5, serial := 0 } : MigIn), { tagOk := false, namespaces := [], keys := [], deliverySeq := 0, pair := 0, cores := [], banks := [], dram := [], meas := [], logEnts := [], logCount := 0 }, (by unfold State.routed; decide +kernel), rfl, (by first | decide +kernel | rfl), (by first | decide +kernel | rfl), (by first | decide +kernel | rfl)⟩,
   ⟨{ { joined {} with rly := { (joined {}).rly with migIn := [{ slice := 0, peer := 3, peerSlice := 5, serial := 0 }] } } with slices := [(0, { st := .receiving, peerAddr := 3, peerSlice := 5 })] }, ({ { joined {} with rly := { (joined {}).rly with migIn := [{ slice := 0, peer := 3, peerSlice := 5, serial := 0 }] } } with slices := [(0, { st := .receiving, peerAddr := 3, peerSlice := 5 })] }).tookFrom (3), 3, 9, (⟨5, 0, 0⟩ : MigIds), ({ slice := 0, peer := 3, peerSlice := 5, serial := 0 } : MigIn), { tagOk := true, namespaces := [⟨1, 1, 5, 0⟩], keys := [], deliverySeq := 0, pair := 0, cores := [], banks := [], dram := [], meas := [], logEnts := [], logCount := 0 }, (by unfold State.routed; decide +kernel), rfl, (by first | decide +kernel | rfl), (by first | decide +kernel | rfl), (by first | decide +kernel | rfl), (by exact Or.inr ⟨⟨1, 1, 5, 0⟩, by decide, by decide⟩)⟩,
   ⟨{ { joined {} with rly := { (joined {}).rly with migIn := [{ slice := 0, peer := 3, peerSlice := 5, serial := 0 }] } } with slices := [(0, { st := .receiving, peerAddr := 3, peerSlice := 5 })] }, ({ { joined {} with rly := { (joined {}).rly with migIn := [{ slice := 0, peer := 3, peerSlice := 5, serial := 0 }] } } with slices := [(0, { st := .receiving, peerAddr := 3, peerSlice := 5 })] }).tookFrom (3), 3, 9, (⟨5, 0, 0⟩ : MigIds), ({ slice := 0, peer := 3, peerSlice := 5, serial := 0 } : MigIn), { tagOk := true, namespaces := [], keys := [], deliverySeq := 0, pair := 0, cores := [], banks := [], dram := [], meas := [], logEnts := [], logCount := 0 }, (by unfold State.routed; decide +kernel), rfl, (by first | decide +kernel | rfl), (by first | decide +kernel | rfl), (by first | decide +kernel | rfl), (by first | decide +kernel | rfl), (by intro n h; cases h)⟩,
   ⟨{ { joined {} with rly := { (joined {}).rly with migIn := [{ slice := 0, peer := 3, peerSlice := 5, serial := 0 }] } } with slices := [(0, { st := .receiving, peerAddr := 3, peerSlice := 5 })] }, ({ { joined {} with rly := { (joined {}).rly with migIn := [{ slice := 0, peer := 3, peerSlice := 5, serial := 0 }] } } with slices := [(0, { st := .receiving, peerAddr := 3, peerSlice := 5 })] }).tookFrom (3), 3, 9, (⟨5, 0, 0⟩ : MigIds), ({ slice := 0, peer := 3, peerSlice := 5, serial := 0 } : MigIn), (by unfold State.routed; decide +kernel), rfl, (by first | decide +kernel | rfl), (by first | decide +kernel | rfl)⟩,
   ⟨{ { joined {} with rly := { (joined {}).rly with migIn := [{ slice := 0, peer := 3, peerSlice := 5, serial := 0, ids := [4], runs := [{ nsid := 1, lost := false, slba := 0, blocks := [], count := 1 }] }] } } with slices := [(0, { st := .receiving, peerAddr := 3, peerSlice := 5 })] }, ({ { joined {} with rly := { (joined {}).rly with migIn := [{ slice := 0, peer := 3, peerSlice := 5, serial := 0, ids := [4], runs := [{ nsid := 1, lost := false, slba := 0, blocks := [], count := 1 }] }] } } with slices := [(0, { st := .receiving, peerAddr := 3, peerSlice := 5 })] }).tookFrom (3), 3, 9, (⟨5, 0, 0⟩ : MigIds), ({ slice := 0, peer := 3, peerSlice := 5, serial := 0, ids := [4], runs := [{ nsid := 1, lost := false, slba := 0, blocks := [], count := 1 }] } : MigIn), (by unfold State.routed; decide +kernel), rfl, (by first | decide +kernel | rfl), (by decide), (by first | decide +kernel | rfl)⟩,
   ⟨{ { joined {} with rly := { (joined {}).rly with migIn := [{ slice := 0, peer := 3, peerSlice := 5, serial := 0, committed := true }] } } with slices := [(0, { st := .receiving, peerAddr := 3, peerSlice := 5 })] }, ({ { joined {} with rly := { (joined {}).rly with migIn := [{ slice := 0, peer := 3, peerSlice := 5, serial := 0, committed := true }] } } with slices := [(0, { st := .receiving, peerAddr := 3, peerSlice := 5 })] }).tookFrom (3), 3, (⟨5, 0, 0⟩ : MigIds), ({ slice := 0, peer := 3, peerSlice := 5, serial := 0, committed := true } : MigIn), 0, [], false, (by unfold State.routed; decide +kernel), rfl, (by first | decide +kernel | rfl), (by first | decide +kernel | rfl), (by first | decide +kernel | rfl)⟩,
   ⟨{ { joined {} with rly := { (joined {}).rly with migIn := [{ slice := 0, peer := 3, peerSlice := 5, serial := 0, baton := some { tagOk := true, namespaces := [], keys := [], deliverySeq := 0, pair := 0, cores := [], banks := [], dram := [], meas := [], logEnts := [], logCount := 0 } }] } } with slices := [(0, { st := .receiving, peerAddr := 3, peerSlice := 5 })] }, ({ { joined {} with rly := { (joined {}).rly with migIn := [{ slice := 0, peer := 3, peerSlice := 5, serial := 0, baton := some { tagOk := true, namespaces := [], keys := [], deliverySeq := 0, pair := 0, cores := [], banks := [], dram := [], meas := [], logEnts := [], logCount := 0 } }] } } with slices := [(0, { st := .receiving, peerAddr := 3, peerSlice := 5 })] }).tookFrom (3), 3, (⟨5, 0, 0⟩ : MigIds), ({ slice := 0, peer := 3, peerSlice := 5, serial := 0, baton := some { tagOk := true, namespaces := [], keys := [], deliverySeq := 0, pair := 0, cores := [], banks := [], dram := [], meas := [], logEnts := [], logCount := 0 } } : MigIn), 0, Config.sha3_256 [], true, (by unfold State.routed; decide +kernel), rfl, (by first | decide +kernel | rfl), (by simp), (by first | decide +kernel | rfl), (by first | decide +kernel | rfl)⟩,
   ⟨{ { joined {} with rly := { (joined {}).rly with migIn := [{ slice := 0, peer := 3, peerSlice := 5, serial := 0 }] } } with slices := [(0, { st := .receiving, peerAddr := 3, peerSlice := 5 })] }, ({ { joined {} with rly := { (joined {}).rly with migIn := [{ slice := 0, peer := 3, peerSlice := 5, serial := 0 }] } } with slices := [(0, { st := .receiving, peerAddr := 3, peerSlice := 5 })] }).tookFrom (3), 3, (⟨5, 0, 0⟩ : MigIds), ({ slice := 0, peer := 3, peerSlice := 5, serial := 0 } : MigIn), 0, [], false, (by unfold State.routed; decide +kernel), rfl, (by first | decide +kernel | rfl), (by first | decide +kernel | rfl), (by first | decide +kernel | rfl), (by first | decide +kernel | rfl)⟩,
   ⟨{ joined {} with rly := { (joined {}).rly with migOut := [{ slice := 0, peer := 3, peerSlice := 5, serial := 0, count := 1, committed := true }] } }, ({ joined {} with rly := { (joined {}).rly with migOut := [{ slice := 0, peer := 3, peerSlice := 5, serial := 0, count := 1, committed := true }] } }).tookFrom (3), (({ joined {} with rly := { (joined {}).rly with migOut := [{ slice := 0, peer := 3, peerSlice := 5, serial := 0, count := 1, committed := true }] } }).tookFrom (3)).settle (fun q => q.dest = (3) && decide (0x20 ≤ q.type) && decide (q.type ≤ 0x24) && q.words.getD 0 512 = (({ slice := 0, peer := 3, peerSlice := 5, serial := 0, count := 1, committed := true } : MigOut)).slice), 3, (⟨0, 5, 0⟩ : MigIds), ({ slice := 0, peer := 3, peerSlice := 5, serial := 0, count := 1, committed := true } : MigOut), (by unfold State.routed; decide +kernel), rfl, (by first | decide +kernel | rfl), rfl, (by first | decide +kernel | rfl)⟩,
   ⟨{ joined {} with rly := { (joined {}).rly with migOut := [{ slice := 0, peer := 3, peerSlice := 5, serial := 0, count := 1 }] } }, ({ joined {} with rly := { (joined {}).rly with migOut := [{ slice := 0, peer := 3, peerSlice := 5, serial := 0, count := 1 }] } }).tookFrom (3), (({ joined {} with rly := { (joined {}).rly with migOut := [{ slice := 0, peer := 3, peerSlice := 5, serial := 0, count := 1 }] } }).tookFrom (3)).settle (fun q => q.dest = (3) && decide (0x20 ≤ q.type) && decide (q.type ≤ 0x24) && q.words.getD 0 512 = (({ slice := 0, peer := 3, peerSlice := 5, serial := 0, count := 1 } : MigOut)).slice), 3, (⟨0, 5, 0⟩ : MigIds), ({ slice := 0, peer := 3, peerSlice := 5, serial := 0, count := 1 } : MigOut), (by unfold State.routed; decide +kernel), rfl, (by first | decide +kernel | rfl), rfl, (by first | decide +kernel | rfl)⟩,
   ⟨{ { joined {} with rly := { (joined {}).rly with migIn := [{ slice := 0, peer := 3, peerSlice := 5, serial := 0, committed := true }] } } with slices := [(0, { st := .receiving, peerAddr := 3, peerSlice := 5 })] }, ({ { joined {} with rly := { (joined {}).rly with migIn := [{ slice := 0, peer := 3, peerSlice := 5, serial := 0, committed := true }] } } with slices := [(0, { st := .receiving, peerAddr := 3, peerSlice := 5 })] }).tookFrom (3), 3, (⟨5, 0, 0⟩ : MigIds), ({ slice := 0, peer := 3, peerSlice := 5, serial := 0, committed := true } : MigIn), (by unfold State.routed; decide +kernel), rfl, (by first | decide +kernel | rfl), (by first | decide +kernel | rfl)⟩,
   ⟨joined {}, (joined {}).tookFrom (3), 3, (⟨5, 0, 0⟩ : MigIds), (by unfold State.routed; decide +kernel), rfl, (by intro i h; cases h)⟩,
   ⟨{ joined {} with rly := { (joined {}).rly with migOut := [{ slice := 0, peer := 3, peerSlice := 5, serial := 0, count := 1, committed := true }] } }, ({ joined {} with rly := { (joined {}).rly with migOut := [{ slice := 0, peer := 3, peerSlice := 5, serial := 0, count := 1, committed := true }] } }).tookFrom (3), 3, (⟨0, 5, 0⟩ : MigIds), ({ slice := 0, peer := 3, peerSlice := 5, serial := 0, count := 1, committed := true } : MigOut), (by unfold State.routed; decide +kernel), rfl, (by first | decide +kernel | rfl)⟩,
   ⟨joined {}, (joined {}).tookFrom (3), 3, (⟨0, 5, 0⟩ : MigIds), (by unfold State.routed; decide +kernel), rfl, (by first | decide +kernel | rfl)⟩,
   ⟨{ joined {} with rly := { (joined {}).rly with seen := [(3, 9)] } }, ({ joined {} with rly := { (joined {}).rly with seen := [(3, 9)] } }).tookFrom (3), (({ joined {} with rly := { (joined {}).rly with seen := [(3, 9)] } }).tookFrom (3)).noteSeen (3) (9), 3, 9, (by unfold State.routed; decide +kernel), rfl, rfl, (by first | decide +kernel | rfl)⟩,
   ⟨{ joined {} with rly := { (joined {}).rly with migOut := [{ slice := 0, peer := 3, peerSlice := 5, serial := 0, count := 1 }] } }, ({ joined {} with rly := { (joined {}).rly with migOut := [{ slice := 0, peer := 3, peerSlice := 5, serial := 0, count := 1 }] } }).tookFrom (3), (({ joined {} with rly := { (joined {}).rly with migOut := [{ slice := 0, peer := 3, peerSlice := 5, serial := 0, count := 1 }] } }).tookFrom (3)).noteSeen (3) (9), 3, 9, (⟨0, 5, 0⟩ : MigIds), ({ slice := 0, peer := 3, peerSlice := 5, serial := 0, count := 1 } : MigOut), (by unfold State.routed; decide +kernel), rfl, rfl, (by first | decide +kernel | rfl), (by first | decide +kernel | rfl)⟩,
   ⟨{ { joined {} with rly := { (joined {}).rly with migIn := [{ slice := 0, peer := 3, peerSlice := 5, serial := 0 }] } } with slices := [(0, { st := .receiving, peerAddr := 3, peerSlice := 5 })] }, ({ { joined {} with rly := { (joined {}).rly with migIn := [{ slice := 0, peer := 3, peerSlice := 5, serial := 0 }] } } with slices := [(0, { st := .receiving, peerAddr := 3, peerSlice := 5 })] }).tookFrom (3), (({ { joined {} with rly := { (joined {}).rly with migIn := [{ slice := 0, peer := 3, peerSlice := 5, serial := 0 }] } } with slices := [(0, { st := .receiving, peerAddr := 3, peerSlice := 5 })] }).tookFrom (3)).noteSeen (3) (9), 3, 9, (⟨5, 0, 0⟩ : MigIds), ({ slice := 0, peer := 3, peerSlice := 5, serial := 0 } : MigIn), (by unfold State.routed; decide +kernel), rfl, rfl, (by first | decide +kernel | rfl), (by first | decide +kernel | rfl), (by first | decide +kernel | rfl), (by first | decide +kernel | rfl)⟩⟩

theorem witness_SliceCommandsAreRecordedAndJudged :
    (∃ (s : State) (q : Requester) (n : Nat) (p : _), p ∈ [(Instr.create q n, SlcOp.create, false), (.resetDrain q n, .resetDrain, false), (.resetSquash q n, .resetSquash, false), (.freeze q n, .freeze, false), (.thaw q n true, .thaw, true), (.thaw q n false, .thaw, false), (.save q n, .save, false), (.restore q n, .restore, false), (.destroy q n, .destroy, false), (.migrate q n, .migrate, false), (.accept q n, .accept, false), (.movePort q n, .movePort, false), (.cancel q n, .cancel, false)] ∧ s.up ∧ s.honours q ∧ n < 512 ∧ s.slc.op = none) ∧
    (∃ (s : State) (q : Requester) (n : Nat) (p : _), p ∈ [(Instr.create q n, SlcOp.create, false), (.resetDrain q n, .resetDrain, false), (.resetSquash q n, .resetSquash, false), (.freeze q n, .freeze, false), (.thaw q n true, .thaw, true), (.thaw q n false, .thaw, false), (.save q n, .save, false), (.restore q n, .restore, false), (.destroy q n, .destroy, false), (.migrate q n, .migrate, false), (.accept q n, .accept, false), (.movePort q n, .movePort, false), (.cancel q n, .cancel, false)] ∧ s.up ∧ s.honours q ∧ n < 512 ∧ s.slc.op.isSome = true) ∧
    (∃ (s : State) (n : Nat) (p : SlcPending), s.slc.op = some p ∧ p.slice = n ∧ p.judged = false ∧ s.hasCourse = true ∧ s.dev.phase = .ready ∧ p.op ∈ [.freeze, .resetDrain, .resetSquash, .thaw, .save, .destroy] ∧ s.slcAdmits p.op n = false) ∧
    (∃ (s : State) (n : Nat) (p : SlcPending) (a b : SlState) (drain : Bool), s.slc.op = some p ∧ p.slice = n ∧ p.judged = false ∧ s.hasCourse = true ∧ s.dev.phase = .ready ∧ (p.op, a, b, drain) ∈ [(SlcOp.resetDrain, SlState.active, SlState.resetting, true), (.resetDrain, .frozen, .resetting, true), (.resetSquash, .active, .resetting, false), (.resetSquash, .frozen, .resetting, false)] ∧ (s.slice n).st = a) ∧
    (∃ (s : State) (n : Nat) (p : SlcPending), s.slc.op = some p ∧ p.slice = n ∧ p.judged = false ∧ s.hasCourse = true ∧ s.dev.phase = .ready ∧ p.op = .freeze ∧ (s.slice n).st = .active) ∧
    (∃ (s : State) (n : Nat) (p : SlcPending), s.slc.op = some p ∧ p.slice = n ∧ p.judged = false ∧ s.hasCourse = true ∧ s.dev.phase = .ready ∧ p.op = .thaw ∧ (s.slice n).st = .frozen ∧ (s.slice n).sourceLive = false) ∧
    (Config.batonOverhead 512 ≤ 0x8000 → ∃ (s : State) (n : Nat) (p : SlcPending), s.slc.op = some p ∧ p.slice = n ∧ p.judged = false ∧ s.hasCourse = true ∧ s.dev.phase = .ready ∧ p.op = .save ∧ (s.slice n).st = .frozen ∧ s.batonNeed n ≤ s.rwNat 0x40020) ∧
    (∃ (s : State) (n : Nat) (p : SlcPending), s.slc.op = some p ∧ p.slice = n ∧ p.judged = false ∧ s.hasCourse = true ∧ s.dev.phase = .ready ∧ p.op = .destroy ∧ (s.slice n).st ∈ [.frozen, .parked]) :=
  ⟨⟨up, .port 0, 0, (.thaw (.port 0) 0 true, .thaw, true), (by first | decide +kernel | rfl), (by unfold State.up; decide +kernel), (by simp only [State.honours]; decide +kernel), (by first | decide +kernel | rfl), (by first | decide +kernel | rfl)⟩,
   ⟨{ ready with slc := { ready.slc with op := some { op := .create, slice := 0, force := false, at' := 0, judged := false } } }, .port 0, 0, (.cancel (.port 0) 0, .cancel, false), (by first | decide +kernel | rfl), (by unfold State.up; decide +kernel), (by simp only [State.honours]; decide +kernel), (by first | decide +kernel | rfl), (by first | decide +kernel | rfl)⟩,
   ⟨{ ready with slc := { ready.slc with op := some { op := .freeze, slice := 0, force := false, at' := 0, judged := false } } }, 0, _, rfl, (by first | decide +kernel | rfl), (by first | decide +kernel | rfl), (by first | decide +kernel | rfl), (by first | decide +kernel | rfl), (by first | decide +kernel | rfl), (by first | decide +kernel | rfl)⟩,
   ⟨{ ready with slc := { ready.slc with op := some { op := .resetSquash, slice := 0, force := false, at' := 0, judged := false } }, slices := [(0, { st := .frozen })] }, 0, _, .frozen, .resetting, false, rfl, (by first | decide +kernel | rfl), (by first | decide +kernel | rfl), (by first | decide +kernel | rfl), (by first | decide +kernel | rfl), (by first | decide +kernel | rfl), (by first | decide +kernel | rfl)⟩,
   ⟨{ ready with slc := { ready.slc with op := some { op := .freeze, slice := 0, force := false, at' := 0, judged := false } }, slices := [(0, { st := .active })] }, 0, _, rfl, (by first | decide +kernel | rfl), (by first | decide +kernel | rfl), (by first | decide +kernel | rfl), (by first | decide +kernel | rfl), (by first | decide +kernel | rfl), (by first | decide +kernel | rfl)⟩,
   ⟨{ ready with slc := { ready.slc with op := some { op := .thaw, slice := 0, force := false, at' := 0, judged := false } }, slices := [(0, { st := .frozen })] }, 0, _, rfl, (by first | decide +kernel | rfl), (by first | decide +kernel | rfl), (by first | decide +kernel | rfl), (by first | decide +kernel | rfl), (by first | decide +kernel | rfl), (by first | decide +kernel | rfl), (by first | decide +kernel | rfl)⟩,
   fun h => ⟨{ ready with slc := { ready.slc with op := some { op := .save, slice := 0, force := false, at' := 0, judged := false } }, slices := [(0, { st := .frozen })], rw := [(0x40020, 0x10000)] }, 0, _, rfl, (by first | decide +kernel | rfl), (by first | decide +kernel | rfl), (by first | decide +kernel | rfl), (by first | decide +kernel | rfl), (by first | decide +kernel | rfl), (by first | decide +kernel | rfl), (by show 0x68 + (Config.batonOverhead 512 + 0 + 0 + 0) + 16 ≤ 0x10000; omega)⟩,
   ⟨{ ready with slc := { ready.slc with op := some { op := .destroy, slice := 0, force := false, at' := 0, judged := false } }, slices := [(0, { st := .parked })] }, 0, _, rfl, (by first | decide +kernel | rfl), (by first | decide +kernel | rfl), (by first | decide +kernel | rfl), (by first | decide +kernel | rfl), (by first | decide +kernel | rfl), (by first | decide +kernel | rfl)⟩⟩

theorem witness_SliceOperationsEnd :
    (∃ (s : State) (n : Nat) (p : SlcPending), n < 512 ∧ s.slc.op = some p ∧ p.slice = n ∧ p.judged = true ∧ p.op ∈ [.create, .accept, .restore, .movePort]) ∧
    (∃ (s : State) (n : Nat) (d : Bytes) (p : SlcPending) (period : Nat), n < 512 ∧ s.slc.op = some p ∧ p.slice = n ∧ p.judged = true ∧ p.op = .create ∧ period = (match s.crs.inForce with | some c => c.period | none => 0) ∧ descBad (padTo 128 d) n period s.portCount = none ∧ s.drawBad n (descDraw (padTo 128 d)) = none ∧ (∀ (m : Nat) (bs : Bytes), PkKind.keygen m bs ∉ s.kst.jobs)) ∧
    (∃ (s : State) (n : Nat) (bs : Bytes) (p : SlcPending) (period : Nat), s.slc.op = some p ∧ p.slice = n ∧ p.judged = true ∧ p.op = .create ∧ s.pkCurrent = some (.keygen n bs) ∧ s.kst.state = .ready ∧ period = (match s.crs.inForce with | some c => c.period | none => 0) ∧ descBad bs n period s.portCount = none ∧ s.drawBad n (descDraw bs) = none) ∧
    (∃ (s : State) (n : Nat) (d : Bytes) (p : SlcPending) (period : Nat), n < 512 ∧ s.slc.op = some p ∧ p.slice = n ∧ p.judged = true ∧ p.op = .accept ∧ period = (match s.crs.inForce with | some c => c.period | none => 0) ∧ descBad (padTo 128 d) n period s.portCount = none ∧ s.drawBad n (descDraw (padTo 128 d)) = none) ∧
    (∃ (s : State) (n : Nat) (x : Slice), n < 512 ∧ x = s.slice n ∧ x.st = .freezing ∧ x.adms.all (fun a => s.heatStays a.id) = true ∧ x.ready = [] ∧ s.heatBlocks n = false) ∧
    (∃ (s : State) (n : Nat) (x : Slice), n < 512 ∧ x = s.slice n ∧ x.st = .resetting ∧ State.quiet x = true) ∧
    (∃ (s : State) (n : Nat) (x : Slice), n < 512 ∧ x = s.slice n ∧ x.st = .saving ∧ x.entries = []) ∧
    (∃ (s : State) (n : Nat) (x : Slice), n < 512 ∧ x = s.slice n ∧ x.st = .restoring) ∧
    (∃ (s : State) (n : Nat) (b : Baton), n < 512 ∧ (s.slice n).st = .restoring ∧ (s.slice n).bound = true ∧ s.dur.batons.find? (fun b => b.slice = n && b.serial = (s.serialOf n).serial) = some b) ∧
    (∃ (s : State) (n q : Nat), n < 512 ∧ (s.slice n).st = .destroying ∧ (∀ j ∈ s.ftl.jobs, j.slice ≠ n) ∧ (s.slice n).trimSeq = some q ∧ q ≤ s.ftl.jseq) :=
  ⟨⟨{ ready with slc := { ready.slc with op := some { op := .create, slice := 0, force := false, at' := 0, judged := true } } }, 0, _, (by first | decide +kernel | rfl), rfl, (by first | decide +kernel | rfl), (by first | decide +kernel | rfl), (by first | decide +kernel | rfl)⟩,
   ⟨{ { up with crs := { up.crs with state := .applied, inForce := some crsA } } with slc := { up.slc with op := some { op := .create, slice := 0, force := false, at' := 0, judged := true } } }, 0, desc, _, _, (by first | decide +kernel | rfl), rfl, (by first | decide +kernel | rfl), (by first | decide +kernel | rfl), (by first | decide +kernel | rfl), rfl, (by first | decide +kernel | rfl), (by first | decide +kernel | rfl), (by intro m bs h; exact absurd h (List.not_mem_nil))⟩,
   ⟨{ { up with kst := { state := .ready, jobs := [.keygen 0 desc] }, crs := { up.crs with state := .applied, inForce := some crsA } } with slc := { up.slc with op := some { op := .create, slice := 0, force := false, at' := 0, judged := true } } }, 0, desc, _, _, rfl, (by first | decide +kernel | rfl), (by first | decide +kernel | rfl), (by first | decide +kernel | rfl), (by first | decide +kernel | rfl), (by first | decide +kernel | rfl), rfl, (by first | decide +kernel | rfl), (by first | decide +kernel | rfl)⟩,
   ⟨{ { up with crs := { up.crs with state := .applied, inForce := some crsA } } with slc := { up.slc with op := some { op := .accept, slice := 0, force := false, at' := 0, judged := true } } }, 0, desc, _, _, (by first | decide +kernel | rfl), rfl, (by first | decide +kernel | rfl), (by first | decide +kernel | rfl), (by first | decide +kernel | rfl), rfl, (by first | decide +kernel | rfl), (by first | decide +kernel | rfl)⟩,
   ⟨withSlice { st := .freezing }, 0, _, (by first | decide +kernel | rfl), rfl, (by first | decide +kernel | rfl), (by first | decide +kernel | rfl), (by first | decide +kernel | rfl), (by first | decide +kernel | rfl)⟩,
   ⟨withSlice { st := .resetting }, 0, _, (by first | decide +kernel | rfl), rfl, (by first | decide +kernel | rfl), (by first | decide +kernel | rfl)⟩,
   ⟨withSlice { st := .saving }, 0, _, (by first | decide +kernel | rfl), rfl, (by first | decide +kernel | rfl), (by first | decide +kernel | rfl)⟩,
   ⟨withSlice { st := .restoring }, 0, _, (by first | decide +kernel | rfl), rfl, (by first | decide +kernel | rfl)⟩,
   ⟨{ withSlice { st := .restoring, bound := true } with dur := { batons := [baton] } }, 0, _, (by first | decide +kernel | rfl), (by first | decide +kernel | rfl), (by first | decide +kernel | rfl), rfl⟩,
   ⟨withSlice { st := .destroying, trimSeq := some 0 }, 0, _, (by first | decide +kernel | rfl), (by first | decide +kernel | rfl), (by intro j h; cases h), rfl, (by first | decide +kernel | rfl)⟩⟩

theorem witness_PowerCommands :
    (∃ (s : State) (q : Requester), s.dev.run = .started ∧ s.dev.phase = .ready ∧ s.honours q ∧ s.pwr.phase = .steady ∧ s.pwr.state = 1) ∧
    (∃ (s : State), s.pwr.phase = .steady ∧ s.pwr.state ∈ [2, 3, 4] ∧ s.rwNat 0x1900028 ≠ 0 ∧ s.rwNat 0x1900028 = s.stride) ∧
    (∃ (s : State) (t : Nat), s.pwr.phase = .steady ∧ s.pwr.state ∈ [3, 4] ∧ s.pwr.refreshWake = some t ∧ t ≤ s.stride) ∧
    (∃ (s : State) (p : Nat), p < 2 ∧ s.pwr.phase = .steady ∧ s.pwr.state ∈ [2, 3]) ∧
    (∃ (s : State), s.prepared = true ∧ (s.pwr.target < 2 ∨ s.entryHeld = false)) ∧
    (∃ (s : State) (k : Nat), s.pwr.phase = .entering ∧ s.pwr.target = k ∧ k ∈ [1, 2] ∧ s.pwr.latched = none) ∧
    (∃ (s : State), s.pwr.phase = .exiting ∧ s.pwr.state ∈ [1, 2]) ∧
    (∃ (s : State) (c : Nat), c < 8 ∧ natBit s.pwr.pllWanted c = true) :=
  ⟨⟨{ ready with pwr := { ready.pwr with state := 1 } }, .port 0, (by first | decide +kernel | rfl), (by first | decide +kernel | rfl), (by simp only [State.honours]; decide +kernel), (by first | decide +kernel | rfl), (by first | decide +kernel | rfl)⟩,
   ⟨{ ready with pwr := { ready.pwr with state := 2 }, stride := 5, rw := [(0x1900028, 5)] }, (by first | decide +kernel | rfl), (by first | decide +kernel | rfl), (by first | decide +kernel | rfl), (by first | decide +kernel | rfl)⟩,
   ⟨{ ready with pwr := { ready.pwr with state := 3, refreshWake := some 0 } }, 0, (by first | decide +kernel | rfl), (by first | decide +kernel | rfl), (by first | decide +kernel | rfl), (by first | decide +kernel | rfl)⟩,
   ⟨{ ready with pwr := { ready.pwr with state := 2 } }, 0, (by first | decide +kernel | rfl), (by first | decide +kernel | rfl), (by first | decide +kernel | rfl)⟩,
   ⟨{ ready with pwr := { ready.pwr with phase := .preparing, target := 1 } }, (by first | decide +kernel | rfl), (by first | decide +kernel | rfl)⟩,
   ⟨{ ready with pwr := { ready.pwr with phase := .entering, target := 2 } }, 2, (by first | decide +kernel | rfl), (by first | decide +kernel | rfl), (by first | decide +kernel | rfl), (by first | decide +kernel | rfl)⟩,
   ⟨{ ready with pwr := { ready.pwr with phase := .exiting, state := 1 } }, (by first | decide +kernel | rfl), (by first | decide +kernel | rfl)⟩,
   ⟨{ ready with pwr := { ready.pwr with pllWanted := 1 } }, 0, (by first | decide +kernel | rfl), (by first | decide +kernel | rfl)⟩⟩

theorem witness_RecorderCommands :
    (∃ (s : State), s.up ∧ s.mgrPort < 2) ∧
    (∃ (s : State), s.up ∧ s.mgrPort < 2 ∧ s.evr.dev.frozenAt.isSome = true) ∧
    (∃ (s : State) (i : Option Nat) (t : Nat), (∀ n, i = some n → n < 512) ∧ (s.recorder i).frozenAt = some t ∧ t + 4000 ≤ s.stride) ∧
    (∃ (s : State) (q : Requester) (v : BitVec 32), s.up ∧ s.honours q ∧ evrClearOk s v.toNat = true) :=
  ⟨⟨ready, (by unfold State.up; decide +kernel), (by first | decide +kernel | rfl)⟩,
   ⟨{ ready with evr := { ready.evr with dev := { ready.evr.dev with frozenAt := some 0 } }, stride := 4000 }, (by unfold State.up; decide +kernel), (by first | decide +kernel | rfl), (by first | decide +kernel | rfl)⟩,
   ⟨{ ready with evr := { ready.evr with dev := { ready.evr.dev with frozenAt := some 0 } }, stride := 4000 }, none, 0, (by intro n h; cases h), (by first | decide +kernel | rfl), (by first | decide +kernel | rfl)⟩,
   ⟨ready, .port 0, 1, (by unfold State.up; decide +kernel), (by simp only [State.honours]; decide +kernel), (by first | decide +kernel | rfl)⟩⟩

theorem witness_ManagementPinCommands :
    (∃ (s : State) (k : Nat) (bs : Bytes), s.dev.run = .started ∧ s.smbusAway = false ∧ (k, bs) ∈ [(0x00, s.basicBlock), (0x08, s.identBlock)]) ∧
    (∃ (s : State) (v : Nat), s.up ∧ v ≤ 0x11) ∧
    (∃ (s : State), s.up ∧ s.pins.select = 2) ∧
    (∃ (s : State), s.up ∧ s.pins.select = 0xD) ∧
    (∃ (s : State) (n : Nat), s.up ∧ n ≠ 4) ∧
    (∃ (s : State) (p : Instr × Nat), (s.dev.run = .waiting ∨ (s.dev.run = .started ∧ s.dev.phase = .safe)) ∧ p ∈ [(Instr.extest, 0x00), (.clamp, 0x09)]) ∧
    (∃ (s : State) (p : Instr × Nat), s.dev.run ≠ .off ∧ p ∈ [(Instr.idcode, 0x01), (.samplePreload, 0x02), (.highz, 0x08), (.bypass, 0xFF)]) ∧
    (∃ (s : State) (k : Nat), s.dev.run ≠ .off ∧ (0x80 ≤ k ∧ k ≤ 0xBF → s.debugUnlock = true)) ∧
    (∃ (s : State) (p : Instr), s.dev.run = .started ∧ s.dev.phase ≠ .safe ∧ (p ∈ [Instr.extest, .clamp] ∨ (s.debugUnlock = false ∧ ∃ k, 0x80 ≤ k ∧ k ≤ 0xBF ∧ p = .debugInstruction k))) ∧
    (∃ (s : State), s.dev.run ≠ .off) :=
  ⟨⟨ready, 8, ready.identBlock, (by first | decide +kernel | rfl), (by first | decide +kernel | rfl), (by exact List.mem_cons_of_mem _ (List.mem_cons_self ..))⟩,
   ⟨ready, 2, (by unfold State.up; decide +kernel), (by first | decide +kernel | rfl)⟩,
   ⟨{ ready with pins := { ready.pins with select := 2 } }, (by unfold State.up; decide +kernel), (by first | decide +kernel | rfl)⟩,
   ⟨{ ready with pins := { ready.pins with select := 13 } }, (by unfold State.up; decide +kernel), (by first | decide +kernel | rfl)⟩,
   ⟨ready, 3, (by unfold State.up; decide +kernel), (by first | decide +kernel | rfl)⟩,
   ⟨{ ready with dev := { ready.dev with run := .waiting } }, (Instr.clamp, 9), (by first | decide +kernel | rfl), (by first | decide +kernel | rfl)⟩,
   ⟨ready, (Instr.idcode, 1), (by first | decide +kernel | rfl), (by first | decide +kernel | rfl)⟩,
   ⟨ready, 0xC0, (by first | decide +kernel | rfl), (by intro h; exact absurd h.2 (by decide))⟩,
   ⟨ready, Instr.clamp, (by first | decide +kernel | rfl), (by first | decide +kernel | rfl), (by exact Or.inl (by decide))⟩,
   ⟨ready, (by first | decide +kernel | rfl)⟩⟩

theorem witness_StartAndFirmwareCommands :
    (∃ (s : State) (e : StartEnv), s.dev.run = .waiting ∧ e.clockOk = false) ∧
    (fwCheck ({ media with rw := [(0x30, 64)] }).kst.weldopoRevoked ({ media with rw := [(0x30, 64)] }).dur.fwFusedEpoch (padTo (({ media with rw := [(0x30, 64)] }).rwNat 0x30) []) = .ok { state := 1 } → ∃ (s : State) (q : Requester) (bs : Bytes) (f : FwImage), s.up ∧ s.honours q ∧ s.dev.cmdBusy = false ∧ s.dev.faultFlush = false ∧ s.dev.trial = false ∧ s.rwNat 0x30 ≠ 0 ∧ s.systemAreaWritable = true ∧ fwCheck s.kst.weldopoRevoked s.dur.fwFusedEpoch (padTo (s.rwNat 0x30) bs) = .ok f) ∧
    (∃ (s : State) (q : Requester), s.up ∧ s.honours q ∧ s.dev.cmdBusy = false ∧ s.dev.faultFlush = false ∧ (s.fwImage (1 - s.dev.image)).state = 1) ∧
    (∃ (s : State) (q : Requester), s.up ∧ s.honours q ∧ s.dev.cmdBusy = false ∧ s.dev.faultFlush = false ∧ s.dev.trial = true ∧ (s.fwImage s.dev.image).epoch ≤ s.dur.fwFusedEpoch) ∧
    (∃ (s : State) (q : Requester), s.up ∧ s.honours q ∧ s.dev.cmdBusy = false ∧ s.dev.faultFlush = false ∧ s.dev.trial = true ∧ s.dur.fwFusedEpoch < (s.fwImage s.dev.image).epoch) ∧
    (∃ (s : State) (q : Requester), s.up ∧ s.honours q ∧ s.dev.cmdBusy = false ∧ s.dev.faultFlush = false) ∧
    (∃ (s : State) (q : Requester) (d : Fetch) (c : Instr), s.up ∧ s.honours q ∧ (s.dev.cmdBusy = true ∨ s.dev.faultFlush = true) ∧ c ∈ [Instr.fwLoad q d, .fwActivate q, .fwConfirm q, .restart q]) ∧
    (∃ (s : State) (k : Nat), s.dev.run = .started ∧ 1 ≤ k ∧ k ≤ 5) ∧
    (∃ (s : State), s.dev.run = .started ∧ s.dev.phase ≠ .safe) ∧
    (∃ (s : State), s.dev.faultFlush = true ∧ s.pfInTime = true ∧ s.wbf.pfail = false ∧ s.dev.afterFlush ≠ 1) ∧
    (∃ (s : State), s.dev.run = .started ∧ s.wbf.pfail = true ∧ s.wbf.pfDone = false) :=
  ⟨⟨{ State.reset with dev := { State.reset.dev with run := .waiting } }, { clockOk := false, selfTestOk := true, anchorsOk := true, channels := [], dramLanes := [], recordsOk := true, sliceTableOk := true, newestCkptOk := true, p4RecordOk := true }, (by first | decide +kernel | rfl), (by first | decide +kernel | rfl)⟩,
   fun h => ⟨{ media with rw := [(0x30, 64)] }, .port 0, [], { state := 1 }, (by unfold State.up; decide +kernel), (by simp only [State.honours]; decide +kernel), (by first | decide +kernel | rfl), (by first | decide +kernel | rfl), (by first | decide +kernel | rfl), (by first | decide +kernel | rfl), (by first | decide +kernel | rfl), h⟩,
   ⟨{ ready with dur := { ready.dur with fwB := { state := 1 } } }, .port 0, (by unfold State.up; decide +kernel), (by simp only [State.honours]; decide +kernel), (by first | decide +kernel | rfl), (by first | decide +kernel | rfl), (by first | decide +kernel | rfl)⟩,
   ⟨{ { ready with dev := { ready.dev with trial := true } } with dur := { ready.dur with fwFusedEpoch := 0, fwA := { state := 1, epoch := 0 } } }, .port 0, (by unfold State.up; decide +kernel), (by simp only [State.honours]; decide +kernel), (by first | decide +kernel | rfl), (by first | decide +kernel | rfl), (by first | decide +kernel | rfl), (by first | decide +kernel | rfl)⟩,
   ⟨{ { ready with dev := { ready.dev with trial := true } } with dur := { ready.dur with fwFusedEpoch := 0, fwA := { state := 1, epoch := 1 } } }, .port 0, (by unfold State.up; decide +kernel), (by simp only [State.honours]; decide +kernel), (by first | decide +kernel | rfl), (by first | decide +kernel | rfl), (by first | decide +kernel | rfl), (by first | decide +kernel | rfl)⟩,
   ⟨ready, .port 0, (by unfold State.up; decide +kernel), (by simp only [State.honours]; decide +kernel), (by first | decide +kernel | rfl), (by first | decide +kernel | rfl)⟩,
   ⟨{ ready with dev := { ready.dev with cmdBusy := true } }, .port 0, .ok [], .restart (.port 0), (by unfold State.up; decide +kernel), (by simp only [State.honours]; decide +kernel), (by first | decide +kernel | rfl), (by first | decide +kernel | rfl)⟩,
   ⟨ready, 1, (by first | decide +kernel | rfl), (by first | decide +kernel | rfl), (by first | decide +kernel | rfl)⟩,
   ⟨ready, (by first | decide +kernel | rfl), (by first | decide +kernel | rfl)⟩,
   ⟨{ ready with dev := { ready.dev with faultFlush := true, afterFlush := 6 } }, (by first | decide +kernel | rfl), (by first | decide +kernel | rfl), (by first | decide +kernel | rfl), (by first | decide +kernel | rfl)⟩,
   ⟨{ ready with wbf := { ready.wbf with pfail := true } }, (by first | decide +kernel | rfl), (by first | decide +kernel | rfl), (by first | decide +kernel | rfl)⟩⟩

theorem witness_PowerFailureCommands :
    (∃ (s : State), s.dev.run = .started ∧ s.dev.phase = .ready ∧ s.reserveHeld = true ∧ s.wbf.armed = false) ∧
    (∃ (s : State), s.dev.run = .started ∧ s.wbf.armed = true) ∧
    (∃ (s : State), s.dev.run = .started) ∧
    (∃ (s : State), s.dev.run = .started ∧ s.pwr.state ≠ 4 ∧ s.wbf.pfDone = false) ∧
    (∃ (s : State), s.dev.faultFlush = false ∧ s.wbf.pfFlushing = true ∧ s.pfInTime = true ∧ s.pins.pfHigh = false ∧ s.pins.pwrLow = false) :=
  ⟨⟨{ ready with ftl := { dies := [(0, { present := true, qualified := true, planes := 1, blocksPerPlane := 4, pagesPerBlock := 100000, bitsPerCell := 1 })], chans := [(0, { trained := true })], blks := [(1, { state := .reserve })], recovered := true } }, (by first | decide +kernel | rfl), (by first | decide +kernel | rfl), (by first | decide +kernel | rfl), (by first | decide +kernel | rfl)⟩,
   ⟨{ ready with wbf := { ready.wbf with armed := true } }, (by first | decide +kernel | rfl), (by first | decide +kernel | rfl)⟩,
   ⟨ready, (by first | decide +kernel | rfl)⟩,
   ⟨ready, (by first | decide +kernel | rfl), (by first | decide +kernel | rfl), (by first | decide +kernel | rfl)⟩,
   ⟨{ ready with wbf := { ready.wbf with pfFlushing := true } }, (by first | decide +kernel | rfl), (by first | decide +kernel | rfl), (by first | decide +kernel | rfl), (by first | decide +kernel | rfl), (by first | decide +kernel | rfl)⟩⟩

theorem witness_FlashTranslationManagerCommands :
    (∃ (s : State) (q : Requester), s.up ∧ s.honours q ∧ s.ftl.busy = false) ∧
    (∃ (s : State) (q : Requester), s.up ∧ s.honours q ∧ s.ftl.busy = false ∧ s.ftl.loss ≠ [] ∧ 24 * s.ftl.loss.length ≤ s.rwNat 0x300018) ∧
    (∃ (s : State) (q : Requester) (b : Bool) (c : Instr), s.up ∧ s.honours q ∧ s.ftl.busy = true ∧ c ∈ [Instr.checkpoint q, .dumpLoss q b, .addUnpowered q, .clearLoss q]) ∧
    (∃ (s : State), s.mediaRuns = true ∧ s.ftl.ckptBegan + s.ckptLaps ≤ s.lap ∧ s.ftl.ckptRunning = none) ∧
    (∃ (s : State) (k : Ckpt), s.ftl.ckptRunning = some k ∧ s.ftl.journal = [] ∧ s.sysPairs ≠ []) :=
  ⟨⟨ready, .port 0, (by unfold State.up; decide +kernel), (by simp only [State.honours]; decide +kernel), (by first | decide +kernel | rfl)⟩,
   ⟨{ ready with ftl := { ready.ftl with loss := [⟨0, 0, 1, 0, 8⟩] }, rw := [(0x300018, 24)] }, .port 0, (by unfold State.up; decide +kernel), (by simp only [State.honours]; decide +kernel), (by first | decide +kernel | rfl), (by first | decide +kernel | rfl), (by first | decide +kernel | rfl)⟩,
   ⟨{ ready with ftl := { ready.ftl with busy := true } }, .port 0, true, .clearLoss (.port 0), (by unfold State.up; decide +kernel), (by simp only [State.honours]; decide +kernel), (by first | decide +kernel | rfl), (by first | decide +kernel | rfl)⟩,
   ⟨{ media with stride := 4000 * 0xEA60 }, (by first | decide +kernel | rfl), (by first | decide +kernel | rfl), (by first | decide +kernel | rfl)⟩,
   ⟨{ media with ftl := { media.ftl with ckptRunning := some ⟨0, 0, [], [], []⟩ } }, _, rfl, (by first | decide +kernel | rfl), (by first | decide +kernel | rfl)⟩⟩

theorem witness_MediaManagementCommands :
    (∃ (s t : State) (d b : Nat), d < 512 ∧ s.mediaRuns = true ∧ s.dieInUse d = true ∧ s.gcRuns d = true ∧ t = s.modDie d (fun x => { x with gcOn := true }) ∧ t.reclaiming d = false ∧ t.gcTurn d = true ∧ t.bestVictim (t.victims d) = some b) ∧
    (∃ (s u : State) (b : Nat) (why : ReclaimFor) (l : List (Nat × FlashSlot)), why ∈ [ReclaimFor.gc, .refresh] ∧ s.idleUnits b = [] ∧ l = (s.validSlots b).filter (fun p => !s.demoting p.2.unit) ∧ u = s.reclaimBegin b why) ∧
    (∃ (s : State) (b f : Nat) (r : Reclaim), dieOfBlk b < 512 ∧ s.reclaimOf b = some r ∧ r.why ∈ [ReclaimFor.gc, .refresh] ∧ r.finalSeq = some f ∧ s.mediaRuns = true ∧ f ≤ s.ftl.jseq ∧ (s.blk b).erasing = false ∧ s.demotesOf b = false ∧ s.mapNames b = false ∧ s.readsOf b = false) ∧
    (∃ (s : State) (b f : Nat) (r : Reclaim), dieOfBlk b < 512 ∧ s.reclaimOf b = some r ∧ r.why ∈ [ReclaimFor.gc, .refresh] ∧ r.finalSeq = some f ∧ s.mediaRuns = true ∧ f ≤ s.ftl.jseq ∧ (s.blk b).erasing = false ∧ s.demotesOf b = false ∧ s.mapNames b = true) ∧
    (∃ (s : State) (b : Nat), dieOfBlk b < 512 ∧ s.mediaRuns = true ∧ s.nextRefresh = some b) ∧
    (∃ (s : State) (f : Fine) (d : Nat) (l : List Nat), s.mediaRuns = true ∧ 7 * s.ftl.fineTotal < 8 * s.ftl.fine.length ∧ s.oldestIdle s.ftl.fine = some f ∧ s.diesInUse.find? (fun d => decide ((s.freeBlocks d) ≠ []) || (s.openBlock d .gcOpen).isSome) = some d ∧ l = (List.range 16).filterMap (fun i => s.mergeAddr f.unit i) ∧ l ≠ []) ∧
    (∃ (s : State) (p : PollOp) (id sl e a b : Nat), s.poll? id = some p ∧ (p.kind = .program sl e a ∧ b = blkOf a ∨ p.kind = .copyProgram a b ∨ (p.kind = .demoteProgram e a ∧ b = blkOf a))) ∧
    (∃ (s : State) (p : PollOp) (id b : Nat), s.poll? id = some p ∧ p.kind = .erase b) ∧
    (∃ (s : State) (d : Nat), d < 512 ∧ (s.die d).present = true) ∧
    (∃ (s : State) (d : Nat) (v : Int) (h : Health), d < 512 ∧ s.dieInUse d = true ∧ v < 85 ∧ h = (s.die d).health) ∧
    (∃ (s : State) (q : Requester) (k : Nat), s.up ∧ s.honours q ∧ k < s.channelsPresent ∧ (s.chan k).dumpBusy = false) ∧
    (∃ (s t : State) (k i r : Nat) (dies : List DieReport) (pass : List Bool), k < 32 ∧ (i, r) ∈ [(0, 36), (1, 32), (2, 24), (3, 16)] ∧ pass.getD i false = true ∧ (∀ j < i, pass.getD j false = false) ∧ t = (dies.filter (fun d => decide (d.die < 16))).foldl (fun s d => s.identifyDie k d) s) ∧
    (∃ (s t : State) (k : Nat) (dies : List DieReport) (pass : List Bool), k < 32 ∧ (∀ j < 4, pass.getD j false = false) ∧ t = (dies.filter (fun d => decide (d.die < 16))).foldl (fun s d => s.identifyDie k d) s) :=
  ⟨⟨{ media with ftl := { media.ftl with blks := [(1, { state := .closed })] } }, _, 0, 1, (by first | decide +kernel | rfl), (by first | decide +kernel | rfl), (by first | decide +kernel | rfl), (by first | decide +kernel | rfl), (by first | decide +kernel | rfl), (by first | decide +kernel | rfl), (by first | decide +kernel | rfl), (by first | decide +kernel | rfl)⟩,
   ⟨media, _, 1, .gc, _, (by first | decide +kernel | rfl), (by first | decide +kernel | rfl), rfl, rfl⟩,
   ⟨{ media with ftl := { media.ftl with blks := [(1, { state := .closed })], reclaims := [{ blk := 1, why := .gc, finalSeq := some 0 }] } }, 1, _, _, (by first | decide +kernel | rfl), rfl, (by first | decide +kernel | rfl), rfl, (by first | decide +kernel | rfl), (by first | decide +kernel | rfl), (by first | decide +kernel | rfl), (by first | decide +kernel | rfl), (by first | decide +kernel | rfl), (by first | decide +kernel | rfl)⟩,
   ⟨{ media with ftl := { media.ftl with blks := [(1, { state := .closed, slots := [(0, ⟨0, 0, 0, ⟨0, 0⟩, 0, []⟩)] })], coarse := [(0, 0x4000)], reclaims := [{ blk := 1, why := .gc, finalSeq := some 0 }] } }, 1, _, _, (by first | decide +kernel | rfl), rfl, (by first | decide +kernel | rfl), rfl, (by first | decide +kernel | rfl), (by first | decide +kernel | rfl), (by first | decide +kernel | rfl), (by first | decide +kernel | rfl), (by first | decide +kernel | rfl)⟩,
   ⟨{ media with ftl := { media.ftl with dies := [(0, { present := true, qualified := true, planes := 1, blocksPerPlane := 64 })], blks := [(1, { state := .closed })], refreshHead := [1] } }, 1, (by first | decide +kernel | rfl), (by first | decide +kernel | rfl), (by first | decide +kernel | rfl)⟩,
   ⟨{ media with stride := 4000 * 0xEA60, ftl := { media.ftl with coarse := [(5, fineEntry 0)], fineTotal := 1, fine := [(0, ⟨5, 0x4000 :: List.replicate 15 unmapped, 0⟩)] } }, _, 0, _, (by first | decide +kernel | rfl), (by first | decide +kernel | rfl), rfl, (by first | decide +kernel | rfl), rfl, (by first | decide +kernel | rfl)⟩,
   ⟨polling (.copyProgram 2 0x8000), _, 0, 0, 0, 2, 0x8000, rfl, (by first | decide +kernel | rfl)⟩,
   ⟨polling (.erase 1), _, 0, 1, rfl, (by first | decide +kernel | rfl)⟩,
   ⟨media, 0, (by first | decide +kernel | rfl), (by first | decide +kernel | rfl)⟩,
   ⟨media, 0, 84, _, (by first | decide +kernel | rfl), (by first | decide +kernel | rfl), (by first | decide +kernel | rfl), rfl⟩,
   ⟨ready, .port 0, 31, (by unfold State.up; decide +kernel), (by simp only [State.honours]; decide +kernel), (by first | decide +kernel | rfl), (by first | decide +kernel | rfl)⟩,
   ⟨ready, _, 31, 3, 16, [], [false, false, false, true], (by first | decide +kernel | rfl), (by first | decide +kernel | rfl), (by first | decide +kernel | rfl), (by first | decide +kernel | rfl), rfl⟩,
   ⟨ready, _, 31, [], [false, false, false, false], (by first | decide +kernel | rfl), (by first | decide +kernel | rfl), rfl⟩⟩

theorem witness_DramAndTestModeCommands :
    (∃ (s : State) (u : Nat) (hot : Bool) (r : Refresh), u < 8 ∧ r = (s.drc (u / 2)).refresh.getD (u % 2) {} ∧ r.hot ≠ hot) ∧
    (∃ (s : State) (k : Nat) (c : Course) (ws : List LaneSweep), k < 4 ∧ s.crs.inForce = some c ∧ (k < 2 ∨ s.dramGib ≠ 16) ∧ ws.length = 10 ∧ (∀ w ∈ ws, 16 ≤ State.windowWidth w.rdFirst w.rdLast ∧ 16 ≤ State.windowWidth w.wrFirst w.wrLast)) ∧
    (∃ (s : State) (c a o : Nat), s.up ∧ c < 72 ∧ s.testAddr = (a, o) ∧ o + 4 ≤ arrSize s.dramGib a) ∧
    (∃ (s : State) (c a o : Nat) (i : _), s.up ∧ c < 72 ∧ s.testAddr = (a, o) ∧ o + 4 ≤ arrSize s.dramGib a ∧ (a = dramArr → i ≤ 31)) ∧
    (∃ (s : State) (i : Nat) (x : Instr), s.up ∧ s.mgrPort < 2 ∧ x ∈ [Instr.readRaw (.port s.mgrPort), .writeRaw (.port s.mgrPort), .readPage (.port s.mgrPort) i, .writePage (.port s.mgrPort) i]) :=
  ⟨⟨ready, 7, true, _, (by first | decide +kernel | rfl), rfl, (by first | decide +kernel | rfl)⟩,
   ⟨ready, 1, _, List.replicate 10 ⟨0, 15, 0, 15⟩, (by first | decide +kernel | rfl), rfl, (by first | decide +kernel | rfl), (by first | decide +kernel | rfl), (by first | decide +kernel | rfl)⟩,
   ⟨rwOf ready 0x700108 0, 71, dramArr, 0, (by unfold State.up; decide +kernel), (by first | decide +kernel | rfl), (by first | decide +kernel | rfl), (by first | decide +kernel | rfl)⟩,
   ⟨rwOf ready 0x700108 0, 71, dramArr, 0, 31, (by unfold State.up; decide +kernel), (by first | decide +kernel | rfl), (by first | decide +kernel | rfl), (by first | decide +kernel | rfl), (by first | decide +kernel | rfl)⟩,
   ⟨ready, 0, .readRaw (.port ready.mgrPort), (by unfold State.up; decide +kernel), (by first | decide +kernel | rfl), (by first | decide +kernel | rfl)⟩⟩

theorem witness_RegisterAccesses :
    (∃ (s : State) (q : Requester) (off : Nat) (l : Loc) (v : BitVec 64), s.up ∧ s.honours q ∧ s.plainReg off l ∧ l.row.wide = false ∧ v.toNat < 2 ^ 32 ∧ s.writeOk l v.toNat = true) ∧
    (∃ (s : State) (q : Requester) (off : Nat) (l : Loc) (b : Nat) (v : BitVec 64), s.up ∧ s.honours q ∧ s.plainReg off l ∧ off % 4 = 0 ∧ State.instBase off = some b ∧ l.row.wide = false ∧ v.toNat < 2 ^ 32 ∧ s.writeOk l v.toNat = false) ∧
    (∃ (s : State) (q : Requester) (off : Nat) (l : Loc), s.up ∧ s.honours q ∧ s.plainReg off l ∧ l.row.wide = true ∧ l.high = false ∧ s.latches.all (fun x => decide (¬(x.req = q ∧ x.key = l.key))) = true) ∧
    (∃ (s : State) (q : Requester) (off : Nat) (l : Loc) (x : Latch) (lo v : BitVec 32) (w : Nat) (o : Nat), s.up ∧ s.honours q ∧ s.plainReg off l ∧ l.row.wide = true ∧ l.high = true ∧ s.latches.find? (fun x => decide (x.req = q) && decide (x.key = l.key)) = some x ∧ x.low = some lo ∧ w = v.toNat * 2 ^ 32 + lo.toNat ∧ s.writeOk l w = true ∧ l.row.rw ≠ 0 ∧ off = o + 4) ∧
    (∃ (s : State) (q : Requester) (off : Nat) (l : Loc), s.up ∧ s.honours q ∧ s.bar0Reg off = some l ∧ s.errAt off = none ∧ (off < 0x700100 ∨ 0x70011C ≤ off) ∧ l.row.wide = true ∧ l.high = false ∧ s.latches.all (fun x => decide (¬(x.req = q ∧ x.key = l.key))) = true) ∧
    (∃ (s : State) (q : Requester) (off : Nat) (l : Loc) (o : Nat) (x : Latch) (h : BitVec 32), s.up ∧ s.honours q ∧ s.bar0Reg off = some l ∧ s.errAt off = none ∧ (off < 0x700100 ∨ 0x70011C ≤ off) ∧ l.row.wide = true ∧ l.high = true ∧ off = o + 4 ∧ s.latches.find? (fun x => decide (x.req = q) && decide (x.key = l.key)) = some x ∧ x.high = some h) ∧
    (∃ (s : State) (q : Requester) (off : Nat) (l : Loc) (o : Nat), s.up ∧ s.honours q ∧ s.bar0Reg off = some l ∧ s.errAt off = none ∧ (off < 0x700100 ∨ 0x70011C ≤ off) ∧ l.row.wide = true ∧ l.high = true ∧ off = o + 4 ∧ s.latches.find? (fun x => decide (x.req = q) && decide (x.key = l.key)) = none) ∧
    (∃ (s : State) (q : Requester) (size : Nat), s.up ∧ s.honours q ∧ size < 4) ∧
    (∃ (s : State) (q : Requester) (off : Nat) (l : Loc), s.up ∧ s.honours q ∧ s.bar0Reg off = some l ∧ s.errAt off = none ∧ (off < 0x700100 ∨ 0x70011C ≤ off) ∧ l.row.wide = true ∧ l.high = false) ∧
    (∃ (s : State) (p off len : Nat) (id : Option Nat) (n : _), s.up ∧ p < 2 ∧ off + len ≤ s.cmbSize ∧ s.portionOf p id off len = some n) ∧
    (∃ (s : State) (p off len : Nat) (id : Option Nat), s.up ∧ p < 2 ∧ off + len ≤ s.cmbSize ∧ s.portionOf p id off len = none) :=
  ⟨⟨ready, .port 0, 0x10018, (State.bar0Loc 0x10018).get (by decide +kernel), 4, (by unfold State.up; decide +kernel), (by simp only [State.honours]; decide +kernel), (by refine ⟨?_, ?_, ?_, ?_, ?_, ?_⟩ <;> first | decide +kernel | rfl), (by first | decide +kernel | rfl), (by first | decide +kernel | rfl), (by first | decide +kernel | rfl)⟩,
   ⟨ready, .port 0, 0x10018, (State.bar0Loc 0x10018).get (by decide +kernel), _, 0x80000000, (by unfold State.up; decide +kernel), (by simp only [State.honours]; decide +kernel), (by refine ⟨?_, ?_, ?_, ?_, ?_, ?_⟩ <;> first | decide +kernel | rfl), (by first | decide +kernel | rfl), rfl, (by first | decide +kernel | rfl), (by first | decide +kernel | rfl), (by first | decide +kernel | rfl)⟩,
   ⟨ready, .port 0, 0x40010, (State.bar0Loc 0x40010).get (by decide +kernel), (by unfold State.up; decide +kernel), (by simp only [State.honours]; decide +kernel), (by refine ⟨?_, ?_, ?_, ?_, ?_, ?_⟩ <;> first | decide +kernel | rfl), (by first | decide +kernel | rfl), (by first | decide +kernel | rfl), (by first | decide +kernel | rfl)⟩,
   ⟨{ ready with latches := [{ req := .port 0, key := 0x40010, low := some 8 }] }, .port 0, 0x40014, (State.bar0Loc 0x40014).get (by decide +kernel), { req := .port 0, key := 0x40010, low := some 8 }, _, 0, _, 0x40010, (by unfold State.up; decide +kernel), (by simp only [State.honours]; decide +kernel), (by refine ⟨?_, ?_, ?_, ?_, ?_, ?_⟩ <;> first | decide +kernel | rfl), (by first | decide +kernel | rfl), (by first | decide +kernel | rfl), (by first | decide +kernel | rfl), rfl, rfl, (by first | decide +kernel | rfl), (by first | decide +kernel | rfl), (by first | decide +kernel | rfl)⟩,
   ⟨ready, .port 0, 0x40010, (State.bar0Loc 0x40010).get (by decide +kernel), (by unfold State.up; decide +kernel), (by simp only [State.honours]; decide +kernel), (by first | decide +kernel | rfl), (by first | decide +kernel | rfl), (by first | decide +kernel | rfl), (by first | decide +kernel | rfl), (by first | decide +kernel | rfl), (by first | decide +kernel | rfl)⟩,
   ⟨{ ready with latches := [{ req := .port 0, key := 0x40010, high := some 8 }] }, .port 0, 0x40014, (State.bar0Loc 0x40014).get (by decide +kernel), 0x40010, _, _, (by unfold State.up; decide +kernel), (by simp only [State.honours]; decide +kernel), (by first | decide +kernel | rfl), (by first | decide +kernel | rfl), (by first | decide +kernel | rfl), (by first | decide +kernel | rfl), (by first | decide +kernel | rfl), (by first | decide +kernel | rfl), rfl, rfl⟩,
   ⟨ready, .port 0, 0x40014, (State.bar0Loc 0x40014).get (by decide +kernel), 0x40010, (by unfold State.up; decide +kernel), (by simp only [State.honours]; decide +kernel), (by first | decide +kernel | rfl), (by first | decide +kernel | rfl), (by first | decide +kernel | rfl), (by first | decide +kernel | rfl), (by first | decide +kernel | rfl), (by first | decide +kernel | rfl), (by first | decide +kernel | rfl)⟩,
   ⟨ready, .port 0, 1, (by unfold State.up; decide +kernel), (by simp only [State.honours]; decide +kernel), (by first | decide +kernel | rfl)⟩,
   ⟨ready, .port 0, 0x40010, (State.bar0Loc 0x40010).get (by decide +kernel), (by unfold State.up; decide +kernel), (by simp only [State.honours]; decide +kernel), (by first | decide +kernel | rfl), (by first | decide +kernel | rfl), (by first | decide +kernel | rfl), (by first | decide +kernel | rfl), (by first | decide +kernel | rfl)⟩,
   ⟨withSlice { st := .active, port := 0, pasids := [5], cmbOff := some 0, cmbMib := 1 }, 0, 0, 1, some 5, _, (by unfold State.up; decide +kernel), (by first | decide +kernel | rfl), (by first | decide +kernel | rfl), (by first | decide +kernel | rfl)⟩,
   ⟨{ ready with crs := { ready.crs with inForce := some { crs with cmbLog2 := 26 } } }, 0, 0, 64, some 5, (by unfold State.up; decide +kernel), (by first | decide +kernel | rfl), (by first | decide +kernel | rfl), (by first | decide +kernel | rfl)⟩⟩

theorem witness_TicksLapsAndPolls :
    (∃ (s : State), s.dev.run ≠ .off) ∧
    (∃ (s : State), s.dev.run = .waiting) ∧
    (∃ (s : State), s.dev.run ≠ .off ∧ (s.stride + 1) % 4000 = 0) ∧
    (∃ (s : State) (c : CmdId) (h : Heat), c.slice < 512 ∧ s.heat? c = some h ∧ h.st = .running ∧ h.maxLaps ≠ 0 ∧ h.maxLaps ≤ h.laps) ∧
    (∃ (s : State) (id b : Nat) (p : PollOp), s.faultInject = false ∧ s.poll? id = some p ∧ p.kind = .erase b ∧ s.reclaimOf b = none) ∧
    (∃ (s : State) (id a n m : Nat) (c : CmdId) (p : PollOp), s.faultInject = false ∧ s.poll? id = some p ∧ p.kind = .hostRead c a ∧ n < 4 ∧ m ≤ 256) :=
  ⟨⟨ready, (by first | decide +kernel | rfl)⟩,
   ⟨{ State.reset with dev := { State.reset.dev with run := .waiting } }, (by first | decide +kernel | rfl)⟩,
   ⟨{ ready with stride := 3999 }, (by first | decide +kernel | rfl), (by first | decide +kernel | rfl)⟩,
   ⟨{ ready with heats := [{ id := cid0, stamp := ⟨0, 0⟩, st := .running, maxLaps := 2, laps := 2 }] }, cid0, _, (by first | decide +kernel | rfl), rfl, (by first | decide +kernel | rfl), (by first | decide +kernel | rfl), (by first | decide +kernel | rfl)⟩,
   ⟨polling (.erase 1), 0, 1, _, (by first | decide +kernel | rfl), rfl, (by first | decide +kernel | rfl), (by first | decide +kernel | rfl)⟩,
   ⟨polling (.hostRead cid0 0x4000), 0, 0x4000, 3, 256, cid0, _, (by first | decide +kernel | rfl), rfl, (by first | decide +kernel | rfl), (by first | decide +kernel | rfl), (by first | decide +kernel | rfl)⟩⟩

theorem witness_PortAndControllerCommands :
    (∃ (s : State) (p : Nat), p < 2 ∧ s.portLive p = true ∧ (s.port p).linkUp = true) ∧
    (∃ (s : State) (p : Nat), p < 2 ∧ p < s.portCount ∧ s.up) ∧
    (∃ (p : Nat), p < 2) ∧
    (∃ (s : State) (p speed width : Nat) (flit : Bool), p < 2 ∧ p < s.portCount ∧ s.dev.run = .started ∧ (s.port p).perst = false ∧ s.pwr.state < 4 ∧ s.linkOk speed width flit = true) ∧
    (∃ (s : State) (p : Nat), p < 2 ∧ (s.port p).linkUp = true) ∧
    (∃ (s : State) (p n : Nat) (v : BitVec 32), p < 2 ∧ n < 512 ∧ s.up ∧ s.windowLive p n = true ∧ ccOk v.toNat = true ∧ (s.slice n).ctrl.resetting = false ∧ (s.slice n).st ≠ .resetting ∧ natBit v.toNat 0 = true ∧ natBit (s.slice n).ctrl.cc.toNat 0 = false ∧ (s.slice n).st = .active ∧ natBits v.toNat 15 14 = 0) ∧
    (∃ (s : State) (p n : Nat) (v : BitVec 32), p < 2 ∧ n < 512 ∧ s.up ∧ s.windowLive p n = true ∧ ccOk v.toNat = true ∧ (s.slice n).ctrl.resetting = false ∧ (s.slice n).st ≠ .resetting ∧ natBit v.toNat 0 = false ∧ natBit (s.slice n).ctrl.cc.toNat 0 = true) ∧
    (∃ (s : State) (p n : Nat) (v : BitVec 32), p < 2 ∧ n < 512 ∧ s.up ∧ s.windowLive p n = true ∧ ccOk v.toNat = true ∧ (s.slice n).ctrl.resetting = false ∧ (s.slice n).st ≠ .resetting ∧ (natBits v.toNat 15 14 = 1 ∨ natBits v.toNat 15 14 = 2) ∧ natBit v.toNat 0 = natBit (s.slice n).ctrl.cc.toNat 0 ∧ (s.slice n).ctrl.shst = 0) ∧
    (∃ (s : State) (n : Nat), n < 512 ∧ (s.slice n).ctrl.shst = 1 ∧ (s.slice n).adms = [] ∧ (s.slice n).ready = []) ∧
    (∃ (s : State) (p n qid v : Nat) (q : Sq), p < 2 ∧ n < 512 ∧ s.up ∧ s.windowLive p n = true ∧ v < 65536 ∧ (s.slice n).st ≠ .saving ∧ (s.slice n).st ≠ .migrating ∧ tget (s.slice n).sqs qid = some q) ∧
    (∃ (s : State) (p n qid v : Nat) (q : Cq), p < 2 ∧ n < 512 ∧ s.up ∧ s.windowLive p n = true ∧ v < 65536 ∧ (s.slice n).st ≠ .saving ∧ (s.slice n).st ≠ .migrating ∧ tget (s.slice n).cqs qid = some q) ∧
    (∃ (s : State) (p n qid v : Nat) (cq : Bool), p < 2 ∧ n < 512 ∧ s.up ∧ s.windowLive p n = true ∧ v < 65536 ∧ (s.slice n).st ≠ .saving ∧ (s.slice n).st ≠ .migrating ∧ (if cq then (tget (s.slice n).cqs qid).isNone else (tget (s.slice n).sqs qid).isNone) = true) ∧
    (∃ (s : State) (p n v : Nat), p < 2 ∧ n < 512 ∧ s.up ∧ s.windowLive p n = true ∧ v < 65536 ∧ ((s.slice n).st = .saving ∨ (s.slice n).st = .migrating)) ∧
    (∃ (s : State) (n : Nat), n < 512 ∧ (s.slice n).ctrl.rdy = true) ∧
    (∃ (s : State) (c : CmdId) (a : Adm), c.slice < 512 ∧ s.adm? c = some a) :=
  ⟨⟨{ ready with ports := [(0, { linkUp := true, perst := false })] }, 0, (by first | decide +kernel | rfl), (by first | decide +kernel | rfl), (by first | decide +kernel | rfl)⟩,
   ⟨ready, 0, (by first | decide +kernel | rfl), (by first | decide +kernel | rfl), (by unfold State.up; decide +kernel)⟩,
   ⟨0, (by first | decide +kernel | rfl)⟩,
   ⟨{ ready with ports := [(0, { perst := false })] }, 0, 5, 16, false, (by first | decide +kernel | rfl), (by first | decide +kernel | rfl), (by first | decide +kernel | rfl), (by first | decide +kernel | rfl), (by first | decide +kernel | rfl), (by first | decide +kernel | rfl)⟩,
   ⟨{ ready with ports := [(0, { linkUp := true })] }, 0, (by first | decide +kernel | rfl), (by first | decide +kernel | rfl)⟩,
   ⟨withSlice { st := .active }, 0, 0, 1, (by first | decide +kernel | rfl), (by first | decide +kernel | rfl), (by unfold State.up; decide +kernel), (by first | decide +kernel | rfl), (by first | decide +kernel | rfl), (by first | decide +kernel | rfl), (by first | decide +kernel | rfl), (by first | decide +kernel | rfl), (by first | decide +kernel | rfl), (by first | decide +kernel | rfl), (by first | decide +kernel | rfl)⟩,
   ⟨withSlice { st := .active, ctrl := { cc := 1 } }, 0, 0, 0, (by first | decide +kernel | rfl), (by first | decide +kernel | rfl), (by unfold State.up; decide +kernel), (by first | decide +kernel | rfl), (by first | decide +kernel | rfl), (by first | decide +kernel | rfl), (by first | decide +kernel | rfl), (by first | decide +kernel | rfl), (by first | decide +kernel | rfl)⟩,
   ⟨withSlice { st := .active, ctrl := { cc := 1 } }, 0, 0, 0x4001, (by first | decide +kernel | rfl), (by first | decide +kernel | rfl), (by unfold State.up; decide +kernel), (by first | decide +kernel | rfl), (by first | decide +kernel | rfl), (by first | decide +kernel | rfl), (by first | decide +kernel | rfl), (by first | decide +kernel | rfl), (by first | decide +kernel | rfl), (by first | decide +kernel | rfl)⟩,
   ⟨withSlice { st := .active, ctrl := { shst := 1 } }, 0, (by first | decide +kernel | rfl), (by first | decide +kernel | rfl), (by first | decide +kernel | rfl), (by first | decide +kernel | rfl)⟩,
   ⟨withSlice { st := .active, sqs := [(1, { base := 0, size := 2, cqid := 1, prio := 0, inCmb := false })] }, 0, 0, 1, 65535, _, (by first | decide +kernel | rfl), (by first | decide +kernel | rfl), (by unfold State.up; decide +kernel), (by first | decide +kernel | rfl), (by first | decide +kernel | rfl), (by first | decide +kernel | rfl), (by first | decide +kernel | rfl), (by first | decide +kernel | rfl)⟩,
   ⟨withSlice { st := .active, cqs := [(1, { base := 0, size := 2, iv := 0, ien := false })] }, 0, 0, 1, 65535, _, (by first | decide +kernel | rfl), (by first | decide +kernel | rfl), (by unfold State.up; decide +kernel), (by first | decide +kernel | rfl), (by first | decide +kernel | rfl), (by first | decide +kernel | rfl), (by first | decide +kernel | rfl), (by first | decide +kernel | rfl)⟩,
   ⟨withSlice { st := .active, sqs := [(1, { base := 0, size := 2, cqid := 1, prio := 0, inCmb := false })] }, 0, 0, 2, 65535, false, (by first | decide +kernel | rfl), (by first | decide +kernel | rfl), (by unfold State.up; decide +kernel), (by first | decide +kernel | rfl), (by first | decide +kernel | rfl), (by first | decide +kernel | rfl), (by first | decide +kernel | rfl), (by first | decide +kernel | rfl)⟩,
   ⟨withSlice { st := .saving }, 0, 0, 65535, (by first | decide +kernel | rfl), (by first | decide +kernel | rfl), (by unfold State.up; decide +kernel), (by first | decide +kernel | rfl), (by first | decide +kernel | rfl), (by first | decide +kernel | rfl)⟩,
   ⟨withSlice { st := .active, ctrl := { rdy := true } }, 0, (by first | decide +kernel | rfl), (by first | decide +kernel | rfl)⟩,
   ⟨withAdm (adm0 false (ent0 2)), cid0, _, (by first | decide +kernel | rfl), rfl⟩⟩

theorem witness_QueueFeatureAndNamespaceCommands :
    (∃ (s : State) (c : CmdId) (a : Adm) (qid size cqid base : Nat), s.awaitsAdmin c 0x01 a ∧ qid = natBits a.ent.cdw10.toNat 15 0 ∧ size = natBits a.ent.cdw10.toNat 31 16 + 1 ∧ cqid = natBits a.ent.cdw11.toNat 31 16 ∧ base = State.ptrBase a.ent ∧ natBits (s.slice c.slice).ctrl.cc.toNat 19 16 ≠ 0 ∧ s.qidBad c.slice qid (s.slice c.slice).feats.sqAlloc (tget (s.slice c.slice).sqs qid).isSome = false ∧ size ≠ 1 ∧ natBit a.ent.cdw11.toNat 0 = true ∧ cqid ≠ 0 ∧ (tget (s.slice c.slice).cqs cqid).isSome = true ∧ s.queuePlaceOk c.slice base (size * 64) = true) ∧
    (∃ (s : State) (c : CmdId) (a : Adm) (qid size iv base : Nat), s.awaitsAdmin c 0x05 a ∧ qid = natBits a.ent.cdw10.toNat 15 0 ∧ size = natBits a.ent.cdw10.toNat 31 16 + 1 ∧ iv = natBits a.ent.cdw11.toNat 31 16 ∧ base = State.ptrBase a.ent ∧ natBits (s.slice c.slice).ctrl.cc.toNat 23 20 ≠ 0 ∧ s.qidBad c.slice qid (s.slice c.slice).feats.cqAlloc (tget (s.slice c.slice).cqs qid).isSome = false ∧ size ≠ 1 ∧ natBit a.ent.cdw11.toNat 0 = true ∧ iv ≤ 3 ∧ s.touchesBar4 (s.slice c.slice).port base (size * 16) = false) ∧
    (∃ (s : State) (c : CmdId) (a : Adm) (qid : Nat) (q : Sq), s.awaitsAdmin c 0x00 a ∧ qid = natBits a.ent.cdw10.toNat 15 0 ∧ qid ≠ 0 ∧ tget (s.slice c.slice).sqs qid = some q) ∧
    (∃ (s : State) (c : CmdId) (a : Adm) (qid : Nat), s.awaitsAdmin c 0x04 a ∧ qid = natBits a.ent.cdw10.toNat 15 0 ∧ qid ≠ 0 ∧ (tget (s.slice c.slice).cqs qid).isSome = true) ∧
    (∃ (s : State) (c : CmdId) (a : Adm), s.awaitsAdmin c 0x08 a ∧ ((s.slice c.slice).adms.filter (fun b => b.admin && decide (b.ent.opc = 8) && b.stamp.before a.stamp)).length < 4) ∧
    (∃ (s : State) (c : CmdId) (a : Adm), s.awaitsAdmin c 0x08 a ∧ 4 ≤ ((s.slice c.slice).adms.filter (fun b => b.admin && decide (b.ent.opc = 8) && b.stamp.before a.stamp)).length) ∧
    (∃ (s : State) (c : CmdId) (a : Adm), s.awaitsAdmin c 0x0C a ∧ (s.slice c.slice).asyncs = []) ∧
    (∃ (s : State) (c : CmdId) (a : Adm) (lid len off : Nat) (t : _), s.awaitsAdmin c 0x02 a ∧ lid = natBits a.ent.cdw10.toNat 7 0 ∧ len = 4 * (natBits a.ent.cdw11.toNat 15 0 * 65536 + natBits a.ent.cdw10.toNat 31 16 + 1) ∧ off = a.ent.cdw13.toNat * 2 ^ 32 + a.ent.cdw12.toNat ∧ lid = 2 ∧ State.moveData s c true (State.cutRanges a.ent.dptr.ranges (bytesAt (s.smartLog c.slice) off len).length) = (t, true)) ∧
    (∃ (s : State) (c : CmdId) (a : Adm) (lid len off : Nat) (t : _), s.awaitsAdmin c 0x02 a ∧ lid = natBits a.ent.cdw10.toNat 7 0 ∧ len = 4 * (natBits a.ent.cdw11.toNat 15 0 * 65536 + natBits a.ent.cdw10.toNat 31 16 + 1) ∧ off = a.ent.cdw13.toNat * 2 ^ 32 + a.ent.cdw12.toNat ∧ lid ∈ [1, 3] ∧ State.moveData { s with free := s.free + 1 } c true (State.cutRanges a.ent.dptr.ranges (bytesAt (Config.logFill lid s.free) off len).length) = (t, true)) ∧
    (∃ (s : State) (c : CmdId) (a : Adm) (lid len off : Nat) (t : _), s.awaitsAdmin c 0x02 a ∧ lid = natBits a.ent.cdw10.toNat 7 0 ∧ len = 4 * (natBits a.ent.cdw11.toNat 15 0 * 65536 + natBits a.ent.cdw10.toNat 31 16 + 1) ∧ off = a.ent.cdw13.toNat * 2 ^ 32 + a.ent.cdw12.toNat ∧ lid = 5 ∧ State.moveData { s with free := s.free + 1 } c true (State.cutRanges a.ent.dptr.ranges (bytesAt (State.effectsLog (Config.logFill 5 s.free)) off len).length) = (t, true)) ∧
    (∃ (s : State) (c : CmdId) (a : Adm) (lid len off : Nat), s.awaitsAdmin c 0x02 a ∧ lid = natBits a.ent.cdw10.toNat 7 0 ∧ len = 4 * (natBits a.ent.cdw11.toNat 15 0 * 65536 + natBits a.ent.cdw10.toNat 31 16 + 1) ∧ off = a.ent.cdw13.toNat * 2 ^ 32 + a.ent.cdw12.toNat ∧ lid ∉ [1, 2, 3, 5]) ∧
    (∃ (s : State) (c : CmdId) (a : Adm) (cns : Nat) (t : _), s.awaitsAdmin c 0x06 a ∧ cns = natBits a.ent.cdw10.toNat 7 0 ∧ cns = 1 ∧ State.moveData s c true (State.cutRanges a.ent.dptr.ranges (State.identCtrl (s.slice c.slice) c.slice).length) = (t, true)) ∧
    (∃ (s : State) (c : CmdId) (a : Adm) (cns : Nat) (t : _), s.awaitsAdmin c 0x06 a ∧ cns = natBits a.ent.cdw10.toNat 7 0 ∧ cns = 2 ∧ State.moveData s c true (State.cutRanges a.ent.dptr.ranges (State.activeNs (s.slice c.slice) a.ent.nsid).length) = (t, true)) ∧
    (∃ (s : State) (c : CmdId) (a : Adm) (cns : Nat) (ns : _) (t : _), s.awaitsAdmin c 0x06 a ∧ cns = natBits a.ent.cdw10.toNat 7 0 ∧ cns = 0 ∧ tget (s.slice c.slice).nss a.ent.nsid = some ns ∧ ns.attached = true ∧ State.moveData s c true (State.cutRanges a.ent.dptr.ranges (State.identNs a.ent.nsid ns).length) = (t, true)) ∧
    (∃ (s : State) (c : CmdId) (a : Adm) (cns : Nat) (t : _), s.awaitsAdmin c 0x06 a ∧ cns = natBits a.ent.cdw10.toNat 7 0 ∧ cns = 0 ∧ tget (s.slice c.slice).nss a.ent.nsid = none ∧ a.ent.nsid = 0xFFFFFFFF ∧ State.moveData s c true (State.cutRanges a.ent.dptr.ranges (State.identCommon).length) = (t, true)) ∧
    (∃ (s : State) (c : CmdId) (a : Adm) (cns : Nat) (t : _), s.awaitsAdmin c 0x06 a ∧ cns = natBits a.ent.cdw10.toNat 7 0 ∧ cns = 3 ∧ (tget (s.slice c.slice).nss a.ent.nsid).isSome = true ∧ State.moveData s c true (State.cutRanges a.ent.dptr.ranges (padTo 4096 (Config.identifyFill 3 a.ent.nsid)).length) = (t, true)) ∧
    (∃ (s : State) (c : CmdId) (a : Adm) (cns : Nat), s.awaitsAdmin c 0x06 a ∧ cns = natBits a.ent.cdw10.toNat 7 0 ∧ 4 ≤ cns) ∧
    (∃ (s : State) (c : CmdId) (a : Adm) (f : Features) (sq cq m n : Nat), s.awaitsAdmin c 0x09 a ∧ f = (s.slice c.slice).feats ∧ natBits a.ent.cdw10.toNat 7 0 = 0x07 ∧ natBit a.ent.cdw10.toNat 31 = false ∧ sq = natBits a.ent.cdw11.toNat 15 0 ∧ cq = natBits a.ent.cdw11.toNat 31 16 ∧ f.sqAlloc = none ∧ sq ≠ 0xFFFF ∧ cq ≠ 0xFFFF ∧ m = min (sq + 1) (s.qpTotal c.slice - 1) ∧ n = min (cq + 1) (s.qpTotal c.slice - 1)) ∧
    (∃ (s : State) (c : CmdId) (a : Adm) (f : Features), s.awaitsAdmin c 0x09 a ∧ f = (s.slice c.slice).feats ∧ natBits a.ent.cdw10.toNat 7 0 = 0x08 ∧ natBit a.ent.cdw10.toNat 31 = false ∧ natBits a.ent.cdw11.toNat 31 16 = 0) ∧
    (∃ (s : State) (c : CmdId) (a : Adm) (f : Features), s.awaitsAdmin c 0x09 a ∧ f = (s.slice c.slice).feats ∧ natBits a.ent.cdw10.toNat 7 0 = 0xC0 ∧ natBit a.ent.cdw10.toNat 31 = false ∧ f.ltol = a.ent.cdw11) ∧
    (∃ (s : State) (c : CmdId) (a : Adm) (f : Features), s.awaitsAdmin c 0x09 a ∧ f = (s.slice c.slice).feats ∧ natBits a.ent.cdw10.toNat 7 0 = 0xC1 ∧ natBit a.ent.cdw10.toNat 31 = false ∧ natBits a.ent.cdw11.toNat 31 1 = 0) ∧
    (∃ (s : State) (c : CmdId) (a : Adm) (f : Features) (fid : Nat), s.awaitsAdmin c 0x0A a ∧ f = (s.slice c.slice).feats ∧ fid = natBits a.ent.cdw10.toNat 7 0 ∧ fid = 0x07) ∧
    (∃ (s : State) (c : CmdId) (a : Adm) (f : Features) (fid : Nat), s.awaitsAdmin c 0x0A a ∧ f = (s.slice c.slice).feats ∧ fid = natBits a.ent.cdw10.toNat 7 0 ∧ fid = 0x08) ∧
    (∃ (s : State) (c : CmdId) (a : Adm) (f : Features) (fid : Nat), s.awaitsAdmin c 0x0A a ∧ f = (s.slice c.slice).feats ∧ fid = natBits a.ent.cdw10.toNat 7 0 ∧ fid = 0xC0) ∧
    (∃ (s : State) (c : CmdId) (a : Adm) (f : Features) (fid : Nat), s.awaitsAdmin c 0x0A a ∧ f = (s.slice c.slice).feats ∧ fid = natBits a.ent.cdw10.toNat 7 0 ∧ fid = 0xC1) ∧
    (∃ (s : State) (c : CmdId) (a : Adm) (d : NsCreate) (ns : Ns) (i u : Nat), s.awaitsAdmin c 0x0D a ∧ natBits a.ent.cdw10.toNat 3 0 = 0 ∧ d.nsze ≠ 0 ∧ d.lbaf ≤ 4 ∧ d.dps ≤ 15 ∧ d.dps % 8 ≤ 3 ∧ d.dps % 8 ≠ 2 ∧ (d.dps % 8 = 0 ∨ 2 ≤ d.lbaf) ∧ ns = { nsze := d.nsze, lbaf := d.lbaf, dps := d.dps, firstUnit := 0 } ∧ (List.range (s.slice c.slice).nsMax).find? (fun i => (tget (s.slice c.slice).nss (i + 1)).isNone) = some i ∧ s.placeNs (State.nsUnits ns) = some u) ∧
    (∃ (s : State) (c : CmdId) (a : Adm) (ns : Ns), s.awaitsAdmin c 0x0D a ∧ natBits a.ent.cdw10.toNat 3 0 = 1 ∧ a.ent.nsid ≠ 0xFFFFFFFF ∧ tget (s.slice c.slice).nss a.ent.nsid = some ns ∧ s.ioSettled c.slice [a.ent.nsid] a.stamp = true) ∧
    (∃ (s : State) (c : CmdId) (a : Adm) (ns : Ns), s.awaitsAdmin c 0x15 a ∧ tget (s.slice c.slice).nss a.ent.nsid = some ns ∧ natBits a.ent.cdw10.toNat 3 0 = 0 ∧ ns.attached = false) ∧
    (∃ (s : State) (c : CmdId) (a : Adm) (ns : Ns), s.awaitsAdmin c 0x15 a ∧ tget (s.slice c.slice).nss a.ent.nsid = some ns ∧ natBits a.ent.cdw10.toNat 3 0 = 1 ∧ ns.attached = true) ∧
    (∃ (s : State) (c : CmdId) (a : Adm) (ns : Ns) (lbaf pi : Nat), s.awaitsAdmin c 0x80 a ∧ lbaf = natBits a.ent.cdw10.toNat 3 0 ∧ pi = natBits a.ent.cdw10.toNat 7 5 ∧ lbaf ≤ 4 ∧ pi ≤ 3 ∧ pi ≠ 2 ∧ (pi = 0 ∨ 2 ≤ lbaf) ∧ natBits a.ent.cdw10.toNat 11 9 ≤ 1 ∧ (lbaMeta lbaf = 0 ∨ natBit a.ent.cdw10.toNat 4 = true) ∧ a.ent.nsid ≠ 0xFFFFFFFF ∧ tget (s.slice c.slice).nss a.ent.nsid = some ns ∧ s.ioSettled c.slice [a.ent.nsid] a.stamp = true) :=
  ⟨⟨withAdmin { ctrl := { cc := 0x460001 }, feats := { sqAlloc := some 2 }, cqs := [(1, { base := 0, size := 2, iv := 0, ien := false })] } (entD 0x01 0x10001 0x10001 128), cid0, adm0 true (entD 0x01 0x10001 0x10001 128), _, _, _, _, (by unfold State.awaitsAdmin; decide +kernel), rfl, rfl, rfl, rfl, (by first | decide +kernel | rfl), (by first | decide +kernel | rfl), (by first | decide +kernel | rfl), (by first | decide +kernel | rfl), (by first | decide +kernel | rfl), (by first | decide +kernel | rfl), (by first | decide +kernel | rfl)⟩,
   ⟨withAdmin { ctrl := { cc := 0x460001 }, feats := { cqAlloc := some 2 } } (entD 0x05 0x10001 0x30001 32), cid0, adm0 true (entD 0x05 0x10001 0x30001 32), _, _, _, _, (by unfold State.awaitsAdmin; decide +kernel), rfl, rfl, rfl, rfl, (by first | decide +kernel | rfl), (by first | decide +kernel | rfl), (by first | decide +kernel | rfl), (by first | decide +kernel | rfl), (by first | decide +kernel | rfl), (by first | decide +kernel | rfl)⟩,
   ⟨withAdmin { sqs := [(1, { base := 0, size := 2, cqid := 1, prio := 0, inCmb := false })] } (entE 0x00 1 0), cid0, adm0 true (entE 0x00 1 0), _, _, (by unfold State.awaitsAdmin; decide +kernel), rfl, (by first | decide +kernel | rfl), rfl⟩,
   ⟨withAdmin { cqs := [(1, { base := 0, size := 2, iv := 0, ien := false })] } (entE 0x04 1 0), cid0, adm0 true (entE 0x04 1 0), _, (by unfold State.awaitsAdmin; decide +kernel), rfl, (by first | decide +kernel | rfl), (by first | decide +kernel | rfl)⟩,
   ⟨withAdmin {  } (entE 0x08 1 0), cid0, adm0 true (entE 0x08 1 0), (by unfold State.awaitsAdmin; decide +kernel), (by first | decide +kernel | rfl)⟩,
   ⟨withSlice { st := .active, adms := List.replicate 4 { adm0 true (entE 0x08 1 0) with id := ⟨0, 0, 1⟩ } ++ [{ adm0 true (entE 0x08 1 0) with stamp := ⟨0, 1⟩ }] }, cid0, { adm0 true (entE 0x08 1 0) with stamp := ⟨0, 1⟩ }, (by unfold State.awaitsAdmin; decide +kernel), (by first | decide +kernel | rfl)⟩,
   ⟨withAdmin {  } (entE 0x0C 0 0), cid0, adm0 true (entE 0x0C 0 0), (by unfold State.awaitsAdmin; decide +kernel), (by first | decide +kernel | rfl)⟩,
   ⟨withAdmin {  } (entE 0x02 2 0), cid0, adm0 true (entE 0x02 2 0), 2, 4, 0, (State.moveData (withAdmin {  } (entE 0x02 2 0)) (cid0) true (State.cutRanges (adm0 true (entE 0x02 2 0)).ent.dptr.ranges (bytesAt ((withAdmin {  } (entE 0x02 2 0)).smartLog (cid0).slice) (0) (4)).length)).1, (by unfold State.awaitsAdmin; decide +kernel), (by first | decide +kernel | rfl), (by first | decide +kernel | rfl), (by first | decide +kernel | rfl), (by first | decide +kernel | rfl), Prod.ext rfl (by decide +kernel)⟩,
   ⟨withAdmin {  } (entE 0x02 3 0), cid0, adm0 true (entE 0x02 3 0), 3, 4, 0, (State.moveData { (withAdmin {  } (entE 0x02 3 0)) with free := (withAdmin {  } (entE 0x02 3 0)).free + 1 } (cid0) true (State.cutRanges (adm0 true (entE 0x02 3 0)).ent.dptr.ranges (bytesAt (Config.logFill (3) (withAdmin {  } (entE 0x02 3 0)).free) (0) (4)).length)).1, (by unfold State.awaitsAdmin; decide +kernel), (by first | decide +kernel | rfl), (by first | decide +kernel | rfl), (by first | decide +kernel | rfl), (by first | decide +kernel | rfl), Prod.ext rfl (by decide +kernel)⟩,
   ⟨withAdmin {  } (entE 0x02 5 0), cid0, adm0 true (entE 0x02 5 0), 5, 4, 0, (State.moveData { (withAdmin {  } (entE 0x02 5 0)) with free := (withAdmin {  } (entE 0x02 5 0)).free + 1 } (cid0) true (State.cutRanges (adm0 true (entE 0x02 5 0)).ent.dptr.ranges (bytesAt (State.effectsLog (Config.logFill 5 (withAdmin {  } (entE 0x02 5 0)).free)) (0) (4)).length)).1, (by unfold State.awaitsAdmin; decide +kernel), (by first | decide +kernel | rfl), (by first | decide +kernel | rfl), (by first | decide +kernel | rfl), (by first | decide +kernel | rfl), Prod.ext rfl (by decide +kernel)⟩,
   ⟨withAdmin {  } (entE 0x02 4 0), cid0, adm0 true (entE 0x02 4 0), _, _, _, (by unfold State.awaitsAdmin; decide +kernel), rfl, rfl, rfl, (by first | decide +kernel | rfl)⟩,
   ⟨withAdmin {  } (entE 0x06 1 0), cid0, adm0 true (entE 0x06 1 0), natBits (adm0 true (entE 0x06 1 0)).ent.cdw10.toNat 7 0, (State.moveData (withAdmin {  } (entE 0x06 1 0)) (cid0) true (State.cutRanges (adm0 true (entE 0x06 1 0)).ent.dptr.ranges (State.identCtrl ((withAdmin {  } (entE 0x06 1 0)).slice (cid0).slice) (cid0).slice).length)).1, (by unfold State.awaitsAdmin; decide +kernel), rfl, rfl, Prod.ext rfl (by decide +kernel)⟩,
   ⟨withAdmin {  } (entE 0x06 2 0), cid0, adm0 true (entE 0x06 2 0), natBits (adm0 true (entE 0x06 2 0)).ent.cdw10.toNat 7 0, (State.moveData (withAdmin {  } (entE 0x06 2 0)) (cid0) true (State.cutRanges (adm0 true (entE 0x06 2 0)).ent.dptr.ranges (State.activeNs ((withAdmin {  } (entE 0x06 2 0)).slice (cid0).slice) (adm0 true (entE 0x06 2 0)).ent.nsid).length)).1, (by unfold State.awaitsAdmin; decide +kernel), rfl, rfl, Prod.ext rfl (by decide +kernel)⟩,
   ⟨withAdmin { nss := [(1, ns0)] } (entE 0x06 0 0), cid0, adm0 true (entE 0x06 0 0), natBits (adm0 true (entE 0x06 0 0)).ent.cdw10.toNat 7 0, ns0, (State.moveData (withAdmin { nss := [(1, ns0)] } (entE 0x06 0 0)) (cid0) true (State.cutRanges (adm0 true (entE 0x06 0 0)).ent.dptr.ranges (State.identNs (adm0 true (entE 0x06 0 0)).ent.nsid (ns0)).length)).1, (by unfold State.awaitsAdmin; decide +kernel), rfl, rfl, (by first | decide +kernel | rfl), (by first | decide +kernel | rfl), Prod.ext rfl (by decide +kernel)⟩,
   ⟨withAdmin { nss := [(1, ns0)] } ({ entE 0x06 0 0 with nsid := 0xFFFFFFFF }), cid0, adm0 true ({ entE 0x06 0 0 with nsid := 0xFFFFFFFF }), natBits (adm0 true ({ entE 0x06 0 0 with nsid := 0xFFFFFFFF })).ent.cdw10.toNat 7 0, (State.moveData (withAdmin { nss := [(1, ns0)] } ({ entE 0x06 0 0 with nsid := 0xFFFFFFFF })) (cid0) true (State.cutRanges (adm0 true ({ entE 0x06 0 0 with nsid := 0xFFFFFFFF })).ent.dptr.ranges (State.identCommon).length)).1, (by unfold State.awaitsAdmin; decide +kernel), rfl, rfl, (by first | decide +kernel | rfl), (by first | decide +kernel | rfl), Prod.ext rfl (by decide +kernel)⟩,
   ⟨withAdmin { nss := [(1, ns0)] } (entE 0x06 3 0), cid0, adm0 true (entE 0x06 3 0), natBits (adm0 true (entE 0x06 3 0)).ent.cdw10.toNat 7 0, (State.moveData (withAdmin { nss := [(1, ns0)] } (entE 0x06 3 0)) (cid0) true (State.cutRanges (adm0 true (entE 0x06 3 0)).ent.dptr.ranges (padTo 4096 (Config.identifyFill 3 (adm0 true (entE 0x06 3 0)).ent.nsid)).length)).1, (by unfold State.awaitsAdmin; decide +kernel), rfl, rfl, (by first | decide +kernel | rfl), Prod.ext rfl (by decide +kernel)⟩,
   ⟨withAdmin { nss := [(1, ns0)] } (entE 0x06 4 0), cid0, adm0 true (entE 0x06 4 0), _, (by unfold State.awaitsAdmin; decide +kernel), rfl, (by first | decide +kernel | rfl)⟩,
   ⟨withAdmin {  } (entE 0x09 7 0x10001), cid0, adm0 true (entE 0x09 7 0x10001), _, _, _, _, _, (by unfold State.awaitsAdmin; decide +kernel), rfl, (by first | decide +kernel | rfl), (by first | decide +kernel | rfl), rfl, rfl, (by first | decide +kernel | rfl), (by first | decide +kernel | rfl), (by first | decide +kernel | rfl), rfl, rfl⟩,
   ⟨withAdmin {  } (entE 0x09 8 0xFFFF), cid0, adm0 true (entE 0x09 8 0xFFFF), _, (by unfold State.awaitsAdmin; decide +kernel), rfl, (by first | decide +kernel | rfl), (by first | decide +kernel | rfl), (by first | decide +kernel | rfl)⟩,
   ⟨withAdmin { feats := { ltol := 5 } } (entE 0x09 0xC0 5), cid0, adm0 true (entE 0x09 0xC0 5), _, (by unfold State.awaitsAdmin; decide +kernel), rfl, (by first | decide +kernel | rfl), (by first | decide +kernel | rfl), (by first | decide +kernel | rfl)⟩,
   ⟨withAdmin {  } (entE 0x09 0xC1 1), cid0, adm0 true (entE 0x09 0xC1 1), _, (by unfold State.awaitsAdmin; decide +kernel), rfl, (by first | decide +kernel | rfl), (by first | decide +kernel | rfl), (by first | decide +kernel | rfl)⟩,
   ⟨withAdmin {  } (entE 0x0A 7 0), cid0, adm0 true (entE 0x0A 7 0), _, _, (by unfold State.awaitsAdmin; decide +kernel), rfl, rfl, rfl⟩,
   ⟨withAdmin {  } (entE 0x0A 8 0), cid0, adm0 true (entE 0x0A 8 0), _, _, (by unfold State.awaitsAdmin; decide +kernel), rfl, rfl, rfl⟩,
   ⟨withAdmin {  } (entE 0x0A 0xC0 0), cid0, adm0 true (entE 0x0A 0xC0 0), _, _, (by unfold State.awaitsAdmin; decide +kernel), rfl, rfl, rfl⟩,
   ⟨withAdmin {  } (entE 0x0A 0xC1 0), cid0, adm0 true (entE 0x0A 0xC1 0), _, _, (by unfold State.awaitsAdmin; decide +kernel), rfl, rfl, rfl⟩,
   ⟨{ withAdmin { nsMax := 1 } (entE 0x0D 0 0) with ftl := { capacity := 65536 * 4 } }, cid0, adm0 true (entE 0x0D 0 0), { nsze := 1, lbaf := 0, dps := 0 }, _, _, _, (by unfold State.awaitsAdmin; decide +kernel), (by first | decide +kernel | rfl), (by first | decide +kernel | rfl), (by first | decide +kernel | rfl), (by first | decide +kernel | rfl), (by first | decide +kernel | rfl), (by first | decide +kernel | rfl), (by first | decide +kernel | rfl), rfl, rfl, rfl⟩,
   ⟨withAdmin { nss := [(1, ns0)] } (entE 0x0D 1 0), cid0, adm0 true (entE 0x0D 1 0), _, (by unfold State.awaitsAdmin; decide +kernel), (by first | decide +kernel | rfl), (by first | decide +kernel | rfl), rfl, (by first | decide +kernel | rfl)⟩,
   ⟨withAdmin { nss := [(1, { ns0 with attached := false })] } (entE 0x15 0 0), cid0, adm0 true (entE 0x15 0 0), _, (by unfold State.awaitsAdmin; decide +kernel), rfl, (by first | decide +kernel | rfl), (by first | decide +kernel | rfl)⟩,
   ⟨withAdmin { nss := [(1, ns0)] } (entE 0x15 1 0), cid0, adm0 true (entE 0x15 1 0), _, (by unfold State.awaitsAdmin; decide +kernel), rfl, (by first | decide +kernel | rfl), (by first | decide +kernel | rfl)⟩,
   ⟨withAdmin { nss := [(1, ns0)] } (entE 0x80 0 0), cid0, adm0 true (entE 0x80 0 0), _, _, _, (by unfold State.awaitsAdmin; decide +kernel), rfl, rfl, (by first | decide +kernel | rfl), (by first | decide +kernel | rfl), (by first | decide +kernel | rfl), (by first | decide +kernel | rfl), (by first | decide +kernel | rfl), (by first | decide +kernel | rfl), (by first | decide +kernel | rfl), rfl, (by first | decide +kernel | rfl)⟩⟩

set_option maxRecDepth 20000 in
theorem witness_AnEmptyQueueIdles :
    ∃ (s : State), s.pending = [] :=
  ⟨s0, (by first | decide +kernel | rfl)⟩

set_option maxRecDepth 20000 in
theorem witness_MemoriesStayCanonical :
    ∃ (s t : State), s.memOk ∧ step s = .next t :=
  ⟨State.reset, _, ⟨by decide +kernel, by decide +kernel⟩, (by first | decide +kernel | rfl)⟩

set_option maxRecDepth 20000 in
theorem witness_TheStrideCounts :
    ∃ (s t : State) (c : Instr), exec c s = .next t :=
  ⟨ready, _, .tapReset, (by first | decide +kernel | rfl)⟩

set_option maxRecDepth 20000 in
theorem witness_FusedValuesAndTheQueueStay :
    ∃ (s t : State), step s = .next t :=
  ⟨ready, _, (by first | decide +kernel | rfl)⟩

set_option maxRecDepth 20000 in
theorem witness_FusedEpochsNeverFall :
    ∃ (s t : State), step s = .next t :=
  ⟨ready, _, (by first | decide +kernel | rfl)⟩

set_option maxRecDepth 20000 in
theorem witness_WellFormedCommandsNeverStop :
    ∃ (c : Instr), c.wf = true :=
  ⟨.sliceFrozen 511, (by first | decide +kernel | rfl)⟩

set_option maxRecDepth 20000 in
theorem witness_OutOfRangeUnitsStopByName :
    (∃ (n : Nat), 512 ≤ n) ∧
    (∃ (p : Nat), 2 ≤ p) ∧
    (∃ (c : Nat), 72 ≤ c) ∧
    (∃ (d : Nat), 512 ≤ d) ∧
    (∃ (p : Nat), 4 ≤ p) ∧
    (∃ (k : Nat), 8 ≤ k) :=
  ⟨⟨512, (by first | decide +kernel | rfl)⟩,
   ⟨2, (by first | decide +kernel | rfl)⟩,
   ⟨72, (by first | decide +kernel | rfl)⟩,
   ⟨512, (by first | decide +kernel | rfl)⟩,
   ⟨4, (by first | decide +kernel | rfl)⟩,
   ⟨8, (by first | decide +kernel | rfl)⟩⟩

set_option maxRecDepth 20000 in
theorem witness_AdditionsAndTheirFlags :
    (∃ (s : State) (c : Nat) (k : Core), k = s.core c ∧ s.atInstr c 2) ∧
    (∃ (s : State) (c : Nat) (k : Core), k = s.core c ∧ s.atInstr c 4) ∧
    (∃ (s : State) (c : Nat) (k : Core) (cin : Nat), k = s.core c ∧ s.atInstr c 4 ∧ cin = (if k.flg.getLsbD 0 then 1 else 0)) ∧
    (∃ (s : State) (c : Nat) (k : Core), k = s.core c ∧ s.atInstr c 6) :=
  ⟨⟨s0, 0, (s0).core (0), rfl, (by unfold State.atInstr; decide +kernel)⟩,
   ⟨s0, 0, (s0).core (0), rfl, (by unfold State.atInstr; decide +kernel)⟩,
   ⟨s0, 0, (s0).core (0), (if ((s0).core (0)).flg.getLsbD 0 then 1 else 0), rfl, (by unfold State.atInstr; decide +kernel), rfl⟩,
   ⟨s0, 0, (s0).core (0), rfl, (by unfold State.atInstr; decide +kernel)⟩⟩

set_option maxRecDepth 20000 in
theorem witness_SubtractionsAndComparisons :
    (∃ (s : State) (c : Nat) (k : Core), k = s.core c ∧ s.atInstr c 2) ∧
    (∃ (s : State) (c : Nat) (k : Core), k = s.core c ∧ s.atInstr c 4) ∧
    (∃ (s : State) (c : Nat) (k : Core) (bin : Nat), k = s.core c ∧ s.atInstr c 4 ∧ bin = (if k.flg.getLsbD 0 then 0 else 1)) ∧
    (∃ (s : State) (c : Nat) (k : Core), k = s.core c ∧ s.atInstr c 6) :=
  ⟨⟨s0, 0, (s0).core (0), rfl, (by unfold State.atInstr; decide +kernel)⟩,
   ⟨s0, 0, (s0).core (0), rfl, (by unfold State.atInstr; decide +kernel)⟩,
   ⟨s0, 0, (s0).core (0), (if ((s0).core (0)).flg.getLsbD 0 then 0 else 1), rfl, (by unfold State.atInstr; decide +kernel), rfl⟩,
   ⟨s0, 0, (s0).core (0), rfl, (by unfold State.atInstr; decide +kernel)⟩⟩

set_option maxRecDepth 20000 in
theorem witness_LogicAndItsFlags :
    (∃ (s : State) (c : Nat) (k : Core) (d g : BitVec 5) (r : Dword), k = s.core c ∧ s.atInstr c 2 ∧ r = k.reg d.toNat &&& k.reg g.toNat) ∧
    (∃ (s : State) (c : Nat) (k : Core) (d g : BitVec 5) (r : Dword), k = s.core c ∧ s.atInstr c 2 ∧ r = k.reg d.toNat ||| k.reg g.toNat) ∧
    (∃ (s : State) (c : Nat) (k : Core) (d g : BitVec 5) (r : Dword), k = s.core c ∧ s.atInstr c 2 ∧ r = k.reg d.toNat ^^^ k.reg g.toNat) ∧
    (∃ (s : State) (c : Nat) (k : Core) (a b : BitVec 5) (r : Dword), k = s.core c ∧ s.atInstr c 4 ∧ r = k.reg a.toNat &&& k.reg b.toNat) ∧
    (∃ (s : State) (c : Nat) (k : Core) (a b : BitVec 5) (r : Dword), k = s.core c ∧ s.atInstr c 4 ∧ r = k.reg a.toNat ||| k.reg b.toNat) ∧
    (∃ (s : State) (c : Nat) (k : Core) (a b : BitVec 5) (r : Dword), k = s.core c ∧ s.atInstr c 4 ∧ r = k.reg a.toNat ^^^ k.reg b.toNat) ∧
    (∃ (s : State) (c : Nat) (k : Core) (a b : BitVec 5) (r : Dword), k = s.core c ∧ s.atInstr c 4 ∧ r = k.reg a.toNat &&& ~~~(k.reg b.toNat)) ∧
    (∃ (s : State) (c : Nat) (k : Core) (a : BitVec 5) (imm : BitVec 14) (r : Dword), k = s.core c ∧ s.atInstr c 4 ∧ r = k.reg a.toNat &&& imm.setWidth 64) ∧
    (∃ (s : State) (c : Nat) (k : Core) (a : BitVec 5) (imm : BitVec 14) (r : Dword), k = s.core c ∧ s.atInstr c 4 ∧ r = k.reg a.toNat ||| imm.setWidth 64) ∧
    (∃ (s : State) (c : Nat) (k : Core) (a : BitVec 5) (imm : BitVec 14) (r : Dword), k = s.core c ∧ s.atInstr c 4 ∧ r = k.reg a.toNat ^^^ imm.setWidth 64) ∧
    (∃ (s : State) (c : Nat) (k : Core) (d : BitVec 5) (r : Dword), k = s.core c ∧ s.atInstr c 2 ∧ r = ~~~(k.reg d.toNat)) :=
  ⟨⟨s0, 0, (s0).core (0), (0 : BitVec 5), (0 : BitVec 5), ((s0).core (0)).reg ((0 : BitVec 5)).toNat &&& ((s0).core (0)).reg ((0 : BitVec 5)).toNat, rfl, (by unfold State.atInstr; decide +kernel), rfl⟩,
   ⟨s0, 0, (s0).core (0), (0 : BitVec 5), (0 : BitVec 5), ((s0).core (0)).reg ((0 : BitVec 5)).toNat ||| ((s0).core (0)).reg ((0 : BitVec 5)).toNat, rfl, (by unfold State.atInstr; decide +kernel), rfl⟩,
   ⟨s0, 0, (s0).core (0), (0 : BitVec 5), (0 : BitVec 5), ((s0).core (0)).reg ((0 : BitVec 5)).toNat ^^^ ((s0).core (0)).reg ((0 : BitVec 5)).toNat, rfl, (by unfold State.atInstr; decide +kernel), rfl⟩,
   ⟨s0, 0, (s0).core (0), (0 : BitVec 5), (0 : BitVec 5), ((s0).core (0)).reg ((0 : BitVec 5)).toNat &&& ((s0).core (0)).reg ((0 : BitVec 5)).toNat, rfl, (by unfold State.atInstr; decide +kernel), rfl⟩,
   ⟨s0, 0, (s0).core (0), (0 : BitVec 5), (0 : BitVec 5), ((s0).core (0)).reg ((0 : BitVec 5)).toNat ||| ((s0).core (0)).reg ((0 : BitVec 5)).toNat, rfl, (by unfold State.atInstr; decide +kernel), rfl⟩,
   ⟨s0, 0, (s0).core (0), (0 : BitVec 5), (0 : BitVec 5), ((s0).core (0)).reg ((0 : BitVec 5)).toNat ^^^ ((s0).core (0)).reg ((0 : BitVec 5)).toNat, rfl, (by unfold State.atInstr; decide +kernel), rfl⟩,
   ⟨s0, 0, (s0).core (0), (0 : BitVec 5), (0 : BitVec 5), ((s0).core (0)).reg ((0 : BitVec 5)).toNat &&& ~~~(((s0).core (0)).reg ((0 : BitVec 5)).toNat), rfl, (by unfold State.atInstr; decide +kernel), rfl⟩,
   ⟨s0, 0, (s0).core (0), (0 : BitVec 5), (0 : BitVec 14), ((s0).core (0)).reg ((0 : BitVec 5)).toNat &&& ((0 : BitVec 14)).setWidth 64, rfl, (by unfold State.atInstr; decide +kernel), rfl⟩,
   ⟨s0, 0, (s0).core (0), (0 : BitVec 5), (0 : BitVec 14), ((s0).core (0)).reg ((0 : BitVec 5)).toNat ||| ((0 : BitVec 14)).setWidth 64, rfl, (by unfold State.atInstr; decide +kernel), rfl⟩,
   ⟨s0, 0, (s0).core (0), (0 : BitVec 5), (0 : BitVec 14), ((s0).core (0)).reg ((0 : BitVec 5)).toNat ^^^ ((0 : BitVec 14)).setWidth 64, rfl, (by unfold State.atInstr; decide +kernel), rfl⟩,
   ⟨s0, 0, (s0).core (0), (0 : BitVec 5), ~~~(((s0).core (0)).reg ((0 : BitVec 5)).toNat), rfl, (by unfold State.atInstr; decide +kernel), rfl⟩⟩

set_option maxRecDepth 20000 in
theorem witness_ShiftsAndTheirFlags :
    (∃ (s : State) (c : Nat) (k : Core) (d g : BitVec 5) (r : Dword), k = s.core c ∧ s.atInstr c 2 ∧ r = (k.reg d.toNat) <<< ((k.reg g.toNat).toNat % 64)) ∧
    (∃ (s : State) (c : Nat) (k : Core) (d g : BitVec 5) (r : Dword), k = s.core c ∧ s.atInstr c 2 ∧ r = (k.reg d.toNat) >>> ((k.reg g.toNat).toNat % 64)) ∧
    (∃ (s : State) (c : Nat) (k : Core) (d g : BitVec 5) (r : Dword), k = s.core c ∧ s.atInstr c 2 ∧ r = (k.reg d.toNat).sshiftRight ((k.reg g.toNat).toNat % 64)) ∧
    (∃ (s : State) (c : Nat) (k : Core) (a b : BitVec 5) (r : Dword), k = s.core c ∧ s.atInstr c 4 ∧ r = (k.reg a.toNat) <<< ((k.reg b.toNat).toNat % 64)) ∧
    (∃ (s : State) (c : Nat) (k : Core) (a b : BitVec 5) (r : Dword), k = s.core c ∧ s.atInstr c 4 ∧ r = (k.reg a.toNat) >>> ((k.reg b.toNat).toNat % 64)) ∧
    (∃ (s : State) (c : Nat) (k : Core) (a b : BitVec 5) (r : Dword), k = s.core c ∧ s.atInstr c 4 ∧ r = (k.reg a.toNat).sshiftRight ((k.reg b.toNat).toNat % 64)) ∧
    (∃ (s : State) (c : Nat) (k : Core) (a b : BitVec 5) (r : Dword), k = s.core c ∧ s.atInstr c 4 ∧ r = (k.reg a.toNat).rotateRight ((k.reg b.toNat).toNat % 64)) ∧
    (∃ (s : State) (c : Nat) (k : Core) (a : BitVec 5) (n : BitVec 6) (r : Dword), k = s.core c ∧ s.atInstr c 4 ∧ r = (k.reg a.toNat) <<< n.toNat) ∧
    (∃ (s : State) (c : Nat) (k : Core) (a : BitVec 5) (n : BitVec 6) (r : Dword), k = s.core c ∧ s.atInstr c 4 ∧ r = (k.reg a.toNat) >>> n.toNat) ∧
    (∃ (s : State) (c : Nat) (k : Core) (a : BitVec 5) (n : BitVec 6) (r : Dword), k = s.core c ∧ s.atInstr c 4 ∧ r = (k.reg a.toNat).sshiftRight n.toNat) :=
  ⟨⟨s0, 0, (s0).core (0), (0 : BitVec 5), (0 : BitVec 5), (((s0).core (0)).reg ((0 : BitVec 5)).toNat) <<< ((((s0).core (0)).reg ((0 : BitVec 5)).toNat).toNat % 64), rfl, (by unfold State.atInstr; decide +kernel), rfl⟩,
   ⟨s0, 0, (s0).core (0), (0 : BitVec 5), (0 : BitVec 5), (((s0).core (0)).reg ((0 : BitVec 5)).toNat) >>> ((((s0).core (0)).reg ((0 : BitVec 5)).toNat).toNat % 64), rfl, (by unfold State.atInstr; decide +kernel), rfl⟩,
   ⟨s0, 0, (s0).core (0), (0 : BitVec 5), (0 : BitVec 5), (((s0).core (0)).reg ((0 : BitVec 5)).toNat).sshiftRight ((((s0).core (0)).reg ((0 : BitVec 5)).toNat).toNat % 64), rfl, (by unfold State.atInstr; decide +kernel), rfl⟩,
   ⟨s0, 0, (s0).core (0), (0 : BitVec 5), (0 : BitVec 5), (((s0).core (0)).reg ((0 : BitVec 5)).toNat) <<< ((((s0).core (0)).reg ((0 : BitVec 5)).toNat).toNat % 64), rfl, (by unfold State.atInstr; decide +kernel), rfl⟩,
   ⟨s0, 0, (s0).core (0), (0 : BitVec 5), (0 : BitVec 5), (((s0).core (0)).reg ((0 : BitVec 5)).toNat) >>> ((((s0).core (0)).reg ((0 : BitVec 5)).toNat).toNat % 64), rfl, (by unfold State.atInstr; decide +kernel), rfl⟩,
   ⟨s0, 0, (s0).core (0), (0 : BitVec 5), (0 : BitVec 5), (((s0).core (0)).reg ((0 : BitVec 5)).toNat).sshiftRight ((((s0).core (0)).reg ((0 : BitVec 5)).toNat).toNat % 64), rfl, (by unfold State.atInstr; decide +kernel), rfl⟩,
   ⟨s0, 0, (s0).core (0), (0 : BitVec 5), (0 : BitVec 5), (((s0).core (0)).reg ((0 : BitVec 5)).toNat).rotateRight ((((s0).core (0)).reg ((0 : BitVec 5)).toNat).toNat % 64), rfl, (by unfold State.atInstr; decide +kernel), rfl⟩,
   ⟨s0, 0, (s0).core (0), (0 : BitVec 5), (0 : BitVec 6), (((s0).core (0)).reg ((0 : BitVec 5)).toNat) <<< ((0 : BitVec 6)).toNat, rfl, (by unfold State.atInstr; decide +kernel), rfl⟩,
   ⟨s0, 0, (s0).core (0), (0 : BitVec 5), (0 : BitVec 6), (((s0).core (0)).reg ((0 : BitVec 5)).toNat) >>> ((0 : BitVec 6)).toNat, rfl, (by unfold State.atInstr; decide +kernel), rfl⟩,
   ⟨s0, 0, (s0).core (0), (0 : BitVec 5), (0 : BitVec 6), (((s0).core (0)).reg ((0 : BitVec 5)).toNat).sshiftRight ((0 : BitVec 6)).toNat, rfl, (by unfold State.atInstr; decide +kernel), rfl⟩⟩

set_option maxRecDepth 20000 in
theorem witness_Products :
    (∃ (s : State) (c : Nat) (k : Core), k = s.core c ∧ s.atInstr c 2) ∧
    (∃ (s : State) (c : Nat) (k : Core), k = s.core c ∧ s.atInstr c 4) :=
  ⟨⟨s0, 0, (s0).core (0), rfl, (by unfold State.atInstr; decide +kernel)⟩,
   ⟨s0, 0, (s0).core (0), rfl, (by unfold State.atInstr; decide +kernel)⟩⟩

set_option maxRecDepth 20000 in
theorem witness_UnaryOperations :
    ∃ (s : State) (c : Nat) (k : Core), k = s.core c ∧ s.atInstr c 2 :=
  ⟨s0, 0, (s0).core (0), rfl, (by unfold State.atInstr; decide +kernel)⟩

set_option maxRecDepth 20000 in
theorem witness_MovesAndAddresses :
    (∃ (s : State) (c : Nat) (k : Core), k = s.core c ∧ s.atInstr c 2) ∧
    (∃ (s : State) (c : Nat) (k : Core), k = s.core c ∧ s.atInstr c 4) ∧
    (∃ (s : State) (c : Nat) (k : Core), k = s.core c ∧ s.atInstr c 6) ∧
    (∃ (s : State) (c : Nat) (k : Core) (p : BitVec 5 × Dword), k = s.core c ∧ s.atInstr c 4 ∧ p ∈ [((0 : BitVec 5), (0x0100 : Dword)), (1, 0x033F2001), (2, 0x01004003), (3, 0x0000000400080100), (4, if s.onOscillator c then 0x00C80320 else 0x01F407D0), (5, 0), (6, 0), (7, 0)]) ∧
    (∃ (s : State) (c : Nat) (k : Core) (m : Addressing), k = s.core c ∧ s.atInstr c m.len ∧ m.ok ∧ m.moves = false) :=
  ⟨⟨s0, 0, (s0).core (0), rfl, (by unfold State.atInstr; decide +kernel)⟩,
   ⟨s0, 0, (s0).core (0), rfl, (by unfold State.atInstr; decide +kernel)⟩,
   ⟨s0, 0, (s0).core (0), rfl, (by unfold State.atInstr; decide +kernel)⟩,
   ⟨s0, 0, (s0).core (0), ((0 : BitVec 5), (0x0100 : Dword)), rfl, (by unfold State.atInstr; decide +kernel), (by first | decide +kernel | rfl)⟩,
   ⟨s0, 0, (s0).core (0), .base, rfl, (by unfold State.atInstr; decide +kernel), trivial, (by first | decide +kernel | rfl)⟩⟩

set_option maxRecDepth 20000 in
theorem witness_ByteArithmeticAndAdjust :
    (∃ (s : State) (c : Nat) (k : Core) (d g : BitVec 5) (a b : BitVec 8), k = s.core c ∧ s.atInstr c 2 ∧ a = (k.reg d.toNat).setWidth 8 ∧ b = (k.reg g.toNat).setWidth 8) ∧
    (∃ (s : State) (c : Nat) (k : Core) (d : BitVec 5) (a r : BitVec 8) (up : Bool), k = s.core c ∧ s.atInstr c 2 ∧ a = (k.reg d.toNat).setWidth 8 ∧ up = (k.flg.getLsbD 0 || decide (160 ≤ a.toNat + (if k.flg.getLsbD 4 || decide (9 < a.toNat % 16) then 6 else 0))) ∧ r = BitVec.ofNat 8 (a.toNat + (if k.flg.getLsbD 4 || decide (9 < a.toNat % 16) then 6 else 0) + (if up then 96 else 0))) ∧
    (∃ (s : State) (c : Nat) (k : Core) (d : BitVec 5) (a r : BitVec 8) (up : Bool), k = s.core c ∧ s.atInstr c 2 ∧ a = (k.reg d.toNat).setWidth 8 ∧ up = (k.flg.getLsbD 0 && decide (a.toNat < 160)) ∧ r = BitVec.ofNat 8 ((a.toNat / 16 + (if up then 0 else 10)) % 16 * 16 + (a.toNat + (if k.flg.getLsbD 4 && decide (a.toNat % 16 ≤ 9) then 0 else 10)) % 16)) :=
  ⟨⟨s0, 0, (s0).core (0), (0 : BitVec 5), (0 : BitVec 5), (0 : BitVec 8), (0 : BitVec 8), rfl, (by unfold State.atInstr; decide +kernel), (by decide +kernel), (by decide +kernel)⟩,
   ⟨s0, 0, (s0).core (0), (0 : BitVec 5), (0 : BitVec 8), 0, false, rfl, (by unfold State.atInstr; decide +kernel), (by decide +kernel), (by decide +kernel), (by decide +kernel)⟩,
   ⟨s0, 0, (s0).core (0), (0 : BitVec 5), (0 : BitVec 8), 0xAA, false, rfl, (by unfold State.atInstr; decide +kernel), (by decide +kernel), (by decide +kernel), (by decide +kernel)⟩⟩

set_option maxRecDepth 20000 in
theorem witness_JumpsAndBranches :
    (∃ (s : State) (c : Nat) (k : Core) (g : BitVec 5) (x : Dword), k = s.core c ∧ s.atInstr c 2 ∧ x = k.reg g.toNat ∧ x.getLsbD 0 = false) ∧
    (∃ (s : State) (c : Nat) (k : Core) (disp : BitVec 24) (x : Dword), k = s.core c ∧ s.atInstr c 4 ∧ x = k.pc + disp.signExtend 64 * 2 ∧ x.getLsbD 0 = false) ∧
    (∃ (s : State) (c : Nat) (k : Core) (p : BitVec 4 × Bool) (disp : BitVec 20) (x : Dword) (cy v z n : Bool), k = s.core c ∧ s.atInstr c 4 ∧ cy = k.flg.getLsbD 0 ∧ v = k.flg.getLsbD 1 ∧ z = k.flg.getLsbD 2 ∧ n = k.flg.getLsbD 3 ∧ p ∈ [((0 : BitVec 4), z), (1, !z), (2, cy), (3, !cy), (4, n), (5, !n), (6, v), (7, !v), (8, cy && !z), (9, !cy || z), (10, n == v), (11, n != v), (12, !z && n == v), (13, z || n != v), (14, true)] ∧ x = k.pc + disp.signExtend 64 * 2 ∧ x.getLsbD 0 = false) :=
  ⟨⟨s0, 0, (s0).core (0), (0 : BitVec 5), ((s0).core (0)).reg ((0 : BitVec 5)).toNat, rfl, (by unfold State.atInstr; decide +kernel), rfl, (by first | decide +kernel | rfl)⟩,
   ⟨s0, 0, (s0).core (0), (0 : BitVec 24), ((s0).core (0)).pc + ((0 : BitVec 24)).signExtend 64 * 2, rfl, (by unfold State.atInstr; decide +kernel), rfl, (by first | decide +kernel | rfl)⟩,
   ⟨s0, 0, (s0).core (0), ((14 : BitVec 4), true), (0 : BitVec 20), ((s0).core (0)).pc + ((0 : BitVec 20)).signExtend 64 * 2, false, false, false, false, rfl, (by unfold State.atInstr; decide +kernel), (by decide +kernel), (by decide +kernel), (by decide +kernel), (by decide +kernel), (by decide +kernel), rfl, (by first | decide +kernel | rfl)⟩⟩

set_option maxRecDepth 20000 in
theorem witness_SystemInstructions :
    (∃ (s : State) (c : Nat) (k : Core), k = s.core c ∧ s.atInstr c 2) ∧
    (∃ (s : State) (c : Nat) (k : Core), k = s.core c ∧ s.atInstr c 2 ∧ k.marshal = true) ∧
    (∃ (s : State) (c : Nat) (k : Core) (p : BitVec 5 × Dword), k = s.core c ∧ s.atInstr c 4 ∧ p ∈ [((0 : BitVec 5), k.flg), (1, k.dcx), (2, k.cyc), (3, BitVec.ofNat 64 s.stride), (4, BitVec.ofNat 64 c), (8, BitVec.ofNat 64 ((if k.exl then 4 else 0) + (if k.pmode then 2 else 0) + 1)), (9, k.epc), (10, k.ecause), (11, k.eaddr), (12, k.mvec), (13, k.hbase), (14, k.hsize), (15, k.hbanks), (16, k.scratch.getD 0 0), (17, k.scratch.getD 1 0), (18, k.scratch.getD 2 0), (19, k.scratch.getD 3 0)] ∧ (p.1.toNat < 8 ∨ k.marshal = true)) ∧
    (∃ (s : State) (c v : Nat) (k : Core) (a : BitVec 5) (x : Dword) (p : BitVec 5 × Bool × Core), k = s.core c ∧ s.atInstr c 4 ∧ x = k.reg a.toNat ∧ v = x.toNat ∧ p ∈ [((0 : BitVec 5), decide (v < 64), { k with flg := x }), (1, decide (v < 512) && decide (natBits v 7 3 = 0) && decide (natBits v 2 0 ≤ 4), { k with dcx := x }), (2, k.marshal, { k with cyc := x }), (8, k.marshal && decide (v < 8), { k with exl := x.getLsbD 2, pmode := x.getLsbD 1 }), (9, k.marshal && decide (v % 2 = 0), { k with epc := x }), (10, k.marshal && decide (v < 65536), { k with ecause := x }), (11, k.marshal, { k with eaddr := x }), (12, k.marshal && decide (v % 512 = 0), { k with mvec := x }), (13, k.marshal && decide (v < 2 ^ 37) && decide (v % 2 ^ 20 = 0), { k with hbase := x }), (14, k.marshal && decide (v ≤ 131072 * 2 ^ 20) && decide (v % 2 ^ 20 = 0), { k with hsize := x }), (15, k.marshal && decide (v < 256), { k with hbanks := x }), (16, k.marshal, { k with scratch := setReg k.scratch 0 x }), (17, k.marshal, { k with scratch := setReg k.scratch 1 x }), (18, k.marshal, { k with scratch := setReg k.scratch 2 x }), (19, k.marshal, { k with scratch := setReg k.scratch 3 x })] ∧ p.2.1 = true) :=
  ⟨⟨s0, 0, (s0).core (0), rfl, (by unfold State.atInstr; decide +kernel)⟩,
   ⟨s0, 0, (s0).core (0), rfl, (by unfold State.atInstr; decide +kernel), (by first | decide +kernel | rfl)⟩,
   ⟨s0, 0, (s0).core (0), ((0 : BitVec 5), (0 : Dword)), rfl, (by unfold State.atInstr; decide +kernel), (by first | decide +kernel | rfl), (by first | decide +kernel | rfl)⟩,
   ⟨s0, 0, (((s0).core (0)).reg ((0 : BitVec 5)).toNat).toNat, (s0).core (0), (0 : BitVec 5), ((s0).core (0)).reg ((0 : BitVec 5)).toNat, ((0 : BitVec 5), true, { k0 with flg := 0 }), rfl, (by unfold State.atInstr; decide +kernel), rfl, rfl, (by exact List.mem_cons_self ..), (by first | decide +kernel | rfl)⟩⟩

set_option maxRecDepth 20000 in
theorem witness_LoadsReadMemory :
    (∃ (s : State) (c : Nat) (k : Core) (d b : BitVec 5) (m : Addressing) (p : Nat × Nat × Bool) (a : Dword) (bs : Bytes), p ∈ [(0, 1, false), (1, 2, false), (2, 4, false), (3, 8, false), (4, 1, true), (5, 2, true), (6, 4, true)] ∧ k = s.core c ∧ s.atInstr c m.len ∧ m.ok ∧ (m.moves = true → b ≠ d) ∧ a = m.addr k b p.2.1 ∧ bs.length = p.2.1 ∧ a.toNat % p.2.1 = 0 ∧ s.loadsAs c a bs) ∧
    (∃ (s : State) (c : Nat) (k : Core) (d b : BitVec 5) (m : Addressing) (a : Dword) (bs : Bytes), k = s.core c ∧ s.atInstr c m.len ∧ m.ok ∧ (m.moves = true → b ≠ d ∧ b ≠ d + 1) ∧ d.toNat % 2 = 0 ∧ a = m.addr k b 16 ∧ bs.length = 16 ∧ a.toNat % 16 = 0 ∧ s.loadsAs c a bs) ∧
    (∃ (s : State) (c : Nat) (k : Core) (g : BitVec 5) (bs : Bytes), k = s.core c ∧ s.atInstr c 2 ∧ bs.length = 8 ∧ (k.reg g.toNat).toNat % 8 = 0 ∧ s.loadsAs c (k.reg g.toNat) bs) ∧
    (∃ (s u : State) (c off : Nat) (k : Core) (d b : BitVec 5) (m : Addressing) (v : BitVec 32), k = s.core c ∧ s.atInstr c m.len ∧ k.marshal = true ∧ m.ok ∧ (m.moves = true → b ≠ d) ∧ (m.addr k b 4).toNat % 4 = 0 ∧ s.place c k (m.addr k b 4).toNat 4 false = some (.bar0 off) ∧ State.coreBus.read s c off = (u, v)) :=
  ⟨⟨s0, 0, (s0).core (0), (0 : BitVec 5), 1, .base, (0, 1, false), 0, [0], (by first | decide +kernel | rfl), rfl, (by unfold State.atInstr; decide +kernel), trivial, (by first | decide +kernel | rfl), (by first | decide +kernel | rfl), (by first | decide +kernel | rfl), (by first | decide +kernel | rfl), (by first | exact Or.inl ⟨0, 0, by decide +kernel, by decide +kernel, by decide +kernel⟩ | exact Or.inl ⟨0, 1, by decide +kernel, by decide +kernel, by decide +kernel⟩)⟩,
   ⟨s0, 0, (s0).core (0), (0 : BitVec 5), 2, .base, 0, List.replicate 16 0, rfl, (by unfold State.atInstr; decide +kernel), trivial, (by first | decide +kernel | rfl), (by first | decide +kernel | rfl), (by first | decide +kernel | rfl), (by first | decide +kernel | rfl), (by first | decide +kernel | rfl), (by first | exact Or.inl ⟨0, 0, by decide +kernel, by decide +kernel, by decide +kernel⟩ | exact Or.inl ⟨0, 1, by decide +kernel, by decide +kernel, by decide +kernel⟩)⟩,
   ⟨s0, 0, (s0).core (0), (0 : BitVec 5), List.replicate 8 0, rfl, (by unfold State.atInstr; decide +kernel), (by first | decide +kernel | rfl), (by first | decide +kernel | rfl), (by first | exact Or.inl ⟨0, 0, by decide +kernel, by decide +kernel, by decide +kernel⟩ | exact Or.inl ⟨0, 1, by decide +kernel, by decide +kernel, by decide +kernel⟩)⟩,
   ⟨withCore (kReg 0x40000000), (State.coreBus.read (withCore (kReg 0x40000000)) 0 0).1, 0, 0, (withCore (kReg 0x40000000)).core (0), 1, 0, .base, (State.coreBus.read (withCore (kReg 0x40000000)) 0 0).2, rfl, (by unfold State.atInstr; decide +kernel), (by first | decide +kernel | rfl), trivial, (by first | decide +kernel | rfl), (by first | decide +kernel | rfl), (by first | decide +kernel | rfl), (by rfl)⟩⟩

set_option maxRecDepth 20000 in
theorem witness_StoresWriteMemory :
    (∃ (s : State) (c mem off : Nat) (k : Core) (d b : BitVec 5) (m : Addressing) (p : Nat × Nat) (a : Dword), p ∈ [(0, 1), (1, 2), (2, 4), (3, 8), (4, 16)] ∧ k = s.core c ∧ s.atInstr c m.len ∧ m.ok ∧ (p.1 = 4 → d.toNat % 2 = 0) ∧ a = m.addr k b p.2 ∧ a.toNat % p.2 = 0 ∧ s.storesAt c a p.2 mem off) ∧
    (∃ (s : State) (c mem off : Nat) (k : Core) (g : BitVec 5), k = s.core c ∧ s.atInstr c 2 ∧ (k.reg g.toNat).toNat % 8 = 0 ∧ s.storesAt c (k.reg g.toNat) 8 mem off) :=
  ⟨⟨s0, 0, 0, 0, (s0).core (0), (0 : BitVec 5), (0 : BitVec 5), .base, (3, 8), 0, (by first | decide +kernel | rfl), rfl, (by unfold State.atInstr; decide +kernel), trivial, (by first | decide +kernel | rfl), (by first | decide +kernel | rfl), (by first | decide +kernel | rfl), (by unfold State.storesAt; decide +kernel)⟩,
   ⟨s0, 0, 0, 0, (s0).core (0), (0 : BitVec 5), rfl, (by unfold State.atInstr; decide +kernel), (by first | decide +kernel | rfl), (by unfold State.storesAt; decide +kernel)⟩⟩

set_option maxRecDepth 20000 in
theorem witness_AStoreChangesOnlyItsBytes :
    (∃ (s : State) (off : Nat) (bs : Bytes) (a : _), s.memOk ∧ (a < off ∨ off + bs.length ≤ a)) ∧
    (∃ (s : State) (bs : Bytes) (i : _), s.memOk ∧ i < bs.length) ∧
    (∃ (s : State) (m : Nat) (m' : _), s.memOk ∧ m' ≠ m) :=
  ⟨⟨withBytes k0 [7], 0, [1], 1, ⟨by decide +kernel, by decide +kernel⟩, (by first | decide +kernel | rfl)⟩,
   ⟨withBytes k0 [7], [1], 0, ⟨by decide +kernel, by decide +kernel⟩, (by first | decide +kernel | rfl)⟩,
   ⟨withBytes k0 [7], 0, 1, ⟨by decide +kernel, by decide +kernel⟩, (by first | decide +kernel | rfl)⟩⟩

set_option maxRecDepth 20000 in
theorem witness_AtomicsExchangeMemory :
    ∃ (s : State) (c mem off : Nat) (k : Core) (b : BitVec 5) (bs : Bytes) (old : Dword), k = s.core c ∧ s.atInstr c 4 ∧ bs.length = 8 ∧ (k.reg b.toNat).toNat % 8 = 0 ∧ s.loadsAs c (k.reg b.toNat) bs ∧ s.storesAt c (k.reg b.toNat) 8 mem off ∧ old = BitVec.ofNat 64 (leNat bs) :=
  ⟨s0, 0, 0, 0, (s0).core (0), (0 : BitVec 5), List.replicate 8 0, BitVec.ofNat 64 (leNat (List.replicate 8 0)), rfl, (by unfold State.atInstr; decide +kernel), (by first | decide +kernel | rfl), (by first | decide +kernel | rfl), (by first | exact Or.inl ⟨0, 0, by decide +kernel, by decide +kernel, by decide +kernel⟩ | exact Or.inl ⟨0, 1, by decide +kernel, by decide +kernel, by decide +kernel⟩), (by unfold State.storesAt; decide +kernel), rfl⟩

set_option maxRecDepth 20000 in
theorem witness_RegisterDecimalForms :
    ∃ (s : State) (c x y : Nat) (k : Core) (a b : BitVec 5), k = s.core c ∧ s.atInstr c 4 ∧ regBad (k.reg a.toNat) = false ∧ regBad (k.reg b.toNat) = false ∧ x = regVal (k.reg a.toNat) ∧ y = regVal (k.reg b.toNat) :=
  ⟨s0, 0, 0, 0, (s0).core (0), (0 : BitVec 5), (0 : BitVec 5), rfl, (by unfold State.atInstr; decide +kernel), (by first | decide +kernel | rfl), (by first | decide +kernel | rfl), (by decide +kernel), (by decide +kernel)⟩

set_option maxRecDepth 20000 in
theorem witness_PackedDecimalArithmetic :
    (∃ (s : State) (c m off : Nat) (k : Core) (l1 l2 b1 b2 : BitVec 5) (d1 d2 : BitVec 10) (a1 a2 : Dword) (o1 o2 : Bytes) (v : Int), k = s.core c ∧ s.atInstr c 6 ∧ a1 = k.reg b1.toNat + d1.setWidth 64 ∧ a2 = k.reg b2.toNat + d2.setWidth 64 ∧ s.loadsAs c a1 o1 ∧ o1.length = l1.toNat + 1 ∧ s.loadsAs c a2 o2 ∧ o2.length = l2.toNat + 1 ∧ s.storesAt c a1 (l1.toNat + 1) m off ∧ packedBad 1 o1 = [] ∧ packedBad 2 o2 = [] ∧ v = packedVal o1 + packedVal o2 ∧ (v.natAbs < 10 ^ (2 * l1.toNat + 1) ∨ k.dcx.getLsbD 8 = false)) ∧
    (∃ (s : State) (c m off : Nat) (k : Core) (l1 l2 b1 b2 : BitVec 5) (d1 d2 : BitVec 10) (a1 a2 : Dword) (o1 o2 : Bytes) (v : Int), k = s.core c ∧ s.atInstr c 6 ∧ a1 = k.reg b1.toNat + d1.setWidth 64 ∧ a2 = k.reg b2.toNat + d2.setWidth 64 ∧ s.loadsAs c a1 o1 ∧ o1.length = l1.toNat + 1 ∧ s.loadsAs c a2 o2 ∧ o2.length = l2.toNat + 1 ∧ s.storesAt c a1 (l1.toNat + 1) m off ∧ packedBad 1 o1 = [] ∧ packedBad 2 o2 = [] ∧ v = packedVal o1 - packedVal o2 ∧ (v.natAbs < 10 ^ (2 * l1.toNat + 1) ∨ k.dcx.getLsbD 8 = false)) ∧
    (∃ (s : State) (c m off : Nat) (k : Core) (l1 l2 b1 b2 : BitVec 5) (d1 d2 : BitVec 10) (a1 a2 : Dword) (o1 o2 : Bytes) (v : Int), k = s.core c ∧ s.atInstr c 6 ∧ a1 = k.reg b1.toNat + d1.setWidth 64 ∧ a2 = k.reg b2.toNat + d2.setWidth 64 ∧ s.loadsAs c a1 o1 ∧ o1.length = l1.toNat + 1 ∧ s.loadsAs c a2 o2 ∧ o2.length = l2.toNat + 1 ∧ s.storesAt c a1 (l1.toNat + 1) m off ∧ packedBad 1 o1 = [] ∧ packedBad 2 o2 = [] ∧ v = packedVal o1 * packedVal o2 ∧ (v.natAbs < 10 ^ (2 * l1.toNat + 1) ∨ k.dcx.getLsbD 8 = false)) ∧
    (∃ (s : State) (c m off : Nat) (k : Core) (l1 l2 b1 b2 : BitVec 5) (d1 d2 : BitVec 10) (a1 a2 : Dword) (o1 o2 : Bytes) (v : Int), k = s.core c ∧ s.atInstr c 6 ∧ a1 = k.reg b1.toNat + d1.setWidth 64 ∧ a2 = k.reg b2.toNat + d2.setWidth 64 ∧ s.loadsAs c a1 o1 ∧ o1.length = l1.toNat + 1 ∧ s.loadsAs c a2 o2 ∧ o2.length = l2.toNat + 1 ∧ s.storesAt c a1 (l1.toNat + 1) m off ∧ packedBad 1 o1 = [] ∧ packedBad 2 o2 = [] ∧ packedVal o2 ≠ 0 ∧ v = divRound (natBits k.dcx.toNat 2 0) (packedVal o1) (packedVal o2) ∧ (v.natAbs < 10 ^ (2 * l1.toNat + 1) ∨ k.dcx.getLsbD 8 = false)) ∧
    (∃ (s : State) (c m off : Nat) (k : Core) (l1 l2 b1 b2 : BitVec 5) (d1 d2 : BitVec 10) (a1 a2 : Dword) (o2 : Bytes) (v : Int), k = s.core c ∧ s.atInstr c 6 ∧ a1 = k.reg b1.toNat + d1.setWidth 64 ∧ a2 = k.reg b2.toNat + d2.setWidth 64 ∧ s.loadsAs c a2 o2 ∧ o2.length = l2.toNat + 1 ∧ s.storesAt c a1 (l1.toNat + 1) m off ∧ packedBad 2 o2 = [] ∧ v = packedVal o2 ∧ (v.natAbs < 10 ^ (2 * l1.toNat + 1) ∨ k.dcx.getLsbD 8 = false)) ∧
    (∃ (s : State) (c m off : Nat) (k : Core) (l1 l2 b1 b2 : BitVec 5) (d1 d2 : BitVec 10) (a1 a2 : Dword) (o2 : Bytes) (v : Int), k = s.core c ∧ s.atInstr c 6 ∧ a1 = k.reg b1.toNat + d1.setWidth 64 ∧ a2 = k.reg b2.toNat + d2.setWidth 64 ∧ s.loadsAs c a2 o2 ∧ o2.length = l2.toNat + 1 ∧ s.storesAt c a1 (l1.toNat + 1) m off ∧ zonedBad o2 = [] ∧ v = zonedVal o2 ∧ (v.natAbs < 10 ^ (2 * l1.toNat + 1) ∨ k.dcx.getLsbD 8 = false)) :=
  ⟨⟨withBytes k0 [0x1C], 0, 0, 0, (withBytes k0 [0x1C]).core (0), (0 : BitVec 5), (0 : BitVec 5), (0 : BitVec 5), (0 : BitVec 5), (0 : BitVec 10), (0 : BitVec 10), ((withBytes k0 [0x1C]).core (0)).reg ((0 : BitVec 5)).toNat + ((0 : BitVec 10)).setWidth 64, ((withBytes k0 [0x1C]).core (0)).reg ((0 : BitVec 5)).toNat + ((0 : BitVec 10)).setWidth 64, [0x1C], [0x1C], packedVal ([0x1C]) + packedVal ([0x1C]), rfl, (by unfold State.atInstr; decide +kernel), rfl, rfl, (by first | exact Or.inl ⟨0, 0, by decide +kernel, by decide +kernel, by decide +kernel⟩ | exact Or.inl ⟨0, 1, by decide +kernel, by decide +kernel, by decide +kernel⟩), (by first | decide +kernel | rfl), (by first | exact Or.inl ⟨0, 0, by decide +kernel, by decide +kernel, by decide +kernel⟩ | exact Or.inl ⟨0, 1, by decide +kernel, by decide +kernel, by decide +kernel⟩), (by first | decide +kernel | rfl), (by unfold State.storesAt; decide +kernel), (by first | decide +kernel | rfl), (by first | decide +kernel | rfl), rfl, (by first | decide +kernel | rfl)⟩,
   ⟨withBytes k0 [0x1C], 0, 0, 0, (withBytes k0 [0x1C]).core (0), (0 : BitVec 5), (0 : BitVec 5), (0 : BitVec 5), (0 : BitVec 5), (0 : BitVec 10), (0 : BitVec 10), ((withBytes k0 [0x1C]).core (0)).reg ((0 : BitVec 5)).toNat + ((0 : BitVec 10)).setWidth 64, ((withBytes k0 [0x1C]).core (0)).reg ((0 : BitVec 5)).toNat + ((0 : BitVec 10)).setWidth 64, [0x1C], [0x1C], packedVal ([0x1C]) - packedVal ([0x1C]), rfl, (by unfold State.atInstr; decide +kernel), rfl, rfl, (by first | exact Or.inl ⟨0, 0, by decide +kernel, by decide +kernel, by decide +kernel⟩ | exact Or.inl ⟨0, 1, by decide +kernel, by decide +kernel, by decide +kernel⟩), (by first | decide +kernel | rfl), (by first | exact Or.inl ⟨0, 0, by decide +kernel, by decide +kernel, by decide +kernel⟩ | exact Or.inl ⟨0, 1, by decide +kernel, by decide +kernel, by decide +kernel⟩), (by first | decide +kernel | rfl), (by unfold State.storesAt; decide +kernel), (by first | decide +kernel | rfl), (by first | decide +kernel | rfl), rfl, (by first | decide +kernel | rfl)⟩,
   ⟨withBytes k0 [0x1C], 0, 0, 0, (withBytes k0 [0x1C]).core (0), (0 : BitVec 5), (0 : BitVec 5), (0 : BitVec 5), (0 : BitVec 5), (0 : BitVec 10), (0 : BitVec 10), ((withBytes k0 [0x1C]).core (0)).reg ((0 : BitVec 5)).toNat + ((0 : BitVec 10)).setWidth 64, ((withBytes k0 [0x1C]).core (0)).reg ((0 : BitVec 5)).toNat + ((0 : BitVec 10)).setWidth 64, [0x1C], [0x1C], packedVal ([0x1C]) * packedVal ([0x1C]), rfl, (by unfold State.atInstr; decide +kernel), rfl, rfl, (by first | exact Or.inl ⟨0, 0, by decide +kernel, by decide +kernel, by decide +kernel⟩ | exact Or.inl ⟨0, 1, by decide +kernel, by decide +kernel, by decide +kernel⟩), (by first | decide +kernel | rfl), (by first | exact Or.inl ⟨0, 0, by decide +kernel, by decide +kernel, by decide +kernel⟩ | exact Or.inl ⟨0, 1, by decide +kernel, by decide +kernel, by decide +kernel⟩), (by first | decide +kernel | rfl), (by unfold State.storesAt; decide +kernel), (by first | decide +kernel | rfl), (by first | decide +kernel | rfl), rfl, (by first | decide +kernel | rfl)⟩,
   ⟨withBytes k0 [0x1C], 0, 0, 0, (withBytes k0 [0x1C]).core (0), (0 : BitVec 5), (0 : BitVec 5), (0 : BitVec 5), (0 : BitVec 5), (0 : BitVec 10), (0 : BitVec 10), ((withBytes k0 [0x1C]).core (0)).reg ((0 : BitVec 5)).toNat + ((0 : BitVec 10)).setWidth 64, ((withBytes k0 [0x1C]).core (0)).reg ((0 : BitVec 5)).toNat + ((0 : BitVec 10)).setWidth 64, [0x1C], [0x1C], divRound (natBits ((withBytes k0 [0x1C]).core (0)).dcx.toNat 2 0) (packedVal ([0x1C])) (packedVal ([0x1C])), rfl, (by unfold State.atInstr; decide +kernel), rfl, rfl, (by first | exact Or.inl ⟨0, 0, by decide +kernel, by decide +kernel, by decide +kernel⟩ | exact Or.inl ⟨0, 1, by decide +kernel, by decide +kernel, by decide +kernel⟩), (by first | decide +kernel | rfl), (by first | exact Or.inl ⟨0, 0, by decide +kernel, by decide +kernel, by decide +kernel⟩ | exact Or.inl ⟨0, 1, by decide +kernel, by decide +kernel, by decide +kernel⟩), (by first | decide +kernel | rfl), (by unfold State.storesAt; decide +kernel), (by first | decide +kernel | rfl), (by first | decide +kernel | rfl), (by first | decide +kernel | rfl), rfl, (by first | decide +kernel | rfl)⟩,
   ⟨withBytes k0 [0x1C], 0, 0, 0, (withBytes k0 [0x1C]).core (0), (0 : BitVec 5), (0 : BitVec 5), (0 : BitVec 5), (0 : BitVec 5), (0 : BitVec 10), (0 : BitVec 10), ((withBytes k0 [0x1C]).core (0)).reg ((0 : BitVec 5)).toNat + ((0 : BitVec 10)).setWidth 64, ((withBytes k0 [0x1C]).core (0)).reg ((0 : BitVec 5)).toNat + ((0 : BitVec 10)).setWidth 64, [0x1C], packedVal ([0x1C]), rfl, (by unfold State.atInstr; decide +kernel), rfl, rfl, (by first | exact Or.inl ⟨0, 0, by decide +kernel, by decide +kernel, by decide +kernel⟩ | exact Or.inl ⟨0, 1, by decide +kernel, by decide +kernel, by decide +kernel⟩), (by first | decide +kernel | rfl), (by unfold State.storesAt; decide +kernel), (by first | decide +kernel | rfl), rfl, (by first | decide +kernel | rfl)⟩,
   ⟨withBytes k0 [0xF1], 0, 0, 0, (withBytes k0 [0xF1]).core (0), (0 : BitVec 5), (0 : BitVec 5), (0 : BitVec 5), (0 : BitVec 5), (0 : BitVec 10), (0 : BitVec 10), ((withBytes k0 [0xF1]).core (0)).reg ((0 : BitVec 5)).toNat + ((0 : BitVec 10)).setWidth 64, ((withBytes k0 [0xF1]).core (0)).reg ((0 : BitVec 5)).toNat + ((0 : BitVec 10)).setWidth 64, [0xF1], zonedVal ([0xF1]), rfl, (by unfold State.atInstr; decide +kernel), rfl, rfl, (by first | exact Or.inl ⟨0, 0, by decide +kernel, by decide +kernel, by decide +kernel⟩ | exact Or.inl ⟨0, 1, by decide +kernel, by decide +kernel, by decide +kernel⟩), (by first | decide +kernel | rfl), (by unfold State.storesAt; decide +kernel), (by first | decide +kernel | rfl), rfl, (by first | decide +kernel | rfl)⟩⟩

set_option maxRecDepth 20000 in
theorem witness_DecimalConversionsAndEditing :
    (∃ (s : State) (c : Nat) (k : Core) (l1 l2 b1 b2 : BitVec 5) (d1 d2 : BitVec 10) (a1 a2 : Dword) (o1 o2 : Bytes), k = s.core c ∧ s.atInstr c 6 ∧ a1 = k.reg b1.toNat + d1.setWidth 64 ∧ a2 = k.reg b2.toNat + d2.setWidth 64 ∧ s.loadsAs c a1 o1 ∧ o1.length = l1.toNat + 1 ∧ s.loadsAs c a2 o2 ∧ o2.length = l2.toNat + 1 ∧ packedBad 1 o1 = [] ∧ packedBad 2 o2 = []) ∧
    (∃ (s : State) (c m off : Nat) (k : Core) (l1 l2 b1 b2 : BitVec 5) (d1 d2 : BitVec 10) (a1 a2 : Dword) (o2 : Bytes) (v : Int), k = s.core c ∧ s.atInstr c 6 ∧ a1 = k.reg b1.toNat + d1.setWidth 64 ∧ a2 = k.reg b2.toNat + d2.setWidth 64 ∧ s.loadsAs c a2 o2 ∧ o2.length = l2.toNat + 1 ∧ s.storesAt c a1 (l1.toNat + 1) m off ∧ packedBad 2 o2 = [] ∧ v = packedVal o2 ∧ (v.natAbs < 10 ^ (l1.toNat + 1) ∨ k.dcx.getLsbD 8 = false)) ∧
    (∃ (s : State) (c m off : Nat) (k : Core) (l1 l2 b1 b2 : BitVec 5) (d1 d2 : BitVec 10) (a1 a2 : Dword) (o1 o2 : Bytes), k = s.core c ∧ s.atInstr c 6 ∧ a1 = k.reg b1.toNat + d1.setWidth 64 ∧ a2 = k.reg b2.toNat + d2.setWidth 64 ∧ s.loadsAs c a1 o1 ∧ o1.length = l1.toNat + 1 ∧ s.loadsAs c a2 o2 ∧ o2.length = l2.toNat + 1 ∧ s.storesAt c a1 (l1.toNat + 1) m off ∧ packedBad 2 o2 = [] ∧ editBad o1 o2 = false) ∧
    (∃ (s : State) (c m off : Nat) (k : Core) (l1 b1 : BitVec 5) (sh : BitVec 7) (d1 : BitVec 10) (a1 : Dword) (o1 : Bytes) (v : Int), k = s.core c ∧ s.atInstr c 6 ∧ a1 = k.reg b1.toNat + d1.setWidth 64 ∧ sh ≠ 64 ∧ s.loadsAs c a1 o1 ∧ o1.length = l1.toNat + 1 ∧ s.storesAt c a1 (l1.toNat + 1) m off ∧ packedBad 1 o1 = [] ∧ v = shiftVal (natBits k.dcx.toNat 2 0) (packedVal o1) sh.toInt ∧ (v.natAbs < 10 ^ (2 * l1.toNat + 1) ∨ k.dcx.getLsbD 8 = false)) ∧
    (∃ (s : State) (c m off : Nat) (k : Core) (l1 gr b1 : BitVec 5) (d1 : BitVec 10) (a1 : Dword) (v : Int), k = s.core c ∧ s.atInstr c 6 ∧ a1 = k.reg b1.toNat + d1.setWidth 64 ∧ s.storesAt c a1 (l1.toNat + 1) m off ∧ v = (k.reg gr.toNat).toInt ∧ (v.natAbs < 10 ^ (2 * l1.toNat + 1) ∨ k.dcx.getLsbD 8 = false)) ∧
    (∃ (s : State) (c : Nat) (k : Core) (l1 b1 : BitVec 5) (d1 : BitVec 10) (a1 : Dword) (o1 : Bytes) (v : Int), k = s.core c ∧ s.atInstr c 6 ∧ a1 = k.reg b1.toNat + d1.setWidth 64 ∧ s.loadsAs c a1 o1 ∧ o1.length = l1.toNat + 1 ∧ packedBad 1 o1 = [] ∧ v = packedVal o1 ∧ -(2 ^ 63) ≤ v ∧ v < 2 ^ 63) :=
  ⟨⟨withBytes k0 [0x1C], 0, (withBytes k0 [0x1C]).core (0), (0 : BitVec 5), (0 : BitVec 5), (0 : BitVec 5), (0 : BitVec 5), (0 : BitVec 10), (0 : BitVec 10), ((withBytes k0 [0x1C]).core (0)).reg ((0 : BitVec 5)).toNat + ((0 : BitVec 10)).setWidth 64, ((withBytes k0 [0x1C]).core (0)).reg ((0 : BitVec 5)).toNat + ((0 : BitVec 10)).setWidth 64, [0x1C], [0x1C], rfl, (by unfold State.atInstr; decide +kernel), rfl, rfl, (by first | exact Or.inl ⟨0, 0, by decide +kernel, by decide +kernel, by decide +kernel⟩ | exact Or.inl ⟨0, 1, by decide +kernel, by decide +kernel, by decide +kernel⟩), (by first | decide +kernel | rfl), (by first | exact Or.inl ⟨0, 0, by decide +kernel, by decide +kernel, by decide +kernel⟩ | exact Or.inl ⟨0, 1, by decide +kernel, by decide +kernel, by decide +kernel⟩), (by first | decide +kernel | rfl), (by first | decide +kernel | rfl), (by first | decide +kernel | rfl)⟩,
   ⟨withBytes k0 [0x1C], 0, 0, 0, (withBytes k0 [0x1C]).core (0), (0 : BitVec 5), (0 : BitVec 5), (0 : BitVec 5), (0 : BitVec 5), (0 : BitVec 10), (0 : BitVec 10), ((withBytes k0 [0x1C]).core (0)).reg ((0 : BitVec 5)).toNat + ((0 : BitVec 10)).setWidth 64, ((withBytes k0 [0x1C]).core (0)).reg ((0 : BitVec 5)).toNat + ((0 : BitVec 10)).setWidth 64, [0x1C], packedVal ([0x1C]), rfl, (by unfold State.atInstr; decide +kernel), rfl, rfl, (by first | exact Or.inl ⟨0, 0, by decide +kernel, by decide +kernel, by decide +kernel⟩ | exact Or.inl ⟨0, 1, by decide +kernel, by decide +kernel, by decide +kernel⟩), (by first | decide +kernel | rfl), (by unfold State.storesAt; decide +kernel), (by first | decide +kernel | rfl), rfl, (by first | decide +kernel | rfl)⟩,
   ⟨withBytes k0 [0x80, 0x1C], 0, 0, 0, (withBytes k0 [0x80, 0x1C]).core (0), (0 : BitVec 5), (0 : BitVec 5), (0 : BitVec 5), (0 : BitVec 5), (0 : BitVec 10), (1 : BitVec 10), ((withBytes k0 [0x80, 0x1C]).core (0)).reg ((0 : BitVec 5)).toNat + ((0 : BitVec 10)).setWidth 64, ((withBytes k0 [0x80, 0x1C]).core (0)).reg ((0 : BitVec 5)).toNat + ((1 : BitVec 10)).setWidth 64, [0x80], [0x1C], rfl, (by unfold State.atInstr; decide +kernel), rfl, rfl, (by first | exact Or.inl ⟨0, 0, by decide +kernel, by decide +kernel, by decide +kernel⟩ | exact Or.inl ⟨0, 1, by decide +kernel, by decide +kernel, by decide +kernel⟩), (by first | decide +kernel | rfl), (by first | exact Or.inl ⟨0, 0, by decide +kernel, by decide +kernel, by decide +kernel⟩ | exact Or.inl ⟨0, 1, by decide +kernel, by decide +kernel, by decide +kernel⟩), (by first | decide +kernel | rfl), (by unfold State.storesAt; decide +kernel), (by first | decide +kernel | rfl), (by first | decide +kernel | rfl)⟩,
   ⟨withBytes k0 [0x1C], 0, 0, 0, (withBytes k0 [0x1C]).core (0), (0 : BitVec 5), (0 : BitVec 5), (0 : BitVec 7), (0 : BitVec 10), ((withBytes k0 [0x1C]).core (0)).reg ((0 : BitVec 5)).toNat + ((0 : BitVec 10)).setWidth 64, [0x1C], shiftVal (natBits ((withBytes k0 [0x1C]).core (0)).dcx.toNat 2 0) (packedVal ([0x1C])) ((0 : BitVec 7)).toInt, rfl, (by unfold State.atInstr; decide +kernel), rfl, (by first | decide +kernel | rfl), (by first | exact Or.inl ⟨0, 0, by decide +kernel, by decide +kernel, by decide +kernel⟩ | exact Or.inl ⟨0, 1, by decide +kernel, by decide +kernel, by decide +kernel⟩), (by first | decide +kernel | rfl), (by unfold State.storesAt; decide +kernel), (by first | decide +kernel | rfl), rfl, (by first | decide +kernel | rfl)⟩,
   ⟨withBytes k0 [0x1C], 0, 0, 0, (withBytes k0 [0x1C]).core (0), (0 : BitVec 5), (0 : BitVec 5), (0 : BitVec 5), (0 : BitVec 10), ((withBytes k0 [0x1C]).core (0)).reg ((0 : BitVec 5)).toNat + ((0 : BitVec 10)).setWidth 64, (((withBytes k0 [0x1C]).core (0)).reg ((0 : BitVec 5)).toNat).toInt, rfl, (by unfold State.atInstr; decide +kernel), rfl, (by unfold State.storesAt; decide +kernel), rfl, (by first | decide +kernel | rfl)⟩,
   ⟨withBytes k0 [0x1C], 0, (withBytes k0 [0x1C]).core (0), (0 : BitVec 5), (0 : BitVec 5), (0 : BitVec 10), ((withBytes k0 [0x1C]).core (0)).reg ((0 : BitVec 5)).toNat + ((0 : BitVec 10)).setWidth 64, [0x1C], packedVal ([0x1C]), rfl, (by unfold State.atInstr; decide +kernel), rfl, (by first | exact Or.inl ⟨0, 0, by decide +kernel, by decide +kernel, by decide +kernel⟩ | exact Or.inl ⟨0, 1, by decide +kernel, by decide +kernel, by decide +kernel⟩), (by first | decide +kernel | rfl), (by first | decide +kernel | rfl), rfl, (by first | decide +kernel | rfl), (by first | decide +kernel | rfl)⟩⟩

set_option maxRecDepth 20000 in
theorem witness_RoundingFollowsItsMode :
    ∃ (den : Nat), 0 < den :=
  ⟨2, (by first | decide +kernel | rfl)⟩

set_option maxRecDepth 20000 in
theorem witness_RepeatsRunTheirInstruction :
    (∃ (s : State) (c : Nat) (k : Core) (gc : BitVec 5) (w : RepWord), k = s.core c ∧ s.atInstr c (4 + State.wordLen w) ∧ wordLenOk w = true ∧ State.illRep c k (Fmt.im 0x33 gc 0 0).toNat w = [] ∧ gc.toNat ∉ State.namesReg w ∧ k.reg gc.toNat = 0) ∧
    (∃ (s : State) (c n : Nat) (k : Core) (gc : BitVec 5) (w : RepWord) (f u : Nat → State), k = s.core c ∧ s.atInstr c (4 + State.wordLen w) ∧ wordLenOk w = true ∧ State.illRep c k (Fmt.im 0x33 gc 0 0).toNat w = [] ∧ gc.toNat ∉ State.namesReg w ∧ (k.reg gc.toNat).toNat = n ∧ f 0 = s.charge c (!k.marshal) (some 1) ∧ (∀ i, i < n → State.entryDue ((f i).core c) = none ∧ (∃ x, (f i).semWord State.coreBus c ((f i).core c) w = .ok (u i, x)) ∧ f (i + 1) = ((u i).modCore c (fun k => k.put gc.toNat (BitVec.ofNat 64 (n - 1 - i)))).charge c (!((f i).core c).marshal) ((f i).bound c ((f i).core c) w))) ∧
    (∃ (s : State) (c b : Nat) (k : Core) (n : BitVec 6) (w : RepWord) (f u : Nat → State), k = s.core c ∧ s.atInstr c (4 + State.wordLen w) ∧ wordLenOk w = true ∧ State.illRep c k (Fmt.sh 0x34 0 0 n).toNat w = [] ∧ State.isAtomic w = false ∧ s.onOscillator c = false ∧ s.bound c k w = some b ∧ (n.toNat + 1) * b ≤ 256 ∧ k.used + 256 ≤ 500 ∧ f 0 = s ∧ (∀ i, i < n.toNat + 1 → (∃ x, (f i).semWord State.coreBus c ((f i).core c) w = .ok (u i, x)) ∧ f (i + 1) = (u i).charge c (!((f i).core c).marshal) ((f i).bound c ((f i).core c) w))) ∧
    (∃ (s : State) (c b : Nat) (k : Core) (n : BitVec 6) (w : RepWord), k = s.core c ∧ s.atInstr c (4 + State.wordLen w) ∧ wordLenOk w = true ∧ State.illRep c k (Fmt.sh 0x34 0 0 n).toNat w = [] ∧ State.isAtomic w = false ∧ s.onOscillator c = false ∧ s.bound c k w = some b ∧ (n.toNat + 1) * b ≤ 256 ∧ 500 < k.used + 256) :=
  ⟨⟨s0, 0, (s0).core (0), (0 : BitVec 5), .w16 (Fmt.rr 0x0E 1 1), rfl, (by unfold State.atInstr; decide +kernel), (by first | decide +kernel | rfl), (by first | decide +kernel | rfl), (by first | decide +kernel | rfl), (by first | decide +kernel | rfl)⟩,
   ⟨withCore (kReg 1), 0, 1, (withCore (kReg 1)).core (0), (0 : BitVec 5), .w16 (Fmt.rr 0x0E 1 1), fun i => match i with | 0 => (withCore (kReg 1)).charge 0 false (some 1) | _ + 1 => (((match ((withCore (kReg 1)).charge 0 false (some 1)).semWord State.coreBus 0 (((withCore (kReg 1)).charge 0 false (some 1)).core 0) (.w16 (Fmt.rr 0x0E 1 1)) with | .ok (u, _) => u | .error e => e.2)).modCore 0 (fun k => k.put 0 (BitVec.ofNat 64 0))).charge 0 false (((withCore (kReg 1)).charge 0 false (some 1)).bound 0 (((withCore (kReg 1)).charge 0 false (some 1)).core 0) (.w16 (Fmt.rr 0x0E 1 1))), fun _ => (match ((withCore (kReg 1)).charge 0 false (some 1)).semWord State.coreBus 0 (((withCore (kReg 1)).charge 0 false (some 1)).core 0) (.w16 (Fmt.rr 0x0E 1 1)) with | .ok (u, _) => u | .error e => e.2), rfl, (by unfold State.atInstr; decide +kernel), (by first | decide +kernel | rfl), (by first | decide +kernel | rfl), (by first | decide +kernel | rfl), (by first | decide +kernel | rfl), (by first | decide +kernel | rfl), (by intro i h; have : i = 0 := Nat.lt_one_iff.mp h; subst this; exact ⟨rfl, ⟨_, rfl⟩, rfl⟩)⟩,
   ⟨(locked s0), 0, 1, ((locked s0)).core (0), (0 : BitVec 6), .w16 (Fmt.rr 0x0E 1 1), fun i => match i with | 0 => (locked s0) | _ + 1 => ((match ((locked s0)).semWord State.coreBus 0 (((locked s0)).core 0) (.w16 (Fmt.rr 0x0E 1 1)) with | .ok (u, _) => u | .error e => e.2)).charge 0 false (((locked s0)).bound 0 (((locked s0)).core 0) (.w16 (Fmt.rr 0x0E 1 1))), fun _ => (match ((locked s0)).semWord State.coreBus 0 (((locked s0)).core 0) (.w16 (Fmt.rr 0x0E 1 1)) with | .ok (u, _) => u | .error e => e.2), rfl, (by unfold State.atInstr; decide +kernel), (by first | decide +kernel | rfl), (by first | decide +kernel | rfl), (by first | decide +kernel | rfl), (by first | decide +kernel | rfl), (by first | decide +kernel | rfl), (by first | decide +kernel | rfl), (by first | decide +kernel | rfl), (by first | decide +kernel | rfl), (by intro i h; have : i = 0 := Nat.lt_one_iff.mp h; subst this; exact ⟨⟨_, rfl⟩, rfl⟩)⟩,
   ⟨locked (withCore { k0 with used := 300 }), 0, 1, (locked (withCore { k0 with used := 300 })).core (0), (0 : BitVec 6), .w16 (Fmt.rr 0x0E 1 1), rfl, (by unfold State.atInstr; decide +kernel), (by first | decide +kernel | rfl), (by first | decide +kernel | rfl), (by first | decide +kernel | rfl), (by first | decide +kernel | rfl), (by first | decide +kernel | rfl), (by first | decide +kernel | rfl), (by first | decide +kernel | rfl)⟩⟩

set_option maxRecDepth 20000 in
theorem witness_AFailingRepeatUHasNoEffect :
    ∃ (s v : State) (c b j : Nat) (k : Core) (n : BitVec 6) (w : RepWord) (f u : Nat → State) (x : Exc), k = s.core c ∧ s.atInstr c (4 + State.wordLen w) ∧ wordLenOk w = true ∧ State.illRep c k (Fmt.sh 0x34 0 0 n).toNat w = [] ∧ State.isAtomic w = false ∧ s.onOscillator c = false ∧ s.bound c k w = some b ∧ (n.toNat + 1) * b ≤ 256 ∧ k.used + 256 ≤ 500 ∧ f 0 = s ∧ j ≤ n.toNat ∧ (∀ i, i < j → (∃ x, (f i).semWord State.coreBus c ((f i).core c) w = .ok (u i, x)) ∧ f (i + 1) = (u i).charge c (!((f i).core c).marshal) ((f i).bound c ((f i).core c) w)) ∧ (f j).semWord State.coreBus c ((f j).core c) w = .error (x, v) ∧ k.exl = false ∧ k.marshal = true :=
  ⟨(locked s0), _, 0, ((locked s0).bound 0 k0 (.w32 (Fmt.tr 0x10 0 0 0))).get (by decide +kernel), 0, ((locked s0)).core (0), (0 : BitVec 6), .w32 (Fmt.tr 0x10 0 0 0), fun _ => (locked s0), fun _ => (locked s0), _, rfl, (by unfold State.atInstr; decide +kernel), (by first | decide +kernel | rfl), (by first | decide +kernel | rfl), (by first | decide +kernel | rfl), (by first | decide +kernel | rfl), (by first | decide +kernel | rfl), (by first | decide +kernel | rfl), (by first | decide +kernel | rfl), (by first | decide +kernel | rfl), (by first | decide +kernel | rfl), (by intro i h; cases h), (by rfl), (by first | decide +kernel | rfl), (by first | decide +kernel | rfl)⟩

set_option maxRecDepth 20000 in
theorem witness_ServiceCallsBudgetsAndRequests :
    (∃ (s : State) (c : Nat) (k : Core) (imm : BitVec 14), k = s.core c ∧ s.atInstr c 4 ∧ k.exl = false ∧ (k.marshal = true ∨ s.heatOn c = none ∨ imm.toNat ≤ 2)) ∧
    (∃ (s : State) (c i : Nat) (k : Core) (h : Heat) (done : Bool), k = s.core c ∧ s.heatOn c = some (h, i) ∧ c < 72 ∧ h.st = .running ∧ k.svc = some 0 ∧ k.hold = .none ∧ k.marshal = true ∧ done = h.cores.all (fun d => decide (d = c ∨ (s.core d).hold = .exited))) ∧
    (∃ (s : State) (c i : Nat) (k : Core) (h : Heat), k = s.core c ∧ s.heatOn c = some (h, i) ∧ c < 72 ∧ h.st = .running ∧ k.svc = some 1 ∧ k.hold = .none ∧ k.marshal = true) ∧
    (∃ (s : State) (c i : Nat) (k : Core) (h : Heat), k = s.core c ∧ s.heatOn c = some (h, i) ∧ c < 72 ∧ h.st = .running ∧ k.svc = some 2 ∧ k.hold = .none ∧ k.marshal = true) ∧
    (∃ (s : State) (c : Nat) (k : Core), k = s.core c ∧ s.coreRuns c = true ∧ k.exl = false ∧ k.stopReq = false ∧ k.suspReq = false ∧ k.marshal = false ∧ k.cyc.toInt ≤ 0) ∧
    (∃ (s : State) (c : Nat) (k : Core), k = s.core c ∧ c < 72 ∧ s.corePresent c = true ∧ k.halted = false) ∧
    (∃ (s : State) (c : Nat) (k : Core), k = s.core c ∧ c < 72 ∧ s.corePresent c = true ∧ k.halted = false ∧ k.stopReq = false) :=
  ⟨⟨s0, 0, (s0).core (0), (0 : BitVec 14), rfl, (by unfold State.atInstr; decide +kernel), (by first | decide +kernel | rfl), (by first | decide +kernel | rfl)⟩,
   ⟨serving 0, 0, 0, (serving 0).core (0), { heat0 .running with cores := [0] }, true, rfl, (by first | decide +kernel | rfl), (by first | decide +kernel | rfl), (by first | decide +kernel | rfl), (by first | decide +kernel | rfl), (by first | decide +kernel | rfl), (by first | decide +kernel | rfl), (by decide +kernel)⟩,
   ⟨serving 1, 0, 0, (serving 1).core (0), { heat0 .running with cores := [0] }, rfl, (by first | decide +kernel | rfl), (by first | decide +kernel | rfl), (by first | decide +kernel | rfl), (by first | decide +kernel | rfl), (by first | decide +kernel | rfl), (by first | decide +kernel | rfl)⟩,
   ⟨serving 2, 0, 0, (serving 2).core (0), { heat0 .running with cores := [0] }, rfl, (by first | decide +kernel | rfl), (by first | decide +kernel | rfl), (by first | decide +kernel | rfl), (by first | decide +kernel | rfl), (by first | decide +kernel | rfl), (by first | decide +kernel | rfl)⟩,
   ⟨withCore { k0 with marshal := false }, 0, (withCore { k0 with marshal := false }).core (0), rfl, (by first | decide +kernel | rfl), (by first | decide +kernel | rfl), (by first | decide +kernel | rfl), (by first | decide +kernel | rfl), (by first | decide +kernel | rfl), (by first | decide +kernel | rfl)⟩,
   ⟨s0, 0, (s0).core (0), rfl, (by first | decide +kernel | rfl), (by first | decide +kernel | rfl), (by first | decide +kernel | rfl)⟩,
   ⟨s0, 0, (s0).core (0), rfl, (by first | decide +kernel | rfl), (by first | decide +kernel | rfl), (by first | decide +kernel | rfl), (by first | decide +kernel | rfl)⟩⟩

set_option maxRecDepth 20000 in
theorem witness_ExceptionsEnterMarshalMode :
    (∃ (s : State) (c : Nat) (k : Core) (n : BitVec 5) (imm : BitVec 14), k = s.core c ∧ s.atInstr c 4 ∧ s.handles c ∧ imm ≠ 0 ∧ State.srListed n.toNat = false) ∧
    (∃ (s : State) (c : Nat) (k : Core) (n : BitVec 5), k = s.core c ∧ s.atInstr c 4 ∧ s.handles c ∧ State.srListed n.toNat = false) ∧
    (∃ (s : State) (c : Nat) (k : Core) (g : BitVec 5), k = s.core c ∧ s.atInstr c 2 ∧ s.handles c ∧ (k.reg g.toNat).getLsbD 0 = true) ∧
    (∃ (s : State) (c : Nat) (k : Core) (d b : BitVec 5) (x : Dword), k = s.core c ∧ s.atInstr c 4 ∧ s.handles c ∧ x = k.reg b.toNat ∧ d.toNat % 2 = 1) ∧
    (∃ (s : State) (c : Nat) (k : Core) (b : BitVec 5) (x : Dword), k = s.core c ∧ s.atInstr c 4 ∧ s.handles c ∧ x = k.reg b.toNat ∧ s.place c k x.toNat 4 false = none) ∧
    (∃ (s : State) (c : Nat) (k : Core) (b : BitVec 5) (x : Dword), k = s.core c ∧ s.atInstr c 4 ∧ s.handles c ∧ x = k.reg b.toNat ∧ (∃ m off, s.place c k x.toNat 4 false = some (.mem m off)) ∧ x.toNat % 4 ≠ 0) ∧
    (∃ (s : State) (c : Nat) (k : Core), k = s.core c ∧ s.atInstr c 2 ∧ s.handles c ∧ k.marshal = false) ∧
    (∃ (s : State) (c : Nat) (k : Core) (b : BitVec 5), k = s.core c ∧ s.atInstr c 4 ∧ k.exl = true ∧ c < 64 ∧ s.heatOn c = none ∧ k.reg b.toNat = 0) ∧
    (∃ (s : State) (c : Nat) (k : Core), k = s.core c ∧ s.coreRuns c = true ∧ k.exl = false ∧ k.stopReq = true) :=
  ⟨⟨s0, 0, (s0).core (0), 31, 1, rfl, (by unfold State.atInstr; decide +kernel), (by unfold State.handles; decide +kernel), (by first | decide +kernel | rfl), (by first | decide +kernel | rfl)⟩,
   ⟨s0, 0, (s0).core (0), 31, rfl, (by unfold State.atInstr; decide +kernel), (by unfold State.handles; decide +kernel), (by first | decide +kernel | rfl)⟩,
   ⟨withCore (kReg 1), 0, (withCore (kReg 1)).core (0), (0 : BitVec 5), rfl, (by unfold State.atInstr; decide +kernel), (by unfold State.handles; decide +kernel), (by first | decide +kernel | rfl)⟩,
   ⟨s0, 0, (s0).core (0), 1, (0 : BitVec 5), ((s0).core (0)).reg ((0 : BitVec 5)).toNat, rfl, (by unfold State.atInstr; decide +kernel), (by unfold State.handles; decide +kernel), rfl, (by first | decide +kernel | rfl)⟩,
   ⟨withCore (kReg 0x20000000), 0, (withCore (kReg 0x20000000)).core (0), (0 : BitVec 5), ((withCore (kReg 0x20000000)).core (0)).reg ((0 : BitVec 5)).toNat, rfl, (by unfold State.atInstr; decide +kernel), (by unfold State.handles; decide +kernel), rfl, (by first | decide +kernel | rfl)⟩,
   ⟨withCore (kReg 1), 0, (withCore (kReg 1)).core (0), (0 : BitVec 5), ((withCore (kReg 1)).core (0)).reg ((0 : BitVec 5)).toNat, rfl, (by unfold State.atInstr; decide +kernel), (by unfold State.handles; decide +kernel), rfl, (by exact ⟨0, 1, by decide +kernel⟩), (by first | decide +kernel | rfl)⟩,
   ⟨heatMode, 0, (heatMode).core (0), rfl, (by unfold State.atInstr; decide +kernel), (by unfold State.handles; decide +kernel), (by first | decide +kernel | rfl)⟩,
   ⟨withCore { k0 with exl := true }, 0, (withCore { k0 with exl := true }).core (0), (0 : BitVec 5), rfl, (by unfold State.atInstr; decide +kernel), (by first | decide +kernel | rfl), (by first | decide +kernel | rfl), (by first | decide +kernel | rfl), (by first | decide +kernel | rfl)⟩,
   ⟨withCore { k0 with stopReq := true }, 0, (withCore { k0 with stopReq := true }).core (0), rfl, (by first | decide +kernel | rfl), (by first | decide +kernel | rfl), (by first | decide +kernel | rfl)⟩⟩

set_option maxRecDepth 20000 in
theorem witness_BinaryDivision :
    (∃ (s : State) (c : Nat) (k : Core) (b : BitVec 5), k = s.core c ∧ s.atInstr c 4 ∧ k.reg b.toNat ≠ 0) ∧
    (∃ (s : State) (c : Nat) (k : Core) (b : BitVec 5), k = s.core c ∧ s.atInstr c 4 ∧ s.handles c ∧ k.reg b.toNat = 0) :=
  ⟨⟨withCore (kReg 1), 0, (withCore (kReg 1)).core (0), (0 : BitVec 5), rfl, (by unfold State.atInstr; decide +kernel), (by first | decide +kernel | rfl)⟩,
   ⟨s0, 0, (s0).core (0), (0 : BitVec 5), rfl, (by unfold State.atInstr; decide +kernel), (by unfold State.handles; decide +kernel), (by first | decide +kernel | rfl)⟩⟩

set_option maxRecDepth 20000 in
theorem witness_EretReturns :
    (∃ (s : State) (c : Nat) (k : Core), k = s.core c ∧ s.atInstr c 2 ∧ k.marshal = true ∧ (c < 64 ∨ k.pmode = true)) ∧
    (∃ (s : State) (c : Nat) (k : Core), k = s.core c ∧ s.atInstr c 2 ∧ s.handles c ∧ k.marshal = false) :=
  ⟨⟨s0, 0, (s0).core (0), rfl, (by unfold State.atInstr; decide +kernel), (by first | decide +kernel | rfl), (by first | decide +kernel | rfl)⟩,
   ⟨heatMode, 0, (heatMode).core (0), rfl, (by unfold State.atInstr; decide +kernel), (by unfold State.handles; decide +kernel), (by first | decide +kernel | rfl)⟩⟩


/-! ### Well-formedness refuses one ill-formed term for each check -/

/-- A unit that does not exist, of each kind. -/
theorem test_units_ill_formed :
    [Instr.sliceFrozen 512, .hotReset 2, .stop 72, .dieLost 512, .phyDown 4, .clusterPllLock 8, .dramTempChange 8 true,
     .dramTraining 4 [], .channelTraining 32 [] [], .gcVictimStart 512, .deviceFault 0, .deviceFault 6, .securityAlarm 7,
     .freezeExpiry (some 512), .smbusBasicManagement 256, .evrCheckRead (.own 512), .evrCheckRead (.mirror 512)].all
      (fun c => !c.wf) = true := by decide
/-- A requester, a command identity, a queue entry and an access size that do not exist. -/
theorem test_names_ill_formed :
    [Instr.load (.port 2), .load (.core 72), .flush ⟨512, 1, 7⟩, .flush ⟨0, 65536, 7⟩, .flush ⟨0, 1, 65536⟩,
     .regWrite (.port 0) .bar0 0 3 0, .doorbellWrite 0 0 false 0 0 [{ ent0 256 with cid := 0 }],
     .doorbellWrite 0 0 false 65536 0 [], .ack 65536 0 0].all (fun c => !c.wf) = true := by decide
/-- A message whose fields do not fit, and a run of fewer blocks than it says. -/
theorem test_messages_ill_formed :
    [Instr.hello 0 { helloFrom 65536 0 with floor := 1 }, .summary 0 ⟨65536, 1, 1, 1, 0, 0, [], [], 0, 32, 0, 0, (0, 0)⟩,
     .postReq 3 9 { post 1 with primary := 512 }, .migErasedAck 3 ⟨512, 0, 0⟩,
     .migData 3 9 ⟨0, 0, 0⟩ { nsid := 1, lost := false, slba := 0, blocks := [], count := 1 },
     .datasetManagement cid0 [⟨2 ^ 64, 1⟩]].all (fun c => !c.wf) = true := by decide
/-- A core's word of another row, and one of another length. -/
theorem test_words_ill_formed :
    [Instr.nop 0 (Fmt.rr 0 2 0), .mov 0 (Fmt.rr 2 0 0), .addi 0 (Fmt.im 0x15 0 0 0), .movi32 0 (Fmt.wi 1 0 0),
     .loadInstruction 0 (.mm (Fmt.mm 0x28 0 0 0 0 0 0)), .svc 0 0, .repI 0 (Fmt.sh 0x34 0 0 0) (.w16 0)].all
      (fun c => !c.wf) = true := by decide
/-- What is well formed beside them. -/
theorem test_well_formed :
    [Instr.sliceFrozen 511, .stop 71, .load (.core 71), .regWrite (.port 1) .bar2 0 8 0, .nop 0 (Fmt.rr 0 1 0),
     .migData 3 9 ⟨0, 0, 0⟩ { nsid := 1, lost := true, slba := 0, blocks := [], count := 1 }].all (fun c => c.wf) = true := by
  decide

/-! ### Single steps, with results worked out from the spec's rules by hand -/

/-- The core that a command leaves, where it answers a next state. -/
def coreAfter (c : Instr) (s : State) : Core :=
  match exec c s with
  | .next t => t.core 0
  | _ => {}
/-- R480: adding 1 to 2^64 - 1 gives 0 with C and Z set. -/
theorem test_add_wraps :
    (coreAfter (.addi5 0 (Fmt.rr 0x0D 0 1)) (withCore (kReg (-1)))).flg = 5 ∧
    (coreAfter (.addi5 0 (Fmt.rr 0x0D 0 1)) (withCore (kReg (-1)))).reg 0 = 0 := by decide +kernel
/-- R480: 0 - 1 borrows, so C is 0 and N is set. -/
theorem test_compare_borrows : (coreAfter (.cmpi 0 (Fmt.im 0x1B 0 0 1)) s0).flg = 8 := by decide +kernel
/-- R468: a load with post-increment moves its base by the access size. -/
theorem test_post_increment :
    (coreAfter (.loadInstruction 0 (.mm (Fmt.mm 0x20 2 1 1 0 0 0))) (withBytes k0 [0x7F])).reg 1 = 1 ∧
    (coreAfter (.loadInstruction 0 (.mm (Fmt.mm 0x20 2 1 1 0 0 0))) (withBytes k0 [0x7F])).reg 2 = 0x7F := by decide +kernel
/-- R490: division by zero enters marshal mode at MVEC + 0x40 times its cause. -/
theorem test_division_by_zero :
    (coreAfter (.divuDivsRemuRems 0 (Fmt.tr 0x10 0 0 0)) (withCore { k0 with mvec := 0x2000 })).pc.toNat % 0x40 = 0 ∧
    (coreAfter (.divuDivsRemuRems 0 (Fmt.tr 0x10 0 0 0)) (withCore { k0 with mvec := 0x2000 })).epc = 0x100 := by
  decide +kernel
/-- An empty queue idles (the model's choice, log 1). -/
theorem test_idle : step State.reset = .next State.reset := by rfl


end Sys2Proof.Tests
end

/-! Proofs of the statements on binary division (R481) and on ERET (R491). -/

namespace Sys2Proof.Machine

/-! ### Exceptions that a core handles (R490, R497) -/

@[simp] theorem State.heatOn_ev (s : State) (code src : Nat) (detail : Bytes) (c : Nat) :
    (s.ev code src detail).heatOn c = s.heatOn c := rfl
@[simp] theorem State.heatOn_setCore (s : State) (d : Nat) (k : Core) (c : Nat) :
    (s.setCore d k).heatOn c = s.heatOn c := rfl

theorem State.enter_eq_entered (k : Core) (cause sub : Nat) (epc eaddr : Dword) :
    State.enter k cause sub epc eaddr = k.entered cause sub epc eaddr := rfl

/-- On a core on which no heat runs an exception ends no heat (R585). -/
theorem State.heatFault_of_no_heat {s : State} {c : Nat} (h : s.heatOn c = none) (cause sub : Nat) (epc : Dword) :
    s.heatFault c cause sub epc = s := by
  unfold State.heatFault
  rw [h]

/-- An exception that a core handles is an entry to marshal mode, and nothing but the core changes; a privileged
instruction in heat mode also makes event 0x2700 (R490, R497). -/
theorem State.raise_of_handles {s : State} {c : Nat} (h : s.handles c) (cause sub : Nat) (epc eaddr : Dword) :
    s.raise State.coreBus c cause sub epc eaddr =
      (if cause = 1 ∧ sub = 4 ∧ (s.core c).marshal = false then
        s.ev 0x2700 (s.coreSrc c) (item 1 c ++ item 4 epc.toNat) else s).setCore c
          ((s.core c).entered cause sub epc eaddr) := by
  obtain ⟨hexl, hheat⟩ := h
  have hkeep (p q : Bool) (t : State) (ht : t.heatOn c = s.heatOn c) :
      (if !(s.core c).marshal && p && q then State.coreBus.fault t c cause sub epc else t) = t := by
    rcases hheat with hm | hnone
    · simp [hm]
    · have hfault : State.coreBus.fault t c cause sub epc = t := State.heatFault_of_no_heat (ht.trans hnone) ..
      rw [hfault, ite_self]
  simp only [State.raise, hexl, State.enter_eq_entered, Bool.false_eq_true, if_false]
  rw [hkeep _ _ _ (by split <;> simp)]
  simp only [Bool.and_eq_true, decide_eq_true_eq, Bool.not_eq_true', and_assoc]

/-! ### Rows whose instruction raises an exception (R488) -/

/-- A row's instruction that is illegal raises Illegal Instruction with its lowest subcode. -/
theorem State.runRow_illegal {s : State} {c sub : Nat} {own : Bool} {w : RepWord}
    (hw : own = true) (ho : wordLenOk w = true) (h : s.atInstr c (wordLen w))
    (hl : (State.illWord c (s.core c) w).min? = some sub) :
    onCore c (s.runRow c own w) = .next (s.raise State.coreBus c 1 sub (s.core c).pc 0) := by
  rw [onCore_of (State.coreRuns_lt h.1), State.runRow, hw, ho]
  simp only [Bool.true_or, Bool.and_self, if_true, State.runWord, State.atBoundary_of h, hl]

/-- A row's legal instruction whose group answers an exception raises it, with EPC at the instruction. -/
theorem State.runRow_error {s t : State} {c : Nat} {own : Bool} {w : RepWord} {x : Exc}
    (hw : own = true) (ho : wordLenOk w = true) (h : s.atInstr c (wordLen w))
    (hl : State.illWord c (s.core c) w = [])
    (e : s.semWord State.coreBus c (s.core c) w = .error (x, t)) :
    onCore c (s.runRow c own w) = .next (t.raise State.coreBus c x.cause x.sub (s.core c).pc x.eaddr) := by
  rw [onCore_of (State.coreRuns_lt h.1), State.runRow, hw, ho]
  simp only [Bool.true_or, Bool.and_self, if_true, State.runWord, State.atBoundary_of h, hl, List.min?_nil, e]

/-! ### Binary division (R476, R481, R484) -/

theorem wordLenOk_tr (op : BitVec 6) (d a b : BitVec 5) : wordLenOk (.w32 (Fmt.tr op d a b)) = true := by
  simp [wordLenOk]

section Division
variable {op : BitVec 6} (hop : 0x10 ≤ op.toNat ∧ op.toNat ≤ 0x13) (d a b : BitVec 5)
include hop

theorem inRow_division : inRow 0x10 0x13 (.w32 (Fmt.tr op d a b)) = true := by
  simpa [inRow, opcodeOf, op32] using hop

theorem illWord_division (c : Nat) (k : Core) : State.illWord c k (.w32 (Fmt.tr op d a b)) = [] := by
  obtain ⟨hlo, hhi⟩ := hop
  simp [State.illWord, State.ill32, op32, State.when', hhi, show ¬ op.toNat ≤ 0x0E by omega,
    show op.toNat ≠ 0x0F by omega]

theorem bound_division (s : State) (c : Nat) (k : Core) : s.bound c k (.w32 (Fmt.tr op d a b)) = some 68 := by
  obtain ⟨hlo, hhi⟩ := hop
  simp [State.bound, op32, hlo, hhi, show ¬ op.toNat ≤ 0x0E by omega]

theorem semWord_division (s : State) (c : Nat) (k : Core) :
    s.semWord State.coreBus c k (.w32 (Fmt.tr op d a b)) =
      if k.reg b.toNat = 0 then .error ({ cause := 4, sub := 1 }, s)
      else .ok (s.setCore c (k.put d.toNat (State.divOp (op.toNat - 0x10) (k.reg a.toNat) (k.reg b.toNat))), none) := by
  obtain ⟨hlo, hhi⟩ := hop
  simp [State.semWord, State.sem32, op32, d32, a32, b32, State.done, hhi, show ¬ op.toNat ≤ 7 by omega,
    show ¬ op.toNat ≤ 0x0B by omega, show ¬ op.toNat ≤ 0x0E by omega, show op.toNat ≠ 0x0F by omega]

end Division

/-- With a divisor other than zero a division puts its quotient or remainder into its destination. -/
theorem exec_division_runs {op : BitVec 6} (hop : 0x10 ≤ op.toNat ∧ op.toNat ≤ 0x13)
    (s : State) (c : Nat) (k : Core) (d a b : BitVec 5)
    (hk : k = s.core c) (h : s.atInstr c 4) (hb : k.reg b.toNat ≠ 0) :
    ∃ t, exec (.divuDivsRemuRems c (Fmt.tr op d a b)) s = .next t ∧
      s.ran t c { k.put d.toNat (State.divOp (op.toNat - 0x10) (k.reg a.toNat) (k.reg b.toNat)) with
        pc := k.pc + 4 } (some 68) := by
  subst hk
  have hsem := semWord_division hop d a b s c (s.core c)
  rw [if_neg hb] at hsem
  have hran := State.runRow_ok (inRow_division hop d a b) (wordLenOk_tr op d a b) h (illWord_division hop d a b c _) hsem
  rwa [bound_division hop] at hran

/-- A divisor of zero raises Divide by Zero, subcode 0x01; an instruction that raises an exception is charged no
cycles (log 118). -/
theorem exec_division_by_zero {op : BitVec 6} (hop : 0x10 ≤ op.toNat ∧ op.toNat ≤ 0x13)
    (s : State) (c : Nat) (k : Core) (d a b : BitVec 5)
    (hk : k = s.core c) (h : s.atInstr c 4) (hh : s.handles c) (hb : k.reg b.toNat = 0) :
    exec (.divuDivsRemuRems c (Fmt.tr op d a b)) s = .next (s.setCore c (k.entered 4 1 k.pc 0)) := by
  subst hk
  have hsem := semWord_division hop d a b s c (s.core c)
  rw [if_pos hb] at hsem
  calc exec (.divuDivsRemuRems c (Fmt.tr op d a b)) s
      = .next (s.raise State.coreBus c 4 1 (s.core c).pc 0) :=
        State.runRow_error (inRow_division hop d a b) (wordLenOk_tr op d a b) h (illWord_division hop d a b c _) hsem
    _ = .next (s.setCore c ((s.core c).entered 4 1 (s.core c).pc 0)) := by
        rw [State.raise_of_handles hh, if_neg (by simp)]

/-! ### ERET (R475, R491) -/

/-- ERET is illegal for its mode alone: subcode 0x04 in heat mode, and on a management core that would return to heat
mode (R439, R491). -/
theorem illWord_eret (c : Nat) (k : Core) :
    State.illWord c k (.w16 (Fmt.rr 0 4 0)) =
      if k.marshal = true ∧ (c < 64 ∨ k.pmode = true) then [] else [4] := by
  simp only [State.illWord, State.ill16, op16, d16, s16, Fmt.rr_op, Fmt.rr_d, Fmt.rr_g, State.when', State.isTenant]
  cases k.marshal <;> cases k.pmode <;> by_cases hc : c < 64 <;> simp [hc]

theorem semWord_eret (s : State) (c : Nat) (k : Core) :
    s.semWord State.coreBus c k (.w16 (Fmt.rr 0 4 0)) =
      .ok (s.setCore c { k with marshal := k.pmode, exl := false }, some k.epc) := by
  simp [State.semWord, State.sem16, op16, d16]

theorem bound_eret (s : State) (c : Nat) (k : Core) : s.bound c k (.w16 (Fmt.rr 0 4 0)) = some 1 := by
  simp [State.bound, op16, d16]

theorem isSys_eret : isSys 4 (Fmt.rr 0 4 0) = true := by simp [isSys, op16, d16]

theorem wordLenOk_eret : wordLenOk (.w16 (Fmt.rr 0 4 0)) = true := by simp [wordLenOk]

theorem exec_eret_returns (s : State) (c : Nat) (k : Core) (hk : k = s.core c) (h : s.atInstr c 2)
    (hm : k.marshal = true) (hp : c < 64 ∨ k.pmode = true) :
    ∃ t, exec (.eret c (Fmt.rr 0 4 0)) s = .next t ∧
      s.ran t c { k with pc := k.epc, marshal := k.pmode, exl := false } (some 1) := by
  subst hk
  have hlegal : State.illWord c (s.core c) (.w16 (Fmt.rr 0 4 0)) = [] := by rw [illWord_eret, if_pos ⟨hm, hp⟩]
  have hran := State.runRow_ok isSys_eret wordLenOk_eret h hlegal (semWord_eret s c (s.core c))
  rwa [bound_eret] at hran

/-- ERET in heat mode is privileged: subcode 0x04, and event 0x2700 (R497). -/
theorem exec_eret_in_heat_mode (s : State) (c : Nat) (k : Core) (hk : k = s.core c) (h : s.atInstr c 2)
    (hh : s.handles c) (hm : k.marshal = false) :
    exec (.eret c (Fmt.rr 0 4 0)) s =
      .next ((s.ev 0x2700 (s.coreSrc c) (item 1 c ++ item 4 k.pc.toNat)).setCore c (k.entered 1 4 k.pc 0)) := by
  subst hk
  have hill : (State.illWord c (s.core c) (.w16 (Fmt.rr 0 4 0))).min? = some 4 := by
    rw [illWord_eret, if_neg (by simp [hm]), List.min?_singleton]
  calc exec (.eret c (Fmt.rr 0 4 0)) s
      = .next (s.raise State.coreBus c 1 4 (s.core c).pc 0) :=
        State.runRow_illegal isSys_eret wordLenOk_eret h hill
    _ = _ := by rw [State.raise_of_handles hh, if_pos ⟨rfl, rfl, hm⟩]

/-! ### The statements -/

/-- Settles O32: each of the four opcodes is a division, and `State.divOp` at its place among them is the operation
that R481 gives. -/
theorem binaryDivision : Obligations.BinaryDivision :=
  ⟨exec_division_runs (op := 0x10) (by decide), exec_division_runs (op := 0x11) (by decide),
    exec_division_runs (op := 0x12) (by decide), exec_division_runs (op := 0x13) (by decide),
    exec_division_by_zero (op := 0x10) (by decide), exec_division_by_zero (op := 0x11) (by decide),
    exec_division_by_zero (op := 0x12) (by decide), exec_division_by_zero (op := 0x13) (by decide)⟩

/-- Settles O33: ERET is legal in marshal mode, where it writes PC, the mode and EXL; in heat mode it is privileged. -/
theorem eretReturns : Obligations.EretReturns :=
  ⟨exec_eret_returns, exec_eret_in_heat_mode⟩

end Sys2Proof.Machine

/-! Proofs of the statement on a REP.U one of whose iterations fails (R542). -/

namespace Sys2Proof.Machine

/-! ### The iterations of a REP.U (R539, R541, R542) -/

/-- One iteration of a REP.U of `w` on core `c` takes `s` to `t`: the instruction's effect `u`, and its cycles
charged. -/
def State.IteratesU (bus : Bus) (c : Nat) (w : RepWord) (s u t : State) : Prop :=
  (∃ x, s.semWord bus c (s.core c) w = .ok (u, x)) ∧
  t = u.charge c (!(s.core c).marshal) (s.bound c (s.core c) w)

theorem State.repeatU_succ_of_iterates {bus : Bus} {c : Nat} {w : RepWord} {s u t : State}
    (h : State.IteratesU bus c w s u t) (n : Nat) :
    State.repeatU bus c w (n + 1) s = State.repeatU bus c w n t := by
  obtain ⟨⟨x, hsem⟩, ht⟩ := h
  simp only [State.repeatU, hsem, ht]

theorem State.repeatU_succ_of_error {bus : Bus} {c : Nat} {w : RepWord} {s : State} {e : Exc × State}
    (h : s.semWord bus c (s.core c) w = .error e) (n : Nat) :
    State.repeatU bus c w (n + 1) s = .error e := by
  simp only [State.repeatU, h]

/-- After `j` iterations that succeed the rest of the repeat goes on from the state they lead to. -/
theorem State.repeatU_add {bus : Bus} {c j : Nat} {w : RepWord} {f u : Nat → State}
    (h : ∀ i, i < j → State.IteratesU bus c w (f i) (u i) (f (i + 1))) (m : Nat) :
    State.repeatU bus c w (j + m) (f 0) = State.repeatU bus c w m (f j) := by
  induction j generalizing m with
  | zero => rw [Nat.zero_add]
  | succ j ih =>
    calc State.repeatU bus c w (j + 1 + m) (f 0)
        = State.repeatU bus c w (j + (m + 1)) (f 0) := by rw [Nat.add_right_comm, Nat.add_assoc]
      _ = State.repeatU bus c w (m + 1) (f j) := ih (fun i hi => h i (Nat.lt_succ_of_lt hi)) (m + 1)
      _ = State.repeatU bus c w m (f (j + 1)) := State.repeatU_succ_of_iterates (h j (Nat.lt_succ_self j)) m

/-- A repeat whose iteration `j` raises an exception, and none before it, answers that exception. -/
theorem State.repeatU_of_failing {bus : Bus} {c j n : Nat} {w : RepWord} {f u : Nat → State} {e : Exc × State}
    (hj : j < n) (h : ∀ i, i < j → State.IteratesU bus c w (f i) (u i) (f (i + 1)))
    (he : (f j).semWord bus c ((f j).core c) w = .error e) :
    State.repeatU bus c w n (f 0) = .error e := by
  obtain ⟨m, rfl⟩ : ∃ m, n = j + (m + 1) := ⟨n - j - 1, by omega⟩
  rw [State.repeatU_add h, State.repeatU_succ_of_error he]

/-! ### Where a REP.U begins, and what its failing leaves (R30, R531, R541, R542) -/

/-- A REP.U whose word may be repeated within 256 cycles, and that finds 256 cycles left in its stride, begins. -/
theorem exec_repU_begins {s : State} {c b : Nat} {n : BitVec 6} {w : RepWord}
    (h : s.atInstr c (4 + State.wordLen w)) (hw : wordLenOk w = true)
    (hill : State.illRep c (s.core c) (Fmt.sh 0x34 0 0 n).toNat w = []) (hatomic : State.isAtomic w = false)
    (hosc : s.onOscillator c = false) (hb : s.bound c (s.core c) w = some b) (hfit : (n.toNat + 1) * b ≤ 256)
    (hused : (s.core c).used + 256 ≤ 500) :
    exec (.repU c (Fmt.sh 0x34 0 0 n) w) s = .next (s.beginRepU State.coreBus c (n.toNat + 1) w) := by
  have hrow : (wordLenOk (.w32 (Fmt.sh 0x34 0 0 n)) && inRow 0x34 0x34 (.w32 (Fmt.sh 0x34 0 0 n)) && wordLenOk w) =
      true := by
    rw [hw, Bool.and_true]
    simp [wordLenOk, inRow, opcodeOf, op32]
  have hlate : State.lateInStride (s.core c) = false := decide_eq_false (by omega)
  have hexceeded : decide (256 < (n.toNat + 1) * b) = false := decide_eq_false (by omega)
  calc exec (.repU c (Fmt.sh 0x34 0 0 n) w) s
      = onCore c (s.runRepU State.coreBus c (Fmt.sh 0x34 0 0 n) w) := congrArg (onCore c) (if_pos hrow)
    _ = .next (s.runRepU State.coreBus c (Fmt.sh 0x34 0 0 n) w) := onCore_of (State.coreRuns_lt h.1) _
    _ = .next (s.beginRepU State.coreBus c (n.toNat + 1) w) := by
        simp only [State.runRepU, State.atBoundary_of h, Fmt.sh_n, hill, hatomic, hosc, hb, hexceeded, hlate,
          State.when', Bool.or_self, Bool.false_eq_true, if_false, List.append_nil, List.min?_nil]

/-- A REP.U that fails on a core in marshal mode is an entry of the core as it stood before the repeat; of what the
iterations did, the event recorder and the memory-protection state alone are kept. -/
theorem State.beginRepU_of_error {s v : State} {c count : Nat} {w : RepWord} {x : Exc}
    (hfail : State.repeatU State.coreBus c w count s = .error (x, v))
    (hexl : (s.core c).exl = false) (hm : (s.core c).marshal = true) :
    s.beginRepU State.coreBus c count w =
      { s with evr := v.evr, mpr := v.mpr }.setCore c
        ((s.core c).entered x.cause x.sub (s.core c).pc x.eaddr) := by
  have hhandles : { s with evr := v.evr, mpr := v.mpr }.handles c := ⟨hexl, .inl hm⟩
  have hnotHeat : ¬ (x.cause = 1 ∧ x.sub = 4 ∧ (s.core c).marshal = false) := by simp [hm]
  calc s.beginRepU State.coreBus c count w
      = { s with evr := v.evr, mpr := v.mpr }.raise State.coreBus c x.cause x.sub (s.core c).pc x.eaddr := by
        simp only [State.beginRepU, hfail]
    _ = _ := (State.raise_of_handles hhandles ..).trans (congrArg (State.setCore · c _) (if_neg hnotHeat))

/-! ### The statement -/

/-- Settles O29: the iterations before the failing one lead the repeat to it, and the exception it raises is an entry
of the core as it stood before the repeat. -/
theorem aFailingRepeatUHasNoEffect : Obligations.AFailingRepeatUHasNoEffect := by
  rintro s v c b j k n w f u x rfl hat hw hill hatomic hosc hb hfit hused rfl hj hiter hfail hexl hm
  have hrep : State.repeatU State.coreBus c w (n.toNat + 1) (f 0) = .error (x, v) :=
    State.repeatU_of_failing (Nat.lt_succ_of_le hj) hiter hfail
  refine ⟨_, exec_repU_begins hat hw hill hatomic hosc hb hfit hused, ?_⟩
  rw [State.beginRepU_of_error hrep hexl hm]
  exact ⟨State.core_setCore .., rfl, rfl⟩

end Sys2Proof.Machine

/-! Proofs of the statements on what every step keeps: the memories' canonical form, the queue, the fused values and
the stride counter. -/

namespace Sys2Proof.Machine

/-- The stride counter after a command: COLD_START clears it, and TICK and a due LAP_BOUNDARY advance it where the
device has supply (R21 to R25, log 39). -/
def strideAfter (c : Instr) (s : State) : Nat :=
  if c = .coldStart then 0
  else if s.dev.run ≠ .off ∧ (c = .tick ∨ c = .lapBoundary ∧ (s.stride + 1) % 4000 = 0) then s.stride + 1
  else s.stride

/-- TICK keeps all but the stride counter, which it advances where the device has supply. -/
theorem State.tick_kept_from (s : State) : Kept { s with stride := strideAfter .tick s } s.tick := by
  by_cases hoff : s.dev.run = .off
  · have htick : s.tick = s := if_pos hoff
    have hstride : strideAfter .tick s = s.stride := by simp [strideAfter, hoff]
    rw [htick, hstride]
    exact Kept.refl s
  · have hstride : strideAfter .tick s = s.stride + 1 := by simp [strideAfter, hoff]
    rw [hstride]
    exact State.tick_kept hoff (Kept.refl _)

/-- LAP_BOUNDARY is the tick where the next stride begins a lap, and nothing elsewhere (R34). -/
theorem State.lapBoundary_kept_from (s : State) :
    Kept { s with stride := strideAfter .lapBoundary s } s.lapBoundary := by
  by_cases hlap : (s.stride + 1) % 4000 = 0
  · have htick : s.lapBoundary = s.tick := if_pos hlap
    have hstride : strideAfter .lapBoundary s = strideAfter .tick s := by simp [strideAfter, hlap]
    rw [htick, hstride]
    exact State.tick_kept_from s
  · have hstay : s.lapBoundary = s := if_neg hlap
    have hstride : strideAfter .lapBoundary s = s.stride := by simp [strideAfter, hlap]
    rw [hstay, hstride]
    exact Kept.refl s

/-- Every command but the two ticks and the power cycle keeps what `Kept` names. -/
theorem exec_kept {u s t : State} {c : Instr} (h : Kept u s) (htick : c ≠ .tick) (hlap : c ≠ .lapBoundary)
    (hcold : c ≠ .coldStart) (e : exec c s = .next t) : Kept u t := by
  cases c with
  | tick => exact absurd rfl htick
  | lapBoundary => exact absurd rfl hlap
  | coldStart => exact absurd rfl hcold
  | pollComplete => exact execPollComplete_kept h _ _ e
  | heatLapLimit => exact execHeatLapLimit_kept h _ e
  | regWrite => exact execRegWrite_kept h _ _ _ _ _ e
  | reg64LowRead => exact execReg64LowRead_kept h _ _ _ e
  | reg64HighRead => exact execReg64HighRead_kept h _ _ _ e
  | reg64LowWrite => exact execReg64LowWrite_kept h _ _ _ _ e
  | reg64HighWrite => exact execReg64HighWrite_kept h _ _ _ _ e
  | cmbAccess => exact execCmbAccess_kept h _ _ _ _ _ e
  | doorbellWrite => exact execDoorbellWrite_kept h _ _ _ _ _ _ e
  | load => exact execLoad_kept h _ e
  | apply => exact execApply_kept h _ e
  | persist => exact execPersist_kept h _ e
  | discard => exact execDiscard_kept h _ e
  | courseValidationEnd => exact execCourseValidationEnd_kept h _ e
  | persistEnd => exact execPersistEnd_kept h _ e
  | request => exact execRequest_kept h _ e
  | cancelCommit => exact execCancelCommit_kept h _ e
  | create => exact execCreate_kept h _ _ e
  | resetDrain => exact execResetDrain_kept h _ _ e
  | resetSquash => exact execResetSquash_kept h _ _ e
  | freeze => exact execFreeze_kept h _ _ e
  | thaw => exact execThaw_kept h _ _ _ e
  | save => exact execSave_kept h _ _ e
  | restore => exact execRestore_kept h _ _ e
  | destroy => exact execDestroy_kept h _ _ e
  | migrate => exact execMigrate_kept h _ _ e
  | accept => exact execAccept_kept h _ _ e
  | movePort => exact execMovePort_kept h _ _ e
  | cancel => exact execCancel_kept h _ _ e
  | slcFetchEnd => exact execSlcFetchEnd_kept h _ _ e
  | sliceFrozen => exact execSliceFrozen_kept h _ e
  | resetComplete => exact execResetComplete_kept h _ e
  | saveEnd => exact execSaveEnd_kept h _ _ e
  | restoreEnd => exact execRestoreEnd_kept h _ _ e
  | destroyEnd => exact execDestroyEnd_kept h _ e
  | flr => exact execFlr_kept h _ e
  | hotReset => exact execHotReset_kept h _ e
  | perstAsserted => exact execPerstAsserted_kept h _ e
  | perstReleased => exact execPerstReleased_kept h _ e
  | linkUp => exact execLinkUp_kept h _ _ _ _ _ e
  | busMasterEnable => exact execBusMasterEnable_kept h _ _ e
  | ccEnable => exact execCcEnable_kept h _ _ _ e
  | ccDisable => exact execCcDisable_kept h _ _ _ e
  | ccShutdown => exact execCcShutdown_kept h _ _ _ e
  | shutdownComplete => exact execShutdownComplete_kept h _ e
  | hostBusError => exact execHostBusError_kept h _ e
  | dataTransferError => exact execDataTransferError_kept h _ e
  | deleteIoSubmissionQueue => exact execDeleteIoSubmissionQueue_kept h _ e
  | createIoSubmissionQueue => exact execCreateIoSubmissionQueue_kept h _ e
  | getLogPage => exact execGetLogPage_kept h _ e
  | deleteIoCompletionQueue => exact execDeleteIoCompletionQueue_kept h _ e
  | createIoCompletionQueue => exact execCreateIoCompletionQueue_kept h _ e
  | identify => exact execIdentify_kept h _ e
  | abort => exact execAbort_kept h _ e
  | setFeatures => exact execSetFeatures_kept h _ e
  | getFeatures => exact execGetFeatures_kept h _ e
  | asynchronousEventRequest => exact execAsynchronousEventRequest_kept h _ e
  | namespaceManagement => exact execNamespaceManagement_kept h _ _ e
  | namespaceAttachment => exact execNamespaceAttachment_kept h _ _ e
  | formatNvm => exact execFormatNvm_kept h _ e
  | sanitize => exact execSanitize_kept h _ e
  | keyDelivery => exact execKeyDelivery_kept h _ _ e
  | attestationReport => exact execAttestationReport_kept h _ e
  | heatProgramLoad => exact execHeatProgramLoad_kept h _ _ e
  | patternTableLoad => exact execPatternTableLoad_kept h _ _ e
  | flush => exact execFlush_kept h _ e
  | write => exact execWrite_kept h _ _ e
  | read => exact execRead_kept h _ e
  | compare => exact execCompare_kept h _ _ e
  | writeZeroes => exact execWriteZeroes_kept h _ e
  | datasetManagement => exact execDatasetManagement_kept h _ _ e
  | verify => exact execVerify_kept h _ e
  | reservationRegister => exact execReservationRegister_kept h _ _ e
  | reservationReport => exact execReservationReport_kept h _ e
  | reservationAcquire => exact execReservationAcquire_kept h _ _ e
  | reservationRelease => exact execReservationRelease_kept h _ _ e
  | ledgerPost => exact execLedgerPost_kept h _ e
  | ledgerPostListArrival => exact execLedgerPostListArrival_kept h _ _ _ e
  | heatRun => exact execHeatRun_kept h _ e
  | heatDescriptorArrival => exact execHeatDescriptorArrival_kept h _ _ e
  | hurdleRun => exact execHurdleRun_kept h _ e
  | hurdleDescriptorArrival => exact execHurdleDescriptorArrival_kept h _ _ e
  | patternSearch => exact execPatternSearch_kept h _ e
  | patternStep => exact execPatternStep_kept h _ e
  | patternSearchBegin => exact execPatternSearchBegin_kept h _ _ _ e
  | cipherTransform => exact execCipherTransform_kept h _ e
  | cipherTrailerArrival => exact execCipherTrailerArrival_kept h _ _ e
  | digest => exact execDigest_kept h _ e
  | digestBatonArrival => exact execDigestBatonArrival_kept h _ _ e
  | entryVisible => exact execEntryVisible_kept h _ _ e
  | flushStart => exact execFlushStart_kept h _ _ e
  | journalRecordDurable => exact execJournalRecordDurable_kept h e
  | holdupArmed => exact execHoldupArmed_kept h e
  | holdupDisarmed => exact execHoldupDisarmed_kept h e
  | powerFailLatch => exact execPowerFailLatch_kept h e
  | pwrOkLow => exact execPwrOkLow_kept h e
  | emergencyFlushEnd => exact execEmergencyFlushEnd_kept h _ e
  | thermalTrip => exact execThermalTrip_kept h e
  | checkpoint => exact execCheckpoint_kept h _ e
  | dumpLoss => exact execDumpLoss_kept h _ _ e
  | addUnpowered => exact execAddUnpowered_kept h _ e
  | clearLoss => exact execClearLoss_kept h _ e
  | checkpointStart => exact execCheckpointStart_kept h _ e
  | checkpointComplete => exact execCheckpointComplete_kept h e
  | gcVictimStart => exact execGcVictimStart_kept h _ e
  | gcErase => exact execGcErase_kept h _ e
  | refreshStart => exact execRefreshStart_kept h _ e
  | demoteBackground => exact execDemoteBackground_kept h e
  | programFail => exact execProgramFail_kept h _ e
  | eraseFail => exact execEraseFail_kept h _ e
  | dieLost => exact execDieLost_kept h _ e
  | dieTempRead => exact execDieTempRead_kept h _ _ e
  | dump => exact execDump_kept h _ _ _ e
  | channelTraining => exact execChannelTraining_kept h _ _ _ e
  | nop => exact execNop_kept h _ _ e
  | fence => exact execFence_kept h _ _ e
  | ifence => exact execIfence_kept h _ _ e
  | eret => exact execEret_kept h _ _ e
  | wait => exact execWait_kept h _ _ e
  | halt => exact execHalt_kept h _ _ e
  | mov => exact execMov_kept h _ _ e
  | aluRr => exact execAluRr_kept h _ _ e
  | shiftRr => exact execShiftRr_kept h _ _ e
  | mulRr => exact execMulRr_kept h _ _ e
  | unary => exact execUnary_kept h _ _ e
  | addi5 => exact execAddi5_kept h _ _ e
  | movi5 => exact execMovi5_kept h _ _ e
  | ldRr => exact execLdRr_kept h _ _ e
  | stRr => exact execStRr_kept h _ _ e
  | jr => exact execJr_kept h _ _ e
  | jalr => exact execJalr_kept h _ _ e
  | addBSubB => exact execAddBSubB_kept h _ _ e
  | daaB => exact execDaaB_kept h _ _ e
  | dasB => exact execDasB_kept h _ _ e
  | aluTr => exact execAluTr_kept h _ _ e
  | shiftTr => exact execShiftTr_kept h _ _ e
  | mulTr => exact execMulTr_kept h _ _ e
  | cmp => exact execCmp_kept h _ _ e
  | divuDivsRemuRems => exact execDivuDivsRemuRems_kept h _ _ e
  | addi => exact execAddi_kept h _ _ e
  | andiOriXori => exact execAndiOriXori_kept h _ _ e
  | shliShriSari => exact execShliShriSari_kept h _ _ e
  | cmpi => exact execCmpi_kept h _ _ e
  | movi => exact execMovi_kept h _ _ e
  | rdsr => exact execRdsr_kept h _ _ e
  | wrsr => exact execWrsr_kept h _ _ e
  | rdfeat => exact execRdfeat_kept h _ _ e
  | loadInstruction => exact execLoadInstruction_kept h _ _ e
  | storeInstruction => exact execStoreInstruction_kept h _ _ e
  | lea => exact execLea_kept h _ _ e
  | swap => exact execSwap_kept h _ _ e
  | cas => exact execCas_kept h _ _ e
  | fadd => exact execFadd_kept h _ _ e
  | b => exact execB_kept h _ _ e
  | jal => exact execJal_kept h _ _ e
  | repI => exact execRepI_kept h _ _ _ e
  | repU => exact execRepU_kept h _ _ _ e
  | svc => exact execSvc_kept h _ _ e
  | svcExit => exact execSvcExit_kept h _ e
  | svcBarrier => exact execSvcBarrier_kept h _ e
  | svcYield => exact execSvcYield_kept h _ e
  | addprSubprMulpr => exact execAddprSubprMulpr_kept h _ _ e
  | cmppr => exact execCmppr_kept h _ _ e
  | movi32 => exact execMovi32_kept h _ _ e
  | movhi32 => exact execMovhi32_kept h _ _ e
  | addi32 => exact execAddi32_kept h _ _ e
  | cmpi32 => exact execCmpi32_kept h _ _ e
  | addp => exact execAddp_kept h _ _ e
  | subp => exact execSubp_kept h _ _ e
  | mulp => exact execMulp_kept h _ _ e
  | divp => exact execDivp_kept h _ _ e
  | cmpp => exact execCmpp_kept h _ _ e
  | movp => exact execMovp_kept h _ _ e
  | pack => exact execPack_kept h _ _ e
  | unpk => exact execUnpk_kept h _ _ e
  | edit => exact execEdit_kept h _ _ e
  | shfp => exact execShfp_kept h _ _ e
  | cvbp => exact execCvbp_kept h _ _ e
  | cvpb => exact execCvpb_kept h _ _ e
  | budgetExhausted => exact execBudgetExhausted_kept h _ e
  | stop => exact execStop_kept h _ e
  | suspend => exact execSuspend_kept h _ e
  | heatStaged => exact execHeatStaged_kept h _ e
  | heatLoadingStart => exact execHeatLoadingStart_kept h _ e
  | heatRunningStart => exact execHeatRunningStart_kept h _ e
  | heatDelivered => exact execHeatDelivered_kept h _ _ e
  | heatStop => exact execHeatStop_kept h _ _ _ e
  | hdlStop => exact execHdlStop_kept h _ _ _ e
  | patternWritePhase => exact execPatternWritePhase_kept h _ e
  | patternApplyPhase => exact execPatternApplyPhase_kept h _ e
  | securityAlarm => exact execSecurityAlarm_kept h _ e
  | keyChangeEffect => exact execKeyChangeEffect_kept h _ e
  | pkJobComplete => exact execPkJobComplete_kept h e
  | go => exact execGo_kept h _ _ e
  | readRaw => exact execReadRaw_kept h _ e
  | writeRaw => exact execWriteRaw_kept h _ e
  | readPage => exact execReadPage_kept h _ _ e
  | writePage => exact execWritePage_kept h _ _ e
  | dramTempChange => exact execDramTempChange_kept h _ _ e
  | dramTraining => exact execDramTraining_kept h _ _ e
  | wake => exact execWake_kept h _ e
  | pwrTimerExpiry => exact execPwrTimerExpiry_kept h e
  | refreshWake => exact execRefreshWake_kept h e
  | powerEntryBegin => exact execPowerEntryBegin_kept h e
  | powerStateReached => exact execPowerStateReached_kept h e
  | powerExitComplete => exact execPowerExitComplete_kept h _ e
  | clusterPllLock => exact execClusterPllLock_kept h _ e
  | evrCheckRead => exact execEvrCheckRead_kept h _ e
  | freezeRing => exact execFreezeRing_kept h _ e
  | release => exact execRelease_kept h _ e
  | freezeExpiry => exact execFreezeExpiry_kept h _ e
  | evrClear => exact execEvrClear_kept h _ _ e
  | starterBegin => exact execStarterBegin_kept h _ e
  | fwLoad => exact execFwLoad_kept h _ _ e
  | fwActivate => exact execFwActivate_kept h _ e
  | fwConfirm => exact execFwConfirm_kept h _ e
  | restart => exact execRestart_kept h _ e
  | deviceFault => exact execDeviceFault_kept h _ e
  | watchdogExpiry => exact execWatchdogExpiry_kept h e
  | faultFlushEnd => exact execFaultFlushEnd_kept h e
  | phyUp => exact execPhyUp_kept h _ _ e
  | phyDown => exact execPhyDown_kept h _ e
  | linkSilent => exact execLinkSilent_kept h _ e
  | helloRepeat => exact execHelloRepeat_kept h _ e
  | summarySend => exact execSummarySend_kept h e
  | pairConfirmSend => exact execPairConfirmSend_kept h _ e
  | retransmitTimeout => exact execRetransmitTimeout_kept h _ e
  | peerDeclaredLost => exact execPeerDeclaredLost_kept h _ _ e
  | relayFrameDiscard => exact execRelayFrameDiscard_kept h _ _ e
  | hello => exact execHello_kept h _ _ e
  | linkOffer => exact execLinkOffer_kept h _ _ e
  | linkAnswer => exact execLinkAnswer_kept h _ _ e
  | fieldKey => exact execFieldKey_kept h _ _ _ _ e
  | pace => exact execPace_kept h _ _ e
  | summary => exact execSummary_kept h _ _ e
  | roster => exact execRoster_kept h _ _ e
  | postReq => exact execPostReq_kept h _ _ _ e
  | postAck => exact execPostAck_kept h _ _ _ _ e
  | resync => exact execResync_kept h _ _ _ e
  | pairConfirm => exact execPairConfirm_kept h _ _ _ _ _ e
  | migOffer => exact execMigOffer_kept h _ _ _ _ _ e
  | migReply => exact execMigReply_kept h _ _ _ _ e
  | migBaton => exact execMigBaton_kept h _ _ _ _ e
  | migData => exact execMigData_kept h _ _ _ _ e
  | migCommit => exact execMigCommit_kept h _ _ _ _ _ e
  | migCommitted => exact execMigCommitted_kept h _ _ e
  | migErased => exact execMigErased_kept h _ _ _ e
  | migErasedAck => exact execMigErasedAck_kept h _ _ e
  | migAbort => exact execMigAbort_kept h _ _ _ _ e
  | ack => exact execAck_kept h _ _ _ e
  | loadRoster => exact execLoadRoster_kept h _ _ e
  | rekey => exact execRekey_kept h _ e
  | dumpField => exact execDumpField_kept h _ _ e
  | setTime => exact execSetTime_kept h _ e
  | ppsEdge => exact execPpsEdge_kept h _ _ e
  | smbusBasicManagement => exact execSmbusBasicManagement_kept h _ e
  | smbusSelectWrite => exact execSmbusSelectWrite_kept h _ _ e
  | smbusBlockRead => exact execSmbusBlockRead_kept h e
  | smbusBlockWrite => exact execSmbusBlockWrite_kept h _ _ _ e
  | extest => exact execExtest_kept h e
  | idcode => exact execIdcode_kept h e
  | samplePreload => exact execSamplePreload_kept h e
  | highz => exact execHighz_kept h e
  | clamp => exact execClamp_kept h e
  | bypass => exact execBypass_kept h e
  | debugInstruction => exact execDebugInstruction_kept h _ e
  | tapReset => exact execTapReset_kept h e
  | pcieL1Exit => exact execPcieL1Exit_kept h _ e
  | pfailNReturnsHigh => exact execPfailNReturnsHigh_kept h _ e

/-- Whatever command answers a next state: all that `Kept` names is as it was but for the stride counter, which is
`strideAfter`. -/
theorem exec_kept_from {s t : State} {c : Instr} (e : exec c s = .next t) :
    Kept { s with stride := strideAfter c s } t := by
  by_cases hcold : c = .coldStart
  · subst hcold
    cases e
    exact State.coldStart_kept (Kept.refl s)
  by_cases htick : c = .tick
  · subst htick
    cases e
    exact State.tick_kept_from s
  by_cases hlap : c = .lapBoundary
  · subst hlap
    cases e
    exact State.lapBoundary_kept_from s
  have hstride : strideAfter c s = s.stride := by simp [strideAfter, hcold, htick, hlap]
  rw [hstride]
  exact exec_kept (Kept.refl s) htick hlap hcold e

/-- A step idles on an empty queue, and runs the front command with the queue's rest otherwise. -/
theorem step_cases {s t : State} (e : step s = .next t) :
    (s.pending = [] ∧ t = s) ∨ ∃ c rest, s.pending = c :: rest ∧ exec c { s with pending := rest } = .next t := by
  cases hq : s.pending with
  | nil =>
    simp only [step, hq] at e
    cases e
    exact .inl ⟨rfl, rfl⟩
  | cons c rest =>
    simp only [step, hq] at e
    exact .inr ⟨c, rest, rfl, e⟩

/-- Whatever a step answers is kept from the state it began in with the front command taken off, but for the stride
counter. -/
theorem step_kept_from {s t : State} (e : step s = .next t) :
    ∃ n, Kept { s with pending := s.pending.tail, stride := n } t := by
  obtain ⟨hq, rfl⟩ | ⟨c, rest, hq, he⟩ := step_cases e
  · have htail : t.pending = t.pending.tail := by rw [hq, List.tail_nil]
    exact ⟨t.stride, { Kept.refl t with queue := htail }⟩
  · rw [hq]
    exact ⟨_, exec_kept_from he⟩

/-! ### The statements -/

/-- Settles O3: every command keeps the canonical form of the memories, and the queue is no part of it. -/
theorem memoriesStayCanonical : Obligations.MemoriesStayCanonical := by
  intro s t hmem e
  obtain ⟨n, hkept⟩ := step_kept_from e
  exact hkept.mem hmem

/-- Settles O6: the queue loses its front, and no command changes a fused value. -/
theorem fusedValuesAndTheQueueStay : Obligations.FusedValuesAndTheQueueStay := by
  intro s t e
  obtain ⟨n, hkept⟩ := step_kept_from e
  exact ⟨hkept.queue, hkept.variant, hkept.device, hkept.unit⟩

/-- Settles O7: the fused epochs are among what every command keeps or raises. -/
theorem fusedEpochsNeverFall : Obligations.FusedEpochsNeverFall := by
  intro s t e
  obtain ⟨n, hkept⟩ := step_kept_from e
  exact ⟨hkept.epoch, hkept.fwEpoch⟩

/-- Settles O5: the stride counter after a command is `strideAfter` (log 39 leaves it where there is no supply). -/
theorem theStrideCounts : Obligations.TheStrideCounts :=
  fun _ _ _ e => (exec_kept_from e).stride

/-! ### The front of the queue, and reset -/

/-- Settles O1: the front command runs with the queue's rest. -/
theorem stepRunsTheFrontCommand : Obligations.StepRunsTheFrontCommand :=
  fun _ _ => rfl

/-- Settles O2: log entry 1, the idle step. -/
theorem anEmptyQueueIdles : Obligations.AnEmptyQueueIdles := by
  intro s hq
  simp only [step, hq]

/-- Settles O4: at reset no memory lists a byte. -/
theorem memoriesAreCanonicalAtReset : Obligations.MemoriesAreCanonicalAtReset :=
  ⟨rfl, fun _ hp => absurd hp List.not_mem_nil⟩

end Sys2Proof.Machine

/-! Proofs of the statements on the units that a command names: on units that exist it goes on (R16, R116, R175, R327,
R436, R803), on others it stops by name (log 9). -/

namespace Sys2Proof.Machine

/-! ### A command on units that exist answers a next state -/

theorem onSlice_answers {n : Nat} (h : n < 512) (s : State) : ∃ t, onSlice n s = .next t := ⟨s, onSlice_of h s⟩
theorem onPort_answers {p : Nat} (h : p < 2) (s : State) : ∃ t, onPort p s = .next t := ⟨s, onPort_of h s⟩
theorem onCore_answers {c : Nat} (h : c < 72) (s : State) : ∃ t, onCore c s = .next t := ⟨s, onCore_of h s⟩
theorem onChannel_answers {c : Nat} (h : c < 32) (s : State) : ∃ t, onChannel c s = .next t := ⟨s, onChannel_of h s⟩
theorem onDie_answers {d : Nat} (h : d < 512) (s : State) : ∃ t, onDie d s = .next t := ⟨s, onDie_of h s⟩
theorem onUnit_answers {n k : Nat} (h : k < n) (s : State) : ∃ t, onUnit n k s = .next t := ⟨s, onUnit_of h s⟩
theorem onRelayPort_answers {p : Nat} (h : p < 4) (s : State) : ∃ t, onRelayPort p s = .next t :=
  ⟨s, onRelayPort_of h s⟩
theorem onPortSlice_answers {p n : Nat} (h : p < 2) (k : n < 512) (s : State) : ∃ t, onPortSlice p n s = .next t :=
  ⟨s, onPortSlice_of h k s⟩

theorem byReq_answers {q : Requester} (h : q.wf = true) (s : State) : ∃ t, byReq q s = .next t := by
  cases q with
  | port p => exact onPort_answers (of_decide_eq_true h) s
  | core c => exact onCore_answers (of_decide_eq_true h) s
  | smbus => exact ⟨s, rfl⟩

theorem byReqSlice_answers {q : Requester} {n : Nat} (h : q.wf = true) (k : n < 512) (s : State) :
    ∃ t, byReqSlice q n s = .next t := by
  cases q with
  | port p => exact onPortSlice_answers (of_decide_eq_true h) k s
  | core c => exact ⟨s, (if_pos (of_decide_eq_true h)).trans (onSlice_of k s)⟩
  | smbus => exact onSlice_answers k s

theorem byReqChannel_answers {q : Requester} {n : Nat} (h : q.wf = true) (k : n < 32) (s : State) :
    ∃ t, byReqChannel q n s = .next t := by
  cases q with
  | port p => exact ⟨s, (if_pos (of_decide_eq_true h)).trans (onChannel_of k s)⟩
  | core c => exact ⟨s, (if_pos (of_decide_eq_true h)).trans (onChannel_of k s)⟩
  | smbus => exact onChannel_answers k s

theorem onSet_answers {q : EvrSet} (h : q.wf = true) (s : State) : ∃ t, onSet q s = .next t := by
  cases q with
  | own n => exact onSlice_answers (of_decide_eq_true h) s
  | mirror n => exact onSlice_answers (of_decide_eq_true h) s
  | bar0 => exact ⟨s, rfl⟩
  | smbus => exact ⟨s, rfl⟩

theorem onRecorder_answers {q : Option Nat} (h : q.all (fun n => decide (n < 512)) = true) (s : State) :
    ∃ t, onRecorder q s = .next t := by
  cases q with
  | some n => exact onSlice_answers (of_decide_eq_true h) s
  | none => exact ⟨s, rfl⟩

theorem true_left_of_and {a b : Bool} (h : (a && b) = true) : a = true := (Bool.and_eq_true_iff.mp h).1

theorem true_right_of_and {a b : Bool} (h : (a && b) = true) : b = true := (Bool.and_eq_true_iff.mp h).2

theorem CmdId.slice_lt {c : CmdId} (h : c.wf = true) : c.slice < 512 :=
  of_decide_eq_true (true_left_of_and (true_left_of_and h))

/-! ### The statements -/

/-- Settles O8, command by command: a command that names no unit always answers, and each other does where its units
exist. Where it has nothing to act on, it answers the state as it is (log 9, log 10). -/
theorem wellFormedCommandsNeverStop : Obligations.WellFormedCommandsNeverStop := by
  intro c s h
  cases c with
  | tick | pollComplete | lapBoundary | courseValidationEnd | persistEnd | journalRecordDurable | holdupArmed |
    holdupDisarmed | powerFailLatch | pwrOkLow | emergencyFlushEnd | thermalTrip | checkpointStart |
    checkpointComplete | demoteBackground | programFail | eraseFail | keyChangeEffect | pkJobComplete |
    pwrTimerExpiry | refreshWake | powerEntryBegin | powerStateReached | powerExitComplete | coldStart |
    starterBegin | watchdogExpiry | faultFlushEnd | summarySend | retransmitTimeout | peerDeclaredLost | postReq |
    resync | pairConfirm | migOffer | migBaton | migData | migCommit | migCommitted | migErased | migErasedAck |
    migAbort | ack | ppsEdge | smbusBasicManagement | smbusSelectWrite | smbusBlockRead | smbusBlockWrite | extest |
    idcode | samplePreload | highz | clamp | bypass | debugInstruction | tapReset | pfailNReturnsHigh =>
    exact ⟨_, rfl⟩
  | heatLapLimit | dataTransferError | deleteIoSubmissionQueue | createIoSubmissionQueue | getLogPage |
    deleteIoCompletionQueue | createIoCompletionQueue | identify | abort | setFeatures | getFeatures |
    asynchronousEventRequest | namespaceAttachment | formatNvm | sanitize | keyDelivery | attestationReport |
    heatProgramLoad | patternTableLoad | flush | write | read | compare | writeZeroes | verify | reservationRegister
    | reservationReport | reservationAcquire | reservationRelease | ledgerPost | ledgerPostListArrival | heatRun |
    heatDescriptorArrival | hurdleRun | hurdleDescriptorArrival | patternSearch | patternStep | patternSearchBegin |
    cipherTransform | cipherTrailerArrival | digest | digestBatonArrival | heatStaged | heatLoadingStart |
    heatRunningStart | heatDelivered | patternWritePhase | patternApplyPhase =>
    exact onSlice_answers (CmdId.slice_lt h) _
  | regWrite | reg64LowRead =>
    exact byReq_answers (true_left_of_and h) _
  | reg64HighRead | reg64LowWrite | reg64HighWrite | load | apply | persist | discard | request | cancelCommit |
    checkpoint | dumpLoss | addUnpowered | clearLoss | go | readRaw | writeRaw | readPage | writePage | wake |
    evrClear | fwLoad | fwActivate | fwConfirm | restart | loadRoster | rekey | dumpField | setTime =>
    exact byReq_answers h _
  | cmbAccess | flr | hotReset | perstAsserted | perstReleased | linkUp | busMasterEnable | pcieL1Exit =>
    exact onPort_answers (of_decide_eq_true h) _
  | doorbellWrite =>
    exact onPortSlice_answers (of_decide_eq_true (true_left_of_and (true_left_of_and (true_left_of_and (true_left_of_and h))))) (of_decide_eq_true (true_right_of_and (true_left_of_and (true_left_of_and (true_left_of_and h))))) _
  | create | resetDrain | resetSquash | freeze | thaw | save | restore | destroy | migrate | accept | movePort |
    cancel =>
    exact byReqSlice_answers (true_left_of_and h) (of_decide_eq_true (true_right_of_and h)) _
  | slcFetchEnd | sliceFrozen | resetComplete | saveEnd | restoreEnd | destroyEnd | shutdownComplete | hostBusError
    | entryVisible | flushStart | pairConfirmSend =>
    exact onSlice_answers (of_decide_eq_true h) _
  | ccEnable | ccDisable | ccShutdown | heatStop | hdlStop =>
    exact onPortSlice_answers (of_decide_eq_true (true_left_of_and h)) (of_decide_eq_true (true_right_of_and h)) _
  | namespaceManagement | datasetManagement =>
    exact onSlice_answers (CmdId.slice_lt (true_left_of_and h)) _
  | gcVictimStart | gcErase | refreshStart | dieLost | dieTempRead =>
    exact onDie_answers (of_decide_eq_true h) _
  | dump =>
    exact byReqChannel_answers (true_left_of_and h) (of_decide_eq_true (true_right_of_and h)) _
  | channelTraining =>
    exact onChannel_answers (of_decide_eq_true (true_left_of_and h)) _
  | nop | fence | ifence | eret | wait | halt | mov | aluRr | shiftRr | mulRr | unary | addi5 | movi5 | ldRr | stRr
    | jr | jalr | addBSubB | daaB | dasB | aluTr | shiftTr | mulTr | cmp | divuDivsRemuRems | addi | andiOriXori |
    shliShriSari | cmpi | movi | rdsr | wrsr | rdfeat | loadInstruction | storeInstruction | lea | swap | cas | fadd
    | b | jal | svc | addprSubprMulpr | cmppr | movi32 | movhi32 | addi32 | cmpi32 | addp | subp | mulp | divp |
    cmpp | movp | pack | unpk | edit | shfp | cvbp | cvpb =>
    exact onCore_answers (of_decide_eq_true (true_left_of_and (true_left_of_and h))) _
  | repI | repU =>
    exact onCore_answers (of_decide_eq_true (true_left_of_and (true_left_of_and (true_left_of_and h)))) _
  | svcExit | svcBarrier | svcYield | budgetExhausted | stop | suspend =>
    exact onCore_answers (of_decide_eq_true h) _
  | securityAlarm => exact ⟨_, if_pos h⟩
  | deviceFault =>
    exact ⟨_, if_pos ⟨of_decide_eq_true (true_left_of_and h), of_decide_eq_true (true_right_of_and h)⟩⟩
  | dramTempChange | dramTraining | clusterPllLock =>
    exact onUnit_answers (of_decide_eq_true h) _
  | evrCheckRead | freezeRing | release =>
    exact onSet_answers h _
  | freezeExpiry =>
    exact onRecorder_answers h _
  | phyUp | phyDown | linkSilent | helloRepeat | relayFrameDiscard | linkOffer | linkAnswer | fieldKey | pace |
    roster =>
    exact onRelayPort_answers (of_decide_eq_true h) _
  | hello | summary =>
    exact onRelayPort_answers (of_decide_eq_true (true_left_of_and h)) _
  | postAck | migReply =>
    exact onSlice_answers (of_decide_eq_true (true_right_of_and h)) _

/-- Settles O9: log entry 9, the fault of each kind of unit. -/
theorem outOfRangeUnitsStopByName : Obligations.OutOfRangeUnitsStopByName :=
  ⟨fun _ _ h => if_neg (Nat.not_lt.2 h), fun _ _ h => if_neg (Nat.not_lt.2 h), fun _ _ h => if_neg (Nat.not_lt.2 h),
    fun _ _ h => if_neg (Nat.not_lt.2 h), fun _ _ h => if_neg (Nat.not_lt.2 h), fun _ _ h => if_neg (Nat.not_lt.2 h)⟩

end Sys2Proof.Machine

/-! Instructions of a core whose word is legal, and the groups of register instructions (R475 to R477, R480, R484). -/

namespace Sys2Proof.Machine

/-! ### A legal instruction runs -/

/-- Command `i` runs one instruction: nothing but core `c` changes, and it then stands as `k`. -/
def State.Runs (s : State) (i : Instr) (c : Nat) (k : Core) (b : Option Nat) : Prop :=
  ∃ t, exec i s = .next t ∧ s.ran t c k b

/-- An instruction that runs, with what is known of a value `x` that the core then holds. -/
theorem State.Runs.holding {α : Type} {s : State} {i : Instr} {c : Nat} {K : α → Core} {b : Option Nat} {x : α}
    {P : α → Prop} (h : s.Runs i c (K x) b) (hx : P x) :
    ∃ t y, exec i s = .next t ∧ P y ∧ s.ran t c (K y) b :=
  let ⟨t, e, r⟩ := h
  ⟨t, x, e, hx, r⟩

/-- Word `w` is one of its row's, legal on core `k`, and takes at most `b` cycles. -/
structure Legal (s : State) (c : Nat) (k : Core) (own : Bool) (w : RepWord) (b : Option Nat) : Prop where
  row : own = true
  len : wordLenOk w = true
  ill : State.illWord c k w = []
  bound : s.bound c k w = b

/-- A legal instruction whose group answers a core and perhaps a target runs. -/
theorem Legal.runsTo {s : State} {c : Nat} {k k' : Core} {own : Bool} {w : RepWord} {b : Option Nat} {i : Instr}
    {target : Option Dword} {pc : Dword} (L : Legal s c k own w b) (hk : k = s.core c)
    (h : s.atInstr c (State.wordLen w)) (hexec : exec i s = onCore c (s.runRow c own w))
    (hsem : s.semWord State.coreBus c k w = .ok (s.setCore c k', target))
    (hpc : target.getD (k.pc + BitVec.ofNat 64 (State.wordLen w)) = pc) :
    s.Runs i c { k' with pc := pc } b := by
  subst hk
  obtain ⟨t, he, hran⟩ := State.runRow_ok L.row L.len h L.ill hsem
  rw [hpc, L.bound] at hran
  exact ⟨t, hexec.trans he, hran⟩

/-- A legal instruction that does not jump runs, and the pc passes it. -/
theorem Legal.runs {s : State} {c : Nat} {k : Core} {own : Bool} {w : RepWord} {b : Option Nat} {i : Instr}
    (L : Legal s c k own w b) (k' : Core) (hk : k = s.core c) (h : s.atInstr c (State.wordLen w))
    (hexec : exec i s = onCore c (s.runRow c own w))
    (hsem : s.semWord State.coreBus c k w = s.done c k') :
    s.Runs i c { k' with pc := k.pc + BitVec.ofNat 64 (State.wordLen w) } b :=
  L.runsTo hk h hexec hsem rfl

/-! ### Words of the 16-bit format -/

section RR
variable {op d g : BitVec 5}

@[simp] theorem op16_rr : op16 (Fmt.rr op d g).toNat = op.toNat := Fmt.rr_op op d g
@[simp] theorem d16_rr : d16 (Fmt.rr op d g).toNat = d.toNat := Fmt.rr_d op d g
@[simp] theorem s16_rr : s16 (Fmt.rr op d g).toNat = g.toNat := Fmt.rr_g op d g

theorem wordLenOk_rr : wordLenOk (.w16 (Fmt.rr op d g)) = true := by simp [wordLenOk]

theorem inRow_rr {lo hi : Nat} (h : lo ≤ op.toNat ∧ op.toNat ≤ hi) : inRow lo hi (.w16 (Fmt.rr op d g)) = true := by
  simpa [inRow, opcodeOf] using h

/-- The register instructions of 16 bits that are legal whatever they name: MOV to MUL, ADDI5 to ST, JALR, ADD.B and
SUB.B (R475). -/
theorem illWord_rr (c : Nat) (k : Core)
    (h : (1 ≤ op.toNat ∧ op.toNat ≤ 0x14) ∧ op.toNat ≠ 0x0C ∧ op.toNat ≠ 0x11) :
    State.illWord c k (.w16 (Fmt.rr op d g)) = [] := by
  obtain ⟨⟨h1, h2⟩, h3, h4⟩ := h
  simp [State.illWord, State.ill16, State.when', h3, h4, show op.toNat ≠ 0 by omega, show op.toNat ≠ 0x15 by omega,
    show op.toNat ≠ 0x16 by omega]
  omega

/-- Of the 16-bit instructions MUL, LD, ST, JR, JALR and SYS16 alone may take more than one cycle (R484). -/
theorem bound_rr (s : State) (c : Nat) (k : Core)
    (h : op.toNat ∉ [0, 0x0B, 0x0F, 0x10, 0x11, 0x12]) : s.bound c k (.w16 (Fmt.rr op d g)) = some 1 := by
  simp only [List.mem_cons, List.not_mem_nil, or_false, not_or] at h
  simp [State.bound, h]

end RR

/-- ADD, SUB, AND, OR and XOR in two-operand form. -/
theorem semWord_aluRr {op d g : BitVec 5} (h : 2 ≤ op.toNat ∧ op.toNat ≤ 6) (s : State) (bus : Bus) (c : Nat) (k : Core)
    {v f : Dword} (hr : State.aluOp (if op.toNat ≤ 3 then op.toNat - 2 else op.toNat) k.flg (k.reg d.toNat)
      (k.reg g.toNat) = (v, f)) :
    s.semWord bus c k (.w16 (Fmt.rr op d g)) = s.done c ({ k with flg := f }.put d.toNat v) := by
  obtain ⟨h1, h2⟩ := h
  simp [State.semWord, State.sem16, hr, h2, show op.toNat ≠ 0 by omega, show op.toNat ≠ 1 by omega,
    show op.toNat ≠ 7 by omega]

theorem semWord_shiftRr {op d g : BitVec 5} (h : 8 ≤ op.toNat ∧ op.toNat ≤ 0x0A) (s : State) (bus : Bus) (c : Nat)
    (k : Core) {v f : Dword}
    (hr : State.shiftOp (op.toNat - 8) k.flg (k.reg d.toNat) ((k.reg g.toNat).toNat % 64) = (v, f)) :
    s.semWord bus c k (.w16 (Fmt.rr op d g)) = s.done c ({ k with flg := f }.put d.toNat v) := by
  obtain ⟨h1, h2⟩ := h
  simp [State.semWord, State.sem16, hr, h2, show op.toNat ≠ 0 by omega, show op.toNat ≠ 1 by omega,
    show op.toNat ≠ 7 by omega, show ¬ op.toNat ≤ 6 by omega]

/-! ### Words of the 32-bit formats -/

section W32
variable {op : BitVec 6} {d a b : BitVec 5}

@[simp] theorem op32_tr : op32 (Fmt.tr op d a b).toNat = op.toNat := Fmt.tr_op op d a b
@[simp] theorem d32_tr : d32 (Fmt.tr op d a b).toNat = d.toNat := Fmt.tr_d op d a b
@[simp] theorem a32_tr : a32 (Fmt.tr op d a b).toNat = a.toNat := Fmt.tr_a op d a b
@[simp] theorem b32_tr : b32 (Fmt.tr op d a b).toNat = b.toNat := Fmt.tr_b op d a b

theorem inRow_tr {lo hi : Nat} (h : lo ≤ op.toNat ∧ op.toNat ≤ hi) : inRow lo hi (.w32 (Fmt.tr op d a b)) = true := by
  simpa [inRow, opcodeOf] using h

/-- The three-operand register instructions from ADD to MULHS are legal whatever they name (R476). -/
theorem illWord_tr (c : Nat) (k : Core) (h : op.toNat ≤ 0x0E) : State.illWord c k (.w32 (Fmt.tr op d a b)) = [] := by
  simp [State.illWord, State.ill32, State.when', h]

/-- The 32-bit register instructions take one cycle, but for products and divisions (R484). -/
theorem bound_w32 (s : State) (c : Nat) (k : Core) {i : BitVec 32}
    (h : op32 i.toNat ≤ 0x0B ∨ op32 i.toNat = 0x0F ∨ 0x14 ≤ op32 i.toNat ∧ op32 i.toNat ≤ 0x1F) :
    s.bound c k (.w32 i) = some 1 := by
  have hmul : ¬ (0x0C ≤ op32 i.toNat ∧ op32 i.toNat ≤ 0x0E) := by omega
  have hdiv : ¬ (0x10 ≤ op32 i.toNat ∧ op32 i.toNat ≤ 0x13) := by omega
  simp [State.bound, hmul, hdiv, show ¬ 0x20 ≤ op32 i.toNat by omega, show ¬ 0x28 ≤ op32 i.toNat by omega,
    show ¬ 0x2E ≤ op32 i.toNat by omega, show op32 i.toNat ≠ 0x31 by omega, show op32 i.toNat ≠ 0x32 by omega,
    show op32 i.toNat ≠ 0x38 by omega, show op32 i.toNat ≠ 0x39 by omega, show op32 i.toNat ≠ 0x3B by omega,
    show op32 i.toNat ≠ 0x3A by omega]

theorem semWord_aluTr (h : op.toNat ≤ 7) (s : State) (bus : Bus) (c : Nat) (k : Core) {v f : Dword}
    (hr : State.aluOp op.toNat k.flg (k.reg a.toNat) (k.reg b.toNat) = (v, f)) :
    s.semWord bus c k (.w32 (Fmt.tr op d a b)) = s.done c ({ k with flg := f }.put d.toNat v) := by
  simp [State.semWord, State.sem32, h, hr]

theorem semWord_shiftTr (h : 8 ≤ op.toNat ∧ op.toNat ≤ 0x0B) (s : State) (bus : Bus) (c : Nat) (k : Core) {v f : Dword}
    (hr : State.shiftOp (op.toNat - 8) k.flg (k.reg a.toNat) ((k.reg b.toNat).toNat % 64) = (v, f)) :
    s.semWord bus c k (.w32 (Fmt.tr op d a b)) = s.done c ({ k with flg := f }.put d.toNat v) := by
  obtain ⟨h1, h2⟩ := h
  simp [State.semWord, State.sem32, hr, h2, show ¬ op.toNat ≤ 7 by omega]

variable {imm : BitVec 14}

@[simp] theorem op32_im : op32 (Fmt.im op d a imm).toNat = op.toNat := Fmt.im_op op d a imm
@[simp] theorem d32_im : d32 (Fmt.im op d a imm).toNat = d.toNat := Fmt.im_d op d a imm
@[simp] theorem a32_im : a32 (Fmt.im op d a imm).toNat = a.toNat := Fmt.im_a op d a imm
@[simp] theorem imm14_im : imm14 (Fmt.im op d a imm).toNat = imm.toNat := Fmt.im_imm op d a imm

theorem wordLenOk_im : wordLenOk (.w32 (Fmt.im op d a imm)) = true := by simp [wordLenOk]

theorem inRow_im {lo hi : Nat} (h : lo ≤ op.toNat ∧ op.toNat ≤ hi) : inRow lo hi (.w32 (Fmt.im op d a imm)) = true := by
  simpa [inRow, opcodeOf] using h

/-- The logic instructions with an immediate are legal whatever they name. -/
theorem illWord_im (c : Nat) (k : Core) (h : 0x14 ≤ op.toNat ∧ op.toNat ≤ 0x17) :
    State.illWord c k (.w32 (Fmt.im op d a imm)) = [] := by
  obtain ⟨hlo, hhi⟩ := h
  simp [State.illWord, State.ill32, hhi, show ¬ op.toNat ≤ 0x0E by omega, show op.toNat ≠ 0x0F by omega,
    show ¬ op.toNat ≤ 0x13 by omega]

variable {n : BitVec 6}

@[simp] theorem op32_sh : op32 (Fmt.sh op d a n).toNat = op.toNat := Fmt.sh_op op d a n
@[simp] theorem d32_sh : d32 (Fmt.sh op d a n).toNat = d.toNat := Fmt.sh_d op d a n
@[simp] theorem a32_sh : a32 (Fmt.sh op d a n).toNat = a.toNat := Fmt.sh_a op d a n

theorem wordLenOk_sh : wordLenOk (.w32 (Fmt.sh op d a n)) = true := by simp [wordLenOk]

theorem inRow_sh {lo hi : Nat} (h : lo ≤ op.toNat ∧ op.toNat ≤ hi) : inRow lo hi (.w32 (Fmt.sh op d a n)) = true := by
  simpa [inRow, opcodeOf] using h

theorem illWord_sh (c : Nat) (k : Core) (h : 0x18 ≤ op.toNat ∧ op.toNat ≤ 0x1A) :
    State.illWord c k (.w32 (Fmt.sh op d a n)) = [] := by
  obtain ⟨hlo, hhi⟩ := h
  simp [State.illWord, State.ill32, State.when', hhi, show ¬ op.toNat ≤ 0x0E by omega, show op.toNat ≠ 0x0F by omega,
    show ¬ op.toNat ≤ 0x13 by omega, show ¬ op.toNat ≤ 0x17 by omega]

end W32

/-! ### Words of the 48-bit formats -/

section W48
variable {op : BitVec 6} {d : BitVec 5} {imm : BitVec 32}

@[simp] theorem op48_wi : op48 (Fmt.wi op d imm).toNat = op.toNat := Fmt.wi_op op d imm
@[simp] theorem d48_wi : d48 (Fmt.wi op d imm).toNat = d.toNat := Fmt.wi_d op d imm
@[simp] theorem imm32_wi : imm32 (Fmt.wi op d imm).toNat = imm.toNat := Fmt.wi_imm op d imm

theorem wordLenOk_wi : wordLenOk (.w48 (Fmt.wi op d imm)) = true := by simp [wordLenOk]

theorem inRow_wi {lo hi : Nat} (h : lo ≤ op.toNat ∧ op.toNat ≤ hi) : inRow lo hi (.w48 (Fmt.wi op d imm)) = true := by
  simpa [inRow, opcodeOf] using h

theorem illWord_wi (c : Nat) (k : Core) (h : op.toNat ≤ 3) : State.illWord c k (.w48 (Fmt.wi op d imm)) = [] := by
  simp [State.illWord, State.ill48, State.when', h]

theorem bound_wi (s : State) (c : Nat) (k : Core) (h : op.toNat ≤ 3) :
    s.bound c k (.w48 (Fmt.wi op d imm)) = some 1 := by
  simp [State.bound, show ¬ 8 ≤ op.toNat by omega, show ¬ 0x10 ≤ op.toNat by omega,
    show ¬ 0x20 ≤ op.toNat by omega, show op.toNat ≠ 0x29 by omega, show op.toNat ≠ 0x2A by omega,
    show op.toNat ≠ 0x2B by omega]

end W48

/-! ### Immediates -/

/-- A sign-extended field of `w` bits, read back from the word as a number. -/
@[simp] theorem sext_toNat {w : Nat} (x : BitVec w) : sext w x.toNat = x.signExtend 64 := by
  simp [sext]

/-- The same zero-extended. -/
theorem zext_toNat {w : Nat} (x : BitVec w) : zext w x.toNat = x.setWidth 64 := by
  rw [zext, Nat.mod_eq_of_lt x.isLt, BitVec.ofNat_toNat]

theorem semWord_logicImmediate {op : BitVec 6} {d a : BitVec 5} {imm : BitVec 14}
    (h : 0x15 ≤ op.toNat ∧ op.toNat ≤ 0x17) (s : State) (bus : Bus) (c : Nat) (k : Core) {v f : Dword}
    (hr : State.aluOp (op.toNat - 0x11) k.flg (k.reg a.toNat) (imm.setWidth 64) = (v, f)) :
    s.semWord bus c k (.w32 (Fmt.im op d a imm)) = s.done c ({ k with flg := f }.put d.toNat v) := by
  obtain ⟨hlo, hhi⟩ := h
  simp [State.semWord, State.sem32, zext_toNat, hr, hhi, show ¬ op.toNat ≤ 0x0E by omega,
    show op.toNat ≠ 0x0F by omega, show ¬ op.toNat ≤ 0x13 by omega, show ¬ op.toNat ≤ 7 by omega,
    show ¬ op.toNat ≤ 0x0B by omega, show op.toNat ≠ 0x14 by omega]

theorem semWord_shiftImmediate {op n : BitVec 6} {d a : BitVec 5} (h : 0x18 ≤ op.toNat ∧ op.toNat ≤ 0x1A) (s : State)
    (bus : Bus) (c : Nat) (k : Core) {v f : Dword}
    (hr : State.shiftOp (op.toNat - 0x18) k.flg (k.reg a.toNat) n.toNat = (v, f)) :
    s.semWord bus c k (.w32 (Fmt.sh op d a n)) = s.done c ({ k with flg := f }.put d.toNat v) := by
  obtain ⟨hlo, hhi⟩ := h
  simp [State.semWord, State.sem32, hr, hhi, show ¬ op.toNat ≤ 0x0E by omega,
    show op.toNat ≠ 0x0F by omega, show ¬ op.toNat ≤ 0x13 by omega, show ¬ op.toNat ≤ 7 by omega,
    show ¬ op.toNat ≤ 0x0B by omega, show op.toNat ≠ 0x14 by omega, show ¬ op.toNat ≤ 0x17 by omega]

end Sys2Proof.Machine

/-! Proofs of the statements on additions, subtractions, logic and shifts (R475 to R477, R480). -/

namespace Sys2Proof.Machine

/-! ### The groups of instructions that give a value and FLG -/

section Groups
variable {s : State} {c : Nat} {k : Core} {v f : Dword}

theorem runs_aluRr {op d g : BitVec 5} (hop : 2 ≤ op.toNat ∧ op.toNat ≤ 6) (hk : k = s.core c) (h : s.atInstr c 2)
    (hr : State.aluOp (if op.toNat ≤ 3 then op.toNat - 2 else op.toNat) k.flg (k.reg d.toNat) (k.reg g.toNat) = (v, f)) :
    s.Runs (.aluRr c (Fmt.rr op d g)) c { k.put d.toNat v with flg := f, pc := k.pc + 2 } (some 1) :=
  have L : Legal s c k (inRow 2 7 (.w16 (Fmt.rr op d g))) _ (some 1) :=
    ⟨inRow_rr (by omega), wordLenOk_rr, illWord_rr c k (by omega), bound_rr s c k (by simp; omega)⟩
  L.runs ({ k with flg := f }.put d.toNat v) hk h rfl (semWord_aluRr hop s _ c k hr)

theorem runs_shiftRr {op d g : BitVec 5} (hop : 8 ≤ op.toNat ∧ op.toNat ≤ 0x0A) (hk : k = s.core c)
    (h : s.atInstr c 2)
    (hr : State.shiftOp (op.toNat - 8) k.flg (k.reg d.toNat) ((k.reg g.toNat).toNat % 64) = (v, f)) :
    s.Runs (.shiftRr c (Fmt.rr op d g)) c { k.put d.toNat v with flg := f, pc := k.pc + 2 } (some 1) :=
  have L : Legal s c k (inRow 8 0x0A (.w16 (Fmt.rr op d g))) _ (some 1) :=
    ⟨inRow_rr (by omega), wordLenOk_rr, illWord_rr c k (by omega), bound_rr s c k (by simp; omega)⟩
  L.runs ({ k with flg := f }.put d.toNat v) hk h rfl (semWord_shiftRr hop s _ c k hr)

/-- UNARY has the operations 0 to 10 (R475). -/
theorem runs_unary {d g : BitVec 5} (hg : g.toNat ≤ 10) (hk : k = s.core c) (h : s.atInstr c 2)
    (hr : State.unaryOp g.toNat k.flg (k.reg d.toNat) = (v, f)) :
    s.Runs (.unary c (Fmt.rr 0x0C d g)) c { k.put d.toNat v with flg := f, pc := k.pc + 2 } (some 1) :=
  have L : Legal s c k (inRow 0x0C 0x0C (.w16 (Fmt.rr 0x0C d g))) _ (some 1) :=
    ⟨inRow_rr (by decide), wordLenOk_rr, by simp [State.illWord, State.ill16, State.when']; omega,
      bound_rr s c k (by decide)⟩
  L.runs ({ k with flg := f }.put d.toNat v) hk h rfl (by simp [State.semWord, State.sem16, hr])

theorem runs_aluTr {op : BitVec 6} {d a b : BitVec 5} (hop : op.toNat ≤ 7) (hk : k = s.core c) (h : s.atInstr c 4)
    (hr : State.aluOp op.toNat k.flg (k.reg a.toNat) (k.reg b.toNat) = (v, f)) :
    s.Runs (.aluTr c (Fmt.tr op d a b)) c { k.put d.toNat v with flg := f, pc := k.pc + 4 } (some 1) :=
  have L : Legal s c k (inRow 0 7 (.w32 (Fmt.tr op d a b))) _ (some 1) :=
    ⟨inRow_tr (by omega), wordLenOk_tr op d a b, illWord_tr c k (by omega), bound_w32 s c k (by simp; omega)⟩
  L.runs ({ k with flg := f }.put d.toNat v) hk h rfl (semWord_aluTr hop s _ c k hr)

theorem runs_shiftTr {op : BitVec 6} {d a b : BitVec 5} (hop : 8 ≤ op.toNat ∧ op.toNat ≤ 0x0B) (hk : k = s.core c)
    (h : s.atInstr c 4)
    (hr : State.shiftOp (op.toNat - 8) k.flg (k.reg a.toNat) ((k.reg b.toNat).toNat % 64) = (v, f)) :
    s.Runs (.shiftTr c (Fmt.tr op d a b)) c { k.put d.toNat v with flg := f, pc := k.pc + 4 } (some 1) :=
  have L : Legal s c k (inRow 8 0x0B (.w32 (Fmt.tr op d a b))) _ (some 1) :=
    ⟨inRow_tr (by omega), wordLenOk_tr op d a b, illWord_tr c k (by omega), bound_w32 s c k (by simp; omega)⟩
  L.runs ({ k with flg := f }.put d.toNat v) hk h rfl (semWord_shiftTr hop s _ c k hr)

/-- ANDI, ORI and XORI zero-extend their immediate. -/
theorem runs_logicImmediate {op : BitVec 6} {d a : BitVec 5} {imm : BitVec 14} (hop : 0x15 ≤ op.toNat ∧ op.toNat ≤ 0x17)
    (hk : k = s.core c) (h : s.atInstr c 4)
    (hr : State.aluOp (op.toNat - 0x11) k.flg (k.reg a.toNat) (imm.setWidth 64) = (v, f)) :
    s.Runs (.andiOriXori c (Fmt.im op d a imm)) c { k.put d.toNat v with flg := f, pc := k.pc + 4 } (some 1) :=
  have L : Legal s c k (inRow 0x15 0x17 (.w32 (Fmt.im op d a imm))) _ (some 1) :=
    ⟨inRow_im hop, wordLenOk_im, illWord_im c k (by omega), bound_w32 s c k (by simp; omega)⟩
  L.runs ({ k with flg := f }.put d.toNat v) hk h rfl (semWord_logicImmediate hop s _ c k hr)

theorem runs_shiftImmediate {op n : BitVec 6} {d a : BitVec 5} (hop : 0x18 ≤ op.toNat ∧ op.toNat ≤ 0x1A)
    (hk : k = s.core c) (h : s.atInstr c 4) (hr : State.shiftOp (op.toNat - 0x18) k.flg (k.reg a.toNat) n.toNat = (v, f)) :
    s.Runs (.shliShriSari c (Fmt.sh op d a n)) c { k.put d.toNat v with flg := f, pc := k.pc + 4 } (some 1) :=
  have L : Legal s c k (inRow 0x18 0x1A (.w32 (Fmt.sh op d a n))) _ (some 1) :=
    ⟨inRow_sh hop, wordLenOk_sh, illWord_sh c k hop, bound_w32 s c k (by simp; omega)⟩
  L.runs ({ k with flg := f }.put d.toNat v) hk h rfl (semWord_shiftImmediate hop s _ c k hr)

/-! ### Additions and comparisons with an immediate -/

theorem runs_addi5 {d imm : BitVec 5} (hk : k = s.core c) (h : s.atInstr c 2)
    (hr : addFlags k.flg (k.reg d.toNat) (imm.signExtend 64) 0 = (v, f)) :
    s.Runs (.addi5 c (Fmt.rr 0x0D d imm)) c { k.put d.toNat v with flg := f, pc := k.pc + 2 } (some 1) :=
  have L : Legal s c k (inRow 0x0D 0x0D (.w16 (Fmt.rr 0x0D d imm))) _ (some 1) :=
    ⟨inRow_rr (by decide), wordLenOk_rr, illWord_rr c k (by decide), bound_rr s c k (by decide)⟩
  L.runs ({ k with flg := f }.put d.toNat v) hk h rfl (by simp [State.semWord, State.sem16, hr])

theorem runs_addi {d a : BitVec 5} {imm : BitVec 14} (hk : k = s.core c) (h : s.atInstr c 4)
    (hr : addFlags k.flg (k.reg a.toNat) (imm.signExtend 64) 0 = (v, f)) :
    s.Runs (.addi c (Fmt.im 0x14 d a imm)) c { k.put d.toNat v with flg := f, pc := k.pc + 4 } (some 1) :=
  have L : Legal s c k (inRow 0x14 0x14 (.w32 (Fmt.im 0x14 d a imm))) _ (some 1) :=
    ⟨inRow_im (by decide), wordLenOk_im, illWord_im c k (by decide), bound_w32 s c k (by simp)⟩
  L.runs ({ k with flg := f }.put d.toNat v) hk h rfl (by simp [State.semWord, State.sem32, hr])

theorem runs_addi32 {d : BitVec 5} {imm : BitVec 32} (hk : k = s.core c) (h : s.atInstr c 6)
    (hr : addFlags k.flg (k.reg d.toNat) (imm.signExtend 64) 0 = (v, f)) :
    s.Runs (.addi32 c (Fmt.wi 0x02 d imm)) c { k.put d.toNat v with flg := f, pc := k.pc + 6 } (some 1) :=
  have L : Legal s c k (inRow 0x02 0x02 (.w48 (Fmt.wi 0x02 d imm))) _ (some 1) :=
    ⟨inRow_wi (by decide), wordLenOk_wi, illWord_wi c k (by decide), bound_wi s c k (by decide)⟩
  L.runs ({ k with flg := f }.put d.toNat v) hk h rfl (by simp [State.semWord, State.sem48, hr])

/-- A comparison writes FLG alone (R480). -/
theorem runs_cmpRr {d g : BitVec 5} (hk : k = s.core c) (h : s.atInstr c 2)
    (hr : (subFlags k.flg (k.reg d.toNat) (k.reg g.toNat) 0).2 = f) :
    s.Runs (.aluRr c (Fmt.rr 0x07 d g)) c { k with flg := f, pc := k.pc + 2 } (some 1) :=
  have L : Legal s c k (inRow 2 7 (.w16 (Fmt.rr 0x07 d g))) _ (some 1) :=
    ⟨inRow_rr (by decide), wordLenOk_rr, illWord_rr c k (by decide), bound_rr s c k (by decide)⟩
  L.runs { k with flg := f } hk h rfl (by simp [State.semWord, State.sem16, hr])

theorem runs_cmp {a b : BitVec 5} (hk : k = s.core c) (h : s.atInstr c 4)
    (hr : (subFlags k.flg (k.reg a.toNat) (k.reg b.toNat) 0).2 = f) :
    s.Runs (.cmp c (Fmt.tr 0x0F 0 a b)) c { k with flg := f, pc := k.pc + 4 } (some 1) :=
  have L : Legal s c k (inRow 0x0F 0x0F (.w32 (Fmt.tr 0x0F 0 a b))) _ (some 1) :=
    ⟨inRow_tr (by decide), wordLenOk_tr _ _ _ _, by simp [State.illWord, State.ill32, State.when'],
      bound_w32 s c k (by simp)⟩
  L.runs { k with flg := f } hk h rfl (by simp [State.semWord, State.sem32, hr])

theorem runs_cmpi {a : BitVec 5} {imm : BitVec 14} (hk : k = s.core c) (h : s.atInstr c 4)
    (hr : (subFlags k.flg (k.reg a.toNat) (imm.signExtend 64) 0).2 = f) :
    s.Runs (.cmpi c (Fmt.im 0x1B 0 a imm)) c { k with flg := f, pc := k.pc + 4 } (some 1) :=
  have L : Legal s c k (inRow 0x1B 0x1B (.w32 (Fmt.im 0x1B 0 a imm))) _ (some 1) :=
    ⟨inRow_im (by decide), wordLenOk_im, by simp [State.illWord, State.ill32, State.when'], bound_w32 s c k (by simp)⟩
  L.runs { k with flg := f } hk h rfl (by simp [State.semWord, State.sem32, hr])

theorem runs_cmpi32 {d : BitVec 5} {imm : BitVec 32} (hk : k = s.core c) (h : s.atInstr c 6)
    (hr : (subFlags k.flg (k.reg d.toNat) (imm.signExtend 64) 0).2 = f) :
    s.Runs (.cmpi32 c (Fmt.wi 0x03 d imm)) c { k with flg := f, pc := k.pc + 6 } (some 1) :=
  have L : Legal s c k (inRow 0x03 0x03 (.w48 (Fmt.wi 0x03 d imm))) _ (some 1) :=
    ⟨inRow_wi (by decide), wordLenOk_wi, illWord_wi c k (by decide), bound_wi s c k (by decide)⟩
  L.runs { k with flg := f } hk h rfl (by simp [State.semWord, State.sem48, hr])

end Groups

/-! ### Sums and differences with FLG -/

theorem addFlags_eq (f a b : Dword) : addFlags f a b 0 = (a + b, (addFlags f a b 0).2) :=
  Prod.ext ((addFlags_sum f a b 0).trans (BitVec.add_zero _)) rfl

theorem addFlags_carry_eq (f a b : Dword) (cin : Nat) :
    addFlags f a b cin = (a + b + BitVec.ofNat 64 cin, (addFlags f a b cin).2) :=
  Prod.ext (addFlags_sum f a b cin) rfl

theorem subFlags_eq (f a b : Dword) : subFlags f a b 0 = (a - b, (subFlags f a b 0).2) :=
  Prod.ext ((subFlags_diff f a b 0).trans (BitVec.sub_zero _)) rfl

theorem subFlags_borrow_eq (f a b : Dword) (bin : Nat) :
    subFlags f a b bin = (a - b - BitVec.ofNat 64 bin, (subFlags f a b bin).2) := rfl

/-! ### The statements -/

/-- Settles O10: each addition is `addFlags` of its operands. -/
theorem additionsAndTheirFlags : Obligations.AdditionsAndTheirFlags := by
  refine ⟨?_, ?_, ?_, ?_, ?_, ?_⟩
  · intro s c k d g hk h
    exact State.Runs.holding (runs_aluRr (by decide) hk h (addFlags_eq ..)) (addFlags_spec _ _ _ _ (by decide))
  · intro s c k d a b hk h
    exact State.Runs.holding (runs_aluTr (by decide) hk h (addFlags_eq ..)) (addFlags_spec _ _ _ _ (by decide))
  · rintro s c k d a b cin hk h rfl
    exact State.Runs.holding (runs_aluTr (by decide) hk h (addFlags_carry_eq ..)) (addFlags_spec _ _ _ _ (by split <;> decide))
  · intro s c k d imm hk h
    exact State.Runs.holding (runs_addi5 hk h (addFlags_eq ..)) (addFlags_spec _ _ _ _ (by decide))
  · intro s c k d a imm hk h
    exact State.Runs.holding (runs_addi hk h (addFlags_eq ..)) (addFlags_spec _ _ _ _ (by decide))
  · intro s c k d imm hk h
    exact State.Runs.holding (runs_addi32 hk h (addFlags_eq ..)) (addFlags_spec _ _ _ _ (by decide))

/-- Settles O11: each difference and each comparison is `subFlags` of its operands. -/
theorem subtractionsAndComparisons : Obligations.SubtractionsAndComparisons := by
  refine ⟨?_, ?_, ?_, ?_, ?_, ?_, ?_, ?_⟩
  · intro s c k d g hk h
    exact State.Runs.holding (runs_aluRr (by decide) hk h (subFlags_eq ..)) (subFlags_spec _ _ _ _ (by decide))
  · intro s c k d g hk h
    exact State.Runs.holding (runs_cmpRr hk h rfl) (subFlags_spec _ _ _ _ (by decide))
  · intro s c k d a b hk h
    exact State.Runs.holding (runs_aluTr (by decide) hk h (subFlags_eq ..)) (subFlags_spec _ _ _ _ (by decide))
  · rintro s c k d a b bin hk h rfl
    have hborrow : 1 - (if flagOf k.flg flC then 1 else 0) = (if k.flg.getLsbD 0 then 0 else 1) := by
      unfold flagOf flC
      split <;> rfl
    have hr : State.aluOp 3 k.flg (k.reg a.toNat) (k.reg b.toNat) = subFlags k.flg _ _ _ :=
      congrArg (subFlags k.flg _ _) hborrow
    exact State.Runs.holding (runs_aluTr (op := 3) (by decide) hk h (hr.trans (subFlags_borrow_eq ..)))
      (subFlags_spec _ _ _ _ (by split <;> decide))
  · intro s c k d hk h
    exact State.Runs.holding (runs_unary (by decide) hk h (subFlags_eq ..)) (subFlags_spec _ _ _ _ (by decide))
  · intro s c k a b hk h
    exact State.Runs.holding (runs_cmp hk h rfl) (subFlags_spec _ _ _ _ (by decide))
  · intro s c k a imm hk h
    exact State.Runs.holding (runs_cmpi hk h rfl) (subFlags_spec _ _ _ _ (by decide))
  · intro s c k d imm hk h
    exact State.Runs.holding (runs_cmpi32 hk h rfl) (subFlags_spec _ _ _ _ (by decide))

/-- Settles O12: each logic instruction gives N and Z of its result. -/
theorem logicAndItsFlags : Obligations.LogicAndItsFlags := by
  refine ⟨?_, ?_, ?_, ?_, ?_, ?_, ?_, ?_, ?_, ?_, ?_⟩
  · rintro s c k d g r hk h rfl
    exact State.Runs.holding (runs_aluRr (by decide) hk h rfl) (flagsNZ_spec ..)
  · rintro s c k d g r hk h rfl
    exact State.Runs.holding (runs_aluRr (by decide) hk h rfl) (flagsNZ_spec ..)
  · rintro s c k d g r hk h rfl
    exact State.Runs.holding (runs_aluRr (by decide) hk h rfl) (flagsNZ_spec ..)
  · rintro s c k d a b r hk h rfl
    exact State.Runs.holding (runs_aluTr (by decide) hk h rfl) (flagsNZ_spec ..)
  · rintro s c k d a b r hk h rfl
    exact State.Runs.holding (runs_aluTr (by decide) hk h rfl) (flagsNZ_spec ..)
  · rintro s c k d a b r hk h rfl
    exact State.Runs.holding (runs_aluTr (by decide) hk h rfl) (flagsNZ_spec ..)
  · rintro s c k d a b r hk h rfl
    exact State.Runs.holding (runs_aluTr (by decide) hk h rfl) (flagsNZ_spec ..)
  · rintro s c k d a imm r hk h rfl
    exact State.Runs.holding (runs_logicImmediate (by decide) hk h rfl) (flagsNZ_spec ..)
  · rintro s c k d a imm r hk h rfl
    exact State.Runs.holding (runs_logicImmediate (by decide) hk h rfl) (flagsNZ_spec ..)
  · rintro s c k d a imm r hk h rfl
    exact State.Runs.holding (runs_logicImmediate (by decide) hk h rfl) (flagsNZ_spec ..)
  · rintro s c k d r hk h rfl
    exact State.Runs.holding (runs_unary (by decide) hk h rfl) (flagsNZ_spec ..)

/-- Settles O13: each shift gives N and Z of its result. -/
theorem shiftsAndTheirFlags : Obligations.ShiftsAndTheirFlags := by
  refine ⟨?_, ?_, ?_, ?_, ?_, ?_, ?_, ?_, ?_, ?_⟩
  · rintro s c k d g r hk h rfl
    exact State.Runs.holding (runs_shiftRr (by decide) hk h rfl) (flagsNZ_spec ..)
  · rintro s c k d g r hk h rfl
    exact State.Runs.holding (runs_shiftRr (by decide) hk h rfl) (flagsNZ_spec ..)
  · rintro s c k d g r hk h rfl
    exact State.Runs.holding (runs_shiftRr (by decide) hk h rfl) (flagsNZ_spec ..)
  · rintro s c k d a b r hk h rfl
    exact State.Runs.holding (runs_shiftTr (by decide) hk h rfl) (flagsNZ_spec ..)
  · rintro s c k d a b r hk h rfl
    exact State.Runs.holding (runs_shiftTr (by decide) hk h rfl) (flagsNZ_spec ..)
  · rintro s c k d a b r hk h rfl
    exact State.Runs.holding (runs_shiftTr (by decide) hk h rfl) (flagsNZ_spec ..)
  · rintro s c k d a b r hk h rfl
    exact State.Runs.holding (runs_shiftTr (by decide) hk h rfl) (flagsNZ_spec ..)
  · rintro s c k d a n r hk h rfl
    exact State.Runs.holding (runs_shiftImmediate (by decide) hk h rfl) (flagsNZ_spec ..)
  · rintro s c k d a n r hk h rfl
    exact State.Runs.holding (runs_shiftImmediate (by decide) hk h rfl) (flagsNZ_spec ..)
  · rintro s c k d a n r hk h rfl
    exact State.Runs.holding (runs_shiftImmediate (by decide) hk h rfl) (flagsNZ_spec ..)

end Sys2Proof.Machine

/-! Proofs of the statements on products, on the unary operations, on moves and on jumps (R475 to R478, R482, R486). -/

namespace Sys2Proof.Machine

section Groups
variable {s : State} {c : Nat} {k : Core}

/-! ### Products -/

theorem runs_mulRr {d g : BitVec 5} (hk : k = s.core c) (h : s.atInstr c 2) :
    s.Runs (.mulRr c (Fmt.rr 0x0B d g)) c { k.put d.toNat (k.reg d.toNat * k.reg g.toNat) with pc := k.pc + 2 }
      (some 3) :=
  have L : Legal s c k (inRow 0x0B 0x0B (.w16 (Fmt.rr 0x0B d g))) _ (some 3) :=
    ⟨inRow_rr (by decide), wordLenOk_rr, illWord_rr c k (by decide), by simp [State.bound]⟩
  L.runs (k.put d.toNat (k.reg d.toNat * k.reg g.toNat)) hk h rfl (by simp [State.semWord, State.sem16])

theorem runs_mulTr {op : BitVec 6} {d a b : BitVec 5} {v : Dword} (hop : 0x0C ≤ op.toNat ∧ op.toNat ≤ 0x0E)
    (hk : k = s.core c) (h : s.atInstr c 4) (hr : State.mulOp (op.toNat - 0x0C) (k.reg a.toNat) (k.reg b.toNat) = v) :
    s.Runs (.mulTr c (Fmt.tr op d a b)) c { k.put d.toNat v with pc := k.pc + 4 } (some 3) :=
  have L : Legal s c k (inRow 0x0C 0x0E (.w32 (Fmt.tr op d a b))) _ (some 3) :=
    ⟨inRow_tr hop, wordLenOk_tr op d a b, illWord_tr c k hop.2, by simp [State.bound, hop]⟩
  L.runs (k.put d.toNat v) hk h rfl (by
    simp [State.semWord, State.sem32, hr, hop.2, show ¬ op.toNat ≤ 7 by omega, show ¬ op.toNat ≤ 0x0B by omega])

/-! ### Moves -/

theorem runs_mov {d g : BitVec 5} (hk : k = s.core c) (h : s.atInstr c 2) :
    s.Runs (.mov c (Fmt.rr 0x01 d g)) c { k.put d.toNat (k.reg g.toNat) with pc := k.pc + 2 } (some 1) :=
  have L : Legal s c k (inRow 0x01 0x01 (.w16 (Fmt.rr 0x01 d g))) _ (some 1) :=
    ⟨inRow_rr (by decide), wordLenOk_rr, illWord_rr c k (by decide), bound_rr s c k (by decide)⟩
  L.runs (k.put d.toNat (k.reg g.toNat)) hk h rfl (by simp [State.semWord, State.sem16])

theorem runs_movi5 {d imm : BitVec 5} (hk : k = s.core c) (h : s.atInstr c 2) :
    s.Runs (.movi5 c (Fmt.rr 0x0E d imm)) c { k.put d.toNat (imm.signExtend 64) with pc := k.pc + 2 } (some 1) :=
  have L : Legal s c k (inRow 0x0E 0x0E (.w16 (Fmt.rr 0x0E d imm))) _ (some 1) :=
    ⟨inRow_rr (by decide), wordLenOk_rr, illWord_rr c k (by decide), bound_rr s c k (by decide)⟩
  L.runs (k.put d.toNat (imm.signExtend 64)) hk h rfl (by simp [State.semWord, State.sem16])

@[simp] theorem op32_li (op : BitVec 6) (d : BitVec 5) (imm : BitVec 19) : op32 (Fmt.li op d imm).toNat = op.toNat :=
  Fmt.li_op op d imm
@[simp] theorem d32_li (op : BitVec 6) (d : BitVec 5) (imm : BitVec 19) : d32 (Fmt.li op d imm).toNat = d.toNat :=
  Fmt.li_d op d imm

theorem runs_movi {d : BitVec 5} {imm : BitVec 19} (hk : k = s.core c) (h : s.atInstr c 4) :
    s.Runs (.movi c (Fmt.li 0x1C d imm)) c { k.put d.toNat (imm.signExtend 64) with pc := k.pc + 4 } (some 1) :=
  have L : Legal s c k (inRow 0x1C 0x1C (.w32 (Fmt.li 0x1C d imm))) _ (some 1) :=
    ⟨by simp [inRow, opcodeOf], by simp [wordLenOk], by simp [State.illWord, State.ill32], bound_w32 s c k (by simp)⟩
  L.runs (k.put d.toNat (imm.signExtend 64)) hk h rfl (by simp [State.semWord, State.sem32])

theorem runs_movi32 {d : BitVec 5} {imm : BitVec 32} (hk : k = s.core c) (h : s.atInstr c 6) :
    s.Runs (.movi32 c (Fmt.wi 0x00 d imm)) c { k.put d.toNat (imm.signExtend 64) with pc := k.pc + 6 } (some 1) :=
  have L : Legal s c k (inRow 0x00 0x00 (.w48 (Fmt.wi 0x00 d imm))) _ (some 1) :=
    ⟨inRow_wi (by decide), wordLenOk_wi, illWord_wi c k (by decide), bound_wi s c k (by decide)⟩
  L.runs (k.put d.toNat (imm.signExtend 64)) hk h rfl (by simp [State.semWord, State.sem48])

/-- MOVHI32's word: the immediate above the low half of the register. -/
theorem ofNat_high_low (imm : BitVec 32) (x : Dword) :
    BitVec.ofNat 64 (imm.toNat * 2 ^ 32 + x.toNat % 2 ^ 32) = imm ++ x.setWidth 32 := by
  apply BitVec.eq_of_toNat_eq
  have hlow : x.toNat % 2 ^ 32 < 2 ^ 32 := Nat.mod_lt _ (by decide)
  have himm := imm.isLt
  rw [BitVec.toNat_append, BitVec.toNat_setWidth, ← Nat.shiftLeft_add_eq_or_of_lt hlow, Nat.shiftLeft_eq,
    BitVec.toNat_ofNat, Nat.mod_eq_of_lt (by omega)]

theorem runs_movhi32 {d : BitVec 5} {imm : BitVec 32} (hk : k = s.core c) (h : s.atInstr c 6) :
    s.Runs (.movhi32 c (Fmt.wi 0x01 d imm)) c
      { k.put d.toNat (imm ++ (k.reg d.toNat).setWidth 32) with pc := k.pc + 6 } (some 1) :=
  have L : Legal s c k (inRow 0x01 0x01 (.w48 (Fmt.wi 0x01 d imm))) _ (some 1) :=
    ⟨inRow_wi (by decide), wordLenOk_wi, illWord_wi c k (by decide), bound_wi s c k (by decide)⟩
  L.runs (k.put d.toNat (imm ++ (k.reg d.toNat).setWidth 32)) hk h rfl (by
    rw [← ofNat_high_low]
    simp [State.semWord, State.sem48])

theorem runs_rdfeat {d n : BitVec 5} (hn : n.toNat < 8) (hk : k = s.core c) (h : s.atInstr c 4) :
    s.Runs (.rdfeat c (Fmt.im 0x1F d n 0)) c { k.put d.toNat (s.feat c n.toNat) with pc := k.pc + 4 } (some 1) :=
  have L : Legal s c k (inRow 0x1F 0x1F (.w32 (Fmt.im 0x1F d n 0))) _ (some 1) :=
    ⟨inRow_im (by decide), wordLenOk_im, by simp [State.illWord, State.ill32, State.when']; omega,
      bound_w32 s c k (by simp)⟩
  L.runs (k.put d.toNat (s.feat c n.toNat)) hk h rfl (by simp [State.semWord, State.sem32])

/-! ### SYS16 -/

theorem isSys_rr {d : BitVec 5} : isSys d.toNat (Fmt.rr 0 d 0) = true := by simp [isSys]

/-- NOP, FENCE and IFENCE are legal in every mode, WAIT and HALT in marshal mode (R475). -/
theorem illWord_sys {d : BitVec 5} (c : Nat) (k : Core) (hd : 1 ≤ d.toNat ∧ d.toNat ≤ 6 ∧ d.toNat ≠ 4)
    (hm : d.toNat ≤ 3 ∨ k.marshal = true) : State.illWord c k (.w16 (Fmt.rr 0 d 0)) = [] := by
  obtain ⟨h1, h2, h3⟩ := hd
  have hmode : ¬ ((d.toNat = 5 ∨ d.toNat = 6) ∧ k.marshal = false) := by
    rintro ⟨h, hf⟩
    obtain hm | hm := hm
    · omega
    · simp [hf] at hm
  simp [State.illWord, State.ill16, State.when', h3, hmode]
  omega

/-- NOP, FENCE and IFENCE: the pc alone moves on. -/
theorem runs_sysPlain {d : BitVec 5} {i : Instr} (hd : 1 ≤ d.toNat ∧ d.toNat ≤ 3) (hk : k = s.core c)
    (h : s.atInstr c 2)
    (hi : exec i s = onCore c (s.runRow c (isSys d.toNat (Fmt.rr 0 d 0)) (.w16 (Fmt.rr 0 d 0)))) :
    s.Runs i c { k with pc := k.pc + 2 } (if d.toNat = 2 then none else if d.toNat = 3 then some 8 else some 1) :=
  have L : Legal s c k _ _ (if d.toNat = 2 then none else if d.toNat = 3 then some 8 else some 1) :=
    ⟨isSys_rr, wordLenOk_rr, illWord_sys c k (by omega) (by omega),
      by simp [State.bound, show d.toNat ≠ 5 by omega]⟩
  L.runs k hk h hi (by
    simp [State.semWord, State.sem16, show d.toNat ≠ 4 by omega, show d.toNat ≠ 5 by omega,
      show d.toNat ≠ 6 by omega])

theorem runs_wait (hk : k = s.core c) (h : s.atInstr c 2) (hm : k.marshal = true) :
    s.Runs (.wait c (Fmt.rr 0 5 0)) c { k with pc := k.pc + 2, waiting := true } none :=
  have L : Legal s c k (isSys 5 (Fmt.rr 0 5 0)) _ none :=
    ⟨isSys_rr, wordLenOk_rr, illWord_sys c k (by decide) (.inr hm), by simp [State.bound]⟩
  L.runs { k with waiting := true } hk h rfl (by simp [State.semWord, State.sem16])

theorem runs_halt (hk : k = s.core c) (h : s.atInstr c 2) (hm : k.marshal = true) :
    s.Runs (.halt c (Fmt.rr 0 6 0)) c { k with pc := k.pc + 2, halted := true } (some 1) :=
  have L : Legal s c k (isSys 6 (Fmt.rr 0 6 0)) _ (some 1) :=
    ⟨isSys_rr, wordLenOk_rr, illWord_sys c k (by decide) (.inr hm), by simp [State.bound]⟩
  L.runs { k with halted := true } hk h rfl (by simp [State.semWord, State.sem16])

/-! ### Jumps to even targets (R482) -/

theorem State.jump_even {t : Dword} (ht : t.getLsbD 0 = false) (k' : Core) :
    s.jump c k' t = .ok (s.setCore c k', some t) := if_neg (by rw [ht]; exact Bool.false_ne_true)

theorem runs_jr {g : BitVec 5} {x : Dword} (hk : k = s.core c) (h : s.atInstr c 2) (hx : x = k.reg g.toNat)
    (ht : x.getLsbD 0 = false) : s.Runs (.jr c (Fmt.rr 0x11 0 g)) c { k with pc := x } (some 2) :=
  have L : Legal s c k (inRow 0x11 0x11 (.w16 (Fmt.rr 0x11 0 g))) _ (some 2) :=
    ⟨inRow_rr (by decide), wordLenOk_rr, by simp [State.illWord, State.ill16, State.when'], by simp [State.bound]⟩
  L.runsTo hk h rfl (k' := k) (target := some x) (by simp [State.semWord, State.sem16, ← hx, State.jump_even ht]) rfl

theorem runs_jalr {d g : BitVec 5} {x : Dword} (hk : k = s.core c) (h : s.atInstr c 2) (hx : x = k.reg g.toNat)
    (ht : x.getLsbD 0 = false) :
    s.Runs (.jalr c (Fmt.rr 0x12 d g)) c { k.put d.toNat (k.pc + 2) with pc := x } (some 2) :=
  have L : Legal s c k (inRow 0x12 0x12 (.w16 (Fmt.rr 0x12 d g))) _ (some 2) :=
    ⟨inRow_rr (by decide), wordLenOk_rr, illWord_rr c k (by decide), by simp [State.bound]⟩
  L.runsTo hk h rfl (k' := k.put d.toNat (k.pc + 2)) (target := some x)
    (by simp [State.semWord, State.sem16, ← hx, State.jump_even ht]) rfl

@[simp] theorem op32_jp (op : BitVec 6) (disp : BitVec 24) : op32 (Fmt.jp op disp).toNat = op.toNat :=
  Fmt.jp_op op disp
@[simp] theorem op32_br (op : BitVec 6) (cond : BitVec 4) (disp : BitVec 20) :
    op32 (Fmt.br op cond disp).toNat = op.toNat := Fmt.br_op op cond disp

theorem runs_jal {disp : BitVec 24} {x : Dword} (hk : k = s.core c) (h : s.atInstr c 4)
    (hx : x = k.pc + disp.signExtend 64 * 2) (ht : x.getLsbD 0 = false) :
    s.Runs (.jal c (Fmt.jp 0x32 disp)) c { k.put 30 (k.pc + 4) with pc := x } (some 2) :=
  have L : Legal s c k (inRow 0x32 0x32 (.w32 (Fmt.jp 0x32 disp))) (.w32 (Fmt.jp 0x32 disp)) (some 2) :=
    ⟨by simp [inRow, opcodeOf], by simp [wordLenOk], by simp [State.illWord, State.ill32], by simp [State.bound]⟩
  L.runsTo hk h rfl (k' := k.put 30 (k.pc + 4)) (target := some x)
    (by subst hx; simpa [State.semWord, State.sem32] using State.jump_even ht (k.put 30 (k.pc + 4))) rfl

/-- A branch whose condition code is not 15 is legal; it is charged two cycles where it is taken (R478, R484). -/
theorem legal_branch (s : State) (c : Nat) (k : Core) {cond : BitVec 4} (hcond : cond ≠ 15) (disp : BitVec 20) :
    Legal s c k (inRow 0x31 0x31 (.w32 (Fmt.br 0x31 cond disp))) (.w32 (Fmt.br 0x31 cond disp))
      (some (if condHolds k.flg cond.toNat then 2 else 1)) := by
  have hcode : cond.toNat ≠ 15 := fun e => hcond (BitVec.eq_of_toNat_eq e)
  exact ⟨by simp [inRow, opcodeOf], by simp [wordLenOk], by simp [State.illWord, State.ill32, State.when', hcode],
    by simp [State.bound]⟩

theorem runs_branch {cond : BitVec 4} {disp : BitVec 20} {x : Dword} (hcond : cond ≠ 15) (hk : k = s.core c)
    (h : s.atInstr c 4) (hx : x = k.pc + disp.signExtend 64 * 2) (ht : x.getLsbD 0 = false) :
    s.Runs (.b c (Fmt.br 0x31 cond disp)) c
      { k with pc := if condHolds k.flg cond.toNat then x else k.pc + 4 }
      (some (if condHolds k.flg cond.toNat then 2 else 1)) := by
  have L := legal_branch s c k hcond disp
  cases hholds : condHolds k.flg cond.toNat with
  | true =>
    rw [hholds] at L
    exact L.runsTo hk h rfl (k' := k) (target := some x)
      (by subst hx; simpa [State.semWord, State.sem32, hholds] using State.jump_even ht k) rfl
  | false =>
    rw [hholds] at L
    exact L.runs k hk h rfl (by simp [State.semWord, State.sem32, hholds])

end Groups

end Sys2Proof.Machine

/-! Proofs of the statements on products, on the unary operations and on jumps, and on the byte operations (R475 to
R478, R480, R528 to R530). -/

namespace Sys2Proof.Machine

/-! ### The unary operations' values -/

theorem sext_low (w : Nat) (x : Dword) : sext w (x.toNat % 2 ^ w) = (x.setWidth w).signExtend 64 := by
  have hlow : BitVec.ofNat w (x.toNat % 2 ^ w) = x.setWidth w := by
    apply BitVec.eq_of_toNat_eq
    simp
  rw [sext, hlow]

theorem zext_low (w : Nat) (x : Dword) : zext w x.toNat = (x.setWidth w).setWidth 64 := by
  apply BitVec.eq_of_toNat_eq
  simp [zext]

/-- A register all of whose bits from `63 - m + 1` to 63 are clear is below the power of two of the rest. -/
theorem lt_two_pow_of_top_clear {x : Dword} {m : Nat} (hm : m ≤ 64) (h : ∀ i, i < m → x.getLsbD (63 - i) = false) :
    x.toNat < 2 ^ (64 - m) := by
  apply Nat.lt_pow_two_of_testBit
  intro j hj
  by_cases h64 : j < 64
  · have := h (63 - j) (by omega)
    rwa [show 63 - (63 - j) = j by omega] at this
  · exact Nat.testBit_lt_two_pow (Nat.lt_of_lt_of_le x.isLt (Nat.pow_le_pow_right (by decide) (by omega)))

/-- CLZ is the number of leading zeros: the bits above are clear, and the bit at it is set where it is below 64. -/
theorem clz_spec (x : Dword) :
    State.clz x ≤ 64 ∧ x.toNat < 2 ^ (64 - State.clz x) ∧ (State.clz x < 64 → 2 ^ (63 - State.clz x) ≤ x.toNat) := by
  unfold State.clz
  cases hfind : (List.range 64).find? (fun i => x.getLsbD (63 - i)) with
  | none =>
    refine ⟨Nat.le_refl _, lt_two_pow_of_top_clear (Nat.le_refl _) fun i hi => ?_, fun h => absurd h (by simp)⟩
    simpa using List.find?_eq_none.1 hfind i (List.mem_range.2 hi)
  | some n =>
    have hn : n < 64 := List.mem_range.1 (List.mem_of_find?_eq_some hfind)
    have hset : x.getLsbD (63 - n) = true := List.find?_some (p := fun i => x.getLsbD (63 - i)) hfind
    have hclear : ∀ i, i < n → x.getLsbD (63 - i) = false := fun i hi => by
      simpa using (List.find?_range_eq_some.1 hfind).2.2 i hi
    exact ⟨Nat.le_of_lt hn, lt_two_pow_of_top_clear (Nat.le_of_lt hn) hclear, fun _ => Nat.ge_two_pow_of_testBit hset⟩

/-- POPC is the number of set bits. -/
theorem popc_eq_sum (x : Dword) :
    State.popc x = ((List.range 64).map (fun j => if x.getLsbD j then 1 else 0)).sum := by
  rw [State.popc, ← List.countP_eq_length_filter]
  induction List.range 64 with
  | nil => rfl
  | cons i l ih =>
    rw [List.countP_cons, List.map_cons, List.sum_cons, ih, Nat.add_comm]

/-! ### Strings of bytes as numbers -/

theorem leNat_lt (bs : Bytes) : leNat bs < 256 ^ bs.length := by
  induction bs with
  | nil => exact Nat.one_pos
  | cons b t ih =>
    have hb := b.isLt
    rw [leNat, List.length_cons, Nat.pow_succ]
    omega

@[simp] theorem leBytes_length (w n : Nat) : (leBytes w n).length = w := by
  induction w generalizing n with
  | zero => rfl
  | succ w ih => rw [leBytes, List.length_cons, ih]

/-- The bytes of the number that a string of bytes spells are that string. -/
theorem leBytes_leNat (bs : Bytes) : leBytes bs.length (leNat bs) = bs := by
  induction bs with
  | nil => rfl
  | cons b t ih =>
    have hlow : BitVec.ofNat 8 (b.toNat + 256 * leNat t) = b := by
      apply BitVec.eq_of_toNat_eq
      simp [Nat.mod_eq_of_lt b.isLt]
    have hb := b.isLt
    have hhigh : (b.toNat + 256 * leNat t) / 256 = leNat t := by omega
    rw [List.length_cons, leNat, leBytes, hlow, hhigh, ih]

theorem beNat_eq_leNat_reverse (bs : Bytes) : beNat bs = leNat bs.reverse := by
  have h : ∀ l : Bytes, leNat l = l.foldr (fun b a => 256 * a + b.toNat) 0 := by
    intro l
    induction l with
    | nil => rfl
    | cons b t ih => rw [leNat, ih, List.foldr_cons, Nat.add_comm]
  rw [h, List.foldr_reverse]
  rfl

/-- BSWAP reverses the register's bytes. -/
theorem leBytes_bswap (x : Dword) : leBytes 8 (State.bswap x).toNat = (leBytes 8 x.toNat).reverse := by
  have hlen : (leBytes 8 x.toNat).reverse.length = 8 := by simp
  have hlt : leNat (leBytes 8 x.toNat).reverse < 2 ^ 64 := by
    have := leNat_lt (leBytes 8 x.toNat).reverse
    rwa [hlen] at this
  rw [State.bswap, beNat_eq_leNat_reverse, BitVec.toNat_ofNat, Nat.mod_eq_of_lt hlt]
  have hback := leBytes_leNat (leBytes 8 x.toNat).reverse
  rwa [hlen] at hback

/-! ### The statements on products, unary operations and jumps -/

/-- Settles O14: each product is `State.mulOp` at its place. -/
theorem products : Obligations.Products := by
  refine ⟨?_, ?_, ?_, ?_⟩
  · intro s c k d g hk h
    exact runs_mulRr hk h
  · intro s c k d a b hk h
    exact runs_mulTr (by decide) hk h rfl
  · intro s c k d a b hk h
    exact runs_mulTr (by decide) hk h rfl
  · intro s c k d a b hk h
    exact runs_mulTr (by decide) hk h rfl

/-- Settles O15: each operation's value, and FLG as it was. -/
theorem unaryOperations : Obligations.UnaryOperations := by
  refine ⟨?_, ?_, ?_, ?_, ?_, ?_, ?_, ?_, ?_⟩
  · intro s c k d hk h
    exact runs_unary (by decide) hk h (congrArg (·, k.flg) (sext_low 8 _))
  · intro s c k d hk h
    exact runs_unary (by decide) hk h (congrArg (·, k.flg) (sext_low 16 _))
  · intro s c k d hk h
    exact runs_unary (by decide) hk h (congrArg (·, k.flg) (sext_low 32 _))
  · intro s c k d hk h
    exact runs_unary (by decide) hk h (congrArg (·, k.flg) (zext_low 8 _))
  · intro s c k d hk h
    exact runs_unary (by decide) hk h (congrArg (·, k.flg) (zext_low 16 _))
  · intro s c k d hk h
    exact runs_unary (by decide) hk h (congrArg (·, k.flg) (zext_low 32 _))
  · intro s c k d hk h
    obtain ⟨hle, hlt, hge⟩ := clz_spec (k.reg d.toNat)
    obtain ⟨t, he, hran⟩ := runs_unary (g := 8) (by decide) hk h rfl
    exact ⟨t, State.clz (k.reg d.toNat), he, hle, hlt, hge, hran⟩
  · intro s c k d hk h
    exact runs_unary (by decide) hk h (congrArg (BitVec.ofNat 64 ·, k.flg) (popc_eq_sum _))
  · intro s c k d hk h
    exact State.Runs.holding (runs_unary (by decide) hk h rfl) (leBytes_bswap _)

/-- Settles O18: each jump goes to its target, and a branch where its condition holds. -/
theorem jumpsAndBranches : Obligations.JumpsAndBranches := by
  refine ⟨?_, ?_, ?_, ?_⟩
  · intro s c k g x hk h hx ht
    exact runs_jr hk h hx ht
  · intro s c k d g x hk h hx ht
    exact runs_jalr hk h hx ht
  · intro s c k disp x hk h hx ht
    exact runs_jal hk h hx ht
  · rintro s c k p disp x cy v z n hk h rfl rfl rfl rfl hp hx ht
    have hcond : p.1 ≠ 15 ∧ condHolds k.flg p.1.toNat = p.2 := by
      simp only [List.mem_cons, List.not_mem_nil, or_false] at hp
      rcases hp with rfl | rfl | rfl | rfl | rfl | rfl | rfl | rfl | rfl | rfl | rfl | rfl | rfl | rfl | rfl
      all_goals exact ⟨by dsimp only; decide, rfl⟩
    obtain ⟨hcode, hholds⟩ := hcond
    exact hholds ▸ runs_branch hcode hk h hx ht

end Sys2Proof.Machine

/-! Proofs of the statement on byte arithmetic and decimal adjust (R480, R528 to R530). -/

namespace Sys2Proof.Machine

/-! ### The byte operations' FLG, bit by bit -/

theorem beq_zero_decide8 (r : BitVec 8) : (r == 0) = decide (r = 0) := by
  rw [Bool.eq_iff_iff, beq_iff_eq, decide_eq_true_eq]

/-- A byte differs from an exact result that is congruent to it where the result leaves the signed range. -/
theorem toInt8_ne_iff (r : BitVec 8) (z : Int) (h : (r.toInt - z) % 256 = 0) (h1 : -256 ≤ z) (h2 : z ≤ 256) :
    r.toInt ≠ z ↔ (z < -128 ∨ 128 ≤ z) := by
  have hlt := BitVec.toInt_lt (x := r)
  have hle := BitVec.le_toInt (x := r)
  simp at hlt hle
  omega

theorem toInt8_bounds (x : BitVec 8) : -128 ≤ x.toInt ∧ x.toInt < 128 := by
  have hlt := BitVec.toInt_lt (x := x)
  have hle := BitVec.le_toInt (x := x)
  simp at hlt hle
  exact ⟨hle, hlt⟩

/-- FLG after a byte sum or difference `r`: carry `cy`, signed overflow `v`, half carry `hc`. -/
def FlgByte (f f' : Dword) (r : BitVec 8) (cy v hc : Bool) : Prop :=
  f'.getLsbD 0 = cy ∧ f'.getLsbD 1 = v ∧ f'.getLsbD 2 = decide (r = 0) ∧ f'.getLsbD 3 = r.msb ∧ f'.getLsbD 4 = hc ∧
  ∀ j, 5 ≤ j → f'.getLsbD j = f.getLsbD j

theorem putFlags_byte (f : Dword) (r : BitVec 8) (cy v hc : Bool) :
    FlgByte f (putFlag (putFlag (putFlag (flagsNZ8 f r) flC cy) flV v) flH hc) r cy v hc := by
  unfold FlgByte flagsNZ8 flC flV flH flZ flN
  refine ⟨?_, ?_, ?_, ?_, ?_, fun j hj => ?_⟩
  all_goals simp (disch := omega) only [putFlag_same, putFlag_other, beq_zero_decide8]

theorem addByte_spec (f : Dword) (a b : BitVec 8) :
    FlgByte f (addByte f a b).2 (a + b) (decide (256 ≤ a.toNat + b.toNat))
      (decide (a.toInt + b.toInt < -128 ∨ 128 ≤ a.toInt + b.toInt)) (decide (16 ≤ a.toNat % 16 + b.toNat % 16)) := by
  have ha := toInt8_bounds a
  have hb := toInt8_bounds b
  have hv : ((a + b).toInt ≠ a.toInt + b.toInt) ↔ (a.toInt + b.toInt < -128 ∨ 128 ≤ a.toInt + b.toInt) := by
    refine toInt8_ne_iff _ _ ?_ (by omega) (by omega)
    rw [BitVec.toInt_add, Int.bmod_def]
    omega
  rw [← decide_eq_decide.2 hv]
  exact putFlags_byte f (a + b) _ _ _

theorem subByte_spec (f : Dword) (a b : BitVec 8) :
    FlgByte f (subByte f a b).2 (a - b) (decide (b.toNat ≤ a.toNat))
      (decide (a.toInt - b.toInt < -128 ∨ 128 ≤ a.toInt - b.toInt)) (decide (b.toNat % 16 ≤ a.toNat % 16)) := by
  have ha := toInt8_bounds a
  have hb := toInt8_bounds b
  have hv : ((a - b).toInt ≠ a.toInt - b.toInt) ↔ (a.toInt - b.toInt < -128 ∨ 128 ≤ a.toInt - b.toInt) := by
    refine toInt8_ne_iff _ _ ?_ (by omega) (by omega)
    rw [BitVec.toInt_sub, Int.bmod_def]
    omega
  rw [← decide_eq_decide.2 hv]
  exact putFlags_byte f (a - b) _ _ _

/-- FLG after an adjustment to `r` with carry `cy`: V is kept and H cleared (R530). -/
def FlgAdjust (f f' : Dword) (r : BitVec 8) (cy : Bool) : Prop :=
  f'.getLsbD 0 = cy ∧ f'.getLsbD 2 = decide (r = 0) ∧ f'.getLsbD 3 = r.msb ∧ f'.getLsbD 4 = false ∧
  ∀ j, j = 1 ∨ 5 ≤ j → f'.getLsbD j = f.getLsbD j

theorem putFlags_adjust (f : Dword) (r : BitVec 8) (cy : Bool) :
    FlgAdjust f (putFlag (putFlag (flagsNZ8 f r) flC cy) flH false) r cy := by
  unfold FlgAdjust flagsNZ8 flC flH flZ flN
  refine ⟨?_, ?_, ?_, ?_, fun j hj => ?_⟩
  all_goals simp (disch := omega) only [putFlag_same, putFlag_other, beq_zero_decide8]

/-! ### The adjusted bytes (R528, R529) -/

theorem ofNat8_congr {m n : Nat} (h : m % 256 = n % 256) : BitVec.ofNat 8 m = BitVec.ofNat 8 n := by
  apply BitVec.eq_of_toNat_eq
  simpa using h

/-- DAA.B adds 6 where the low digit needs it, and then 0x60 where the byte or the carry does. -/
theorem daaByte_eq (f : Dword) (a : BitVec 8) {n : Nat} {up : Bool}
    (hn : n = a.toNat + (if f.getLsbD 4 || decide (9 < a.toNat % 16) then 6 else 0))
    (hup : up = (f.getLsbD 0 || decide (160 ≤ n))) :
    daaByte f a = (BitVec.ofNat 8 (n + (if up then 96 else 0)),
      putFlag (putFlag (flagsNZ8 f (BitVec.ofNat 8 (n + (if up then 96 else 0)))) flC up) flH false) := by
  obtain ⟨lo1, hlo1⟩ : ∃ m, m = if flagOf f flH || decide (9 < a.toNat % 16) then a.toNat % 16 + 6 else a.toNat % 16 :=
    ⟨_, rfl⟩
  have hsum : n = a.toNat / 16 * 16 + lo1 := by
    rw [hn, hlo1]
    unfold flagOf flH
    split <;> omega
  have hcarry : (flagOf f flC || decide (9 < a.toNat / 16 + lo1 / 16)) = up := by
    rw [hup, flagOf, flC]
    congr 1
    exact decide_eq_decide.2 (by omega)
  have hbyte : BitVec.ofNat 8 ((if up then a.toNat / 16 + lo1 / 16 + 6 else a.toNat / 16 + lo1 / 16) % 16 * 16 +
      lo1 % 16) = BitVec.ofNat 8 (n + (if up then 96 else 0)) := by
    apply ofNat8_congr
    split <;> omega
  unfold daaByte
  simp only [← hlo1, hcarry, hbyte]

/-- DAS.B adds 10 to each digit that needs it, without a carry between them. -/
theorem dasByte_eq (f : Dword) (a : BitVec 8) {up : Bool} {r : BitVec 8}
    (hup : up = (f.getLsbD 0 && decide (a.toNat < 160)))
    (hr : r = BitVec.ofNat 8 ((a.toNat / 16 + (if up then 0 else 10)) % 16 * 16 +
      (a.toNat + (if f.getLsbD 4 && decide (a.toNat % 16 ≤ 9) then 0 else 10)) % 16)) :
    dasByte f a = (r, putFlag (putFlag (flagsNZ8 f r) flC up) flH false) := by
  have ha := a.isLt
  have hcarry : (!flagOf f flC || decide (9 < a.toNat / 16)) = !up := by
    rw [hup, flagOf, flC, Bool.not_and, ← decide_not]
    congr 1
    exact decide_eq_decide.2 (by omega)
  have hlow : (if !flagOf f flH || decide (9 < a.toNat % 16) then (a.toNat % 16 + 10) % 16 else a.toNat % 16) =
      (a.toNat + (if f.getLsbD 4 && decide (a.toNat % 16 ≤ 9) then 0 else 10)) % 16 := by
    have hdigit : decide (9 < a.toNat % 16) = !decide (a.toNat % 16 ≤ 9) := by
      rw [← decide_not]
      exact decide_eq_decide.2 (by omega)
    rw [hdigit, flagOf, flH]
    cases f.getLsbD 4 <;> cases decide (a.toNat % 16 ≤ 9) <;> simp
  have hhigh : (if !up then (a.toNat / 16 + 10) % 16 else a.toNat / 16) =
      (a.toNat / 16 + (if up then 0 else 10)) % 16 := by
    cases up <;> simp
    omega
  unfold dasByte
  simp only [hcarry, hlow, hhigh, ← hr, Bool.not_not]

/-! ### The byte operations run -/

/-- A register with its low byte replaced. -/
def withLowByte (a : Dword) (r : BitVec 8) : Dword := BitVec.ofNat 64 (a.toNat / 256 * 256 + r.toNat)

theorem withLowByte_spec (a : Dword) (r : BitVec 8) :
    (withLowByte a r).setWidth 8 = r ∧ withLowByte a r >>> 8 = a >>> 8 := by
  have ha := a.isLt
  have hr := r.isLt
  unfold withLowByte
  constructor
  · apply BitVec.eq_of_toNat_eq
    simp
    omega
  · apply BitVec.eq_of_toNat_eq
    simp [Nat.shiftRight_eq_div_pow]
    omega

section Groups
variable {s : State} {c : Nat} {k : Core} {r : BitVec 8} {f : Dword}

theorem runs_addBSubB {op d g : BitVec 5} (hop : op = 0x13 ∨ op = 0x14) (hk : k = s.core c) (h : s.atInstr c 2)
    (hr : (if op = 0x13 then addByte k.flg ((k.reg d.toNat).setWidth 8) ((k.reg g.toNat).setWidth 8)
      else subByte k.flg ((k.reg d.toNat).setWidth 8) ((k.reg g.toNat).setWidth 8)) = (r, f)) :
    s.Runs (.addBSubB c (Fmt.rr op d g)) c
      { k.put d.toNat (withLowByte (k.reg d.toNat) r) with flg := f, pc := k.pc + 2 } (some 1) := by
  have hrange : 0x13 ≤ op.toNat ∧ op.toNat ≤ 0x14 := by rcases hop with rfl | rfl <;> decide
  have L : Legal s c k (inRow 0x13 0x14 (.w16 (Fmt.rr op d g))) (.w16 (Fmt.rr op d g)) (some 1) :=
    ⟨inRow_rr hrange, wordLenOk_rr, illWord_rr c k (by omega), bound_rr s c k (by simp; omega)⟩
  have hsem : s.semWord State.coreBus c k (.w16 (Fmt.rr op d g)) =
      s.done c ({ k with flg := f }.put d.toNat (withLowByte (k.reg d.toNat) r)) := by
    rcases hop with rfl | rfl
    all_goals
      simp only [if_true, show (0x14 : BitVec 5) ≠ 0x13 by decide, if_false] at hr
      simp [State.semWord, State.sem16, BitVec.ofNat_toNat, hr, withLowByte]
  exact L.runs _ hk h rfl hsem

theorem runs_daaB {d : BitVec 5} (hk : k = s.core c) (h : s.atInstr c 2)
    (hr : daaByte k.flg ((k.reg d.toNat).setWidth 8) = (r, f)) :
    s.Runs (.daaB c (Fmt.rr 0x15 d 0)) c
      { k.put d.toNat (withLowByte (k.reg d.toNat) r) with flg := f, pc := k.pc + 2 } (some 1) :=
  have L : Legal s c k (inRow 0x15 0x15 (.w16 (Fmt.rr 0x15 d 0))) _ (some 1) :=
    ⟨inRow_rr (by decide), wordLenOk_rr, by simp [State.illWord, State.ill16, State.when'], bound_rr s c k (by decide)⟩
  L.runs ({ k with flg := f }.put d.toNat (withLowByte (k.reg d.toNat) r)) hk h rfl
    (by simp [State.semWord, State.sem16, BitVec.ofNat_toNat, hr, withLowByte])

theorem runs_dasB {d : BitVec 5} (hk : k = s.core c) (h : s.atInstr c 2)
    (hr : dasByte k.flg ((k.reg d.toNat).setWidth 8) = (r, f)) :
    s.Runs (.dasB c (Fmt.rr 0x16 d 0)) c
      { k.put d.toNat (withLowByte (k.reg d.toNat) r) with flg := f, pc := k.pc + 2 } (some 1) :=
  have L : Legal s c k (inRow 0x16 0x16 (.w16 (Fmt.rr 0x16 d 0))) _ (some 1) :=
    ⟨inRow_rr (by decide), wordLenOk_rr, by simp [State.illWord, State.ill16, State.when'], bound_rr s c k (by decide)⟩
  L.runs ({ k with flg := f }.put d.toNat (withLowByte (k.reg d.toNat) r)) hk h rfl
    (by simp [State.semWord, State.sem16, BitVec.ofNat_toNat, hr, withLowByte])

end Groups

/-- Settles O17: the byte's value replaces the register's low byte, and FLG is as the byte operation leaves it. -/
theorem byteArithmeticAndAdjust : Obligations.ByteArithmeticAndAdjust := by
  refine ⟨?_, ?_, ?_, ?_⟩
  · rintro s c k d g a b hk h rfl rfl
    obtain ⟨t, he, hran⟩ := runs_addBSubB (op := 0x13) (d := d) (g := g) (.inl rfl) hk h rfl
    obtain ⟨hlow, hhigh⟩ := withLowByte_spec (k.reg d.toNat) ((k.reg d.toNat).setWidth 8 + (k.reg g.toNat).setWidth 8)
    obtain ⟨hc, hv, hz, hn, hh, hrest⟩ := addByte_spec k.flg ((k.reg d.toNat).setWidth 8) ((k.reg g.toNat).setWidth 8)
    exact ⟨t, _, _, he, hlow, hhigh, hc, hv, hz, hn, hh, hrest, hran⟩
  · rintro s c k d g a b hk h rfl rfl
    obtain ⟨t, he, hran⟩ := runs_addBSubB (op := 0x14) (d := d) (g := g) (.inr rfl) hk h rfl
    obtain ⟨hlow, hhigh⟩ := withLowByte_spec (k.reg d.toNat) ((k.reg d.toNat).setWidth 8 - (k.reg g.toNat).setWidth 8)
    obtain ⟨hc, hv, hz, hn, hh, hrest⟩ := subByte_spec k.flg ((k.reg d.toNat).setWidth 8) ((k.reg g.toNat).setWidth 8)
    exact ⟨t, _, _, he, hlow, hhigh, hc, hv, hz, hn, hh, hrest, hran⟩
  · rintro s c k d a r up hk h rfl hup rfl
    obtain ⟨t, he, hran⟩ := runs_daaB hk h (daaByte_eq k.flg _ rfl hup)
    obtain ⟨hlow, hhigh⟩ := withLowByte_spec (k.reg d.toNat) (BitVec.ofNat 8 _)
    obtain ⟨hc, hz, hn, hh, hrest⟩ := putFlags_adjust k.flg (BitVec.ofNat 8 _) up
    exact ⟨t, _, _, he, hlow, hhigh, hc, hz, hn, hh, hrest, hran⟩
  · rintro s c k d a r up hk h rfl hup hr
    obtain ⟨t, he, hran⟩ := runs_dasB hk h (dasByte_eq k.flg _ hup hr)
    obtain ⟨hlow, hhigh⟩ := withLowByte_spec (k.reg d.toNat) r
    obtain ⟨hc, hz, hn, hh, hrest⟩ := putFlags_adjust k.flg r up
    exact ⟨t, _, _, he, hlow, hhigh, hc, hz, hn, hh, hrest, hran⟩

end Sys2Proof.Machine

/-! Proofs of the statement on the system instructions (R443 to R450, R459, R462, R475). -/

namespace Sys2Proof.Machine

section Groups
variable {s : State} {c : Nat} {k : Core}

/-- RDSR gives a listed register that the mode may read (R443). -/
theorem runs_rdsr {d n : BitVec 5} (hlisted : State.srListed n.toNat = true) (hmode : n.toNat < 8 ∨ k.marshal = true)
    (hk : k = s.core c) (h : s.atInstr c 4) :
    s.Runs (.rdsr c (Fmt.im 0x1D d n 0)) c { k.put d.toNat (s.srRead c k n.toNat) with pc := k.pc + 4 } (some 1) :=
  have hmarshal : ¬ (8 ≤ n.toNat ∧ k.marshal = false) := by
    rintro ⟨h8, hm⟩
    obtain hlt | ht := hmode
    · omega
    · simp [hm] at ht
  have L : Legal s c k (inRow 0x1D 0x1D (.w32 (Fmt.im 0x1D d n 0))) _ (some 1) :=
    ⟨inRow_im (by decide), wordLenOk_im,
      by simp [State.illWord, State.ill32, State.when', State.illSr, State.srMarshal, hlisted, hmarshal],
      bound_w32 s c k (by simp)⟩
  L.runs (k.put d.toNat (s.srRead c k n.toNat)) hk h rfl (by simp [State.semWord, State.sem32])

/-- WRSR writes a listed register that the mode may write, with a value that sets nothing reserved (R443, R447). -/
theorem runs_wrsr {n a : BitVec 5} (hlisted : State.srListed n.toNat = true) (hmode : n.toNat < 8 ∨ k.marshal = true)
    (hvalue : State.srValueBad n.toNat (k.reg a.toNat).toNat = false) (hwrite : State.srReadOnly k n.toNat = false)
    (hk : k = s.core c) (h : s.atInstr c 4) :
    s.Runs (.wrsr c (Fmt.im 0x1E n a 0)) c { State.srWrite k n.toNat (k.reg a.toNat) with pc := k.pc + 4 } (some 1) :=
  have hmarshal : ¬ (8 ≤ n.toNat ∧ k.marshal = false) := by
    rintro ⟨h8, hm⟩
    obtain hlt | ht := hmode
    · omega
    · simp [hm] at ht
  have L : Legal s c k (inRow 0x1E 0x1E (.w32 (Fmt.im 0x1E n a 0))) _ (some 1) :=
    ⟨inRow_im (by decide), wordLenOk_im,
      by simp [State.illWord, State.ill32, State.when', State.illSr, State.srMarshal, hlisted, hmarshal, hvalue, hwrite],
      bound_w32 s c k (by simp)⟩
  L.runs (State.srWrite k n.toNat (k.reg a.toNat)) hk h rfl (by simp [State.semWord, State.sem32])

end Groups

/-- Each special register that the mode may read is listed, and reads as R443 says. -/
theorem srRead_of_listed {s : State} {c : Nat} {k : Core} {p : BitVec 5 × Dword}
    (hp : p ∈ [((0 : BitVec 5), k.flg), (1, k.dcx), (2, k.cyc), (3, BitVec.ofNat 64 s.stride), (4, BitVec.ofNat 64 c),
        (8, BitVec.ofNat 64 ((if k.exl then 4 else 0) + (if k.pmode then 2 else 0) + 1)), (9, k.epc), (10, k.ecause),
        (11, k.eaddr), (12, k.mvec), (13, k.hbase), (14, k.hsize), (15, k.hbanks), (16, k.scratch.getD 0 0),
        (17, k.scratch.getD 1 0), (18, k.scratch.getD 2 0), (19, k.scratch.getD 3 0)]) :
    State.srListed p.1.toNat = true ∧ s.srRead c k p.1.toNat = p.2 := by
  simp only [List.mem_cons, List.not_mem_nil, or_false] at hp
  rcases hp with rfl | rfl | rfl | rfl | rfl | rfl | rfl | rfl | rfl | rfl | rfl | rfl | rfl | rfl | rfl | rfl | rfl
  all_goals exact ⟨rfl, rfl⟩

/-- Each special register that the mode may write, with a value that it takes, is written as R443 says. -/
theorem srWrite_of_allowed {k : Core} {x : Dword} {v : Nat} {p : BitVec 5 × Bool × Core} (hv : v = x.toNat)
    (hp : p ∈ [((0 : BitVec 5), decide (v < 64), { k with flg := x }),
        (1, decide (v < 512) && decide (natBits v 7 3 = 0) && decide (natBits v 2 0 ≤ 4), { k with dcx := x }),
        (2, k.marshal, { k with cyc := x }),
        (8, k.marshal && decide (v < 8), { k with exl := x.getLsbD 2, pmode := x.getLsbD 1 }),
        (9, k.marshal && decide (v % 2 = 0), { k with epc := x }), (10, k.marshal && decide (v < 65536), { k with ecause := x }),
        (11, k.marshal, { k with eaddr := x }), (12, k.marshal && decide (v % 512 = 0), { k with mvec := x }),
        (13, k.marshal && decide (v < 2 ^ 37) && decide (v % 2 ^ 20 = 0), { k with hbase := x }),
        (14, k.marshal && decide (v ≤ 131072 * 2 ^ 20) && decide (v % 2 ^ 20 = 0), { k with hsize := x }),
        (15, k.marshal && decide (v < 256), { k with hbanks := x }),
        (16, k.marshal, { k with scratch := setReg k.scratch 0 x }), (17, k.marshal, { k with scratch := setReg k.scratch 1 x }),
        (18, k.marshal, { k with scratch := setReg k.scratch 2 x }), (19, k.marshal, { k with scratch := setReg k.scratch 3 x })])
    (hok : p.2.1 = true) :
    State.srListed p.1.toNat = true ∧ (p.1.toNat < 8 ∨ k.marshal = true) ∧
      State.srValueBad p.1.toNat x.toNat = false ∧ State.srReadOnly k p.1.toNat = false ∧
      State.srWrite k p.1.toNat x = p.2.2 := by
  subst hv
  simp only [List.mem_cons, List.not_mem_nil, or_false] at hp
  rcases hp with rfl | rfl | rfl | rfl | rfl | rfl | rfl | rfl | rfl | rfl | rfl | rfl | rfl | rfl | rfl
  all_goals
    simp only [Bool.and_eq_true, decide_eq_true_eq] at hok
    refine ⟨rfl, ?_, ?_, ?_, rfl⟩
    · simp [hok]
    · simp [State.srValueBad] <;> omega
    · simp [State.srReadOnly, hok]

/-- Settles O19: what a special register gives and takes is the table of R443 and R447. -/
theorem systemInstructions : Obligations.SystemInstructions := by
  refine ⟨?_, ?_, ?_, ?_, ?_, ?_⟩
  · intro s c k hk h
    exact runs_sysPlain (d := 2) (by decide) hk h rfl
  · intro s c k hk h
    exact runs_sysPlain (d := 3) (by decide) hk h rfl
  · intro s c k hk h hm
    exact runs_wait hk h hm
  · intro s c k hk h hm
    exact runs_halt hk h hm
  · intro s c k d p hk h hp hmode
    obtain ⟨hlisted, hread⟩ := srRead_of_listed (s := s) (c := c) hp
    exact hread ▸ runs_rdsr hlisted hmode hk h
  · rintro s c v k a x p hk h rfl hv hp hok
    obtain ⟨hlisted, hmode, hvalue, hwrite, hcore⟩ := srWrite_of_allowed hv hp hok
    exact hcore ▸ runs_wrsr hlisted hmode hvalue hwrite hk h

end Sys2Proof.Machine

/-! Memory operands: their words, their addresses, and the loads, stores and atomics that use them (R455 to R460, R468
to R474). -/

namespace Sys2Proof.Machine

/-! ### An instruction that runs on a state its memory access has changed -/

/-- A legal instruction whose group answers core `k'` on a state `u` runs: `u` with the core charged is next. -/
theorem Legal.next {s u : State} {c : Nat} {k k' : Core} {own : Bool} {w : RepWord} {b : Option Nat} {i : Instr}
    (L : Legal s c k own w b) (hk : k = s.core c)
    (h : s.atInstr c (State.wordLen w)) (hexec : exec i s = onCore c (s.runRow c own w))
    (hsem : s.semWord State.coreBus c k w = .ok (u.setCore c k', none)) :
    ∃ n : Nat, 1 ≤ n ∧ (∀ x, b = some x → n ≤ max 1 x) ∧ exec i s = .next { u.setCore c
      (State.spend { k' with pc := k.pc + BitVec.ofNat 64 (State.wordLen w) } (!k.marshal) n) with free := u.free + 1 } := by
  subst hk
  refine ⟨(u.setCore c { k' with pc := (s.core c).pc + BitVec.ofNat 64 (State.wordLen w) }).cyclesOf b,
    State.cyclesOf_pos _ _, fun x hx => hx ▸ State.cyclesOf_le _ x, ?_⟩
  rw [hexec, onCore_of (State.coreRuns_lt h.1)]
  unfold State.runRow State.runWord
  rw [L.row, L.len, Bool.true_or, Bool.and_true, if_pos rfl, State.atBoundary_of h, L.ill]
  simp only [List.min?_nil, hsem, L.bound, Option.getD_none, State.charge, State.modCore, State.core_setCore,
    State.setCore_setCore]
  rfl

/-- The same where `u` differs from `s` in no core: then the instruction runs as if on `u`. -/
theorem Legal.runsOn {s u : State} {c : Nat} {k k' : Core} {own : Bool} {w : RepWord} {b : Option Nat} {i : Instr}
    (L : Legal s c k own w b) (hk : k = s.core c)
    (h : s.atInstr c (State.wordLen w)) (hexec : exec i s = onCore c (s.runRow c own w))
    (hsem : s.semWord State.coreBus c k w = .ok (u.setCore c k', none)) (hu : u.core c = k) :
    ∃ t, exec i s = .next t ∧ u.ran t c { k' with pc := k.pc + BitVec.ofNat 64 (State.wordLen w) } b := by
  obtain ⟨n, hpos, hmax, hnext⟩ := L.next hk h hexec hsem
  exact ⟨_, hnext, n, hpos, hmax, by rw [hu]⟩

/-! ### Addressing modes (R468) -/

section Modes
variable {mmOp mdOp : BitVec 6} {d b : BitVec 5} {m : Addressing}

/-- The operand that mode `m` names. -/
def Addressing.ea (m : Addressing) (k : Core) (b : BitVec 5) (size : Nat) : Ea :=
  { addr := m.addr k b size,
    update := match m with
      | .postInc => some (b.toNat, k.reg b.toNat + BitVec.ofNat 64 size)
      | .preDec => some (b.toNat, k.reg b.toNat - BitVec.ofNat 64 size)
      | _ => none }

@[simp] theorem Addressing.ea_addr (m : Addressing) (k : Core) (b : BitVec 5) (size : Nat) :
    (m.ea k b size).addr = m.addr k b size := rfl

/-- The number of an opcode that stands `j` after another, where it does not pass the six bits. -/
theorem opcode_add {x : BitVec 6} {j : Nat} (h : x.toNat + j < 64) : (x + BitVec.ofNat 6 j).toNat = x.toNat + j := by
  rw [BitVec.toNat_add, BitVec.toNat_ofNat, Nat.mod_eq_of_lt (a := j) (by omega), Nat.mod_eq_of_lt h]

theorem Addressing.wordLen_word (m : Addressing) : State.wordLen (memWord (m.word mmOp mdOp d b)) = m.len := by
  cases m <;> rfl

theorem Addressing.wordLenOk_word (m : Addressing) : wordLenOk (memWord (m.word mmOp mdOp d b)) = true := by
  cases m <;> simp [Addressing.word, memWord, wordLenOk]

theorem Addressing.memRow_word {lo hi lo' hi' : Nat} (m : Addressing) (h : lo ≤ mmOp.toNat ∧ mmOp.toNat ≤ hi)
    (h' : lo' ≤ mdOp.toNat ∧ mdOp.toNat ≤ hi') : memRow lo hi lo' hi' (m.word mmOp mdOp d b) = true := by
  cases m <;> simp [Addressing.word, memRow, inRow, opcodeOf, op32, op48, h, h']

variable {j : Nat}

theorem Addressing.eaMM_word (k : Core) (size : Nat) : ∀ {i : BitVec 32}, m.word mmOp mdOp d b = .mm i →
    eaMM k i.toNat size = m.ea k b size := by
  cases m <;> rintro i ⟨⟩ <;> simp [eaMM, Addressing.ea, Addressing.addr, mode32, a32, scaleOf]

theorem Addressing.eaMD_word (k : Core) (size : Nat) : ∀ {i : BitVec 48}, m.word mmOp mdOp d b = .md i →
    eaMD k i.toNat = m.ea k b size := by
  cases m <;> rintro i ⟨⟩ <;> simp [eaMD, Addressing.ea, Addressing.addr, mode48, b48, scaleOf]

theorem Addressing.fields_mm : ∀ {i : BitVec 32}, m.word mmOp mdOp d b = .mm i →
    op32 i.toNat = mmOp.toNat ∧ d32 i.toNat = d.toNat := by
  cases m <;> rintro i ⟨⟩ <;> simp [op32, d32]

theorem Addressing.fields_md : ∀ {i : BitVec 48}, m.word mmOp mdOp d b = .md i →
    op48 i.toNat = mdOp.toNat ∧ d48 i.toNat = d.toNat := by
  cases m <;> rintro i ⟨⟩ <;> simp [op48, d48]

theorem Addressing.semWord_load (hmm : mmOp.toNat = j + 0x20) (hmd : mdOp.toNat = j + 8) (hj : j ≤ 7) (s : State)
    (bus : Bus) (c : Nat) (k : Core) :
    s.semWord bus c k (memWord (m.word mmOp mdOp d b)) = s.doLoad bus c k j d.toNat (m.ea k b (loadSize j)) := by
  cases hw : m.word mmOp mdOp d b with
  | mm i =>
    obtain ⟨hop, hd⟩ := Addressing.fields_mm hw
    simp [memWord, State.semWord, State.sem32, hop, hd, hmm, Addressing.eaMM_word k _ hw, hj]
  | md i =>
    obtain ⟨hop, hd⟩ := Addressing.fields_md hw
    simp [memWord, State.semWord, State.sem48, hop, hd, hmd, Addressing.eaMD_word k (loadSize j) hw, hj]

theorem Addressing.semWord_store (hmm : mmOp.toNat = j + 0x28) (hmd : mdOp.toNat = j + 0x10) (hj : j ≤ 4) (s : State)
    (bus : Bus) (c : Nat) (k : Core) :
    s.semWord bus c k (memWord (m.word mmOp mdOp d b)) = s.doStore bus c k j d.toNat (m.ea k b (storeSize j)) := by
  cases hw : m.word mmOp mdOp d b with
  | mm i =>
    obtain ⟨hop, hd⟩ := Addressing.fields_mm hw
    simp [memWord, State.semWord, State.sem32, hop, hd, hmm, Addressing.eaMM_word k _ hw, hj]
  | md i =>
    obtain ⟨hop, hd⟩ := Addressing.fields_md hw
    simp [memWord, State.semWord, State.sem48, hop, hd, hmd, Addressing.eaMD_word k (storeSize j) hw, hj]

theorem Addressing.semWord_lea (s : State) (bus : Bus) (c : Nat) (k : Core) :
    s.semWord bus c k (memWord (m.word 0x2D 0x15 d b)) = s.done c (k.put d.toNat (m.addr k b 0)) := by
  cases hw : m.word 0x2D 0x15 d b with
  | mm i =>
    obtain ⟨hop, hd⟩ := Addressing.fields_mm hw
    simp [memWord, State.semWord, State.sem32, hop, hd, Addressing.eaMM_word k 0 hw]
  | md i =>
    obtain ⟨hop, hd⟩ := Addressing.fields_md hw
    simp [memWord, State.semWord, State.sem48, hop, hd, Addressing.eaMD_word k 0 hw]

/-- The operand of a mode whose scale is allowed is legal (R468, R471). -/
theorem Addressing.illMM_word (hm : m.ok) : ∀ {i : BitVec 32}, m.word mmOp mdOp d b = .mm i →
    illMM i.toNat = [] ∧ a32 i.toNat = b.toNat ∧ ((mode32 i.toNat = 1 ∨ mode32 i.toNat = 2) ↔ m.moves = true) := by
  cases m <;> rintro i ⟨⟩ <;> simp_all [illMM, mode32, ext32, a32, Addressing.ok, Addressing.moves]

theorem Addressing.illMD_word (hm : m.ok) : ∀ {i : BitVec 48}, m.word mmOp mdOp d b = .md i → illMD i.toNat = [] := by
  cases m <;> rintro i ⟨⟩ <;> simp_all [illMD, mode48, Addressing.ok]

theorem loadSize_eq_16 (h : j ≤ 7) : loadSize j = 16 ↔ j = 7 := by
  revert j
  decide

theorem storeSize_eq_16 (h : j ≤ 4) : storeSize j = 16 ↔ j = 4 := by
  revert j
  decide

/-- A load is legal where its base update, if any, leaves the registers that it loads and a pair begins even (R471,
R472). -/
theorem Addressing.illWord_load (hmm : mmOp.toNat = j + 0x20) (hmd : mdOp.toNat = j + 8) (hj : j ≤ 7) (hm : m.ok)
    (hb : m.moves = true → b ≠ d ∧ (j = 7 → b.toNat ≠ d.toNat + 1)) (hd : j = 7 → d.toNat % 2 = 0) (c : Nat) (k : Core) :
    State.illWord c k (memWord (m.word mmOp mdOp d b)) = [] := by
  cases hw : m.word mmOp mdOp d b with
  | mm i =>
    obtain ⟨hop, hdat⟩ := Addressing.fields_mm hw
    obtain ⟨hill, hbase, hmode⟩ := Addressing.illMM_word hm hw
    have hne : b ≠ d ↔ b.toNat ≠ d.toNat := BitVec.toNat_ne
    rw [hne, ← hmode] at hb
    simp [memWord, State.illWord, State.ill32, hop, hmm, hdat, hbase, hill, hj, State.illBase, loadSize_eq_16 hj,
      State.when']
    exact ⟨hb, hd⟩
  | md i =>
    obtain ⟨hop, hdat⟩ := Addressing.fields_md hw
    simp [memWord, State.illWord, State.ill48, hop, hmd, hdat, Addressing.illMD_word hm hw, State.when', hj]
    exact hd

theorem Addressing.illWord_store (hmm : mmOp.toNat = j + 0x28) (hmd : mdOp.toNat = j + 0x10) (hj : j ≤ 4) (hm : m.ok)
    (hd : j = 4 → d.toNat % 2 = 0) (c : Nat) (k : Core) :
    State.illWord c k (memWord (m.word mmOp mdOp d b)) = [] := by
  cases hw : m.word mmOp mdOp d b with
  | mm i =>
    obtain ⟨hop, hdat⟩ := Addressing.fields_mm hw
    obtain ⟨hill, -, -⟩ := Addressing.illMM_word hm hw
    simp [memWord, State.illWord, State.ill32, hop, hmm, hdat, hill, hj, State.illBase, storeSize_eq_16 hj, State.when']
    exact hd
  | md i =>
    obtain ⟨hop, hdat⟩ := Addressing.fields_md hw
    simp [memWord, State.illWord, State.ill48, hop, hmd, hdat, Addressing.illMD_word hm hw, State.when', hj]
    exact hd

/-- LEA is legal in a mode that does not move its base (R471). -/
theorem Addressing.illWord_lea (hm : m.ok) (hb : m.moves = false) (c : Nat) (k : Core) :
    State.illWord c k (memWord (m.word 0x2D 0x15 d b)) = [] := by
  cases hw : m.word 0x2D 0x15 d b with
  | mm i =>
    obtain ⟨hop, -⟩ := Addressing.fields_mm hw
    obtain ⟨hill, -, hmode⟩ := Addressing.illMM_word hm hw
    have hstay : ¬ (mode32 i.toNat = 1 ∨ mode32 i.toNat = 2) := by simp [hmode, hb]
    simp [memWord, State.illWord, State.ill32, hop, hill, hstay, State.when']
  | md i =>
    obtain ⟨hop, -⟩ := Addressing.fields_md hw
    simp [memWord, State.illWord, State.ill48, hop, Addressing.illMD_word hm hw]

theorem Addressing.bound_lea (s : State) (c : Nat) (k : Core) :
    s.bound c k (memWord (m.word 0x2D 0x15 d b)) = some 1 := by
  cases hw : m.word 0x2D 0x15 d b with
  | mm i =>
    obtain ⟨hop, -⟩ := Addressing.fields_mm hw
    simp [memWord, State.bound, hop]
  | md i =>
    obtain ⟨hop, -⟩ := Addressing.fields_md hw
    simp [memWord, State.bound, hop]

theorem runs_lea {s : State} {c : Nat} {k : Core} (hk : k = s.core c) (h : s.atInstr c m.len) (hm : m.ok)
    (hb : m.moves = false) :
    s.Runs (.lea c (m.word 0x2D 0x15 d b)) c { k.put d.toNat (m.addr k b 0) with pc := k.pc + BitVec.ofNat 64 m.len }
      (some 1) := by
  have L : Legal s c k (memRow 0x2D 0x2D 0x15 0x15 (m.word 0x2D 0x15 d b)) (memWord (m.word 0x2D 0x15 d b)) (some 1) :=
    ⟨m.memRow_word (by decide) (by decide), m.wordLenOk_word, m.illWord_lea hm hb c k, m.bound_lea s c k⟩
  rw [← m.wordLen_word (mmOp := 0x2D) (mdOp := 0x15) (d := d) (b := b)] at h ⊢
  exact L.runs _ hk h rfl (m.semWord_lea s _ c k)

end Modes

/-- Settles O16. -/
theorem movesAndAddresses : Obligations.MovesAndAddresses := by
  unfold Obligations.MovesAndAddresses
  refine ⟨?nop, ?mov, ?movi5, ?movi, ?movi32, ?movhi32, ?rdfeat, ?lea⟩
  case nop => exact fun s c k hk h => runs_sysPlain (d := 1) (by decide) hk h rfl
  case mov => exact fun s c k d g hk h => runs_mov hk h
  case movi5 => exact fun s c k d imm hk h => runs_movi5 hk h
  case movi => exact fun s c k d imm hk h => runs_movi hk h
  case movi32 => exact fun s c k d imm hk h => runs_movi32 hk h
  case movhi32 => exact fun s c k d imm hk h => runs_movhi32 hk h
  case rdfeat =>
    intro s c k d p hk h hp
    obtain ⟨hn, hv⟩ : p.1.toNat < 8 ∧ p.2 = s.feat c p.1.toNat := by
      simp only [List.mem_cons, List.not_mem_nil, or_false] at hp
      obtain rfl | rfl | rfl | rfl | rfl | rfl | rfl | rfl := hp <;> exact ⟨by simp, rfl⟩
    rw [hv]
    exact runs_rdfeat hn hk h
  case lea => exact fun s c k d b m hk h hm hb => runs_lea hk h hm hb

end Sys2Proof.Machine

/-! Proofs of the statements on loads, stores and atomics, and the frame of a write of memory (R451 to R460, R861). -/

namespace Sys2Proof.Machine

/-! ### The accesses of a core -/

/-- A read of bytes that core `c` may load answers them and changes nothing. -/
theorem State.coreRead_of_loadsAs {s : State} {c n : Nat} {a : Dword} {bs : Bytes} (bus : Bus) (sub : Nat) (align : Bool)
    (h : s.loadsAs c a bs) (hn : bs.length = n) (ha : align = true → a.toNat % n = 0) :
    s.coreRead bus c (s.core c) a n sub align = .ok (s, bs) := by
  subst hn
  have hal : (align && decide (a.toNat % bs.length ≠ 0)) = false := by
    cases align with
    | false => rfl
    | true => simp [ha rfl]
  obtain ⟨m, off, hplace, hclean, hread⟩ | ⟨off, hplace, hrom⟩ := h
  · simp only [State.coreRead, hplace, hal, s.memRead_clean m off _ hclean, hread]
    rfl
  · simp only [State.coreRead, hplace, hal, hrom]
    rfl

/-- Where a core may store bytes in memory, it may store them. -/
theorem State.coreMayStore_of_storesAt {s : State} {c n m off : Nat} {a : Dword} (sub : Nat) (align word : Bool)
    (h : s.storesAt c a n m off) (ha : align = true → a.toNat % n = 0) :
    s.coreMayStore c (s.core c) a n sub align word = none := by
  have hal : (align && decide (a.toNat % n ≠ 0)) = false := by
    cases align with
    | false => rfl
    | true => simp [ha rfl]
  simp only [State.coreMayStore, show s.place c (s.core c) a.toNat n true = some (.mem m off) from h, hal]
  rfl

theorem State.coreStore_of_storesAt {s : State} {c m off : Nat} {a : Dword} {bs : Bytes} (bus : Bus)
    (h : s.storesAt c a bs.length m off) : s.coreStore bus c (s.core c) a bs = s.memWrite m off bs := by
  simp only [State.coreStore, show s.place c (s.core c) a.toNat bs.length true = some (.mem m off) from h]

/-! ### What a write of memory leaves alone -/

/-- A write of memory changes nothing of the state but its memories. -/
theorem State.memWrite_eq (s : State) (m off : Nat) (bs : Bytes) :
    s.memWrite m off bs = { s with mem := (s.memWrite m off bs).mem } := by
  unfold State.memWrite
  split
  · rfl
  · rfl

@[simp] theorem State.memWrite_core (s : State) (m off c : Nat) (bs : Bytes) : (s.memWrite m off bs).core c = s.core c := by
  rw [State.memWrite_eq]
  rfl

/-- Making a page dirty or clean leaves the stored bytes and words. -/
theorem touchPage_cells_raws (x : MemArr) (old : List Host.Cell) (a lo hi page : Nat) :
    (State.touchPage x old a lo hi page).cells = x.cells ∧ (State.touchPage x old a lo hi page).raws = x.raws := by
  unfold State.touchPage
  dsimp only
  split
  · exact ⟨rfl, rfl⟩
  · split <;> exact ⟨rfl, rfl⟩

theorem touchPages_cells_raws (old : List Host.Cell) (a lo hi p0 : Nat) (l : List Nat) (x : MemArr) :
    (l.foldl (fun y i => State.touchPage y old a lo hi (p0 + i)) x).cells = x.cells ∧
    (l.foldl (fun y i => State.touchPage y old a lo hi (p0 + i)) x).raws = x.raws := by
  induction l generalizing x with
  | nil => exact ⟨rfl, rfl⟩
  | cons i l ih =>
    obtain ⟨hc, hr⟩ := ih (State.touchPage x old a lo hi (p0 + i))
    obtain ⟨hc', hr'⟩ := touchPage_cells_raws x old a lo hi (p0 + i)
    exact ⟨hc.trans hc', hr.trans hr'⟩

/-- What a write makes of its array: its bytes are written and its raw words there are gone. -/
theorem State.memWrite_arr (s : State) (m off : Nat) (bs : Bytes) :
    ((s.memWrite m off bs).arr m).cells = mwrite (s.arr m).cells off bs ∧
    ((s.memWrite m off bs).arr m).raws =
      if bs = [] then (s.arr m).raws
      else (s.arr m).raws.filter (fun r => decide (r.1 < off) || decide (off + bs.length ≤ r.1)) := by
  unfold State.memWrite
  by_cases h : bs = []
  · simp [h, mwrite]
  · rw [if_neg h, if_neg h, State.arr_setArr]
    exact touchPages_cells_raws _ _ _ _ _ _ _

theorem State.memWrite_arr_other (s : State) {m m' : Nat} (off : Nat) (bs : Bytes) (h : m' ≠ m) :
    (s.memWrite m off bs).arr m' = s.arr m' := by
  unfold State.memWrite
  split
  · rfl
  · exact State.arr_setArr_ne s _ h

theorem tget_filter {α : Type} (t : Tab α) (p : Nat → Bool) (i : Nat) :
    tget (t.filter (fun r => p r.1)) i = if p i then tget t i else none := by
  induction t with
  | nil => simp [tget]
  | cons r t ih =>
    by_cases hr : p r.1 = true <;> by_cases hi : r.1 = i <;> simp_all [tget]

/-- Settles O22. -/
theorem aStoreChangesOnlyItsBytes : Obligations.AStoreChangesOnlyItsBytes := by
  unfold Obligations.AStoreChangesOnlyItsBytes
  intro s m off bs hok
  obtain ⟨hcells, hraws⟩ := s.memWrite_arr m off bs
  rw [hcells, hraws]
  refine ⟨fun a ha => ⟨mget_mwrite_out ha, ?_⟩, fun i hi => ⟨mget_mwrite_in (hok.arr m) hi, ?_⟩,
    fun m' hm => s.memWrite_arr_other off bs hm, s.memWrite_eq m off bs⟩
  · split
    · rfl
    · rw [tget_filter _ (fun x => decide (x < off) || decide (off + bs.length ≤ x)), if_pos (by simpa using ha)]
  · have hne : bs ≠ [] := List.ne_nil_of_length_pos (by omega)
    rw [if_neg hne, tget_filter _ (fun x => decide (x < off) || decide (off + bs.length ≤ x)),
      if_neg (by simpa using hi)]

/-! ### Loads (R473) -/

theorem leNat_leBytes (w n : Nat) : leNat (leBytes w n) = n % 256 ^ w := by
  induction w generalizing n with
  | zero => simp [leBytes, leNat, Nat.mod_one]
  | succ w ih =>
    have hsplit := Nat.mod_mul (x := n) (a := 256) (b := 256 ^ w)
    have hpow : 256 ^ (w + 1) = 256 * 256 ^ w := by rw [Nat.pow_succ, Nat.mul_comm]
    simp only [leBytes, leNat, ih, BitVec.toNat_ofNat, hpow]
    omega

theorem leNat_append (x y : Bytes) : leNat (x ++ y) = leNat x + 256 ^ x.length * leNat y := by
  induction x with
  | nil => simp [leNat]
  | cons b t ih =>
    rw [List.cons_append, leNat, leNat, ih, List.length_cons, Nat.pow_succ]
    rw [Nat.mul_add, ← Nat.mul_assoc, Nat.mul_comm 256 (256 ^ t.length), Nat.add_assoc]

/-- A load of `loadSize j` bytes writes Gd, after the base update; LD.Q writes the pair. -/
theorem State.doLoad_of_loadsAs {s : State} {c j gd : Nat} {k : Core} {bs : Bytes} (bus : Bus) (m : Addressing)
    (b : BitVec 5) (hk : k = s.core c) (h : s.loadsAs c (m.addr k b (loadSize j)) bs) (hn : bs.length = loadSize j)
    (ha : (m.addr k b (loadSize j)).toNat % loadSize j = 0) :
    s.doLoad bus c k j gd (m.ea k b (loadSize j)) = s.done c
      (if loadSize j = 16 then
        ((m.after k b (loadSize j)).put gd (BitVec.ofNat 64 (leNat bs))).put (gd + 1)
          (BitVec.ofNat 64 (leNat bs / 2 ^ 64))
      else (m.after k b (loadSize j)).put gd
        (if loadSigned j then sext (8 * loadSize j) (leNat bs) else BitVec.ofNat 64 (leNat bs))) := by
  subst hk
  unfold State.doLoad
  simp only [Addressing.ea_addr, State.coreRead_of_loadsAs bus 2 true h hn (fun _ => ha)]
  cases m <;> split <;> rfl


section Access
variable {s : State} {c : Nat} {k : Core} {d b : BitVec 5} {m : Addressing} {bs : Bytes} {mmOp mdOp : BitVec 6} {j : Nat}

theorem runs_load (hmm : mmOp.toNat = j + 0x20) (hmd : mdOp.toNat = j + 8) (hj : j ≤ 7) (hk : k = s.core c)
    (h : s.atInstr c m.len) (hm : m.ok) (hb : m.moves = true → b ≠ d ∧ (j = 7 → b.toNat ≠ d.toNat + 1))
    (hd : j = 7 → d.toNat % 2 = 0) (hn : bs.length = loadSize j) (ha : (m.addr k b (loadSize j)).toNat % loadSize j = 0)
    (hl : s.loadsAs c (m.addr k b (loadSize j)) bs) :
    s.Runs (.loadInstruction c (m.word mmOp mdOp d b)) c
      { (if loadSize j = 16 then
          ((m.after k b (loadSize j)).put d.toNat (BitVec.ofNat 64 (leNat bs))).put (d.toNat + 1)
            (BitVec.ofNat 64 (leNat bs / 2 ^ 64))
        else (m.after k b (loadSize j)).put d.toNat
          (if loadSigned j then sext (8 * loadSize j) (leNat bs) else BitVec.ofNat 64 (leNat bs))) with
        pc := k.pc + BitVec.ofNat 64 m.len } (s.bound c k (memWord (m.word mmOp mdOp d b))) := by
  have L : Legal s c k (memRow 0x20 0x27 0x08 0x0F (m.word mmOp mdOp d b)) (memWord (m.word mmOp mdOp d b)) _ :=
    ⟨m.memRow_word (by omega) (by omega), m.wordLenOk_word, m.illWord_load hmm hmd hj hm hb hd c k, rfl⟩
  rw [← m.wordLen_word (mmOp := mmOp) (mdOp := mdOp) (d := d) (b := b)] at h ⊢
  exact L.runs _ hk h rfl ((m.semWord_load hmm hmd hj s _ c k).trans (s.doLoad_of_loadsAs _ m b hk hl hn ha))

theorem runs_ldRr {g : BitVec 5} (hk : k = s.core c) (h : s.atInstr c 2) (hn : bs.length = 8)
    (ha : (k.reg g.toNat).toNat % 8 = 0) (hl : s.loadsAs c (k.reg g.toNat) bs) :
    s.Runs (.ldRr c (Fmt.rr 0x0F d g)) c { k.put d.toNat (BitVec.ofNat 64 (leNat bs)) with pc := k.pc + 2 }
      (s.bound c k (.w16 (Fmt.rr 0x0F d g))) := by
  have L : Legal s c k (inRow 0x0F 0x0F (.w16 (Fmt.rr 0x0F d g))) (.w16 (Fmt.rr 0x0F d g)) _ :=
    ⟨inRow_rr (by decide), wordLenOk_rr, illWord_rr c k (by decide), rfl⟩
  refine L.runs (k.put d.toNat (BitVec.ofNat 64 (leNat bs))) hk h rfl ?_
  have hload := s.doLoad_of_loadsAs (j := 3) (gd := d.toNat) State.coreBus .base g hk hl hn ha
  have hsem : s.semWord State.coreBus c k (.w16 (Fmt.rr 0x0F d g)) =
      s.doLoad State.coreBus c k 3 d.toNat { addr := k.reg g.toNat } := by
    simp [State.semWord, State.sem16]
  exact hsem.trans hload

/-- In marshal mode a 4-byte load of BAR0 space reads the register there (R454). -/
theorem runs_loadBar0 {u : State} {off : Nat} {v : BitVec 32} (hk : k = s.core c) (h : s.atInstr c m.len) (hm : m.ok)
    (hb : m.moves = true → b ≠ d) (ha : (m.addr k b 4).toNat % 4 = 0)
    (hplace : s.place c k (m.addr k b 4).toNat 4 false = some (.bar0 off)) (hread : State.coreBus.read s c off = (u, v)) :
    ∃ n : Nat, 1 ≤ n ∧ (∀ x, s.bound c k (memWord (m.word 0x22 0x0A d b)) = some x → n ≤ max 1 x) ∧
      exec (.loadInstruction c (m.word 0x22 0x0A d b)) s = .next { u.setCore c
        (State.spend { (m.after k b 4).put d.toNat (v.setWidth 64) with pc := k.pc + BitVec.ofNat 64 m.len }
          (!k.marshal) n) with free := u.free + 1 } := by
  have L : Legal s c k (memRow 0x20 0x27 0x08 0x0F (m.word 0x22 0x0A d b)) (memWord (m.word 0x22 0x0A d b)) _ :=
    ⟨m.memRow_word (by decide) (by decide), m.wordLenOk_word,
      m.illWord_load (j := 2) rfl rfl (by decide) hm (fun hmv => ⟨hb hmv, by simp⟩) (by simp) c k, rfl⟩
  rw [← m.wordLen_word (mmOp := 0x22) (mdOp := 0x0A) (d := d) (b := b)] at h ⊢
  refine L.next hk h rfl ((m.semWord_load (j := 2) rfl rfl (by decide) s _ c k).trans ?_)
  have hval : BitVec.ofNat 64 (leNat (leBytes 4 v.toNat)) = v.setWidth 64 := by
    rw [leNat_leBytes, Nat.mod_eq_of_lt (by exact v.isLt), BitVec.ofNat_toNat]
  have hacc : s.coreRead State.coreBus c k (m.addr k b 4) 4 2 true = .ok (u, leBytes 4 v.toNat) := by
    simp [State.coreRead, hplace, ha, hread]
  unfold State.doLoad
  simp only [Addressing.ea_addr, loadSize, hacc, hval]
  cases m <;> rfl

end Access

/-- Settles O20. -/
theorem loadsReadMemory : Obligations.LoadsReadMemory := by
  unfold Obligations.LoadsReadMemory
  refine ⟨?single, ?pair, ?ldRr, ?bar0⟩
  case single =>
    intro s c k d b m p a bs hp hk h hm hb ha hn hal hl
    subst ha
    obtain ⟨j, n, signed⟩ := p
    obtain ⟨hj, rfl, rfl⟩ : j ≤ 6 ∧ n = loadSize j ∧ signed = loadSigned j := by
      simp only [List.mem_cons, List.not_mem_nil, or_false, Prod.mk.injEq] at hp
      obtain ⟨rfl, rfl, rfl⟩ | ⟨rfl, rfl, rfl⟩ | ⟨rfl, rfl, rfl⟩ | ⟨rfl, rfl, rfl⟩ | ⟨rfl, rfl, rfl⟩ | ⟨rfl, rfl, rfl⟩ |
        ⟨rfl, rfl, rfl⟩ := hp <;> decide
    have hsize : loadSize j ≠ 16 := fun h16 => by rw [loadSize_eq_16 (by omega)] at h16; omega
    obtain ⟨t, hexec, hran⟩ := runs_load (mmOp := 0x20 + BitVec.ofNat 6 j) (mdOp := 0x08 + BitVec.ofNat 6 j) (j := j)
      (by rw [opcode_add] <;> simp <;> omega) (by rw [opcode_add] <;> simp <;> omega) (by omega) hk h hm
      (fun hmv => ⟨hb hmv, fun h7 => by omega⟩) (fun h7 => by omega) hn hal hl
    rw [if_neg hsize] at hran
    exact ⟨t, _, rfl, hexec, hran⟩
  case pair =>
    intro s c k d b m a bs hk h hm hb hd ha hn hal hl
    subst ha
    obtain ⟨t, hexec, hran⟩ := runs_load (mmOp := 0x27) (mdOp := 0x0F) (d := d) (j := 7) rfl rfl (by decide) hk h hm
      (fun hmv => ⟨(hb hmv).1, fun _ heq => (hb hmv).2 (by bv_omega)⟩) (fun _ => hd) hn hal hl
    refine ⟨t, _, rfl, hexec, ?_⟩
    have hsplit := leNat_append (bs.take 8) (bs.drop 8)
    have hlen : (bs.take 8).length = 8 := by simp [hn]
    have hlow := leNat_lt (bs.take 8)
    rw [List.take_append_drop, hlen] at hsplit
    rw [hlen] at hlow
    have hdiv : leNat bs / 2 ^ 64 = leNat (bs.drop 8) := by omega
    have hmod : BitVec.ofNat 64 (leNat bs) = BitVec.ofNat 64 (leNat (bs.take 8)) := by
      apply BitVec.eq_of_toNat_eq
      simp only [BitVec.toNat_ofNat]
      omega
    rwa [hdiv, hmod] at hran
  case ldRr =>
    intro s c k d g bs hk h hn hal hl
    obtain ⟨t, hexec, hran⟩ := runs_ldRr (d := d) hk h hn hal hl
    exact ⟨t, _, rfl, hexec, hran⟩
  case bar0 =>
    intro s u c off k d b m v hk h hmar hm hb ha hplace hread
    have hrun := runs_loadBar0 hk h hm hb ha hplace hread
    rwa [hmar] at hrun

/-! ### Stores (R473) -/

section Store
variable {s : State} {c : Nat} {k : Core} {d b : BitVec 5} {m : Addressing} {mmOp mdOp : BitVec 6} {j mem off : Nat}

/-- The bytes that store `j` writes from Gd and the register after it. -/
def storedBytes (j : Nat) (x y : Dword) : Bytes := (leBytes 8 x.toNat ++ leBytes 8 y.toNat).take (storeSize j)

theorem leBytes_add (i w n : Nat) : leBytes (i + w) n = leBytes i n ++ leBytes w (n / 256 ^ i) := by
  induction i generalizing n with
  | zero => simp [leBytes]
  | succ i ih =>
    rw [Nat.add_right_comm, leBytes, leBytes, ih, Nat.div_div_eq_div_mul, Nat.pow_succ, Nat.mul_comm 256]
    rfl

theorem take_leBytes {i w : Nat} (h : i ≤ w) (n : Nat) : (leBytes w n).take i = leBytes i n := by
  obtain ⟨r, rfl⟩ := Nat.exists_eq_add_of_le h
  rw [leBytes_add, List.take_left' (leBytes_length _ _)]

theorem leBytes_mod (w n : Nat) : leBytes w (n % 256 ^ w) = leBytes w n := by
  have h := leBytes_leNat (leBytes w n)
  rwa [leBytes_length, leNat_leBytes] at h

theorem storeSize_le_8 {j : Nat} (h : j ≤ 3) : storeSize j ≤ 8 := by
  revert j
  decide

theorem storedBytes_eq (hj : j ≤ 4) (x y : Dword) :
    leBytes (storeSize j) (x.toNat + if storeSize j = 16 then y.toNat * 2 ^ 64 else 0) = storedBytes j x y := by
  have hx := x.isLt
  unfold storedBytes
  by_cases h4 : j = 4
  · have hlow : (x.toNat + y.toNat * 2 ^ 64) % 256 ^ 8 = x.toNat := by omega
    have hhigh : (x.toNat + y.toNat * 2 ^ 64) / 256 ^ 8 = y.toNat := by omega
    rw [show storeSize j = 8 + 8 by rw [h4]; rfl, if_pos rfl, leBytes_add, hhigh, ← leBytes_mod, hlow,
      List.take_of_length_le (by simp)]
  · have hsize : storeSize j ≤ 8 := storeSize_le_8 (by omega)
    rw [if_neg (by omega), List.take_append_of_le_length (by simpa using hsize), take_leBytes hsize, Nat.add_zero]

theorem State.doStore_of_storesAt (bus : Bus) {gd : Nat} (hj : j ≤ 4) (hk : k = s.core c)
    (hst : s.storesAt c (m.addr k b (storeSize j)) (storeSize j) mem off)
    (ha : (m.addr k b (storeSize j)).toNat % storeSize j = 0) :
    s.doStore bus c k j gd (m.ea k b (storeSize j)) =
      .ok ((s.memWrite mem off (storedBytes j (k.reg gd) (k.reg (gd + 1)))).setCore c (m.after k b (storeSize j)), none) := by
  subst hk
  unfold State.doStore
  simp only [Addressing.ea_addr, State.coreMayStore_of_storesAt 3 true true hst (fun _ => ha), storedBytes_eq hj]
  have hlen : (storedBytes j ((s.core c).reg gd) ((s.core c).reg (gd + 1))).length = storeSize j := by
    rw [← storedBytes_eq hj, leBytes_length]
  rw [State.coreStore_of_storesAt bus (by rwa [hlen])]
  simp only [State.memWrite_core]
  cases m <;> rfl

theorem runs_store (hmm : mmOp.toNat = j + 0x28) (hmd : mdOp.toNat = j + 0x10) (hj : j ≤ 4) (hk : k = s.core c)
    (h : s.atInstr c m.len) (hm : m.ok) (hd : j = 4 → d.toNat % 2 = 0)
    (ha : (m.addr k b (storeSize j)).toNat % storeSize j = 0)
    (hst : s.storesAt c (m.addr k b (storeSize j)) (storeSize j) mem off) :
    ∃ t, exec (.storeInstruction c (m.word mmOp mdOp d b)) s = .next t ∧
      (s.memWrite mem off (storedBytes j (k.reg d.toNat) (k.reg (d.toNat + 1)))).ran t c
        { m.after k b (storeSize j) with pc := k.pc + BitVec.ofNat 64 m.len }
        (s.bound c k (memWord (m.word mmOp mdOp d b))) := by
  have L : Legal s c k (memRow 0x28 0x2C 0x10 0x14 (m.word mmOp mdOp d b)) (memWord (m.word mmOp mdOp d b)) _ :=
    ⟨m.memRow_word (by omega) (by omega), m.wordLenOk_word, m.illWord_store hmm hmd hj hm hd c k, rfl⟩
  rw [← m.wordLen_word (mmOp := mmOp) (mdOp := mdOp) (d := d) (b := b)] at h ⊢
  exact L.runsOn hk h rfl ((m.semWord_store hmm hmd hj s _ c k).trans (State.doStore_of_storesAt _ hj hk hst ha))
    (by rw [State.memWrite_core, hk])

theorem runs_stRr {g : BitVec 5} (hk : k = s.core c) (h : s.atInstr c 2) (ha : (k.reg g.toNat).toNat % 8 = 0)
    (hst : s.storesAt c (k.reg g.toNat) 8 mem off) :
    ∃ t, exec (.stRr c (Fmt.rr 0x10 d g)) s = .next t ∧
      (s.memWrite mem off (leBytes 8 (k.reg d.toNat).toNat)).ran t c { k with pc := k.pc + 2 }
        (s.bound c k (.w16 (Fmt.rr 0x10 d g))) := by
  have L : Legal s c k (inRow 0x10 0x10 (.w16 (Fmt.rr 0x10 d g))) (.w16 (Fmt.rr 0x10 d g)) _ :=
    ⟨inRow_rr (by decide), wordLenOk_rr, illWord_rr c k (by decide), rfl⟩
  have hstore := State.doStore_of_storesAt (j := 3) (gd := d.toNat) (m := .base) State.coreBus (by decide) hk hst ha
  have hsem : s.semWord State.coreBus c k (.w16 (Fmt.rr 0x10 d g)) =
      s.doStore State.coreBus c k 3 d.toNat { addr := k.reg g.toNat } := by
    simp [State.semWord, State.sem16]
  exact L.runsOn hk h rfl (hsem.trans hstore) (by rw [State.memWrite_core, hk])

end Store

/-- Settles O21. -/
theorem storesWriteMemory : Obligations.StoresWriteMemory := by
  unfold Obligations.StoresWriteMemory
  refine ⟨?modes, ?stRr⟩
  case modes =>
    intro s c mem off k d b m p a hp hk h hm hd ha hal hst
    subst ha
    obtain ⟨j, n⟩ := p
    obtain ⟨hj, rfl⟩ : j ≤ 4 ∧ n = storeSize j := by
      simp only [List.mem_cons, List.not_mem_nil, or_false, Prod.mk.injEq] at hp
      obtain ⟨rfl, rfl⟩ | ⟨rfl, rfl⟩ | ⟨rfl, rfl⟩ | ⟨rfl, rfl⟩ | ⟨rfl, rfl⟩ := hp <;> decide
    obtain ⟨t, hexec, hran⟩ := runs_store (mmOp := 0x28 + BitVec.ofNat 6 j) (mdOp := 0x10 + BitVec.ofNat 6 j) (d := d)
      (by rw [opcode_add] <;> simp <;> omega) (by rw [opcode_add] <;> simp <;> omega) hj hk h hm hd hal hst
    exact ⟨t, _, rfl, hexec, hran⟩
  case stRr =>
    intro s c mem off k d g hk h hal hst
    obtain ⟨t, hexec, hran⟩ := runs_stRr (d := d) hk h hal hst
    exact ⟨t, _, rfl, hexec, hran⟩

/-! ### Atomics (R460) -/

section Atomic
variable {s : State} {c : Nat} {k : Core} {d b a : BitVec 5} {mem off j : Nat} {bs : Bytes} {old : Dword}

@[simp] theorem op32_mm (op : BitVec 6) (d b : BitVec 5) (mode : BitVec 3) (gi : BitVec 5) (scale low : BitVec 3) :
    op32 (Fmt.mm op d b mode gi scale low).toNat = op.toNat := Fmt.mm_op op d b mode gi scale low
@[simp] theorem d32_mm (op : BitVec 6) (d b : BitVec 5) (mode : BitVec 3) (gi : BitVec 5) (scale low : BitVec 3) :
    d32 (Fmt.mm op d b mode gi scale low).toNat = d.toNat := Fmt.mm_d op d b mode gi scale low
@[simp] theorem a32_mm (op : BitVec 6) (d b : BitVec 5) (mode : BitVec 3) (gi : BitVec 5) (scale low : BitVec 3) :
    a32 (Fmt.mm op d b mode gi scale low).toNat = b.toNat := Fmt.mm_b op d b mode gi scale low

/-- What atomic `j` stores where memory holds `old`: SWAP Gd, CAS Ga where `old` is Gd, FADD the sum. -/
def atomicStore (j : Nat) (old gd ga : Dword) : Option Dword :=
  if j = 0 then some gd else if j = 1 then (if old = gd then some ga else none) else some (old + gd)

/-- The memory after an atomic. -/
def State.afterAtomic (s : State) (mem off : Nat) (v : Option Dword) : State :=
  match v with
  | some x => s.memWrite mem off (leBytes 8 x.toNat)
  | none => s

@[simp] theorem State.afterAtomic_core (s : State) (mem off c : Nat) (v : Option Dword) :
    (s.afterAtomic mem off v).core c = s.core c := by
  cases v <;> simp [State.afterAtomic]

/-- FLG after an atomic: CAS alone changes it, by the comparison. -/
def atomicFlg (j : Nat) (f old gd : Dword) : Dword := if j = 1 then putFlag f flZ (old == gd) else f

theorem State.doAtomic_of (bus : Bus) {gd gb ga : Nat} (hk : k = s.core c) (hn : bs.length = 8)
    (ha : (k.reg gb).toNat % 8 = 0) (hl : s.loadsAs c (k.reg gb) bs) (hst : s.storesAt c (k.reg gb) 8 mem off)
    (ho : old = BitVec.ofNat 64 (leNat bs)) :
    s.doAtomic bus c k j gd gb ga =
      .ok ((s.afterAtomic mem off (atomicStore j old (k.reg gd) (k.reg ga))).setCore c
        ({ k with flg := atomicFlg j k.flg old (k.reg gd) }.put gd old), none) := by
  subst hk ho
  have hcore : ∀ x : Dword, s.coreStore bus c (s.core c) ((s.core c).reg gb) (leBytes 8 x.toNat) =
      s.memWrite mem off (leBytes 8 x.toNat) := fun x =>
    State.coreStore_of_storesAt bus (by rwa [leBytes_length])
  unfold State.doAtomic
  simp only [State.coreMayStore_of_storesAt 2 true false hst (fun _ => ha),
    State.coreRead_of_loadsAs bus 2 true hl hn (fun _ => ha), hcore, State.done]
  by_cases h0 : j = 0
  · subst h0
    rfl
  · by_cases h1 : j = 1
    · subst h1
      by_cases heq : BitVec.ofNat 64 (leNat bs) = (s.core c).reg gd
      · simp [heq, atomicStore, atomicFlg, State.afterAtomic]
      · simp [heq, atomicStore, atomicFlg, State.afterAtomic]
    · simp [h0, h1, atomicStore, atomicFlg, State.afterAtomic]

theorem runs_atomic {op : BitVec 6} {i : Instr} (hop : op.toNat = j + 0x2E) (hj : j ≤ 2) (hg : j ≠ 1 → a = 0)
    (hk : k = s.core c) (h : s.atInstr c 4) (hn : bs.length = 8) (ha : (k.reg b.toNat).toNat % 8 = 0)
    (hl : s.loadsAs c (k.reg b.toNat) bs) (hst : s.storesAt c (k.reg b.toNat) 8 mem off)
    (ho : old = BitVec.ofNat 64 (leNat bs))
    (hi : exec i s = onCore c (s.runRow c (inRow op.toNat op.toNat (.w32 (Fmt.mm op d b 0 a 0 0)))
      (.w32 (Fmt.mm op d b 0 a 0 0)))) :
    ∃ t, exec i s = .next t ∧
      (s.afterAtomic mem off (atomicStore j old (k.reg d.toNat) (k.reg a.toNat))).ran t c
        { { k with flg := atomicFlg j k.flg old (k.reg d.toNat) }.put d.toNat old with pc := k.pc + 4 }
        (s.bound c k (.w32 (Fmt.mm op d b 0 a 0 0))) := by
  have hill : State.illWord c k (.w32 (Fmt.mm op d b 0 a 0 0)) = [] := by
    by_cases h1 : j = 1
    · subst h1
      simp [State.illWord, State.ill32, hop, State.when', mode32]
    · rw [hg h1]
      simp [State.illWord, State.ill32, hop, State.when', ext32, mode32, h1]
      omega
  have L : Legal s c k (inRow op.toNat op.toNat (.w32 (Fmt.mm op d b 0 a 0 0))) (.w32 (Fmt.mm op d b 0 a 0 0)) _ :=
    ⟨by simp [inRow, opcodeOf], by simp [wordLenOk], hill, rfl⟩
  have hsem : s.semWord State.coreBus c k (.w32 (Fmt.mm op d b 0 a 0 0)) =
      s.doAtomic State.coreBus c k j d.toNat b.toNat a.toNat := by
    simp [State.semWord, State.sem32, hop, hj]
  exact L.runsOn hk h hi (hsem.trans (State.doAtomic_of _ hk hn ha hl hst ho)) (by rw [State.afterAtomic_core, hk])

end Atomic

/-- Settles O23. -/
theorem atomicsExchangeMemory : Obligations.AtomicsExchangeMemory := by
  unfold Obligations.AtomicsExchangeMemory
  refine ⟨?swap, ?fadd, ?cas⟩
  case swap =>
    intro s c mem off k d b bs old hk h hn ha hl hst ho
    obtain ⟨t, hexec, hran⟩ := runs_atomic (i := .swap c (Fmt.mm 0x2E d b 0 0 0 0)) (j := 0) rfl (by decide)
      (fun _ => rfl) hk h hn ha hl hst ho rfl
    exact ⟨t, _, rfl, hexec, hran⟩
  case fadd =>
    intro s c mem off k d b bs old hk h hn ha hl hst ho
    obtain ⟨t, hexec, hran⟩ := runs_atomic (i := .fadd c (Fmt.mm 0x30 d b 0 0 0 0)) (j := 2) rfl (by decide)
      (fun _ => rfl) hk h hn ha hl hst ho rfl
    exact ⟨t, _, rfl, hexec, hran⟩
  case cas =>
    intro s c mem off k d b a bs old hk h hn ha hl hst ho
    obtain ⟨t, hexec, hran⟩ := runs_atomic (i := .cas c (Fmt.mm 0x2F d b 0 a 0 0)) (j := 1) rfl (by decide)
      (fun h1 => absurd rfl h1) hk h hn ha hl hst ho rfl
    refine ⟨t, _, atomicFlg 1 k.flg old (k.reg d.toNat), rfl, hexec, ?_, ?_, ?_⟩
    · rw [atomicFlg, if_pos rfl, flZ, putFlag_same _ _ _ (by decide)]
      rfl
    · intro i hi
      rw [atomicFlg, if_pos rfl, flZ, putFlag_other _ _ _ _ hi]
    · have hmem : (if old = k.reg d.toNat then s.memWrite mem off (leBytes 8 (k.reg a.toNat).toNat) else s) =
          s.afterAtomic mem off (atomicStore 1 old (k.reg d.toNat) (k.reg a.toNat)) := by
        by_cases heq : old = k.reg d.toNat
        · simp [heq, atomicStore, State.afterAtomic]
        · simp [heq, atomicStore, State.afterAtomic]
      rw [hmem]
      exact hran

end Sys2Proof.Machine

/-! Decimal digits, packed and zoned strings, and the results that decimal instructions store (R499 to R511, R526,
R527). -/

namespace Sys2Proof.Machine

/-! ### Digits -/

theorem decNat_append (ds : List Nat) (d : Nat) : decNat (ds ++ [d]) = 10 * decNat ds + d := by
  simp [decNat]

@[simp] theorem decDigits_length (n m : Nat) : (decDigits n m).length = n := by
  induction n generalizing m with
  | zero => rfl
  | succ n ih => simp [decDigits, ih]

theorem decDigits_le (n m : Nat) : ∀ d ∈ decDigits n m, d ≤ 9 := by
  induction n generalizing m with
  | zero => simp [decDigits]
  | succ n ih =>
    intro d hd
    rw [decDigits, List.mem_append, List.mem_singleton] at hd
    obtain hd | rfl := hd
    · exact ih _ d hd
    · omega

/-- The digits of a number give the number that they keep of it. -/
theorem decNat_decDigits (n m : Nat) : decNat (decDigits n m) = m % 10 ^ n := by
  induction n generalizing m with
  | zero => simp [decDigits, decNat, Nat.mod_one]
  | succ n ih =>
    have hsplit := Nat.mod_mul (x := m) (a := 10) (b := 10 ^ n)
    have hpow : 10 ^ (n + 1) = 10 * 10 ^ n := by rw [Nat.pow_succ, Nat.mul_comm]
    rw [decDigits, decNat_append, ih, hpow]
    omega

/-- Induction on a list of digits from its last one, as `decNat` and `hexNat` read them. -/
theorem snocInduction {motive : List Nat → Prop} (nil : motive [])
    (append_singleton : ∀ ds d, motive ds → motive (ds ++ [d])) (ds : List Nat) : motive ds := by
  rw [← ds.reverse_reverse]
  induction ds.reverse with
  | nil => exact nil
  | cons d t ih =>
    rw [List.reverse_cons]
    exact append_singleton _ d ih

theorem decNat_lt (ds : List Nat) (h : ∀ d ∈ ds, d ≤ 9) : decNat ds < 10 ^ ds.length := by
  induction ds using snocInduction with
  | nil => simp [decNat]
  | append_singleton ds d ih =>
    have hd := h d (by simp)
    have hds := ih (fun x hx => h x (by simp [hx]))
    rw [decNat_append, List.length_append, List.length_singleton, Nat.pow_succ]
    omega

/-! ### Registers of sixteen digits (R525 to R527) -/

/-- The number whose nibbles are the given ones, high first. -/
def hexNat (ds : List Nat) : Nat := ds.foldl (fun a d => 16 * a + d) 0

theorem hexNat_append (ds : List Nat) (d : Nat) : hexNat (ds ++ [d]) = 16 * hexNat ds + d := by
  simp [hexNat]

theorem hexNat_lt (ds : List Nat) (h : ∀ d ∈ ds, d < 16) : hexNat ds < 16 ^ ds.length := by
  induction ds using snocInduction with
  | nil => simp [hexNat]
  | append_singleton ds d ih =>
    have hd := h d (by simp)
    have hds := ih (fun x hx => h x (by simp [hx]))
    rw [hexNat_append, List.length_append, List.length_singleton, Nat.pow_succ]
    omega

/-- The nibbles of a number made of nibbles are those nibbles. -/
theorem nibbles_hexNat (ds : List Nat) (h : ∀ d ∈ ds, d < 16) :
    (List.range ds.length).map (fun i => hexNat ds / 16 ^ (ds.length - 1 - i) % 16) = ds := by
  induction ds using snocInduction with
  | nil => rfl
  | append_singleton ds d ih =>
    have hd := h d (by simp)
    have hds := ih (fun x hx => h x (by simp [hx]))
    rw [List.length_append, List.length_singleton, List.range_succ, List.map_append, hexNat_append]
    congr 1
    · conv => rhs; rw [← hds]
      refine List.map_congr_left fun i hi => ?_
      have hlt := List.mem_range.1 hi
      have hexp : ds.length + 1 - 1 - i = 1 + (ds.length - 1 - i) := by omega
      rw [hexp, Nat.pow_add, ← Nat.div_div_eq_div_mul, show (16 * hexNat ds + d) / 16 ^ 1 = hexNat ds by omega]
    · simp [Nat.mod_eq_of_lt hd]

theorem regDigits_regOf (n : Nat) : regDigits (regOf n) = decDigits 16 n := by
  have hdig : ∀ d ∈ decDigits 16 n, d < 16 := fun d hd => Nat.lt_of_le_of_lt (decDigits_le 16 n d hd) (by decide)
  have hlt := hexNat_lt _ hdig
  rw [decDigits_length] at hlt
  have hval : (regOf n).toNat = hexNat (decDigits 16 n) := by
    rw [regOf, BitVec.toNat_ofNat]
    exact Nat.mod_eq_of_lt hlt
  have h := nibbles_hexNat _ hdig
  rw [decDigits_length] at h
  rw [regDigits, hval]
  exact h

theorem regVal_regOf (n : Nat) : regVal (regOf n) = n % 10 ^ 16 := by
  rw [regVal, regDigits_regOf, decNat_decDigits]

theorem regBad_regOf (n : Nat) : regBad (regOf n) = false := by
  rw [regBad, regDigits_regOf, List.any_eq_false]
  intro d hd
  have := decDigits_le 16 n d hd
  simpa using this

theorem regVal_lt {w : Dword} (h : regBad w = false) : regVal w < 10 ^ 16 := by
  rw [regBad, List.any_eq_false] at h
  have hlt := decNat_lt (regDigits w) (fun d hd => by simpa using h d hd)
  rwa [show (regDigits w).length = 16 by simp [regDigits]] at hlt

/-- FLG after a register decimal form: C, V, Z and N as given, the rest kept. -/
def FlgDigits (f f' : Dword) (carry zero neg : Bool) : Prop :=
  f'.getLsbD 0 = carry ∧ f'.getLsbD 1 = false ∧ f'.getLsbD 2 = zero ∧ f'.getLsbD 3 = neg ∧
  ∀ j, 4 ≤ j → f'.getLsbD j = f.getLsbD j

theorem putFlags_digits (f : Dword) (carry zero neg : Bool) :
    FlgDigits f (putFlag (putFlag (putFlag (putFlag f flC carry) flZ zero) flN neg) flV false) carry zero neg := by
  unfold flC flZ flN flV
  refine ⟨?_, ?_, ?_, ?_, fun j hj => ?_⟩ <;> simp (disch := omega) only [putFlag_same, putFlag_other]

theorem putFlags_compared (f : Dword) (carry zero neg : Bool) :
    FlgDigits f (putFlag (putFlag (putFlag (putFlag f flZ zero) flC carry) flN neg) flV false) carry zero neg := by
  unfold flC flZ flN flV
  refine ⟨?_, ?_, ?_, ?_, fun j hj => ?_⟩ <;> simp (disch := omega) only [putFlag_same, putFlag_other]

/-- ADDPR, SUBPR and MULPR on digits: the result has digits too, and its flags are those of R527. -/
theorem regForm_spec (code : Nat) (f a b : Dword) :
    regBad (regForm code f a b).1 = false ∧
    ∃ v, v = (if code = 0 then regVal a + regVal b else if code = 1 then regVal a + 10 ^ 16 - regVal b
        else regVal a * regVal b) ∧
      regVal (regForm code f a b).1 = v % 10 ^ 16 ∧
      FlgDigits f (regForm code f a b).2 (if code = 1 then decide (regVal b ≤ regVal a) else decide (10 ^ 16 ≤ v))
        (decide (v % 10 ^ 16 = 0)) false := by
  refine ⟨regBad_regOf _, _, rfl, ?_, ?_⟩
  · unfold regForm
    rw [regVal_regOf, Nat.mod_mod]
  · unfold regForm
    exact putFlags_digits _ _ _ _

section RegisterForms
variable {s : State} {c : Nat} {k : Core} {op : BitVec 6} {d a b : BitVec 5}

theorem semWord_regDec {code : Nat} (hop : op.toNat = code + 0x38) (ha : regBad (k.reg a.toNat) = false)
    (hb : regBad (k.reg b.toNat) = false) :
    s.semWord State.coreBus c k (.w32 (Fmt.tr op d a b)) =
      if code = 3 then s.done c { k with flg := regCmp k.flg (k.reg a.toNat) (k.reg b.toNat) }
      else s.done c ({ k with flg := (regForm code k.flg (k.reg a.toNat) (k.reg b.toNat)).2 }.put d.toNat
        (regForm code k.flg (k.reg a.toNat) (k.reg b.toNat)).1) := by
  simp [State.semWord, State.sem32, State.doRegDec, ha, hb, hop]

/-- ADDPR, SUBPR and MULPR run on registers of digits. -/
theorem runs_regForm {code : Nat} {bound : Option Nat} (hop : op.toNat = code + 0x38) (hcode : code ≤ 2)
    (hbound : bound = if code = 2 then some 12 else some 2) {v f : Dword}
    (hr : regForm code k.flg (k.reg a.toNat) (k.reg b.toNat) = (v, f)) (hk : k = s.core c) (h : s.atInstr c 4)
    (ha : regBad (k.reg a.toNat) = false) (hb : regBad (k.reg b.toNat) = false) :
    s.Runs (.addprSubprMulpr c (Fmt.tr op d a b)) c
      { k.put d.toNat v with flg := f, pc := k.pc + 4 } bound := by
  have hill : State.illWord c k (.w32 (Fmt.tr op d a b)) = [] := by
    simp [State.illWord, State.ill32, State.when', hop, hcode]
  have hcycles : s.bound c k (.w32 (Fmt.tr op d a b)) = bound := by
    rw [hbound]
    by_cases h2 : code = 2
    · simp [State.bound, hop, h2]
    · simp [State.bound, hop, h2]
      omega
  have L : Legal s c k (inRow 0x38 0x3A (.w32 (Fmt.tr op d a b))) (.w32 (Fmt.tr op d a b)) _ :=
    ⟨inRow_tr (by omega), wordLenOk_tr .., hill, hcycles⟩
  refine L.runs (i := .addprSubprMulpr c (Fmt.tr op d a b)) ({ k with flg := f }.put d.toNat v) hk h rfl ?_
  rw [semWord_regDec hop ha hb, if_neg (by omega), hr]

theorem runs_cmppr (hk : k = s.core c) (h : s.atInstr c 4)
    (ha : regBad (k.reg a.toNat) = false) (hb : regBad (k.reg b.toNat) = false) :
    s.Runs (.cmppr c (Fmt.tr 0x3B 0 a b)) c
      { k with flg := regCmp k.flg (k.reg a.toNat) (k.reg b.toNat), pc := k.pc + 4 } (some 2) := by
  have L : Legal s c k (inRow 0x3B 0x3B (.w32 (Fmt.tr 0x3B 0 a b))) (.w32 (Fmt.tr 0x3B 0 a b)) (some 2) :=
    ⟨inRow_tr (by decide), wordLenOk_tr .., by simp [State.illWord, State.ill32, State.when'], by simp [State.bound]⟩
  refine L.runs { k with flg := regCmp k.flg (k.reg a.toNat) (k.reg b.toNat) } hk h rfl ?_
  rw [semWord_regDec (code := 3) rfl ha hb, if_pos rfl]

end RegisterForms

/-- A difference modulo 10^16, once as a number and once as an integer. -/
theorem mod_sub_cast {x y : Nat} (hy : y < 10 ^ 16) :
    (((x + 10 ^ 16 - y) % 10 ^ 16 : Nat) : Int) = ((x : Int) - y) % 10 ^ 16 := by
  omega

theorem mod_sub_eq_zero {x y : Nat} (hx : x < 10 ^ 16) (hy : y < 10 ^ 16) :
    (x + 10 ^ 16 - y) % 10 ^ 16 = 0 ↔ x = y := by
  omega

/-- Settles O24. -/
theorem registerDecimalForms : Obligations.RegisterDecimalForms := by
  unfold Obligations.RegisterDecimalForms
  refine ⟨?add, ?sub, ?mul, ?cmp⟩
  case add =>
    intro s c x y k d a b hk h ha hb hx hy
    obtain ⟨hdig, v, hv, hval, hC, hV, hZ, hN, hrest⟩ := regForm_spec 0 k.flg (k.reg a.toNat) (k.reg b.toNat)
    obtain rfl : v = x + y := by rw [hv, hx, hy, if_pos rfl]
    obtain ⟨t, hexec, hran⟩ := runs_regForm (op := 0x38) (code := 0) (d := d) rfl (by decide) rfl rfl hk h ha hb
    exact ⟨t, _, _, hexec, hdig, hval, hC.trans (if_neg (by decide)), hV, hZ, hN, hrest, hran⟩
  case sub =>
    intro s c x y k d a b hk h ha hb hx hy
    obtain ⟨hdig, v, hv, hval, hC, hV, hZ, hN, hrest⟩ := regForm_spec 1 k.flg (k.reg a.toNat) (k.reg b.toNat)
    obtain rfl : v = x + 10 ^ 16 - y := by rw [hv, hx, hy, if_neg (by decide), if_pos rfl]
    have hxlt : x < 10 ^ 16 := by rw [hx]; exact regVal_lt ha
    have hylt : y < 10 ^ 16 := by rw [hy]; exact regVal_lt hb
    obtain ⟨t, hexec, hran⟩ := runs_regForm (op := 0x39) (code := 1) (d := d) rfl (by decide) rfl rfl hk h ha hb
    refine ⟨t, _, _, hexec, hdig, ?_, ?_, hV, ?_, hN, hrest, hran⟩
    · rw [hval]
      exact mod_sub_cast hylt
    · rw [hC, if_pos rfl, hx, hy]
    · exact hZ.trans (decide_eq_decide.2 (mod_sub_eq_zero hxlt hylt))
  case mul =>
    intro s c x y k d a b hk h ha hb hx hy
    obtain ⟨hdig, v, hv, hval, hC, hV, hZ, hN, hrest⟩ := regForm_spec 2 k.flg (k.reg a.toNat) (k.reg b.toNat)
    obtain rfl : v = x * y := by rw [hv, hx, hy, if_neg (by decide), if_neg (by decide)]
    obtain ⟨t, hexec, hran⟩ := runs_regForm (op := 0x3A) (code := 2) (d := d) rfl (by decide) rfl rfl hk h ha hb
    exact ⟨t, _, _, hexec, hdig, hval, hC.trans (if_neg (by decide)), hV, hZ, hN, hrest, hran⟩
  case cmp =>
    intro s c x y k a b hk h ha hb hx hy
    obtain ⟨hC, hV, hZ, hN, hrest⟩ := putFlags_compared k.flg (decide (y ≤ x)) (decide (x = y)) (!decide (y ≤ x))
    obtain ⟨t, hexec, hran⟩ := runs_cmppr hk h ha hb
    subst hx hy
    refine ⟨t, _, hexec, hC, hV, hZ, hN.trans ?_, hrest, hran⟩
    rw [← decide_not, decide_eq_decide, Nat.not_le]

/-! ### Rounding (R511) -/

section Rounding
variable (num den : Nat) (neg : Bool)

theorem roundDiv_halfAway :
    roundDiv 0 num den neg = if den ≤ 2 * (num % den) then num / den + 1 else num / den := by
  simp [roundDiv]

theorem roundDiv_halfEven :
    roundDiv 1 num den neg =
      if den < 2 * (num % den) ∨ 2 * (num % den) = den ∧ num / den % 2 = 1 then num / den + 1 else num / den := by
  simp [roundDiv]

theorem roundDiv_towardsZero : roundDiv 2 num den neg = num / den := by
  simp [roundDiv]

theorem roundDiv_up :
    roundDiv 3 num den neg = if 0 < num % den ∧ neg = false then num / den + 1 else num / den := by
  simp [roundDiv]

theorem roundDiv_down :
    roundDiv 4 num den neg = if 0 < num % den ∧ neg = true then num / den + 1 else num / den := by
  simp [roundDiv]

end Rounding

/-- Settles O27. -/
theorem roundingFollowsItsMode : Obligations.RoundingFollowsItsMode := by
  unfold Obligations.RoundingFollowsItsMode
  intro num den neg hden
  have hdiv := Nat.div_add_mod' num den
  have hlt := Nat.mod_lt num hden
  rw [roundDiv_halfAway, roundDiv_halfEven, roundDiv_towardsZero, roundDiv_up, roundDiv_down]
  have hsucc : (num / den + 1) * den = num / den * den + den := Nat.succ_mul _ _
  have hfloor : num / den * den ≤ num ∧ num < (num / den + 1) * den := by omega
  have hceil : num ≤ (if 0 < num % den then num / den + 1 else num / den) * den ∧
      (if 0 < num % den then num / den + 1 else num / den) * den < num + den := by
    split <;> omega
  refine ⟨?away, ?even, hfloor, ?up, ?down⟩
  case away => split <;> omega
  case even => split <;> omega
  case up =>
    cases neg with
    | false => simpa only [Bool.false_eq_true, and_true, if_false] using hceil
    | true => simpa only [Bool.true_eq_false, and_false, if_true, if_false] using hfloor
  case down =>
    cases neg with
    | false => simpa only [Bool.false_eq_true, and_false, if_false] using hfloor
    | true => simpa only [and_true, if_true] using hceil

end Sys2Proof.Machine

/-! Proofs of the statements on packed and zoned decimal instructions (R499 to R521). -/

namespace Sys2Proof.Machine

/-! ### Packed and zoned results -/

/-- The nibbles of packed nibbles are those nibbles, two to the byte. -/
theorem nibbles_packNibbles : ∀ ns : List Nat, (∀ d ∈ ns, d < 16) → ns.length % 2 = 0 →
    nibbles (packNibbles ns) = ns ∧ 2 * (packNibbles ns).length = ns.length
  | [], _, _ => ⟨rfl, rfl⟩
  | [_], _, h => absurd h (by simp)
  | a :: b :: t, hd, hlen => by
    obtain ⟨hn, hl⟩ := nibbles_packNibbles t (fun d h => hd d (by simp [h])) (by simp only [List.length_cons] at hlen; omega)
    have ha := hd a (by simp)
    have hb := hd b (by simp)
    have hbyte : (16 * a + b) % 2 ^ 8 = 16 * a + b := Nat.mod_eq_of_lt (by omega)
    constructor
    · rw [packNibbles, nibbles, List.flatMap_cons, ← nibbles, hn, BitVec.toNat_ofNat, hbyte,
        show (16 * a + b) / 16 = a by omega, show (16 * a + b) % 16 = b by omega]
      rfl
    · simp only [packNibbles, List.length_cons]
      omega

theorem signOf_range (uns : Bool) (v : Int) : 10 ≤ signOf uns v ∧ signOf uns v < 16 := by
  unfold signOf
  split
  · decide
  · split <;> decide

/-- The sign nibble of a stored value says whether it is negative, where an unsigned source gave no negative one. -/
theorem signNegative_signOf {uns : Bool} {v : Int} (h : uns = true → 0 ≤ v) :
    signNegative (signOf uns v) = decide (v < 0) := by
  cases uns with
  | true =>
    have := h rfl
    simp [signOf, signNegative]
    omega
  | false =>
    by_cases hv : v < 0 <;> simp [signOf, signNegative, hv]

theorem storedVal_eq_kept (n : Nat) (v : Int) : storedVal n v = kept n v := rfl

theorem kept_natAbs_lt (n : Nat) (v : Int) : (kept n v).natAbs < 10 ^ n := by
  have hlt : v.natAbs % 10 ^ n < 10 ^ n := Nat.mod_lt _ (Nat.pow_pos (by decide))
  unfold kept
  split <;> omega

theorem kept_nonneg {n : Nat} {v : Int} (h : 0 ≤ v) : 0 ≤ kept n v := by
  rw [kept, if_neg (by omega)]
  exact Int.natCast_nonneg _

/-- A value from its magnitude and its sign. -/
theorem signed_natAbs (v : Int) : (if decide (v < 0) = true then -((v.natAbs : Nat) : Int) else ((v.natAbs : Nat) : Int)) = v := by
  by_cases h : v < 0
  · rw [decide_eq_true h, if_pos rfl]
    omega
  · rw [decide_eq_false h, if_neg (by decide)]
    omega

/-- The digits of `v` under a sign nibble that suits it are a packed operand of value `v`. -/
theorem isPacked_digits {n g : Nat} {v : Int} (hn : n % 2 = 1) (hv : v.natAbs < 10 ^ n) (hg : 10 ≤ g ∧ g < 16)
    (hs : signNegative g = decide (v < 0)) :
    IsPacked (packNibbles (decDigits n v.natAbs ++ [g])) v g ∧
    2 * (packNibbles (decDigits n v.natAbs ++ [g])).length = n + 1 := by
  have hdig := decDigits_le n v.natAbs
  obtain ⟨hnib, hlen⟩ := nibbles_packNibbles (decDigits n v.natAbs ++ [g])
    (fun d hd => by
      rw [List.mem_append, List.mem_singleton] at hd
      obtain hd | rfl := hd
      · have := hdig d hd
        omega
      · exact hg.2)
    (by simp; omega)
  have hdigits : packedDigits (packNibbles (decDigits n v.natAbs ++ [g])) = decDigits n v.natAbs := by
    simp [packedDigits, hnib]
  have hsign : packedSign (packNibbles (decDigits n v.natAbs ++ [g])) = g := by
    simp [packedSign, hnib]
  refine ⟨⟨?_, ?_, hsign⟩, by simpa using hlen⟩
  · have hok : (decDigits n v.natAbs).any (fun d => decide (9 < d)) = false := by
      rw [List.any_eq_false]
      intro d hd
      have := hdig d hd
      simpa using this
    rw [packedBad, hdigits, hsign, hok, if_neg (by decide), if_neg (by omega)]
    rfl
  · unfold packedVal
    rw [hdigits, hsign, decNat_decDigits, Nat.mod_eq_of_lt hv, hs, signed_natAbs]

theorem decFlags_spec (f : Dword) (v : Int) (ov : Bool) : FlgDec f (decFlags f v ov) v ov := by
  have hz : (v == 0) = decide (v = 0) := rfl
  unfold decFlags flN flZ flV flDov
  cases ov <;> refine ⟨?_, ?_, ?_, ?_, fun j hj => ?_⟩ <;>
    simp (disch := omega) only [putFlag_same, putFlag_other, hz, if_true, Bool.false_eq_true, if_false, Bool.or_false,
      Bool.or_true]

/-- A result of `l + 1` bytes as R506 to R510 give it. -/
structure StoresDecimal (r : DecResult) (f : Dword) (l n : Nat) (v : Int) : Prop where
  len : r.bytes.length = l + 1
  flags : FlgDec f r.flg (kept n v) (decide (10 ^ n ≤ v.natAbs))
  overflow : r.overflow = decide (10 ^ n ≤ v.natAbs)

theorem packResult_spec (f : Dword) (l : Nat) {uns : Bool} {v : Int} (hu : uns = true → 0 ≤ v) :
    StoresDecimal (packResult f (l + 1) uns v) f l (2 * l + 1) v ∧
    IsPacked (packResult f (l + 1) uns v).bytes (kept (2 * l + 1) v)
      (if uns = true then 0xF else if kept (2 * l + 1) v < 0 then 0xD else 0xC) := by
  obtain ⟨hpacked, hlen⟩ := isPacked_digits (n := 2 * l + 1) (g := signOf uns (kept (2 * l + 1) v))
    (by omega) (kept_natAbs_lt _ v) (signOf_range _ _) (signNegative_signOf fun h => kept_nonneg (hu h))
  exact ⟨⟨by
    have : (packResult f (l + 1) uns v).bytes =
      packNibbles (decDigits (2 * l + 1) (kept (2 * l + 1) v).natAbs ++ [signOf uns (kept (2 * l + 1) v)]) := rfl
    rw [this]; omega, decFlags_spec f _ _, rfl⟩, hpacked⟩

/-- One zoned byte: its zone and its digit. -/
theorem zonedByte {z d : Nat} (hz : z < 16) (hd : d < 16) :
    (BitVec.ofNat 8 (16 * z + d)).toNat / 16 = z ∧ (BitVec.ofNat 8 (16 * z + d)).toNat % 16 = d := by
  rw [BitVec.toNat_ofNat]
  omega

/-- Digits under zones of 0xF but for the last, `g`, are a zoned operand. -/
theorem isZoned_digits {ds : List Nat} {d g : Nat} {v : Int} (hds : ∀ x ∈ ds, x ≤ 9) (hd : d ≤ 9)
    (hv : decNat (ds ++ [d]) = v.natAbs) (hg : 10 ≤ g ∧ g < 16) (hs : signNegative g = decide (v < 0)) :
    IsZoned (ds.map (fun x => BitVec.ofNat 8 (0xF0 + x)) ++ [BitVec.ofNat 8 (16 * g + d)]) v g := by
  have hzone : ∀ x ∈ ds, (BitVec.ofNat 8 (0xF0 + x)).toNat / 16 = 15 ∧ (BitVec.ofNat 8 (0xF0 + x)).toNat % 16 = x :=
    fun x hx => zonedByte (z := 15) (by decide) (by have := hds x hx; omega)
  obtain ⟨hlast, hdig⟩ := zonedByte (z := g) (d := d) (by omega) (by omega)
  have hnums : (ds.map (fun x => BitVec.ofNat 8 (0xF0 + x)) ++ [BitVec.ofNat 8 (16 * g + d)]).map
      (fun b => b.toNat % 16) = ds ++ [d] := by
    rw [List.map_append, List.map_map, List.map_singleton, hdig]
    congr 1
    conv => rhs; rw [← List.map_id ds]
    exact List.map_congr_left fun x hx => (hzone x hx).2
  have hdigits : ∀ b ∈ ds.map (fun x => BitVec.ofNat 8 (0xF0 + x)) ++ [BitVec.ofNat 8 (16 * g + d)], b.toNat % 16 ≤ 9 := by
    intro b hb
    have hmem : b.toNat % 16 ∈ ds ++ [d] := hnums ▸ List.mem_map_of_mem hb
    rw [List.mem_append, List.mem_singleton] at hmem
    obtain hmem | heq := hmem
    · exact hds _ hmem
    · omega
  have hzones : ∀ b ∈ ds.map (fun x => BitVec.ofNat 8 (0xF0 + x)), b.toNat / 16 = 15 := by
    intro b hb
    obtain ⟨x, hx, rfl⟩ := List.mem_map.1 hb
    exact (hzone x hx).1
  refine ⟨?_, ?_, by rw [List.getLastD_concat, hlast], by rwa [List.dropLast_concat]⟩
  · simp only [zonedBad, List.getLastD_concat, hlast, List.dropLast_concat]
    rw [if_neg, if_pos, if_neg]
    · rfl
    · rw [List.any_eq_true]
      rintro ⟨b, hb, hbad⟩
      simp [hzones b hb] at hbad
    · simp only [Bool.or_eq_true, decide_eq_true_eq]
      omega
    · rw [List.any_eq_true]
      rintro ⟨b, hb, hbad⟩
      have := hdigits b hb
      simp only [decide_eq_true_eq] at hbad
      omega
  · simp only [zonedVal, hnums, List.getLastD_concat, hlast, hv, hs]
    exact signed_natAbs v

theorem zoneResult_spec (f : Dword) (l : Nat) {uns : Bool} {v : Int} (hu : uns = true → 0 ≤ v) :
    StoresDecimal (zoneResult f (l + 1) uns v) f l (l + 1) v ∧
    IsZoned (zoneResult f (l + 1) uns v).bytes (kept (l + 1) v)
      (if uns = true then 0xF else if kept (l + 1) v < 0 then 0xD else 0xC) := by
  have hbytes : (zoneResult f (l + 1) uns v).bytes =
      (decDigits l ((kept (l + 1) v).natAbs / 10)).map (fun x => BitVec.ofNat 8 (0xF0 + x)) ++
        [BitVec.ofNat 8 (16 * signOf uns (kept (l + 1) v) + (kept (l + 1) v).natAbs % 10)] := by
    simp [zoneResult, storedVal_eq_kept, decDigits]
  have hval : decNat (decDigits l ((kept (l + 1) v).natAbs / 10) ++ [(kept (l + 1) v).natAbs % 10]) =
      (kept (l + 1) v).natAbs := by
    have h := decNat_decDigits (l + 1) (kept (l + 1) v).natAbs
    rwa [Nat.mod_eq_of_lt (kept_natAbs_lt _ v)] at h
  refine ⟨⟨by rw [hbytes]; simp, decFlags_spec f _ _, rfl⟩, ?_⟩
  rw [hbytes]
  exact isZoned_digits (decDigits_le _ _) (by omega) hval (signOf_range _ _)
    (signNegative_signOf fun h => kept_nonneg (hu h))

/-! ### Decimal operands in memory (R466, R502, R507, R523) -/

section Operands
variable {s : State} {c : Nat} {k : Core} {op : BitVec 6} {l1 l2 b1 b2 : BitVec 5} {d1 d2 : BitVec 10}

@[simp] theorem op48_ds : op48 (Fmt.ds op l1 l2 b1 d1 b2 d2).toNat = op.toNat := Fmt.ds_op op l1 l2 b1 d1 b2 d2
@[simp] theorem len1_ds : len1 (Fmt.ds op l1 l2 b1 d1 b2 d2).toNat = l1.toNat + 1 := by simp [len1]
@[simp] theorem len2_ds : len2 (Fmt.ds op l1 l2 b1 d1 b2 d2).toNat = l2.toNat + 1 := by simp [len2]
@[simp] theorem eaDs1_ds : eaDs1 k (Fmt.ds op l1 l2 b1 d1 b2 d2).toNat = k.reg b1.toNat + d1.setWidth 64 := by
  simp [eaDs1, zext_toNat]
@[simp] theorem eaDs2_ds : eaDs2 k (Fmt.ds op l1 l2 b1 d1 b2 d2).toNat = k.reg b2.toNat + d2.setWidth 64 := by
  simp [eaDs2, zext_toNat]

/-- A decimal result that fits, or whose overflow is not trapped, is stored where the core may store it. -/
theorem State.decDone_stores {m off n : Nat} {a : Dword} {r : DecResult} (bus : Bus) (hk : k = s.core c)
    (hst : s.storesAt c a n m off) (hlen : r.bytes.length = n) (hov : r.overflow = true → k.dcx.getLsbD 8 = false) :
    s.decDone bus c k a [] r = .ok ((s.memWrite m off r.bytes).setCore c { k with flg := r.flg }, none) := by
  subst hk hlen
  have htrap : (r.overflow && flagOf (s.core c).dcx 8) = false := by
    cases hr : r.overflow with
    | false => rfl
    | true => simpa [flagOf] using hov hr
  simp only [State.decDone, List.min?_nil, htrap, State.coreStore_of_storesAt bus hst, State.memWrite_core, State.done]
  rfl

/-- What the DS instruction of code `j` stores: ADDP, SUBP, MULP, DIVP, MOVP, PACK, UNPK and EDIT. -/
def dsResult (j : Nat) (k : Core) (l : Nat) (o1 o2 : Bytes) : DecResult :=
  if j = 0 then packResult k.flg l false (packedVal o1 + packedVal o2)
  else if j = 1 then packResult k.flg l false (packedVal o1 - packedVal o2)
  else if j = 2 then packResult k.flg l false (packedVal o1 * packedVal o2)
  else if j = 3 then packResult k.flg l false (divRound (State.rmOf k) (packedVal o1) (packedVal o2))
  else if j = 5 then packResult k.flg l (packedSign o2 = 0xF) (packedVal o2)
  else if j = 6 then packResult k.flg l (zonedUnsigned o2) (zonedVal o2)
  else if j = 7 then zoneResult k.flg l (packedSign o2 = 0xF) (packedVal o2)
  else editResult k.flg o1 o2

/-- The subcodes that the operands of code `j` give. -/
def dsBad (j : Nat) (o1 o2 : Bytes) : List Nat :=
  (if (decide (j ≤ 4) || j = 8) && decide (j ≠ 8) then packedBad 1 o1 else []) ++
  (if j = 6 then zonedBad o2 else packedBad 2 o2) ++
  (if j = 8 && editBad o1 o2 then [6] else [])

/-- The instruction of code `j` reads operand 1. -/
def dsReads (j : Nat) : Bool := decide (j ≤ 4) || j = 8

/-- Operand 1 as the instruction of code `j` finds it: loaded, or empty where it is not read. -/
def State.dsFinds (s : State) (c : Nat) (k : Core) (j n : Nat) (a : Dword) (o : Bytes) : Prop :=
  (if dsReads j = true then s.coreRead State.coreBus c k a n 2 false else .ok (s, [])) = .ok (s, o)

theorem State.dsFinds_read {j n : Nat} {a : Dword} {o : Bytes} (hk : k = s.core c) (hj : dsReads j = true)
    (h : s.loadsAs c a o) (hn : o.length = n) : s.dsFinds c k j n a o := by
  subst hk
  rw [State.dsFinds, if_pos hj]
  exact State.coreRead_of_loadsAs _ 2 false h hn (fun h => nomatch h)

theorem State.dsFinds_skip {j n : Nat} {a : Dword} (hj : dsReads j = false) : s.dsFinds c k j n a [] := by
  rw [State.dsFinds, hj, if_neg (by decide)]

theorem State.doDs_stored {j m off : Nat} {a1 a2 : Dword} {o1 o2 : Bytes} (hop : op.toNat = j + 0x20)
    (hj : j ≤ 8) (hj4 : j ≠ 4) (hk : k = s.core c)
    (ha1 : a1 = k.reg b1.toNat + d1.setWidth 64) (ha2 : a2 = k.reg b2.toNat + d2.setWidth 64)
    (h1 : s.dsFinds c k j (l1.toNat + 1) a1 o1)
    (h2 : s.loadsAs c a2 o2) (hl2 : o2.length = l2.toNat + 1) (hst : s.storesAt c a1 (l1.toNat + 1) m off)
    (hbad : dsBad j o1 o2 = []) (hdiv : j = 3 → packedVal o2 ≠ 0) :
    s.doDs State.coreBus c k (Fmt.ds op l1 l2 b1 d1 b2 d2).toNat =
      s.decDone State.coreBus c k a1 [] (dsResult j k (l1.toNat + 1) o1 o2) := by
  subst hk ha1 ha2
  have hcode : op.toNat - 0x20 = j := by omega
  unfold State.dsFinds dsReads at h1
  unfold dsBad at hbad
  unfold State.doDs
  simp only [op48_ds, len1_ds, len2_ds, eaDs1_ds, eaDs2_ds, hcode, hj4, if_false, h1, hbad,
    State.coreMayStore_of_storesAt 3 false false hst (fun h => nomatch h),
    State.coreRead_of_loadsAs State.coreBus 2 false h2 hl2 (fun h => nomatch h)]
  simp only [dsResult, apply_ite (State.decDone State.coreBus s c (s.core c)
    ((s.core c).reg b1.toNat + d1.setWidth 64) [])]
  by_cases h3 : j = 3
  · subst h3
    simp [hdiv rfl]
  · simp only [h3, if_false]

/-- The DS instructions that store run where their operands are valid and their overflow is not trapped. -/
theorem runs_ds {j m off : Nat} {a1 a2 : Dword} {o1 o2 : Bytes} {i : Instr} {r : DecResult}
    (hop : op.toNat = j + 0x20) (hj : j ≤ 8) (hj4 : j ≠ 4) (hk : k = s.core c) (h : s.atInstr c 6)
    (ha1 : a1 = k.reg b1.toNat + d1.setWidth 64) (ha2 : a2 = k.reg b2.toNat + d2.setWidth 64)
    (h1 : s.dsFinds c k j (l1.toNat + 1) a1 o1)
    (h2 : s.loadsAs c a2 o2) (hl2 : o2.length = l2.toNat + 1) (hst : s.storesAt c a1 (l1.toNat + 1) m off)
    (hbad : dsBad j o1 o2 = []) (hdiv : j = 3 → packedVal o2 ≠ 0)
    (hr : r = dsResult j k (l1.toNat + 1) o1 o2) (hlen : r.bytes.length = l1.toNat + 1)
    (hov : r.overflow = true → k.dcx.getLsbD 8 = false)
    (hi : exec i s = onCore c (s.runRow c (inRow op.toNat op.toNat (.w48 (Fmt.ds op l1 l2 b1 d1 b2 d2)))
      (.w48 (Fmt.ds op l1 l2 b1 d1 b2 d2)))) :
    ∃ t, exec i s = .next t ∧ (s.memWrite m off r.bytes).ran t c { k with flg := r.flg, pc := k.pc + 6 }
      (s.bound c k (.w48 (Fmt.ds op l1 l2 b1 d1 b2 d2))) := by
  have hill : State.illWord c k (.w48 (Fmt.ds op l1 l2 b1 d1 b2 d2)) = [] := by
    simp [State.illWord, State.ill48, hop, hj]
  have L : Legal s c k (inRow op.toNat op.toNat (.w48 (Fmt.ds op l1 l2 b1 d1 b2 d2)))
      (.w48 (Fmt.ds op l1 l2 b1 d1 b2 d2)) _ :=
    ⟨by simp [inRow, opcodeOf], by simp [wordLenOk], hill, rfl⟩
  have hsem : s.semWord State.coreBus c k (.w48 (Fmt.ds op l1 l2 b1 d1 b2 d2)) =
      s.doDs State.coreBus c k (Fmt.ds op l1 l2 b1 d1 b2 d2).toNat := by
    simp [State.semWord, State.sem48, hop, hj]
  rw [State.doDs_stored hop hj hj4 hk ha1 ha2 h1 h2 hl2 hst hbad hdiv, ← hr,
    State.decDone_stores _ hk hst hlen hov] at hsem
  exact L.runsOn hk h hi hsem (by rw [State.memWrite_core, hk])

/-- The same for a result of value `v`, in the terms of R506 to R510. -/
theorem runs_dsValue {j m off n : Nat} {a1 a2 : Dword} {o1 o2 : Bytes} {i : BitVec 48 → Instr} {v : Int} {P : Bytes → Prop}
    (hop : op.toNat = j + 0x20) (hj : j ≤ 8) (hj4 : j ≠ 4) (hk : k = s.core c) (h : s.atInstr c 6)
    (ha1 : a1 = k.reg b1.toNat + d1.setWidth 64) (ha2 : a2 = k.reg b2.toNat + d2.setWidth 64)
    (h1 : s.dsFinds c k j (l1.toNat + 1) a1 o1)
    (h2 : s.loadsAs c a2 o2) (hl2 : o2.length = l2.toNat + 1) (hst : s.storesAt c a1 (l1.toNat + 1) m off)
    (hbad : dsBad j o1 o2 = []) (hdiv : j = 3 → packedVal o2 ≠ 0)
    (hr : StoresDecimal (dsResult j k (l1.toNat + 1) o1 o2) k.flg l1.toNat n v ∧
      P (dsResult j k (l1.toNat + 1) o1 o2).bytes)
    (hfits : v.natAbs < 10 ^ n ∨ k.dcx.getLsbD 8 = false)
    (hi : exec (i (Fmt.ds op l1 l2 b1 d1 b2 d2)) s = onCore c (s.runRow c (inRow op.toNat op.toNat (.w48 (Fmt.ds op l1 l2 b1 d1 b2 d2)))
      (.w48 (Fmt.ds op l1 l2 b1 d1 b2 d2)))) :
    ∃ t w f bs, w = Fmt.ds op l1 l2 b1 d1 b2 d2 ∧ exec (i w) s = .next t ∧ bs.length = l1.toNat + 1 ∧ P bs ∧
      FlgDec k.flg f (kept n v) (decide (10 ^ n ≤ v.natAbs)) ∧
      (s.memWrite m off bs).ran t c { k with flg := f, pc := k.pc + 6 } (s.bound c k (.w48 w)) := by
  obtain ⟨⟨hlen, hflags, hoverflow⟩, hP⟩ := hr
  obtain ⟨t, hexec, hran⟩ := runs_ds hop hj hj4 hk h ha1 ha2 h1 h2 hl2 hst hbad hdiv rfl hlen (fun ho => by
    rw [hoverflow, decide_eq_true_eq] at ho
    exact hfits.resolve_left (by omega)) hi
  exact ⟨t, _, _, _, rfl, hexec, hlen, hP, hflags, hran⟩

/-- The same for a packed result. -/
theorem runs_dsPacked {j m off g : Nat} {a1 a2 : Dword} {o1 o2 : Bytes} {i : BitVec 48 → Instr} {v : Int} {uns : Bool}
    (hop : op.toNat = j + 0x20) (hj : j ≤ 8) (hj4 : j ≠ 4) (hk : k = s.core c) (h : s.atInstr c 6)
    (ha1 : a1 = k.reg b1.toNat + d1.setWidth 64) (ha2 : a2 = k.reg b2.toNat + d2.setWidth 64)
    (h1 : s.dsFinds c k j (l1.toNat + 1) a1 o1)
    (h2 : s.loadsAs c a2 o2) (hl2 : o2.length = l2.toNat + 1) (hst : s.storesAt c a1 (l1.toNat + 1) m off)
    (hbad : dsBad j o1 o2 = []) (hdiv : j = 3 → packedVal o2 ≠ 0)
    (hr : dsResult j k (l1.toNat + 1) o1 o2 = packResult k.flg (l1.toNat + 1) uns v) (hu : uns = true → 0 ≤ v)
    (hg : g = if uns = true then 0xF else if kept (2 * l1.toNat + 1) v < 0 then 0xD else 0xC)
    (hfits : v.natAbs < 10 ^ (2 * l1.toNat + 1) ∨ k.dcx.getLsbD 8 = false)
    (hi : exec (i (Fmt.ds op l1 l2 b1 d1 b2 d2)) s = onCore c (s.runRow c (inRow op.toNat op.toNat (.w48 (Fmt.ds op l1 l2 b1 d1 b2 d2)))
      (.w48 (Fmt.ds op l1 l2 b1 d1 b2 d2)))) :
    ∃ t w f bs, w = Fmt.ds op l1 l2 b1 d1 b2 d2 ∧ exec (i w) s = .next t ∧ bs.length = l1.toNat + 1 ∧
      IsPacked bs (kept (2 * l1.toNat + 1) v) g ∧
      FlgDec k.flg f (kept (2 * l1.toNat + 1) v) (decide (10 ^ (2 * l1.toNat + 1) ≤ v.natAbs)) ∧
      (s.memWrite m off bs).ran t c { k with flg := f, pc := k.pc + 6 } (s.bound c k (.w48 w)) := by
  refine runs_dsValue (P := fun bs => IsPacked bs (kept (2 * l1.toNat + 1) v) g) hop hj hj4 hk h ha1 ha2 h1 h2 hl2 hst
    hbad hdiv ?_ hfits hi
  rw [hr, hg]
  exact packResult_spec k.flg l1.toNat hu

end Operands

/-- An operand without a sign has no negative value. -/
theorem packedVal_nonneg {o : Bytes} (h : decide (packedSign o = 0xF) = true) : 0 ≤ packedVal o := by
  rw [decide_eq_true_eq] at h
  rw [packedVal, h]
  exact Int.natCast_nonneg _

theorem zonedVal_nonneg {o : Bytes} (h : zonedUnsigned o = true) : 0 ≤ zonedVal o := by
  simp only [zonedUnsigned, Bool.or_eq_true, decide_eq_true_eq] at h
  have hs : signNegative ((o.getLastD 0).toNat / 16) = false := by
    obtain h | h := h <;> rw [h] <;> rfl
  rw [zonedVal, hs]
  exact Int.natCast_nonneg _

/-- Settles O25. -/
theorem packedDecimalArithmetic : Obligations.PackedDecimalArithmetic := by
  unfold Obligations.PackedDecimalArithmetic
  refine ⟨?addp, ?subp, ?mulp, ?divp, ?movp, ?pack⟩
  case addp =>
    intro s c m off k l1 l2 b1 b2 d1 d2 a1 a2 o1 o2 v hk h ha1 ha2 h1 hl1 h2 hl2 hst hbad1 hbad2 hv hfits
    refine runs_dsPacked (i := .addp c) (op := 0x20) (j := 0) (uns := false) rfl (by decide) (by decide) hk h ha1 ha2
      (State.dsFinds_read hk rfl h1 hl1) h2 hl2 hst (by simp [dsBad, hbad1, hbad2]) (by simp) (by rw [hv]; rfl)
      (by simp) ?_ hfits rfl
    rfl
  case subp =>
    intro s c m off k l1 l2 b1 b2 d1 d2 a1 a2 o1 o2 v hk h ha1 ha2 h1 hl1 h2 hl2 hst hbad1 hbad2 hv hfits
    refine runs_dsPacked (i := .subp c) (op := 0x21) (j := 1) (uns := false) rfl (by decide) (by decide) hk h ha1 ha2
      (State.dsFinds_read hk rfl h1 hl1) h2 hl2 hst (by simp [dsBad, hbad1, hbad2]) (by simp) (by rw [hv]; rfl)
      (by simp) ?_ hfits rfl
    rfl
  case mulp =>
    intro s c m off k l1 l2 b1 b2 d1 d2 a1 a2 o1 o2 v hk h ha1 ha2 h1 hl1 h2 hl2 hst hbad1 hbad2 hv hfits
    refine runs_dsPacked (i := .mulp c) (op := 0x22) (j := 2) (uns := false) rfl (by decide) (by decide) hk h ha1 ha2
      (State.dsFinds_read hk rfl h1 hl1) h2 hl2 hst (by simp [dsBad, hbad1, hbad2]) (by simp) (by rw [hv]; rfl)
      (by simp) ?_ hfits rfl
    rfl
  case divp =>
    intro s c m off k l1 l2 b1 b2 d1 d2 a1 a2 o1 o2 v hk h ha1 ha2 h1 hl1 h2 hl2 hst hbad1 hbad2 hne hv hfits
    refine runs_dsPacked (i := .divp c) (op := 0x23) (j := 3) (uns := false) rfl (by decide) (by decide) hk h ha1 ha2
      (State.dsFinds_read hk rfl h1 hl1) h2 hl2 hst (by simp [dsBad, hbad1, hbad2]) (fun _ => hne) (by rw [hv]; rfl)
      (by simp) ?_ hfits rfl
    rfl
  case movp =>
    intro s c m off k l1 l2 b1 b2 d1 d2 a1 a2 o2 v hk h ha1 ha2 h2 hl2 hst hbad2 hv hfits
    refine runs_dsPacked (i := .movp c) (op := 0x25) (j := 5) (uns := decide (packedSign o2 = 0xF)) rfl (by decide) (by decide) hk h ha1
      ha2 (State.dsFinds_skip rfl) h2 hl2 hst (by simp [dsBad, hbad2]) (by simp) (by rw [hv]; rfl)
      (fun hs => hv ▸ packedVal_nonneg hs) ?_ hfits rfl
    simp only [decide_eq_true_eq]
  case pack =>
    intro s c m off k l1 l2 b1 b2 d1 d2 a1 a2 o2 v hk h ha1 ha2 h2 hl2 hst hbad2 hv hfits
    refine runs_dsPacked (i := .pack c) (op := 0x26) (j := 6) (uns := zonedUnsigned o2) rfl (by decide) (by decide) hk h ha1
      ha2 (State.dsFinds_skip rfl) h2 hl2 hst (by simp [dsBad, hbad2]) (by simp) (by rw [hv]; rfl)
      (fun hs => hv ▸ zonedVal_nonneg hs) ?_ hfits rfl
    rfl

end Sys2Proof.Machine

/-! Proofs of the statement on decimal comparison, conversion, shifting and editing (R514 to R522). -/

namespace Sys2Proof.Machine

/-! ### CMPP (R515) -/

theorem cmpFlags_spec (f : Dword) (x y : Int) :
    FlgDigits f (cmpFlags f x y) (decide (y ≤ x)) (decide (x = y)) (decide (x < y)) := by
  have hz : (x == y) = decide (x = y) := rfl
  unfold cmpFlags flC flZ flN flV
  refine ⟨?_, ?_, ?_, ?_, fun j hj => ?_⟩ <;> simp (disch := omega) only [putFlag_same, putFlag_other, hz]

section Operands
variable {s : State} {c : Nat} {k : Core} {op : BitVec 6} {l1 l2 b1 b2 gr : BitVec 5} {d1 d2 : BitVec 10} {sh : BitVec 7}

theorem semWord_cmpp {o1 o2 : Bytes} (hk : k = s.core c)
    (h1 : s.loadsAs c (k.reg b1.toNat + d1.setWidth 64) o1) (hl1 : o1.length = l1.toNat + 1)
    (h2 : s.loadsAs c (k.reg b2.toNat + d2.setWidth 64) o2) (hl2 : o2.length = l2.toNat + 1)
    (hbad1 : packedBad 1 o1 = []) (hbad2 : packedBad 2 o2 = []) :
    s.semWord State.coreBus c k (.w48 (Fmt.ds 0x24 l1 l2 b1 d1 b2 d2)) =
      s.done c { k with flg := cmpFlags k.flg (packedVal o1) (packedVal o2) } := by
  subst hk
  have hsem : s.semWord State.coreBus c (s.core c) (.w48 (Fmt.ds 0x24 l1 l2 b1 d1 b2 d2)) =
      s.doDs State.coreBus c (s.core c) (Fmt.ds 0x24 l1 l2 b1 d1 b2 d2).toNat := by
    simp [State.semWord, State.sem48]
  have hcode : (0x24 : BitVec 6).toNat - 0x20 = 4 := rfl
  rw [hsem]
  unfold State.doDs
  simp only [op48_ds, len1_ds, len2_ds, eaDs1_ds, eaDs2_ds, hcode,
    State.coreRead_of_loadsAs State.coreBus 2 false h1 hl1 (by simp),
    State.coreRead_of_loadsAs State.coreBus 2 false h2 hl2 (by simp), hbad1, hbad2, Nat.le_refl, decide_true,
    Bool.true_or, if_true]
  rfl

theorem legal_cmpp (s : State) (c : Nat) (k : Core) :
    Legal s c k (inRow 0x24 0x24 (.w48 (Fmt.ds 0x24 l1 l2 b1 d1 b2 d2))) (.w48 (Fmt.ds 0x24 l1 l2 b1 d1 b2 d2))
      (s.bound c k (.w48 (Fmt.ds 0x24 l1 l2 b1 d1 b2 d2))) :=
  ⟨by simp [inRow, opcodeOf], by simp [wordLenOk], by simp [State.illWord, State.ill48], rfl⟩

/-! ### Shifts and conversions (R514, R516) -/

@[simp] theorem op48_dh : op48 (Fmt.dh op l1 sh b1 d1).toNat = op.toNat := Fmt.dh_op op l1 sh b1 d1
@[simp] theorem len1_dh : len1 (Fmt.dh op l1 sh b1 d1).toNat = l1.toNat + 1 := by simp [len1]
@[simp] theorem eaDh_dh : eaDh k (Fmt.dh op l1 sh b1 d1).toNat = k.reg b1.toNat + d1.setWidth 64 := by
  simp [eaDh, zext_toNat]
@[simp] theorem shiftDh_dh : shiftDh (Fmt.dh op l1 sh b1 d1).toNat = sh.toInt := by simp [shiftDh]
@[simp] theorem op48_dr : op48 (Fmt.dr op l1 gr b1 d1).toNat = op.toNat := Fmt.dr_op op l1 gr b1 d1
@[simp] theorem len1_dr : len1 (Fmt.dr op l1 gr b1 d1).toNat = l1.toNat + 1 := by simp [len1]
@[simp] theorem eaDr_dr : eaDr k (Fmt.dr op l1 gr b1 d1).toNat = k.reg b1.toNat + d1.setWidth 64 := by
  simp [eaDr, zext_toNat]

/-- A legal instruction that stores a packed result runs. -/
theorem Legal.runsPacked {own : Bool} {w : BitVec 48} {i : Instr} {m off : Nat} {a : Dword} {v : Int} {uns : Bool}
    (L : Legal s c k own (.w48 w) (s.bound c k (.w48 w))) (hk : k = s.core c) (h : s.atInstr c 6)
    (hi : exec i s = onCore c (s.runRow c own (.w48 w)))
    (hsem : s.semWord State.coreBus c k (.w48 w) =
      s.decDone State.coreBus c k a [] (packResult k.flg (l1.toNat + 1) uns v))
    (hst : s.storesAt c a (l1.toNat + 1) m off) (hu : uns = true → 0 ≤ v)
    (hfits : v.natAbs < 10 ^ (2 * l1.toNat + 1) ∨ k.dcx.getLsbD 8 = false) :
    ∃ t f bs, exec i s = .next t ∧ bs.length = l1.toNat + 1 ∧
      IsPacked bs (kept (2 * l1.toNat + 1) v)
        (if uns = true then 0xF else if kept (2 * l1.toNat + 1) v < 0 then 0xD else 0xC) ∧
      FlgDec k.flg f (kept (2 * l1.toNat + 1) v) (decide (10 ^ (2 * l1.toNat + 1) ≤ v.natAbs)) ∧
      (s.memWrite m off bs).ran t c { k with flg := f, pc := k.pc + 6 } (s.bound c k (.w48 w)) := by
  obtain ⟨⟨hlen, hflags, hoverflow⟩, hpacked⟩ := packResult_spec k.flg l1.toNat hu
  rw [State.decDone_stores _ hk hst hlen fun ho => by
    rw [hoverflow, decide_eq_true_eq] at ho
    exact hfits.resolve_left (by omega)] at hsem
  obtain ⟨t, hexec, hran⟩ := L.runsOn hk h hi hsem (by rw [State.memWrite_core, hk])
  exact ⟨t, _, _, hexec, hlen, hpacked, hflags, hran⟩

theorem legal_shfp (s : State) (c : Nat) (k : Core) (hsh : sh ≠ 64) :
    Legal s c k (inRow 0x29 0x29 (.w48 (Fmt.dh 0x29 l1 sh b1 d1))) (.w48 (Fmt.dh 0x29 l1 sh b1 d1))
      (s.bound c k (.w48 (Fmt.dh 0x29 l1 sh b1 d1))) := by
  have hne : sh.toNat ≠ 64 := fun h => hsh (BitVec.eq_of_toNat_eq h)
  exact ⟨by simp [inRow, opcodeOf], by simp [wordLenOk], by simp [State.illWord, State.ill48, State.when', hne], rfl⟩

theorem legal_dr (s : State) (c : Nat) (k : Core) (hop : op.toNat = 0x2A ∨ op.toNat = 0x2B) :
    Legal s c k (inRow op.toNat op.toNat (.w48 (Fmt.dr op l1 gr b1 d1))) (.w48 (Fmt.dr op l1 gr b1 d1))
      (s.bound c k (.w48 (Fmt.dr op l1 gr b1 d1))) := by
  refine ⟨by simp [inRow, opcodeOf], by simp [wordLenOk], ?_, rfl⟩
  obtain h | h := hop <;> simp [State.illWord, State.ill48, State.when', h]

theorem semWord_shfp {m off : Nat} {o : Bytes} (hk : k = s.core c)
    (h1 : s.loadsAs c (k.reg b1.toNat + d1.setWidth 64) o) (hl : o.length = l1.toNat + 1)
    (hst : s.storesAt c (k.reg b1.toNat + d1.setWidth 64) (l1.toNat + 1) m off) (hbad : packedBad 1 o = []) :
    s.semWord State.coreBus c k (.w48 (Fmt.dh 0x29 l1 sh b1 d1)) =
      s.decDone State.coreBus c k (k.reg b1.toNat + d1.setWidth 64) []
        (packResult k.flg (l1.toNat + 1) (packedSign o = 0xF)
          (shiftVal (natBits k.dcx.toNat 2 0) (packedVal o) sh.toInt)) := by
  subst hk
  simp [State.semWord, State.sem48, State.doShfp, State.coreRead_of_loadsAs State.coreBus 2 false h1 hl (by simp),
    State.coreMayStore_of_storesAt 3 false false hst (by simp), hbad, State.rmOf]

theorem semWord_cvbp {m off : Nat} (hk : k = s.core c)
    (hst : s.storesAt c (k.reg b1.toNat + d1.setWidth 64) (l1.toNat + 1) m off) :
    s.semWord State.coreBus c k (.w48 (Fmt.dr 0x2A l1 gr b1 d1)) =
      s.decDone State.coreBus c k (k.reg b1.toNat + d1.setWidth 64) []
        (packResult k.flg (l1.toNat + 1) false (k.reg gr.toNat).toInt) := by
  subst hk
  simp [State.semWord, State.sem48, State.doCvbp, State.coreMayStore_of_storesAt 3 false false hst (by simp)]

theorem semWord_cvpb {o : Bytes} (hk : k = s.core c) (h1 : s.loadsAs c (k.reg b1.toNat + d1.setWidth 64) o)
    (hl : o.length = l1.toNat + 1) (hbad : packedBad 1 o = []) (hlo : -(2 ^ 63) ≤ packedVal o)
    (hhi : packedVal o < 2 ^ 63) :
    s.semWord State.coreBus c k (.w48 (Fmt.dr 0x2B l1 gr b1 d1)) =
      s.done c ({ k with flg := putFlag (flagsNZ k.flg (BitVec.ofInt 64 (packedVal o))) flV false }.put gr.toNat
        (BitVec.ofInt 64 (packedVal o))) := by
  subst hk
  simp [State.semWord, State.sem48, State.doCvpb, State.coreRead_of_loadsAs State.coreBus 2 false h1 hl (by simp), hbad]
  omega

end Operands

/-! ### EDIT (R518 to R521) -/

theorem editOut_length (pad : BitVec 8) (neg : Bool) (mask : Bytes) (sig : Bool) (ds : List Nat) :
    (editOut pad neg sig ds mask).length = mask.length := by
  induction mask generalizing sig ds with
  | nil => rfl
  | cons b t ih =>
    rw [editOut]
    split <;> simp [ih]

/-- A shift of a value that is not negative gives none that is. -/
theorem shiftVal_nonneg (rm : Nat) {v : Int} (sh : Int) (h : 0 ≤ v) : 0 ≤ shiftVal rm v sh := by
  unfold shiftVal
  split
  · exact Int.mul_nonneg h (Int.natCast_nonneg _)
  · rw [if_neg (by omega)]
    exact Int.natCast_nonneg _

theorem toInt_ofInt_of_fits {v : Int} (hlo : -(2 ^ 63) ≤ v) (hhi : v < 2 ^ 63) : (BitVec.ofInt 64 v).toInt = v := by
  rw [BitVec.toInt_ofInt, Int.bmod_eq_of_le] <;> omega

theorem beq_zero_of_toInt {r : Dword} {v : Int} (h : r.toInt = v) : (r == 0) = decide (v = 0) := by
  have hiff : r = 0 ↔ v = 0 := by
    rw [← h, ← BitVec.toInt_inj]
    simp
  exact decide_eq_decide.2 hiff

/-- FLG after CVPB: N and Z tell of the result, V is clear. -/
theorem binaryFlags_spec (f r : Dword) :
    (putFlag (flagsNZ f r) flV false).getLsbD 1 = false ∧ (putFlag (flagsNZ f r) flV false).getLsbD 2 = (r == 0) ∧
    (putFlag (flagsNZ f r) flV false).getLsbD 3 = r.msb ∧
    ∀ j, j = 0 ∨ 4 ≤ j → (putFlag (flagsNZ f r) flV false).getLsbD j = f.getLsbD j := by
  unfold flagsNZ flN flZ flV
  refine ⟨?_, ?_, ?_, fun j hj => ?_⟩ <;> simp (disch := omega) only [putFlag_same, putFlag_other]

/-- Settles O26. -/
theorem decimalConversionsAndEditing : Obligations.DecimalConversionsAndEditing := by
  unfold Obligations.DecimalConversionsAndEditing
  refine ⟨?cmpp, ?unpk, ?edit, ?shfp, ?cvbp, ?cvpb⟩
  case cmpp =>
    intro s c k l1 l2 b1 b2 d1 d2 a1 a2 o1 o2 hk h ha1 ha2 h1 hl1 h2 hl2 hbad1 hbad2
    subst ha1 ha2
    obtain ⟨hC, hV, hZ, hN, hrest⟩ := cmpFlags_spec k.flg (packedVal o1) (packedVal o2)
    obtain ⟨t, hexec, hran⟩ := (legal_cmpp s c k).runs (i := .cmpp c (Fmt.ds 0x24 l1 l2 b1 d1 b2 d2)) _ hk h rfl
      (semWord_cmpp hk h1 hl1 h2 hl2 hbad1 hbad2)
    exact ⟨t, _, _, rfl, hexec, hC, hV, hZ, hN, hrest, hran⟩
  case unpk =>
    intro s c m off k l1 l2 b1 b2 d1 d2 a1 a2 o2 v hk h ha1 ha2 h2 hl2 hst hbad2 hv hfits
    have hr := zoneResult_spec k.flg l1.toNat (uns := decide (packedSign o2 = 0xF)) (v := v)
      (fun hs => hv ▸ packedVal_nonneg hs)
    simp only [decide_eq_true_eq] at hr
    rw [hv] at hr hfits ⊢
    exact runs_dsValue (i := .unpk c) (op := 0x27) (j := 7) (P := fun bs => IsZoned bs _ _) rfl (by decide) (by decide) hk
      h ha1 ha2 (State.dsFinds_skip rfl) h2 hl2 hst (by simp [dsBad, hbad2]) (by simp) hr hfits rfl
  case edit =>
    intro s c m off k l1 l2 b1 b2 d1 d2 a1 a2 o1 o2 hk h ha1 ha2 h1 hl1 h2 hl2 hst hbad2 hedit
    obtain ⟨t, hexec, hran⟩ := runs_ds (i := .edit c (Fmt.ds 0x28 l1 l2 b1 d1 b2 d2)) (op := 0x28) (j := 8)
      (r := editResult k.flg o1 o2) rfl (by decide)
      (by decide) hk h ha1 ha2 (State.dsFinds_read hk rfl h1 hl1) h2 hl2 hst (by simp [dsBad, hbad2, hedit]) (by simp)
      rfl (by rw [editResult, editOut_length, hl1]) (fun ho => nomatch ho) rfl
    refine ⟨t, _, _, _, rfl, hexec, ?_, ?_, ?_, ?_, ?_, hran⟩
    · rw [editResult, editOut_length, hl1]
    · simp [editResult]
    · simp (disch := omega) only [editResult, flN, flZ, putFlag_same, putFlag_other]
    · simp (disch := omega) only [editResult, flN, flZ, putFlag_same]
      rfl
    · intro i h2 h3
      simp (disch := omega) only [editResult, flN, flZ, putFlag_other]
  case shfp =>
    intro s c m off k l1 b1 sh d1 a1 o1 v hk h ha1 hsh h1 hl1 hst hbad1 hv hfits
    subst ha1
    have hunsigned : decide (packedSign o1 = 0xF) = true → 0 ≤ v := fun hs => by
      rw [hv]
      exact shiftVal_nonneg _ _ (packedVal_nonneg hs)
    obtain ⟨t, f, bs, hexec, hlen, hpacked, hflags, hran⟩ := (legal_shfp s c k hsh).runsPacked
      (i := .shfp c (Fmt.dh 0x29 l1 sh b1 d1)) (l1 := l1) hk h rfl (hv ▸ semWord_shfp hk h1 hl1 hst hbad1) hst hunsigned
      hfits
    simp only [decide_eq_true_eq] at hpacked
    exact ⟨t, _, f, bs, rfl, hexec, hlen, hpacked, hflags, hran⟩
  case cvbp =>
    intro s c m off k l1 gr b1 d1 a1 v hk h ha1 hst hv hfits
    subst ha1 hv
    obtain ⟨t, f, bs, hexec, hlen, hpacked, hflags, hran⟩ := (legal_dr (op := 0x2A) s c k (.inl rfl)).runsPacked
      (i := .cvbp c (Fmt.dr 0x2A l1 gr b1 d1)) (l1 := l1) hk h rfl (semWord_cvbp hk hst) hst (by simp) hfits
    exact ⟨t, _, f, bs, rfl, hexec, hlen, hpacked, hflags, hran⟩
  case cvpb =>
    intro s c k l1 gr b1 d1 a1 o1 v hk h ha1 h1 hl1 hbad1 hv hlo hhi
    subst ha1 hv
    have hint := toInt_ofInt_of_fits hlo hhi
    obtain ⟨t, hexec, hran⟩ := (legal_dr (op := 0x2B) s c k (.inr rfl)).runs
      (i := .cvpb c (Fmt.dr 0x2B l1 gr b1 d1)) _ hk h rfl (semWord_cvpb hk h1 hl1 hbad1 hlo hhi)
    obtain ⟨hV, hZ, hN, hrest⟩ := binaryFlags_spec k.flg (BitVec.ofInt 64 (packedVal o1))
    rw [BitVec.msb_eq_toInt, hint] at hN
    rw [beq_zero_of_toInt hint] at hZ
    exact ⟨t, _, _, _, rfl, hexec, hint, hV, hZ, hN, hrest, hran⟩

end Sys2Proof.Machine

/-! Proofs of the statements on repeats, service calls, budgets and requests (R490 to R497, R533 to R543, R573). -/

namespace Sys2Proof.Machine

/-! ### REP.I (R533 to R536) -/

@[simp] theorem State.core_charge (s : State) (c : Nat) (heat : Bool) (b : Option Nat) :
    (s.charge c heat b).core c = State.spend (s.core c) heat (s.cyclesOf b) := by
  unfold State.charge
  exact State.core_setCore s c _

/-- One cycle charged, and the pc moved on. -/
theorem State.charge_modPc (s : State) (c len : Nat) (heat : Bool) :
    (s.charge c heat (some 1)).modCore c (fun k => { k with pc := k.pc + BitVec.ofNat 64 len }) =
      { s.setCore c (State.spend { s.core c with pc := (s.core c).pc + BitVec.ofNat 64 len } heat 1) with
        free := s.free + 1 } := by
  have hcharge : s.charge c heat (some 1) = { s.setCore c (State.spend (s.core c) heat 1) with free := s.free + 1 } := rfl
  have hcore := State.core_charge s c heat (some 1)
  rw [hcharge] at hcore ⊢
  unfold State.modCore
  rw [hcore]
  exact congrArg (fun x : State => { x with free := s.free + 1 }) (s.setCore_setCore c _ _)

/-- A REP.I whose word it may repeat, and whose count register the word does not name, begins. -/
theorem exec_repI_begins {s : State} {c : Nat} {gc : BitVec 5} {w : RepWord}
    (h : s.atInstr c (4 + State.wordLen w)) (hw : wordLenOk w = true)
    (hill : State.illRep c (s.core c) (Fmt.im 0x33 gc 0 0).toNat w = []) (hname : gc.toNat ∉ State.namesReg w) :
    exec (.repI c (Fmt.im 0x33 gc 0 0) w) s = .next (State.repeatI State.coreBus c gc.toNat w (4 + State.wordLen w)
      ((s.core c).reg gc.toNat).toNat (s.charge c (!(s.core c).marshal) (some 1))) := by
  have hrow : (wordLenOk (.w32 (Fmt.im 0x33 gc 0 0)) && inRow 0x33 0x33 (.w32 (Fmt.im 0x33 gc 0 0)) && wordLenOk w) =
      true := by
    rw [hw, wordLenOk_im, inRow_im (by decide)]
    rfl
  have hcount : (State.namesReg w).contains gc.toNat = false := by simpa using hname
  calc exec (.repI c (Fmt.im 0x33 gc 0 0) w) s
      = onCore c (s.runRepI State.coreBus c (Fmt.im 0x33 gc 0 0) w) := congrArg (onCore c) (if_pos hrow)
    _ = .next (s.runRepI State.coreBus c (Fmt.im 0x33 gc 0 0) w) := onCore_of (State.coreRuns_lt h.1) _
    _ = _ := by
        simp only [State.runRepI, State.atBoundary_of h, d32_im, hill, hcount, State.when', Bool.false_eq_true, if_false,
          List.append_nil, List.min?_nil]

/-- One iteration of a REP.I that leaves `n` to run takes `s` to `t`. -/
def State.IteratesI (bus : Bus) (c gc n : Nat) (w : RepWord) (s u t : State) : Prop :=
  State.entryDue (s.core c) = none ∧ (∃ x, s.semWord bus c (s.core c) w = .ok (u, x)) ∧
  t = (u.modCore c (fun k => k.put gc (BitVec.ofNat 64 n))).charge c (!(s.core c).marshal) (s.bound c (s.core c) w)

/-- Iterations that succeed run one after another, and then the pc passes both words. -/
theorem State.repeatI_of_iterates {bus : Bus} {c gc n len : Nat} {w : RepWord} {f u : Nat → State}
    (h : ∀ i, i < n → State.IteratesI bus c gc (n - 1 - i) w (f i) (u i) (f (i + 1))) :
    State.repeatI bus c gc w len n (f 0) =
      (f n).modCore c (fun k => { k with pc := k.pc + BitVec.ofNat 64 len }) := by
  induction n generalizing f u with
  | zero => rfl
  | succ n ih =>
    obtain ⟨hdue, ⟨x, hsem⟩, hnext⟩ := h 0 (Nat.succ_pos n)
    have hrest := ih (f := fun i => f (i + 1)) (u := fun i => u (i + 1)) fun i hi => by
      have hi' := h (i + 1) (Nat.succ_lt_succ hi)
      rwa [show n + 1 - 1 - (i + 1) = n - 1 - i by omega] at hi'
    simp only [State.repeatI, State.takeEntry_none hdue, hsem]
    rw [← hrest, hnext]
    rfl

/-! ### REP.U (R30, R539, R541) -/

/-- A REP.U all of whose iterations succeed runs them, and then the pc passes both words. -/
theorem State.beginRepU_of_iterates {c count : Nat} {w : RepWord} {f u : Nat → State}
    (h : ∀ i, i < count → State.IteratesU State.coreBus c w (f i) (u i) (f (i + 1))) :
    (f 0).beginRepU State.coreBus c count w =
      (f count).modCore c (fun k' => { k' with pc := ((f 0).core c).pc + BitVec.ofNat 64 (4 + State.wordLen w) }) := by
  have hrep : State.repeatU State.coreBus c w count (f 0) = .ok (f count) := State.repeatU_add h 0
  simp only [State.beginRepU, hrep]

/-- A REP.U that finds fewer than 256 cycles left in its stride is held until the tick. -/
theorem exec_repU_held {s : State} {c b : Nat} {n : BitVec 6} {w : RepWord}
    (h : s.atInstr c (4 + State.wordLen w)) (hw : wordLenOk w = true)
    (hill : State.illRep c (s.core c) (Fmt.sh 0x34 0 0 n).toNat w = []) (hatomic : State.isAtomic w = false)
    (hosc : s.onOscillator c = false) (hb : s.bound c (s.core c) w = some b) (hfit : (n.toNat + 1) * b ≤ 256)
    (hused : 500 < (s.core c).used + 256) :
    exec (.repU c (Fmt.sh 0x34 0 0 n) w) s = .next (s.holdRepU c (n.toNat + 1) w) := by
  have hrow : (wordLenOk (.w32 (Fmt.sh 0x34 0 0 n)) && inRow 0x34 0x34 (.w32 (Fmt.sh 0x34 0 0 n)) && wordLenOk w) =
      true := by
    rw [hw, wordLenOk_sh, inRow_sh (by decide)]
    rfl
  have hlate : State.lateInStride (s.core c) = true := decide_eq_true hused
  have hexceeded : decide (256 < (n.toNat + 1) * b) = false := decide_eq_false (by omega)
  calc exec (.repU c (Fmt.sh 0x34 0 0 n) w) s
      = onCore c (s.runRepU State.coreBus c (Fmt.sh 0x34 0 0 n) w) := congrArg (onCore c) (if_pos hrow)
    _ = .next (s.runRepU State.coreBus c (Fmt.sh 0x34 0 0 n) w) := onCore_of (State.coreRuns_lt h.1) _
    _ = _ := by
        simp only [State.runRepU, State.atBoundary_of h, Fmt.sh_n, hill, hatomic, hosc, hb, hexceeded, hlate,
          State.when', Bool.or_self, Bool.false_eq_true, if_false, if_true, List.append_nil, List.min?_nil]

/-- Settles O28. -/
theorem repeatsRunTheirInstruction : Obligations.RepeatsRunTheirInstruction := by
  unfold Obligations.RepeatsRunTheirInstruction
  refine ⟨?none, ?counted, ?begun, ?held⟩
  case none =>
    rintro s c k gc w rfl h hw hill hname hzero
    refine ⟨_, exec_repI_begins h hw hill hname, 1, Nat.le_refl 1, fun m _ => Nat.le_max_left 1 m, ?_⟩
    rw [hzero]
    exact State.charge_modPc s c _ _
  case counted =>
    rintro s c n k gc w f u rfl h hw hill hname hn hf hiter
    rw [exec_repI_begins h hw hill hname, hn, ← hf, State.repeatI_of_iterates hiter]
  case begun =>
    rintro s c b k n w f u rfl h hw hill hatomic hosc hb hfit hused rfl hiter
    rw [exec_repU_begins h hw hill hatomic hosc hb hfit hused, State.beginRepU_of_iterates hiter]
  case held =>
    rintro s c b k n w rfl h hw hill hatomic hosc hb hfit hused
    rw [exec_repU_held h hw hill hatomic hosc hb hfit hused]
    cases hm : (s.core c).marshal <;> simp [State.holdRepU, State.modCore, State.spend, hm]

end Sys2Proof.Machine

/-! Proofs of the statements on service calls, budgets, requests and exceptions (R488 to R497, R573 to R575). -/

namespace Sys2Proof.Machine

/-! ### Service calls of a heat (R573 to R575) -/

/-- Two changes of one heat are one change, where the first keeps the heat's id. -/
theorem State.modHeat_modHeat (s : State) (c : CmdId) {f : Heat → Heat} (g : Heat → Heat) (hf : ∀ x, (f x).id = x.id) :
    (s.modHeat c f).modHeat c g = s.modHeat c (fun x => g (f x)) := by
  unfold State.modHeat
  dsimp only
  rw [List.map_map]
  congr 1
  refine List.map_congr_left fun x _ => ?_
  by_cases hx : x.id = c
  · simp [hf, hx]
  · simp [hx]

theorem State.modHeat_id (s : State) (c : CmdId) : s.modHeat c (fun x => x) = s := by
  simp [State.modHeat]

/-- EXIT on a core of a running heat: the core is held, core 0 leaves the exit values, and the last core delivers. -/
theorem State.svcExit_of {s : State} {c i : Nat} {h : Heat} {done : Bool} (hon : s.heatOn c = some (h, i))
    (hst : h.st = .running) (hsvc : (s.core c).svc = some 0) (hhold : (s.core c).hold = .none)
    (hm : (s.core c).marshal = true)
    (hdone : done = h.cores.all (fun d => decide (d = c ∨ (s.core d).hold = .exited))) :
    s.svcExit c = (s.setCore c { s.core c with hold := .exited, svc := none }).modHeat h.id (fun x =>
      { x with exitN := if i = 0 then ((s.core c).reg 4).toNat else x.exitN,
               exitCode := if i = 0 then ((s.core c).reg 5).toNat % 2 ^ 32 else x.exitCode,
               st := if done then .delivering else x.st }) := by
  have hall : (s.setCore c { s.core c with hold := .exited, svc := none }).allExited h = done := by
    rw [hdone]
    unfold State.allExited
    congr 1
    funext d
    by_cases hd : d = c
    · subst hd
      simp
    · simp [State.core_setCore_ne _ _ hd, hd]
  have hallMod : ∀ g, ((s.setCore c { s.core c with hold := .exited, svc := none }).modHeat h.id g).allExited h = done :=
    fun _ => hall
  unfold State.svcExit
  simp only [hon]
  rw [if_pos (by simp [hst, hsvc, hhold, hm])]
  by_cases hi : i = 0
  · simp only [hi, if_true, hallMod]
    cases done with
    | true => exact State.modHeat_modHeat _ _ (f := fun x => { x with
        exitN := ((s.core c).reg 4).toNat, exitCode := ((s.core c).reg 5).toNat % 2 ^ 32 }) _ fun _ => rfl
    | false => rfl
  · simp only [hi, if_false, hall]
    cases done with
    | true => rfl
    | false => exact (State.modHeat_id _ _).symm

/-- BARRIER and YIELD on a core of a running heat hold the core. -/
theorem State.svcWait_of {s : State} {c i num : Nat} {h : Heat} (hold : CoreHold) (hon : s.heatOn c = some (h, i))
    (hst : h.st = .running) (hsvc : (s.core c).svc = some num) (hhold : (s.core c).hold = .none)
    (hm : (s.core c).marshal = true) :
    s.svcWait c num hold = s.setCore c { s.core c with hold := hold, svc := none } := by
  simp [State.svcWait, hon, hst, hsvc, hhold, hm]

/-! ### Entries to marshal mode (R490, R494, R495) -/

/-- The entry of a service call is no fault of a heat, where the runtime has the service. -/
theorem State.heatFault_of_known {s : State} {c n : Nat} (hn : n ≤ 2) (hsvc : (s.core c).svc = some n) (sub : Nat)
    (epc : Dword) : s.heatFault c 6 sub epc = s := by
  unfold State.heatFault
  split
  · rfl
  · simp [hsvc, hn]

/-- A service call enters marshal mode, where no heat runs on the core or the runtime has the service. -/
theorem State.raise_svc {s : State} {c n : Nat} (hexl : (s.core c).exl = false) (hsvc : (s.core c).svc = some n)
    (hheat : (s.core c).marshal = true ∨ s.heatOn c = none ∨ n ≤ 2) (epc : Dword) :
    s.raise State.coreBus c 6 0 epc 0 = s.setCore c ((s.core c).entered 6 0 epc 0) := by
  have hfault : (s.core c).marshal = false →
      (s.setCore c ((s.core c).entered 6 0 epc 0)).heatFault c 6 0 epc =
        s.setCore c ((s.core c).entered 6 0 epc 0) := by
    intro hm
    obtain h | h | h := hheat
    · rw [hm] at h
      exact nomatch h
    · exact State.heatFault_of_no_heat (s := s.setCore c _) h ..
    · exact State.heatFault_of_known h (by rw [State.core_setCore]; exact hsvc) ..
  simp only [State.raise, hexl, State.enter_eq_entered]
  cases hm : (s.core c).marshal with
  | true => simp
  | false => simpa [State.coreBus] using hfault hm

theorem State.setCore_charge (s : State) (c : Nat) (k : Core) (heat : Bool) (b : Option Nat) :
    (s.charge c heat b).setCore c k = { s.setCore c k with free := s.free + 1 } :=
  congrArg (fun x : State => { x with free := s.free + 1 }) (s.setCore_setCore c _ k)

theorem runs_svc {s : State} {c : Nat} {k : Core} {imm : BitVec 14} (hk : k = s.core c) (h : s.atInstr c 4)
    (hexl : k.exl = false) (hheat : k.marshal = true ∨ s.heatOn c = none ∨ imm.toNat ≤ 2) :
    s.Runs (.svc c (Fmt.im 0x35 0 0 imm)) c
      ({ k with svc := some imm.toNat }.entered 6 0 (k.pc + 4) 0) (some 1) := by
  subst hk
  have hrow : (wordLenOk (.w32 (Fmt.im 0x35 0 0 imm)) && inRow 0x35 0x35 (.w32 (Fmt.im 0x35 0 0 imm))) = true := by
    rw [wordLenOk_im, inRow_im (by decide)]
    rfl
  have hill : State.ill32 (s.core c) (Fmt.im 0x35 0 0 imm).toNat = [] := by
    simp [State.ill32, State.when']
  have hrun : s.runSvc State.coreBus c (Fmt.im 0x35 0 0 imm) =
      ((s.modCore c (fun k => { k with svc := some imm.toNat })).charge c (!(s.core c).marshal) (some 1)).raise
        State.coreBus c 6 0 ((s.core c).pc + 4) 0 := by
    simp only [State.runSvc, State.atBoundary_of h, hill, List.min?_nil, imm14_im]
  have hcore : ((s.modCore c (fun k => { k with svc := some imm.toNat })).charge c (!(s.core c).marshal) (some 1)).core c =
      State.spend { s.core c with svc := some imm.toNat } (!(s.core c).marshal) 1 := by
    rw [State.core_charge, State.core_modCore]
    rfl
  refine ⟨_, (congrArg (onCore c) (if_pos hrow)).trans (onCore_of (State.coreRuns_lt h.1) _), 1, Nat.le_refl 1,
    fun m _ => Nat.le_max_left 1 m, ?_⟩
  rw [hrun, State.raise_svc (n := imm.toNat) (by rw [hcore]; exact hexl) (by rw [hcore]; rfl) (by rw [hcore]; exact hheat),
    hcore]
  rw [State.setCore_charge, State.modCore, State.setCore_setCore]
  rfl

/-! ### The entry that is due at a boundary (R492 to R495) -/

/-- A core that can run an instruction is not held. -/
theorem State.hold_of_coreRuns {s : State} {c : Nat} (h : s.coreRuns c = true) : (s.core c).hold = .none := by
  simp only [State.coreRuns, Bool.and_eq_true, decide_eq_true_eq] at h
  exact h.1.2

/-- An entry that is due is taken. -/
theorem State.takeEntry_some {s : State} {c cause sub : Nat} (h : State.entryDue (s.core c) = some (cause, sub)) :
    s.takeEntry c = some (s.setCore c (State.unheld (
      if cause = 7 ∧ sub = 1 then { (s.core c).entered cause sub (s.core c).pc 0 with stopReq := false }
      else if cause = 7 then { (s.core c).entered cause sub (s.core c).pc 0 with suspReq := false }
      else if State.isTenant c then { (s.core c).entered cause sub (s.core c).pc 0 with hold := .budget }
      else (s.core c).entered cause sub (s.core c).pc 0))) := by
  simp only [State.takeEntry, h, Bool.and_eq_true, decide_eq_true_eq]
  rfl

/-- Core `k` with a request recorded, which also ends a WAIT. -/
def Core.requested (k : Core) (stop : Bool) : Core :=
  if stop then { k with stopReq := true, waiting := false } else { k with suspReq := true, waiting := false }

/-- While EXL is 1 a request stays pending. -/
theorem State.request_pending {s : State} {c : Nat} (stop : Bool) (hp : s.corePresent c = true)
    (hh : (s.core c).halted = false) (hexl : (s.core c).exl = true) :
    s.request c stop = s.setCore c ((s.core c).requested stop) := by
  have hdue : State.entryDue ((s.setCore c ((s.core c).requested stop)).core c) = none := by
    rw [State.core_setCore]
    cases stop <;> simp [Core.requested, State.entryDue, hexl]
  have hrec : s.request c stop =
      ((s.setCore c ((s.core c).requested stop)).takeEntry c).getD (s.setCore c ((s.core c).requested stop)) := by
    simp [State.request, hp, hh, State.modCore, Core.requested]
  rw [hrec, State.takeEntry_none hdue]
  rfl

/-- Else it is taken at the boundary that the core stands at. -/
theorem State.request_taken {s : State} {c : Nat} {stop : Bool} (hp : s.corePresent c = true)
    (hh : (s.core c).halted = false) (hexl : (s.core c).exl = false) (hfirst : stop = false → (s.core c).stopReq = false) :
    s.request c stop = s.setCore c (State.unheld (
      if stop then { ((s.core c).requested stop).entered 7 1 (s.core c).pc 0 with stopReq := false }
      else { ((s.core c).requested stop).entered 7 2 (s.core c).pc 0 with suspReq := false })) := by
  have hrec : s.request c stop =
      ((s.setCore c ((s.core c).requested stop)).takeEntry c).getD (s.setCore c ((s.core c).requested stop)) := by
    simp [State.request, hp, hh, State.modCore, Core.requested]
  have hdue : State.entryDue ((s.setCore c ((s.core c).requested stop)).core c) = some (7, if stop then 1 else 2) := by
    rw [State.core_setCore]
    cases stop with
    | true => simp [Core.requested, State.entryDue, hexl]
    | false => simp [Core.requested, State.entryDue, hexl, hfirst rfl]
  rw [hrec, State.takeEntry_some hdue, Option.getD_some, State.setCore_setCore, State.core_setCore]
  cases stop <;> rfl

/-- Settles O30. -/
theorem serviceCallsBudgetsAndRequests : Obligations.ServiceCallsBudgetsAndRequests := by
  unfold Obligations.ServiceCallsBudgetsAndRequests
  refine ⟨?svc, ?exit, ?barrier, ?yield, ?budget, ?stop, ?suspend⟩
  case svc => exact fun s c k imm hk h hexl hheat => runs_svc hk h hexl hheat
  case exit =>
    rintro s c i k h done rfl hon hc hst hsvc hhold hm hdone
    refine (onCore_of hc _).trans ?_
    rw [State.svcExit_of hon hst hsvc hhold hm hdone]
    rfl
  case barrier =>
    rintro s c i k h rfl hon hc hst hsvc hhold hm
    refine (onCore_of hc _).trans ?_
    rw [State.svcWait_of _ hon hst hsvc hhold hm]
  case yield =>
    rintro s c i k h rfl hon hc hst hsvc hhold hm
    refine (onCore_of hc _).trans ?_
    rw [State.svcWait_of _ hon hst hsvc hhold hm]
  case budget =>
    rintro s c k rfl hruns hexl hstop hsusp hm hcyc
    have hdue : State.entryDue (s.core c) = some (5, 0) := by
      simp [State.entryDue, State.spent, hexl, hstop, hsusp, hm, hcyc]
    refine (onCore_of (State.coreRuns_lt hruns) _).trans ?_
    unfold State.budgetEntry
    rw [if_pos (by simp [hruns, hdue]), State.takeEntry_some hdue, Option.getD_some, if_neg (by decide), if_neg (by decide)]
    by_cases hc : c < 64
    · simp [State.isTenant, hc, Core.entered, hm, State.unheld]
    · simp [State.isTenant, hc, Core.entered, hm, State.unheld, State.hold_of_coreRuns hruns]
  case stop =>
    rintro s c k rfl hc hp hh
    refine (onCore_of hc _).trans ?_
    by_cases hexl : (s.core c).exl = true
    · rw [State.request_pending true hp hh hexl, if_pos hexl]
      rfl
    · rw [State.request_taken hp hh (by simpa using hexl) (by simp), if_neg hexl]
      simp [Core.requested, Core.entered]
  case suspend =>
    rintro s c k rfl hc hp hh hstop
    refine (onCore_of hc _).trans ?_
    by_cases hexl : (s.core c).exl = true
    · rw [State.request_pending false hp hh hexl, if_pos hexl]
      rfl
    · rw [State.request_taken hp hh (by simpa using hexl) (fun _ => hstop), if_neg hexl]
      simp [Core.requested, Core.entered]

end Sys2Proof.Machine

/-! Proofs of the statement on exceptions (R488 to R498). -/

namespace Sys2Proof.Machine

section Exceptions
variable {s : State} {c sub : Nat} {own : Bool} {w : RepWord} {i : Instr}

/-- A row's illegal instruction in a mode that may run it is an entry with cause 0x01 and its lowest subcode. -/
theorem exec_illegal (hexec : exec i s = onCore c (s.runRow c own w)) (hrow : own = true) (hlen : wordLenOk w = true)
    (h : s.atInstr c (State.wordLen w)) (hh : s.handles c) (hill : (State.illWord c (s.core c) w).min? = some sub)
    (hmode : sub ≠ 4) : exec i s = .next (s.setCore c ((s.core c).entered 1 sub (s.core c).pc 0)) := by
  rw [hexec, State.runRow_illegal hrow hlen h hill, State.raise_of_handles hh, if_neg (by simp [hmode])]

/-- A privileged instruction in heat mode is an entry with subcode 0x04 and makes event 0x2700 (R497). -/
theorem exec_privileged (hexec : exec i s = onCore c (s.runRow c own w)) (hrow : own = true) (hlen : wordLenOk w = true)
    (h : s.atInstr c (State.wordLen w)) (hh : s.handles c) (hill : (State.illWord c (s.core c) w).min? = some 4)
    (hm : (s.core c).marshal = false) :
    exec i s = .next ((s.ev 0x2700 (s.coreSrc c) (item 1 c ++ item 4 (s.core c).pc.toNat)).setCore c
      ((s.core c).entered 1 4 (s.core c).pc 0)) := by
  rw [hexec, State.runRow_illegal hrow hlen h hill, State.raise_of_handles hh, if_pos ⟨rfl, rfl, hm⟩]

/-- A legal instruction whose group raises an exception of a cause other than 0x01 is an entry with that cause. -/
theorem exec_raises {cause : Nat} {x : Dword} (hexec : exec i s = onCore c (s.runRow c own w)) (hrow : own = true)
    (hlen : wordLenOk w = true) (h : s.atInstr c (State.wordLen w)) (hh : s.handles c)
    (hill : State.illWord c (s.core c) w = [])
    (hsem : s.semWord State.coreBus c (s.core c) w = .error ({ cause := cause, sub := sub, eaddr := x }, s))
    (hcause : cause ≠ 1) : exec i s = .next (s.setCore c ((s.core c).entered cause sub (s.core c).pc x)) := by
  rw [hexec, State.runRow_error hrow hlen h hill hsem, State.raise_of_handles hh, if_neg (by simp [hcause])]

end Exceptions

/-- RDSR of an unlisted special register, and with a bit set that must be zero (R445, R467). -/
theorem illWord_rdsr_unlisted {c : Nat} {k : Core} {d n : BitVec 5} {imm : BitVec 14}
    (hn : State.srListed n.toNat = false) :
    State.illWord c k (.w32 (Fmt.im 0x1D d n imm)) = if imm = 0 then [3] else [2, 3] := by
  by_cases himm : imm = 0#14
  · simp [State.illWord, State.ill32, State.illSr, State.when', hn, himm]
  · have hne : imm.toNat ≠ 0 := fun h => himm (BitVec.eq_of_toNat_eq h)
    simp [State.illWord, State.ill32, State.illSr, State.when', hn, himm, hne]

/-- A load that is not permitted, or misaligned, answers its exception (R457). -/
theorem doLoad_error {s : State} {c j gd : Nat} {k : Core} {bus : Bus} {a : Ea} {e : Exc × State}
    (h : s.coreRead bus c k a.addr (loadSize j) 2 true = .error e) : s.doLoad bus c k j gd a = .error e := by
  simp only [State.doLoad, h]

theorem State.coreRead_forbidden {s : State} {c n sub : Nat} {k : Core} {a : Dword} {bus : Bus} {align : Bool}
    (h : s.place c k a.toNat n false = none) :
    s.coreRead bus c k a n sub align = .error ({ cause := 2, sub := sub, eaddr := a }, s) := by
  simp only [State.coreRead, h]

theorem State.coreRead_misaligned {s : State} {c n sub : Nat} {k : Core} {a : Dword} {bus : Bus} {p : State.Place}
    (h : s.place c k a.toNat n false = some p) (ha : a.toNat % n ≠ 0) :
    s.coreRead bus c k a n sub true = .error ({ cause := 2, sub := 4, eaddr := a }, s) := by
  simp [State.coreRead, h, ha]

/-- LDS.W whose access raises an exception of cause 0x02 is an entry with EADDR the address. -/
theorem exec_load32_raises {s : State} {c sub : Nat} {d b : BitVec 5} (h : s.atInstr c 4) (hh : s.handles c)
    (hread : s.coreRead State.coreBus c (s.core c) ((s.core c).reg b.toNat) 4 2 true =
      .error ({ cause := 2, sub := sub, eaddr := (s.core c).reg b.toNat }, s)) :
    exec (.loadInstruction c (.mm (Fmt.mm 0x26 d b 0 0 0 0))) s =
      .next (s.setCore c ((s.core c).entered 2 sub (s.core c).pc ((s.core c).reg b.toNat))) :=
  exec_raises (own := memRow 0x20 0x27 0x08 0x0F (.mm (Fmt.mm 0x26 d b 0 0 0 0)))
    (w := .w32 (Fmt.mm 0x26 d b 0 0 0 0)) rfl
    (Addressing.memRow_word .base (by decide) (by decide) (mdOp := 0x0E)) (by simp [wordLenOk]) h hh
    (Addressing.illWord_load (m := .base) (mmOp := 0x26) (mdOp := 0x0E) (j := 6) rfl rfl (by decide) trivial
      (by simp [Addressing.moves]) (by simp) c _)
    ((Addressing.semWord_load (m := .base) (mmOp := 0x26) (mdOp := 0x0E) (j := 6) rfl rfl (by decide) s _ c _).trans
      (doLoad_error hread))
    (by decide)

/-- An exception while EXL is 1 halts a tenant core on which no heat runs, and makes event 0x1701 (R496). -/
theorem State.raise_double {s : State} {c cause sub : Nat} (hexl : (s.core c).exl = true) (hc : c < 64)
    (hheat : s.heatOn c = none) (hcause : cause ≠ 1) (epc eaddr : Dword) :
    s.raise State.coreBus c cause sub epc eaddr =
      (s.setCore c { s.core c with halted := true, dfault := true }).ev 0x1701 (s.coreSrc c)
        (item 1 c ++ item 4 epc.toNat ++ item 2 (sub * 256 + cause)) := by
  simp only [State.raise, hexl, hcause, decide_false, Bool.false_and, Bool.false_eq_true, if_false, if_true,
    State.coreBus, State.doubleFault, State.isTenant, hc, decide_true]
  exact State.heatFault_of_no_heat (by simpa using hheat) ..

/-- Settles O31. -/
theorem exceptionsEnterMarshalMode : Obligations.ExceptionsEnterMarshalMode := by
  unfold Obligations.ExceptionsEnterMarshalMode
  refine ⟨?zero, ?listed, ?jump, ?pair, ?forbidden, ?misaligned, ?wait, ?halt, ?double, ?stop⟩
  case zero =>
    rintro s c k d n imm rfl h hh himm hn
    exact exec_illegal (w := .w32 (Fmt.im 0x1D d n imm)) rfl (inRow_im (by decide)) wordLenOk_im h hh
      (by rw [illWord_rdsr_unlisted hn, if_neg himm]; rfl) (by decide)
  case listed =>
    rintro s c k d n rfl h hh hn
    exact exec_illegal (w := .w32 (Fmt.im 0x1D d n 0)) rfl (inRow_im (by decide)) wordLenOk_im h hh
      (by rw [illWord_rdsr_unlisted hn, if_pos rfl]; rfl) (by decide)
  case jump =>
    rintro s c k g rfl h hh hodd
    exact exec_raises (w := .w16 (Fmt.rr 0x11 0 g)) rfl (inRow_rr (by decide)) wordLenOk_rr h hh
      (by simp [State.illWord, State.ill16, State.when'])
      (by simp [State.semWord, State.sem16, State.jump, hodd]) (by decide)
  case pair =>
    rintro s c k d b x rfl h hh rfl hodd
    refine exec_illegal (own := memRow 0x20 0x27 0x08 0x0F (.mm (Fmt.mm 0x27 d b 0 0 0 0))) (sub := 8)
      (w := .w32 (Fmt.mm 0x27 d b 0 0 0 0)) rfl
      (Addressing.memRow_word .base (by decide) (by decide) (mdOp := 0x0F)) (by simp [wordLenOk]) h hh ?_ (by decide)
    simp [State.illWord, State.ill32, illMM, mode32, ext32, State.illBase, loadSize, State.when', hodd]
  case forbidden =>
    rintro s c k d b x rfl h hh rfl hplace
    exact exec_load32_raises h hh (State.coreRead_forbidden hplace)
  case misaligned =>
    rintro s c k d b x rfl h hh rfl ⟨m, off, hplace⟩ hal
    exact exec_load32_raises h hh (State.coreRead_misaligned hplace hal)
  case wait =>
    rintro s c k rfl h hh hm
    exact exec_privileged (w := .w16 (Fmt.rr 0 5 0)) rfl (isSys_rr (d := 5)) wordLenOk_rr h hh
      (by simp [State.illWord, State.ill16, State.when', hm]) hm
  case halt =>
    rintro s c k rfl h hh hm
    exact exec_privileged (w := .w16 (Fmt.rr 0 6 0)) rfl (isSys_rr (d := 6)) wordLenOk_rr h hh
      (by simp [State.illWord, State.ill16, State.when', hm]) hm
  case double =>
    rintro s c k d a b rfl h hexl hc hheat hb
    have hsem := semWord_division (op := 0x10) (by decide) d a b s c (s.core c)
    rw [if_pos hb] at hsem
    refine (State.runRow_error (inRow_division (by decide) d a b) (wordLenOk_tr 0x10 d a b) h
      (illWord_division (by decide) d a b c _) hsem).trans ?_
    rw [State.raise_double hexl hc hheat (by decide)]
    rfl
  case stop =>
    rintro s c k rfl hruns hexl hstop
    have hdue : State.entryDue (s.core c) = some (7, 1) := by
      simp [State.entryDue, hexl, hstop]
    refine (onCore_of (State.coreRuns_lt hruns) _).trans ?_
    have hsys : isSys 1 (Fmt.rr 0 1 0) = true := isSys_rr (d := 1)
    unfold State.runRow State.runWord State.atBoundary
    rw [wordLenOk_rr, hsys, Bool.true_or, Bool.and_true, if_pos rfl]
    simp only [hruns, Bool.not_true, Bool.false_eq_true, if_false, State.takeEntry_some hdue, and_self, if_true]
    simp [State.unheld, Core.entered, State.hold_of_coreRuns hruns]

end Sys2Proof.Machine

/-! Proofs of the statement on the course engine (R84 to R112). -/

namespace Sys2Proof.Machine

/-- A register command of BAR0 on a device that is up does what its operation does. -/
theorem exec_bar0Write {i : Instr} {s : State} {q : Requester} {off : Nat} {op : State → State} (hu : s.up)
    (hq : s.honours q) (hi : exec i s = byReq q (s.bar0Write q off op)) : exec i s = .next (op s) := by
  rw [hi, byReq_honours hq, State.bar0Write_up hu hq]

/-! ### LOAD, APPLY, PERSIST, DISCARD and the commit commands (R90, R100, R112) -/

section Commands
variable {s : State} {q : Requester}

theorem exec_load (hu : s.up) (hq : s.honours q) : exec (.load q) s = .next s.crsLoad := exec_bar0Write hu hq rfl
theorem exec_apply (hu : s.up) (hq : s.honours q) : exec (.apply q) s = .next s.crsApply := exec_bar0Write hu hq rfl
theorem exec_persist (hu : s.up) (hq : s.honours q) : exec (.persist q) s = .next s.crsPersist := exec_bar0Write hu hq rfl
theorem exec_discard (hu : s.up) (hq : s.honours q) : exec (.discard q) s = .next s.crsDiscard := exec_bar0Write hu hq rfl
theorem exec_request (hu : s.up) (hq : s.honours q) : exec (.request q) s = .next s.commitRequest :=
  exec_bar0Write hu hq rfl
theorem exec_cancelCommit (hu : s.up) (hq : s.honours q) : exec (.cancelCommit q) s = .next s.commitCancel :=
  exec_bar0Write hu hq rfl

theorem State.crsLoad_of (h : s.crs.state ∈ [.empty, .staged, .applied]) :
    s.crsLoad = if s.rwNat State.crsSrcLen = 0 then s.crsFail 0x03 0
      else { s with crs := { s.crs with state := .loading, image := none }
                    kst := { s.kst with jobs := s.kst.jobs ++ [.course] } } := by
  unfold State.crsLoad
  simp only [List.mem_cons, List.not_mem_nil, or_false] at h
  obtain h | h | h := h <;> rw [h] <;> rfl

theorem State.crsApply_staged (h : s.crs.state = .staged)
    (hsame : ∀ n f, s.crs.image = some n → s.crs.inForce = some f → State.restartEqual n f = true) :
    s.crsApply = s.setCrs { s.crs with state := .applyPending } := by
  unfold State.crsApply
  rw [h]
  cases hn : s.crs.image with
  | none => rfl
  | some n => cases hf : s.crs.inForce with
    | none => rfl
    | some f => simp only [hsame n f hn hf, if_true, hn]

theorem State.crsApply_restart {n f : Course} (h : s.crs.state = .staged) (hn : s.crs.image = some n)
    (hf : s.crs.inForce = some f) (hdiff : State.restartEqual n f = false) :
    s.crsApply = s.setCrs { s.crs with result := 0x20 } := by
  unfold State.crsApply
  rw [h, hn, hf]
  dsimp only
  rw [hdiff]
  rfl

/-- LOAD, APPLY, PERSIST and DISCARD while a command runs. -/
theorem crsCommand_refused (hu : s.up) (hq : s.honours q)
    (h : s.crs.state ∈ [.loading, .persistingStaged, .persistingApplied]) :
    ∀ c ∈ [Instr.load q, .apply q, .persist q, .discard q], exec c s = .next s.crsRefuse := by
  simp only [List.mem_cons, List.not_mem_nil, or_false] at h
  have hload : s.crsLoad = s.crsRefuse := by
    unfold State.crsLoad; obtain h | h | h := h <;> rw [h]
  have happly : s.crsApply = s.crsRefuse := by
    unfold State.crsApply; obtain h | h | h := h <;> rw [h]
  have hpersist : s.crsPersist = s.crsRefuse := by
    unfold State.crsPersist; obtain h | h | h := h <;> rw [h]
  have hdiscard : s.crsDiscard = s.crsRefuse := by
    unfold State.crsDiscard; obtain h | h | h := h <;> rw [h]
  simp only [List.forall_mem_cons, List.not_mem_nil, false_imp_iff, implies_true, and_true]
  exact ⟨(exec_load hu hq).trans (congrArg _ hload), (exec_apply hu hq).trans (congrArg _ happly),
    (exec_persist hu hq).trans (congrArg _ hpersist), (exec_discard hu hq).trans (congrArg _ hdiscard)⟩

end Commands

/-! ### The ends of a LOAD and of a PERSIST (R84 to R94, R350) -/

/-- The end of a LOAD whose image fails before its signature is verified, or whose job may run (R85, R780). -/
theorem State.crsLoadEnd_validated {s : State} {d : Bytes} {len : Nat} (h : s.crs.state = .loading)
    (hlen : len = s.rwNat State.crsSrcLen)
    (hruns : State.failsEarly (s.courseCtx len) (padTo len d) = true ∨ s.courseJobRuns = true) :
    s.crsLoadEnd (.ok d) = match validate (s.courseCtx len) (padTo len d) with
      | .ok c => s.courseJobEnds.setCrs { s.crs with state := .staged, result := 0, image := some c }
      | .error e => s.courseJobEnds.crsFail e.1 e.2 := by
  subst hlen
  have hgo : (!State.failsEarly (s.courseCtx (s.rwNat State.crsSrcLen)) (padTo (s.rwNat State.crsSrcLen) d) &&
      !s.courseJobRuns) = false := by
    obtain h | h := hruns
    · rw [h]
      rfl
    · rw [h, Bool.not_true, Bool.and_false]
  rw [State.crsLoadEnd, h]
  dsimp only
  rw [hgo, if_neg (by decide)]
  rfl

/-- Where two copies can be written, two dies that may hold them are chosen (R350). -/
theorem State.sysChoose_of {s : State} (h : s.sysPairs ≠ []) :
    ∃ p ∈ s.sysPairs, s.sysChoose = (some p, s.drawFree.2) := by
  unfold State.sysChoose
  cases hp : s.sysPairs with
  | nil => exact absurd hp h
  | cons p t =>
    have hlt : s.drawFree.1.toNat % (t.length + 1) < (p :: t).length := Nat.mod_lt _ (Nat.succ_pos _)
    exact ⟨(p :: t)[s.drawFree.1.toNat % (t.length + 1)], List.getElem_mem hlt, by
      dsimp only
      rw [List.getElem?_eq_getElem hlt]⟩

/-- Measurements change nothing but the key store. -/
theorem State.devLogs_spec (aux : Nat → Bytes) (body : Bytes) (l : List Nat) (s : State) :
    (l.foldl (fun s k => s.devLog 5 (aux k) body) s) = s.setKst (l.foldl (fun s k => s.devLog 5 (aux k) body) s).kst := by
  induction l generalizing s with
  | nil => rfl
  | cons k l ih => exact ih (s.devLog 5 (aux k) body)

/-- What a successful PERSIST leaves alone and what it makes durable. -/
theorem State.persisted_spec {s : State} (c : Course) {p : Nat × Nat} (h : s.sysChoose = (some p, s.drawFree.2)) :
    (s.persisted c).crs = s.crs ∧
    (s.persisted c).dur = { s.dur with
      courseCur := some { bytes := c.image, one := p.1, two := p.2 }, coursePrev := s.dur.courseCur,
      fusedEpoch := max s.dur.fusedEpoch c.epoch,
      ownerFuses := tmap s.dur.ownerFuses (fun k f => if natBit c.revokeMask k then { f with revoked := true } else f),
      ownerRevoked := s.dur.ownerRevoked ||| c.revokeMask } ∧
    (s.persisted c).slices = s.slices ∧ (s.persisted c).mem = s.mem := by
  unfold State.persisted State.sysWrite
  rw [h]
  dsimp only
  rw [State.devLogs_spec]
  split <;> exact ⟨rfl, rfl, rfl, rfl⟩

/-- Settles O34. -/
theorem courseEngineCommands : Obligations.CourseEngineCommands := by
  unfold Obligations.CourseEngineCommands
  refine ⟨?load, ?loadSize, ?apply, ?applyRestart, ?persist, ?discard, ?refused, ?fetchFails, ?validated, ?persistFails,
    ?persisted, ?request, ?cancel⟩
  case load =>
    intro s q hu hq hst hlen
    rw [exec_load hu hq, State.crsLoad_of hst, if_neg hlen]
  case loadSize =>
    intro s q hu hq hst hlen
    rw [exec_load hu hq, State.crsLoad_of hst, if_pos hlen]
    rfl
  case apply =>
    intro s q hu hq hst hsame
    rw [exec_apply hu hq, State.crsApply_staged hst hsame]
    rfl
  case applyRestart =>
    intro s q hu hq n f hst hn hf hdiff
    rw [exec_apply hu hq]
    rw [State.crsApply_restart hst hn hf hdiff]
    rfl
  case persist =>
    intro s q hu hq a b hab hst
    rw [exec_persist hu hq, State.crsPersist]
    simp only [List.mem_cons, List.not_mem_nil, or_false, Prod.mk.injEq] at hab
    obtain ⟨rfl, rfl⟩ | ⟨rfl, rfl⟩ := hab <;> rw [hst] <;> rfl
  case discard =>
    intro s q hu hq hst
    rw [exec_discard hu hq, State.crsDiscard]
    simp only [List.mem_cons, List.not_mem_nil, or_false] at hst
    obtain h | h | h := hst <;> rw [h] <;> rfl
  case refused =>
    intro s q hu hq c hc hst
    exact crsCommand_refused hu hq hst c hc
  case fetchFails =>
    intro s off hst
    refine congrArg Host.Outcome.next ?_
    rw [State.crsLoadEnd, hst]
    rfl
  case validated =>
    intro s d len hst hlen hruns
    refine congrArg Host.Outcome.next ?_
    exact State.crsLoadEnd_validated hst hlen hruns
  case persistFails =>
    intro s a b hab hst
    refine congrArg Host.Outcome.next ?_
    rw [State.crsPersistEnd]
    simp only [List.mem_cons, List.not_mem_nil, or_false, Prod.mk.injEq] at hab
    obtain ⟨rfl, rfl⟩ | ⟨rfl, rfl⟩ := hab <;> rw [hst] <;> rfl
  case persisted =>
    intro s a b c hab hst himg hpairs
    obtain ⟨p, hp, hchoose⟩ := State.sysChoose_of hpairs
    have hend : s.crsPersistEnd true = (s.persisted c).setCrs { (s.persisted c).crs with state := b, result := 0 } := by
      rw [State.crsPersistEnd]
      simp only [List.mem_cons, List.not_mem_nil, or_false, Prod.mk.injEq] at hab
      obtain ⟨rfl, rfl⟩ | ⟨rfl, rfl⟩ := hab <;> rw [hst] <;> simp [himg, hpairs]
    obtain ⟨hcrs, hdur, hslices, hmem⟩ := State.persisted_spec c hchoose
    refine ⟨_, p, hp, rfl, ?_⟩
    rw [hend, hcrs]
    exact ⟨rfl, hdur, hslices, hmem⟩
  case request =>
    intro s q hu hq
    rw [exec_request hu hq]
    rfl
  case cancel =>
    intro s q hu hq hpend
    rw [exec_cancelCommit hu hq, State.commitCancel, if_pos hpend]
    rfl

end Sys2Proof.Machine

/-! Proofs of the statement on the recording and judging of slice commands (R118, R120, R1056). -/

namespace Sys2Proof.Machine

/-! ### Recording (R120, R167) -/

/-- A write of SLC_CMD on a device that is up is recorded, unless an operation is pending. -/
theorem exec_slcWrite {i : Instr} {s : State} {q : Requester} {n : Nat} {op : SlcOp} {force : Bool} (hu : s.up)
    (hq : s.honours q) (hn : n < 512) (hi : exec i s = byReqSlice q n (s.slcWrite q op n force)) :
    exec i s = .next (s.setSlc (if s.slc.op.isSome then { s.slc with cmdRefused := true }
      else { s.slc with op := some { op := op, slice := n, force := force, at' := s.stride } })) := by
  rw [hi, byReqSlice_honours hq hn, State.slcWrite, State.bar0Write_up hu hq]
  split <;> rfl

/-- The commands of SLC_CMD, each with the operation and the FORCE that it writes. -/
def slcCommands (q : Requester) (n : Nat) : List (Instr × SlcOp × Bool) :=
  [(.create q n, .create, false), (.resetDrain q n, .resetDrain, false), (.resetSquash q n, .resetSquash, false),
   (.freeze q n, .freeze, false), (.thaw q n true, .thaw, true), (.thaw q n false, .thaw, false),
   (.save q n, .save, false), (.restore q n, .restore, false), (.destroy q n, .destroy, false),
   (.migrate q n, .migrate, false), (.accept q n, .accept, false), (.movePort q n, .movePort, false),
   (.cancel q n, .cancel, false)]

theorem exec_slcCommand (s : State) (q : Requester) (n : Nat) {p : Instr × SlcOp × Bool} (hp : p ∈ slcCommands q n) :
    exec p.1 s = byReqSlice q n (s.slcWrite q p.2.1 n p.2.2) := by
  simp only [slcCommands, List.mem_cons, List.not_mem_nil, or_false] at hp
  obtain rfl | rfl | rfl | rfl | rfl | rfl | rfl | rfl | rfl | rfl | rfl | rfl | rfl := hp <;> rfl

/-! ### Judging (R118, R1056) -/

section Tick
variable {s : State} {p : SlcPending} {rest : State → SlcPending → State}

/-- On a ready device with a course an operation that is not of the field is refused where its row does not allow the
slice's state, and judged where it does. -/
theorem State.slcTick_of (hop : s.slc.op = some p) (hnew : p.judged = false) (hcourse : s.hasCourse = true)
    (hready : s.dev.phase = .ready) (hlocal : p.op ∉ [SlcOp.migrate, .accept, .cancel]) :
    s.slcTick rest = if s.slcAdmits p.op p.slice then s.slcJudge p else s.slcRefuse p (0xA0, none) := by
  simp only [List.mem_cons, List.not_mem_nil, or_false, not_or] at hlocal
  obtain ⟨hmigrate, haccept, hcancel⟩ := hlocal
  unfold State.slcTick
  simp only [hop, hnew, hcourse, hready, hmigrate, haccept, decide_false, Bool.or_self, Bool.false_and, Bool.not_true,
    Bool.false_eq_true, if_false, reduceCtorEq]
  cases s.slcAdmits p.op p.slice with
  | false => rfl
  | true =>
    simp only [Bool.not_true, Bool.false_eq_true, if_false, if_true]

theorem State.slcTick_admitted (hop : s.slc.op = some p) (hnew : p.judged = false) (hcourse : s.hasCourse = true)
    (hready : s.dev.phase = .ready) (hlocal : p.op ∉ [SlcOp.migrate, .accept, .cancel])
    (hadm : s.slcAdmits p.op p.slice = true) : s.slcTick rest = s.slcJudge p := by
  rw [State.slcTick_of hop hnew hcourse hready hlocal, if_pos hadm]

end Tick

/-- Settles O35. -/
theorem sliceCommandsAreRecordedAndJudged : Obligations.SliceCommandsAreRecordedAndJudged := by
  unfold Obligations.SliceCommandsAreRecordedAndJudged
  refine ⟨?recorded, ?refused, ?notAdmitted, ?reset, ?freeze, ?thaw, ?save, ?destroy⟩
  case recorded =>
    intro s q n hu hq hn hop p hp
    rw [exec_slcWrite hu hq hn (exec_slcCommand s q n hp), hop]
    rfl
  case refused =>
    intro s q n hu hq hn hop p hp
    rw [exec_slcWrite hu hq hn (exec_slcCommand s q n hp), hop]
    rfl
  case notAdmitted =>
    rintro s n p rest hop rfl hnew hcourse hready hp hadm
    have hlocal : ∀ o, o ∈ [SlcOp.freeze, .resetDrain, .resetSquash, .thaw, .save, .destroy] →
        o ∉ [SlcOp.migrate, .accept, .cancel] := by
      intro o
      cases o <;> decide
    rw [State.slcTick_of hop hnew hcourse hready (hlocal _ hp), hadm]
    rfl
  case reset =>
    rintro s n p rest hop rfl hnew hcourse hready a b drain hrow hst
    simp only [List.mem_cons, Prod.mk.injEq, List.not_mem_nil, or_false] at hrow
    obtain ⟨hp, rfl, rfl, rfl⟩ | ⟨hp, rfl, rfl, rfl⟩ | ⟨hp, rfl, rfl, rfl⟩ | ⟨hp, rfl, rfl, rfl⟩ := hrow <;>
      rw [State.slcTick_admitted hop hnew hcourse hready (by rw [hp]; decide) (by simp [State.slcAdmits, hp, hst]),
        State.slcJudge, hp] <;> rfl
  case freeze =>
    rintro s n p rest hop rfl hnew hcourse hready hp hst
    rw [State.slcTick_admitted hop hnew hcourse hready (by rw [hp]; decide) (by simp [State.slcAdmits, hp, hst]),
      State.slcJudge, hp]
    rfl
  case thaw =>
    rintro s n p rest hop rfl hnew hcourse hready hp hst hlive
    rw [State.slcTick_admitted hop hnew hcourse hready (by rw [hp]; decide) (by simp [State.slcAdmits, hp, hst]),
      State.slcJudge, hp]
    dsimp only
    rw [hlive]
    rfl
  case save =>
    rintro s n p rest hop rfl hnew hcourse hready hp hst hfits
    rw [State.slcTick_admitted hop hnew hcourse hready (by rw [hp]; decide) (by simp [State.slcAdmits, hp, hst]),
      State.slcJudge, hp]
    dsimp only
    rw [if_neg (by omega)]
    refine ⟨_, rfl, ?_, rfl, ?_⟩
    · simp
    · simp [State.serialOf, State.setSerial, State.modSlice, State.setSlice, State.slcAccept, State.setSlc]
  case destroy =>
    rintro s n p rest hop rfl hnew hcourse hready hp hst
    simp only [List.mem_cons, List.not_mem_nil, or_false] at hst
    obtain hst | hst := hst <;>
      rw [State.slcTick_admitted hop hnew hcourse hready (by rw [hp]; decide) (by simp [State.slcAdmits, hp, hst]),
        State.slcJudge, hp]
    all_goals exact ⟨_, rfl, by simp [State.beginDestroy], by simp [State.beginDestroy]⟩

end Sys2Proof.Machine


/-! # The ends of the slice operations (O36)

The clearing and loading of a slice's memories goes by folds over cores and banks; what the statements need of them is
that they leave the table of slices and the durable state alone. -/

namespace Sys2Proof.Machine

/-- A fold whose steps keep a part of the state keeps that part. -/
theorem foldl_keeps {α β γ : Type} (g : β → γ) (f : β → α → β) (hf : ∀ b a, g (f b a) = g b) (l : List α) (b : β) :
    g (l.foldl f b) = g b := by
  induction l generalizing b with
  | nil => rfl
  | cons a l ih => rw [List.foldl_cons, ih, hf]

/-! ### What the memory operations leave -/

/-- The slices and the durable state: what the memories of a slice have no part in. -/
def State.ledger (s : State) : List (Nat × Slice) × Durable := (s.slices, s.dur)

theorem State.memClear_ledger (s : State) (a lo hi : Nat) : (s.memClear a lo hi).ledger = s.ledger := rfl

theorem State.memWrite_ledger (s : State) (a off : Nat) (bs : Bytes) : (s.memWrite a off bs).ledger = s.ledger := by
  unfold State.memWrite
  split <;> rfl

theorem State.putCells_ledger (s : State) (a lo len : Nat) (cs : List Host.Cell) :
    (s.putCells a lo len cs).ledger = s.ledger := by
  unfold State.putCells
  exact foldl_keeps State.ledger _ (fun _ _ => State.memWrite_ledger _ _ _ _) _ _

theorem State.freshWords_ledger (s : State) (p : Nat → Bool) : (s.freshWords p).ledger = s.ledger := by
  unfold State.freshWords
  split <;> rfl

theorem State.zeroSlice_ledger (s : State) (n : Nat) : (s.zeroSlice n).ledger = s.ledger := by
  have hmem : ∀ (cs bs : List Nat) (reg : Nat × Nat),
      ((bs.foldl (fun s b => s.memClear (bankPlace b).1 (bankPlace b).2 ((bankPlace b).2 + 2 ^ 20))
        (cs.foldl (fun s c => s.memClear c 0 0x40000) s)).memClear dramArr reg.1 (reg.1 + reg.2)).ledger = s.ledger := by
    intro cs bs reg
    exact (foldl_keeps State.ledger _ (fun _ _ => State.memClear_ledger _ _ _ _) _ _).trans
      (foldl_keeps State.ledger _ (fun _ _ => State.memClear_ledger _ _ _ _) _ _)
  unfold State.zeroSlice
  dsimp only
  split
  · exact ((State.freshWords_ledger _ _).trans (hmem _ _ _))
  · exact hmem _ _ _

/-- Zeroing a slice's memories leaves every slice as it was. -/
theorem State.zeroSlice_slice (s : State) (n m : Nat) : (s.zeroSlice n).slice m = s.slice m :=
  congrArg (fun (p : List (Nat × Slice) × Durable) => tgetD p.1 m {}) (s.zeroSlice_ledger n)

theorem State.sysChoose_ledger (s : State) : s.sysChoose.2.ledger = s.ledger := by
  unfold State.sysChoose
  split <;> rfl

theorem State.putCores_ledger (s : State) (l : List (Nat × Nat × List Host.Cell)) :
    (l.foldl (fun s p => s.putCells p.1 0 0x40000 p.2.2) s).ledger = s.ledger :=
  foldl_keeps State.ledger _ (fun _ _ => State.putCells_ledger _ _ _ _ _) _ _

theorem State.putBanks_ledger (s : State) (l : List (Nat × Nat × List Host.Cell)) :
    (l.foldl (fun s p => s.putCells (bankPlace p.1).1 (bankPlace p.1).2 (2 ^ 20) p.2.2) s).ledger = s.ledger :=
  foldl_keeps State.ledger _ (fun _ _ => State.putCells_ledger _ _ _ _ _) _ _

theorem State.rebindCores_ledger (s : State) (x : Slice) (l : List (Nat × Nat × Core)) :
    (l.foldl (fun s p => s.setCore p.1 (s.rebind x p.1 p.2.2)) s).ledger = s.ledger :=
  foldl_keeps State.ledger (fun s p => s.setCore p.1 (s.rebind x p.1 p.2.2)) (fun _ _ => rfl) l s

theorem State.slices_of_ledger {s t : State} (h : s.ledger = t.ledger) : s.slices = t.slices := congrArg Prod.fst h

theorem State.dur_of_ledger {s t : State} (h : s.ledger = t.ledger) : s.dur = t.dur := congrArg Prod.snd h

/-- A baton that is loaded leaves its slice frozen. -/
theorem State.loadBaton_frozen (s : State) (n : Nat) (b : Baton) : ((s.loadBaton n b).slice n).st = .frozen := by
  unfold State.loadBaton State.slice
  simp only [State.slices_of_ledger (State.rebindCores_ledger _ _ _), State.modHeatRegs_slices, State.modKeys_slices,
    State.slices_of_ledger (State.sysChoose_ledger _), State.slices_of_ledger (State.putCells_ledger _ _ _ _ _),
    State.slices_of_ledger (State.putBanks_ledger _ _), State.slices_of_ledger (State.putCores_ledger _ _),
    State.setSlice, tgetD_tset_same]

theorem State.loadBaton_dur (s : State) (n : Nat) (b : Baton) : (s.loadBaton n b).dur = s.dur := by
  unfold State.loadBaton
  simp only [State.dur_of_ledger (State.rebindCores_ledger _ _ _), State.modHeatRegs_dur, State.modKeys_dur,
    State.dur_of_ledger (State.sysChoose_ledger _), State.dur_of_ledger (State.putCells_ledger _ _ _ _ _),
    State.dur_of_ledger (State.putBanks_ledger _ _), State.dur_of_ledger (State.putCores_ledger _ _),
    State.setSlice]

/-! ### CREATE and ACCEPT -/

theorem State.createBad_none {s : State} {n : Nat} {bs : Bytes} {period : Nat}
    (hperiod : period = (match s.crs.inForce with | some c => c.period | none => 0))
    (hdesc : descBad bs n period s.portCount = none) (hdraw : s.drawBad n (descDraw bs) = none) :
    s.createBad n bs = none := by
  subst hperiod
  unfold State.createBad
  cases hc : s.crs.inForce with
  | none => simp only [hc] at hdesc; simp only [hdesc, hdraw]
  | some c => simp only [hc] at hdesc; simp only [hdesc, hdraw]

/-- An accepted CREATE or ACCEPT makes the slice, on the port that its descriptor names. -/
theorem State.createWith_accepted {s : State} {p : SlcPending} {n : Nat} {bs : Bytes} (hn : p.slice = n)
    (hgood : s.createBad n bs = none) :
    ((s.createWith p bs).slice n).st = (if p.op = .accept then .receiving else .creating) ∧
      (s.createWith p bs).slc = { s.slc with op := none, result := 0, slice := n } ∧
      ((s.createWith p bs).slice n).port = (descDraw bs).port := by
  subst hn
  unfold State.createWith
  dsimp only
  rw [hgood]
  have hslice : ∀ (t : State) (x : Slice) (d : Draw),
      (((t.setSlice p.slice x).setShares p.slice d).freshSlice p.slice).slice p.slice = x := fun t x d =>
    tgetD_tset_same t.slices p.slice x {}
  refine ⟨?_, rfl, ?_⟩
  · exact congrArg Slice.st (hslice _ _ _)
  · exact congrArg Slice.port (hslice _ _ _)

theorem State.createAsk_queues {s : State} {p : SlcPending} {n : Nat} {bs : Bytes} (hn : p.slice = n)
    (hgood : s.createBad n bs = none) (hfree : ∀ (m : Nat) (bs : Bytes), PkKind.keygen m bs ∉ s.kst.jobs) :
    s.createAsk p bs = s.setKst { s.kst with jobs := s.kst.jobs ++ [.keygen n bs] } := by
  subst hn
  have hnone : s.kst.jobs.any isKeygen = false := by
    rw [List.any_eq_false]
    intro j hj
    cases j with
    | keygen m b => exact absurd hj (hfree m b)
    | _ => exact Bool.false_ne_true
  unfold State.createAsk
  rw [hgood, hnone]
  rfl

/-! ### The ends -/

/-- An operation whose descriptor or baton could not be read is refused (R126, R151, R155). -/
theorem State.slcFetchEnd_failed {s : State} {n : Nat} {p : SlcPending} (off : Nat) (hp : s.slc.op = some p)
    (hn : p.slice = n) (hj : p.judged = true) (hop : p.op ∈ [.create, .accept, .restore, .movePort]) :
    s.slcFetchEnd n (.failAt off) = s.slcRefuse p (0xA2, none) := by
  unfold State.slcFetchEnd
  rw [hp]
  dsimp only
  rw [if_neg (by simp [hn, hj])]
  simp only [List.mem_cons, List.not_mem_nil, or_false] at hop
  obtain h | h | h | h := hop <;> rw [h]

theorem State.slcFetchEnd_create {s : State} {n : Nat} {p : SlcPending} (d : Bytes) (hp : s.slc.op = some p)
    (hn : p.slice = n) (hj : p.judged = true) (hop : p.op = .create) :
    s.slcFetchEnd n (.ok d) = s.createAsk p (padTo 128 d) := by
  unfold State.slcFetchEnd
  rw [hp]
  dsimp only
  rw [if_neg (by simp [hn, hj]), hop]

theorem State.slcFetchEnd_accept {s : State} {n : Nat} {p : SlcPending} (d : Bytes) (hp : s.slc.op = some p)
    (hn : p.slice = n) (hj : p.judged = true) (hop : p.op = .accept) :
    s.slcFetchEnd n (.ok d) = s.createWith p (padTo 128 d) := by
  unfold State.slcFetchEnd
  rw [hp]
  dsimp only
  rw [if_neg (by simp [hn, hj]), hop]

theorem State.keygenDone_creates {s : State} {n : Nat} {bs : Bytes} {p : SlcPending} (hp : s.slc.op = some p)
    (hn : p.slice = n) (hj : p.judged = true) (hop : p.op = .create) : s.keygenDone n bs = s.createWith p bs := by
  unfold State.keygenDone
  rw [hp]
  exact if_pos (by simp [hop, hj, hn])

theorem State.pkJobEnd_keygen {s : State} {n : Nat} {bs : Bytes} {p : SlcPending} (hcur : s.pkCurrent = some (.keygen n bs))
    (hready : s.kst.state = .ready) (hp : s.slc.op = some p) (hn : p.slice = n) (hj : p.judged = true)
    (hop : p.op = .create) :
    s.pkJobEnd =
      (s.setKst { s.kst with jobs := s.kst.jobs.filter (fun x => decide (x ≠ .keygen n bs)) }).createWith p bs := by
  unfold State.pkJobEnd
  rw [hcur]
  dsimp only
  rw [if_neg (by simp [hready])]
  exact State.keygenDone_creates (s := s.setKst _) hp hn hj hop

theorem State.saveEnd_failed {s : State} {n : Nat} (hst : (s.slice n).st = .saving) (he : (s.slice n).entries = []) :
    s.saveEnd n false = s.slcFailed n 0xA2 (fun x => { x with st := .frozen }) := by
  unfold State.saveEnd
  dsimp only
  rw [if_neg (by simp [hst, he])]
  rfl

theorem State.saveEnd_parks {s : State} {n : Nat} (hst : (s.slice n).st = .saving) (he : (s.slice n).entries = []) :
    ((s.saveEnd n true).slice n).st = .parked ∧ ((s.saveEnd n true).slice n).lastResult = 0 := by
  unfold State.saveEnd
  dsimp only
  rw [if_neg (by simp [hst, he]), if_neg (by simp)]
  simp [State.resetController]

theorem State.restoreEnd_failed {s : State} {n : Nat} (hst : (s.slice n).st = .restoring) :
    s.restoreEnd n false =
      (s.zeroSlice n).slcFailed n 0xA2 (fun x => { x with st := x.prev, release := true }) := by
  unfold State.restoreEnd
  dsimp only
  rw [if_neg (by simp [hst])]

theorem State.restoreEnd_loads {s : State} {n : Nat} {b : Baton} (hst : (s.slice n).st = .restoring)
    (hbound : (s.slice n).bound = true)
    (hb : s.dur.batons.find? (fun b => b.slice = n && b.serial = (s.serialOf n).serial) = some b) :
    s.restoreEnd n true = ((s.setSerial n { s.serialOf n with live := false }).loadBaton n b).ev 0x0305 n := by
  unfold State.restoreEnd
  dsimp only
  rw [if_neg (by simp [hst, hbound]), hb]

theorem State.destroyEnd_absent {s : State} {n q : Nat} (hst : (s.slice n).st = .destroying)
    (hjobs : ∀ j ∈ s.ftl.jobs, j.slice ≠ n) (htrim : (s.slice n).trimSeq = some q) (hq : q ≤ s.ftl.jseq) :
    ((s.destroyEnd n).slice n).st = .absent ∧ ((s.destroyEnd n).slice n).nss = [] ∧
      ((s.destroyEnd n).slice n).pairing = {} := by
  have hquiet : s.ftl.jobs.any (fun j => j.slice = n) = false :=
    List.any_eq_false.mpr (fun j hj => by simp [hjobs j hj])
  unfold State.destroyEnd
  dsimp only
  rw [if_neg (by simp [hst, hquiet, htrim, hq])]
  simp [State.resetController]

/-- Settles O36: each operation's end goes by the branch of the model that its premises choose; the memories that are
zeroed or loaded on the way leave the slice's own record alone (`zeroSlice_ledger`, `loadBaton_ledger`). -/
theorem sliceOperationsEnd : Obligations.SliceOperationsEnd := by
  unfold Obligations.SliceOperationsEnd
  refine ⟨?_, ?_, ?_, ?_, ?_, ?_, ?_, ?_, ?_, ?_, ?_⟩
  case refine_1 =>
    intro s n off p hn hp hpn hj hop
    refine (onSlice_of hn _).trans (congrArg Host.Outcome.next ?_)
    rw [State.slcFetchEnd_failed off hp hpn hj hop]
    subst hpn
    rfl
  case refine_2 =>
    intro s n d p period hn hp hpn hj hop hper hdesc hdraw hfree
    refine (onSlice_of hn _).trans (congrArg Host.Outcome.next ?_)
    rw [State.slcFetchEnd_create _ hp hpn hj hop]
    exact State.createAsk_queues hpn (State.createBad_none hper hdesc hdraw) hfree
  case refine_3 =>
    intro s n bs p period hp hpn hj hop hcur hready hper hdesc hdraw
    refine ⟨_, rfl, ?_⟩
    rw [State.pkJobEnd_keygen hcur hready hp hpn hj hop]
    have h := State.createWith_accepted (s := s.setKst
      { s.kst with jobs := s.kst.jobs.filter (fun x => decide (x ≠ .keygen n bs)) }) hpn
      (State.createBad_none (s := s.setKst _) hper hdesc hdraw)
    rw [if_neg (by simp [hop])] at h
    exact h
  case refine_4 =>
    intro s n d p period hn hp hpn hj hop hper hdesc hdraw
    refine ⟨_, onSlice_of hn _, ?_⟩
    rw [State.slcFetchEnd_accept _ hp hpn hj hop]
    have h := State.createWith_accepted hpn (State.createBad_none hper hdesc hdraw)
    rw [if_pos hop] at h
    exact h
  case refine_5 =>
    intro s n x hn hx hst hadms hready hheat
    subst hx
    refine (onSlice_of hn _).trans (congrArg Host.Outcome.next ?_)
    exact if_pos (by simp only [hst, hadms, hready, hheat]; rfl)
  case refine_6 =>
    intro s n x hn hx hst hquiet
    subst hx
    refine ⟨_, onSlice_of hn _, ?_⟩
    have hend : s.resetComplete n =
        (s.setSlice n { State.resetController (s.slice n) with st := .active, lastResult := 0, drain := false }).ev
          0x0301 n := if_pos (by simp [hst, hquiet])
    rw [hend]
    refine ⟨rfl, ?_, ?_, ?_, ?_⟩ <;> rw [State.ev_slice, State.slice_setSlice] <;> rfl
  case refine_7 =>
    intro s n x hn hx hst he
    subst hx
    exact (onSlice_of hn _).trans (congrArg Host.Outcome.next (State.saveEnd_failed hst he))
  case refine_8 =>
    intro s n x hn hx hst he
    subst hx
    exact ⟨_, onSlice_of hn _, State.saveEnd_parks hst he⟩
  case refine_9 =>
    intro s n x hn hx hst
    subst hx
    refine (onSlice_of hn _).trans (congrArg Host.Outcome.next ?_)
    rw [State.restoreEnd_failed hst]
    unfold State.slcFailed State.modSlice
    rw [State.zeroSlice_slice]
  case refine_10 =>
    intro s n b hn hst hbound hb
    refine ⟨_, onSlice_of hn _, ?_⟩
    rw [State.restoreEnd_loads hst hbound hb]
    refine ⟨State.loadBaton_frozen _ n b, ?_⟩
    have hdur := State.loadBaton_dur (s.setSerial n { s.serialOf n with live := false }) n b
    exact (congrArg (fun (d : Durable) => tgetD d.serials n {}) hdur).trans (tgetD_tset_same _ _ _ _)
  case refine_11 =>
    intro s n q hn hst hjobs htrim hq
    exact ⟨_, onSlice_of hn _, State.destroyEnd_absent hst hjobs htrim hq⟩

end Sys2Proof.Machine


/-! # The power commands (O37) -/

namespace Sys2Proof.Machine

/-! ### Wakes (R918) -/

/-- A write of BAR0 by a requester of a device in P1 reaches its register: no write wakes P1. -/
theorem State.bar0Write_p1 {s : State} {q : Requester} (hrun : s.dev.run = .started) (hphase : s.dev.phase = .ready)
    (hq : s.honours q) (hsteady : s.pwr.phase = .steady) (hp1 : s.pwr.state = 1) (off : Nat) (op : State → State) :
    s.bar0Write q off op = op s := by
  have hwake : s.wakeOnWrite q = s := by
    cases q with
    | smbus => rfl
    | core c => rfl
    | port p =>
      have hmask : natBit (wakesMask 2) s.pwr.state = false := by rw [hp1]; decide
      simp [State.wakeOnWrite, State.wakeEvent, hsteady, hmask]
  have hblock : s.bar0Blocked q off = none := by
    cases q with
    | smbus => cases hq
    | core c => simp [State.bar0Blocked, hrun, hphase, hp1]
    | port p => simp [State.bar0Blocked, hrun, hphase, hp1, hq.2]
  unfold State.bar0Write
  simp only [hwake, hblock]

/-! ### Links and pins at the entry to a state (R910) -/

/-- The link of a relay port is down or disabled. -/
def State.linkOff (s : State) (p : Nat) : Prop := (s.rlyPort p).st = .disabled ∨ (s.rlyPort p).st = .down

theorem State.linkDown_linkOff (s : State) (p cause : Nat) : (s.linkDown p cause).linkOff p := by
  unfold State.linkDown State.linkOff
  dsimp only
  split
  case h_1 h => exact .inl h
  case h_2 h => exact .inr h
  case h_3 =>
    refine .inr ?_
    split <;> exact congrArg RlyPort.st (tgetD_tset_same _ _ _ _)

theorem State.linkDown_rlyPort_ne (s : State) {p q : Nat} (cause : Nat) (h : q ≠ p) :
    (s.linkDown p cause).rlyPort q = s.rlyPort q := by
  unfold State.linkDown
  dsimp only
  split
  case h_1 => rfl
  case h_2 => rfl
  case h_3 => split <;> exact tgetD_tset_ne _ _ _ h

theorem State.linkDown_keeps (s : State) (p cause : Nat) :
    (s.linkDown p cause).pwr = s.pwr ∧ (s.linkDown p cause).dur = s.dur := by
  unfold State.linkDown
  dsimp only
  split
  case h_1 => exact ⟨rfl, rfl⟩
  case h_2 => exact ⟨rfl, rfl⟩
  case h_3 => split <;> exact ⟨rfl, rfl⟩

/-- Taking the four relay links down leaves each of them off. -/
theorem State.linksDown_linkOff (s : State) (cause p : Nat) (hp : p < 4) :
    ((List.range 4).foldl (fun s p => s.linkDown p cause) s).linkOff p := by
  have hkeep : ∀ (t : State) (q : Nat), t.linkOff p → (t.linkDown q cause).linkOff p := by
    intro t q h
    by_cases hqp : p = q
    · subst hqp; exact t.linkDown_linkOff p cause
    · unfold State.linkOff
      rw [State.linkDown_rlyPort_ne t cause hqp]
      exact h
  change ((((s.linkDown 0 cause).linkDown 1 cause).linkDown 2 cause).linkDown 3 cause).linkOff p
  obtain rfl | rfl | rfl | rfl : p = 0 ∨ p = 1 ∨ p = 2 ∨ p = 3 := by omega
  · exact hkeep _ _ (hkeep _ _ (hkeep _ _ (State.linkDown_linkOff _ _ _)))
  · exact hkeep _ _ (hkeep _ _ (State.linkDown_linkOff _ _ _))
  · exact hkeep _ _ (State.linkDown_linkOff _ _ _)
  · exact State.linkDown_linkOff _ _ _

theorem State.linksDown_keeps (s : State) (cause : Nat) :
    ((List.range 4).foldl (fun s p => s.linkDown p cause) s).pwr = s.pwr ∧
      ((List.range 4).foldl (fun s p => s.linkDown p cause) s).dur = s.dur :=
  ⟨foldl_keeps State.pwr _ (fun t p => (t.linkDown_keeps p cause).1) _ _,
    foldl_keeps State.dur _ (fun t p => (t.linkDown_keeps p cause).2) _ _⟩

theorem State.setPin_keeps (s : State) (k : Nat) (level : Bool) :
    (s.setPin k level).pwr = s.pwr ∧ (s.setPin k level).dur = s.dur ∧ (s.setPin k level).rly = s.rly := by
  unfold State.setPin
  split <;> exact ⟨rfl, rfl, rfl⟩

theorem State.setPin_level (s : State) (k : Nat) (level : Bool) (h3 : k ≠ 3) (h4 : k ≠ 4) :
    tgetD (s.setPin k level).pins.levels k false = level := by
  have hdef : (decide (k = 3) || decide (k = 4)) = false := by simp [h3, h4]
  unfold State.setPin
  rw [hdef]
  split
  · assumption
  · exact tgetD_tset_same _ _ _ _

theorem State.setPin_level_ne (s : State) {j k : Nat} (level : Bool) (h : j ≠ k) :
    tgetD (s.setPin k level).pins.levels j false = tgetD s.pins.levels j false := by
  unfold State.setPin
  split
  · rfl
  · exact tgetD_tset_ne _ _ _ h

/-! ### The entry to a state and the exit -/

/-- The entry of a prepared device that nothing holds (R910). -/
theorem State.powerEntryBegin_enters {s : State} (hprep : s.prepared = true)
    (hheld : s.pwr.target < 2 ∨ s.entryHeld = false) :
    s.powerEntryBegin.pwr = { s.pwr with phase := .entering, prepReady := true } ∧
      s.powerEntryBegin.dur.p4 = (if s.pwr.target = 4 then some s.p4RecordNow else s.dur.p4) ∧
      (∀ p < 4, s.powerEntryBegin.linkOff p) ∧ tgetD s.powerEntryBegin.pins.levels 6 false = false ∧
      tgetD s.powerEntryBegin.pins.levels 7 false = false := by
  have hfree : (decide (2 ≤ s.pwr.target) && s.entryHeld) = false := by
    obtain h | h := hheld
    · simp [Nat.not_le.mpr h]
    · simp [h]
  unfold State.powerEntryBegin
  rw [if_neg (by simp only [hprep, hfree]; decide)]
  dsimp only
  refine ⟨?_, ?_, ?_, ?_, ?_⟩
  · rw [(State.setPin_keeps _ _ _).1, (State.setPin_keeps _ _ _).1, (State.linksDown_keeps _ _).1]
    split <;> rfl
  · rw [(State.setPin_keeps _ _ _).2.1, (State.setPin_keeps _ _ _).2.1, (State.linksDown_keeps _ _).2]
    split <;> rfl
  · intro p hp
    unfold State.linkOff State.rlyPort
    rw [(State.setPin_keeps _ _ _).2.2, (State.setPin_keeps _ _ _).2.2]
    exact State.linksDown_linkOff _ _ p hp
  · rw [State.setPin_level_ne _ _ (by decide)]
    exact State.setPin_level _ _ _ (by decide) (by decide)
  · exact State.setPin_level _ _ _ (by decide) (by decide)

/-- P1 and P2 lose nothing, and an entry that no wake has latched stays there (R911). -/
theorem State.powerStateReached_shallow {s : State} {k : Nat} (hphase : s.pwr.phase = .entering)
    (htarget : s.pwr.target = k) (hk : k ∈ [1, 2]) (hlatched : s.pwr.latched = none) :
    s.powerStateReached State.latchBasic =
      { s.ev 0x3D00 noSlice (item 1 k) with pwr := { s.pwr with
        state := k, phase := .steady, clusterPll := 0, pllWanted := 0, mgmtPll := k = 1, idle := [0, 0, 0, 0],
        prepReady := false } } := by
  have hlow : ¬ 3 ≤ k ∧ ¬ k = 4 := (by decide : ∀ k ∈ [1, 2], ¬ 3 ≤ k ∧ ¬ k = 4) k hk
  unfold State.powerStateReached
  rw [if_neg (by simp [hphase]), htarget]
  dsimp only
  rw [if_neg hlow.1, if_neg hlow.2]
  split
  case h_1 o h => exact absurd (hlatched.symm.trans h) (Option.some_ne_none o).symm
  case h_2 => rfl

/-- P0 is reached with the PLLs wanted, and with the wake's event from P2 on (R927, R930). -/
theorem State.reachP0_wakes (s : State) :
    s.reachP0.pwr = { s.pwr with
      state := 0, target := 0, phase := .steady, mgmtPll := true, clusterPll := 0,
      pllWanted := 2 ^ (s.coresPresent / 8) - 1, wakeEventDue := false, idle := [0, 0, 0, 0] } ∧
    s.reachP0.evr.queue = s.evr.queue ++ (if s.pwr.wakeFrom < 2 then [] else [{
      code := 0x3D01, src := noSlice,
      detail := item 1 s.pwr.wakeSource ++ item 1 s.pwr.wakeFrom ++ item 2 s.pwr.wakeDetail, at' := some s.stride }]) := by
  unfold State.reachP0
  dsimp only
  by_cases hfrom : 2 ≤ s.pwr.wakeFrom
  · rw [if_pos hfrom, if_neg (Nat.not_lt.mpr hfrom)]
    exact ⟨rfl, rfl⟩
  · rw [if_neg hfrom, if_pos (Nat.not_le.mp hfrom)]
    exact ⟨rfl, (List.append_nil _).symm⟩

/-- Settles O37: each wake by its source's mask (R918), the entry by what the links and pins keep. -/
theorem powerCommands : Obligations.PowerCommands := by
  unfold Obligations.PowerCommands
  refine ⟨?_, ?_, ?_, ?_, ?_, ?_, ?_, ?_⟩
  case refine_1 =>
    intro s q hrun hphase hq hsteady hp1
    refine (byReq_honours hq _).trans (congrArg Host.Outcome.next ?_)
    unfold State.cmdWake
    rw [State.bar0Write_p1 hrun hphase hq hsteady hp1]
    exact State.wakeEvent_wakes hsteady (by rw [hp1]; decide) 0
  case refine_2 =>
    intro s hsteady hst hne hdue
    refine congrArg Host.Outcome.next ?_
    unfold State.timerExpiry
    rw [if_pos (by simp only [hne, hdue.symm, ne_eq, not_false_eq_true, decide_true, Bool.and_self])]
    exact State.wakeEvent_wakes hsteady ((by decide : ∀ k ∈ [2, 3, 4], natBit (wakesMask 6) k = true) _ hst) 0
  case refine_3 =>
    intro s t hsteady hst hwake hdue
    refine congrArg Host.Outcome.next ?_
    have hdeep : 3 ≤ s.pwr.state := (by decide : ∀ k ∈ [3, 4], 3 ≤ k) _ hst
    unfold State.refreshWakeDue
    rw [hwake]
    dsimp only
    rw [if_pos (by simp [hdue, hdeep])]
    exact State.wakeEvent_wakes (s := { s with pwr := { s.pwr with refreshWake := none } }) hsteady
      ((by decide : ∀ k ∈ [3, 4], natBit (wakesMask 7) k = true) _ hst) 0
  case refine_4 =>
    intro s p hp hsteady hst
    refine (onPort_of hp _).trans (congrArg Host.Outcome.next ?_)
    exact State.wakeEvent_wakes hsteady ((by decide : ∀ k ∈ [2, 3], natBit (wakesMask 2) k = true) _ hst) 0
  case refine_5 =>
    intro s hprep hheld
    exact ⟨_, rfl, State.powerEntryBegin_enters hprep hheld⟩
  case refine_6 =>
    intro s k hphase htarget hk hlatched
    refine congrArg Host.Outcome.next ?_
    exact State.powerStateReached_shallow hphase htarget hk hlatched
  case refine_7 =>
    intro s e hphase hst
    refine ⟨_, rfl, ?_⟩
    have h34 : s.pwr.state ≠ 3 ∧ s.pwr.state ≠ 4 := (by decide : ∀ k ∈ [1, 2], k ≠ 3 ∧ k ≠ 4) _ hst
    unfold State.powerExitComplete
    rw [if_neg (by simp [hphase]), if_neg h34.1, if_neg h34.2]
    exact s.reachP0_wakes
  case refine_8 =>
    intro s c hc hwant
    exact (if_pos hc).trans (congrArg Host.Outcome.next (if_pos hwant))

end Sys2Proof.Machine


/-! # The recorder commands (O38)

EVR_CHECK, EVR_FREEZE and EVR_CLEAR are reached as BAR0 registers, so each clause is an access of one register of the
recorder's block. -/

namespace Sys2Proof.Machine

/-! ### Registers of the recorder's block -/

def evrCheckLoc : Loc := { row := { reg := .evrCheck, base := 0x30 }, idx := 0, key := 0x1800030, high := false }

def evrFreezeLoc : Loc :=
  { row := { reg := .evrFreeze, base := 0x34, res := 0xfffffffc, wo := 0x3 }, idx := 0, key := 0x1800034, high := false }

def evrClearLoc : Loc :=
  { row := { reg := .evrClear, base := 0x38, res := 0xfc00fffc, wo := 0x3ff0003 }, idx := 0, key := 0x1800038,
    high := false }

theorem bar0Loc_evrCheck : State.bar0Loc 0x1800030 = some evrCheckLoc := rfl

theorem bar0Loc_evrFreeze : State.bar0Loc 0x1800034 = some evrFreezeLoc := rfl

theorem bar0Loc_evrClear : State.bar0Loc 0x1800038 = some evrClearLoc := rfl

theorem instBase_evr : ∀ off ∈ [0x1800030, 0x1800034, 0x1800038], State.instBase off = some 0x1800000 := by decide +kernel

/-- No error status register stands at a register of the recorder's block. -/
theorem State.errAt_evr (s : State) {off : Nat} (h : off ∈ [0x1800030, 0x1800034, 0x1800038]) : s.errAt off = none :=
  s.errAt_of (instBase_evr off h) (by
    simp only [List.mem_cons, List.not_mem_nil, or_false] at h
    omega)

/-- A write of EVR_FREEZE or EVR_CLEAR by a requester that the device honours has its effect, or is discarded. -/
theorem State.bar0RegWrite_evr {s : State} {q : Requester} (hu : s.up) (hq : s.honours q) {off v : Nat} {l : Loc}
    (hoff : off ∈ [0x1800030, 0x1800034, 0x1800038]) (hl : State.bar0Loc off = some l) (hc : s.bar0Command q l v = none)
    (hs : State.isShare l.row.reg = false) (hw : l.row.wide = false) (hok : s.writeOk l v = true) :
    s.bar0RegWrite q off 4 v = s.bar0Put l v := by
  have hin : 0x1800030 ≤ off ∧ off ≤ 0x1800038 := by
    simp only [List.mem_cons, List.not_mem_nil, or_false] at hoff
    omega
  have hreg : s.bar0Reg off = some l := s.bar0Reg_of hl (by
    simp only [Bool.or_eq_false_iff, Bool.and_eq_false_iff, decide_eq_false_iff_not]
    omega)
  rw [State.bar0RegWrite_of hu hq hreg hc,
    State.bar0Reach_of s q v hreg (s.errAt_evr hoff) (by omega) (by omega) hs hw, if_pos hok]

/-! ### EVR_CHECK (R948) -/

theorem leNat_lt_of_length {bs : Bytes} {n : Nat} (h : bs.length ≤ n) : leNat bs < 256 ^ n :=
  Nat.lt_of_lt_of_le (leNat_lt bs) (Nat.pow_le_pow_right (by decide) h)

/-- The value that a read of EVR_CHECK returns is the dword at the set's cursor. -/
theorem State.readDword_evrCheck {s : State} {q : Requester} (hu : s.up) (hq : s.honours q) :
    s.readDword q .bar0 0x1800030 = leAt (s.evrAtCursor .bar0) 0 4 ∧
      ∃ v, s.reads q .bar0 0x1800030 = some (evrCheckLoc, v) := by
  obtain ⟨hrun, hphase, hp0, -⟩ := hu
  have hreads : (s.bar0Reads 0x1800030 && !State.testHidden q 0x1800030) = true := by
    have hshown : State.testHidden q 0x1800030 = false := by cases q <;> rfl
    simp [State.bar0Reads, hrun, hphase, hp0, hshown]
  have hreg : s.bar0Reg 0x1800030 = some evrCheckLoc := s.bar0Reg_of bar0Loc_evrCheck (by decide)
  have hval : s.locValue evrCheckLoc = leAt (s.evrAtCursor .bar0) 0 4 := by
    refine Eq.trans (b := 0 + 0 + 0 + 0 + 0 + 0 + 0 + leAt (s.evrAtCursor .bar0) 0 4) ?_ (by simp)
    change s.regValue evrCheckLoc = _
    unfold State.regValue
    have hstored : s.storedPart evrCheckLoc = 0 := by simp [State.storedPart, evrCheckLoc]
    dsimp only
    rw [if_neg (by simp [evrCheckLoc, State.isFij]), if_neg (by simp [evrCheckLoc, State.isShare]), hstored]
    rfl
  have hlt : leAt (s.evrAtCursor .bar0) 0 4 < 2 ^ 32 :=
    leNat_lt_of_length (n := 4) (List.length_take_le _ _)
  refine ⟨?_, s.locValue evrCheckLoc, ?_⟩
  · have hread : s.readDword q .bar0 0x1800030 = s.bar0Dword 0x1800030 := by
      cases q with
      | smbus => cases hq
      | port p => exact if_pos hreads
      | core c => exact if_pos hreads
    rw [hread]
    unfold State.bar0Dword
    rw [s.errAt_evr (by decide), hreg]
    change s.locValue evrCheckLoc / 1 % 2 ^ 32 = _
    rw [hval, Nat.div_one, Nat.mod_eq_of_lt hlt]
  · have hread : s.reads q .bar0 0x1800030 = (s.bar0Reg 0x1800030).map (fun l => (l, s.locValue l)) := by
      cases q with
      | smbus => cases hq
      | port p => exact if_pos hreads
      | core c => exact if_pos hreads
    rw [hread, hreg]
    rfl

theorem State.wakeP3_up {s : State} (hu : s.up) : s.wakeP3 = s := by
  obtain ⟨-, -, hp0, hsteady⟩ := hu
  unfold State.wakeP3
  rw [hsteady, hp0]
  rfl

theorem State.wakeOnRead_up {s : State} (hu : s.up) (q : Requester) : s.wakeOnRead q = s := by
  cases q with
  | port p => exact State.wakeP3_up hu
  | core c => rfl
  | smbus => rfl

/-- A read of EVR_CHECK moves the cursor of the requester's set. -/
theorem State.reg64Read_evrCheck {s : State} {q : Requester} (hu : s.up) (hq : s.honours q) :
    s.reg64Read q .bar0 0x1800030 4 =
      { s.readEvrCheck .bar0 with lastRead := BitVec.ofNat 64 (leAt (s.evrAtCursor .bar0) 0 4) } := by
  obtain ⟨hv, w, hreads⟩ := State.readDword_evrCheck hu hq
  have hset : State.checkSet q .bar0 0x1800030 = some .bar0 := by
    cases q with
    | smbus => cases hq
    | port p => rfl
    | core c => rfl
  have hread : s.sizedRead q .bar0 0x1800030 4 = (s.readEvrCheck .bar0, leAt (s.evrAtCursor .bar0) 0 4) := by
    unfold State.sizedRead
    rw [if_neg (by decide), if_pos rfl]
    unfold State.busRead
    simp only [State.wakeOnRead_up hu, hv, hreads, hset]
    rfl
  unfold State.reg64Read
  rw [hread]

/-! ### EVR_FREEZE (R951, R952) and EVR_CLEAR (R954) -/

/-- A value of EVR_FREEZE below 3 sets no reserved bit and names no reserved value. -/
theorem State.regWrite_evrFreeze {s : State} {q : Requester} (hu : s.up) (hq : s.honours q) {v : BitVec 64}
    (hv : v = 1 ∨ v = 2) :
    s.regWrite q .bar0 0x1800034 4 v = s.evrPut .bar0 .evrFreeze v.toNat := by
  have hok : s.writeOk evrFreezeLoc v.toNat = true := by
    obtain rfl | rfl := hv <;> rfl
  have hc : s.bar0Command q evrFreezeLoc v.toNat = none := by
    unfold State.bar0Command
    rw [hok]
    rfl
  have hmod : v.toNat % 256 ^ 4 = v.toNat := by
    obtain rfl | rfl := hv <;> rfl
  rw [State.regWrite_bar0 hq, hmod]
  exact State.bar0RegWrite_evr hu hq (by decide) bar0Loc_evrFreeze hc rfl rfl hok

theorem testBit_of_natBits_zero {x hi lo i : Nat} (h : natBits x hi lo = 0) (hlo : lo ≤ i) (hhi : i ≤ hi) :
    x.testBit i = false := by
  have hbit : (natBits x hi lo).testBit (i - lo) = x.testBit i := by
    unfold natBits
    rw [Nat.testBit_mod_two_pow, Nat.testBit_shiftRight, Nat.add_sub_cancel' hlo]
    simp only [Bool.and_eq_right_iff_imp, decide_eq_true_eq]
    omega
  rw [← hbit, h, Nat.zero_testBit]

/-- A CLEAR whose value is allowed sets no reserved bit. -/
theorem evrClearOk_reserved {s : State} {v : BitVec 32} (h : evrClearOk s v.toNat = true) :
    v.toNat &&& 0xfc00fffc = 0 := by
  obtain ⟨hhigh, hmid⟩ : natBits v.toNat 31 26 = 0 ∧ natBits v.toNat 15 2 = 0 := by
    simp only [evrClearOk, Bool.and_eq_true, decide_eq_true_eq] at h
    exact h.1.1
  refine Nat.eq_of_testBit_eq (fun i => ?_)
  rw [Nat.testBit_and, Nat.zero_testBit]
  by_cases hbit : (2 ≤ i ∧ i ≤ 15) ∨ (26 ≤ i ∧ i ≤ 31)
  · obtain ⟨h2, h15⟩ | ⟨h26, h31⟩ := hbit
    · rw [testBit_of_natBits_zero hmid h2 h15, Bool.false_and]
    · rw [testBit_of_natBits_zero hhigh h26 h31, Bool.false_and]
  · by_cases hi : i < 32
    · have hmask : ∀ j < 32, ¬ ((2 ≤ j ∧ j ≤ 15) ∨ (26 ≤ j ∧ j ≤ 31)) → Nat.testBit 0xfc00fffc j = false := by decide
      rw [hmask i hi hbit, Bool.and_false]
    · have hsmall : v.toNat < 2 ^ i := Nat.lt_of_lt_of_le v.isLt (Nat.pow_le_pow_right (by decide) (by omega))
      rw [Nat.testBit_lt_two_pow hsmall, Bool.false_and]

theorem State.regWrite_evrClear {s : State} {q : Requester} {v : BitVec 32} (hu : s.up) (hq : s.honours q)
    (hv : evrClearOk s v.toNat = true) :
    s.regWrite q .bar0 0x1800038 4 (v.setWidth 64) = s.requestClear v.toNat 0 := by
  have hok : s.writeOk evrClearLoc v.toNat = true := by
    have hres : v.toNat &&& evrClearLoc.row.res = 0 := evrClearOk_reserved hv
    have hval : s.valueOk evrClearLoc.row.reg v.toNat = true := hv
    simp [State.writeOk, hres, hval]
  have hc : s.bar0Command q evrClearLoc v.toNat = none := by
    unfold State.bar0Command
    rw [hok]
    rfl
  have hmod : (v.setWidth 64).toNat % 256 ^ 4 = v.toNat := by
    have := v.isLt
    rw [BitVec.toNat_setWidth]
    omega
  rw [State.regWrite_bar0 hq, hmod]
  exact State.bar0RegWrite_evr hu hq (by decide) bar0Loc_evrClear hc rfl rfl hok

/-! ### The end of a freeze (R952) -/

theorem State.recorder_setRecorder (s : State) (i : Option Nat) (r : Recorder) : (s.setRecorder i r).recorder i = r := by
  cases i with
  | none => rfl
  | some n => exact tgetD_tset_same _ _ _ _

/-- Writing a record into its ring leaves the freeze as it is. -/
theorem Recorder.writeNew_freeze (r : Recorder) (sz : RecSize) (x : EvRec) :
    ((r.writeNew sz x).frozenAt, (r.writeNew sz x).thawedAt, (r.writeNew sz x).held) = (r.frozenAt, r.thawedAt, r.held) := by
  unfold Recorder.writeNew Recorder.setRing
  dsimp only
  split <;> rfl

theorem State.evrThaw_recorder (s : State) (i : Option Nat) :
    ((s.evrThaw i).recorder i).frozenAt = none ∧ ((s.evrThaw i).recorder i).thawedAt = some s.stride ∧
      ((s.evrThaw i).recorder i).held = [] := by
  have hrec : ∀ (t : State) (c n : Nat) (d : Bytes), (t.ev c n d).recorder i = t.recorder i := by
    intro t c n d
    cases i <;> rfl
  unfold State.evrThaw
  dsimp only
  rw [hrec, State.recorder_setRecorder]
  have hfold := foldl_keeps (fun (r : Recorder) => (r.frozenAt, r.thawedAt, r.held))
    (fun r x => r.writeNew (recSize i) { x with held := true }) (fun r x => Recorder.writeNew_freeze r _ _)
    (s.recorder i).held
    { s.recorder i with frozenAt := none, thawedAt := some s.stride, held := [], heldLost := 0, releaseReq := false }
  exact ⟨congrArg Prod.fst hfold, congrArg (fun p => p.2.1) hfold, congrArg (fun p => p.2.2) hfold⟩

theorem onRecorder_of {i : Option Nat} (h : ∀ n, i = some n → n < 512) (t : State) : onRecorder i t = .next t := by
  cases i with
  | none => rfl
  | some n => exact onSlice_of (h n rfl) t

/-- Settles O38: the register accesses of the recorder's block, and the thaw of a recorder. -/
theorem recorderCommands : Obligations.RecorderCommands := by
  unfold Obligations.RecorderCommands
  refine ⟨?_, ?_, ?_, ?_, ?_⟩
  case refine_1 =>
    intro s hu hm
    exact ⟨_, congrArg Host.Outcome.next (State.reg64Read_evrCheck (q := .port s.mgrPort) hu ⟨hm, rfl⟩), rfl⟩
  case refine_2 =>
    intro s hu hm
    exact congrArg Host.Outcome.next (State.regWrite_evrFreeze (q := .port s.mgrPort) hu ⟨hm, rfl⟩ (.inl rfl))
  case refine_3 =>
    intro s hu hm hfrozen
    refine congrArg Host.Outcome.next ((State.regWrite_evrFreeze (q := .port s.mgrPort) hu ⟨hm, rfl⟩ (.inr rfl)).trans ?_)
    exact if_pos hfrozen
  case refine_4 =>
    intro s i t hi hfrozen hdue
    refine ⟨s.evrThaw i, ?_, rfl, s.evrThaw_recorder i⟩
    refine (onRecorder_of hi _).trans (congrArg Host.Outcome.next ?_)
    unfold State.freezeExpiry
    rw [hfrozen]
    exact if_pos hdue
  case refine_5 =>
    intro s q v hu hq hv
    exact (byReq_honours hq _).trans (congrArg Host.Outcome.next (State.regWrite_evrClear hu hq hv))

end Sys2Proof.Machine


/-! # The management pins (O39) -/

namespace Sys2Proof.Machine

/-! ### The SMBus port's recorder set (R1038) -/

def evrPodiumLoc : Loc :=
  { row := { reg := .evrPodium, base := 0x8, res := 0xfffff800 }, idx := 0, key := 0x1800008, high := false }

theorem State.smbusAway_up {s : State} (hu : s.up) : s.smbusAway = false := by
  obtain ⟨-, hphase, hp0, -⟩ := hu
  simp [State.smbusAway, hphase, hp0]

/-- A block read of selection 2 returns the number of records of the podium. -/
theorem State.busRead_smbusPodium (s : State) :
    s.busRead .smbus .bar0 0x1800008 = (s, s.evr.dev.podium.length % 2 ^ 32) := by
  have hreads : s.reads .smbus .bar0 0x1800008 = some (evrPodiumLoc, s.evr.dev.podium.length) := rfl
  have hdword : s.readDword .smbus .bar0 0x1800008 = s.evr.dev.podium.length % 2 ^ 32 := by
    unfold State.readDword
    simp only [hreads]
    change s.evr.dev.podium.length / 1 % 2 ^ 32 = _
    rw [Nat.div_one]
  unfold State.busRead
  simp only [State.wakeOnRead, hdword, hreads]
  rfl

/-- A freeze written through the SMBus port's set is recorded for it. -/
theorem State.smbusReach_freeze (s : State) :
    s.smbusReach 0x34 1 = { s with evr := { s.evr with dev := { s.evr.dev with freezeReq := s.evr.dev.freezeReq ++ [1] } } } :=
  rfl

/-! ### A security alarm (R749, R750)

A command that fails changes its slice alone: the rest of the state is named by `butSlices`. -/

/-- The state with no slice: all that a command's end leaves alone. -/
def State.butSlices (s : State) : State := { s with slices := [] }

theorem State.modSlice_butSlices (s : State) (n : Nat) (f : Slice → Slice) : (s.modSlice n f).butSlices = s.butSlices := rfl

theorem State.finishAt_butSlices (s : State) (c : CmdId) (st : Status) (dw0 dw1 : BitVec 32) (due : Nat) :
    (s.finishAt c st dw0 dw1 due).butSlices = s.butSlices := by
  unfold State.finishAt
  split <;> rfl

theorem State.failCmd_butSlices (s : State) (c : CmdId) (st : Status) : (s.failCmd c st).butSlices = s.butSlices :=
  State.finishAt_butSlices _ _ _ _ _ _

theorem State.dgsRuns_failed (s : State) :
    ((s.dgs.runs.filter (fun r => r.unit.isSome)).foldl (fun s r => s.failCmd r.id (.vendor 0x8A)) s).butSlices =
      s.butSlices :=
  foldl_keeps State.butSlices _ (fun _ _ => State.failCmd_butSlices _ _ _) _ _

theorem State.cphRuns_failed (s : State) (l : List CipherRun) :
    (l.foldl (fun s r => s.failCmd r.id (.vendor 0x86)) s).butSlices = s.butSlices :=
  foldl_keeps State.butSlices _ (fun _ _ => State.failCmd_butSlices _ _ _) _ _

/-- The digest and the cipher engine with only the work that has not begun. -/
def State.unbegun (s : State) : State :=
  { s with dgs := { s.dgs with runs := s.dgs.runs.filter (fun r => r.unit.isNone) },
           cph := { s.cph with runs := s.cph.runs.filter (fun r => !r.begun) } }

theorem State.alarmClear_spec (s : State) : s.alarmClear.butSlices = s.unbegun.butSlices := by
  have hdgs := s.dgsRuns_failed
  unfold State.alarmClear
  dsimp only
  generalize List.foldl _ s _ = t at hdgs ⊢
  exact congrArg State.unbegun ((State.cphRuns_failed t (t.cph.runs.filter (fun r => r.begun))).trans hdgs)

theorem State.alarmClear_keeps (s : State) :
    s.alarmClear.pins = s.pins ∧ s.alarmClear.kst = s.kst ∧
      s.alarmClear.cph = { s.cph with runs := s.cph.runs.filter (fun r => !r.begun) } ∧
      s.alarmClear.dgs = { s.dgs with runs := s.dgs.runs.filter (fun r => r.unit.isNone) } := by
  have h := s.alarmClear_spec
  generalize s.alarmClear = t at h ⊢
  have hpins := congrArg State.pins h
  have hkst := congrArg State.kst h
  have hcph := congrArg State.cph h
  have hdgs := congrArg State.dgs h
  exact ⟨hpins, hkst, hcph, hdgs⟩

/-- A job of the public-key unit that a restart of the unit begins anew (R750). -/
def pkAnew : PkKind → PkKind
  | .sign c _ => .sign c none
  | j => j

theorem State.pkRestart_kst (s : State) : s.pkRestart.kst = { s.kst with jobs := s.kst.jobs.map pkAnew } := by
  have hjob : (fun j : PkKind => match j with
      | .sign c _ => .sign c none
      | j => j) = pkAnew := by
    funext j
    cases j <;> rfl
  exact congrArg (fun f => { s.kst with jobs := s.kst.jobs.map f }) hjob

/-- What a security alarm leaves of the pins, the key store and the two engines. -/
theorem State.securityAlarm_spec (s : State) (src : Nat) :
    (s.securityAlarm src).pins = s.pins ∧
    (s.securityAlarm src).kst = { s.kst with
      alarms := s.stride :: s.kst.alarms, lastAlarm := src, alarm := true, state := .suspended,
      jobs := s.kst.jobs.map pkAnew } ∧
    (s.securityAlarm src).cph = { s.cph with
      alarm := true, lastAlarm := 4, runs := s.cph.runs.filter (fun r => !r.begun) } ∧
    (s.securityAlarm src).dgs = { s.dgs with runs := s.dgs.runs.filter (fun r => r.unit.isNone) } := by
  let x := ((s.setKst { s.kst with
    alarms := s.stride :: s.kst.alarms, lastAlarm := src, alarm := true, state := .suspended }).ev
      0x2A00 noSlice (item 1 src)).cipherAlarm 4
  have hout : s.securityAlarm src = if 16 ≤ x.alarmClear.pkRestart.alarmWindow then x.alarmClear.pkRestart.raiseFault 2
      else x.alarmClear.pkRestart := rfl
  obtain ⟨cpins, ckst, ccph, cdgs⟩ := x.alarmClear_keeps
  generalize x.alarmClear = y at hout cpins ckst ccph cdgs
  rw [hout]
  refine ⟨?_, ?_, ?_, ?_⟩
  · split <;> exact cpins
  · have hkst : y.pkRestart.kst = { x.kst with jobs := x.kst.jobs.map pkAnew } := by rw [State.pkRestart_kst, ckst]
    split <;> exact hkst
  · split <;> exact ccph
  · split <;> exact cdgs

/-! ### Instructions of the TAP (R1042 to R1044) -/

theorem State.tapDrive_free {s : State} (h : s.dev.run = .waiting ∨ (s.dev.run = .started ∧ s.dev.phase = .safe))
    (code : Nat) : s.tapDrive code = s.tapLoad code := by
  unfold State.tapDrive
  obtain hw | ⟨hs, hsafe⟩ := h
  · rw [if_neg (by rw [hw]; decide), if_pos (by rw [hw]; rfl)]
  · rw [if_neg (by rw [hs]; decide), if_pos (by rw [hs, hsafe]; rfl)]

theorem State.tapDrive_locked {s : State} (hs : s.dev.run = .started) (hphase : s.dev.phase ≠ .safe) (code : Nat) :
    s.tapDrive code = s.tapLocked := by
  unfold State.tapDrive
  rw [if_neg (by rw [hs]; decide), if_neg (by simp [hs, hphase])]

theorem State.tapDebug_of {s : State} {k : Nat} (hrun : s.dev.run ≠ .off)
    (hopen : 0x80 ≤ k ∧ k ≤ 0xBF → s.debugUnlock = true) :
    s.tapDebug k = s.tapLoad (if 0x80 ≤ k ∧ k ≤ 0xBF then k else 0xFF) := by
  unfold State.tapDebug
  rw [if_neg hrun]
  by_cases hk : 0x80 ≤ k ∧ k ≤ 0xBF
  · rw [if_pos (by simp [hk]), if_pos (hopen hk), if_pos hk]
  · rw [if_neg (by simpa using hk), if_neg hk]

theorem State.tapDebug_locked {s : State} {k : Nat} (hs : s.dev.run = .started) (hlock : s.debugUnlock = false)
    (hk : 0x80 ≤ k ∧ k ≤ 0xBF) : s.tapDebug k = s.tapLocked := by
  unfold State.tapDebug
  rw [if_neg (by rw [hs]; decide), if_pos (by simp [hk]), if_neg (by rw [hlock]; decide)]

theorem State.tapLocked_alarms {s : State} (hs : s.dev.run = .started) :
    s.tapLocked.pins.instr = 0xFF ∧ s.tapLocked.pins.lockedAccess = min 255 (s.pins.lockedAccess + 1) ∧
      s.tapLocked.kst.lastAlarm = 5 ∧ s.tapLocked.kst.alarm = true ∧ s.tapLocked.kst.state = .suspended := by
  have hlocked : s.tapLocked = ({ s.tapLoad 0xFF with
      pins := { (s.tapLoad 0xFF).pins with lockedAccess := satAdd s.pins.lockedAccess 1 255 } }).securityAlarm 5 :=
    if_pos hs
  obtain ⟨hpins, hkst, -, -⟩ := State.securityAlarm_spec ({ s.tapLoad 0xFF with
      pins := { (s.tapLoad 0xFF).pins with lockedAccess := satAdd s.pins.lockedAccess 1 255 } }) 5
  rw [hlocked, hpins, hkst]
  exact ⟨rfl, rfl, rfl, rfl, rfl⟩

/-- Settles O39: the SMBus commands by the port's state and the register selected, the TAP's by the state of the
device. -/
theorem managementPinCommands : Obligations.ManagementPinCommands := by
  unfold Obligations.ManagementPinCommands
  refine ⟨?_, ?_, ?_, ?_, ?_, ?_, ?_, ?_, ?_, ?_⟩
  case refine_1 =>
    intro s k bs hrun haway hk
    refine congrArg Host.Outcome.next ?_
    unfold State.smbusBasic
    rw [if_neg (by rw [hrun]; decide)]
    simp only [List.mem_cons, List.not_mem_nil, or_false, Prod.mk.injEq] at hk
    obtain ⟨rfl, rfl⟩ | ⟨rfl, rfl⟩ := hk
    · rw [if_pos rfl, haway]
      rfl
    · rw [if_neg (by decide), if_pos rfl, haway]
      rfl
  case refine_2 =>
    intro s v hu hv
    refine congrArg Host.Outcome.next ?_
    unfold State.smbusSelect
    rw [if_neg (by rw [hu.1]; decide)]
    dsimp only
    rw [if_pos hv, State.wakeEvent_up hu]
  case refine_3 =>
    intro s hu hsel
    refine congrArg Host.Outcome.next ?_
    unfold State.smbusRead
    rw [if_neg (by rw [hu.1, State.smbusAway_up hu]; decide), hsel]
    dsimp only
    rw [s.busRead_smbusPodium]
    exact congrArg (fun bs => s.emit (.smbus (4 :: bs))) (leBytes_mod 4 _)
  case refine_4 =>
    intro s hu hsel
    refine congrArg Host.Outcome.next ?_
    unfold State.smbusWrite
    rw [if_neg (by rw [hu.1]; decide), if_neg (by rw [State.smbusAway_up hu]; decide), State.wakeEvent_up hu]
    dsimp only
    rw [if_neg (by decide), hsel]
    exact s.smbusReach_freeze
  case refine_5 =>
    intro s n v hu hn
    refine congrArg Host.Outcome.next ?_
    unfold State.smbusWrite
    rw [if_neg (by rw [hu.1]; decide), if_neg (by rw [State.smbusAway_up hu]; decide), State.wakeEvent_up hu]
    exact if_pos hn
  case refine_6 =>
    intro s p hfree hp
    simp only [List.mem_cons, List.not_mem_nil, or_false] at hp
    obtain rfl | rfl := hp <;> exact congrArg Host.Outcome.next (State.tapDrive_free hfree _)
  case refine_7 =>
    intro s p hrun hp
    simp only [List.mem_cons, List.not_mem_nil, or_false] at hp
    obtain rfl | rfl | rfl | rfl := hp <;> exact congrArg Host.Outcome.next (if_neg hrun)
  case refine_8 =>
    intro s k hrun hopen
    exact congrArg Host.Outcome.next (State.tapDebug_of hrun hopen)
  case refine_9 =>
    intro s p hs hphase hp
    refine ⟨s.tapLocked, ?_, State.tapLocked_alarms hs⟩
    obtain hdrive | ⟨hlock, k, hlo, hhi, rfl⟩ := hp
    · simp only [List.mem_cons, List.not_mem_nil, or_false] at hdrive
      obtain rfl | rfl := hdrive <;> exact congrArg Host.Outcome.next (State.tapDrive_locked hs hphase _)
    · exact congrArg Host.Outcome.next (State.tapDebug_locked hs hlock ⟨hlo, hhi⟩)
  case refine_10 =>
    intro s hrun
    exact congrArg Host.Outcome.next (if_neg hrun)

end Sys2Proof.Machine


/-! # Start-up, firmware and device faults (O40) -/

namespace Sys2Proof.Machine

/-! ### COLD_START and SAFE -/

/-- A cold start leaves what is durable or fused, and nothing else (R21, R23). -/
theorem State.coldStart_spec (s : State) :
    s.coldStart.stride = 0 ∧ s.coldStart.dev.run = .waiting ∧ s.coldStart.dev.startKind = 1 ∧
      s.coldStart.slices = [] ∧ s.coldStart.rw = [] ∧ s.coldStart.crs = {} ∧ s.coldStart.cmb = [] ∧
      s.coldStart.mem = [] ∧ s.coldStart.cores = [] ∧ s.coldStart.pins = {} ∧ s.coldStart.variant = s.variant ∧
      s.coldStart.deviceId = s.deviceId ∧ s.coldStart.dur.courseCur = s.dur.courseCur ∧
      s.coldStart.dur.fusedEpoch = s.dur.fusedEpoch := by
  unfold State.coldStart
  dsimp only
  split <;> exact ⟨rfl, rfl, rfl, rfl, rfl, rfl, rfl, rfl, rfl, rfl, rfl, rfl, rfl, rfl⟩

/-- Entering SAFE sets the device's state; the slices, the registers and the variant stay. -/
theorem State.enterSafe_spec (s : State) (cause : Nat) :
    (s.enterSafe cause).dev.run = .started ∧ (s.enterSafe cause).dev.phase = .safe ∧
      (s.enterSafe cause).dev.cause = cause ∧ (s.enterSafe cause).slices = s.slices ∧
      (s.enterSafe cause).rw = s.rw ∧ (s.enterSafe cause).variant = s.variant := by
  unfold State.enterSafe
  dsimp only
  split <;> exact ⟨rfl, rfl, rfl, rfl, rfl, rfl⟩

/-! ### The starter (R1018) -/

theorem State.starterBegin_noClock {s : State} {e : StartEnv} (hrun : s.dev.run = .waiting) (hclock : e.clockOk = false) :
    s.starterBegin e = (s.startPower e).enterSafe 1 := by
  have hsteps : s.startSteps e = .error ((s.startPower e).enterSafe 1) := by
    unfold State.startSteps
    exact if_pos (by simp [hclock])
  unfold State.starterBegin
  rw [if_neg (by rw [hrun]; decide), hsteps]

theorem State.starterBegin_noCourse {s t : State} {e : StartEnv} (hrun : s.dev.run = .waiting)
    (hsteps : s.startSteps e = .ok t) (hcourse : t.startCourse.hasCourse = false) :
    s.starterBegin e = { t.startCourse with dev := { t.startCourse.dev with phase := .noCourse } } := by
  unfold State.starterBegin
  rw [if_neg (by rw [hrun]; decide), hsteps]
  exact if_neg (by rw [hcourse]; decide)

/-! ### The firmware commands (R987 to R990) -/

/-- A command of DEV_CMD runs where none runs and no fault flush does. -/
theorem State.devCommand_runs {s : State} {q : Requester} (hu : s.up) (hq : s.honours q) (hbusy : s.dev.cmdBusy = false)
    (hflush : s.dev.faultFlush = false) (op : Nat) (f : State → State) : s.devCommand q op f = f s := by
  unfold State.devCommand
  rw [State.bar0Write_up hu hq]
  exact if_neg (by simp [hu.2.1, hbusy, hflush])

theorem State.devCommand_refused {s : State} {q : Requester} (hu : s.up) (hq : s.honours q)
    (hbusy : s.dev.cmdBusy = true ∨ s.dev.faultFlush = true) (op : Nat) (f : State → State) :
    s.devCommand q op f = { s with dev := { s.dev with cmdRefused := true } } := by
  unfold State.devCommand
  rw [State.bar0Write_up hu hq]
  refine if_pos ?_
  obtain h | h := hbusy <;> simp [h]

/-- FW_LOAD of an image that passes puts it in the slot that is not running (R987). -/
theorem State.cmdFwLoad_good {s : State} {q : Requester} {bs : Bytes} {f : FwImage} (hu : s.up) (hq : s.honours q)
    (hbusy : s.dev.cmdBusy = false) (hflush : s.dev.faultFlush = false) (htrial : s.dev.trial = false)
    (hlen : s.rwNat 0x30 ≠ 0) (hsys : s.systemAreaWritable = true)
    (hgood : fwCheck s.kst.weldopoRevoked s.dur.fwFusedEpoch (padTo (s.rwNat 0x30) bs) = .ok f) :
    s.cmdFwLoad q (.ok bs) = ((s.setFw (1 - s.dev.image) f).devResult 0).ev 0x0F01 noSlice
      (item 1 (1 - s.dev.image) ++ item 1 f.major ++ item 1 f.minor ++ item 1 f.patch) := by
  unfold State.cmdFwLoad
  rw [State.devCommand_runs hu hq hbusy hflush]
  dsimp only
  rw [if_neg (by rw [htrial]; decide), if_neg hlen, hgood]
  exact if_neg (by rw [hsys]; decide)

theorem State.cmdFwActivate_trial {s : State} {q : Requester} (hu : s.up) (hq : s.honours q)
    (hbusy : s.dev.cmdBusy = false) (hflush : s.dev.faultFlush = false)
    (hstate : (s.fwImage (1 - s.dev.image)).state = 1) :
    s.cmdFwActivate q = (({ s with dur := { s.dur with
      fwTrial := true, fwTries := 0, fwConfirmed := s.dev.image } }).devResult 0).ev 0x0F02 noSlice := by
  unfold State.cmdFwActivate
  rw [State.devCommand_runs hu hq hbusy hflush]
  exact if_neg (not_not_intro hstate)

/-- The image that runs on trial is confirmed; the epoch fused is the higher of the two (R989). -/
def State.fwConfirmed (s : State) : State :=
  (({ s with dev := { s.dev with trial := false }
             dur := { s.dur with
               fwTrial := false, fwTries := 0, fwConfirmed := s.dev.image,
               fwFusedEpoch := max s.dur.fwFusedEpoch (s.fwImage s.dev.image).epoch } }).devResult 0).ev 0x0F03 noSlice

theorem State.cmdFwConfirm_trial {s : State} {q : Requester} (hu : s.up) (hq : s.honours q)
    (hbusy : s.dev.cmdBusy = false) (hflush : s.dev.faultFlush = false) (htrial : s.dev.trial = true) :
    s.cmdFwConfirm q = if s.dur.fwFusedEpoch < (s.fwImage s.dev.image).epoch then s.fwConfirmed.ev 0x2F02 noSlice
      else s.fwConfirmed := by
  unfold State.cmdFwConfirm
  rw [State.devCommand_runs hu hq hbusy hflush]
  dsimp only
  rw [if_neg (by rw [htrial]; decide)]
  simp only [decide_eq_true_eq]
  rfl

/-! ### The end of a fault flush (R979, R981) -/

/-- What a flush saves is durable or on flash: the device, the buffer's state and the variant stay. -/
theorem State.flushSave_keeps (s : State) (records : Bool) :
    (s.flushSave records).dev = s.dev ∧ (s.flushSave records).wbf = s.wbf ∧ (s.flushSave records).variant = s.variant := by
  unfold State.flushSave
  split
  · exact ⟨rfl, rfl, rfl⟩
  · split <;> exact ⟨rfl, rfl, rfl⟩

/-- A fault flush that no power failure has joined ends SAFE, or restarts the device. -/
theorem State.faultFlushEnd_spec {s : State} (hflush : s.dev.faultFlush = true) (htime : s.pfInTime = true)
    (hpf : s.wbf.pfail = false) (hcold : s.dev.afterFlush ≠ 1) :
    (s.dev.afterFlush = 6 → s.faultFlushEnd.dev.run = .started ∧ s.faultFlushEnd.dev.phase = .safe ∧
        s.faultFlushEnd.dev.cause = 6) ∧
      (s.dev.afterFlush ≠ 6 → s.faultFlushEnd.dev.run = .waiting ∧
        s.faultFlushEnd.dev.startKind = s.dev.afterFlush) ∧
      s.faultFlushEnd.slices = [] ∧ s.faultFlushEnd.rw = [] ∧ s.faultFlushEnd.variant = s.variant := by
  obtain ⟨hdev, hwbf, hvar⟩ := s.flushSave_keeps false
  unfold State.faultFlushEnd
  rw [if_neg (by simp [hflush, htime])]
  generalize s.flushSave false = u at hdev hwbf hvar ⊢
  dsimp only
  rw [if_neg (by rw [hwbf, hpf]; decide)]
  by_cases hsafe : u.dev.afterFlush = 6
  · rw [if_pos hsafe]
    obtain ⟨hrun, hphase, hcause, hslices, hrw, hvariant⟩ := State.enterSafe_spec _ 6
    refine ⟨fun _ => ⟨hrun, hphase, hcause⟩, fun h => absurd (hdev ▸ hsafe) h, hslices, hrw, hvariant.trans hvar⟩
  · rw [if_neg hsafe]
    have hne : u.dev.afterFlush ≠ 1 := hdev ▸ hcold
    refine ⟨fun h => absurd (hdev ▸ h) hsafe, fun _ => ?_, rfl, rfl, hvar⟩
    unfold State.resetDevice
    dsimp only
    rw [if_neg hne]
    exact ⟨rfl, congrArg Dev.afterFlush hdev⟩

/-- Settles O40: each command by its outcome on a device that may take it, and by its refusal on one that may not. -/
theorem startAndFirmwareCommands : Obligations.StartAndFirmwareCommands := by
  unfold Obligations.StartAndFirmwareCommands
  refine ⟨?_, ?_, ?_, ?_, ?_, ?_, ?_, ?_, ?_, ?_, ?_, ?_, ?_⟩
  case refine_1 =>
    intro s
    exact ⟨_, rfl, s.coldStart_spec⟩
  case refine_2 =>
    intro s e hrun hclock
    obtain ⟨h1, h2, h3, -⟩ := (s.startPower e).enterSafe_spec 1
    exact ⟨_, congrArg Host.Outcome.next (State.starterBegin_noClock hrun hclock), h1, h2, h3⟩
  case refine_3 =>
    intro s t e hrun hsteps hcourse
    exact congrArg Host.Outcome.next (State.starterBegin_noCourse hrun hsteps hcourse)
  case refine_4 =>
    intro s q hu hq hbusy hflush bs f htrial hlen hsys hgood
    exact (byReq_honours hq _).trans
      (congrArg Host.Outcome.next (State.cmdFwLoad_good hu hq hbusy hflush htrial hlen hsys hgood))
  case refine_5 =>
    intro s q hu hq hbusy hflush hstate
    exact (byReq_honours hq _).trans (congrArg Host.Outcome.next (State.cmdFwActivate_trial hu hq hbusy hflush hstate))
  case refine_6 =>
    intro s q hu hq hbusy hflush htrial hlow
    refine (byReq_honours hq _).trans (congrArg Host.Outcome.next ?_)
    rw [State.cmdFwConfirm_trial hu hq hbusy hflush htrial, if_neg (Nat.not_lt.mpr hlow)]
    unfold State.fwConfirmed
    rw [Nat.max_eq_left hlow]
    rfl
  case refine_7 =>
    intro s q hu hq hbusy hflush htrial hhigh
    refine (byReq_honours hq _).trans (congrArg Host.Outcome.next ?_)
    rw [State.cmdFwConfirm_trial hu hq hbusy hflush htrial, if_pos hhigh]
    unfold State.fwConfirmed
    rw [Nat.max_eq_right (Nat.le_of_lt hhigh)]
    rfl
  case refine_8 =>
    intro s q hu hq hbusy hflush
    exact (byReq_honours hq _).trans (congrArg Host.Outcome.next (State.devCommand_runs hu hq hbusy hflush 4 _))
  case refine_9 =>
    intro s q hu hq hbusy d c hc
    simp only [List.mem_cons, List.not_mem_nil, or_false] at hc
    obtain rfl | rfl | rfl | rfl := hc <;>
      exact (byReq_honours hq _).trans (congrArg Host.Outcome.next (State.devCommand_refused hu hq hbusy _ _))
  case refine_10 =>
    intro s k hrun h1 h5
    exact (if_pos ⟨h1, h5⟩).trans (congrArg Host.Outcome.next (if_pos hrun))
  case refine_11 =>
    intro s hrun hphase
    exact congrArg Host.Outcome.next (if_pos (by simp [hrun, hphase]))
  case refine_12 =>
    intro s hflush htime hpf hcold
    exact ⟨_, rfl, State.faultFlushEnd_spec hflush htime hpf hcold⟩
  case refine_13 =>
    intro s e hrun hpf hdone
    refine congrArg Host.Outcome.next ?_
    unfold State.pfailHigh
    rw [if_neg (by simp [hrun, hpf])]
    exact if_pos (by simp [hdone])

end Sys2Proof.Machine


/-! # Power failure (O41) -/

namespace Sys2Proof.Machine

theorem State.setPin_wbf (s : State) (k : Nat) (level : Bool) : (s.setPin k level).wbf = s.wbf := by
  unfold State.setPin
  split <;> rfl

theorem State.setPin_slices (s : State) (k : Nat) (level : Bool) : (s.setPin k level).slices = s.slices := by
  unfold State.setPin
  split <;> rfl

theorem State.setPin_ftl (s : State) (k : Nat) (level : Bool) : (s.setPin k level).ftl = s.ftl := by
  unfold State.setPin
  split <;> rfl

/-- Driving a pin leaves the inputs that power watches. -/
theorem State.setPin_inputs (s : State) (k : Nat) (level : Bool) :
    (s.setPin k level).pins.pwrLow = s.pins.pwrLow ∧ (s.setPin k level).pins.pfHigh = s.pins.pfHigh := by
  unfold State.setPin
  split <;> exact ⟨rfl, rfl⟩

/-- A pin that has been driven has its level, whatever it had at reset. -/
theorem State.setPin_driven (s : State) (k : Nat) (level : Bool) :
    tgetD (s.setPin k level).pins.levels k (k = 3 || k = 4) = level := by
  unfold State.setPin
  split
  · assumption
  · exact tgetD_tset_same _ _ _ _

/-! ### Holdup (R305, R306) -/

theorem State.holdupRise_arms {s : State} (hrun : s.dev.run = .started) (hphase : s.dev.phase = .ready)
    (hheld : s.reserveHeld = true) (harmed : s.wbf.armed = false) :
    s.holdupRise = ({ s with wbf := { s.wbf with
      holdupPin := true, holdupOk := true, highTicks := 4, reserveOk := true, armed := true } }).ev 0x0400 noSlice := by
  unfold State.holdupRise
  rw [if_neg (by rw [hrun]; decide)]
  dsimp only
  rw [hheld]
  refine if_neg (?_ : ¬ (s.wbf.armed || !s.reserveHeld || decide (s.dev.phase ≠ .ready)) = true)
  rw [harmed, hheld, hphase]
  decide

theorem State.holdupFall_disarms {s : State} (hrun : s.dev.run = .started) (harmed : s.wbf.armed = true) :
    s.holdupFall =
      ({ s with wbf := { s.wbf with holdupPin := false, holdupOk := false, highTicks := 0 } }).disarmHoldup := by
  unfold State.holdupFall
  rw [if_neg (by rw [hrun]; decide)]
  exact if_pos harmed

/-! ### What follows a power failure (R313, R1004) -/

theorem State.afterPfail_waits {s : State} (h : s.wbf.pfDone = false) : s.afterPfail = s := by
  unfold State.afterPfail
  exact if_pos (by rw [h]; decide)

theorem State.afterPfail_stays {s : State} (hlow : s.pins.pwrLow = false) (hhigh : s.pins.pfHigh = false) :
    s.afterPfail = s := by
  unfold State.afterPfail
  rw [hlow, hhigh]
  split <;> rfl

theorem State.pwrOkLow_latches {s : State} (hrun : s.dev.run = .started) (hp4 : s.pwr.state ≠ 4)
    (hdone : s.wbf.pfDone = false) :
    s.pwrOkLow = ({ s.latchFail with pins := { s.pins with pwrLow := true } }).setPin 3 true := by
  unfold State.pwrOkLow
  rw [if_neg hp4, if_pos hrun]
  exact State.afterPfail_waits (by rw [State.setPin_wbf]; exact hdone)

/-- The flush that a power failure began ends in its bound (R311, R312). -/
theorem State.emergencyFlushEnd_saves {s : State} (hfault : s.dev.faultFlush = false) (hflush : s.wbf.pfFlushing = true)
    (htime : s.pfInTime = true) (hhigh : s.pins.pfHigh = false) (hlow : s.pins.pwrLow = false) :
    s.emergencyFlushEnd = (({ s.saveReserve true with
      wbf := { s.wbf with pfFlushing := false, pfDone := true } }).setPin 2 true).ev 0x3401 noSlice (itemSat 2 s.pfLaps) := by
  have hend : s.flushEnd = (({ s.saveReserve true with
      wbf := { s.wbf with pfFlushing := false, pfDone := true } }).setPin 2 true).ev 0x3401 noSlice
        (itemSat 2 s.pfLaps) := by
    unfold State.flushEnd
    exact if_pos (by rw [hflush, htime]; rfl)
  have hrest := (State.setPin_inputs ({ s.saveReserve true with
      wbf := { s.wbf with pfFlushing := false, pfDone := true } }) 2 true)
  unfold State.emergencyFlushEnd
  rw [if_neg (by simp [hfault]), hend]
  exact State.afterPfail_stays (hrest.1.trans hlow) (hrest.2.trans hhigh)

/-- Settles O41: the reserve's arming and disarming, the latch of a failure, and the flush that ends in its bound. -/
theorem powerFailureCommands : Obligations.PowerFailureCommands := by
  unfold Obligations.PowerFailureCommands
  refine ⟨?_, ?_, ?_, ?_, ?_, ?_⟩
  case refine_1 =>
    intro s hrun hphase hheld harmed
    exact congrArg Host.Outcome.next (State.holdupRise_arms hrun hphase hheld harmed)
  case refine_2 =>
    intro s hrun harmed
    exact congrArg Host.Outcome.next (State.holdupFall_disarms hrun harmed)
  case refine_3 =>
    intro s hrun
    exact congrArg Host.Outcome.next (if_pos hrun)
  case refine_4 =>
    intro s hrun hp4 hdone
    refine ⟨_, congrArg Host.Outcome.next (State.pwrOkLow_latches hrun hp4 hdone), ?_, ?_, ?_, ?_⟩
    · exact State.setPin_wbf _ _ _
    · exact (State.setPin_inputs _ _ _).1
    · exact State.setPin_driven _ 3 true
    · exact State.setPin_slices _ _ _
  case refine_5 =>
    intro s hrun
    refine ⟨_, congrArg Host.Outcome.next (if_pos hrun), ?_, ?_, ?_⟩
    · exact State.setPin_wbf _ _ _
    · exact State.setPin_driven _ 3 false
    · exact State.setPin_slices _ _ _
  case refine_6 =>
    intro s hfault hflush htime hhigh hlow
    refine ⟨_, congrArg Host.Outcome.next
      ((if_pos rfl).trans (State.emergencyFlushEnd_saves hfault hflush htime hhigh hlow)), ?_⟩
    have hdur := (State.setPin_keeps ({ s.saveReserve true with
      wbf := { s.wbf with pfFlushing := false, pfDone := true } }) 2 true).2.1
    refine ⟨State.setPin_wbf _ _ _, State.setPin_driven _ 2 true, ?_, ?_, ?_, ?_, ?_⟩
    · exact congrArg Ftl.journal (State.setPin_ftl _ _ _)
    · exact congrArg Durable.reserve hdur
    · exact congrArg Durable.sliceTable hdur
    · exact congrArg Durable.recDev hdur
    · exact congrArg Durable.recSlices hdur

end Sys2Proof.Machine


/-! # The manager's commands of the flash translation, and checkpoints (O42) -/

namespace Sys2Proof.Machine

/-! ### The commands of FTL_CMD (R360, R362, R420, R425) -/

theorem State.ftlCommand_runs {s : State} {q : Requester} (hu : s.up) (hq : s.honours q) (hbusy : s.ftl.busy = false)
    (op : State → State) : s.ftlCommand q op = op s := by
  unfold State.ftlCommand
  rw [State.bar0Write_up hu hq]
  exact if_neg (by rw [hbusy]; decide)

theorem State.ftlCommand_refused {s : State} {q : Requester} (hu : s.up) (hq : s.honours q) (hbusy : s.ftl.busy = true)
    (op : State → State) : s.ftlCommand q op = { s with ftl := { s.ftl with cmdRefused := true } } := by
  unfold State.ftlCommand
  rw [State.bar0Write_up hu hq]
  exact if_pos hbusy

theorem State.cmdDumpLoss_fits {s : State} {q : Requester} (hu : s.up) (hq : s.honours q) (hbusy : s.ftl.busy = false)
    (hloss : s.ftl.loss ≠ []) (hfits : 24 * s.ftl.loss.length ≤ s.rwNat 0x300018) (ok : Bool) :
    s.cmdDumpLoss q ok = if ok then
        (s.setFtl { s.ftl with result := 0 }).emit (.hostWrite none (s.rwNat 0x300010) (s.ftl.loss.flatMap State.lostBytes))
      else (s.setFtl { s.ftl with result := 2 }).emit (.hostPartial none (s.rwNat 0x300010) (24 * s.ftl.loss.length)) := by
  unfold State.cmdDumpLoss
  rw [State.ftlCommand_runs hu hq hbusy]
  dsimp only
  rw [if_neg (by simpa using hloss), if_neg (Nat.not_lt.mpr hfits)]

/-! ### Checkpoints (R358 to R360) -/

theorem State.checkpointStart_interval {s : State} (hmedia : s.mediaRuns = true)
    (hdue : s.ftl.ckptBegan + s.ckptLaps ≤ s.lap) (hnone : s.ftl.ckptRunning = none) :
    s.checkpointStart .interval = s.startCkpt := by
  unfold State.checkpointStart
  exact if_pos (by simp [hmedia, hdue, hnone])

/-- The record of type CHECKPOINT that completes the checkpoint of `k`. -/
def State.ckptRec (s : State) (k : Ckpt) : JRec :=
  { seq := s.ftl.jnext, type := 0x0A, final := false, stamp := none, victim := 0,
    ents := [{ loc := k.area, slot := 0xFF, new := 0, old := 0 }], covers := [] }

/-- The state as that record has become durable on two dies. -/
def State.ckptDurable (s : State) (k : Ckpt) (d : Nat × Nat) : State :=
  let r : JRec := { s.ckptRec k with copies := some d }
  { s with free := s.free + 1
           ftl := { s.ftl with journal := [], jnext := s.ftl.jnext + 1, jseq := r.seq, bandRecs := s.ftl.bandRecs ++ [r] } }

/-- A checkpoint whose journal has drained is completed by its record. -/
theorem State.checkpointComplete_drained {s : State} {k : Ckpt} (hk : s.ftl.ckptRunning = some k)
    (hj : s.ftl.journal = []) (hpairs : s.sysPairs ≠ []) :
    ∃ d, s.checkpointComplete = (s.ckptDurable k d).completeCkpt := by
  let t := s.journal 0x0A [{ loc := k.area, slot := 0xFF, new := 0, old := 0 }]
  have htj : t.ftl.journal = [s.ckptRec k] := congrArg (fun l => l ++ [s.ckptRec k]) hj
  obtain ⟨d, -, hd⟩ := State.sysChoose_of (s := t) hpairs
  refine ⟨d, ?_⟩
  have hdurable : t.recordDurable = (s.ckptDurable k d).completeCkpt := by
    unfold State.recordDurable
    rw [htj]
    dsimp only
    rw [hd]
    rfl
  unfold State.checkpointComplete
  rw [hk]
  dsimp only
  rw [if_neg (by rw [hj]; decide)]
  change (match t.ftl.journal with
    | r :: _ => if r.type = 0x0A then t.recordDurable else t
    | [] => t) = _
  rw [htj]
  exact hdurable

/-- The checkpoint that ends is the newest of its area, with the recorders and the health records. -/
theorem State.completeCkpt_spec {s : State} {k : Ckpt} (hk : s.ftl.ckptRunning = some k) :
    s.completeCkpt.ftl.ckptRunning = none ∧ s.completeCkpt.ftl.ckptArea = k.area ∧
      s.completeCkpt.ftl.ckptSeq = k.startSeq ∧ s.completeCkpt.ftl.ckptCmd = false ∧
      (if k.area = 0 then s.completeCkpt.ftl.ckptA else s.completeCkpt.ftl.ckptB) = some k ∧
      s.completeCkpt.dur.recDev = s.evr.dev ∧
      s.completeCkpt.dur.health = s.ftl.dies.map (fun p => (p.1, p.2.health)) ∧
      s.completeCkpt.evr.queue =
        s.evr.queue ++ [{ code := 0x0500, src := noSlice, detail := item 1 k.area, at' := s.evAt }] := by
  unfold State.completeCkpt
  rw [hk]
  dsimp only
  by_cases harea : k.area = 0
  · simp only [if_pos harea]
    exact ⟨rfl, rfl, rfl, rfl, rfl, rfl, rfl, rfl⟩
  · simp only [if_neg harea]
    exact ⟨rfl, rfl, rfl, rfl, rfl, rfl, rfl, rfl⟩

/-- Settles O42: the commands of FTL_CMD, the interval's checkpoint, and the end of one whose journal has drained. -/
theorem flashTranslationManagerCommands : Obligations.FlashTranslationManagerCommands := by
  unfold Obligations.FlashTranslationManagerCommands
  refine ⟨?_, ?_, ?_, ?_, ?_, ?_, ?_⟩
  case refine_1 =>
    intro s q hu hq hbusy
    exact (byReq_honours hq _).trans (congrArg Host.Outcome.next (State.ftlCommand_runs hu hq hbusy _))
  case refine_2 =>
    intro s q hu hq hbusy hloss hfits
    have h := State.cmdDumpLoss_fits hu hq hbusy hloss hfits
    exact ⟨(byReq_honours hq _).trans (congrArg Host.Outcome.next (h true)),
      (byReq_honours hq _).trans (congrArg Host.Outcome.next (h false))⟩
  case refine_3 =>
    intro s q hu hq hbusy
    refine (byReq_honours hq _).trans (congrArg Host.Outcome.next ?_)
    refine (State.ftlCommand_runs hu hq hbusy _).trans ?_
    rfl
  case refine_4 =>
    intro s q hu hq hbusy
    exact (byReq_honours hq _).trans (congrArg Host.Outcome.next (State.ftlCommand_runs hu hq hbusy _))
  case refine_5 =>
    intro s q hu hq hbusy b c hc
    simp only [List.mem_cons, List.not_mem_nil, or_false] at hc
    obtain rfl | rfl | rfl | rfl := hc <;>
      exact (byReq_honours hq _).trans (congrArg Host.Outcome.next (State.ftlCommand_refused hu hq hbusy _))
  case refine_6 =>
    intro s hmedia hdue hnone
    exact congrArg Host.Outcome.next (State.checkpointStart_interval hmedia hdue hnone)
  case refine_7 =>
    intro s k hk hj hpairs
    obtain ⟨d, hd⟩ := State.checkpointComplete_drained hk hj hpairs
    exact ⟨_, congrArg Host.Outcome.next hd, State.completeCkpt_spec hk⟩

end Sys2Proof.Machine


/-! # Media management (O43) -/

namespace Sys2Proof.Machine

theorem State.die_modDie (s : State) (d : Nat) (f : Die → Die) : (s.modDie d f).die d = f (s.die d) :=
  tgetD_tset_same _ _ _ _

theorem State.modDie_modDie (s : State) (d : Nat) (f g : Die → Die) :
    (s.modDie d f).modDie d g = s.modDie d (fun x => g (f x)) := by
  have htable : tset (tset s.ftl.dies d (f (s.die d))) d (g ((s.modDie d f).die d)) =
      tset s.ftl.dies d (g (f (s.die d))) := by
    rw [tset_tset, State.die_modDie]
  exact congrArg (fun l => s.setFtl { s.ftl with dies := l }) htable

/-! ### Polled operations that are added -/

/-- The state with other polled operations. -/
def State.withPolls (s : State) (l : List PollOp) (k : Nat) : State :=
  s.setFtl { s.ftl with polls := l, nextPoll := k }

/-- Operations that become ready join the list, and nothing else changes. -/
theorem State.addPolls_spec {α : Type} (g : α → PollKind) (k : Nat) (l : List α) (s : State) :
    ∃ ps n, l.foldl (fun s p => s.addPoll (g p) k) s = s.withPolls ps n ∧
      ps.map PollOp.kind = s.ftl.polls.map PollOp.kind ++ l.map g := by
  induction l generalizing s with
  | nil => exact ⟨s.ftl.polls, s.ftl.nextPoll, rfl, (List.append_nil _).symm⟩
  | cons p l ih =>
    obtain ⟨ps, n, hfold, hkinds⟩ := ih (s.addPoll (g p) k)
    refine ⟨ps, n, hfold, ?_⟩
    have hone : (s.addPoll (g p) k).ftl.polls.map PollOp.kind = s.ftl.polls.map PollOp.kind ++ [g p] := by
      unfold State.addPoll State.pollOf State.setFtl
      rw [List.map_append]
      rfl
    rw [hkinds, hone, List.append_assoc]
    rfl

/-! ### Reclaims (R361 to R369) -/

theorem State.gcVictimStart_takes {s t : State} {d b : Nat} (hmedia : s.mediaRuns = true) (huse : s.dieInUse d = true)
    (hgc : s.gcRuns d = true) (ht : t = s.modDie d (fun x => { x with gcOn := true })) (hrec : t.reclaiming d = false)
    (hturn : t.gcTurn d = true) (hbest : t.bestVictim (t.victims d) = some b) :
    s.gcVictimStart d =
      State.reclaimBegin (s.modDie d (fun x => { x with gcOn := true, lastRefresh := false })) b .gc := by
  unfold State.gcVictimStart
  rw [if_pos (by rw [hmedia, huse, hgc]; rfl), ← ht]
  dsimp only
  rw [if_neg (by rw [hrec, hturn]; decide), hbest]
  dsimp only
  rw [ht, State.modDie_modDie]

/-- A collection or refresh of a block with no idle fine unit reads its valid slots. -/
theorem State.reclaimBegin_reads {s : State} {b : Nat} {why : ReclaimFor} {l : List (Nat × FlashSlot)}
    (hwhy : why ∈ [ReclaimFor.gc, .refresh]) (hidle : s.idleUnits b = [])
    (hl : l = (s.validSlots b).filter (fun p => !s.demoting p.2.unit)) :
    ∃ ps n, ps.map PollOp.kind = s.ftl.polls.map PollOp.kind ++ l.map (fun p => .copyRead b (b * 2 ^ 14 + p.1)) ∧
      s.reclaimBegin b why = (s.setFtl { s.ftl with reclaims := s.ftl.reclaims ++
        [{ blk := b, why := why, reads := l.length, finalSeq := if l = [] then some 0 else none }] }).withPolls ps n := by
  subst hl
  have hbegin : s.reclaimBegin b why =
      ((s.validSlots b).filter (fun p => !s.demoting p.2.unit)).foldl
        (fun s p => s.addPoll (.copyRead b (b * 2 ^ 14 + p.1)) 1)
        (s.setFtl { s.ftl with reclaims := s.ftl.reclaims ++ [{
          blk := b, why := why, reads := ((s.validSlots b).filter (fun p => !s.demoting p.2.unit)).length,
          finalSeq := if (s.validSlots b).filter (fun p => !s.demoting p.2.unit) = [] then some 0 else none }] }) := by
    simp only [List.mem_cons, List.not_mem_nil, or_false] at hwhy
    unfold State.reclaimBegin
    obtain rfl | rfl := hwhy <;> (dsimp only; rw [hidle]; rfl)
  obtain ⟨ps, n, hfold, hkinds⟩ := State.addPolls_spec
    (fun (p : Nat × FlashSlot) => PollKind.copyRead b (b * 2 ^ 14 + p.1)) 1
    ((s.validSlots b).filter (fun p => !s.demoting p.2.unit)) (s.setFtl { s.ftl with reclaims := s.ftl.reclaims ++ [{
      blk := b, why := why, reads := ((s.validSlots b).filter (fun p => !s.demoting p.2.unit)).length,
      finalSeq := if (s.validSlots b).filter (fun p => !s.demoting p.2.unit) = [] then some 0 else none }] })
  exact ⟨ps, n, hkinds, hbegin.trans hfold⟩

/-- GC_ERASE of a block whose FINAL record is durable goes by what still needs the block. -/
theorem State.gcErase_durable {s : State} {b f : Nat} {r : Reclaim} (hr : s.reclaimOf b = some r)
    (hwhy : r.why ∈ [ReclaimFor.gc, .refresh]) (hf : r.finalSeq = some f) (hmedia : s.mediaRuns = true)
    (hseq : f ≤ s.ftl.jseq) (herase : (s.blk b).erasing = false) (hdemote : s.demotesOf b = false) :
    s.gcErase b = if s.mapNames b then s.dropReclaim b
      else if s.readsOf b then s
      else (s.modBlk b (fun x => { x with erasing := true })).addPoll (.erase b) 0 := by
  have hgo : ¬ (!s.mediaRuns || decide (s.ftl.jseq < f) || (s.blk b).erasing || s.demotesOf b) = true := by
    simp [hmedia, Nat.not_lt.mpr hseq, herase, hdemote]
  simp only [List.mem_cons, List.not_mem_nil, or_false] at hwhy
  unfold State.gcErase
  rw [hr]
  dsimp only
  obtain h | h := hwhy <;> (rw [h, hf]; exact if_neg hgo)

/-! ### Demotion (R343) -/

theorem State.demoteBegin_reads {s : State} {d u : Nat} {l : List Nat}
    (hl : l = (List.range 16).filterMap (fun i => s.mergeAddr u i)) (hne : l ≠ []) :
    (s.demoteBegin d u).ftl.demotes = s.ftl.demotes ++ [{ unit := u, die := d, ents := s.unitEnts u, reads := l.length }] ∧
      (s.demoteBegin d u).ftl.polls.map PollOp.kind =
        s.ftl.polls.map PollOp.kind ++ l.map (fun a => .demoteRead u a) ∧
      (s.demoteBegin d u).ftl.fine = s.ftl.fine ∧ (s.demoteBegin d u).ftl.coarse = s.ftl.coarse ∧
      (s.demoteBegin d u).ftl.journal = s.ftl.journal := by
  have hnote : (s.noteReserved u (List.range 16)).ftl = s.ftl := by
    unfold State.noteReserved
    split <;> rfl
  unfold State.demoteBegin
  dsimp only
  rw [← hl, if_neg hne]
  obtain ⟨ps, n, hfold, hkinds⟩ := State.addPolls_spec (fun a => PollKind.demoteRead u a) 1 l
    ((s.noteReserved u (List.range 16)).setFtl { (s.noteReserved u (List.range 16)).ftl with
      demotes := (s.noteReserved u (List.range 16)).ftl.demotes ++
        [{ unit := u, die := d, ents := s.unitEnts u, reads := l.length }] })
  rw [hfold]
  have hdemotes := congrArg (fun (f : Ftl) => f.demotes ++
    [{ unit := u, die := d, ents := s.unitEnts u, reads := l.length }]) hnote
  have hpolls := congrArg (fun (f : Ftl) => f.polls.map PollOp.kind ++ l.map (fun a => PollKind.demoteRead u a)) hnote
  have hfine := congrArg Ftl.fine hnote
  have hcoarse := congrArg Ftl.coarse hnote
  have hjournal := congrArg Ftl.journal hnote
  exact ⟨hdemotes, hkinds.trans hpolls, hfine, hcoarse, hjournal⟩

/-! ### Dies and channels -/

/-- A temperature below 85 is kept with its histogram and peak (R421, R422). -/
theorem State.dieTemp_cool {s : State} {d : Nat} {v : Int} {h : Health} (huse : s.dieInUse d = true) (hv : v < 85)
    (hh : h = (s.die d).health) :
    s.dieTemp d v = s.modDie d (fun x => { x with health := { h with
      tempNow := v, tempRead := true, hist := laddSat h.hist (State.tempBin v) 1 (2 ^ 32 - 1),
      tempPeak := if h.tempPeak < v ∨ h.tempRead = false then v else h.tempPeak,
      peakAge := if h.tempPeak < v ∨ h.tempRead = false then s.ftl.mediaAge else h.peakAge } }) := by
  subst hh
  unfold State.dieTemp
  rw [if_neg (by rw [huse]; decide)]
  dsimp only
  rw [if_neg (by simp [Int.not_le.mpr hv])]
  unfold State.modDie
  dsimp only
  by_cases hpeak : (s.die d).health.tempPeak < v ∨ (s.die d).health.tempRead = false
  · have hpeak' : (decide ((s.die d).health.tempPeak < v) || !(s.die d).health.tempRead) = true := by
      simpa using hpeak
    simp only [if_pos hpeak, if_pos hpeak']
    rfl
  · have hpeak' : ¬ (decide ((s.die d).health.tempPeak < v) || !(s.die d).health.tempRead) = true := by
      simpa using hpeak
    simp only [if_neg hpeak, if_neg hpeak']
    rfl

theorem State.channelsPresent_le (s : State) : s.channelsPresent ≤ 32 := by
  unfold State.channelsPresent
  split <;> decide

/-- The fastest rate that passes is the one of the first pass (R400). -/
theorem trainedRate_first {pass : List Bool} {i r : Nat} (hir : (i, r) ∈ [(0, 36), (1, 32), (2, 24), (3, 16)])
    (hi : pass.getD i false = true) (hfirst : ∀ j < i, pass.getD j false = false) : State.trainedRate pass = some r := by
  cases pass with
  | nil => cases hi
  | cons p ps =>
    unfold State.trainedRate
    dsimp only
    simp only [List.mem_cons, List.not_mem_nil, or_false, Prod.mk.injEq] at hir
    obtain ⟨rfl, rfl⟩ | ⟨rfl, rfl⟩ | ⟨rfl, rfl⟩ | ⟨rfl, rfl⟩ := hir
    · rw [if_pos hi]
    · rw [if_neg (by rw [hfirst 0 (by decide)]; decide), if_pos hi]
    · rw [if_neg (by rw [hfirst 0 (by decide)]; decide), if_neg (by rw [hfirst 1 (by decide)]; decide), if_pos hi]
    · rw [if_neg (by rw [hfirst 0 (by decide)]; decide), if_neg (by rw [hfirst 1 (by decide)]; decide),
        if_neg (by rw [hfirst 2 (by decide)]; decide), if_pos hi]

theorem trainedRate_none {pass : List Bool} (h : ∀ j < 4, pass.getD j false = false) : State.trainedRate pass = none := by
  cases pass with
  | nil => rfl
  | cons p ps =>
    unfold State.trainedRate
    dsimp only
    rw [if_neg (by rw [h 0 (by decide)]; decide), if_neg (by rw [h 1 (by decide)]; decide),
      if_neg (by rw [h 2 (by decide)]; decide), if_neg (by rw [h 3 (by decide)]; decide)]

theorem State.cmdDump_idle {s : State} {q : Requester} {k : Nat} (hu : s.up) (hq : s.honours q)
    (hk : k < s.channelsPresent) (hidle : (s.chan k).dumpBusy = false) (ok : Bool) :
    s.cmdDump q k ok = s.modChan k (fun c => { c with dumpBusy := true, dumpOk := ok }) := by
  unfold State.cmdDump
  dsimp only
  rw [State.bar0Write_up hu hq, if_neg (Nat.not_le.mpr hk), if_neg (by rw [hidle]; decide)]

/-- Settles O43: each event by the state of the die, block, reclaim or channel that it names. -/
theorem mediaManagementCommands : Obligations.MediaManagementCommands := by
  unfold Obligations.MediaManagementCommands
  refine ⟨?_, ?_, ?_, ?_, ?_, ?_, ?_, ?_, ?_, ?_, ?_, ?_, ?_⟩
  case refine_1 =>
    intro s t d b hd hmedia huse hgc ht hrec hturn hbest
    exact (onDie_of hd _).trans
      (congrArg Host.Outcome.next (State.gcVictimStart_takes hmedia huse hgc ht hrec hturn hbest))
  case refine_2 =>
    intro s u b why l hwhy hidle hl hu
    obtain ⟨ps, n, hkinds, hbegin⟩ := State.reclaimBegin_reads hwhy hidle hl
    rw [hu, hbegin]
    exact ⟨rfl, hkinds, rfl, rfl, rfl⟩
  case refine_3 =>
    intro s b f r hb hr hwhy hf hmedia hseq herase hdemote hmap hreads
    refine (onDie_of hb _).trans (congrArg Host.Outcome.next ?_)
    rw [State.gcErase_durable hr hwhy hf hmedia hseq herase hdemote, if_neg (by rw [hmap]; decide),
      if_neg (by rw [hreads]; decide)]
    rfl
  case refine_4 =>
    intro s b f r hb hr hwhy hf hmedia hseq herase hdemote hmap
    refine (onDie_of hb _).trans (congrArg Host.Outcome.next ?_)
    rw [State.gcErase_durable hr hwhy hf hmedia hseq herase hdemote, if_pos hmap]
    rfl
  case refine_5 =>
    intro s b hb hmedia hnext
    exact (onDie_of hb _).trans (congrArg Host.Outcome.next (if_pos (by simp [hmedia, hnext])))
  case refine_6 =>
    intro s f d l hmedia hfull hold hdie hl hne
    refine ⟨s.demoteBegin d f.unit, congrArg Host.Outcome.next ?_, State.demoteBegin_reads hl hne⟩
    unfold State.demoteBackground
    rw [if_pos (by simp [hmedia, hfull]), hold]
    dsimp only
    rw [hdie]
  case refine_7 =>
    intro s p id sl e a b hp hkind
    refine congrArg Host.Outcome.next ?_
    unfold State.programFail
    rw [hp]
    dsimp only
    obtain ⟨h, rfl⟩ | h | ⟨h, rfl⟩ := hkind <;> (rw [h]; rfl)
  case refine_8 =>
    intro s p id b hp hkind
    refine congrArg Host.Outcome.next ?_
    unfold State.eraseFail
    rw [hp]
    dsimp only
    rw [hkind]
    rfl
  case refine_9 =>
    intro s d hd hpres
    exact (onDie_of hd _).trans (congrArg Host.Outcome.next (if_pos hpres))
  case refine_10 =>
    intro s d v h hd huse hv hh
    exact (onDie_of hd _).trans (congrArg Host.Outcome.next (State.dieTemp_cool huse hv hh))
  case refine_11 =>
    intro s q k ok hu hq hk hidle
    exact (byReqChannel_honours hq (Nat.lt_of_lt_of_le hk s.channelsPresent_le) _).trans
      (congrArg Host.Outcome.next (State.cmdDump_idle hu hq hk hidle ok))
  case refine_12 =>
    intro s t k i r dies pass hk hir hi hfirst ht
    refine (onChannel_of hk _).trans (congrArg Host.Outcome.next ?_)
    unfold State.trainChannel
    rw [trainedRate_first hir hi hfirst, ← ht]
  case refine_13 =>
    intro s t k dies pass hk hnone ht
    refine (onChannel_of hk _).trans (congrArg Host.Outcome.next ?_)
    unfold State.trainChannel
    rw [trainedRate_none hnone, ← ht]

end Sys2Proof.Machine


/-! # DRAM training and test mode (O44) -/

namespace Sys2Proof.Machine

/-! ### DRAM (R853 to R863) -/

/-- A lane whose windows are both 16 steps wide passes. -/
theorem laneFails_of_wide {w : LaneSweep} (h : 16 ≤ State.windowWidth w.rdFirst w.rdLast ∧
    16 ≤ State.windowWidth w.wrFirst w.wrLast) : State.laneFails w = false := by
  unfold State.laneFails
  simp [Nat.not_lt.mpr h.1, Nat.not_lt.mpr h.2]

theorem State.trainDram_wide {s : State} {k : Nat} {c : Course} {ws : List LaneSweep} (hc : s.crs.inForce = some c)
    (hpop : s.drcPopulated k = true) (hlen : ws.length = 10)
    (hw : ∀ w ∈ ws, 16 ≤ State.windowWidth w.rdFirst w.rdLast ∧ 16 ≤ State.windowWidth w.wrFirst w.wrLast) :
    s.trainDram k ws = (s.modDrc k (fun d => { d with
      rate := c.dramMts / 100, trained := true, trainFail := false, populated := true,
      lanes := ws.map State.laneOf })).ev 0x0C00 noSlice (item 1 k ++ item 1 (c.dramMts / 100)) := by
  have hbad : ((List.range 10).zip ws).filter (fun p => State.laneFails p.2) = [] := by
    rw [List.filter_eq_nil_iff]
    intro p hp
    rw [laneFails_of_wide (hw p.2 (List.of_mem_zip hp).2)]
    decide
  unfold State.trainDram
  rw [if_neg (by rw [hpop]; decide)]
  dsimp only
  rw [hbad, hc]
  exact if_pos (by simp [hlen])

/-! ### Test mode (R893 to R897) -/

/-- A test command of a core at an address that its array has runs with result 0. -/
theorem State.testCommand_core {s : State} {c a o index : Nat} (hu : s.up) (hc : c < 72) (ha : s.testAddr = (a, o))
    (ho : o + 4 ≤ arrSize s.dramGib a) (hindex : a = dramArr → index ≤ 31) (op : Nat → Nat → State → State) :
    s.testCommand (.core c) index op = { op a o s with mpr := { (op a o s).mpr with testResult := 0 } } := by
  have hpage : ¬ (decide (a = dramArr) && decide (31 < index)) = true := by
    simp only [Bool.and_eq_true, decide_eq_true_eq, not_and, Nat.not_lt]
    exact hindex
  unfold State.testCommand
  rw [State.bar0Write_up (q := .core c) hu hc]
  dsimp only
  rw [ha, if_neg hpage]
  unfold State.testOp
  rw [ha]
  exact if_pos ho

theorem State.testCommand_port {s : State} (hu : s.up) (hm : s.mgrPort < 2) (index : Nat)
    (op : Nat → Nat → State → State) :
    s.testCommand (.port s.mgrPort) index op = (s.discard 0x700FFC 0 0x700100).ev 0x2C00 noSlice := by
  unfold State.testCommand
  rw [State.bar0Write_up (q := .port s.mgrPort) hu ⟨hm, rfl⟩]
  rfl

/-- A raw read leaves the four bytes as they are stored in MPR_TEST_DATA (R895). -/
theorem State.testReadRaw_data (s : State) (a o : Nat) :
    (s.testReadRaw a o).rwGet 0x700110 =
      BitVec.ofNat 64 (leNat ((List.range 4).map (fun k => (s.rawAt a (o + k)).data))) := by
  unfold State.testReadRaw
  dsimp only
  rw [State.rwGet_rwSet_ne _ _ _ (by decide), State.rwGet_rwSet, List.map_map]
  rfl

/-- Settles O44: temperatures and training of DRAM, and the test commands of a core and of the management port. -/
theorem dramAndTestModeCommands : Obligations.DramAndTestModeCommands := by
  unfold Obligations.DramAndTestModeCommands
  refine ⟨?_, ?_, ?_, ?_, ?_, ?_⟩
  case refine_1 =>
    intro s u hot r hu hr hne
    subst hr
    exact (if_pos hu).trans (congrArg Host.Outcome.next (if_neg hne))
  case refine_2 =>
    intro s k c ws hk hc hpop hlen hw
    refine (if_pos hk).trans (congrArg Host.Outcome.next (State.trainDram_wide hc ?_ hlen hw))
    have hcourse : s.hasCourse = true := by rw [State.hasCourse, hc]; rfl
    simp only [State.drcPopulated, hcourse, hk, decide_true, Bool.true_and, Bool.or_eq_true, decide_eq_true_eq]
    exact hpop
  case refine_3 =>
    intro s c a o hu hc ha ho
    refine ⟨_, (byReq_honours (s := s) (q := .core c) hc _).trans (congrArg Host.Outcome.next
      (State.testCommand_core hu hc ha ho (fun _ => Nat.zero_le _) _)), rfl, s.testReadRaw_data a o, rfl⟩
  case refine_4 =>
    intro s c a o hu hc ha ho
    exact (byReq_honours (s := s) (q := .core c) hc _).trans (congrArg Host.Outcome.next
      (State.testCommand_core hu hc ha ho (fun _ => Nat.zero_le _) _))
  case refine_5 =>
    intro s c a o hu hc ha ho i hi
    refine ⟨⟨_, (byReq_honours (s := s) (q := .core c) hc _).trans (congrArg Host.Outcome.next
      (State.testCommand_core hu hc ha ho hi _)), rfl, State.rwGet_rwSet _ _ _ _⟩, ?_⟩
    exact (byReq_honours (s := s) (q := .core c) hc _).trans (congrArg Host.Outcome.next
      (State.testCommand_core hu hc ha ho hi _))
  case refine_6 =>
    intro s i x hu hm hx
    simp only [List.mem_cons, List.not_mem_nil, or_false] at hx
    obtain rfl | rfl | rfl | rfl := hx <;>
      exact (byReq_honours (s := s) (q := .port s.mgrPort) ⟨hm, rfl⟩ _).trans
        (congrArg Host.Outcome.next (State.testCommand_port hu hm _ _))

end Sys2Proof.Machine


/-! # Register and CMB accesses (O45) -/

namespace Sys2Proof.Machine

/-! ### Writes (R9, R12, R16) -/

theorem mod_of_lt32 {v : BitVec 64} (h : v.toNat < 2 ^ 32) : v.toNat % 256 ^ 4 = v.toNat :=
  Nat.mod_eq_of_lt (Nat.lt_of_lt_of_eq h (by decide))

theorem setWidth_mod (v : BitVec 32) : (v.setWidth 64).toNat % 256 ^ 4 = v.toNat := by
  have h := v.isLt
  rw [BitVec.toNat_setWidth]
  omega

/-- A write of a plain register reaches the register's own access. -/
theorem State.regWrite_plain {s : State} {q : Requester} {off : Nat} {l : Loc} (hu : s.up) (hq : s.honours q)
    (hplain : s.plainReg off l) (v : BitVec 64) :
    s.regWrite q .bar0 off 4 v = s.access q l 4 (v.toNat % 256 ^ 4) (s.regValue l)
      (fun s v => if s.writeOk l v then s.bar0Put l v else s.discardAt off) (fun s => s.discardAt off) := by
  have hcmd := State.bar0Command_plain (q := q) hplain (v.toNat % 256 ^ 4)
  obtain ⟨hreg, herr, hfij, htest, hshare, -⟩ := hplain
  have hf : (decide (0x1A00000 ≤ off) && decide (off < 0x1B00000)) = false := by
    simp only [Bool.and_eq_false_iff, decide_eq_false_iff_not]
    omega
  have ht : State.testHidden q off = false := by
    unfold State.testHidden
    split
    · rfl
    · simp only [Bool.or_eq_false_iff, Bool.and_eq_false_iff, decide_eq_false_iff_not]
      omega
  rw [State.regWrite_bar0 hq, State.bar0RegWrite_of hu hq hreg hcmd]
  unfold State.bar0Reach
  simp only [hf, ht, herr, hreg, hshare, Bool.false_and, Bool.false_eq_true, if_false]
  rfl

/-- The stored registers, the staged values, the values in force and the latches: what a write's side effects leave. -/
def State.regFile (s : State) : Tab (BitVec 64) × Tab (BitVec 64) × Tab (BitVec 64) × List Latch :=
  (s.rw, s.staged, s.inForce, s.latches)

theorem State.clearBits_regFile (s : State) (r : Reg) (i v : Nat) : (s.clearBits r i v).regFile = s.regFile := by
  unfold State.clearBits
  dsimp only
  split <;> rfl

theorem State.unmask_regFile (s : State) (off : Nat) : (s.unmask off).regFile = s.regFile := by
  unfold State.unmask
  dsimp only
  split <;> rfl

/-- A plain register's write is a store and side effects elsewhere. -/
theorem State.bar0Put_regFile {s : State} {off : Nat} {l : Loc} (hplain : s.plainReg off l) (t : State) (v : Nat) :
    (t.bar0Put l v).regFile = (t.store l v).regFile := by
  obtain ⟨-, -, -, -, -, hreg⟩ := hplain
  unfold State.bar0Put
  split
  case h_5 => exact State.unmask_regFile _ _
  case h_6 => exact State.clearBits_regFile _ _ _ _
  all_goals
    rename_i hr
    rw [hr] at hreg
    exact absurd hreg (by decide)

theorem State.store_inForce (s : State) (l : Loc) (v : Nat) :
    (s.store l v).inForce = s.inForce ∧ (s.store l v).latches = s.latches := by
  unfold State.store
  dsimp only
  split <;> split <;> first | exact ⟨rfl, rfl⟩ | (split <;> exact ⟨rfl, rfl⟩)

theorem State.store_rw (s : State) {l : Loc} (v : Nat) (h : l.row.rw ≠ 0) :
    (s.store l v).rwGet l.key = BitVec.ofNat 64 (v &&& l.row.rw) := by
  unfold State.store
  dsimp only
  rw [if_neg h]
  split
  · exact State.rwGet_rwSet _ _ _ _
  · split <;> exact State.rwGet_rwSet _ _ _ _

/-- A value for an RWS field that differs from the one in force is staged (R98). -/
theorem State.store_staged (s : State) {l : Loc} {v : Nat} (h : l.row.rws ≠ 0) (hv : v < 2 ^ 32)
    (hnew : s.forceNat l.key l.row.reset ≠ v &&& l.row.rws) :
    (s.store l v).stagedNat l.key l.row.reset = v &&& l.row.rws := by
  have hsmall : v &&& l.row.rws < 2 ^ 64 := Nat.lt_trans (Nat.lt_of_le_of_lt Nat.and_le_left hv) (by decide)
  have hget : ∀ t : State, (t.stage l.key (BitVec.ofNat 64 (v &&& l.row.rws))).stagedNat l.key l.row.reset =
      v &&& l.row.rws := by
    intro t
    unfold State.stagedNat State.stage
    rw [tget_tset_same]
    exact (BitVec.toNat_ofNat _ _).trans (Nat.mod_eq_of_lt hsmall)
  unfold State.store
  dsimp only
  rw [if_neg h]
  by_cases hrw : l.row.rw = 0
  · rw [if_pos hrw, if_neg hnew]
    exact hget _
  · rw [if_neg hrw, if_neg (by exact hnew)]
    exact hget _

/-! ### Halves of a 64-bit register (R16) -/

/-- The half that a requester holds of a register. -/
def isLatch (q : Requester) (l : Loc) (x : Latch) : Bool := decide (x.req = q) && decide (x.key = l.key)

/-- A requester lets go of the low half that it holds of a register. -/
def State.letGo (s : State) (q : Requester) (l : Loc) : State :=
  { s with latches := s.latches.map (fun x => if isLatch q l x then { x with low := none } else x) }

theorem any_latch_false {s : State} {q : Requester} {l : Loc}
    (h : s.latches.all (fun x => decide (¬(x.req = q ∧ x.key = l.key))) = true) :
    s.latches.any (fun x => decide (x.req = q) && decide (x.key = l.key)) = false := by
  rw [List.any_eq_false]
  intro x hx
  have hne := of_decide_eq_true (List.all_eq_true.mp h x hx)
  simpa using fun hreq hkey => hne ⟨hreq, hkey⟩

/-- A requester that holds nothing of the register holds its low half after writing it. -/
theorem State.access_low {s : State} {q : Requester} {l : Loc} (hwide : l.row.wide = true) (hlow : l.high = false)
    (hnone : s.latches.all (fun x => decide (¬(x.req = q ∧ x.key = l.key))) = true) (v cur : Nat)
    (put : State → Nat → State) (bad : State → State) :
    s.access q l 4 v cur put bad =
      { s with latches := s.latches ++ [{ req := q, key := l.key, low := some (BitVec.ofNat 32 v) }] } := by
  unfold State.access State.holdLow
  rw [if_neg (by rw [hwide]; decide), if_neg (by decide), if_neg (by rw [hlow]; decide)]
  dsimp only
  rw [any_latch_false hnone]
  rfl

/-- The high half is written with the low half that the requester holds. -/
theorem State.access_high {s : State} {q : Requester} {l : Loc} {x : Latch} {lo : BitVec 32} (hwide : l.row.wide = true)
    (hhigh : l.high = true)
    (hx : s.latches.find? (fun x => decide (x.req = q) && decide (x.key = l.key)) = some x) (hlo : x.low = some lo)
    (v cur : Nat) (put : State → Nat → State) (bad : State → State) :
    s.access q l 4 v cur put bad =
      put (s.letGo q l) (v * 2 ^ 32 + lo.toNat) := by
  unfold State.access State.takeLow
  rw [if_neg (by rw [hwide]; decide), if_neg (by decide), if_pos hhigh]
  dsimp only
  rw [hx]
  simp only [Option.bind_some, hlo]
  rfl

/-- What a requester that has let go of a low half holds. -/
theorem low_none_of_let_go {ls : List Latch} {q : Requester} {l : Loc} :
    ∀ y ∈ ls.map (fun x => if isLatch q l x then { x with low := none } else x), y.req = q → y.key = l.key →
      y.low = none := by
  intro y hy hreq hkey
  obtain ⟨x, -, rfl⟩ := List.mem_map.mp hy
  by_cases h : isLatch q l x = true
  · rw [if_pos h]
  · rw [if_neg h] at hreq hkey
    exact absurd (by simp [isLatch, hreq, hkey]) h

/-! ### Reads (R15, R16) -/

/-- On a device that is up, a read of a register outside test mode gives its value. -/
theorem State.reads_up {s : State} {q : Requester} {off : Nat} {l : Loc} (hu : s.up) (hq : s.honours q)
    (hreg : s.bar0Reg off = some l) (herr : s.errAt off = none) (htest : off < 0x700100 ∨ 0x70011C ≤ off) :
    s.reads q .bar0 off = some (l, s.locValue l) ∧
      s.readDword q .bar0 off = s.locValue l / (if l.high then 2 ^ 32 else 1) % 2 ^ 32 := by
  obtain ⟨hrun, hphase, hp0, -⟩ := hu
  have hshown : State.testHidden q off = false := by
    unfold State.testHidden
    split
    · rfl
    · simp only [Bool.or_eq_false_iff, Bool.and_eq_false_iff, decide_eq_false_iff_not]
      omega
  have hgo : (s.bar0Reads off && !State.testHidden q off) = true := by
    simp [State.bar0Reads, hrun, hphase, hp0, hshown]
  have hreads : s.reads q .bar0 off = (s.bar0Reg off).map (fun l => (l, s.locValue l)) := by
    cases q with
    | smbus => cases hq
    | port p => exact if_pos hgo
    | core c => exact if_pos hgo
  have hdword : s.readDword q .bar0 off = s.bar0Dword off := by
    cases q with
    | smbus => cases hq
    | port p => exact if_pos hgo
    | core c => exact if_pos hgo
  refine ⟨by rw [hreads, hreg]; rfl, ?_⟩
  rw [hdword]
  unfold State.bar0Dword
  rw [herr, hreg]

theorem State.busRead_wide {s : State} {q : Requester} {off : Nat} {l : Loc} (hu : s.up) (hq : s.honours q)
    (hreg : s.bar0Reg off = some l) (herr : s.errAt off = none) (htest : off < 0x700100 ∨ 0x70011C ≤ off)
    (hwide : l.row.wide = true) :
    (l.high = false → s.latches.all (fun x => decide (¬(x.req = q ∧ x.key = l.key))) = true →
      s.busRead q .bar0 off = ({ s with latches := s.latches ++
        [{ req := q, key := l.key, high := some (BitVec.ofNat 32 (s.locValue l / 2 ^ 32)) }] }, s.locValue l % 2 ^ 32)) ∧
    (l.high = true → ∀ (x : Latch) (h : BitVec 32),
      s.latches.find? (fun x => decide (x.req = q) && decide (x.key = l.key)) = some x → x.high = some h →
      s.busRead q .bar0 off = ({ s with latches := s.latches.map (fun x =>
        if decide (x.req = q) && decide (x.key = l.key) then { x with high := none } else x) }, h.toNat)) ∧
    (l.high = true → s.latches.find? (fun x => decide (x.req = q) && decide (x.key = l.key)) = none →
      s.busRead q .bar0 off = (s, s.locValue l / 2 ^ 32 % 2 ^ 32)) := by
  obtain ⟨hreads, hdword⟩ := State.reads_up hu hq hreg herr htest
  refine ⟨?_, ?_, ?_⟩
  · intro hlow hnone
    rw [hlow] at hdword
    unfold State.busRead
    simp only [State.wakeOnRead_up hu, hreads, hwide, hlow, any_latch_false hnone, hdword]
    simp
  · intro hhigh x h hx hh
    unfold State.busRead
    simp only [State.wakeOnRead_up hu, hreads, hwide, hhigh, hx, Option.bind_some, hh]
    simp
  · intro hhigh hx
    rw [hhigh] at hdword
    unfold State.busRead
    simp only [State.wakeOnRead_up hu, hreads, hwide, hhigh, hx, Option.bind_none, hdword]
    simp

theorem State.reg64Read_word {s t : State} {q : Requester} {off v : Nat} (h : s.busRead q .bar0 off = (t, v)) :
    s.reg64Read q .bar0 off 4 = { t with lastRead := BitVec.ofNat 64 v } := by
  have hread : s.sizedRead q .bar0 off 4 = (t, v) := by
    unfold State.sizedRead
    rw [if_neg (by decide), if_pos rfl, h]
  unfold State.reg64Read
  rw [hread]

theorem State.reg64Read_narrow {s : State} {q : Requester} (hu : s.up) (off : Nat) {size : Nat} (h : size < 4) :
    s.reg64Read q .bar0 off size = { s with
      lastRead := BitVec.ofNat 64 (s.readDword q .bar0 (off / 4 * 4) / 256 ^ (off % 4) % 256 ^ size) } := by
  have hread : s.sizedRead q .bar0 off size =
      (s, s.readDword q .bar0 (off / 4 * 4) / 256 ^ (off % 4) % 256 ^ size) := by
    unfold State.sizedRead
    rw [if_pos h, State.wakeOnRead_up hu]
  unfold State.reg64Read
  rw [hread]

/-- One read of 8 bytes gives the register whole and leaves the latches. -/
theorem State.reg64Read_whole {s : State} {q : Requester} {off : Nat} {l : Loc} (hu : s.up)
    (hreads : s.reads q .bar0 off = some (l, s.locValue l)) (hwide : l.row.wide = true) (hlow : l.high = false) :
    s.reg64Read q .bar0 off 8 = { s with lastRead := BitVec.ofNat 64 (s.locValue l) } := by
  have hread : s.sizedRead q .bar0 off 8 = (s, s.locValue l % 2 ^ 64) := by
    unfold State.sizedRead
    rw [if_neg (by decide), if_neg (by decide), State.wakeOnRead_up hu]
    dsimp only
    rw [hreads]
    exact if_pos (by rw [hwide, hlow]; rfl)
  unfold State.reg64Read
  rw [hread]
  have hmod : BitVec.ofNat 64 (s.locValue l % 2 ^ 64) = BitVec.ofNat 64 (s.locValue l) := by
    apply BitVec.eq_of_toNat_eq
    simp
  dsimp only
  rw [hmod]

/-! ### The controller memory buffer (R46, R48) -/

/-- An access inside the buffer, of a device that is up, to the portion that holds it. -/
theorem State.cmbAccess_own {s : State} {p off len n : Nat} {pas : Option Nat} (hu : s.up) (hfits : off + len ≤ s.cmbSize)
    (hown : s.portionOf p pas off len = some n) :
    s.cmbAccess p pas off len none = { s with lastRead := BitVec.ofNat 64 (leNat (mread s.cmb off (min 8 len))) } ∧
      ∀ d : Bytes, s.cmbAccess p pas off len (some d) = s.cmbPut off (padTo len d) := by
  have hawake := State.wakeP3_up hu
  obtain ⟨hrun, hphase, hp0, -⟩ := hu
  have hon : ¬ (decide (s.dev.run ≠ .started) || decide (s.pwr.state = 4)) = true := by simp [hrun, hp0]
  have hready : ¬ (decide (s.dev.phase ≠ .ready) || decide (s.pwr.state = 3)) = true := by simp [hphase, hp0]
  unfold State.cmbAccess
  simp only [hawake, hown]
  refine ⟨?_, fun d => ?_⟩ <;> rw [if_neg hon, if_neg hready, if_neg (Nat.not_lt.mpr hfits)]

/-- An access inside the buffer that no portion of its sender holds is refused (R48). -/
theorem State.cmbAccess_foreign {s : State} {p off len : Nat} {pas : Option Nat} (hu : s.up)
    (hfits : off + len ≤ s.cmbSize) (hown : s.portionOf p pas off len = none) :
    s.cmbAccess p pas off len none = ({ s with lastRead := 0 }).ev 0x2200 noSlice ∧
      ∀ d : Bytes, s.cmbAccess p pas off len (some d) = (s.discard hifErr 2 (off / 32)).ev 0x2200 noSlice := by
  have hawake := State.wakeP3_up hu
  obtain ⟨hrun, hphase, hp0, -⟩ := hu
  have hon : ¬ (decide (s.dev.run ≠ .started) || decide (s.pwr.state = 4)) = true := by simp [hrun, hp0]
  have hready : ¬ (decide (s.dev.phase ≠ .ready) || decide (s.pwr.state = 3)) = true := by simp [hphase, hp0]
  unfold State.cmbAccess
  simp only [hawake, hown]
  refine ⟨?_, fun d => ?_⟩ <;> rw [if_neg hon, if_neg hready, if_neg (Nat.not_lt.mpr hfits)]

theorem State.discardAt_of {s : State} {off b : Nat} {l : Loc} (halign : off % 4 = 0) (hreg : s.bar0Reg off = some l)
    (hbase : State.instBase off = some b) : s.discardAt off = s.discard (b + 0xFFC) 0 off := by
  have hoff : off / 4 * 4 = off := by omega
  unfold State.discardAt
  rw [hoff, hreg, hbase]

/-- Settles O45: each access by the width of its register and what its requester holds of it. -/
theorem registerAccesses : Obligations.RegisterAccesses := by
  unfold Obligations.RegisterAccesses
  refine ⟨?_, ?_, ?_, ?_, ?_, ?_, ?_, ?_, ?_, ?_, ?_⟩
  case refine_1 =>
    intro s q off l hu hq hplain hwide v hv hok
    have hwrite : s.regWrite q .bar0 off 4 v = s.bar0Put l v.toNat := by
      rw [State.regWrite_plain hu hq hplain, mod_of_lt32 hv]
      unfold State.access
      rw [if_pos (by rw [hwide]; rfl), if_pos rfl]
      exact if_pos hok
    have hfile := State.bar0Put_regFile hplain s v.toNat
    refine ⟨s.bar0Put l v.toNat, (byReq_honours hq _).trans (congrArg Host.Outcome.next hwrite), ?_, ?_, ?_⟩
    · intro hrw
      have hrws : (s.bar0Put l v.toNat).rw = (s.store l v.toNat).rw := congrArg Prod.fst hfile
      have hstored := s.store_rw v.toNat hrw
      unfold State.rwGet at hstored ⊢
      rw [hrws, hstored]
    · intro hrws hnew
      have hstaged : (s.bar0Put l v.toNat).staged = (s.store l v.toNat).staged := congrArg (fun p => p.2.1) hfile
      have hforce : (s.bar0Put l v.toNat).inForce = (s.store l v.toNat).inForce := congrArg (fun p => p.2.2.1) hfile
      have hstored := s.store_staged hrws hv hnew
      unfold State.stagedNat State.forceNat at hstored ⊢
      rw [hstaged, hforce, hstored]
    · exact (congrArg (fun p => p.2.2.1) hfile).trans (s.store_inForce l v.toNat).1
  case refine_2 =>
    intro s q off l hu hq hplain b halign hbase hwide v hv hok
    refine (byReq_honours hq _).trans (congrArg Host.Outcome.next ?_)
    rw [State.regWrite_plain hu hq hplain, mod_of_lt32 hv]
    unfold State.access
    rw [if_pos (by rw [hwide]; rfl), if_pos rfl]
    refine (if_neg (by rw [hok]; decide)).trans ?_
    rw [State.discardAt_of halign hplain.1 hbase]
    rfl
  case refine_3 =>
    intro s q off l hu hq hplain hwide hlow hnone v
    refine (byReq_honours hq _).trans (congrArg Host.Outcome.next ?_)
    rw [State.regWrite_plain hu hq hplain, setWidth_mod, State.access_low hwide hlow hnone, BitVec.ofNat_toNat,
      BitVec.setWidth_eq]
  case refine_4 =>
    intro s q off l hu hq hplain hwide hhigh x lo v w hx hlo hw hok hrw o ho
    subst ho hw
    have hwrite := (State.regWrite_plain hu hq hplain (v.setWidth 64)).trans
      (State.access_high hwide hhigh hx hlo _ _ _ _)
    rw [setWidth_mod] at hwrite
    refine ⟨_, (byReq_honours hq _).trans (congrArg Host.Outcome.next (hwrite.trans (if_pos hok))), ?_⟩
    have hfile := State.bar0Put_regFile hplain (s.letGo q l) (v.toNat * 2 ^ 32 + lo.toNat)
    constructor
    · have hrws := congrArg Prod.fst hfile
      have hstored := State.store_rw (s.letGo q l) (v.toNat * 2 ^ 32 + lo.toNat) hrw
      unfold State.rwGet at hstored ⊢
      exact (congrArg (fun t => tgetD t l.key 0) hrws).trans hstored
    · have hlatches := (congrArg (fun p => p.2.2.2) hfile).trans (State.store_inForce _ l _).2
      intro y hy
      exact low_none_of_let_go y ((congrArg (fun ls => y ∈ ls) hlatches).mp hy)
  case refine_5 =>
    intro s q off l hu hq hreg herr htest hwide hlow hnone
    exact (byReq_honours hq _).trans (congrArg Host.Outcome.next
      (State.reg64Read_word ((State.busRead_wide hu hq hreg herr htest hwide).1 hlow hnone)))
  case refine_6 =>
    intro s q off l hu hq hreg herr htest hwide hhigh o ho x h hx hh
    subst ho
    exact (byReq_honours hq _).trans (congrArg Host.Outcome.next
      (State.reg64Read_word ((State.busRead_wide hu hq hreg herr htest hwide).2.1 hhigh x h hx hh)))
  case refine_7 =>
    intro s q off l hu hq hreg herr htest hwide hhigh o ho hx
    subst ho
    exact (byReq_honours hq _).trans (congrArg Host.Outcome.next
      (State.reg64Read_word ((State.busRead_wide hu hq hreg herr htest hwide).2.2 hhigh hx)))
  case refine_8 =>
    intro s q off size hu hq hsize
    exact (byReq_honours hq _).trans (congrArg Host.Outcome.next (State.reg64Read_narrow hu off hsize))
  case refine_9 =>
    intro s q off l hu hq hreg herr htest hwide hlow
    exact (byReq_honours hq _).trans (congrArg Host.Outcome.next
      (State.reg64Read_whole hu (State.reads_up hu hq hreg herr htest).1 hwide hlow))
  case refine_10 =>
    intro s p off len pas hu hp hfits n hown
    obtain ⟨hread, hwrite⟩ := State.cmbAccess_own hu hfits hown
    exact ⟨(onPort_of hp _).trans (congrArg Host.Outcome.next hread),
      fun d => (onPort_of hp _).trans (congrArg Host.Outcome.next (hwrite d))⟩
  case refine_11 =>
    intro s p off len pas hu hp hfits hown
    obtain ⟨hread, hwrite⟩ := State.cmbAccess_foreign hu hfits hown
    exact ⟨(onPort_of hp _).trans (congrArg Host.Outcome.next hread),
      fun d => (onPort_of hp _).trans (congrArg Host.Outcome.next (hwrite d))⟩

end Sys2Proof.Machine


/-! # Ticks, laps and polls (O46) -/

namespace Sys2Proof.Machine

/-! ### Ticks (R21, R33, R34) -/

theorem State.tick_stride {s : State} (h : s.dev.run ≠ .off) : s.tick.stride = s.stride + 1 :=
  (State.tick_kept h (Kept.refl _)).stride

theorem State.tick_waiting {s : State} (h : s.dev.run = .waiting) : s.tick = { s with stride := s.stride + 1 } := by
  unfold State.tick
  rw [if_neg (by rw [h]; decide)]
  exact if_pos (by rw [h]; decide)

theorem State.lapBoundary_due {s : State} (h : (s.stride + 1) % 4000 = 0) : s.lapBoundary = s.tick := if_pos h

/-- The stride that a lap begins with has the next lap's number. -/
theorem State.lap_of_boundary {s t : State} (hlap : (s.stride + 1) % 4000 = 0) (ht : t.stride = s.stride + 1) :
    t.lap = s.lap + 1 := by
  unfold State.lap
  omega

theorem State.heatLapLimit_ends {s : State} {c : CmdId} {h : Heat} (hh : s.heat? c = some h) (hrun : h.st = .running)
    (hmax : h.maxLaps ≠ 0) (hover : h.maxLaps ≤ h.laps) :
    s.heatLapLimit c = (s.heatEnd h (.vendor 0x47)).ev 0x0701 c.slice := by
  unfold State.heatLapLimit
  rw [hh]
  exact if_pos (by simp [hrun, hmax, hover])

/-! ### Polls that complete (R32, R1055) -/

/-- Where nothing is injected, a codeword and its hop give what the flash gave. -/
theorem State.onCodeword_quiet {s : State} (h : s.faultInject = false) (ch : Nat) (r : PollResult) :
    s.onCodeword ch r = (s, r) := by
  have hunit : s.fijUnit 2 ch = (s, 0) := if_pos (by rw [h]; rfl)
  unfold State.onCodeword
  cases r with
  | readOk level bits tagOk => simp only [hunit]
  | _ => rfl

theorem State.pollReturn_quiet {s : State} {id : Nat} {p : PollOp} (h : s.faultInject = false) (hp : s.poll? id = some p)
    (r : PollResult) : s.pollReturn id r = s.pollComplete id r := by
  unfold State.pollReturn
  rw [hp]
  dsimp only
  rw [State.onCodeword_quiet h]
  dsimp only
  split
  · rw [State.onHop_quiet h]
  · rfl

theorem State.pollComplete_erase {s : State} {id b : Nat} {p : PollOp} (hp : s.poll? id = some p) (hk : p.kind = .erase b)
    (hr : s.reclaimOf b = none) :
    s.pollComplete id .eraseOk = { s with ftl := { s.ftl with
      polls := s.ftl.polls.filter (fun p => decide (p.id ≠ id)),
      reclaims := s.ftl.reclaims.filter (fun r => decide (r.blk ≠ b)),
      blks := tset s.ftl.blks b { state := .free, pe := (s.blk b).pe + 1 } } } := by
  have hdone : s.pollComplete id .eraseOk = (s.dropPoll id).eraseDone b := by
    unfold State.pollComplete
    rw [hp]
    dsimp only
    rw [hk]
  have hdrop : (s.dropPoll id).reclaimOf b = none := hr
  rw [hdone]
  unfold State.eraseDone
  dsimp only
  rw [hdrop]
  rfl

/-- A host read at a low level that corrected few bits is counted and delivered. -/
theorem State.pollComplete_hostRead {s : State} {id a n m : Nat} {c : CmdId} {p : PollOp} (hp : s.poll? id = some p)
    (hk : p.kind = .hostRead c a) (hn : n < 4) (hm : m ≤ 256) :
    s.pollComplete id (.readOk n m true) = (((s.dropPoll id).countRead (dieOf a) n m).hostReadDone c false) := by
  have hread : s.pollComplete id (.readOk n m true) = (s.dropPoll id).readPolled (.hostRead c a) n m true := by
    unfold State.pollComplete
    rw [hp]
    dsimp only
    rw [hk]
  have hstrong : ∀ t : State, t.weakRead (blkOf a) n m = t := by
    intro t
    unfold State.weakRead
    exact if_neg (by simp [Nat.not_le.mpr hn, Nat.not_le.mpr (Nat.lt_succ_of_le hm)])
  rw [hread]
  unfold State.readPolled
  rw [Nat.min_eq_left (by omega), if_pos rfl]
  rw [show blkOf (PollKind.hostRead c a).addr = blkOf a from rfl, hstrong]
  rfl

/-- Settles O46: ticks by what every tick keeps, polls by the operation that ends. -/
theorem ticksLapsAndPolls : Obligations.TicksLapsAndPolls := by
  unfold Obligations.TicksLapsAndPolls
  refine ⟨?_, ?_, ?_, ?_, ?_, ?_⟩
  case refine_1 =>
    intro s hrun
    exact ⟨_, rfl, State.tick_stride hrun⟩
  case refine_2 =>
    intro s hrun
    exact congrArg Host.Outcome.next (State.tick_waiting hrun)
  case refine_3 =>
    intro s hrun hlap
    exact ⟨s.tick, congrArg Host.Outcome.next (State.lapBoundary_due hlap), rfl, State.tick_stride hrun,
      State.lap_of_boundary hlap (State.tick_stride hrun)⟩
  case refine_4 =>
    intro s c h hc hh hrun hmax hover
    exact (onSlice_of hc _).trans (congrArg Host.Outcome.next (State.heatLapLimit_ends hh hrun hmax hover))
  case refine_5 =>
    intro s id b p hquiet hp hk hr
    exact congrArg Host.Outcome.next ((State.pollReturn_quiet hquiet hp _).trans (State.pollComplete_erase hp hk hr))
  case refine_6 =>
    intro s id a n m c p hquiet hp hk hn hm
    exact congrArg Host.Outcome.next ((State.pollReturn_quiet hquiet hp _).trans (State.pollComplete_hostRead hp hk hn hm))

end Sys2Proof.Machine


/-! # Ports, controllers and doorbells (O47) -/

namespace Sys2Proof.Machine

/-! ### What a squash leaves (R140, R142)

Its commands and heats go; the ports, the registers and every slice's controller registers stay. -/

/-- The state but for slices, cores and heats, and every slice's controller registers. -/
def State.ctrlView (s : State) : State × (Nat → Ctrl) :=
  ({ s with slices := [], cores := [], heats := [] }, fun m => (s.slice m).ctrl)

theorem State.modSlice_ctrlView {s : State} {n : Nat} {f : Slice → Slice} (h : (f (s.slice n)).ctrl = (s.slice n).ctrl) :
    (s.modSlice n f).ctrlView = s.ctrlView := by
  refine Prod.ext rfl (funext fun m => ?_)
  change ((s.modSlice n f).slice m).ctrl = (s.slice m).ctrl
  by_cases hm : m = n
  · subst hm
    rw [State.slice_modSlice, h]
  · rw [State.slice_modSlice_ne _ _ hm]

theorem State.discardCmd_ctrlView (s : State) (c : CmdId) : (s.discardCmd c).ctrlView = s.ctrlView := by
  unfold State.discardCmd
  split
  · rfl
  · exact State.modSlice_ctrlView rfl

theorem State.freeCores_ctrlView (s : State) (h : Heat) : (s.freeCores h).ctrlView = s.ctrlView := by
  have hstop : ∀ l : List Nat, (l.foldl (fun s k => s.stopCore k) s).ctrlView = s.ctrlView := fun l =>
    foldl_keeps State.ctrlView (fun s k => s.stopCore k) (fun _ _ => rfl) l s
  unfold State.freeCores
  split
  case h_5 => rfl
  all_goals exact hstop _

theorem State.dropHeats_ctrlView (s : State) (n : Nat) : (s.dropHeats n).ctrlView = s.ctrlView :=
  foldl_keeps State.ctrlView (fun s h => ((s.freeCores h).dropHeat h.id).discardCmd h.id)
    (fun t h => (State.discardCmd_ctrlView ((t.freeCores h).dropHeat h.id) h.id).trans (t.freeCores_ctrlView h)) _ s

theorem State.squash_ctrlView (s : State) (n : Nat) : (s.squash n).ctrlView = s.ctrlView :=
  (foldl_keeps State.ctrlView _ (fun _ _ => State.discardCmd_ctrlView _ _) _ _).trans (s.dropHeats_ctrlView n)

/-- A controller reset begins in the controller registers of its slice alone. -/
theorem State.beginCtrlReset_ctrl (s : State) (n m : Nat) :
    ((s.beginCtrlReset n).slice m).ctrl =
      if m = n then { (s.slice n).ctrl with resetting := true, enableDue := false } else (s.slice m).ctrl := by
  have hctrl : ∀ k, ((s.squash n).slice k).ctrl = (s.slice k).ctrl := fun k =>
    congrFun (congrArg Prod.snd (s.squash_ctrlView n)) k
  unfold State.beginCtrlReset
  by_cases hm : m = n
  · subst hm
    rw [State.slice_modSlice, if_pos rfl, hctrl]
  · rw [State.slice_modSlice_ne _ _ hm, if_neg hm, hctrl]

/-- What the reset of controllers leaves: all but slices, cores and heats. -/
def State.outside (s : State) : State := { s with slices := [], cores := [], heats := [] }

theorem State.beginCtrlReset_outside (s : State) (n : Nat) : (s.beginCtrlReset n).outside = s.outside :=
  congrArg Prod.fst (s.squash_ctrlView n)

theorem State.beginCtrlResets_outside (s : State) (l : List (Nat × Slice)) :
    (l.foldl (fun s q => s.beginCtrlReset q.1) s).outside = s.outside :=
  foldl_keeps State.outside _ (fun _ _ => State.beginCtrlReset_outside _ _) _ _

/-- Every slice of the list is resetting, and none stops resetting. -/
theorem State.beginCtrlResets_resetting (l : List (Nat × Slice)) (s : State) (n : Nat)
    (h : (∃ x, (n, x) ∈ l) ∨ (s.slice n).ctrl.resetting = true) :
    ((l.foldl (fun s q => s.beginCtrlReset q.1) s).slice n).ctrl.resetting = true := by
  induction l generalizing s with
  | nil =>
    obtain ⟨x, hx⟩ | h := h
    · cases hx
    · exact h
  | cons q l ih =>
    refine ih (s.beginCtrlReset q.1) ?_
    rw [State.beginCtrlReset_ctrl]
    by_cases hq : n = q.1
    · exact .inr (by rw [if_pos hq])
    · rw [if_neg hq]
      obtain ⟨x, hx⟩ | h := h
      · obtain heq | hx := List.mem_cons.mp hx
        · exact absurd (congrArg Prod.fst heq) hq
        · exact .inl ⟨x, hx⟩
      · exact .inr h

/-! ### Port events (R183) -/

/-- What a port event leaves of its port. -/
def portAfter (keep : Bool) (x : Port) : Port :=
  if keep then { x with busMaster := false, bar4 := 0, downSeen := true }
  else { ident := x.ident, perst := x.perst, downSeen := true }

theorem State.portReset_spec (s : State) (p : Nat) (keep : Bool) :
    (s.portReset p keep).port p = portAfter keep (s.port p) ∧
      (s.portReset p keep).out = s.out ++ (if !keep && (s.port p).linkUp then [.linkDown p] else []) ∧
      (s.portReset p keep).msixPend = s.msixPend.filter (fun v => decide (v / 2048 ≠ p)) ∧
      ∀ n, (n, s.slice n) ∈ s.slices → (s.slice n).port = p → (s.slice n).st.holds = true →
        ((s.portReset p keep).slice n).ctrl.resetting = true := by
  have hout := s.beginCtrlResets_outside (s.slices.filter (fun q => q.2.port = p && q.2.st.holds))
  have hreset := State.beginCtrlResets_resetting (s.slices.filter (fun q => q.2.port = p && q.2.st.holds)) s
  unfold State.portReset
  dsimp only
  generalize List.foldl _ s _ = u at hout hreset ⊢
  have hport := congrArg (fun (t : State) => t.port p) hout
  have hsent := congrArg State.out hout
  have hpend := congrArg State.msixPend hout
  change u.port p = s.port p at hport
  change u.out = s.out at hsent
  change u.msixPend = s.msixPend at hpend
  rw [hport, ← hsent, ← hpend, ← hport]
  refine ⟨?_, ?_, ?_, ?_⟩
  · split <;> exact State.port_modPort u p (portAfter keep)
  · split
    · rfl
    · exact (List.append_nil _).symm
  · split <;> rfl
  · intro n hn hp hst
    have hlisted : (n, s.slice n) ∈ s.slices.filter (fun q => q.2.port = p && q.2.st.holds) :=
      List.mem_filter.mpr ⟨hn, by simp [hp, hst]⟩
    split <;> exact hreset n (.inl ⟨_, hlisted⟩)

/-! ### CC (R187 to R191) -/

/-- A value of CC that a slice out of reset takes. -/
theorem State.ccWrite_takes {s : State} {p n : Nat} {v : BitVec 32} (hu : s.up) (hlive : s.windowLive p n = true)
    (hok : ccOk v.toNat = true) (hreset : (s.slice n).ctrl.resetting = false) (hst : (s.slice n).st ≠ .resetting) :
    s.ccWrite p n v =
      if natBit (s.slice n).ctrl.cc.toNat 0 && !natBit v.toNat 0 then
        (s.modSlice n (fun x => { x with ctrl := { x.ctrl with cc := v } })).beginCtrlReset n
      else
        let t := if !natBit (s.slice n).ctrl.cc.toNat 0 && natBit v.toNat 0 && (s.slice n).st = .active then
            (s.modSlice n (fun x => { x with ctrl := { x.ctrl with cc := v } })).modSlice n
              (fun x => { x with ctrl := { x.ctrl with enableDue := true } })
          else s.modSlice n (fun x => { x with ctrl := { x.ctrl with cc := v } })
        if natBits v.toNat 15 14 ≠ 0 && (s.slice n).ctrl.shst = 0 then
          t.modSlice n (fun x => { x with ctrl := { x.ctrl with shst := 1 } })
        else t := by
  unfold State.ccWrite
  rw [State.winWrite_up hu hlive]
  exact if_neg (by simp [hok, hreset, hst])

/-! ### Doorbells (R210 to R212) -/

/-- A doorbell of a live window, on a device that is up, is recorded. -/
theorem State.doorbellWrite_up {s : State} {p n qid v : Nat} {cq : Bool} {ents : List SqEntry} (hu : s.up)
    (hlive : s.windowLive p n = true) (hv : v < 65536) :
    s.doorbellWrite p n cq qid v ents = s.recordDoorbell n cq qid v ents := by
  have hawake : (if s.exposes n cq qid v then s.wakeEvent 1 n else s.wakeEvent 2 0) = s := by
    split <;> exact State.wakeEvent_up hu _ _
  unfold State.doorbellWrite
  dsimp only
  rw [if_neg (Nat.not_le.mpr hv), hawake, if_neg (by simp [hu.2.2.1]), State.bar2Blocked_up hu hlive]

theorem State.recordDoorbell_samples {s : State} {n : Nat} (hs : (s.slice n).st ≠ .saving) (hm : (s.slice n).st ≠ .migrating) :
    ¬ (decide ((s.slice n).st = .saving) || decide ((s.slice n).st = .migrating)) = true := by
  simp [hs, hm]

theorem State.recordDoorbell_tail {s : State} {n qid v : Nat} {ents : List SqEntry} {q : Sq}
    (hs : (s.slice n).st ≠ .saving) (hm : (s.slice n).st ≠ .migrating) (hq : tget (s.slice n).sqs qid = some q) :
    s.recordDoorbell n false qid v ents = s.setSlice n { s.slice n with
      sqs := tset (s.slice n).sqs qid { q with recTail := some v, recEnts := ents } } := by
  unfold State.recordDoorbell
  dsimp only
  rw [if_neg (State.recordDoorbell_samples hs hm), hq]
  rfl

theorem State.recordDoorbell_head {s : State} {n qid v : Nat} {ents : List SqEntry} {q : Cq}
    (hs : (s.slice n).st ≠ .saving) (hm : (s.slice n).st ≠ .migrating) (hq : tget (s.slice n).cqs qid = some q) :
    s.recordDoorbell n true qid v ents = s.setSlice n { s.slice n with
      cqs := tset (s.slice n).cqs qid { q with recHead := some v } } := by
  unfold State.recordDoorbell
  dsimp only
  rw [if_neg (State.recordDoorbell_samples hs hm), hq]
  rfl

theorem State.recordDoorbell_stray {s : State} {n qid v : Nat} {ents : List SqEntry} {cq : Bool}
    (hs : (s.slice n).st ≠ .saving) (hm : (s.slice n).st ≠ .migrating)
    (hq : (if cq then (tget (s.slice n).cqs qid).isNone else (tget (s.slice n).sqs qid).isNone) = true) :
    s.recordDoorbell n cq qid v ents = s.setSlice n { s.slice n with
      strays := (s.slice n).strays.filter (fun d => decide (d ≠ (cq, qid))) ++ [(cq, qid)] } := by
  unfold State.recordDoorbell
  dsimp only
  rw [if_neg (State.recordDoorbell_samples hs hm)]
  cases cq with
  | true => rw [Option.isNone_iff_eq_none.mp hq]; rfl
  | false => rw [Option.isNone_iff_eq_none.mp hq]; rfl

theorem onPortSlice_takes {p n : Nat} (hp : p < 2) (hn : n < 512) {t u : State} (h : t = u) :
    onPortSlice p n t = .next u := (onPortSlice_of hp hn t).trans (congrArg Host.Outcome.next h)

/-- Settles O47: port events by the reset of their slices' controllers, writes of CC by what they change of the
controller, doorbells by the queue that they name. -/
theorem portAndControllerCommands : Obligations.PortAndControllerCommands := by
  unfold Obligations.PortAndControllerCommands
  refine ⟨?_, ?_, ?_, ?_, ?_, ?_, ?_, ?_, ?_, ?_, ?_, ?_, ?_, ?_, ?_, ?_⟩
  case refine_1 =>
    intro s p hp hlive hup
    obtain ⟨hport, hout, hpend, hreset⟩ := s.portReset_spec p true
    refine ⟨_, (onPort_of hp _).trans (congrArg Host.Outcome.next (if_pos (by simp [hlive, hup]))), ?_⟩
    exact ⟨hport, hout.trans (List.append_nil _), hpend, hreset⟩
  case refine_2 =>
    intro s p hp hlive hup
    obtain ⟨hport, hout, hpend, hreset⟩ := s.portReset_spec p false
    refine ⟨_, (onPort_of hp _).trans (congrArg Host.Outcome.next (if_pos (by simp [hlive, hup]))), ?_⟩
    refine ⟨hport, hout.trans ?_, hpend, hreset⟩
    rw [hup]
    rfl
  case refine_3 =>
    intro s p hp hcount hu
    let u := s.modPort p (fun x => { x with perst := true })
    obtain ⟨hport, hout, -, hreset⟩ := u.portReset_spec p false
    have hu' : u.up := hu
    have hexec : s.perstAsserted p = u.portReset p false := by
      unfold State.perstAsserted
      dsimp only
      rw [State.wakeEvent_up hu']
      refine (if_neg (?_ : ¬ (decide (s.portCount ≤ p) || decide (s.dev.run ≠ .started)) = true)).trans (if_neg ?_)
      · simp [Nat.not_le.mpr hcount, hu.1]
      · exact fun h => absurd (hu.2.2.1 ▸ h : 3 ≤ 0) (by decide)
    refine ⟨_, (onPort_of hp _).trans (congrArg Host.Outcome.next hexec), ?_, ?_, hreset⟩
    · rw [hport, State.port_modPort]
      rfl
    · rw [hout, State.port_modPort]
      rfl
  case refine_4 =>
    intro s p hp
    exact onPort_of hp _
  case refine_5 =>
    intro s p speed width bar4 flit hp hcount hrun hperst hpwr hok
    exact (onPort_of hp _).trans (congrArg Host.Outcome.next (if_pos (by simp [hcount, hrun, hperst, hpwr, hok])))
  case refine_6 =>
    intro s p on hp hup
    exact (onPort_of hp _).trans (congrArg Host.Outcome.next (if_pos hup))
  case refine_7 =>
    intro s p n v hp hn hu hlive hok hreset hst hnow hwas hactive hshn
    have hwrite := State.ccWrite_takes hu hlive hok hreset hst
    rw [if_neg (by simp [hwas])] at hwrite
    dsimp only at hwrite
    rw [if_neg (by simp [hshn]), if_pos (by simp [hwas, hnow, hactive])] at hwrite
    refine ⟨_, onPortSlice_takes hp hn ((if_pos hnow).trans hwrite), ?_, ?_⟩
    · rw [State.slice_modSlice, State.slice_modSlice]
    · intro m hm
      rw [State.slice_modSlice_ne _ _ hm, State.slice_modSlice_ne _ _ hm]
  case refine_8 =>
    intro s p n v hp hn hu hlive hok hreset hst hnow hwas
    have hwrite := State.ccWrite_takes hu hlive hok hreset hst
    rw [if_pos (by simp [hwas, hnow])] at hwrite
    refine ⟨_, onPortSlice_takes hp hn ((if_neg (by rw [hnow]; decide)).trans hwrite), ?_, ?_⟩
    · rw [State.beginCtrlReset_ctrl, if_pos rfl, State.slice_modSlice]
    · intro m hm
      rw [State.beginCtrlReset_ctrl, if_neg hm, State.slice_modSlice_ne _ _ hm]
  case refine_9 =>
    intro s p n v hp hn hu hlive hok hreset hst hshn hsame hshst
    have hne : natBits v.toNat 15 14 ≠ 0 := by omega
    have hwrite := State.ccWrite_takes hu hlive hok hreset hst
    rw [if_neg (by simp [hsame])] at hwrite
    dsimp only at hwrite
    rw [if_pos (by simp [hne, hshst]), if_neg (by simp [hsame])] at hwrite
    refine ⟨_, onPortSlice_takes hp hn ((if_pos (by simpa using hshn)).trans hwrite), ?_, ?_⟩
    · rw [State.slice_modSlice, State.slice_modSlice]
    · intro m hm
      rw [State.slice_modSlice_ne _ _ hm, State.slice_modSlice_ne _ _ hm]
  case refine_10 =>
    intro s n hn hshst hadms hready
    exact (onSlice_of hn _).trans (congrArg Host.Outcome.next (if_pos (by simp [State.quiet, hshst, hadms, hready])))
  case refine_11 =>
    intro s p n qid v ents hp hn hu hlive hv hsave hmig q hq
    exact onPortSlice_takes hp hn ((State.doorbellWrite_up hu hlive hv).trans (State.recordDoorbell_tail hsave hmig hq))
  case refine_12 =>
    intro s p n qid v ents hp hn hu hlive hv hsave hmig q hq
    exact onPortSlice_takes hp hn ((State.doorbellWrite_up hu hlive hv).trans (State.recordDoorbell_head hsave hmig hq))
  case refine_13 =>
    intro s p n qid v ents hp hn hu hlive hv hsave hmig cq hq
    exact onPortSlice_takes hp hn ((State.doorbellWrite_up hu hlive hv).trans (State.recordDoorbell_stray hsave hmig hq))
  case refine_14 =>
    intro s p n qid v cq ents hp hn hu hlive hv hst
    refine onPortSlice_takes hp hn ((State.doorbellWrite_up hu hlive hv).trans (if_pos ?_))
    obtain h | h := hst <;> simp [h]
  case refine_15 =>
    intro s n hn hrdy
    exact (onSlice_of hn _).trans (congrArg Host.Outcome.next (if_pos hrdy))
  case refine_16 =>
    intro s c a hc ha
    refine (onSlice_of hc _).trans (congrArg Host.Outcome.next ?_)
    unfold State.dataError
    rw [ha]
    rfl

end Sys2Proof.Machine


/-! # Queues, features, logs, Identify and namespaces (O48) -/

namespace Sys2Proof.Machine

/-- Two changes of a slice are one. -/
theorem State.modSlice_modSlice (s : State) (n : Nat) (f g : Slice → Slice) :
    (s.modSlice n f).modSlice n g = s.modSlice n (fun x => g (f x)) := by
  change State.setSlice _ n (g ((s.modSlice n f).slice n)) = _
  rw [State.slice_modSlice]
  exact congrArg (fun l => { s with slices := l }) (tset_tset _ _ _ _)

/-- The row of an admin command that is admitted and has not acted. -/
theorem onAdmin_row {s : State} {c : CmdId} {opc : Nat} {a : Adm} (h : s.awaitsAdmin c opc a) (f : Adm → State) :
    onSlice c.slice (s.onAdmin c opc f) = .next (f a) :=
  (onSlice_of h.1 _).trans (congrArg Host.Outcome.next (State.onAdmin_of h f))

/-- An answer whose data moves now is delivered, and its command ends. -/
theorem State.respond_moves {s t : State} {c : CmdId} {r : Reply}
    (h : s.moveData c true (cutRanges r.ranges r.data.length) = (t, true)) :
    s.respond c r = (t.deliver c.slice r.ranges r.data).finish c r.status r.dw0 r.dw1 := by
  unfold State.respond
  dsimp only
  rw [h]
  rfl

/-- A slice with no event waiting delivers none. -/
theorem State.deliverAsync_none {s : State} {n : Nat} (h : (s.slice n).asyncs = []) : s.deliverAsync n = s := by
  unfold State.deliverAsync
  dsimp only
  rw [h]
  cases (s.slice n).aers <;> rfl

/-! ### Features -/

/-- A feature that is set, and needs no wake, changes the slice's features and completes. -/
theorem State.setFeatures_row {s : State} {c : CmdId} {a : Adm} {g : Features} {w : Nat} (h : s.awaitsAdmin c 0x09 a)
    (hset : s.setFeature c.slice (natBits a.ent.cdw10.toNat 7 0) a.ent.cdw11.toNat = .ok (g, w))
    (hsave : natBit a.ent.cdw10.toNat 31 = false)
    (hltol : natBits a.ent.cdw10.toNat 7 0 ≠ 0xC0 ∨ g.ltol = (s.slice c.slice).feats.ltol) :
    exec (.setFeatures c) s = .next
      ((s.modSlice c.slice (fun x => { x with feats := g })).finish c .success (BitVec.ofNat 32 w)) := by
  refine (onAdmin_row h _).trans (congrArg Host.Outcome.next ?_)
  dsimp only
  rw [hset]
  dsimp only
  rw [if_neg (by simp [hsave]), if_neg (by simpa using fun e => hltol.resolve_left fun h => h e)]

/-- A feature that is read completes with its value. -/
theorem State.getFeatures_row {s : State} {c : CmdId} {a : Adm} {w : Nat} (h : s.awaitsAdmin c 0x0A a)
    (hget : s.getFeature c.slice (natBits a.ent.cdw10.toNat 7 0) a.ent.cdw11.toNat = .ok w) :
    exec (.getFeatures c) s = .next (s.finish c .success (BitVec.ofNat 32 w)) := by
  refine (onAdmin_row h _).trans (congrArg Host.Outcome.next ?_)
  rw [hget]

/-! ### Namespaces -/

/-- A namespace identifier that is not the broadcast names its namespace. -/
theorem State.nsNamed_one {x : Slice} {nsid : Nat} {ns : Ns} (hne : nsid ≠ 0xFFFFFFFF) (h : tget x.nss nsid = some ns) :
    State.nsNamed x nsid = [nsid] := by
  unfold State.nsNamed
  rw [if_neg hne, if_pos (by simp [h])]

/-- A command that clears one namespace waits for the trims it journals, and acts at once where there are none. -/
theorem State.trimBegin_one {s : State} {c : CmdId} {nsid : Nat} {ns : Ns} {f : State → State}
    (h : tget (s.slice c.slice).nss nsid = some ns) :
    s.trimBegin c [nsid] f = if s.trimEnts ns = [] then f s
      else (s.trimJournal (s.trimEnts ns)).modAdm c (fun b => { b with
        started := true, jwait := some ((s.trimJournal (s.trimEnts ns)).ftl.jnext - 1) }) := by
  unfold State.trimBegin
  simp only [List.flatMap_cons, List.flatMap_nil, List.append_nil, h]

/-- A namespace that is deleted leaves its slice with what the buffer held of it before. -/
theorem State.deleteEnd_one {s : State} {c : CmdId} {a : Adm} {ns : Ns} (hne : a.ent.nsid ≠ 0xFFFFFFFF)
    (h : tget (s.slice c.slice).nss a.ent.nsid = some ns) :
    s.deleteEnd c a = (s.modSlice c.slice (fun x => { x with
      entries := x.entries.filter (fun e => decide (e.nsid ≠ a.ent.nsid) || !e.stamp.before a.stamp)
      nss := tdel x.nss a.ent.nsid })).finish c .success := by
  unfold State.deleteEnd
  rw [State.nsNamed_one hne h]
  refine congrArg (fun t => State.finish t c .success) ?_
  change State.deleteNs _ _ _ _ = _
  exact State.modSlice_modSlice _ _ _ _

/-- A namespace that is formatted takes its new format, and what the buffer held of it before is gone. -/
theorem State.formatNs_one {s : State} {n : Nat} {st : Stamp} {lbaf dps nsid : Nat} {ns : Ns}
    (h : tget (s.slice n).nss nsid = some ns) :
    s.formatNs n st lbaf dps nsid = s.modSlice n (fun x => { x with
      entries := x.entries.filter (fun e => decide (e.nsid ≠ nsid) || !e.stamp.before st)
      nss := tset x.nss nsid { ns with
        lbaf := lbaf, dps := dps, nsze := ns.nsze * lbaData ns.lbaf / lbaData lbaf } }) := by
  unfold State.formatNs
  rw [h]
  exact State.modSlice_modSlice _ _ _ _

theorem State.formatEnd_one {s : State} {c : CmdId} {a : Adm} {ns : Ns} (hne : a.ent.nsid ≠ 0xFFFFFFFF)
    (h : tget (s.slice c.slice).nss a.ent.nsid = some ns) :
    s.formatEnd c a = (s.modSlice c.slice (fun x => { x with
      entries := x.entries.filter (fun e => decide (e.nsid ≠ a.ent.nsid) || !e.stamp.before a.stamp)
      nss := tset x.nss a.ent.nsid { ns with
        lbaf := natBits a.ent.cdw10.toNat 3 0
        dps := natBits a.ent.cdw10.toNat 7 5 + flagAt (natBit a.ent.cdw10.toNat 8) 3
        nsze := ns.nsze * lbaData ns.lbaf / lbaData (natBits a.ent.cdw10.toNat 3 0) } })).finish c .success := by
  unfold State.formatEnd
  rw [State.nsNamed_one hne h]
  exact congrArg (fun t => State.finish t c .success) (State.formatNs_one h)

/-- A namespace whose fields are in range takes the lowest free identifier and run of units. -/
theorem State.createNs_of {s : State} {c : CmdId} {d : NsCreate} {i u : Nat} (hnsze : d.nsze ≠ 0) (hlbaf : d.lbaf ≤ 4)
    (hdps : d.dps ≤ 15) (htype : d.dps % 8 ≤ 3) (hne : d.dps % 8 ≠ 2) (hmeta : d.dps % 8 = 0 ∨ 2 ≤ d.lbaf)
    (hid : (List.range (s.slice c.slice).nsMax).find? (fun i => (tget (s.slice c.slice).nss (i + 1)).isNone) = some i)
    (hplace : s.placeNs (State.nsUnits { nsze := d.nsze, lbaf := d.lbaf, dps := d.dps, firstUnit := 0 }) = some u) :
    s.createNs c d = (s.modSlice c.slice (fun x => { x with
      nss := tset x.nss (i + 1) { nsze := d.nsze, lbaf := d.lbaf, dps := d.dps, firstUnit := u } })).finish
        c .success (BitVec.ofNat 32 (i + 1)) := by
  unfold State.createNs
  dsimp only
  rw [if_neg hnsze, if_neg (by omega), if_neg ?_, hid, hplace]
  simp only [Bool.or_eq_true, Bool.and_eq_true, decide_eq_true_eq]
  omega

/-- Settles O48: each clause takes the branch of its command that the fields select. -/
theorem queueFeatureAndNamespaceCommands : Obligations.QueueFeatureAndNamespaceCommands := by
  unfold Obligations.QueueFeatureAndNamespaceCommands
  refine ⟨?_, ?_, ?_, ?_, ?_, ?_, ?_, ?_, ?_, ?_, ?_, ?_, ?_, ?_, ?_, ?_, ?_, ?_⟩
  case refine_1 =>
    rintro s c a h qid size cqid base rfl rfl rfl rfl hent hqid hsize hpc hcqid hcq hplace
    refine (onAdmin_row h _).trans (congrArg Host.Outcome.next ?_)
    dsimp only
    have hnone : (tget (s.slice c.slice).cqs (natBits a.ent.cdw11.toNat 31 16)).isNone = false := by
      rw [← Option.not_isSome, hcq]; rfl
    rw [if_neg hent, if_neg (by simp [hqid]), if_neg hsize, if_neg (by simp [hpc]), if_neg (by simp [hcqid, hnone]),
      if_neg (by simp [hplace])]
    rfl
  case refine_2 =>
    rintro s c a h qid size iv base rfl rfl rfl rfl hent hqid hsize hpc hiv hbar
    refine (onAdmin_row h _).trans (congrArg Host.Outcome.next ?_)
    dsimp only
    rw [if_neg hent, if_neg (by simp [hqid]), if_neg hsize, if_neg (by simp [hpc]), if_neg (by omega),
      if_neg (by simp [hbar])]
    rfl
  case refine_3 =>
    rintro s c a h qid q rfl hqid hq
    refine (onAdmin_row h _).trans (congrArg Host.Outcome.next ?_)
    dsimp only
    rw [hq]
    dsimp only
    rw [if_neg hqid]
    rfl
  case refine_4 =>
    rintro s c a h qid rfl hqid hq
    refine (onAdmin_row h _).trans (congrArg Host.Outcome.next ?_)
    have hnone : (tget (s.slice c.slice).cqs (natBits a.ent.cdw10.toNat 15 0)).isNone = false := by
      rw [← Option.not_isSome, hq]; rfl
    dsimp only
    rw [if_neg (by simp [hqid, hnone])]
    rfl
  case refine_5 =>
    intro s c a h hfew
    refine ⟨_, (onAdmin_row h _).trans (congrArg Host.Outcome.next (if_neg (Nat.not_le.2 hfew))), ?_, ?_⟩
    · unfold State.modAdm
      rw [State.modSlice_modSlice, State.slice_modSlice]
    · unfold State.modAdm
      rw [State.modSlice_modSlice, State.slice_modSlice]
  case refine_6 =>
    intro s c a h hmany
    exact (onAdmin_row h _).trans (congrArg Host.Outcome.next (if_pos hmany))
  case refine_7 =>
    intro s c a h hasync
    refine (onAdmin_row h _).trans (congrArg Host.Outcome.next ?_)
    dsimp only
    rw [State.deliverAsync_none (by rw [State.slice_modSlice]; exact hasync)]
    rfl
  case refine_8 =>
    rintro s c a h lid len off rfl rfl rfl
    refine ⟨fun hl t ht => ?_, fun hl t ht => ?_, fun hl t ht => ?_, fun hl => ?_⟩
    · exact (onAdmin_row h _).trans (congrArg Host.Outcome.next ((if_pos hl).trans (State.respond_moves ht)))
    · have h2 : natBits a.ent.cdw10.toNat 7 0 ≠ 2 := fun e => by rw [e] at hl; exact absurd hl (by decide)
      have h5 : natBits a.ent.cdw10.toNat 7 0 ≠ 5 := fun e => by rw [e] at hl; exact absurd hl (by decide)
      refine (onAdmin_row h _).trans (congrArg Host.Outcome.next ?_)
      dsimp only
      rw [if_neg h2, if_pos (by simpa [h5] using hl), if_neg h5]
      exact State.respond_moves ht
    · refine (onAdmin_row h _).trans (congrArg Host.Outcome.next ?_)
      dsimp only
      rw [if_neg (by omega), if_pos (by simp [hl]), if_pos hl, hl]
      exact State.respond_moves ht
    · simp only [List.mem_cons, List.not_mem_nil, or_false, not_or] at hl
      obtain ⟨h1, h2, h3, h5⟩ := hl
      exact (onAdmin_row h _).trans (congrArg Host.Outcome.next ((if_neg h2).trans (if_neg (by simp [h1, h3, h5]))))
  case refine_9 =>
    rintro s c a h cns rfl
    have hrow := onAdmin_row h
    refine ⟨fun hc t ht => ?_, fun hc t ht => ?_, fun hc ns hns hat t ht => ?_, fun hc hns hid t ht => ?_,
      fun hc hns t ht => ?_, fun hc => ?_⟩
    · exact (hrow _).trans (congrArg Host.Outcome.next ((if_pos hc).trans (State.respond_moves ht)))
    · refine (hrow _).trans (congrArg Host.Outcome.next ?_)
      dsimp only
      rw [if_neg (by omega), if_pos hc]
      exact State.respond_moves ht
    · refine (hrow _).trans (congrArg Host.Outcome.next ?_)
      dsimp only
      rw [if_neg (by omega), if_neg (by omega), if_pos hc, hns]
      dsimp only
      rw [if_pos hat]
      exact State.respond_moves ht
    · refine (hrow _).trans (congrArg Host.Outcome.next ?_)
      dsimp only
      rw [if_neg (by omega), if_neg (by omega), if_pos hc, hns]
      dsimp only
      rw [if_pos hid]
      exact State.respond_moves ht
    · obtain ⟨ns, hns⟩ := Option.isSome_iff_exists.1 hns
      refine (hrow _).trans (congrArg Host.Outcome.next ?_)
      dsimp only
      rw [if_neg (by omega), if_neg (by omega), if_neg (by omega), if_pos hc, hns]
      exact State.respond_moves ht
    · refine (hrow _).trans (congrArg Host.Outcome.next ?_)
      dsimp only
      rw [if_neg (by omega), if_neg (by omega), if_neg (by omega), if_neg (by omega)]
  case refine_10 =>
    rintro s c a h f rfl hfid hsave sq cq m n rfl rfl hnone hsq hcq rfl rfl
    refine State.setFeatures_row h ?_ hsave (.inl (by omega))
    rw [hfid]
    change (if (s.slice c.slice).feats.sqAlloc.isSome then _ else _) = _
    rw [if_neg (by simp [hnone]), if_neg (by simp [hsq, hcq])]
  case refine_11 =>
    rintro s c a h f rfl hfid hsave hres
    refine State.setFeatures_row h ?_ hsave (.inl (by omega))
    rw [hfid]
    refine if_neg ?_
    change ¬ decide (natBits a.ent.cdw11.toNat 31 16 ≠ 0) = true
    simp [hres]
  case refine_12 =>
    rintro s c a h f rfl hfid hsave hsame
    refine (State.setFeatures_row (w := 0) h (g := { (s.slice c.slice).feats with ltol := a.ent.cdw11 }) ?_ hsave
      (.inr hsame.symm)).trans rfl
    rw [hfid]
    change Except.ok _ = _
    rw [BitVec.ofNat_toNat, BitVec.setWidth_eq]
  case refine_13 =>
    rintro s c a h f rfl hfid hsave hres
    refine State.setFeatures_row h ?_ hsave (.inl (by omega))
    rw [hfid]
    exact if_neg (by simp [hres])
  case refine_14 =>
    rintro s c a h f rfl fid rfl
    refine ⟨fun hfid => ?_, fun hfid => ?_, fun hfid => ?_, fun hfid => ?_⟩
    · exact State.getFeatures_row h (by rw [hfid]; rfl)
    · exact State.getFeatures_row h (by rw [hfid]; rfl)
    · refine (State.getFeatures_row (w := (s.slice c.slice).feats.ltol.toNat) h (by rw [hfid]; rfl)).trans ?_
      rw [BitVec.ofNat_toNat, BitVec.setWidth_eq]
    · refine (State.getFeatures_row (w := flagAt (s.slice c.slice).feats.stampRep 0) h (by rw [hfid]; rfl)).trans ?_
      cases (s.slice c.slice).feats.stampRep <;> rfl
  case refine_15 =>
    rintro s c a h d ns i u hsel hnsze hlbaf hdps htype hne hmeta rfl hid hplace
    refine (onAdmin_row h _).trans (congrArg Host.Outcome.next ?_)
    dsimp only
    rw [if_pos hsel]
    exact State.createNs_of hnsze hlbaf hdps htype hne hmeta hid hplace
  case refine_16 =>
    intro s c a h d ns hsel hne hns hsettled
    refine (onAdmin_row h _).trans (congrArg Host.Outcome.next ?_)
    dsimp only
    rw [if_neg (by omega), if_pos hsel, State.nsNamed_one hne hns, if_neg (List.cons_ne_nil _ _), if_pos hsettled,
      State.trimBegin_one hns, State.deleteEnd_one hne hns]
  case refine_17 =>
    intro s c a h ns hns
    refine ⟨fun hsel hat => ?_, fun hsel hat => ?_⟩
    · refine (onAdmin_row h _).trans (congrArg Host.Outcome.next ?_)
      dsimp only
      rw [hns]
      dsimp only
      rw [if_neg (by omega), if_neg (fun e => e rfl), if_pos hsel, if_neg (by simp [hat])]
      rfl
    · refine (onAdmin_row h _).trans (congrArg Host.Outcome.next ?_)
      dsimp only
      rw [hns]
      dsimp only
      rw [if_neg (by omega), if_neg (fun e => e rfl), if_neg (by omega), if_pos hat]
      rfl
  case refine_18 =>
    rintro s c a h ns lbaf pi rfl rfl hlbaf hpi hne hmeta hses hmd hnsid hns hsettled
    refine (onAdmin_row h _).trans (congrArg Host.Outcome.next ?_)
    dsimp only
    rw [if_neg (by omega), if_neg ?_, if_neg ?_, State.nsNamed_one hnsid hns, if_neg (List.cons_ne_nil _ _),
      if_pos hsettled, State.trimBegin_one hns, State.formatEnd_one hnsid hns]
    · rfl
    · simpa using fun e => hmd.resolve_left e
    · simp only [Bool.or_eq_true, Bool.and_eq_true, decide_eq_true_eq]
      omega

end Sys2Proof.Machine


/-! # Sanitize, key delivery, attestation, enrolment and alarms (O49) -/

namespace Sys2Proof.Machine

/-- A transfer to the device that moves now gives its command the state after it. -/
theorem State.arrive_moves {s t : State} {c : CmdId} {rs : List (Nat × Nat)} (f : State → State)
    (h : s.moveData c false rs = (t, true)) : s.arrive c rs f = f t := by
  unfold State.arrive
  dsimp only
  rw [h]
  rfl

/-! ### Key Delivery (R757 to R760) -/

/-- A delivery whose fields are in range and whose payload moves is checked on the payload. -/
theorem State.keyDelivery_moves {s t : State} {c : CmdId} {a : Adm} {d : Bytes} (h : s.awaitsAdmin c 0xC1 a)
    (hnsid : a.ent.nsid = 0) (h10 : a.ent.cdw10 = 0) (h12 : a.ent.cdw12 = 0) (h13 : a.ent.cdw13 = 0)
    (h14 : a.ent.cdw14 = 0) (h15 : a.ent.cdw15 = 0) (hlo : 1744 ≤ a.ent.cdw11.toNat) (hhi : a.ent.cdw11.toNat ≤ 2944)
    (hmove : s.moveData c false a.ent.dptr.ranges = (t, true))
    (hlen : a.ent.cdw11.toNat = 1664 + 80 * leAt (padTo a.ent.cdw11.toNat (t.gather c.slice a.ent.dptr.ranges d)) 6 2)
    (hgood : t.deliveryBad c.slice (padTo a.ent.cdw11.toNat (t.gather c.slice a.ent.dptr.ranges d)) = none) :
    exec (.keyDelivery c (.ok d)) s = .next (
      if leAt (padTo a.ent.cdw11.toNat (t.gather c.slice a.ent.dptr.ranges d)) 0x18 8 ≠ (t.keysOf c.slice).seq then
        t.finish c (.vendor 0x8D) (BitVec.ofNat 32 (t.keysOf c.slice).seq)
          (BitVec.ofNat 32 ((t.keysOf c.slice).seq / 2 ^ 32))
      else State.setKst (t.modAdm c (fun a => { a with started := true })) { t.kst with
        jobs := t.kst.jobs ++ [.decap c (padTo a.ent.cdw11.toNat (t.gather c.slice a.ent.dptr.ranges d))] }) := by
  refine (onAdmin_row h _).trans (congrArg Host.Outcome.next ?_)
  dsimp only
  rw [if_neg (by simp [hnsid, h10, h12, h13, h14, h15]; omega), State.arrive_moves _ hmove, if_neg (not_not_intro hlen), hgood]

/-! ### Key changes (R746, R749, R751) -/

theorem State.keysOf_modKeys (s : State) (n : Nat) (f : SliceKeys → SliceKeys) :
    (s.modKeys n f).keysOf n = f (s.keysOf n) := tgetD_tset_same _ _ _ _

/-- The keys of every slice and the count of installs. -/
def State.keyView (s : State) : Tab SliceKeys × Nat := (s.sliceKeys, s.kst.installs)

theorem State.keysOf_of_view {s t : State} (h : s.keyView = t.keyView) (n : Nat) : s.keysOf n = t.keysOf n :=
  congrArg (fun v : Tab SliceKeys × Nat => tgetD v.1 n {}) h

theorem State.installs_of_view {s t : State} (h : s.keyView = t.keyView) : s.kst.installs = t.kst.installs :=
  congrArg Prod.snd h

theorem State.sysChoose_keyView (s : State) : s.sysChoose.2.keyView = s.keyView := by
  unfold State.sysChoose
  split <;> rfl

theorem State.finish_keyView (s : State) (c : CmdId) (st : Status) (w0 w1 : BitVec 32) :
    (s.finish c st w0 w1).keyView = s.keyView := by
  have h := congrArg State.keyView (State.finishAt_butSlices s c st w0 w1 (s.stride + 1))
  exact h

theorem State.if_keyView {b : Prop} [Decidable b] {s t : State} (h : t.keyView = s.keyView) :
    (if b then t else s).keyView = s.keyView := by
  split
  · exact h
  · rfl

/-- An installed key stands in its slot, with the copies its record takes, and counts. -/
theorem State.installKey_keyView (s : State) (n slot : Nat) (k : NewKey) :
    (s.installKey n slot k).keyView = (tset s.sliceKeys n { s.keysOf n with
      keys := tset (s.keysOf n).keys slot { k.installed s.kst.installs with copies := s.sysChoose.1 } },
      min lastInstall (s.kst.installs + 1)) := by
  have hview := s.sysChoose_keyView
  have hkeys := State.keysOf_of_view hview n
  have hin := State.installs_of_view hview
  have htab : s.sysChoose.2.sliceKeys = s.sliceKeys := congrArg Prod.fst hview
  unfold State.installKey
  dsimp only
  rw [State.if_keyView (by rfl), State.if_keyView (by rfl)]
  refine Prod.ext ?_ ?_
  · change tset s.sysChoose.2.sliceKeys n { s.sysChoose.2.keysOf n with
      keys := tset (s.sysChoose.2.keysOf n).keys slot _ } = _
    rw [hkeys, htab]
  · exact congrArg (fun i => min lastInstall (i + 1)) hin

theorem State.sliceLog_keys (s : State) (n type : Nat) (aux body : Bytes) :
    ((s.sliceLog n type aux body).keysOf n).keys = (s.keysOf n).keys ∧
    ((s.sliceLog n type aux body).keysOf n).seq = (s.keysOf n).seq := by
  unfold State.sliceLog
  rw [State.keysOf_modKeys]
  exact ⟨rfl, rfl⟩

/-- A key change that nothing holds: with no delivery it completes with its INSTALL_ID. -/
theorem State.keyChangeEffect_plain {s : State} {id : Nat} {k : KeyChange}
    (hk : s.kst.changes.find? (fun k => k.id = id) = some k) (hadm : (s.adm? k.cmd).isSome = true)
    (hwaits : s.changeWaits k = false) (harea : s.systemAreaWritable = true) (hdel : k.delivery = none) :
    s.keyChangeEffect id = State.finish (State.setKst (s.applyChange k.slice k.ents) {
        (s.applyChange k.slice k.ents).kst with
          changes := (s.applyChange k.slice k.ents).kst.changes.filter (fun x => decide (x.id ≠ id)) })
      k.cmd .success (BitVec.ofNat 32 (min s.kst.installs lastInstall)) := by
  unfold State.keyChangeEffect
  rw [hk]
  dsimp only
  rw [if_neg (by rw [← Option.not_isSome, hadm]; decide), if_neg (by rw [hwaits, harea]; decide), hdel]

/-- The keys after a key change that nothing holds: those of its slots, and one more delivery where it is one. -/
theorem State.keyChangeEffect_keys {s : State} {id : Nat} {k : KeyChange}
    (hk : s.kst.changes.find? (fun k => k.id = id) = some k) (hadm : (s.adm? k.cmd).isSome = true)
    (hwaits : s.changeWaits k = false) (harea : s.systemAreaWritable = true) :
    ((s.keyChangeEffect id).keysOf k.slice).keys = ((s.applyChange k.slice k.ents).keysOf k.slice).keys ∧
    (s.keyChangeEffect id).kst.installs = (s.applyChange k.slice k.ents).kst.installs ∧
    ((s.keyChangeEffect id).keysOf k.slice).seq =
      ((s.applyChange k.slice k.ents).keysOf k.slice).seq + (if k.delivery.isSome then 1 else 0) := by
  cases hdel : k.delivery with
  | none =>
    rw [State.keyChangeEffect_plain hk hadm hwaits harea hdel]
    have hview := State.finish_keyView (State.setKst (s.applyChange k.slice k.ents) {
      (s.applyChange k.slice k.ents).kst with
        changes := (s.applyChange k.slice k.ents).kst.changes.filter (fun x => decide (x.id ≠ id)) })
      k.cmd .success (BitVec.ofNat 32 (min s.kst.installs lastInstall)) 0
    rw [State.keysOf_of_view hview, State.installs_of_view hview]
    exact ⟨rfl, rfl, rfl⟩
  | some hdr =>
    unfold State.keyChangeEffect
    rw [hk]
    dsimp only
    rw [if_neg (by rw [← Option.not_isSome, hadm]; decide), if_neg (by rw [hwaits, harea]; decide), hdel]
    dsimp only
    rw [State.keysOf_of_view (State.finish_keyView _ _ _ _ _), State.installs_of_view (State.finish_keyView _ _ _ _ _)]
    generalize s.applyChange k.slice k.ents = t
    refine ⟨?_, rfl, ?_⟩
    · refine (State.sliceLog_keys _ _ _ _ _).1.trans ?_
      rw [State.keysOf_modKeys]
      rfl
    · refine (State.sliceLog_keys _ _ _ _ _).2.trans ?_
      rw [State.keysOf_modKeys]
      rfl

/-! ### Sanitize (R268, R411) -/

/-- An erase of namespaces that have settled journals its trims. -/
theorem State.sanitize_settled {s : State} {c : CmdId} {a : Adm}
    (h : s.awaitsAdmin c 0x84 a) (hlist : natBits a.ent.cdw10.toNat 2 0 = 2 ∨ natBits a.ent.cdw10.toNat 2 0 = 4)
    (hsettled : s.ioSettled c.slice ((s.slice c.slice).nss.map Prod.fst) a.stamp = true) :
    exec (.sanitize c) s = .next (s.trimBegin c ((s.slice c.slice).nss.map Prod.fst) (fun s => s.sanitizeEnd c a)) := by
  refine (onAdmin_row h _).trans (congrArg Host.Outcome.next ?_)
  dsimp only
  rw [if_neg (by omega), if_neg (by simp; omega), if_pos hsettled]

/-- The slice's namespaces leave the buffer, and a crypto erase destroys the media key. -/
theorem State.sanitizeEnd_erases {s : State} {c : CmdId} {a : Adm} (h : natBits a.ent.cdw10.toNat 2 0 = 4) :
    s.sanitizeEnd c a = State.finish ((State.eraseKey
      ((s.slice c.slice).nss.foldl (fun s p => s.dropNsEntries c.slice p.1 a.stamp) s) c.slice 0).modKeys c.slice
        (fun x => { x with incarnation := x.incarnation + 1 })) c .success :=
  congrArg (fun t => State.finish t c .success) (if_pos h)

theorem State.sanitizeEnd_drops {s : State} {c : CmdId} {a : Adm} (h : natBits a.ent.cdw10.toNat 2 0 ≠ 4) :
    s.sanitizeEnd c a = State.finish
      ((s.slice c.slice).nss.foldl (fun s p => s.dropNsEntries c.slice p.1 a.stamp) s) c .success :=
  congrArg (fun t => State.finish t c .success) (if_neg h)

/-! ### The end of a job of the public-key unit (R781, R785, R795) -/

/-- A job that is neither a key generation nor the course's ends as its command says. -/
theorem State.pkJobEnd_enrol {s : State} {bs : Bytes} (h : s.kst.state = .ready) (hcur : s.pkCurrent = some (.enrol bs)) :
    s.pkJobEnd = (s.setKst { s.kst with jobs := s.kst.jobs.filter (fun x => decide (x ≠ .enrol bs)) }).enrolDone bs := by
  unfold State.pkJobEnd
  rw [hcur]
  unfold State.pkComplete
  dsimp only
  rw [if_neg (by simp [h]), hcur]

theorem State.pkJobEnd_sign {s : State} {c : CmdId} {body : Bytes} (h : s.kst.state = .ready)
    (hcur : s.pkCurrent = some (.sign c (some body))) :
    s.pkJobEnd = (s.setKst { s.kst with
      jobs := s.kst.jobs.filter (fun x => decide (x ≠ .sign c (some body))) }).reportSigned c body := by
  unfold State.pkJobEnd
  rw [hcur]
  unfold State.pkComplete
  dsimp only
  rw [if_neg (by simp [h]), hcur]

/-- A signed report whose data moves is delivered with its length. -/
theorem State.reportSigned_moves {s u : State} {c : CmdId} {a : Adm} {body : Bytes} (ha : s.adm? c = some a)
    (hmove : State.moveData (s.ev 0x0A02 c.slice) c true
      (cutRanges a.ent.dptr.ranges (body ++ padTo 49856 (Config.slhSign body)).length) = (u, true)) :
    s.reportSigned c body = (u.deliver c.slice a.ent.dptr.ranges (body ++ padTo 49856 (Config.slhSign body))).finish
      c .success (BitVec.ofNat 32 (body ++ padTo 49856 (Config.slhSign body)).length) := by
  unfold State.reportSigned
  rw [ha]
  exact State.respond_moves hmove

/-- An enrolment whose record is good blows the fuse of its slot. -/
theorem State.enrolDone_ok {s : State} {bs : Bytes} {slot : Nat} (h : s.enrolCheck bs = .ok slot) :
    (s.enrolDone bs).kst.enrolBusy = false ∧ (s.enrolDone bs).kst.enrolResult = 0 ∧
    (s.enrolDone bs).kst.jobs = s.kst.jobs ∧
    (s.enrolDone bs).dur.ownerFuses = tset s.dur.ownerFuses slot
      { digest := bytesAt bs 0x10 32, revoked := natBit s.dur.ownerRevoked slot } := by
  unfold State.enrolDone
  rw [h]
  exact ⟨rfl, rfl, rfl, rfl⟩

/-- A job that starts afresh is no signature with its snapshot. -/
theorem pkAnew_ne_sign (j : PkKind) (c : CmdId) (b : Bytes) : pkAnew j ≠ .sign c (some b) := by
  cases j <;> simp [pkAnew]

/-- Settles O49: each command by the check that its fields decide, the key change by the keys it installs and the alarm
by what an alarm leaves. -/
theorem keyAttestationAndSecurityCommands : Obligations.KeyAttestationAndSecurityCommands := by
  unfold Obligations.KeyAttestationAndSecurityCommands
  refine ⟨?_, ?_, ?_, ?_, ?_, ?_, ?_, ?_, ?_, ?_⟩
  case refine_1 =>
    rintro s c a h act rfl
    refine ⟨fun hact => ?_, fun h1 h2 h4 => ?_, ?_⟩
    · exact (onAdmin_row h _).trans (congrArg Host.Outcome.next (if_pos hact))
    · exact (onAdmin_row h _).trans (congrArg Host.Outcome.next ((if_neg h1).trans (if_pos (by simp [h2, h4]))))
    rintro u ents hsettled hents rfl
    have hbegin (f : State → State) : s.trimBegin c ((s.slice c.slice).nss.map Prod.fst) f = if ents = [] then f s else
        (s.trimJournal ents).modAdm c (fun b => { b with
          started := true, jwait := some ((s.trimJournal ents).ftl.jnext - 1) }) := by
      subst hents
      rfl
    refine ⟨fun hnil hact => ?_, fun hnil hact => ?_, fun hne hact => ?_⟩
    · rw [State.sanitize_settled h (.inl hact) hsettled, hbegin, if_pos hnil, State.sanitizeEnd_drops (by omega)]
    · rw [State.sanitize_settled h (.inr hact) hsettled, hbegin, if_pos hnil, State.sanitizeEnd_erases hact]
    · rw [State.sanitize_settled h hact hsettled, hbegin, if_neg hne]
  case refine_2 =>
    rintro s c a h t len d bs rfl hnsid h10 h12 h13 h14 h15 hlo hhi hmove rfl hlen hgood hseq
    rw [State.keyDelivery_moves h hnsid h10 h12 h13 h14 h15 hlo hhi hmove hlen hgood, if_neg (not_not_intro hseq)]
  case refine_3 =>
    rintro s c a h t len d bs rfl hnsid h10 h12 h13 h14 h15 hlo hhi hmove rfl hlen hgood hseq
    rw [State.keyDelivery_moves h hnsid h10 h12 h13 h14 h15 hlo hhi hmove hlen hgood, if_pos hseq]
  case refine_4 =>
    intro s c a h hnsid hsel
    exact (onAdmin_row h _).trans (congrArg Host.Outcome.next (if_neg (by simp [hnsid, hsel])))
  case refine_5 =>
    intro s id k hk hadm hwaits harea hdel
    exact congrArg Host.Outcome.next (State.keyChangeEffect_plain hk hadm hwaits harea hdel)
  case refine_6 =>
    intro s id slot k key hk hadm hwaits harea hents
    obtain ⟨hkeys, hin, hseq⟩ := State.keyChangeEffect_keys hk hadm hwaits harea
    have hchange : s.applyChange k.slice k.ents = s.installKey k.slice slot key := by rw [hents]; rfl
    have hview := s.installKey_keyView k.slice slot key
    have hkeysOf : (s.installKey k.slice slot key).keysOf k.slice = { s.keysOf k.slice with
        keys := tset (s.keysOf k.slice).keys slot { key.installed s.kst.installs with copies := s.sysChoose.1 } } :=
      (congrArg (fun v : Tab SliceKeys × Nat => tgetD v.1 k.slice {}) hview).trans (tgetD_tset_same _ _ _ _)
    rw [hchange] at hkeys hin hseq
    rw [hkeysOf] at hkeys hseq
    exact ⟨_, rfl, hkeys, hin.trans (congrArg Prod.snd hview), hseq⟩
  case refine_7 =>
    rintro s t u c a body bs hready hcur ha rfl rfl hmove
    refine congrArg Host.Outcome.next ((State.pkJobEnd_sign hready hcur).trans ?_)
    exact State.reportSigned_moves (s := s.setKst _) ha hmove
  case refine_8 =>
    intro s bs slot hready hcur hcheck
    refine ⟨_, congrArg Host.Outcome.next (State.pkJobEnd_enrol hready hcur), ?_⟩
    exact State.enrolDone_ok (s := s.setKst _) hcheck
  case refine_9 =>
    intro s q bs k hu hq hbusy
    have hrow (d : Fetch) : exec (.go q d) s = .next (s.enrolGo q d) := byReq_honours hq _
    have hidle (t u : State) : (if s.kst.enrolBusy then t else u) = u := if_neg (by simp [hbusy])
    refine ⟨(hrow _).trans (congrArg Host.Outcome.next ?_), (hrow _).trans (congrArg Host.Outcome.next ?_)⟩
    · exact (State.bar0Write_up hu hq _ _).trans (hidle _ _)
    · exact (State.bar0Write_up hu hq _ _).trans (hidle _ _)
  case refine_10 =>
    intro s src hlo hhi _
    obtain ⟨-, hkst, hcph, hdgs⟩ := s.securityAlarm_spec src
    refine ⟨_, if_pos (by simp [hlo, hhi]), ?_⟩
    rw [hkst, hcph, hdgs]
    refine ⟨rfl, rfl, rfl, rfl, rfl, rfl, rfl, rfl, fun j hj c b => ?_⟩
    obtain ⟨i, -, rfl⟩ := List.mem_map.1 hj
    exact pkAnew_ne_sign i c b

end Sys2Proof.Machine


/-! # Input and output commands (O50) -/

namespace Sys2Proof.Machine

/-- The row of an I/O command that is admitted and has not begun. -/
theorem onIo_row {s : State} {c : CmdId} {opc : Nat} {a : Adm} {ns : Ns} (h : s.awaitsIo c opc a ns)
    (f : Adm → Ns → State) : onSlice c.slice (s.onIo c opc f) = .next (f a ns) :=
  (onSlice_of h.1 _).trans (congrArg Host.Outcome.next (State.onIo_of h f))

/-- A transfer to the device that does not move now waits, or is lost with an uncorrectable word of the CMB. -/
theorem State.arrive_waits {s v : State} {c : CmdId} {rs : List (Nat × Nat)} (f : State → State)
    (h : s.moveData c false rs = (v, false)) :
    s.arrive c rs f = if s.cmbBad c.slice rs then s.cmbLost c rs else v := by
  unfold State.arrive
  dsimp only
  rw [h]
  rfl

/-! ### Entries of the buffer -/

/-- An entry of a command takes the slice's next number, and its command no longer holds its charge. -/
theorem State.addEntry_slice {s : State} {n : Nat} {e : Entry} {c : CmdId} (h : e.cmd = some c) :
    (s.addEntry n e).slice n = { s.slice n with
      nextEntry := (s.slice n).nextEntry + 1, entries := (s.slice n).entries ++ [{ e with id := (s.slice n).nextEntry }]
      adms := (s.slice n).adms.map (fun b => if b.id = c then { b with charge := 0, started := true } else b) } := by
  unfold State.addEntry
  rw [State.slice_modSlice, h]
  have hfresh (g : Nat → Bool) : (s.freshWords g).slice n = s.slice n :=
    congrArg (fun l : Tab Slice => tgetD l n {}) (State.freshWords_slices s g)
  rw [hfresh]

/-- Counting the units written leaves the slice's entries and commands. -/
theorem State.unitsWritten_slice (s : State) (n bytes : Nat) :
    ((s.unitsWritten n bytes).slice n).entries = (s.slice n).entries ∧
    ((s.unitsWritten n bytes).slice n).adms = (s.slice n).adms ∧
    ((s.unitsWritten n bytes).slice n).smart.unitsWritten = (s.slice n).smart.unitsWritten + bytes / 512 := by
  unfold State.unitsWritten
  rw [State.slice_modSlice]
  exact ⟨rfl, rfl, rfl⟩

/-! ### Reads (R224, R266, R269) -/

/-- A read's command once its first unit has begun, with the outcome of the check of its blocks. -/
def Adm.reading (a : Adm) (stage : Bool) : Except Status (List BlockData) → Adm
  | .error st => { a with stage := stage, started := true, bad := some st }
  | .ok bs => { a with stage := stage, started := true, bufs := bs }

/-- A read whose blocks are all to be had waits for its flash reads, and ends at once where it needs none. -/
theorem State.readBegin_all {s : State} {c : CmdId} {a : Adm} {ns : Ns}
    {check : List BlockData → Except Status (List BlockData)} {fs : List State.Fate}
    (hfs : fs = (List.range (State.nlbOf a.ent)).map (fun i =>
      s.fate c.slice a.ent.nsid ns a.stamp (State.slbaOf a.ent + i)))
    (hall : fs.all (fun f => f.block.isSome && !f.isReserved) = true) {r : Except Status (List BlockData)}
    (hcheck : check (fs.filterMap State.Fate.block) = r) :
    s.readBegin c a ns check = if (fs.filterMap State.Fate.addr).eraseDups = [] then
        (s.modAdm c (fun _ => { a.reading (fs.any (fun f => f.addr.isNone)) r with waits := 0 })).readEnd c
          (a.reading (fs.any (fun f => f.addr.isNone)) r) ns
      else (s.modAdm c (fun _ => { a.reading (fs.any (fun f => f.addr.isNone)) r with
        waits := (fs.filterMap State.Fate.addr).eraseDups.length })).issueReads c
          (fs.filterMap State.Fate.addr).eraseDups := by
  have hblock : fs.any (fun f => f.block.isNone) = false := by
    rw [List.any_eq_false]
    intro f hf
    have hgood := List.all_eq_true.1 hall f hf
    rw [Bool.and_eq_true] at hgood
    simp [Option.isSome_iff_ne_none.1 hgood.1]
  have hres : fs.any State.Fate.isReserved = false := by
    rw [List.any_eq_false]
    intro f hf
    have hgood := List.all_eq_true.1 hall f hf
    rw [Bool.and_eq_true] at hgood
    simpa using hgood.2
  have hev : (if fs.any State.Fate.isReserved then s.ev 0x1502 noSlice else s) = s := if_neg (by rw [hres]; decide)
  unfold State.readBegin
  dsimp only
  rw [← hfs, if_neg (by rw [hblock]; decide), hev, hcheck]
  by_cases hnil : (fs.filterMap State.Fate.addr).eraseDups = []
  · rw [if_pos hnil, if_neg (by rw [hnil]; decide), hnil]
    cases r <;> rfl
  · rw [if_neg hnil, if_pos (by simpa using hnil)]
    cases r <;> rfl

/-- A read that has no fault of its own counts its units. -/
theorem State.readEnd_good {s : State} {c : CmdId} {a : Adm} {ns : Ns} (h : a.bad = none) :
    s.readEnd c a ns = if a.ent.opc = 0x02 then
        (s.unitsRead c.slice (State.nlbOf a.ent * lbaData ns.lbaf)).respond c
          { ranges := a.ent.dptr.ranges, data := State.blocksBytes a.bufs }
      else (s.unitsRead c.slice (State.nlbOf a.ent * lbaData ns.lbaf)).finish c .success := by
  unfold State.readEnd
  rw [h]

theorem State.readEnd_bad {s : State} {c : CmdId} {a : Adm} {ns : Ns} {st : Status} (h : a.bad = some st) :
    s.readEnd c a ns = s.finish c st := by
  unfold State.readEnd
  rw [h]

/-! ### Posts (R281, R282, R284) -/

/-- The entry of a command's data, with its units counted. -/
theorem State.addEntry_units {s : State} {n k : Nat} {e : Entry} {c : CmdId} (h : e.cmd = some c) :
    (((s.addEntry n e).unitsWritten n k).slice n).entries =
      (s.slice n).entries ++ [{ e with id := (s.slice n).nextEntry }] ∧
    (((s.addEntry n e).unitsWritten n k).slice n).adms =
      (s.slice n).adms.map (fun b => if b.id = c then { b with charge := 0, started := true } else b) ∧
    (((s.addEntry n e).unitsWritten n k).slice n).smart.unitsWritten = (s.slice n).smart.unitsWritten + k / 512 := by
  obtain ⟨hents, hadms, hunits⟩ := (s.addEntry n e).unitsWritten_slice n k
  rw [hents, hadms, hunits, State.addEntry_slice h]
  exact ⟨rfl, rfl, rfl⟩

/-- A post whose list is good keeps its ranges and goes on. -/
theorem State.postList_good {s : State} {c : CmdId} {a : Adm} {ns : Ns} {list : Bytes} {rs : List (LbaRange × Bool)}
    (f : State → List LbaRange → State) (hnone : a.ranges = none)
    (hrs : rs = (List.range (State.postRanges a.ent)).map (State.rangeEntry list))
    (hchecks : State.postChecks ns a.ent rs = none) :
    s.postList c a ns list f = f (s.modAdm c (fun a => { a with ranges := some (rs.map Prod.fst) })) (rs.map Prod.fst) := by
  subst hrs
  unfold State.postList
  rw [hnone]
  dsimp only
  rw [hchecks]

/-- A post whose data passes its checks makes its one entry. -/
theorem State.postArrive_good {s : State} {c : CmdId} {a : Adm} {ns : Ns} {l : List LbaRange} {bs : Bytes}
    {tb : Tab Content} (h : State.postIngress ns a.ent l
      (splitBlocks (lbaData ns.lbaf) (linkMeta ns a.ent) (State.postTotal a.ent) bs) = .ok tb) :
    ((s.postArrive c a ns l bs).slice c.slice).entries = (s.slice c.slice).entries ++ [{
      id := (s.slice c.slice).nextEntry, nsid := a.ent.nsid, stamp := a.stamp, blocks := tb, charge := a.charge
      wt := s.writeThrough c.slice || a.wt, post := true, paired := State.postPaired a.ent, cmd := some c
      ready := some s.stride, drain := a.drain, ranges := l }] ∧
    ((s.postArrive c a ns l bs).slice c.slice).adms =
      (s.slice c.slice).adms.map (fun b => if b.id = c then { b with charge := 0, started := true } else b) := by
  unfold State.postArrive
  dsimp only
  rw [h]
  obtain ⟨hents, hadms, -⟩ := State.addEntry_units (s := s) (n := c.slice)
    (k := State.postTotal a.ent * lbaData ns.lbaf)
    (e := { s.newEntry c a tb true (State.postPaired a.ent) with ranges := l }) rfl
  exact ⟨hents, hadms⟩

/-! ### Reservations -/

/-- The registrant's key is its key. -/
theorem State.resvKeyOk_of {r : Resv} {e : SqEntry} {d : ResvKeys} (h : r.key = some d.crkey) :
    State.resvKeyOk r e d = true := by
  unfold State.resvKeyOk
  rw [h]
  simp

/-- Settles O50: each command by the branch that its fields, its data and its checks select. -/
theorem inputOutputCommands : Obligations.InputOutputCommands := by
  unfold Obligations.InputOutputCommands
  refine ⟨?_, ?_, ?_, ?_, ?_, ?_, ?_, ?_, ?_, ?_, ?_, ?_, ?_, ?_, ?_, ?_, ?_, ?_, ?_⟩
  case refine_1 =>
    intro s c a ns h hfi v hmove d bs hpi
    refine ⟨_, ((congrArg (fun t => onSlice c.slice (State.ioWrite t c d)) (State.hopFor_quiet hfi c 0)).trans
      (onIo_row h _)).trans (congrArg Host.Outcome.next (State.arrive_moves _ hmove)), ?_⟩
    rw [hpi]
    exact State.addEntry_units rfl
  case refine_2 =>
    intro s c a ns h hfi v hmove d st hpi
    refine ((congrArg (fun t => onSlice c.slice (State.ioWrite t c d)) (State.hopFor_quiet hfi c 0)).trans
      (onIo_row h _)).trans (congrArg Host.Outcome.next ((State.arrive_moves _ hmove).trans ?_))
    rw [hpi]
    rfl
  case refine_3 =>
    intro s c a ns h hfi v d hmove
    exact ((congrArg (fun t => onSlice c.slice (State.ioWrite t c d)) (State.hopFor_quiet hfi c 0)).trans
      (onIo_row h _)).trans (congrArg Host.Outcome.next (State.arrive_waits _ hmove))
  case refine_4 =>
    intro s c a ns h
    refine ⟨_, onIo_row h _, ?_⟩
    rw [State.addEntry_slice (c := c) rfl]
    exact ⟨rfl, rfl⟩
  case refine_5 =>
    intro s c a ns h rs hlen hall
    refine (onIo_row h _).trans (congrArg Host.Outcome.next ?_)
    have hfit : rs.any (fun r => decide (r.count ≠ 0) && decide (ns.nsze < r.slba + r.count)) = false := by
      rw [List.any_eq_false]
      intro r hr
      have hgood := List.all_eq_true.1 hall r hr
      simp only [Bool.or_eq_true, decide_eq_true_eq, Bool.and_eq_true] at hgood ⊢
      omega
    rw [if_neg (not_not_intro hlen), if_neg (by rw [hfit]; decide)]
  case refine_6 =>
    intro s c a r hr
    refine ⟨_, rfl, ?_⟩
    unfold State.deallocate State.deallocate
    dsimp only
    rw [if_neg (by omega), State.addEntry_slice (c := c) rfl]
    rfl
  case refine_7 =>
    intro s c a hc ha hadm hopc
    refine (onSlice_of hc _).trans (congrArg Host.Outcome.next ?_)
    unfold State.ioFlush
    rw [ha]
    exact if_pos (by simp [hadm, hopc])
  case refine_8 =>
    rintro s c a ns h hfi fs hbad hfs hmay hall bs hpi hnil u rfl v hmove
    refine ((congrArg (fun t => onSlice c.slice (State.ioRead t c)) (State.hopFor_quiet hfi c 2)).trans
      (onIo_row h _)).trans (congrArg Host.Outcome.next ((if_pos hmay).trans ?_))
    rw [State.readBegin_all hfs hall hpi, if_pos hnil, State.readEnd_good (by exact hbad)]
    obtain ⟨-, -, -, -, hopc, -⟩ := id h
    exact (if_pos hopc).trans (State.respond_moves hmove)
  case refine_9 =>
    rintro s c a ns h hfi fs hbad hfs hmay hall bs hpi hne
    refine ((congrArg (fun t => onSlice c.slice (State.ioRead t c)) (State.hopFor_quiet hfi c 2)).trans
      (onIo_row h _)).trans (congrArg Host.Outcome.next ((if_pos hmay).trans ?_))
    rw [State.readBegin_all hfs hall hpi, if_neg hne]
    rfl
  case refine_10 =>
    rintro s c a ns h fs hbad hfs hmay hall bs hpi hnil u rfl
    refine (onIo_row h _).trans (congrArg Host.Outcome.next ((if_pos hmay).trans ?_))
    rw [State.readBegin_all hfs hall hpi, if_pos hnil, State.readEnd_good (by exact hbad)]
    obtain ⟨-, -, -, -, hopc, -⟩ := id h
    exact if_neg (fun e => absurd (hopc.symm.trans e) (by decide))
  case refine_11 =>
    rintro s c a ns h hfi w fs hbad hmay hmove hfs hall d bs hpi hnil
    obtain ⟨-, -, -, -, hopc, -⟩ := id h
    have hrow := ((congrArg (fun t => onSlice c.slice (State.ioCompare t c d)) (State.hopFor_quiet hfi c 2)).trans
      (onIo_row h _)).trans (congrArg Host.Outcome.next
        ((if_neg (by simp [hmay])).trans (State.arrive_moves _ hmove)))
    refine ⟨?_, ?_⟩
    · rintro hsame u rfl
      refine hrow.trans (congrArg Host.Outcome.next ?_)
      rw [State.readBegin_all (r := .ok []) hfs hall (by rw [hpi]; exact if_pos hsame), if_pos hnil,
        State.readEnd_good (by exact hbad)]
      exact if_neg (fun e => absurd (hopc.symm.trans e) (by decide))
    · rintro hne u rfl
      refine hrow.trans (congrArg Host.Outcome.next ?_)
      rw [State.readBegin_all (r := .error .compareFailure) hfs hall (by rw [hpi]; exact if_neg hne), if_pos hnil]
      exact State.readEnd_bad rfl
  case refine_12 =>
    intro s c a ns h d hop hkey
    refine (onIo_row h _).trans (congrArg Host.Outcome.next ((if_pos hop).trans ?_))
    rw [hkey]
    rfl
  case refine_13 =>
    intro s c a ns h d hop hkey hlo hhi hheld
    refine (onIo_row h _).trans (congrArg Host.Outcome.next ?_)
    dsimp only
    rw [if_neg (by simp; omega), if_neg (by simp [State.resvKeyOk_of hkey]), if_pos hop, if_neg (by simp [hheld])]
  case refine_14 =>
    intro s c a ns h d hop hkey htype
    refine (onIo_row h _).trans (congrArg Host.Outcome.next ?_)
    dsimp only
    rw [if_neg (by omega), if_neg (by simp [State.resvKeyOk_of hkey]), if_neg (by omega), if_neg (by simp [htype])]
  case refine_15 =>
    rintro s c a ns h v bs rfl hmove
    exact (onIo_row h _).trans (congrArg Host.Outcome.next (State.respond_moves hmove))
  case refine_16 =>
    rintro s c a ns h hlist hdata w v bs rs l tb hnone hbad rfl hrs rfl hchecks rfl hmove htb
    refine ⟨_, (onIo_row h _).trans (congrArg Host.Outcome.next ((if_neg (by simp [hlist, hbad])).trans
      ((if_pos hlist).trans ((State.postList_good _ hnone hrs hchecks).trans
        ((if_pos hdata).trans (State.arrive_moves _ hmove)))))), ?_⟩
    exact State.postArrive_good htb
  case refine_17 =>
    rintro s c a ns h hlist w bs rs hnone hbad rfl hrs hchecks rfl hdata
    exact (onIo_row h _).trans (congrArg Host.Outcome.next ((if_neg (by simp [hlist, hbad])).trans
      ((if_pos hlist).trans ((State.postList_good _ hnone hrs hchecks).trans (if_neg (by simp [hdata]))))))
  case refine_18 =>
    rintro s c a ns h hfi lst d w v bs rs l tb hnone hbad rfl hrs rfl hchecks rfl hmove htb
    refine ⟨_, ((congrArg (fun t => onSlice c.slice (State.ioPostList t c (.ok lst) d))
      (State.hopFor_quiet hfi c 0)).trans (onIo_row h _)).trans (congrArg Host.Outcome.next
        ((if_neg (by simp [hbad])).trans ((State.postList_good _ hnone hrs hchecks).trans
          (State.arrive_moves _ hmove)))), ?_⟩
    exact State.postArrive_good htb
  case refine_19 =>
    intro s c a ns h hfi k d
    exact (congrArg (fun t => onSlice c.slice (State.ioPostList t c (.failAt k) d)) (State.hopFor_quiet hfi c 0)).trans
      (onIo_row h _)

end Sys2Proof.Machine


/-! # Visibility, flushes and journal records (O51) -/

namespace Sys2Proof.Machine

/-- The entry that a command of the buffer names is the one of its number. -/
theorem State.entryById_of {s : State} {n id : Nat} {e : Entry} (h : (s.slice n).entries.find? (fun e => e.id = id) = some e) :
    s.entryById n id = (s.entryVisible n e).mirrorSlice n := by
  unfold State.entryById
  rw [h]

/-- A due entry of a plain write is visible, and its command reaches its completion stage and completes. -/
theorem State.entryVisible_write {s : State} {n : Nat} {e : Entry} {c : CmdId} {a : Adm} (hdue : s.visibleDue e = true)
    (hcmd : e.cmd = some c) (ha : (s.makeVisible n e.id).adm? c = some a) (hdsm : e.dsm = false) (hstage : a.stage = false)
    (hpaired : e.paired = false) (hpost : e.post = false) :
    s.entryVisible n e =
      ((s.makeVisible n e.id).modAdm c (fun a => { a with stage := true })).finishNow c .success := by
  unfold State.entryVisible
  rw [if_pos hdue]
  unfold State.visibleDone
  rw [hcmd]
  dsimp only
  rw [ha]
  dsimp only
  rw [if_neg (by simp [hdsm]), if_neg (by simp [hstage]), if_neg (by simp [hpaired]), if_neg (by simp [hpost])]

/-- What makes an entry visible leaves its slice's commands. -/
theorem State.adm?_makeVisible (s : State) (n id : Nat) (c : CmdId) : (s.makeVisible n id).adm? c = s.adm? c := by
  have hadms : ((s.makeVisible n id).slice c.slice).adms = (s.slice c.slice).adms := by
    unfold State.makeVisible
    by_cases hn : c.slice = n
    · subst hn
      rw [State.slice_modSlice]
    · rw [State.slice_modSlice_ne _ _ hn]
  unfold State.adm?
  rw [hadms]

/-! ### Flushes -/

/-- An eligible entry of a slice that no older read needs and whose units no other flush holds is flushed. -/
theorem State.flushStart_of {s : State} {n id : Nat} {e : Entry}
    (he : (s.slice n).entries.find? (fun e => e.id = id) = some e) (helig : s.flushEligible n e = true)
    (hpf : s.wbf.pfTaken = false) (hread : State.olderReadWaits (s.slice n) e = false) (hbusy : s.entryBusy n e = false)
    (htrim : State.trimPending (s.slice n) e.nsid = false) : s.flushStart n id = s.flushEntry n e := by
  unfold State.flushStart
  rw [he]
  exact if_pos (by simp [helig, hpf, hread, hbusy, htrim])

/-- A list of changes that one record takes goes into one record. -/
theorem State.journalAll_one {s : State} {type : Nat} {st : Option Stamp} {victim : Nat} {final : Bool}
    {covers : List (Nat × Nat × Option Nat)} {k : Nat} {es : List JEnt} (h : es.length ≤ 64) :
    s.journalAll type st victim final covers (k + 1) es = s.journal type es st victim final covers :=
  if_pos (by simp [h])

/-- The flush of an entry whose every block trims whole units plans nothing more: it journals its trims. -/
theorem State.flushEntry_trims {s w : State} {n : Nat} {e : Entry} {ns : Ns} {trims : List JEnt}
    (hns : tget (s.slice n).nss e.nsid = some ns)
    (hw : w = s.modSlice n (fun x => { x with
      entries := x.entries.map (fun f => if f.id = e.id then { f with flushing := true } else f) }))
    (htrims : trims = (State.entryUnits ns e).flatMap (fun u => w.trimUnit n ns e u))
    (hnone : (State.untrimmed ns e trims).blocks = []) (hne : trims ≠ []) (hpost : e.post = false) :
    ∃ job : FlushJob, job.slice = n ∧ job.entry = e.id ∧ job.type = 3 ∧ job.stamp = e.stamp ∧ job.ents = trims ∧
      job.others = [] ∧
      s.flushEntry n e = (w.setFtl { w.ftl with jobs := w.ftl.jobs ++ [job] }).finishJob job := by
  have hunits : State.entryUnits ns (State.untrimmed ns e trims) = [] := by
    unfold State.entryUnits
    rw [hnone]
    rfl
  refine ⟨{
      slice := n, entry := e.id, stamp := e.stamp, ents := trims, parts := [], left := 0
      type := if e.post then 2 else if ([] : List FlushPart) = [] && decide (trims ≠ []) then 3 else 1 },
    rfl, rfl, by simp [hpost, hne], rfl, rfl, rfl, ?_⟩
  unfold State.flushEntry
  rw [hns]
  dsimp only
  rw [← hw, ← htrims, hunits]
  dsimp only [List.foldl_nil]
  exact if_pos rfl

/-- A flush with nothing to program journals its changes in one record that covers its entry. -/
theorem State.finishJob_trims {s : State} {job : FlushJob} (hlives : s.entryLives job.slice job.entry = true)
    (hne : job.ents ≠ []) (hlen : job.ents.length ≤ 64) (hothers : job.others = []) :
    (s.finishJob job).ftl.journal = s.ftl.journal ++ [{
      seq := s.ftl.jnext, type := job.type, final := false, stamp := some job.stamp, victim := 0
      covers := [(job.slice, job.entry, none)], ents := job.ents }] := by
  unfold State.finishJob
  dsimp only
  have hlive (f : Ftl) : ¬ ((!(s.setFtl f).entryLives job.slice job.entry) = true) := by
    rw [show (s.setFtl f).entryLives job.slice job.entry = true from hlives]
    decide
  rw [if_neg (hlive _), if_neg hne, State.journalAll_one hlen, hothers]
  rfl

/-! ### Durable records -/

/-- The first record, where the entry that it covers lives: it takes two copies and the map takes it. -/
theorem State.recordDurable_first {s : State} {r : JRec} {rest : List JRec} {n id : Nat} {p : Nat × Nat}
    (hj : s.ftl.journal = r :: rest) (hcov : r.covers = [(n, id, none)]) (hlives : s.entryLives n id = true)
    (htype : r.type ≠ 0x0A) (hchoose : s.sysChoose = (some p, s.drawFree.2)) :
    s.recordDurable = State.coverEntry (State.applyRec { s with
      free := s.free + 1
      ftl := { s.ftl with journal := rest, jseq := r.seq, bandRecs := s.ftl.bandRecs ++ [{ r with copies := some p }] } }
      { r with copies := some p }) (n, id, none) := by
  have hlive : State.liveRec s.drawFree.2 r = r := by
    have hdrawn : s.drawFree.2.entryLives n id = true := hlives
    unfold State.liveRec
    rw [hcov]
    exact if_neg (by simp [hdrawn])
  unfold State.recordDurable
  rw [hj]
  dsimp only
  rw [hchoose]
  dsimp only
  rw [hlive, if_neg htype, hcov]
  rfl

/-- Settles O51: an entry becomes visible, is flushed, and its record becomes durable. -/
theorem writeBufferEvents : Obligations.WriteBufferEvents := by
  unfold Obligations.WriteBufferEvents
  refine ⟨?_, ?_, ?_, ?_, ?_⟩
  case refine_1 =>
    intro s n id e c a hn he hdue hcmd ha hdsm hstage hpaired hpost
    refine (onSlice_of hn _).trans (congrArg Host.Outcome.next ?_)
    rw [State.entryById_of he,
      State.entryVisible_write hdue hcmd ((s.adm?_makeVisible n e.id c).trans ha) hdsm hstage hpaired hpost]
  case refine_2 =>
    intro s n id
    refine ⟨_, rfl, ?_⟩
    unfold State.makeVisible
    rw [State.slice_modSlice]
  case refine_3 =>
    intro s n id e ns hn hfi he helig hpf hread hbusy htrim hns
    refine (onSlice_of hn _).trans (congrArg Host.Outcome.next ?_)
    rw [State.onHop_quiet hfi, ite_self, State.flushStart_of he helig hpf hread hbusy htrim]
  case refine_4 =>
    intro s n id e ns hn hfi he helig hpf hread hbusy htrim hns w trims hw htrims hnone hne hpost hlives hlen
    obtain ⟨job, rfl, hentry, htype, hstamp, hents, hothers, hflush⟩ :=
      State.flushEntry_trims hns hw htrims hnone hne hpost
    refine ⟨(w.setFtl { w.ftl with jobs := w.ftl.jobs ++ [job] }).finishJob job,
      (onSlice_of hn _).trans (congrArg Host.Outcome.next ?_), ?_⟩
    · rw [State.onHop_quiet hfi, ite_self, State.flushStart_of he helig hpf hread hbusy htrim, hflush]
    · have hjournal := State.finishJob_trims (s := w.setFtl { w.ftl with jobs := w.ftl.jobs ++ [job] })
        (by rw [hentry]; exact hlives) (by rw [hents]; exact hne) (by rw [hents]; exact hlen) hothers
      rw [hjournal, hentry, htype, hstamp, hents, hw]
      rfl
  case refine_5 =>
    intro s r rest n id hj hcov hlives htype hpairs
    obtain ⟨p, hp, hchoose⟩ := State.sysChoose_of hpairs
    refine ⟨p, hp, ?_⟩
    rintro t q rfl rfl
    exact congrArg Host.Outcome.next (State.recordDurable_first hj hcov hlives htype hchoose)

end Sys2Proof.Machine


/-! # Heats (O52) -/

namespace Sys2Proof.Machine

/-- The row of an engine's command that is admitted and not at its completion stage. -/
theorem onEngine_row {s : State} {c : CmdId} {opc : Nat} {a : Adm} (h : s.awaitsEngine c opc a) (f : Adm → State) :
    onSlice c.slice (s.onEngine c opc f) = .next (f a) :=
  (onSlice_of h.1 _).trans (congrArg Host.Outcome.next (State.onEngine_of h f))

/-! ### Known heats -/

theorem State.heatKnown_known {s : State} {c : CmdId} {h : Heat} (a : Adm) (hh : s.heat? c = some h) :
    s.heatKnown c a = s := by
  unfold State.heatKnown
  rw [hh]

theorem State.heatKnown_new {s : State} {c : CmdId} (a : Adm) (hh : s.heat? c = none) :
    s.heatKnown c a = { s with heats := s.heats ++ [{
      id := c, stamp := a.stamp, st := .checking, resultBytes := a.ent.cdw14.toNat }] } := by
  unfold State.heatKnown
  rw [hh]

/-! ### Descriptors -/

/-- A heat whose descriptor has been read is what the checks of its descriptor say. -/
theorem State.heatDescriptor_read {s : State} {c : CmdId} {a : Adm} {h : Heat} {d : Fetch} {bs : Bytes}
    (ha : s.awaitsEngine c 0x86 a) (hh : s.heat? c = some h) (hst : h.st = .checking)
    (hload : s.loadPending c.slice a.stamp = false)
    (hread : s.readIn c.slice (State.descAddr a.ent) (64 + 32 * State.extentCount a.ent) d = .ok bs) :
    (∀ st, s.heatChecks2 c a bs = .error st →
      exec (.heatDescriptorArrival c d) s = .next ((s.dropHeat c).failCmd c st)) ∧
    (∀ h', s.heatChecks2 c a bs = .ok h' → exec (.heatDescriptorArrival c d) s = .next
      (((s.modHeat c (fun _ => h')).modAdm c (fun a => { a with reads := some (h'.extents.map (fun e =>
        { nsid := e.nsid, range := { slba := e.slba, count := e.nlb } })) })).wakeEvent 5 0)) := by
  refine ⟨fun st hcheck => (onEngine_row ha _).trans (congrArg Host.Outcome.next ?_),
    fun h' hcheck => (onEngine_row ha _).trans (congrArg Host.Outcome.next ?_)⟩
  all_goals
    dsimp only
    rw [State.heatKnown_known a hh, hh]
    dsimp only
    rw [if_neg (by simp [hst, hload]), hread]
    dsimp only
    rw [hcheck]

/-! ### Staging and loading -/

/-- A heat that is staged waits for its cores, or ends with the status of its reads. -/
theorem State.heatStaged_of {s u : State} {c : CmdId} {h h' : Heat} {a a' : Adm} (hh : s.heat? c = some h)
    (ha : s.adm? c = some a) (hid : a.id = c) (hst : h.st = .staging) (hu : s.heatStage h = u)
    (hh' : u.heat? c = some h') (ha' : u.adm? c = some a') (hstaged : h'.staged = true) (hwaits : a'.waits = 0) :
    (a'.bad = none → s.heatStaged c = u.modHeat c (fun h => { h with st := .waitCores })) ∧
    (∀ st, a'.bad = some st → s.heatStaged c = u.heatFail c st) := by
  refine ⟨fun hbad => ?_, fun st hbad => ?_⟩
  all_goals
    unfold State.heatStaged
    rw [hh, ha]
    dsimp only
    rw [if_neg (by simp [hst]), hu, hh', ha']
    dsimp only
    rw [if_neg (by simp [hstaged, hwaits, hid]), hbad]

/-- A heat whose cores have been loaded runs on them. -/
theorem State.heatRunning_of {s : State} {c : CmdId} {h : Heat} {img : Program} (hh : s.heat? c = some h)
    (hst : h.st = .loading) (himg : h.image = some img) :
    s.heatRunning c = State.modAdm (State.modHeat (((List.range h.cores.length).zip h.cores).foldl
      (fun s p => s.loadCore h img p.2 p.1) s) c (fun h => { h with st := .running })) c
        (fun a => { a with stage := true }) := by
  unfold State.heatRunning
  rw [hh]
  dsimp only
  rw [hst, himg]

/-- A core that is loaded with a heat starts at its entry, in its region. -/
theorem State.loadCore_core (s : State) (h : Heat) (img : Program) (k i : Nat) :
    (s.loadCore h img k i).core k = { s.core k with
      g := State.startRegs h i, pc := BitVec.ofNat 64 img.entry, flg := 0, dcx := BitVec.ofNat 64 h.dcx
      hbase := BitVec.ofNat 64 (s.heatBase (s.slice h.id.slice))
      hsize := BitVec.ofNat 64 (State.heatRegion (s.slice h.id.slice))
      hbanks := BitVec.ofNat 64 (State.heatBanks (s.slice h.id.slice) k), marshal := false, pmode := true, exl := false
      stopReq := false, suspReq := false, waiting := false, svc := none, hold := .none, loading := false
      halted := false } := by
  have hbase : ((s.memClear k 0 0x3F000).memWrite k 0 img.code).heatBase (s.slice h.id.slice) =
      s.heatBase (s.slice h.id.slice) := by
    rw [State.memWrite_eq]
    rfl
  unfold State.loadCore
  dsimp only
  rw [State.core_modCore, State.memWrite_core, hbase]
  rfl

/-! ### Delivery -/

/-- A heat that delivers its result ends with its code and length. -/
theorem State.heatDelivered_of {s v u : State} {c : CmdId} {h : Heat} {a : Adm} {bs : Bytes} (hh : s.heat? c = some h)
    (ha : s.adm? c = some a) (hst : h.st = .delivering) (hfits : h.exitN ≤ h.resultBytes)
    (hmove : s.moveData c true (State.cutRanges a.ent.dptr.ranges h.exitN) = (v, true))
    (hread : v.memRead dramArr (v.heatBase (v.slice c.slice) + h.resultOffset) h.exitN = (u, bs, false)) :
    s.heatDelivered c true = (u.deliver c.slice a.ent.dptr.ranges bs).heatEnd h .success (BitVec.ofNat 32 h.exitCode)
      (BitVec.ofNat 32 h.exitN) := by
  unfold State.heatDelivered
  rw [hh, ha]
  dsimp only
  rw [if_neg (by simp [hst]), if_neg (by omega), if_neg (by decide), hmove]
  dsimp only
  rw [if_neg (by decide), hread]
  rfl

theorem State.heatDelivered_long {s : State} {c : CmdId} {h : Heat} {a : Adm} (ok : Bool) (hh : s.heat? c = some h)
    (ha : s.adm? c = some a) (hst : h.st = .delivering) (hlong : h.resultBytes < h.exitN) :
    s.heatDelivered c ok = s.heatEnd h (.vendor 0x48) := by
  unfold State.heatDelivered
  rw [hh, ha]
  dsimp only
  rw [if_neg (by simp [hst]), if_pos hlong]

/-- Settles O52: each stage of a heat by what its checks, reads and cores say. -/
theorem heatCommands : Obligations.HeatCommands := by
  unfold Obligations.HeatCommands
  refine ⟨?_, ?_, ?_, ?_, ?_, ?_, ?_, ?_, ?_, ?_, ?_, ?_, ?_, ?_⟩
  case refine_1 =>
    intro s c a h hnsid h10 h12 h13 h14 h15 d hlen hptr
    refine (onAdmin_row h _).trans (congrArg Host.Outcome.next ?_)
    have hzero : a.ent.dptr.ranges.any (fun r => decide (r.1 ≠ 0)) = false := by
      rw [List.any_eq_false]
      intro r hr
      simpa using List.all_eq_true.1 hptr r hr
    dsimp only
    rw [if_neg (by simp [hnsid, h10, h12, h13, h14, h15, hlen]), if_pos (by simp [hlen]), if_neg (by rw [hzero]; decide)]
  case refine_2 =>
    rintro s c a h hnsid h10 h12 h13 h14 h15 v d bs len slot rfl rfl hlo hhi hmove rfl hgood
    refine (onAdmin_row h _).trans (congrArg Host.Outcome.next ?_)
    dsimp only
    rw [if_neg (by simp [hnsid, h10, h12, h13, h14, h15]; omega), if_neg (by omega), if_neg (by omega),
      State.arrive_moves _ hmove, hgood]
  case refine_3 =>
    intro s c a h hcheck hnew
    refine (onEngine_row h _).trans (congrArg Host.Outcome.next ?_)
    rw [hcheck]
    exact State.heatKnown_new a hnew
  case refine_4 =>
    intro s c a h st hcheck
    refine (onEngine_row h _).trans (congrArg Host.Outcome.next ?_)
    rw [hcheck]
    rfl
  case refine_5 =>
    intro s c a ha h d bs hh hst hload hread h' hcheck hup
    refine ((State.heatDescriptor_read ha hh hst hload hread).2 h' hcheck).trans (congrArg Host.Outcome.next ?_)
    exact State.wakeEvent_up (s := State.modAdm (State.modHeat s c _) c _) hup _ _
  case refine_6 =>
    intro s c a ha h d bs hh hst hload hread st hcheck
    exact (State.heatDescriptor_read ha hh hst hload hread).1 st hcheck
  case refine_7 =>
    intro s u c h h' a a' hc hh ha hid hst hu hh' ha' hstaged hwaits
    obtain ⟨hgood, hbad⟩ := State.heatStaged_of hh ha hid hst hu hh' ha' hstaged hwaits
    exact ⟨fun h => (onSlice_of hc _).trans (congrArg Host.Outcome.next (hgood h)),
      fun st h => (onSlice_of hc _).trans (congrArg Host.Outcome.next (hbad st h))⟩
  case refine_8 =>
    intro s h hst hstaged
    exact if_pos (by simp [hstaged])
  case refine_9 =>
    intro s c h hc hh hst hmay
    refine (onSlice_of hc _).trans (congrArg Host.Outcome.next ?_)
    unfold State.heatLoading
    rw [hh]
    exact if_pos (by simp [hst, hmay])
  case refine_10 =>
    intro s c h img hc hfi hh hst himg
    refine (onSlice_of hc _).trans (congrArg Host.Outcome.next ?_)
    rw [State.hopFor_quiet hfi, State.heatRunning_of hh hst himg]
  case refine_11 =>
    intro s c h img hc hfi hh hst himg k hk
    refine ⟨State.modAdm (State.modHeat (s.loadCore h img k 0) c (fun h => { h with st := .running })) c
        (fun a => { a with stage := true }),
      (onSlice_of hc _).trans (congrArg Host.Outcome.next ?_), (State.loadCore_core s h img k 0).trans ?_⟩
    · rw [State.hopFor_quiet hfi, State.heatRunning_of hh hst himg, hk]
      rfl
    · unfold State.startRegs
      rw [hk]
      rfl
  case refine_12 =>
    intro s c h a hc hh ha hst hfits v u bs hmove hread
    exact (onSlice_of hc _).trans (congrArg Host.Outcome.next (State.heatDelivered_of hh ha hst hfits hmove hread))
  case refine_13 =>
    intro s c h a hc hh ha hst hlong ok
    exact (onSlice_of hc _).trans (congrArg Host.Outcome.next (State.heatDelivered_long ok hh ha hst hlong))
  case refine_14 =>
    intro s p n v hp hn hup hlive
    exact onPortSlice_takes hp hn (State.winWrite_up hup hlive _ _)

end Sys2Proof.Machine


/-! # Hurdles (O53) -/

namespace Sys2Proof.Machine

theorem State.scanKnown_known {s : State} {c : CmdId} (a : Adm) (h : s.hdl.scans.any (fun r => r.id = c) = true) :
    s.scanKnown c a = s := if_pos h

theorem State.scanKnown_new {s : State} {c : CmdId} (a : Adm) (h : s.hdl.scans.any (fun r => r.id = c) = false) :
    s.scanKnown c a = { s with hdl := { s.hdl with scans := s.hdl.scans ++ [{ id := c, stamp := a.stamp }] } } :=
  if_neg (by rw [h]; decide)

/-- The row of a descriptor of a scan that has none yet, where nothing is injected. -/
theorem hurdleDescriptor_row {s : State} {c : CmdId} {f : Fetch} (hc : c.slice < 512) (hfi : s.faultInject = false) :
    exec (.hurdleDescriptorArrival c f) s = .next (s.hurdleDescriptor c f) := by
  refine (onSlice_of hc _).trans (congrArg Host.Outcome.next ?_)
  rw [State.hopFor_quiet hfi]

/-- Settles O53: a scan is known by its first checks, its descriptor by the checks of its fields. -/
theorem hurdleCommands : Obligations.HurdleCommands := by
  unfold Obligations.HurdleCommands
  refine ⟨?_, ?_, ?_, ?_, ?_⟩
  case refine_1 =>
    intro s c a h hcheck hnew
    refine (onEngine_row h _).trans (congrArg Host.Outcome.next ?_)
    rw [hcheck]
    exact State.scanKnown_new a hnew
  case refine_2 =>
    intro s c a h st hcheck
    refine (onEngine_row h _).trans (congrArg Host.Outcome.next ?_)
    rw [hcheck]
    rfl
  case refine_3 =>
    rintro s c a h f d ns hfi hknown hdesc hread hns rs hgood rfl hsearch hres hsum hrec hrange
    refine (hurdleDescriptor_row h.1 hfi).trans (congrArg Host.Outcome.next ((State.onEngine_of h _).trans ?_))
    have hflags : (hRanges d (hNext a.ent)).any (fun r => !r.2) = false := by
      rw [List.any_eq_false]
      intro r hr
      simpa using List.all_eq_true.1 hres r hr
    have hinside : (hRanges d (hNext a.ent)).any (fun r => decide (ns.nsze < r.1.slba + r.1.count)) = false := by
      rw [List.any_eq_false]
      intro r hr
      simpa using List.all_eq_true.1 hrange r hr
    dsimp only
    rw [State.scanKnown_known a hknown, if_neg (by rw [hdesc]; decide), hread, hns]
    dsimp only
    rw [hgood]
    dsimp only
    rw [if_neg (by simpa using hsearch), if_neg (by rw [hflags]; decide), if_neg (not_not_intro hsum),
      if_neg (by simpa using hrec), if_neg (by rw [hinside]; decide)]
  case refine_4 =>
    intro s c a h f d ns hfi hknown hdesc hread hns o hbad
    refine (hurdleDescriptor_row h.1 hfi).trans (congrArg Host.Outcome.next ((State.onEngine_of h _).trans ?_))
    dsimp only
    rw [State.scanKnown_known a hknown, if_neg (by rw [hdesc]; decide), hread, hns]
    dsimp only
    rw [hbad]
  case refine_5 =>
    intro s p n v hp hn hup hlive
    exact onPortSlice_takes hp hn (State.winWrite_up hup hlive _ _)

end Sys2Proof.Machine


/-! # Pattern searches and table loads (O54) -/

namespace Sys2Proof.Machine

/-! ### Entries that are changed where they stand -/

/-- In a list where the entries of one key are changed, and keep it, the first of them is the changed one. -/
theorem find?_map_key {α κ : Type} [DecidableEq κ] (key : α → κ) (k : κ) {f : α → α} (hf : ∀ x, key (f x) = key x)
    (l : List α) : (l.map (fun x => if key x = k then f x else x)).find? (fun x => key x = k) =
      (l.find? (fun x => key x = k)).map f := by
  induction l with
  | nil => rfl
  | cons x l ih =>
    rw [List.map_cons]
    by_cases hx : key x = k
    · rw [if_pos hx, List.find?_cons_of_pos (by simp [hf, hx]), List.find?_cons_of_pos (by simp [hx])]
      rfl
    · rw [if_neg hx, List.find?_cons_of_neg (by simp [hx]), List.find?_cons_of_neg (by simp [hx]), ih]

theorem State.adm?_modAdm (s : State) (c : CmdId) {f : Adm → Adm} (hf : ∀ x, (f x).id = x.id) :
    (s.modAdm c f).adm? c = (s.adm? c).map f := by
  unfold State.adm? State.modAdm
  rw [State.slice_modSlice]
  exact find?_map_key Adm.id c hf _

theorem State.runs_modPat (s : State) (c : CmdId) {f : PatRun → PatRun} (hf : ∀ x, (f x).id = x.id) :
    (s.modPat c f).pat.runs.find? (fun r => r.id = c) = (s.pat.runs.find? (fun r => r.id = c)).map f :=
  find?_map_key PatRun.id c hf _

/-! ### Searches -/

theorem State.patKnown_new {s : State} {c : CmdId} (a : Adm) (h : s.pat.runs.any (fun r => r.id = c) = false) :
    s.patKnown c a = { s with pat := { s.pat with runs := s.pat.runs ++ [{ id := c, stamp := a.stamp }] } } :=
  if_neg (by rw [h]; decide)

/-- A search that passes its first checks is known, and one that fails ends. -/
theorem State.patAsk_checked {s : State} {c : CmdId} {a : Adm} {opc : Nat} (h : s.awaitsEngine c opc a) :
    (s.patChecks1 c.slice a.ent = none → s.pat.runs.any (fun r => r.id = c) = false →
      onSlice c.slice (s.patAsk c opc) =
        .next { s with pat := { s.pat with runs := s.pat.runs ++ [{ id := c, stamp := a.stamp }] } }) ∧
    (∀ st, s.patChecks1 c.slice a.ent = some st →
      onSlice c.slice (s.patAsk c opc) = .next (((s.dropPat c).dropEntry c).finish c st)) := by
  refine ⟨fun hcheck hnew => (onEngine_row h _).trans (congrArg Host.Outcome.next ?_),
    fun st hcheck => (onEngine_row h _).trans (congrArg Host.Outcome.next ?_)⟩
  · rw [hcheck]
    exact State.patKnown_new a hnew
  · rw [hcheck]
    rfl

/-- The first unit of a search runs where it waits for no read. -/
theorem State.patConsume_first {v : State} {c : CmdId} {a : Adm} {r : PatRun} (ha : v.adm? c = some a)
    (hr : v.pat.runs.find? (fun r => r.id = c) = some r) (hstage : a.stage = decide (a.waits = 0))
    (hleft : r.left = max 1 (ceilDiv r.input.length 400)) :
    v.patConsume c = if a.waits = 0 then
        State.modPat { v with pat := { v.pat with
          bytes := min (2 ^ 64 - 1) (v.pat.bytes + min 400 r.input.length) } } c
          (fun r => { r with left := r.left - 1, epoch := v.patEpoch, last := v.patEpoch })
      else v := by
  have hfirst : r.left = State.patUnitsOf r.input.length := hleft
  have hbytes : State.patUnitBytes r.input.length r.left = min 400 r.input.length := by
    unfold State.patUnitBytes
    rw [hfirst, Nat.sub_self, Nat.mul_zero, Nat.sub_zero]
  unfold State.patConsume
  rw [ha, hr]
  dsimp only
  rw [hbytes]
  by_cases hw : a.waits = 0
  · rw [if_pos hw, if_neg (by simp [hw])]
    simp only [hfirst, if_true]
    rfl
  · rw [if_neg hw, if_pos (by simp [hw, hstage])]

/-- A search that may begin, with its input: it takes the free slot, and its first unit follows. -/
theorem State.patternBegin_of {s : State} {c : CmdId} {a : Adm} {r : PatRun} {slot : Nat} (hdr input : Fetch)
    (ha : s.adm? c = some a) (hr : s.pat.runs.find? (fun r => r.id = c) = some r) (hslot : r.slot = none)
    (hstage : a.stage = false) (hload : s.patLoadPending c.slice a.stamp = false)
    (hqueue : s.patQueued c.slice a.stamp = false) (hread : s.patReadable c a = true)
    (hfree : s.slotFree c.slice = some slot) :
    (∀ st, s.patChecks2 c.slice a.ent hdr = .error st → st ≠ .dataTransferError →
      s.patternBegin c hdr input = (s.dropPat c).failCmd c st) ∧
    (∀ cur w u bs, s.patChecks2 c.slice a.ent hdr = .ok cur →
      (if pSource a.ent then w = s else s.moveData c false a.ent.dptr.ranges = (w, true)) →
      w.patInput c a input = (u, .ok bs) →
      s.patternBegin c hdr input = ((u.modAdm c (fun a => { a with
        stage := decide (a.waits = 0), started := true })).modPat c (fun r => { r with
          slot := some slot, input := bs, cursor := cur, left := State.patUnitsOf bs.length })).patConsume c) := by
  refine ⟨fun st hcheck hne => ?_, fun cur w u bs hcheck hmove hin => ?_⟩
  · unfold State.patternBegin
    rw [ha, hr]
    dsimp only
    rw [if_neg (by simp [hslot, hstage, hload, hqueue, hread]), hfree]
    dsimp only
    rw [hcheck]
    exact if_neg hne
  · have harrive (f : State → State) : s.patArrive c a f = f w := by
      unfold State.patArrive
      by_cases hsrc : pSource a.ent = true
      · rw [if_pos hsrc] at hmove ⊢
        rw [hmove]
      · rw [if_neg hsrc] at hmove ⊢
        exact State.arrive_moves f hmove
    unfold State.patternBegin
    rw [ha, hr]
    dsimp only
    rw [if_neg (by simp [hslot, hstage, hload, hqueue, hread]), hfree]
    dsimp only
    rw [hcheck]
    dsimp only
    rw [harrive, hin]

/-! ### Table loads -/

/-- A table image that is good in every field is judged by its rules. -/
theorem State.patternTableLoad_rules {s v : State} {c : CmdId} {a : Adm} {d bs : Bytes} {t base : PatTable}
    (h : s.awaitsAdmin c 0xC9 a) (hnsid : a.ent.nsid = 0) (h10 : a.ent.cdw10 = 0) (h12 : a.ent.cdw12 = 0)
    (h13 : a.ent.cdw13 = 0) (h14 : a.ent.cdw14 = 0) (h15 : a.ent.cdw15 = 0) (hlo : 32 ≤ a.ent.cdw11.toNat)
    (hhi : a.ent.cdw11.toNat ≤ 8388608) (hslots : s.patSlots c.slice ≠ 0)
    (hmove : s.moveData c false a.ent.dptr.ranges = (v, true))
    (hbs : bs = padTo a.ent.cdw11.toNat (v.gather c.slice a.ent.dptr.ranges d)) (ht : t = v.patProjected c.slice)
    (hhead : patHeadBad bs = none) (hsize : (patImage bs).size = a.ent.cdw11.toNat)
    (hbody : patBodyBad t (s.patSlots c.slice) bs (patImage bs) = none) (hlost : leAt bs 6 1 = 1 ∨ t.state ≠ .lost)
    (hbase : base = if leAt bs 6 1 = 1 then { t with rules := [], rank := [] } else t) :
    (∀ x, patRuleOps v.patHole (s.patSlots c.slice) bs base (patImage bs).ops = .ok x →
      exec (.patternTableLoad c (.ok d)) s = .next { v.modAdm c (fun a => { a with started := true }) with
        pat := { v.pat with loads := v.pat.loads ++ [{ id := c, stamp := a.stamp, image := bs }] } }) ∧
    (∀ o, patRuleOps v.patHole (s.patSlots c.slice) bs base (patImage bs).ops = .error (o, true) →
      exec (.patternTableLoad c (.ok d)) s = .next (v.finish c (.vendor 0x76) (BitVec.ofNat 32 o))) := by
  subst hbs ht hbase
  refine ⟨fun x hops => (onAdmin_row h _).trans (congrArg Host.Outcome.next ?_),
    fun o hops => (onAdmin_row h _).trans (congrArg Host.Outcome.next ?_)⟩
  all_goals
    dsimp only
    rw [if_neg (by simp [hnsid, h10, h12, h13, h14, h15]; omega), if_neg hslots, State.arrive_moves _ hmove, hhead]
    dsimp only
    rw [if_neg (not_not_intro hsize), hbody]
    dsimp only
    rw [if_neg (by simpa using hlost.resolve_left)]
    rw [hops]
    rfl

/-- The write phase of the first load of a slice takes a free slot, or that of the work it suspends. -/
theorem State.patternWrite_of {s : State} {c : CmdId} {l : PatLoad} (hl : s.pat.loads.find? (fun l => l.id = c) = some l)
    (hadm : (s.adm? c).isSome = true) (hwritten : l.written = false) (hslot : l.slot = none)
    (hfirst : s.patFirst l = true) (hbusy : leAt l.image 6 1 = 1 → s.patBusy c.slice l.stamp = false) :
    (∀ k, s.slotFree c.slice = some k → s.patternWrite c =
      (((if patTouches (s.patTable c.slice) (s.patSlots c.slice) l.image then s.taint c.slice l.stamp else s).setPatTable
        c.slice (patClear (s.patTable c.slice) l.image)).modLoad c
          (fun _ => { l with slot := some k, victim := none })).patUnit { l with slot := some k, victim := none }) ∧
    (∀ v, s.slotFree c.slice = none → State.patVictim (s.patActive c.slice) = some v → s.patternWrite c =
      (((if patTouches (s.patTable c.slice) (s.patSlots c.slice) l.image then
          State.taint (s.patSuspend v.1 true) c.slice l.stamp else s.patSuspend v.1 true).setPatTable
        c.slice (patClear (s.patTable c.slice) l.image)).modLoad c
          (fun _ => { l with slot := some v.2.1, victim := some v.1 })).patUnit
            { l with slot := some v.2.1, victim := some v.1 }) := by
  have hnone : (s.adm? c).isNone = false := by rw [← Option.not_isSome, hadm]; rfl
  refine ⟨fun k hk => ?_, fun v hk hv => ?_⟩
  all_goals
    unfold State.patternWrite
    rw [hl]
    dsimp only
    rw [if_neg (by simpa [hnone, hwritten, hslot, hfirst] using hbusy), hk]
  case refine_2 => rw [hv]; rfl

/-- Settles O54: searches and table loads by their checks, their slots and the phases they are in. -/
theorem patternCommands : Obligations.PatternCommands := by
  unfold Obligations.PatternCommands
  refine ⟨?_, ?_, ?_, ?_, ?_, ?_, ?_, ?_, ?_, ?_⟩
  case refine_1 =>
    intro s c a h hcheck hnew
    exact (State.patAsk_checked h).1 hcheck hnew
  case refine_2 =>
    intro s c a h hcheck hnew
    exact (State.patAsk_checked h).1 hcheck hnew
  case refine_3 =>
    intro s c a st
    exact ⟨fun h => (State.patAsk_checked h).2 st, fun h => (State.patAsk_checked h).2 st⟩
  case refine_4 =>
    rintro s c a r slot hdr input hc ha hr hslot hstage hload hqueue hread hfree cur w u bs hcheck hmove hin a' r' v ha' hr' rfl
    refine (onSlice_of hc _).trans (congrArg Host.Outcome.next ?_)
    rw [(State.patternBegin_of hdr input ha hr hslot hstage hload hqueue hread hfree).2 cur w u bs hcheck hmove hin]
    have hadm := (u.adm?_modAdm c (f := fun a => { a with stage := decide (a.waits = 0), started := true })
      (fun _ => rfl)).trans (congrArg (Option.map _) ha')
    have hrun := (State.runs_modPat (u.modAdm c (fun a => { a with stage := decide (a.waits = 0), started := true })) c
      (f := fun r => { r with slot := some slot, input := bs, cursor := cur, left := State.patUnitsOf bs.length })
      (fun _ => rfl)).trans (congrArg (Option.map _) hr')
    exact State.patConsume_first (v := State.modPat (u.modAdm c _) c _)
      (a := { a' with stage := decide (a'.waits = 0), started := true })
      (r := { r' with slot := some slot, input := bs, cursor := cur, left := State.patUnitsOf bs.length }) hadm hrun rfl rfl
  case refine_5 =>
    intro s c a r slot hdr input hc ha hr hslot hstage hload hqueue hread hfree st hcheck hne
    refine (onSlice_of hc _).trans (congrArg Host.Outcome.next ?_)
    exact (State.patternBegin_of hdr input ha hr hslot hstage hload hqueue hread hfree).1 st hcheck hne
  case refine_6 =>
    rintro s v c a d bs len t base h rfl hnsid h10 h12 h13 h14 h15 hlo hhi hslots hmove hbs ht hhead hsize hbody hlost hbase x hops
    exact ⟨_, rfl, (State.patternTableLoad_rules h hnsid h10 h12 h13 h14 h15 hlo hhi hslots hmove hbs ht hhead hsize
      hbody hlost hbase).1 x hops⟩
  case refine_7 =>
    rintro s v c a d bs len t base h rfl hnsid h10 h12 h13 h14 h15 hlo hhi hslots hmove hbs ht hhead hsize hbody hlost hbase o hops
    exact (State.patternTableLoad_rules h hnsid h10 h12 h13 h14 h15 hlo hhi hslots hmove hbs ht hhead hsize
      hbody hlost hbase).2 o hops
  case refine_8 =>
    rintro s c l hc hl hadm hwritten hslot hfirst hbusy k u l' hk rfl rfl
    exact (onSlice_of hc _).trans (congrArg Host.Outcome.next
      ((State.patternWrite_of hl hadm hwritten hslot hfirst hbusy).1 k hk))
  case refine_9 =>
    rintro s c l hc hl hadm hwritten hslot hfirst hbusy v u l' hk hv rfl rfl
    exact (onSlice_of hc _).trans (congrArg Host.Outcome.next
      ((State.patternWrite_of hl hadm hwritten hslot hfirst hbusy).2 v hk hv))
  case refine_10 =>
    rintro s c l hc hl hadm hwritten happlied hbusy t rfl
    refine (onSlice_of hc _).trans (congrArg Host.Outcome.next ?_)
    have hnone : (s.adm? c).isNone = false := by rw [← Option.not_isSome, hadm]; rfl
    unfold State.patternApply
    rw [hl]
    exact if_neg (by simp [hnone, hwritten, happlied, hbusy])

end Sys2Proof.Machine


/-! # Cipher transforms and digests (O55) -/

namespace Sys2Proof.Machine

/-- A change of the entries of a key changes a list that has none of it only in a new entry. -/
theorem map_key_new {α κ : Type} [DecidableEq κ] (key : α → κ) {k : κ} {f : α → α} {l : List α} {x : α}
    (h : l.any (fun x => key x = k) = false) (hx : key x = k) :
    (l ++ [x]).map (fun x => if key x = k then f x else x) = l ++ [f x] := by
  have hkeep : l.map (fun x => if key x = k then f x else x) = l := by
    refine (List.map_congr_left fun y hy => ?_).trans (List.map_id l)
    have hne := List.any_eq_false.1 h y hy
    exact if_neg (by simpa using hne)
  rw [List.map_append, hkeep, List.map_singleton, if_pos hx]

/-! ### Cipher transforms -/

theorem State.cipherKnown_new {s : State} {c : CmdId} (a : Adm) (h : s.cph.runs.any (fun r => r.id = c) = false) :
    s.cipherKnown c a = { s with cph := { s.cph with runs := s.cph.runs ++ [{
      id := c, stamp := a.stamp, total := cphBatches a.ent }] } } := if_neg (by rw [h]; decide)

/-- The source of a command that has no run yet comes with its run. -/
theorem State.cipherSource_new {s : State} {c : CmdId} {a : Adm} (bs : Bytes)
    (h : s.cph.runs.any (fun r => r.id = c) = false) :
    s.cipherSource c a bs = { s with cph := { s.cph with runs := s.cph.runs ++ [{
      id := c, stamp := a.stamp, total := cphBatches a.ent, src := some (padTo (cphSrcLen a.ent) bs) }] } } := by
  unfold State.cipherSource
  rw [State.cipherKnown_new a h]
  exact congrArg (fun l => { s with cph := { s.cph with runs := l } }) 
    (map_key_new CipherRun.id (x := { id := c, stamp := a.stamp, total := cphBatches a.ent }) h rfl)

/-! ### Digests -/

theorem State.digestKnown_known {s : State} {c : CmdId} (a : Adm) (h : s.dgs.runs.any (fun r => r.id = c) = true) :
    s.digestKnown c a = s := if_pos h

theorem State.digestKnown_new {s : State} {c : CmdId} (a : Adm) (h : s.dgs.runs.any (fun r => r.id = c) = false) :
    s.digestKnown c a = { s with dgs := { s.dgs with runs := s.dgs.runs ++ [{ id := c, stamp := a.stamp }] } } :=
  if_neg (by rw [h]; decide)

/-- The message of a plain digest that has no run yet comes with its run. -/
theorem State.digestSource_new {s : State} {c : CmdId} {a : Adm} (bs : Bytes)
    (h : s.dgs.runs.any (fun r => r.id = c) = false) (halg : dgAlg a.ent < 0xC ∨ 0xE < dgAlg a.ent)
    (himports : dgImports a.ent = false) :
    s.digestSource c a bs = { s with dgs := { s.dgs with runs := s.dgs.runs ++ [{
      id := c, stamp := a.stamp, msg := some (padTo (dgLen a.ent) bs) }] } } := by
  have hfresh : (s.dgs.runs ++ [({ id := c, stamp := a.stamp } : DigestRun)]).any
      (fun r => r.id = c && r.msg.isSome) = false := by
    rw [List.any_append, Bool.or_eq_false_iff]
    refine ⟨List.any_eq_false.2 fun r hr => ?_, by simp⟩
    have hne := List.any_eq_false.1 h r hr
    simp only [decide_eq_true_eq] at hne
    simp [hne]
  unfold State.digestSource
  rw [State.digestKnown_new a h]
  dsimp only
  rw [if_neg (by rw [hfresh]; decide), if_neg (by simp; omega), if_neg (by simp [himports]), himports, if_neg (by decide),
    List.drop_zero, Nat.zero_add]
  exact congrArg (fun l => { s with dgs := { s.dgs with runs := l } }) 
    (map_key_new DigestRun.id (x := { id := c, stamp := a.stamp }) h rfl)

/-- A digest that imports a baton takes up its message, or ends with the baton's status. -/
theorem State.digestSource_imports {s : State} {c : CmdId} {a : Adm} {bs : Bytes} (d : Bytes)
    (hknown : s.dgs.runs.any (fun r => r.id = c) = true)
    (hnomsg : s.dgs.runs.any (fun r => r.id = c && r.msg.isSome) = false) (himports : dgImports a.ent = true)
    (hbs : bs = padTo (552 + dgLen a.ent) d) (halg : dgAlg a.ent < 0xC ∨ 0xE < dgAlg a.ent) :
    (∀ m, s.digestImport c.slice a.ent (bs.take 552) = .ok m →
      s.digestSource c a d = s.modDigest c (fun r => { r with msg := some (m ++ bs.drop 552) })) ∧
    (∀ st, s.digestImport c.slice a.ent (bs.take 552) = .error st →
      s.digestSource c a d = ((s.dropDigest c).failCmd c st).ev 0x2A03 c.slice) := by
  subst hbs
  refine ⟨fun m hm => ?_, fun st hst => ?_⟩
  case refine_1 =>
    unfold State.digestSource
    rw [State.digestKnown_known a hknown]
    dsimp only
    rw [if_neg (by rw [hnomsg]; decide), if_neg (by simp; omega), if_pos himports, himports, if_pos rfl, hm]
  case refine_2 =>
    unfold State.digestSource
    rw [State.digestKnown_known a hknown]
    dsimp only
    rw [if_neg (by rw [hnomsg]; decide), if_neg (by simp; omega), if_pos himports, himports, if_pos rfl, hst]

/-- Settles O55: a command has its run by its first checks, and its source by where it lies. -/
theorem cipherAndDigestCommands : Obligations.CipherAndDigestCommands := by
  unfold Obligations.CipherAndDigestCommands
  refine ⟨?_, ?_, ?_, ?_, ?_, ?_⟩
  case refine_1 =>
    intro s c a h hcheck hnew
    refine ⟨fun hhost => ?_, fun hcmb v hmove hfresh => ?_⟩
    all_goals
      refine (onEngine_row h _).trans (congrArg Host.Outcome.next ?_)
      rw [hcheck]
      dsimp only
    · rw [if_neg (by rw [hhost]; decide)]
      exact State.cipherKnown_new a hnew
    · rw [if_pos hcmb, State.arrive_moves _ hmove]
      exact State.cipherSource_new _ hfresh
  case refine_2 =>
    intro s c a h st hcheck
    refine (onEngine_row h _).trans (congrArg Host.Outcome.next ?_)
    rw [hcheck]
    rfl
  case refine_3 =>
    intro s c a h v bs k hfi hmove hknown
    have hrow (f : Fetch) : exec (.cipherTrailerArrival c f) s = .next (s.cipherArrival c f) :=
      (onSlice_of h.1 _).trans (congrArg (fun t => Host.Outcome.next (State.cipherArrival t c f))
        (State.hopFor_quiet hfi c 5))
    refine ⟨(hrow _).trans (congrArg Host.Outcome.next ((State.onEngine_of h _).trans
      ((State.arrive_moves _ hmove).trans ?_))), (hrow _).trans (congrArg Host.Outcome.next (State.onEngine_of h _))⟩
    unfold State.cipherSource
    rw [show v.cipherKnown c a = v from if_pos hknown]
    rfl
  case refine_4 =>
    intro s c a h hcheck hnew
    refine ⟨fun hhost => ?_, fun hcmb halg himports v hmove hfresh => ?_⟩
    all_goals
      refine (onEngine_row h _).trans (congrArg Host.Outcome.next ?_)
      rw [hcheck]
      dsimp only
    · rw [if_neg (by rw [hhost]; decide)]
      exact State.digestKnown_new a hnew
    · rw [if_pos hcmb, State.arrive_moves _ hmove]
      exact State.digestSource_new _ hfresh halg himports
  case refine_5 =>
    intro s c a h st hcheck
    refine (onEngine_row h _).trans (congrArg Host.Outcome.next ?_)
    rw [hcheck]
    rfl
  case refine_6 =>
    intro s c a h v d bs hmove hknown hnomsg himports hbs halg
    obtain ⟨hgood, hbad⟩ := State.digestSource_imports (v.gather c.slice a.ent.dptr.ranges d) hknown hnomsg himports hbs halg
    have hrow : exec (.digestBatonArrival c (.ok d)) s =
        .next (v.digestSource c a (v.gather c.slice a.ent.dptr.ranges d)) :=
      (onEngine_row h _).trans (congrArg Host.Outcome.next (State.arrive_moves _ hmove))
    exact ⟨fun m hm => hrow.trans (congrArg Host.Outcome.next (hgood m hm)),
      fun st hst => hrow.trans (congrArg Host.Outcome.next (hbad st hst))⟩

end Sys2Proof.Machine


/-! # Relay links (O56) -/

namespace Sys2Proof.Machine

theorem State.modRly_modRly (s : State) (p : Nat) (f g : RlyPort → RlyPort) :
    (s.modRly p f).modRly p g = s.modRly p (fun x => g (f x)) := by
  change State.setRly _ _ = _
  rw [State.rlyPort_modRly]
  exact congrArg (fun l => s.setRly { s.rly with ports := l }) (tset_tset _ _ _ _)

/-! ### Frames that a port sends -/

/-- Frames sent by a port are counted at it; a frame of type 4 counts its link nonce too. -/
theorem State.countFrames_rlyPort (s : State) (p type n : Nat) :
    (s.countFrames p type n).rlyPort p = { s.rlyPort p with
      tx := min (2 ^ 64 - 1) ((s.rlyPort p).tx + n)
      linkNonce := if type = 4 then (s.rlyPort p).linkNonce + n else (s.rlyPort p).linkNonce } := by
  have hport := s.rlyPort_modRly p (fun x => { x with
    tx := min (2 ^ 64 - 1) (x.tx + n), linkNonce := if type = 4 then x.linkNonce + n else x.linkNonce })
  unfold State.countFrames
  dsimp only
  split
  · split
    · exact hport
    · exact hport
  · exact hport

/-- A message to a neighbour leaves by its port, which counts its frames. -/
theorem State.sendLink_rlyPort (s : State) (p type : Nat) (words : List Nat) (body : Bytes) :
    (s.sendLink p type words body).rlyPort p = { s.rlyPort p with
      tx := min (2 ^ 64 - 1) ((s.rlyPort p).tx + frameCount type words body)
      linkNonce := if type = 4 then (s.rlyPort p).linkNonce + frameCount type words body
        else (s.rlyPort p).linkNonce } :=
  State.countFrames_rlyPort (s.setRly { s.rly with nextMsg := s.rly.nextMsg + 1 }) p type (frameCount type words body)

/-- The count of frames leaves what has been sent, and what a device keeps of its SUMMARY. -/
theorem State.countFrames_keeps (s : State) (p type n : Nat) :
    (s.countFrames p type n).out = s.out ∧ (s.countFrames p type n).rly.sumSeq = s.rly.sumSeq ∧
    (s.countFrames p type n).rly.sumAt = s.rly.sumAt := by
  unfold State.countFrames
  dsimp only
  split
  · split <;> exact ⟨rfl, rfl, rfl⟩
  · exact ⟨rfl, rfl, rfl⟩

/-- A change of a port that keeps its version and its peer changes nothing of the HELLO it sends. -/
theorem State.modRly_helloFrames {s : State} {p : Nat} {f : RlyPort → RlyPort}
    (hversion : (f (s.rlyPort p)).version = (s.rlyPort p).version) (hpeer : (f (s.rlyPort p)).peer = (s.rlyPort p).peer) :
    (s.modRly p f).peerAddr p = s.peerAddr p ∧ (s.modRly p f).frameHead p 1 = s.frameHead p 1 ∧
    ∀ h dest id pl, (s.modRly p f).framesOn p h 1 dest id pl = s.framesOn p h 1 dest id pl := by
  refine ⟨?_, ?_, fun h dest id pl => ?_⟩
  · unfold State.peerAddr
    rw [State.rlyPort_modRly, hpeer]
  · unfold State.frameHead
    rw [State.rlyPort_modRly, hversion]
    rfl
  · unfold State.framesOn State.frameAddrs
    rw [State.rlyPort_modRly, hpeer]
    rfl

/-- The relay message of a HELLO. -/
def State.helloOut (s : State) (p : Nat) (h : HelloMsg) : Out :=
  .relay {
    port := p, dest := s.peerAddr p, type := 1, words := [], body := helloBytes h
    head := { version := (s.rlyPort p).version, clear := true, bcast := false, hops := 32, src := s.fieldAddr
              keyId := 0, nonce := none }
    frames := s.framesOn p (s.frameHead p 1) 1 (s.peerAddr p) s.rly.nextMsg (helloBytes h) }

theorem State.modRly_helloOut {s : State} {p : Nat} {f : RlyPort → RlyPort}
    (hversion : (f (s.rlyPort p)).version = (s.rlyPort p).version) (hpeer : (f (s.rlyPort p)).peer = (s.rlyPort p).peer)
    (h : HelloMsg) : (s.modRly p f).helloOut p h = s.helloOut p h := by
  obtain ⟨haddr, hhead, hframes⟩ := State.modRly_helloFrames hversion hpeer
  unfold State.helloOut
  rw [haddr, hhead, hframes, State.rlyPort_modRly, hversion]
  rfl

/-- The HELLO that a port sends is kept with its stride, counted, and leaves unkeyed. -/
theorem State.sendHello_spec (s : State) (p : Nat) (chal : Bytes) :
    (s.sendHello p chal).rlyPort p = { s.rlyPort p with
      ownHello := some (s.helloOf p chal), helloAt := s.stride
      tx := min (2 ^ 64 - 1) ((s.rlyPort p).tx + frameCount 1 [] (helloBytes (s.helloOf p chal))) } ∧
    (s.sendHello p chal).out = s.out ++ [s.helloOut p (s.helloOf p chal)] := by
  refine ⟨?_, ?_⟩
  · refine (State.sendLink_rlyPort _ _ _ _ _).trans ?_
    rw [State.rlyPort_modRly]
    rfl
  · rw [← State.modRly_helloOut (s := s) (f := fun x => { x with
      ownHello := some (s.helloOf p chal), helloAt := s.stride }) rfl rfl (s.helloOf p chal)]
    refine congrArg (· ++ _) (State.countFrames_keeps _ _ _ _).1

/-! ### Links that go down (R819) -/

/-- The jobs of the public-key unit that the end of a port's link leaves: all but those of the link. -/
def linkKeeps (p : Nat) : PkKind → Bool
  | .link q _ _ => decide (q ≠ p)
  | _ => true

/-- A link that was up is down with its cause: what it held is forgotten, and its jobs are dropped. -/
theorem State.linkDown_up {s : State} {p : Nat} (cause : Nat) (h : (s.rlyPort p).st = .up) :
    (s.linkDown p cause).rlyPort p = { s.rlyPort p with
      st := .down, cause := cause, linkKey := [], pendKey := [], peer := none, ownHello := none, version := 0
      keyAcked := false, repHead := none, exch := none, got := none, sent := [], downSeen := true } ∧
    (s.linkDown p cause).kst.jobs = s.kst.jobs.filter (linkKeeps p) ∧
    (s.linkDown p cause).evr.queue = s.evr.queue ++
      [{ code := 0x1B00, src := noSlice, detail := item 1 p ++ item 1 cause, at' := s.evAt }] := by
  unfold State.linkDown
  dsimp only
  rw [h]
  dsimp only
  rw [if_pos rfl]
  refine ⟨?_, rfl, rfl⟩
  refine (tgetD_tset_same _ _ _ _).trans ?_
  rw [show decide (LinkState.up = LinkState.up) = true from rfl]
  dsimp only
  rw [Bool.or_true]

/-! ### HELLO (R808, R817) -/

/-- The device with a HELLO of a link that is not up: its frame is counted and its sender kept. -/
def State.heardHello (s : State) (p : Nat) (h : HelloMsg) : State :=
  (s.tookFrame p).modRly p (fun x => { x with peer := some h })

theorem State.heardHello_rlyPort (s : State) (p : Nat) (h : HelloMsg) :
    (s.heardHello p h).rlyPort p = { s.rlyPort p with
      peer := some h, rx := min (2 ^ 64 - 1) ((s.rlyPort p).rx + 1), lastRx := s.stride } := by
  unfold State.heardHello State.tookFrame
  rw [State.rlyPort_modRly, State.rlyPort_modRly]

/-- What a port that awaits a HELLO makes of one that has been kept: keying, with an offer where it offers, or its
cause. -/
def State.judgeHello (s : State) (p : Nat) (h : HelloMsg) : State :=
  match s.helloCause h with
  | some c =>
    let t := s.modRly p (fun x => { x with cause := c })
    if h.vMax < s.rly.floor && s.rly.join ≠ .mismatch then t.ev 0x1B03 noSlice (item 2 h.addr) else t
  | none =>
    let t := s.modRly p (fun x => { x with st := .keying, version := min h.vMax s.relayMax })
    if t.offers p then t.startOffer p else t

/-- A HELLO that raises no floor and brings no older roster is kept and judged. -/
theorem State.hello_judged {s : State} {p : Nat} {h : HelloMsg} (hst : (s.rlyPort p).st = .hello)
    (hfloor : h.floor ≤ s.rly.floor) (hroster : s.rosterSeq ≤ h.rosterSeq) :
    s.hello p h = (s.heardHello p h).judgeHello p h := by
  have hraise : (s.tookFrame p).raiseFloor h.floor = s.tookFrame p := if_neg (Nat.not_lt.2 hfloor)
  have hkept : (s.tookFrame p).dur.roster = s.dur.roster := rfl
  unfold State.rosterSeq at hroster
  unfold State.hello
  rw [hst]
  dsimp only
  rw [hraise, hkept]
  cases hr : s.dur.roster with
  | none => rfl
  | some r =>
    rw [hr] at hroster
    simp only [if_neg (Nat.not_lt.2 hroster)]
    rfl

theorem State.judgeHello_cause {s : State} {p : Nat} {h : HelloMsg} {cause : Nat} (hc : s.helloCause h = some cause) :
    (s.judgeHello p h).rlyPort p = { s.rlyPort p with cause := cause } := by
  have hport := s.rlyPort_modRly p (fun x => { x with cause := cause })
  unfold State.judgeHello
  rw [hc]
  dsimp only
  split
  · exact hport
  · exact hport

/-- A HELLO that suits, of a sender that offers, begins keying. -/
theorem State.judgeHello_suits {s : State} {p : Nat} {h : HelloMsg} (hc : s.helloCause h = none)
    (hpeer : (s.rlyPort p).peer = some h) (haddr : h.addr ≤ s.fieldAddr) :
    (s.judgeHello p h).rlyPort p = { s.rlyPort p with st := .keying, version := min h.vMax s.relayMax } := by
  have hport := s.rlyPort_modRly p (fun x => { x with st := .keying, version := min h.vMax s.relayMax })
  have hoffers : State.offers (s.modRly p (fun x => { x with st := .keying, version := min h.vMax s.relayMax })) p = false := by
    unfold State.offers State.peerAddr
    rw [hport, hpeer]
    exact decide_eq_false (Nat.not_lt.2 haddr)
  unfold State.judgeHello
  rw [hc]
  dsimp only
  rw [if_neg (by rw [hoffers]; decide)]
  exact hport

/-! ### Links that come up -/

/-- A link that comes up is up with its key, whatever its port then sends. -/
theorem State.linkUpNow_rlyPort (s : State) (p : Nat) (key : Bytes) :
    ((s.linkUpNow p key).rlyPort p).st = .up ∧ ((s.linkUpNow p key).rlyPort p).linkKey = key := by
  have hsend (t : State) : ((t.sendFieldKey p).rlyPort p).st = (t.rlyPort p).st ∧
      ((t.sendFieldKey p).rlyPort p).linkKey = (t.rlyPort p).linkKey := by
    unfold State.sendFieldKey
    split
    · rw [State.sendLink_rlyPort]
      exact ⟨rfl, rfl⟩
    · exact ⟨rfl, rfl⟩
  unfold State.linkUpNow
  dsimp only
  obtain ⟨hst, hkey⟩ := hsend (State.ev (s.modRly p (fun x => { x with
    st := .up, linkKey := key, linkNonce := 0, pendKey := [], lastRx := s.stride, keyAcked := false })) 0x0B00 noSlice
      (item 1 p ++ item 1 ((s.modRly p (fun x => { x with
        st := .up, linkKey := key, linkNonce := 0, pendKey := [], lastRx := s.stride, keyAcked := false })).rlyPort p).version))
  have hport := s.rlyPort_modRly p (fun x => { x with
    st := .up, linkKey := key, linkNonce := 0, pendKey := [], lastRx := s.stride, keyAcked := false })
  have hup := congrArg RlyPort.st hport
  have hlink := congrArg RlyPort.linkKey hport
  rw [hst, hkey]
  exact ⟨hup, hlink⟩

/-- Settles O56: links by their state, frames by what they prove. -/
theorem relayLinkCommands : Obligations.RelayLinkCommands := by
  unfold Obligations.RelayLinkCommands
  refine ⟨?_, ?_, ?_, ?_, ?_, ?_, ?_, ?_, ?_, ?_⟩
  case refine_1 =>
    rintro s p chal h hp hruns hen hst rfl
    have hport := s.rlyPort_modRly p (fun x => { x with phyUp := true })
    have hdown : (State.rlyPort (s.modRly p (fun x => { x with phyUp := true })) p).st = .down := by rw [hport]; exact hst
    have hup : s.phyUp p chal = State.sendHello (s.modRly p (fun x => { x with phyUp := true, st := .hello })) p
        (padTo 16 chal) := by
      unfold State.phyUp
      rw [if_neg (by simp [hruns, hen])]
      dsimp only
      rw [hdown]
      dsimp only
      rw [State.modRly_modRly]
    obtain ⟨hsent, hout⟩ := State.sendHello_spec (s.modRly p (fun x => { x with phyUp := true, st := .hello })) p
      (padTo 16 chal)
    refine ⟨_, (onRelayPort_of hp _).trans (congrArg Host.Outcome.next hup), ?_, ?_⟩
    · rw [hsent, State.rlyPort_modRly]
      rfl
    · rw [hout, State.modRly_helloOut rfl rfl]
      rfl
  case refine_2 =>
    intro s p hp hphy hst
    have hport := s.rlyPort_modRly p (fun x => { x with phyUp := false })
    obtain ⟨hdown, hjobs, hev⟩ := State.linkDown_up (s := s.modRly p (fun x => { x with phyUp := false })) (p := p) 0xD0
      (by rw [hport]; exact hst)
    refine ⟨_, (onRelayPort_of hp _).trans (congrArg Host.Outcome.next (if_pos hphy)), ?_, hjobs, hev⟩
    rw [hdown, hport]
  case refine_3 =>
    intro s p hp hst hquiet
    obtain ⟨hdown, hjobs, hev⟩ := State.linkDown_up 0xCF hst
    exact ⟨_, (onRelayPort_of hp _).trans (congrArg Host.Outcome.next (if_pos (by simp [hst, hquiet]))), hdown, hjobs, hev⟩
  case refine_4 =>
    intro s p h hp hst hdue hown
    have hrepeat : s.helloRepeat p = s.sendHello p h.chal := by
      unfold State.helloRepeat
      dsimp only
      rw [if_pos (by simp [hst, hdue]), hown]
    obtain ⟨hsent, hout⟩ := s.sendHello_spec p h.chal
    exact ⟨_, (onRelayPort_of hp _).trans (congrArg Host.Outcome.next hrepeat), hsent, hout⟩
  case refine_5 =>
    intro s hruns hjoin hdue
    have hsend : s.summaryDue = s.upPorts.foldl (fun u p => u.sendLink p 6 [] (s.ownRecord ++ leBytes 8 (s.rly.sumSeq + 1) ++
        (List.range 4).flatMap (fun p => leBytes 2 (s.peerAddr p) ++ leBytes 1 (s.rlyPort p).st.code ++ leBytes 1 0)))
        (s.setRly { s.rly with sumSeq := s.rly.sumSeq + 1, sumAt := s.stride }) :=
      (if_pos hruns).trans (if_pos (by simp [hruns, hjoin, hdue]))
    have hkeep := foldl_keeps (fun s : State => (s.rly.sumSeq, s.rly.sumAt))
      (fun (u : State) p => u.sendLink p 6 [] (s.ownRecord ++ leBytes 8 (s.rly.sumSeq + 1) ++
        (List.range 4).flatMap (fun p => leBytes 2 (s.peerAddr p) ++ leBytes 1 (s.rlyPort p).st.code ++ leBytes 1 0)))
      (fun u p => Prod.ext (State.countFrames_keeps _ _ _ _).2.1 (State.countFrames_keeps _ _ _ _).2.2) s.upPorts
      (s.setRly { s.rly with sumSeq := s.rly.sumSeq + 1, sumAt := s.stride })
    exact ⟨_, congrArg Host.Outcome.next hsend, congrArg Prod.fst hkeep, congrArg Prod.snd hkeep, rfl⟩
  case refine_6 =>
    intro s p h hl hst hfloor hroster hcause haddr
    refine ⟨_, (onRelayPort_of hl.1 _).trans (congrArg Host.Outcome.next ((State.linkFrame_of hl _).trans
      (State.hello_judged hst hfloor hroster))), ?_⟩
    rw [State.judgeHello_suits (s := s.heardHello p h) hcause (by rw [State.heardHello_rlyPort]) haddr,
      State.heardHello_rlyPort]
    rfl
  case refine_7 =>
    intro s p h hl hst hfloor hroster cause hcause
    refine ⟨_, (onRelayPort_of hl.1 _).trans (congrArg Host.Outcome.next ((State.linkFrame_of hl _).trans
      (State.hello_judged hst hfloor hroster))), ?_⟩
    rw [State.judgeHello_cause (s := s.heardHello p h) hcause, State.heardHello_rlyPort]
  case refine_8 =>
    rintro s u p m hl hst rfl hoffers
    have hrow : exec (.linkOffer p m) s = .next (s.linkOffer p m) :=
      (onRelayPort_of hl.1 _).trans (congrArg Host.Outcome.next (State.linkFrame_of hl _))
    refine ⟨fun hauth => ?_, fun hauth => ?_⟩
    · refine hrow.trans (congrArg Host.Outcome.next ((if_neg (by simp [hst, hoffers])).trans ?_))
      exact if_pos (by simp [hauth])
    · rintro d e rfl rfl
      refine hrow.trans (congrArg Host.Outcome.next ((if_neg (by simp [hst, hoffers])).trans ?_))
      exact if_neg (by simp [hauth])
  case refine_9 =>
    rintro s u p m hl hst rfl hoffers
    have hrow : exec (.linkAnswer p m) s = .next (s.linkAnswer p m) :=
      (onRelayPort_of hl.1 _).trans (congrArg Host.Outcome.next (State.linkFrame_of hl _))
    refine ⟨fun hauth => ?_, fun hauth => ?_⟩
    · refine hrow.trans (congrArg Host.Outcome.next ((if_neg (by simp [hst, hoffers])).trans ?_))
      exact if_pos (by simp [hauth])
    · rintro key rfl
      refine ⟨hrow.trans (congrArg Host.Outcome.next ((if_neg (by simp [hst, hoffers])).trans ?_)),
        State.linkUpNow_rlyPort _ _ _⟩
      exact if_neg (by simp [hauth])
  case refine_10 =>
    intro s p hp hruns hen
    have hrow (why : FrameDrop) : exec (.relayFrameDiscard p why) s = .next (s.frameDiscard p why) := onRelayPort_of hp _
    have hopen (t u : State) : (if !s.relayRuns || !s.portEnabled p then t else u) = u := if_neg (by simp [hruns, hen])
    refine ⟨fun hlap => ?_, fun hlap => ?_, ?_, fun why hwhy => ?_⟩
    · exact (hrow _).trans (congrArg Host.Outcome.next ((hopen _ _).trans (if_neg hlap)))
    · exact (hrow _).trans (congrArg Host.Outcome.next ((hopen _ _).trans (if_pos hlap)))
    · exact (hrow _).trans (congrArg Host.Outcome.next (hopen _ _))
    · simp only [List.mem_cons, List.not_mem_nil, or_false] at hwhy
      obtain rfl | rfl | rfl | rfl := hwhy
      all_goals exact (hrow _).trans (congrArg Host.Outcome.next (hopen _ _))

end Sys2Proof.Machine


/-! # The field: keys, rosters, time (O57) -/

namespace Sys2Proof.Machine

/-- The row of a frame that an enabled link brings. -/
theorem linkFrame_row {s : State} {p : Nat} (h : s.linked p) (c : RelayIn) :
    onRelayPort p (s.linkFrame p c) = .next (s.frameAct c) :=
  (onRelayPort_of h.1 _).trans (congrArg Host.Outcome.next (State.linkFrame_of h c))

/-- The row of a relay command of a requester that the device honours. -/
theorem rlyCommand_row {s : State} {q : Requester} (hup : s.up) (hq : s.honours q) (hfield : s.hasField = true)
    (op : State → State) : byReq q (s.rlyCommand q op) = .next (op s) :=
  (byReq_honours hq _).trans (congrArg Host.Outcome.next ((State.bar0Write_up hup hq _ _).trans (if_pos hfield)))

/-! ### Field keys (R830 to R833) -/

/-- The device that has taken a FIELD_KEY: its port remembers the head that the neighbour reports. -/
def State.heardKey (s : State) (p head : Nat) : State :=
  (s.tookFrame p).modRly p (fun x => { x with repHead := some head })

theorem State.fieldKey_none {s : State} {p head epoch : Nat} {key : Bytes} (hst : (s.rlyPort p).st = .up)
    (hkey : s.rly.key = none) : s.fieldKey p head epoch key =
      (s.heardKey p head).installFieldKey { head := head, epoch := epoch, value := padTo 32 key } (some p) := by
  have hnone : (s.heardKey p head).rly.key = none := hkey
  unfold State.heardKey at hnone
  unfold State.fieldKey
  rw [if_neg (by simp [hst])]
  dsimp only
  rw [hnone]
  rfl

theorem State.fieldKey_some {s : State} {p head epoch : Nat} {key : Bytes} {k : FieldKey} (hst : (s.rlyPort p).st = .up)
    (hkey : s.rly.key = some k) : s.fieldKey p head epoch key =
      if head < k.head ∨ (head ≠ k.head ∧ (s.heardKey p head).headStands k.head = false) ∨
          (head = k.head ∧ epoch ≠ k.epoch ∧ (epoch + 65536 - k.epoch) % 65536 < 32768) then
        (s.heardKey p head).installFieldKey { head := head, epoch := epoch, value := padTo 32 key } (some p)
      else if k = { head := head, epoch := epoch, value := padTo 32 key } then
        (s.heardKey p head).modRly p (fun x => { x with keyAcked := true })
      else s.heardKey p head := by
  have hsome : (s.heardKey p head).rly.key = some k := hkey
  unfold State.heardKey at hsome ⊢
  unfold State.fieldKey
  rw [if_neg (by simp [hst])]
  dsimp only
  rw [hsome]
  simp only [Bool.or_eq_true, Bool.and_eq_true, decide_eq_true_eq, Bool.not_eq_true', Option.some.injEq, or_assoc,
    and_assoc]

/-! ### PACE (R886) -/

/-- The exchange that a PACE closes, where the port has the message before it and the one it answers. -/
def paceExch (x : RlyPort) (m : PaceMsg) : Option PaceExchange :=
  match x.got, x.sent.find? (fun q => q.1 = m.rxSeq) with
  | some g, some q => if (g.1 + 1) % 2 ^ 32 = m.seq then
      some { t1 := m.txPrev, t2 := g.2, t3 := q.2, t4 := m.rxLast } else none
  | _, _ => none

/-- A port that has taken a PACE. -/
def RlyPort.paced (x : RlyPort) (m : PaceMsg) : RlyPort :=
  match paceExch x m with
  | some e => { x with got := some (m.seq, m.rxAt), exch := some e, delayPs := State.delayOf e }
  | none => { x with got := some (m.seq, m.rxAt) }

/-- A port whose neighbour has the field key in force is as it was, but for that. -/
theorem State.keyHeard_rlyPort (s : State) (p id : Nat) : ∃ b, (s.keyHeard p id).rlyPort p = { s.rlyPort p with keyAcked := b } := by
  unfold State.keyHeard
  split
  · exact ⟨true, State.rlyPort_modRly _ _ _⟩
  · exact ⟨(s.rlyPort p).keyAcked, rfl⟩

theorem State.pace_known {s : State} {p : Nat} {m : PaceMsg} (hst : (s.rlyPort p).st = .up)
    (hkey : s.keyKnown m.keyId = true) : ∃ b, (s.pace p m).rlyPort p = RlyPort.paced { s.rlyPort p with
      rx := min (2 ^ 64 - 1) ((s.rlyPort p).rx + 1), lastRx := s.stride, keyAcked := b } m := by
  obtain ⟨b, hb⟩ := (s.tookFrame p).keyHeard_rlyPort p m.keyId
  have htook : (s.tookFrame p).rlyPort p = { s.rlyPort p with
    rx := min (2 ^ 64 - 1) ((s.rlyPort p).rx + 1), lastRx := s.stride } := State.rlyPort_modRly _ _ _
  rw [htook] at hb
  refine ⟨b, ?_⟩
  unfold State.pace
  rw [if_neg (by simp [hst]), if_neg (by simp [hkey])]
  dsimp only
  rw [State.rlyPort_modRly, hb]
  rfl

theorem RlyPort.paced_keeps (x : RlyPort) (m : PaceMsg) :
    (x.paced m).got = some (m.seq, m.rxAt) ∧ (x.paced m).rx = x.rx ∧ (x.paced m).lastRx = x.lastRx := by
  unfold RlyPort.paced
  split <;> exact ⟨rfl, rfl, rfl⟩

/-- The message after the one that the port has, of an answer that it sent, closes an exchange. -/
theorem RlyPort.paced_closes {x : RlyPort} {m : PaceMsg} {g q : Nat × Int} (hg : x.got = some g)
    (hq : x.sent.find? (fun q => q.1 = m.rxSeq) = some q) (hnext : (g.1 + 1) % 2 ^ 32 = m.seq) :
    (x.paced m).exch = some { t1 := m.txPrev, t2 := g.2, t3 := q.2, t4 := m.rxLast } ∧
    (x.paced m).delayPs = (((g.2 - m.txPrev) + (m.rxLast - q.2)) * 1000).tdiv 2 := by
  have hexch : paceExch x m = some { t1 := m.txPrev, t2 := g.2, t3 := q.2, t4 := m.rxLast } := by
    unfold paceExch
    rw [hg, hq]
    exact if_pos hnext
  unfold RlyPort.paced
  rw [hexch]
  exact ⟨rfl, rfl⟩

theorem RlyPort.paced_first {x : RlyPort} {m : PaceMsg} (hg : x.got = none) :
    (x.paced m).exch = x.exch ∧ (x.paced m).delayPs = x.delayPs := by
  have hexch : paceExch x m = none := by
    unfold paceExch
    rw [hg]
  unfold RlyPort.paced
  rw [hexch]
  exact ⟨rfl, rfl⟩

/-! ### SUMMARY (R820) -/

/-- Passing a SUMMARY on leaves the members' records. -/
theorem State.passSummaries_members (m : SummaryMsg) (body : Bytes) (l : List Nat) (s : State) :
    (l.foldl (fun s q => s.passSummary q m body) s).rly.members = s.rly.members :=
  foldl_keeps (fun s : State => s.rly.members) (fun s q => s.passSummary q m body) (fun _ _ => rfl) l s

/-- A later SUMMARY of a member replaces its record and no other. -/
theorem State.summary_later {s : State} {p : Nat} {m : SummaryMsg} (hst : (s.rlyPort p).st = .up)
    (hkey : s.keyKnown m.keyId = true) (hfloor : m.floor ≤ s.rly.floor)
    (hlater : ∀ o, tget s.rly.members m.src = some o → o.sumSeq < m.sumSeq) (hsrc : m.src ≠ s.fieldAddr)
    (hlisted : (tget s.rosterEnts m.src).isSome = true) :
    (s.summary p m).rly.members = tset s.rly.members m.src {
      sumSeq := m.sumSeq, vMax := m.vMax, flags := m.flags, timeState := m.timeState, events := m.events
      nbrs := m.nbrs, heard := s.stride } := by
  have hraise : (s.tookFrame p).raiseFloor m.floor = s.tookFrame p := if_neg (Nat.not_lt.2 hfloor)
  have hnone : (tget s.rosterEnts m.src).isNone = false := by rw [← Option.not_isSome, hlisted]; rfl
  unfold State.summary
  rw [if_neg (by simp [hst]), if_neg (by simp [hkey])]
  dsimp only
  rw [hraise]
  have hv : ∃ v : State, (if m.src = (s.tookFrame p).peerAddr p then (s.tookFrame p).keyHeard p m.keyId
      else s.tookFrame p) = v ∧ v.rly.members = s.rly.members ∧ v.fieldAddr = s.fieldAddr ∧
      v.rosterEnts = s.rosterEnts ∧ v.stride = s.stride := by
    refine ⟨_, rfl, ?_⟩
    unfold State.keyHeard
    split
    · split <;> exact ⟨rfl, rfl, rfl, rfl⟩
    · exact ⟨rfl, rfl, rfl, rfl⟩
  obtain ⟨v, hv, hmembers, haddr, hents, hstride⟩ := hv
  rw [hv, hmembers, haddr, hents, hstride]
  cases ho : tget s.rly.members m.src with
  | none =>
    rw [if_neg (by simp [hsrc, hnone])]
    exact State.passSummaries_members _ _ _ _
  | some o =>
    rw [if_neg (by simp [hsrc, hnone, hlater o ho])]
    exact State.passSummaries_members _ _ _ _

/-! ### Rosters (R812) -/

/-- A neighbour's roster is judged where the neighbour has told of a later one, or none is held. -/
theorem State.rosterMsg_of {s : State} {p : Nat} {bs : Bytes} {h : HelloMsg} (hoff : (s.rlyPort p).st ≠ .disabled)
    (hdown : (s.rlyPort p).st ≠ .down) (hpeer : (s.rlyPort p).peer = some h)
    (hhigher : s.rosterSeq < h.rosterSeq ∨ s.dur.roster = none) :
    (s.rosterRefused bs = none → s.rosterMsg p bs = (s.tookFrame p).takeRoster bs) ∧
    (∀ c, s.rosterRefused bs = some c → s.rosterMsg p bs = (s.tookFrame p).ev 0x2B02 noSlice (item 1 c)) := by
  have htook : ((s.tookFrame p).rlyPort p).peer = some h := by
    unfold State.tookFrame
    rw [State.rlyPort_modRly]
    exact hpeer
  have hseq : (s.tookFrame p).rosterSeq = s.rosterSeq := rfl
  have hroster : (s.tookFrame p).dur.roster = s.dur.roster := rfl
  have hbool : (decide (s.rosterSeq < h.rosterSeq) || s.dur.roster.isNone) = true := by
    obtain hlt | hno := hhigher
    · simp [hlt]
    · simp [hno]
  refine ⟨fun hgood => ?_, fun c hbad => ?_⟩
  case refine_1 =>
    have hjudge : (s.tookFrame p).rosterRefused bs = none := hgood
    unfold State.rosterMsg
    split
    · exact absurd ‹_› hoff
    · exact absurd ‹_› hdown
    · dsimp only
      rw [htook]
      dsimp only
      rw [if_neg (by rw [hseq, hroster, hbool]; decide), hjudge]
  case refine_2 =>
    have hjudge : (s.tookFrame p).rosterRefused bs = some c := hbad
    unfold State.rosterMsg
    split
    · exact absurd ‹_› hoff
    · exact absurd ‹_› hdown
    · dsimp only
      rw [htook]
      dsimp only
      rw [if_neg (by rw [hseq, hroster, hbool]; decide), hjudge]


/-! ### Messages that wait (R840, R845) -/

/-- A change of a port that keeps what its frames say changes nothing of them. -/
theorem State.modRly_frames {s : State} {p : Nat} {f : RlyPort → RlyPort}
    (hversion : (f (s.rlyPort p)).version = (s.rlyPort p).version) (hpeer : (f (s.rlyPort p)).peer = (s.rlyPort p).peer)
    (hnonce : (f (s.rlyPort p)).linkNonce = (s.rlyPort p).linkNonce)
    (hkey : (f (s.rlyPort p)).linkKey = (s.rlyPort p).linkKey) (type : Nat) :
    (s.modRly p f).frameHead p type = s.frameHead p type ∧
    ∀ h dest id pl, (s.modRly p f).framesOn p h type dest id pl = s.framesOn p h type dest id pl := by
  refine ⟨?_, fun h dest id pl => ?_⟩
  · unfold State.frameHead
    rw [State.rlyPort_modRly, hversion, hnonce]
    rfl
  · unfold State.framesOn State.frameAddrs State.frameKey
    rw [State.rlyPort_modRly, hpeer, hkey]
    rfl

/-- A message that waits is sent again by the route to its destination. -/
theorem State.sendOnRoute_routed {s : State} {m : Awaited} {r : Route} (h : tget s.rly.routes m.dest = some r) :
    (s.sendOnRoute m).rly.msgs = s.rly.msgs ∧
    (s.sendOnRoute m).out = s.out ++ [.relay {
      port := r.port, dest := m.dest, type := m.type, words := m.id :: m.words, body := m.body
      head := s.frameHead r.port m.type
      frames := s.framesOn r.port (s.frameHead r.port m.type) m.type m.dest m.id (payload m.type m.words m.body) }] ∧
    (s.sendOnRoute m).rlyPort r.port = { s.rlyPort r.port with
      tx := min (2 ^ 64 - 1) ((s.rlyPort r.port).tx + frameCount m.type m.words m.body)
      linkNonce := if m.type = 4 then (s.rlyPort r.port).linkNonce + frameCount m.type m.words m.body
        else (s.rlyPort r.port).linkNonce } := by
  have hmsgs (n : Nat) : (s.countFrames r.port m.type n).rly.msgs = s.rly.msgs := by
    unfold State.countFrames
    dsimp only
    split
    · split <;> rfl
    · rfl
  unfold State.sendOnRoute
  rw [h]
  exact ⟨hmsgs _, congrArg (· ++ _) (State.countFrames_keeps _ _ _ _).1, State.countFrames_rlyPort _ _ _ _⟩

theorem State.rly_setRly (s : State) (r : Rly) : (s.setRly r).rly = r := rfl

/-- The device with a message counted from now. -/
def State.restamp (s : State) (id : Nat) : State :=
  s.setRly { s.rly with msgs := s.rly.msgs.map (fun x => if x.id = id then { x with last := s.stride } else x) }

/-- The device with a message counted from now, and at its port as one sent again. -/
def State.resent (s : State) (id port : Nat) : State :=
  (s.restamp id).modRly port (fun x => { x with retx := min (2 ^ 64 - 1) (x.retx + 1) })

/-- A message past its time is sent again, by the route to its destination where it has one. -/
theorem State.retransmit_due {s : State} {id : Nat} {m : Awaited}
    (hm : s.rly.msgs.find? (fun m => m.id = id && decide (m.last + s.retxStrides ≤ s.stride)) = some m) :
    (∀ r, tget s.rly.routes m.dest = some r → s.retransmit id = (s.resent id r.port).sendOnRoute m) ∧
    (tget s.rly.routes m.dest = none → s.retransmit id = s.restamp id) := by
  refine ⟨fun r hr => ?_, fun hr => ?_⟩
  case refine_1 =>
    unfold State.retransmit
    rw [hm]
    dsimp only [State.rly_setRly]
    rw [hr]
    rfl
  case refine_2 =>
    unfold State.retransmit
    rw [hm]
    dsimp only [State.rly_setRly]
    rw [hr]
    unfold State.sendOnRoute
    dsimp only [State.rly_setRly]
    rw [hr]
    rfl

/-- What a message sent again leaves: its frames are those of now, and its port counts it. -/
theorem State.resent_routed {s : State} {id : Nat} {m : Awaited} {r : Route} (h : tget s.rly.routes m.dest = some r) :
    ((s.resent id r.port).sendOnRoute m).rly.msgs = (s.restamp id).rly.msgs ∧
    ((s.resent id r.port).sendOnRoute m).out = s.out ++ [.relay {
      port := r.port, dest := m.dest, type := m.type, words := m.id :: m.words, body := m.body
      head := s.frameHead r.port m.type
      frames := s.framesOn r.port (s.frameHead r.port m.type) m.type m.dest m.id (payload m.type m.words m.body) }] ∧
    ((s.resent id r.port).sendOnRoute m).rlyPort r.port = { s.rlyPort r.port with
      retx := min (2 ^ 64 - 1) ((s.rlyPort r.port).retx + 1)
      tx := min (2 ^ 64 - 1) ((s.rlyPort r.port).tx + frameCount m.type m.words m.body)
      linkNonce := if m.type = 4 then (s.rlyPort r.port).linkNonce + frameCount m.type m.words m.body
        else (s.rlyPort r.port).linkNonce } := by
  have hroute : tget (s.resent id r.port).rly.routes m.dest = some r := h
  have hold : (s.resent id r.port).rlyPort r.port = { s.rlyPort r.port with
      retx := min (2 ^ 64 - 1) ((s.rlyPort r.port).retx + 1) } := State.rlyPort_modRly _ _ _
  obtain ⟨hhead, hframes⟩ := State.modRly_frames (s := s.restamp id) (p := r.port)
    (f := fun x => { x with retx := min (2 ^ 64 - 1) (x.retx + 1) }) rfl rfl rfl rfl m.type
  obtain ⟨hmsgs, hout, hport⟩ := State.sendOnRoute_routed hroute
  refine ⟨hmsgs, hout.trans ?_, hport.trans ?_⟩
  · unfold State.resent
    rw [hhead, hframes]
    rfl
  · rw [hold]

/-- A peer that is lost has no message waiting. -/
theorem State.peerLost_msgs {s : State} {addr cause : Nat} {m : Awaited} (h : m ∈ (s.peerLost addr cause).rly.msgs) :
    m.dest ≠ addr := by
  unfold State.peerLost at h
  dsimp only at h
  have hkept := (List.mem_filter.1 h).2
  simpa using hkept

/-! ### The key that a head makes (R831) -/

theorem State.installFieldKey_keys (s : State) (k : FieldKey) (skip : Option Nat) :
    (s.installFieldKey k skip).rly.key = some k ∧ (s.installFieldKey k skip).rly.prevKey = s.rly.key := by
  have hcount (t : State) (p type n : Nat) : (t.countFrames p type n).rly.key = t.rly.key ∧
      (t.countFrames p type n).rly.prevKey = t.rly.prevKey := by
    unfold State.countFrames
    dsimp only
    split
    · split <;> exact ⟨rfl, rfl⟩
    · exact ⟨rfl, rfl⟩
  have hsend (t : State) (p : Nat) : (t.sendFieldKey p).rly.key = t.rly.key ∧
      (t.sendFieldKey p).rly.prevKey = t.rly.prevKey := by
    unfold State.sendFieldKey
    split
    · exact hcount _ _ _ _
    · exact ⟨rfl, rfl⟩
  have hport (t : State) (p : Nat) : (if skip = some p then t.modRly p (fun x => { x with keyAcked := true })
      else (t.modRly p (fun x => { x with keyAcked := false })).sendFieldKey p).rly.key = t.rly.key ∧
      (if skip = some p then t.modRly p (fun x => { x with keyAcked := true })
      else (t.modRly p (fun x => { x with keyAcked := false })).sendFieldKey p).rly.prevKey = t.rly.prevKey := by
    split
    · exact ⟨rfl, rfl⟩
    · exact hsend _ _
  have hkeep (l : List Nat) (t : State) := foldl_keeps (fun s : State => (s.rly.key, s.rly.prevKey))
    (fun (s : State) p => if skip = some p then s.modRly p (fun x => { x with keyAcked := true })
      else (s.modRly p (fun x => { x with keyAcked := false })).sendFieldKey p)
    (fun t p => Prod.ext (hport t p).1 (hport t p).2) l t
  unfold State.installFieldKey
  exact ⟨congrArg Prod.fst (hkeep _ _), congrArg Prod.snd (hkeep _ _)⟩

/-! ### PPS (R888) -/

/-- With no time to set, an edge is kept, with what it says of the reference. -/
theorem State.ppsIn_edge {s : State} (ft : Int) (cycles : Nat) (hfield : s.hasField = true) (hset : s.rly.time.setTo = none) :
    (s.rly.time.ppsAt = none → s.ppsIn ft cycles = s.setTime { s.rly.time with
      ppsAt := some ft, ppsPs := ((ft + 500000000) % 1000000000 - 500000000) * 1000, ppsRun := 0, refRun := 0 }) ∧
    (∀ a, s.rly.time.ppsAt = some a → ∀ ok : Bool, ok = (decide (999999900 ≤ ft - a) && decide (ft - a ≤ 1000000100) &&
        (decide (9999999 ≤ cycles) && decide (cycles ≤ 10000001))) →
      s.ppsIn ft cycles = s.setTime { s.rly.time with
        ppsAt := some ft, ppsPs := ((ft + 500000000) % 1000000000 - 500000000) * 1000
        ppsBad := s.rly.time.ppsBad || !ok
        ppsRun := if ok then s.rly.time.ppsRun + 1 else 0, refRun := if ok then s.rly.time.refRun + 1 else 0 }) := by
  have hin : s.ppsIn ft cycles = s.ppsEdge ft cycles := if_pos hfield
  refine ⟨fun hat => ?_, fun a hat ok hok => ?_⟩
  case refine_1 =>
    rw [hin]
    unfold State.ppsEdge
    rw [if_neg (by simp [hfield])]
    dsimp only
    rw [hset, hat]
    simp
  case refine_2 =>
    rw [hin]
    unfold State.ppsEdge
    rw [if_neg (by simp [hfield])]
    dsimp only
    rw [hset, hat]
    simp [hok]

/-- Settles O57: keys, messages and rosters by what they bring, the relay commands by the state of the field. -/
theorem fieldCommands : Obligations.FieldCommands := by
  unfold Obligations.FieldCommands
  refine ⟨?_, ?_, ?_, ?_, ?_, ?_, ?_, ?_, ?_, ?_, ?_, ?_, ?_⟩
  case refine_1 =>
    rintro s u p head epoch key hl hst rfl
    have hrow : exec (.fieldKey p head epoch key) s = .next (s.fieldKey p head epoch key) := linkFrame_row hl _
    refine ⟨fun hkey => hrow.trans (congrArg Host.Outcome.next (State.fieldKey_none hst hkey)), fun k hkey => ?_⟩
    rw [hrow, State.fieldKey_some hst hkey]
    refine ⟨fun htake => ?_, fun hsame => ?_, fun hhigher hstands => ?_, fun hne hstands => ?_⟩
    · exact congrArg Host.Outcome.next (if_pos (htake.imp_right .inr))
    · subst hsame
      exact congrArg Host.Outcome.next ((if_neg (by simp)).trans (if_pos rfl))
    · have hother : k ≠ { head := head, epoch := epoch, value := padTo 32 key } := by
        rintro rfl
        exact absurd hhigher (Nat.lt_irrefl _)
      refine congrArg Host.Outcome.next ((if_neg ?_).trans (if_neg hother))
      rintro (hlow | ⟨-, hgone⟩ | ⟨heq, -⟩)
      · omega
      · exact absurd (hstands.symm.trans hgone) (by decide)
      · omega
    · exact congrArg Host.Outcome.next (if_pos (.inr (.inl ⟨hne, hstands⟩)))
  case refine_2 =>
    intro s p m hl hst hkey
    exact (linkFrame_row hl _).trans (congrArg Host.Outcome.next
      ((if_neg (by simp [hst])).trans (if_pos (by simp [hkey]))))
  case refine_3 =>
    intro s p m hl hst hkey
    exact (linkFrame_row hl _).trans (congrArg Host.Outcome.next
      ((if_neg (by simp [hst])).trans (if_pos (by simp [hkey]))))
  case refine_4 =>
    intro s p m hl hst hkey
    obtain ⟨b, hport⟩ := State.pace_known hst hkey
    obtain ⟨hgot, hrx, hlast⟩ := RlyPort.paced_keeps { s.rlyPort p with
      rx := min (2 ^ 64 - 1) ((s.rlyPort p).rx + 1), lastRx := s.stride, keyAcked := b } m
    refine ⟨_, linkFrame_row hl _, ?_⟩
    change (State.rlyPort (s.pace p m) p).got = _ ∧ _
    rw [show (s.frameAct (.pace p m)).rlyPort p = _ from hport, hport]
    exact ⟨hgot, hrx, hlast, fun g q hg hq hnext => RlyPort.paced_closes hg hq hnext, fun hg => RlyPort.paced_first hg⟩
  case refine_5 =>
    intro s p m hl hst hkey hfloor hlater hsrc hlisted
    have hmembers := State.summary_later hst hkey hfloor hlater hsrc hlisted
    refine ⟨_, linkFrame_row hl _, ?_, fun a ha => ?_⟩
    · exact (congrArg (fun t => tget t m.src) hmembers).trans (tget_tset_same _ _ _)
    · exact (congrArg (fun t => tget t a) hmembers).trans (tget_tset_ne _ _ ha)
  case refine_6 =>
    rintro s u p bs h hl hoff hdown rfl hpeer hhigher
    have hrow : exec (.roster p bs) s = .next (s.rosterMsg p bs) := linkFrame_row hl _
    obtain ⟨hgood, hbad⟩ := State.rosterMsg_of (bs := bs) hoff hdown hpeer hhigher
    exact ⟨fun h => hrow.trans (congrArg Host.Outcome.next (hgood h)),
      fun c h => hrow.trans (congrArg Host.Outcome.next (hbad c h))⟩
  case refine_7 =>
    intro s id m hm
    obtain ⟨hsent, hkept⟩ := State.retransmit_due hm
    refine ⟨_, rfl, ?_, fun r hr => ?_, fun hr => ?_⟩
    · cases hr : tget s.rly.routes m.dest with
      | none =>
        rw [hkept hr]
        rfl
      | some r =>
        rw [hsent r hr]
        exact (State.resent_routed hr).1
    · rw [hsent r hr]
      exact (State.resent_routed hr).2
    · rw [hkept hr]
      exact ⟨rfl, rfl⟩
  case refine_8 =>
    intro s addr cause hruns hlost
    refine ⟨congrArg Host.Outcome.next (if_pos ?_), fun m hm => State.peerLost_msgs hm⟩
    have hnow : s.lostNow addr cause.toNat = true := by
      unfold State.lostNow
      obtain ⟨rfl, hfour⟩ | ⟨rfl, m, hm, hdest, hlate⟩ := hlost
      · simp [hfour]
      · have hany : s.rly.msgs.any (fun m => m.dest = addr && decide (m.first + s.lossLaps * 4000 ≤ s.stride)) = true :=
          List.any_eq_true.2 ⟨m, hm, by simp [hdest, hlate]⟩
        simp [hany]
    simp [hruns, hnow]
  case refine_9 =>
    intro s q d hup hq hfield
    have hrow : exec (.loadRoster q d) s = .next _ := rlyCommand_row hup hq hfield _
    refine ⟨fun hzero => hrow.trans (congrArg Host.Outcome.next (if_pos hzero)), fun hlen => ⟨?_, ?_⟩⟩
    · rintro n rfl
      exact hrow.trans (congrArg Host.Outcome.next (if_neg hlen))
    · rintro bs img rfl rfl
      refine ⟨fun c hbad => ?_, fun hgood => ?_⟩
      · refine hrow.trans (congrArg Host.Outcome.next ((if_neg hlen).trans ?_))
        dsimp only
        rw [hbad]
      · refine hrow.trans (congrArg Host.Outcome.next ((if_neg hlen).trans ?_))
        dsimp only
        rw [hgood]
  case refine_10 =>
    intro s q hup hq hfield
    have hrow : exec (.rekey q) s = .next _ := rlyCommand_row hup hq hfield _
    refine ⟨fun hjoin hhead => ?_, fun hnot => ?_, ?_⟩
    · exact hrow.trans (congrArg Host.Outcome.next (if_pos (by simp [State.isKeyHead, hjoin, hhead])))
    · exact hrow.trans (congrArg Host.Outcome.next (if_neg (by
        unfold State.isKeyHead
        simpa using fun h => hnot.resolve_left (not_not_intro h))))
    · rintro d e rfl rfl
      exact State.installFieldKey_keys _ _ _
  case refine_11 =>
    intro s q ok hup hq hfield
    have hrow : exec (.dumpField q ok) s = .next _ := rlyCommand_row hup hq hfield _
    refine ⟨fun hshort => ?_, fun hroom hok => ?_, fun hroom hok => ?_⟩
    · exact hrow.trans (congrArg Host.Outcome.next (if_pos hshort))
    · exact hrow.trans (congrArg Host.Outcome.next ((if_neg (Nat.not_lt.2 hroom)).trans (if_pos (by simp [hok]))))
    · exact hrow.trans (congrArg Host.Outcome.next ((if_neg (Nat.not_lt.2 hroom)).trans (if_neg (by simp [hok]))))
  case refine_12 =>
    intro s q hup hq hfield
    have hrow : exec (.setTime q) s = .next _ := rlyCommand_row hup hq hfield _
    exact ⟨fun hhead => hrow.trans (congrArg Host.Outcome.next (if_pos hhead)),
      fun hhead => hrow.trans (congrArg Host.Outcome.next (if_neg hhead))⟩
  case refine_13 =>
    intro s ft cycles hfield hset
    obtain ⟨hfirst, hnext⟩ := State.ppsIn_edge ft cycles hfield hset
    refine ⟨fun hat => congrArg Host.Outcome.next (hfirst hat), fun a hat hlo hhi hclo hchi => ?_, fun a hat hbad => ?_⟩
    · refine congrArg Host.Outcome.next ((hnext a hat true (by simp [hlo, hhi, hclo, hchi])).trans ?_)
      simp
    · refine congrArg Host.Outcome.next ((hnext a hat false ?_).trans ?_)
      · symm
        simp only [Bool.and_eq_false_iff, decide_eq_false_iff_not]
        omega
      · simp

end Sys2Proof.Machine


/-! # Pairing (O58) -/

namespace Sys2Proof.Machine

/-- What a routed frame does, where nothing is injected. -/
theorem routed_row {s : State} (h : s.routed) (src : Nat) (c : RelayIn) :
    Host.Outcome.next (s.routedFrame src c) = (.next (s.frameAct c) : Res) :=
  congrArg Host.Outcome.next (State.routedFrame_of h src c)

theorem State.settle_keeps (s : State) (f : Awaited → Bool) :
    (s.settle f).rly.migOut = s.rly.migOut ∧ (s.settle f).slices = s.slices ∧ (s.settle f).slc = s.slc :=
  ⟨rfl, rfl, rfl⟩

/-! ### The partner's side (R842 to R845) -/

/-- A request, by its place among those answered, applied and held. -/
theorem State.postReq_of {s u : State} {src : Nat} {m : PostMsg} {p : Pairing} (h : s.routed) (hu : u = s.tookFrom src)
    (hp : p = (u.slice m.partner).pairing) :
    (∀ c, u.mirrorBad src m.primary m.partner = some c →
      s.postReq src m = u.sendReply src 0x11 [m.primary, m.pairSeq, c, 0, 0]) ∧
    (u.mirrorBad src m.primary m.partner = none →
      (∀ a, p.answers.find? (fun a => a.1 = m.pairSeq) = some a →
        s.postReq src m = u.sendReply src 0x11 [m.primary, m.pairSeq, a.2.1, a.2.2.stride, a.2.2.seq]) ∧
      (p.answers.find? (fun a => a.1 = m.pairSeq) = none → s.postReq src m =
        if m.pairSeq ≤ p.lastIn then u
        else if m.pairSeq = p.lastIn + 1 then (u.applyPost src m).drainInbox src m.partner p.inbox.length
        else if p.inbox.any (fun q => q.1 = m.pairSeq) then u
        else u.modPairing m.partner (fun q => { q with inbox := q.inbox ++ [(m.pairSeq, m)] }))) := by
  subst hu hp
  unfold State.postReq
  rw [State.onRouted_of h]
  refine ⟨fun c hc => ?_, fun hgood => ⟨fun a ha => ?_, fun hnew => ?_⟩⟩
  · rw [hc]
  · rw [hgood]
    dsimp only
    rw [ha]
  · rw [hgood]
    dsimp only
    rw [hnew]

/-- Settles O58: requests, answers and confirmations by the pairing's state, ACK by what waits for it. -/
theorem pairingCommands : Obligations.PairingCommands := by
  unfold Obligations.PairingCommands
  refine ⟨?_, ?_, ?_, ?_, ?_⟩
  case refine_1 =>
    intro s u src msg m i p h hu hp hi
    have hquiet : s.onHop 6 = s := State.onHop_quiet h.2.2 6
    have hrow : exec i s = .next (s.postReq src m) := by
      obtain rfl | rfl := hi
      all_goals exact (routed_row h src _).trans (congrArg (fun t => Host.Outcome.next (State.postReq t src m)) hquiet)
    obtain ⟨hbad, hgood⟩ := State.postReq_of h hu hp
    rw [hrow]
    refine ⟨fun c hc => congrArg Host.Outcome.next (hbad c hc), fun hok => ⟨fun a ha => ?_, fun hnew => ?_⟩⟩
    · exact congrArg Host.Outcome.next ((hgood hok).1 a ha)
    · have hplace := (hgood hok).2 hnew
      refine ⟨fun hold => ?_, fun hnext hempty => ?_, fun hlater hheld => ?_⟩
      · exact congrArg Host.Outcome.next (hplace.trans (if_pos hold))
      · refine congrArg Host.Outcome.next (hplace.trans ((if_neg (by omega)).trans ((if_pos hnext).trans ?_)))
        rw [hempty]
        rfl
      · exact congrArg Host.Outcome.next (hplace.trans ((if_neg (by omega)).trans ((if_neg (by omega)).trans
          (if_neg (by rw [hheld]; decide)))))
  case refine_2 =>
    rintro s u v src n seq cause w h hn rfl hw rfl
    have hrow : exec (.postAck src n seq cause) s = .next (s.postAck src n seq cause.toNat) :=
      (onSlice_of hn _).trans (routed_row h src _)
    rw [hrow]
    unfold State.postAck
    rw [State.onRouted_of h]
    dsimp only
    rw [hw]
    dsimp only
    refine ⟨fun hcause => ?_, fun hcause c hc => ?_, fun hcause hc hst hold => ?_⟩
    · refine congrArg Host.Outcome.next (if_pos ?_)
      simpa [BitVec.toNat_eq] using hcause
    · rw [if_neg (by simp [hcause]), hc]
    · rw [if_neg (by simp [hcause]), hc]
      exact congrArg Host.Outcome.next (if_pos (by simp [hst, hold]))
  case refine_3 =>
    rintro s u src msg next primary partner h rfl
    have hrow : exec (.pairConfirm src msg next primary partner) s = .next (s.pairConfirm src msg next primary partner) :=
      routed_row h src _
    rw [hrow]
    unfold State.pairConfirm
    rw [State.onRouted_of h]
    refine ⟨fun c hc => ?_, fun hok hacted => ?_, fun hok hacted => ?_⟩
    · rw [hc]
    · rw [hok]
      exact congrArg Host.Outcome.next (if_pos hacted)
    · rw [hok]
      exact congrArg Host.Outcome.next (if_neg (by rw [hacted]; decide))
  case refine_4 =>
    intro s n hn hruns hst hrole hlap hroute
    refine (onSlice_of hn _).trans (congrArg Host.Outcome.next ?_)
    unfold State.pairConfirmSend
    dsimp only
    cases hl : (s.slice n).pairing.confirmLap with
    | none => exact if_pos (by simp [hruns, hst, hrole, hroute])
    | some l => exact if_pos (by simp [hruns, hst, hrole, hroute, hlap l hl])
  case refine_5 =>
    rintro s u src id result m h rfl hm
    have hrow : exec (.ack src id result) s = .next (s.ackMsg src id result.toNat) := routed_row h src _
    rw [hrow]
    unfold State.ackMsg
    rw [State.onRouted_of h, hm]
    dsimp only
    rw [(State.settle_keeps _ _).1]
    refine ⟨fun hplain => ?_, fun o hresult htype ho => ?_⟩
    · obtain rfl | htype | hnone := hplain
      · exact congrArg Host.Outcome.next (if_pos (by simp))
      · exact congrArg Host.Outcome.next (if_pos (by simp [htype]))
      · rw [hnone]
        exact congrArg Host.Outcome.next (ite_self _)
    · rw [if_neg (by simpa [htype, BitVec.toNat_eq] using hresult), ho]

end Sys2Proof.Machine


/-! # Migration (O59) -/

namespace Sys2Proof.Machine

theorem State.noteSeen_keeps (s : State) (src msg : Nat) (m : MigIds) :
    (s.noteSeen src msg).rly.migOut = s.rly.migOut ∧ (s.noteSeen src msg).migIn? src m = s.migIn? src m := ⟨rfl, rfl⟩

/-- A run that comes after those received takes its place behind them. -/
theorem takeWhile_of_forall {l : List Nat} {p : Nat → Bool} (h : ∀ k ∈ l, p k = true) : l.takeWhile p = l := by
  induction l with
  | nil => rfl
  | cons k t ih =>
    rw [List.takeWhile_cons_of_pos (h k List.mem_cons_self), ih fun i hi => h i (List.mem_cons_of_mem k hi)]

theorem State.putRun_last {i : MigIn} {msg : Nat} {r : MigRun} (hids : ∀ k ∈ i.ids, k < msg)
    (hlen : i.ids.length = i.runs.length) : (State.putRun i msg r).runs = i.runs ++ [r] := by
  have hall : i.ids.takeWhile (fun k => decide (k < msg)) = i.ids :=
    takeWhile_of_forall fun k hk => decide_eq_true (hids k hk)
  unfold State.putRun
  dsimp only
  rw [hall, hlen, List.take_length, List.drop_length]

/-- Settles O59: each message by the migration it belongs to and by what came before it. -/
theorem migrationCommands : Obligations.MigrationCommands := by
  unfold Obligations.MigrationCommands
  refine ⟨?_, ?_, ?_, ?_, ?_, ?_, ?_, ?_, ?_⟩
  case refine_1 =>
    rintro s u src msg m len blocks h rfl
    have hrow : exec (.migOffer src msg m len blocks) s = .next (s.migOffer src m) := routed_row h src _
    rw [hrow]
    unfold State.migOffer
    rw [State.onRouted_of h]
    dsimp only
    refine ⟨fun hst haddr hslice hnew => ?_, fun hst haddr hslice hknown => ?_, fun hnot => ?_⟩
    · rw [if_pos (by simp [hst, haddr, hslice]), hnew]
      rfl
    · rw [if_pos (by simp [hst, haddr, hslice]), if_pos hknown]
    · refine congrArg Host.Outcome.next (if_neg ?_)
      simp only [Bool.and_eq_true, decide_eq_true_eq]
      rintro ⟨⟨hst, haddr⟩, hslice⟩
      obtain hn | hn | hn := hnot
      · exact hn hst
      · exact hn haddr
      · exact hn hslice
  case refine_2 =>
    rintro s u v src n serial cause m p h hn rfl hm hp hop hslice rfl
    have hrow : exec (.migReply src n cause serial) s = .next (s.migReply src n cause.toNat serial) :=
      (onSlice_of hn _).trans (routed_row h src _)
    rw [hrow]
    unfold State.migReply
    rw [State.onRouted_of h, hm, hp]
    dsimp only
    rw [if_neg (by simp [hop, hslice])]
    refine ⟨fun hcause => ?_, fun hcause => ?_⟩
    · exact congrArg Host.Outcome.next (if_pos (by simpa [BitVec.toNat_eq] using hcause))
    · exact congrArg Host.Outcome.next (if_neg (by simp [hcause]))
  case refine_3 =>
    rintro s u src msg m i b h rfl hi
    have hrow : exec (.migBaton src msg m b) s = .next (s.migBaton src msg m b) := routed_row h src _
    rw [hrow]
    unfold State.migBaton
    rw [State.onRouted_of h, hi]
    dsimp only
    refine ⟨fun hacted => ?_, fun hacted htag => ?_, fun hacted htag hnot => ?_, fun hacted htag hfits hfmt => ?_⟩
    · exact congrArg Host.Outcome.next (if_pos hacted)
    · rw [if_neg (by rw [hacted]; decide), if_pos (by rw [htag]; decide)]
    · have hbad : (!(s.tookFrom src).migFits b || b.namespaces.any (fun n => decide (4 < n.lbaf))) = true := by
        obtain hfits | ⟨n, hn, hlbaf⟩ := hnot
        · rw [hfits]
          rfl
        · rw [List.any_eq_true.2 ⟨n, hn, decide_eq_true hlbaf⟩, Bool.or_true]
      rw [if_neg (by rw [hacted]; decide), if_neg (by rw [htag]; decide), if_pos hbad]
    · have hgood : b.namespaces.any (fun n => decide (4 < n.lbaf)) = false :=
        List.any_eq_false.2 fun n hn => by simpa using hfmt n hn
      rw [if_neg (by rw [hacted]; decide), if_neg (by rw [htag]; decide), if_neg (by rw [hfits, hgood]; decide)]
  case refine_4 =>
    rintro s u src msg m i r h rfl hi
    have hrow : exec (.migData src msg m r) s = .next (s.migData src msg m r) := routed_row h src _
    rw [hrow]
    unfold State.migData
    rw [State.onRouted_of h, hi]
    exact ⟨fun hacted => congrArg Host.Outcome.next (if_pos hacted),
      fun hacted => congrArg Host.Outcome.next (if_neg (by rw [hacted]; decide)), State.putRun_last⟩
  case refine_5 =>
    rintro s u src msg m i count digest ok h rfl hi hok
    have hrow : exec (.migCommit src msg m count digest) s = .next (s.migCommit src m count digest) := routed_row h src _
    rw [hrow]
    unfold State.migCommit
    rw [State.onRouted_of h, hi]
    dsimp only
    rw [← hok]
    refine ⟨fun hdone => ?_, fun hopen hgood => ?_, fun hopen hbad => ?_⟩
    · exact congrArg Host.Outcome.next (if_pos hdone)
    · rw [if_neg (by rw [hopen]; decide), if_pos hgood]
    · rw [if_neg (by rw [hopen]; decide), if_neg (by rw [hbad]; decide)]
  case refine_6 =>
    rintro s u v src m o h rfl ho rfl
    have hrow : exec (.migCommitted src m) s = .next (s.migCommitted src m) := routed_row h src _
    rw [hrow]
    unfold State.migCommitted
    rw [State.onRouted_of h, ho]
    dsimp only
    exact ⟨fun hdone => congrArg Host.Outcome.next (if_pos hdone),
      fun hopen => congrArg Host.Outcome.next (if_neg (by rw [hopen]; decide))⟩
  case refine_7 =>
    rintro s u src msg m h rfl
    have hrow : exec (.migErased src msg m) s = .next (s.migErased src m) := routed_row h src _
    rw [hrow]
    unfold State.migErased
    rw [State.onRouted_of h]
    dsimp only
    refine ⟨fun i hi hdone => ?_, fun hopen => ?_⟩
    · rw [hi]
      dsimp only
      rw [if_pos hdone]
    · cases hi : (s.tookFrom src).migIn? src m with
      | none => rfl
      | some i =>
        dsimp only
        rw [if_neg (by rw [hopen i hi]; decide)]
  case refine_8 =>
    rintro s u src m h rfl
    have hrow : exec (.migErasedAck src m) s = .next (s.migErasedAck src m) := routed_row h src _
    rw [hrow]
    unfold State.migErasedAck
    rw [State.onRouted_of h]
    refine ⟨fun o ho => ?_, fun hnone => ?_⟩
    · rw [ho]
    · rw [hnone]
  case refine_9 =>
    rintro s u v src msg m cause h rfl rfl
    have hrow : exec (.migAbort src msg m cause) s = .next (s.migAbort src msg m) := routed_row h src _
    obtain ⟨hout, hin⟩ := (s.tookFrom src).noteSeen_keeps src msg m
    rw [hrow]
    unfold State.migAbort
    rw [State.onRouted_of h]
    dsimp only
    rw [hout, hin]
    refine ⟨fun hacted => ?_, fun hacted o ho => ?_, fun hacted hnone i hi hopen => ?_⟩
    · rw [if_pos hacted]
    · rw [if_neg (by rw [hacted]; decide), ho]
    · rw [if_neg (by rw [hacted]; decide), hnone, hi]
      dsimp only
      rw [if_neg (by rw [hopen]; decide)]

end Sys2Proof.Machine
